-- ==== Sys2Proof/Word.lean ====
section
/-! DEFINITION. The word types of the part (R2, R5, R6): bytes, 32-bit and 64-bit words. -/

namespace Sys2Proof

/-- A byte. -/
abbrev Byte := BitVec 8

/-- A 32-bit word: a crib word, an element of a row, a residue. -/
abbrev Word := BitVec 32

/-- A 64-bit word: a control-core register, a queue entry, an endpoint. -/
abbrev DWord := BitVec 64

end Sys2Proof
end

