-- ==== Sys2Proof/Syntax.lean ====
section
/-! DEFINITION. The commands of the part: one constructor of `Instr` for each row of spec/opcode_table.json, with the
operands the rule of the row gives it (log 5), and the types of those operands. -/

namespace Sys2Proof

/-- A logical array of a compute die (R10): die 0..7, array 0..63. -/
structure ArrId where
  die : Nat
  arr : Nat
  deriving DecidableEq, Repr

/-- A PCIe function of a host port (R391): port 0..1, function 0..63; function 0 is physical. -/
structure FnId where
  port : Nat
  fn : Nat
  deriving DecidableEq, Repr

/-- Who makes a dictionary request (R423): a PCIe function, the MCTP endpoint, a remote package over a link. -/
inductive Requester where
  | fn (f : FnId)
  | mctp
  | remote (pkg link : Nat)
  deriving DecidableEq, Repr

/-- REFCLK_STATE (R338). -/
inductive RefState where
  | absent | locked | spread
  deriving DecidableEq, Repr

/-- A firmware slot of board flash as the ROM reads it (R502): its 4,096-byte header, the firmware bytes behind it, and
whether the header's signature verifies under the key in ROM (log 7). -/
structure FwSlot where
  header : List Byte := []
  steward : List Byte := []
  security : List Byte := []
  sigOk : Bool := true
  deriving DecidableEq, Repr

/-- What the ROM reads and what the self-tests of R503..R507 find: outcomes of the hardware, so operands (log 7). -/
structure BootEnv where
  fwA : FwSlot
  fwB : FwSlot
  refclk : RefState
  /-- failing physical slots, as (die, physical slot), after the repeat of R507. -/
  bistFail : List (Nat × Nat)
  /-- compute dies whose unit tests fail. -/
  unitFail : List Nat
  hubFail : Bool
  stackFail : List Nat
  entropyOk : Bool
  signetOk : Bool
  /-- the DeviceID certificate reads and matches (R445 steps 3, 4). -/
  certOk : Bool
  /-- controller rows the stacks cannot repair in the reset's repair of R295: (stack, row key). -/
  unrepaired : List (Nat × Nat)
  /-- repaired rows that their spares could not be copied back to correctly (R295): (stack, row key). -/
  uncopied : List (Nat × Nat) := []
  /-- a plan load was in step 5 of R331 when the reset came. -/
  loading : Bool := false
  deriving DecidableEq, Repr

/-- Reception of one frame (R361): the header fields, the outcomes of the CRC and of the GCM tag check, and the symbols that
the decoder corrected in its codeword (R359). -/
structure Rx where
  link : Nat
  fcnt : Nat
  chan : Nat
  ack : Nat
  crcOk : Bool
  tagOk : Bool
  corrected : Nat := 0
  deriving DecidableEq, Repr

/-- The head of a domain-control message (R383). -/
structure DHdr where
  dst : Nat
  src : Nat
  mseq : Nat
  epoch : Nat
  deriving DecidableEq, Repr

/-- The OPEN payload (R363). -/
structure OpenBody where
  dst : DWord
  len : Nat
  rows : Nat
  aop : Nat
  bflags : Nat
  dstride : Nat
  inc : Nat
  group : Nat
  /-- SSTATE: check state, domain, a sheaf travels. -/
  cstate : BitVec 4
  domain : Bool
  sheaf : Bool
  level : Nat
  srcLarr : Nat
  block : Nat
  jobId : Nat
  dseq : Nat
  deriving DecidableEq, Repr

/-- One landing acknowledgement of a LACK frame (R362), with what the landing gave: the status flags of an atomic, and the
kind, subcode and INDEX of a fault at the destination (R242, R259, R260, log 74). -/
structure LackEntry where
  larr : Nat
  block : Nat
  inc : Nat
  dseq : Nat
  flags : Nat := 0
  fault : Option (Nat × Nat × Nat) := none
  deriving DecidableEq, Repr

/-- The body of a HELLO (R367). -/
structure HelloBody where
  pkg : Nat
  link : Nat
  width : Nat
  svn : Nat
  serial : Nat
  ordering : List Byte := []
  stepping : List Byte := []
  deriving DecidableEq, Repr

/-- What the receiver drops as a transmission error (R362, R364, R367, R384): a codeword that it cannot correct, a frame of an
unlisted TYPE, or an LCTL or DCTL frame (the latter with its head and body) of an unlisted SUBTYPE. -/
inductive BadFrame where
  | codeword (link : Nat)
  | badType (link : Nat)
  | badSubtype (rx : Rx) (head : Option (DHdr × List Byte)) (subtype : Nat)
  deriving DecidableEq, Repr

/-- What a link's receiver finds in steps 1 to 3 of training (R369, R370): the lanes with signal, whether it locks to PRBS7 on
lanes 0 and 1, the lanes that equalisation marks, and whether codewords lock and the lanes deskew. -/
structure TrainRef where
  link : Nat
  signal : BitVec 8 := 0xFF
  prbs7 : Bool := false
  weak : List Nat := []
  lock : Bool := true
  deriving DecidableEq, Repr

/-- The host sets Bus Master Enable of a function; on function 0 with the number of virtual functions enabled (R391). -/
structure FnEnable where
  fn : FnId
  vfs : Nat := 63
  deriving DecidableEq, Repr

/-- The host writes and unmasks an entry of a function's MSI-X table (R392, R413): the message's address and data. -/
structure MsixVec where
  vec : Nat
  addr : Nat := 0
  data : Nat := 0
  deriving DecidableEq, Repr

/-- The body of a REKEY (R367). -/
structure RekeyBody where
  answer : Bool
  switchLoHi : Nat
  switchHiLo : Nat
  epk : List Byte
  deriving DecidableEq, Repr

/-- One entry of a BIND message (R384). -/
structure BindEntry where
  jobId : Nat
  bpos : Nat
  inc : Nat
  deriving DecidableEq, Repr

/-- A management-channel message (R378). -/
structure MgmtMsg where
  dst : Nat
  src : Nat
  status : Nat
  tag : Nat
  index : Nat
  sub : Nat
  frag : Nat
  value : List Byte
  deriving DecidableEq, Repr

/-- A dictionary request in a function's mailbox (R426). -/
structure MboxReq where
  op : Nat
  tag : Nat
  index : Nat
  sub : Nat
  value : List Byte
  deriving DecidableEq, Repr

/-- An MCTP dictionary message (R428). -/
structure MctpMsg where
  op : Nat
  tag : Nat
  index : Nat
  sub : Nat
  frag : Nat
  value : List Byte
  deriving DecidableEq, Repr

/-- The command header of a long word (R195). -/
structure Hdr where
  gap : BitVec 14
  waitg : BitVec 4
  nwid : Bool
  nsh : BitVec 5
  narrow : Bool
  act : BitVec 2
  anchor : Bool
  verify : Bool
  rescale : Bool
  ptadd : Bool
  sk : BitVec 5
  sck : Bool
  scale : Bool
  flagout : Bool
  token : Bool
  tag : BitVec 24
  deriving DecidableEq, Repr

/-- The cell slot (R199). -/
structure CellSlot where
  opc : BitVec 6
  bsrc : BitVec 2
  k : BitVec 5
  const : Word
  deriving DecidableEq, Repr

/-- The network slot (R201). -/
structure NetSlot where
  nopc : BitVec 4
  dom : Bool
  neg : Bool
  gm : BitVec 18
  deriving DecidableEq, Repr

/-- The vector slot (R202). -/
structure VecSlot where
  vopc : BitVec 7
  type : BitVec 3
  ttype : BitVec 3
  rm : BitVec 2
  ftz : Bool
  s1 : BitVec 2
  s2 : BitVec 2
  s3 : BitVec 2
  dest : Bool
  vrep : BitVec 9
  const : Word
  deriving DecidableEq, Repr

/-- The fold/accumulate slot (R200). -/
structure AccSlot where
  aop : BitVec 4
  e0 : BitVec 6
  ediv : BitVec 8
  fprime : BitVec 7
  rep : BitVec 7
  deriving DecidableEq, Repr

/-- The crib addressing slot (R198); NLIMB and ROWS are encoded minus 1. -/
structure CribSlot where
  pset : BitVec 3
  lpos : BitVec 7
  nlimb : BitVec 4
  arow : BitVec 8
  brow : BitVec 8
  drow : BitVec 8
  rows : BitVec 8
  xop : BitVec 2
  deriving DecidableEq, Repr

/-- The queue slot (R204). BIND bits from the most significant: LS0, LS1, LS2, LS3, LW, LF. -/
structure QueSlot where
  bind : BitVec 6
  omode : BitVec 2
  deriving DecidableEq, Repr

/-- A long word (R192): its slots, each present or absent. The CRIB and QUE slots are the effective ones of R207. -/
structure LongWord where
  cell : Option CellSlot
  net : Option NetSlot
  vec : Option VecSlot
  acc : Option AccSlot
  crib : Option CribSlot
  que : Option QueSlot
  /-- the stored word carries no CRIB slot: `crib` is taken from the word before it. -/
  cribTaken : Bool := false
  /-- the stored word carries no QUE slot: `que` is taken from the word before it. -/
  queTaken : Bool := false
  deriving DecidableEq, Repr

/-- What a detector of the array reports while a word runs (log 7). -/
inductive DetKind where
  /-- the reduction check of a result word fails (R58). -/
  | reduction
  /-- a word of a refresh set: the recomposition test of a decomposition fails, or a table entry is not below Q_r (R150,
  R152). -/
  | recomposition
  /-- the transform checksum of a limb fails (R46). -/
  | transform
  /-- the two routing decoders disagree (R101). -/
  | perm
  /-- a crib read finds a single-bit error, corrected (R76). -/
  | cribCorr
  /-- a crib read finds an uncorrectable error (R76). -/
  | cribUncorr
  /-- an accumulator read finds a single-bit error, corrected (R76, R83). -/
  | accCorr
  /-- an accumulator read finds an uncorrectable error (R83). -/
  | accUncorr
  /-- a store read finds an uncorrectable error (R306). -/
  | storeUncorr
  /-- a loft read finds a single-bit error, corrected (R234). -/
  | loftCorr
  /-- a loft read finds an uncorrectable error (R234). -/
  | loftUncorr
  /-- a wider error passes undetected or is miscorrected: the word reads as this value (R535). -/
  | wrong (v : Word)
  deriving DecidableEq, Repr

/-- One report: what, at which row of the word, on which cell or word (the INDEX of R226 where it is no cell), and how many
gear cycles after the word issued (R226), of a transform checksum after its tail began (R46); whether the odd array of a
pair reports it (R94), and for a loft read the port LS0..LS3, or 6 for the reads of a VERIFY or ANCHOR stage, where
the step is the number of the row among those the stage reads. -/
structure Detect where
  kind : DetKind
  step : Nat
  cell : Nat
  cycle : Nat
  odd : Bool := false
  port : Nat := 0
  deriving DecidableEq, Repr

/-- One engine operation of a long word (R191, R192): the array, the header of its command, the word's place in the
command, whether this operation opens and closes its word (a word may carry a cell and a vector operation), whether
the word is the command's last, and what the detectors report. -/
structure Exec where
  arr : ArrId
  hdr : Hdr
  stage : BitVec 3
  opens : Bool
  closes : Bool
  last : Bool
  w : LongWord
  dets : List Detect
  deriving DecidableEq, Repr

/-- An access-stream word's fields beside its opcode (R537). -/
structure CcWord where
  arr : ArrId
  pneg : Bool
  pred : BitVec 2
  rd : BitVec 5
  rs1 : BitVec 5
  rs2 : BitVec 5
  x : BitVec 8
  imm : BitVec 32
  /-- what detectors report while the word issues: the instruction store's code (R306), the loft's of an LD, an XFER, a DMAQ
  or a REQ, the crib's of an XFER. -/
  dets : List Detect
  /-- the other package refuses the read of an LD, as one of a weight tensor (R271). -/
  refused : Bool := false
  deriving DecidableEq, Repr

/-- What a stack controller finds in the 32 codewords of a line it reads (R286, R290): corrections that the stack's on-die
ECC reports, codewords with one and with two bytes corrected, the re-reads it took (at most 2), and whether the line is not
correctable after them. -/
structure LineState where
  dev : Nat := 0
  one : Nat := 0
  two : Nat := 0
  retries : Nat := 0
  bad : Bool := false
  deriving DecidableEq, Repr

/-- A line with no error. -/
def LineState.clean : LineState := {}

/-- A line that two re-reads have not corrected. -/
def LineState.dead : LineState := { retries := 2, bad := true }

/-- An edge of PPS_IN: the time base value at its capture, and whether it falls (R344). -/
structure PpsEdge where
  time : Nat
  falling : Bool := false
  deriving DecidableEq, Repr

/-- A slot that starts, and the state in which the controllers find each line of the key that an INSTALL slot reads
(R146, R290, R312); a JOB slot's start reads none. -/
structure SlotBegin where
  slot : Nat
  lines : List LineState := []
  deriving DecidableEq, Repr

/-- What the detectors of a thresher or a binder report: the two copies of the unit differ (R140), the coefficient on which a
reduction check of its modulus switch fails (R58, R137), and the loft rows it reads with an error, each with its number among
them and whether it is corrected (R234). -/
structure UnitDet where
  mismatch : Bool := false
  reduction : Option Nat := none
  ecc : List (Nat × Bool) := []
  deriving DecidableEq, Repr

/-- One erroneous 8-byte word of a loft row (R234): its index in the row and whether it is correctable. -/
structure WordErr where
  word : Nat
  corr : Bool
  deriving DecidableEq, Repr

/-- A block of an outstanding descriptor: issuing array, DSEQ, block number; the host's completion error if any (DMA subcode
1 or 2, R227); whether another package refuses the read of its source, as one of a weight tensor (R271); the 1,024-byte rows
of a loft source that have an error, counted from its first, and whether it is corrected (R234). -/
structure BlockRef where
  arr : ArrId
  dseq : Nat
  blk : Nat
  hostErr : Option Nat
  refused : Bool := false
  ecc : List (Nat × Bool) := []
  deriving DecidableEq, Repr

/-- An array whose atomic at the head of the landing buffer runs, or whose stalled DMAQ goes on, and the loft rows then read that
have an error, each with the number of the row in its handle and whether it is corrected (R234). -/
structure ReadRef where
  arr : ArrId
  ecc : List (Nat × Bool) := []
  deriving DecidableEq, Repr

/-- A controller row of a stack (R288): channel, pseudo-channel, bank, row. -/
structure RowId where
  stack : Nat
  chan : Nat
  pc : Nat
  bank : Nat
  row : Nat
  deriving DecidableEq, Repr

/-- The secret that an uncorrectable vault read loses (R443). -/
inductive VaultItem where
  | identityKey
  | wrapKey
  | linkSession (j : Nat)
  | share
  | drbg
  deriving DecidableEq, Repr

/-- The instructions of the test access port (R442, R533). -/
inductive JtagInstr where
  | bypass | idcode | samplePreload | other
  deriving DecidableEq, Repr

/-- The commands of the part, one per row of spec/opcode_table.json. -/
inductive Instr where
  /-- PWRGOOD_ASSERT (R504): Assertion of PWRGOOD starts the cold boot sequence from OFF into BOOT. -/
  | pwrgoodAssert (env : BootEnv)
  /-- PWRGOOD_DEASSERT (R499): Deassertion of PWRGOOD puts the part in OFF within 1 µs, stops every clock and releases the open-drain outputs. -/
  | pwrgoodDeassert
  /-- PERST_BOTH_WARM_RESET (R509): PERST0_N and PERST1_N asserted together for at least 1 ms outside BOOT trigger a warm reset. -/
  | perstBothWarmReset (env : BootEnv)
  /-- PORT_RESET (R513): PERSTn_N of one port asserted alone resets that port's link, configuration space, BARs, MSI-X tables and selector copies. -/
  | portReset (port : Nat)
  /-- FUNCTION_LEVEL_RESET (R515): An FLR resets the function's streams, abandons its mailbox request and fails its uploads, submissions and partial-decryption reads. -/
  | functionLevelReset (f : FnId)
  /-- BUS_MASTER_ENABLE_SET (R413): Setting Bus Master Enable releases held stream records and pending MSI-X messages of the function. -/
  | busMasterEnableSet (f : FnEnable)
  /-- MSIX_UNMASK (R413): Unmasking an MSI-X vector sends the message whose bit is set in the pending-bit array. -/
  | msixUnmask (f : FnId) (v : MsixVec)
  /-- HOST_PORT_FAILURE (R418): A port link down for 100 ms or an uncorrectable port error moves streams to their alternate function and re-executes unfinished bound jobs. -/
  | hostPortFailure (port : Nat)
  /-- REFCLK_LOCK (R507): Lock of REFCLK_SYS after a STANDBY entered without it runs the deferred die, stack and link tests and clears NO_REFCLK. -/
  | refclkLock (env : BootEnv)
  /-- REFCLK_STATE_CHANGE (R338): The REFCLK PLL reports ABSENT, LOCKED or SPREAD, and PPS_STATE falls to ABSENT when the state is not LOCKED. -/
  | refclkStateChange (st : RefState)
  /-- BOOT_COMPLETE (R504): Completion of the boot sequence brings PART_STATE to STANDBY within 900 ms, and every area answers. -/
  | bootComplete
  /-- THERMAL_BOOT_HOLD_RELEASE (R529): After a warm reset out of a thermal SAFE, BOOT leaves STAGE 0 once every sensor reads below 95 °C. -/
  | thermalBootHoldRelease
  /-- LINK_START (R504): Link Jj starts at 120 + 12.5 × j ms after reset and begins training at step 1. -/
  | linkStart (r : TrainRef)
  /-- NOT_READY_WAIT_EXPIRY (R506): The backoff wait after a peer's NOT_READY expires, and the link tries step 1 of training again. -/
  | notReadyWaitExpiry (r : TrainRef)
  /-- TRAINING_RETRY (R369): A link that failed a training step retries from step 1 after 1 s, and stays FAILED with TRAIN after 10 failures. -/
  | trainingRetry (r : TrainRef)
  /-- LANE_FAILURE (R371): A lane that loses lock or exceeds the error ratio drops its pair, and the link retrains narrower or fails with LANES. -/
  | laneFailure (j : Nat) (lane : Nat)
  /-- FLOCK_LOSS (R372): A domain link whose recovered clock loses frequency lock is FAILED with reason FLOCK. -/
  | flockLoss (j : Nat)
  /-- IDLE (R362): Reception of an IDLE frame, checked and dropped by FCNT, CRC and codeword rules. -/
  | idle (rx : Rx)
  /-- OPEN (R363): Reception of an OPEN frame opens a block on its CHAN with destination, length, incarnation and sheaf state. -/
  | openFrame (rx : Rx) (o : OpenBody)
  /-- DATA (R362): Reception of a DATA frame delivers 256 bytes of the open block on its CHAN, or forwards it by the hub's table. -/
  | dataFrame (rx : Rx) (payload : List Byte)
  /-- LACK (R363): Reception of a LACK frame matches landing acknowledgements to blocks by array, DSEQ, block and incarnation. -/
  | lack (rx : Rx) (es : List LackEntry)
  /-- NAK (R364): A NAK makes the sender resend every held frame from the named FCNT, and a seventh resend of one frame fails the link. -/
  | nak (rx : Rx) (expect : Nat)
  /-- DELAY (R376): A DELAY frame yields the one-way delay and offset of the link, failing it with DELAY above MAX_DELAY_NS. -/
  | delayFrame (rx : Rx) (tTx echoTx echoRx rxTime : Nat)
  /-- HELLO (R369): A HELLO frame carries the peer's package address, identity and link number during training. -/
  | hello (rx : Rx) (h : HelloBody)
  /-- KEX (R447): KEX fragments carry the peer's certificates, ephemeral key and signature, after which the session keys are derived. -/
  | kex (rx : Rx) (frag : Nat) (lastFrag : Bool) (body : List Byte)
  /-- REKEY (R368): A REKEY frame initiates or answers a rekey that names switch FCNTs for each direction. -/
  | rekey (rx : Rx) (b : RekeyBody)
  /-- PATH_DOWN (R375): A PATH_DOWN faults unacknowledged blocks on the path and moves the route to its next usable path. -/
  | pathDown (rx : Rx) (chan reason : Nat)
  /-- PATH_UP (R375): A PATH_UP makes the path usable again at the next epoch boundary. -/
  | pathUp (rx : Rx) (chan epoch : Nat)
  /-- REKEY_START (R368): When a direction's SCNT reaches 2^47, the side with the lower address and link starts a rekey. -/
  | rekeyStart (j : Nat)
  /-- REKEY_RETRY (R368): A rekey not completed within 100 ms is retried once per second. -/
  | rekeyRetry (j : Nat)
  /-- SESSION_KEY_SWITCH (R368): At its switch FCNT a direction changes key and SCNT restarts at 0. -/
  | sessionKeySwitch (j : Nat) (tx : Bool)
  /-- SCNT_HALT (R368): A direction whose next frame would bring SCNT to 2^48 − 2^20 stops, fails with HALT and trains a new session. -/
  | scntHalt (j : Nat) (tx : Bool)
  /-- AUTH_FAIL_LIMIT (R366): More than 16 tag failures on a link within 1 s fail the link with reason AUTH. -/
  | authFailLimit (j : Nat)
  /-- JOIN (R380): The lead receives a JOIN and answers with ACCEPT or JOIN_REFUSED. -/
  | join (rx : Rx) (d : DHdr) (planId : Nat) (digest : List Byte)
  /-- ACCEPT (R380): The joiner receives ACCEPT, loads the whole-second time value and becomes a member from the named epoch. -/
  | accept (rx : Rx) (d : DHdr) (firstEpoch second : Nat) (members : List Nat)
  /-- JOIN_REFUSED (R384): The joiner receives JOIN_REFUSED and refuses its enable with the given code. -/
  | joinRefused (rx : Rx) (d : DHdr) (reason : Nat)
  /-- ACCEPT_TIMEOUT (R390): No ACCEPT within 1 s refuses the enable with code 0x44. -/
  | acceptTimeout
  /-- READY (R381): The lead receives a member's READY for a PENDING domain job. -/
  | ready (rx : Rx) (d : DHdr) (jobId prog tenant : Nat)
  /-- REFUSE (R381): A REFUSE makes the lead refuse the job to every member, or a member complete it with DOMAIN_REFUSED. -/
  | refuse (rx : Rx) (d : DHdr) (jobId code : Nat)
  /-- ADMIT (R381): A member receives ADMIT, writes the job's RECEIPT and admits it to its slot queue. -/
  | admitJob (rx : Rx) (d : DHdr) (jobId aseq : Nat)
  /-- ADMIT_WAIT_EXPIRY (R381): When ADMIT_WAIT epochs pass without READY from every member, the lead refuses the job to all. -/
  | admitWaitExpiry (jobId : Nat)
  /-- LEAD_BIND_DECISION (R382): BIND_LEAD quanta before a DOMAIN slot's bind point, the lead chooses jobs by fair sharing and sends BIND. -/
  | leadBindDecision (epoch slot : Nat)
  /-- BIND (R315): A member receives BIND, naming the jobs and positions it binds into the slot. -/
  | bind (rx : Rx) (d : DHdr) (epoch slot : Nat) (es : List BindEntry)
  /-- TICK (R384): A member receives the lead's per-epoch TICK with lead, deputy and membership. -/
  | tick (rx : Rx) (d : DHdr) (lead deputy admitted : Nat) (members : List Nat)
  /-- LEAD_LOST (R388): After 100 epochs without TICK, the deputy becomes lead and collects queues by QREQ. -/
  | leadLost
  /-- ABANDON (R386): An ABANDON makes the lead forward it and each member abandon and re-queue that incarnation. -/
  | abandon (rx : Rx) (d : DHdr) (jobId inc cause : Nat)
  /-- LEAVE (R387): The lead receives LEAVE, abandons domain incarnations in progress and binds no DOMAIN slot. -/
  | leave (rx : Rx) (d : DHdr) (reason : Nat)
  /-- DOMAIN_REJOIN (R387): A member fit for 3 consecutive seconds after leaving joins its domain again. -/
  | domainRejoin
  /-- VDECIDE (R326): The lead receives a member's variant decision and announces it to the domain. -/
  | vdecide (rx : Rx) (d : DHdr) (variant e : Nat)
  /-- VANNOUNCE (R326): A member records the announced variant switch and epoch E and answers with VACK. -/
  | vannounce (rx : Rx) (d : DHdr) (origin variant e : Nat)
  /-- VACK (R326): The lead records a member's acknowledgement of a variant announcement. -/
  | vack (rx : Rx) (d : DHdr) (origin e : Nat)
  /-- RESIDENT (R385): The lead records a member's residency state of a refresh key for eligibility. -/
  | resident (rx : Rx) (d : DHdr) (tenant keyId st : Nat)
  /-- QREQ (R388): A member answers a new lead's QREQ with its admitted and PENDING jobs in QREPORT. -/
  | qreq (rx : Rx) (d : DHdr)
  /-- QREPORT (R388): The new lead collects QREPORT fragments and resumes binding after every reachable member reports LAST. -/
  | qreport (rx : Rx) (d : DHdr) (frag : Nat) (lastFrag : Bool) (es : List (Nat × Nat))
  /-- FAILJOB (R412): A FAILJOB marks a domain job's position unfilled and completes it with INPUT_RANGE at the slot's end. -/
  | failjob (rx : Rx) (d : DHdr) (jobId inc status detail : Nat)
  /-- MGMT_READ (R378): A management-channel read message is served, forwarded or refused under the access rights. -/
  | mgmtRead (rx : Rx) (m : MgmtMsg)
  /-- MGMT_WRITE (R379): A management-channel write message is served or refused under R379. -/
  | mgmtWrite (rx : Rx) (m : MgmtMsg)
  /-- MGMT_RESPONSE (R378): A management-channel response message returns to its requester. -/
  | mgmtResponse (rx : Rx) (m : MgmtMsg)
  /-- MGMT_TIMEOUT (R379): A management request with no response within 10 ms is counted in MGMT_TIMEOUTS. -/
  | mgmtTimeout (tag : Nat)
  /-- PPS_EDGE (R344): A PPS_IN edge is captured, validated, updates PPS_STATE, aligns or schedules steps, and loads a pending TIME_SET. -/
  | ppsEdge (edge : PpsEdge)
  /-- PPS_LOST (R344): No valid edge for 2.5 s while LOCKED moves PPS_STATE to HOLDOVER and logs PPS_LOST. -/
  | ppsLost
  /-- TIME_SET (R340): A write of a whole-second value is loaded at once or waits for the next valid PPS edge. -/
  | timeSet (q : Requester) (value : List Byte)
  /-- EPOCH_BOUNDARY (R466): At each epoch boundary the health manager evaluates fences, retirements, gear, variant, throttling and replace triggers. -/
  | epochBoundary
  /-- GEAR_RELOCK_DONE (R354): After the first 40 µs of a switch epoch the gear PLLs have relocked and arrays may issue work. -/
  | gearRelockDone
  /-- BIND_POINT (R314): At a JOB slot's bind point the part chooses a tenant by fair sharing and binds 1..B eligible jobs. -/
  | bindPoint (epoch slot : Nat)
  /-- SLOT_START (R312): A bound JOB or INSTALL slot starts, clears crib and accumulators and begins its stated commands. -/
  | slotStart (slot : SlotBegin)
  /-- FALLOW_SLOT_START (R313): A FALLOW slot starts and background work runs in tier order. -/
  | fallowSlotStart (slot : Nat) (replicas : List (Nat × Nat))
  /-- SLOT_END (R183): At a slot boundary the slot status is ORed into cumulative status and completion flags, and REUSE entries are freed. -/
  | slotEnd (slot : Nat)
  /-- SLOT_PACED_ABANDON (R321): In paced mode a slot whose actual end would pass the next FALLOW start or epoch end is abandoned there. -/
  | slotPacedAbandon (slot : Nat)
  /-- SLOT_DEADLINE_ABANDON (R322): In real-time mode a slot is abandoned on the first cycle its delay exceeds TOLERANCE, with a DEADLINE record. -/
  | slotDeadlineAbandon (slot : Nat) (a : ArrId) (group cycle tag : Nat)
  /-- RELEASE_SLOT (R223): At each 64 ns release slot buckets refill and arrays release 1,024-byte units of their request lists. -/
  | releaseSlot
  /-- COMMAND_DELAY (R196): A command whose words carry no slot is a delay of GAP cycles. -/
  | commandDelay (x : Exec)
  /-- CRIB_LOAD (R75): A LOAD transfer moves loft rows through port LS0 into crib rows, encoding codes when the handle has an encoder entry. -/
  | cribLoad (x : Exec)
  /-- CRIB_STORE (R75): A STORE transfer moves crib rows through port LW into the loft. -/
  | cribStore (x : Exec)
  /-- CELL_MOVE (R80): The cell MOVE operation copies the A operand to the D rows. -/
  | cellMove (x : Exec)
  /-- CELL_MADD (R80): The cell MADD operation writes (a + b) mod q. -/
  | cellMadd (x : Exec)
  /-- CELL_MSUB (R80): The cell MSUB operation writes (a − b) mod q. -/
  | cellMsub (x : Exec)
  /-- CELL_MNEG (R80): The cell MNEG operation writes (q − a) mod q. -/
  | cellMneg (x : Exec)
  /-- CELL_MSCAL (R80): The cell MSCAL operation writes (k × a) mod q. -/
  | cellMscal (x : Exec)
  /-- CELL_MMUL (R80): The cell MMUL operation writes (a × b) mod q by Barrett reduction. -/
  | cellMmul (x : Exec)
  /-- CELL_MMULC (R80): The cell MMULC operation writes (a × c) mod q. -/
  | cellMmulc (x : Exec)
  /-- MAC (R80): MAC adds a × b to an accumulator entry and its term count. -/
  | mac (x : Exec)
  /-- MACN (R80): MACN adds a × (q − b) to an accumulator entry and its term count. -/
  | macn (x : Exec)
  /-- MACC (R80): MACC adds a × c to an accumulator entry and its term count. -/
  | macc (x : Exec)
  /-- ALPHA (R80): ALPHA adds floor(a × f_j / 2^32) to an accumulator entry for the overflow estimate. -/
  | alpha (x : Exec)
  /-- IMMA (R89): IMMA accumulates four int8 products into an int32 entry with saturation. -/
  | imma (x : Exec)
  /-- FOLD_CLR (R80): FOLD.CLR writes an entry reduced modulo the named prime and clears the entry. -/
  | foldClr (x : Exec)
  /-- FOLD_KEEP (R80): FOLD.KEEP writes the reduced entry and keeps it with a count of 1. -/
  | foldKeep (x : Exec)
  /-- NTT (R91): The forward transform of the named limbs, checked by the transform checksum in its tail. -/
  | ntt (x : Exec)
  /-- INTT (R91): The inverse transform of the named limbs, with N^−1 applied in its last stage. -/
  | intt (x : Exec)
  /-- AUTO (R97): The permutation network applies the automorphism X → X^g to whole limbs. -/
  | auto (x : Exec)
  /-- MULX (R99): Multiplication by ±X^m on the network or as a pointwise product. -/
  | mulx (x : Exec)
  /-- VEC_MADD (R174): Vector modular addition. -/
  | vecMadd (x : Exec)
  /-- VEC_MSUB (R174): Vector modular subtraction. -/
  | vecMsub (x : Exec)
  /-- VEC_MNEG (R174): Vector modular negation. -/
  | vecMneg (x : Exec)
  /-- VEC_MMUL (R174): Vector modular multiplication. -/
  | vecMmul (x : Exec)
  /-- VEC_MMULC (R174): Vector modular multiplication by a constant. -/
  | vecMmulc (x : Exec)
  /-- VEC_MSCAL (R174): Vector modular multiplication by a small integer. -/
  | vecMscal (x : Exec)
  /-- MLIFT (R174): Vector centred residue reduced to another prime. -/
  | mlift (x : Exec)
  /-- MRED (R174): Vector reduction of int32 to a residue. -/
  | mred (x : Exec)
  /-- MCEN (R174): Vector centred lift of a residue to int32. -/
  | mcen (x : Exec)
  /-- VEC_ADD (R174): Vector integer addition modulo 2^w. -/
  | vecAdd (x : Exec)
  /-- VEC_SUB (R174): Vector integer subtraction modulo 2^w. -/
  | vecSub (x : Exec)
  /-- VEC_MUL (R174): Vector integer multiplication keeping the low bits. -/
  | vecMul (x : Exec)
  /-- VEC_MULH (R174): Vector integer multiplication keeping the high bits. -/
  | vecMulh (x : Exec)
  /-- ADDS (R174): Vector saturating integer addition. -/
  | adds (x : Exec)
  /-- SUBS (R174): Vector saturating integer subtraction. -/
  | subs (x : Exec)
  /-- IDIV (R174): Vector integer division rounding toward zero. -/
  | idiv (x : Exec)
  /-- VEC_MIN (R174): Vector integer minimum. -/
  | vecMin (x : Exec)
  /-- VEC_MAX (R174): Vector integer maximum. -/
  | vecMax (x : Exec)
  /-- ABS (R174): Vector integer absolute value. -/
  | vabs (x : Exec)
  /-- NEG (R174): Vector integer negation. -/
  | vneg (x : Exec)
  /-- VEC_AND (R174): Vector bitwise AND. -/
  | vecAnd (x : Exec)
  /-- VEC_OR (R174): Vector bitwise OR. -/
  | vecOr (x : Exec)
  /-- VEC_XOR (R174): Vector bitwise XOR. -/
  | vecXor (x : Exec)
  /-- NOT (R174): Vector bitwise NOT. -/
  | vnot (x : Exec)
  /-- VEC_SHL (R174): Vector shift left. -/
  | vecShl (x : Exec)
  /-- VEC_SHR (R174): Vector logical shift right. -/
  | vecShr (x : Exec)
  /-- VEC_SAR (R174): Vector arithmetic shift right. -/
  | vecSar (x : Exec)
  /-- VEC_CMP_EQ (R174): Vector compare for equality giving a mask. -/
  | vecCmpEq (x : Exec)
  /-- VEC_CMP_NE (R174): Vector compare for inequality giving a mask. -/
  | vecCmpNe (x : Exec)
  /-- VEC_CMP_LT (R174): Vector compare less-than giving a mask. -/
  | vecCmpLt (x : Exec)
  /-- VEC_CMP_LE (R174): Vector compare less-or-equal giving a mask. -/
  | vecCmpLe (x : Exec)
  /-- SEL (R174): Vector select by mask. -/
  | sel (x : Exec)
  /-- FADD (R174): Vector floating-point addition. -/
  | fadd (x : Exec)
  /-- FSUB (R174): Vector floating-point subtraction. -/
  | fsub (x : Exec)
  /-- FMUL (R174): Vector floating-point multiplication. -/
  | fmul (x : Exec)
  /-- FMA (R174): Vector fused multiply-add with one rounding. -/
  | fma (x : Exec)
  /-- FDIV (R174): Vector floating-point division. -/
  | fdiv (x : Exec)
  /-- FSQRT (R174): Vector floating-point square root. -/
  | fsqrt (x : Exec)
  /-- FMIN (R174): Vector floating-point minimumNumber. -/
  | fmin (x : Exec)
  /-- FMAX (R174): Vector floating-point maximumNumber. -/
  | fmax (x : Exec)
  /-- FABS (R174): Vector floating-point sign clear. -/
  | fabs (x : Exec)
  /-- FNEG (R174): Vector floating-point sign inversion. -/
  | fneg (x : Exec)
  /-- FCVT (R174): Vector conversion between floating-point and other types. -/
  | fcvt (x : Exec)
  /-- CVT (R174): Vector conversion between integer widths. -/
  | cvt (x : Exec)
  /-- RSUM_S (R175): Vector per-lane sum over the rows of a stream. -/
  | rsumS (x : Exec)
  /-- RSUM_L (R175): Vector sum of all elements of a row. -/
  | rsumL (x : Exec)
  /-- CC_END (R537): The control core issues nothing more in the slot. -/
  | ccEnd (c : CcWord)
  /-- CC_ADD (R537): Control-core integer addition. -/
  | ccAdd (c : CcWord)
  /-- CC_SUB (R537): Control-core integer subtraction. -/
  | ccSub (c : CcWord)
  /-- CC_AND (R537): Control-core bitwise AND. -/
  | ccAnd (c : CcWord)
  /-- CC_OR (R537): Control-core bitwise OR. -/
  | ccOr (c : CcWord)
  /-- CC_XOR (R537): Control-core bitwise XOR. -/
  | ccXor (c : CcWord)
  /-- CC_SHL (R537): Control-core shift left. -/
  | ccShl (c : CcWord)
  /-- CC_SHR (R537): Control-core logical shift right. -/
  | ccShr (c : CcWord)
  /-- CC_SAR (R537): Control-core arithmetic shift right. -/
  | ccSar (c : CcWord)
  /-- CC_MIN (R537): Control-core signed minimum. -/
  | ccMin (c : CcWord)
  /-- CC_MAX (R537): Control-core signed maximum. -/
  | ccMax (c : CcWord)
  /-- LI (R537): Control-core load of a sign-extended immediate. -/
  | li (c : CcWord)
  /-- LUI (R537): Control-core load of an immediate into the upper half. -/
  | lui (c : CcWord)
  /-- CC_MUL (R537): Control-core multiplication, low 64 bits. -/
  | ccMul (c : CcWord)
  /-- CC_MULH (R537): Control-core signed multiplication, high 64 bits. -/
  | ccMulh (c : CcWord)
  /-- CC_CMP_EQ (R537): Control-core equality compare into a predicate. -/
  | ccCmpEq (c : CcWord)
  /-- CC_CMP_LT (R537): Control-core signed less-than compare into a predicate. -/
  | ccCmpLt (c : CcWord)
  /-- CC_CMP_LTU (R537): Control-core unsigned less-than compare into a predicate. -/
  | ccCmpLtu (c : CcWord)
  /-- LOOP (R537): Opens a counted loop, or skips the body when the count is 0. -/
  | loop (c : CcWord)
  /-- ENDL (R537): Closes the innermost counted loop. -/
  | endl (c : CcWord)
  /-- LD (R188): Control-core load through a handle on a narrow-port grant. -/
  | ld (c : CcWord)
  /-- ST (R188): Control-core posted store through a handle. -/
  | st (c : CcWord)
  /-- LDJ (R537): Reads 8 bytes of a batch position's job descriptor. -/
  | ldj (c : CcWord)
  /-- MFS (R537): Reads a special register of the control core. -/
  | mfs (c : CcWord)
  /-- AQPUSH (R214): Pushes an entry to the address queue. -/
  | aqpush (c : CcWord)
  /-- OQPUSH (R537): Pushes an entry to the operand queue. -/
  | oqpush (c : CcWord)
  /-- TQWAIT (R189): Waits for and consumes tokens from the token queue. -/
  | tqwait (c : CcWord)
  /-- CC_STALL_RELEASE (R189): A control core stalled on a full queue, DMA list or missing tokens resumes once the condition clears. -/
  | ccStallRelease (a : ReadRef)
  /-- XFER_LC (R537): Control-core transfer of loft rows into crib rows. -/
  | xferLc (c : CcWord)
  /-- XFER_CL (R537): Control-core transfer of crib rows into loft rows. -/
  | xferCl (c : CcWord)
  /-- DMAQ (R219): Passes a block-list descriptor to the die DMA. -/
  | dmaq (c : CcWord)
  /-- REQ (R221): Passes a request to the sower, granary, thresher or binder. -/
  | req (c : CcWord)
  /-- ACQ (R250): Invalidates every cache line of a handle. -/
  | acq (c : CcWord)
  /-- ACQ_B (R250): Makes the next load through a handle bypass the cache. -/
  | acqB (c : CcWord)
  /-- FENCE (R250): Stalls the control core until earlier stores and DMAQs are accepted. -/
  | fence (c : CcWord)
  /-- TWAIT (R537): Waits until a named release slot of the epoch. -/
  | twait (c : CcWord)
  /-- NOP (R537): Control-core no-operation. -/
  | nop (c : CcWord)
  /-- SOWER_REQUEST (R117): The sower regenerates a seeded key limb by SHAKE128 into a loft. -/
  | sowerRequest (die : Nat) (mismatch : Option Nat)
  /-- GRANARY_READ (R123): A granary read with its hint is delivered from cache or stack to the named dies on its timed cycle. -/
  | granaryRead (die : Nat) (lines : List LineState)
  /-- EXTRACT (R141): The thresher extracts small LWE samples from a verified level-1 ciphertext. -/
  | extract (die : Nat) (det : UnitDet)
  /-- BINDER_REQUEST (R155): The binder writes level-1 ring pairs from wide samples into a loft. -/
  | binderRequest (die : Nat) (det : UnitDet)
  /-- BLOCK_WRITE (R219): The die DMA moves a block with AOP 0 between loft, remote loft or host buffer. -/
  | blockWrite (b : BlockRef)
  /-- LOFT_ARRIVAL (R249): An arrival written by the narrow port becomes visible, with input-range checks, stale drops and flag setting. -/
  | loftArrival (a : ArrId)
  /-- MODULAR_ADD (R258): Atomic modular add executed at the home element. -/
  | modularAdd (a : ReadRef)
  /-- INT32_ADD (R258): Atomic int32 add with saturation flag executed at the home element. -/
  | int32Add (a : ReadRef)
  /-- FP32_ADD (R258): Atomic fp32 add executed at the home element. -/
  | fp32Add (a : ReadRef)
  /-- ATOMIC_MIN (R258): Atomic signed minimum executed at the home element. -/
  | atomicMin (a : ReadRef)
  /-- ATOMIC_MAX (R258): Atomic signed maximum executed at the home element. -/
  | atomicMax (a : ReadRef)
  /-- SWAP (R258): Atomic swap returning the old value to the source. -/
  | swap (a : ReadRef)
  /-- COMPARE_AND_SWAP (R258): Atomic compare-and-swap returning the old value to the source. -/
  | compareAndSwap (a : ReadRef)
  /-- DOORBELL_SQ_TAIL (R401): A write of SQ_TAIL tells the part of new descriptors, or drops or errors the stream. -/
  | doorbellSqTail (f : FnId) (stream width value : Nat)
  /-- DOORBELL_CQ_HEAD (R401): A write of CQ_HEAD frees completion-ring room and releases held records. -/
  | doorbellCqHead (f : FnId) (stream width value : Nat)
  /-- DESCRIPTOR_DECIDE (R404): The part reads a descriptor and refuses it, holds it PENDING or accepts it with a RECEIPT. -/
  | descriptorDecide (stream : Nat)
  /-- COMPLETION (R410): A finished job's COMPLETION is written in SEQ order after its outputs are visible, freeing its credit. -/
  | completion (stream : Nat)
  /-- IRQ_DELAY_EXPIRY (R413): An interrupt held by STR_IRQ_DELAY is raised when the delay ends. -/
  | irqDelayExpiry (stream : Nat)
  /-- MAILBOX_GO (R427): A write of 1 to GO submits a dictionary request from the function's mailbox. -/
  | mailboxGo (f : FnId) (m : MboxReq)
  /-- MCTP_DICTIONARY_MESSAGE (R428): An MCTP vendor-defined dictionary read or write message is served. -/
  | mctpDictionaryMessage (m : MctpMsg)
  /-- FRAGMENT_TIMEOUT (R429): More than 100 ms between fragments of a write discards it with RANGE. -/
  | fragmentTimeout (q : Requester) (tag : Nat)
  /-- ENTDAA (R428): The I3C target takes its dynamic address by ENTDAA. -/
  | entdaa (addr : Nat)
  /-- SET_ENDPOINT_ID (R428): MCTP control command Set Endpoint ID. -/
  | setEndpointId (eid : Nat)
  /-- GET_ENDPOINT_ID (R428): MCTP control command Get Endpoint ID. -/
  | getEndpointId
  /-- GET_MCTP_VERSION_SUPPORT (R428): MCTP control command Get MCTP Version Support. -/
  | getMctpVersionSupport
  /-- GET_MESSAGE_TYPE_SUPPORT (R428): MCTP control command Get Message Type Support. -/
  | getMessageTypeSupport
  /-- GET_VENDOR_DEFINED_MSG_SUPPORT (R428): MCTP control command Get Vendor Defined Message Support. -/
  | getVendorDefinedMsgSupport
  /-- DICT_WRITE (R421): A write to a dictionary entry without behaviour of its own, checked against range, type and access. -/
  | dictWrite (q : Requester) (index sub : Nat) (value : List Byte)
  /-- DEVICE_ENABLE_SET (R431): A write of 1 to DEVICE_ENABLE runs the consistency check and enables the part. -/
  | deviceEnableSet (q : Requester)
  /-- ENABLE_CHECK_DONE (R431): The consistency check ends, refusing with a reason or enabling and replaying the journal. -/
  | enableCheckDone
  /-- DEVICE_ENABLE_CLEAR (R432): A write of 0 to DEVICE_ENABLE stops reading descriptors and binding. -/
  | deviceEnableClear (q : Requester)
  /-- DISABLE_COMPLETE (R432): Once bound slots end, DEVICE_ENABLE reads 0 and the part returns to STANDBY. -/
  | disableComplete
  /-- PLAN_LOAD (R331): A write of 1 to PLAN_LOAD starts reading and checking a plan image. -/
  | planLoad (q : Requester)
  /-- PLAN_LOAD_DONE (R331): The load check ends, refusing the plan or loading it after the second read and digest compare. -/
  | planLoadDone
  /-- KEY_LOAD (R127): A write of 1 to KEY_LOAD queues a key upload for the selected tenant. -/
  | keyLoad (q : Requester)
  /-- KEY_UPLOAD_DONE (R127): A key upload ends all or nothing with DONE or REFUSED and a reason. -/
  | keyUploadDone (tenant : Nat)
  /-- KEY_DROP (R129): Writing a KEY_ID drops that key and frees it after admitted jobs complete. -/
  | keyDrop (q : Requester) (keyId : Nat)
  /-- VAR_REQUEST (R325): Writing a variant requests and pins a switch to it, or is refused. -/
  | varRequest (q : Requester) (v : Nat)
  /-- LINK_RETRAIN (R369): Writing 1 trains the link again from step 1. -/
  | linkRetrain (q : Requester) (j : Nat)
  /-- MRG_RUN (R300): Writing 1 starts a margining sweep of the selected stack. -/
  | mrgRun (q : Requester)
  /-- MARGIN_SWEEP_DONE (R300): A margining sweep ends and MRG_RESULT holds each channel's result. -/
  | marginSweepDone (results : List Word)
  /-- TEN_ACTIVATE (R394): TEN_CTL 1 makes the tenant ACTIVE. -/
  | tenActivate (q : Requester)
  /-- TEN_DISABLE (R394): TEN_CTL 2 makes an ACTIVE tenant DISABLED. -/
  | tenDisable (q : Requester)
  /-- TEN_CLEAR (R394): TEN_CTL 3 clears a DISABLED tenant's keys, share, settings and counters and makes it FREE. -/
  | tenClear (q : Requester)
  /-- STREAM_ENABLE (R396): STR_CTL 1 enables a stream afresh or continues it, or puts it in ERROR. -/
  | streamEnable (q : Requester)
  /-- STREAM_DISABLE (R402): STR_CTL 2 makes a stream DRAINING until its admitted jobs complete. -/
  | streamDisable (q : Requester)
  /-- STREAM_RESET (R514): STR_CTL 3 completes unbound jobs with STREAM_RESET and disables the stream once credits are free. -/
  | streamReset (q : Requester)
  /-- MIRROR_SNAP_TAKE (R437): MIRROR_SNAP 1 takes a snapshot of the mirror pages. -/
  | mirrorSnapTake (q : Requester)
  /-- MIRROR_SNAP_RELEASE (R437): MIRROR_SNAP 2 releases the held snapshot. -/
  | mirrorSnapRelease (q : Requester)
  /-- SNAPSHOT_EXPIRY (R437): A snapshot is released 10 s after its holder's last read of area 0xC000. -/
  | snapshotExpiry
  /-- MIRROR_BLOCK_READ (R435): A read of an 0xC010 page returns records from MIRROR_FIRST and advances it. -/
  | mirrorBlockRead (q : Requester) (sub : Nat)
  /-- LOFT_LAND_HWM_READ (R262): A read of LOFT_LAND_HWM returns and resets it. -/
  | loftLandHwmRead (q : Requester) (die : Nat)
  /-- SLOT_DELAY_MAX_READ (R336): A read of SLOT_DELAY_MAX returns and resets it. -/
  | slotDelayMaxRead (q : Requester)
  /-- DOMAIN_SKEW_NS_READ (R356): A read of DOMAIN_SKEW_NS returns and resets it. -/
  | domainSkewNsRead (q : Requester)
  /-- DIE_TEMP_MAX_READ (R496): A read of DIE_TEMP_MAX returns it and sets it to DIE_TEMP. -/
  | dieTempMaxRead (q : Requester) (die : Nat)
  /-- DUMP_RUN (R438): Writing 1 copies a loft's IMAGE rows to host memory, or reads back REFUSED while enabled. -/
  | dumpRun (q : Requester)
  /-- SHARE_OFFER (R456): Writing 1 makes a signed share offer with a fresh ephemeral key and nonce. -/
  | shareOffer (q : Requester)
  /-- SHARE_OFFER_EXPIRY (R456): A share offer expires 600 s after it is made. -/
  | shareOfferExpiry (tenant : Nat)
  /-- SHARE_SUBMIT (R456): Writing 1 reads, verifies, decrypts and wraps a share submission. -/
  | shareSubmit (q : Requester)
  /-- SHARE_WIPE (R457): Writing 1 erases the tenant's wrapped share and refuses queued requests. -/
  | shareWipe (q : Requester)
  /-- PDEC_RUN (R459): Writing 1 queues a partial decryption request of the tenant. -/
  | pdecRun (q : Requester)
  /-- PARTIAL_DECRYPTION (R459): A partial decryption verifies, unwraps, floods with noise, computes, writes and signs its response. -/
  | partialDecryption
  /-- HM_RUN (R461): Writing 1 builds and signs a hallmark report. -/
  | hmRun (q : Requester)
  /-- SIGNET_OPERATION_DONE (R454): A Signet engine operation ends, wipes operand memory and starts the next queued request. -/
  | signetOperationDone (mismatch : Bool)
  /-- ENTROPY_FAIL (R450): A health-test failure stops the DRBG and makes the entropy source UNHEALTHY or FAILED. -/
  | entropyFail
  /-- ENTROPY_RETEST (R450): Once per second the startup tests repeat and, when they pass, the DRBG is instantiated afresh. -/
  | entropyRetest (pass : Bool)
  /-- VAULT_UNCORRECTABLE (R443): An uncorrectable vault read discards the secret and recovers it by its kind. -/
  | vaultUncorrectable (what : VaultItem)
  /-- JTAG_INSTRUCTION (R442): Loading an instruction other than BYPASS, IDCODE or SAMPLE/PRELOAD wipes the vault and enters SAFE. -/
  | jtagInstruction (i : JtagInstr)
  /-- RESET_CMD_COLD (R517): RESET_CMD 1 starts a cold reset 1 ms after the response. -/
  | resetCmdCold (q : Requester) (env : BootEnv)
  /-- RESET_CMD_WARM (R517): RESET_CMD 2 starts a warm reset 1 ms after the response. -/
  | resetCmdWarm (q : Requester) (env : BootEnv)
  /-- FENCE_DIE (R472): Writing d fences compute die d permanently. -/
  | fenceDie (q : Requester) (die : Nat)
  /-- DIE_PLL_LOSS (R471): A die PLL out of lock for more than 1 ms, or no steward answer for 10 ms, forces a hard fence. -/
  | diePllLoss (die : Nat)
  /-- RETIRE_ARRAY (R468): Writing a global logical array number retires that array. -/
  | retireArray (q : Requester) (larr : Nat)
  /-- RETIREMENT_COPY (R469): In fallow slots the loft and stores are copied to a spare and the logical number moves there. -/
  | retirementCopy (die : Nat)
  /-- EVT_ACK (R482): Writing a SEQ acknowledges that log entry, and 0xFFFF_FFFF acknowledges all. -/
  | evtAck (q : Requester) (seq : Nat)
  /-- TEMP_SAMPLE (R473): Each 1 ms sensor and power sample may step the gear down or stop binding at 102 °C. -/
  | tempSample (temps : List (Nat × Int)) (powers : List (Nat × Nat))
  /-- BIND_RESUME (R474): Binding resumes when every die has read below 100 °C for 10 ms. -/
  | bindResume
  /-- GEAR_STEP_UP (R473): After 10 s of cool temperature and low power the permitted gear steps up one gear. -/
  | gearStepUp
  /-- THERMTRIP_N (R529): A reading of 112 °C asserts THERMTRIP_N, stops compute clocks and enters SAFE. -/
  | thermtripN
  /-- HUB_FAILURE (R485): A hub die failure enters SAFE. -/
  | hubFailure (hub : Nat)
  /-- STEWARD_FAILOVER (R479): A steward pair mismatch halts it, and the HB1 mirror takes over within 10 ms. -/
  | stewardFailover
  /-- STEWARD_MIRROR_FAILURE (R485): Failure of the steward mirror after a failover enters SAFE. -/
  | stewardMirrorFailure
  /-- HEALTH_SWEEP (R491): A sweep self-tests a SPARE physical slot every 600 s and retires it on failure. -/
  | healthSweep (die pslot : Nat) (pass : Bool)
  /-- LOFT_SCRUB (R235): Fallow-slot reading of every loft row at least every 60 s, handling errors under R234. -/
  | loftScrub (die pslot row : Nat) (errs : List WordErr)
  /-- KEY_REHASH (R460): Fallow-slot re-hash of key blocks, marking a mismatching key CORRUPT and logging KEY_DIGEST. -/
  | keyRehash (tenant keyId block : Nat)
  /-- BG_BEHIND (R492): A missed loft scrub or 1,000 missed delay measurements logs BG_BEHIND. -/
  | bgBehind (tier : Nat)
  /-- GLEANER_BLOCK_READ (R296): The gleaner reads and corrects a stack block at GLN_RATE in fallow slots. -/
  | gleanerBlockRead (stack block : Nat) (lines : List LineState)
  /-- GLEANER_ESCALATE (R297): A pass not ended after 20 h takes every free fallow cycle. -/
  | gleanerEscalate
  /-- GLEANER_BEHIND (R297): A pass not ended after 24 h logs GLEANER_BEHIND and asserts ALERT_N. -/
  | gleanerBehind
  /-- HBM_REFRESH (R286): Per-bank refresh of a stack, at double rate above 85 °C. -/
  | hbmRefresh (stack bank : Nat)
  /-- ROW_REMAP_COPY (R293): A remap candidate row is copied, corrected, into a spare row in fallow slots. -/
  | rowRemapCopy (row : RowId)
  /-- ROW_REMAP (R293): At the next fallow boundary after the copy the row is redirected to the spare and recorded. -/
  | rowRemap (row : RowId)
  /-- STACK_LOST (R299): A lost stack is removed, its keys become CORRUPT, mirrored reads go to the other copy and replacement is requested. -/
  | stackLost (stack : Nat)
  /-- RECORD_PROGRAM (R488): A queued persistent-record entry is programmed within the 32 per 10 s limit. -/
  | recordProgram (fail : Bool)
  /-- PERST_RELEASE (R504): Release of PERSTn_N lets the port train its PCIe link within 100 ms and answer configuration requests. -/
  | perstRelease (port : Nat)
  /-- HOST_PORT_RETURN (R418): A failed host port's link comes up again, and held streams without an alternate function resume writing their records and reading descriptors. -/
  | hostPortReturn (port : Nat)
  /-- UNCORRECTABLE_CODEWORD (R364): A received codeword that the decoder cannot correct, or a frame of an unlisted TYPE, is dropped, counted as a transmission error, and the first of a run draws a NAK. -/
  | uncorrectableCodeword (f : BadFrame)
  deriving DecidableEq, Repr

end Sys2Proof
end

