-- ==== Sys2Proof/WellFormed.lean ====
section
/-! DEFINITION. The well-formed commands: operands inside the ranges of R10, execute words inside the rules of
R196..R204, access-stream words inside R537 and R540. -/

namespace Sys2Proof

/-- A logical array of R10. -/
def ArrId.wf (a : ArrId) : Bool := decide (a.die < 8) && decide (a.arr < 64)

/-- A PCIe function of R391. -/
def FnId.wf (f : FnId) : Bool := decide (f.port < 2) && decide (f.fn < 64)

/-- A requester of R423. -/
def Requester.wf : Requester → Bool
  | .fn f => f.wf
  | .mctp => true
  | .remote p j => decide (p < 512) && decide (j < 32)

/-- A link of R10. -/
def linkWf (j : Nat) : Bool := decide (j < 32)

/-- A received frame names a link. -/
def Rx.wf (r : Rx) : Bool := linkWf r.link && decide (r.chan < 256)

/-- The link that a bad frame came by. -/
def BadFrame.wf : BadFrame → Bool
  | .codeword j | .badType j => linkWf j
  | .badSubtype rx _ _ => rx.wf

/-- A function exists in the numbering (R391). -/
def FnEnable.wf (f : FnEnable) : Bool := f.fn.wf && decide (f.vfs < 64)

/-- A vector of a function's MSI-X table (R391). -/
def MsixVec.wf (v : MsixVec) : Bool := decide (v.vec < 32)

/-- The rows a CRIB slot names stay inside 0..255 (R197); `a`, `b`, `d` say which row ranges the word uses. -/
def CribSlot.rowsOk (c : CribSlot) (a b d : Bool) : Bool :=
  (!a || decide (c.arow.toNat + c.rows.toNat ≤ 255)) && (!b || decide (c.brow.toNat + c.rows.toNat ≤ 255)) &&
    (!d || decide (c.drow.toNat + c.rows.toNat ≤ 255))

/-- The accumulating cell opcodes MAC, MACN, MACC, ALPHA, IMMA (R203). -/
def accumulating (opc : BitVec 6) : Bool := decide (0x08 ≤ opc.toNat) && decide (opc.toNat ≤ 0x0C)

/-- The word-wide rules of R196..R204 that need no plan. -/
def Exec.shapeOk (x : Exec) : Bool :=
  let w := x.w
  !(w.cell.isSome && w.net.isSome) &&
  (match w.cell, w.acc with
   | some c, some a => if accumulating c.opc then a.aop == 1 else false
   | some c, none => !accumulating c.opc
   | none, some a => a.aop == 2 || a.aop == 3
   | none, none => true) &&
  (match w.crib with
   | some c =>
     c.xop != 3 && (c.xop == 0 || !(w.cell.isSome || w.net.isSome || w.vec.isSome || w.acc.isSome))
   | none => !(w.cell.isSome || w.net.isSome || w.vec.isSome || w.acc.isSome)) &&
  (match w.que with | some q => q.omode != 3 | none => true) && x.hdr.act != 3 &&
  (!w.cribTaken || (x.stage != 0 && w.crib.any fun c => c.xop == 0)) &&
  (!w.queTaken || (x.stage != 0 && w.que.any fun q => q.bind == 0))

/-- A word that runs a cell operation of the given opcode (R199, R203). -/
def Exec.cellOk (x : Exec) (opc : BitVec 6) : Bool :=
  x.arr.wf && x.shapeOk &&
  (match x.w.cell, x.w.crib with
   | some c, some cr =>
     c.opc == opc &&
       cr.rowsOk true (c.bsrc == 0 && (opc == 2 || opc == 3 || opc == 6 || opc == 8 || opc == 9 || opc == 0x0C))
         (!accumulating opc && opc != 0x10 && opc != 0x11)
   | _, _ => false)

/-- A word that runs a fold of the given operation (R200). -/
def Exec.foldOk (x : Exec) (aop : BitVec 4) : Bool :=
  x.arr.wf && x.shapeOk &&
  (match x.w.acc, x.w.crib with
   | some a, some c => a.aop == aop && c.rowsOk false false true
   | _, _ => false)

/-- A word that runs a network operation (R201). -/
def Exec.netOk (x : Exec) (nopc : BitVec 4) : Bool :=
  x.arr.wf && x.shapeOk &&
  (match x.w.net, x.w.crib with
   | some n, some c => n.nopc == nopc && c.rowsOk true false true
   | _, _ => false)

/-- The sources a vector opcode reads (R202): 1, 2 or 3. -/
def vecSources (vopc : BitVec 7) : Nat :=
  let v := vopc.toNat
  if v = 0x2C ∨ v = 0x33 then 3
  else if v = 0x01 ∨ v = 0x02 ∨ v = 0x04 then 2
  else if (0x10 ≤ v ∧ v ≤ 0x18) ∨ (0x1B ≤ v ∧ v ≤ 0x1D) ∨ (0x1F ≤ v ∧ v ≤ 0x21) then 2
  else if 0x28 ≤ v ∧ v ≤ 0x2B then 2
  else if v = 0x30 ∨ v = 0x31 ∨ v = 0x32 ∨ v = 0x34 ∨ v = 0x36 ∨ v = 0x37 then 2
  else 1

/-- The source selections of R202: a source the operation reads is named, one it does not read is not. -/
def VecSlot.srcOk (v : VecSlot) : Bool :=
  let n := vecSources v.vopc
  if v.vopc = 0x05 then (v.s2 == 0 || v.s2 == 3) && v.s3 == 0
  else (if 2 ≤ n then v.s2 != 0 else v.s2 == 0) && (if n = 3 then v.s3 != 0 else v.s3 == 0)

/-- The types R174 allows for an opcode (R203): TYPE 0 MOD, 1..3 integers, 4 FP32, 5 BF16. -/
def VecSlot.typeOk (v : VecSlot) : Bool :=
  let o := v.vopc.toNat
  let t := v.type.toNat
  let u := v.ttype.toNat
  let isInt (n : Nat) : Bool := decide (1 ≤ n ∧ n ≤ 3)
  let isFp (n : Nat) : Bool := n == 4 || n == 5
  if o ≤ 7 then t == 0
  else if o = 8 then t == 3 && u == 0
  else if o = 9 then t == 0 && u == 3
  else if o ≤ 0x21 then isInt t
  else if o = 0x28 ∨ o = 0x29 then decide (t ≤ 5)
  else if o = 0x2A ∨ o = 0x2B then decide (1 ≤ t ∧ t ≤ 5)
  else if o = 0x2C then decide (t ≤ 5)
  else if o ≤ 0x39 then isFp t
  else if o = 0x3A then (isFp t && (isInt u || (isFp u && u != t))) || (isInt t && isFp u)
  else if o = 0x3B then isInt t && isInt u
  else decide (t ≤ 5)

/-- Bytes of an element of a TYPE code (R172, R202). -/
def typeBytes (t : Nat) : Nat := match t with
  | 1 => 1 | 2 => 2 | 5 => 2 | _ => 4

/-- Crib rows that one pass over `rows` source rows writes (R159, R174, R202): one element a source row for RSUM.L, one row in
all for RSUM.S, and as many bytes as the result elements take otherwise. -/
def vecRows (v : VecSlot) (rows : Nat) : Nat :=
  let b := typeBytes v.type.toNat
  if v.vopc = 0x40 then 1
  else if v.vopc = 0x41 then (rows * b + 1023) / 1024
  else if v.vopc = 0x3A ∨ v.vopc = 0x3B then max 1 ((rows * typeBytes v.ttype.toNat + b - 1) / b)
  else rows

/-- A word that runs a vector operation of the given opcode (R202, R203); the rows it writes lie inside 0..255 (R197). -/
def Exec.vecOk (x : Exec) (vopc : BitVec 7) : Bool :=
  x.arr.wf && x.shapeOk &&
  (match x.w.vec, x.w.crib with
   | some v, some c =>
     v.vopc == vopc && v.srcOk && v.typeOk &&
       c.rowsOk (v.s1 == 1) (v.s2 == 2 || v.s3 == 2) false &&
       (!v.dest || decide (c.drow.toNat + vecRows v (c.rows.toNat + 1) ≤ 256))
   | _, _ => false)

/-- A transfer word (R198): XOP 1 LOAD or 2 STORE. -/
def Exec.xferOk (x : Exec) (xop : BitVec 2) : Bool :=
  x.arr.wf && x.shapeOk &&
  (match x.w.crib with
   | some c => c.xop == xop && c.rowsOk (xop == 2) false (xop == 1)
   | none => false)

/-- A delay, a command whose words carry no slot (R196), or another word with no operation (R207). -/
def Exec.delayOk (x : Exec) : Bool :=
  x.arr.wf && x.shapeOk && x.w.cell.isNone && x.w.net.isNone && x.w.vec.isNone && x.w.acc.isNone &&
    x.w.crib.all fun c => c.xop == 0

/-- The fields an access-stream word does not use are 0 (R537, R540): which of RD, RS1, RS2, X, IMM are used. -/
def CcWord.fields (c : CcWord) (rd rs1 rs2 x imm : Bool) : Bool :=
  c.arr.wf && (rd || c.rd == 0) && (rs1 || c.rs1 == 0) && (rs2 || c.rs2 == 0) && (x || c.x == 0) && (imm || c.imm == 0)

/-- A two-operand word: B is RS2 or IMM by X[0] (R537). -/
def CcWord.binOk (c : CcWord) : Bool :=
  (c.x == 0 || c.x == 1) && c.fields true true (c.x == 0) true (c.x == 1)

/-- A compare names P1..P3 (R540). -/
def CcWord.cmpOk (c : CcWord) : Bool := c.binOk && decide (1 ≤ c.rd.toNat ∧ c.rd.toNat ≤ 3)

/-- END, LOOP and ENDL carry PRED 0 and PNEG 0 (R537). -/
def CcWord.plain (c : CcWord) : Bool := c.pred == 0 && !c.pneg

/-- A stack controller re-reads a line at most twice, and gives up only then (R290). -/
def LineState.wf (l : LineState) : Bool := decide (l.retries ≤ 2) && (!l.bad || l.retries == 2)

/-- The well-formed commands. -/
def Instr.wf : Instr → Bool
  | .pwrgoodAssert _ => true
  | .pwrgoodDeassert => true
  | .perstBothWarmReset _ => true
  | .portReset port => decide (port < 2)
  | .functionLevelReset f => f.wf
  | .busMasterEnableSet f => f.wf
  | .msixUnmask f v => f.wf && v.wf
  | .hostPortFailure port => decide (port < 2)
  | .refclkLock _ => true
  | .refclkStateChange _ => true
  | .bootComplete => true
  | .thermalBootHoldRelease => true
  | .linkStart r => linkWf r.link
  | .notReadyWaitExpiry r => linkWf r.link
  | .trainingRetry r => linkWf r.link
  | .laneFailure j lane => linkWf j && decide (lane < 8)
  | .flockLoss j => linkWf j
  | .idle rx => rx.wf
  | .openFrame rx _ => rx.wf
  | .dataFrame rx _ => rx.wf
  | .lack rx _ => rx.wf
  | .nak rx _ => rx.wf
  | .delayFrame rx _ _ _ _ => rx.wf
  | .hello rx _ => rx.wf
  | .kex rx _ _ _ => rx.wf
  | .rekey rx _ => rx.wf
  | .pathDown rx _ _ => rx.wf
  | .pathUp rx _ _ => rx.wf
  | .rekeyStart j => linkWf j
  | .rekeyRetry j => linkWf j
  | .sessionKeySwitch j _ => linkWf j
  | .scntHalt j _ => linkWf j
  | .authFailLimit j => linkWf j
  | .join rx _ _ _ => rx.wf
  | .accept rx _ _ _ _ => rx.wf
  | .joinRefused rx _ _ => rx.wf
  | .acceptTimeout => true
  | .ready rx _ _ _ _ => rx.wf
  | .refuse rx _ _ _ => rx.wf
  | .admitJob rx _ _ _ => rx.wf
  | .admitWaitExpiry _ => true
  | .leadBindDecision _ _ => true
  | .bind rx _ _ _ _ => rx.wf
  | .tick rx _ _ _ _ _ => rx.wf
  | .leadLost => true
  | .abandon rx _ _ _ _ => rx.wf
  | .leave rx _ _ => rx.wf
  | .domainRejoin => true
  | .vdecide rx _ _ _ => rx.wf
  | .vannounce rx _ _ _ _ => rx.wf
  | .vack rx _ _ _ => rx.wf
  | .resident rx _ _ _ _ => rx.wf
  | .qreq rx _ => rx.wf
  | .qreport rx _ _ _ _ => rx.wf
  | .failjob rx _ _ _ _ _ => rx.wf
  | .mgmtRead rx _ => rx.wf
  | .mgmtWrite rx _ => rx.wf
  | .mgmtResponse rx _ => rx.wf
  | .mgmtTimeout _ => true
  | .ppsEdge _ => true
  | .ppsLost => true
  | .timeSet q _ => q.wf
  | .epochBoundary => true
  | .gearRelockDone => true
  | .bindPoint _ _ => true
  | .slotStart b => b.lines.all (·.wf)
  | .fallowSlotStart _ _ => true
  | .slotEnd _ => true
  | .slotPacedAbandon _ => true
  | .slotDeadlineAbandon _ a _ _ _ => a.wf
  | .releaseSlot => true
  | .commandDelay x => x.delayOk
  | .cribLoad x => x.xferOk 1
  | .cribStore x => x.xferOk 2
  | .cellMove x => x.cellOk 0x01
  | .cellMadd x => x.cellOk 0x02
  | .cellMsub x => x.cellOk 0x03
  | .cellMneg x => x.cellOk 0x04
  | .cellMscal x => x.cellOk 0x05
  | .cellMmul x => x.cellOk 0x06
  | .cellMmulc x => x.cellOk 0x07
  | .mac x => x.cellOk 0x08
  | .macn x => x.cellOk 0x09
  | .macc x => x.cellOk 0x0A
  | .alpha x => x.cellOk 0x0B
  | .imma x => x.cellOk 0x0C
  | .foldClr x => x.foldOk 2
  | .foldKeep x => x.foldOk 3
  | .ntt x => x.cellOk 0x10
  | .intt x => x.cellOk 0x11
  | .auto x => x.netOk 1
  | .mulx x => x.netOk 2
  | .vecMadd x => x.vecOk 0x01
  | .vecMsub x => x.vecOk 0x02
  | .vecMneg x => x.vecOk 0x03
  | .vecMmul x => x.vecOk 0x04
  | .vecMmulc x => x.vecOk 0x05
  | .vecMscal x => x.vecOk 0x06
  | .mlift x => x.vecOk 0x07
  | .mred x => x.vecOk 0x08
  | .mcen x => x.vecOk 0x09
  | .vecAdd x => x.vecOk 0x10
  | .vecSub x => x.vecOk 0x11
  | .vecMul x => x.vecOk 0x12
  | .vecMulh x => x.vecOk 0x13
  | .adds x => x.vecOk 0x14
  | .subs x => x.vecOk 0x15
  | .idiv x => x.vecOk 0x16
  | .vecMin x => x.vecOk 0x17
  | .vecMax x => x.vecOk 0x18
  | .vabs x => x.vecOk 0x19
  | .vneg x => x.vecOk 0x1A
  | .vecAnd x => x.vecOk 0x1B
  | .vecOr x => x.vecOk 0x1C
  | .vecXor x => x.vecOk 0x1D
  | .vnot x => x.vecOk 0x1E
  | .vecShl x => x.vecOk 0x1F
  | .vecShr x => x.vecOk 0x20
  | .vecSar x => x.vecOk 0x21
  | .vecCmpEq x => x.vecOk 0x28
  | .vecCmpNe x => x.vecOk 0x29
  | .vecCmpLt x => x.vecOk 0x2A
  | .vecCmpLe x => x.vecOk 0x2B
  | .sel x => x.vecOk 0x2C
  | .fadd x => x.vecOk 0x30
  | .fsub x => x.vecOk 0x31
  | .fmul x => x.vecOk 0x32
  | .fma x => x.vecOk 0x33
  | .fdiv x => x.vecOk 0x34
  | .fsqrt x => x.vecOk 0x35
  | .fmin x => x.vecOk 0x36
  | .fmax x => x.vecOk 0x37
  | .fabs x => x.vecOk 0x38
  | .fneg x => x.vecOk 0x39
  | .fcvt x => x.vecOk 0x3A
  | .cvt x => x.vecOk 0x3B
  | .rsumS x => x.vecOk 0x40
  | .rsumL x => x.vecOk 0x41
  | .ccEnd c => c.plain && c.fields false false false false false
  | .ccAdd c => c.binOk
  | .ccSub c => c.binOk
  | .ccAnd c => c.binOk
  | .ccOr c => c.binOk
  | .ccXor c => c.binOk
  | .ccShl c => c.binOk
  | .ccShr c => c.binOk
  | .ccSar c => c.binOk
  | .ccMin c => c.binOk
  | .ccMax c => c.binOk
  | .li c => c.fields true false false false true
  | .lui c => c.fields true false false false true
  | .ccMul c => c.fields true true true false false
  | .ccMulh c => c.fields true true true false false
  | .ccCmpEq c => c.cmpOk
  | .ccCmpLt c => c.cmpOk
  | .ccCmpLtu c => c.cmpOk
  | .loop c => c.plain && (c.x == 0 || c.x == 1) && c.fields false (c.x == 0) false true (c.x == 1)
  | .endl c => c.plain && c.fields false false false false false
  | .ld c => c.fields true true true true true && decide (c.rs2.toNat ≤ 7)
  | .st c => c.fields true true true true true && decide (c.rs2.toNat ≤ 3)
  | .ldj c => c.fields true true false false true && decide (c.imm.toNat ≤ 56 ∧ c.imm.toNat % 8 = 0)
  | .mfs c => c.fields true false false true false && decide (c.x.toNat ≤ 5)
  | .aqpush c => c.fields false true false false false
  | .oqpush c => c.fields false true false false false
  | .tqwait c => c.fields false false false false true && decide (1 ≤ c.imm.toNat ∧ c.imm.toNat ≤ 16)
  | .ccStallRelease a => a.arr.wf
  | .xferLc c => c.fields false true false true true && decide (c.imm.toNat % 256 + c.imm.toNat / 256 % 256 ≤ 255)
  | .xferCl c => c.fields false true false true true && decide (c.imm.toNat % 256 + c.imm.toNat / 256 % 256 ≤ 255)
  | .dmaq c => c.fields false true false true true
  | .req c => c.fields false true false true true
  | .acq c => c.fields false false false true false
  | .acqB c => c.fields false false false true false
  | .fence c => c.fields false false false false false
  | .twait c => c.fields false false false false true && decide (c.imm.toNat ≤ 15624)
  | .nop c => c.fields false false false false false
  | .sowerRequest die _ => decide (die < 8)
  | .granaryRead die lines => decide (die < 8) && lines.all (·.wf)
  | .extract die _ => decide (die < 8)
  | .binderRequest die _ => decide (die < 8)
  | .blockWrite b => b.arr.wf
  | .loftArrival a => a.wf
  | .modularAdd a => a.arr.wf
  | .int32Add a => a.arr.wf
  | .fp32Add a => a.arr.wf
  | .atomicMin a => a.arr.wf
  | .atomicMax a => a.arr.wf
  | .swap a => a.arr.wf
  | .compareAndSwap a => a.arr.wf
  | .doorbellSqTail f stream _ _ => f.wf && decide (stream < 16384)
  | .doorbellCqHead f stream _ _ => f.wf && decide (stream < 16384)
  | .descriptorDecide stream => decide (stream < 16384)
  | .completion stream => decide (stream < 16384)
  | .irqDelayExpiry stream => decide (stream < 16384)
  | .mailboxGo f _ => f.wf
  | .mctpDictionaryMessage _ => true
  | .fragmentTimeout q _ => q.wf
  | .entdaa _ => true
  | .setEndpointId _ => true
  | .getEndpointId => true
  | .getMctpVersionSupport => true
  | .getMessageTypeSupport => true
  | .getVendorDefinedMsgSupport => true
  | .dictWrite q _ _ _ => q.wf
  | .deviceEnableSet q => q.wf
  | .enableCheckDone => true
  | .deviceEnableClear q => q.wf
  | .disableComplete => true
  | .planLoad q => q.wf
  | .planLoadDone => true
  | .keyLoad q => q.wf
  | .keyUploadDone tenant => decide (1 ≤ tenant ∧ tenant < 4096)
  | .keyDrop q _ => q.wf
  | .varRequest q _ => q.wf
  | .linkRetrain q j => q.wf && linkWf j
  | .mrgRun q => q.wf
  | .marginSweepDone _ => true
  | .tenActivate q => q.wf
  | .tenDisable q => q.wf
  | .tenClear q => q.wf
  | .streamEnable q => q.wf
  | .streamDisable q => q.wf
  | .streamReset q => q.wf
  | .mirrorSnapTake q => q.wf
  | .mirrorSnapRelease q => q.wf
  | .snapshotExpiry => true
  | .mirrorBlockRead q _ => q.wf
  | .loftLandHwmRead q die => q.wf && decide (die < 8)
  | .slotDelayMaxRead q => q.wf
  | .domainSkewNsRead q => q.wf
  | .dieTempMaxRead q die => q.wf && decide (die < 16)
  | .dumpRun q => q.wf
  | .shareOffer q => q.wf
  | .shareOfferExpiry tenant => decide (1 ≤ tenant ∧ tenant < 4096)
  | .shareSubmit q => q.wf
  | .shareWipe q => q.wf
  | .pdecRun q => q.wf
  | .partialDecryption => true
  | .hmRun q => q.wf
  | .signetOperationDone _ => true
  | .entropyFail => true
  | .entropyRetest _ => true
  | .vaultUncorrectable _ => true
  | .jtagInstruction _ => true
  | .resetCmdCold q _ => q.wf
  | .resetCmdWarm q _ => q.wf
  | .fenceDie q die => q.wf && decide (die < 8)
  | .diePllLoss die => decide (die < 8)
  | .retireArray q larr => q.wf && decide (larr < 512)
  | .retirementCopy die => decide (die < 8)
  | .evtAck q _ => q.wf
  | .tempSample _ _ => true
  | .bindResume => true
  | .gearStepUp => true
  | .thermtripN => true
  | .hubFailure hub => decide (hub < 2)
  | .stewardFailover => true
  | .stewardMirrorFailure => true
  | .healthSweep die pslot _ => decide (die < 8) && decide (pslot < 68)
  | .loftScrub die pslot _ _ => decide (die < 8) && decide (pslot < 68)
  | .keyRehash tenant _ _ => decide (1 ≤ tenant ∧ tenant < 4096)
  | .bgBehind _ => true
  | .gleanerBlockRead stack _ lines => decide (stack < 6) && lines.all (·.wf)
  | .gleanerEscalate => true
  | .gleanerBehind => true
  | .hbmRefresh stack _ => decide (stack < 6)
  | .rowRemapCopy row => decide (row.stack < 6 ∧ row.chan < 32 ∧ row.pc < 2 ∧ row.bank < 16 ∧ row.row < 352)
  | .rowRemap row => decide (row.stack < 6 ∧ row.chan < 32 ∧ row.pc < 2 ∧ row.bank < 16 ∧ row.row < 352)
  | .stackLost stack => decide (stack < 6)
  | .recordProgram _ => true
  | .perstRelease port => decide (port < 2)
  | .hostPortReturn port => decide (port < 2)
  | .uncorrectableCodeword f => f.wf

end Sys2Proof
end

