-- ==== Sys2Proof/Config.lean ====
section
/-! DEFINITION. What one part fixes and what the manual leaves open: opaque constants and free values (log 8, 9), and
the standard algorithms of R13 that the manual names without defining (log 10). Nothing here has a body. -/

namespace Sys2Proof.Config

/-- Free values of the model (log 9): the n-th free word; a value no rule states is one of these. -/
opaque freeWord : Nat → Word
/-- The n-th free byte (log 9): host bytes whose contents a rule calls unstated (R411, R450). -/
opaque freeByte : Nat → Byte

/-- Whether FMA raises NV for infinity × zero beside a quiet NaN addend: IEEE 754 leaves it to the implementation and the
manual does not say (log 31). -/
opaque fmaInvalidBesideNaN : Bool

/-- IDN_SERIAL, IDN_IANA, I3C_PID: values of the one part (R430). -/
opaque serial : BitVec 64
opaque iana : BitVec 32
opaque i3cPid : BitVec 48
/-- The ROM identifier (R444): 16 bytes, the first the lowest. -/
opaque romId : BitVec 128
/-- The certificates of board flash and of the identity (R445). -/
opaque certDeviceId : List Byte
opaque certIdentity : List Byte

/-- Verification of a signature under a key of an ALG code of R126 (FIPS 186-5, RFC 8032, RFC 8017). -/
opaque sigVerify : Nat → List Byte → List Byte → List Byte → Bool
/-- Whether the Signet engine accepts a public key of an ALG code (R452, R455). -/
opaque keyValid : Nat → List Byte → Bool
/-- ECDSA P-384 signature with the identity key over a message, with the n-th DRBG nonce (R451). -/
opaque identitySign : List Byte → Nat → List Byte
/-- The public half of the n-th ephemeral P-384 key pair, 97 bytes SEC1 (R447, R456). -/
opaque ephemeralPub : Nat → List Byte
/-- ECDH P-384 of the n-th ephemeral private key with a public key, 48 bytes; none where R452 refuses. -/
opaque ecdh : Nat → List Byte → Option (List Byte)
/-- HKDF with SHA-384 (R444): input key, salt, info, length. -/
opaque hkdf : List Byte → List Byte → List Byte → Nat → List Byte
/-- AES-256-GCM decryption: key, iv, additional data, ciphertext, tag; none when the tag fails. -/
opaque gcmOpen : List Byte → List Byte → List Byte → List Byte → List Byte → Option (List Byte)
/-- AES-256-GCM encryption: key, iv, additional data, plaintext; the ciphertext and the tag. -/
opaque gcmSeal : List Byte → List Byte → List Byte → List Byte → List Byte × List Byte
/-- The n-th byte of the DRBG's output (R449). -/
opaque drbgByte : Nat → Byte
/-- Verification of a peer's certificates to the Wainsol root (R446, R447) and its firmware measurement. -/
opaque peerChain : List Byte → Option (List Byte)
/-- Verification of a peer's signature over "KF8 link hello", its HELLO and its key (R447). -/
opaque peerSig : List Byte → List Byte → Bool

/-- The cycle-by-cycle simulation of tests 71..82 of the load check (R332, R333), over the image's bytes: none when every
one passes, otherwise the code and the detail of R334. It stands for what the records and streams alone do not show and no
rule states as a function: the cycle at which each transfer lands and each queue entry is present (log 11). -/
opaque simulate : List Byte → Option (Nat × Nat)

end Sys2Proof.Config
end

