-- ==== Sys2Proof/Machine/State.lean ====
section
/-! DEFINITION. The state of the part: every register, store, queue, table, counter, mode and pin the spec names, as
plain data; the reasons a command can stop; and the state right after a cold reset. -/

namespace Sys2Proof.Machine

/-- A sparse table by number: keys strictly rising, no entry equal to the table's default (Machine/Map.lean). -/
abbrev SMap (α : Type) := List (Nat × α)

/-- Why the model stops at a command that names something the part does not have. -/
inductive Fault where
  /-- Raised by any command whose operand names a unit outside the ranges of R10 (a die, an array, a link, a port, a
  stream, a tenant, a stack). Safe: the spec gives the part no such unit. -/
  | noSuchUnit (what : String)
  deriving DecidableEq, Repr

/-- Why the model refuses a command in the state it is sent to. -/
inductive Refusal where
  /-- No meaning yet for the command. Raised by no arm of a finished dispatcher. Safe: the machine stops. -/
  | notModelled (mnemonic : String)
  /-- Raised when an event is sent in a state in which the spec says it does not arise (a slot the loaded plan does not
  hold, a descriptor that is not outstanding, an event of a part that is OFF). Safe: the machine stops. -/
  | cannotArise (why : String)
  /-- Raised when an execute word or an access-stream word breaks the load check, so that no loaded plan holds it
  (R197, R205, R540). Safe: the machine stops. -/
  | illFormed (why : String)
  deriving DecidableEq, Repr

/-! ## Power, pins, ports -/

/-- PART_STATE (R430), with OFF (R499, R518). -/
inductive PartState where
  | off | boot | standby | enabled | replaceRequested | safe
  deriving DecidableEq, Repr

/-- The SHA-384 digest of no bytes. -/
def emptyDigest : List Byte := (List.range 48).map fun i =>
  BitVec.ofNat 8 (0x38b060a751ac96384cd9327eb1b1e36a21fdb71114be07434c0cc7bf63f6e1da274edebfe76f65fbd51ad2f14898b95b / 256 ^ (47 - i))

/-- The firmware slot that the first BOOT reads: the header of R502 over no firmware, SVN 0 (log 7). -/
def firstFw : FwSlot :=
  { header := [0x4B, 0x46, 0x46, 0x57, 1, 0, 0, 0] ++ List.replicate 8 0 ++ emptyDigest ++ emptyDigest ++
      List.replicate 3984 0 }

/-- Power, reset and boot (ch. 18). -/
structure Power where
  part : PartState := .boot
  pwrgood : Bool := true
  /-- the latched level of ALERT_N kept asserted by an overwritten entry (R482). -/
  alertHeld : Bool := false
  /-- other reasons ALERT_N is asserted by a rule that names it: SIGNET FAILED (R453). -/
  faultN : Bool := false
  thermtripN : Bool := false
  /-- BOOT_STATUS fields (R508). -/
  stage : Nat := 0
  fwFallback : Bool := false
  noRefclk : Bool := false
  noCert : Bool := false
  entropyBad : Bool := false
  signetBad : Bool := false
  recordBad : Bool := false
  paramsBad : Bool := false
  slotRetired : Bool := false
  /-- RESET_CAUSE (R517). -/
  resetCause : Nat := 0
  /-- R485 row by which SAFE was entered, 0 outside SAFE. -/
  safeRow : Nat := 0
  /-- the BOOT in progress is that of a warm reset (R511). -/
  warm : Bool := false
  /-- BOOT waits at STAGE 0 for every sensor below 95 degrees (R529). -/
  thermalHold : Bool := false
  /-- compute-die clocks are stopped (R529), key derivation is blocked (R442). -/
  clocksStopped : Bool := false
  keysBlocked : Bool := false
  /-- the stacks are in self refresh (R286, R486). -/
  selfRefresh : Bool := false
  /-- firmware slot booted (true A) and its SVN (R503). -/
  fwSlotA : Bool := true
  svn : Nat := 0
  /-- the minimum SVN of the fuses (R445). -/
  minSvn : Nat := 0
  /-- the 64-byte boot parameter block of board flash (R501); that of the first boot sets nothing. -/
  bootParams : List Byte :=
    [0x4B, 0x46, 0x42, 0x50, 1, 0, 0xFF, 0xFF, 0, 0, 0, 0x80, 0xFF, 0xFF, 0xFF] ++ List.replicate 45 0 ++
      [0x5E, 0x49, 0x63, 0x90]
  /-- what the self-tests and the ROM of the BOOT in progress find (log 7); that of the first BOOT finds no failure. -/
  env : BootEnv :=
    { fwA := firstFw, fwB := firstFw, refclk := .locked, bistFail := [], unitFail := [], hubFail := false, stackFail := []
      entropyOk := true, signetOk := true, certOk := true, unrepaired := [] }
  /-- a RESET_CMD answered whose reset has not started: 1 cold, 2 warm, 0 none (R517). -/
  resetDue : Nat := 0
  deriving DecidableEq, Repr

/-- One host port (R391, R418, R504, R513). -/
structure Port where
  perst : Bool := true
  linkUp : Bool := false
  cfgLoaded : Bool := false
  failed : Bool := false
  deriving DecidableEq, Repr

/-- One PCIe function (R391, R392, R413, R426): presence, Bus Master Enable, MSI-X masks and pending bits, mailbox. -/
structure Fn where
  present : Bool := true
  bme : Bool := false
  mask : BitVec 32 := 0xFFFFFFFF
  pend : BitVec 32 := 0
  /-- MSI-X table: address and data of a vector's message (R392). -/
  msi : SMap (Nat × Nat) := []
  op : Nat := 0
  status : Nat := 0
  tag : Nat := 0
  index : Nat := 0
  sub : Nat := 0
  len : Nat := 0
  go : Nat := 0
  value : List Byte := []
  deriving DecidableEq, Repr

/-! ## Time -/

/-- PPS_STATE (R344). -/
inductive PpsState where
  | absent | acquiring | locked | holdover
  deriving DecidableEq, Repr

/-- The time base and its alignment (ch. 12, R356). -/
structure TimeSt where
  /-- the time base, ns (R339). -/
  now : Nat := 0
  /-- ticks a retard step still holds (R346). -/
  hold : Nat := 0
  /-- number of the last epoch boundary that was worked through (R342). -/
  edge : Nat := 0
  refclk : RefState := .absent
  pps : PpsState := .absent
  ppsFalling : Bool := false
  ppsDelay : Int := 0
  timeSet : Nat := 0
  setPending : Bool := false
  offset : Int := 0
  drift : Int := 0
  /-- offset and capture of the previous valid edge, none after a reset (R344). -/
  lastValid : Option (Int × Nat) := none
  /-- net step correction since the previous valid edge, ns (R347). -/
  netCorr : Int := 0
  /-- the run of successive invalid edges, newest first: offset and capture (R344). -/
  badRun : List (Int × Nat) := []
  /-- steps not yet applied, positive retard (R347). -/
  stepsDue : Int := 0
  /-- instant of the last step applied, and the step that the present FALLOW slot is still to apply: its instant, and whether it
  retards (R346). -/
  lastStep : Option Nat := none
  dueStep : Option (Nat × Bool) := none
  /-- what the replicas of CD0..CD7 (0..7) and HB1 (9) hold more than the master; 0 where they agree (R339, R341). -/
  replOff : SMap Int := []
  stepsRet : Nat := 0
  stepsAdv : Nat := 0
  spurious : Nat := 0
  alignFaults : Nat := 0
  replicaErr : Nat := 0
  skew : Nat := 0
  deriving DecidableEq, Repr

/-! ## Plans (ch. 11) -/

/-- A prime-book entry (R33). -/
structure PrimeEntry where
  valid : Bool := false
  role : Nat := 0
  logn2 : Nat := 0
  kbits : Nat := 0
  mu : Nat := 0
  c64 : Nat := 0
  q : Nat := 0
  psi : Nat := 0
  psiInv : Nat := 0
  nInv : Nat := 0
  /-- the entry's 32 bytes, for digests and readback. -/
  raw : List Byte := []
  deriving DecidableEq, Repr

/-- A parameter-set record (R47). -/
structure PSet where
  scheme : Nat := 0
  logn : Nat := 0
  lq : Nat := 0
  lp : Nat := 0
  checkIdx : Nat := 0
  tIdx : Nat := 0
  flags : Nat := 0
  logDelta : Nat := 0
  t : Nat := 0
  dnum : Nat := 0
  glweRank : Nat := 0
  lweN : Nat := 0
  lweLogq : Nat := 0
  qIdx : List Nat := []
  pIdx : List Nat := []
  rsvdOk : Bool := true
  /-- the record's 128 bytes, for digests and readback. -/
  raw : List Byte := []
  deriving DecidableEq, Repr

/-- A key requirement of a program (R304). -/
structure KeyReq where
  kind : Nat
  pset : Nat
  galois : Nat
  deriving DecidableEq, Repr

/-- A program record with its key requirements (R304). -/
structure Program where
  prog : Nat := 0
  psets : Nat := 0
  flags : Nat := 0
  bmax : Nat := 1
  nin : Nat := 0
  nout : Nat := 0
  reqs : List KeyReq := []
  rsvdOk : Bool := true
  deriving DecidableEq, Repr

/-- A code block (R305): its header and its two streams. -/
structure CodeBlock where
  off : Nat := 0
  prog : Nat := 0
  flags : Nat := 0
  vbase : Nat := 224
  vmask : Nat := 0
  dieMask : Nat := 0
  arrayMask : Nat := 0
  start : Nat := 0
  exec : List Byte := []
  access : List Byte := []
  rsvdOk : Bool := true
  deriving DecidableEq, Repr

/-- A variant record (R307). -/
structure Variant where
  num : Nat := 0
  gear : Nat := 0
  dieMask : Nat := 0
  pref : Nat := 0
  template : Nat := 0
  cacheSteps : List Nat := []
  hmap : Nat := 0
  rsvdOk : Bool := true
  deriving DecidableEq, Repr

/-- A slot record (R308). KIND 0 JOB, 1 INSTALL, 2 FALLOW. -/
structure SlotRec where
  slot : Nat := 0
  kind : Nat := 0
  prog : Nat := 0
  batch : Nat := 0
  dieMask : Nat := 0
  arrayMask : Nat := 0
  start : Nat := 0
  length : Nat := 0
  slack : Nat := 0
  tolerance : Nat := 0
  installBytes : Nat := 0
  hmap : Nat := 0
  rsvdOk : Bool := true
  deriving DecidableEq, Repr

/-- A slot template (R308). -/
structure Template where
  num : Nat := 0
  rate : Nat := 0
  depth : Nat := 0
  slots : List SlotRec := []
  rsvdOk : Bool := true
  deriving DecidableEq, Repr

/-- A handle entry (R239). KIND 0 unmapped, 1 LOCAL, 2 STACK, 3 REMOTE. -/
structure Handle where
  kind : BitVec 2 := 0
  slotScope : Bool := false
  rwrite : Bool := false
  sheaf : Bool := false
  evalDom : Bool := false
  cst0 : BitVec 4 := 0
  cst1 : BitVec 4 := 0
  cst2 : BitVec 4 := 0
  level : BitVec 7 := 0
  pset : BitVec 3 := 0
  npoly : BitVec 2 := 0
  image : Bool := false
  length : BitVec 32 := 0
  target : DWord := 0
  /-- what of a split sheaf the array holds (R39): its first limb, counting the check limb as 0, the most limbs, the offset of
  the first sheaf, and the stride from sheaf to sheaf, 0 where they lie back to back (R38, R268). -/
  first : Nat := 0
  most : Nat := 128
  sbase : Nat := 0
  pitch : Nat := 0
  /-- the limbs above level minus LP are those of the special primes (log 69). -/
  ext : Bool := false
  /-- the sheaves whose state a VERIFY epilogue has set (R103, R139). -/
  ver : BitVec 3 := 0
  deriving DecidableEq, Repr

/-- One entry of a handle map (R309). -/
structure HMapEnt where
  die : Nat := 0
  arr : Nat := 0
  handle : Nat := 0
  imageSrc : Nat := 0
  entry : Handle := {}
  rsvdOk : Bool := true
  deriving DecidableEq, Repr

/-- A handle map (R309). -/
structure HMap where
  map : Nat := 0
  vmask : Nat := 0
  slotScope : Bool := false
  ents : List HMapEnt := []
  rsvdOk : Bool := true
  deriving DecidableEq, Repr

/-- A tensor record (R264). -/
structure Tensor where
  id : Nat := 0
  dtype : Nat := 0
  rank : Nat := 0
  path : Nat := 0
  flags : Nat := 0
  handle : Nat := 0
  shape : List Nat := []
  stride : List Nat := []
  base : Nat := 0
  rsvdOk : Bool := true
  deriving DecidableEq, Repr

/-- An owners entry (R270). -/
structure OwnEnt where
  valid : Bool := false
  overflow : Bool := false
  pkg : Nat := 0
  die : Nat := 0
  arr : Nat := 0
  handle : Nat := 0
  offset : Nat := 0
  deriving DecidableEq, Repr

/-- An owners table (R269). -/
structure Owners where
  id : Nat := 0
  rank : Nat := 0
  nblk : Nat := 0
  vmask : Nat := 0
  tensor : Nat := 0
  bshape : List Nat := []
  bstride : List Nat := []
  ents : List OwnEnt := []
  raw : List Byte := []
  rsvdOk : Bool := true
  deriving DecidableEq, Repr

/-- An encoder-table entry (R274). -/
structure EncEnt where
  handle : Nat := 0
  shandle : Nat := 0
  code : Nat := 0
  sign : Bool := false
  logspan : Nat := 0
  dshift : Nat := 0
  sbase : Nat := 0
  raw : DWord := 0
  deriving DecidableEq, Repr

/-- An encoder table of the plan image, with the variants and the array it is for (R303). -/
structure EncTable where
  vmask : Nat := 0
  die : Nat := 0
  arr : Nat := 0
  ents : List EncEnt := []
  deriving DecidableEq, Repr

/-- An overflow record (R281). -/
structure Overflow where
  variant : Nat := 0
  gBytes : Nat := 0
  epochBytes : Nat := 0
  costNs : Nat := 0
  rsvdOk : Bool := true
  deriving DecidableEq, Repr

/-- One path of a route entry (R373). -/
structure RPath where
  egress : Nat := 0
  chan : Nat := 0
  hops : Nat := 0
  latNs : Nat := 0
  deriving DecidableEq, Repr

/-- A route entry (R373). -/
structure RouteEnt where
  dst : Nat := 0
  srcDies : Nat := 0
  paths : List RPath := []
  deriving DecidableEq, Repr

/-- A link entry of the ROUTE section (R373). -/
structure LinkEnt where
  peerPkg : Nat := 0xFFFF
  peerLink : Nat := 0
  minLanes : Nat := 4
  maxDelay : Nat := 0
  deriving DecidableEq, Repr

/-- A forwarding entry (R373). -/
structure FwdEnt where
  inLink : Nat := 0
  inChan : Nat := 0
  outLink : Nat := 0
  outChan : Nat := 0
  deriving DecidableEq, Repr

/-- The ROUTE section (R373). -/
structure Route where
  pkg : Nat := 0
  deputy : Nat := 0
  bindLead : Nat := 0
  admitWait : Nat := 0
  links : List LinkEnt := []
  routes : List RouteEnt := []
  fwd : List FwdEnt := []
  deriving DecidableEq, Repr

/-- A COMPAT_MAP record (R170). -/
structure Compat where
  codeOff : Nat := 0
  rver : Nat := 0
  nwords : Nat := 0
  rsvdOk : Bool := true
  deriving DecidableEq, Repr

/-- A loaded plan (R302..R309): the retained image (R512) in decoded form. -/
structure Plan where
  planId : Nat := 0
  realTime : Bool := false
  domain : Bool := false
  imageLen : Nat := 0
  /-- bytes of the PLAN_DATA section. -/
  dataLen : Nat := 0
  regionBlocks : Nat := 0
  refreshRegion : Nat := 0
  domainSize : Nat := 1
  lead : Nat := 0
  hostReadNs : Nat := 500
  imageDigest : List Byte := []
  domainDigest : List Byte := []
  primes : List PrimeEntry := []
  psets : List PSet := []
  programs : List Program := []
  code : List CodeBlock := []
  variants : List Variant := []
  templates : List Template := []
  hmaps : List HMap := []
  tensors : List Tensor := []
  owners : List Owners := []
  encoders : List EncTable := []
  overflow : List Overflow := []
  route : Option Route := none
  compat : List Compat := []
  /-- parameter sets below the security table (R72), by number. -/
  testOnly : List Nat := []
  deriving DecidableEq, Repr

/-- PLAN_* entries and the load in progress (R331, R336). -/
structure PlanCtl where
  addr : Nat := 0
  len : Nat := 0
  /-- PLAN_LOAD: 0 IDLE, 1 BUSY, 2 LOADED, 3 REFUSED. -/
  load : Nat := 0
  reason : Nat := 0
  detail : Nat := 0
  report : List Byte := []
  /-- the function whose address space the image lies in. -/
  via : FnId := ⟨0, 0⟩
  /-- the image as first read; none when a host access fault interrupted the read. -/
  image : Option (List Byte) := none
  deriving DecidableEq, Repr

/-- Variants (R325..R329, R336). -/
structure VarSt where
  current : Nat := 0
  /-- target and epoch of the pending switch. -/
  pending : Option (Nat × Nat) := none
  /-- 2 after a request that was REFUSED, else 0. -/
  request : Nat := 0
  pin : Option Nat := none
  switches : Nat := 0
  /-- variants withdrawn under R283. -/
  withdrawn : List Nat := []
  /-- the epoch in progress is a switch epoch (R327), and its gear PLLs relock (R354). -/
  inSwitch : Bool := false
  relocking : Bool := false
  /-- switch epochs announced by other packages (R326): origin and E. -/
  announced : List (Nat × Nat × Nat) := []
  deriving DecidableEq, Repr

/-! ## Tenants, keys, streams, jobs (ch. 4, 14) -/

/-- TEN_CTL state (R394). -/
inductive TenState where
  | free | active | disabled
  deriving DecidableEq, Repr

/-- A share offer (R456). -/
structure Offer where
  bytes : List Byte := []
  nonce : List Byte := []
  /-- number of the ephemeral key pair. -/
  key : Nat := 0
  time : Nat := 0
  deriving DecidableEq, Repr

/-- A wrapped key share (R456, R457): its record, its PSET digest and its digest. -/
structure Share where
  psetDigest : List Byte := []
  logn : Nat := 0
  coeffs : List Int := []
  digest : List Byte := []
  deriving DecidableEq, Repr

/-- A tenant context (R394, R395) with its key-upload, bucket, key and share entries (R127, R224, R462). -/
structure Tenant where
  st : TenState := .free
  test : Bool := false
  weight : Nat := 16
  homeFn : Nat := 0
  pasid : BitVec 32 := 0
  creditLimit : Nat := 0
  inflight : Nat := 0
  deficit : Int := 0
  slotsBound : Nat := 0
  refused : Nat := 0
  quota : Nat := 0
  blocksUsed : Nat := 0
  dmaRate : Nat := 0
  dmaDepth : Nat := 262144
  /-- values written, applied at the next epoch boundary (R224). -/
  newRate : Nat := 0
  newDepth : Nat := 262144
  /-- bytes in the tenant's bucket (R222). -/
  bucket : Nat := 262144
  manAddr : Nat := 0
  manLen : Nat := 0
  dataAddr : Nat := 0
  /-- KEY_LOAD: 0 IDLE, 1 QUEUED, 2 BUSY, 3 DONE, 4 REFUSED. -/
  keyLoad : Nat := 0
  keyReason : Nat := 0
  keyDetail : Nat := 0
  /-- the function of an upload in progress. -/
  upFn : Nat := 0
  upFault : Bool := false
  vkeyAlg : Nat := 0
  vkey : List Byte := []
  manSerial : Nat := 0
  manDigest : List Byte := []
  offer : Option Offer := none
  /-- SHARE_OFFER: 0 NONE, 1 BUSY, 2 READY, 3 REFUSED. -/
  offerSt : Nat := 0
  shareAddr : Nat := 0
  shareLen : Nat := 0
  /-- SHARE_SUBMIT: 0 IDLE, 1 BUSY, 2 DONE, 3 REFUSED. -/
  submitSt : Nat := 0
  submitFault : Bool := false
  shareReason : Nat := 0
  share : Option Share := none
  wipeAfter : Bool := false
  pdecAddr : Nat := 0
  /-- PDEC_RUN: 0 IDLE, 1 QUEUED, 2 BUSY, 3 DONE, 4 REFUSED. -/
  pdecRun : Nat := 0
  pdecFault : Bool := false
  pdecReason : Nat := 0
  pdecCounter : Nat := 0
  pdecCount : Nat := 0
  deriving DecidableEq, Repr

/-- Key state in the mirror (R436). -/
inductive KeyState where
  | usable | dormant | corrupt | dropped
  deriving DecidableEq, Repr

/-- A key of a tenant (R110, R126, R129). -/
structure Key where
  tenant : Nat := 0
  id : Nat := 0
  kind : Nat := 0
  st : KeyState := .usable
  seeded : Bool := false
  galois : Nat := 0
  seed : List Byte := []
  psetDigest : List Byte := []
  pset : Option Nat := none
  /-- granary block of each 64 KiB block of the key's data (R292), and its SHA-384 digest (R126). -/
  blocks : List Nat := []
  digests : List (List Byte) := []
  /-- refresh key resident on every die (R146), and the instant it was last bound to a slot (R147). -/
  resident : Bool := false
  lastBound : Nat := 0
  /-- first 64 KiB chunk of each array's part of the refresh region that the resident copy takes (R145). -/
  regChunk : Nat := 0
  deriving DecidableEq, Repr

/-- STR_CTL state (R402). -/
inductive StrState where
  | disabled | enabled | draining | error
  deriving DecidableEq, Repr

/-- A completion-ring record (R400), without its phase. -/
structure CRec where
  seq : Nat := 0
  kind : Nat := 0
  code : Nat := 0
  flags : Nat := 0
  time : Nat := 0
  inc : Nat := 0
  detail : Nat := 0
  user : Nat := 0
  /-- the descriptor asked for an interrupt, or the record is a REFUSAL (R413). -/
  irq : Bool := false
  deriving DecidableEq, Repr

/-- State of an in-flight job (R436). -/
inductive JobState where
  /-- held PENDING for the lead (R381). -/
  | pending
  | queued
  | bound
  /-- finished; its COMPLETION waits for its turn (R410), or is written and not final (`Stream.done`). -/
  | finished
  deriving DecidableEq, Repr

/-- The rule under which a counted incarnation ended (R64, R86, R227, R324). -/
inductive FaultClass where
  | check | fold | exec | deadline | other
  deriving DecidableEq, Repr

/-- A job of the in-flight table (R397, R405, R414..R417). The table is the journal as well. -/
structure Job where
  idx : Nat := 0
  stream : Nat := 0
  seq : Nat := 0
  tenant : Nat := 0
  prog : Nat := 0
  jobId : Nat := 0
  domain : Bool := false
  notify : Bool := false
  /-- the descriptor's 64 bytes (LDJ). -/
  desc : List Byte := []
  /-- the buffer table: address and length (R398). -/
  bufs : List (Nat × Nat) := []
  /-- the resolved keys, by KEY_ID (R399). -/
  keys : List Nat := []
  user : Nat := 0
  st : JobState := .queued
  inc : Nat := 0
  bpos : Nat := 0
  slot : Nat := 0xFFFF
  /-- place in its program's queue: smaller is nearer the head (R314, R317). -/
  order : Int := 0
  /-- first epoch whose slots may bind it again (R317). -/
  notBefore : Option Nat := none
  /-- receipt instant and domain admission number (R381). -/
  receipt : Option Nat := none
  aseq : Nat := 0
  pendSince : Nat := 0
  /-- members that sent READY, for the lead (R381). -/
  readyBy : List Nat := []
  /-- class of the last counted incarnations and how many in a row (R539). -/
  runClass : FaultClass := .other
  runLen : Nat := 0
  lastTag : Nat := 0
  lastKind : Nat := 0
  flags : Nat := 0
  /-- status, DETAIL and completing incarnation of a finished job (R400, R411). -/
  result : Option (Nat × Nat × Nat) := none
  /-- when it finished, ns (R400). -/
  doneAt : Nat := 0
  deriving DecidableEq, Repr

/-- A command stream (R396..R402). -/
structure Stream where
  st : StrState := .disabled
  reason : Nat := 0
  tenant : Nat := 1
  fn : Nat := 0
  altFn : Nat := 0xFFFF
  sqAddr : Nat := 0
  cqAddr : Nat := 0
  statusAddr : Nat := 0
  sqLog2 : Nat := 8
  cqLog2 : Nat := 9
  credits : Nat := 16
  nextSeq : Nat := 0
  vector : Nat := 0xFF
  irqDelay : Nat := 0
  committed : Nat := 0
  completed : Nat := 0
  sqHead : Nat := 0
  sqTail : Nat := 0
  cqTail : Nat := 0
  cqHead : Nat := 0
  inflight : Nat := 0
  refusals : Nat := 0
  overloads : Nat := 0
  cqStalls : Nat := 0
  drops : Nat := 0
  /-- the next unread descriptor is counted in cqStalls. -/
  stalled : Bool := false
  /-- records the CQ has no room for, oldest first (R401). -/
  held : List CRec := []
  /-- records written and not final: position c and record (R417). -/
  recs : List (Nat × CRec) := []
  /-- jobs whose COMPLETION is written and not final: they keep their entries of the in-flight table (R417, R436). -/
  done : List Job := []
  /-- the stream entered ERROR while ENABLED (R402). -/
  errLive : Bool := false
  /-- interrupt raised at, and one waiting for the end of STR_IRQ_DELAY (R413). -/
  irqLast : Option Nat := none
  irqWait : Bool := false
  /-- the function's records wait for Bus Master Enable (R513, R515), or for the port (R418). -/
  bmeWait : Bool := false
  portWait : Bool := false
  /-- the drain in progress is a stream reset (R514). -/
  resetting : Bool := false
  deriving DecidableEq, Repr

/-! ## Slots (R310..R324) -/

/-- A bound or running slot. -/
structure SlotRun where
  slot : Nat := 0
  epoch : Nat := 0
  /-- jobs by batch position, as in-flight numbers. -/
  jobs : List (Nat × Nat) := []
  /-- incarnation each position was bound with. -/
  incs : List (Nat × Nat) := []
  started : Bool := false
  /-- a fault abandoned its incarnations (R63, R320), or R321/R322/R323 abandoned the slot. -/
  faulted : Bool := false
  abandoned : Bool := false
  /-- start shift in gear cycles (R321). -/
  shift : Nat := 0
  /-- positions with invalid input: DETAIL of R412; or failed by FAILJOB. -/
  bad : List (Nat × Nat) := []
  /-- the key an INSTALL slot installs: tenant, key. -/
  install : Option (Nat × Nat) := none
  deriving DecidableEq, Repr

/-- Per-slot counters (R336). -/
structure SlotStat where
  bound : Nat := 0
  unfilled : Nat := 0
  abandoned : Nat := 0
  delayMax : Nat := 0
  shifted : Nat := 0
  deriving DecidableEq, Repr

/-! ## Arrays (ch. 3, 6, 7, 8) -/

/-- A fault record (R226). -/
structure FaultRec where
  kind : Nat := 0
  sub : Nat := 0
  point : Nat := 0
  stage : Nat := 0
  bpos : Nat := 0
  tag : Nat := 0
  larr : Nat := 0
  pslot : Nat := 0
  limb : Nat := 0xFF
  index : Nat := 0xFFFFFFFF
  epoch : Nat := 0
  cycle : Nat := 0
  stream : Nat := 0xFFFF
  inc : Nat := 0
  seq : Nat := 0
  word : BitVec 256 := 0
  deriving DecidableEq, Repr

/-- An accumulator entry of one cell (R83). -/
structure Acc where
  value : BitVec 72 := 0
  fc : Nat := 0
  int32 : Bool := false
  ckr : Nat := 0
  /-- the entry holds an ALPHA term (R80). -/
  alpha : Bool := false
  deriving DecidableEq, Repr

/-- What a correction term on one prime is computed from (R53, R66..R68): the source sheaf, the limb positions it replaces,
whether it is taken of x × t^-1 and multiplied by t, and whether it is the centred lift of one limb rather than a fast
conversion. -/
structure Conv where
  handle : Nat := 0
  poly : Nat := 0
  base : List Nat := []
  inv : Bool := false
  mul : Bool := false
  lift : Bool := false
  deriving DecidableEq, Repr

/-- What the part knows of the contents of a tracked crib row (R52, R53). -/
inductive RowKind where
  /-- a row of a limb of a sheaf. -/
  | limb
  /-- such a row times a constant residue, as y_j is of x_j. -/
  | times (c : Nat)
  /-- a correction term. -/
  | part (d : Conv)
  /-- a row made from such a term: a limb of the sheaf that a fast base conversion writes. -/
  | conv (d : Conv)
  /-- a new limb of an exact base extension, or a row made from one. -/
  | ext (d : Conv)
  /-- a limb of allowance w less its correction term: a drop that still lacks its factor (R66..R68). -/
  | less (d : Conv) (w : Nat)
  /-- on the way from σ_c to α [Q]_p of an exact base extension (R53): 0 σ_c − c, 1 α, 2 α on another prime, 3 α [Q]_p. -/
  | count (d : Conv) (w stage : Nat)
  deriving DecidableEq, Repr

/-- What the part tracks of a crib row that holds a row of a sheaf's limb (R52): the handle and the sheaf of it the
limb came from or belongs to, the check state, the domain, the limb position, what it holds, the limb positions a drop with
correction has removed and whether a RESCALE stage was that drop (R536), whether a failed check has made it POISONED (R63), and
the batch position its data belong to (8 none, 9 several; R538). Untracked rows are OPEN. -/
structure RowSt where
  tracked : Bool := false
  handle : Nat := 0
  poly : Nat := 0
  cst : BitVec 4 := 14
  evalDom : Bool := false
  lpos : Nat := 0xFF
  kind : RowKind := .limb
  drop : List Nat := []
  stage : Bool := false
  bad : Bool := false
  pos : Nat := 8
  deriving DecidableEq, Repr

/-- What the part tracks of an accumulator entry since it was cleared (R52, R53): `pure` while every term is a MACC term of
an exact shape; the source sheaf of its y_j rows; for each, the limb position, the constant the limb was multiplied by and
the MACC constant; the term of an α row with its allowance, constant and words; the batch position. -/
structure AccTag where
  pure : Bool := true
  src : Option (Nat × Nat) := none
  terms : List (Nat × Nat × Nat) := []
  count : Option (Conv × Nat × Nat × List Nat) := none
  pos : Nat := 8
  deriving DecidableEq, Repr

/-- A fault of a word: kind and subcode of R227, check point, limb, index, cycle of the slot, whether the odd array of a pair
found it (R94), the batch position its data belong to (R538), and the port of a loft read. -/
structure Flt where
  kind : Nat
  sub : Nat := 0
  point : Nat := 0
  limb : Nat := 0xFF
  index : Nat := 0xFFFFFFFF
  cycle : Nat := 0
  odd : Bool := false
  pos : Nat := 8
  port : Nat := 0
  deriving DecidableEq, Repr

/-- How far the word in progress of an array has come, when a queue ran empty under it (R190): whether its start is behind
it, the steps done, the operands popped last, and what a vector operation or the encoder has gathered, with the flags of the
elements that wait to be written (R181). -/
structure Wip where
  on : Bool := false
  step : Nat := 0
  last1 : Nat := 0
  last2 : Nat := 0
  out : List Byte := []
  outFl : List Nat := []
  fl : List Byte := []
  done : Nat := 0
  sum : List Nat := []
  sumFl : List Nat := []
  st : RowSt := {}
  codes : List (Nat × Int × Nat) := []
  scale : Option Nat := none
  limb : Option Nat := none
  word : Nat := 0
  builds : Nat := 0
  deriving DecidableEq, Repr

/-- A port's binding (R215): the address-queue entry and the next row of it. -/
structure Binding where
  handle : Nat := 0
  row0 : Nat := 0
  nrows : Nat := 0
  stride : Int := 0
  next : Nat := 0
  deriving DecidableEq, Repr

/-- A line of the loft cache (R245): handle, window offset, bytes. A set's lines stand most recent first. -/
structure CLine where
  handle : Nat := 0
  off : Nat := 0
  bytes : List Byte := []
  deriving DecidableEq, Repr

/-- Why a control core stalls (R189, R220, R250). -/
inductive Stall where
  | aqFull (e : DWord) | oqFull (e : Word) | tokens (n : Nat) | dmaFull (handle off : Nat) | time (slot : Nat)
  deriving DecidableEq, Repr

/-- The control core of an array (R185, R537). -/
structure Core where
  regs : SMap DWord := []
  preds : BitVec 4 := 1
  /-- open loops, innermost first: the body's first word and the passes left (R186). -/
  loops : List (Nat × Nat) := []
  pc : Nat := 0
  /-- first word of the running program's access stream in the instruction store. -/
  base : Nat := 0
  ended : Bool := false
  stall : Option Stall := none
  deriving DecidableEq, Repr

/-- An arrival waiting in a landing buffer (R238): the bytes for a handle range of the array, with the block's data. -/
structure Arrival where
  handle : Nat := 0
  off : Nat := 0
  /-- rows of the block, each its bytes. -/
  rows : List (List Byte) := []
  dstride : Nat := 0
  aop : Nat := 0
  aprime : Nat := 0
  range : Nat := 0
  /-- the source is a job buffer (R412): buffer index, byte offset in it and the step from row to row. -/
  hostBuf : Option (Nat × Nat × Nat) := none
  /-- the incarnation and the in-flight number it belongs to; none for T0 traffic. -/
  job : Option (Nat × Nat) := none
  bpos : Nat := 0
  group : Nat := 0
  clasp : Bool := false
  /-- the issuing array of this package, its DSEQ and block number; none for an arrival from a link. -/
  src : Option (ArrId × Nat × Nat) := none
  /-- an arrival from a link: link, CHAN, source global logical array, DSEQ, block number, incarnation (R363). -/
  remote : Option (Nat × Nat × Nat × Nat × Nat × Nat) := none
  /-- where returned values of an atomic go (R259): the source array, handle, offset and row step. -/
  retTo : Option (ArrId × Nat × Nat × Nat) := none
  /-- DST of the block of an arrival from a link. -/
  home : DWord := 0
  /-- a sheaf travels with it: check state, domain, level (R363). -/
  sheaf : Option (BitVec 4 × Bool × Nat) := none
  /-- that sheaf is one that a VERIFY epilogue has written (R139). -/
  ver : Bool := false
  /-- the array whose control core stored it through a window (R249). -/
  core : Option ArrId := none
  /-- the batch position its bytes are data of (R538); 8 none, 9 several. -/
  pos : Nat := 8
  deriving DecidableEq, Repr

/-- Where an endpoint of a block is (R218). -/
inductive Endpoint where
  | loft (die arr handle off : Nat)
  | far (pkg die arr handle off : Nat)
  | host (bpos buf off : Nat)
  | bad
  deriving DecidableEq, Repr

/-- Progress of a block of a descriptor. -/
inductive BlkState where
  | waiting | released | sent | landed | faulted
  deriving DecidableEq, Repr

/-- A block of an outstanding descriptor (R217). -/
structure Block where
  src : DWord := 0
  dst : DWord := 0
  len : Nat := 0
  rows : Nat := 0
  aop : Nat := 0
  bflags : BitVec 8 := 0
  sstride : Nat := 0
  dstride : Nat := 0
  st : BlkState := .waiting
  /-- 1,024-byte units the regulator has released of it (R223). -/
  units : Nat := 0
  /-- the path (link, CHAN) a block toward another package was sent on (R375). -/
  via : Option (Nat × Nat) := none
  deriving DecidableEq, Repr

/-- An outstanding block-list descriptor of a die's DMA (R216, R220). -/
structure Desc where
  arr : ArrId := ⟨0, 0⟩
  dseq : Nat := 0
  group : Nat := 0
  token : Bool := false
  /-- the slot run it was issued in: slot and epoch, the jobs and the incarnations by position. -/
  slot : Nat := 0
  epoch : Nat := 0
  jobs : List (Nat × Nat) := []
  incs : List (Nat × Nat) := []
  blocks : List Block := []
  deriving DecidableEq, Repr

/-- A request to a die unit (R221). -/
structure UnitReq where
  /-- its number among the die's requests. -/
  n : Nat := 0
  arr : ArrId := ⟨0, 0⟩
  unit : Nat := 0
  p0 : Nat := 0
  p1 : Nat := 0
  p2 : Nat := 0
  keyId : Nat := 0
  bpos : Nat := 0
  src : DWord := 0
  dst : DWord := 0
  len : Nat := 0
  released : Bool := false
  units : Nat := 0
  slot : Nat := 0
  epoch : Nat := 0
  /-- the tenant and the job of its batch position; none when the position is unfilled. -/
  job : Option Nat := none
  deriving DecidableEq, Repr

/-- An entry of an array's request list, in issue order (R223). -/
inductive ReqItem where
  | desc (dseq : Nat)
  | unit (n : Nat)
  deriving DecidableEq, Repr

/-- Per-array counters (R435, ARR_COUNTERS) and loft counters (R262). -/
structure ArrCnt where
  cribCorr : Nat := 0
  check : Nat := 0
  perm : Nat := 0
  fold : Nat := 0
  starve : Nat := 0
  deadline : Nat := 0
  waits : Nat := 0
  unreported : Nat := 0
  loftCorr : Nat := 0
  loftUncorr : Nat := 0
  hits : Nat := 0
  misses : Nat := 0
  staleDrops : Nat := 0
  landHwm : Nat := 0
  deriving DecidableEq, Repr

/-- The contents of one physical array slot. -/
structure Arr where
  /-- crib rows, 256 words each (R73). -/
  crib : SMap (List Word) := []
  rowSt : SMap RowSt := []
  /-- accumulator entries, one list of 256 cells each (R83). -/
  acc : SMap (List Acc) := []
  accTag : SMap AccTag := []
  /-- what the part tracks of each limb written through a SHEAF handle, by (handle × 4 + sheaf) × 128 + limb, and the
  sheaves the running command writes, by handle × 4 + sheaf (R52, R240). -/
  track : SMap RowSt := []
  touched : List Nat := []
  /-- the batch position whose data each loft row holds (R538); 8, not listed, none. -/
  posOf : SMap Nat := []
  /-- slot status and cumulative status (R182). -/
  status : BitVec 32 := 0
  cum : BitVec 32 := 0
  cnt : ArrCnt := {}
  lastFault : Option FaultRec := none
  /-- full form of the last word issued (R194, R435). -/
  word : BitVec 256 := 0
  handles : SMap Handle := []
  enc : SMap EncEnt := []
  /-- loft bytes (R233). -/
  loft : List Host.Cell := []
  /-- rows of SLOT-scope LOCAL handles that are written (R243), rising. -/
  written : List Nat := []
  /-- loft-cache sets, each at most four lines, most recent first (R245). -/
  cache : SMap (List CLine) := []
  cacheSteps : Nat := 0
  /-- the handles whose next LD bypasses the cache (R250). -/
  bypass : List Nat := []
  /-- stores of the core into other packages that wait for their acknowledgement, oldest first: target address, bytes. -/
  farSt : List (Nat × List Byte) := []
  aq : List DWord := []
  oq : List Word := []
  tokens : Nat := 0
  /-- arrival flags 1..15 as bits (R231), and the slot cycle after the one on which each was set (R232). -/
  flags : BitVec 16 := 0
  flagAt : SMap Nat := []
  /-- port bindings, by port 0..5: LS0, LS1, LS2, LS3, LW, LF (R215). -/
  ports : SMap Binding := []
  omode : BitVec 2 := 0
  /-- ACT CLAMP bounds, SCALE constant popped for the running command (R211). -/
  scaleC : Word := 0
  clampLo : Word := 0
  clampHi : Word := 0
  /-- slot cycle at which the next command may start (R191, R320 without D), and D. -/
  cycle : Nat := 0
  delay : Nat := 0
  /-- the running command has faulted: its later words write nothing (R209). -/
  dead : Bool := false
  /-- the faults that the earlier operations of the word in progress have met (R65, R88). -/
  pend : List Flt := []
  /-- an earlier word of the running command carries a slot (R196, R206). -/
  slotted : Bool := false
  /-- the word in progress (R190). -/
  wip : Wip := {}
  /-- a command waits for its arrival group or for a queue entry (R190, R232). -/
  waiting : Bool := false
  /-- full form of the word that waits, its stated cycle, its tag, and the arrival group it waits for, 0 for a queue. -/
  held : BitVec 256 := 0
  heldAt : Nat := 0
  heldTag : Nat := 0
  heldGroup : Nat := 0
  core : Core := {}
  istore : List DWord := []
  estore : List Byte := []
  landing : List Arrival := []
  reqs : List ReqItem := []
  bucket : Nat := 0
  dseq : Nat := 0
  /-- gear cycle of the epoch at which the latest slot that overran its end leaves the array (R321), 0 none. -/
  busy : Nat := 0
  deriving DecidableEq, Repr

/-! ## Dies, granary, stacks -/

/-- State of a physical slot (R496). -/
inductive PSt where
  | active | spare | retired | retiring
  deriving DecidableEq, Repr

/-- A line of a hub cache's KEEP partition (R121): granary block and line. -/
abbrev KeepLine := Nat × Nat

/-- A compute die, hub or stack as R496 shows it, with a compute die's units. -/
structure Die where
  fenced : Bool := false
  failed : Bool := false
  temp : Int := 0
  tempMax : Int := 0
  powerMw : Nat := 0
  /-- physical slot of each logical array (R496), and the state of each physical slot. -/
  slotMap : List Nat := List.range 64
  slotSt : List PSt := List.replicate 64 .active ++ List.replicate 4 .spare
  /-- hours of the SEED and PAIR faults, minutes of the replica reloads (R465). -/
  unitFaults : List Nat := []
  reloads : List Nat := []
  /-- hours of CHECK/PERM/FOLD, hours of uncorrectable, minutes of corrected, by physical slot (R465). -/
  checkF : SMap (List Nat) := []
  uncorrF : SMap (List Nat) := []
  corrF : SMap (List Nat) := []
  /-- outstanding descriptors of the die DMA (R220). -/
  descs : List Desc := []
  /-- unit requests released and waiting, in plan order: 1 sower, 2 granary, 3 thresher, 4 binder. -/
  units : List UnitReq := []
  unitSeq : Nat := 0
  /-- a retirement in progress: logical array, old physical slot, spare (R469); decisions that wait (R470). -/
  retiring : Option (Nat × Nat × Nat) := none
  retireReq : List Nat := []
  /-- clocks stopped (R472). -/
  stopped : Bool := false
  deriving DecidableEq, Repr

/-- A hub's granary cache (R121): KEEP lines by set, most recent first; REUSE entries: block, count, slot. -/
structure HubCache where
  keep : SMap (List KeepLine) := []
  reuse : List (Nat × Nat × Nat) := []
  deriving DecidableEq, Repr

/-- A stack (R293..R301). Rows are numbered ((chan*2+pc)*16+bank)*352+row. -/
structure Stack where
  lost : Bool := false
  temp : Int := 0
  corr : Nat := 0
  devCorr : Nat := 0
  retry : Nat := 0
  uncorr : Nat := 0
  /-- instants of the corrected events of a row in the last 24 h (R293). -/
  events : SMap (List Nat) := []
  /-- instants of the uncorrectable reads in the last hour, with their row (R298). -/
  uncorrRows : List (Nat × Nat) := []
  /-- remap candidates waiting, the row being copied and whether its copy is complete. -/
  cands : List Nat := []
  copying : Option Nat := none
  copied : Bool := false
  /-- rows redirected to a spare (R293). -/
  remapped : List Nat := []
  /-- rows marked for repair at the next reset (R294), and retired rows (R295). -/
  marked : List Nat := []
  retired : List Nat := []
  /-- double-rate refresh (R286). -/
  fastRefresh : Bool := false
  /-- blocks the gleaner has read in this pass (R296). -/
  glnDone : Nat := 0
  deriving DecidableEq, Repr

/-- The gleaner, margining and the PLAN region's remapped overflow blocks (R283, R297, R300, R301). -/
structure MemCtl where
  glnRate : Nat := 9
  glnStart : Nat := 0
  glnBehind : Bool := false
  glnEscalated : Bool := false
  mrgStack : Nat := 0
  mrgKind : Nat := 0
  /-- MRG_RUN: 0 IDLE, 1 BUSY, 2 DONE, 3 REFUSED. -/
  mrgRun : Nat := 0
  mrgResult : List Word := []
  /-- overflow blocks moved (R283), in lines of 2,048 bytes of the PLAN region: place in the image, place now, lines. -/
  ovfMap : List (Nat × Nat × Nat) := []
  deriving DecidableEq, Repr

/-! ## Links and the domain (ch. 13) -/

/-- LINK_STATE (R389). -/
inductive LinkSt where
  | down | training | up | degraded | failed
  deriving DecidableEq, Repr

/-- An open block on a CHAN (R363): its OPEN and the bytes received so far. -/
structure OpenBlk where
  body : OpenBody
  got : List Byte := []
  deriving DecidableEq, Repr

/-- What a frame the part sends holds (R362, R367, R384). DCTL messages and link control are given by subtype and
their body's fields in order; MGMT by OP and message. -/
inductive FrameOut where
  | openFrame (o : OpenBody)
  | data (bytes : List Byte)
  | lack (es : List LackEntry)
  | lctl (subtype : Nat) (fields : List Nat) (bytes : List Byte)
  | dctl (h : DHdr) (subtype : Nat) (fields : List Nat)
  | mgmt (op : Nat) (m : MgmtMsg)
  deriving DecidableEq, Repr

/-- A frame held in a replay buffer (R364). -/
structure TxFrame where
  fcnt : Nat := 0
  chan : Nat := 0
  frame : FrameOut := .data []
  resent : Nat := 0
  /-- ACK as first sent (R361). -/
  ack : Nat := 0
  /-- key with salt, and SCNT, of a frame under GCM (R366). -/
  sealing : Option (List Byte × Nat) := none
  deriving DecidableEq, Repr

/-- A rekey in progress (R368). -/
structure RekeyRun where
  key : Nat := 0
  lohi : Nat := 0
  hilo : Nat := 0
  peerEpk : Option (List Byte) := none
  deriving DecidableEq, Repr

/-- One link (R358..R376, R389). -/
structure Link where
  st : LinkSt := .down
  width : Nat := 0
  reason : Nat := 0
  peerPkg : Nat := 0xFFFF
  peerLink : Nat := 0
  delay : Nat := 0
  offset : Int := 0
  fcntTx : Nat := 0
  fcntRx : Nat := 0
  /-- FCNT at which each direction's key took effect (R365). -/
  keyTx : Nat := 0
  keyRx : Nat := 0
  rekeys : Nat := 0
  retrans : Nat := 0
  fecCorr : Nat := 0
  fecUncorr : Nat := 0
  authFail : Nat := 0
  noroute : Nat := 0
  /-- transmission errors of frames of unlisted TYPE or SUBTYPE (R362, R367). -/
  txErr : Nat := 0
  /-- LINK_RETRAIN: 0 IDLE, 1 BUSY, 2 DONE, 3 FAILED. -/
  retrain : Nat := 0
  started : Bool := false
  /-- training step reached (0: an attempt failed and its retry waits), attempts failed, and the NOT_READY wait in ms
  (R369, R506). -/
  step : Nat := 0
  attempts : Nat := 0
  nrWait : Nat := 0
  /-- failed or dropped lanes (R371). -/
  badLanes : List Nat := []
  session : Bool := false
  /-- session key material, tx then rx (key and salt), and TH of the session (R447). -/
  keys : List (List Byte) := []
  th : List Byte := []
  ephKey : Nat := 0
  /-- the peer's HELLO, and KEX bytes collected with the next FRAG (R367). -/
  helloIn : Option HelloBody := none
  kexIn : List Byte := []
  kexFrag : Nat := 0
  rekey : Option RekeyRun := none
  /-- a dropped run has drawn its NAK (R364). -/
  nakSent : Bool := false
  replay : List TxFrame := []
  /-- frames that wait for room in the replay buffer, with their CHAN, oldest first (R364). -/
  txWait : List (Nat × FrameOut) := []
  /-- open blocks by CHAN (R363). -/
  opens : SMap OpenBlk := []
  /-- last DELAY frame received: its T_TX and when it arrived (R376). -/
  dlyTx : Nat := 0
  dlyRx : Nat := 0
  /-- instants of tag failures in the last second (R366). -/
  tagFails : List Nat := []
  /-- fallow slots in a row without a delay measurement (R492). -/
  missed : Nat := 0
  /-- frequency-locked (R350). -/
  flocked : Bool := true
  deriving DecidableEq, Repr

/-- DOMAIN_STATE (R389). -/
inductive DomSt where
  | standalone | joining | member | left
  deriving DecidableEq, Repr

/-- A BIND received for a slot of an epoch (R315). -/
structure BindMsg where
  epoch : Nat := 0
  slot : Nat := 0
  es : List BindEntry := []
  deriving DecidableEq, Repr

/-- A domain job as the lead knows it (R381, R382): who sent READY, the epoch of the first, ASEQ when admitted. -/
structure LeadJob where
  jobId : Nat := 0
  prog : Nat := 0
  tenant : Nat := 0
  ready : List Nat := []
  since : Nat := 0
  aseq : Option Nat := none
  deriving DecidableEq, Repr

/-- A fragmented write in progress (R429): who, tag, entry, bytes, next fragment, instant of the last. -/
structure FragRun where
  who : Requester := .mctp
  tag : Nat := 0
  index : Nat := 0
  sub : Nat := 0
  got : List Byte := []
  next : Nat := 0
  deriving DecidableEq, Repr

/-- The schedule domain and the management channel (R378..R389). -/
structure Domain where
  pkgAddr : Nat := 0
  st : DomSt := .standalone
  lead : Nat := 0
  deputy : Nat := 0
  leaveReason : Nat := 0
  members : List Nat := []
  firstEpoch : Nat := 0
  refused : Nat := 0
  /-- the next admission sequence number of the lead, and the jobs it knows. -/
  aseq : Nat := 0
  leadJobs : List LeadJob := []
  binds : List BindMsg := []
  /-- residency reported by members: package, tenant, key (R385). -/
  resident : List (Nat × Nat × Nat) := []
  /-- acknowledgements of variant announcements: member, origin, E (R326). -/
  vacks : List (Nat × Nat × Nat) := []
  /-- announcements that this member could not acknowledge yet: origin, E (R326, R387). -/
  unacked : List (Nat × Nat) := []
  /-- one more than the MSEQ last accepted, by source; the next MSEQ, by destination (R383). -/
  mseqIn : SMap Nat := []
  mseqOut : SMap Nat := []
  /-- epochs without the lead's TICK (R387, R388). -/
  noTick : Nat := 0
  /-- QREPORT collection: members whose LAST has arrived, and the jobs reported; none when not collecting. -/
  qcollect : Option (List Nat × List (Nat × Nat)) := none
  /-- binding resumes at this epoch (R388). -/
  bindFrom : Nat := 0
  /-- paths a PATH_DOWN names: link, CHAN; and those usable again at an epoch (R375). -/
  down : List (Nat × Nat) := []
  upAt : List (Nat × Nat × Nat) := []
  mgmtRoute : List Byte := List.replicate 512 0xFF
  remoteWrite : Bool := false
  mgmtTimeouts : Nat := 0
  frags : List FragRun := []
  deriving DecidableEq, Repr

/-! ## Security (ch. 16) -/

/-- ENTROPY_STATE (R450). -/
inductive EntSt where
  | startup | healthy | unhealthy | failed
  deriving DecidableEq, Repr

/-- A request at the Signet engine (R454): class, arrival instant and what it is for. -/
inductive SigOp where
  | linkKex (j : Nat) | linkRekey (j : Nat) | pdec (tenant : Nat) | manifest (tenant : Nat)
  | offer (tenant : Nat) | submit (tenant : Nat) | hallmark
  deriving DecidableEq, Repr

/-- The security controller (R440..R463). -/
structure Sec where
  entropy : EntSt := .startup
  entropyFails : Nat := 0
  drbgUp : Bool := false
  drbgReseeds : Nat := 0
  drbgCalls : Nat := 0
  /-- bytes the DRBG has served since power-up, and ephemeral key pairs made. -/
  drbgPos : Nat := 0
  ephSeq : Nat := 0
  signetFailed : Bool := false
  mismatch : Nat := 0
  /-- queue of the Signet engine: (instant, request), oldest first; and the operation in progress. -/
  sigQueue : List (Nat × SigOp) := []
  sigBusy : Option SigOp := none
  /-- the engine's operand memory holds operands (R454). -/
  operands : Bool := false
  /-- IDENTITY_STATE: 0 NONE, 1 ESTABLISHED, 2 NO_CERT. -/
  identity : Nat := 0
  keyDigestFails : Nat := 0
  /-- contents of the vault by presence: identity and DeviceID keys, wrap key, unwrapped share, DRBG state. -/
  vaultId : Bool := false
  vaultWrap : Bool := false
  vaultShare : Option Nat := none
  peerPolicy : Bool := false
  /-- peers whose chain is cached: serial (R447). -/
  peers : List Nat := []
  /-- partial-decryption requests in order of their PDEC_RUN writes (R459). -/
  pdecQueue : List Nat := []
  hmNonce : List Byte := List.replicate 32 0
  hmTenant : Nat := 0
  /-- HM_RUN: 0 IDLE, 1 BUSY, 2 DONE, 3 REFUSED. -/
  hmRun : Nat := 0
  hmReason : Nat := 0
  hmReport : List Byte := []
  deriving DecidableEq, Repr

/-! ## Health (ch. 17) -/

/-- An entry of the event log (R480). -/
structure EvtRec where
  seq : Nat := 0
  code : Nat := 0
  sev : Nat := 1
  ack : Bool := false
  pinned : Bool := false
  persisted : Bool := false
  time : Nat := 0
  die : Nat := 0xFF
  inst : Nat := 0
  arg : Nat := 0
  body : Option FaultRec := none
  deriving DecidableEq, Repr

/-- An entry of the persistent record (R487). -/
structure PrEnt where
  type : Nat := 0
  unit : Nat := 0
  arg : Nat := 0
  time : Nat := 0
  deriving DecidableEq, Repr

/-- A sector of the persistent record (R487, R489). -/
structure Sector where
  erases : Nat := 0
  seq : Nat := 0
  good : Bool := true
  ents : List PrEnt := []
  deriving DecidableEq, Repr

/-- The health manager, the event log and the persistent record (R465..R497). -/
structure Health where
  auto : BitVec 8 := 0x3F
  retCheck : Nat := 3
  retEcc : Nat := 2
  retCorr : Nat := 1000
  fenceUnit : Nat := 4
  gearCeiling : Nat := 0
  tempStep : Int := 95
  tempResume : Int := 88
  powerLimit : Nat := 1500
  memLimit : Nat := 50
  memAlt : List Byte := List.replicate 16 0xFF
  horizon : Nat := 1000
  gear : Nat := 0
  replace : BitVec 8 := 0
  /-- one bit an epoch, newest first: the epoch counted in MP (R476); epochs at or below a quarter. -/
  mpBits : List Bool := []
  mpNow : Bool := false
  mpActive : Bool := false
  mpLow : Nat := 0
  throttled : List Nat := []
  throttleAll : Bool := false
  linksBase : Nat := 0
  baseTaken : Bool := false
  /-- FENCE_DIE and RETIRE_ARRAY as they read: 0 IDLE, 1 PENDING, 2 DONE, 3 REFUSED (R497), and the unit that is PENDING. -/
  fenceSt : Nat := 0
  retireSt : Nat := 0
  fenceHost : Option Nat := none
  retireHost : Option Nat := none
  bgDeferred : Nat := 0
  stewardHb1 : Bool := false
  mirrorFailed : Bool := false
  /-- consecutive samples at or above TEMP_STEP_C by die, power over the limit, and instant before which no further
  step down follows (R473). -/
  hot : SMap Nat := []
  overPower : Bool := false
  stepHold : Nat := 0
  coolSince : Option Nat := none
  /-- binding is stopped at 102 degrees; instant from which every die reads below 100 (R474). -/
  bindStop : Bool := false
  below100 : Option Nat := none
  evts : List EvtRec := []
  evtSeq : Nat := 0
  evtLost : Nat := 0
  sectors : List Sector := List.replicate 16 {}
  active : Nat := 0
  /-- record entries queued for programming (R488) and those programmed in the current 10 s window. -/
  prQueue : List PrEnt := []
  prTimes : List Nat := []
  prState : Nat := 0
  prNever : Nat := 0
  fuses : List Byte := List.replicate 16 0
  /-- last sweep of each spare (R491). -/
  sweeps : SMap Nat := []
  deriving DecidableEq, Repr

/-! ## Dictionary selectors, mirror, trace, test copy -/

/-- A requester's selectors (R423). -/
structure Sel where
  ten : Nat := 1
  str : Nat := 0
  loft : SMap Nat := []
  slot : Nat := 0
  owners : Nat := 0
  resVar : Nat := 0
  mirFirst : Nat := 0
  mirArray : Nat := 0
  mirCell : Nat := 0
  prime : Nat := 0
  pset : Nat := 0
  pslot : SMap Nat := []
  evt : Nat := 0
  deriving DecidableEq, Repr

/-- A mirror snapshot (R437): holder, instant, last read, and the four frozen tables. -/
structure Snap where
  holder : Requester := .mctp
  time : Nat := 0
  lastRead : Nat := 0
  streams : List Byte := []
  tenants : List Byte := []
  jobs : List Byte := []
  keys : SMap (List Byte) := []
  deriving DecidableEq, Repr

/-- Tracing (R229, R230): the entries, and the records that wait in the die buffers, oldest first. -/
structure Trace where
  enable : Bool := false
  events : BitVec 32 := 0xFC
  arrays : List Byte := List.replicate 64 0
  addr : Nat := 0
  len : Nat := 0
  wrap : Bool := false
  ptr : Nat := 0
  lost : Nat := 0
  buf : List (Nat × List Byte) := []
  deriving DecidableEq, Repr

/-- The loft copy for test (R438). -/
structure Dump where
  array : Nat := 0
  offset : Nat := 0
  len : Nat := 1024
  addr : Nat := 0
  run : Nat := 0
  deriving DecidableEq, Repr

/-- DEVICE_ENABLE and its state (R430..R432). ENABLE_STATE: 0 IDLE, 1 CHECKING, 2 ENABLED, 3 REFUSED, 4 DISABLING. -/
structure Enable where
  on : Bool := false
  reason : Nat := 0
  detail : Nat := 0
  st : Nat := 0
  time : Nat := 0
  /-- the lead's ACCEPT has arrived (R380). -/
  accepted : Bool := false
  /-- the first enable after a warm reset replays the journal (R417). -/
  replay : Bool := false
  deriving DecidableEq, Repr

/-- I3C and MCTP (R428, R430). -/
structure Mctp where
  dynAddr : Nat := 0
  eid : Nat := 0
  deriving DecidableEq, Repr

/-- What the part sends outside (log 6). -/
inductive Out where
  | frame (link : Nat) (f : TxFrame) (bytes : List Byte)
  | msix (f : FnId) (vec addr data : Nat)
  | response (q : Requester) (status index sub : Nat) (value : List Byte)
  | mctp (cmd : Nat) (bytes : List Byte)
  deriving DecidableEq, Repr

/-- The state of the part, and the queue of waiting commands. -/
structure State where
  pending : List Instr := []
  pw : Power := {}
  ports : SMap Port := []
  fns : SMap Fn := []
  tm : TimeSt := {}
  en : Enable := {}
  mctp : Mctp := {}
  plan : Option Plan := none
  pc : PlanCtl := {}
  vs : VarSt := {}
  tenants : SMap Tenant := []
  drrQuantum : Nat := 800000
  drrPtr : Nat := 1
  keys : List Key := []
  /-- uploads waiting, tenants in order (R127), and installs waiting: tenant, key (R147). -/
  uploads : List Nat := []
  installs : List (Nat × Nat) := []
  streams : SMap Stream := []
  jobs : List Job := []
  jobSeq : Nat := 0
  runs : List SlotRun := []
  slotStats : SMap SlotStat := []
  arrs : SMap Arr := []
  dies : SMap Die := []
  hubs : SMap HubCache := []
  stk : SMap Stack := []
  mem : MemCtl := {}
  /-- granary bytes, at block * 65,536 + offset (R288). -/
  gran : List Host.Cell := []
  links : SMap Link := []
  dom : Domain := {}
  sec : Sec := {}
  hm : Health := {}
  sels : List (Requester × Sel) := []
  snap : Option Snap := none
  trace : Trace := {}
  dump : Dump := {}
  /-- host memory, at addressSpace * 2^64 + address (log 4), and the ranges that fault: key and length. -/
  hostMem : List Host.Cell := []
  hostFaults : List (Nat × Nat) := []
  /-- the model's own counter of free values (log 9), and what the part has sent (log 6). -/
  free : Nat := 0
  out : List Out := []
  deriving DecidableEq, Repr

/-- The part right after a cold reset: in BOOT, every entry at its default (R421, R430, R504, R510). -/
def State.reset : State := {}

end Sys2Proof.Machine
end

