-- ==== Sys2Proof/Machine/Map.lean ====
section
/-! DEFINITION. Sparse tables in one canonical form, and the byte, bit and number helpers every other file uses (R2,
R5, R6). -/

namespace Sys2Proof.Machine

/-- Look a key up in a sparse table; an absent key reads the default. -/
def mget {α : Type} (d : α) : SMap α → Nat → α
  | [], _ => d
  | (k, v) :: m, i => if i = k then v else mget d m i

/-- Put an entry in its place in a rising table, replacing one of the same key. -/
def minsert {α : Type} : SMap α → Nat → α → SMap α
  | [], i, v => [(i, v)]
  | (k, w) :: m, i, v =>
    if i < k then (i, v) :: (k, w) :: m
    else if i = k then (i, v) :: m
    else (k, w) :: minsert m i v

/-- Take the entry of a key out of a table. -/
def merase {α : Type} : SMap α → Nat → SMap α
  | [], _ => []
  | (k, w) :: m, i => if i = k then m else (k, w) :: merase m i

/-- Set the value of a key; the default value is not listed. -/
def mset {α : Type} [DecidableEq α] (d : α) (m : SMap α) (i : Nat) (v : α) : SMap α :=
  if v = d then merase m i else minsert m i v

/-- The canonical form of a sparse table: keys strictly rising, no entry equal to the default. -/
def SMap.wf {α : Type} [DecidableEq α] (d : α) : SMap α → Bool
  | [] => true
  | [(_, v)] => decide (v ≠ d)
  | (k, v) :: (k', v') :: m => decide (v ≠ d) && decide (k < k') && SMap.wf d ((k', v') :: m)

/-- A range of keys read in order. -/
def mrange {α : Type} (d : α) (m : SMap α) (start n : Nat) : List α :=
  (List.range n).map fun i => mget d m (start + i)

/-- Successive keys set from a list. -/
def msetRange {α : Type} [DecidableEq α] (d : α) (m : SMap α) (start : Nat) : List α → SMap α
  | [] => m
  | v :: vs => msetRange d (mset d m start v) (start + 1) vs

/-- Drop every key of a range. -/
def mclear {α : Type} (m : SMap α) (lo hi : Nat) : SMap α :=
  m.filter fun e => decide (e.1 < lo ∨ hi ≤ e.1)

/-- A U32 counter saturates at 2^32 - 1. -/
def sat32 (n : Nat) : Nat := min n (2 ^ 32 - 1)

/-- One more event in a saturating U32 counter. -/
def bump (n : Nat) : Nat := sat32 (n + 1)

/-- One more event in a saturating U64 counter (R262). -/
def bump64 (n : Nat) : Nat := min (n + 1) (2 ^ 64 - 1)

/-- `n` bytes of a number, least significant first (R5). -/
def leBytes : Nat → Nat → List Byte
  | 0, _ => []
  | n + 1, v => BitVec.ofNat 8 v :: leBytes n (v / 256)

/-- The number that little-endian bytes spell (R5). -/
def leNat : List Byte → Nat
  | [] => 0
  | b :: bs => b.toNat + 256 * leNat bs

/-- The number that big-endian bytes spell. -/
def beNat (bs : List Byte) : Nat := leNat bs.reverse

/-- A two's-complement number of `w` bits as `n` little-endian bytes. -/
def leInt (n : Nat) (v : Int) : List Byte := leBytes n (v % (2 ^ (8 * n) : Int)).toNat

/-- Bits [hi:lo] of a number. -/
def bits (v hi lo : Nat) : Nat := v / 2 ^ lo % 2 ^ (hi + 1 - lo)

/-- Bit n of a number. -/
def bit (v n : Nat) : Bool := decide (v / 2 ^ n % 2 = 1)

/-- A Bool as a bit of weight 1. -/
def b2n (b : Bool) : Nat := if b then 1 else 0

/-- The two's-complement reading of the low `w` bits. -/
def sNat (w v : Nat) : Int := if 2 ^ (w - 1) ≤ v % 2 ^ w then (v % 2 ^ w : Int) - 2 ^ w else (v % 2 ^ w : Int)

/-- `len` bytes of a list from an offset; bytes past the end read 0. -/
def slice (bs : List Byte) (off len : Nat) : List Byte :=
  let t := (bs.drop off).take len
  t ++ List.replicate (len - t.length) 0

/-- The little-endian field of `len` bytes at an offset. -/
def field (bs : List Byte) (off len : Nat) : Nat := leNat (slice bs off len)

/-- Pad to a multiple of `m` bytes with zeros. -/
def padTo (m : Nat) (bs : List Byte) : List Byte :=
  bs ++ List.replicate ((m - bs.length % m) % m) 0

/-- Change the n-th element of a list. -/
def modifyNth {α : Type} (l : List α) (n : Nat) (f : α → α) : List α := l.modify n f

/-- A list is free of repeats of a key. -/
def uniq (l : List Nat) : Bool :=
  match l with
  | [] => true
  | x :: xs => !(xs.contains x) && uniq xs

/-- Put an element before the first one its key is below: equal keys keep their order. -/
def insertBy {α : Type} (key : α → Nat) (x : α) : List α → List α
  | [] => [x]
  | y :: l => if key x < key y then x :: y :: l else y :: insertBy key x l

/-- A list in rising order of a key, equal keys in their order. -/
def sortBy {α : Type} (key : α → Nat) (l : List α) : List α := l.foldl (fun acc x => insertBy key x acc) []

/-- The CRC-32 of IEEE 802.3: one bit of the reflected register. -/
def crcBit (c : BitVec 32) : BitVec 32 :=
  if c.getLsbD 0 then (c >>> 1) ^^^ 0xEDB88320#32 else c >>> 1

/-- The CRC-32 of IEEE 802.3: one byte. -/
def crcByte (c : BitVec 32) (b : Byte) : BitVec 32 :=
  (crcBit ∘ crcBit ∘ crcBit ∘ crcBit ∘ crcBit ∘ crcBit ∘ crcBit ∘ crcBit) (c ^^^ b.zeroExtend 32)

/-- The CRC-32 of IEEE 802.3 over bytes (R361, R501). -/
def crc32 (bs : List Byte) : BitVec 32 := ~~~ bs.foldl crcByte 0xFFFFFFFF#32

/-- The ASCII bytes of a string. -/
def ascii (s : String) : List Byte := s.toList.map fun c => BitVec.ofNat 8 c.toNat

/-- Floor of a rational plus one half, for a positive divisor: nearest, ties up. -/
def roundDiv (a b : Int) : Int := (2 * a + b) / (2 * b)

/-- An epoch number is later than another (R342). -/
def epochAfter (a b : Nat) : Bool :=
  let d := (a + 2 ^ 32 - b % 2 ^ 32) % 2 ^ 32
  decide (1 ≤ d ∧ d ≤ 2 ^ 31 - 1)

end Sys2Proof.Machine
end

