-- ==== Sys2Proof/Machine/Modular.lean ====
section
/-! DEFINITION. Residue arithmetic (ch. 2, 3): Barrett reduction, inverses, primality, the transforms, the
automorphisms, base conversion and the overflow estimate. Every function works on numbers below its modulus. -/

namespace Sys2Proof.Machine

/-- Barrett reduction of x < 2^(2k) (R34). -/
def barrett (k mu q x : Nat) : Nat :=
  let t := x / 2 ^ (k - 1) * mu / 2 ^ (k + 1)
  let r := x - t * q
  let r := if q ≤ r then r - q else r
  if q ≤ r then r - q else r

/-- Reduction of a lazy sum by C64 = 2^64 mod q (R34): high part times C64 plus low part, exactly modulo q. -/
def reduceLazy (c64 q v : Nat) : Nat := (v / 2 ^ 64 * c64 + v % 2 ^ 64) % q

/-- Addition modulo q of two residues. -/
def addMod (q a b : Nat) : Nat := (a + b) % q

/-- Subtraction modulo q of two residues. -/
def subMod (q a b : Nat) : Nat := (a + q - b % q) % q

/-- Negation modulo q; zero stays zero (R80). -/
def negMod (q a : Nat) : Nat := (q - a % q) % q

/-- Product modulo q. -/
def mulMod (q a b : Nat) : Nat := a * b % q

/-- A signed integer modulo q. -/
def intMod (q : Nat) (v : Int) : Nat := (v % (q : Int)).toNat

/-- The centred residue in −(q − 1)/2..(q − 1)/2 of an odd modulus. -/
def centred (q a : Nat) : Int := if 2 * (a % q) < q then (a % q : Int) else (a % q : Int) - q

/-- Power modulo q by the binary digits of the exponent, `n` of them. -/
def powModAux (q : Nat) : Nat → Nat → Nat → Nat
  | 0, _, _ => 1 % q
  | n + 1, b, e =>
    let r := powModAux q n (b * b % q) (e / 2)
    if e % 2 = 1 then b * r % q else r

/-- b^e modulo q for e < 2^64. -/
def powMod (q b e : Nat) : Nat := powModAux q 64 (b % q) e

/-- The inverse modulo a prime q. -/
def invMod (q a : Nat) : Nat := powMod q a (q - 2)

/-- The inverse of an odd g modulo 2^k, k ≥ 1. -/
def invPow2 (k g : Nat) : Nat := powMod (2 ^ k) g (2 ^ (k - 1) - 1)

/-- Bit length of a number below 2^n. -/
def bitLenAux : Nat → Nat → Nat
  | 0, _ => 0
  | n + 1, v => if v = 0 then 0 else bitLenAux n (v / 2) + 1

/-- Bit length. -/
def bitLen (v : Nat) : Nat := bitLenAux 8192 v

/-- One strong-pseudoprime test to base b of an odd n = d × 2^r + 1. -/
def sprp (n d r b : Nat) : Bool :=
  let x := powMod n b d
  b % n == 0 || x == 1 ||
    ((List.range r).foldl (fun (acc : Bool × Nat) _ => (acc.1 || acc.2 == n - 1, acc.2 * acc.2 % n)) (false, x)).1

/-- The power of two in n, at most `k`. -/
def twos : Nat → Nat → Nat
  | 0, _ => 0
  | k + 1, n => if n % 2 = 0 ∧ n ≠ 0 then twos k (n / 2) + 1 else 0

/-- Miller–Rabin with bases 2, 7 and 61, exact below 2^32 (R49 test 1). -/
def isPrime (n : Nat) : Bool :=
  if n < 2 then false
  else if n = 2 ∨ n = 7 ∨ n = 61 then true
  else if n % 2 = 0 then false
  else
    let r := twos 40 (n - 1)
    let d := (n - 1) / 2 ^ r
    sprp n d r 2 && sprp n d r 7 && sprp n d r 61

/-- brv(k): the low `n` bits of k reversed (R44). -/
def brv : Nat → Nat → Nat
  | 0, _ => 0
  | n + 1, k => k % 2 * 2 ^ n + brv n (k / 2)

/-! ## Transforms (R45) -/

/-- One stage of the forward transform: m blocks of stride t. -/
def nttStage (q psi logn m t : Nat) (a : List Nat) : List Nat :=
  let v := a.toArray
  (List.range a.length).map fun j =>
    let i := j / (2 * t)
    let s := powMod q psi (brv logn (m + i))
    if j % (2 * t) < t then addMod q (v.getD j 0) (mulMod q (v.getD (j + t) 0) s)
    else subMod q (v.getD (j - t) 0) (mulMod q (v.getD j 0) s)

/-- The stages left of the forward transform. -/
def nttFrom (q psi logn : Nat) : Nat → Nat → List Nat → List Nat
  | 0, _, a => a
  | n + 1, m, a => nttFrom q psi logn n (2 * m) (nttStage q psi logn m (2 ^ n) a)

/-- The forward negacyclic transform of a limb of 2^logn words (R45). -/
def ntt (q psi logn : Nat) (a : List Nat) : List Nat := nttFrom q psi logn logn 1 a

/-- One stage of the inverse transform: h blocks of stride t. -/
def inttStage (q psiInv logn h t : Nat) (a : List Nat) : List Nat :=
  let v := a.toArray
  (List.range a.length).map fun j =>
    let i := j / (2 * t)
    let s := powMod q psiInv (brv logn (h + i))
    if j % (2 * t) < t then addMod q (v.getD j 0) (v.getD (j + t) 0)
    else mulMod q (subMod q (v.getD (j - t) 0) (v.getD j 0)) s

/-- The first `n` stages of the inverse transform from stride 2^(logn − n). -/
def inttFrom (q psiInv logn : Nat) : Nat → List Nat → List Nat
  | 0, a => a
  | n + 1, a => inttFrom q psiInv logn n (inttStage q psiInv logn (2 ^ n) (2 ^ (logn - 1 - n)) a)

/-- The inverse negacyclic transform of a limb of 2^logn words, scaled by N^-1 (R45, R92). -/
def intt (q psiInv nInv logn : Nat) (a : List Nat) : List Nat :=
  (inttFrom q psiInv logn logn a).map fun x => mulMod q x nInv

/-! ## Automorphisms (R97..R99) -/

/-- X → X^g in the coefficient domain of dimension 2^logn (R97). -/
def autoCoeff (q logn g : Nat) (a : List Nat) : List Nat :=
  let n := 2 ^ logn
  let h := invPow2 (logn + 1) g
  let v := a.toArray
  (List.range a.length).map fun d =>
    let j := d * h % (2 * n)
    if j < n then v.getD j 0 else negMod q (v.getD (j - n) 0)

/-- The index k' of R98 for index k: 2 brv(k') + 1 ≡ g (2 brv(k) + 1) modulo 2N. -/
def autoIndex (logn g k : Nat) : Nat := brv logn (g * (2 * brv logn k + 1) % 2 ^ (logn + 1) / 2)

/-- X → X^g in the evaluation domain: the word at k goes to k' (R98, log 30). -/
def autoEval (logn g : Nat) (a : List Nat) : List Nat :=
  let h := invPow2 (logn + 1) g
  let v := a.toArray
  (List.range a.length).map fun k => v.getD (autoIndex logn h k) 0

/-- Multiplication by ±X^m in the coefficient domain (R99). -/
def mulxCoeff (q logn m : Nat) (neg : Bool) (a : List Nat) : List Nat :=
  let n := 2 ^ logn
  let v := a.toArray
  (List.range a.length).map fun d =>
    let x := if m ≤ d then v.getD (d - m) 0 else negMod q (v.getD (d + n - m) 0)
    if neg then negMod q x else x

/-- Multiplication by ±X^m in the evaluation domain: the pointwise product by its transform, of the words of a limb from
index `i0` on (R99). -/
def mulxEval (q psi logn m : Nat) (neg : Bool) (i0 : Nat) (a : List Nat) : List Nat :=
  a.zipIdx.map fun e =>
    let w := powMod q psi (m * (2 * brv logn (i0 + e.2) + 1) % 2 ^ (logn + 1))
    let x := mulMod q e.1 w
    if neg then negMod q x else x

/-! ## Base conversion and the overflow estimate (R53, R54) -/

/-- Product of a list. -/
def prodL (qs : List Nat) : Nat := qs.foldl (· * ·) 1

/-- [Q/q_j] modulo p. -/
def qHat (qs : List Nat) (j p : Nat) : Nat := prodL ((qs.zipIdx.filter fun e => e.2 != j).map (·.1)) % p

/-- y_j = x_j (Q/q_j)^-1 modulo q_j for one coefficient (R53). -/
def convY (qs xs : List Nat) : List Nat :=
  (qs.zip xs).zipIdx.map fun e => mulMod e.1.1 e.1.2 (invMod e.1.1 (qHat qs e.2 e.1.1))

/-- σ_p = Σ y_j [Q/q_j]_p modulo p (R53). -/
def convSigma (qs ys : List Nat) (p : Nat) : Nat :=
  (ys.zipIdx.foldl (fun acc e => acc + e.1 * qHat qs e.2 p) 0) % p

/-- f_j = floor(2^96 / q_j) (R54). -/
def alphaF (q : Nat) : Nat := 2 ^ 96 / q

/-- V of R54 for one coefficient. -/
def convV (qs ys : List Nat) : Nat :=
  (qs.zip ys).foldl (fun acc e => acc + e.2 * alphaF e.1 / 2 ^ 32) (2 ^ 63)

/-- α0 of R54. -/
def alpha0 (v : Nat) : Nat := v / 2 ^ 64

/-- The estimate is ambiguous (R54). -/
def alphaAmbiguous (v l : Nat) : Bool := decide (2 ^ 64 - 2 * l ≤ v % 2 ^ 64)

/-- α = (σ_c − c) Q^-1 modulo p_c, centred (R53). -/
def alphaOf (qs : List Nat) (pc sigma c : Nat) : Int :=
  centred pc (mulMod pc (subMod pc sigma c) (invMod pc (prodL qs % pc)))

/-- One coefficient passes the verification at allowance w (R56). -/
def verifyCoeff (qs : List Nat) (pc w : Nat) (xs : List Nat) (c : Nat) : Bool :=
  let ys := convY qs xs
  let v := convV qs ys
  let a := alphaOf qs pc (convSigma qs ys pc) c
  let a0 : Int := alpha0 v
  decide (a0 - w ≤ a ∧ a ≤ a0 + (if alphaAmbiguous v qs.length then 1 else 0) + w)

/-- The anchored check word of a coefficient, and whether its estimate is ambiguous (R55). -/
def anchorCoeff (qs : List Nat) (pc : Nat) (xs : List Nat) : Nat × Bool :=
  let ys := convY qs xs
  let v := convV qs ys
  (subMod pc (convSigma qs ys pc) (mulMod pc (alpha0 v) (prodL qs % pc)), alphaAmbiguous v qs.length)

/-- Coefficient i of every limb. -/
def column (limbs : List (List Nat)) (i : Nat) : List Nat := limbs.map fun l => l.getD i 0

/-- The first coefficient that fails the verification of a sheaf at allowance w (R56). -/
def verifySheaf (qs : List Nat) (pc w n : Nat) (limbs : List (List Nat)) (check : List Nat) : Option Nat :=
  (List.range n).find? fun i => !(verifyCoeff qs pc w (column limbs i) (check.getD i 0))

/-- The anchored check limb of a sheaf, and its state: 1 when some estimate is ambiguous, else 0 (R55). -/
def anchorSheaf (qs : List Nat) (pc n : Nat) (limbs : List (List Nat)) : List Nat × Nat :=
  let r := (List.range n).map fun i => anchorCoeff qs pc (column limbs i)
  (r.map (·.1), if r.any (·.2) then 1 else 0)

/-! ## Check states (R51, R52) -/

/-- An allowance above 13 is OPEN (R51). -/
def capState (w : Nat) : Nat := if 13 < w then 14 else w

/-- State of a sum or a difference: OPEN with an OPEN operand; a POISONED operand never gets here (R52, R63). -/
def stAdd (a b : Nat) : Nat := if 13 < a ∨ 13 < b then 14 else capState (a + b + 1)

/-- State of a product by the small integer k (R52). -/
def stScal (k : Int) (w : Nat) : Nat := if 13 < w then 14 else capState (k.natAbs * w + k.natAbs / 2)

end Sys2Proof.Machine
end

