-- ==== Sys2Proof/Machine/Float.lean ====
section
/-! DEFINITION. FP32 and BF16 (R172, R173, R176..R179): exact results rounded once under a rounding mode, with flags in
the bit positions of the slot status (R182). -/

namespace Sys2Proof.Machine

/-- Flag bits of R182. -/
def fNV : Nat := 1
def fDZ : Nat := 2
def fOF : Nat := 4
def fUF : Nat := 8
def fNX : Nat := 16
def fSAT : Nat := 32
def fFOV : Nat := 64

/-- Fraction bits of a floating-point type (R172): 23 for FP32, 7 for BF16. -/
abbrev FracBits := Nat

/-- A decoded operand: NaN (signalling or not), infinity, or sign, magnitude and exponent of 2. -/
inductive FVal where
  | nan (sig : Bool)
  | inf (neg : Bool)
  | fin (neg : Bool) (mant : Nat) (exp : Int)
  deriving DecidableEq, Repr

/-- The sign bit's weight. -/
def fSignW (fr : FracBits) : Nat := 2 ^ (fr + 8)

/-- The canonical quiet NaN (R178). -/
def fNaN (fr : FracBits) : Nat := 255 * 2 ^ fr + 2 ^ (fr - 1)

/-- Infinity of a sign. -/
def fInf (fr : FracBits) (neg : Bool) : Nat := b2n neg * fSignW fr + 255 * 2 ^ fr

/-- Zero of a sign. -/
def fZero (fr : FracBits) (neg : Bool) : Nat := b2n neg * fSignW fr

/-- The largest finite value of a sign. -/
def fMax (fr : FracBits) (neg : Bool) : Nat := b2n neg * fSignW fr + 255 * 2 ^ fr - 1

/-- Decode an operand; with FTZ a subnormal reads as zero of its sign (R177). -/
def fDecode (fr : FracBits) (ftz : Bool) (v : Nat) : FVal :=
  let neg := bit v (fr + 8)
  let e := bits v (fr + 7) fr
  let m := v % 2 ^ fr
  if e = 255 then (if m = 0 then .inf neg else .nan (!bit v (fr - 1)))
  else if e = 0 then (if ftz then .fin neg 0 0 else .fin neg m (-126 - fr))
  else .fin neg (m + 2 ^ fr) ((e : Int) - 127 - fr)

/-- A signalling NaN operand. -/
def FVal.signalling : FVal → Bool
  | .nan true => true
  | _ => false

/-- A NaN operand. -/
def FVal.isNaN : FVal → Bool
  | .nan _ => true
  | _ => false

/-- A magnitude m × 2^e rounded to a multiple of 2^q under a mode: the multiple and whether it is inexact (R176). -/
def roundAt (rm : Nat) (neg : Bool) (m : Nat) (e q : Int) : Nat × Bool :=
  if q ≤ e then (m * 2 ^ (e - q).toNat, false)
  else
    let w := 2 ^ (q - e).toNat
    let n := m / w
    let r := m % w
    let up := match rm with
      | 0 => decide (w < 2 * r) || (decide (2 * r = w) && n % 2 == 1)
      | 1 => false
      | 2 => neg && r != 0
      | _ => !neg && r != 0
    (if up then n + 1 else n, r != 0)

/-- Round a non-zero exact magnitude m × 2^e to the type: the encoded value and its flags (R176, R177). -/
def fRound (fr : FracBits) (rm : Nat) (ftz neg : Bool) (m : Nat) (e : Int) : Nat × Nat :=
  if m = 0 then (fZero fr neg, 0)
  else
    let top : Int := (bitLen m : Int) - 1 + e
    let qn : Int := top - fr
    let qmin : Int := -126 - fr
    let free := roundAt rm neg m e qn
    let tiny := decide (qn < qmin) && !(decide (qn = qmin - 1) && free.1 == 2 ^ (fr + 1))
    let q := max qn qmin
    let r := roundAt rm neg m e q
    let code := (q - qmin).toNat * 2 ^ fr + r.1
    if 255 * 2 ^ fr ≤ code then
      let toInf := match rm with
        | 0 => true
        | 1 => false
        | 2 => neg
        | _ => !neg
      (if toInf then fInf fr neg else fMax fr neg, fOF ||| fNX)
    else if ftz && decide (code < 2 ^ fr) then (fZero fr neg, fUF ||| fNX)
    else (b2n neg * fSignW fr + code, if r.2 then (if tiny then fUF ||| fNX else fNX) else 0)

/-- The exact sum of two finite values as a signed magnitude. -/
def exactSum (n1 : Bool) (m1 : Nat) (e1 : Int) (n2 : Bool) (m2 : Nat) (e2 : Int) : Int × Int :=
  let e := min e1 e2
  let a : Int := (m1 * 2 ^ (e1 - e).toNat : Nat)
  let b : Int := (m2 * 2 ^ (e2 - e).toNat : Nat)
  ((if n1 then -a else a) + (if n2 then -b else b), e)

/-- Sum of decoded operands, an exact zero sum of opposite signs signed by R179. -/
def fSum (fr : FracBits) (rm : Nat) (ftz : Bool) (x y : FVal) : Nat × Nat :=
  match x, y with
  | .nan a, .nan b => (fNaN fr, if a || b then fNV else 0)
  | .nan a, _ => (fNaN fr, if a then fNV else 0)
  | _, .nan b => (fNaN fr, if b then fNV else 0)
  | .inf a, .inf b => if a == b then (fInf fr a, 0) else (fNaN fr, fNV)
  | .inf a, _ => (fInf fr a, 0)
  | _, .inf b => (fInf fr b, 0)
  | .fin n1 m1 e1, .fin n2 m2 e2 =>
    let s := exactSum n1 m1 e1 n2 m2 e2
    if s.1 = 0 then
      (fZero fr (if m1 = 0 ∧ m2 = 0 ∧ n1 = n2 then n1 else rm == 2), 0)
    else fRound fr rm ftz (decide (s.1 < 0)) s.1.natAbs s.2

/-- The opposite of a decoded operand. -/
def FVal.neg : FVal → FVal
  | .nan a => .nan a
  | .inf a => .inf (!a)
  | .fin n m e => .fin (!n) m e

/-- FADD (R174). -/
def fAdd (fr : FracBits) (rm : Nat) (ftz : Bool) (a b : Nat) : Nat × Nat :=
  fSum fr rm ftz (fDecode fr ftz a) (fDecode fr ftz b)

/-- FSUB (R174). -/
def fSub (fr : FracBits) (rm : Nat) (ftz : Bool) (a b : Nat) : Nat × Nat :=
  fSum fr rm ftz (fDecode fr ftz a) (fDecode fr ftz b).neg

/-- FMUL (R174). -/
def fMul (fr : FracBits) (rm : Nat) (ftz : Bool) (a b : Nat) : Nat × Nat :=
  match fDecode fr ftz a, fDecode fr ftz b with
  | .nan x, .nan y => (fNaN fr, if x || y then fNV else 0)
  | .nan x, _ => (fNaN fr, if x then fNV else 0)
  | _, .nan y => (fNaN fr, if y then fNV else 0)
  | .inf x, .inf y => (fInf fr (x != y), 0)
  | .inf x, .fin n m _ => if m = 0 then (fNaN fr, fNV) else (fInf fr (x != n), 0)
  | .fin n m _, .inf y => if m = 0 then (fNaN fr, fNV) else (fInf fr (n != y), 0)
  | .fin n1 m1 e1, .fin n2 m2 e2 => fRound fr rm ftz (n1 != n2) (m1 * m2) (e1 + e2)

/-- FMA: a × b + c with one rounding (R173, R174). -/
def fFma (fr : FracBits) (rm : Nat) (ftz : Bool) (a b c : Nat) : Nat × Nat :=
  let x := fDecode fr ftz a
  let y := fDecode fr ftz b
  let z := fDecode fr ftz c
  let invalid := match x, y with
    | .inf _, .fin _ m _ => m == 0
    | .fin _ m _, .inf _ => m == 0
    | _, _ => false
  if x.signalling || y.signalling || z.signalling then (fNaN fr, fNV)
  else if invalid then (fNaN fr, if z.isNaN && !Config.fmaInvalidBesideNaN then 0 else fNV)
  else if x.isNaN || y.isNaN || z.isNaN then (fNaN fr, 0)
  else
    let p : FVal := match x, y with
      | .fin n1 m1 e1, .fin n2 m2 e2 => .fin (n1 != n2) (m1 * m2) (e1 + e2)
      | .inf n1, .inf n2 => .inf (n1 != n2)
      | .inf n1, .fin n2 _ _ => .inf (n1 != n2)
      | .fin n1 _ _, .inf n2 => .inf (n1 != n2)
      | v, _ => v
    fSum fr rm ftz p z

/-- FDIV (R174). -/
def fDiv (fr : FracBits) (rm : Nat) (ftz : Bool) (a b : Nat) : Nat × Nat :=
  match fDecode fr ftz a, fDecode fr ftz b with
  | .nan x, .nan y => (fNaN fr, if x || y then fNV else 0)
  | .nan x, _ => (fNaN fr, if x then fNV else 0)
  | _, .nan y => (fNaN fr, if y then fNV else 0)
  | .inf _, .inf _ => (fNaN fr, fNV)
  | .inf x, .fin n _ _ => (fInf fr (x != n), 0)
  | .fin n _ _, .inf y => (fZero fr (n != y), 0)
  | .fin n1 m1 e1, .fin n2 m2 e2 =>
    if m2 = 0 then (if m1 = 0 then (fNaN fr, fNV) else (fInf fr (n1 != n2), fDZ))
    else
      let k : Nat := 64
      let num := m1 * 2 ^ k
      fRound fr rm ftz (n1 != n2) (2 * (num / m2) + (if num % m2 = 0 then 0 else 1)) (e1 - e2 - (k : Int) - 1)

/-- The integer square root, by its bits from the top. -/
def isqrt : Nat → Nat → Nat → Nat
  | 0, n, r => if (r + 1) * (r + 1) ≤ n then r + 1 else r
  | i + 1, n, r => isqrt i n (if (r + 2 ^ (i + 1)) * (r + 2 ^ (i + 1)) ≤ n then r + 2 ^ (i + 1) else r)

/-- FSQRT (R174). -/
def fSqrt (fr : FracBits) (rm : Nat) (ftz : Bool) (a : Nat) : Nat × Nat :=
  match fDecode fr ftz a with
  | .nan x => (fNaN fr, if x then fNV else 0)
  | .inf n => if n then (fNaN fr, fNV) else (fInf fr false, 0)
  | .fin n m e =>
    if m = 0 then (fZero fr n, 0)
    else if n then (fNaN fr, fNV)
    else
      let odd := e % 2 ≠ 0
      let m' := (if odd then 2 * m else m) * 2 ^ 64
      let e' := (if odd then e - 1 else e) - 64
      let r := isqrt 48 m' 0
      fRound fr rm ftz false (2 * r + (if r * r = m' then 0 else 1)) (e' / 2 - 1)

/-- x ranks below y, −0 below +0; operands not NaN (R174 FMIN). -/
def fBelow (x y : FVal) : Bool :=
  let ord : FVal → Int × Int := fun v => match v with
    | .inf n => (if n then -1 else 1, 0)
    | _ => (0, 0)
  if (ord x).1 ≠ (ord y).1 then decide ((ord x).1 < (ord y).1)
  else match x, y with
    | .fin n1 m1 e1, .fin n2 m2 e2 =>
      let d := (exactSum n1 m1 e1 (!n2) m2 e2).1
      decide (d < 0) || (d == 0 && n1 && !n2)
    | _, _ => false

/-- The encoding of an operand as the operation reads it: a subnormal under FTZ is a zero. -/
def fRead (fr : FracBits) (ftz : Bool) (a : Nat) : Nat :=
  match fDecode fr ftz a with
  | .fin n m _ => if m = 0 then fZero fr n else a
  | _ => a

/-- FMIN and FMAX: minimumNumber and maximumNumber (R174, R178). -/
def fMinMax (fr : FracBits) (ftz isMax : Bool) (a b : Nat) : Nat × Nat :=
  let x := fDecode fr ftz a
  let y := fDecode fr ftz b
  let fl := if x.signalling || y.signalling then fNV else 0
  if x.isNaN && y.isNaN then (fNaN fr, fl)
  else if x.isNaN then (fRead fr ftz b, fl)
  else if y.isNaN then (fRead fr ftz a, fl)
  else (if fBelow x y == isMax then fRead fr ftz b else fRead fr ftz a, fl)

/-- Equality of decoded operands, zeros equal. -/
def fEqual (x y : FVal) : Bool := match x, y with
  | .inf a, .inf b => a == b
  | .fin n1 m1 e1, .fin n2 m2 e2 => (exactSum n1 m1 e1 (!n2) m2 e2).1 == 0
  | _, _ => false

/-- CMP (R174): 0 EQ, 1 NE, 2 LT, 3 LE; the truth value and the flags. -/
def fCmp (fr : FracBits) (ftz : Bool) (rel a b : Nat) : Bool × Nat :=
  let x := fDecode fr ftz a
  let y := fDecode fr ftz b
  let nan := x.isNaN || y.isNaN
  let sig := x.signalling || y.signalling
  let fl := if (2 ≤ rel && nan) || sig then fNV else 0
  let eq := fEqual x y
  let lt := !eq && fBelow x y
  (match rel with
   | 0 => !nan && eq
   | 1 => nan || !eq
   | 2 => !nan && lt
   | _ => !nan && (lt || eq), fl)

/-- FCVT between the floating-point types (R174). -/
def fConvert (src dst : FracBits) (rm : Nat) (ftz : Bool) (a : Nat) : Nat × Nat :=
  match fDecode src ftz a with
  | .nan s => (fNaN dst, if s then fNV else 0)
  | .inf n => (fInf dst n, 0)
  | .fin n m e => if m = 0 then (fZero dst n, 0) else fRound dst rm ftz n m e

/-- FCVT to an integer of w bits (R174): NaN gives 0, an out-of-range value clamps. -/
def fToInt (fr : FracBits) (w rm : Nat) (ftz : Bool) (a : Nat) : Int × Nat :=
  let hi : Int := 2 ^ (w - 1) - 1
  let lo : Int := -(2 ^ (w - 1))
  match fDecode fr ftz a with
  | .nan _ => (0, fNV)
  | .inf n => (if n then lo else hi, fNV)
  | .fin n m e =>
    let r := roundAt rm n m e 0
    let v : Int := if n then -(r.1 : Int) else r.1
    if v < lo then (lo, fNV) else if hi < v then (hi, fNV) else (v, if r.2 then fNX else 0)

/-- FCVT from an integer (R174). -/
def fOfInt (fr : FracBits) (rm : Nat) (ftz : Bool) (v : Int) : Nat × Nat :=
  if v = 0 then (0, 0) else fRound fr rm ftz (decide (v < 0)) v.natAbs 0

end Sys2Proof.Machine
end

