-- ==== Sys2Proof/Machine/Ops.lean ====
section
/-! DEFINITION. The named operations over the state that every family uses: units by number, bytes of the memories,
free values, the spaces of host memory, what the part sends, interrupts, the event log and the persistent record. -/

namespace Sys2Proof.Machine

/-- What a command answers. -/
abbrev Res := Host.Outcome State Fault Refusal

/-! ## Guards -/

/-- Go on when a unit exists (R10, R391), otherwise fault by its name. -/
def need (ok : Bool) (what : String) (k : Res) : Res := if ok then k else .fault (.noSuchUnit what)

/-- Go on when the event can arise in this state, otherwise refuse by name. -/
def arises (ok : Bool) (why : String) (k : Res) : Res := if ok then k else .refused (.cannotArise why)

/-- Go on when a loaded plan can hold the word, otherwise refuse by name. -/
def formed (ok : Bool) (why : String) (k : Res) : Res := if ok then k else .refused (.illFormed why)

/-! ## Units by number -/

/-- A compute die, by number (R10). -/
def State.die (s : State) (d : Nat) : Die := mget {} s.dies d

/-- Replace a compute die. -/
def State.setDie (s : State) (d : Nat) (x : Die) : State := { s with dies := mset {} s.dies d x }

/-- Change a compute die. -/
def State.modDie (s : State) (d : Nat) (f : Die → Die) : State := s.setDie d (f (s.die d))

/-- The physical slot that holds a logical array (R11). -/
def State.pslot (s : State) (a : ArrId) : Nat := (s.die a.die).slotMap.getD a.arr a.arr

/-- Where the contents of a physical slot are kept. -/
def slotKey (die pslot : Nat) : Nat := die * 68 + pslot

/-- The contents of a logical array (R11). -/
def State.arr (s : State) (a : ArrId) : Arr := mget {} s.arrs (slotKey a.die (s.pslot a))

/-- Replace the contents of a logical array. -/
def State.setArr (s : State) (a : ArrId) (x : Arr) : State :=
  { s with arrs := mset {} s.arrs (slotKey a.die (s.pslot a)) x }

/-- Change the contents of a logical array. -/
def State.modArr (s : State) (a : ArrId) (f : Arr → Arr) : State := s.setArr a (f (s.arr a))

/-- The global logical number of an array (R10): die × 64 + array. -/
def globalOf (a : ArrId) : Nat := a.die * 64 + a.arr

/-- The array of a global logical number. -/
def arrOf (n : Nat) : ArrId := ⟨n / 64 % 8, n % 64⟩

/-- Every logical array of the part. -/
def allArrs : List ArrId := (List.range 512).map arrOf

/-- The arrays named by a die mask and an array mask. -/
def maskArrs (dieMask arrayMask : Nat) : List ArrId :=
  allArrs.filter fun a => bit dieMask a.die && bit arrayMask a.arr

/-- The number of a PCIe function: port × 64 + function. -/
def fnKey (f : FnId) : Nat := f.port * 64 + f.fn

/-- The function of a STR_FN or TEN_HOME_FN value (R395, R402): [8] port, [5:0] function. -/
def fnOfEntry (v : Nat) : FnId := ⟨v / 256 % 2, v % 64⟩

/-- A PCIe function. -/
def State.fn (s : State) (f : FnId) : Fn := mget {} s.fns (fnKey f)

/-- Replace a PCIe function. -/
def State.setFn (s : State) (f : FnId) (x : Fn) : State := { s with fns := mset {} s.fns (fnKey f) x }

/-- A host port. -/
def State.port (s : State) (n : Nat) : Port := mget {} s.ports n

/-- Replace a host port. -/
def State.setPort (s : State) (n : Nat) (x : Port) : State := { s with ports := mset {} s.ports n x }

/-- A tenant context. -/
def State.tenant (s : State) (t : Nat) : Tenant := mget {} s.tenants t

/-- Replace a tenant context. -/
def State.setTenant (s : State) (t : Nat) (x : Tenant) : State := { s with tenants := mset {} s.tenants t x }

/-- Change a tenant context. -/
def State.modTenant (s : State) (t : Nat) (f : Tenant → Tenant) : State := s.setTenant t (f (s.tenant t))

/-- A stream context. -/
def State.stream (s : State) (n : Nat) : Stream := mget {} s.streams n

/-- Replace a stream context. -/
def State.setStream (s : State) (n : Nat) (x : Stream) : State := { s with streams := mset {} s.streams n x }

/-- Change a stream context. -/
def State.modStream (s : State) (n : Nat) (f : Stream → Stream) : State := s.setStream n (f (s.stream n))

/-- A Jupen link. -/
def State.link (s : State) (j : Nat) : Link := mget {} s.links j

/-- Replace a link. -/
def State.setLink (s : State) (j : Nat) (x : Link) : State := { s with links := mset {} s.links j x }

/-- Change a link. -/
def State.modLink (s : State) (j : Nat) (f : Link → Link) : State := s.setLink j (f (s.link j))

/-- A memory stack. -/
def State.stack (s : State) (k : Nat) : Stack := mget {} s.stk k

/-- Replace a stack. -/
def State.setStack (s : State) (k : Nat) (x : Stack) : State := { s with stk := mset {} s.stk k x }

/-- Change a stack. -/
def State.modStack (s : State) (k : Nat) (f : Stack → Stack) : State := s.setStack k (f (s.stack k))

/-- A hub's granary cache. -/
def State.hub (s : State) (h : Nat) : HubCache := mget {} s.hubs h

/-- Replace a hub's cache. -/
def State.setHub (s : State) (h : Nat) (x : HubCache) : State := { s with hubs := mset {} s.hubs h x }

/-- A job of the in-flight table by its number. -/
def State.job? (s : State) (i : Nat) : Option Job := s.jobs.find? fun j => j.idx == i

/-- Change a job of the in-flight table. -/
def State.modJob (s : State) (i : Nat) (f : Job → Job) : State :=
  { s with jobs := s.jobs.map fun j => if j.idx == i then f j else j }

/-- The started run of a slot. -/
def State.running? (s : State) (slot : Nat) : Option SlotRun := s.runs.find? fun r => r.slot == slot && r.started

/-- The bound run of a slot that has not started. -/
def State.waiting? (s : State) (slot : Nat) : Option SlotRun := s.runs.find? fun r => r.slot == slot && !r.started

/-- Two runs are of the same slot and epoch. -/
def sameRun (r q : SlotRun) : Bool := r.slot == q.slot && r.epoch == q.epoch

/-- Change a slot run. -/
def State.modRun (s : State) (q : SlotRun) (f : SlotRun → SlotRun) : State :=
  { s with runs := s.runs.map fun r => if sameRun r q then f r else r }

/-- Remove a slot run. -/
def State.dropRun (s : State) (q : SlotRun) : State := { s with runs := s.runs.filter fun r => !sameRun r q }

/-- A slot's counters. -/
def State.modSlotStat (s : State) (slot : Nat) (f : SlotStat → SlotStat) : State :=
  { s with slotStats := mset {} s.slotStats slot (f (mget {} s.slotStats slot)) }

/-- SLOT_DELAY_MAX keeps the largest delay D of a slot's arrays since its last read (R320, R336). -/
def State.noteDelay (s : State) (slot d : Nat) : State :=
  if d = 0 then s else s.modSlotStat slot fun x => { x with delayMax := max x.delayMax d }

/-- PART_STATE is ENABLED or REPLACE_REQUESTED (R401, R484): the part works. -/
def State.working (s : State) : Bool := s.pw.part == .enabled || s.pw.part == .replaceRequested

/-- The part has power and its clocks (R518): every state but OFF. -/
def State.powered (s : State) : Bool := s.pw.part != .off

/-- The part has left BOOT and is not in SAFE. -/
def State.running (s : State) : Bool := s.working || s.pw.part == .standby

/-! ## Bytes of the memories -/

/-- A memory of bytes in its canonical form: addresses strictly rising, no byte equal to the 0 an unlisted address
reads as (log 3). -/
abbrev Memory := List Host.Cell

/-- The canonical form holds. -/
def Memory.wf (m : Memory) : Bool := SMap.wf (0 : Byte) m

/-- One byte of a memory. -/
def Memory.byte (m : Memory) (a : Nat) : Byte := mget 0 m a

/-- Write one byte. -/
def Memory.setByte (m : Memory) (a : Nat) (v : Byte) : Memory := mset 0 m a v

/-- Read bytes in order. -/
def Memory.read (m : Memory) (a n : Nat) : List Byte := mrange 0 m a n

/-- Write bytes in order. -/
def Memory.write (m : Memory) (a : Nat) (bs : List Byte) : Memory := msetRange 0 m a bs

/-! ## Free values (log 9) -/

/-- The next free word, and the state that has used it. -/
def State.freshWord (s : State) : Word × State := (Config.freeWord s.free, { s with free := s.free + 1 })

/-- The next free bytes. -/
def State.freshBytes (s : State) (n : Nat) : List Byte × State :=
  ((List.range n).map fun i => Config.freeByte (s.free + i), { s with free := s.free + n })

/-! ## Host memory (R393) -/

/-- A host address space: a function and, when bit 31 of the entry is set, a PASID (R393, R395). -/
def hostSpace (f : FnId) (pasid : BitVec 32) : Nat :=
  fnKey f * 2 ^ 21 + (if pasid.getLsbD 31 then 2 ^ 20 + pasid.toNat % 2 ^ 20 else 0)

/-- The model's key of a host address (log 4). -/
def hostKey (space addr : Nat) : Nat := space * 2 ^ 64 + addr % 2 ^ 64

/-- A DMA access to host bytes faults: the function has no bus mastering, its port is down, or the range holds an
address whose translation faults. -/
def State.hostFaults? (s : State) (f : FnId) (pasid : BitVec 32) (addr len : Nat) : Bool :=
  !(s.fn f).bme || !(s.fn f).present ||
    s.hostFaults.any fun r =>
      decide (r.1 < hostKey (hostSpace f pasid) addr + len ∧ hostKey (hostSpace f pasid) addr < r.1 + r.2)

/-- Read host bytes by DMA; none on a host access fault. -/
def State.hostRead (s : State) (f : FnId) (pasid : BitVec 32) (addr len : Nat) : Option (List Byte) :=
  if s.hostFaults? f pasid addr len then none
  else some (Memory.read s.hostMem (hostKey (hostSpace f pasid) addr) len)

/-- Write host bytes by DMA; none on a host access fault. -/
def State.hostWrite (s : State) (f : FnId) (pasid : BitVec 32) (addr : Nat) (bs : List Byte) : Option State :=
  if s.hostFaults? f pasid addr bs.length then none
  else some { s with hostMem := Memory.write s.hostMem (hostKey (hostSpace f pasid) addr) bs }

/-! ## Endpoints (R218) -/

/-- The fields of an endpoint (R218). DESIGN CHOICE (log 23): a SPACE 0 endpoint whose PKG is not 0 is a bad one. -/
def endpointOf (w : DWord) : Endpoint :=
  let v := w.toNat
  match bits v 63 61 with
  | 0 => if bits v 60 52 = 0 then .loft (bits v 51 49) (bits v 48 43) (bits v 42 35) (bits v 22 0) else .bad
  | 1 => .far (bits v 60 52) (bits v 51 49) (bits v 48 43) (bits v 42 35) (bits v 22 0)
  | 2 => .host (bits v 60 58) (bits v 57 50) (bits v 47 0)
  | _ => .bad

/-! ## What the part sends (log 6) -/

/-- Append one item to what the part has sent. -/
def State.send (s : State) (o : Out) : State := { s with out := s.out ++ [o] }

/-- The message of an MSI-X vector, as the function's table gives it (R392, R413). -/
def Fn.message (x : Fn) (f : FnId) (vec : Nat) : Out :=
  let m := mget (0, 0) x.msi vec
  .msix f vec m.1 m.2

/-- Raise an MSI-X vector of a function: sent at once, or kept pending while Bus Master Enable is clear or the vector
is masked (R413). -/
def State.raiseMsix (s : State) (f : FnId) (vec : Nat) : State :=
  let x := s.fn f
  if x.bme && !x.mask.getLsbD vec then s.send (x.message f vec)
  else s.setFn f { x with pend := x.pend ||| (1 : BitVec 32) <<< vec }

/-! ## The persistent record (R487..R489) -/

/-- Erases left over the good sectors (R497). -/
def erasesLeft (h : Health) : Nat := (h.sectors.filter (·.good)).foldl (fun n x => n + (50000 - x.erases)) 0

/-- Good sectors. -/
def goodSectors (h : Health) : Nat := (h.sectors.filter (·.good)).length

/-- The live set of a sector's entries (R489): everything but events, and the last 256 events. -/
def liveSet (es : List PrEnt) : List PrEnt :=
  let n := (es.filter fun e => e.type == 6).length
  (es.foldl (fun (acc : Nat × List PrEnt) e =>
    if e.type == 6 then (acc.1 + 1, if n ≤ acc.1 + 256 then acc.2 ++ [e] else acc.2) else (acc.1, acc.2 ++ [e]))
    (0, [])).2

/-- The entries of the active sector. -/
def activeEnts (h : Health) : List PrEnt := (h.sectors.getD h.active {}).ents

/-- The good sector with the fewest erases other than the active one, the lowest number on a tie (R489). -/
def eraseTarget (h : Health) : Option Nat :=
  ((List.range h.sectors.length).filter fun i => (h.sectors.getD i {}).good && i != h.active).foldl
    (fun best i => match best with
      | none => some i
      | some b => if (h.sectors.getD i {}).erases < (h.sectors.getD b {}).erases then some i else some b) none

/-- Erase a sector and copy the live set into it; a sector that reaches 50,000 erases is retired afterwards (R489). -/
def recordErase (h : Health) : Health :=
  match eraseTarget h with
  | none => h
  | some i =>
    let old := h.sectors.getD h.active {}
    let new : Sector :=
      { erases := (h.sectors.getD i {}).erases + 1, seq := old.seq + 1, good := true, ents := liveSet old.ents }
    let retire (x : Sector) : Sector := if 50000 ≤ x.erases then { x with good := false } else x
    { h with sectors := (modifyNth h.sectors h.active retire).set i new, active := i }

/-- Program one entry into the active sector, erasing first when it is full (R487, R489). -/
def recordAppend (h : Health) (e : PrEnt) : Health :=
  if h.prState = 2 then { h with prNever := bump h.prNever }
  else
    let h := if 65532 ≤ (activeEnts h).length then recordErase h else h
    { h with sectors := modifyNth h.sectors h.active fun x => { x with ents := x.ents ++ [e] } }

/-! ## The event log (R480..R482) -/

/-- Severity of an event code (R481): 1 INFO, 2 ALERT, 3 FAULT. -/
def sevOf (code : Nat) : Nat :=
  if code = 0x01 ∨ code = 0x10 ∨ code = 0x12 ∨ code = 0x20 ∨ code = 0x60 ∨ code = 0x61 ∨ code = 0x64 then 3
  else if code = 0x11 ∨ code = 0x15 ∨ code = 0x17 ∨ code = 0x22 ∨ code = 0x23 ∨ code = 0x24 ∨ code = 0x30 ∨
    code = 0x32 ∨ code = 0x40 ∨ code = 0x41 ∨ code = 0x50 ∨ code = 0x51 ∨ code = 0x62 ∨ code = 0x63 ∨
    code = 0x65 then 2
  else 1

/-- Pin the 1,024 oldest unacknowledged FAULT entries (R482). -/
def repin (es : List EvtRec) : List EvtRec :=
  (es.foldl (fun (acc : Nat × List EvtRec) e =>
    if e.sev = 3 ∧ e.ack = false ∧ acc.1 < 1024 then (acc.1 + 1, acc.2 ++ [{ e with pinned := true }])
    else (acc.1, acc.2 ++ [{ e with pinned := false }])) (0, [])).2

/-- Drop the oldest entry that is not pinned: the entry and the rest. -/
def dropOldest : List EvtRec → Option (EvtRec × List EvtRec)
  | [] => none
  | e :: es => if e.pinned then (dropOldest es).map fun r => (r.1, e :: r.2) else some (e, es)

/-- Put an entry in the log, overwriting when it holds 4,096 (R482). -/
def evtInsert (s : State) (e : EvtRec) : State :=
  let h := s.hm
  let seq := if h.evtSeq + 1 < 2 ^ 32 then h.evtSeq + 1 else 1
  let e := { e with seq := seq }
  if h.evts.length < 4096 then { s with hm := { h with evts := repin (h.evts ++ [e]), evtSeq := seq } }
  else
    match dropOldest h.evts with
    | none => { s with hm := { h with evtSeq := seq, evtLost := bump h.evtLost } }
    | some (old, rest) =>
      { s with
        hm := { h with evts := repin (rest ++ [e]), evtSeq := seq, evtLost := bump h.evtLost },
        pw := { s.pw with alertHeld := s.pw.alertHeld || (!old.ack && decide (2 ≤ old.sev)) } }

/-- Queue or program the record entry of an event (R488): SAFE_ENTRY and REPLACE at once, other FAULT and ALERT events
queued, INFO events never. -/
def recordEvent (h : Health) (code die time : Nat) : Health :=
  let e : PrEnt := { type := 6, unit := die, arg := code, time := time }
  if code = 0x60 ∨ code = 0x61 then recordAppend h e
  else if 2 ≤ sevOf code then { h with prQueue := h.prQueue ++ [e] }
  else h

/-- Log an event (R480, R481): code, die number (0xFF none), instance, argument, body. -/
def State.logBody (s : State) (code die inst arg : Nat) (body : Option FaultRec) : State :=
  let s := evtInsert s
    { code := code, sev := sevOf code, time := s.tm.now, die := die, inst := inst, arg := arg, body := body,
      persisted := decide (code = 0x60 ∨ code = 0x61) && decide (s.hm.prState ≠ 2) }
  { s with hm := recordEvent s.hm code die s.tm.now }

/-- Log an event without a body. -/
def State.log (s : State) (code die inst arg : Nat) : State := s.logBody code die inst arg none

/-- The record state after a change of its sectors (R489): LOW and EXHAUSTED, each logged and recorded once. -/
def State.recordCheck (s : State) : State :=
  let h := s.hm
  let st := if goodSectors h < 2 then 2 else if erasesLeft h < 80000 ∨ goodSectors h < 4 then 1 else 0
  if h.prState < st then
    let e : PrEnt := { type := 7, unit := 0xFF, arg := st, time := s.tm.now }
    if st = 2 then
      let s := { s with hm := { (recordAppend h e) with prState := 2 } }
      s.log 0x64 0xFF 0 (s.hm.prNever + s.hm.prQueue.length)
    else
      let s := { s with hm := { (recordAppend h e) with prState := 1 } }
      s.log 0x63 0xFF 0 (erasesLeft h)
  else s

/-- Write a record entry at once (R488: types 1, 2, 3 and 7). -/
def State.record (s : State) (type unit arg : Nat) : State :=
  State.recordCheck { s with hm := recordAppend s.hm { type := type, unit := unit, arg := arg, time := s.tm.now } }

/-- Queue a record entry (R488: types 4 and 5). -/
def State.recordQueue (s : State) (type unit arg : Nat) : State :=
  { s with hm := { s.hm with prQueue := s.hm.prQueue ++ [{ type := type, unit := unit, arg := arg, time := s.tm.now }] } }

/-- ALERT_N is asserted (R482, R453): an unacknowledged ALERT or FAULT entry stands in the log, one was overwritten, or
the Signet engine has failed. -/
def State.alertN (s : State) : Bool :=
  s.powered && (s.pw.alertHeld || s.sec.signetFailed || s.hm.evts.any fun e => !e.ack && decide (2 ≤ e.sev))

/-! ## Time -/

/-- The step that is due is applied once the time base has reached its instant (R346): a retard step holds the count for 5
ticks, which are over when the time base has gone past; an advance step adds 5. -/
def TimeSt.applyStep (t : TimeSt) : TimeSt := match t.dueStep with
  | none => t
  | some (d, retard) =>
    if t.now < d then t
    else if retard then
      { t with
        dueStep := none, lastStep := some d, stepsDue := t.stepsDue - 1, stepsRet := bump t.stepsRet, netCorr := t.netCorr - 5
        hold := if t.now = d then t.hold + 5 else t.hold }
    else
      { t with
        dueStep := none, lastStep := some d, stepsDue := t.stepsDue + 1, stepsAdv := bump t.stepsAdv, netCorr := t.netCorr + 5
        now := max t.now (d + 5) }

/-- The time base goes forward to an instant, never back, with the step that falls due (log 2). -/
def TimeSt.reach (t : TimeSt) (n : Nat) : TimeSt := { t with now := max t.now n }.applyStep

/-- Move the time base forward to an instant, never back (log 2). -/
def State.reach (s : State) (t : Nat) : State := { s with tm := s.tm.reach t }

/-- One 1 ns tick of the time base (R339), or of the hold of a retard step (R346); nothing counts in OFF (R499). -/
def State.tick (s : State) : State :=
  if s.powered then
    if s.tm.hold = 0 then { s with tm := s.tm.reach (s.tm.now + 1) }
    else { s with tm := { s.tm with hold := s.tm.hold - 1 } }
  else s

/-- Nanoseconds of an epoch (R310). -/
def epochNs : Nat := 1000000

/-- The epoch counter (R342). -/
def State.epoch (s : State) : Nat := s.tm.now / epochNs % 2 ^ 32

/-- The absolute number of the epoch that a 32-bit epoch number means now (R342). -/
def State.absEpoch (s : State) (e : Nat) : Nat :=
  let n := s.tm.now / epochNs
  let d := (e + 2 ^ 32 - n % 2 ^ 32) % 2 ^ 32
  if d < 2 ^ 31 then n + d else n + d - 2 ^ 32

end Sys2Proof.Machine
end

