-- ==== Sys2Proof/Machine/Flags.lean ====
section
/-! DEFINITION. The slot status word (R180..R183) and the flag computations of the integer engines. -/

namespace Sys2Proof.Machine

/-- OR flags into an array's slot status (R181). -/
def orStatus (x : Arr) (fl : Nat) : Arr := { x with status := x.status ||| BitVec.ofNat 32 fl }

/-- The status flags of a COMPLETION record: bits [6:0] of the status (R183, R400). -/
def statusFlags (st : BitVec 32) : Nat := st.toNat % 128

/-- The slot boundary's use of a status: ORed into the cumulative status, then cleared (R183). -/
def foldStatus (x : Arr) : Arr := { x with cum := x.cum ||| x.status, status := 0 }

/-- A write to the cumulative status clears the bits that are 1 (R182: W1C). -/
def cumClear (x : Arr) (v : BitVec 32) : Arr := { x with cum := x.cum &&& ~~~v }

/-- The two's-complement range of w bits. -/
def intMax (w : Nat) : Int := 2 ^ (w - 1) - 1
/-- The least value of w bits. -/
def intMin (w : Nat) : Int := -(2 ^ (w - 1))

/-- The low w bits of an integer, as an unsigned number. -/
def wrapW (w : Nat) (v : Int) : Nat := (v % (2 ^ w : Int)).toNat

/-- An exact integer result kept modulo 2^w, with OF when it lies outside the type (R174). -/
def wrapOF (w : Nat) (v : Int) : Nat × Nat := (wrapW w v, if v < intMin w ∨ intMax w < v then fOF else 0)

/-- An exact integer result clamped to the type, with SAT on a clamp (R174). -/
def clampSAT (w : Nat) (v : Int) : Nat × Nat :=
  if v < intMin w then (wrapW w (intMin w), fSAT)
  else if intMax w < v then (wrapW w (intMax w), fSAT)
  else (wrapW w v, 0)

/-- Saturation to int32 of an accumulating sum, with SAT on a clamp (R89, R90). -/
def sat32Flag (v : Int) : Int × Nat :=
  if v < -(2 ^ 31) then (-(2 ^ 31), fSAT) else if 2 ^ 31 - 1 < v then (2 ^ 31 - 1, fSAT) else (v, 0)

/-- Arithmetic right shift with round to nearest, ties to even (R103 NARROW). -/
def shiftRne (s : Nat) (v : Int) : Int :=
  let w : Int := 2 ^ s
  let q := v / w
  let r := v % w
  if w < 2 * r ∨ (2 * r = w ∧ q % 2 ≠ 0) then q + 1 else q

end Sys2Proof.Machine
end

