-- ==== Sys2Proof/Machine/Wire.lean ====
section
/-! DEFINITION. The bytes of a frame on a link: header, payload layouts, CRC and GCM protection (R361..R363, R366, R367, R378,
R383, R384), what a link's transmitter sends before it carries frames (R370), and codewords and lanes (R359). -/

namespace Sys2Proof.Machine

/-! ## Payloads -/

/-- Fields laid out in order, each with its width and the reserved bytes that follow it. -/
def layOut : List (Nat × Nat) → List Nat → List Byte
  | (w, r) :: ws, v :: vs => leBytes w v ++ List.replicate r 0 ++ layOut ws vs
  | _, _ => []

/-- The OPEN payload (R363). -/
def openBytes (o : OpenBody) : List Byte :=
  let ss := o.cstate.toNat + (if o.domain then 16 else 0) + if o.sheaf then 32 else 0
  leBytes 8 o.dst.toNat ++ layOut [(4, 0), (2, 0), (1, 0), (1, 0), (4, 0), (2, 0), (1, 0), (1, 0), (1, 1), (2, 0), (4, 0),
    (8, 0), (4, 0)]
    [o.len, o.rows, o.aop, o.bflags, o.dstride, o.inc, o.group, ss, o.level, o.srcLarr, o.block, o.jobId, o.dseq]

/-- The entries of a LACK payload (R362); what the landing gave (log 74) has no bytes there. -/
def lackBytes (es : List LackEntry) : List Byte :=
  es.flatMap fun e => layOut [(2, 0), (2, 0), (2, 2), (4, 4)] [e.larr, e.block, e.inc, e.dseq]

/-- The body of a link-control frame by SUBTYPE (R367). -/
def lctlBody (subtype : Nat) (fields : List Nat) (bytes : List Byte) : List Byte :=
  layOut (match subtype with
    | 1 => [(8, 0)] | 2 => [(8, 0), (8, 0), (8, 0)] | 4 => [(2, 0), (1, 1)] | 6 => [(1, 0), (1, 2)] | 7 => [(1, 3), (4, 0)]
    | _ => []) fields ++ bytes

/-- An LCTL payload (R367). -/
def lctlBytes (subtype : Nat) (fields : List Nat) (bytes : List Byte) : List Byte :=
  let b := lctlBody subtype fields bytes
  layOut [(1, 1), (2, 0)] [subtype, b.length] ++ b

/-- Widths of a domain-control body's fields by SUBTYPE, `n` of them; one byte each where the SUBTYPE is not listed (R384). -/
def dctlLayout (subtype n : Nat) : List (Nat × Nat) := match subtype with
  | 1 => [(8, 0), (48, 0)] | 2 => [(4, 0), (4, 0), (8, 0), (64, 0)] | 3 => [(1, 0)] | 4 => [(8, 0), (1, 1), (2, 0)]
  | 5 => [(8, 0), (1, 0)] | 6 => [(8, 0), (8, 0)]
  | 7 => [(4, 0), (2, 0), (1, 1)] ++ (List.range (n / 3)).flatMap fun _ => [(8, 0), (1, 1), (2, 0)]
  | 8 => [(2, 0), (2, 0), (4, 0), (64, 0)] | 9 => [(8, 0), (2, 0), (1, 0)] | 10 => [(1, 0)] | 11 => [(1, 3), (4, 0)]
  | 12 => [(2, 0), (1, 1), (4, 0)] | 13 => [(2, 2), (4, 0)] | 14 => [(2, 0), (2, 0), (1, 0)] | 15 => [(4, 0)]
  | 16 => [(2, 0), (1, 0), (1, 0)] ++ (List.range (n / 2)).flatMap fun _ => [(8, 0), (8, 0)]
  | 17 => [(8, 0), (2, 0), (1, 1), (4, 0)]
  | _ => List.replicate n (1, 0)

/-- A DCTL payload (R383). -/
def dctlBytes (h : DHdr) (subtype : Nat) (fields : List Nat) : List Byte :=
  layOut [(2, 0), (2, 0), (1, 1), (2, 0), (4, 0)] [h.dst, h.src, subtype, h.mseq, h.epoch] ++
    layOut (dctlLayout subtype fields.length) fields

/-- An MGMT payload (R378). -/
def mgmtBytes (op : Nat) (m : MgmtMsg) : List Byte :=
  layOut [(2, 0), (2, 0), (1, 0), (1, 0), (2, 0), (2, 0), (1, 0), (1, 0), (1, 3)]
    [m.dst, m.src, op, m.status, m.tag, m.index, m.sub, m.frag, m.value.length] ++ m.value

/-- TYPE of a frame (R362). -/
def FrameOut.type : FrameOut → Nat
  | .data _ => 1 | .openFrame _ => 2 | .lack _ => 3 | .lctl .. => 4 | .dctl .. => 5 | .mgmt .. => 6

/-- Payload of a frame in clear, 256 bytes (R362). -/
def FrameOut.payload (f : FrameOut) : List Byte := slice (match f with
  | .data bs => bs | .openFrame o => openBytes o | .lack es => lackBytes es | .lctl t fs bs => lctlBytes t fs bs
  | .dctl h t fs => dctlBytes h t fs | .mgmt op m => mgmtBytes op m) 0 256

/-- Which frames go ahead on a link (R362): link control, domain control and acknowledgements, then management, then blocks. -/
def FrameOut.rank : FrameOut → Nat
  | .lctl .. | .dctl .. | .lack .. => 0
  | .mgmt .. => 1
  | .openFrame .. | .data .. => 2

/-- The frame travels under GCM once its link has a session (R362, R366). -/
def FrameOut.guarded : FrameOut → Bool
  | .lctl .. | .dctl .. | .mgmt .. => true
  | .openFrame .. | .data .. | .lack .. => false

/-! ## Frames (R361, R366) -/

/-- Bytes 0..11 of a frame's header. -/
def TxFrame.head (t : TxFrame) : List Byte := layOut [(8, 0), (1, 0), (1, 0), (2, 0)] [t.fcnt, t.frame.type, t.chan, t.ack]

/-- The IV of a frame (R366): the direction's salt, then SCNT, big-endian. -/
def sealIv (salt : List Byte) (scnt : Nat) : List Byte := salt ++ (leBytes 6 scnt).reverse

/-- Payload as sent (R366): under GCM bytes 0..239 are encrypted with the header as additional data, and the tag lies behind. -/
def TxFrame.sealed (t : TxFrame) : List Byte := match t.sealing with
  | none => t.frame.payload
  | some (key, scnt) =>
    let r := Config.gcmSeal (key.take 32) (sealIv (slice key 32 6) scnt) t.head (t.frame.payload.take 240)
    slice r.1 0 240 ++ slice r.2 0 16

/-- The 272 bytes of a frame (R361). -/
def TxFrame.bytes (t : TxFrame) : List Byte := t.head ++ leBytes 4 (crc32 (t.head ++ t.sealed)).toNat ++ t.sealed

/-! ## Before frames (R370) -/

/-- What a link's transmitter sends (R370): NOT_READY before the link starts, PRBS31 in steps 1 and 2, then codewords. -/
inductive TxSignal where
  | notReady | prbs31 | codewords
  deriving DecidableEq, Repr

/-- What a link sends now; a failed attempt waits at step 0, before step 1 (R369, R370). -/
def Link.sends (l : Link) : TxSignal :=
  if !l.started then .notReady else if l.st == .training && decide (l.step < 3) then .prbs31 else .codewords

/-- `n` bits of a sequence with feedback from two taps of a register of `w` bits (R370). -/
def prbs (w a b : Nat) : Nat → Nat → List Bool
  | _, 0 => []
  | r, n + 1 =>
    let x := (r / 2 ^ (a - 1) + r / 2 ^ (b - 1)) % 2
    (x == 1) :: prbs w a b ((2 * r + x) % 2 ^ w) n

/-- PRBS7, x^7 + x^6 + 1, from a register (R370). -/
def prbs7 (r n : Nat) : List Bool := prbs 7 7 6 r n

/-- PRBS31, x^31 + x^28 + 1, of a lane, whose register starts at the lane's number plus 1 (R370). -/
def prbs31 (lane n : Nat) : List Bool := prbs 31 31 28 (lane + 1) n

/-! ## Codewords and lanes (R359) -/

/-- A product in GF(2^10) modulo x^10 + x^3 + 1, the field of the code of Clause 119 (PRESUMED, log 98). -/
def gfMul (a b : Nat) : Nat :=
  (List.range 10).foldl (fun r i =>
    let d := if r / 512 % 2 = 1 then 2 * r ^^^ 0x409 else 2 * r
    if b / 2 ^ (9 - i) % 2 = 1 then d ^^^ a else d) 0

/-- The generator of RS(544,514), the product of x + 2^i for i in 0..29 (PRESUMED, log 98): coefficients, the highest first. -/
def rsGenerator : List Nat :=
  (List.range 30).foldl (fun g i =>
    let c := (List.range i).foldl (fun r _ => gfMul r 2) 1
    List.zipWith (fun x y => x ^^^ y) (g ++ [0]) (0 :: g.map (gfMul c))) [1]

/-- The 30 parity symbols of a message of 10-bit symbols. -/
def rsParity (msg : List Nat) : List Nat :=
  let g := rsGenerator.drop 1
  msg.foldl (fun r m =>
    let f := r.headD 0 ^^^ m
    List.zipWith (fun x y => x ^^^ gfMul f y) (r.drop 1 ++ [0]) g) (List.replicate 30 0)

/-- A codeword (R359): 514 symbols of the stream of frames and their parity. -/
def rsCodeword (msg : List Nat) : List Nat := msg ++ rsParity msg

/-- The symbols that a lane carries of those dealt round robin over `n` active lanes (R359). -/
def laneSymbols (n lane : Nat) (symbols : List Nat) : List Nat :=
  (symbols.zipIdx.filter fun e => e.2 % n == lane).map (·.1)

/-- Bits of a lane through the scrambler x^58 + x^39 + 1, which feeds back what it has sent (R359); `r` holds the last 58 bits
sent. -/
def scramble : Nat → List Bool → List Bool
  | _, [] => []
  | r, b :: bs =>
    let x := ((if b then 1 else 0) + r / 2 ^ 57 + r / 2 ^ 38) % 2
    (x == 1) :: scramble ((2 * r + x) % 2 ^ 58) bs

end Sys2Proof.Machine
end

