-- ==== Sys2Proof/Machine/Frames.lean ====
section
/-! DEFINITION. Sending over links: frames, the replay buffer, routes, domain-control messages (R361..R364, R373..R375,
R383), and the active variant's slots (R307, R308, R310). -/

namespace Sys2Proof.Machine

/-- The link carries frames: UP or DEGRADED (R389). -/
def Link.up (l : Link) : Bool := l.st == .up || l.st == .degraded

/-- A link on which frames may leave: it trains or carries frames, and is not FAILED (R369, R372). -/
def Link.open? (l : Link) : Bool := l.up || l.st == .training

/-- The next frame of a link: its FCNT, the ACK that it carries, and its protection once there is a session (R361, R365, R366). -/
def Link.frame (l : Link) (chan : Nat) (f : FrameOut) : TxFrame :=
  { fcnt := l.fcntTx, chan := chan, frame := f, ack := l.fcntRx % 65536
    sealing := if f.guarded && l.session then some (l.keys.getD 0 [], l.fcntTx - l.keyTx) else none }

/-- Send a frame on a link: it takes the next FCNT and is held in the replay buffer until its ACK; while the buffer's 1,024
places are taken it waits (R361, R364). No frame leaves on a link that is down or FAILED (R372). -/
def State.txFrame (s : State) (j chan : Nat) (f : FrameOut) : State :=
  let l := s.link j
  if !l.open? then s
  else
    let t := l.frame chan f
    if l.replay.length < 1024 then
      (s.setLink j { l with fcntTx := l.fcntTx + 1, replay := l.replay ++ [t] }).send (.frame j t t.bytes)
    else s.setLink j { l with txWait := l.txWait ++ [(chan, f)] }

/-- An ACK has made room: frames that waited are sent, those that go ahead first, in their order (R362, R364). -/
def State.releaseFrames (s : State) (j : Nat) : State :=
  let l := s.link j
  if l.txWait.isEmpty then s
  else
    let ranked := [0, 1, 2].flatMap fun n => l.txWait.filter fun e => e.2.rank == n
    ranked.foldl (fun s e => s.txFrame j e.1 e.2) (s.setLink j { l with txWait := [] })

/-- The ROUTE section of the loaded plan. -/
def State.route (s : State) : Option Route := s.plan.bind (·.route)

/-- A path is usable: no PATH_DOWN names it (R375). -/
def State.pathUsable (s : State) (p : RPath) : Bool := !s.dom.down.contains (p.egress, p.chan)

/-- The route entry of a block toward a package issued on a die (R374). -/
def State.routeEnt (s : State) (dst die : Nat) : Option RouteEnt :=
  s.route.bind fun r => r.routes.find? fun e => e.dst == dst && bit e.srcDies die

/-- The first usable path toward a package for a die (R374, R375). -/
def State.firstPath (s : State) (dst die : Nat) : Option RPath :=
  (s.routeEnt dst die).bind fun e => e.paths.find? s.pathUsable

/-- The link toward a package for domain control (R383): the egress of the first usable path of its route entry; MGMT_ROUTE
names it where the plan has no such entry. -/
def State.dctlLink (s : State) (dst : Nat) : Option Nat :=
  match s.route.bind fun r => r.routes.find? fun e => e.dst == dst with
  | some e => (e.paths.find? s.pathUsable).map (·.egress)
  | none =>
    let j := (s.dom.mgmtRoute.getD dst 0xFF).toNat
    if j < 32 then some j else none

/-- A frame with no onward link is dropped and counted (R374, R383). -/
def State.noRoute (s : State) (j : Nat) : State := s.modLink j fun l => { l with noroute := bump l.noroute }

/-- Send a domain-control message (R383): its MSEQ rises per destination; with no onward link it is dropped and counted, on link
0 where no link is named for it (DESIGN CHOICE, log 97). -/
def State.sendDctl (s : State) (dst subtype : Nat) (fields : List Nat) : State :=
  let m := mget 0 s.dom.mseqOut dst
  let s := { s with dom := { s.dom with mseqOut := mset 0 s.dom.mseqOut dst ((m + 1) % 65536) } }
  match s.dctlLink dst with
  | some j =>
    if (s.link j).up && (s.link j).session then s.txFrame j 0 (.dctl ⟨dst, s.dom.pkgAddr, m, s.epoch⟩ subtype fields)
    else s.noRoute j
  | none => s.noRoute 0

/-- This package leads the domain it is a member of. -/
def State.isLead (s : State) : Bool := s.dom.st == .member && s.dom.lead == s.dom.pkgAddr

/-- One copy of a message to every other member (R383). -/
def State.sendMembers (s : State) (subtype : Nat) (fields : List Nat) : State :=
  (s.dom.members.filter (· != s.dom.pkgAddr)).foldl (fun s p => s.sendDctl p subtype fields) s

/-! ## The active variant and its slots -/

/-- A variant record by number. -/
def State.variantRec (s : State) (v : Nat) : Option Variant :=
  s.plan.bind fun p => p.variants.find? fun r => r.num == v

/-- The active variant's record. -/
def State.variant (s : State) : Variant := (s.variantRec s.vs.current).getD {}

/-- The template of a variant record. -/
def State.templateOf (s : State) (v : Variant) : Template :=
  (s.plan.bind fun p => p.templates.find? fun t => t.num == v.template).getD {}

/-- The active template. -/
def State.template (s : State) : Template := s.templateOf s.variant

/-- A slot of the active template. -/
def State.slotRec (s : State) (n : Nat) : Option SlotRec := s.template.slots.find? fun r => r.slot == n

/-- A program record. -/
def State.program (s : State) (n : Nat) : Option Program :=
  s.plan.bind fun p => p.programs.find? fun r => r.prog == n

/-- Gear cycles in a quantum (R310). -/
def cyclesPerQuantum (gear : Nat) : Nat := match gear with
  | 0 => 64 | 1 => 56 | 2 => 48 | _ => 32

/-- The slot occupies an array (R308, R311). A FALLOW slot occupies every array of its variant's dies. -/
def slotOccupies (v : Variant) (r : SlotRec) (a : ArrId) : Bool :=
  if r.kind = 2 then bit v.dieMask a.die else bit r.dieMask a.die && bit r.arrayMask a.arr

/-- The arrays a slot occupies. -/
def slotArrs (v : Variant) (r : SlotRec) : List ArrId := allArrs.filter (slotOccupies v r)

/-- The running slot that occupies an array. -/
def State.runOf (s : State) (a : ArrId) : Option SlotRun :=
  s.runs.find? fun r => r.started && match s.slotRec r.slot with
    | some q => slotOccupies s.variant q a
    | none => false

/-- Start of a slot of an epoch whose boundary is `te`, ns (R310). -/
def slotStartNs (te : Nat) (r : SlotRec) : Nat := te + 40 * r.start

/-- START of a slot of an epoch, ns. -/
def State.slotNs (s : State) (epoch : Nat) (q : SlotRec) : Nat := slotStartNs (s.absEpoch epoch * epochNs) q

/-- A run issues words (R313, R354): it is one of a JOB slot, and no gear PLL relocks. -/
def State.issues (s : State) (r : SlotRun) : Bool := !s.vs.relocking && (s.slotRec r.slot).any fun q => q.kind == 0

/-- The time base value at the start of the current epoch. -/
def State.epochStart (s : State) : Nat := s.tm.now / epochNs * epochNs

/-- Filled positions of a run that still count: bound, and not treated as unfilled (R115, R412). -/
def filledPositions (r : SlotRun) : List (Nat × Nat) := r.jobs.filter fun p => !(r.bad.any fun b => b.1 == p.1)

/-- FILL: the mask of filled batch positions (R185). -/
def fillMask (r : SlotRun) : Nat := (filledPositions r).foldl (fun m p => m ||| 2 ^ p.1) 0

end Sys2Proof.Machine
end

