-- ==== Sys2Proof/Machine/Jobs.lean ====
section
/-! DEFINITION. Completion records, status blocks and interrupts of a stream; the end, the return and the abandonment of
jobs (R400, R401, R406, R407, R410..R417, R317, R324, R539). -/

namespace Sys2Proof.Machine

/-! ## Records -/

/-- PHASE of record c in a ring of 2^m (R400). -/
def phaseOf (c m : Nat) : Nat := 1 - c / 2 ^ m % 2

/-- The 32 bytes of a completion-ring record (R400). -/
def recBytes (r : CRec) (phase : Nat) : List Byte :=
  leBytes 4 r.seq ++ leBytes 1 r.kind ++ leBytes 1 r.code ++ leBytes 1 phase ++ leBytes 1 r.flags ++
    leBytes 8 r.time ++ leBytes 2 r.inc ++ leBytes 2 0 ++ leBytes 4 r.detail ++ leBytes 8 r.user

/-- The 64-byte status block (R406). -/
def statusBytes (x : Stream) (now : Nat) : List Byte :=
  leBytes 4 x.committed ++ leBytes 4 x.completed ++ leBytes 4 x.sqHead ++ leBytes 4 x.cqTail ++
    leBytes 4 x.inflight ++ leBytes 4 0 ++ leBytes 8 now ++ List.replicate 32 0

/-- The PASID entry of a stream's DMA (R393). -/
def State.streamPasid (s : State) (x : Stream) : BitVec 32 := (s.tenant x.tenant).pasid

/-- A host access fault on a ring or the status block (R402). -/
def State.streamFault (s : State) (n : Nat) : State :=
  s.modStream n fun x => { x with st := .error, reason := 6, errLive := true }

/-- Write the status block of a stream (R406). -/
def State.writeStatus (s : State) (n : Nat) : State :=
  let x := s.stream n
  match s.hostWrite (fnOfEntry x.fn) (s.streamPasid x) x.statusAddr (statusBytes x s.tm.now) with
  | some t => t
  | none => s.streamFault n

/-- Raise a stream's vector, at most once per STR_IRQ_DELAY (R413). -/
def State.streamIrq (s : State) (n : Nat) : State :=
  let x := s.stream n
  if x.vector = 0xFF then s
  else
    let soon := match x.irqLast with
      | some t => decide (s.tm.now < t + 1000 * x.irqDelay)
      | none => false
    if soon then s.setStream n { x with irqWait := true }
    else (s.setStream n { x with irqLast := some s.tm.now, irqWait := false }).raiseMsix (fnOfEntry x.fn) x.vector

/-- The stream's records are held (R401, R402, R418, R513, R515): the ring is full, the stream is in ERROR, its function
or port is not back, or the part is in SAFE (R486). -/
def State.recordsHeld (s : State) (x : Stream) : Bool :=
  decide (2 ^ x.cqLog2 ≤ (x.cqTail + 2 ^ 32 - x.cqHead) % 2 ^ 32) || x.st == .error || x.bmeWait || x.portWait ||
    s.pw.part == .safe

/-- The credit of a completed or refused job is free (R407). -/
def State.freeCredit (s : State) (n : Nat) : State :=
  let x := s.stream n
  let s := s.setStream n { x with inflight := x.inflight - 1 }
  s.modTenant x.tenant fun t => { t with inflight := t.inflight - 1 }

/-- What the writing of a record means (R406, R407): COMMITTED, COMPLETED, the credit; a completed job keeps its entry of
the in-flight table until its record is final (R417, R436). -/
def State.recordEffect (s : State) (n : Nat) (r : CRec) : State :=
  if r.kind = 3 then
    let ends (j : Job) : Bool := j.stream == n && j.seq == r.seq && j.st == .finished
    let s := s.modStream n fun x => { x with completed := r.seq, done := x.done ++ s.jobs.filter ends }
    { s.freeCredit n with jobs := s.jobs.filter fun j => !ends j }
  else if r.kind = 2 ∧ (r.code = 1 ∨ r.code = 2) then s
  else
    let s := s.modStream n fun x => { x with committed := r.seq }
    if r.kind = 2 ∧ r.code = 0x0C then s.freeCredit n else s

/-- Write one record at the ring's next position, then the status block, then the interrupt (R400, R406, R413); on a
host access fault the stream is in ERROR and the record is held (R402). -/
def State.putRecord (s : State) (n : Nat) (r : CRec) : State :=
  let x := s.stream n
  match s.hostWrite (fnOfEntry x.fn) (s.streamPasid x) (x.cqAddr + 32 * (x.cqTail % 2 ^ x.cqLog2))
      (recBytes r (phaseOf x.cqTail x.cqLog2)) with
  | none => (s.setStream n { x with held := r :: x.held }).streamFault n
  | some s =>
    let s := s.setStream n { x with cqTail := (x.cqTail + 1) % 2 ^ 32, recs := x.recs ++ [(x.cqTail, r)] }
    let s := (s.recordEffect n r).writeStatus n
    if r.irq then s.streamIrq n else s

/-- Write the held records that may be written, at most `fuel` of them (R401). -/
def State.flushRecords (s : State) (n : Nat) : Nat → State
  | 0 => s
  | k + 1 =>
    let x := s.stream n
    match x.held with
    | [] => s
    | r :: h => if s.recordsHeld x then s else (((s.setStream n { x with held := h }).putRecord n r).flushRecords n k)

/-- Journal a record and write it, or hold it (R401, R417). -/
def State.addRecord (s : State) (n : Nat) (r : CRec) : State :=
  let x := s.stream n
  let s := s.setStream n { x with held := x.held ++ [r] }
  s.flushRecords n (x.held.length + 1)

/-- DRAINING ends when every admitted job is complete and every record written (R402, R514). -/
def State.drainCheck (s : State) (n : Nat) : State :=
  let x := s.stream n
  if x.st == .draining && x.inflight == 0 && x.held.isEmpty then
    s.setStream n { x with st := .disabled, resetting := false, done := [] }
  else s

/-! ## Jobs -/

/-- A job is finished: its COMPLETION waits for its turn (R410, R417). -/
def State.finishJob (s : State) (i status detail : Nat) : State :=
  s.modJob i fun j => { j with st := .finished, result := some (status, detail, j.inc), doneAt := s.tm.now }

/-- The next number of the in-flight table's orders. -/
def State.nextOrder (s : State) : Nat × State := (s.jobSeq, { s with jobSeq := s.jobSeq + 1 })

/-- Return a job to the head of its program's slot queue at the next incarnation, behind jobs returned earlier (R317),
or complete it with RETRY_LIMIT (R414). `later` keeps it out of slots of this epoch. -/
def State.returnJob (s : State) (i : Nat) (later : Bool) : State :=
  match s.job? i with
  | none => s
  | some j =>
    if j.st == .finished then s
    else if 64 ≤ j.inc + 1 then (s.finishJob i 0x08 0).modJob i fun j => { j with inc := j.inc + 1 }
    else
      let r := s.nextOrder
      r.2.modJob i fun j =>
        { j with
          st := .queued, inc := j.inc + 1, slot := 0xFFFF, order := r.1, flags := 0
          notBefore := if later then some ((s.epoch + 1) % 2 ^ 32) else none }

/-- The class of a fault kind (R64, R86, R227): kind 2 falls under none of the rules. -/
def classOf (kind : Nat) : FaultClass :=
  if kind = 1 then .check else if kind = 4 then .fold else if kind = 10 then .deadline
  else if kind = 2 then .other else .exec

/-- Status and DETAIL that a run of counted incarnations ends a job with (R64, R86, R227, R324). -/
def runEnds (cls : FaultClass) (n tag kind : Nat) : Option (Nat × Nat) :=
  match cls with
  | .check => if 2 ≤ n then some (0x02, tag) else none
  | .fold => if 2 ≤ n then some (0x03, tag) else none
  | .exec => if 2 ≤ n then some (0x06, kind) else none
  | .deadline => if 16 ≤ n then some (0x07, 0) else none
  | .other => none

/-- A job's incarnation ends counted (R539): the run of its class grows, and the job completes or returns. -/
def State.countedReturn (s : State) (i tag kind : Nat) : State :=
  match s.job? i with
  | none => s
  | some j =>
    let cls := classOf kind
    let n := if j.runClass = cls ∧ cls ≠ .other then j.runLen + 1 else 1
    let s := s.modJob i fun j => { j with runClass := cls, runLen := n, lastTag := tag, lastKind := kind }
    match runEnds cls n tag kind with
    | some (st, d) => (s.finishJob i st d).modJob i fun j => { j with inc := j.inc + 1 }
    | none => s.returnJob i true

/-- Tell the domain that an incarnation of a DOMAIN job is abandoned (R386): the lead forwards, a member tells the
lead. -/
def State.tellAbandon (s : State) (j : Job) (inc cause : Nat) : State :=
  if j.domain then
    if s.isLead then s.sendMembers 9 [j.jobId, inc, cause]
    else if s.dom.st == .member then s.sendDctl s.dom.lead 9 [j.jobId, inc, cause]
    else s
  else s

/-- Abandon the incarnation of one bound job of a run, counted or not (R317, R538, R539). -/
def State.abandonJob (s : State) (i : Nat) (counted : Bool) (tag kind cause : Nat) : State :=
  match s.job? i with
  | none => s
  | some j =>
    if j.st == .bound then
      let s := s.tellAbandon j j.inc cause
      if counted then s.countedReturn i tag kind else s.returnJob i true
    else s

/-- Jobs of a run in the order of their receipts (R493). -/
def State.runJobs (s : State) (r : SlotRun) : List (Nat × Nat) :=
  let key (i : Nat) : Nat := match s.job? i with
    | some j => j.receipt.getD 0
    | none => 0
  sortBy (fun p => key p.2) r.jobs

/-- Abandon every incarnation of a run that is not abandoned yet: the job at `named` counted, the others not (R538). -/
def State.abandonRun (s : State) (r : SlotRun) (named : Option Nat) (tag kind cause : Nat) : State :=
  (s.runJobs r).foldl (fun s p =>
    match s.job? p.2 with
    | some j =>
      if some j.inc == mget none (r.incs.map fun e => (e.1, some e.2)) p.1 then
        s.abandonJob p.2 (named == some p.1) tag kind cause
      else s
    | none => s) s

/-! ## Outputs in flight (R25) -/

/-- The job and incarnation of a batch position of a descriptor. -/
def Desc.job (d : Desc) (bpos : Nat) : Option (Nat × Nat) :=
  (d.jobs.find? fun p => p.1 == bpos).map fun p => (p.2, mget 0 d.incs bpos)

/-- A block to a buffer of a job is still to land, under the incarnation that completes (R25), on one of the dies named. -/
def State.outputsOn (s : State) (dies : List Nat) (i inc : Nat) : Bool :=
  dies.any fun n => (s.die n).descs.any fun d => d.blocks.any fun b =>
    b.st != .landed && b.st != .faulted && (match endpointOf b.dst with
      | .host p _ _ => d.job p == some (i, inc)
      | _ => false)

/-- An output of a job is not in host memory yet (R25). -/
def State.outputsPending (s : State) (i inc : Nat) : Bool := s.outputsOn (List.range 8) i inc

/-- Jobs that ran through their slot whose outputs on some dies are lost with them have not finished after all: they are
bound again, so that recovery returns them (R25, R416, R417). -/
def State.reopenJobs (s : State) (dies : List Nat) (sel : Job → Bool) : State :=
  { s with jobs := s.jobs.map fun j => match j.result with
      | some (st, _, inc) =>
        if sel j && st == 0 && j.st == .finished && s.outputsOn dies j.idx inc then { j with st := .bound, result := none } else j
      | none => j }

end Sys2Proof.Machine
end

