-- ==== Sys2Proof/Machine/Operands.lean ====
section
/-! DEFINITION. Every operand form of an execute word: crib rows, loft rows through handles and port bindings, the
operand queue, and the primes of a word's rows. -/

namespace Sys2Proof.Machine

/-! ## Words and bytes -/

/-- Four bytes to a word, little-endian (R37). -/
def toWords : List Byte → List Nat
  | a :: b :: c :: d :: r => leNat [a, b, c, d] :: toWords r
  | [] => []
  | r => [leNat r]

/-- Words to bytes, little-endian. -/
def ofWords (ws : List Nat) : List Byte := ws.flatMap fun w => leBytes 4 w

/-- The first n elements of `b` bytes. -/
def takeElems (b : Nat) : Nat → List Byte → List Nat
  | 0, _ => []
  | n + 1, bs => leNat (bs.take b) :: takeElems b n (bs.drop b)

/-- Elements of `b` bytes of a row's bytes (R159). -/
def toElems (b : Nat) (bs : List Byte) : List Nat := takeElems b (bs.length / b) bs

/-- Elements to bytes. -/
def ofElems (b : Nat) (es : List Nat) : List Byte := es.flatMap fun e => leBytes b e

/-! ## Crib rows (R73, R74) -/

/-- The 256 words of a crib row; a row never written is zeros. -/
def cribRow (x : Arr) (r : Nat) : List Nat :=
  match mget [] x.crib r with
  | [] => List.replicate 256 0
  | ws => ws.map (·.toNat)

/-- Write a crib row of 256 words; an all-zero row is not listed. -/
def setCribRow (x : Arr) (r : Nat) (ws : List Nat) : Arr :=
  { x with crib := mset [] x.crib r (if ws.all (· == 0) then [] else ws.map (BitVec.ofNat 32)) }

/-- What the part tracks of a crib row. -/
def rowState (x : Arr) (r : Nat) : RowSt := mget {} x.rowSt r

/-- Set what the part tracks of a crib row. -/
def setRowState (x : Arr) (r : Nat) (t : RowSt) : Arr := { x with rowSt := mset {} x.rowSt r t }

/-- The accumulator cells of an entry (R83). -/
def accCells (x : Arr) (e : Nat) : List Acc :=
  match mget [] x.acc e with
  | [] => List.replicate 256 {}
  | cs => cs

/-- Replace the accumulator cells of an entry; an entry of cleared cells is not listed. -/
def setAccCells (x : Arr) (e : Nat) (cs : List Acc) : Arr :=
  { x with acc := mset [] x.acc e (if cs.all (· == {}) then [] else cs) }

/-! ## Handles and the loft (R233, R239, R242, R243) -/

/-- A handle of an array. -/
def handleOf (x : Arr) (h : Nat) : Handle := mget {} x.handles h

/-- The entry is mapped onto the array's own loft. -/
def Handle.local? (e : Handle) : Bool := e.kind == 1

/-- One byte through a LOCAL handle; a row never written through a SLOT-scope handle reads zero (R243). -/
def loftByte (x : Arr) (e : Handle) (off : Nat) : Byte :=
  let a := e.target.toNat + off
  if e.slotScope && !x.written.contains (a / 1024) then 0 else Memory.byte x.loft a

/-- Bytes through a LOCAL handle. -/
def loftRead (x : Arr) (e : Handle) (off len : Nat) : List Byte :=
  (List.range len).map fun i => loftByte x e (off + i)

/-- Insert a row number in a rising list. -/
def insRow (r : Nat) : List Nat → List Nat
  | [] => [r]
  | a :: l => if r < a then r :: a :: l else if r = a then a :: l else a :: insRow r l

/-- Set the written bit of a row, its other bytes reading zero from then on (R243). -/
def openRow (x : Arr) (r : Nat) : Arr :=
  if x.written.contains r then x
  else { x with written := insRow r x.written, loft := mclear x.loft (r * 1024) (r * 1024 + 1024) }

/-- Write bytes through a LOCAL handle (R243). -/
def loftWrite (x : Arr) (e : Handle) (off : Nat) (bs : List Byte) : Arr :=
  let a := e.target.toNat + off
  let rows := if bs.length = 0 then 0 else (a + bs.length - 1) / 1024 - a / 1024 + 1
  let x := if e.slotScope then (List.range rows).foldl (fun x i => openRow x (a / 1024 + i)) x else x
  { x with loft := Memory.write x.loft a bs }

/-- The ADDR subcode of an access of `len` bytes at `off` through an entry that must be LOCAL; none when it is in order
(R242). -/
def localFault (e : Handle) (off len : Nat) : Option Nat :=
  if e.kind != 1 then some 3 else if e.length.toNat < off + len then some 1 else none

/-- Bytes of a limb in one array's loft (R37, R93): at N = 2^17 each array of the pair holds half of it. -/
def limbBytes (logn : Nat) : Nat := 4 * min (2 ^ logn) 65536

/-- Limbs of one sheaf that the handle's loft holds, the check limb among them (R39). -/
def Handle.count (e : Handle) : Nat := min e.most (e.level.toNat + 1 - e.first)

/-- Bytes from one sheaf of a handle at its LEVEL to the next in one loft: they lie back to back (R38, R39), or as the strides of
a distributed tensor's block say (R268). -/
def sheafBytes (e : Handle) (logn : Nat) : Nat := if e.pitch = 0 then max 1 e.count * limbBytes logn else e.pitch

/-- Check state of the n-th sheaf of a handle (R239). -/
def Handle.cst (e : Handle) (n : Nat) : BitVec 4 := if n = 0 then e.cst0 else if n = 1 then e.cst1 else e.cst2

/-- Whether a VERIFY epilogue has set the state of the n-th sheaf (R139, log 79). -/
def Handle.setVer (e : Handle) (n : Nat) (b : Bool) : Handle :=
  { e with ver := if b then e.ver ||| (1 : BitVec 3) <<< n else e.ver &&& ~~~((1 : BitVec 3) <<< n) }

/-- Set the check state of the n-th sheaf; another state than before is none that a VERIFY epilogue has set. -/
def Handle.setCst (e : Handle) (n : Nat) (v : BitVec 4) : Handle :=
  let e := if e.cst n = v then e else e.setVer n false
  if n = 0 then { e with cst0 := v } else if n = 1 then { e with cst1 := v } else { e with cst2 := v }

/-- Which sheaf of a SHEAF handle holds an offset. -/
def polyAt (e : Handle) (logn off : Nat) : Nat := (off - e.sbase) / sheafBytes e logn

/-- Which limb of its sheaf an offset lies in, the check limb being 0 (R38, R39). -/
def limbIdx (e : Handle) (logn off : Nat) : Nat := e.first + (off - e.sbase) % sheafBytes e logn / limbBytes logn

/-- log2 N of a SHEAF handle's set. -/
def sheafLogn (psets : List PSet) (e : Handle) : Nat := (psets.getD e.pset.toNat {}).logn

/-- The batch position a loft row holds data of (R538). -/
def posAt (x : Arr) (e : Handle) (off : Nat) : Nat := mget 8 x.posOf ((e.target.toNat + off) / 1024)

/-- The key under which a limb of a sheaf is tracked. -/
def trackKey (h poly limb : Nat) : Nat := (h * 4 + poly) * 128 + limb

/-- The limb position of limb `idx` of a sheaf, 0x7F of its check limb: an extended sheaf holds the special primes' limbs
after those of the ciphertext (R113, log 69). -/
def limbPos (ps : PSet) (ext : Bool) (level idx : Nat) : Nat :=
  if idx = 0 then 0x7F
  else if ext ∧ level - ps.lp < idx then ps.lq + (idx - 1 - (level - ps.lp))
  else idx - 1

/-- The tracked state of a row read through a handle (R52): that of the row's limb, which is its sheaf's when no command has
written the limb since the sheaf took its state (log 19); OPEN without SHEAF. -/
def streamState (psets : List PSet) (x : Arr) (h off : Nat) : RowSt :=
  let e := handleOf x h
  if e.sheaf then
    let logn := sheafLogn psets e
    let n := polyAt e logn off
    let i := limbIdx e logn off
    let t := mget {} x.track (trackKey h n i)
    let lpos := if t.lpos = 0xFF then limbPos (psets.getD e.pset.toNat {}) e.ext e.level.toNat i else t.lpos
    { t with
      tracked := true, handle := h, poly := n, evalDom := e.evalDom, lpos := lpos, pos := posAt x e off
      cst := if n < 3 then (if e.cst n = 15 ∨ !t.tracked then e.cst n else t.cst) else 14 }
  else { pos := posAt x e off }

/-- The weaker of two states of rows of one limb; rows of a correction term and other rows make it OPEN (R52). -/
def weakerRow (a b : RowSt) : RowSt :=
  if a.kind = b.kind then
    { b with cst := if a.cst.toNat ≤ b.cst.toNat then b.cst else a.cst, bad := a.bad || b.bad
             drop := if a.drop = b.drop then b.drop else [] }
  else { b with cst := 14, kind := .limb, bad := a.bad || b.bad, drop := [] }

/-- The tracked state of a limb whose rows begin at row b: the weakest of its rows'. -/
def limbRowState (x : Arr) (b rpl : Nat) : RowSt :=
  (List.range (rpl - 1)).foldl (fun t i => weakerRow (rowState x (b + i + 1)) t) (rowState x b)

/-- Note a row of state `st` written through a SHEAF handle (R52, R240): a limb has the state of the row at its start, the
weaker of the two at its other rows. The handle's own fields follow at the end of the command. -/
def trackWrite (psets : List PSet) (x : Arr) (h off : Nat) (st : RowSt) : Arr :=
  let e := handleOf x h
  let logn := sheafLogn psets e
  let n := polyAt e logn off
  if e.sheaf && decide (n < e.npoly.toNat) then
    let key := trackKey h n (limbIdx e logn off)
    let st := if st.tracked then st else { st with tracked := true, cst := 14, kind := .limb, evalDom := e.evalDom }
    let old := mget { tracked := true, cst := e.cst n } x.track key
    let new := if (off - e.sbase) % limbBytes logn = 0 then st else weakerRow old st
    { x with track := mset {} x.track key new, touched := x.touched.filter (· != key) ++ [key] }
  else x

/-- The batch position of data made of data of two (R538): 8 none, 9 several. -/
def joinPos (a b : Nat) : Nat := if a = 8 then b else if b = 8 ∨ a = b then a else 9

/-- Note which batch position the rows of a loft range hold data of (R538). -/
def setPos (x : Arr) (a len pos : Nat) : Arr :=
  let rows := if len = 0 then 0 else (a + len - 1) / 1024 - a / 1024 + 1
  { x with posOf := (List.range rows).foldl (fun m i => mset 8 m (a / 1024 + i) pos) x.posOf }

/-! ## Primes and limbs of a word (R198) -/

/-- What a word needs of the plan. -/
structure Env where
  primes : List PrimeEntry := []
  psets : List PSet := []
  deriving DecidableEq, Repr

/-- The plan's part of a word; no plan loaded leaves both empty. -/
def State.env (s : State) : Env := match s.plan with
  | some p => { primes := p.primes, psets := p.psets }
  | none => {}

/-- A parameter set. -/
def Env.pset (v : Env) (n : Nat) : PSet := v.psets.getD n {}

/-- A prime-book entry. -/
def Env.prime (v : Env) (n : Nat) : PrimeEntry := v.primes.getD n {}

/-- The prime-book entry of a limb position of a set (R198): 0x7F is the check prime. -/
def Env.limb (v : Env) (ps : PSet) (lpos : Nat) : PrimeEntry :=
  if lpos = 0x7F then v.prime ps.checkIdx
  else if lpos < ps.lq then v.prime (ps.qIdx.getD lpos 0xFF)
  else v.prime (ps.pIdx.getD (lpos - ps.lq) 0xFF)

/-- Rows per limb of a set: min(N, 2^16) / 256 (R198). -/
def rowsPerLimb (ps : PSet) : Nat := max 1 (min (2 ^ ps.logn) 65536 / 256)

/-- The rows of a CRIB slot (encoded minus 1). -/
def cribRows (c : CribSlot) : Nat := c.rows.toNat + 1

/-- The limb position of the row at position p of a word. -/
def limbAt (ps : PSet) (c : CribSlot) (p : Nat) : Nat := c.lpos.toNat + p / rowsPerLimb ps

/-! ## Faults found while a word runs -/

/-- One array while a word runs: its contents, the fault the record reports, those it does not (R88), whether a queue it
needs is empty, and the counter of free values. A lane that is `idle` has faulted before: it takes its entries from the queues
and its rows from the ports as stated, and neither faults nor writes (R209, R319). -/
structure Lane where
  x : Arr
  fault : Option Flt := none
  lost : List Flt := []
  starved : Bool := false
  free : Nat := 0
  odd : Bool := false
  /-- the loft rows found uncorrectable (R234). -/
  rows : List Nat := []
  idle : Bool := false
  /-- the batch positions whose input is invalid, and the faults met on their data, which are counted alone (R412). -/
  bad : List Nat := []
  quiet : List Flt := []
  deriving DecidableEq, Repr

/-- The lane goes on: no fault, nothing missing. -/
def Lane.ok (l : Lane) : Bool := l.fault.isNone && !l.starved

/-- Stop a lane with a fault; an idle lane meets none, and one on data of a position whose input is invalid is counted while the
lane goes on (R412). -/
def Lane.fail (l : Lane) (f : Flt) : Lane :=
  let f := { f with odd := l.odd }
  if l.idle then l else if l.bad.contains f.pos then { l with quiet := l.quiet ++ [f] } else { l with fault := some f }

/-- A test that an idle lane does not make. -/
def Lane.test {α : Type} (l : Lane) (t : Option α) : Option α := if l.idle then none else t

/-! ## Queues and ports (R210..R215) -/

/-- The fields of an address-queue entry (R214). -/
def bindingOf (w : DWord) : Binding :=
  { handle := bits w.toNat 63 56
    row0 := bits w.toNat 55 43
    nrows := bits w.toNat 42 31 + 1
    stride := sNat 16 (bits w.toNat 30 15)
    next := 0 }

/-- Bind a port to the next address-queue entry; an empty queue starves the word (R211, R190). -/
def bindPort (l : Lane) (p : Nat) : Lane :=
  match l.x.aq with
  | [] => { l with starved := true }
  | w :: r => { l with x := { l.x with aq := r, ports := mset {} l.x.ports p (bindingOf w) } }

/-- The loft row that the next read of a port takes. -/
def nextRow (y : Arr) (port : Nat) : Option Nat :=
  let b := mget {} y.ports port
  let b := if b.nrows ≤ b.next then (match y.aq with | w :: _ => bindingOf w | [] => b) else b
  let e := handleOf y b.handle
  let r : Int := b.row0 + b.next * b.stride
  if e.kind = 1 ∧ 0 ≤ r then some (e.target.toNat / 1024 + r.toNat) else none

/-- The next row of a port on a cycle: handle and byte offset, taking the next entry when the last is used up (R215). -/
def portNext (c : Nat) (l : Lane) (p : Nat) : Lane × Nat × Nat :=
  let b := mget {} l.x.ports p
  if b.nrows = 0 then (l.fail { kind := 7, sub := 4, cycle := c }, 0, 0)
  else
    let l := if b.nrows ≤ b.next then bindPort l p else l
    let b := mget {} l.x.ports p
    let row : Int := b.row0 + b.next * b.stride
    let e := handleOf l.x b.handle
    let l := { l with x := { l.x with ports := mset {} l.x.ports p { b with next := b.next + 1 } } }
    if !l.ok then (l, 0, 0)
    else if e.kind != 1 then (l.fail { kind := 7, sub := 3, cycle := c }, 0, 0)
    else if row < 0 then (l.fail { kind := 7, sub := 1, cycle := c }, 0, 0)
    else
      let off := row.toNat * 1024
      match localFault e off 1024 with
      | some sub => (l.fail { kind := 7, sub := sub, cycle := c }, 0, 0)
      | none => (l, b.handle, off)

/-- Read the next row of a port on a cycle: its bytes and the tracked state; a POISONED sheaf faults (R63 step 2). -/
def portRead (v : Env) (c : Nat) (l : Lane) (p : Nat) : Lane × List Byte × RowSt :=
  if !l.ok then (l, List.replicate 1024 0, {})
  else
    let r := portNext c l p
    if !r.1.ok then (r.1, List.replicate 1024 0, {})
    else
      let st := streamState v.psets r.1.x r.2.1 r.2.2
      if st.cst = 15 ∧ l.idle = false then (r.1.fail { kind := 1, sub := 1, cycle := c, pos := st.pos }, List.replicate 1024 0, st)
      else (r.1, loftRead r.1.x (handleOf r.1.x r.2.1) r.2.2 1024, st)

/-- Write the next row of a port on a cycle (R215). -/
def portWrite (v : Env) (c : Nat) (l : Lane) (p : Nat) (bs : List Byte) (st : RowSt) : Lane :=
  if !l.ok then l
  else
    let r := portNext c l p
    if !r.1.ok then r.1
    else
      let e := handleOf r.1.x r.2.1
      let x := loftWrite r.1.x e r.2.2 bs
      { r.1 with x := trackWrite v.psets (setPos x (e.target.toNat + r.2.2) bs.length st.pos) r.2.1 r.2.2 st }

/-- Pop one operand-queue entry (R210). -/
def popOperand (l : Lane) : Lane × Nat :=
  match l.x.oq with
  | [] => ({ l with starved := true }, 0)
  | w :: r => ({ l with x := { l.x with oq := r } }, w.toNat)

/-- The operand-queue entry for step s under OMODE, with the one popped last (R204): 0 one per word, 1 one per limb,
2 one per step. -/
def operandAt (omode : BitVec 2) (rpl s p : Nat) (l : Lane) (last : Nat) : Lane × Nat :=
  let pop := if omode = 0 then s == 0 else if omode = 1 then p % rpl == 0 else true
  if pop then popOperand l else (l, last)

/-- Bind every port whose BIND bit is set, in the order LS0, LS1, LS2, LS3, LW, LF (R204, R211). -/
def bindPorts (l : Lane) (bind : BitVec 6) : Lane :=
  (List.range 6).foldl (fun l p => if bind.getLsbD (5 - p) && l.ok then bindPort l p else l) l

/-- The full form of a long word as it is stored: a slot that is absent, or taken under R207, reads 0 (R194). -/
def fullForm (w : LongWord) : BitVec 256 :=
  let cell : Nat := match w.cell with
    | some c => c.opc.toNat * 2 ^ 58 + c.bsrc.toNat * 2 ^ 56 + c.k.toNat * 2 ^ 51 + c.const.toNat
    | none => 0
  let net : Nat := match w.net with
    | some n => n.nopc.toNat * 2 ^ 20 + b2n n.dom * 2 ^ 19 + b2n n.neg * 2 ^ 18 + n.gm.toNat
    | none => 0
  let vec : Nat := match w.vec with
    | some v => v.vopc.toNat * 2 ^ 57 + v.type.toNat * 2 ^ 54 + v.ttype.toNat * 2 ^ 51 + v.rm.toNat * 2 ^ 49 +
        b2n v.ftz * 2 ^ 48 + v.s1.toNat * 2 ^ 46 + v.s2.toNat * 2 ^ 44 + v.s3.toNat * 2 ^ 42 + b2n v.dest * 2 ^ 41 +
        v.vrep.toNat * 2 ^ 32 + v.const.toNat
    | none => 0
  let acc : Nat := match w.acc with
    | some a => a.aop.toNat * 2 ^ 28 + a.e0.toNat * 2 ^ 22 + a.ediv.toNat * 2 ^ 14 + a.fprime.toNat * 2 ^ 7 + a.rep.toNat
    | none => 0
  let crib : Nat := match (if w.cribTaken then none else w.crib) with
    | some c => c.pset.toNat * 2 ^ 45 + c.lpos.toNat * 2 ^ 38 + c.nlimb.toNat * 2 ^ 34 + c.arow.toNat * 2 ^ 26 +
        c.brow.toNat * 2 ^ 18 + c.drow.toNat * 2 ^ 10 + c.rows.toNat * 2 ^ 2 + c.xop.toNat
    | none => 0
  let que : Nat := match (if w.queTaken then none else w.que) with
    | some q => q.bind.toNat * 2 ^ 18 + q.omode.toNat * 2 ^ 16
    | none => 0
  BitVec.ofNat 256 (cell + net * 2 ^ 64 + vec * 2 ^ 88 + acc * 2 ^ 152 + crib * 2 ^ 184 + que * 2 ^ 232)

end Sys2Proof.Machine
end

