-- ==== Sys2Proof/Machine/Faults.lean ====
section
/-! DEFINITION. Fault records, their counts and handling, and trace records (R63, R65, R88, R226..R232, R412, R465, R538). -/

namespace Sys2Proof.Machine

/-! ## Trace (R229, R230) -/

/-- The 32 bytes of a trace record (R229). -/
def traceBytes (evt stage larr tag time epoch cycle arg stream inc : Nat) : List Byte :=
  leBytes 1 evt ++ leBytes 1 stage ++ leBytes 2 larr ++ leBytes 4 tag ++ leBytes 8 time ++ leBytes 4 epoch ++
    leBytes 4 cycle ++ leBytes 4 arg ++ leBytes 2 stream ++ leBytes 2 inc

/-- Trace an event of an array: enabled events of enabled arrays enter the die's buffer of 1,024 records, or are
counted as lost (R229). -/
def State.trace? (s : State) (a : ArrId) (evt stage tag time cycle arg stream inc : Nat) : State :=
  let t := s.trace
  let n := globalOf a
  if t.enable && t.events.getLsbD evt && (t.arrays.getD (n / 8) 0).getLsbD (n % 8) then
    if (t.buf.filter fun e => e.1 == a.die).length < 1024 then
      { s with trace := { t with
          buf := t.buf ++ [(a.die, traceBytes evt stage n tag time s.epoch cycle arg stream inc)] } }
    else { s with trace := { t with lost := bump t.lost } }
  else s

/-- Move buffered trace records to host memory (R229, R230): STOP drops what passes the buffer's end, WRAP goes on from
its start; the buffer lies in the space of HP0's physical function. -/
def State.drainTrace (s : State) : State :=
  let s' := s.trace.buf.foldl (fun s e =>
    let t := s.trace
    let ptr := if t.wrap && decide (t.len < t.ptr + 32) then 0 else t.ptr
    if t.len < ptr + 32 then { s with trace := { t with lost := bump t.lost } }
    else match s.hostWrite ⟨0, 0⟩ 0 (t.addr + ptr) e.2 with
      | some u =>
        let next := if t.wrap && decide (t.len < ptr + 64) then 0 else ptr + 32
        { u with trace := { u.trace with ptr := next } }
      | none => { s with trace := { t with lost := bump t.lost } }) s
  { s' with trace := { s'.trace with buf := [] } }

/-- The first gear cycle that begins at or after an instant, `ns` after a coincidence of the grids (R343). -/
def gearCycle (gear ns : Nat) : Nat := (ns * cyclesPerQuantum gear + 39) / 40

/-- What the replica of a die holds (R339). -/
def State.replicaNow (s : State) (die : Nat) : Nat := ((s.tm.now : Int) + mget 0 s.tm.replOff die).toNat

/-- TIME of a trace record (R355): in a JOB or INSTALL slot T_e + 40 × START + floor(CYCLE × 40 / c), else the replica's value. -/
def State.slotTime (s : State) (a : ArrId) (cycle : Nat) : Nat :=
  match s.runOf a with
  | some r => match s.slotRec r.slot with
    | some q => if q.kind = 2 then s.replicaNow a.die else s.slotNs r.epoch q + cycle * 40 / cyclesPerQuantum s.variant.gear
    | none => s.replicaNow a.die
  | none => s.replicaNow a.die

/-- The gear cycle of a slot that the time base has reached, counted from the slot's START (R343): the first whose TIME by R355 is
the time base's value, or later. -/
def State.slotCycle (s : State) (r : SlotRun) : Nat :=
  match s.slotRec r.slot with
  | some q => gearCycle s.variant.gear (s.tm.now - s.slotNs r.epoch q)
  | none => 0

/-! ## Counting (R65, R465) -/

/-- The hour and the minute of the rolling windows (R465). -/
def State.hour (s : State) : Nat := s.tm.now / 3600000000000
/-- The minute of a rolling window. -/
def State.minute (s : State) : Nat := s.tm.now / 60000000000

/-- Add a bucket mark to the window of a physical slot. -/
def markSlot (m : SMap (List Nat)) (p t : Nat) : SMap (List Nat) := mset [] m p (mget [] m p ++ [t])

/-- Count a fault in the array's counters (R65). -/
def countFault (x : Arr) (kind sub : Nat) : Arr :=
  let c := x.cnt
  { x with cnt :=
      if kind = 1 then { c with check := bump c.check }
      else if kind = 3 then { c with perm := bump c.perm }
      else if kind = 4 then { c with fold := bump c.fold }
      else if kind = 2 ∧ sub = 4 then { c with loftUncorr := bump c.loftUncorr }
      else c }

/-- Count a fault against its physical slot, or its die's units (R63 step 5, R465). -/
def State.attribute (s : State) (die pslot kind sub : Nat) : State :=
  s.modDie die fun d =>
    if (kind = 1 ∧ sub = 0) ∨ kind = 3 ∨ kind = 4 then { d with checkF := markSlot d.checkF pslot s.hour }
    else if kind = 2 ∧ sub ≤ 4 then { d with uncorrF := markSlot d.uncorrF pslot s.hour }
    else if kind = 5 ∨ kind = 6 then { d with unitFaults := d.unitFaults ++ [s.hour] }
    else d

/-- Count a corrected error against the physical slot (R76, R234, R465). -/
def State.corrected (s : State) (a : ArrId) (loft : Bool) : State :=
  let p := s.pslot a
  let s := s.modArr a fun x =>
    { x with cnt := if loft then { x.cnt with loftCorr := bump x.cnt.loftCorr }
        else { x.cnt with cribCorr := bump x.cnt.cribCorr } }
  s.modDie a.die fun d => { d with corrF := markSlot d.corrF p s.minute }

/-! ## Raising a fault -/

/-- What a fault record names beside the fault itself. -/
structure FaultAt where
  a : ArrId
  tag : Nat
  stage : Nat := 0
  word : BitVec 256 := 0
  /-- the batch position whose data failed, when they belong to one (R538). -/
  bpos : Option Nat := none
  deriving DecidableEq, Repr

/-- The position whose data failed, when a job fills it (R538). -/
def dataPos (r : SlotRun) (bpos : Option Nat) : Option (Nat × Nat) := bpos.bind fun b => r.jobs.find? fun p => p.1 == b

/-- The filled position a record names: that whose data failed, else the lowest filled (R538). -/
def namedPos (r : SlotRun) (bpos : Option Nat) : Option (Nat × Nat) :=
  (dataPos r bpos).orElse fun _ => (sortBy (·.1) (filledPositions r)).head?

/-- The fault record of R226. -/
def State.faultRec (s : State) (w : FaultAt) (f : Flt) (r : Option SlotRun) (pos : Option (Nat × Nat)) : FaultRec :=
  let a : ArrId := if f.odd then ⟨w.a.die, w.a.arr + 1⟩ else w.a
  let job := pos.bind fun p => s.job? p.2
  let inc := match r, pos with
    | some r, some p => mget 0 r.incs p.1
    | _, _ => 0
  { kind := f.kind, sub := f.sub, point := f.point
    stage := w.stage + 8 * (match pos with | some p => p.1 | none => 0)
    bpos := match pos with | some p => p.1 | none => 0
    tag := w.tag, larr := globalOf a, pslot := s.pslot a, limb := f.limb, index := f.index
    epoch := s.epoch, cycle := f.cycle
    stream := match job with | some j => j.stream | none => 0xFFFF
    inc := inc
    seq := match job with | some j => j.seq | none => 0
    word := w.word }

/-- Complete the job at a named position with a status at once, where the rule of the fault's kind says so (R227). -/
def State.endNamed (s : State) (pos : Option (Nat × Nat)) (inc kind : Nat) (ends : Option (Nat × Nat)) : State :=
  match ends, pos with
  | some e, some p =>
    match s.job? p.2 with
    | some j =>
      if j.st == .bound && j.inc == inc then
        ((s.tellAbandon j j.inc kind).finishJob p.2 e.1 e.2).modJob p.2 fun j => { j with inc := j.inc + 1 }
      else s
    | none => s
  | _, _ => s

/-- A fault of a command, the control core, a unit or a DMA (R63, R86, R101, R226, R227, R412, R538): the record, the
counts, and the end of the incarnations; a fault on data of a position whose input is invalid only counts. The status a
job completes with at once, for the kinds that do not re-execute it, is `ends`. -/
def State.raiseFault (s : State) (w : FaultAt) (f : Flt) (ends : Option (Nat × Nat)) : State :=
  let a : ArrId := if f.odd then ⟨w.a.die, w.a.arr + 1⟩ else w.a
  let r := s.runOf w.a
  let pos := r.bind fun r => namedPos r w.bpos
  let s := s.modArr a fun x => countFault x f.kind f.sub
  let invalid := match r with
    | some r => (match dataPos r w.bpos with
      | some p => r.bad.any fun e => e.1 == p.1
      | none => (filledPositions r).isEmpty && !r.jobs.isEmpty)
    | none => false
  if invalid then s
  else
    let rec' := s.faultRec w f r pos
    let s := s.modArr a fun x => { x with lastFault := some rec' }
    let s := s.logBody 0x01 a.die (globalOf a) 0 (some rec')
    let s := s.attribute a.die rec'.pslot f.kind f.sub
    let s := s.trace? a 3 rec'.stage w.tag (s.slotTime w.a f.cycle) f.cycle 0 rec'.stream rec'.inc
    match r with
    | none => s
    | some r =>
      let s := s.endNamed pos rec'.inc f.kind ends
      let s := s.abandonRun r (pos.map (·.1)) w.tag f.kind f.kind
      s.modRun r fun r => { r with faulted := true }

/-- A fault of the control core (R225): tag 0xFF_FF01, INDEX the instruction's byte offset, WORD 0. -/
def State.coreFault (s : State) (a : ArrId) (kind sub offset : Nat) : State :=
  s.raiseFault { a := a, tag := 0xFFFF01 }
    { kind := kind, sub := sub, index := offset
      cycle := match s.runOf a with
        | some r => s.slotCycle r
        | none => 0 } none

end Sys2Proof.Machine
end

