-- ==== Sys2Proof/Machine/Granary.lean ====
section
/-! DEFINITION. The granary's regions and blocks (R120, R288..R292): where a byte of a region lies, and reads and writes
of it. -/

namespace Sys2Proof.Machine

/-- First granary block of the PLAN region (R289). -/
def planBase : Nat := 32772

/-- The declared PLAN region, rounded up to a multiple of 3 blocks (R289). -/
def State.planBlocks (s : State) : Nat := match s.plan with
  | some p => (p.regionBlocks + 2) / 3 * 3
  | none => 0

/-- First granary block of the KEYS region (R289). -/
def State.keysBase (s : State) : Nat := planBase + 2 * s.planBlocks

/-- Granary blocks of the part: six stacks of 360,448 blocks (R296). -/
def granBlocks : Nat := 2162688

/-- The two copies of logical block m of a mirrored region whose first block is b0 (R291): X, then Y. -/
def copiesOf (b0 m : Nat) : Nat × Nat := (b0 + 6 * (m / 3) + m % 3, b0 + 6 * (m / 3) + m % 3 + 3)

/-- The stack of a granary block (R288). -/
def stackOf (b : Nat) : Nat := b % 6

/-- The hub of a stack: ST0..ST2 behind HB0, ST3..ST5 behind HB1 (R288, R291). -/
def hubOfStack (k : Nat) : Nat := k / 3

/-- Pseudo-channel, bank, slot and controller row of a block within its stack (R288), as in the worked example. -/
def blockPlace (b : Nat) : Nat × Nat × Nat × Nat :=
  let i := b / 6
  (i % 2, i / 2 % 16, i / 32 % 32, i / 1024)

/-- The number of the controller row that holds line `line` of a block; the line's number is its channel (R288). -/
def rowOfLine (b line : Nat) : Nat :=
  let p := blockPlace b
  ((line % 32 * 2 + p.1) * 16 + p.2.1) * 352 + p.2.2.2

/-- The number of a controller row given by its place. -/
def rowNum (r : RowId) : Nat := ((r.chan * 2 + r.pc) * 16 + r.bank) * 352 + r.row

/-- Where bytes of a granary block stand in the model's granary memory. -/
def granAddr (block off : Nat) : Nat := block * 65536 + off

/-- A stack holds a granary block that is its own: it is not lost, and no line of the block is in a retired row (R295, R299). -/
def Stack.holds (x : Stack) (block : Nat) : Bool :=
  !x.lost && (x.retired.isEmpty || !(List.range 32).any fun l => x.retired.contains (rowOfLine block l))

/-- A copy can be read: its stack holds the block. -/
def State.copyGood (s : State) (b : Nat) : Bool := (s.stack (stackOf b)).holds b

/-- The copy of a mirrored block that serves reads (R291, R295, R299): the primary, or the other one when the primary's
stack is lost or holds the block no more. -/
def State.servingCopy (s : State) (b0 m : Nat) : Nat :=
  let c := copiesOf b0 m
  let prim := if m / 3 % 2 = 0 then c.1 else c.2
  let other := if m / 3 % 2 = 0 then c.2 else c.1
  if s.copyGood prim then prim else other

/-- Bytes of the PLAN region from a logical byte offset (R120, R291). -/
def State.planRead (s : State) (off len : Nat) : List Byte :=
  (List.range len).map fun i =>
    let a := off + i
    Memory.byte s.gran (granAddr (s.servingCopy planBase (a / 65536)) (a % 65536))

/-- A line of 2,048 bytes of the PLAN region, by its place in the plan image, lies where an overflow block that holds it has been
moved to (R283). -/
def State.planLine (s : State) (l : Nat) : Nat :=
  match s.mem.ovfMap.find? fun e => decide (e.1 ≤ l ∧ l < e.1 + e.2.2) with
  | some e => e.2.1 + (l - e.1)
  | none => l

/-- Write one granary byte unless its stack is lost (R299). -/
def State.granSet (s : State) (block off : Nat) (v : Byte) : State :=
  if (s.stack (stackOf block)).lost then s else { s with gran := Memory.setByte s.gran (granAddr block off) v }

/-- Write bytes of the PLAN region to both copies (R291). -/
def State.planWrite (s : State) (off : Nat) (bs : List Byte) : State :=
  bs.zipIdx.foldl (fun s e =>
    let a := off + e.2
    let c := copiesOf planBase (a / 65536)
    (s.granSet c.1 (a % 65536) e.1).granSet c.2 (a % 65536) e.1) s

/-- Bytes of a key's stored data (R111, R292). -/
def State.keyBytes (s : State) (k : Key) (off len : Nat) : List Byte :=
  (List.range len).map fun i =>
    let a := off + i
    Memory.byte s.gran (granAddr (k.blocks.getD (a / 65536) 0) (a % 65536))

/-- Write bytes into one granary block of the KEYS region. -/
def State.blockFill (s : State) (block : Nat) (bs : List Byte) : State :=
  { s with gran := Memory.write s.gran (granAddr block 0) bs }

/-- A key of a tenant by KEY_ID. -/
def State.key? (s : State) (tenant id : Nat) : Option Key := s.keys.find? fun k => k.tenant == tenant && k.id == id

/-- Change a key of a tenant. -/
def State.modKey (s : State) (tenant id : Nat) (f : Key → Key) : State :=
  { s with keys := s.keys.map fun k => if k.tenant == tenant && k.id == id then f k else k }

/-- Usable stacks in ascending order (R292). -/
def State.usableStacks (s : State) : List Nat := (List.range 6).filter fun k => !(s.stack k).lost

end Sys2Proof.Machine
end

