-- ==== Sys2Proof/Machine/Policy.lean ====
section
/-! DEFINITION. The decisions of the health manager (R465..R478, R483..R486): windows, selectable variants and switches
(R325..R329), fences, retirements, the permitted gear, throttling, replace triggers, and the entry to SAFE. -/

namespace Sys2Proof.Machine

/-! ## Windows and epochs (R342, R465) -/

/-- Marks of a 24 h window of hours. -/
def inDay (s : State) (ms : List Nat) : List Nat := ms.filter fun m => decide (s.hour < m + 24)

/-- Marks of a 1 h window of minutes. -/
def inHour (s : State) (ms : List Nat) : List Nat := ms.filter fun m => decide (s.minute < m + 60)

/-- HM_AUTO allows a policy decision (R467). -/
def State.policy (s : State) (b : Nat) : Bool := s.hm.auto.getLsbD b

/-- A policy decision whose bit is clear is recommended (R467). -/
def State.recommend (s : State) (b : Nat) : State := s.log 0x17 0xFF 0 b

/-! ## Replace triggers (R483, R484) -/

/-- Usable links: UP or DEGRADED. -/
def State.usableLinks (s : State) : Nat := ((List.range 32).filter fun j => (s.link j).up).length

/-- The lowest SPARE physical slot of a die (R469). -/
def Die.spare (d : Die) : Option Nat := (List.range 68).find? fun p => d.slotSt.getD p .retired == .spare

/-- SPARE physical slots of a die (DIE_SPARES). -/
def Die.spares (d : Die) : Nat := (d.slotSt.filter (· == .spare)).length

/-- The triggers that hold now, as bits (R483). -/
def State.triggers (s : State) : BitVec 8 :=
  let dies := (List.range 8).map s.die
  let b0 := dies.any fun d => !d.fenced && d.spares == 0
  let b1 := dies.any (·.fenced)
  let b2 := (List.range 6).any fun k => (s.stack k).lost
  let b3 := s.hm.baseTaken && decide (s.usableLinks < 24 ∧ s.usableLinks < s.hm.linksBase)
  let b4 := s.hm.prState == 2
  BitVec.ofNat 8 (b2n b0 + 2 * b2n b1 + 4 * b2n b2 + 8 * b2n b3 + 16 * b2n b4)

/-- Apply the replace triggers (R484): REPLACE for each new bit; only bit 3 can clear; the part's state follows. -/
def State.replaceCheck (s : State) : State :=
  let bits : BitVec 8 := (s.hm.replace &&& 0xF7#8) ||| s.triggers
  let fresh := (List.range 5).filter fun i => bits.getLsbD i && !s.hm.replace.getLsbD i
  let s := { s with hm := { s.hm with replace := bits } }
  let s := fresh.foldl (fun s _ => s.log 0x60 0xFF 0 bits.toNat) s
  let part : PartState :=
    if s.pw.part == .enabled && bits != 0#8 then .replaceRequested
    else if s.pw.part == .replaceRequested && bits == 0#8 then .enabled else s.pw.part
  { s with pw := { s.pw with part := part } }

/-! ## Variants (R325, R326, R329, R475) -/

/-- A variant is selectable (R325). -/
def State.selectable (s : State) (v : Variant) : Bool :=
  ((List.range 8).all fun d => !bit v.dieMask d || !(s.die d).fenced) && decide (s.hm.gear ≤ v.gear) &&
    !s.vs.withdrawn.contains v.num

/-- The selectable variants in ascending order. -/
def State.selectables (s : State) : List Variant := match s.plan with
  | some p => sortBy (·.num) (p.variants.filter s.selectable)
  | none => []

/-- The variant with the highest PREF, the first on a tie (R325). -/
def bestOf (vs : List Variant) : Option Variant :=
  vs.foldl (fun b v => match b with
    | none => some v
    | some x => if x.pref < v.pref then some v else some x) none

/-- A variant number names a selectable variant. -/
def State.selectableNum (s : State) (n : Nat) : Bool := s.selectables.any fun v => v.num == n

/-- The target of R475 and the item it comes from. -/
def State.variantTarget (s : State) : Option (Nat × Nat) :=
  let alt := (s.hm.memAlt.getD s.vs.current 0xFF).toNat
  match s.vs.pin.filter s.selectableNum with
  | some v => some (v, 1)
  | none =>
    if s.hm.mpActive && s.selectableNum alt then some (alt, 2)
    else (bestOf s.selectables).map fun v => (v.num, 3)

/-- The host's RETIRE_ARRAY on a die that loses its retirements reads REFUSED (log 86). -/
def State.refuseRetire (s : State) (d : Nat) : State :=
  if s.hm.retireHost.any fun n => n / 64 == d then { s with hm := { s.hm with retireHost := none, retireSt := 3 } } else s

/-- The retirements of a die, in progress or asked for, are cancelled and consume no spare (R470). -/
def State.cancelRetire (s : State) (d : Nat) : State :=
  (s.modDie d fun x =>
    { x with
      retiring := none, retireReq := []
      slotSt := match x.retiring with
        | some (_, p, _) => x.slotSt.set p .active
        | none => x.slotSt }).refuseRetire d

/-- Those of a die that a pending switch removes are cancelled (R470). -/
def State.cancelRetirements (s : State) (mask : Nat) : State :=
  (List.range 8).foldl (fun s d => if bit mask d then s else s.cancelRetire d) s

/-- Announce a switch (R326): the lead to every member, a member to the lead. -/
def State.announce (s : State) (v e : Nat) : State :=
  let me := s.dom.pkgAddr
  let list := (me, v, e) :: s.vs.announced.filter fun a => a.1 != me
  let s := { s with vs := { s.vs with announced := list } }
  if s.isLead then s.sendMembers 12 [me, v, e]
  else if s.dom.st == .member then s.sendDctl s.dom.lead 11 [v, e] else s

/-- Decide a switch to a variant (R326, R329): the epoch is 4 ahead, or kept when at least 2 away. -/
def State.decideSwitch (s : State) (target item : Nat) : State :=
  let four := (s.epoch + 4) % 2 ^ 32
  let e := match s.vs.pending with
    | some (_, e) => if s.tm.now / epochNs + 2 ≤ s.absEpoch e then e else four
    | none => four
  let s := { s with vs := { s.vs with pending := some (target, e) } }
  let s := s.log 0x13 0xFF 0 (target + 256 * item)
  let s := s.cancelRetirements ((s.variantRec target).getD {}).dieMask
  s.announce target e

/-- Cancel a pending switch whose target is no longer selectable (log 47). -/
def State.dropPending (s : State) : State :=
  if s.vs.pending.any fun p => !s.selectableNum p.1 then { s with vs := { s.vs with pending := none } } else s

/-- The health manager's choice of a variant at a boundary (R466, R475, R329; log 47). -/
def State.evaluateVariant (s : State) : State :=
  if s.plan.isNone then s
  else
    let pin := match s.vs.pin with
      | some v => if s.selectableNum v then some v else none
      | none => none
    let s := { s with vs := { s.vs with pin := pin } }
    match s.variantTarget with
    | none => s.dropPending
    | some (t, item) =>
      if s.vs.pending.any (fun p => p.1 == t) then s
      else if t = s.vs.current then
        if item = 1 && s.vs.pending.isSome then s.decideSwitch t 1 else s.dropPending
      else if !s.selectable s.variant then s.decideSwitch t 0
      else if item = 1 then s.decideSwitch t 1
      else if s.policy (6 - item) then s.decideSwitch t item
      else s.dropPending.recommend (6 - item)

/-- A hard fence or a withdrawal has left the active variant, or the target of the pending switch, without being selectable:
the part chooses at once (R325; log 59). -/
def State.mandatoryVariant (s : State) : State :=
  if s.plan.isNone then s
  else if !s.selectable s.variant then s.evaluateVariant
  else s.dropPending

/-! ## Abandonment of several slots (R328, R493, R539) -/

/-- Abandon every incarnation of several runs in the order of the jobs' receipts, counted or not, under a fault kind. -/
def State.abandonRuns (s : State) (rs : List SlotRun) (counted : Bool) (kind cause : Nat) : State :=
  let receipt (i : Nat) : Nat := match s.job? i with
    | some j => j.receipt.getD 0
    | none => 0
  let ps := sortBy (fun e : SlotRun × Nat × Nat => receipt e.2.2) (rs.flatMap fun r => r.jobs.map fun p => (r, p))
  ps.foldl (fun s e =>
    match s.job? e.2.2 with
    | some j => if (e.1.incs.any fun i => i.1 == e.2.1 && i.2 == j.inc) then s.abandonJob e.2.2 counted 0 kind cause else s
    | none => s) s

/-- A slot is abandoned and counts in SLOT_ABANDONED (R336), but not under R321 or R322 (`paced`) when a fault has ended its
incarnations already (R323). -/
def State.markAbandoned (s : State) (paced : Bool) (r : SlotRun) : State :=
  let s := if paced && r.faulted then s else s.modSlotStat r.slot fun x => { x with abandoned := bump x.abandoned }
  s.modRun r fun r => { r with abandoned := true }

/-- Gear cycles in a quantum of the active variant. -/
def State.perQuantum (s : State) : Nat := cyclesPerQuantum s.variant.gear

/-- Abandon a slot under R321 or R322: counted once, unless a fault has ended its incarnations already (R323). -/
def State.abandonSlot (s : State) (r : SlotRun) : State :=
  (s.abandonRuns [r] true 10 10).markAbandoned true r

/-- In real-time mode a delay of these cycles ends the slot (R322). -/
def State.tooLate (s : State) (r : SlotRun) (d : Nat) : Bool :=
  s.plan.any (·.realTime) && match s.slotRec r.slot with
    | some q => q.kind == 0 && decide (q.tolerance * s.perQuantum < d)
    | none => false

/-- A slot of real-time mode is abandoned for the delay of one of its arrays (R232, R322): the DEADLINE record carries the
stated cycle of the command held back and the group it waits for, 0 for any other exception. -/
def State.deadline (s : State) (r : SlotRun) (a : ArrId) (group cycle tag late : Nat) (word : BitVec 256) : State :=
  let s := (s.noteDelay r.slot late).modArr a fun x => { x with delay := max x.delay late }
  let f : FaultRec :=
    s.faultRec { a := a, tag := tag, word := word } { kind := 10, sub := 1, index := group, cycle := cycle } (some r) (namedPos r none)
  let s := s.modArr a fun x => { x with lastFault := some f, cnt := { x.cnt with deadline := bump x.cnt.deadline } }
  let s := s.logBody 0x01 a.die (globalOf a) 0 (some f)
  let s := s.trace? a 6 f.stage tag (s.slotTime a cycle) cycle 0 f.stream f.inc
  s.abandonSlot r

/-- A slot occupies an array of a die. -/
def State.occupiesDie (s : State) (r : SlotRun) (d : Nat) : Bool := match s.slotRec r.slot with
  | some q => if q.kind = 2 then bit s.variant.dieMask d else bit q.dieMask d
  | none => false

/-- Every slot in progress that occupies a die is abandoned, uncounted (R328). -/
def State.abandonDie (s : State) (d : Nat) : State :=
  let rs := s.runs.filter fun r => s.occupiesDie r d && !r.abandoned
  rs.foldl (State.markAbandoned · false ·) (s.abandonRuns rs false 2 12)

/-- Jobs whose slot has ended and whose outputs were still leaving a die that is lost return, uncounted (R25, R328, R416). -/
def State.returnOutputs (s : State) (d : Nat) : State :=
  let js := s.jobs.filter fun j => match j.result with
    | some (st, _, inc) => st == 0 && j.st == .finished && s.outputsOn [d] j.idx inc
    | none => false
  js.foldl (fun s j => s.abandonJob j.idx false 0 2 12) (s.reopenJobs [d] fun _ => true)

/-! ## Fencing a die (R471, R472, R490) -/

/-- Burn two blank fuse slots with a die's number, unless a slot names it already (R472, R490). -/
def burnFuses (fs : List Byte) (d : Nat) : List Byte :=
  let v : Byte := BitVec.ofNat 8 (0x80 + d)
  if fs.contains v then fs
  else (fs.foldl (fun (acc : Nat × List Byte) b =>
    if b = 0 ∧ acc.1 < 2 then (acc.1 + 1, acc.2 ++ [v]) else (acc.1, acc.2 ++ [b])) (0, [])).2

/-- The contents of a die's arrays are lost (R510). -/
def dropArrays (m : SMap Arr) (d : Nat) : SMap Arr := mclear m (slotKey d 0) (slotKey (d + 1) 0)

/-- Fence a compute die (R472): cause 1 hard, 2 soft, 3 host. Nothing for a die fenced already. The variant and the replace
trigger follow in the later steps of the same evaluation (R466). -/
def State.fence (s : State) (d cause : Nat) : State :=
  if (s.die d).fenced then s
  else
    let s := s.abandonDie d
    let s := s.returnOutputs d
    let s := (s.cancelRetire d).modDie d fun x => { x with fenced := true, stopped := true, descs := [], units := [] }
    let arrs := dropArrays s.arrs d
    let fuses := burnFuses s.hm.fuses d
    let mine := s.hm.fenceHost == some d
    let hm := { s.hm with
      fuses := fuses, fenceHost := if mine then none else s.hm.fenceHost, fenceSt := if mine then 2 else s.hm.fenceSt }
    let s : State := { s with arrs := arrs, hm := hm }
    (s.record 2 d 0).log 0x12 d 0 cause

/-- The host's fence, due at a boundary (R466, R471). -/
def State.dueFences (s : State) : State := match s.hm.fenceHost with
  | some d => s.fence d 3
  | none => s

/-- Soft fences due at a boundary (R471): unit faults in 24 h, or three replica reloads in 1 h. -/
def State.softFenceDue (s : State) (d : Nat) : Bool :=
  let x := s.die d
  !x.fenced && (decide (s.hm.fenceUnit ≤ (inDay s x.unitFaults).length) || decide (3 ≤ (inHour s x.reloads).length))

/-- Step 1 of R466: soft fences, by policy. -/
def State.softFences (s : State) : State :=
  (List.range 8).foldl (fun s d =>
    if s.softFenceDue d then (if s.policy 1 then s.fence d 2 else s.recommend 1) else s) s

/-! ## Retiring an array (R468..R470) -/

/-- The fault counts of a physical slot reach a limit (R468). -/
def State.slotDue (s : State) (d p : Nat) : Bool :=
  let x := s.die d
  decide (s.hm.retCheck ≤ (inDay s (mget [] x.checkF p)).length) ||
    decide (s.hm.retEcc ≤ (inDay s (mget [] x.uncorrF p)).length) ||
    decide (s.hm.retCorr ≤ (inHour s (mget [] x.corrF p)).length)

/-- Active logical arrays of a die whose physical slot is due by its counts. -/
def State.dueArrays (s : State) (d : Nat) : List Nat :=
  (List.range 64).filter fun a => s.slotDue d ((s.die d).slotMap.getD a a)

/-- Start the retirement of one array of a die (R469 step 1), or fence the die when no spare is left (R470). -/
def State.startRetirement (s : State) (d a : Nat) : State :=
  let x := s.die d
  let p := x.slotMap.getD a a
  match x.spare with
  | none => s.fence d 1
  | some q =>
    s.modDie d fun x =>
      { x with retiring := some (a, p, q), slotSt := x.slotSt.set p .retiring, retireReq := x.retireReq.filter (· != a) }

/-- Step 2 of R466: at most one retirement per die, the lowest physical slot first; none in a switch epoch, none on a
die that a pending switch removes (R470). -/
def State.retirements (s : State) : State :=
  if s.vs.inSwitch then s
  else (List.range 8).foldl (fun s d =>
    let x := s.die d
    let kept := match s.vs.pending with
      | some (v, _) => bit ((s.variantRec v).getD {}).dieMask d
      | none => true
    if x.fenced || x.retiring.isSome || !kept then s
    else
      let due := s.dueArrays d
      let s := if due.isEmpty || s.policy 0 then s else s.recommend 0
      let want := x.retireReq ++ (if s.policy 0 then due else [])
      match sortBy (fun a => x.slotMap.getD a a) want with
      | [] => s
      | a :: _ => s.startRetirement d a) s

/-! ## The permitted gear (R473) -/

/-- The reading of a die's hottest sensor after R528: a stack's counts 10 °C more. -/
def State.sensor (s : State) (d : Nat) : Int := (s.die d).temp + if 10 ≤ d then 10 else 0

/-- The junction temperatures of the sixteen dies. -/
def State.temps (s : State) : List Int := (List.range 16).map s.sensor

/-- The hottest reading. -/
def State.hottest (s : State) : Int := s.temps.foldl max 0

/-- Package power in mW. -/
def State.packageMw (s : State) : Nat := ((List.range 16).map fun d => (s.die d).powerMw).sum

/-- The permitted gear is to step down (R473): ten hot samples in a row, or power over the limit, and no hold of an
earlier step. -/
def State.gearDue (s : State) : Bool :=
  (s.hm.hot.any (fun e => decide (10 ≤ e.2)) || s.hm.overPower) && decide (s.hm.gear < 3) && decide (s.hm.stepHold ≤ s.tm.now)

/-- The permitted gear becomes g (R473). -/
def State.permitGear (s : State) (g : Nat) : State := ({ s with hm := { s.hm with gear := g } }).log 0x14 0xFF 0 g

/-- Step 3 of R466: never faster than GEAR_CEILING; one gear down when due, by policy. -/
def State.gearStep (s : State) : State :=
  let s := if s.hm.gear < s.hm.gearCeiling then s.permitGear s.hm.gearCeiling else s
  if s.gearDue then (if s.policy 2 then s.permitGear (s.hm.gear + 1) else s.recommend 2) else s

/-- After a step down no other follows until 100 ms after the resulting switch takes effect (R473). -/
def State.holdGear (s : State) : State :=
  let hold := match s.vs.pending with
    | some (_, e) => s.absEpoch e * epochNs + 100000000
    | none => s.tm.now + 100000000
  { s with hm := { s.hm with stepHold := hold } }

/-! ## Memory pressure (R476) and throttling (R477) -/

/-- Step 4 of R466, first part: an epoch that ends enters MP, and the pressure turns active or inactive. -/
def State.memPressure (s : State) : State :=
  let h := s.hm
  let bits := (h.mpNow :: h.mpBits).take 1000
  let mp := (bits.filter id).length
  let low := if 4 * mp ≤ h.memLimit then h.mpLow + 1 else 0
  let act := if h.memLimit < mp then true else if 10000 ≤ low then false else h.mpActive
  let s := { s with hm := { h with mpBits := bits, mpNow := false, mpLow := low, mpActive := act } }
  if act == h.mpActive then s else s.log 0x18 0xFF 0 (b2n act)

/-- A program's capacity per epoch in a template (R477). -/
def capacityOf (t : Template) (prog : Nat) : Nat :=
  (t.slots.filter fun r => r.kind == 0 && r.prog == prog).foldl (fun n r => n + r.batch) 0

/-- Jobs of a program that are receipted or PENDING and not bound (R477). -/
def State.waitingJobs (s : State) (prog : Nat) : Nat :=
  (s.jobs.filter fun j => j.prog == prog && (j.st == .queued || j.st == .pending)).length

/-- No variant of the plan is selectable, so every program is throttled (R472, R477). -/
def State.throttlesAll (s : State) : Bool := s.plan.isSome && s.selectables.isEmpty

/-- Step 5 of R466: throttling of one program, by policy, and of every program, mandatory. -/
def State.throttling (s : State) : State :=
  match s.plan with
  | none => s
  | some p =>
    let v := match s.vs.pending with
      | some (v, _) => (s.variantRec v).getD {}
      | none => s.variant
    let t := s.templateOf v
    let s := p.programs.foldl (fun s g =>
      let c := capacityOf t g.prog
      let n := s.waitingJobs g.prog
      let on := c == 0 || decide (s.hm.horizon * c < n)
      let off := c != 0 && decide (2 * n ≤ s.hm.horizon * c)
      let is := s.hm.throttled.contains g.prog
      if on && !is then
        (if s.policy 5 then
          let l := s.hm.throttled ++ [g.prog]
          ({ s with hm := { s.hm with throttled := l } }).log 0x16 0xFF g.prog (g.prog + 65536)
        else s.recommend 5)
      else if off && is then
        let l := s.hm.throttled.filter (· != g.prog)
        ({ s with hm := { s.hm with throttled := l } }).log 0x16 0xFF g.prog g.prog
      else s) s
    let all := s.selectables.isEmpty
    if all == s.hm.throttleAll then s
    else ({ s with hm := { s.hm with throttleAll := all } }).log 0x16 0xFF 0 (0xFFFF + 65536 * b2n all)

/-- The health manager's evaluation at an epoch boundary, in the order of R466. -/
def State.evaluateHealth (s : State) : State :=
  let s := s.dueFences.softFences.retirements
  let down := s.gearDue && s.policy 2
  let s := s.gearStep.memPressure.evaluateVariant
  let s := if down then s.holdGear else s
  s.throttling.replaceCheck

/-! ## SAFE (R442, R486) -/

/-- The vault is wiped (R442): derived keys, sessions, ephemeral keys, the DRBG state and an unwrapped share. -/
def State.wipeVault (s : State) : State :=
  let links : SMap Link := s.links.map fun e =>
    (e.1, { e.2 with session := false, keys := [], th := [], rekey := none, ephKey := 0 })
  let tens : SMap Tenant := s.tenants.map fun e => (e.1, { e.2 with offer := none })
  { s with
    links := links, tenants := tens
    sec := { s.sec with vaultId := false, vaultWrap := false, vaultShare := none, drbgUp := false, operands := false } }

/-- Entry to SAFE by a row of R485 (R486): slots are abandoned, links stop, the domain is left, the vault is wiped, the
stacks refresh themselves, FAULT_N is asserted. -/
def State.enterSafe (s : State) (row : Nat) : State :=
  if s.pw.part = .safe ∨ s.pw.part = .off then s
  else
    let dom := if s.dom.st = .standalone then s.dom else { s.dom with st := .left }
    let rs := s.runs.filter fun r => !r.abandoned
    let s := (({ s with dom := dom }).abandonRuns rs true 2 0)
    let links : SMap Link := s.links.map fun e => (e.1, { e.2 with st := .down, width := 0, opens := [] })
    let s := ({ s with runs := [], links := links }).wipeVault
    let s := { s with pw := { s.pw with part := .safe, safeRow := row, selfRefresh := true, faultN := true } }
    s.log 0x61 0xFF 0 row

end Sys2Proof.Machine
end

