-- ==== Sys2Proof/Machine/Cells.lean ====
section
/-! DEFINITION. The cells of one array: element-wise operations, the accumulator file, folds, transforms, the network
(R78..R101), each as a function of a lane. -/

namespace Sys2Proof.Machine

/-- What a word's operations share: the plan's part, the parameter set, the CRIB slot, OMODE, the detections, the cycle of
the slot on which the word issues, its steps and the cycles a step takes, the issue cycles before its tail, whether it works
on whole limbs; its first row; and the int32 stages ACT and NARROW of the word's result (R103). -/
structure Ctx where
  v : Env := {}
  ps : PSet := {}
  c : CribSlot
  omode : BitVec 2 := 0
  dets : List Detect := []
  base : Nat := 0
  per : Nat := 1
  n : Nat := 1
  issue : Nat := 0
  whole : Bool := false
  /-- the first row that the word reads, or a fold writes. -/
  row0 : Nat := 0
  act : BitVec 2 := 0
  narrow : Bool := false
  nsh : Nat := 0
  nwid : Bool := false
  deriving DecidableEq, Repr

/-- The prime-book entry of the row at position p (R198). -/
def Ctx.prime (k : Ctx) (p : Nat) : PrimeEntry := k.v.limb k.ps (limbAt k.ps k.c p)

/-- The check prime of the word's set. -/
def Ctx.pc (k : Ctx) : Nat := (k.v.prime k.ps.checkIdx).q

/-- The primes of limb positions, and their product. -/
def Ctx.primes (k : Ctx) (base : List Nat) : List Nat := base.map fun j => (k.v.limb k.ps j).q
/-- The product of the primes of limb positions. -/
def Ctx.prod (k : Ctx) (base : List Nat) : Nat := prodL (k.primes base)

/-- The word index within its limb of a cell of the row at position p (R74); the odd array of a pair holds the upper half
(R93). -/
def Ctx.index (k : Ctx) (odd : Bool) (p cell : Nat) : Nat :=
  (if odd then 65536 else 0) + (k.row0 + p) % rowsPerLimb k.ps * 256 + cell

/-! ## Detections and the choice of the fault (R46, R65, R76, R83, R88, R94, R101, R226, R228) -/

/-- The row of the word a detection names. -/
def Ctx.detRow (k : Ctx) (d : Detect) : Nat := if k.whole then d.step else d.step % cribRows k.c

/-- The cycle of a detection: not before the step it names, and for a transform checksum in the word's tail (log 70). -/
def Ctx.detCycle (k : Ctx) (d : Detect) : Nat :=
  if d.kind = .transform then k.base + k.issue + d.cycle % 64
  else k.base + max d.cycle (d.step % max 1 k.n * k.per)

/-- The fault a detection stands for; none for a corrected or an undetected error. -/
def detFault (k : Ctx) (d : Detect) : Option Flt :=
  let p := k.detRow d
  let limb := limbAt k.ps k.c p
  let f : Flt := { kind := 2, cycle := k.detCycle d, odd := d.odd }
  match d.kind with
  | .reduction => some { f with kind := 1, point := 6, limb := limb, index := k.index d.odd p d.cell }
  | .recomposition => some { f with kind := 1, point := 6, limb := limb, index := k.index d.odd p d.cell }
  | .transform => some { f with kind := 1, point := 7, limb := limb }
  | .perm => some { f with kind := 3, limb := limb }
  | .cribUncorr => some { f with sub := 1, limb := limb, index := k.index d.odd p d.cell }
  | .accUncorr => some { f with sub := 2, index := d.cell }
  | .storeUncorr => some { f with sub := 3 }
  | .loftUncorr => some { f with sub := 4, index := d.cell, port := d.port }
  | .cribCorr => none
  | .accCorr => none
  | .loftCorr => none
  | .wrong _ => none

/-- Rank of a fault kind on a tie (R88, R228). -/
def kindRank (kind : Nat) : Nat :=
  match kind with
  | 1 => 0 | 2 => 1 | 3 => 2 | 4 => 3 | 5 => 4 | 6 => 5 | 7 => 6 | 8 => 7 | _ => 8

/-- Of two faults, the one the record reports (R88, R228): of two failing transforms that of the lower limb (R46). -/
def earlier (f g : Flt) : Flt :=
  if f.point = 7 ∧ g.point = 7 then (if f.limb ≤ g.limb then f else g)
  else if f.cycle < g.cycle ∨ (f.cycle = g.cycle ∧ kindRank f.kind ≤ kindRank g.kind) then f else g

/-- The fault of several that the record reports. -/
def earliest : List Flt → Option Flt
  | [] => none
  | f :: r => some (r.foldl earlier f)

/-- Stop a lane with the faults found on it: the record reports one, the others are only counted (R65, R88); those on data of a
position whose input is invalid do not stop it (R412). -/
def Lane.stop (l : Lane) (fs : List Flt) : Lane :=
  let l := { l with quiet := l.quiet ++ fs.filter fun f => l.bad.contains f.pos }
  let fs := fs.filter fun f => !l.bad.contains f.pos
  match earliest fs with
  | some f => { l with fault := some f, lost := l.lost ++ fs.erase f }
  | none => l

/-- What detectors report on a lane, each with the step it names; the data of a step are those of the crib row the step reads
(R538). -/
def laneReports (k : Ctx) (l : Lane) : List (Nat × Flt) :=
  k.dets.filterMap fun d =>
    if d.odd = l.odd then
      (detFault k d).map fun f =>
        (if k.whole then d.step else d.step % max 1 k.n, { f with pos := (rowState l.x (k.c.arow.toNat + k.detRow d)).pos })
    else none

/-- The faults that detectors report on a lane: on data of a position whose input is invalid a report is none (R412). -/
def laneFaults (k : Ctx) (l : Lane) : List (Nat × Flt) := (laneReports k l).filter fun d => !l.bad.contains d.2.pos

/-- The effects of a step on the array's stores are left out; its rows are tracked as what the word makes of them. -/
def Lane.unwritten (l' l : Lane) : Lane :=
  { l' with x := { l'.x with
      crib := l.x.crib, acc := l.x.acc, accTag := l.x.accTag, loft := l.x.loft
      written := l.x.written, track := l.x.track, touched := l.x.touched, posOf := l.x.posOf } }

/-- What a step takes from the queues, the rows its ports have gone on by, how far it has come, its encoder's cycles and the
states of its rows: these follow the plan, whatever faults (R206, R319). -/
def Lane.paced (l r : Lane) : Lane :=
  { l with free := r.free, x := { l.x with
      aq := r.x.aq, oq := r.x.oq, ports := r.x.ports, wip := r.x.wip, cycle := r.x.cycle, rowSt := r.x.rowSt } }

/-- A step is done. -/
def Lane.did (l : Lane) (s : Nat) : Lane := { l with x := { l.x with wip := { l.x.wip with step := s + 1 } } }

/-- A step of a word that has faulted before (R209, R319): what is paced goes on, nothing is written. -/
def Lane.idleStep (f : Lane → Nat → Lane) (l : Lane) (s : Nat) : Lane :=
  let r := f { l with idle := true, fault := none } s
  if r.starved then { l with starved := true } else (l.paced r).did s

/-- A step of a word on a lane: not again when it is done already; idle when a fault was detected on an earlier cycle (R85,
R209); without its writes when a detector reports it; a step that finds a queue empty is still to do (R190). -/
def Lane.step (k : Ctx) (idle : Bool) (f : Lane → Nat → Lane) (l : Lane) (s : Nat) : Lane :=
  if l.starved || decide (s < l.x.wip.step) then l
  else if idle then l.idleStep f s
  else
    let ds := laneFaults k l
    let due := ds.map (·.2)
    let lost := (ds.filter fun d => d.1 == s && d.2.kind == 2 && d.2.sub == 4).filterMap fun d => nextRow l.x d.2.port
    let l := { l with rows := l.rows ++ lost }
    let r := f l s
    if r.starved then { l with starved := true }
    else match r.fault with
      | some g =>
        let q := l.idleStep f s
        if q.starved then { l with starved := true }
        else ({ r with fault := none }.paced q).stop (g :: due)
      | none => (if ds.any fun d => d.1 == s && d.2.point != 7 then r.unwritten l else r).did s

/-- Words of a row as read at step s: a word an undetected error has changed reads as that value (R535). -/
def seen (k : Ctx) (odd : Bool) (s : Nat) (ws : List Nat) : List Nat :=
  k.dets.foldl (fun ws d => match d.kind with
    | .wrong v => if d.step = s ∧ d.odd = odd then ws.set d.cell v.toNat else ws
    | _ => ws) ws

/-- The first word of a row that is not below a modulus (R79). -/
def firstBad (q : Nat) (ws : List Nat) : Option Nat := ws.findIdx? fun w => decide (q ≤ w)

/-- The fault of R79: a residue operand not below its prime. -/
def operandFault (k : Ctx) (odd : Bool) (s p cell pos : Nat) : Flt :=
  { kind := 1, point := 6, limb := limbAt k.ps k.c p, index := k.index odd p cell, cycle := k.base + s, pos := pos }

/-- The first word of two operand rows that is not below a modulus, and the position its data belong to. -/
def badOf (q : Nat) (a b : Option (List Nat × Nat)) : Option (Nat × Nat) :=
  let one (r : Option (List Nat × Nat)) : Option (Nat × Nat) :=
    r.bind fun r => (firstBad q r.1).map fun i => (i, r.2)
  match one a with
  | some r => some r
  | none => one b

/-! ## Element-wise operations (R80) -/

/-- The B operand of a cell operation at step s (R78, R199): its words and its tracked state. -/
def cellB (k : Ctx) (cs : CellSlot) (l : Lane) (s p : Nat) : Lane × List Nat × RowSt :=
  match cs.bsrc.toNat with
  | 0 => (l, cribRow l.x (k.c.brow.toNat + p), rowState l.x (k.c.brow.toNat + p))
  | 1 =>
    let r := portRead k.v (k.base + s) l 0
    (r.1, toWords r.2.1, r.2.2)
  | 2 =>
    let r := operandAt k.omode (rowsPerLimb k.ps) s p l l.x.wip.last1
    ({ r.1 with x := { r.1.x with wip := { r.1.x.wip with last1 := r.2 } } }, List.replicate 256 r.2, {})
  | _ => (l, List.replicate 256 cs.const.toNat, {})

/-- The integer k of a K or SK field (R80): −15..15; the code of −16 is reserved and reads as 0 (R7). -/
def smallK (k : BitVec 5) : Int := if k = 16 then 0 else sNat 5 k.toNat

/-- The result word of a modular cell operation (R80): opcodes 2..7. -/
def cellWord (opc : Nat) (e : PrimeEntry) (kk : Int) (c a b : Nat) : Nat :=
  match opc with
  | 2 => addMod e.q a b
  | 3 => subMod e.q a b
  | 4 => negMod e.q a
  | 5 => intMod e.q (kk * a)
  | 6 => barrett e.kbits e.mu e.q (a * b)
  | 7 => barrett e.kbits e.mu e.q (a * c)
  | _ => a

/-- A correction term is one of the sheaf a row belongs to. -/
def Conv.ofSheaf (d : Conv) (t : RowSt) : Bool := t.tracked && d.handle == t.handle && d.poly == t.poly

/-- The state of a sum or a difference (R52). -/
def sumState (a b : RowSt) : BitVec 4 := if a.tracked && b.tracked then BitVec.ofNat 4 (stAdd a.cst.toNat b.cst.toNat) else 14

/-- What a linear operation leaves of what a row is known to be: rows made from the folds of a fast base conversion, or from
the limbs of an exact base extension, are known as such until the sheaf has them all (R52). -/
def RowKind.linear : RowKind → RowKind
  | .part d => .conv d
  | .conv d => .conv d
  | .less d _ => .conv d
  | .ext d => .ext d
  | _ => .limb

/-- The tracked state of a sum or a difference of rows (R52); OPEN when they are made from two conversions. -/
def sumRowState (a b : RowSt) : RowSt :=
  let r := { a with cst := sumState a b, drop := [], stage := false, kind := .limb }
  match a.kind.linear, b.kind.linear with
  | .limb, y => { r with kind := y }
  | x, .limb => { r with kind := x }
  | x, y => if x = y then { r with kind := x } else { r with cst := 14 }

/-- The tracked state of a difference of the rows at a limb position (R52, R53, R66..R68): a limb less its correction term
lacks only the drop's factor; σ_c less the check limb is the first step of an exact base extension, and σ_p less α [Q]_p its
last, at allowance 0. -/
def subState (lpos : Nat) (a b : RowSt) : RowSt :=
  let r := sumRowState a b
  match a.kind, b.kind with
  | .limb, .part d => if d.ofSheaf a && d.inv == d.mul then { r with kind := .less d a.cst.toNat } else r
  | .part d, .limb =>
    if lpos = 0x7F ∧ d.ofSheaf b = true ∧ !d.inv ∧ !d.mul ∧ !d.lift then { r with cst := 14, kind := .count d b.cst.toNat 0 } else r
  | .part d, .count d' _ 3 => if d = d' then { r with tracked := true, cst := 0, kind := .ext d } else r
  | _, _ => r

/-- The tracked state of a row multiplied by a constant residue c modulo q (R52): OPEN, but for the factor that ends a drop
with correction, at the allowance of R66, R67, R68 or R130. -/
def mulcState (k : Ctx) (q c : Nat) (a : RowSt) : RowSt :=
  let r := { a with cst := 14, kind := .limb, drop := [], stage := false }
  if !a.tracked then r
  else match a.kind with
    | .limb => { r with kind := .times c }
    | .times d => { r with kind := .times (mulMod q c d) }
    | .part d => if d.inv && !d.mul && c == k.ps.t % q then { a with kind := .part { d with mul := true } } else r
    | .less d w =>
      if c = invMod q (k.prod d.base % q) then
        { r with cst := BitVec.ofNat 4 (capState (w + if d.mul then 2 else if d.lift then 0 else 1)), drop := d.base }
      else r
    | .count d w 0 => if c = invMod q (k.prod d.base % q) then { r with kind := .count d w 1 } else r
    | .count d w 2 => if c = k.prod d.base % q then { r with kind := .count d w 3 } else r
    | _ => r

/-- The tracked state of a modular result at a limb position (R52). -/
def cellState (k : Ctx) (lpos q opc : Nat) (kk : Int) (c : Nat) (a b : RowSt) : RowSt :=
  let flat (w : BitVec 4) : RowSt :=
    { a with cst := w, kind := if w = 14 then .limb else a.kind.linear, drop := [], stage := false }
  let r := match opc with
    | 1 => a
    | 2 => sumRowState a b
    | 3 => subState lpos a b
    | 4 => flat a.cst
    | 5 => flat (BitVec.ofNat 4 (stScal kk a.cst.toNat))
    | 7 => mulcState k q c a
    | _ => flat 14
  { r with lpos := lpos, pos := if opc = 2 ∨ opc = 3 ∨ opc = 6 then joinPos a.pos b.pos else a.pos }

/-- A crib row of a POISONED sheaf is read (R63 step 2). -/
def poisoned (t : RowSt) : Bool := t.bad || t.tracked && t.cst == 15

/-- The opcode reads a B operand. -/
def cellReadsB (opc : Nat) : Bool := opc == 2 || opc == 3 || opc == 6 || opc == 8 || opc == 9 || opc == 12

/-- The first coefficient of an exact base extension over L limbs at allowance w whose α is outside −w..L + w (R57); the first
of all when the source is OPEN (R61). -/
def windowBad (l w : Nat) (as : List Int) : Option Nat :=
  if 13 < w then some 0 else as.findIdx? fun a => decide (a < -(w : Int) ∨ (l + w : Int) < a)

/-- The coefficient at which the window test of an exact base extension that a difference ends fails: `bs` are the words
α [Q]_p modulo the prime q of the row (R53, R57). -/
def extensionBad (k : Ctx) (q : Nat) (a b : RowSt) (bs : List Nat) : Option Nat :=
  match a.kind, b.kind with
  | .part d, .count d' w 3 =>
    if d = d' then
      windowBad d.base.length w (bs.map fun x => centred q (mulMod q x (invMod q (k.prod d.base % q))))
    else none
  | _, _ => none

/-- One step of an element-wise cell operation (R80): MOVE, MADD, MSUB, MNEG, MSCAL, MMUL, MMULC. -/
def cellStep (k : Ctx) (cs : CellSlot) (l : Lane) (s : Nat) : Lane :=
  let p := s % cribRows k.c
  let opc := cs.opc.toNat
  let e := k.prime p
  let two := cellReadsB opc
  let a := seen k l.odd s (cribRow l.x (k.c.arow.toNat + p))
  let ta := rowState l.x (k.c.arow.toNat + p)
  let r := if two then cellB k cs l s p else (l, [], {})
  let l := r.1
  if !l.ok then l
  else if !l.idle && (poisoned ta || poisoned r.2.2) then
    l.fail { kind := 1, sub := 1, cycle := k.base + s, pos := joinPos ta.pos r.2.2.pos }
  else
    match l.test (if opc = 1 then none else badOf e.q (some (a, ta.pos)) (if two then some (r.2.1, r.2.2.pos) else none)) with
    | some i => l.fail (operandFault k l.odd s p i.1 i.2)
    | none =>
      match l.test (if opc = 3 then extensionBad k e.q ta r.2.2 r.2.1 else none) with
      | some i => l.fail { kind := 1, point := 1, index := k.index l.odd p i, cycle := k.base + s, pos := ta.pos }
      | none =>
        let kk := smallK cs.k
        let c := cs.const.toNat
        let ws := if two then (a.zip r.2.1).map fun w => cellWord opc e kk c w.1 w.2
          else a.map fun w => cellWord opc e kk c w 0
        let d := k.c.drow.toNat + p
        { l with x := setRowState (setCribRow l.x d ws) d (cellState k (limbAt k.ps k.c p) e.q opc kk c ta r.2.2) }

/-! ## Accumulating operations (R80, R83..R85, R89, R90) -/

/-- The entry of step s (R200). -/
def accEntry (a : AccSlot) (s : Nat) : Nat := (a.e0.toNat + s / (a.ediv.toNat + 1)) % 64

/-- Steps of a word with an accumulate slot: ROWS × REP (R198, R200). -/
def accSteps (c : CribSlot) (a : AccSlot) : Nat := cribRows c * (a.rep.toNat + 1)

/-- Signed int8 products of two words, summed (R89). -/
def int8Dot (a b : Nat) : Int :=
  (List.range 4).foldl (fun t m => t + sNat 8 (a / 256 ^ m % 256) * sNat 8 (b / 256 ^ m % 256)) 0

/-- The term of a lazy sum (R80): MAC 8, MACN 9, MACC 10, ALPHA 11. -/
def accTerm (opc q c a b : Nat) : Nat :=
  match opc with
  | 8 => a * b
  | 9 => a * ((q - b) % q)
  | 10 => a * c
  | _ => a * alphaF q / 2 ^ 32

/-- Add a term to an entry of one cell (R80, R82). DESIGN CHOICE (log 71): the manual gives CKR 0 after ALPHA and says no more;
a MAC, MACN or MACC term that follows adds its residue to that 0. -/
def accAdd (opc q pc c a b : Nat) (e : Acc) : Acc :=
  let t := accTerm opc q c a b
  { e with
    value := e.value + BitVec.ofNat 72 t
    fc := e.fc + 1
    ckr := if opc = 11 ∨ pc = 0 then 0 else (e.ckr + t) % pc
    alpha := e.alpha || opc == 11 }

/-- The int32 sum of an entry (R83). -/
def accInt (e : Acc) : Int := sNat 32 (e.value.toNat % 2 ^ 32)

/-- Add an int8 group to an entry of one cell, with SAT on a clamp (R89, R90). -/
def immaAdd (a b : Nat) (e : Acc) : Acc × Nat :=
  let r := sat32Flag (accInt e + int8Dot a b)
  ({ e with int32 := true, value := BitVec.ofNat 72 (wrapW 32 r.1) }, r.2)

/-- What the part tracks of an entry after a term of the row `ta` with words `a` (R52, R53). -/
def tagAdd (opc lpos c : Nat) (ta : RowSt) (a : List Nat) (pos : Nat) (t : AccTag) : AccTag :=
  let t := { t with pos := joinPos t.pos pos }
  let y (by' : Nat) : AccTag :=
    if ta.tracked && !ta.evalDom && (t.src == none || t.src == some (ta.handle, ta.poly)) then
      { t with src := some (ta.handle, ta.poly), terms := t.terms ++ [(lpos, by', c)] }
    else { t with pure := false }
  if opc != 10 || !t.pure then { t with pure := false }
  else match ta.kind with
    | .limb => y 1
    | .times d => y d
    | .count d w 2 => if t.count.isNone then { t with count := some (d, w, c, a) } else { t with pure := false }
    | _ => { t with pure := false }

/-- Stop a lane with a fault, and with another of the same cycle that is only counted (R65, R88). -/
def Lane.failWith (l : Lane) (f : Flt) (g : Option Flt) : Lane :=
  if l.idle then l
  else if l.bad.contains f.pos then g.toList.foldl Lane.fail (l.fail f)
  else { l.fail f with lost := l.lost ++ (g.map fun g => { g with odd := l.odd }).toList }

/-- The FOLD fault of a term added to an entry's cells (R84, R85, R89): 1 a 257th term, 2 the other mode. -/
def termFault (imma : Bool) (cells : List Acc) : Option Nat :=
  if imma then (if cells.any fun x => !x.int32 && x.fc != 0 then some 2 else none)
  else if cells.any (·.int32) then some 2
  else if cells.any fun x => decide (256 ≤ x.fc) then some 1
  else none

/-- One step of an accumulating operation: a residue operand that R79 does not take ranks before the entry's FOLD fault of the
same cycle, which is then counted (R88). -/
def accStep (k : Ctx) (cs : CellSlot) (as : AccSlot) (l : Lane) (s : Nat) : Lane :=
  let p := s % cribRows k.c
  let opc := cs.opc.toNat
  let e := k.prime p
  let ent := accEntry as s
  let two := cellReadsB opc
  let a := seen k l.odd s (cribRow l.x (k.c.arow.toNat + p))
  let ta := rowState l.x (k.c.arow.toNat + p)
  let r := if two then cellB k cs l s p else (l, List.replicate 256 0, {})
  let l := r.1
  let pos := joinPos ta.pos r.2.2.pos
  let cells := accCells l.x ent
  let tag := mget {} l.x.accTag ent
  let term := l.test (termFault (opc == 12) cells)
  let fold : Option Flt := term.map fun sub => { kind := 4, sub := sub, cycle := k.base + s, pos := joinPos tag.pos pos }
  let l := if term = some 1 then { l with x := orStatus l.x fFOV } else l
  if !l.ok then l
  else if !l.idle && (poisoned ta || poisoned r.2.2) then
    l.failWith { kind := 1, sub := 1, cycle := k.base + s, pos := pos } fold
  else if opc = 12 then
    match fold with
    | some f => l.fail f
    | none =>
      let res := (cells.zip (a.zip r.2.1)).map fun c => immaAdd c.2.1 c.2.2 c.1
      let x := setAccCells l.x ent (res.map (·.1))
      { l with x := { orStatus x (res.foldl (fun f c => f ||| c.2) 0) with
          accTag := mset {} x.accTag ent { pure := false, pos := joinPos tag.pos pos } } }
  else
    match l.test (badOf e.q (some (a, ta.pos)) (if two then some (r.2.1, r.2.2.pos) else none)) with
    | some i => l.failWith (operandFault k l.odd s p i.1 i.2) fold
    | none =>
      match fold with
      | some f => l.fail f
      | none =>
        let cells := (cells.zip (a.zip r.2.1)).map fun c =>
          accAdd opc e.q k.pc cs.const.toNat c.2.1 c.2.2 c.1
        let x := setAccCells l.x ent cells
        let tag := tagAdd opc (limbAt k.ps k.c p) cs.const.toNat ta a pos tag
        { l with x := { x with accTag := mset {} x.accTag ent tag } }

/-! ## Folds (R80, R81) -/

/-- The correction term that an entry holds when it is folded modulo q: only MACC terms over the y_j of one sheaf, one for
each limb of a base, with the constants [Q/q_j] (R52, R53); or those of R130 with x × t^-1, or with t times the sum. -/
def tagConv (k : Ctx) (t : AccTag) (q : Nat) : Option Conv :=
  let base := t.terms.map (·.1)
  let qs := k.primes base
  match t.src with
  | some (h, n) =>
    if t.pure && !t.terms.isEmpty && uniq base then
      [(false, false), (true, false), (true, true)].findSome? fun (f : Bool × Bool) =>
        let scale (b : Bool) : Nat := if b then k.ps.t else 1
        if t.terms.zipIdx.all fun e =>
            let qj := qs.getD e.2 1
            e.1.2.1 == invMod qj (qHat qs e.2 qj * scale f.1) && e.1.2.2 == qHat qs e.2 q * scale f.2 % q
        then some { handle := h, poly := n, base := base, inv := f.1, mul := f.2 } else none
    else none
  | none => none

/-- The word a fold writes for one cell, the cell's entry after it, and whether its reduction check fails (R80..R82);
`free` is the value of a fold of an ALPHA entry, which the manual does not state. -/
def foldCell (keep : Bool) (e : PrimeEntry) (pc free : Nat) (c : Acc) : Nat × Acc × Bool :=
  if c.int32 then (c.value.toNat % 2 ^ 32, if keep then c else {}, false)
  else
    let r := if c.alpha then free % 2 ^ 32 else reduceLazy e.c64 e.q c.value.toNat
    let bad := decide (pc ≠ 0 ∧ c.value.toNat % pc ≠ c.ckr)
    (r, if keep then { value := BitVec.ofNat 72 r, fc := 1, ckr := if pc = 0 then 0 else r % pc } else {}, bad)

/-- The int32 epilogue stages on one word (R103): ACT, then NARROW with SAT on a clamp. -/
def intStage (k : Ctx) (lo hi : Word) (w : Nat) : Nat × Nat :=
  let v := sNat 32 w
  let v := if k.act = 1 then max v 0 else if k.act = 2 then min (max v (sNat 32 lo.toNat)) (sNat 32 hi.toNat) else v
  if k.narrow then
    let n := shiftRne k.nsh v
    let b := if k.nwid then 16 else 8
    if n < intMin b then (wrapW 32 (intMin b), fSAT)
    else if intMax b < n then (wrapW 32 (intMax b), fSAT)
    else (wrapW 32 n, 0)
  else (wrapW 32 v, 0)

/-- An exact base extension ends in this fold (R53): its terms are σ_p and the α row times −[Q]_p. -/
def tagExtends (k : Ctx) (t : AccTag) (q : Nat) (d : Conv) : Bool :=
  match t.count with
  | some (d', _, c, _) => d == d' && c == (q - k.prod d.base % q) % q
  | none => false

/-- The tracked state of a fold's row (R52): of the sheaf whose limb its D row held; a correction term of a fast base
conversion, or the limb of an exact base extension, at 0; OPEN otherwise. -/
def foldState (k : Ctx) (lpos q : Nat) (t : AccTag) (old : RowSt) : RowSt :=
  let r : RowSt :=
    { tracked := true, handle := if old.tracked then old.handle else 256, poly := old.poly, lpos := lpos, pos := t.pos }
  match tagConv k t q with
  | some d =>
    if t.count.isNone then { r with cst := if d.inv || d.mul then 14 else 0, kind := .part d }
    else if tagExtends k t q d then { r with cst := 0, kind := .ext d } else r
  | none => r

/-- The coefficient at which the window test of an exact base extension that a fold ends fails (R57). -/
def foldBad (k : Ctx) (q : Nat) (t : AccTag) : Option Nat :=
  match tagConv k t q, t.count with
  | some d, some (_, w, _, ws) =>
    if tagExtends k t q d then windowBad d.base.length w (ws.map (centred q)) else none
  | _, _ => none

/-- One step of a fold. DESIGN CHOICE (log 87): ACT and NARROW change the words of int32 entries alone. -/
def foldStep (k : Ctx) (as : AccSlot) (keep : Bool) (l : Lane) (s : Nat) : Lane :=
  let p := s % cribRows k.c
  let ent := accEntry as s
  let e := k.v.prime as.fprime.toNat
  let cells := accCells l.x ent
  let t := mget {} l.x.accTag ent
  let res := cells.zipIdx.map fun c => foldCell keep e k.pc (Config.freeWord (l.free + c.2)).toNat c.1
  let l := { l with free := l.free + 256 }
  match l.test (res.findIdx? fun r => r.2.2) with
  | some i =>
    l.fail { kind := 1, point := 6, limb := limbAt k.ps k.c p, index := k.index l.odd p i, cycle := k.base + s, pos := t.pos }
  | none =>
    match l.test (foldBad k e.q t) with
    | some i => l.fail { kind := 1, point := 1, index := k.index l.odd p i, cycle := k.base + s, pos := t.pos }
    | none =>
      let d := k.c.drow.toNat + p
      let int := cells.any (·.int32)
      let ws := (cells.zip (seen k l.odd s (res.map (·.1)))).map fun c =>
        if c.1.int32 then intStage k l.x.clampLo l.x.clampHi c.2 else (c.2, 0)
      let x := setCribRow l.x d (ws.map (·.1))
      let x := orStatus x (ws.foldl (fun f w => f ||| w.2) 0)
      let x := setAccCells x ent (res.map (·.2.1))
      let x := { x with accTag := mset {} x.accTag ent (if keep then { pure := false, pos := t.pos } else {}) }
      let st := if int then { pos := t.pos } else foldState k (limbAt k.ps k.c p) e.q t (rowState l.x d)
      { l with x := setRowState x d st }

/-! ## Transforms and the network (R91..R101) -/

/-- The words of a limb from base row b of one array. -/
def limbWords (x : Arr) (b rpl : Nat) : List Nat := (List.range rpl).flatMap fun i => cribRow x (b + i)

/-- Write a limb's words from base row b. -/
def setLimbWords (x : Arr) (b rpl : Nat) (ws : List Nat) : Arr :=
  (List.range rpl).foldl (fun x i => setCribRow x (b + i) ((ws.drop (i * 256)).take 256)) x

/-- Set the tracked state of a limb's rows. -/
def setLimbState (x : Arr) (b rpl : Nat) (t : RowSt) : Arr :=
  (List.range rpl).foldl (fun x i => setRowState x (b + i) t) x

/-- The lanes of a word: one array, or the pair at N = 2^17 (R93). -/
abbrev Lanes := Lane × Option Lane

/-- Every lane goes on. -/
def lanesOk (l : Lanes) : Bool := l.1.ok && (match l.2 with | some o => o.ok | none => true)

/-- Run one array's work on each lane. -/
def eachLane (f : Lane → Lane) (l : Lanes) : Lanes := (f l.1, l.2.map f)

/-- A lane lacks a queue entry (R190). -/
def starved (l : Lanes) : Bool := l.1.starved || (match l.2 with | some o => o.starved | none => false)

/-- A limb of the lanes: from base row b, the odd array's words after the even's. -/
def lanesLimb (l : Lanes) (b rpl : Nat) : List Nat :=
  limbWords l.1.x b rpl ++ (match l.2 with | some o => limbWords o.x b rpl | none => [])

/-- The tracked state of a limb of the lanes: the weaker of the halves of a pair. -/
def lanesLimbState (l : Lanes) (b rpl : Nat) : RowSt :=
  let t := limbRowState l.1.x b rpl
  match l.2 with
  | some o => weakerRow (limbRowState o.x b rpl) t
  | none => t

/-- Write a limb of the lanes with its tracked state. -/
def setLanesLimb (l : Lanes) (b rpl : Nat) (ws : List Nat) (t : RowSt) : Lanes :=
  ({ l.1 with x := setLimbState (setLimbWords l.1.x b rpl ws) b rpl t },
    l.2.map fun o => { o with x := setLimbState (setLimbWords o.x b rpl (ws.drop (rpl * 256))) b rpl t })

/-- The words of a limb as its rows read (R535). -/
def limbSeen (k : Ctx) (p rpl : Nat) (ws : List Nat) : List Nat :=
  k.dets.foldl (fun ws d => match d.kind with
    | .wrong v =>
      if p ≤ d.step ∧ d.step < p + rpl then ws.set ((if d.odd then 65536 else 0) + (d.step - p) * 256 + d.cell) v.toNat else ws
    | _ => ws) ws

/-- What a limb's destination holds when the network stops on source row i: the words routed from earlier rows are
written, the others are as before (R101, log 67). -/
def routedBefore (i : Nat) (f : List Nat → List Nat) (ws old : List Nat) : List Nat :=
  let from' := f (ws.zipIdx.map fun w => if w.2 % 65536 / 256 < i then 1 else 0)
  ((f ws).zip (from'.zip old)).map fun w => if w.2.1 = 0 then w.2.2 else w.1

/-- The faults that detectors report on the lanes. -/
def lanesFaults (k : Ctx) (l : Lanes) : List (Nat × Flt) :=
  laneFaults k l.1 ++ (match l.2 with | some o => laneFaults k o | none => [])

/-- Stop the lanes with faults: each at the array that detected it (R94), the one of them all that R88 reports. -/
def stopLanes (l : Lanes) (fs : List Flt) : Lanes :=
  (l.1.stop (fs.filter fun f => !f.odd), l.2.map fun o => o.stop (fs.filter (·.odd)))

/-- A fault is earlier than a cycle. -/
def before (c : Nat) (fs : List Flt) : Bool := fs.any fun f => decide (f.cycle < c)

/-- The word has faulted before a cycle: in an earlier word of its command, in an earlier operation, or in this one. -/
def idles (l : Lanes) (c : Nat) : Bool := l.1.idle || before c l.1.x.pend || !lanesOk l

/-- A step of one array's work on each lane, on one cycle of the word: when either array of a pair faults, the command faults
on both (R94), and what is left of it is idle. -/
def eachStep (k : Ctx) (at' : Nat → Nat) (f : Lane → Nat → Lane) (l : Lanes) (s : Nat) : Lanes :=
  if starved l then l
  else
    let due := (lanesFaults k l).map (·.2)
    let l := if !idles l (at' s) && before (at' s) due then stopLanes l due else l
    let idle := idles l (at' s)
    eachLane (fun l => l.step k idle f s) l

/-- One limb of a whole-limb operation: read at row `src`, write at row `dst`, `f` on its words, `g` on its state; `net`
for an operation of the network, which writes the words it routes cycle by cycle. -/
def limbStep (k : Ctx) (src dst : Nat) (net : Bool) (f : PrimeEntry → List Nat → List Nat) (g : RowSt → RowSt)
    (l : Lanes) (j : Nat) : Lanes :=
  let rpl := rowsPerLimb k.ps
  let p := j * rpl
  let e := k.prime p
  let ds := lanesFaults k l
  let due := ds.map (·.2)
  let t := lanesLimbState l (src + p) rpl
  let t' := { g t with lpos := limbAt k.ps k.c p }
  let track (l : Lanes) : Lanes := eachLane (fun l => { l with x := setLimbState l.x (dst + p) rpl t' }.did j) l
  if j < l.1.x.wip.step then l
  else if idles l (k.base + p) then track l
  else if before (k.base + p) due then track (stopLanes l due)
  else if poisoned t then track (stopLanes l ({ kind := 1, sub := 1, cycle := k.base + p, pos := t.pos } :: due))
  else
    let ws := limbSeen k p rpl (lanesLimb l (src + p) rpl)
    match firstBad e.q ws with
    | some i => track (stopLanes l
        ({ kind := 1, point := 6, limb := limbAt k.ps k.c p, index := i, cycle := k.base + p + i % 65536 / 256
           odd := decide (65536 ≤ i), pos := t.pos } :: due))
    | none =>
      let here := ds.filter fun d => decide (d.1 / rpl = j) && d.2.point != 7
      let old := lanesLimb l (dst + p) rpl
      let ws' := if here.isEmpty then f e ws
        else match (here.filter fun d => net && d.2.kind == 3).head? with
          | some d => routedBefore (d.1 % rpl) (f e) ws old
          | none => old
      eachLane (·.did j) (setLanesLimb l (dst + p) rpl ws' t')

/-- Whole limbs of a row range (R100). -/
def wholeLimbs (ps : PSet) (c : CribSlot) : Nat := cribRows c / rowsPerLimb ps

/-- NTT and INTT of a limb the word names, in place at AROW (R91, R92, R198). -/
def transformStep (k : Ctx) (inv : Bool) (l : Lanes) (j : Nat) : Lanes :=
  limbStep k k.c.arow.toNat k.c.arow.toNat false
    (fun e ws => if inv then intt e.q e.psiInv e.nInv k.ps.logn ws else ntt e.q e.psi k.ps.logn ws)
    (fun t => { t with evalDom := !inv }) l j

/-- AUTO of a whole limb of the word's rows (R97, R98). -/
def autoStep (k : Ctx) (n : NetSlot) (l : Lanes) (j : Nat) : Lanes :=
  limbStep k k.c.arow.toNat k.c.drow.toNat true
    (fun e ws => if n.dom then autoEval k.ps.logn n.gm.toNat ws else autoCoeff e.q k.ps.logn n.gm.toNat ws) id l j

/-- MULX of a whole limb in the coefficient domain, on the network (R99). -/
def mulxLimbStep (k : Ctx) (n : NetSlot) (l : Lanes) (j : Nat) : Lanes :=
  limbStep k k.c.arow.toNat k.c.drow.toNat true (fun e ws => mulxCoeff e.q k.ps.logn n.gm.toNat n.neg ws) id l j

/-- MULX of a row in the evaluation domain: a pointwise product of the row by the words of the transform of ±X^m that its place
in its limb gives (R74), which carries the check
limb as in the coefficient domain (R52, R99). -/
def mulxRowStep (k : Ctx) (n : NetSlot) (l : Lane) (s : Nat) : Lane :=
  let p := s % cribRows k.c
  let e := k.prime p
  let a := seen k l.odd s (cribRow l.x (k.c.arow.toNat + p))
  let t := rowState l.x (k.c.arow.toNat + p)
  if !l.idle && poisoned t then l.fail { kind := 1, sub := 1, cycle := k.base + s, pos := t.pos }
  else match l.test (firstBad e.q a) with
    | some i => l.fail (operandFault k l.odd s p i t.pos)
    | none =>
      let d := k.c.drow.toNat + p
      let ws := mulxEval e.q e.psi k.ps.logn n.gm.toNat n.neg (k.index l.odd p 0) a
      { l with x := setRowState (setCribRow l.x d ws) d { t with lpos := limbAt k.ps k.c p } }

end Sys2Proof.Machine
end

