-- ==== Sys2Proof/Machine/Tensors.lean ====
section
/-! DEFINITION. Tensor records and owners tables (R263..R270): element sizes, rows and extents, the block grid, and the
bytes of one block. -/

namespace Sys2Proof.Machine

/-- Bytes of an element, doubled (R263): W4 takes half a byte. -/
def dtypeHalf (d : Nat) : Nat := match d with
  | 0 => 8 | 1 => 2 | 2 => 4 | 3 => 8 | 4 => 8 | 5 => 4 | 6 => 1 | _ => 2

/-- The access width of a tensor (R264). -/
def widthOf (t : Tensor) : Nat := if t.path = 0 then 1024 else 64

/-- Bytes of a row of `n` elements with its padding (R265). -/
def rowLen (t : Tensor) (n : Nat) : Nat := ((n * dtypeHalf t.dtype + 1) / 2 + widthOf t - 1) / widthOf t * widthOf t

/-- Bytes from the first to the last element's row end of a shape with its strides (R263). -/
def extentOf (t : Tensor) (shape stride : List Nat) : Nat :=
  (List.range 3).foldl (fun n i => n + (shape.getD (i + 1) 1 - 1) * stride.getD i 0) (rowLen t (shape.getD 0 1))

/-- The tensor is distributed (R264). -/
def isDist (t : Tensor) : Bool := bit t.flags 0
/-- A WEIGHT tensor (R264). -/
def isWeight (t : Tensor) : Bool := bit t.flags 1
/-- No command writes the tensor (R264). -/
def isReadOnly (t : Tensor) : Bool := bit t.flags 2

/-- Blocks of a distributed tensor along dimension d (R268). -/
def gridDim (t : Tensor) (o : Owners) (d : Nat) : Nat :=
  let b := max 1 (o.bshape.getD d 1)
  (t.shape.getD d 1 + b - 1) / b

/-- Blocks of a distributed tensor (R268). -/
def gridOf (t : Tensor) (o : Owners) : Nat := (List.range 4).foldl (fun n d => n * gridDim t o d) 1

/-- The grid coordinate of block n along dimension d (R268). -/
def gridCoord (t : Tensor) (o : Owners) (n d : Nat) : Nat :=
  n / (List.range d).foldl (fun m i => m * gridDim t o i) 1 % max 1 (gridDim t o d)

/-- The elements of block n along each dimension: an edge block holds fewer (R268). -/
def blockShape (t : Tensor) (o : Owners) (n : Nat) : List Nat :=
  (List.range 4).map fun d =>
    let b := max 1 (o.bshape.getD d 1)
    min b (t.shape.getD d 1 - gridCoord t o n d * b)

/-- Bytes of block n, with the strides of the full block (R263, R268). -/
def blockExtent (t : Tensor) (o : Owners) (n : Nat) : Nat := extentOf t (blockShape t o n) o.bstride

/-- The tensor an owners table describes. -/
def tensorFor (p : Plan) (o : Owners) : Tensor := (p.tensors.find? fun t => t.id == o.tensor).getD {}

/-- The entries of an owners table with the bytes of their blocks. -/
def blocksOf (p : Plan) (o : Owners) : List (OwnEnt × Nat) :=
  o.ents.zipIdx.map fun e => (e.1, blockExtent (tensorFor p o) o e.2)

end Sys2Proof.Machine
end

