-- ==== Sys2Proof/Machine/Sheaf.lean ====
section
/-! DEFINITION. Sheaves in lofts (R38, R39, R240): the arrays that hold a sheaf's limbs, its limbs and its check limb, its
state in every handle that holds part of it; the states that follow a command's writes (R52); the restoration of a loft row
after an uncorrectable error (R234). -/

namespace Sys2Proof.Machine

/-- The words of one array, or of a pair at N = 2^17, that hold part of a sheaf (R39): the (even) array, none when another
package holds it; the handle; the first limb as an index that counts the check limb as 0; how many limbs; the offset of the
first sheaf; handle and offset in the odd array; the stride from sheaf to sheaf, 0 where they lie back to back. -/
structure Part where
  arr : Option ArrId
  handle : Nat
  first : Nat
  count : Nat
  base : Nat
  ohandle : Nat
  obase : Nat
  pitch : Nat := 0
  deriving DecidableEq, Repr

/-- The array that holds the upper half of a limb of N = 2^17, and the one that holds the lower half (R93). -/
def oddOf (a : ArrId) : ArrId := ⟨a.die, a.arr + 1⟩
/-- The even array of a pair (R93). -/
def evenOf (a : ArrId) : ArrId := ⟨a.die, a.arr / 2 * 2⟩

/-- The owners entry names this handle of this array of this package. -/
def ownNames (s : State) (a : ArrId) (h : Nat) (e : OwnEnt) : Bool :=
  e.valid && !e.overflow && e.pkg == s.dom.pkgAddr && e.die == a.die && e.arr == a.arr && e.handle == h

/-- The owners table of the active variant that names a handle, when its tensor is one of residues, with the tensor and the
number of the naming entry (R269, R271). -/
def State.ownersOf (s : State) (a : ArrId) (h : Nat) : Option (Owners × Tensor × Nat) :=
  s.plan.bind fun p => p.owners.findSome? fun o =>
    if bit o.vmask s.vs.current then
      (p.tensors.find? fun t => t.id == o.tensor && t.dtype == 0).bind fun t =>
        (o.ents.findIdx? (ownNames s a h)).map fun n => (o, t, n)
    else none

/-- The split of the sheaves of a handle (R39, R268, log 32): dimension 0 of the tensor is the words, 1 the limbs and 2 the
sheaves, which lie BSTRIDE apart in every block, an edge block too; the entries of the same sheaves as the handle's own block
hold the parts, in ascending limb order. The sheaves of no distributed tensor lie whole in the array, or in its pair by the even
array `home`. -/
def State.splitParts (s : State) (a home : ArrId) (h total : Nat) : List Part :=
  match s.ownersOf a h with
  | none => [{ arr := some home, handle := h, first := 0, count := total, base := 0, ohandle := h, obase := 0 }]
  | some (o, t, n) =>
    let g0 := max 1 (gridDim t o 0)
    let g1 := max 1 (gridDim t o 1)
    let per := max 1 (o.bshape.getD 1 1)
    let at' (i : Nat) : OwnEnt := o.ents.getD (n / (g0 * g1) * (g0 * g1) + i) {}
    ((List.range g1).map fun i =>
      let e := at' (i * g0)
      let f := if 1 < g0 then at' (i * g0 + 1) else e
      { arr := if e.pkg = s.dom.pkgAddr then some ⟨e.die, e.arr⟩ else none
        handle := e.handle, first := per * i, count := min per (total - per * i), base := e.offset
        ohandle := f.handle, obase := f.offset, pitch := if 3 ≤ t.rank then o.bstride.getD 1 0 else 0 }).filter fun p => decide (0 < p.count)

/-- log2 N of the set of a handle of an array. -/
def State.lognOf (s : State) (a : ArrId) (h : Nat) : Nat := sheafLogn s.env.psets (handleOf (s.arr a) h)

/-- The array by which a sheaf goes: the even one of a pair at N = 2^17 (R93). -/
def State.homeOf (s : State) (a : ArrId) (h : Nat) : ArrId := if s.lognOf a h = 17 then evenOf a else a

/-- The parts of the sheaves of a handle at its LEVEL, in ascending limb order (R39). -/
def State.sheafParts (s : State) (a : ArrId) (h : Nat) : List Part :=
  s.splitParts a (s.homeOf a h) h ((handleOf (s.arr a) h).level.toNat + 1)

/-- A SHEAF handle entry of an array with the place of its limbs in the split of its sheaves (R39). -/
def State.placeHandle (s : State) (a : ArrId) (h : Nat) (e : Handle) : Handle :=
  let b := if sheafLogn s.env.psets e = 17 then evenOf a else a
  if !e.sheaf then e
  else match (s.splitParts a b h 128).find? fun p => p.arr == some b && (if a = b then p.handle else p.ohandle) == h with
    | some p => { e with first := p.first, most := p.count, sbase := if a = b then p.base else p.obase, pitch := p.pitch }
    | none => e

/-- Where limb `idx` of sheaf `poly` lies after the first sheaf of a part, with limbs of lb bytes (R38, R39, R268). -/
def Part.limbOff (p : Part) (lb poly idx : Nat) : Nat :=
  poly * (if p.pitch = 0 then p.count * lb else p.pitch) + (idx - p.first) * lb

/-- The free words of a limb that another package holds (log 32). -/
def freeLimb (s : State) (idx n : Nat) : List Nat :=
  (List.range n).map fun i => (Config.freeWord (s.free + idx * 131072 + i)).toNat

/-- Limb `idx` of sheaf `poly` as the lofts hold it (R38, R39); index 0 is the check limb. -/
def State.loftLimb (s : State) (parts : List Part) (logn poly idx : Nat) : List Nat :=
  let lb := limbBytes logn
  match parts.find? fun p => decide (p.first ≤ idx ∧ idx < p.first + p.count) with
  | none => freeLimb s idx (2 ^ logn)
  | some p =>
    match p.arr with
    | none => freeLimb s idx (2 ^ logn)
    | some a =>
      let off := p.limbOff lb poly idx
      let get (b : ArrId) (h base : Nat) : List Nat :=
        toWords (loftRead (s.arr b) (handleOf (s.arr b) h) (base + off) lb)
      if logn = 17 then get a p.handle p.base ++ get (oddOf a) p.ohandle p.obase else get a p.handle p.base

/-- The loft rows that hold limb `idx` of a sheaf, in this package. -/
def State.limbRows (s : State) (parts : List Part) (logn poly idx : Nat) : List (ArrId × Nat) :=
  let lb := limbBytes logn
  let rows (b : ArrId) (h off : Nat) : List (ArrId × Nat) :=
    (List.range (lb / 1024)).map fun i => (b, ((handleOf (s.arr b) h).target.toNat + off) / 1024 + i)
  match parts.find? fun p => decide (p.first ≤ idx ∧ idx < p.first + p.count) with
  | none => []
  | some p => match p.arr with
    | none => []
    | some a =>
      let off := p.limbOff lb poly idx
      rows a p.handle (p.base + off) ++ (if logn = 17 then rows (oddOf a) p.ohandle (p.obase + off) else [])

/-- Write limb `idx` of a sheaf into the loft that holds it. -/
def State.putLoftLimb (s : State) (parts : List Part) (logn poly idx : Nat) (ws : List Nat) : State :=
  let lb := limbBytes logn
  match parts.find? fun p => decide (p.first ≤ idx ∧ idx < p.first + p.count) with
  | none => s
  | some p =>
    match p.arr with
    | none => s
    | some a =>
      let off := p.limbOff lb poly idx
      let put (s : State) (b : ArrId) (h base : Nat) (ws : List Nat) : State :=
        s.modArr b fun x => loftWrite x (handleOf x h) (base + off) (ofWords ws)
      let s := put s a p.handle p.base (ws.take (lb / 4))
      if logn = 17 then put s (oddOf a) p.ohandle p.obase (ws.drop (lb / 4)) else s

/-- Change each array that holds part of a sheaf, both of a pair, by a function of the handle it holds it in. -/
def State.eachPart (s : State) (parts : List Part) (pair : Bool) (f : Nat → Part → Arr → Arr) : State :=
  parts.foldl (fun s p => match p.arr with
    | some a =>
      let s := s.modArr a (f p.handle p)
      if pair then s.modArr (oddOf a) (f p.ohandle p) else s
    | none => s) s

/-- Change the handle entry in every array that holds part of the sheaf, both of a pair (R240). -/
def State.modParts (s : State) (parts : List Part) (pair : Bool) (f : Handle → Handle) : State :=
  s.eachPart parts pair fun h _ x => { x with handles := mset {} x.handles h (f (handleOf x h)) }

/-- A key of the tracked limbs is one of a sheaf. -/
def keyOf (h poly key : Nat) : Bool := key / 128 == h * 4 + poly

/-- Forget what is tracked of a sheaf's limbs. -/
def untrack (h poly : Nat) (x : Arr) : Arr :=
  { x with track := x.track.filter fun e => !keyOf h poly e.1, touched := x.touched.filter fun k => !keyOf h poly k }

/-- A sheaf takes a state as a whole, in every handle that holds part of it (R240). -/
def State.setSheaf (s : State) (parts : List Part) (pair : Bool) (poly : Nat) (c : BitVec 4) (f : Handle → Handle) : State :=
  (s.eachPart parts pair fun h _ x => untrack h poly x).modParts parts pair fun h => f (h.setCst poly c)

/-- A sheaf becomes POISONED (R51, R63 step 2). -/
def State.poisonSheaf (s : State) (a : ArrId) (h poly : Nat) : State :=
  s.setSheaf (s.sheafParts a h) (s.lognOf a h == 17) poly 15 id

/-- The primes of a sheaf's limbs at a level (R47, R113). -/
def Env.moduli (v : Env) (ps : PSet) (ext : Bool) (level : Nat) : List Nat :=
  (List.range level).map fun j => (v.limb ps (limbPos ps ext level (j + 1))).q

/-- The limbs of a sheaf below a level and its check limb: a limb that `held` gives comes from there, any other from the
lofts (R104). -/
def State.sheafLimbs (s : State) (parts : List Part) (logn poly level : Nat) (held : Nat → Option (List Nat)) :
    List (List Nat) × List Nat :=
  let get (idx : Nat) : List Nat := match held idx with
    | some ws => ws
    | none => s.loftLimb parts logn poly idx
  ((List.range level).map fun j => get (j + 1), get 0)

/-! ## The states that a command's writes leave (R52, R240) -/

/-- What is tracked of limb `idx` of a sheaf: the weaker of the two halves at N = 2^17; what another package holds counts as
`old`. -/
def State.limbState (s : State) (parts : List Part) (pair : Bool) (poly idx : Nat) (old : RowSt) : RowSt :=
  match parts.find? fun p => decide (p.first ≤ idx ∧ idx < p.first + p.count) with
  | none => old
  | some p => match p.arr with
    | none => old
    | some a =>
      let r := mget old (s.arr a).track (trackKey p.handle poly idx)
      if pair then weakerRow (mget old (s.arr (oddOf a)).track (trackKey p.ohandle poly idx)) r else r

/-- The weakest of the states of limbs. -/
def weakest (es : List (Nat × RowSt)) : BitVec 4 :=
  es.foldl (fun (m : BitVec 4) e => if m.toNat ≤ e.2.cst.toNat then e.2.cst else m) 0

/-- The fast base conversion, or with `exact` the exact base extension, that a limb was made by. -/
def RowSt.made (exact : Bool) (r : RowSt) : Option Conv := match r.kind with
  | .part d => if exact then none else some d
  | .conv d => if exact then none else some d
  | .less d _ => if exact then none else some d
  | .ext d => if exact then some d else none
  | _ => none

/-- The limbs that a conversion has to write: those outside its base, and for a fast one the check limb (R52). -/
def Conv.target (d : Conv) (exact : Bool) (es : List (Nat × RowSt)) : List (Nat × RowSt) :=
  es.filter fun e => !d.base.contains e.1 && !(exact && e.1 == 0x7F)

/-- The state of a sheaf whose limbs have these states, each with its limb position (R52): POISONED, or the weakest; with limbs
made by a base conversion or extension, the weakest of those that it has to write when all are made by it, OPEN before. -/
def combineStates (es : List (Nat × RowSt)) : BitVec 4 :=
  let of' (exact : Bool) : Option Conv := es.findSome? fun e => e.2.made exact
  let all' (exact : Bool) (d : Conv) : BitVec 4 :=
    let new := d.target exact es
    if !d.inv && !d.mul && !d.lift && new.all fun e => e.2.made exact == some d then weakest new else 14
  if es.any fun e => e.2.cst == 15 then 15
  else match of' false, of' true with
    | some d, _ => all' false d
    | none, some d => all' true d
    | none, none => weakest es

/-- Some limb was made by a base conversion or extension. -/
def converted (es : List (Nat × RowSt)) : Bool := es.any fun e => (e.2.made false).isSome || (e.2.made true).isSome

/-- The handles of a sheaf take the state and the domain that follow from the writes of a command; `key` is the limb it wrote
last (R52, R240). -/
def State.settleSheaf (s : State) (a : ArrId) (key : Nat) : State :=
  let h := key / 512
  let n := key / 128 % 4
  let e := handleOf (s.arr a) h
  let ps := s.env.pset e.pset.toNat
  let pair := ps.logn == 17
  let parts := s.sheafParts a h
  let old : RowSt := { tracked := true, cst := e.cst n, evalDom := e.evalDom }
  let last := mget old (s.arr a).track key
  let s := s.eachPart parts pair fun h p x =>
    { x with track := (List.range p.count).foldl (fun m i =>
        let k := trackKey h n (p.first + i)
        mset {} m k (mget old m k)) x.track }
  let level := e.level.toNat
  let top := s.limbState parts pair n level old
  let ext := if top.lpos = 0xFF then e.ext else decide (ps.lq ≤ top.lpos)
  let es := (List.range (level + 1)).map fun i => (limbPos ps ext level i, s.limbState parts pair n i old)
  let c := combineStates es
  let s := if converted es && c != 14 then
      s.eachPart parts pair fun h _ x => { x with track := x.track.map fun (e : Nat × RowSt) =>
        (e.1, if keyOf h n e.1 then { e.2 with kind := .limb, cst := c } else e.2) }
    else s
  s.modParts parts pair fun h => { h.setCst n c with evalDom := last.evalDom, ext := ext }

/-- The end of a command on an array: every sheaf it wrote takes its state (R240). -/
def State.settleSheaves (s : State) (a : ArrId) : State :=
  let s' := (s.arr a).touched.foldl (fun s k => s.settleSheaf a k) s
  s'.modArr a fun x => { x with touched := [] }

/-- A write of an array's loft outside its running command, with the states that follow (R240). -/
def State.aside (s : State) (a : ArrId) (f : Arr → Arr) : State :=
  let x := s.arr a
  ((s.setArr a (f { x with touched := [] })).settleSheaves a).modArr a fun y => { y with touched := x.touched }

/-- The first bytes of the limbs that a write of `len` bytes at `off` touches, the write's own first byte before them. -/
def limbStarts (e : Handle) (logn off len : Nat) : List Nat :=
  let lb := limbBytes logn
  off :: ((List.range (len / lb + 1)).map fun i => e.sbase + ((off - e.sbase) / lb + i + 1) * lb).filter (· < off + len)

/-- Rows of untracked words written through a LOCAL handle: data of a batch position, and OPEN in a sheaf (R52, R538). -/
def plainRows (psets : List PSet) (h off stride : Nat) (rows : List (List Byte)) (pos : Nat) (x : Arr) : Arr :=
  let e := handleOf x h
  rows.zipIdx.foldl (fun x r =>
    let o := off + r.2 * stride
    let x := setPos (loftWrite x e o r.1) (e.target.toNat + o) r.1.length pos
    (limbStarts e (sheafLogn psets e) o r.1.length).foldl (fun x i => trackWrite psets x h i {}) x) x

/-- Untracked words reach a LOCAL handle by the control core or the die fabric. -/
def State.plainWrite (s : State) (a : ArrId) (h off stride : Nat) (rows : List (List Byte)) (pos : Nat) : State :=
  s.aside a (plainRows s.env.psets h off stride rows pos)

/-! ## Restoration of a loft row (R234) -/

/-- Byte address of the loft cache (R244). -/
def cacheBase (x : Arr) : Nat := 7340032 - x.cacheSteps * 524288

/-- The LOCAL handle that holds a loft byte. -/
def handleAt (x : Arr) (addr : Nat) : Option (Nat × Handle) :=
  x.handles.find? fun e => e.2.kind == 1 && decide (e.2.target.toNat ≤ addr ∧ addr < e.2.target.toNat + e.2.length.toNat)

/-- IMAGE_SRC of a handle of an array in the active variant (R309). -/
def State.imageSrc (s : State) (a : ArrId) (h : Nat) : Option Nat :=
  s.plan.bind fun p =>
    ((p.hmaps.filter fun m => m.map == s.variant.hmap && !m.slotScope).flatMap (·.ents)).find? (fun e =>
      e.die == a.die && e.arr == a.arr && e.handle == h && e.entry.image) |>.map (·.imageSrc)

/-- The bytes of the refresh region at an offset of an array's part of it: the resident key's block that lies there
(R145), zeros where none does. -/
def State.refreshBytes (s : State) (arr off len : Nat) : List Byte :=
  (List.range len).map fun i =>
    let o := off + i
    match s.keys.find? fun k => k.resident && decide (k.regChunk ≤ o / 65536 ∧
        (o / 65536 - k.regChunk) * 64 + arr < k.blocks.length) with
    | some k => ((s.keyBytes k (((o / 65536 - k.regChunk) * 64 + arr) * 65536 + o % 65536) 1).getD 0 0)
    | none => 0

/-- Restore the loft row that holds byte address `row * 1024` after an uncorrectable error (R234). -/
def State.restoreRow (s : State) (a : ArrId) (row : Nat) : State :=
  let x := s.arr a
  let addr := row * 1024
  if cacheBase x ≤ addr then
    let set := (addr - cacheBase x) / 512
    s.setArr a { x with cache := mset [] (mset [] x.cache set []) (set + 1) [] }
  else match handleAt x addr with
    | none => s
    | some (h, e) =>
      let off := addr - e.target.toNat
      if h = 255 then s.setArr a { x with loft := Memory.write x.loft addr (s.refreshBytes a.arr off 1024) }
      else if e.slotScope then s.setArr a { x with written := x.written.filter (· != row) }
      else if e.image then
        match s.imageSrc a h with
        | some src => s.setArr a { x with loft := Memory.write x.loft addr (s.planRead (src * 1024 + off) 1024) }
        | none => s
      else
        let s := s.setArr a { x with loft := Memory.write x.loft addr (List.replicate 1024 0) }
        let n := polyAt e (s.lognOf a h) off
        if e.sheaf && decide (n < e.npoly.toNat) then s.poisonSheaf a h n
        else s

end Sys2Proof.Machine
end

