-- ==== Sys2Proof/Machine/Vector.lean ====
section
/-! DEFINITION. The vector engine's element operations and its streams (R159..R163, R172..R184, R202). -/

namespace Sys2Proof.Machine

/-- Fraction bits of a floating-point TYPE code. -/
def typeFrac (t : Nat) : Nat := if t = 5 then 7 else 23

/-- The TYPE code is floating-point. -/
def isFloat (t : Nat) : Bool := t == 4 || t == 5

/-- Bitwise complement of w bits. -/
def notW (w a : Nat) : Nat := 2 ^ w - 1 - a % 2 ^ w

/-- Integer vector operations by opcode on elements of w bits (R174). -/
def intOp (opc w a b : Nat) : Nat × Nat :=
  let x := sNat w a
  let y := sNat w b
  match opc with
  | 0x10 => wrapOF w (x + y)
  | 0x11 => wrapOF w (x - y)
  | 0x12 => wrapOF w (x * y)
  | 0x13 => (wrapW w (x * y / 2 ^ w), 0)
  | 0x14 => clampSAT w (x + y)
  | 0x15 => clampSAT w (x - y)
  | 0x16 =>
    if y = 0 then (0, fDZ)
    else if x = intMin w ∧ y = -1 then (wrapW w x, fOF)
    else (wrapW w (Int.tdiv x y), 0)
  | 0x17 => (wrapW w (min x y), 0)
  | 0x18 => (wrapW w (max x y), 0)
  | 0x19 => if x = intMin w then (wrapW w x, fOF) else (wrapW w x.natAbs, 0)
  | 0x1A => if x = intMin w then (wrapW w x, fOF) else (wrapW w (-x), 0)
  | 0x1B => (a &&& b, 0)
  | 0x1C => (a ||| b, 0)
  | 0x1D => (a ^^^ b, 0)
  | 0x1E => (notW w a, 0)
  | 0x1F => (a * 2 ^ (b % w) % 2 ^ w, 0)
  | 0x20 => (a / 2 ^ (b % w), 0)
  | _ => (wrapW w (x / 2 ^ (b % w)), 0)

/-- Comparison of integers: 0 EQ, 1 NE, 2 LT, 3 LE. -/
def intCmp (rel w a b : Nat) : Bool :=
  match rel with
  | 0 => a == b
  | 1 => a != b
  | 2 => decide (sNat w a < sNat w b)
  | _ => decide (sNat w a ≤ sNat w b)

/-- The fields of a vector word that its elements use. -/
structure VCtx where
  v : Env := {}
  type : Nat := 0
  ttype : Nat := 0
  rm : Nat := 0
  ftz : Bool := false
  const : Nat := 0
  deriving DecidableEq, Repr

/-- One result element and its flags (R174), for the opcodes of one result per element: `e` is the row's prime, `c` the
constant of MMULC. -/
def vecElem (x : VCtx) (opc : Nat) (e : PrimeEntry) (c a b d : Nat) : Nat × Nat :=
  let w := 8 * typeBytes x.type
  let fr := typeFrac x.type
  match opc with
  | 0x01 => (addMod e.q a b, 0)
  | 0x02 => (subMod e.q a b, 0)
  | 0x03 => (negMod e.q a, 0)
  | 0x04 => (barrett e.kbits e.mu e.q (a * b), 0)
  | 0x05 => (barrett e.kbits e.mu e.q (a * c), 0)
  | 0x06 => (intMod e.q (smallK (BitVec.ofNat 5 x.const) * a), 0)
  | 0x07 => (intMod (x.v.prime (x.const % 128)).q (centred e.q a), 0)
  | 0x08 => (intMod e.q (sNat 32 a), 0)
  | 0x09 => (wrapW 32 (centred e.q a), 0)
  | 0x28 => vcmp 0 w fr
  | 0x29 => vcmp 1 w fr
  | 0x2A => vcmp 2 w fr
  | 0x2B => vcmp 3 w fr
  | 0x2C => (if a ≠ 0 then b else d, 0)
  | 0x30 => fAdd fr x.rm x.ftz a b
  | 0x31 => fSub fr x.rm x.ftz a b
  | 0x32 => fMul fr x.rm x.ftz a b
  | 0x33 => fFma fr x.rm x.ftz a b d
  | 0x34 => fDiv fr x.rm x.ftz a b
  | 0x35 => fSqrt fr x.rm x.ftz a
  | 0x36 => fMinMax fr x.ftz false a b
  | 0x37 => fMinMax fr x.ftz true a b
  | 0x38 => (a % 2 ^ (fr + 8), 0)
  | 0x39 => (a ^^^ 2 ^ (fr + 8), 0)
  | 0x3A =>
    if isFloat x.type then
      if isFloat x.ttype then fConvert fr (typeFrac x.ttype) x.rm x.ftz a
      else
        let r := fToInt fr (8 * typeBytes x.ttype) x.rm x.ftz a
        (wrapW (8 * typeBytes x.ttype) r.1, r.2)
    else fOfInt (typeFrac x.ttype) x.rm x.ftz (sNat w a)
  | 0x3B => clampSAT (8 * typeBytes x.ttype) (sNat w a)
  | o => intOp o w a b
where
  /-- A comparison result: all ones when true (R174). -/
  vcmp (rel w fr : Nat) : Nat × Nat :=
    if isFloat x.type then
      let r := fCmp fr x.ftz rel a b
      (if r.1 then 2 ^ w - 1 else 0, r.2)
    else (if intCmp rel w a b then 2 ^ w - 1 else 0, 0)

/-- Bytes of a result element: the target type for the conversions (R202). -/
def resultBytes (x : VCtx) (opc : Nat) : Nat :=
  if opc = 0x3A ∨ opc = 0x3B then typeBytes x.ttype else typeBytes x.type

/-- The operands of the opcode are residues that R79 tests: S1, S2, the constant of MMULC. -/
def vecResidues (x : VCtx) (opc : Nat) : Bool × Bool × Bool :=
  if x.type ≠ 0 then (false, false, false)
  else if opc = 0x01 ∨ opc = 0x02 ∨ opc = 0x04 then (true, true, false)
  else if opc = 0x05 then (true, false, true)
  else if opc = 0x03 ∨ opc = 0x06 ∨ opc = 0x07 ∨ opc = 0x09 ∨ opc = 0x40 ∨ opc = 0x41 then (true, false, false)
  else (false, false, false)

/-- The tracked state of the centred lift of a row onto another prime (R53, R66, R68): of a limb, the correction term that
drops it; of α, α on that prime. -/
def liftState (k : Ctx) (q : Nat) (a : RowSt) : RowSt :=
  let r := { a with cst := 14, kind := .limb, drop := [], stage := false }
  let d : Conv := { handle := a.handle, poly := a.poly, base := [a.lpos], lift := true }
  if !a.tracked || a.evalDom then r
  else match a.kind with
    | .limb => { r with kind := .part d }
    | .times c => if c = invMod q k.ps.t then { r with kind := .part { d with inv := true } } else r
    | .count d w 1 => { r with kind := .count d w 2 }
    | _ => r

/-- The tracked state of a result row at a limb position (R52, R174). -/
def vecState (k : Ctx) (x : VCtx) (opc lpos q c : Nat) (a b : RowSt) : RowSt :=
  let cell (o : Nat) : RowSt := cellState k lpos q o (smallK (BitVec.ofNat 5 x.const)) c a b
  match opc with
  | 0x01 => cell 2
  | 0x02 => cell 3
  | 0x03 => cell 4
  | 0x04 => cell 6
  | 0x05 => cell 7
  | 0x06 => cell 5
  | 0x07 => liftState k q a
  | _ => { pos := joinPos a.pos b.pos }

/-- A row's element as the only term of a sum (R177, R178). -/
def sumFirst (x : VCtx) (a : Nat) : Nat × Nat :=
  if isFloat x.type then
    let d := fDecode (typeFrac x.type) x.ftz a
    if d.isNaN then (fNaN (typeFrac x.type), if d.signalling then fNV else 0) else (fRead (typeFrac x.type) x.ftz a, 0)
  else (a, 0)

/-- One addition of a reduction (R175). DESIGN CHOICE (log 72): OF of an integer RSUM.S is raised by each addition whose exact
result lies outside the type, "as the addition of the type". -/
def sumStep (x : VCtx) (e : PrimeEntry) (acc a : Nat) : Nat × Nat :=
  if x.type = 0 then (addMod e.q acc a, 0)
  else if isFloat x.type then fAdd (typeFrac x.type) x.rm x.ftz acc a
  else wrapOF (8 * typeBytes x.type) (sNat (8 * typeBytes x.type) acc + sNat (8 * typeBytes x.type) a)

/-- Sum of all elements of a row (R174 RSUM.L): floating point in ascending element order from the first, integers
exactly and then clamped, residues modulo q. -/
def rowSum (x : VCtx) (e : PrimeEntry) (es : List Nat) : Nat × Nat :=
  let w := 8 * typeBytes x.type
  if x.type = 0 ∨ isFloat x.type then
    match es with
    | [] => (0, 0)
    | a :: r => r.foldl (fun acc v => let t := sumStep x e acc.1 v; (t.1, acc.2 ||| t.2)) (a, 0)
  else clampSAT w (es.foldl (fun t v => t + sNat w v) (0 : Int))

/-- A source row of a vector operation: 0 none, 1 a loft port, 2 crib rows, 3 the operand queue, 4 the constant; with the
operand-queue value in force. -/
def vecSource (k : Ctx) (x : VCtx) (l : Lane) (kind port row s last : Nat) : Lane × List Byte × RowSt × Nat :=
  let b := typeBytes x.type
  match kind with
  | 1 =>
    let r := portRead k.v (k.base + s * k.per) l port
    (r.1, r.2.1, r.2.2, last)
  | 2 => (l, ofWords (cribRow l.x row), rowState l.x row, last)
  | 3 =>
    let r := operandAt k.omode (rowsPerLimb k.ps) s (s % cribRows k.c) l last
    (r.1, (List.replicate (1024 / b) (leBytes b r.2)).flatten, {}, r.2)
  | 4 => (l, (List.replicate (1024 / b) (leBytes b x.const)).flatten, {}, last)
  | _ => (l, [], {}, last)

/-- Change the word in progress of a lane's array. -/
def Lane.modWip (l : Lane) (f : Wip → Wip) : Lane := { l with x := { l.x with wip := f l.x.wip } }

/-- Write full result rows of elements of `b` bytes and flag rows; the flags of a row's elements reach the slot status when the
row is written (R181); `fin` writes a last part row, padded with zeros (R265). -/
def vecFlush (k : Ctx) (v : VecSlot) (c b : Nat) (flagout fin : Bool) : Nat → Lane → Lane
  | 0, l => l
  | n + 1, l =>
    let w := l.x.wip
    if !l.ok then l
    else if 1024 ≤ w.out.length ∨ (fin = true ∧ w.out ≠ []) then
      let row := slice w.out 0 1024
      let l :=
        if v.dest then
          let at' := k.c.drow.toNat + w.done % vecRows v (cribRows k.c)
          { l with x := setRowState (setCribRow l.x at' (toWords row)) at' w.st }
        else portWrite k.v c l 4 row w.st
      let l := if l.ok then { l with x := orStatus l.x ((w.outFl.take (1024 / b)).foldl (fun f g => f ||| g) 0) } else l
      vecFlush k v c b flagout fin n
        (l.modWip fun w => { w with out := w.out.drop 1024, outFl := w.outFl.drop (1024 / b), done := w.done + 1 })
    else if flagout = true ∧ (1024 ≤ w.fl.length ∨ (fin = true ∧ w.fl ≠ [])) then
      vecFlush k v c b flagout fin n
        ((portWrite k.v c l 5 (slice w.fl 0 1024) { pos := w.st.pos }).modWip fun w => { w with fl := w.fl.drop 1024 })
    else l

/-- The results of the elements of S1 with those of S2 and S3; a source that is not read counts as 0. -/
def vecElems (f : Nat → Nat → Nat → Nat × Nat) : List Nat → List Nat → List Nat → List (Nat × Nat)
  | [], _, _ => []
  | a :: as, bs, ds => f a (bs.headD 0) (ds.headD 0) :: vecElems f as bs.tail ds.tail

/-- Results of one row: elements and flags. -/
def vecRow (x : VCtx) (opc : Nat) (e : PrimeEntry) (c : Nat) (as bs ds : List Nat) : List (Nat × Nat) :=
  if opc = 0x41 then [rowSum x e as]
  else vecElems (vecElem x opc e c) as bs ds

/-- What a step of RSUM.S has gathered: the sums, with the flags of each (R174, R181). -/
def sumRow (x : VCtx) (e : PrimeEntry) (w : Wip) (as : List Nat) : List (Nat × Nat) :=
  let ts := as.map (sumFirst x)
  if w.sum = [] then ts
  else ((w.sum.zip w.sumFl).zip ts).map fun t =>
    let r := sumStep x e t.1.1 t.2.1
    (r.1, t.1.2 ||| t.2.2 ||| r.2)

/-- What the fields of a vector slot mean to its elements. -/
def vecCtx (v : VecSlot) (e : Env) : VCtx :=
  { v := e, type := v.type.toNat, ttype := v.ttype.toNat, rm := v.rm.toNat, ftz := v.ftz, const := v.const.toNat }

/-- Gather the results of a row, and write the rows that are full, all of them at the last step (R174, R181, R202). -/
def vecPut (k : Ctx) (v : VecSlot) (flagout : Bool) (s : Nat) (st : RowSt) (e : PrimeEntry) (c : Nat) (as bs ds : List Nat)
    (l : Lane) : Lane :=
  let x := vecCtx v k.v
  let opc := v.vopc.toNat
  let fin := decide (k.n ≤ s + 1)
  let sum := opc == 0x40
  let res : List (Nat × Nat) := if sum then sumRow x e l.x.wip as else vecRow x opc e c as bs ds
  let l := l.modWip fun w => { w with st := st }
  let l := if sum then l.modWip fun w => { w with sum := res.map (·.1), sumFl := res.map (·.2) } else l
  let l := if sum && !fin then l else l.modWip fun w => { w with
      out := w.out ++ ofElems (resultBytes x opc) (res.map (·.1))
      outFl := w.outFl ++ res.map (·.2)
      fl := if flagout then w.fl ++ res.map (fun w => BitVec.ofNat 8 w.2) else [] }
  vecFlush k v (k.base + s * k.per) (resultBytes x opc) flagout fin 16 l

/-- One row of a vector operation. DESIGN CHOICE (log 73): S2 and S3 that both name port LS1 read two successive rows of it,
S2 first. -/
def vecStep (k : Ctx) (v : VecSlot) (flagout : Bool) (l : Lane) (s : Nat) : Lane :=
  let x := vecCtx v k.v
  let p := s % cribRows k.c
  let opc := v.vopc.toNat
  let e := k.prime p
  let b := typeBytes x.type
  let k1 := match v.s1.toNat with | 0 => 1 | 1 => 2 | 2 => 3 | _ => 4
  let k2 := if opc = 0x05 then 0 else v.s2.toNat
  let k3 := match v.s3.toNat with | 1 => 1 | 2 => 2 | 3 => 4 | _ => 0
  let a := vecSource k x l k1 0 (k.c.arow.toNat + p) s l.x.wip.last1
  let w2 := vecSource k x a.1 k2 1 (k.c.brow.toNat + p) s l.x.wip.last2
  let w3 := vecSource k x w2.1 k3 1 (k.c.brow.toNat + p) s 0
  let mc := if opc = 0x05 ∧ v.s2 = 3 then operandAt k.omode (rowsPerLimb k.ps) s p w3.1 l.x.wip.last2
    else (w3.1, if opc = 0x05 then x.const else w2.2.2.2)
  let l := mc.1.modWip fun w => { w with last1 := a.2.2.2, last2 := mc.2 }
  let ta := a.2.2.1
  let tb := w2.2.2.1
  let pos := joinPos (joinPos ta.pos tb.pos) w3.2.2.1.pos
  if !l.ok then l
  else if !l.idle && (poisoned ta || poisoned tb || poisoned w3.2.2.1) then
    l.fail { kind := 1, sub := 1, cycle := k.base + s * k.per, pos := pos }
  else
    let as := toElems b (ofWords (seen k l.odd s (toWords a.2.1)))
    let bs := toElems b w2.2.1
    let tests := vecResidues x opc
    match l.test (badOf e.q (if tests.1 then some (as, ta.pos) else none)
        (if tests.2.1 then some (bs, tb.pos) else if tests.2.2 then some ([mc.2], ta.pos) else none)) with
    | some i => l.fail (operandFault k l.odd (s * k.per) p i.1 i.2)
    | none =>
      match l.test (if opc = 0x02 then extensionBad k e.q ta tb bs else none) with
      | some i => l.fail { kind := 1, point := 1, index := k.index l.odd p i, cycle := k.base + s * k.per, pos := ta.pos }
      | none =>
        let st := vecState k x opc (limbAt k.ps k.c p) e.q mc.2 ta tb
        vecPut k v flagout s { st with pos := pos } e mc.2 as bs (toElems b w3.2.1) l

end Sys2Proof.Machine
end

