-- ==== Sys2Proof/Machine/Exec.lean ====
section
/-! DEFINITION. The frame of every execute word (R88, R94, R103..R105, R190, R191, R206..R213, R231, R232, R320, R322, R536,
R538): its start, the operands it pops, its work, its epilogue, its faults, its stated count and its end. -/

namespace Sys2Proof.Machine

/-- The work of one engine operation of a word: its steps, one for each row (R198); what a step does on one array, or for an
operation on whole limbs what it does for a limb on all; the cycles of a step; the rows it writes, as base and number; whether
these are a cell or fold result, which takes the epilogue (R208); which detectors watch it. -/
structure WordOp where
  total : Nat
  per : Nat := 1
  lane : Ctx → Lane → Nat → Lane := fun _ l _ => l
  limb : Option (Ctx → Lanes → Nat → Lanes) := none
  dest : Option (Nat × Nat) := none
  result : Bool := false
  sees : DetKind → Bool

/-- The detectors that watch an operation: the crib's, the loft's, the reduction check, the accumulators', the network's,
the transform checksum. The instruction store's watches every word. -/
def detectors (crib loft red acc net xform : Bool) : DetKind → Bool
  | .reduction => red
  | .recomposition => false
  | .transform => xform
  | .perm => net
  | .cribCorr => crib
  | .cribUncorr => crib
  | .accCorr => acc
  | .accUncorr => acc
  | .storeUncorr => true
  | .loftCorr => loft
  | .loftUncorr => loft
  | .wrong _ => crib || loft || acc

/-- The word's result passes through SCALE, PTADD or RESCALE (R103). -/
def modStages (x : Exec) : Bool := x.last && (x.hdr.scale || x.hdr.ptadd || x.hdr.rescale)

/-- An epilogue stage of the word reads the loft (R103). -/
def stagePort (x : Exec) : Bool := x.last && (x.hdr.ptadd || x.hdr.rescale)

/-- The parameter set a word names; none without a CRIB slot. -/
def execPset (v : Env) (x : Exec) : PSet := match x.w.crib with
  | some c => v.pset c.pset.toNat
  | none => {}

/-- The word works on limbs of N = 2^17, so on the pair (R93, log 33): every operation but IMMA and the vector
operations of other types than MOD. -/
def execPaired (v : Env) (x : Exec) : Bool :=
  (execPset v x).logn == 17 &&
    (match x.w.cell with | some c => c.opc != 0x0C | none => true) &&
    (match x.w.vec with | some c => c.type == 0 | none => true)

/-- The lanes of a word. -/
def State.lanes (s : State) (a : ArrId) (pair : Bool) : Lanes :=
  ({ x := s.arr a, free := s.free },
    if pair then some { x := s.arr (oddOf a), free := s.free + 16777216, odd := true } else none)

/-- The lanes back in the state, with the counter of free values past every one used. -/
def State.putLanes (s : State) (a : ArrId) (l : Lanes) : State :=
  let s := s.setArr a l.1.x
  let s := match l.2 with
    | some o => s.setArr (oddOf a) o.x
    | none => s
  { s with free := match l.2 with | some o => max s.free (max l.1.free o.free) | none => max s.free l.1.free }

/-- Change every array of a word. -/
def State.modLanes (s : State) (a : ArrId) (pair : Bool) (f : Arr → Arr) : State :=
  let s := s.modArr a f
  if pair then s.modArr (oddOf a) f else s

/-! ## Stated counts (R96, R100, R103..R105, R161, R162, R174, R206) -/

/-- Rows that a word's cell, fold or network operation issues: those of the limbs a transform names, else ROWS × REP. -/
def issueRows (v : Env) (x : Exec) : Nat :=
  match x.w.crib with
  | none => 0
  | some c =>
    let transform := match x.w.cell with | some cs => cs.opc == 0x10 || cs.opc == 0x11 | none => false
    if transform then (c.nlimb.toNat + 1) * rowsPerLimb (execPset v x)
    else cribRows c * (match x.w.acc with | some a => a.rep.toNat + 1 | none => 1)

/-- Issue cycles and tail of a word's cell or fold operation, or transfer (R75, R96, R105). -/
def cellCount (v : Env) (x : Exec) : Nat × Nat :=
  match x.w.crib with
  | none => (0, 0)
  | some c =>
    let logn := (execPset v x).logn
    let n := c.nlimb.toNat + 1
    match x.w.cell, x.w.acc with
    | some cs, _ =>
      if cs.opc = 0x10 then (if logn = 17 then 2560 else n * (2 ^ logn / 2) * logn / 256, 64)
      else if cs.opc = 0x11 then
        (if logn = 17 then 2560 else n * (2 ^ logn / 2) * logn / 256 + n * 2 ^ logn / 512, 64)
      else (issueRows v x, 16)
    | none, some _ => (issueRows v x, 16)
    | none, none => (if c.xop = 0 then 0 else cribRows c, 0)

/-- Issue cycles and tail of a word's network operation (R100, R105, R201). -/
def netCount (v : Env) (x : Exec) : Nat × Nat :=
  match x.w.net, x.w.crib with
  | some nt, some c =>
    let rows := cribRows c
    let m := if (execPset v x).logn = 17 then 2 else 1
    if nt.nopc = 2 ∧ nt.dom then (rows, 16) else if nt.dom then (2 * rows * m, 32) else (rows * m, 32)
  | _, _ => (0, 0)

/-- Cycles per row of a vector operation (R174). -/
def vecCycles (opc type : Nat) : Nat :=
  if opc = 0x16 ∨ opc = 0x34 ∨ opc = 0x35 then 4
  else if opc = 0x41 then (if type = 4 then 256 else if type = 5 then 512 else 8)
  else 1

/-- Issue cycles per row of a word's vector operation (R161, R162). -/
def vecRate (x : Exec) : Nat :=
  match x.w.vec with
  | some v =>
    let lofts := b2n (v.s1 == 0) + b2n (v.s2 == 1) + b2n (v.s3 == 1)
    let cellPort := match x.w.cell with | some cs => cs.bsrc == 1 && cellReadsB cs.opc.toNat | none => false
    vecCycles v.vopc.toNat v.type.toNat + b2n (decide (2 ≤ lofts)) + (if cellPort then lofts else 0)
  | none => 1

/-- Issue cycles and tail of a word's vector operation (R161, R162). -/
def vecCount (x : Exec) : Nat × Nat :=
  match x.w.vec, x.w.crib with
  | some v, some c =>
    let rows := cribRows c * (v.vrep.toNat + 1)
    (rows * vecRate x, 16 + if x.hdr.flagout then rows else 0)
  | _, _ => (0, 0)

/-- Issue cycles that an epilogue's use of the wide port adds for each row: one when the main operation and a stage need it,
two when two stages do (R103). -/
def portCycles (x : Exec) : Nat :=
  let port := match x.w.cell with | some cs => cs.bsrc == 1 && cellReadsB cs.opc.toNat | none => false
  if x.hdr.ptadd && x.hdr.rescale then 2 else if port && (x.hdr.ptadd || x.hdr.rescale) then 1 else 0

/-- The stated count of a word without its VERIFY or ANCHOR cycles (R103, R206). -/
def wordCount (v : Env) (x : Exec) : Nat :=
  let c := cellCount v x
  let t := netCount v x
  let e := vecCount x
  let ep := x.last && (x.w.cell.isSome || x.w.acc.isSome)
  let issue := c.1 + if ep then portCycles x * issueRows v x else 0
  let tail := c.2 + if ep then
      4 * b2n x.hdr.scale + 2 * b2n x.hdr.ptadd + 8 * b2n x.hdr.rescale + 2 * b2n (x.hdr.act != 0) +
        2 * b2n x.hdr.narrow
    else 0
  let transform := match x.w.cell with | some cs => cs.opc == 0x10 || cs.opc == 0x11 | none => false
  max issue (max t.1 e.1) + (if x.last || transform then max tail (max t.2 e.2) else 4)

/-- A word carries a slot of its own. -/
def carriesSlot (x : Exec) : Bool :=
  x.w.cell.isSome || x.w.net.isSome || x.w.vec.isSome || x.w.acc.isSome || (x.w.crib.isSome && !x.w.cribTaken) ||
    (x.w.que.isSome && !x.w.queTaken)

/-- The cycles that a command without slots does not take: the hand-overs of its words before the last (R196, R206). -/
def bareCycles (slotted : Bool) (x : Exec) : Nat := if x.last && !slotted && !carriesSlot x then 4 * x.stage.toNat else 0

/-! ## Start of a word (R190, R191, R211, R231, R232, R320, R322) -/

/-- The arrays a word runs on. -/
def wordArrs (a : ArrId) (pair : Bool) : List ArrId := if pair then [a, oddOf a] else [a]

/-- The operation is the first of its command, and not one that goes on after a wait. -/
def startsCommand (x : Exec) (y : Arr) : Bool := x.opens && x.stage == 0 && !y.wip.on

/-- The command waits for an arrival group (R232); after a fault of the slot every group counts as complete (R320). -/
def awaits (x : Exec) (r : SlotRun) (y : Arr) : Bool := startsCommand x y && x.hdr.waitg != 0 && !r.faulted

/-- The arrival flag a command waits for is clear (R232). -/
def waitsFor (x : Exec) (r : SlotRun) (a : Arr) : Bool := awaits x r a && !a.flags.getLsbD x.hdr.waitg.toNat

/-- The stated cycle of an operation: of its command after GAP, of a word after the words before it, of a step after the
steps that were done before a wait (R191, R206). -/
def statedCycle (x : Exec) (per : Nat) (y : Arr) : Nat :=
  y.cycle + (if startsCommand x y then x.hdr.gap.toNat else 0) + (if y.wip.on then y.wip.step * per else 0)

/-- The earliest cycle on which the arrival group lets a command start: the one after the flag's setting (R232). -/
def State.flagCycle (s : State) (x : Exec) (r : SlotRun) (pair : Bool) : Nat :=
  if awaits x r (s.arr x.arr) then
    ((wordArrs x.arr pair).map fun a => mget 0 (s.arr a).flagAt x.hdr.waitg.toNat).foldl max 0
  else 0

/-- The earliest cycle on which a queue that had run empty lets an operation go on: the one after the present (R190). -/
def State.queueCycle (s : State) (r : SlotRun) (y : Arr) : Nat :=
  if y.waiting && y.heldGroup == 0 then s.slotCycle r + 1 else 0

/-- The delay D with which an operation starts (R320). -/
def State.startDelay (s : State) (x : Exec) (per : Nat) (r : SlotRun) (pair : Bool) : Nat :=
  let y := s.arr x.arr
  max y.delay (max (s.flagCycle x r pair) (s.queueCycle r y) - statedCycle x per y)

/-- The start of an operation on one array: GAP and the flag a command clears, and the end of a wait (R191, R231, R320). -/
def startCommand (x : Exec) (d : Nat) (a : Arr) : Arr :=
  let a := { a with delay := d, waiting := false, held := 0, heldAt := 0, heldTag := 0, heldGroup := 0 }
  if startsCommand x a then
    { a with
      cycle := a.cycle + x.hdr.gap.toNat
      dead := false
      pend := []
      slotted := false
      flags := if x.hdr.waitg = 0 then a.flags else a.flags &&& ~~~((1 : BitVec 16) <<< x.hdr.waitg.toNat)
      flagAt := mset 0 a.flagAt x.hdr.waitg.toNat 0 }
  else a

/-- The pops at the start of a word (R211): bindings, then SCALE c, CLAMP lo and CLAMP hi on the command's last word. -/
def openWord (x : Exec) (l : Lane) : Lane :=
  let q : QueSlot := x.w.que.getD { bind := 0, omode := 0 }
  let l := bindPorts { l with x := { l.x with word := fullForm x.w, omode := q.omode } } q.bind
  let l := if l.ok && x.last && x.hdr.scale && x.hdr.sck then
      let r := popOperand l
      { r.1 with x := { r.1.x with scaleC := BitVec.ofNat 32 r.2 } }
    else l
  if l.ok && x.last && x.hdr.act == 2 then
    let r := popOperand l
    let t := popOperand r.1
    { t.1 with x := { t.1.x with clampLo := BitVec.ofNat 32 r.2, clampHi := BitVec.ofNat 32 t.2 } }
  else l

/-- An operation that cannot start or go on waits, for an arrival group or a queue entry (R190, R232): counted once. -/
def holdWord (x : Exec) (per group : Nat) (a : Arr) : Arr :=
  if a.waiting && a.heldGroup == group then a
  else
    { a with
      waiting := true, held := fullForm x.w, heldAt := statedCycle x per a, heldTag := x.hdr.tag.toNat, heldGroup := group
      cnt := if group = 0 then { a.cnt with starve := bump a.cnt.starve } else { a.cnt with waits := bump a.cnt.waits } }

/-- An operation still waits for the queue entry that it waited for before (R190). -/
def stillWaits (y z : Arr) : Bool := y.waiting && y.heldGroup == 0 && y.wip.on && z.wip.step == y.wip.step

/-- A wait for an arrival group is counted (R232). -/
def countWait (a : Arr) : Arr := { a with cnt := { a.cnt with waits := bump a.cnt.waits } }

/-! ## Epilogue rows (R103, R536) -/

/-- The first word of a result row that SCALE does not take as a residue (R79). -/
def scaleBad (x : Exec) (e : PrimeEntry) (c : Nat) (ws : List Nat) : Option Nat :=
  match firstBad e.q ws with
  | some i => some i
  | none => if x.hdr.sck && decide (e.q ≤ c) then some 0 else none

/-- SCALE on the words of a result row: the words and the state after. -/
def scaleRow (x : Exec) (k : Ctx) (lpos : Nat) (e : PrimeEntry) (c : Nat) (ws : List Nat) (t : RowSt) : List Nat × RowSt :=
  if x.hdr.sck then (ws.map fun w => mulMod e.q w c, cellState k lpos e.q 7 0 c t {})
  else
    let kk := smallK x.hdr.sk
    (ws.map fun w => intMod e.q (kk * w), cellState k lpos e.q 5 kk 0 t {})

/-- RESCALE on the words of a row of a kept limb or of the check limb (R66, R536). -/
def rescaleRow (e : PrimeEntry) (ql : Nat) (ws bs : List Nat) : List Nat :=
  let inv := invMod e.q ql
  (ws.zip bs).map fun w => mulMod e.q (subMod e.q w.1 w.2) inv

/-- The limb position that a RESCALE stage on a row drops; none when the row is in the evaluation domain, belongs to no
sheaf, or its sheaf is at level 1 (R103). -/
def rescaleBase (k : Ctx) (l : Lane) (t : RowSt) : Option Nat :=
  let e := handleOf l.x t.handle
  if t.tracked && decide (t.handle < 256) && e.sheaf && !t.evalDom && decide (2 ≤ e.level.toNat) then
    some (limbPos k.ps e.ext e.level.toNat e.level.toNat)
  else none

/-- The tracked state of a row after the RESCALE stage: its sheaf has lost the limb at a position, at the allowance of R66,
or of R68 in a BGV set. -/
def rescaleState (k : Ctx) (top : Nat) (t : RowSt) : RowSt :=
  { t with
    cst := BitVec.ofNat 4 (capState (t.cst.toNat + if k.ps.scheme = 1 then 2 else 0)), kind := .limb, drop := [top]
    stage := true }

/-- The modular epilogue stages of step s, on the row it wrote; `n` rows from `base`, of which the last `n` steps write the
final words (R103, R200). DESIGN CHOICE (log 87): a RESCALE stage takes a row of port LS3 also for a row of the dropped limb. -/
def stageStep (x : Exec) (k : Ctx) (base n : Nat) (l : Lane) (s : Nat) : Lane :=
  let p := s % n
  let row := base + p
  let e := k.prime p
  let at' := k.base + (if k.whole then k.issue else 0) + s
  let pt := if x.hdr.ptadd then portRead k.v at' l 2 else (l, [], {})
  let rs := if x.hdr.rescale then portRead k.v at' pt.1 3 else (pt.1, [], {})
  let l := rs.1
  if !l.ok || decide (s + n < k.n) then l
  else
    let t := rowState l.x row
    let ws := cribRow l.x row
    let lpos := limbAt k.ps k.c p
    let bad (i : Nat) (pos : Nat) : Lane := l.fail { operandFault k l.odd s p i pos with cycle := at' }
    match l.test (if x.hdr.scale then scaleBad x e l.x.scaleC.toNat ws else none) with
    | some i => bad i t.pos
    | none =>
      let r := if x.hdr.scale then scaleRow x k lpos e l.x.scaleC.toNat ws t else (ws, t)
      let ws := r.1
      let t := r.2
      let bs := toWords pt.2.1
      match l.test (if x.hdr.ptadd then badOf e.q (some (ws, t.pos)) (some (bs, pt.2.2.pos)) else none) with
      | some i => bad i.1 i.2
      | none =>
        let ws := if x.hdr.ptadd then (ws.zip bs).map fun w => addMod e.q w.1 w.2 else ws
        let t := if x.hdr.ptadd then cellState k lpos e.q 2 0 0 t { tracked := true, cst := 0, pos := pt.2.2.pos } else t
        if !x.hdr.rescale then { l with x := setRowState (setCribRow l.x row ws) row t }
        else match rescaleBase k l t with
          | none => l.fail { kind := 1, point := 2, index := 0, cycle := at', pos := t.pos }
          | some top =>
            if lpos = top then { l with x := setRowState (setCribRow l.x row ws) row t }
            else
              let cs := toWords rs.2.1
              match l.test (badOf e.q (some (ws, t.pos)) (some (cs, rs.2.2.pos))) with
              | some i => bad i.1 i.2
              | none =>
                let ql := (k.v.limb k.ps top).q
                { l with x := setRowState (setCribRow l.x row (rescaleRow e ql ws cs)) row (rescaleState k top t) }

/-! ## VERIFY and ANCHOR (R55, R56, R59, R60, R69, R104, R536) -/

/-- The first row of the limb at a position of a result of n rows, when the crib holds it (R104). -/
def heldRow (k : Ctx) (base n lpos : Nat) : Option Nat :=
  let rpl := rowsPerLimb k.ps
  let lp := k.c.lpos.toNat
  if lp ≤ lpos ∧ (lpos - lp + 1) * rpl ≤ n then some (base + (lpos - lp) * rpl) else none

/-- The limb at a position of a result that the crib holds, from the word's rows (R104). -/
def heldLimb (k : Ctx) (base n : Nat) (l : Lanes) (lpos : Nat) : Option (List Nat) :=
  (heldRow k base n lpos).map fun b => lanesLimb l b (rowsPerLimb k.ps)

/-- The tracked state of the limb at a position of a result that the crib holds. -/
def heldState (k : Ctx) (base n : Nat) (l : Lanes) (lpos : Nat) : Option RowSt :=
  (heldRow k base n lpos).map fun b => lanesLimbState l b (rowsPerLimb k.ps)

/-- What a VERIFY or ANCHOR stage works on: the state of the result row, the sheaf's handle, the point code, the level and the
kind of its limbs after the drop that the command completes (R69, R536), and its parts. -/
structure SheafJob where
  t : RowSt
  e : Handle
  point : Nat
  level : Nat
  ext : Bool
  parts : List Part
  deriving DecidableEq, Repr

/-- The sheaf that a result whose first row has state `t` belongs to; none where the stage faults (R103). -/
def State.sheafJob (s : State) (x : Exec) (k : Ctx) (t : RowSt) : Option SheafJob :=
  let e := handleOf (s.arr x.arr) t.handle
  let drop := if t.drop = [] ∧ x.hdr.rescale then [limbPos k.ps e.ext e.level.toNat e.level.toNat] else t.drop
  let level := e.level.toNat - drop.length
  if t.tracked && decide (t.handle < 256) && e.sheaf && !t.evalDom && decide (1 ≤ level) then
    some
      { t := t, e := e, point := if drop = [] then 5 else 2, level := level
        ext := e.ext && !drop.any fun p => decide (k.ps.lq ≤ p), parts := s.sheafParts x.arr t.handle }
  else none

/-- Main limbs of a sheaf at a level that one part of it holds. -/
def mainLimbs (level : Nat) (p : Part) : Nat := min (p.first + p.count) (level + 1) - max p.first 1

/-- Issue cycles of VERIFY or ANCHOR on the array that holds a part (R104). -/
def verifyCycles (rpl level : Nat) (p : Part) : Nat :=
  3 * rpl * mainLimbs level p + (if p.first = 0 then 4 * rpl else 0)

/-- The cycles that a VERIFY or ANCHOR stage takes, on each array that holds limbs of the sheaf (R104). -/
def stageCycles (k : Ctx) (pair : Bool) (j : SheafJob) : List (ArrId × Nat) :=
  j.parts.flatMap fun p => match p.arr with
    | some a => (wordArrs a pair).map fun a => (a, verifyCycles (rowsPerLimb k.ps) j.level p)
    | none => []

/-- Add cycles to arrays' stated counts. -/
def State.addCycles (s : State) (cs : List (ArrId × Nat)) : State :=
  cs.foldl (fun s c => s.modArr c.1 fun y => { y with cycle := y.cycle + c.2 }) s

/-- The result rows of a word take a check state, as rows of whole limbs of their sheaf. -/
def markRows (base n : Nat) (c : BitVec 4) (x : Arr) : Arr :=
  (List.range n).foldl (fun x i =>
    setRowState x (base + i)
      { rowState x (base + i) with tracked := true, cst := c, kind := .limb, drop := [], stage := false }) x

/-- The rows that a word whose check failed writes become POISONED (R63 step 2). -/
def badRows (base n : Nat) (x : Arr) : Arr :=
  (List.range n).foldl (fun x i => setRowState x (base + i) { rowState x (base + i) with bad := true }) x

/-- The state of the sheaf that a VERIFY or ANCHOR stage works on: of its limbs in the result rows and in the lofts (R52). -/
def State.jobState (s : State) (x : Exec) (k : Ctx) (pair : Bool) (base n : Nat) (j : SheafJob) : BitVec 4 :=
  let old : RowSt := { tracked := true, cst := j.e.cst j.t.poly, evalDom := j.e.evalDom }
  let l := s.lanes x.arr pair
  combineStates ((List.range (j.level + 1)).map fun i =>
    let lpos := limbPos k.ps j.ext j.level i
    (lpos, (heldState k base n l lpos).getD (s.limbState j.parts pair j.t.poly i old)))

/-- The cycles that the VERIFY or ANCHOR stage of a word takes: ANCHOR has nothing to do on a sheaf that is not OPEN (R60,
R104). -/
def State.stageCost (s : State) (x : Exec) (k : Ctx) (pair : Bool) (base n : Nat) : List (ArrId × Nat) :=
  if x.hdr.verify || x.hdr.anchor then
    match s.sheafJob x k (rowState (s.arr x.arr) base) with
    | some j => if x.hdr.verify || decide (14 ≤ (s.jobState x k pair base n j).toNat) then stageCycles k pair j else []
    | none => []
  else []

/-- The loft rows that the VERIFY or ANCHOR stage of a word reads, in the order of the limbs (R104). -/
def State.stageRows (s : State) (x : Exec) (k : Ctx) (pair : Bool) (base n : Nat) : List (ArrId × Nat) :=
  match s.sheafJob x k (rowState (s.arr x.arr) base) with
  | some j =>
    if (s.stageCost x k pair base n).isEmpty then []
    else (List.range (j.level + 1)).flatMap fun i =>
      match heldRow k base n (limbPos k.ps j.ext j.level i) with
      | some _ => []
      | none => s.limbRows j.parts k.ps.logn j.t.poly i
  | none => []

/-- The VERIFY and ANCHOR stages of a word on its result rows: the state, and the fault of a failed test. -/
def State.sheafStage (s : State) (x : Exec) (k : Ctx) (pair : Bool) (base n : Nat) : State × Option Flt :=
  let a := x.arr
  let t := rowState (s.arr a) base
  let at' := k.base + k.issue
  if !(x.hdr.verify || x.hdr.anchor) then (s, none)
  else match s.sheafJob x k t with
    | none =>
      (s.modLanes a pair (badRows base n),
        some { kind := 1, point := if x.hdr.rescale ∨ t.drop ≠ [] then 2 else 5, index := 0, cycle := at', pos := t.pos })
    | some j =>
      let c := s.jobState x k pair base n j
      if c = 15 then (s, some { kind := 1, sub := 1, cycle := at', pos := t.pos })
      else if !x.hdr.verify && c != 14 then (s, none)
      else
        let logn := k.ps.logn
        let rpl := rowsPerLimb k.ps
        let l := s.lanes a pair
        let main := (j.parts.map fun p => 3 * rpl * mainLimbs j.level p).foldl max 0
        let qs := k.v.moduli k.ps j.ext j.level
        let m := s.sheafLimbs j.parts logn t.poly j.level fun i => heldLimb k base n l (limbPos k.ps j.ext j.level i)
        let s := { s with free := s.free + (j.level + 1) * 131072 }
        let bad := if x.hdr.verify then
            (if c = 14 then some 0 else verifySheaf qs k.pc c.toNat (2 ^ logn) m.1 m.2)
          else none
        match bad with
        | some i =>
          ((s.modLanes a pair (badRows base n)).poisonSheaf a t.handle t.poly,
            some { kind := 1, point := j.point, index := i, cycle := at' + main + 4 * (i % 65536 / 256) + 3, pos := t.pos })
        | none =>
          let r := anchorSheaf qs k.pc (2 ^ logn) m.1
          let st := BitVec.ofNat 4 r.2
          let s := match heldLimb k base n l 0x7F with
            | some _ => s.putLanes a (setLanesLimb (s.lanes a pair) base rpl r.1 t)
            | none => s.putLoftLimb j.parts logn t.poly 0 r.1
          ((s.modLanes a pair (markRows base n st)).setSheaf j.parts pair t.poly st fun h =>
            { h.setVer t.poly (x.hdr.verify || h.ver.getLsbD t.poly) with
              evalDom := false, ext := j.ext, level := BitVec.ofNat 7 j.level }, none)

/-! ## The faults of a word (R63, R65, R88, R94, R209, R234, R538) -/

/-- The sheaf that a vector result streams into, when it goes to a SHEAF handle: handle and number (R63 step 2). -/
def streamSheaf (v : Env) (x : Exec) (y : Arr) : Option (Nat × Nat) := match x.w.vec with
  | some vs =>
    let b := mget {} y.ports 4
    let e := handleOf y b.handle
    if vs.dest || !e.sheaf then none
    else some (b.handle, polyAt e (sheafLogn v.psets e) ((b.row0 + (b.next - 1) * b.stride : Int).toNat * 1024))
  | none => none

/-- The faults that an operation has met on its lanes. -/
def metFaults (l : Lanes) : List Flt :=
  l.1.fault.toList ++ l.1.lost ++ (match l.2 with | some o => o.fault.toList ++ o.lost | none => [])

/-- What an operation whose check failed writes becomes POISONED: its rows, and the sheaf that it streams into (R63 step 2). -/
def State.poisonDest (s : State) (x : Exec) (pair : Bool) (d : Option (Nat × Nat)) (fs : List Flt) : State :=
  if fs.any fun f => f.kind == 1 && f.sub == 0 then
    let s := match d with
      | some (b, n) => s.modLanes x.arr pair (badRows b n)
      | none => s
    match streamSheaf s.env x (s.arr x.arr) with
    | some (h, n) => s.poisonSheaf x.arr h n
    | none => s
  else s

/-- The array of a word that a fault was found on. -/
def faultArr (x : Exec) (f : Flt) : ArrId := if f.odd then oddOf x.arr else x.arr

/-- A fault that the record does not report is counted in its array (R65, R88). -/
def State.countLost (s : State) (x : Exec) (fs : List Flt) : State :=
  fs.foldl (fun s f => s.modArr (faultArr x f) fun y =>
    let y := countFault y f.kind f.sub
    { y with cnt := { y.cnt with unreported := bump y.cnt.unreported } }) s

/-- A word faults (R209, R226): later words dead, the record and the jobs. -/
def State.wordFault (s : State) (x : Exec) (pair : Bool) (f : Flt) : State :=
  let s := s.modLanes x.arr pair fun y => { y with dead := true }
  s.raiseFault
    { a := x.arr, tag := x.hdr.tag.toNat, stage := x.stage.toNat, word := fullForm x.w, bpos := some f.pos } f none

/-- The corrected errors that a word's detectors report are counted in the array that has them (R76, R83, R234). -/
def State.countCorrected (s : State) (x : Exec) (dets : List Detect) : State :=
  dets.foldl (fun s d =>
    let a := if d.odd then oddOf x.arr else x.arr
    match d.kind with
    | .cribCorr => s.corrected a false
    | .loftCorr => s.corrected a true
    | .accCorr => s.modDie a.die fun y => { y with corrF := markSlot y.corrF (s.pslot a) s.minute }
    | _ => s) s

/-- The loft rows that a word found uncorrectable are restored (R234). -/
def State.restoreRows (s : State) (x : Exec) (l : Lanes) : State :=
  let s := l.1.rows.foldl (fun s r => s.restoreRow x.arr r) s
  match l.2 with
  | some o => o.rows.foldl (fun s r => s.restoreRow (oddOf x.arr) r) s
  | none => s

/-- Trace an event of a command. -/
def State.traceWord (s : State) (x : Exec) (r : SlotRun) (evt arg : Nat) : State :=
  let y := s.arr x.arr
  let pos := namedPos r none
  let j := pos.bind fun p => s.job? p.2
  s.trace? x.arr evt (x.stage.toNat + 8 * (match pos with | some p => p.1 | none => 0)) x.hdr.tag.toNat
    (s.slotTime x.arr (y.cycle + y.delay)) (y.cycle + y.delay) arg
    (match j with | some j => j.stream | none => 0xFFFF) (match pos with | some p => mget 0 r.incs p.1 | none => 0)

/-! ## The word -/

/-- The fault that the record of a word reports, of those that its operations have met, and the others, counted (R65, R88). -/
def State.reportWord (s : State) (x : Exec) (pair : Bool) : State :=
  let fs := (s.arr x.arr).pend
  let s := s.modArr x.arr fun y => { y with pend := [] }
  match earliest fs with
  | some f => (s.countLost x (fs.erase f)).wordFault x pair f
  | none => s

/-- The end of a word and of its command (R206, R210, R213, R240). A command that has faulted posts its token all the same, on
its stated cycle (R319); where the token queue is full, its second fault is only counted. -/
def State.closeWord (s : State) (x : Exec) (r : SlotRun) (pair : Bool) : State :=
  if !x.closes then s
  else
    let s := s.reportWord x pair
    let n := wordCount s.env x
    let s := s.modLanes x.arr pair fun y =>
      { y with cycle := y.cycle + n - bareCycles y.slotted x, slotted := y.slotted || carriesSlot x }
    if !x.last then s
    else
      let s := s.settleSheaves x.arr
      let s := if pair then s.settleSheaves (oddOf x.arr) else s
      let s := s.traceWord x r 2 0
      let y := s.arr x.arr
      let full : Flt := { kind := 8, sub := 1, cycle := y.cycle + y.delay - 1 }
      if !x.hdr.token then s
      else if 16 ≤ y.tokens then (if y.dead then s.countLost x [full] else s.wordFault x pair full)
      else s.modLanes x.arr pair fun y => { y with tokens := y.tokens + 1 }

/-- A reduction check on a fold of an int32 entry, which reduces nothing (R58, R81). -/
def intFold (x : Exec) (y : Arr) (d : Detect) : Bool := match x.w.cell, x.w.acc with
  | none, some a => d.kind == .reduction && ((accCells y (accEntry a d.step)).getD d.cell {}).int32
  | _, _ => false

/-- The shared context of a word's operations. -/
def execCtx (v : Env) (x : Exec) (op : WordOp) (y : Arr) : Ctx :=
  { v := v, ps := execPset v x
    c := x.w.crib.getD { pset := 0, lpos := 0, nlimb := 0, arow := 0, brow := 0, drow := 0, rows := 0, xop := 0 }
    omode := y.omode, base := y.cycle + y.delay, n := op.total
    dets := x.dets.filter fun d => op.sees d.kind && d.port != 6 && !intFold x y d
    row0 := match x.w.cell, x.w.acc, x.w.crib with
      | none, some _, some c => c.drow.toNat
      | _, _, some c => c.arow.toNat
      | _, _, none => 0
    per := op.per
    issue := max (cellCount v x).1 (netCount v x).1, whole := op.limb.isSome
    act := if x.last then x.hdr.act else 0, narrow := x.last && x.hdr.narrow, nsh := x.hdr.nsh.toNat
    nwid := x.hdr.nwid }

/-- The start of an operation on the lanes, with its delay; a word of a command that has faulted pops what it would have popped
(R319). -/
def openLanes (s : State) (x : Exec) (d : Nat) (pair : Bool) : Lanes :=
  let l := s.lanes x.arr pair
  let opens := x.opens && !l.1.x.wip.on
  let bad := match s.runOf x.arr with
    | some r => r.bad.map (·.1)
    | none => []
  let l := eachLane (fun l => let y := startCommand x d l.x; { l with x := y, idle := y.dead, bad := bad }) l
  if opens then eachLane (openWord x) l else l

/-- A step of a word on one array: the operation's, and the epilogue stages on the row it wrote. -/
def rowStep (x : Exec) (op : WordOp) (k : Ctx) (l : Lane) (s : Nat) : Lane :=
  let l := op.lane k l s
  match op.dest with
  | some (base, n) => if op.result && modStages x && l.ok then stageStep x k base n l s else l
  | none => l

/-- The steps of a word on the lanes; after those of whole limbs, the epilogue stages on their rows. -/
def stepLanes (x : Exec) (op : WordOp) (k : Ctx) (l : Lanes) : Lanes :=
  match op.limb with
  | none => (List.range op.total).foldl (eachStep k (fun s => k.base + s * k.per) (rowStep x op k)) l
  | some f =>
    let l := (List.range (op.total / rowsPerLimb k.ps)).foldl (f k) l
    match op.dest with
    | some (base, n) =>
      if op.result && modStages x then
        ((List.range op.total).map (op.total + ·)).foldl
          (eachStep k (fun s => k.base + k.issue + (s - op.total)) fun l s => stageStep x k base n l (s - op.total)) l
      else l
    | none => l

/-- The end of an operation's work on one array: what its detectors report and no step has seen, not after a fault that an
earlier operation of the word has met. -/
def endLane (k : Ctx) (pend : List Flt) (l : Lane) : Lane :=
  let fs := ((laneReports k l).map (·.2)).filter fun f => !before f.cycle pend
  let l := if l.fault.isNone && !l.idle then l.stop fs else l
  { l with x := { l.x with wip := {} } }

/-- The lanes after a word's work; where a queue has run empty, with the steps that are done (R190). -/
def workLanes (x : Exec) (op : WordOp) (k : Ctx) (l : Lanes) : Lanes :=
  let l := stepLanes x op k l
  if starved l then eachLane (fun l => l.modWip fun w => { w with on := true }) l else eachLane (endLane k l.1.x.pend) l

/-- What the loft reads of a word's VERIFY or ANCHOR stage report (R234): corrected errors are counted; one that is not
correctable is a fault in place of the stage, and its row is restored. -/
def State.stageErrors (s : State) (x : Exec) (k : Ctx) (pair : Bool) (base n : Nat) : State × Option Flt :=
  let rows := s.stageRows x k pair base n
  let of' (c : DetKind) : List (ArrId × Nat) := x.dets.filterMap fun d => if d.port = 6 ∧ d.kind = c then rows[d.step]? else none
  let lost := of' .loftUncorr
  let s := (of' .loftCorr).foldl (fun s r => s.corrected r.1 true) s
  let f : Flt := { kind := 2, sub := 4, cycle := k.base + k.issue, pos := (rowState (s.arr x.arr) base).pos }
  (lost.foldl (fun s r => s.restoreRow r.1 r.2) s, if lost.isEmpty then none else some f)

/-- The faults that an operation has met on data of positions whose input is invalid are counted, and no more (R412). -/
def State.countQuiet (s : State) (x : Exec) (fs : List Flt) : State :=
  fs.foldl (fun s f => s.modArr (faultArr x f) fun y => countFault y f.kind f.sub) s

/-- The VERIFY and ANCHOR stages of an operation's result, unless the word has faulted; their cycles count in any case
(R319). -/
def State.stagesOf (s : State) (x : Exec) (op : WordOp) (k : Ctx) (pair : Bool) (bad : List Nat) : State :=
  match op.dest with
  | some (base, n) =>
    if op.result && x.last then
      let c := s.stageCost x k pair base n
      let y := s.arr x.arr
      let t := if y.dead || !y.pend.isEmpty then (s, none)
        else
          let e := s.stageErrors x k pair base n
          if e.2.isSome then e else e.1.sheafStage x k pair base n
      let quiet := t.2.toList.filter fun f => bad.contains f.pos
      let met := t.2.toList.filter fun f => !bad.contains f.pos
      ((t.1.countQuiet x quiet).modArr x.arr fun y => { y with pend := y.pend ++ met }).addCycles c
    else s
  | none => s

/-- After the work of an operation: what it has corrected, restored, poisoned and found, its VERIFY and ANCHOR stages, and the
end of its word. -/
def State.afterWork (s : State) (x : Exec) (r : SlotRun) (op : WordOp) (k : Ctx) (pair : Bool) (l : Lanes) : State :=
  let fs := metFaults l
  let s := if l.1.idle then s else (s.countCorrected x k.dets).restoreRows x l
  let s := (s.poisonDest x pair op.dest fs).modArr x.arr fun y => { y with pend := y.pend ++ fs }
  let s := s.countQuiet x (l.1.quiet ++ (match l.2 with | some o => o.quiet | none => []))
  (s.stagesOf x op k pair l.1.bad).closeWord x r pair

/-- What the start of an operation counts and traces: D, the start of its command, and a wait that is over, with the cycles it
took (R190, R229, R232, R320). -/
def State.noteStart (s : State) (x : Exec) (r : SlotRun) (y : Arr) (flag queue : Nat) : State :=
  let s := s.noteDelay r.slot (s.arr x.arr).delay
  let s := if startsCommand x y then s.traceWord x r 1 0 else s
  let s := if 0 < flag then s.traceWord x r 5 flag else s
  if 0 < queue ∨ (y.waiting && y.heldGroup == 0) then s.traceWord x r 4 queue else s

/-- One engine operation of a word on an array of a running slot. A slot that is abandoned issues nothing (R323); a
command whose flag is clear waits, and so does an operation that finds a queue empty, with the steps it has done (R190,
R232); in real-time mode a delay past TOLERANCE abandons the slot (R322). -/
def State.runWord (s : State) (x : Exec) (op : WordOp) : State :=
  match s.runOf x.arr with
  | none => s
  | some r =>
    if r.abandoned then s
    else
      let v := s.env
      let pair := execPaired v x
      let y := s.arr x.arr
      let at' := statedCycle x op.per y
      let word := fullForm x.w
      if (wordArrs x.arr pair).any fun a => waitsFor x r (s.arr a) then
        let late := s.slotCycle r + 1 - at'
        if s.tooLate r late then s.deadline r x.arr x.hdr.waitg.toNat at' x.hdr.tag.toNat late word
        else s.modLanes x.arr pair (holdWord x op.per x.hdr.waitg.toNat)
      else
        let d := s.startDelay x op.per r pair
        let flag := s.flagCycle x r pair - (at' + y.delay)
        if s.tooLate r d then
          s.deadline r x.arr (if s.tooLate r (s.flagCycle x r pair - at') then x.hdr.waitg.toNat else 0) at' x.hdr.tag.toNat d
            word
        else
          let s := if 0 < flag ∧ y.waiting = false then s.modLanes x.arr pair countWait else s
          let l := openLanes s x d pair
          if starved l then s.modLanes x.arr pair (holdWord x op.per 0)
          else
            let k := execCtx v x op l.1.x
            let w := workLanes x op k l
            if starved w && stillWaits y w.1.x then s
            else
              let t := (s.putLanes x.arr w).noteStart x r y flag (d - y.delay - flag)
              if starved w then t.modLanes x.arr pair (holdWord x op.per 0) else t.afterWork x r op k pair w

/-- Every execute word: well formed, on an array of a running slot. -/
def runExec (ok : Bool) (x : Exec) (op : WordOp) (s : State) : Res :=
  need x.arr.wf "array" <| formed ok "execute word" <|
    arises ((s.runOf x.arr).any s.issues) "no JOB slot runs on the array" <| .next (s.runWord x op)

end Sys2Proof.Machine
end

