-- ==== Sys2Proof/Machine/Transfers.lean ====
section
/-! DEFINITION. Crib transfers (R75, R198), the weight encoder in the LOAD direction (R273..R278), and delays (R196). -/

namespace Sys2Proof.Machine

/-! ## The encoder (R273..R278) -/

/-- The encoder entry that a port's handle passes through; none when no valid entry names it (R274). -/
def encOf (x : Arr) (h : Nat) : Option EncEnt :=
  (x.enc.find? fun e => e.2.code != 0 && e.2.handle == h).map (·.2)

/-- A binary32 number as sign, integer mantissa and exponent of two; none for a NaN or an infinity. -/
def f32Parts (w : Nat) : Option (Bool × Nat × Int) :=
  let e : Nat := w / 2 ^ 23 % 256
  let f : Nat := w % 2 ^ 23
  if e = 255 then none
  else some (decide (2 ^ 31 ≤ w), if e = 0 then f else 2 ^ 23 + f, (if e = 0 then 1 else (e : Int)) - 150)

/-- m × 2^e rounded to the nearest integer, ties to even. -/
def scaleRne (m : Int) (e : Int) : Int :=
  if 0 ≤ e then m * 2 ^ e.toNat else shiftRne (-e).toNat m

/-- The integer of a code under a scale (R276, R277); none where the encoder faults. -/
def encodeCode (ps : PSet) (dshift k : Int) (s : Nat) : Option Int :=
  match f32Parts s with
  | none => none
  | some (neg, m, e) =>
    let sm : Int := if neg then -(m : Int) else m
    if ps.scheme = 0 then
      let v := scaleRne (k * sm) (e + ps.logDelta - dshift)
      if v.natAbs ≤ 2 ^ 29 - 1 then some v else none
    else
      let si := scaleRne sm e
      let exact := if 0 ≤ e then true else decide (m % 2 ^ (-e).toNat = 0)
      if exact && decide (si.natAbs < 2 ^ 24) then
        let v := centred ps.t (intMod ps.t (k * si))
        if v.natAbs ≤ 2 ^ 29 - 1 then some v else none
      else none

/-- The codes of a row of code bytes at byte offset `off` of a handle (R273, R275): element index, code, handle. -/
def rowCodes (w4 : Bool) (h off : Nat) (bs : List Byte) : List (Nat × Int × Nat) :=
  if w4 then bs.zipIdx.flatMap fun b =>
    [(2 * (off + b.2), sNat 4 (b.1.toNat % 16), h), (2 * (off + b.2) + 1, sNat 4 (b.1.toNat / 16), h)]
  else bs.zipIdx.map fun b => (off + b.2, sNat 8 b.1.toNat, h)

/-- The handle that the next row of a port comes from, the next address-queue entry's when the binding is used up (R215). -/
def nextHandle (x : Arr) (port : Nat) : Nat :=
  let b := mget {} x.ports port
  match x.aq with
  | w :: _ => if b.nrows ≤ b.next then (bindingOf w).handle else b.handle
  | [] => b.handle

/-- The encoder takes another row of codes from port LS0 on a cycle. -/
def encFetch (v : Env) (c : Nat) (en : EncEnt) (l : Lane) : Lane :=
  let r := portRead v c l 0
  let b := mget {} r.1.x.ports 0
  let off : Int := (b.row0 + (b.next - 1 : Int) * b.stride) * 1024
  r.1.modWip fun w => { w with codes := w.codes ++ rowCodes (en.code == 1) b.handle off.toNat r.2.1 }

/-- One code of the stream becomes one word of the row at position p (R275..R278): the word, or the fault. -/
def encWord (k : Ctx) (p : Nat) (l : Lane) : Lane × Nat :=
  if !l.ok then (l, 0)
  else
    match l.x.wip.codes with
    | [] => (l, 0)
    | (idx, c, h) :: rest =>
      let en := (encOf l.x h).getD {}
      let limb := limbAt k.ps k.c p
      let fresh := l.x.wip.limb != some limb
      let si := idx / 2 ^ en.logspan
      let build := fresh || l.x.wip.scale != some si
      let sh := handleOf l.x en.shandle
      let at' := k.base + p
      let l := l.modWip fun w => { w with
        codes := rest, scale := some si, limb := some limb
        builds := w.builds + (if !build then 0 else if en.code = 1 then 1 else 16)
        word := if fresh then 1 else w.word + 1 }
      match localFault sh (en.sbase + 4 * si) 4 with
      | some sub => (l.fail { kind := 7, sub := sub, cycle := at' }, 0)
      | none =>
        match encodeCode k.ps en.dshift c (leNat (loftRead l.x sh (en.sbase + 4 * si) 4)) with
        | none => (l.fail { kind := 1, point := 6, limb := limb, index := si, cycle := at' }, 0)
        | some v => (l, intMod (k.prime p).q (if en.sign && (decide (l.x.wip.word ≠ 1) || l.odd) then -v else v))

/-- A row of an encoding LOAD: it fetches codes until it has 256, then encodes them (R275). -/
def encRow (k : Ctx) (en : EncEnt) (l : Lane) (p : Nat) : Lane :=
  let l := if l.x.wip.codes.length < 256 then encFetch k.v (k.base + p) en l else l
  let q := (List.range 256).foldl (fun (a : Lane × List Nat) _ =>
    let n := encWord k p a.1
    (n.1, n.2 :: a.2)) (l, [])
  if !q.1.ok then q.1
  else
    let d := k.c.drow.toNat + p
    let st : RowSt := { tracked := true, handle := 256, cst := 0, lpos := limbAt k.ps k.c p }
    { q.1 with x := setRowState (setCribRow q.1.x d (seen k l.odd p q.2.reverse)) d st }

/-! ## LOAD and STORE (R75) -/

/-- One row of a LOAD: port LS0 to a crib row, which takes the stream's check state (R52), through the encoder when the handle
that the row comes from has an entry (R274). -/
def loadRow (k : Ctx) (l : Lane) (p : Nat) : Lane :=
  let h := match l.x.wip.codes with
    | (_, _, h) :: _ => h
    | [] => nextHandle l.x 0
  match (if (mget {} l.x.ports 0).nrows = 0 then none else encOf l.x h) with
  | some en => encRow k en l p
  | none =>
    let r := portRead k.v (k.base + p) l 0
    let d := k.c.drow.toNat + p
    if !r.1.ok then r.1
    else
      let st := if r.2.2.tracked then r.2.2 else { r.2.2 with lpos := limbAt k.ps k.c p }
      { r.1 with x := setRowState (setCribRow r.1.x d (seen k l.odd p (toWords r.2.1))) d st }

/-- A step of a LOAD. The builds of its encoder add 1 cycle (W4) or 16 cycles (W8) each at its end (R278). -/
def loadStep (k : Ctx) (l : Lane) (p : Nat) : Lane :=
  let l := loadRow k l p
  if l.ok && decide (k.n ≤ p + 1) then { l with x := { l.x with cycle := l.x.cycle + l.x.wip.builds } } else l

/-- One row of a STORE: a crib row to port LW; a row of a POISONED sheaf faults (R63). -/
def storeStep (k : Ctx) (l : Lane) (p : Nat) : Lane :=
  let a := k.c.arow.toNat + p
  let t := rowState l.x a
  if !l.idle && poisoned t then l.fail { kind := 1, sub := 1, cycle := k.base + p, pos := t.pos }
  else portWrite k.v (k.base + p) l 4 (ofWords (seen k l.odd p (cribRow l.x a))) t

/-- The rows of a word's CRIB slot. -/
def slotRows (x : Exec) : Nat := match x.w.crib with
  | some c => cribRows c
  | none => 0

/-- The work of a LOAD transfer. -/
def loadWork (x : Exec) : WordOp where
  total := slotRows x
  lane := loadStep
  dest := x.w.crib.map fun c => (c.drow.toNat, cribRows c)
  sees := detectors false true false false false false

/-- The work of a STORE transfer. -/
def storeWork (x : Exec) : WordOp where
  total := slotRows x
  lane := storeStep
  sees := detectors true false false false false false

/-- A word with no operation: a delay, or bindings alone. -/
def delayWork : WordOp where
  total := 0
  sees := detectors false false false false false false

/-- CRIB_LOAD: a LOAD transfer moves loft rows through port LS0 into crib rows, encoding codes when the handle has an
encoder entry (R75, R198, R274). -/
def execCribLoad (x : Exec) (s : State) : Res := runExec (x.xferOk 1) x (loadWork x) s

/-- CRIB_STORE: a STORE transfer moves crib rows through port LW into the loft (R75, R198). -/
def execCribStore (x : Exec) (s : State) : Res := runExec (x.xferOk 2) x (storeWork x) s

/-- COMMAND_DELAY: a command whose words carry no slot is a delay of GAP cycles (R191, R196); a word with no operation pops
its bindings and writes nothing (R207). -/
def execCommandDelay (x : Exec) (s : State) : Res := runExec x.delayOk x delayWork s

end Sys2Proof.Machine
end

