-- ==== Sys2Proof/Machine/CellOps.lean ====
section
/-! DEFINITION. The cell family: element-wise operations, accumulating operations, folds, transforms and the network
(R78..R101, R199..R203), each as the work of a word under the frame of Machine/Exec.lean. -/

namespace Sys2Proof.Machine

/-- The D rows of a word. -/
def dRows (x : Exec) : Option (Nat × Nat) := x.w.crib.map fun c => (c.drow.toNat, cribRows c)

/-- The steps of a word with an accumulate slot: ROWS × REP (R198, R200). -/
def repRows (x : Exec) : Nat := match x.w.crib, x.w.acc with
  | some c, some a => accSteps c a
  | _, _ => 0

/-- A cell operation reads its B operand from port LS0 (R78). -/
def readsPort (x : Exec) : Bool := match x.w.cell with
  | some c => cellReadsB c.opc.toNat && c.bsrc == 1
  | none => false

/-- A cell operation reduces modulo a prime (R58, R82): MADD, MSUB, MSCAL, MMUL, MMULC. -/
def reduces (x : Exec) : Bool := match x.w.cell with
  | some c => decide (2 ≤ c.opc.toNat ∧ c.opc.toNat ≤ 7 ∧ c.opc.toNat ≠ 4)
  | none => false

/-- An element-wise cell operation as the work of a word; a word without a cell slot does nothing. -/
def cellWork (x : Exec) : WordOp where
  total := slotRows x
  lane := fun k l s => match x.w.cell with | some cs => cellStep k cs l s | none => l
  dest := dRows x
  result := true
  sees := detectors true (readsPort x || stagePort x) (reduces x || modStages x) false false false

/-- A modular product as the work of a word; on a refresh set it also carries the tests of R150 and R152. -/
def mmulWork (v : Env) (x : Exec) : WordOp :=
  let op := cellWork x
  { op with sees := fun d => op.sees d || ((execPset v x).scheme == 3 && d == .recomposition) }

/-- An accumulating cell operation as the work of a word. -/
def accWork (x : Exec) : WordOp where
  total := repRows x
  lane := fun k l s => match x.w.cell, x.w.acc with
    | some cs, some a => accStep k cs a l s
    | _, _ => l
  sees := detectors true (readsPort x) false true false false

/-- A fold as the work of a word: its result takes the epilogue; one D row for each step (R81, R200). -/
def foldWork (x : Exec) (keep : Bool) : WordOp where
  total := repRows x
  lane := fun k l s => match x.w.acc with | some a => foldStep k a keep l s | none => l
  dest := dRows x
  result := true
  sees := detectors false (stagePort x) true true false false

/-- A transform as the work of a word: in place at AROW, on the NLIMB limbs it names. -/
def transformWork (v : Env) (x : Exec) (inv : Bool) : WordOp where
  total := issueRows v x
  limb := some fun k l j => transformStep k inv l j
  dest := x.w.crib.map fun c => (c.arow.toNat, issueRows v x)
  result := true
  sees := detectors true (stagePort x) (modStages x) false false true

/-- A network operation as the work of a word: whole limbs on the network, or a pointwise product (R99). -/
def netWork (x : Exec) (f : Ctx → NetSlot → Lanes → Nat → Lanes) (row : Option (Ctx → NetSlot → Lane → Nat → Lane)) : WordOp where
  total := slotRows x
  lane := fun k l s => match x.w.net, row with
    | some n, some g => g k n l s
    | _, _ => l
  limb := if row.isSome then none else some fun k l j => match x.w.net with
    | some n => f k n l j
    | none => l
  dest := dRows x
  sees := detectors true false row.isSome false row.isNone false

/-- MULX as the work of a word, by the domain it names. -/
def mulxWork (x : Exec) : WordOp :=
  netWork x mulxLimbStep (if x.w.net.any (·.dom) then some mulxRowStep else none)

/-- CELL_MOVE: copies the A operand to the D rows (R80). -/
def execCellMove (x : Exec) (s : State) : Res := runExec (x.cellOk 0x01) x (cellWork x) s

/-- CELL_MADD: writes (a + b) mod q (R80). -/
def execCellMadd (x : Exec) (s : State) : Res := runExec (x.cellOk 0x02) x (cellWork x) s

/-- CELL_MSUB: writes (a − b) mod q (R80). -/
def execCellMsub (x : Exec) (s : State) : Res := runExec (x.cellOk 0x03) x (cellWork x) s

/-- CELL_MNEG: writes (q − a) mod q, zero staying zero (R80). -/
def execCellMneg (x : Exec) (s : State) : Res := runExec (x.cellOk 0x04) x (cellWork x) s

/-- CELL_MSCAL: writes (k × a) mod q for the signed K of the slot (R80). -/
def execCellMscal (x : Exec) (s : State) : Res := runExec (x.cellOk 0x05) x (cellWork x) s

/-- CELL_MMUL: writes (a × b) mod q by the Barrett reduction of R34 (R80). -/
def execCellMmul (x : Exec) (s : State) : Res := runExec (x.cellOk 0x06) x (mmulWork s.env x) s

/-- CELL_MMULC: writes (a × c) mod q for CONST (R80). -/
def execCellMmulc (x : Exec) (s : State) : Res := runExec (x.cellOk 0x07) x (cellWork x) s

/-- MAC: adds a × b to an accumulator entry and one to its term count (R80, R82..R85). -/
def execMac (x : Exec) (s : State) : Res := runExec (x.cellOk 0x08) x (accWork x) s

/-- MACN: adds a × ((q − b) mod q) to an accumulator entry and one to its term count (R80, R82..R85). -/
def execMacn (x : Exec) (s : State) : Res := runExec (x.cellOk 0x09) x (accWork x) s

/-- MACC: adds a × CONST to an accumulator entry and one to its term count (R80, R82..R85). -/
def execMacc (x : Exec) (s : State) : Res := runExec (x.cellOk 0x0A) x (accWork x) s

/-- ALPHA: adds floor(a × f_j / 2^32) to an accumulator entry, j the limb of the row (R54, R80). -/
def execAlpha (x : Exec) (s : State) : Res := runExec (x.cellOk 0x0B) x (accWork x) s

/-- IMMA: adds four int8 products to an int32 entry with saturation (R89, R90). -/
def execImma (x : Exec) (s : State) : Res := runExec (x.cellOk 0x0C) x (accWork x) s

/-- FOLD_CLR: writes an entry reduced modulo FPRIME, or an int32 entry as it is, and clears it (R80, R81). -/
def execFoldClr (x : Exec) (s : State) : Res := runExec (x.foldOk 2) x (foldWork x false) s

/-- FOLD_KEEP: writes the reduced entry and keeps it with a count of 1; an int32 entry stays as it is (R80, R81). -/
def execFoldKeep (x : Exec) (s : State) : Res := runExec (x.foldOk 3) x (foldWork x true) s

/-- NTT: the forward transform of the named limbs (R45, R91). -/
def execNtt (x : Exec) (s : State) : Res := runExec (x.cellOk 0x10) x (transformWork s.env x false) s

/-- INTT: the inverse transform of the named limbs, N^-1 applied in its last stage (R45, R91, R92). -/
def execIntt (x : Exec) (s : State) : Res := runExec (x.cellOk 0x11) x (transformWork s.env x true) s

/-- AUTO: the automorphism X → X^g on whole limbs (R97, R98, R100). -/
def execAuto (x : Exec) (s : State) : Res := runExec (x.netOk 1) x (netWork x autoStep none) s

/-- MULX: multiplication by ±X^m, on the network or as a pointwise product (R99). -/
def execMulx (x : Exec) (s : State) : Res := runExec (x.netOk 2) x (mulxWork x) s

end Sys2Proof.Machine
end

