-- ==== Sys2Proof/Machine/Windows.lean ====
section
/-! DEFINITION. Accesses through handles of every kind and the loft cache (R27, R242, R244..R250, R271), and blocks sent to an
array of this package or over a link (R254, R363). -/

namespace Sys2Proof.Machine

/-- An endpoint of SPACE 1 that names this package is one of its own lofts. -/
def State.ownEndpoint (s : State) (e : Endpoint) : Endpoint := match e with
  | .far p d a h o => if p = s.dom.pkgAddr then .loft d a h o else e
  | e => e

/-- A reference to a job and an incarnation is stale (R415): the job is not held, or its incarnation has risen. -/
def State.staleRef (s : State) (r : Option (Nat × Nat)) : Bool := match r with
  | none => false
  | some (i, inc) => match s.job? i with
    | none => true
    | some j => decide (inc < j.inc)

/-- Bytes from `base` with those of a write at `at'` over them. -/
def overlay (base : Nat) (bs : List Byte) (at' : Nat) (ws : List Byte) : List Byte :=
  bs.zipIdx.map fun e => if at' ≤ base + e.2 ∧ base + e.2 < at' + ws.length then ws.getD (base + e.2 - at') 0 else e.1

/-- The stores that the core of array `a` has sent to an array's loft and that have not landed: loft byte and bytes, oldest first
(R249 item 1). -/
def State.pendingStores (s : State) (a : ArrId) (x : Arr) : List (Nat × List Byte) :=
  x.landing.flatMap fun v =>
    if v.core == some a && !s.staleRef v.job then [((handleOf x v.handle).target.toNat + v.off, v.rows.flatten)] else []

/-- Bytes of a LOCAL handle as the core of array `a` sees them: with its own stores that are on their way (R249 item 1). -/
def State.ownView (s : State) (a : ArrId) (x : Arr) (e : Handle) (off len : Nat) : List Byte :=
  (s.pendingStores a x).foldl (fun bs w => overlay (e.target.toNat + off) bs w.1 w.2) (loftRead x e off len)

/-- Bytes of a window's target read for array `a` (R239): the PLAN region, a LOCAL handle of an array of this package with
the core's own stores that are on their way to it (R249), or free bytes of another package, whose contents this part does not
hold (log 34), under the core's own stores that it has not acknowledged. `refused`: the other package refuses the read, as one
of a weight tensor (R271). The subcode of an access that faults otherwise. -/
def State.targetRead (s : State) (a : ArrId) (refused : Bool) (e : Handle) (off len : Nat) :
    Except Nat (List Byte × State) :=
  if e.kind = 2 then .ok (s.planRead (e.target.toNat % 2 ^ 40 + off) len, s)
  else match s.ownEndpoint (endpointOf e.target) with
    | .loft d b h o =>
      let x := s.arr ⟨d, b⟩
      let t := handleOf x h
      match localFault t (o + off) len with
      | some sub => .error sub
      | none => .ok (s.ownView a x t (o + off) len, s)
    | .far .. =>
      if refused then .error 3
      else
        let f := s.freshBytes len
        .ok ((s.arr a).farSt.foldl (fun bs w => overlay (e.target.toNat + off) bs w.1 w.2) f.1, f.2)
    | _ => .error 3

/-- Sets of an array's cache (R245). -/
def cacheSets (x : Arr) : Nat := x.cacheSteps * 1024

/-- The set of a line of a handle at a window offset (R245). -/
def cacheSet (x : Arr) (h line : Nat) : Nat := (line / 128 + 37 * h) % (max 1 (cacheSets x))

/-- The line of a handle is in the cache. -/
def cacheLine (x : Arr) (h line : Nat) : Option CLine :=
  (mget [] x.cache (cacheSet x h line)).find? fun c => c.handle == h && c.off == line

/-- Put a line in its set as the most recent; the least recent of four leaves (R245). -/
def cachePut (x : Arr) (c : CLine) : Arr :=
  let i := cacheSet x c.handle c.off
  let set := (mget [] x.cache i).filter fun d => !(d.handle == c.handle && d.off == c.off)
  { x with cache := mset [] x.cache i ((c :: set).take 4) }

/-- Remove the lines that satisfy a test. -/
def cacheDrop (x : Arr) (f : CLine → Bool) : Arr :=
  { x with cache := (x.cache.map fun e => (e.1, e.2.filter fun c => !f c)).filter fun e => !e.2.isEmpty }

/-- One 128-byte line of a window through the cache: a hit becomes most recent, a miss fetches the whole line (R246). -/
def State.windowLine (s : State) (a : ArrId) (refused : Bool) (h line : Nat) : Except Nat (List Byte × State) :=
  let x := s.arr a
  match (if cacheSets x = 0 then none else cacheLine x h line) with
  | some c =>
    .ok (c.bytes, s.setArr a { cachePut x c with cnt := { x.cnt with hits := bump64 x.cnt.hits } })
  | none =>
    match s.targetRead a refused (handleOf x h) line 128 with
    | .error e => .error e
    | .ok (bs, s) => .ok (bs, s.modArr a fun x =>
        let x := if cacheSets x = 0 then x else cachePut x { handle := h, off := line, bytes := bs }
        { x with cnt := { x.cnt with misses := bump64 x.cnt.misses } })

/-- Bytes through a window, line by line (R246). -/
def State.windowRead (s : State) (a : ArrId) (refused : Bool) (h off len : Nat) : Except Nat (List Byte × State) :=
  let first := off / 128
  let n := if len = 0 then 0 else (off + len - 1) / 128 - first + 1
  let r := (List.range n).foldl (fun (acc : Except Nat (List Byte × State)) i =>
    match acc with
    | .error e => .error e
    | .ok (bs, s) => match s.windowLine a refused h ((first + i) * 128) with
      | .error e => .error e
      | .ok (l, s) => .ok (bs ++ l, s)) (.ok ([], s))
  match r with
  | .error e => .error e
  | .ok (bs, s) => .ok (slice bs (off - first * 128) len, s)

/-- The subcode of an access of `len` bytes at `off` through a handle of any kind that may read (R242). -/
def readFault (e : Handle) (off len : Nat) : Option Nat :=
  if e.kind = 0 then some 3 else if e.length.toNat < off + len then some 1 else none

/-- Bytes through a handle of any kind, by the control core's LD or a DMA read (R242): the subcode of a fault. -/
def State.handleRead (s : State) (a : ArrId) (refused : Bool) (h off len : Nat) : Except Nat (List Byte × State) :=
  let x := s.arr a
  let e := handleOf x h
  match readFault e off len with
  | some sub => .error sub
  | none => if e.kind = 1 then .ok (loftRead x e off len, s) else s.windowRead a refused h off len

/-! ## Errors of the loft rows that a read meets (R234) -/

/-- Where the loft bytes of a read lie: a row of an array's loft, a line of its cache, or nowhere in a loft of this part. -/
inductive LoftSpot where
  | row (a : ArrId) (row : Nat)
  | line (handle off : Nat)
  | none
  deriving DecidableEq, Repr

/-- Where a read through a handle at a byte offset meets a loft: the handle's own row, the cached line, or the row of the
window's target. -/
def State.loftSpot (s : State) (a : ArrId) (h off : Nat) : LoftSpot :=
  let x := s.arr a
  let e := handleOf x h
  if e.kind = 1 then .row a ((e.target.toNat + off) / 1024)
  else if (cacheLine x h (off / 128 * 128)).isSome then .line h (off / 128 * 128)
  else if e.kind = 3 then match s.ownEndpoint (endpointOf e.target) with
    | .loft d b t o => .row ⟨d, b⟩ (((handleOf (s.arr ⟨d, b⟩) t).target.toNat + o + off) / 1024)
    | _ => .none
  else .none

/-- Restore what an uncorrectable error of a read has hit (R234): the row, or the cached line is invalidated. -/
def State.restoreSpot (s : State) (a : ArrId) (p : LoftSpot) : State := match p with
  | .row b r => s.restoreRow b r
  | .line h o => s.modArr a fun x => cacheDrop x fun l => l.handle == h && l.off == o
  | .none => s

/-- Count a corrected error of a read against the array whose loft has it (R234). -/
def State.correctedSpot (s : State) (a : ArrId) (p : LoftSpot) : State := match p with
  | .row b _ => s.corrected b true
  | .line _ _ => s.corrected a true
  | .none => s

/-! ## Sending a block -/

/-- Bytes of the arrivals that wait in a landing buffer (R238). -/
def landingBytes (x : Arr) : Nat := x.landing.foldl (fun n v => n + (v.rows.map (·.length)).foldl (· + ·) 0) 0

/-- The high-water mark of a landing buffer that takes `n` bytes more (R238, R262). -/
def State.noteLanding (s : State) (b : ArrId) (n : Nat) : State :=
  s.modArr b fun x => { x with cnt := { x.cnt with landHwm := max x.cnt.landHwm (min 32768 (landingBytes x + n)) } }

/-- Queue an arrival at an array of this package: it stands for a block whose units pass through the buffer of 32 KiB, which they
never overfill (R238, log 75). -/
def State.queueArrival (s : State) (b : ArrId) (v : Arrival) : State :=
  (s.noteLanding b (v.rows.map (·.length)).sum).modArr b fun x => { x with landing := x.landing ++ [v] }

/-- Cut bytes into pieces of n, the last padded with zeros. -/
def chunks (n : Nat) : Nat → List Byte → List (List Byte)
  | 0, _ => []
  | k + 1, bs => if bs.isEmpty then [] else slice bs 0 n :: chunks n k (bs.drop n)

/-- Send a block over a path: OPEN, then its bytes in DATA frames of 256 (R363). -/
def State.sendBlock (s : State) (p : RPath) (o : OpenBody) (rows : List (List Byte)) : State :=
  let bs := rows.flatten
  let s := s.txFrame p.egress p.chan (.openFrame o)
  (chunks 256 (bs.length / 256 + 1) bs).foldl (fun s c => s.txFrame p.egress p.chan (.data c)) s

end Sys2Proof.Machine
end

