-- ==== Sys2Proof/Machine/ControlCore.lean ====
section
/-! DEFINITION. The control core of an array (R185..R190, R210..R216, R220, R221, R250, R537, R540): one meaning for each
access-stream word, over a shared frame that holds the predicate, the stalls and the instruction's faults. -/

namespace Sys2Proof.Machine

/-! ## Registers and predicates (R185, R186) -/

/-- A general register; S0 reads 0. -/
def coreReg (k : Core) (r : Nat) : DWord := if r = 0 then 0 else mget 0 k.regs r

/-- Write a general register; a write to S0 is ignored. -/
def setCoreReg (k : Core) (r : Nat) (v : DWord) : Core := if r = 0 then k else { k with regs := mset 0 k.regs r v }

/-- A predicate; P0 reads true. -/
def corePred (k : Core) (p : Nat) : Bool := p == 0 || k.preds.getLsbD p

/-- Write predicate P1..P3. -/
def setCorePred (k : Core) (p : Nat) (v : Bool) : Core :=
  if p = 0 then k
  else { k with preds := if v then k.preds ||| (1 : BitVec 4) <<< p else k.preds &&& ~~~((1 : BitVec 4) <<< p) }

/-- The instruction's predicate holds. -/
def predTrue (k : Core) (c : CcWord) : Bool := corePred k c.pred.toNat != c.pneg

/-- The immediate, sign-extended to 64 bits. -/
def immS (c : CcWord) : DWord := c.imm.signExtend 64

/-- Operand B: RS2, or IMM with X[0] (R537). -/
def opB (k : Core) (c : CcWord) : DWord := if c.x.getLsbD 0 then immS c else coreReg k c.rs2.toNat

/-! ## The frame of an instruction -/

/-- The next word of the stream. -/
def nextPc (x : Arr) : Arr := { x with core := { x.core with pc := x.core.pc + 1 } }

/-- Change the core of an array. -/
def State.modCore (s : State) (a : ArrId) (f : Core → Core) : State := s.modArr a fun x => { x with core := f x.core }

/-- An instruction of a running slot: nothing while the slot is abandoned, the core has ended or stalls; a fault on an
uncorrectable read of the instruction store (R306); otherwise `f`, with the predicate's value, and the next word. -/
def State.coreStep (s : State) (c : CcWord) (f : SlotRun → Bool → State → State) : State :=
  match s.runOf c.arr with
  | none => s
  | some r =>
    let k := (s.arr c.arr).core
    if r.abandoned || k.ended || k.stall.isSome then s
    else if c.dets.any fun d => d.kind == .storeUncorr then
      (s.coreFault c.arr 2 3 (k.pc * 8)).modArr c.arr nextPc
    else f r (predTrue k c) s

/-- An instruction that changes only the core's registers and predicates, when its predicate holds. -/
def State.coreAlu (s : State) (c : CcWord) (f : Core → Core) : State :=
  s.coreStep c fun _ p s => s.modArr c.arr fun x => nextPc (if p then { x with core := f x.core } else x)

/-- Every access-stream word: well formed, on an array of a running slot. -/
def runCore (ok : Bool) (c : CcWord) (s : State) (t : State) : Res :=
  need c.arr.wf "array" <| formed ok "access-stream word" <|
    arises ((s.runOf c.arr).any s.issues) "no JOB slot runs on the array" <| .next t

/-- RD takes a function of RS1 and B. -/
def aluWord (g : DWord → DWord → DWord) (c : CcWord) (s : State) : Res :=
  runCore c.binOk c s <| s.coreAlu c fun k => setCoreReg k c.rd.toNat (g (coreReg k c.rs1.toNat) (opB k c))

/-- Predicate RD takes a comparison of RS1 and B. -/
def cmpWord (g : DWord → DWord → Bool) (c : CcWord) (s : State) : Res :=
  runCore c.cmpOk c s <| s.coreAlu c fun k => setCorePred k c.rd.toNat (g (coreReg k c.rs1.toNat) (opB k c))

/-! ## Integer, multiply and compare -/

/-- CC_END: the core issues nothing more in the slot (R537). -/
def execCcEnd (c : CcWord) (s : State) : Res :=
  runCore (c.plain && c.fields false false false false false) c s <|
    s.coreStep c fun _ _ s => s.modCore c.arr fun k => { k with ended := true }

/-- CC_ADD: RD ← RS1 + B (R537). -/
def execCcAdd (c : CcWord) (s : State) : Res := aluWord (fun a b => a + b) c s
/-- CC_SUB: RD ← RS1 − B (R537). -/
def execCcSub (c : CcWord) (s : State) : Res := aluWord (fun a b => a - b) c s
/-- CC_AND: RD ← RS1 AND B (R537). -/
def execCcAnd (c : CcWord) (s : State) : Res := aluWord (fun a b => a &&& b) c s
/-- CC_OR: RD ← RS1 OR B (R537). -/
def execCcOr (c : CcWord) (s : State) : Res := aluWord (fun a b => a ||| b) c s
/-- CC_XOR: RD ← RS1 XOR B (R537). -/
def execCcXor (c : CcWord) (s : State) : Res := aluWord (fun a b => a ^^^ b) c s
/-- CC_SHL: RD ← RS1 shifted left by B modulo 64 (R537). -/
def execCcShl (c : CcWord) (s : State) : Res := aluWord (fun a b => a <<< (b.toNat % 64)) c s
/-- CC_SHR: RD ← RS1 shifted right, zeros in, by B modulo 64 (R537). -/
def execCcShr (c : CcWord) (s : State) : Res := aluWord (fun a b => a >>> (b.toNat % 64)) c s
/-- CC_SAR: RD ← RS1 shifted right, sign in, by B modulo 64 (R537). -/
def execCcSar (c : CcWord) (s : State) : Res := aluWord (fun a b => a.sshiftRight (b.toNat % 64)) c s
/-- CC_MIN: RD ← the signed minimum of RS1 and B (R537). -/
def execCcMin (c : CcWord) (s : State) : Res := aluWord (fun a b => if a.toInt ≤ b.toInt then a else b) c s
/-- CC_MAX: RD ← the signed maximum of RS1 and B (R537). -/
def execCcMax (c : CcWord) (s : State) : Res := aluWord (fun a b => if a.toInt ≤ b.toInt then b else a) c s

/-- LI: RD ← IMM, sign-extended (R537). -/
def execLi (c : CcWord) (s : State) : Res :=
  runCore (c.fields true false false false true) c s <| s.coreAlu c fun k => setCoreReg k c.rd.toNat (immS c)

/-- LUI: RD[63:32] ← IMM, RD[31:0] unchanged (R537). -/
def execLui (c : CcWord) (s : State) : Res :=
  runCore (c.fields true false false false true) c s <| s.coreAlu c fun k =>
    setCoreReg k c.rd.toNat (c.imm ++ (coreReg k c.rd.toNat).extractLsb' 0 32)

/-- CC_MUL: RD ← the low 64 bits of RS1 × RS2 (R537). -/
def execCcMul (c : CcWord) (s : State) : Res :=
  runCore (c.fields true true true false false) c s <| s.coreAlu c fun k =>
    setCoreReg k c.rd.toNat (coreReg k c.rs1.toNat * coreReg k c.rs2.toNat)

/-- CC_MULH: RD ← the high 64 bits of the signed 128-bit product RS1 × RS2 (R537). -/
def execCcMulh (c : CcWord) (s : State) : Res :=
  runCore (c.fields true true true false false) c s <| s.coreAlu c fun k =>
    setCoreReg k c.rd.toNat
      (BitVec.ofInt 64 ((coreReg k c.rs1.toNat).toInt * (coreReg k c.rs2.toNat).toInt / 2 ^ 64))

/-- CC_CMP_EQ: P(RD) ← RS1 = B (R537). -/
def execCcCmpEq (c : CcWord) (s : State) : Res := cmpWord (fun a b => a == b) c s
/-- CC_CMP_LT: P(RD) ← RS1 < B, signed (R537). -/
def execCcCmpLt (c : CcWord) (s : State) : Res := cmpWord (fun a b => decide (a.toInt < b.toInt)) c s
/-- CC_CMP_LTU: P(RD) ← RS1 < B, unsigned (R537). -/
def execCcCmpLtu (c : CcWord) (s : State) : Res := cmpWord (fun a b => decide (a.toNat < b.toNat)) c s

/-! ## Loops (R186) -/

/-- The word after the ENDL that closes a loop whose body begins at `pc`, in the instruction store; the end of the
stream where none does. -/
def afterEndl : List DWord → Nat → Nat → Nat
  | [], _, pc => pc
  | w :: ws, depth, pc =>
    let opc := bits w.toNat 63 58
    if opc = 0x18 then afterEndl ws (depth + 1) (pc + 1)
    else if opc = 0x19 then (match depth with | 0 => pc + 1 | d + 1 => afterEndl ws d (pc + 1))
    else afterEndl ws depth (pc + 1)

/-- LOOP: opens a counted loop; a count of 0 goes to the word after the matching ENDL (R537). -/
def execLoop (c : CcWord) (s : State) : Res :=
  runCore (c.plain && (c.x == 0 || c.x == 1) && c.fields false (c.x == 0) false true (c.x == 1)) c s <|
    s.coreStep c fun _ _ s => s.modArr c.arr fun x =>
      let k := x.core
      let n := if c.x = 0 then (coreReg k c.rs1.toNat).toNat else c.imm.toNat
      { x with core :=
          if n = 0 then { k with pc := afterEndl (x.istore.drop (k.base + k.pc + 1)) 0 (k.pc + 1) }
          else { k with loops := (k.pc + 1, n) :: k.loops, pc := k.pc + 1 } }

/-- ENDL: closes the innermost loop, or begins its next pass (R537). -/
def execEndl (c : CcWord) (s : State) : Res :=
  runCore (c.plain && c.fields false false false false false) c s <|
    s.coreStep c fun _ _ s => s.modCore c.arr fun k =>
      match k.loops with
      | (b, n) :: l => if 2 ≤ n then { k with loops := (b, n - 1) :: l, pc := b } else { k with loops := l, pc := k.pc + 1 }
      | [] => { k with pc := k.pc + 1 }

/-! ## Memory (R188, R242, R246, R250) -/

/-- The byte offset of an access: RS1 + IMM. -/
def coreOff (k : Core) (c : CcWord) : Nat := (coreReg k c.rs1.toNat + immS c).toNat

/-- Zero- or sign-extension of the low 8·b bits to 64. -/
def extTo64 (b : Nat) (signed : Bool) (v : Nat) : DWord :=
  if signed then BitVec.ofInt 64 (sNat (8 * b) v) else BitVec.ofNat 64 (v % 2 ^ (8 * b))

/-- A fault of the instruction at the core's place. -/
def State.coreFail (s : State) (a : ArrId) (kind sub : Nat) : State :=
  (s.coreFault a kind sub ((s.arr a).core.pc * 8)).modArr a nextPc

/-- Corrected errors that a word meets, those of the loft on reads through handle `h` at byte offset `off` of row 0. -/
def State.coreCorrected (s : State) (c : CcWord) (h off : Nat) : State :=
  c.dets.foldl (fun s d => match d.kind with
    | .cribCorr => s.corrected c.arr false
    | .loftCorr => s.correctedSpot c.arr (s.loftSpot c.arr h (off + d.step * 1024))
    | _ => s) s

/-- The uncorrectable loft error that a word meets: the row of its transfer. -/
def loftBad (c : CcWord) : Option Nat := (c.dets.find? fun d => d.kind == .loftUncorr).map (·.step)

/-- A read that meets an uncorrectable error of a loft faults, and the row is restored (R234). -/
def State.coreEcc (s : State) (c : CcWord) (h off row : Nat) : State :=
  let p := s.loftSpot c.arr h (off + row * 1024)
  (s.coreFail c.arr 2 4).restoreSpot c.arr p

/-- A value that an undetected error has changed reads as that value (R535). -/
def seenWord (c : CcWord) (v : Nat) : Nat :=
  c.dets.foldl (fun v d => match d.kind with | .wrong w => w.toNat | _ => v) v

/-- A load's bytes: through the cache, or past it once after ACQ.B (R250). -/
def State.coreLoad (s : State) (c : CcWord) (h off b : Nat) : Except Nat (List Byte × State) :=
  let a := c.arr
  let x := s.arr a
  let e := handleOf x h
  if x.bypass.contains h ∧ 2 ≤ e.kind.toNat then
    if e.length.toNat < off + b then .error 1
    else match s.targetRead a c.refused e off b with
      | .error n => .error n
      | .ok (bs, s) => .ok (bs, s.modArr a fun x => cacheDrop x fun l => l.handle == h && l.off == off / 128 * 128)
  else if e.kind = 1 ∧ off + b ≤ e.length.toNat then .ok (s.ownView a x e off b, s)
  else s.handleRead a c.refused h off b

/-- LD: RD ← 2^RS2[1:0] bytes of handle X at RS1 + IMM, extended (R188, R537). The next LD through the handle after ACQ.B is
this one, whatever it finds (R250). -/
def execLd (c : CcWord) (s : State) : Res :=
  runCore (c.fields true true true true true && decide (c.rs2.toNat ≤ 7)) c s <|
    s.coreStep c fun _ p s =>
      if !p then s.modArr c.arr nextPc
      else
        let k := (s.arr c.arr).core
        let off := coreOff k c
        let b := 2 ^ (c.rs2.toNat % 4)
        let h := c.x.toNat
        let e := handleOf (s.arr c.arr) h
        let r := s.coreLoad c h off b
        let t := s.modArr c.arr fun x => { x with bypass := x.bypass.filter (· != h) }
        if e.kind = 0 then t.coreFail c.arr 7 3
        else if off % b ≠ 0 then t.coreFail c.arr 7 2
        else match r with
          | .error sub => t.coreFail c.arr 7 sub
          | .ok (bs, u) =>
            let t := t.coreCorrected c h off
            match loftBad c, s.loftSpot c.arr h off with
            | some _, .row a n => (t.coreFail c.arr 2 4).restoreSpot c.arr (.row a n)
            | some _, .line l o => (t.coreFail c.arr 2 4).restoreSpot c.arr (.line l o)
            | _, _ =>
              let v := extTo64 b (c.rs2.getLsbD 2) (seenWord c (leNat bs))
              (u.coreCorrected c h off).modArr c.arr fun x =>
                nextPc { x with bypass := x.bypass.filter (· != h), core := setCoreReg x.core c.rd.toNat v }

/-- The job that an array's own traffic is stamped with: that of the run's lowest position (R219, R415, log 35). -/
def stampOf (s : State) (r : SlotRun) : Option (Nat × Nat) :=
  ((sortBy (·.1) r.jobs).head?).bind fun p => (s.job? p.2).map fun j => (j.idx, mget 0 r.incs p.1)

/-- A store through a REMOTE window, handed to the die fabric (R246, R254). -/
def State.remoteStore (s : State) (a : ArrId) (r : SlotRun) (e : Handle) (off : Nat) (bs : List Byte) : Except Nat State :=
  match s.ownEndpoint (endpointOf e.target) with
  | .loft d b h o =>
    let t := handleOf (s.arr ⟨d, b⟩) h
    match localFault t (o + off) bs.length with
    | some sub => .error sub
    | none =>
      if !t.rwrite && (⟨d, b⟩ : ArrId) != a then .error 3
      else .ok (s.queueArrival ⟨d, b⟩ { handle := h, off := o + off, rows := [bs], job := stampOf s r, core := some a })
  | .far p d b h o =>
    match s.firstPath p a.die with
    | none => .error 3
    | some path =>
      let dst : DWord := BitVec.ofNat 64 (2 ^ 61 + p * 2 ^ 52 + d * 2 ^ 49 + b * 2 ^ 43 + h * 2 ^ 35 + (o + off))
      let j := (stampOf s r).bind fun q => s.job? q.1
      let s := s.modArr a fun x => { x with farSt := x.farSt ++ [(e.target.toNat + off, bs)] }
      .ok (s.sendBlock path
        { dst := dst, len := bs.length, rows := 1, aop := 0, bflags := 0, dstride := 0
          inc := (match stampOf s r with | some q => q.2 | none => 0), group := 0, cstate := 0, domain := false, sheaf := false
          level := 0, srcLarr := globalOf a, block := 0
          jobId := (match j with | some j => j.jobId | none => 0), dseq := 0xFFFFFFFF } [bs])
  | _ => .error 3

/-- ST: the low 2^RS2[1:0] bytes of RD → handle X at RS1 + IMM (R188, R246, R537). Where an earlier store of the core to the
same bytes has not landed yet, one by the LOCAL handle takes its turn behind it (R249 item 1). -/
def execSt (c : CcWord) (s : State) : Res :=
  runCore (c.fields true true true true true && decide (c.rs2.toNat ≤ 3)) c s <|
    s.coreStep c fun r p s =>
      if !p then s.modArr c.arr nextPc
      else
        let x := s.arr c.arr
        let off := coreOff x.core c
        let b := 2 ^ c.rs2.toNat
        let h := c.x.toNat
        let e := handleOf x h
        let bs := leBytes b (coreReg x.core c.rd.toNat).toNat
        if e.kind = 0 ∨ e.kind = 2 then s.coreFail c.arr 7 3
        else if off % b ≠ 0 then s.coreFail c.arr 7 2
        else if e.length.toNat < off + b then s.coreFail c.arr 7 1
        else if e.kind = 1 then
          let lies := e.target.toNat + off
          let meets := (s.pendingStores c.arr x).any fun w => decide (w.1 < lies + b ∧ lies < w.1 + w.2.length)
          (if meets then s.queueArrival c.arr { handle := h, off := off, rows := [bs], job := stampOf s r, core := some c.arr }
            else s.plainWrite c.arr h off 0 [bs] 8).modArr c.arr nextPc
        else match s.remoteStore c.arr r e off bs with
          | .error sub => s.coreFail c.arr 7 sub
          | .ok s => s.modArr c.arr fun x => nextPc (match cacheLine x h (off / 128 * 128) with
              | some l => cachePut x { l with
                  bytes := l.bytes.take (off % 128) ++ bs ++ l.bytes.drop (off % 128 + b) }
              | none => x)

/-- LDJ: RD ← 8 bytes of the job descriptor of batch position RS1[2:0] at IMM; an unfilled position reads 0 (R537). -/
def execLdj (c : CcWord) (s : State) : Res :=
  runCore (c.fields true true false false true && decide (c.imm.toNat ≤ 56 ∧ c.imm.toNat % 8 = 0)) c s <|
    s.coreStep c fun r p s => s.modArr c.arr fun x => nextPc <|
      if p then
        let v := match (filledPositions r).find? fun q => q.1 == (coreReg x.core c.rs1.toNat).toNat % 8 with
          | some q => (match s.job? q.2 with
            | some j => field j.desc c.imm.toNat 8
            | none => 0)
          | none => 0
        { x with core := setCoreReg x.core c.rd.toNat (BitVec.ofNat 64 v) }
      else x

/-- A special register (R185, R537): 0 CYC, 1 EPOCH, 2 FILL, 3 STAT, 4 LARR, 5 PSLOT. -/
def State.special (s : State) (a : ArrId) (r : SlotRun) (n : Nat) : Nat :=
  match n with
  | 0 => s.slotCycle r % 2 ^ 32
  | 1 => r.epoch % 2 ^ 32
  | 2 => fillMask r
  | 3 => (s.arr a).status.toNat
  | 4 => a.arr
  | _ => s.pslot a

/-- MFS: RD ← special register X, zero-extended (R185, R537). -/
def execMfs (c : CcWord) (s : State) : Res :=
  runCore (c.fields true false false true false && decide (c.x.toNat ≤ 5)) c s <|
    s.coreStep c fun r p s => s.modArr c.arr fun x => nextPc <|
      if p then { x with core := setCoreReg x.core c.rd.toNat (BitVec.ofNat 64 (s.special c.arr r c.x.toNat)) } else x

/-! ## Queues (R186, R189, R210) -/

/-- Push to the address queue, or stall while it holds 32 entries (R189, R210). -/
def pushAq (x : Arr) (e : DWord) : Arr :=
  if x.aq.length < 32 then { x with aq := x.aq ++ [e] } else { x with core := { x.core with stall := some (.aqFull e) } }

/-- Push to the operand queue, or stall while it holds 64 entries. -/
def pushOq (x : Arr) (e : Word) : Arr :=
  if x.oq.length < 64 then { x with oq := x.oq ++ [e] } else { x with core := { x.core with stall := some (.oqFull e) } }

/-- Consume n tokens, or stall until they are present. -/
def takeTokens (x : Arr) (n : Nat) : Arr :=
  if n ≤ x.tokens then { x with tokens := x.tokens - n } else { x with core := { x.core with stall := some (.tokens n) } }

/-- AQPUSH: pushes RS1 to the address queue; a zero entry when its predicate is false (R186, R214). -/
def execAqpush (c : CcWord) (s : State) : Res :=
  runCore (c.fields false true false false false) c s <|
    s.coreStep c fun _ p s => s.modArr c.arr fun x => nextPc (pushAq x (if p then coreReg x.core c.rs1.toNat else 0))

/-- OQPUSH: pushes RS1[31:0] to the operand queue; a zero entry when its predicate is false (R186). -/
def execOqpush (c : CcWord) (s : State) : Res :=
  runCore (c.fields false true false false false) c s <|
    s.coreStep c fun _ p s => s.modArr c.arr fun x =>
      nextPc (pushOq x (if p then (coreReg x.core c.rs1.toNat).extractLsb' 0 32 else 0))

/-- TQWAIT: waits for IMM tokens and consumes them, whatever its predicate (R186, R189, log 36). -/
def execTqwait (c : CcWord) (s : State) : Res :=
  runCore (c.fields false false false false true && decide (1 ≤ c.imm.toNat ∧ c.imm.toNat ≤ 16)) c s <|
    s.coreStep c fun _ _ s => s.modArr c.arr fun x => nextPc (takeTokens x c.imm.toNat)

/-! ## Transfers (R75, R537) -/

/-- The rows of an XFER: first row, number, minus nothing: IMM[7:0] .. IMM[7:0] + IMM[15:8]. -/
def xferRows (c : CcWord) : Nat × Nat := (c.imm.toNat % 256, c.imm.toNat / 256 % 256 + 1)

/-- The fault of an XFER's range, if any: kind and subcode. -/
def xferFault (e : Handle) (off rows : Nat) : Option Nat :=
  if e.kind != 1 then some 3 else if off % 1024 ≠ 0 then some 2
  else if e.length.toNat < off + rows * 1024 then some 1 else none

/-- The words of a row of a transfer with what an undetected error has made of them (R535). -/
def seenXfer (c : CcWord) (i : Nat) (ws : List Nat) : List Nat :=
  c.dets.foldl (fun ws d => match d.kind with
    | .wrong v => if d.step = i then ws.set d.cell v.toNat else ws
    | _ => ws) ws

/-- Crib rows from `row` take loft rows of a handle from a byte offset, with their tracked states (R75, R537). -/
def xferIn (ps : List PSet) (c : CcWord) (h off row n : Nat) (x : Arr) : Arr :=
  let states := (List.range n).map fun i => streamState ps x h (off + i * 1024)
  states.zipIdx.foldl (fun x t =>
    setRowState (setCribRow x (row + t.2) (seenXfer c t.2 (toWords (loftRead x (handleOf x h) (off + t.2 * 1024) 1024))))
      (row + t.2) t.1) x

/-- Loft rows of a handle from a byte offset take crib rows from `row`, with their tracked states (R75, R240, R537). -/
def xferOut (ps : List PSet) (c : CcWord) (h off row n : Nat) (x : Arr) : Arr :=
  (List.range n).foldl (fun x i =>
    let e := handleOf x h
    let o := off + i * 1024
    let t := rowState x (row + i)
    let y := loftWrite x e o (ofWords (seenXfer c i (cribRow x (row + i))))
    trackWrite ps (setPos y (e.target.toNat + o) 1024 t.pos) h o t) x

/-- XFER_LC: crib rows ← loft rows of handle X from byte offset RS1 (R75, R537). -/
def execXferLc (c : CcWord) (s : State) : Res :=
  runCore (c.fields false true false true true && decide (c.imm.toNat % 256 + c.imm.toNat / 256 % 256 ≤ 255)) c s <|
    s.coreStep c fun _ p s =>
      if !p then s.modArr c.arr nextPc
      else
        let x := s.arr c.arr
        let off := (coreReg x.core c.rs1.toNat).toNat
        let h := c.x.toNat
        let e := handleOf x h
        let r := xferRows c
        let ps := s.env.psets
        match xferFault e off r.2 with
        | some sub => s.coreFail c.arr 7 sub
        | none =>
          let s := s.coreCorrected c h off
          match loftBad c with
          | some row => s.coreEcc c h off row
          | none =>
            if (List.range r.2).any fun i => poisoned (streamState ps x h (off + i * 1024)) then s.coreFail c.arr 1 1
            else s.modArr c.arr fun x => nextPc (xferIn ps c h off r.1 r.2 x)

/-- XFER_CL: crib rows → loft rows of handle X from byte offset RS1 (R75, R240, R537). -/
def execXferCl (c : CcWord) (s : State) : Res :=
  runCore (c.fields false true false true true && decide (c.imm.toNat % 256 + c.imm.toNat / 256 % 256 ≤ 255)) c s <|
    s.coreStep c fun _ p s =>
      if !p then s.modArr c.arr nextPc
      else
        let x := s.arr c.arr
        let off := (coreReg x.core c.rs1.toNat).toNat
        let h := c.x.toNat
        let e := handleOf x h
        let r := xferRows c
        let ps := s.env.psets
        match xferFault e off r.2 with
        | some sub => s.coreFail c.arr 7 sub
        | none =>
          let s := s.coreCorrected c h off
          if c.dets.any fun d => d.kind == .cribUncorr then s.coreFail c.arr 2 1
          else if (List.range r.2).any fun i => poisoned (rowState x (r.1 + i)) then s.coreFail c.arr 1 1
          else s.aside c.arr fun x => nextPc (xferOut ps c h off r.1 r.2 x)

/-! ## Requests (R216, R217, R219..R221) -/

/-- A block of a descriptor (R217); a reserved AOP reads as 0 (R7). -/
def blockOf (bs : List Byte) : Block :=
  { src := BitVec.ofNat 64 (field bs 0 8), dst := BitVec.ofNat 64 (field bs 8 8), len := field bs 16 4
    rows := field bs 20 2, aop := if field bs 22 1 ≤ 7 then field bs 22 1 else 0, bflags := BitVec.ofNat 8 (field bs 23 1)
    sstride := field bs 24 4, dstride := field bs 28 4 }

/-- The die DMA takes the descriptor at a handle's offset (R216, R219, R220): a fault's subcode, or the state that holds it. A
reserved GROUP reads as 0 (R7). -/
def State.acceptDesc (s : State) (a : ArrId) (r : SlotRun) (h off : Nat) : Except Nat State :=
  let x := s.arr a
  let e := handleOf x h
  if e.kind != 1 then .error 3
  else if off % 64 ≠ 0 then .error 2
  else if e.length.toNat < off + 32 then .error 1
  else
    let hd := loftRead x e off 32
    let n := field hd 0 2
    if n = 0 ∨ 4096 < n ∨ e.length.toNat < off + 32 + 32 * n then .error 1
    else
      let d : Desc :=
        { arr := a, dseq := x.dseq, group := if field hd 2 1 ≤ 15 then field hd 2 1 else 0, token := bit (field hd 3 1) 0
          slot := r.slot, epoch := r.epoch, jobs := r.jobs, incs := r.incs
          blocks := (List.range n).map fun i => blockOf (loftRead x e (off + 32 + 32 * i) 32) }
      let s := s.modDie a.die fun y => { y with descs := y.descs ++ [d] }
      .ok (s.modArr a fun x => { x with dseq := (x.dseq + 1) % 2 ^ 32, reqs := x.reqs ++ [.desc d.dseq] })

/-- The die DMA's list is full (R220). -/
def State.dmaFull (s : State) (die : Nat) : Bool := decide (256 ≤ (s.die die).descs.length)

/-- DMAQ: passes the descriptor at handle X, offset RS1 + IMM, to the die DMA, or stalls (R216, R220, R537). -/
def execDmaq (c : CcWord) (s : State) : Res :=
  runCore (c.fields false true false true true) c s <|
    s.coreStep c fun r p s =>
      if !p then s.modArr c.arr nextPc
      else
        let off := coreOff (s.arr c.arr).core c
        if s.dmaFull c.arr.die then
          (s.modArr c.arr nextPc).modCore c.arr fun k => { k with stall := some (.dmaFull c.x.toNat off) }
        else match s.acceptDesc c.arr r c.x.toNat off, loftBad c with
          | .error sub, _ => s.coreFail c.arr 7 sub
          | .ok _, some row => (s.coreCorrected c c.x.toNat off).coreEcc c c.x.toNat off row
          | .ok s, none => (s.coreCorrected c c.x.toNat off).modArr c.arr nextPc

/-- A destination of a unit's request: a loft endpoint of SPACE 0 (R221). -/
def loftEndpoint (w : DWord) : Bool := match endpointOf w with | .loft .. => true | _ => false

/-- A request that keeps the table of R221. -/
def unitReqOk (q : UnitReq) (rsvd : Nat) : Bool :=
  rsvd == 0 && loftEndpoint q.dst &&
  (match q.unit with
   | 1 => q.p2 == 0 && q.src == 0 && decide (0 < q.len)
   | 2 => decide (q.p0 ≤ 2) && (q.p0 == 2 || q.p1 == 0) && (q.p0 != 2 || decide (1 ≤ q.p1)) && q.p2 != 0 &&
       q.src.toNat % 2048 == 0 && q.len % 2048 == 0 && decide (0 < q.len) &&
       (q.p0 != 2 || (q.len == 65536 && q.src.toNat % 65536 == 0))
   | 3 => q.p2 == 0 && q.keyId == 0 && q.bpos == 0 && q.len == 0 && decide (q.src.toNat < 2 ^ 50) && decide (q.p0 ≤ 7)
   | 4 => q.p2 == 0 && q.keyId == 0 && q.bpos == 0 && q.len == 0 && decide (q.src.toNat < 2 ^ 31) && decide (q.p0 ≤ 7)
   | _ => false)

/-- The request of a 32-byte image (R221). -/
def unitReqOf (bs : List Byte) (a : ArrId) : UnitReq :=
  { arr := a, unit := field bs 0 1, p0 := field bs 1 1, p1 := field bs 2 1, p2 := field bs 3 1
    keyId := field bs 4 2, bpos := field bs 6 1, src := BitVec.ofNat 64 (field bs 8 8)
    dst := BitVec.ofNat 64 (field bs 16 8), len := field bs 24 4 }

/-- REQ: passes the request at handle X, offset RS1 + IMM, to a unit of the die (R221, R537). -/
def execReq (c : CcWord) (s : State) : Res :=
  runCore (c.fields false true false true true) c s <|
    s.coreStep c fun r p s =>
      if !p then s.modArr c.arr nextPc
      else
        let x := s.arr c.arr
        let off := coreOff x.core c
        let e := handleOf x c.x.toNat
        if e.kind != 1 then s.coreFail c.arr 7 3
        else if off % 32 ≠ 0 then s.coreFail c.arr 7 2
        else if e.length.toNat < off + 32 then s.coreFail c.arr 7 1
        else
          let s := s.coreCorrected c c.x.toNat off
          let bs := loftRead x e off 32
          let q := unitReqOf bs c.arr
          if (loftBad c).isSome then s.coreEcc c c.x.toNat off 0
          else if !unitReqOk q (field bs 7 1 + field bs 28 4) then s.coreFail c.arr 7 5
          else
            let n := (s.die c.arr.die).unitSeq
            let job := (r.jobs.find? fun e => e.1 == q.bpos).map (·.2)
            let s := s.modDie c.arr.die fun d =>
              { d with unitSeq := n + 1, units := d.units ++ [{ q with n := n, slot := r.slot, epoch := r.epoch, job := job }] }
            s.modArr c.arr fun x => nextPc { x with reqs := x.reqs ++ [.unit n] }

/-! ## Order and time (R250, R537) -/

/-- ACQ: invalidates every line of handle X; nothing for a LOCAL handle (R250). -/
def execAcq (c : CcWord) (s : State) : Res :=
  runCore (c.fields false false false true false) c s <|
    s.coreStep c fun _ p s => s.modArr c.arr fun x =>
      nextPc (if p then cacheDrop x (fun l => l.handle == c.x.toNat) else x)

/-- ACQ_B: the next LD through handle X bypasses the cache; nothing for a LOCAL handle (R250). -/
def execAcqB (c : CcWord) (s : State) : Res :=
  runCore (c.fields false false false true false) c s <|
    s.coreStep c fun _ p s => s.modArr c.arr fun x =>
      nextPc (if p && (handleOf x c.x.toNat).kind != 1 then { x with bypass := insRow c.x.toNat x.bypass } else x)

/-- FENCE: earlier stores are in the banks and earlier descriptors accepted before the core goes on; in the model both
hold when it issues (R250). -/
def execFence (c : CcWord) (s : State) : Res :=
  runCore (c.fields false false false false false) c s <| s.coreStep c fun _ _ s => s.modArr c.arr nextPc

/-- The release slot of the epoch that the time base has reached (R343). -/
def State.releaseSlot (s : State) : Nat := s.tm.now % epochNs / 64

/-- TWAIT: waits until release slot IMM of the epoch; a slot already passed releases at once (R537). -/
def execTwait (c : CcWord) (s : State) : Res :=
  runCore (c.fields false false false false true && decide (c.imm.toNat ≤ 15624)) c s <|
    s.coreStep c fun _ _ s => s.modArr c.arr fun x =>
      nextPc (if c.imm.toNat ≤ s.releaseSlot then x
        else { x with core := { x.core with stall := some (.time c.imm.toNat) } })

/-- NOP: nothing (R537). -/
def execNop (c : CcWord) (s : State) : Res :=
  runCore (c.fields false false false false false) c s <| s.coreStep c fun _ _ s => s.modArr c.arr nextPc

/-- What the read of a descriptor that waited for room in the DMA's list reports (R234): corrected errors are counted; one that
is not correctable faults the DMAQ, and its row is restored. -/
def State.descErrors (s : State) (a : ArrId) (h off : Nat) (ecc : List (Nat × Bool)) (t : State) : State :=
  let spot (e : Nat × Bool) : LoftSpot := s.loftSpot a h (off + e.1 * 1024)
  let fix (t : State) : State := (ecc.filter (·.2)).foldl (fun t e => t.correctedSpot a (spot e)) t
  let lost := ecc.filter fun e => !e.2
  if lost.isEmpty then fix t
  else lost.foldl (fun t e => t.restoreSpot a (spot e)) ((fix s).coreFault a 2 4 (((s.arr a).core.pc - 1) * 8))

/-- The stalled instruction of an array completes once its condition clears (R189, R220). -/
def State.stallRelease (s : State) (a : ArrId) (ecc : List (Nat × Bool)) : State :=
  let x := s.arr a
  let go (x : Arr) : Arr := { x with core := { x.core with stall := none } }
  match x.core.stall, s.runOf a with
  | some (.aqFull e), _ => s.setArr a (pushAq (go x) e)
  | some (.oqFull e), _ => s.setArr a (pushOq (go x) e)
  | some (.tokens n), _ => s.setArr a (takeTokens (go x) n)
  | some (.time n), _ => if n ≤ s.releaseSlot then s.setArr a (go x) else s
  | some (.dmaFull h off), some r =>
    if s.dmaFull a.die then s
    else
      let s := s.setArr a (go x)
      match s.acceptDesc a r h off with
      | .error sub => s.coreFault a 7 sub ((x.core.pc - 1) * 8)
      | .ok t => s.descErrors a h off ecc t
  | some (.dmaFull _ _), none => s
  | none, _ => s

/-- CC_STALL_RELEASE: a core stalled on a full queue, a full DMA list or missing tokens resumes once the condition
clears (R189, R220). -/
def execCcStallRelease (a : ReadRef) (s : State) : Res := need a.arr.wf "array" <| .next (s.stallRelease a.arr a.ecc)

end Sys2Proof.Machine
end

