-- ==== Sys2Proof/Machine/Dma.lean ====
section
/-! DEFINITION. The die DMA (R216..R224, R253..R262): the release of requests, the move of a block, its landing and its
checks (R40, R59, R60, R412), atomics at their home, acknowledgements and clasps. -/

namespace Sys2Proof.Machine

/-! ## Descriptors and stamps -/

/-- An outstanding descriptor of an array. -/
def State.desc? (s : State) (a : ArrId) (dseq : Nat) : Option Desc :=
  (s.die a.die).descs.find? fun d => d.arr == a && d.dseq == dseq

/-- Change a descriptor. -/
def State.modDesc (s : State) (a : ArrId) (dseq : Nat) (f : Desc → Desc) : State :=
  s.modDie a.die fun x => { x with descs := x.descs.map fun d => if d.arr == a && d.dseq == dseq then f d else d }

/-- Set the progress of a block. -/
def Desc.setBlock (d : Desc) (i : Nat) (st : BlkState) : Desc :=
  { d with blocks := d.blocks.modify i fun b => { b with st := st } }

/-- Note the path a block was sent on (R375). -/
def Desc.setVia (d : Desc) (i : Nat) (p : Nat × Nat) : Desc :=
  { d with blocks := d.blocks.modify i fun b => { b with via := some p } }

/-- The stamp of a block (R219, R415): the job of its SPACE 2 position, else that of the slot's lowest position. -/
def Desc.stamp (d : Desc) (b : Block) : Option (Nat × Nat) :=
  match endpointOf b.src, endpointOf b.dst with
  | .host p _ _, _ => d.job p
  | _, .host p _ _ => d.job p
  | _, _ => ((sortBy (·.1) d.jobs).head?).bind fun p => d.job p.1

/-- The job at a position that still counts as filled: its input not found invalid, and not completed with a status other
than OK (R115, R219, R411, R412). -/
def State.filledJob (s : State) (d : Desc) (bpos : Nat) : Option Job :=
  let bad := match s.runs.find? fun r => r.slot == d.slot && r.epoch == d.epoch with
    | some r => r.bad.any fun e => e.1 == bpos
    | none => false
  if bad then none
  else ((d.job bpos).bind fun j => s.job? j.1).filter fun j => match j.result with
    | some (st, _, _) => st == 0
    | none => true

/-! ## The regulator (R222, R223) -/

/-- 1,024-byte units of a block (log 77): its last part counts as a whole unit, and a compare-and-swap as the 2 × LEN bytes of
its source rows. -/
def blockUnits (b : Block) : Nat := (b.len * b.rows * (if b.aop = 7 then 2 else 1) + 1023) / 1024

/-- The tenant whose bucket governs a block (R222): that of its SPACE 2 position, when it has a rate. -/
def State.blockTenant (s : State) (d : Desc) (b : Block) : Option Nat :=
  let p := match endpointOf b.src, endpointOf b.dst with
    | .host p _ _, _ => some p
    | _, .host p _ _ => some p
    | _, _ => none
  ((p.bind d.job).bind fun j => s.job? j.1).bind fun j =>
    if (s.tenant j.tenant).dmaRate = 0 then none else some j.tenant

/-- Units that the buckets let go now of `want`. -/
def State.unitsNow (s : State) (a : ArrId) (t : Option Nat) (want : Nat) : Nat :=
  let n := min want ((s.arr a).bucket / 1024)
  match t with
  | some t => min n ((s.tenant t).bucket / 1024)
  | none => n

/-- Take units from the buckets that govern them. -/
def State.takeUnits (s : State) (a : ArrId) (t : Option Nat) (n : Nat) : State :=
  let s := s.modArr a fun x => { x with bucket := x.bucket - 1024 * n }
  match t with
  | some t => s.modTenant t fun y => { y with bucket := y.bucket - 1024 * n }
  | none => s

/-- Drop the head of an array's request list. -/
def State.popReq (s : State) (a : ArrId) : State := s.modArr a fun x => { x with reqs := x.reqs.drop 1 }

/-- Trace a hold of the regulator (R229): the batch position named, and the bytes held back. -/
def State.traceHold (s : State) (a : ArrId) (bpos : Option Nat) (bytes : Nat) : State :=
  match s.runOf a with
  | none => s.trace? a 7 0 0xFFFF01 (s.slotTime a 0) 0 bytes 0xFFFF 0
  | some r =>
    let pos := namedPos r bpos
    let j := pos.bind fun p => s.job? p.2
    s.trace? a 7 (8 * (match pos with | some p => p.1 | none => 0)) 0xFFFF01 (s.slotTime a (s.slotCycle r)) (s.slotCycle r) bytes
      (match j with | some j => j.stream | none => 0xFFFF) (match pos with | some p => mget 0 r.incs p.1 | none => 0)

/-- The batch position of a block's SPACE 2 endpoint. -/
def hostPos (b : Block) : Option Nat := match endpointOf b.src, endpointOf b.dst with
  | .host p _ _, _ => some p
  | _, .host p _ _ => some p
  | _, _ => none

/-- Release what the buckets allow from the head of an array's request list, block by block (R223). -/
def State.releaseHead (s : State) (a : ArrId) : Nat → State
  | 0 => s
  | fuel + 1 =>
    match (s.arr a).reqs with
    | [] => s
    | .unit n :: _ =>
      match (s.die a.die).units.find? fun u => u.n == n with
      | none => (s.popReq a).releaseHead a fuel
      | some u =>
        let want := if u.unit = 2 then u.len / 1024 - u.units else 0
        let k := s.unitsNow a none want
        let s := (s.takeUnits a none k).modDie a.die fun d =>
          { d with units := d.units.map fun v => if v.n == n then { v with units := v.units + k, released := k == want } else v }
        if k = want then (s.popReq a).releaseHead a fuel
        else s.traceHold a none ((want - k) * 1024)
    | .desc q :: _ =>
      match s.desc? a q with
      | none => (s.popReq a).releaseHead a fuel
      | some d =>
        match d.blocks.findIdx? fun b => b.st == .waiting with
        | none => (s.popReq a).releaseHead a fuel
        | some i =>
          let b := d.blocks.getD i {}
          let t := s.blockTenant d b
          let want := blockUnits b - b.units
          let k := s.unitsNow a t want
          let st : BlkState := if k = want then .released else .waiting
          let s := (s.takeUnits a t k).modDesc a q fun d =>
            { d with blocks := d.blocks.modify i fun b => { b with units := b.units + k, st := st } }
          if k = want then s.releaseHead a fuel
          else s.traceHold a (hostPos b) ((want - k) * 1024)

/-- Work for the release of an array: every block and item it has waiting, and one step more. -/
def releaseFuel (s : State) (a : ArrId) : Nat :=
  (s.arr a).reqs.length + ((s.die a.die).descs.filter fun d => d.arr == a).foldl (fun n d => n + d.blocks.length) 0 + 1

/-- Every bucket gains its rate, up to its depth (R223). -/
def State.fillBuckets (s : State) : State :=
  let t := s.template
  let up (x : Arr) : Nat := max x.bucket (min t.depth (x.bucket + t.rate))
  let arrs : SMap Arr := s.arrs.map fun e => (e.1, { e.2 with bucket := up e.2 })
  let fill (x : Tenant) : Nat := if x.dmaDepth ≤ x.bucket then x.bucket else min x.dmaDepth (x.bucket + x.dmaRate)
  let tens : SMap Tenant := s.tenants.map fun e => (e.1, { e.2 with bucket := fill e.2 })
  { s with arrs := arrs, tenants := tens }

/-- RELEASE_SLOT: the time base reaches the next 64 ns boundary; buckets refill, arrays release the heads of their
request lists, and cores that wait for the slot go on (R223, R343, R537); while the gear PLLs relock nothing leaves (R354). Arrays
that draw on one tenant's bucket do so in ascending order (DESIGN CHOICE, log 93). -/
def State.release (s : State) : State :=
  let s := s.reach ((s.tm.now / 64 + 1) * 64)
  let s := s.fillBuckets
  let s := if s.vs.relocking then s
    else (allArrs.filter fun a => !(s.arr a).reqs.isEmpty).foldl (fun s a => s.releaseHead a (releaseFuel s a)) s
  let n := s.tm.now % epochNs / 64
  { s with arrs := s.arrs.map fun e => (e.1, match e.2.core.stall with
      | some (.time m) => if m ≤ n then { e.2 with core := { e.2.core with stall := none } } else e.2
      | _ => e.2) }

/-- RELEASE_SLOT (R223). -/
def execReleaseSlot (s : State) : Res := .next (if s.working then s.release else s)

/-! ## Sheaves in transit (R40, R59, R60) -/

/-- Anchor a sheaf where it lies from its main limbs (R55): its check limb, its state in every handle that holds part of it. -/
def State.anchorLimbs (s : State) (a : ArrId) (h poly : Nat) (main : List (List Nat)) : State :=
  let e := handleOf (s.arr a) h
  let v := s.env
  let ps := v.pset e.pset.toNat
  let parts := s.sheafParts a h
  let r := anchorSheaf (v.moduli ps e.ext e.level.toNat) (v.prime ps.checkIdx).q (2 ^ ps.logn) main
  (s.putLoftLimb parts ps.logn poly 0 r.1).setSheaf parts (ps.logn == 17) poly (BitVec.ofNat 4 r.2) fun h =>
    { h with evalDom := false }

/-- The limbs and the check limb of a sheaf where it lies. -/
def State.storedLimbs (s : State) (a : ArrId) (h poly : Nat) : List (List Nat) × List Nat :=
  let e := handleOf (s.arr a) h
  s.sheafLimbs (s.sheafParts a h) (s.lognOf a h) poly e.level.toNat fun _ => none

/-- Verify a sheaf where it lies and anchor it (R56): the first coefficient that fails. A sheaf in the evaluation domain
or OPEN never passes (R56, R61). -/
def State.verifyStored (s : State) (a : ArrId) (h poly : Nat) : State × Option Nat :=
  let e := handleOf (s.arr a) h
  let v := s.env
  let ps := v.pset e.pset.toNat
  let m := s.storedLimbs a h poly
  let w := (e.cst poly).toNat
  let qs := v.moduli ps e.ext e.level.toNat
  match (if e.evalDom ∨ 13 < w then some 0 else verifySheaf qs (v.prime ps.checkIdx).q w (2 ^ ps.logn) m.1 m.2) with
  | some i => (s.poisonSheaf a h poly, some i)
  | none => (s.anchorLimbs a h poly m.1, none)

/-- Anchor a sheaf that came from host memory (R60). -/
def State.anchorStored (s : State) (a : ArrId) (h poly : Nat) : State := s.anchorLimbs a h poly (s.storedLimbs a h poly).1

/-- The sheaves of a handle that rows of `len` bytes touch. -/
def polysOf (v : Env) (e : Handle) (offs : List Nat) (len : Nat) : List Nat :=
  let b := sheafBytes e (sheafLogn v.psets e)
  (List.range e.npoly.toNat).filter fun p => offs.any fun o => decide (o < e.sbase + (p + 1) * b ∧ e.sbase + p * b < o + len)

/-- A byte of a SHEAF handle lies in a check limb, which does not go to host memory (R40). -/
def inCheckLimb (v : Env) (e : Handle) (off : Nat) : Bool :=
  let logn := sheafLogn v.psets e
  e.sheaf && e.first == 0 && decide ((off - e.sbase) % sheafBytes e logn < limbBytes logn)

/-! ## Moving a block (R217..R219, R242, R258, R259) -/

/-- The subcode of the fault of a block's form and of its endpoints, before any byte moves (R217..R219, R242, R259). -/
def State.blockFault (s : State) (d : Desc) (b : Block) : Option Nat :=
  let src := s.ownEndpoint (endpointOf b.src)
  let dst := s.ownEndpoint (endpointOf b.dst)
  let slen := if b.aop = 7 then 2 * b.len else b.len
  let sspan := (b.rows - 1) * b.sstride + slen
  let dspan := (b.rows - 1) * b.dstride + b.len
  let offOf (e : Endpoint) : Nat := match e with
    | .loft _ _ _ o => o | .far _ _ _ _ o => o | .host _ _ o => o | .bad => 0
  let hostEnd (p buf off span : Nat) : Option Nat := match s.filledJob d p with
    | none => none
    | some j => match j.bufs[buf]? with
      | none => some 1
      | some e => if e.2 < off + span then some 1 else none
  if b.len % 64 ≠ 0 ∨ b.sstride % 64 ≠ 0 ∨ b.dstride % 64 ≠ 0 ∨ offOf src % 64 ≠ 0 ∨ offOf dst % 64 ≠ 0 then some 2
  else if b.len = 0 ∨ 1048576 < b.len ∨ b.rows = 0 then some 1
  else if 7 < b.aop then some 3
  else
    let s1 := match src with
      | .bad => some 3
      | .host p buf off => (match dst with
        | .host .. => some 3
        | _ => if 6 ≤ b.aop then some 3 else hostEnd p buf off sspan)
      | .far .. => if 6 ≤ b.aop then some 3 else none
      | .loft dd aa h o =>
        let e := handleOf (s.arr ⟨dd, aa⟩) h
        if e.kind = 0 then some 3
        else if 6 ≤ b.aop ∧ (e.kind ≠ 1 ∨ (⟨dd, aa⟩ : ArrId) ≠ d.arr) then some 3
        else if e.length.toNat < o + sspan then some 1 else none
    match s1 with
    | some n => some n
    | none => match dst with
      | .bad => some 3
      | .host p buf off => if b.aop ≠ 0 then some 3 else hostEnd p buf off dspan
      | .far .. => none
      | .loft dd aa h o =>
        let e := handleOf (s.arr ⟨dd, aa⟩) h
        if e.kind ≠ 1 then some 3
        else if !e.rwrite && (b.aop != 0 || (⟨dd, aa⟩ : ArrId) != d.arr) then some 3
        else localFault e o dspan

/-- What reading a block's source gives: its rows and the state, an ADDR subcode, or a host access fault with the
buffer's index. -/
inductive Fetched where
  | rows (bs : List (List Byte)) (s : State)
  | addr (sub : Nat)
  | host (buf : Nat)

/-- Bytes of one row of a block's source. -/
def Block.rowBytes (b : Block) : Nat := if b.aop = 7 then 2 * b.len else b.len

/-- Read the rows of a block (R219, R246): an unfilled position reads zeros; the read of a weight tensor of another package is
refused (R271). -/
def State.fetchRows (s : State) (d : Desc) (b : Block) (refused : Bool) : Fetched :=
  let slen := b.rowBytes
  match s.ownEndpoint (endpointOf b.src) with
  | .loft dd aa h o =>
    (List.range b.rows).foldl (fun acc r => match acc with
      | .rows bs s => (match s.handleRead ⟨dd, aa⟩ refused h (o + r * b.sstride) slen with
        | .ok (x, s) => .rows (bs ++ [x]) s
        | .error sub => .addr sub)
      | e => e) (.rows [] s)
  | .far .. =>
    if refused then .addr 3
    else (List.range b.rows).foldl (fun acc _ => match acc with
      | .rows bs s => let f := s.freshBytes slen; .rows (bs ++ [f.1]) f.2
      | e => e) (.rows [] s)
  | .host p buf off =>
    match s.filledJob d p with
    | none => .rows (List.replicate b.rows (List.replicate slen 0)) s
    | some j =>
      let x := s.stream j.stream
      let base := (j.bufs.getD buf (0, 0)).1 + off
      (List.range b.rows).foldl (fun acc r => match acc with
        | .rows bs s => (match s.hostRead (fnOfEntry x.fn) (s.streamPasid x) (base + r * b.sstride) slen with
          | some y => .rows (bs ++ [y]) s
          | none => .host buf)
        | e => e) (.rows [] s)
  | .bad => .addr 3

/-- The sheaves of host input that a descriptor brought are anchored when its last block has landed (R60). -/
def State.anchorInputs (s : State) (d : Desc) : State :=
  let v := s.env
  let spots := d.blocks.flatMap fun b => match s.ownEndpoint (endpointOf b.src), s.ownEndpoint (endpointOf b.dst) with
    | .host p _ _, .loft dd aa h o =>
      let e := handleOf (s.arr ⟨dd, aa⟩) h
      if e.sheaf && b.aop == 0 && b.st == .landed && (s.filledJob d p).isSome then
        (polysOf v e ((List.range b.rows).map fun r => o + r * b.dstride) b.len).map fun n => (globalOf ⟨dd, aa⟩, h, n)
      else []
    | _, _ => []
  spots.eraseDups.foldl (fun s t => s.anchorStored (arrOf t.1) t.2.1 t.2.2) s

/-- A descriptor whose blocks have all landed or ended is over (R216): the sheaves it brought are anchored and its token is
posted, on its stated cycle also after a fault (R319, log 88); a full token queue faults (R213). -/
def State.descEnd (s : State) (a : ArrId) (dseq : Nat) : State :=
  match s.desc? a dseq with
  | none => s
  | some d =>
    if !(d.blocks.all fun b => b.st == .landed || b.st == .faulted) then s
    else
      let s := s.modDie a.die fun x => { x with descs := x.descs.filter fun e => !(e.arr == a && e.dseq == dseq) }
      let s := s.anchorInputs d
      if !d.token then s
      else if 16 ≤ (s.arr a).tokens then s.coreFault a 8 1 0xFFFFFFFF
      else s.modArr a fun x => { x with tokens := x.tokens + 1 }

/-- A block is over without landing (R63, R227, R256); the others of its descriptor go on as stated. -/
def State.endBlock (s : State) (a : ArrId) (dseq i : Nat) : State :=
  (s.modDesc a dseq fun d => d.setBlock i .faulted).descEnd a dseq

/-- A block has landed (R255, R259, R216): its flags reach the issuing array, and the descriptor ends with its last block. -/
def State.blockLanded (s : State) (a : ArrId) (dseq i flags : Nat) : State :=
  ((s.modArr a fun x => orStatus x flags).modDesc a dseq fun d => d.setBlock i .landed).descEnd a dseq

/-- Where a loft endpoint of this package lies in a loft: the array and the byte, also through a window (R239). -/
def State.loftPlace (s : State) (e : Endpoint) : Option (ArrId × Nat) := match s.ownEndpoint e with
  | .loft d a h o =>
    let t := handleOf (s.arr ⟨d, a⟩) h
    if t.kind = 1 then some (⟨d, a⟩, t.target.toNat + o)
    else if t.kind = 3 then match s.ownEndpoint (endpointOf t.target) with
      | .loft x y k p => some (⟨x, y⟩, (handleOf (s.arr ⟨x, y⟩) k).target.toNat + p + o)
      | _ => none
    else none
  | _ => none

/-- Two sets of rows in one loft share a byte: each as first byte, rows, step and bytes a row. -/
def rowsMeet (a b : Nat × Nat × Nat × Nat) : Bool :=
  (List.range a.2.1).any fun i => (List.range b.2.1).any fun j =>
    decide (a.1 + i * a.2.2.1 < b.1 + j * b.2.2.1 + b.2.2.2 ∧ b.1 + j * b.2.2.1 < a.1 + i * a.2.2.1 + a.2.2.2)

/-- The endpoint of one block and the destination of another share a loft byte of this package, or name one handle of another
package with ranges that meet. -/
def State.blocksMeet (s : State) (e : DWord) (rows stride len : Nat) (b : Block) : Bool :=
  match s.ownEndpoint (endpointOf e), s.ownEndpoint (endpointOf b.dst) with
  | .far p d a h o, .far p' d' a' h' o' =>
    p == p' && d == d' && a == a' && h == h' && rowsMeet (o, rows, stride, len) (o', b.rows, b.dstride, b.len)
  | x, y => match s.loftPlace x, s.loftPlace y with
    | some u, some v => u.1 == v.1 && rowsMeet (u.2, rows, stride, len) (v.2, b.rows, b.dstride, b.len)
    | _, _ => false

/-- A block `b` need not wait for an earlier block `e` of its array (R223, R249 item 1, R254, R255, R261): `e` has left, or is
a clasp held back at its source whose bytes `b` does not touch; what `b` reads of what `e` writes has landed; and within one
descriptor a clasp `b` waits until `e` has landed, or ended without landing (R256). -/
def State.passes (s : State) (same : Bool) (b e : Block) : Bool :=
  let away := e.st != .waiting && e.st != .released
  let held := !same && e.bflags.getLsbD 0 && e.st == .released && !s.blocksMeet b.dst b.rows b.dstride b.len e
  let reads := e.st != .landed && e.st != .faulted && s.blocksMeet b.src b.rows b.sstride b.rowBytes e
  (if same && b.bflags.getLsbD 0 then e.st == .landed || e.st == .faulted else away || held) && !reads

/-- A block may leave: it is released, and no earlier block of its array holds it back. -/
def State.blockReady (s : State) (d : Desc) (i : Nat) : Bool :=
  match d.blocks[i]? with
  | none => false
  | some b =>
    let mine := (s.die d.arr.die).descs.filter fun e => e.arr == d.arr
    let older := (mine.takeWhile fun e => e.dseq != d.dseq).flatMap (·.blocks)
    b.st == .released && ((d.blocks.take i).all fun e => s.passes true b e) && older.all fun e => s.passes false b e

/-- Write pieces of a block at a job buffer: byte offset in the buffer and bytes. -/
def State.writeHostRows (s : State) (j : Job) (buf : Nat) (ps : List (Nat × List Byte)) : Option State :=
  let x := s.stream j.stream
  let base := (j.bufs.getD buf (0, 0)).1
  ps.foldl (fun acc r => acc.bind fun s => s.hostWrite (fnOfEntry x.fn) (s.streamPasid x) (base + r.1) r.2) (some s)

/-- The 64-byte pieces of a row that go to a job buffer: those of a check limb do not (R40, log 76). -/
def hostPieces (v : Env) (e : Option Handle) (src dst : Nat) (row : List Byte) : List (Nat × List Byte) :=
  (List.range (row.length / 64)).filterMap fun i =>
    if e.any fun h => inCheckLimb v h (src + 64 * i) then none else some (dst + 64 * i, slice row (64 * i) 64)

/-- The sheaf that a block of a SHEAF handle carries (R363): check state, domain and level. -/
def sheafOf (v : Env) (e : Handle) (off : Nat) : Option (BitVec 4 × Bool × Nat) :=
  if e.sheaf then some (e.cst (polyAt e (sheafLogn v.psets e) off), e.evalDom, e.level.toNat) else none

/-- The handle of a loft source that holds sheaves. -/
def State.sheafSource (s : State) (e : Endpoint) : Option (ArrId × Nat × Handle × Nat) := match e with
  | .loft d a h o =>
    let x := handleOf (s.arr ⟨d, a⟩) h
    if x.kind = 1 ∧ x.sheaf then some (⟨d, a⟩, h, x, o) else none
  | _ => none

/-- The sheaves that a block reads from a loft of this package: array, handle and number. -/
def State.sheavesRead (s : State) (b : Block) : List (ArrId × Nat × Nat) :=
  match s.sheafSource (s.ownEndpoint (endpointOf b.src)) with
  | some (a, h, e, o) => (polysOf s.env e ((List.range b.rows).map fun r => o + r * b.sstride) b.rowBytes).map fun p => (a, h, p)
  | none => []

/-- Verify each of some sheaves where they lie: the first coefficient that fails. -/
def State.verifyAll (s : State) (ps : List (ArrId × Nat × Nat)) : State × Option Nat :=
  ps.foldl (fun acc p => match acc.2 with
    | some _ => acc
    | none => acc.1.verifyStored p.1 p.2.1 p.2.2) (s, none)

/-- A fault that the die DMA raises against an array (R225, R227, R538). -/
def State.dmaFault (s : State) (a : ArrId) (bpos : Option Nat) (f : Flt) (ends : Option (Nat × Nat)) : State :=
  s.raiseFault { a := a, tag := 0xFFFF01, bpos := bpos }
    { f with cycle := match s.runOf a with | some r => s.slotCycle r | none => 0 } ends

/-- The batch position whose data a block carries (R538): that of its job buffer, or of its source's rows; 8 none, 9 several. -/
def State.blockPos (s : State) (b : Block) : Nat := match hostPos b, s.ownEndpoint (endpointOf b.src) with
  | some p, _ => p
  | none, .loft d a h o =>
    let x := s.arr ⟨d, a⟩
    (List.range b.rows).foldl (fun p r => joinPos p (posAt x (handleOf x h) (o + r * b.sstride))) 8
  | none, _ => 8

/-- A fault of a block: the record of its issuing array, with the position whose data it carries (R227, R538); the INDEX of a
host access fault is the buffer (log 68). -/
def State.blockFail (s : State) (a : ArrId) (dseq i : Nat) (f : Flt) (ends : Option (Nat × Nat)) : State :=
  let pos := ((s.desc? a dseq).bind fun d => d.blocks[i]?).map s.blockPos
  (s.endBlock a dseq i).dmaFault a pos { f with index := match ends with | some (_, buf) => buf | none => f.index } ends

/-- A block carries data of a batch position that no job fills, or whose input is invalid, to another loft than that of its
array: it writes nothing (R115, R412, log 76). -/
def State.writesNothing (s : State) (d : Desc) (b : Block) : Bool :=
  let p := s.blockPos b
  let gone := decide (p < 8) && (s.filledJob d p).isNone
  match s.ownEndpoint (endpointOf b.dst) with
  | .loft x y _ _ => gone && (⟨x, y⟩ : ArrId) != d.arr
  | .far .. => gone
  | _ => false

/-- The sheaves that a block takes to host memory or out of the package in the coefficient domain are verified before they leave
(R59, points 3 and 4): the fault of one that fails. -/
def State.verifyBlock (s : State) (d : Desc) (b : Block) : State × Option Flt :=
  let go (point : Nat) (ps : List (ArrId × Nat × Nat)) : State × Option Flt :=
    let t := s.verifyAll ps
    (t.1, t.2.map fun i => { kind := 1, point := point, index := i })
  let ps := s.sheavesRead b
  match s.ownEndpoint (endpointOf b.dst) with
  | .host p _ _ => if (s.filledJob d p).isNone || s.staleRef (d.stamp b) then (s, none) else go 3 ps
  | .far .. =>
    if s.writesNothing d b then (s, none) else go 4 (ps.filter fun p => !(handleOf (s.arr p.1) p.2.1).evalDom)
  | _ => (s, none)

/-- The arrival that a block makes at an array of this package; one that writes nothing brings no rows, and its flag, its
acknowledgement and its token come as stated (R115, R231, R412). -/
def State.arrivalOf (s : State) (d : Desc) (i : Nat) (b : Block) (h o : Nat) (rows : List (List Byte)) : Arrival :=
  let src := s.ownEndpoint (endpointOf b.src)
  let hb := match src with | .host _ buf off => some (buf, off, b.sstride) | _ => none
  let ret := match src with | .loft x y sh so => some ((⟨x, y⟩ : ArrId), sh, so, b.sstride) | _ => none
  let range := b.bflags.toNat / 2
  let from? := s.sheafSource src
  let v : Arrival :=
    { handle := h, off := o, rows := rows, dstride := b.dstride, aop := b.aop
      aprime := range, range := if b.aop = 0 ∧ range ≤ 32 then range else 0
      hostBuf := hb, job := d.stamp b, bpos := (hostPos b).getD 0, group := d.group, clasp := b.bflags.getLsbD 0
      src := some (d.arr, d.dseq, i), retTo := if 6 ≤ b.aop then ret else none
      sheaf := from?.bind fun f => sheafOf s.env f.2.2.1 f.2.2.2
      ver := from?.any fun f => f.2.2.1.ver.getLsbD (polyAt f.2.2.1 (sheafLogn s.env.psets f.2.2.1) f.2.2.2)
      pos := s.blockPos b }
  if s.writesNothing d b then { v with rows := [], sheaf := none, ver := false } else v

/-- The OPEN frame of a block toward another package (R363). -/
def State.openOf (s : State) (d : Desc) (i : Nat) (b : Block) : OpenBody :=
  let sh := (s.sheafSource (s.ownEndpoint (endpointOf b.src))).bind fun f => sheafOf s.env f.2.2.1 f.2.2.2
  let stamp := d.stamp b
  let j := stamp.bind fun q => s.job? q.1
  { dst := b.dst, len := b.len, rows := b.rows, aop := b.aop, bflags := b.bflags.toNat, dstride := b.dstride
    inc := (match stamp with | some q => q.2 | none => 0), group := d.group
    cstate := (match sh with | some x => x.1 | none => 0)
    domain := (match sh with | some x => x.2.1 | none => false), sheaf := sh.isSome
    level := (match sh with | some x => x.2.2 | none => 0), srcLarr := globalOf d.arr, block := i
    jobId := (match j with | some j => j.jobId | none => 0), dseq := d.dseq }

/-- Deliver the rows of a block to its destination. A clasp toward another package that writes nothing goes as an OPEN of no
rows, which sets its flag there (R115, R231, log 76). -/
def State.deliver (s : State) (d : Desc) (i : Nat) (b : Block) (rows : List (List Byte)) : State :=
  let a := d.arr
  let src := s.ownEndpoint (endpointOf b.src)
  match s.ownEndpoint (endpointOf b.dst) with
  | .host p buf off =>
    match (if s.staleRef (d.stamp b) then none else s.filledJob d p) with
    | none => s.blockLanded a d.dseq i 0
    | some j =>
      let first := match src with | .loft _ _ _ o => o | _ => 0
      let pieces := rows.zipIdx.flatMap fun r =>
        hostPieces s.env ((s.sheafSource src).map (·.2.2.1)) (first + r.2 * b.sstride) (off + r.2 * b.dstride) r.1
      match s.writeHostRows j buf pieces with
      | some s => s.blockLanded a d.dseq i 0
      | none => s.blockFail a d.dseq i { kind := 9, sub := 1 } (some (0x05, buf))
  | .loft dd aa h o =>
    (s.modDesc a d.dseq fun d => d.setBlock i .sent).queueArrival ⟨dd, aa⟩ (s.arrivalOf d i b h o rows)
  | .far pkg _ _ _ _ =>
    let none' := s.writesNothing d b
    if none' && !b.bflags.getLsbD 0 then s.blockLanded a d.dseq i 0
    else match s.firstPath pkg a.die with
      | none => s.blockFail a d.dseq i { kind := 9, sub := 3 } none
      | some path =>
        let o := s.openOf d i b
        (s.modDesc a d.dseq fun d => (d.setBlock i .sent).setVia i (path.egress, path.chan)).sendBlock path
          (if none' then { o with rows := 0, sheaf := false } else o) (if none' then [] else rows)
  | .bad => s

/-- The errors that a block's read of a loft meets (R234): the spots, and whether each is corrected; one that no row of the
block touches is none. -/
def State.blockErrors (s : State) (b : Block) (r : BlockRef) : List (ArrId × LoftSpot × Bool) :=
  match s.ownEndpoint (endpointOf b.src) with
  | .loft d a h o => r.ecc.filterMap fun e =>
      if rowsMeet (o, b.rows, b.sstride, b.rowBytes) (o + e.1 * 1024, 1, 0, 1024) then
        match s.loftSpot ⟨d, a⟩ h (o + e.1 * 1024) with
        | .none => none
        | p => some (⟨d, a⟩, p, e.2)
      else none
  | _ => []

/-- Move a block that has been released (R219): its checks, the errors of its source, the verification of what leaves (R59), its
source's rows, its delivery. -/
def State.moveBlock (s : State) (d : Desc) (b : Block) (r : BlockRef) : State :=
  let i := r.blk
  let fail (s : State) (f : Flt) (ends : Option (Nat × Nat)) : State := s.blockFail d.arr d.dseq i f ends
  match s.blockFault d b with
  | some sub => fail s { kind := 7, sub := sub } none
  | none =>
    let bufOf := match endpointOf b.src, endpointOf b.dst with
      | .host _ n _, _ => n
      | _, .host _ n _ => n
      | _, _ => 0
    match r.hostErr, (hostPos b).bind (s.filledJob d) with
    | some e, some _ => fail s { kind := 9, sub := e } (some (0x05, bufOf))
    | _, _ =>
      let errs := s.blockErrors b r
      let s := (errs.filter (·.2.2)).foldl (fun s e => s.correctedSpot e.1 e.2.1) s
      let lost := errs.filter fun e => !e.2.2
      if (s.sheavesRead b).any fun p => (handleOf (s.arr p.1) p.2.1).cst p.2.2 == 15 then fail s { kind := 1, sub := 1 } none
      else if !lost.isEmpty then lost.foldl (fun s e => s.restoreSpot e.1 e.2.1) (fail s { kind := 2, sub := 4 } none)
      else
        let t := s.verifyBlock d b
        match t.2 with
        | some f => fail t.1 f none
        | none => match t.1.fetchRows d b r.refused with
          | .rows rows s => s.deliver d i b rows
          | .addr sub => fail t.1 { kind := 7, sub := sub } none
          | .host buf => fail t.1 { kind := 9, sub := 1 } (some (0x05, buf))

/-- BLOCK_WRITE: the die DMA moves a released block between loft, remote loft and host buffer (R217..R219). -/
def execBlockWrite (b : BlockRef) (s : State) : Res :=
  need b.arr.wf "array" <|
    match s.desc? b.arr b.dseq with
    | none => .refused (.cannotArise "the descriptor is not outstanding")
    | some d =>
      arises (s.blockReady d b.blk && (match b.hostErr with | some e => e == 1 || e == 2 | none => true))
        "the block may not leave yet" <|
        .next (s.moveBlock d (d.blocks.getD b.blk {}) b)

/-! ## Landing (R40, R249, R256, R412) -/

/-- The prime of the limb of a SHEAF handle in which an offset lies; none past its sheaves (R38, R39, R412). -/
def primeAt (v : Env) (e : Handle) (off : Nat) : Option Nat :=
  let ps := v.pset e.pset.toNat
  if !e.sheaf || decide (e.npoly.toNat ≤ polyAt e ps.logn off) then none
  else some (v.limb ps (limbPos ps e.ext e.level.toNat (limbIdx e ps.logn off))).q

/-- The first byte of a row that breaks the input checks (R412): an element of RANGE, or a word of a SHEAF handle. -/
def rowBad (v : Env) (e : Handle) (off range : Nat) (bs : List Byte) : Option Nat :=
  let w := if range ≤ 16 then 2 else 4
  let r1 := if range = 0 then none
    else ((toElems w bs).findIdx? fun x => decide (2 ^ range ≤ x)).map (· * w)
  let r2 := if !e.sheaf then none
    else ((toWords bs).zipIdx.findIdx? fun x =>
      (primeAt v e (off + 4 * x.2)).any fun q => decide (q ≤ x.1)).map (· * 4)
  match r1, r2 with
  | some a, some b => some (min a b)
  | some a, none => some a
  | none, b => b

/-- Mark a batch position's input invalid (R412): DETAIL, and FAILJOB for a DOMAIN job. -/
def State.inputBad (s : State) (r : SlotRun) (bpos detail : Nat) : State :=
  if r.bad.any fun e => e.1 == bpos then s
  else
    let s := s.modRun r fun r => { r with bad := r.bad ++ [(bpos, detail)] }
    match (r.jobs.find? fun p => p.1 == bpos).bind fun p => s.job? p.2 with
    | some j =>
      if j.domain then
        let f := [j.jobId, j.inc, 0x01, detail]
        if s.isLead then s.sendMembers 17 f else if s.dom.st == .member then s.sendDctl s.dom.lead 17 f else s
      else s
    | none => s

/-- The run that an arrival's job is bound in. -/
def State.runOfJob (s : State) (i : Nat) : Option SlotRun := s.runs.find? fun r => r.jobs.any fun p => p.2 == i

/-- The byte offsets of an arrival's rows. -/
def Arrival.offs (v : Arrival) : List Nat := (List.range v.rows.length).map fun r => v.off + r * v.dstride

/-- The sheaf state that travels with a block reaches the handles of the sheaves it lands in (R240, R363). -/
def State.landSheaf (s : State) (a : ArrId) (v : Arrival) (c : BitVec 4) (d : Bool) (l : Nat) : State :=
  let h := v.handle
  let pair := s.lognOf a h == 17
  let s := s.modParts (s.splitParts a (s.homeOf a h) h 128) pair fun e => { e with evalDom := d, level := BitVec.ofNat 7 l }
  let len := (v.rows.getD 0 []).length
  (polysOf s.env (handleOf (s.arr a) h) v.offs len).foldl
    (fun s p => s.setSheaf (s.sheafParts a h) pair p c fun e => if v.ver then e.setVer p true else e) s

/-- Write the rows of an arrival with AOP 0 into its handle. -/
def State.landRows (s : State) (a : ArrId) (e : Handle) (v : Arrival) : State :=
  match (if e.sheaf then v.sheaf else none) with
  | none => s.plainWrite a v.handle v.off v.dstride v.rows v.pos
  | some (c, d, l) =>
    (s.modArr a fun x => v.rows.zipIdx.foldl (fun x r =>
      let o := v.off + r.2 * v.dstride
      setPos (loftWrite x e o r.1) (e.target.toNat + o) r.1.length v.pos) x).landSheaf a v c d l

/-- The input checks of an arrival from a job buffer (R412). -/
def State.landChecks (s : State) (e : Handle) (v : Arrival) : State :=
  match v.hostBuf, v.job with
  | some (buf, off, stride), some (i, _) =>
    match s.runOfJob i with
    | none => s
    | some r =>
      let bad := v.rows.zipIdx.findSome? fun w =>
        (rowBad s.env e (v.off + w.2 * v.dstride) v.range w.1).map fun k => (off + w.2 * stride + k) / 64
      match bad with
      | some u => s.inputBad r v.bpos (buf * 2 ^ 24 + min u 0xFFFFFF)
      | none => s
  | _, _ => s

/-- An arrival is acknowledged (R255, R363): to the issuing array, or by a LACK frame on its link; returned values of an
atomic go first (R259), over a link as a block that repeats its block's DST, which is what its source knows it by (log 34). Flags
and a fault of the landing go back with the acknowledgement (R242, R259, R260, log 74). -/
def State.acknowledge (s : State) (v : Arrival) (flags : Nat) (fault : Option (Nat × Nat × Nat)) (ret : List (List Byte)) :
    State :=
  let s := match v.retTo with
    | some (b, h, off, stride) => s.plainWrite b h off stride ret 8
    | none => s
  let s := match v.src with
    | some (b, q, i) => s.blockLanded b q i flags
    | none => s
  let s := match fault, v.src with
    | some f, some (b, _, _) => s.dmaFault b (some v.pos)
        { kind := f.1, sub := f.2.1, index := f.2.2, point := if f.1 = 1 then 6 else 0 } none
    | _, _ => s
  match v.remote with
  | some (j, chan, larr, q, i, inc) =>
    let s := if ret.isEmpty then s else
      s.sendBlock { egress := j, chan := chan }
        { dst := v.home, len := (ret.getD 0 []).length
          rows := ret.length, aop := 0, bflags := 0, dstride := 0, inc := inc, group := 0, cstate := 0, domain := false
          sheaf := false, level := 0, srcLarr := larr, block := i, jobId := 0, dseq := q } ret
    s.txFrame j chan (.lack [{ larr := larr, block := i, inc := inc, dseq := q, flags := flags, fault := fault }])
  | none => s

/-- A stale arrival is dropped and counted; it sets no flag (R231, R256). -/
def State.dropStale (s : State) (a : ArrId) (v : Arrival) : State :=
  let s := s.modArr a fun x => { x with cnt := { x.cnt with staleDrops := bump x.cnt.staleDrops } }
  match v.src with
  | some (b, q, i) => s.endBlock b q i
  | none => s

/-- An arrival comes from another array than its destination. -/
def fromOther (a : ArrId) (v : Arrival) : Bool :=
  v.remote.isSome || v.core.any (· != a) || v.src.any fun q => q.1 != a

/-- The subcode of an arrival that its destination handle refuses (R242, R259). -/
def arrivalFault (e : Handle) (a : ArrId) (v : Arrival) (last : Nat) : Option Nat :=
  if e.kind != 1 || (!e.rwrite && (fromOther a v || v.aop != 0)) then some 3
  else if e.length.toNat < last then some 1 else none

/-- An arrival that its destination handle refuses faults the array that issued it, and writes nothing (R242, log 74). -/
def State.arrivalFail (s : State) (v : Arrival) (sub : Nat) : State :=
  match v.src, v.core, v.remote with
  | some (b, q, i), _, _ => s.blockFail b q i { kind := 7, sub := sub } none
  | none, some b, _ => s.dmaFault b none { kind := 7, sub := sub } none
  | none, none, some (j, chan, larr, q, i, inc) =>
    s.txFrame j chan (.lack [{ larr := larr, block := i, inc := inc, dseq := q, fault := some (7, sub, 0xFFFFFFFF) }])
  | none, none, none => s

/-- An arrival of data of a batch position whose input is invalid writes nothing to a loft other than that of its array (R412). -/
def State.positionBad (s : State) (a : ArrId) (v : Arrival) : Bool :=
  fromOther a v && (match v.job with
    | some (i, _) => (match s.runOfJob i with
      | some r => r.bad.any fun e => e.1 == v.pos
      | none => false)
    | none => false)

/-- The clasp of a group sets the arrival flag at its destination, visible from the next cycle (R231, R232, R249). -/
def setFlag (cycle : Nat) (x : Arr) (v : Arrival) : Arr :=
  if v.clasp && decide (v.group ≠ 0) then
    { x with
      flags := x.flags ||| (1 : BitVec 16) <<< v.group
      flagAt := if x.flags.getLsbD v.group then x.flagAt else mset 0 x.flagAt v.group (cycle + 1) }
  else x

/-- The flag that an arrival's clasp sets, on the slot cycle that the time base has reached. -/
def State.raiseFlag (s : State) (a : ArrId) (v : Arrival) : State :=
  let c := match s.runOf a with
    | some r => s.slotCycle r
    | none => 0
  s.modArr a fun x => setFlag c x v

/-- Take the head of an array's landing buffer. -/
def State.popLanding (s : State) (a : ArrId) : State := s.modArr a fun x => { x with landing := x.landing.drop 1 }

/-- Bytes of a row at the destination of an arrival. -/
def Arrival.len (v : Arrival) : Nat := (v.rows.getD 0 []).length / (if v.aop = 7 then 2 else 1)

/-- The end of an arrival's bytes in its handle. -/
def Arrival.last (v : Arrival) : Nat := v.off + (v.rows.length - 1) * v.dstride + v.len

/-- The narrow port writes the arrival at the head of the landing buffer (R237, R242, R249, R256, R412). -/
def State.land (s : State) (a : ArrId) (v : Arrival) : State :=
  let s := s.popLanding a
  let e := handleOf (s.arr a) v.handle
  if s.staleRef v.job then s.dropStale a v
  else match arrivalFault e a v v.last with
    | some sub => s.arrivalFail v sub
    | none =>
      let s := s.landChecks e v
      let s := if s.positionBad a v then s else s.landRows a e v
      (s.raiseFlag a v).acknowledge v 0 none []

/-- LOFT_ARRIVAL: the arrival at the head of the landing buffer becomes visible, with its input checks, its stale drop
and its flag (R249). -/
def execLoftArrival (a : ArrId) (s : State) : Res :=
  need a.wf "array" <|
    match (s.arr a).landing with
    | [] => .refused (.cannotArise "no arrival waits")
    | v :: _ => arises (v.aop == 0) "the arrival is an atomic" <| .next (s.land a v)

/-! ## Atomics (R258..R261) -/

/-- The outcome of an atomic on one element: the new element, flags, the returned value, and whether an operand was not
below the prime. -/
structure AtomRes where
  new : Nat
  flags : Nat := 0
  old : Nat := 0
  bad : Bool := false
  deriving DecidableEq, Repr

/-- One element of an atomic (R258): AOP 1..7, modulus q, element d, operand b, new value n of AOP 7. -/
def atomElem (aop q d b n : Nat) : AtomRes :=
  match aop with
  | 1 => if q ≤ d ∨ q ≤ b then { new := d, bad := true } else { new := addMod q d b }
  | 2 => let r := clampSAT 32 (sNat 32 d + sNat 32 b); { new := r.1, flags := r.2 }
  | 3 => let r := fAdd 23 0 false d b; { new := r.1, flags := r.2 }
  | 4 => { new := if sNat 32 b < sNat 32 d then b else d }
  | 5 => { new := if sNat 32 d < sNat 32 b then b else d }
  | 6 => { new := b, old := d }
  | _ => { new := if d = b then n else d, old := d }

/-- One row of an atomic at the home (R258): elements after, flags, returned values, first element that faults. -/
def atomRow (aop q : Nat) (ds : List Nat) (src : List Nat) : List AtomRes :=
  ds.zipIdx.map fun d =>
    if aop = 7 then atomElem 7 q d.1 (src.getD (2 * d.2) 0) (src.getD (2 * d.2 + 1) 0)
    else atomElem aop q d.1 (src.getD d.2 0) 0

/-- The returned row of a swap or compare-and-swap (R258): the old values over b, or over e beside n. -/
def atomReturn (aop : Nat) (rs : List AtomRes) (src : List Nat) : List Byte :=
  if aop = 6 then ofWords (rs.map (·.old))
  else ofWords (rs.zipIdx.flatMap fun r => [r.1.old, src.getD (2 * r.2 + 1) 0])

/-- The rows of an atomic at its home: the array after, the flags, the returned rows, and the byte offset of the first element
that is not below the prime. -/
def atomicRows (q : Nat) (e : Handle) (v : Arrival) (x : Arr) : Arr × Nat × List (List Byte) × Option Nat :=
  v.rows.zipIdx.foldl (fun (acc : Arr × Nat × List (List Byte) × Option Nat) r =>
    let off := v.off + r.2 * v.dstride
    let src := toWords r.1
    let rs := atomRow v.aop q (toWords (loftRead acc.1 e off v.len)) src
    let bad := match acc.2.2.2 with
      | some k => some k
      | none => (rs.findIdx? (·.bad)).map fun i => off + 4 * i
    (loftWrite acc.1 e off (ofWords (rs.map (·.new))), rs.foldl (fun f x => f ||| x.flags) acc.2.1,
      acc.2.2.1 ++ [atomReturn v.aop rs src], bad)) (x, 0, [], none)

/-- Every sheaf that a modular add touches becomes OPEN, in every handle that holds part of it (R52, R260). -/
def State.openSheaves (s : State) (a : ArrId) (e : Handle) (v : Arrival) : State :=
  if v.aop = 1 ∧ e.sheaf then
    (polysOf s.env e v.offs v.len).foldl
      (fun s p => s.setSheaf (s.sheafParts a v.handle) (s.lognOf a v.handle == 17) p 14 id) s
  else s

/-- What an atomic's read of its home elements reports (R234): corrected errors are counted, rows that are not correctable
restored; whether there is one. -/
def State.homeErrors (s : State) (a : ArrId) (e : Handle) (v : Arrival) (ecc : List (Nat × Bool)) : State × Bool :=
  let met := ecc.filter fun r => rowsMeet (v.off, v.rows.length, v.dstride, v.len) (r.1 * 1024, 1, 0, 1024)
  let lost := met.filter fun r => !r.2
  let s := (met.filter (·.2)).foldl (fun s _ => s.corrected a true) s
  (lost.foldl (fun s r => s.restoreRow a (e.target.toNat / 1024 + r.1)) s, !lost.isEmpty)

/-- Execute the atomic at the head of an array's landing buffer, at its home (R258..R260). One whose home elements have an error
that is not correctable changes nothing, and its fault goes to the issuing array (R234, log 74). -/
def State.atomic (s : State) (a : ArrId) (v : Arrival) (ecc : List (Nat × Bool)) : State :=
  let s := s.popLanding a
  let e := handleOf (s.arr a) v.handle
  if s.staleRef v.job then s.dropStale a v
  else match arrivalFault e a v v.last with
    | some sub => s.arrivalFail v sub
    | none =>
      if s.positionBad a v then (s.raiseFlag a v).acknowledge v 0 none []
      else
        let f := s.homeErrors a e v ecc
        if f.2 then (f.1.raiseFlag a v).acknowledge v 0 (some (2, 4, 0xFFFFFFFF)) []
        else
          let t := atomicRows (f.1.env.prime v.aprime).q e v (f.1.arr a)
          (((f.1.setArr a t.1).openSheaves a e v).raiseFlag a v).acknowledge v t.2.1 (t.2.2.2.map fun k => (1, 0, k))
            (if 6 ≤ v.aop then t.2.2.1 else [])

/-- An atomic command: the head of the landing buffer is one of its kind. -/
def atomicCmd (aop : Nat) (a : ReadRef) (s : State) : Res :=
  need a.arr.wf "array" <|
    match (s.arr a.arr).landing with
    | [] => .refused (.cannotArise "no arrival waits")
    | v :: _ => arises (v.aop == aop) "the arrival is of another kind" <| .next (s.atomic a.arr v a.ecc)

/-- MODULAR_ADD: (d + b) mod q at the home element (R258, R260). -/
def execModularAdd (a : ReadRef) (s : State) : Res := atomicCmd 1 a s
/-- INT32_ADD: d + b clamped, SAT on a clamp (R258). -/
def execInt32Add (a : ReadRef) (s : State) : Res := atomicCmd 2 a s
/-- FP32_ADD: d + b rounded to nearest even (R258). -/
def execFp32Add (a : ReadRef) (s : State) : Res := atomicCmd 3 a s
/-- ATOMIC_MIN: the signed minimum (R258). -/
def execAtomicMin (a : ReadRef) (s : State) : Res := atomicCmd 4 a s
/-- ATOMIC_MAX: the signed maximum (R258). -/
def execAtomicMax (a : ReadRef) (s : State) : Res := atomicCmd 5 a s
/-- SWAP: b, the old value returned to the source (R258, R259). -/
def execSwap (a : ReadRef) (s : State) : Res := atomicCmd 6 a s
/-- COMPARE_AND_SWAP: n when d = e, the old value returned to the source (R258, R259). -/
def execCompareAndSwap (a : ReadRef) (s : State) : Res := atomicCmd 7 a s

end Sys2Proof.Machine
end

