-- ==== Sys2Proof/Machine/Hash.lean ====
section
/-! DEFINITION. The standard hash functions of R13 that the model computes (log 10): SHAKE128 of FIPS 202 (R117, R119) and
SHA-384 of FIPS 180-4 (R126, R331). -/

namespace Sys2Proof.Machine

/-! ## Keccak (FIPS 202) -/

/-- Round constants of Keccak-f[1600]. -/
def keccakRC : List Nat :=
  [0x1, 0x8082, 0x800000000000808A, 0x8000000080008000,
   0x808B, 0x80000001, 0x8000000080008081, 0x8000000000008009,
   0x8A, 0x88, 0x80008009, 0x8000000A,
   0x8000808B, 0x800000000000008B, 0x8000000000008089, 0x8000000000008003,
   0x8000000000008002, 0x8000000000000080, 0x800A, 0x800000008000000A,
   0x8000000080008081, 0x8000000000008080, 0x80000001, 0x8000000080008008]

/-- Rotation of the lane (x, y) at index x + 5y. -/
def keccakRot : List Nat :=
  [0x0, 0x1, 0x3E, 0x1C, 0x1B, 0x24, 0x2C, 0x6, 0x37, 0x14, 0x3, 0xA, 0x2B,
   0x19, 0x27, 0x29, 0x2D, 0xF, 0x15, 0x8, 0x12, 0x2, 0x3D, 0x38, 0xE]

/-- Rotate a 64-bit lane left. -/
def rotl64 (v n : Nat) : Nat := if n = 0 then v else v * 2 ^ n % 2 ^ 64 ||| v / 2 ^ (64 - n)

/-- Rotate a 64-bit word right. -/
def rotr64 (v n : Nat) : Nat := v / 2 ^ n ||| v * 2 ^ (64 - n) % 2 ^ 64

/-- One round of Keccak-f[1600] on 25 lanes, lane (x, y) at index x + 5y. -/
def keccakRound (a : List Nat) (rc : Nat) : List Nat :=
  let c := (List.range 5).map fun x =>
    a.getD x 0 ^^^ a.getD (x + 5) 0 ^^^ a.getD (x + 10) 0 ^^^ a.getD (x + 15) 0 ^^^ a.getD (x + 20) 0
  let d := (List.range 5).map fun x => c.getD ((x + 4) % 5) 0 ^^^ rotl64 (c.getD ((x + 1) % 5) 0) 1
  let t := a.zipIdx.map fun e => rotl64 (e.1 ^^^ d.getD (e.2 % 5) 0) (keccakRot.getD e.2 0)
  let b := (List.range 25).map fun i =>
    let x := i % 5
    let y := i / 5
    t.getD ((x + 3 * y) % 5 + 5 * x) 0
  b.zipIdx.map fun e =>
    let x := e.2 % 5
    let y := e.2 / 5 * 5
    let v := e.1 ^^^ ((2 ^ 64 - 1 - b.getD ((x + 1) % 5 + y) 0) &&& b.getD ((x + 2) % 5 + y) 0)
    if e.2 = 0 then v ^^^ rc else v

/-- Keccak-f[1600]. -/
def keccakF (a : List Nat) : List Nat := keccakRC.foldl keccakRound a

/-- Absorb one 168-byte block. -/
def shakeAbsorb (a : List Nat) (b : List Byte) : List Nat :=
  keccakF (a.zipIdx.map fun e => if e.2 < 21 then e.1 ^^^ field b (8 * e.2) 8 else e.1)

/-- The padded blocks of a message under SHAKE128. -/
def shakePad (m : List Byte) : List Byte :=
  let p := m ++ [0x1F]
  let z := p ++ List.replicate ((168 - p.length % 168) % 168) 0
  z.dropLast ++ [z.getLastD 0 ||| 0x80]

/-- The state after absorbing `n` blocks of a padded message. -/
def shakeState (z : List Byte) : Nat → List Nat → List Nat
  | 0, a => a
  | n + 1, a => shakeState (z.drop 168) n (shakeAbsorb a (z.take 168))

/-- `n` blocks of output from a state. -/
def shakeSqueeze : Nat → List Nat → List Byte
  | 0, _ => []
  | n + 1, a => (a.take 21).flatMap (leBytes 8) ++ shakeSqueeze n (keccakF a)

/-- SHAKE128 of a message, `len` bytes. -/
def shake128 (m : List Byte) (len : Nat) : List Byte :=
  let z := shakePad m
  (shakeSqueeze ((len + 167) / 168) (shakeState z (z.length / 168) (List.replicate 25 0))).take len

/-! ## SHA-384 (FIPS 180-4) -/

/-- Constants 0..19 of SHA-512. -/
def shaK0 : List Nat :=
  [0x428A2F98D728AE22, 0x7137449123EF65CD, 0xB5C0FBCFEC4D3B2F, 0xE9B5DBA58189DBBC,
   0x3956C25BF348B538, 0x59F111F1B605D019, 0x923F82A4AF194F9B, 0xAB1C5ED5DA6D8118,
   0xD807AA98A3030242, 0x12835B0145706FBE, 0x243185BE4EE4B28C, 0x550C7DC3D5FFB4E2,
   0x72BE5D74F27B896F, 0x80DEB1FE3B1696B1, 0x9BDC06A725C71235, 0xC19BF174CF692694,
   0xE49B69C19EF14AD2, 0xEFBE4786384F25E3, 0xFC19DC68B8CD5B5, 0x240CA1CC77AC9C65]

/-- Constants 20..39 of SHA-512. -/
def shaK1 : List Nat :=
  [0x2DE92C6F592B0275, 0x4A7484AA6EA6E483, 0x5CB0A9DCBD41FBD4, 0x76F988DA831153B5,
   0x983E5152EE66DFAB, 0xA831C66D2DB43210, 0xB00327C898FB213F, 0xBF597FC7BEEF0EE4,
   0xC6E00BF33DA88FC2, 0xD5A79147930AA725, 0x6CA6351E003826F, 0x142929670A0E6E70,
   0x27B70A8546D22FFC, 0x2E1B21385C26C926, 0x4D2C6DFC5AC42AED, 0x53380D139D95B3DF,
   0x650A73548BAF63DE, 0x766A0ABB3C77B2A8, 0x81C2C92E47EDAEE6, 0x92722C851482353B]

/-- Constants 40..59 of SHA-512. -/
def shaK2 : List Nat :=
  [0xA2BFE8A14CF10364, 0xA81A664BBC423001, 0xC24B8B70D0F89791, 0xC76C51A30654BE30,
   0xD192E819D6EF5218, 0xD69906245565A910, 0xF40E35855771202A, 0x106AA07032BBD1B8,
   0x19A4C116B8D2D0C8, 0x1E376C085141AB53, 0x2748774CDF8EEB99, 0x34B0BCB5E19B48A8,
   0x391C0CB3C5C95A63, 0x4ED8AA4AE3418ACB, 0x5B9CCA4F7763E373, 0x682E6FF3D6B2B8A3,
   0x748F82EE5DEFB2FC, 0x78A5636F43172F60, 0x84C87814A1F0AB72, 0x8CC702081A6439EC]

/-- Constants 60..79 of SHA-512. -/
def shaK3 : List Nat :=
  [0x90BEFFFA23631E28, 0xA4506CEBDE82BDE9, 0xBEF9A3F7B2C67915, 0xC67178F2E372532B,
   0xCA273ECEEA26619C, 0xD186B8C721C0C207, 0xEADA7DD6CDE0EB1E, 0xF57D4F7FEE6ED178,
   0x6F067AA72176FBA, 0xA637DC5A2C898A6, 0x113F9804BEF90DAE, 0x1B710B35131C471B,
   0x28DB77F523047D84, 0x32CAAB7B40C72493, 0x3C9EBE0A15C9BEBC, 0x431D67C49C100D4C,
   0x4CC5D4BECB3E42B6, 0x597F299CFC657E2A, 0x5FCB6FAB3AD6FAEC, 0x6C44198C4A475817]

/-- The 80 constants of SHA-512. -/
def shaK : List Nat := shaK0 ++ shaK1 ++ shaK2 ++ shaK3

/-- The initial value of SHA-384. -/
def shaH : List Nat :=
  [0xCBBB9D5DC1059ED8, 0x629A292A367CD507, 0x9159015A3070DD17, 0x152FECD8F70E5939,
   0x67332667FFC00B31, 0x8EB44A8768581511, 0xDB0C2E0D64F98FA7, 0x47B5481DBEFA4FA4]

/-- Sum modulo 2^64. -/
def add64 (a b : Nat) : Nat := (a + b) % 2 ^ 64

/-- The next word of the message schedule, from the last sixteen, newest first. -/
def shaNext (w : List Nat) : Nat :=
  let s (v a b c : Nat) : Nat := rotr64 v a ^^^ rotr64 v b ^^^ v / 2 ^ c
  add64 (add64 (s (w.getD 1 0) 19 61 6) (w.getD 6 0)) (add64 (s (w.getD 14 0) 1 8 7) (w.getD 15 0))

/-- The message schedule, newest first, after n more words. -/
def shaExpand : Nat → List Nat → List Nat
  | 0, w => w
  | n + 1, w => shaExpand n (shaNext w :: w)

/-- One round on the eight working words. -/
def shaRound (h : List Nat) (kw : Nat) : List Nat :=
  let g (i : Nat) : Nat := h.getD i 0
  let s1 := rotr64 (g 4) 14 ^^^ rotr64 (g 4) 18 ^^^ rotr64 (g 4) 41
  let ch := (g 4 &&& g 5) ^^^ ((2 ^ 64 - 1 - g 4) &&& g 6)
  let t1 := (g 7 + s1 + ch + kw) % 2 ^ 64
  let s0 := rotr64 (g 0) 28 ^^^ rotr64 (g 0) 34 ^^^ rotr64 (g 0) 39
  let mj := (g 0 &&& g 1) ^^^ (g 0 &&& g 2) ^^^ (g 1 &&& g 2)
  [(t1 + s0 + mj) % 2 ^ 64, g 0, g 1, g 2, add64 (g 3) t1, g 4, g 5, g 6]

/-- Compress one 128-byte block. -/
def shaBlock (h : List Nat) (b : List Byte) : List Nat :=
  let w := (shaExpand 64 ((List.range 16).map fun i => beNat (slice b (8 * i) 8)).reverse).reverse
  let r := (w.zip shaK).foldl (fun h e => shaRound h (e.1 + e.2)) h
  (h.zip r).map fun e => add64 e.1 e.2

/-- The blocks of a padded message. -/
def shaBlocks : Nat → List Byte → List Nat → List Nat
  | 0, _, h => h
  | n + 1, z, h => shaBlocks n (z.drop 128) (shaBlock h (z.take 128))

/-- `n` big-endian bytes of a number. -/
def beBytes (n v : Nat) : List Byte := (leBytes n v).reverse

/-- SHA-384 of a message, 48 bytes. -/
def sha384 (m : List Byte) : List Byte :=
  let p := m ++ [0x80]
  let z := p ++ List.replicate ((240 - p.length % 128) % 128) 0 ++ beBytes 16 (8 * m.length)
  ((shaBlocks (z.length / 128) z shaH).take 6).flatMap (beBytes 8)

/-- M, the measurement of the firmware booted (R444); the digests are those of the slot's header (R502). -/
def State.measurement (s : State) : List Byte :=
  let h := (if s.pw.fwSlotA then s.pw.env.fwA else s.pw.env.fwB).header
  sha384 (leBytes 16 Config.romId.toNat ++ slice h 16 48 ++ slice h 64 48 ++ leBytes 2 s.pw.svn)

end Sys2Proof.Machine
end

