-- ==== Sys2Proof/Machine/Signet.lean ====
section
/-! DEFINITION. The DRBG, the ephemeral keys and the queue of the Signet engine (R447, R449, R451, R453, R454), and the
identity's signatures (R445). -/

namespace Sys2Proof.Machine

/-! ## The DRBG (R449) -/

/-- Generate calls of n bytes: the bytes in order, the calls counted, a reseed before the 2^32-th call (R449). -/
def State.generate (s : State) (n : Nat) : List Byte × State :=
  let k := max 1 ((n + 65535) / 65536)
  let x := s.sec
  let fresh := decide (2 ^ 32 < x.drbgCalls + k)
  let sec : Sec :=
    { x with
      drbgPos := x.drbgPos + n, drbgCalls := if fresh then k else x.drbgCalls + k
      drbgReseeds := if fresh then bump x.drbgReseeds else x.drbgReseeds }
  ((List.range n).map fun i => Config.drbgByte (x.drbgPos + i), { s with sec := sec })

/-- Instantiate the DRBG (R449, R450). -/
def State.instantiateDrbg (s : State) : State :=
  { s with sec := { s.sec with drbgUp := true, drbgCalls := 0, drbgReseeds := bump s.sec.drbgReseeds } }

/-- The entropy source is HEALTHY and the DRBG serves (R450). -/
def State.entropyOk (s : State) : Bool := s.sec.entropy == .healthy && s.sec.drbgUp

/-! ## Keys and signatures -/

/-- The identity key may sign (R445, R463). -/
def State.identityOk (s : State) : Bool := !s.sec.signetFailed && s.sec.identity == 1 && s.sec.vaultId

/-- A fresh ephemeral P-384 key pair: its number (R447, R456). -/
def State.newEphemeral (s : State) : Nat × State :=
  let s := (s.generate 48).2
  (s.sec.ephSeq + 1, { s with sec := { s.sec with ephSeq := s.sec.ephSeq + 1 } })

/-- A signature with the identity key, its nonce k from the DRBG (R451). -/
def State.signIdentity (s : State) (msg : List Byte) : List Byte × State :=
  (Config.identitySign msg s.sec.drbgPos, (s.generate 48).2)

/-! ## The queue (R454) -/

/-- The class of a request. -/
def SigOp.cls : SigOp → Nat
  | .linkKex _ => 1
  | .linkRekey _ => 1
  | .pdec _ => 2
  | .manifest _ => 3
  | .offer _ => 4
  | .submit _ => 4
  | .hallmark => 5

/-- The request uses a private key, so that it runs twice (R451, R453). -/
def SigOp.isPrivate : SigOp → Bool
  | .manifest _ => false
  | _ => true

/-- The request the engine serves next: the one that has waited 100 ms or more for longest, else the oldest of the lowest
class (R454). Requests stand in the queue oldest first. -/
def sigPick (now : Nat) (q : List (Nat × SigOp)) : Option (Nat × SigOp) :=
  match q with
  | [] => none
  | e :: rest =>
    if e.1 + 100000000 ≤ now then some e
    else some (rest.foldl (fun b x => if x.2.cls < b.2.cls then x else b) e)

/-- A free engine starts its next request. -/
def State.sigStart (s : State) : State :=
  if s.sec.signetFailed || s.sec.sigBusy.isSome then s
  else match sigPick s.tm.now s.sec.sigQueue with
    | none => s
    | some e =>
      { s with sec := { s.sec with sigQueue := s.sec.sigQueue.erase e, sigBusy := some e.2, operands := true } }

/-- A request reaches the engine. -/
def State.sigPush (s : State) (op : SigOp) : State :=
  State.sigStart { s with sec := { s.sec with sigQueue := s.sec.sigQueue ++ [(s.tm.now, op)] } }

/-- A request waits at the engine or runs in it. -/
def State.sigPending (s : State) (op : SigOp) : Bool :=
  s.sec.sigBusy == some op || s.sec.sigQueue.any fun e => e.2 == op

/-- Requests that satisfy a test leave the engine: the running one is aborted and its operands are wiped (R454). -/
def State.sigAbort (s : State) (p : SigOp → Bool) : State :=
  let q := s.sec.sigQueue.filter fun e => !p e.2
  let hit := s.sec.sigBusy.any p
  let s := { s with sec := { s.sec with
      sigQueue := q, sigBusy := if hit then none else s.sec.sigBusy, operands := s.sec.operands && !hit } }
  s.sigStart

end Sys2Proof.Machine
end

