-- ==== Sys2Proof/Machine/Links.lean ====
section
/-! DEFINITION. Jupen links (R358..R377, R447): reception and replay, training and sessions, width, routes and paths,
blocks that arrive or pass through, rekeying, delay measurement. -/

namespace Sys2Proof.Machine

/-! ## Lanes and the plan's link entries (R358, R371, R373) -/

/-- Lanes in whole working pairs. -/
def Link.lanes (l : Link) : Nat :=
  2 * ((List.range 4).filter fun p => !l.badLanes.contains (2 * p) && !l.badLanes.contains (2 * p + 1)).length

/-- The plan's entry of a link, when the plan uses it. -/
def State.linkEnt (s : State) (j : Nat) : Option LinkEnt :=
  (s.route.bind fun r => r.links[j]?).filter fun e => e.peerPkg != 0xFFFF

/-- MIN_LANES of a link: the plan's, else 4 (R371). -/
def State.minLanes (s : State) (j : Nat) : Nat := match s.linkEnt j with
  | some e => max 4 e.minLanes
  | none => 4

/-- The side with the lower (package address, link number) pair (R368, R447). -/
def State.linkLo (s : State) (j : Nat) : Bool :=
  let l := s.link j
  decide (s.dom.pkgAddr < l.peerPkg ∨ (s.dom.pkgAddr = l.peerPkg ∧ j < l.peerLink))

/-! ## Paths (R374, R375) -/

/-- A path of this package's own routes leaves on a link and CHAN. -/
def State.ownPath (s : State) (j c : Nat) : Bool :=
  s.route.any fun r => r.routes.any fun e => e.paths.any fun p => p.egress == j && p.chan == c

/-- Blocks sent on a path that have no landing acknowledgement: issuing array, DSEQ, block number. -/
def State.sentOn (s : State) (p : Nat × Nat) : List (ArrId × Nat × Nat) :=
  (List.range 8).flatMap fun d => (s.die d).descs.flatMap fun e =>
    (e.blocks.zipIdx.filter fun b => b.1.st == .sent && b.1.via == some p).map fun b => (e.arr, e.dseq, b.2)

/-- The sender receives word that a path is down (R375): its unacknowledged blocks fault, and later ones take another. -/
def State.losePath (s : State) (j c : Nat) : State :=
  let lost := s.sentOn (j, c)
  let s := { s with dom := { s.dom with
      down := if s.dom.down.contains (j, c) then s.dom.down else s.dom.down ++ [(j, c)]
      upAt := s.dom.upAt.filter fun e => !(e.1 == j && e.2.1 == c) } }
  lost.foldl (fun s b => s.blockFail b.1 b.2.1 b.2.2 { kind := 9, sub := 3 } none) s

/-- A path becomes usable again at the start of an epoch (R375). -/
def State.regainPath (s : State) (j c e : Nat) : State :=
  if s.dom.down.contains (j, c) then
    { s with dom := { s.dom with upAt := s.dom.upAt ++ [(j, c, e)] } }
  else s

/-- The CHANs of this package's own paths over a link. -/
def State.ownChans (s : State) (j : Nat) : List Nat := match s.route with
  | some r => (r.routes.flatMap fun e => (e.paths.filter fun p => p.egress == j).map (·.chan)).eraseDups
  | none => []

/-- Forwarding entries that lead onto a link. -/
def State.fwdOnto (s : State) (j : Nat) : List FwdEnt := match s.route with
  | some r => r.fwd.filter fun f => f.outLink == j
  | none => []

/-- Send a link-control frame on a link with a session. -/
def State.txLctl (s : State) (j subtype : Nat) (fields : List Nat) : State :=
  if (s.link j).session then s.txFrame j 0 (.lctl subtype fields []) else s

/-- PATH_DOWN for every CHAN that crosses a link (R372, R375). -/
def State.pathsDown (s : State) (j reason : Nat) : State :=
  let s := (s.fwdOnto j).foldl (fun s f => s.txLctl f.inLink 6 [f.inChan, reason]) s
  (s.ownChans j).foldl (fun s c => s.losePath j c) s

/-- PATH_UP for every CHAN that crosses a link that returns (R375). -/
def State.pathsUp (s : State) (j : Nat) : State :=
  let e := (s.epoch + 1) % 2 ^ 32
  let s := (s.fwdOnto j).foldl (fun s f => s.txLctl f.inLink 7 [f.inChan, e]) s
  (s.ownChans j).foldl (fun s c => s.regainPath j c e) s

/-! ## Failure and training (R369..R372) -/

/-- A link without session, open blocks and frames. -/
def Link.quiet (l : Link) : Link :=
  { l with
    session := false, keys := [], th := [], ephKey := 0, helloIn := none, kexIn := [], kexFrag := 0, rekey := none
    nakSent := false, replay := [], txWait := [], opens := [], dlyTx := 0, dlyRx := 0 }

/-- The link's requests at the Signet engine are aborted (R454). -/
def State.abortLink (s : State) (j : Nat) : State := s.sigAbort fun op => op == .linkKex j || op == .linkRekey j

/-- A link is FAILED (R372): its frames stop, its paths are down, LINK_DOWN is logged. -/
def State.linkFail (s : State) (j reason : Nat) : State :=
  let l := s.link j
  let s := s.setLink j { l.quiet with
    st := .failed, width := 0, reason := reason, step := 0, retrain := if l.retrain = 1 then 3 else l.retrain }
  let s := (s.abortLink j).pathsDown j reason
  (s.log 0x30 0xFF j reason).replaceCheck

/-- The 32 bytes of a HELLO body (R367). -/
def helloBytes (h : HelloBody) : List Byte :=
  leBytes 2 h.pkg ++ leBytes 1 h.link ++ leBytes 1 h.width ++ slice h.ordering 0 8 ++ slice h.stepping 0 2 ++ leBytes 2 h.svn ++
    leBytes 8 h.serial ++ leBytes 8 0

/-- This side's HELLO on a link. -/
def State.ownHello (s : State) (j : Nat) : HelloBody :=
  { pkg := s.dom.pkgAddr, link := j, width := (s.link j).lanes, svn := s.pw.svn, serial := Config.serial.toNat
    ordering := ascii "KF8-P40A", stepping := ascii "B0" }

/-- A training step fails (R369): a retry follows, or after 10 failures the link is FAILED with TRAIN. -/
def State.trainFail (s : State) (j : Nat) : State :=
  let l := s.link j
  let s := (s.setLink j { l.quiet with attempts := l.attempts + 1, step := 0 }).abortLink j
  if 10 ≤ l.attempts + 1 then s.linkFail j 1 else s

/-- NOT_READY is met in step 1 (R370): signal on lanes 0 and 1 only, with lock to PRBS7. -/
def metNotReady (r : TrainRef) : Bool := r.signal == 3 && r.prbs7

/-- Training from step 1 (R369, R370): FCNT restarts. Without signal on every lane the link stays in step 1, with no time limit,
and after NOT_READY for a wait (R506); lanes that equalisation marks leave with their pairs, and without two working pairs the
link is FAILED; without codeword lock the attempt fails; from step 4 the link sends its HELLO. -/
def State.startTraining (s : State) (r : TrainRef) : State :=
  let l := s.link r.link
  let s := s.abortLink r.link
  let l := { l.quiet with
    st := .training, width := 0, step := 1, flocked := true, fcntTx := 0, fcntRx := 0, keyTx := 0, keyRx := 0 }
  if r.signal != 0xFF then
    s.setLink r.link (if metNotReady r then { l with nrWait := if l.nrWait = 0 then 50 else min 800 (2 * l.nrWait) } else l)
  else
    let pairs := r.weak.flatMap fun n => [n / 2 * 2, n / 2 * 2 + 1]
    let l := { l with badLanes := (pairs ++ l.badLanes).eraseDups, step := 3 }
    let s := s.setLink r.link l
    if l.lanes < 4 then s.linkFail r.link 2
    else if !r.lock then s.trainFail r.link
    else
      let s := s.setLink r.link { l with step := 4 }
      s.txFrame r.link 0 (.lctl 3 [] (helloBytes (s.ownHello r.link)))

/-- Training is complete (R369): the link is UP or DEGRADED, and its paths return unless it is too narrow. -/
def State.trainDone (s : State) (j : Nat) : State :=
  let l := s.link j
  let w := l.lanes
  let s := s.setLink j { l with
    st := if w = 8 then .up else .degraded, width := w, reason := 0, step := 6, attempts := 0, nrWait := 0
    retrain := if l.retrain = 1 then 2 else l.retrain }
  let s := if w = 8 then s else s.log 0x31 0xFF j w
  (if w < s.minLanes j then s.pathsDown j 8 else s.pathsUp j).replaceCheck

/-! ## Reception (R361, R362, R364, R366) -/

/-- Frames travel on the link: it is UP or DEGRADED, or trains from step 4 on. -/
def Link.carries (l : Link) : Bool := l.up || (l.st == .training && decide (4 ≤ l.step))

/-- A frame is dropped; the first of a run draws a NAK (R364). -/
def State.dropFrame (s : State) (j : Nat) : State :=
  let l := s.link j
  if l.nakSent then s else (s.setLink j { l with nakSent := true }).txFrame j 0 (.lctl 1 [l.fcntRx] [])

/-- A tag failure is counted, and the frame dropped (R364, R366). -/
def State.tagFailed (s : State) (j : Nat) : State :=
  (s.modLink j fun l => { l with
    authFail := bump l.authFail
    tagFails := (l.tagFails.filter fun t => decide (s.tm.now < t + 1000000000)) ++ [s.tm.now] }).dropFrame j

/-- A frame that an ACK covers (R361, R364). -/
def ackCovers (ack fcnt : Nat) : Bool :=
  decide (0 < (ack + 65536 - fcnt % 65536) % 65536 ∧ (ack + 65536 - fcnt % 65536) % 65536 ≤ 32768)

/-- A frame is accepted: its FCNT counts and its ACK frees held frames. -/
def State.takeFrame (s : State) (r : Rx) : State :=
  (s.modLink r.link fun l =>
    { l with fecCorr := sat32 (l.fecCorr + r.corrected), fcntRx := l.fcntRx + 1, nakSent := false, replay := l.replay.filter fun t => !ackCovers r.ack t.fcnt }).releaseFrames
      r.link

/-- Receive a frame (R364, R366, R367): `prot` for a TYPE under GCM once the session exists, `early` for one that may
travel before. -/
def State.receive (s : State) (r : Rx) (prot early : Bool) (k : State → State) : State :=
  let l := s.link r.link
  if !l.carries then s
  else if !r.crcOk then s.dropFrame r.link
  else if prot && l.session && !r.tagOk then s.tagFailed r.link
  else if r.fcnt != l.fcntRx then s.dropFrame r.link
  else
    let s := s.takeFrame r
    if early || l.session then k s else s

/-- Receive a HELLO or KEX frame: after the session's keys took effect it counts as a tag failure (R367). -/
def State.receiveKex (s : State) (r : Rx) (k : State → State) : State :=
  let l := s.link r.link
  if l.carries && r.crcOk && l.session then s.tagFailed r.link else s.receive r false true k

/-- IDLE: an empty frame (R362). -/
def execIdle (rx : Rx) (s : State) : Res :=
  need rx.wf "link" <| .next (s.receive rx false true id)


/-- NAK: every held frame from the named FCNT is sent again; a seventh resend of one fails the link (R364). -/
def State.answerNak (s : State) (j expect : Nat) : State :=
  let l := s.link j
  let again (t : TxFrame) : TxFrame := if expect ≤ t.fcnt then { t with resent := t.resent + 1 } else t
  let replay := l.replay.map again
  let s := s.setLink j { l with replay := replay, retrans := bump l.retrans }
  let s := (replay.filter fun t => decide (expect ≤ t.fcnt)).foldl (fun s t => s.send (.frame j t t.bytes)) s
  if replay.any fun t => decide (7 ≤ t.resent) then s.linkFail j 3 else s

/-- NAK (R364, R367). -/
def execNak (rx : Rx) (expect : Nat) (s : State) : Res :=
  need rx.wf "link" <| .next (s.receive rx true true fun s => s.answerNak rx.link expect)

/-- AUTH_FAIL_LIMIT: more than 16 tag failures within 1 s (R366). -/
def execAuthFailLimit (j : Nat) (s : State) : Res :=
  need (linkWf j) "link" <|
    arises (decide (16 < ((s.link j).tagFails.filter fun t => decide (s.tm.now < t + 1000000000)).length))
      "the link has not had 17 tag failures within 1 s" <|
      .next (if (s.link j).carries then s.linkFail j 4 else s)

/-! ## Training (R369, R370, R447, R506) -/

/-- LINK_START: the link begins training (R504); nothing in SAFE, without the reference, or when it started already. -/
def execLinkStart (r : TrainRef) (s : State) : Res :=
  need (linkWf r.link) "link" <|
    .next (
      if s.powered && s.pw.part != .safe && !s.pw.noRefclk && !(s.link r.link).started then
        (s.modLink r.link fun l => { l with started := true, attempts := 0, nrWait := 0 }).startTraining r
      else s)

/-- NOT_READY_WAIT_EXPIRY: the wait after a peer's NOT_READY ends, or signal comes, and step 1 is tried again (R506). -/
def execNotReadyWaitExpiry (r : TrainRef) (s : State) : Res :=
  need (linkWf r.link) "link" <|
    .next (
      let l := s.link r.link
      if s.powered && l.started && l.st == .training && l.step == 1 then s.startTraining r else s)

/-- TRAINING_RETRY: 1 s after a failed step the link trains again (R369); a step from the second on that no command shows failing
fails here first. -/
def execTrainingRetry (r : TrainRef) (s : State) : Res :=
  need (linkWf r.link) "link" <|
    .next (
      let l := s.link r.link
      if s.powered && l.started && l.st == .training then
        let s := if l.step ≤ 1 then s else s.trainFail r.link
        if (s.link r.link).st == .training then s.startTraining r else s
      else s)

/-- The session exchange may run (R445, R450, R453). -/
def State.kexReady (s : State) : Bool := s.entropyOk && s.identityOk

/-- HELLO: the peer's address, identity and link number (R369 step 4); the session exchange follows. -/
def State.takeHello (s : State) (j : Nat) (h : HelloBody) : State :=
  let l := s.link j
  if l.st == .training && l.step == 4 then
    let s := s.setLink j { l with helloIn := some h, peerPkg := h.pkg, peerLink := h.link, step := 5 }
    if s.kexReady then s.sigPush (.linkKex j) else s.trainFail j
  else s

/-- HELLO (R369, R367). -/
def execHello (rx : Rx) (h : HelloBody) (s : State) : Res :=
  need rx.wf "link" <| .next (s.receiveKex rx fun s => s.takeHello rx.link h)

/-- What a side signs (R447). -/
def helloText (hello epk : List Byte) : List Byte := ascii "KF8 link hello" ++ hello ++ epk

/-- A certificate or key with its length in front. -/
def withLen (bs : List Byte) : List Byte := leBytes 2 bs.length ++ bs

/-- The first half of step 5 (R447): an ephemeral key pair, its signature, the key-exchange message in fragments. -/
def State.kexSend (s : State) (j : Nat) : State :=
  let e := s.newEphemeral
  let epk := Config.ephemeralPub e.1
  let g := e.2.signIdentity (helloText (helloBytes (s.ownHello j)) epk)
  let msg := withLen Config.certDeviceId ++ withLen Config.certIdentity ++ epk ++ g.1
  let s := g.2.modLink j fun l => { l with ephKey := e.1 }
  let ps := chunks228 (msg.length / 228 + 1) msg
  let s := ps.zipIdx.foldl (fun s p => s.txFrame j 0 (.lctl 4 [p.2, b2n (p.2 + 1 == ps.length)] p.1)) s
  if (s.link j).kexFrag = 0xFFFF then s.sigPush (.linkKex j) else s
where
  /-- Fragments of up to 228 bytes. -/
  chunks228 : Nat → List Byte → List (List Byte)
    | 0, _ => []
    | k + 1, bs => if bs.isEmpty then [] else bs.take 228 :: chunks228 k (bs.drop 228)

/-- The parts of a key-exchange message (R367): certificates with their lengths, EPK, SIGNATURE; none when too short. -/
def kexParts (m : List Byte) : Option (List Byte × List Byte × List Byte) :=
  let dev := field m 0 2
  let idn := field m (2 + dev) 2
  let at' := 4 + dev + idn
  if m.length = at' + 193 then some (m.take at', slice m at' 97, slice m (at' + 97) 96) else none

/-- Key and salt of each direction (R447): toward the peer, then from it. -/
def sessionKeys (lo : Bool) (z th : List Byte) : List (List Byte) :=
  let up := Config.hkdf z th (ascii "KF8 link lo>hi") 38
  let dn := Config.hkdf z th (ascii "KF8 link hi>lo") 38
  if lo then [up, dn] else [dn, up]

/-- The second half of step 5 (R447): the peer's chain and signature are verified and the session's keys derived. -/
def State.kexFinish (s : State) (j : Nat) : State :=
  let l := s.link j
  match l.helloIn, kexParts l.kexIn with
  | some h, some (certs, epk, _) =>
    let chain := Config.peerChain certs
    let known := s.sec.peers.contains h.serial || chain.isSome
    let policy := !s.sec.peerPolicy || chain == some (s.measurement)
    let signed := Config.peerSig l.kexIn (helloText (helloBytes h) epk)
    match Config.ecdh l.ephKey epk with
    | some z =>
      if known && policy && signed then
        let mine := Config.ephemeralPub l.ephKey
        let own := helloBytes (s.ownHello j)
        let peer := helloBytes h
        let lo := s.linkLo j
        let th := sha384 (if lo then own ++ peer ++ mine ++ epk else peer ++ own ++ epk ++ mine)
        let peers := if s.sec.peers.contains h.serial then s.sec.peers else s.sec.peers ++ [h.serial]
        let s := { s with sec := { s.sec with peers := peers } }
        let s := s.setLink j { l with
          session := true, keys := sessionKeys lo z th, th := th, ephKey := 0, keyTx := l.fcntTx, keyRx := l.fcntRx, step := 6 }
        s.txFrame j 0 (.lctl 2 [s.tm.now, 0, 0] [])
      else s.trainFail j
    | none => s.trainFail j
  | _, _ => s.trainFail j

/-- The Signet engine has served a link's session exchange; a refusal fails the training step (R447, R453). -/
def State.kexDone (s : State) (j : Nat) (ok : Bool) : State :=
  let l := s.link j
  if !(l.st == .training && l.step == 5) then s
  else if !ok || !s.kexReady then s.trainFail j
  else if l.ephKey = 0 then s.kexSend j
  else s.kexFinish j

/-- A fragment of the peer's key-exchange message (R367). -/
def State.takeKex (s : State) (j frag : Nat) (lastFrag : Bool) (body : List Byte) : State :=
  let l := s.link j
  if l.st == .training && l.step == 5 && l.kexFrag == frag then
    let s := s.setLink j { l with kexIn := l.kexIn ++ body, kexFrag := if lastFrag then 0xFFFF else frag + 1 }
    if lastFrag && l.ephKey != 0 then s.sigPush (.linkKex j) else s
  else s

/-- KEX (R447, R367). -/
def execKex (rx : Rx) (frag : Nat) (lastFrag : Bool) (body : List Byte) (s : State) : Res :=
  need rx.wf "link" <| .next (s.receiveKex rx fun s => s.takeKex rx.link frag lastFrag body)

/-! ## Delay measurement (R376, R351) -/

/-- A measured offset counts toward the skew of a domain (R351). -/
def State.noteSkew (s : State) (o : Int) : State :=
  if s.plan.any (·.domain) then
    let s := { s with tm := { s.tm with skew := max s.tm.skew o.natAbs } }
    if 25 < o.natAbs then s.log 0x32 0xFF 0 (o % 2 ^ 32).toNat else s
  else s

/-- A DELAY frame: t1 and t2 are the send and receive times of this side's own frame, t3 and t4 of the peer's (R376). -/
def State.measure (s : State) (j tTx echoTx echoRx rxTime : Nat) : State :=
  let s := s.modLink j fun l => { l with dlyTx := tTx, dlyRx := rxTime, missed := 0 }
  let training := (s.link j).st == .training
  if echoTx = 0 then
    if training then s.txFrame j 0 (.lctl 2 [s.tm.now, tTx, rxTime] []) else s
  else
    let a : Int := (echoRx : Int) - echoTx
    let b : Int := (rxTime : Int) - tTx
    let d := (a + b) / 2
    let s := (s.modLink j fun l => { l with delay := d.toNat, offset := (a - b) / 2 }).noteSkew ((a - b) / 2)
    let late := match s.linkEnt j with
      | some e => decide ((e.maxDelay : Int) < d)
      | none => false
    if late then s.linkFail j 7 else if training then s.trainDone j else s

/-- DELAY (R376). -/
def execDelayFrame (rx : Rx) (tTx echoTx echoRx rxTime : Nat) (s : State) : Res :=
  need rx.wf "link" <| .next (s.receive rx true false fun s => s.measure rx.link tTx echoTx echoRx rxTime)

/-! ## Lanes and lock (R371, R372) -/

/-- A lane's pair is dropped (R371): the link goes on narrower, or is FAILED. -/
def State.dropLane (s : State) (j lane : Nat) : State :=
  let p := lane / 2 * 2
  let s := s.modLink j fun l => { l with badLanes := (p :: (p + 1) :: l.badLanes).eraseDups }
  let l := s.link j
  if l.up then
    if l.lanes < s.minLanes j then s.linkFail j 2
    else (s.setLink j { l with st := .degraded, width := l.lanes }).log 0x31 0xFF j l.lanes
  else if l.st == .training && decide (l.lanes < s.minLanes j) then s.linkFail j 2
  else s

/-- LANE_FAILURE (R371). -/
def execLaneFailure (j lane : Nat) (s : State) : Res :=
  need (linkWf j && decide (lane < 8)) "lane" <|
    .next (if (s.link j).up || (s.link j).st == .training then s.dropLane j lane else s)

/-- FLOCK_LOSS: the recovered clock loses frequency lock; a link of a loaded domain plan is FAILED (R350, R372). -/
def execFlockLoss (j : Nat) (s : State) : Res :=
  need (linkWf j) "link" <|
    .next (
      let s := s.modLink j fun l => { l with flocked := false }
      if s.plan.any (·.domain) && (s.linkEnt j).isSome && (s.link j).up then s.linkFail j 6 else s)

/-! ## Rekeying (R368) -/

/-- SCNT of the transmit and of the receive direction (R365). -/
def Link.scntTx (l : Link) : Nat := l.fcntTx - l.keyTx

/-- SCNT of the receive direction (R365). -/
def Link.scntRx (l : Link) : Nat := l.fcntRx - l.keyRx

/-- This side is to start a rekey (R368). -/
def State.rekeyDue (s : State) (j : Nat) : Bool :=
  let l := s.link j
  l.up && l.session && s.linkLo j && (decide (2 ^ 47 ≤ l.scntTx) || decide (2 ^ 47 ≤ l.scntRx))

/-- REKEY_START: either direction's SCNT has reached 2^47, on the lower side (R368). -/
def execRekeyStart (j : Nat) (s : State) : Res :=
  need (linkWf j) "link" <|
    arises (s.rekeyDue j && (s.link j).rekey.isNone && !s.sigPending (.linkRekey j)) "no rekey is due" <|
      .next (if s.kexReady then s.sigPush (.linkRekey j) else s)

/-- REKEY_RETRY: a rekey not complete within 100 ms starts again (R368). -/
def execRekeyRetry (j : Nat) (s : State) : Res :=
  need (linkWf j) "link" <|
    arises (s.rekeyDue j || (s.link j).rekey.isSome) "no rekey is under way" <|
      .next (
        let s := (s.modLink j fun l => { l with rekey := none }).abortLink j
        if s.rekeyDue j && s.kexReady then s.sigPush (.linkRekey j) else s)

/-- A REKEY body (R367). -/
def rekeyBytes (answer : Bool) (lohi hilo : Nat) (epk : List Byte) : List Byte :=
  leBytes 1 (if answer then 2 else 1) ++ leBytes 7 0 ++ leBytes 8 lohi ++ leBytes 8 hilo ++ epk

/-- The Signet engine has made a key pair for a rekey: the initiator names the switch FCNTs, the peer answers (R368). -/
def State.rekeyDone (s : State) (j : Nat) (ok : Bool) : State :=
  let l := s.link j
  if !ok || !l.session || !s.kexReady then s.modLink j fun l => { l with rekey := none }
  else match l.rekey with
    | none =>
      let e := s.newEphemeral
      let a := l.fcntTx + 65536
      let b := l.fcntRx + 65536
      let s := e.2.modLink j fun l => { l with rekey := some { key := e.1, lohi := a, hilo := b } }
      s.txFrame j 0 (.lctl 5 [] (rekeyBytes false a b (Config.ephemeralPub e.1)))
    | some r =>
      if r.key != 0 then s
      else
        let e := s.newEphemeral
        let s := e.2.modLink j fun l => { l with rekey := some { r with key := e.1 } }
        s.txFrame j 0 (.lctl 5 [] (rekeyBytes true r.lohi r.hilo (Config.ephemeralPub e.1)))

/-- A REKEY frame arrives (R368): one that initiates is answered, an answer completes it or, with other switch values, ends
it. -/
def State.takeRekey (s : State) (j : Nat) (b : RekeyBody) : State :=
  let l := s.link j
  if b.answer then
    match l.rekey with
    | some r =>
      if r.peerEpk.isSome || !s.linkLo j then s
      else if b.switchLoHi = r.lohi ∧ b.switchHiLo = r.hilo then
        s.setLink j { l with rekey := some { r with peerEpk := some b.epk } }
      else s.setLink j { l with rekey := none }
    | none => s
  else if s.linkLo j then s
  else
    let s := s.setLink j { l with
      rekey := some { key := 0, lohi := b.switchLoHi, hilo := b.switchHiLo, peerEpk := some b.epk } }
    if s.kexReady then s.sigPush (.linkRekey j) else s

/-- REKEY (R368). -/
def execRekey (rx : Rx) (b : RekeyBody) (s : State) : Res :=
  need rx.wf "link" <| .next (s.receive rx true false fun s => s.takeRekey rx.link b)

/-- Keys and TH of a completed rekey exchange (R447): none while the peer's key is missing or refused. -/
def State.rekeyKeys (s : State) (j : Nat) : Option (List (List Byte) × List Byte) :=
  let l := s.link j
  l.rekey.bind fun r => r.peerEpk.bind fun p =>
    if r.key = 0 then none
    else (Config.ecdh r.key p).map fun z =>
      let lo := s.linkLo j
      let mine := rekeyBytes (!lo) r.lohi r.hilo (Config.ephemeralPub r.key)
      let peer := rekeyBytes lo r.lohi r.hilo p
      let th := sha384 (l.th ++ (if lo then mine ++ peer else peer ++ mine))
      (sessionKeys lo z th, th)

/-- The switch FCNT of a direction. -/
def State.switchAt (s : State) (j : Nat) (r : RekeyRun) (tx : Bool) : Nat := if tx == s.linkLo j then r.lohi else r.hilo

/-- SESSION_KEY_SWITCH: at its switch FCNT a direction changes key; when both have, the rekey is complete (R368). -/
def execSessionKeySwitch (j : Nat) (tx : Bool) (s : State) : Res :=
  need (linkWf j) "link" <|
    match (s.link j).rekey, s.rekeyKeys j with
    | some r, some (keys, th) =>
      let l := s.link j
      let at' := s.switchAt j r tx
      arises (if tx then decide (at' ≤ l.fcntTx) && l.keyTx != at' else decide (at' ≤ l.fcntRx) && l.keyRx != at')
          "the direction has not reached its switch FCNT" <|
        .next (
          let l := if tx then { l with keyTx := at', keys := [keys.getD 0 [], l.keys.getD 1 []] }
            else { l with keyRx := at', keys := [l.keys.getD 0 [], keys.getD 1 []] }
          let both := l.keyTx == s.switchAt j r true && l.keyRx == s.switchAt j r false
          s.setLink j (if both then { l with rekey := none, th := th, rekeys := bump l.rekeys } else l))
    | _, _ => .refused (.cannotArise "no rekey has its keys")

/-- SCNT_HALT: the next frame of a direction would bring SCNT to 2^48 - 2^20; the link trains a new session (R368). -/
def execScntHalt (j : Nat) (tx : Bool) (s : State) : Res :=
  need (linkWf j) "link" <|
    let l := s.link j
    arises (l.session && decide (2 ^ 48 - 2 ^ 20 ≤ (if tx then l.scntTx else l.scntRx) + 1)) "SCNT is below its limit" <|
      .next ((s.linkFail j 5).startTraining { link := j })

/-! ## Blocks (R363, R373, R374, R415) -/

/-- Where a frame of a CHAN that arrives on a link goes (R373, R374). -/
inductive Hop where
  | onward (link chan : Nat)
  /-- to this package: a loft of it, or a source array of it on the reverse of one of its own paths. -/
  | here
  | nowhere
  deriving DecidableEq, Repr

/-- The hub's choice (R374): the forwarding entry, its reverse for what travels back, this package's own path. -/
def State.hop (s : State) (j c : Nat) : Hop := match s.route with
  | none => .nowhere
  | some r =>
    match r.fwd.find? fun f => f.inLink == j && f.inChan == c with
    | some f => if f.outLink = 0xFF then .here else .onward f.outLink f.outChan
    | none => match r.fwd.find? fun f => f.outLink == j && f.outChan == c with
      | some f => .onward f.inLink f.inChan
      | none => if s.ownPath j c then .here else .nowhere

/-- Forward a frame on a link that carries frames. -/
def State.forward (s : State) (j c : Nat) (f : FrameOut) : State :=
  if (s.link j).up then s.txFrame j c f else s

/-- Bytes of a block: AOP 7 carries an operand pair for each element (R258). -/
def blockRowLen (o : OpenBody) : Nat := if o.aop = 7 then 2 * o.len else o.len

/-- An arrival with an INC above the job's current one abandons the lower incarnations first (R415). -/
def State.raiseInc (s : State) (j : Job) (inc : Nat) : State :=
  if j.inc < inc then
    (s.abandonJob j.idx true 0 2 2).modJob j.idx fun x => { x with inc := max x.inc inc }
  else s

/-- A job that arrives with its JOB_ID: none for the part's own traffic, an empty option when it is not held (R415). -/
def State.jobOf (s : State) (o : OpenBody) : Option (Option Job) :=
  if o.jobId = 0 then none else some (s.jobs.find? fun j => j.domain && j.jobId == o.jobId)

/-- The block on a CHAN is complete and reaches its array's landing buffer (R363); a reserved AOP reads as 0 (R7). -/
def State.blockIn (s : State) (j c : Nat) (o : OpenBody) (got : List Byte) : State :=
  match s.ownEndpoint (endpointOf o.dst) with
  | .loft d a h off =>
    if (s.die d).fenced || decide (8 ≤ d) then s
    else
      let b : ArrId := ⟨d, a⟩
      let n := blockRowLen o
      let rows := (List.range o.rows).map fun i => slice got (i * n) n
      let v : Arrival :=
        { handle := h, off := off, rows := rows, dstride := o.dstride, aop := if o.aop ≤ 7 then o.aop else 0
          aprime := o.bflags / 2, home := o.dst
          group := o.group, clasp := bit o.bflags 0, remote := some (j, c, o.srcLarr, o.dseq, o.block, o.inc)
          sheaf := if o.sheaf then some (o.cstate, o.domain, o.level) else none, ver := o.sheaf }
      match s.jobOf o with
      | none => s.queueArrival b v
      | some none => s.dropStale b v
      | some (some q) => (s.raiseInc q o.inc).queueArrival b { v with job := some (q.idx, o.inc) }
  | _ => s

/-- Values an atomic returns reach the source handle of its block, and the block that brought them is acknowledged (R259,
R363). -/
def State.valuesBack (s : State) (j c : Nat) (o : OpenBody) (got : List Byte) : State :=
  let a := arrOf o.srcLarr
  match (s.desc? a o.dseq).bind fun d => d.blocks[o.block]? with
  | some b =>
    match s.ownEndpoint (endpointOf b.src) with
    | .loft d x h off =>
      if b.st == .sent && decide (6 ≤ b.aop) && b.via == some (j, c) then
        (s.plainWrite ⟨d, x⟩ h off b.sstride ((List.range o.rows).map fun i => slice got (i * o.len) o.len) (s.blockPos b)).txFrame
          j c (.lack [{ larr := o.srcLarr, block := o.block, inc := o.inc, dseq := o.dseq }])
      else s
    | _ => s
  | none => s

/-- The block on a CHAN of a link is complete (R363): one toward a loft of this package, or one that repeats the DST of a block
that this package has sent (log 34). -/
def State.blockDone (s : State) (j c : Nat) (o : OpenBody) (got : List Byte) : State :=
  match s.ownEndpoint (endpointOf o.dst) with
  | .far .. => s.valuesBack j c o got
  | _ => s.blockIn j c o got

/-- OPEN: a block opens on its CHAN, or is forwarded (R363); one of no bytes is complete at once. -/
def execOpenFrame (rx : Rx) (o : OpenBody) (s : State) : Res :=
  need rx.wf "link" <|
    .next (s.receive rx false false fun s => match s.hop rx.link rx.chan with
      | .onward l c => s.forward l c (.openFrame o)
      | .nowhere => s.noRoute rx.link
      | _ => if blockRowLen o * o.rows = 0 then s.blockDone rx.link rx.chan o []
        else s.modLink rx.link fun l => { l with opens := minsert l.opens rx.chan { body := o } })

/-- The block open on a CHAN of a link. -/
def State.openOn (s : State) (j c : Nat) : Option OpenBlk := ((s.link j).opens.find? fun e => e.1 == c).map (·.2)

/-- 256 bytes of the block open on a CHAN (R363). -/
def State.takeData (s : State) (j c : Nat) (payload : List Byte) : State :=
  match s.openOn j c with
  | none => s
  | some b =>
    let got := b.got ++ payload
    let total := blockRowLen b.body * b.body.rows
    if got.length < total then
      s.modLink j fun l => { l with opens := minsert l.opens c { b with got := got } }
    else (s.modLink j fun l => { l with opens := merase l.opens c }).blockDone j c b.body (got.take total)

/-- DATA: 256 bytes of the open block, or forwarded (R362, R363). -/
def execDataFrame (rx : Rx) (payload : List Byte) (s : State) : Res :=
  need rx.wf "link" <|
    .next (s.receive rx false false fun s => match s.hop rx.link rx.chan with
      | .onward l c => s.forward l c (.data payload)
      | .nowhere => s.noRoute rx.link
      | _ => s.takeData rx.link rx.chan (slice payload 0 256))

/-- A landing acknowledgement of a block (R363): its flags and its fault go to the array that issued it (R242, R259, R260,
log 74). -/
def State.lackBlock (s : State) (a : ArrId) (b : Block) (e : LackEntry) : State := match e.fault with
  | none => s.blockLanded a e.dseq e.block e.flags
  | some (1, sub, i) =>
    (s.blockLanded a e.dseq e.block e.flags).dmaFault a (some (s.blockPos b)) { kind := 1, sub := sub, point := 6, index := i } none
  | some (k, sub, i) => s.blockFail a e.dseq e.block { kind := k, sub := sub, index := i } none

/-- A landing acknowledgement that a link's CHAN brings is matched to its block, or to the oldest store of a control core on its
way (R363); one of returned values answers no block of this part's. -/
def State.takeLack (s : State) (j c : Nat) (e : LackEntry) : State :=
  let a := arrOf e.larr
  if e.dseq = 0xFFFFFFFF then
    let s := s.modArr a fun x => { x with farSt := x.farSt.drop 1 }
    match e.fault with
    | some (k, sub, i) => s.dmaFault a none { kind := k, sub := sub, index := i } none
    | none => s
  else match (s.desc? a e.dseq).bind fun d => (d.blocks[e.block]?).map fun b => (d, b) with
    | none => s
    | some (d, b) =>
      let inc := match d.stamp b with
        | some q => q.2
        | none => 0
      if b.st == .sent && inc == e.inc && b.via == some (j, c) then s.lackBlock a b e else s

/-- LACK: landing acknowledgements (R362, R363). -/
def execLack (rx : Rx) (es : List LackEntry) (s : State) : Res :=
  need rx.wf "link" <|
    .next (s.receive rx false false fun s => match s.hop rx.link rx.chan with
      | .onward l c => s.forward l c (.lack es)
      | .nowhere => s.noRoute rx.link
      | _ => es.foldl (fun s e => s.takeLack rx.link rx.chan e) s)

/-! ## PATH_DOWN and PATH_UP (R375) -/

/-- The notice of a path travels back through the forwarding table (R375). -/
def State.pathNotice (s : State) (j c subtype : Nat) (rest : List Nat) : State :=
  match s.route with
  | none => s
  | some r => (r.fwd.filter fun f => f.outLink == j && f.outChan == c).foldl
      (fun s f => s.txLctl f.inLink subtype (f.inChan :: rest)) s

/-- PATH_DOWN (R375). -/
def execPathDown (rx : Rx) (chan reason : Nat) (s : State) : Res :=
  need rx.wf "link" <|
    .next (s.receive rx true false fun s =>
      let s := s.pathNotice rx.link chan 6 [reason]
      if s.ownPath rx.link chan then s.losePath rx.link chan else s)

/-- PATH_UP: usable at the start of the named epoch (R375). -/
def execPathUp (rx : Rx) (chan epoch : Nat) (s : State) : Res :=
  need rx.wf "link" <|
    .next (s.receive rx true false fun s => (s.pathNotice rx.link chan 7 [epoch]).regainPath rx.link chan epoch)

/-! ## LINK_RETRAIN (R369, R371, R389) -/

/-- LINK_RETRAIN 1: every lane returns, and the link trains from step 1 (R369, R371); the status of the request. -/
def State.retrainLink (s : State) (j : Nat) : Nat × State :=
  if (s.link j).retrain = 1 then (5, s)
  else
    let was := (s.link j).up
    let s := if was then s.pathsDown j 0 else s
    let s := s.modLink j fun l => { l with
      badLanes := [], attempts := 0, nrWait := 0, retrain := 1, started := true }
    (0, (s.startTraining { link := j }).replaceCheck)

end Sys2Proof.Machine
end

