-- ==== Sys2Proof/Machine/Stores.lean ====
section
/-! DEFINITION. What a plan load, a variant switch and a warm reset write (R185, R240, R244, R272, R274, R306, R327, R511),
what a slot boundary maps (R240, R243, R247), and the refresh region (R145..R148). -/

namespace Sys2Proof.Machine

/-! ## The streams and tables of an array (R305, R306) -/

/-- The code blocks that apply to an array in a variant, in the order of the plan. -/
def codeFor (p : Plan) (v : Nat) (a : ArrId) : List CodeBlock :=
  p.code.filter fun c => bit c.vmask v && bit c.dieMask a.die && bit c.arrayMask a.arr

/-- Little-endian bytes as 64-bit words. -/
def dwords : Nat → List Byte → List DWord
  | 0, _ => []
  | n + 1, bs => BitVec.ofNat 64 (field bs 0 8) :: dwords n (bs.drop 8)

/-- The access stream of a code block as words of the instruction store. -/
def accessWords (c : CodeBlock) : List DWord := dwords (c.access.length / 8) c.access

/-- The handle map of a number (R309). -/
def hmapOf (p : Plan) (n : Nat) (slotScope : Bool) : Option HMap :=
  p.hmaps.find? fun m => m.map == n && m.slotScope == slotScope

/-- The entries of a handle map for an array. -/
def hmapEnts (m : Option HMap) (a : ArrId) : List HMapEnt := match m with
  | some m => m.ents.filter fun e => e.die == a.die && e.arr == a.arr
  | none => []

/-- CACHE_STEPS of an array in a variant (R307). -/
def stepsOf (v : Variant) (arr : Nat) : Nat := v.cacheSteps.getD arr 0

/-- H255: the array's part of the refresh region, below the loft cache (R145, R241). -/
def refreshHandle (p : Plan) (steps : Nat) : Handle :=
  if p.refreshRegion = 0 then {}
  else
    let len := p.refreshRegion / 64
    { kind := 1, length := BitVec.ofNat 32 len, target := BitVec.ofNat 64 (7340032 - steps * 524288 - len) }

/-- The PLAN-scope handles of an array in a variant (R240). -/
def planHandles (p : Plan) (v : Variant) (a : ArrId) : SMap Handle :=
  let m := (hmapEnts (hmapOf p v.hmap false) a).foldl (fun m e => mset {} m e.handle e.entry) []
  mset {} m 255 (refreshHandle p (stepsOf v a.arr))

/-- The encoder table of an array in a variant (R274). -/
def encTable (p : Plan) (v : Nat) (a : ArrId) : SMap EncEnt :=
  match p.encoders.find? fun t => bit t.vmask v && t.die == a.die && t.arr == a.arr with
  | some t => msetRange {} [] 0 t.ents
  | none => []

/-- An array's stores and tables for a variant: command and instruction stores, PLAN-scope handles, encoder table and
cache size; the cache is empty (R244), the bucket full (R223). -/
def storeArr (p : Plan) (v : Variant) (depth : Nat) (a : ArrId) (x : Arr) : Arr :=
  let code := codeFor p v.num a
  { x with
    estore := code.flatMap (·.exec), istore := code.flatMap accessWords
    handles := planHandles p v a, written := [], enc := encTable p v.num a
    cache := [], cacheSteps := stepsOf v a.arr, bypass := [], track := [], touched := [], posOf := [], bucket := depth
    dseq := 0 }

/-- Fill one IMAGE handle of an array from the PLAN region (R272). -/
def State.fillImage (s : State) (a : ArrId) (e : HMapEnt) : State :=
  if e.entry.image && e.entry.kind == 1 then
    let bs := s.planRead (e.imageSrc * 1024) e.entry.length.toNat
    s.modArr a fun x => { x with loft := Memory.write x.loft e.entry.target.toNat bs }
  else s

/-- Write an array's stores and tables, with the place of its sheaves' limbs, and fill its IMAGE handles. -/
def State.storeOne (s : State) (p : Plan) (v : Variant) (a : ArrId) : State :=
  let s := s.modArr a (storeArr p v (s.templateOf v).depth a)
  let s := s.modArr a fun x => { x with handles := x.handles.map fun e => (e.1, s.placeHandle a e.1 e.2) }
  (hmapEnts (hmapOf p v.hmap false) a).foldl (fun s e => s.fillImage a e) s

/-- The arrays of a variant's dies. -/
def variantArrs (v : Variant) : List ArrId := allArrs.filter fun a => bit v.dieMask a.die

/-- Write the stores and tables of every array of a variant's dies (R327). -/
def State.writeStores (s : State) (v : Variant) : State := match s.plan with
  | none => s
  | some p => (variantArrs v).foldl (fun s a => s.storeOne p v a) s

/-! ## SLOT-scope handles (R240, R243, R247) -/

/-- Cache lines of SLOT-scope handles leave (R247). -/
def dropSlotLines (x : Arr) : Arr :=
  let live (c : CLine) : Bool := !(mget {} x.handles c.handle).slotScope
  let sets : SMap (List CLine) := x.cache.map fun e => (e.1, e.2.filter live)
  { x with cache := sets.filter fun e => !e.2.isEmpty }

/-- At a slot boundary the SLOT-scope handles of a slot's map take the place of those of the slot before; their rows'
written bits are clear, and cache lines of SLOT-scope handles leave. What was tracked of their limbs goes with them. -/
def mapSlot (es : List HMapEnt) (x : Arr) : Arr :=
  let x := dropSlotLines x
  let hs : SMap Handle := x.handles.filter fun e => !e.2.slotScope
  { x with
    handles := es.foldl (fun m e => mset {} m e.handle e.entry) hs, written := [], bypass := []
    track := x.track.filter fun e => hs.any fun h => h.1 == e.1 / 512 }

/-- The arrays of the active variant's dies. -/
def variantArrays (s : State) : List ArrId := variantArrs s.variant

/-! ## The refresh region (R145..R148) -/

/-- 64 KiB chunks of a key's copy in each array (R145): block b lies in array b mod 64. -/
def keyChunks (k : Key) : Nat := (k.blocks.length + 63) / 64

/-- Chunks of the region that resident keys take. -/
def usedChunks (s : State) : List Nat :=
  (s.keys.filter (·.resident)).flatMap fun k => (List.range (keyChunks k)).map (k.regChunk + ·)

/-- The first place where `n` chunks of a region of `total` are free. -/
def freeChunk (used : List Nat) (n total : Nat) : Option Nat :=
  (List.range total).find? fun c => decide (c + n ≤ total) && (List.range n).all fun i => !used.contains (c + i)

/-- Chunks of the region in each array. -/
def State.regionChunks (s : State) : Nat := match s.plan with
  | some p => p.refreshRegion / 64 / 65536
  | none => 0

/-- A key has an admitted job, so it is pinned (R147); a job stays one until its COMPLETION is written, since it may still
return (R25). -/
def State.keyPinned (s : State) (k : Key) : Bool :=
  s.jobs.any fun j => j.tenant == k.tenant && j.keys.contains k.id && j.st != .pending

/-- A DOMAIN job that is admitted or PENDING needs a key (R385). -/
def State.domainNeeds (s : State) (tenant id : Nat) : Bool :=
  s.jobs.any fun j => j.domain && j.tenant == tenant && j.keys.contains id && j.st != .finished

/-- Tell the lead that a key is resident or is no longer (R385). -/
def State.tellResident (s : State) (tenant id : Nat) (on : Bool) : State :=
  if s.dom.st == .member && s.domainNeeds tenant id then
    if s.isLead then s else s.sendDctl s.dom.lead 14 [tenant, id, b2n on]
  else s

/-- A key's resident copies leave (R147, R148). -/
def State.evictKey (s : State) (tenant id : Nat) : State :=
  (s.modKey tenant id fun k => { k with resident := false }).tellResident tenant id false

/-- The resident key to evict next: not pinned, least recently bound (R147). Of two bound last at one instant it is the one
that comes first among the tenants' keys (DESIGN CHOICE, log 82). -/
def State.evictee (s : State) : Option Key :=
  (s.keys.filter fun k => k.resident && !s.keyPinned k).foldl (fun b k => match b with
    | none => some k
    | some x => if k.lastBound < x.lastBound then some k else some x) none

/-- Evict until a key fits, at most `fuel` keys: the state and the place found. -/
def State.makeRoom (s : State) (n : Nat) : Nat → State × Option Nat
  | 0 => (s, freeChunk (usedChunks s) n s.regionChunks)
  | f + 1 =>
    match freeChunk (usedChunks s) n s.regionChunks with
    | some c => (s, some c)
    | none => match s.evictee with
      | some k => (s.evictKey k.tenant k.id).makeRoom n f
      | none => (s, none)

/-- The program of a job needs a resident refresh key (R304). -/
def needsRefresh (p : Program) : Bool := bit p.flags 1

/-- Queue an install for every refresh key that an admitted job needs and that is not resident (R147). -/
def State.queueInstalls (s : State) (j : Job) : State :=
  if (s.program j.prog).any needsRefresh then
    j.keys.foldl (fun s i => match s.key? j.tenant i with
      | some k =>
        if k.kind == 5 && !k.resident && !s.installs.contains (j.tenant, i) then
          { s with installs := s.installs ++ [(j.tenant, i)] }
        else s
      | none => s) s
  else s

/-- Admitted jobs in the order of their admission (R147). -/
def State.admitted (s : State) : List Job :=
  s.jobs.filter fun j => j.st == .queued || j.st == .bound

/-- Queue the installs that admitted jobs need, after the region was emptied (R148). -/
def State.requeueInstalls (s : State) : State := s.admitted.foldl State.queueInstalls s

/-- The region empties: the set of dies in use changes, or the plan is unloaded (R148). -/
def State.emptyRegion (s : State) : State :=
  (s.keys.filter (·.resident)).foldl (fun s k => s.evictKey k.tenant k.id) s

/-- Resident copies keep their bytes when H255 moves on the same dies (R145, R148): `old` is the state before. -/
def State.keepRegion (s old : State) : State :=
  (usedChunks old).foldl (fun s c => (variantArrays s).foldl (fun s a =>
    let src := (mget {} (old.arr a).handles 255).target.toNat
    let dst := (mget {} (s.arr a).handles 255).target.toNat
    if src = dst then s
    else s.modArr a fun x =>
      { x with loft := Memory.write x.loft (dst + c * 65536) (Memory.read (old.arr a).loft (src + c * 65536) 65536) }) s) s

end Sys2Proof.Machine
end

