-- ==== Sys2Proof/Machine/Stacks.lean ====
section
/-! DEFINITION. The stack controllers (R286..R299): what a line read finds and what follows, remapping, the loss of a
stack, the gleaner. -/

namespace Sys2Proof.Machine

/-! ## Places -/

/-- The die number of a stack (R496). -/
def stackDie (k : Nat) : Nat := 10 + k

/-- A controller row as the ARG of a record entry (R487): channel, pseudo-channel, bank, row. -/
def rowArg (n : Nat) : Nat :=
  let cp := n / 352 / 16
  cp / 2 + 32 * (cp % 2) + 64 * (n / 352 % 16) + 1024 * (n % 352)

/-- A granary block lies in a mirrored region (R289). -/
def State.mirrored (s : State) (b : Nat) : Bool := decide (b < s.keysBase)

/-- The other copy of a block of a mirrored region (R291); the regions start at multiples of 6. -/
def otherCopy (b : Nat) : Nat := if b % 6 < 3 then b + 3 else b - 3

/-- The 32 granary blocks that have a line in a controller row of a stack (R288, R295). -/
def blocksOfRow (k n : Nat) : List Nat :=
  let pc := n / 352 / 16 % 2
  let bank := n / 352 % 16
  (List.range 32).map fun i => 6 * (n % 352 * 1024 + i * 32 + bank * 2 + pc) + k

/-- The mirrored blocks of a stack that it does not hold: all once it is lost, else those with a line in a retired row. -/
def State.goneBlocks (s : State) (k : Nat) : List Nat :=
  if (s.stack k).lost then ((List.range ((s.keysBase + 5) / 6)).map (· * 6 + k)).filter s.mirrored
  else (((s.stack k).retired.flatMap (blocksOfRow k)).eraseDups).filter s.mirrored

/-- STK_SINGLE_COPY of a stack (R301): the mirrored blocks that only their other copy holds. -/
def State.singleCopies (s : State) (k : Nat) : Nat := ((s.goneBlocks k).filter fun b => s.copyGood (otherCopy b)).length

/-! ## Keys and stacks (R125, R299) -/

/-- A live key becomes CORRUPT (R125). -/
def State.corruptKey (s : State) (tenant id : Nat) : State :=
  s.modKey tenant id fun k => if k.st == .dropped then k else { k with st := .corrupt }

/-- Every live key with a block that satisfies a test becomes CORRUPT. -/
def State.corruptWhere (s : State) (f : Nat → Bool) : State :=
  { s with keys := s.keys.map fun k => if k.st != .dropped && k.blocks.any f then { k with st := .corrupt } else k }

/-- A stack is lost (R299): out of the usable set, its keys CORRUPT, recorded, logged, and a replace trigger. -/
def State.loseStack (s : State) (k : Nat) : State :=
  if (s.stack k).lost then s
  else
    let s := s.modStack k fun x => { x with lost := true, copying := none, copied := false, cands := [] }
    let s := s.corruptWhere fun b => stackOf b == k
    let s := (s.record 3 (stackDie k) 0).log 0x20 (stackDie k) k k
    s.replaceCheck

/-! ## Rows (R293, R294) -/

/-- The bank of a row holds no free spare (R294): 8 spares, taken by remapped rows and by candidates. -/
def sparesTaken (x : Stack) (row : Nat) : Nat :=
  ((x.remapped ++ x.cands ++ x.copying.toList).filter fun r => r / 352 == row / 352).length

/-- A record entry of a row awaiting repair, at most 512 kept per stack (R488). -/
def State.recordRow (s : State) (k row : Nat) : State :=
  let is (e : PrEnt) : Bool := e.type == 4 && e.unit == stackDie k
  let n := ((activeEnts s.hm).filter is).length + (s.hm.prQueue.filter is).length
  if 512 ≤ n then { s with hm := { s.hm with prNever := bump s.hm.prNever } }
  else s.recordQueue 4 (stackDie k) (rowArg row)

/-- A row becomes a remap candidate (R293); without a free spare it is marked for repair (R294). -/
def State.candidate (s : State) (k row : Nat) : State :=
  let x := s.stack k
  if x.cands.contains row || x.copying == some row || x.remapped.contains row || x.marked.contains row then s
  else if 8 ≤ sparesTaken x row then
    (s.setStack k { x with marked := x.marked ++ [row] }).recordRow k row
  else s.setStack k { x with cands := x.cands ++ [row] }

/-- A corrected event of a row: three within 24 h make it a candidate (R293). -/
def State.rowEvent (s : State) (k row : Nat) : State :=
  let x := s.stack k
  let ev := (mget [] x.events row).filter (fun t => decide (s.tm.now < t + 86400000000000)) ++ [s.tm.now]
  let s := s.setStack k { x with events := mset [] x.events row ev }
  if 3 ≤ ev.length then s.candidate k row else s

/-- An uncorrectable read of a row; more than 16 rows of a stack within one hour lose it (R298). -/
def State.rowUncorr (s : State) (k row : Nat) : State :=
  let x := s.stack k
  let us := (x.uncorrRows.filter fun e => decide (s.tm.now < e.1 + 3600000000000)) ++ [(s.tm.now, row)]
  let s := s.setStack k { x with uncorr := bump x.uncorr, uncorrRows := us }
  if 16 < (us.map (·.2)).eraseDups.length then s.loseStack k else s

/-! ## Reading a line (R290) -/

/-- What a line read gives: data or not, and how many retries it took. -/
structure LineRead where
  ok : Bool
  retries : Nat
  deriving DecidableEq, Repr

/-- A counter of a stack moves on by n. -/
def addTo (n k : Nat) : Nat := sat32 (n + k)

/-- Read one line of a granary block from its stack, in the state the controller finds it (R290): an uncorrectable line
of a mirrored region is read from its other copy and written back, as a third retry. -/
def State.readLine (s : State) (block line : Nat) (st : LineState) : State × LineRead :=
  if st = .clean then (s, ⟨true, 0⟩)
  else
  let k := stackOf block
  let row := rowOfLine block line
  let good := s.mirrored block && s.copyGood (otherCopy block)
  let n := if st.bad then (if good then 3 else 2) else min 2 st.retries
  let s := s.modStack k fun x =>
    { x with devCorr := addTo x.devCorr st.dev, corr := addTo x.corr (st.one + st.two), retry := addTo x.retry n }
  let s := (List.range st.one).foldl (fun s _ => s.rowEvent k row) s
  let s := if 0 < st.two then s.candidate k row else s
  if st.bad then (s.rowUncorr k row, ⟨good, n⟩) else (s, ⟨true, n⟩)

/-! ## The gleaner (R296, R297) -/

/-- A FALLOW slot runs: background work has no other place (R23, R313, R491). -/
def State.background (s : State) : Bool :=
  s.working && s.runs.any fun r => r.started && match s.slotRec r.slot with
    | some q => q.kind == 2
    | none => false

/-- The gear cycle of the FALLOW slot that runs, counted from its start (R226). -/
def State.fallowCycle (s : State) : Nat :=
  match s.runs.find? fun r => r.started && (s.slotRec r.slot).any fun q => q.kind == 2 with
  | some r => s.slotCycle r
  | none => 0

/-- Blocks read in the pass on the slowest usable stack (GLN_PASS_DONE). -/
def State.glnDone (s : State) : Nat :=
  (s.usableStacks.map fun k => (s.stack k).glnDone).foldl min 360448

/-- GLN_DEFERRED: the blocks that the gleaner is behind its rate (R297). -/
def State.glnShort (s : State) : Nat :=
  sat32 (s.mem.glnRate * (s.tm.now - s.mem.glnStart) / 1000000000 - s.glnDone)

/-- A pass ends when every usable stack has been read once; the next begins (R296). -/
def State.glnPass (s : State) : State :=
  if s.glnDone < 360448 then s
  else
    let stk : SMap Stack := s.stk.map fun e => (e.1, { e.2 with glnDone := 0 })
    let mem := { s.mem with glnStart := s.tm.now, glnBehind := false, glnEscalated := false }
    { s with stk := stk, mem := mem }

/-- A line that the gleaner finds uncorrectable is a read fault raised against no job (R290, R296): it has no command and no
array, so what the record's TAG, LARR and PSLOT hold is free (log 86). -/
def State.gleanFault (s : State) (k : Nat) : State :=
  let f := s.freshWord
  let g := f.2.freshWord
  let r : FaultRec :=
    { kind := 2, sub := 5, tag := f.1.toNat % 2 ^ 24, larr := g.1.toNat % 2 ^ 16, pslot := g.1.toNat / 2 ^ 16 % 256
      epoch := s.epoch, cycle := s.fallowCycle }
  g.2.logBody 0x01 (stackDie k) k 0 (some r)

/-- The gleaner reads the lines of a block and writes corrected lines back (R296); an uncorrectable line without another copy
is a fault, and one of the KEYS region makes its key CORRUPT. -/
def State.glean (s : State) (k block : Nat) (lines : List LineState) : State :=
  let g := block * 6 + k
  let s := ((List.range 32).zip lines).foldl (fun s e =>
    let r := s.readLine g e.1 e.2
    if r.2.ok then r.1
    else
      let s := r.1.gleanFault k
      if s.mirrored g then s else s.corruptWhere fun b => b == g) s
  let s := s.modStack k fun x => { x with glnDone := min 360448 (x.glnDone + 1) }
  s.glnPass

/-- GLEANER_BLOCK_READ: a block of a stack is read and corrected in a fallow slot (R296). -/
def execGleanerBlockRead (k block : Nat) (lines : List LineState) (s : State) : Res :=
  need (decide (k < 6) && decide (block < 360448)) "stack block" <|
    arises s.background "no FALLOW slot runs" <|
      .next (if s.powered && !(s.stack k).lost && !s.pw.selfRefresh then s.glean k block lines else s)

/-- GLEANER_ESCALATE: 20 h into a pass the gleaner takes every free fallow cycle (R297, R492). -/
def execGleanerEscalate (s : State) : Res :=
  .next (if s.powered then
      let s := s.reach (s.mem.glnStart + 20 * 3600000000000)
      { s with mem := { s.mem with glnEscalated := true } }
    else s)

/-- GLEANER_BEHIND: 24 h into a pass (R297, R492). -/
def execGleanerBehind (s : State) : Res :=
  .next (if s.powered then
      let s := s.reach (s.mem.glnStart + 24 * 3600000000000)
      let s := { s with mem := { s.mem with glnBehind := true }, hm := { s.hm with bgDeferred := bump s.hm.bgDeferred } }
      s.log 0x23 0xFF 0 24
    else s)

/-! ## Refresh, remaps, loss -/

/-- HBM_REFRESH: one bank of a stack is refreshed; the rate doubles above 85 degrees (R286). No bit changes. -/
def execHbmRefresh (k bank : Nat) (s : State) : Res :=
  need (decide (k < 6) && decide (bank < 16)) "stack bank" <|
    .next (if s.powered && !s.pw.selfRefresh && !(s.stack k).lost then
      s.modStack k fun x => { x with fastRefresh := decide (85 < x.temp) } else s)

/-- A controller row exists (R288). -/
def rowOk (r : RowId) : Bool :=
  decide (r.stack < 6) && decide (r.chan < 32) && decide (r.pc < 2) && decide (r.bank < 16) && decide (r.row < 352)

/-- ROW_REMAP_COPY: a candidate's row is copied, corrected, into a spare in fallow slots (R293 steps 1..3); a stack copies one row
at a time. -/
def execRowRemapCopy (r : RowId) (s : State) : Res :=
  need (rowOk r) "controller row" <|
    let x := s.stack r.stack
    let n := rowNum r
    arises (s.background && !x.lost && ((x.cands.contains n && x.copying.isNone) || x.copying == some n))
        "the row is not the remap candidate to copy" <|
      .next (s.setStack r.stack
        { x with cands := x.cands.filter (· != n), copying := some n, copied := true })

/-- Redirect a row to its spare, record and log it (R293 steps 4, 5). -/
def State.redirect (s : State) (k n : Nat) : State :=
  let s := s.modStack k fun x => { x with copying := none, copied := false, remapped := x.remapped ++ [n] }
  (s.recordRow k n).log 0x21 (stackDie k) k (rowArg n)

/-- ROW_REMAP: at the next fallow boundary the row is redirected to its spare and the remap recorded (R293 steps 4, 5). -/
def execRowRemap (r : RowId) (s : State) : Res :=
  need (rowOk r) "controller row" <|
    let x := s.stack r.stack
    arises (x.copying == some (rowNum r) && x.copied) "no copy of the row is complete" <| .next (s.redirect r.stack (rowNum r))

/-- STACK_LOST: a stack is lost (R298, R299). -/
def execStackLost (k : Nat) (s : State) : Res :=
  need (decide (k < 6)) "stack" <| .next (if s.powered then s.loseStack k else s)

/-- BG_BEHIND: a missed loft scrub (tier 4), which counts, or 1,000 missed delay measurements (tier 3), which have counted one
by one (R492). -/
def execBgBehind (tier : Nat) (s : State) : Res :=
  arises (tier == 3 || tier == 4) "no such tier falls behind" <|
    .next (if s.powered then
      let s := if tier = 3 then s else { s with hm := { s.hm with bgDeferred := bump s.hm.bgDeferred } }
      s.log 0x65 0xFF 0 tier else s)

end Sys2Proof.Machine
end

