-- ==== Sys2Proof/Machine/Units.lean ====
section
/-! DEFINITION. The die units (R116..R125, R137..R142, R155, R221): the sower, granary reads with their hints, the
thresher and the binder. -/

namespace Sys2Proof.Machine

/-! ## Requests -/

/-- The oldest released request of a unit of a die (R116, R221). -/
def State.unitHead (s : State) (die unit : Nat) : Option UnitReq :=
  (s.die die).units.find? fun u => u.unit == unit && u.released

/-- A request has been served. -/
def State.unitDone (s : State) (die n : Nat) : State :=
  s.modDie die fun d => { d with units := d.units.filter fun u => u.n != n }

/-- The slot run that a request was made in. -/
def State.unitRun (s : State) (u : UnitReq) : Option SlotRun :=
  s.runs.find? fun r => r.slot == u.slot && r.epoch == u.epoch && r.started

/-- A request's writes are stale (R256, R323, R415): its slot is gone or abandoned, or its incarnation has ended. -/
def State.unitStale (s : State) (u : UnitReq) : Bool := match s.unitRun u with
  | none => true
  | some r => r.abandoned || s.staleRef (stampOf s r)

/-- The tenant whose keys a request reads (R221): that of its batch position, or of the slot's lowest filled one when
the position is unfilled, since a slot binds jobs of one tenant (R115). -/
def State.unitTenant (s : State) (u : UnitReq) : Option Nat :=
  let own := u.job.bind s.job?
  let any := (s.unitRun u).bind fun r => (stampOf s r).bind fun p => s.job? p.1
  match own with
  | some j => some j.tenant
  | none => any.map (·.tenant)

/-- A unit's command faults (R63, R227): its request is dropped. The data of a thresher's or a binder's source may belong to
one batch position (R538). -/
def State.unitFail (s : State) (die : Nat) (u : UnitReq) (f : Flt) (ends : Option (Nat × Nat)) : State :=
  (s.unitDone die u.n).raiseFault { a := u.arr, tag := 0xFFFF01, bpos := some f.pos }
    { f with cycle := match s.runOf u.arr with
        | some r => s.slotCycle r
        | none => 0 } ends

/-- The arrays that a request delivers to (R124, R221): of a granary read those of its mask's dies. -/
def unitDests (u : UnitReq) : List ArrId := match endpointOf u.dst with
  | .loft d a _ _ => if u.unit = 2 then ((List.range 8).filter fun d => bit u.p2 d).map fun d => ⟨d, a⟩ else [⟨d, a⟩]
  | _ => []

/-- A served request of a stale incarnation writes nothing; its destinations count it (R256). -/
def State.unitDrop (s : State) (die : Nat) (u : UnitReq) : State :=
  (unitDests u).foldl (fun s a => s.modArr a fun x => { x with cnt := { x.cnt with staleDrops := bump x.cnt.staleDrops } })
    (s.unitDone die u.n)

/-- A unit's write into a LOCAL handle (R242), through the array's landing buffer (R238): the fault's subcode, or the state after;
`pos` is the batch position whose data the bytes are. -/
def State.unitWrite (s : State) (a : ArrId) (h off : Nat) (bs : List Byte) (pos : Nat) : Except Nat State :=
  match localFault (handleOf (s.arr a) h) off bs.length with
  | some sub => .error sub
  | none => .ok ((s.noteLanding a bs.length).plainWrite a h off 0 [bs] pos)

/-- The parts of limbs that the arrays of a limb hold: one array, or the two of a pair (R93, log 33). -/
def splitLimbs (logn : Nat) (a : ArrId) (limbs : List (List Nat)) : List (ArrId × List Byte) :=
  if logn = 17 then
    [(a, limbs.flatMap fun l => ofWords (l.take 65536)), (oddOf a, limbs.flatMap fun l => ofWords (l.drop 65536))]
  else [(a, limbs.flatMap ofWords)]

/-- Write limbs at a place of the arrays that hold them. -/
def State.writeLimbs (s : State) (logn : Nat) (a : ArrId) (h off : Nat) (limbs : List (List Nat)) (pos : Nat) :
    Except Nat State :=
  (splitLimbs logn a limbs).foldl (fun acc p => match acc with
    | .error n => .error n
    | .ok s => s.unitWrite p.1 h off p.2 pos) (.ok s)

/-- Serve a request with the state its work gives, or its fault. -/
def State.unitServe (s : State) (die : Nat) (u : UnitReq) (r : Except Nat State) : State := match r with
  | .error sub => s.unitFail die u { kind := 7, sub := sub } none
  | .ok t => if s.unitStale u then s.unitDrop die u else t.unitDone die u.n

/-! ## The sower (R116, R117) -/

/-- The 48-byte message of a limb (R117). -/
def sowerMessage (seed : List Byte) (kind digit logn q galois : Nat) : List Byte :=
  slice seed 0 32 ++ [0x4B, 0x46, 0x53, 0x31] ++ leBytes 1 kind ++ leBytes 1 digit ++ leBytes 1 logn ++ leBytes 1 0 ++
    leBytes 4 q ++ leBytes 4 galois

/-- Words from an output stream: 8 bytes each, little-endian, modulo q (R117). -/
def sowerWords (q : Nat) : Nat → List Byte → List Nat
  | 0, _ => []
  | n + 1, bs => leNat (bs.take 8) % q :: sowerWords q n (bs.drop 8)

/-- The limb a_(d,i) of a seeded key (R117). -/
def sowerLimb (k : Key) (logn q digit : Nat) : List Nat :=
  let m := sowerMessage k.seed k.kind digit logn q (if k.kind = 1 then k.galois else 0)
  sowerWords q (2 ^ logn) (shake128 m (8 * 2 ^ logn))

/-- The work of a sower request. -/
def State.sow (s : State) (u : UnitReq) : Except Nat State :=
  let v := s.env
  match (s.unitTenant u).bind fun t => s.key? t u.keyId, endpointOf u.dst with
  | some k, .loft d a h off =>
    let ps := v.pset (k.pset.getD 0)
    if !k.seeded || k.pset.isNone || ps.dnum ≤ u.p0 || ps.lq + ps.lp ≤ u.p1 || u.len != 2 ^ ps.logn then .error 5
    else s.writeLimbs ps.logn ⟨d, a⟩ h off [sowerLimb k ps.logn (v.limb ps u.p1).q u.p0] 8
  | _, _ => .error 5

/-- SOWER_REQUEST: the next released request of a die's sower is served (R116, R117); `core` is the Keccak core whose
halves disagree, if any (R227). -/
def execSowerRequest (die : Nat) (core : Option Nat) (s : State) : Res :=
  need (decide (die < 8) && (match core with | some c => decide (c < 8) | none => true)) "die" <|
    match s.unitHead die 1 with
    | none => .refused (.cannotArise "no sower request is released")
    | some u => .next (match core with
      | some c => s.unitFail die u { kind := 5, sub := c } none
      | none => s.unitServe die u (s.sow u))

/-! ## Granary reads (R121..R125, R283, R290) -/

/-- The granary block and the line of 2,048 bytes of a request, by the line's number in it; none outside the region. -/
def State.lineAt (s : State) (k : Option Key) (off i : Nat) : Option (Nat × Nat) :=
  let o := off + 2048 * i
  match k with
  | some k => (k.blocks[o / 65536]?).map fun b => (b, o % 65536 / 2048)
  | none =>
    let l := s.planLine (o / 2048)
    if o / 65536 < s.planBlocks then some (s.servingCopy planBase (l / 32), l % 32) else none

/-- The KEEP set of a line: 6,144 sets of 16 (R121, log 37). -/
def keepSet (block line : Nat) : Nat := (block * 32 + line) % 6144

/-- The line is in the KEEP partition. -/
def keepHit (c : HubCache) (block line : Nat) : Bool := (mget [] c.keep (keepSet block line)).contains (block, line)

/-- The line becomes the most recent of its set; the least recent of 16 leaves (R121). -/
def keepPut (c : HubCache) (block line : Nat) : HubCache :=
  let i := keepSet block line
  let set := (mget [] c.keep i).filter (· != (block, line))
  { c with keep := mset [] c.keep i (((block, line) :: set).take 16) }

/-- The REUSE entry of a block. -/
def reuseHit (c : HubCache) (block : Nat) : Bool := c.reuse.any fun e => e.1 == block

/-- A DISCARD read of a held block counts one (R121, R122): the entry goes at 0. -/
def reuseUse (c : HubCache) (block : Nat) : HubCache :=
  { c with reuse := c.reuse.filterMap fun e =>
      if e.1 == block then (if e.2.1 ≤ 1 then none else some (e.1, e.2.1 - 1, e.2.2)) else some e }

/-- A DISCARD miss allocates its block unless REUSE holds 1,024 entries (R121, R122). -/
def reusePut (c : HubCache) (block n slot : Nat) : HubCache :=
  if 1024 ≤ c.reuse.length then c else { c with reuse := c.reuse ++ [(block, n, slot)] }

/-- A granary read as it goes: the state, its retries, the first line that gives no data and the first that its stack could not
correct, each with its number in the read and the granary block. -/
structure GranRead where
  s : State
  bytes : List Byte := []
  retries : Nat := 0
  bad : Option (Nat × Nat) := none
  uncorr : Option (Nat × Nat) := none

/-- A hub reads one line: from its cache on a hit, otherwise from the stack in the state the controller finds (R121, R290);
whether the stack could not correct it. A lost stack gives nothing (R125, R299). -/
def State.hubLine (s : State) (hint block line : Nat) (st : LineState) : State × LineRead × Bool :=
  let hub := hubOfStack (stackOf block)
  let c := s.hub hub
  if keepHit c block line then (if hint = 1 then s.setHub hub (keepPut c block line) else s, ⟨true, 0⟩, false)
  else if reuseHit c block then (s, ⟨true, 0⟩, false)
  else if (s.stack (stackOf block)).lost then (s, ⟨false, 0⟩, false)
  else
    let r := s.readLine block line st
    (if hint = 1 ∧ r.2.ok then r.1.setHub hub (keepPut (r.1.hub hub) block line) else r.1, r.2, st.bad)

/-- Line `i` of a granary read, from where it lies by then: a stack that an earlier line has lost serves none (R299). -/
def granLine (u : UnitReq) (key : Option Key) (g : GranRead) (i : Nat) (st : LineState) : GranRead :=
  match g.s.lineAt key u.src.toNat i with
  | none => g
  | some (block, line) =>
    let r := g.s.hubLine u.p0 block line st
    { s := r.1, bytes := g.bytes ++ Memory.read g.s.gran (granAddr block (line * 2048)) 2048
      retries := g.retries + r.2.1.retries
      bad := if r.2.1.ok then g.bad else g.bad.orElse fun _ => some (i, block)
      uncorr := if r.2.2 then g.uncorr.orElse fun _ => some (i, block) else g.uncorr }

/-- The whole of a granary read; the REUSE entry of a DISCARD read moves on (R121, R122). One whose block REUSE does not hold
allocates an entry, also where its lines hit in KEEP (DESIGN CHOICE, log 78). -/
def State.granRead (s : State) (u : UnitReq) (key : Option Key) (lines : List LineState) : GranRead :=
  let g := (List.range (u.len / 2048)).foldl (fun g i => granLine u key g i (lines.getD i .clean)) { s := s }
  match u.p0, s.lineAt key u.src.toNat 0 with
  | 2, some (b, _) =>
    let hub := hubOfStack (stackOf b)
    let c := s.hub hub
    let d := g.s.hub hub
    let e := if reuseHit c b then reuseUse d b else if g.bad.isNone then reusePut d b u.p1 u.slot else d
    { g with s := g.s.setHub hub e }
  | _, _ => g

/-- A read of a PLAN-region block whose primary copy is on a lost stack (R299). -/
def State.mirrorRead (s : State) (src : Nat) : Bool :=
  let m := s.planLine (src / 2048) / 32
  let c := copiesOf planBase m
  (s.stack (stackOf (if m / 3 % 2 = 0 then c.1 else c.2))).lost

/-- A stack's retries, and a read from the copy that a lost stack leaves, hold back the arrays that wait for the data (R290, R299,
R319, R320): by a free amount, of at most 1,280 ns for each retry (log 91). -/
def State.readDelay (s : State) (u : UnitReq) (n : Nat) (mirror : Bool) : State :=
  if n = 0 && !mirror then s
  else
    let f := s.freshWord
    let ns := if mirror then f.1.toNat else f.1.toNat % (1280 * n + 1)
    (unitDests u).foldl (fun s a => if (s.runOf a).isSome then
        s.modArr a fun x => { x with delay := x.delay + (ns * cyclesPerQuantum s.variant.gear + 39) / 40 }
      else s) f.2

/-- A retry, or a read of a mirrored block whose primary copy is on a lost stack: it delays, and in a JOB slot enters MP
(R476). -/
def State.pressure (s : State) (u : UnitReq) (plan : Bool) (n : Nat) : State :=
  let isJob := match s.slotRec u.slot with
    | some q => q.kind == 0
    | none => false
  let mirror := plan && s.mirrorRead u.src.toNat
  let s := s.readDelay u n mirror
  if isJob && (decide (0 < n) || mirror) then { s with hm := { s.hm with mpNow := true } } else s

/-- Lines of 2,048 bytes that an overflow block takes. -/
def ovfLines (e : OwnEnt × Nat) : Nat := (e.2 + 2047) / 2048

/-- The overflow block of the active variant that holds a line of the PLAN region, by where it lies now: its first line and its
lines (R268, R270, R271). -/
def State.overflowAt (s : State) (l : Nat) : Option (Nat × Nat) :=
  s.plan.bind fun p => p.owners.findSome? fun t =>
    if bit t.vmask s.vs.current then
      ((blocksOf p t).find? fun e => e.1.overflow && e.1.pkg == s.dom.pkgAddr &&
        decide (e.1.offset ≤ l ∧ l < e.1.offset + ovfLines e)).map fun e => (e.1.offset, ovfLines e)
    else none

/-- An owners entry of an overflow block at line `old` names line `new`. -/
def OwnEnt.moved (pkg old new : Nat) (e : OwnEnt) : OwnEnt :=
  if e.overflow && e.pkg == pkg && e.offset == old then { e with offset := new } else e

/-- An owners table whose entries of a moved block are remapped (R283), also where the dictionary reads it. -/
def Owners.remap (pkg old new : Nat) (o : Owners) : Owners :=
  let ents := o.ents.map (OwnEnt.moved pkg old new)
  { o with
    ents := ents
    raw := o.raw.take 48 ++ (o.ents.zip (ents.zip ((List.range o.ents.length).map fun i => slice o.raw (48 + 8 * i) 8))).flatMap
      fun e => leBytes 8 (leNat e.2.2 - e.1.offset + e.2.1.offset) }

/-- A free place of the PLAN region for `n` lines above the image's data and below the blocks moved before, at the same place in
its 64 KiB block as line `l` (log 38). -/
def State.freePlace (s : State) (l n : Nat) : Option Nat :=
  let used := match s.plan with
    | some p => (p.dataLen + 2047) / 2048
    | none => 0
  let top := s.mem.ovfMap.foldl (fun t e => min t (e.2.1 / 32 * 32)) (s.planBlocks * 32)
  let at' := (top - (n + l % 32)) / 32 * 32 + l % 32
  if n + l % 32 ≤ top ∧ used ≤ at' then some at' else none

/-- The bytes of a line of the PLAN region, not from the failing granary block `bad`. -/
def State.lineBytes (s : State) (l bad : Nat) : List Byte :=
  let b := s.servingCopy planBase (l / 32)
  Memory.read s.gran (granAddr (if b = bad then otherCopy b else b) (l % 32 * 2048)) 2048

/-- The overflow block of `n` lines from line `l` suffers an uncorrectable error in granary block `bad` (R283): it is re-read from
the other copy into another place of the PLAN region and its entry remapped, or, with no copy left, the variant is withdrawn
(log 38). -/
def State.overflowLost (s : State) (l n bad : Nat) : State :=
  if s.copyGood (otherCopy bad) then
    match s.freePlace l n with
    | some f =>
      let bs := (List.range n).flatMap fun i => s.lineBytes (l + i) bad
      let first := match s.mem.ovfMap.find? fun e => e.2.1 == l with
        | some e => e.1
        | none => l
      let map := (first, f, n) :: s.mem.ovfMap.filter fun e => e.1 != first
      let plan := s.plan.map fun p => { p with owners := p.owners.map (Owners.remap s.dom.pkgAddr l f) }
      ({ s with mem := { s.mem with ovfMap := map }, plan := plan }).planWrite (f * 2048) bs
    | none => s
  else
    let w := s.vs.withdrawn ++ [s.vs.current]
    ({ s with vs := { s.vs with withdrawn := w } }).mandatoryVariant

/-- Deliver the bytes of a granary read to every die of its mask (R124). -/
def State.granDeliver (s : State) (u : UnitReq) (bs : List Byte) : Except Nat State :=
  match endpointOf u.dst with
  | .loft _ a h off =>
    ((List.range 8).filter fun d => bit u.p2 d).foldl (fun acc d => match acc with
      | .error n => .error n
      | .ok s => s.unitWrite ⟨d, a⟩ h off bs 8) (.ok s)
  | _ => .error 5

/-- The work of a granary request (R123, R125, R283): a line of an overflow block that its stack cannot correct faults, though
its other copy holds it. -/
def State.granServe (s : State) (die : Nat) (u : UnitReq) (lines : List LineState) : State :=
  let plan := u.keyId == 0xFFFF
  let key := if plan then none else (s.unitTenant u).bind fun t => s.key? t u.keyId
  let src := u.src.toNat
  if (!plan && key.isNone) || (List.range (u.len / 2048)).any fun i => (s.lineAt key src i).isNone then
    s.unitFail die u { kind := 7, sub := 5 } none
  else
    let g := s.granRead u key lines
    let t := g.s.pressure u plan g.retries
    let lost := (g.bad.orElse fun _ => g.uncorr).bind fun i =>
      if plan then (s.overflowAt (s.planLine (src / 2048 + i.1))).map fun o => (o, i.2) else none
    match key, g.bad, lost with
    | some k, some _, _ => (t.corruptKey k.tenant k.id).unitFail die u { kind := 2, sub := 5 } (some (0x04, k.id))
    | _, _, some (o, bad) => (t.overflowLost o.1 o.2 bad).unitFail die u { kind := 2, sub := 5 } none
    | none, some _, none => t.unitFail die u { kind := 2, sub := 5 } none
    | _, none, none => t.unitServe die u (t.granDeliver u g.bytes)

/-- GRANARY_READ: the next released granary request of a die is served; `lines` is the state in which the controllers
find its lines (R121..R125, R290). -/
def execGranaryRead (die : Nat) (lines : List LineState) (s : State) : Res :=
  need (decide (die < 8)) "die" <|
    match s.unitHead die 2 with
    | none => .refused (.cannotArise "no granary request is released")
    | some u => .next (s.granServe die u lines)

/-! ## Changes of modulus (R137) -/

/-- MS from Q to Q' (R137). -/
def msSwitch (q r x : Nat) : Nat := (x * r + q / 2) / q % r

/-- Bytes of a small sample's element and of the sample (R134). -/
def smallWidth (logq : Nat) : Nat := if logq ≤ 16 then 2 else 4
/-- Bytes of a small sample (R134). -/
def smallBytes (n logq : Nat) : Nat := ((n + 1) * smallWidth logq + 63) / 64 * 64

/-! ## The thresher (R140, R141) -/

/-- The small sample of coefficient i (R141). -/
def extractSample (logn n logq q i : Nat) (c0 c1 : List Nat) : List Byte :=
  let big := 2 ^ logn
  let st := big / n
  let u := i / st
  let v := i % st
  let r := 2 ^ logq
  let a := (List.range n).map fun j =>
    if j ≤ u then msSwitch q r (c1.getD ((u - j) * st + v) 0)
    else msSwitch q r ((q - c1.getD ((n + u - j) * st + v) 0) % q)
  padTo 64 (ofElems (smallWidth logq) (a ++ [msSwitch q r (c0.getD i 0)]))

/-- A thresher source: the handle's set, the words of its q_0 limb and the loft rows that hold them; the kind and subcode of a
fault (R51, R139, R242). A sheaf that is not at level 1, not in the coefficient domain or not verified is none that R139 accepts:
the load check has refused it, and here it breaks its request (log 79). -/
def State.thresherLimb (s : State) (a : ArrId) (h poly : Nat) : Except (Nat × Nat) (PSet × List Nat × List (ArrId × Nat)) :=
  let e := handleOf (s.arr a) h
  let ps := s.env.pset e.pset.toNat
  let parts := s.sheafParts a h
  let rows := s.limbRows parts ps.logn poly 1
  let short := rows.any fun r => (handleAt (s.arr r.1) (r.2 * 1024)).isNone
  if e.kind != 1 then .error (7, 3)
  else if !e.sheaf || decide (e.npoly.toNat ≤ poly) then .error (7, 5)
  else if short then .error (7, 1)
  else if e.cst poly == 15 then .error (1, 1)
  else if e.level != 1 || e.evalDom || !e.ver.getLsbD poly then .error (7, 5)
  else .ok (ps, s.loftLimb parts ps.logn poly 1, rows)

/-- What the work of a thresher or a binder gives: the state after it and the loft rows it has read. -/
abbrev PairWork := Except (Nat × Nat) (State × List (ArrId × Nat))

/-- The batch position whose data loft rows hold (R538). -/
def State.rowsPos (s : State) (rows : List (ArrId × Nat)) : Nat :=
  rows.foldl (fun p r => joinPos p (mget 8 (s.arr r.1).posOf r.2)) 8

/-- The two sheaves of a ciphertext have one parameter set (R139). -/
def State.oneSet (s : State) (a : ArrId) (h0 h1 : Nat) : Bool := (handleOf (s.arr a) h0).pset == (handleOf (s.arr a) h1).pset

/-- The work of an EXTRACT request (R139..R141). -/
def State.thresh (s : State) (u : UnitReq) : PairWork :=
  let w := u.src.toNat
  let h0 := bits w 7 0
  let h1 := bits w 15 8
  let i0 := bits w 32 16
  let m := bits w 49 33 + 1
  let sg := 2 ^ u.p1
  let rs := s.env.pset u.p0
  match s.thresherLimb u.arr h0 0, s.thresherLimb u.arr h1 (if h0 = h1 then 1 else 0), endpointOf u.dst with
  | .error e, _, _ => .error e
  | _, .error e, _ => .error e
  | .ok (ps, c0, r0), .ok (_, c1, r1), .loft d a h off =>
    let n := rs.lweN
    if s.oneSet u.arr h0 h1 = false ∨ rs.scheme ≠ 3 ∨ n = 0 ∨ 2 ^ ps.logn % n ≠ 0 ∨ ps.logn < u.p1 ∨ 2 ^ ps.logn < m ∨
        2 ^ ps.logn ≤ i0 + (m - 1) * sg then .error (7, 5)
    else
      let q := (s.env.limb ps 0).q
      let bs := (List.range m).flatMap fun t => extractSample ps.logn n rs.lweLogq q (i0 + t * sg) c0 c1
      match s.unitWrite ⟨d, a⟩ h off bs (s.rowsPos (r0 ++ r1)) with
      | .error sub => .error (7, sub)
      | .ok t => .ok (t, r0 ++ r1)
  | _, _, _ => .error (7, 5)

/-- The fault that the detectors of a thresher or a binder report (R58, R137, R142, R234), in the order of R228. -/
def unitFault (det : UnitDet) (sub : Nat) (rows : List (ArrId × Nat)) : Option Flt :=
  match det.reduction with
  | some i => some { kind := 1, point := 6, index := i }
  | none =>
    if det.ecc.any fun e => !e.2 && decide (e.1 < rows.length) then some { kind := 2, sub := 4 }
    else if det.mismatch then some { kind := 6, sub := sub } else none

/-- The corrected errors of the loft rows a unit has read, and the rows that are not correctable, restored (R234). -/
def State.unitErrors (s : State) (det : UnitDet) (rows : List (ArrId × Nat)) : State :=
  det.ecc.foldl (fun s e => match rows[e.1]? with
    | some r => if e.2 then s.corrected r.1 true else s.restoreRow r.1 r.2
    | none => s) s

/-- Serve a request of the thresher or the binder. -/
def pairUnit (unit sub : Nat) (work : State → UnitReq → PairWork) (die : Nat) (det : UnitDet) (s : State) : Res :=
  need (decide (die < 8)) "die" <|
    match s.unitHead die unit with
    | none => .refused (.cannotArise "no request of the unit is released")
    | some u => .next <| match work s u with
      | .error e => s.unitFail die u { kind := e.1, sub := e.2 } none
      | .ok (t, rows) => match unitFault det sub rows with
        | some f => (s.unitFail die u { f with pos := s.rowsPos rows } none).unitErrors det rows
        | none => (s.unitServe die u (.ok t)).unitErrors det rows

/-- EXTRACT: the thresher cuts small samples from the q_0 limbs of a level-1 ciphertext (R139..R141). -/
def execExtract (die : Nat) (det : UnitDet) (s : State) : Res := pairUnit 3 1 State.thresh die det s

/-! ## The binder (R135, R155) -/

/-- The exact lift of residues to the product of their primes (R137). -/
def liftAll : List (Nat × Nat) → Nat × Nat
  | [] => (0, 1)
  | (q, x) :: l =>
    let r := liftAll l
    let t := mulMod q (subMod q x r.1) (invMod q r.2)
    (r.1 + r.2 * t, r.2 * q)

/-- Words of one limb of a wide sample (R135). -/
def wideWords (k nr : Nat) : Nat := k * nr + 1

/-- Bytes of a wide sample (R135). -/
def wideBytes (k nr lq : Nat) : Nat := (wideWords k nr * lq * 4 + 63) / 64 * 64

/-- y(x) of R155 on every element of a wide sample: the values in the order a_0.., b. -/
def binderValues (qs : List Nat) (q0 logn words : Nat) (ws : List Nat) : List Nat :=
  let big := prodL qs
  let inv := invMod q0 (2 ^ logn)
  (List.range words).map fun i =>
    let x := (liftAll (qs.zipIdx.map fun e => (e.1, ws.getD (e.2 * words + i) 0))).1
    mulMod q0 inv (msSwitch big q0 x)

/-- The check limb of a level-1 polynomial: centred lifts modulo p_c (R155). -/
def liftCheck (q0 pc : Nat) (ws : List Nat) : List Nat := ws.map fun w => intMod pc (centred q0 w)

/-- The four limbs of the ring pair of one sample: check limb and q_0 limb of c0, then of c1 (R155). -/
def binderPair (q0 pc logn kn : Nat) (ys : List Nat) : List (List Nat) :=
  let n := 2 ^ logn
  let c0 := (List.range n).map fun i => if i = 0 then ys.getD kn 0 else 0
  let c1 := (List.range n).map fun i =>
    if i = 0 then ys.getD 0 0 else if n - i < kn then (q0 - ys.getD (n - i) 0) % q0 else 0
  [liftCheck q0 pc c0, c0, liftCheck q0 pc c1, c1]

/-- The sheaves of a handle that level-1 pairs were written to (R155, R240). -/
def State.bindSheaf (s : State) (a : ArrId) (h : Nat) : State :=
  if !(handleOf (s.arr a) h).sheaf then s
  else [0, 1].foldl (fun s n => s.setSheaf (s.sheafParts a h) (s.lognOf a h == 17) n 0 fun e =>
    { e with evalDom := false, ext := false, level := 1 }) s

/-- The work of a BINDER request (R155). -/
def State.binderWork (s : State) (u : UnitReq) : PairWork :=
  let w := u.src.toNat
  let src := bits w 7 0
  let first := bits w 30 8
  let x := s.arr u.arr
  let e := handleOf x src
  let rs := s.env.pset e.pset.toNat
  let ps := s.env.pset u.p0
  let m := 2 ^ u.p1
  let kn := rs.glweRank * 2 ^ rs.logn
  let words := wideWords rs.glweRank (2 ^ rs.logn)
  let size := wideBytes rs.glweRank (2 ^ rs.logn) rs.lq
  if e.kind != 1 then .error (7, 3)
  else if rs.scheme ≠ 3 ∨ ps.scheme = 3 ∨ ps.logn < u.p1 ∨ 2 ^ ps.logn < kn then .error (7, 5)
  else match localFault e first (m * size), endpointOf u.dst with
    | some sub, _ => .error (7, sub)
    | none, .loft d a h off =>
      let q0 := (s.env.limb ps 0).q
      let pc := (s.env.prime ps.checkIdx).q
      let qs := s.env.moduli rs false rs.lq
      let limbs := (List.range m).flatMap fun t =>
        let ws := toWords (loftRead x e (first + t * size) (words * rs.lq * 4))
        binderPair q0 pc ps.logn kn (binderValues qs q0 ps.logn words ws)
      let row0 := (e.target.toNat + first) / 1024
      let rows := (List.range ((e.target.toNat + first + m * size + 1023) / 1024 - row0)).map fun i => (u.arr, row0 + i)
      (match s.writeLimbs ps.logn ⟨d, a⟩ h off limbs (s.rowsPos rows) with
      | .error sub => .error (7, sub)
      | .ok t => .ok (t.bindSheaf ⟨d, a⟩ h, rows))
    | none, _ => .error (7, 5)

/-- BINDER_REQUEST: the binder writes level-1 ring pairs from wide samples (R155). -/
def execBinderRequest (die : Nat) (det : UnitDet) (s : State) : Res := pairUnit 4 2 State.binderWork die det s

end Sys2Proof.Machine
end

