-- ==== Sys2Proof/Machine/Slots.lean ====
section
/-! DEFINITION. Slots and epochs (ch. 11, R342): binding and fair sharing (R314..R316, R381..R386, R409), slot starts and
ends (R77, R183, R312, R317, R321), the abandonments of the two modes (R321..R324), the epoch boundary (R326, R327, R354,
R466), and what a FALLOW slot does (R313, R341, R346, R376). -/

namespace Sys2Proof.Machine

/-! ## Times of a slot (R310, R314, R321) -/

/-- The bind point of a slot: 25 quanta before its START (R314). -/
def State.bindNs (s : State) (epoch : Nat) (q : SlotRec) : Nat := s.slotNs epoch q - 1000

/-- The quantum at which a delayed slot must be gone: the START of the next FALLOW slot, or the epoch's end (R321). -/
def limitQuantum (t : Template) (q : SlotRec) : Nat :=
  ((t.slots.filter fun r => r.kind == 2 && decide (q.start ≤ r.start)).map (·.start)).foldl min 25000

/-- The largest delay among a slot's arrays (R320, R321). -/
def State.maxDelay (s : State) (q : SlotRec) : Nat :=
  ((slotArrs s.variant q).map fun a => (s.arr a).delay).foldl max 0

/-- A slot's actual end, in gear cycles of the epoch (R321). -/
def State.actualEnd (s : State) (q : SlotRec) : Nat :=
  (q.start + q.length - q.slack) * s.perQuantum + s.maxDelay q

/-- Two slots share an array. -/
def shareArrays (p q : SlotRec) : Bool := decide (p.dieMask &&& q.dieMask ≠ 0) && decide (p.arrayMask &&& q.arrayMask ≠ 0)

/-- Where the predecessors that overran their ends leave a slot's arrays, in gear cycles of the epoch (R321). -/
def State.busyUntil (s : State) (q : SlotRec) : Nat :=
  let old := ((slotArrs s.variant q).map fun a => (s.arr a).busy).foldl max 0
  let live := s.runs.filterMap fun r => match s.slotRec r.slot with
    | some p =>
      if r.started && !r.abandoned && p.kind != 2 && shareArrays p q && p.slot != q.slot &&
          decide ((p.start + p.length) * s.perQuantum < s.actualEnd p) then some (s.actualEnd p) else none
    | none => none
  live.foldl max old

/-- The start shift of a slot of the current epoch, in gear cycles (R321); none in real-time mode. -/
def State.shiftOf (s : State) (q : SlotRec) : Nat :=
  if s.plan.any (·.realTime) then 0 else s.busyUntil q - q.start * s.perQuantum

/-! ## What stops a slot from binding -/

/-- The epoch is a switch epoch of this package or of the domain (R326, R327). -/
def State.switchEpoch (s : State) (e : Nat) : Bool :=
  (s.vs.inSwitch && e == s.epoch) || s.vs.pending.any (fun p => p.2 == e) || s.vs.announced.any fun a => a.2.2 == e

/-- An array of the slot is being retired (R469 step 2). -/
def State.retiringIn (s : State) (q : SlotRec) : Bool :=
  (List.range 8).any fun d => bit q.dieMask d && match (s.die d).retiring with
    | some (a, _, _) => bit q.arrayMask a
    | none => false

/-- A die of the slot is fenced (R328). -/
def State.fencedIn (s : State) (q : SlotRec) : Bool := (List.range 8).any fun d => bit q.dieMask d && (s.die d).fenced

/-- The part binds a slot of an epoch: it works and is not disabling (R432), binding is not stopped (R325, R474), the epoch
is no switch epoch, the slot's dies and arrays are there, and a shift leaves it room (R321). -/
def State.mayBind (s : State) (e : Nat) (q : SlotRec) : Bool :=
  s.working && s.en.st == 2 && !s.hm.bindStop && !s.selectables.isEmpty && !s.switchEpoch e && !s.fencedIn q &&
    !s.retiringIn q &&
    (e != s.epoch || decide (q.start * s.perQuantum + s.shiftOf q < limitQuantum s.template q * s.perQuantum) ||
      s.shiftOf q == 0)

/-! ## Eligible jobs (R314, R317, R385) -/

/-- Every refresh key that a job's requirements name is resident (R147). -/
def State.keysResident (s : State) (j : Job) : Bool :=
  j.keys.all fun i => match s.key? j.tenant i with
    | some k => k.kind != 5 || k.resident
    | none => true

/-- Every member reports the refresh keys of a job resident (R385). -/
def State.membersResident (s : State) (j : Job) : Bool :=
  j.keys.all fun i => match s.key? j.tenant i with
    | some k => k.kind != 5 ||
      (s.dom.members.filter (· != s.dom.pkgAddr)).all fun m => s.dom.resident.contains (m, j.tenant, i)
    | none => true

/-- A program spans packages (R304). -/
def spansPackages (p : Program) : Bool := bit p.flags 0

/-- The RECEIPT of a job was decided before an instant, and the part has written it (R25, R314). -/
def State.receipted (s : State) (at' : Nat) (j : Job) : Bool :=
  j.receipt.any (fun t => decide (t < at')) && !(s.stream j.stream).held.any fun r => r.kind == 1 && r.seq == j.seq

/-- A job may bind into a slot of an epoch at an instant (R314, R317). -/
def State.eligible (s : State) (p : Program) (e at' : Nat) (j : Job) : Bool :=
  j.st == .queued && j.prog == p.prog && s.receipted at' j &&
    (match j.notBefore with
     | some n => e == n || epochAfter e n
     | none => true) &&
    (!needsRefresh p || s.keysResident j)

/-- Jobs in the order of their program's slot queue (R314, R317). -/
def queueOrder (js : List Job) : List Job :=
  js.foldl (fun acc j => (acc.takeWhile fun x => decide (x.order ≤ j.order)) ++ [j] ++
    (acc.dropWhile fun x => decide (x.order ≤ j.order))) []

/-! ## Fair sharing (R409) -/

/-- Candidates in scan order: ascending tenant number from the pointer, wrapping. -/
def scanOrder (ptr : Nat) (ts : List Nat) : List Nat :=
  let sorted := sortBy id ts.eraseDups
  (sorted.filter fun t => decide (ptr ≤ t)) ++ sorted.filter fun t => decide (t < ptr)

/-- The tenant that a slot of cost C goes to: the first whose deficit covers it, else the greatest deficit. -/
def State.chooseTenant (s : State) (cost : Nat) (ts : List Nat) : Option Nat :=
  let order := scanOrder s.drrPtr ts
  match order.find? fun t => decide ((cost : Int) ≤ (s.tenant t).deficit) with
  | some t => some t
  | none => order.foldl (fun b t => match b with
      | none => some t
      | some x => if (s.tenant x).deficit < (s.tenant t).deficit then some t else some x) none

/-- The cost of a slot (R409). -/
def slotCost (v : Variant) (q : SlotRec) : Nat := q.length * (slotArrs v q).length

/-- The chosen tenant pays for the slot, and the pointer moves past it (R409). -/
def State.payFor (s : State) (t cost : Nat) : State :=
  { (s.modTenant t fun x => { x with deficit := x.deficit - cost }) with drrPtr := t + 1 }

/-! ## Binding -/

/-- Bind jobs to the positions of a slot (R314). -/
def State.bindJobs (s : State) (e : Nat) (q : SlotRec) (ps : List (Nat × Job)) : State :=
  let now := s.tm.now
  let s := ps.foldl (fun s p =>
    let s := s.modJob p.2.idx fun j => { j with st := .bound, bpos := p.1, slot := q.slot, notBefore := none }
    { s with keys := s.keys.map fun k =>
        if k.tenant == p.2.tenant && p.2.keys.contains k.id then { k with lastBound := now } else k }) s
  let run : SlotRun :=
    { slot := q.slot, epoch := e, jobs := ps.map fun p => (p.1, p.2.idx), incs := ps.map fun p => (p.1, p.2.inc) }
  let s := { s with runs := s.runs ++ [run] }
  let s := s.modSlotStat q.slot fun x => { x with bound := sat32 (x.bound + ps.length) }
  match ps with
  | [] => s
  | p :: _ => s.modTenant p.2.tenant fun t => { t with slotsBound := t.slotsBound + 1 }

/-- The slot binds nothing (R336). -/
def State.unfilled (s : State) (q : SlotRec) : State :=
  s.modSlotStat q.slot fun x => { x with unfilled := bump x.unfilled }

/-- A member that does not bind a job the lead named returns it and reports it (R385, R386); a BIND that it could not follow counts
as it does on every other member. -/
def State.refuseBind (s : State) (es : List BindEntry) (cause : Nat) : State :=
  es.foldl (fun s b =>
    match s.jobs.find? fun j => j.domain && j.jobId == b.jobId && j.inc == b.inc && j.st == .queued with
    | some j =>
      let t := s.tellAbandon j j.inc cause
      if cause = 13 then t.countedReturn j.idx 0 2 else t.returnJob j.idx true
    | none =>
      if s.isLead then s.sendMembers 9 [b.jobId, b.inc, cause]
      else if s.dom.st == .member then s.sendDctl s.dom.lead 9 [b.jobId, b.inc, cause] else s) s

/-- The jobs of a BIND message, in its positions; none when one of them cannot be followed. -/
def State.namedJobs (s : State) (p : Program) (e at' : Nat) (es : List BindEntry) : Option (List (Nat × Job)) :=
  es.foldl (fun acc b => acc.bind fun l =>
    (s.jobs.find? fun j => j.domain && j.jobId == b.jobId && j.inc == b.inc && j.st == .queued && j.prog == p.prog &&
      s.receipted at' j &&
      (match j.notBefore with
       | some n => e == n || epochAfter e n
       | none => true)).map fun j => l ++ [(b.bpos, j)]) (some [])

/-- The bind point of a slot of a DOMAIN program (R315, R385, R386). -/
def State.bindDomain (s : State) (p : Program) (e : Nat) (q : SlotRec) : State :=
  let msg := s.dom.binds.find? fun m => m.epoch == e && m.slot == q.slot
  let dom := { s.dom with binds := s.dom.binds.filter fun m => !(m.epoch == e && m.slot == q.slot) }
  let at' := s.bindNs e q
  let ok := s.mayBind e q && s.dom.st == .member
  let s := { s with dom := dom }
  match msg with
  | none => s.unfilled q
  | some m =>
    if m.es.isEmpty then s.unfilled q
    else if !ok then (s.refuseBind m.es 13).unfilled q
    else match s.namedJobs p e at' m.es with
      | none => (s.refuseBind m.es 13).unfilled q
      | some js =>
        if needsRefresh p && js.any fun j => !s.keysResident j.2 then (s.refuseBind m.es 11).unfilled q
        else s.bindJobs e q js

/-- The bind point of any other JOB slot (R314). -/
def State.bindShared (s : State) (p : Program) (e : Nat) (q : SlotRec) : State :=
  let el := s.jobs.filter (s.eligible p e (s.bindNs e q))
  if !s.mayBind e q then s.unfilled q
  else match s.chooseTenant (slotCost s.variant q) (el.map (·.tenant)) with
    | none => s.unfilled q
    | some t =>
      let js := (queueOrder (el.filter (·.tenant == t))).take q.batch
      (s.payFor t (slotCost s.variant q)).bindJobs e q (js.zipIdx.map fun x => (x.2, x.1))

/-- BIND_POINT: the bind point of a JOB slot of an epoch (R314..R316). -/
def execBindPoint (epoch slot : Nat) (s : State) : Res :=
  if !s.working then .next s
  else match s.slotRec slot with
    | none => .refused (.cannotArise "the active template has no such slot")
    | some q => arises (q.kind == 0) "only JOB slots have a bind point" <|
      arises (!(s.runs.any fun r => r.slot == slot && r.epoch == epoch)) "the slot is bound already" <|
      .next (
        let s := s.reach (s.bindNs epoch q)
        match s.program q.prog with
        | none => s.unfilled q
        | some p => if spansPackages p then s.bindDomain p epoch q else s.bindShared p epoch q)

/-- The lead binds DOMAIN slots: every package is a member, and binding has resumed (R387, R388). -/
def State.domainBinds (s : State) (e : Nat) : Bool :=
  s.isLead && s.dom.qcollect.isNone && s.dom.members.length == (match s.plan with | some p => p.domainSize | none => 0) &&
    (e == s.dom.bindFrom || s.dom.bindFrom == 0 || epochAfter e s.dom.bindFrom)

/-- The lead decides the binding of a DOMAIN slot and sends BIND to every member (R382, R385, R409). -/
def State.leadBind (s : State) (p : Program) (e : Nat) (q : SlotRec) : State :=
  let el := s.jobs.filter fun j =>
    j.domain && s.eligible p e (s.bindNs e q) j && (!needsRefresh p || s.membersResident j) &&
      !(s.dom.binds.any fun m => m.es.any fun b => b.jobId == j.jobId && b.inc == j.inc)
  let t := if s.mayBind e q && s.domainBinds e then s.chooseTenant (slotCost s.variant q) (el.map (·.tenant)) else none
  let js := match t with
    | some t => (queueOrder (el.filter (·.tenant == t))).take (min 8 q.batch)
    | none => []
  let es : List BindEntry := js.zipIdx.map fun x => { jobId := x.1.jobId, bpos := x.2, inc := x.1.inc }
  let s := match t with
    | some t => s.payFor t (slotCost s.variant q)
    | none => s
  let s := s.sendMembers 7 ([e, q.slot, es.length] ++ es.flatMap fun b => [b.jobId, b.bpos, b.inc])
  { s with dom := { s.dom with binds := s.dom.binds ++ [{ epoch := e, slot := q.slot, es := es }] } }

/-- LEAD_BIND_DECISION: BIND_LEAD quanta before a DOMAIN slot's bind point, the lead chooses its jobs (R382). -/
def execLeadBindDecision (epoch slot : Nat) (s : State) : Res :=
  if !s.working then .next s
  else match s.slotRec slot with
    | none => .refused (.cannotArise "the active template has no such slot")
    | some q =>
      match s.program q.prog with
      | none => .refused (.cannotArise "the slot names no program")
      | some p => arises (s.isLead && spansPackages p) "this package decides no DOMAIN slot" <|
        let lead := match s.route with
          | some r => 40 * r.bindLead
          | none => 0
        .next ((s.reach (s.bindNs epoch q - lead)).leadBind p epoch q)

/-! ## Slot start (R77, R212, R240, R312, R321) -/

/-- The code block that an array runs for a program, with the words before its access stream in the store. -/
def codeAt (p : Plan) (v prog : Nat) (a : ArrId) : Nat × CodeBlock :=
  (codeFor p v a).foldr (fun c acc =>
    if c.prog = prog then (0, c) else (acc.1 + c.access.length / 8, acc.2)) (0, {})

/-- The slot-boundary clearing of an array: crib, accumulators, queues, flags and control core (R77, R212, R231). -/
def clearArr (x : Arr) : Arr :=
  { x with
    crib := [], rowSt := [], acc := [], accTag := [], status := 0, aq := [], oq := [], tokens := 0, flags := 0
    ports := [], omode := 0, scaleC := 0, clampLo := 0, clampHi := 0, cycle := 0, delay := 0, dead := false
    waiting := false, held := 0, heldAt := 0, heldTag := 0, heldGroup := 0, flagAt := [], wip := {}, touched := []
    posOf := [], farSt := [], core := {}, pend := [], slotted := false }

/-- An array at the start of a bound slot. -/
def startArr (start base shift : Nat) (es : List HMapEnt) (x : Arr) : Arr :=
  let x := mapSlot es (clearArr x)
  { x with cycle := start, delay := shift, core := { base := base } }

/-- The clearing of an array is traced under its own tag, from cycle 0 to cycle 256 (R77, R225, log 80). -/
def State.traceClearing (s : State) (q : SlotRec) (shift : Nat) (a : ArrId) : State :=
  let at' (n : Nat) : Nat := slotStartNs s.epochStart q + (shift + n) * 40 / s.perQuantum
  (s.trace? a 1 0 0xFFFF00 (at' 0) shift 0 0xFFFF 0).trace? a 2 0 0xFFFF00 (at' 256) (shift + 256) 0 0xFFFF 0

/-- Start a bound slot on every array it occupies. -/
def State.startRun (s : State) (p : Plan) (q : SlotRec) (shift : Nat) : State :=
  let m := hmapOf p q.hmap true
  (slotArrs s.variant q).foldl (fun s a =>
    let c := codeAt p s.vs.current q.prog a
    let es := (hmapEnts m a).map fun e => { e with entry := s.placeHandle a e.handle e.entry }
    (s.modArr a (startArr c.2.start c.1 shift es)).traceClearing q shift a) s

/-- The start of a slot at its shifted START (R321): the state, and the shift, which is counted. -/
def State.startShifted (s : State) (epoch : Nat) (q : SlotRec) : State × Nat :=
  let s := s.reach (s.slotNs epoch q)
  let shift := s.shiftOf q
  let s := s.reach (s.slotNs epoch q + shift * 40 / s.perQuantum)
  (if shift = 0 then s else s.modSlotStat q.slot fun x => { x with shifted := bump x.shifted }, shift)

/-- A bound JOB slot starts (R312, R321). -/
def State.startJob (s : State) (p : Plan) (q : SlotRec) (r : SlotRun) : State :=
  let t := s.startShifted r.epoch q
  (if r.abandoned then t.1 else (t.1.startRun p q t.2).noteDelay q.slot t.2).modRun r fun r =>
    { r with started := true, shift := t.2 }

/-- Read the lines of a key with the STREAM hint, in the states the controllers find (R121, R146, R290): the state, and
whether every line gave its data. -/
def State.installRead (s : State) (k : Key) (lines : List LineState) : State × Bool :=
  k.blocks.zipIdx.foldl (fun acc b => (List.range 32).foldl (fun (acc : State × Bool) i =>
    let r := acc.1.hubLine 0 b.1 i (lines.getD (b.2 * 32 + i) .clean)
    (r.1, acc.2 && r.2.1.ok)) acc) (s, true)

/-- Write a key's blocks into the refresh region of every die of the variant (R145, R146). -/
def State.installBytes (s : State) (k : Key) (c : Nat) : State :=
  (List.range k.blocks.length).foldl (fun s b =>
    let bs := s.keyBytes k (b * 65536) 65536
    ((List.range 8).filter fun d => bit s.variant.dieMask d).foldl (fun s d =>
      s.modArr ⟨d, b % 64⟩ fun x =>
        { x with loft := Memory.write x.loft ((mget {} x.handles 255).target.toNat + (c + b / 64) * 65536) bs }) s) s

/-- A key to install cannot be read (R125, log 81): it is CORRUPT, its request is gone, and the admitted jobs that need it
complete with the key-unavailable status. -/
def State.installFails (s : State) (tenant id : Nat) : State :=
  let s := s.corruptKey tenant id
  let js := s.admitted.filter fun j => j.tenant == tenant && j.keys.contains id && j.st == .queued
  js.foldl (fun s j => s.finishJob j.idx 0x04 id) { s with installs := s.installs.filter (· != (tenant, id)) }

/-- An INSTALL slot installs the key at the head of the queue, when it fits after evictions (R146, R147): `lines` is the state
in which the controllers find the key's lines. A key dropped with no job left to need it, or resident already, leaves the
queue. A key larger than the slot's capacity evicts and installs nothing, and its request stays at the head; a key installed
and not yet bound counts as bound when it was installed (DESIGN CHOICE, log 82). -/
def State.installHead (s : State) (capacity : Nat) (lines : List LineState) : State × Option (Nat × Nat) :=
  match s.installs with
  | [] => (s, none)
  | (t, i) :: rest =>
    match s.key? t i with
    | none => ({ s with installs := rest }, none)
    | some k =>
      if k.resident || (k.st == .dropped && !s.keyPinned k) then ({ s with installs := rest }, none)
      else if capacity < k.blocks.length * 65536 then (s, none)
      else
        let r := s.makeRoom (keyChunks k) s.keys.length
        match r.2 with
        | none => (r.1, none)
        | some c =>
          let g := r.1.installRead k lines
          if !g.2 || k.st == .corrupt then (g.1.installFails t i, none)
          else
            let s := { (g.1.installBytes k c) with installs := rest }
            let s := s.modKey t i fun k => { k with resident := true, regChunk := c, lastBound := s.tm.now }
            (s.tellResident t i true, some (t, i))

/-- An INSTALL slot starts and installs a key (R77, R146, R147, R321, R474); the keys that jobs returned since need take their
places in the queue first. -/
def State.startInstall (s : State) (p : Plan) (q : SlotRec) (lines : List LineState) : State :=
  let t := s.startShifted s.epoch q
  let s := (t.1.startRun p q t.2).noteDelay q.slot t.2
  let r := if s.mayBind s.epoch q then s.requeueInstalls.installHead q.installBytes lines else (s, none)
  let run : SlotRun := { slot := q.slot, epoch := s.epoch, started := true, install := r.2, shift := t.2 }
  { r.1 with runs := r.1.runs ++ [run] }

/-- SLOT_START: a JOB slot that has bound jobs, or an INSTALL slot, starts; one that bound nothing stays idle (R312,
R316), and none starts work while the gear PLLs relock (R354). -/
def execSlotStart (b : SlotBegin) (s : State) : Res :=
  if !s.working || s.vs.relocking then .next s
  else match s.slotRec b.slot, s.plan with
    | some q, some p =>
      arises (q.kind != 2 && (s.running? b.slot).isNone) "the slot does not start now" <|
        .next (if q.kind = 1 then s.startInstall p q b.lines
          else match s.waiting? b.slot with
            | some r => s.startJob p q r
            | none => s)
    | _, _ => .refused (.cannotArise "the active template has no such slot")

/-! ## FALLOW slots (R313, R341, R346, R376) -/

/-- The replicas hold these values when the master sends its own. -/
def State.setReplicas (s : State) (rs : List (Nat × Nat)) : State :=
  let offs := rs.foldl (fun m r => mset 0 m r.1 ((r.2 : Int) - s.tm.now)) s.tm.replOff
  { s with tm := { s.tm with replOff := offs } }

/-- Replicas that differ are reloaded, counted and logged; those of a compute die count against it (R341, R465). -/
def State.checkReplicas (s : State) : State :=
  s.tm.replOff.foldl (fun s r =>
    let s := ({ s with tm := { s.tm with replOff := mset 0 s.tm.replOff r.1 0, replicaErr := bump s.tm.replicaErr } }).log
      0x42 r.1 0 r.1
    if r.1 < 8 then s.modDie r.1 fun d => { d with reloads := d.reloads ++ [s.minute] } else s) s

/-- A step of 5 ns that falls in a FALLOW slot (R346, R347): as soon as the slot is 1 µs old and the last step 50 µs, when it then
ends 1 µs before the slot does. -/
def State.timeStep (s : State) (q : SlotRec) : State :=
  let at' := max (s.tm.now + 1000) (match s.tm.lastStep with
    | some t => t + 50000
    | none => 0)
  if s.tm.stepsDue == 0 || decide (s.tm.now + 40 * q.length < at' + 1005) then s
  else { s with tm := { s.tm with dueStep := some (at', decide (0 < s.tm.stepsDue)) } }

/-- Each UP link sends its DELAY frame and waits for its peer's (R376); a measurement of the FALLOW slot before that never
came counts as late (R492). -/
def State.measureDelays (s : State) : State :=
  ((List.range 32).filter fun j => (s.link j).up).foldl (fun s j =>
    let l := s.link j
    let s := s.setLink j { l with missed := l.missed + 1 }
    let s := if l.missed = 0 then s else { s with hm := { s.hm with bgDeferred := bump s.hm.bgDeferred } }
    s.txFrame j 0 (.lctl 2 [s.tm.now, l.dlyTx, l.dlyRx] [])) s

/-- FALLOW_SLOT_START: a FALLOW slot starts; `replicas` is what the die replicas hold (R313, R341, R346, R376). -/
def execFallowSlotStart (slot : Nat) (replicas : List (Nat × Nat)) (s : State) : Res :=
  if !s.working then .next s
  else match s.slotRec slot with
    | some q =>
      arises (q.kind == 2 && (s.running? slot).isNone) "no FALLOW slot starts" <|
        .next (
          let s := s.reach (s.epochStart + 40 * q.start)
          let run : SlotRun := { slot := slot, epoch := s.epoch, started := true }
          let s := { s with runs := s.runs ++ [run] }
          ((((s.setReplicas replicas).checkReplicas).timeStep q).measureDelays).drainTrace)
    | none => .refused (.cannotArise "the active template has no such slot")

/-! ## Slot end (R122, R183, R317, R321) -/

/-- The flags a slot gives to the completions of its jobs: the OR over its arrays (R183). -/
def State.slotFlags (s : State) (q : SlotRec) : Nat :=
  (slotArrs s.variant q).foldl (fun f a => f ||| statusFlags (s.arr a).status) 0

/-- A job whose incarnation ran through the slot is finished: OK, or INPUT_RANGE when its input was invalid (R412). -/
def State.completeBound (s : State) (r : SlotRun) (flags : Nat) : State :=
  r.jobs.foldl (fun s p =>
    match s.job? p.2 with
    | some j =>
      if j.st == .bound && r.incs.contains (p.1, j.inc) then
        let s := s.modJob p.2 fun j => { j with flags := flags }
        (match r.bad.find? fun b => b.1 == p.1 with
         | some b => s.finishJob p.2 0x01 b.2
         | none => s.finishJob p.2 0 0)
      else s
    | none => s) s

/-- Requests of a slot whose incarnations were abandoned leave the lists (R63, R323). -/
def State.dropRequests (s : State) (q : SlotRec) (r : SlotRun) : State :=
  let mine (slot epoch : Nat) : Bool := slot == r.slot && epoch == r.epoch
  let s := (List.range 8).foldl (fun s d => s.modDie d fun x =>
    { x with
      descs := x.descs.filter fun e => !mine e.slot e.epoch, units := x.units.filter fun u => !mine u.slot u.epoch }) s
  (slotArrs s.variant q).foldl (fun s a => s.modArr a fun x => { x with reqs := [] }) s

/-- REUSE entries that the slot's jobs allocated are freed (R122). -/
def State.freeReuse (s : State) (slot : Nat) : State :=
  { s with hubs := s.hubs.map fun h => (h.1, { h.2 with reuse := h.2.reuse.filter fun e => e.2.2 != slot }) }

/-- The arrays at the slot's end: status into cumulative status, and how long they stay busy (R183, R321). -/
def State.closeArrays (s : State) (q : SlotRec) (busy : Nat) : State :=
  (slotArrs s.variant q).foldl (fun s a => s.modArr a fun x =>
    { foldStatus (dropSlotLines x) with busy := max x.busy busy }) s

/-- A JOB or INSTALL slot ends. -/
def State.endRun (s : State) (q : SlotRec) (r : SlotRun) : State :=
  let nominal := (q.start + q.length) * s.perQuantum
  let last := s.actualEnd q
  let busy := if !r.abandoned && decide (nominal < last) then last else 0
  let s := s.reach (s.slotNs r.epoch q + (if busy = 0 then 40 * q.length
    else (last - q.start * s.perQuantum) * 40 / s.perQuantum))
  let flags := s.slotFlags q
  let s := if r.abandoned then s else s.completeBound r flags
  let s := if r.abandoned || r.faulted then s.dropRequests q r else s
  ((s.closeArrays q busy).freeReuse q.slot).dropRun r

/-- SLOT_END: the end of a slot (R183); nothing for one that bound nothing. -/
def execSlotEnd (slot : Nat) (s : State) : Res :=
  match s.slotRec slot with
  | none => .refused (.cannotArise "the active template has no such slot")
  | some q =>
    .next (match s.running? slot with
      | none => s
      | some r =>
        if q.kind = 2 then (s.reach (s.slotNs r.epoch q + 40 * q.length)).dropRun r else s.endRun q r)

/-! ## Abandonment in the two modes (R321..R324) -/

/-- SLOT_PACED_ABANDON: in paced mode a slot whose actual end would pass the next FALLOW start or the epoch's end is
abandoned at that quantum (R321). -/
def execSlotPacedAbandon (slot : Nat) (s : State) : Res :=
  match s.slotRec slot, s.running? slot with
  | some q, some r =>
    arises (s.plan.any (fun p => !p.realTime) && q.kind == 0 && !r.abandoned &&
        decide (limitQuantum s.template q * s.perQuantum < s.actualEnd q)) "the slot does not pass its limit" <|
      .next ((s.reach (s.absEpoch r.epoch * epochNs + 40 * limitQuantum s.template q)).abandonSlot r)
  | _, _ => .refused (.cannotArise "the slot does not run")

/-- SLOT_DEADLINE_ABANDON: in real-time mode a slot is abandoned on the first cycle on which the delay of one of its
arrays exceeds TOLERANCE, with a DEADLINE record (R232, R322): `cycle` is the stated cycle of the command held back and
`group` the group it waits for, 0 for any other exception. The array holds that command back, and its flag is still clear. -/
def execSlotDeadlineAbandon (slot : Nat) (a : ArrId) (group cycle tag : Nat) (s : State) : Res :=
  need a.wf "array" <|
    match s.slotRec slot, s.running? slot with
    | some q, some r =>
      let x := s.arr a
      arises (s.plan.any (·.realTime) && q.kind == 0 && slotOccupies s.variant q a && !r.abandoned && x.waiting &&
          x.heldAt == cycle && x.heldTag == tag && x.heldGroup == group && !(group != 0 && x.flags.getLsbD group))
          "the slot is not held back" <|
        .next (
          let late := q.tolerance * s.perQuantum + 1
          (s.reach (s.slotNs r.epoch q + (cycle + late) * 40 / s.perQuantum)).deadline r a group cycle tag late x.held)
    | _, _ => .refused (.cannotArise "the slot does not run")

/-! ## The epoch boundary (R327, R342, R354, R409, R466) -/

/-- The switch epoch of the part's own pending switch begins (R326, R327, R148, R354): on the same dies resident keys stay,
on others they are installed again on demand. -/
def State.performSwitch (s : State) (v : Nat) : State :=
  let old := s.variant.dieMask
  let new := (s.variantRec v).getD {}
  let t := if old = new.dieMask then s else s.emptyRegion.requeueInstalls
  let t := { t with
    vs := { t.vs with
      current := v, pending := none, switches := bump t.vs.switches, inSwitch := true, relocking := true } }
  (t.writeStores new).keepRegion t

/-- Switches that take effect in the epoch that begins (R326). -/
def State.switchStep (s : State) (e : Nat) : State :=
  let s := { s with vs := { s.vs with inSwitch := false } }
  let others := s.vs.announced.any fun a => a.2.2 == e && a.1 != s.dom.pkgAddr
  let s := { s with vs := { s.vs with announced := s.vs.announced.filter fun a => a.2.2 == e || epochAfter a.2.2 e } }
  match s.vs.pending with
  | some (v, f) => if f = e then s.performSwitch v else { s with vs := { s.vs with inSwitch := others } }
  | none => { s with vs := { s.vs with inSwitch := others } }

/-- Deficits at an epoch boundary (R409). -/
def State.fillDeficits (s : State) (e : Nat) : State :=
  let has (t : Nat) : Bool := s.jobs.any fun j => j.tenant == t && match s.program j.prog with
    | some p => s.eligible p e s.tm.now j
    | none => false
  let upd (t : Nat) (x : Tenant) : Tenant :=
    let w : Int := x.weight * s.drrQuantum
    { x with deficit := if has t then min (x.deficit + w) (4 * w) else min x.deficit 0 }
  let ts := ((s.jobs.map (·.tenant)) ++ s.tenants.map (·.1)).eraseDups
  ts.foldl (fun s t => s.modTenant t (upd t)) s

/-- Written DMA settings of the tenants take effect (R224). -/
def State.applyDma (s : State) : State :=
  let tens : SMap Tenant := s.tenants.map fun e => (e.1, { e.2 with dmaRate := e.2.newRate, dmaDepth := e.2.newDepth })
  { s with tenants := tens }

/-- Bit p set for every member (R384). -/
def memberMask (ms : List Nat) : Nat := ms.foldl (fun m p => m ||| 2 ^ p) 0

/-- Domain jobs admitted and not completed (R384). -/
def State.admittedCount (s : State) : Nat :=
  (s.jobs.filter fun j => j.domain && j.receipt.isSome && j.st != .finished).length

/-- A member leaves the lead's list (R387): its domain incarnations in progress are abandoned everywhere. -/
def State.memberGone (s : State) (p : Nat) : State :=
  let s := { s with dom := { s.dom with
      members := s.dom.members.filter (· != p), resident := s.dom.resident.filter fun e => e.1 != p } }
  let live := s.jobs.filter fun j => j.domain && j.st == .bound
  live.foldl (fun s j => s.abandonJob j.idx true 0 2 2) s

/-- The lead drops members that have not acknowledged an announcement by the start of its epoch E − 1 (R326, R387). -/
def State.unacknowledged (s : State) (e : Nat) : State :=
  let due := s.vs.announced.filter fun a => (a.2.2 + 2 ^ 32 - 1) % 2 ^ 32 == e
  let lost := s.dom.members.filter fun m => m != s.dom.pkgAddr && due.any fun a =>
    a.1 != m && !(s.dom.vacks.contains (m, a.1, a.2.2))
  if s.isLead then lost.foldl State.memberGone s else s

/-- The package leaves its domain (R387): LEAVE where a path exists; it binds no further DOMAIN slot. -/
def State.leaveDomain (s : State) (reason : Nat) : State :=
  if s.dom.st == .member then
    let s := if s.isLead then s else s.sendDctl s.dom.lead 10 [reason]
    { s with dom := { s.dom with st := .left, leaveReason := reason, qcollect := none } }
  else if s.dom.st == .joining then { s with dom := { s.dom with st := .left, leaveReason := reason } }
  else s

/-- A member sends VACK to its lead (R326). -/
def State.sendVack (s : State) (a : Nat × Nat) : State := s.sendDctl s.dom.lead 13 [a.1, a.2]

/-- A message can leave toward a package. -/
def State.canTell (s : State) (p : Nat) : Bool := match s.dctlLink p with
  | some j => (s.link j).up && (s.link j).session
  | none => false

/-- A member acknowledges an announced switch (R326); while nothing can leave toward its lead, the acknowledgement waits. -/
def State.acknowledgeSwitch (s : State) (a : Nat × Nat) : State :=
  if s.canTell s.dom.lead then s.sendVack a
  else { s with dom := { s.dom with unacked := s.dom.unacked.filter (· != a) ++ [a] } }

/-- Acknowledgements that wait at an epoch boundary are sent when they can be; a member that still has one for the next epoch, or
an earlier one, leaves the domain (R387). -/
def State.ackStep (s : State) (e : Nat) : State :=
  let late := s.dom.unacked.any fun a => a.2 == (e + 1) % 2 ^ 32 || !epochAfter a.2 ((e + 1) % 2 ^ 32)
  let held := s.dom.unacked
  if s.canTell s.dom.lead then held.foldl State.sendVack { s with dom := { s.dom with unacked := [] } }
  else if late then State.leaveDomain { s with dom := { s.dom with unacked := [] } } 2
  else s

/-- Domain work of an epoch boundary: TICK, missed TICKs, membership, paths that return (R375, R380, R384, R387). -/
def State.domainStep (s : State) (e : Nat) : State :=
  let back := s.dom.upAt.filter fun p => p.2.2 == e || epochAfter e p.2.2
  let down := s.dom.down.filter fun p => !back.any fun b => b.1 == p.1 && b.2.1 == p.2
  let s := { s with dom := { s.dom with
      down := down, upAt := s.dom.upAt.filter fun p => !back.contains p } }
  if s.dom.st != .member then s
  else
    let s := s.unacknowledged e
    let s := { s with dom := { s.dom with vacks := s.dom.vacks.filter fun a => a.2.2 == e || epochAfter a.2.2 e } }
    if s.isLead then s.sendMembers 8 [s.dom.lead, s.dom.deputy, s.admittedCount, memberMask s.dom.members]
    else State.ackStep { s with dom := { s.dom with noTick := s.dom.noTick + 1 } } e

/-- A new epoch begins on every array: none is busy with a slot of the epoch before (R321). -/
def State.freeArrays (s : State) : State :=
  { s with arrs := s.arrs.map fun e => (e.1, { e.2 with busy := 0 }) }

/-- The next epoch boundary (R342, R466). -/
def State.boundary (s : State) : State :=
  let n := s.tm.edge + 1
  let e := n % 2 ^ 32
  let s := s.reach (n * epochNs)
  let s := { s with tm := { s.tm with edge := n } }
  let s := s.switchStep e
  let s := s.evaluateHealth.applyDma
  let s := s.fillDeficits e
  if s.working then (s.freeArrays.domainStep e).drainTrace else s.drainTrace

/-- EPOCH_BOUNDARY: the next boundary of the time base (R342, R466); none while the part has no clock or boots. -/
def execEpochBoundary (s : State) : Res := .next (if s.running then s.boundary else s)

/-- GEAR_RELOCK_DONE: 40 µs into a switch epoch the gear PLLs have relocked (R354). -/
def execGearRelockDone (s : State) : Res :=
  arises s.vs.relocking "no gear PLL relocks" <|
    .next (let s := s.reach (s.tm.edge * epochNs + 40000); { s with vs := { s.vs with relocking := false } })

end Sys2Proof.Machine
end

