-- ==== Sys2Proof/Machine/Streams.lean ====
section
/-! DEFINITION. Command streams: doorbells, the decision of descriptors, completions and interrupts (R396..R407, R410, R411,
R413), the three STR_CTL actions (R396, R402, R514), and keys freed with their last job (R129). -/

namespace Sys2Proof.Machine

/-! ## Keys and jobs (R129) -/

/-- Free a dropped key: its blocks, cache lines, REUSE entries and resident copies go (R129, R148). -/
def State.freeKey (s : State) (k : Key) : State :=
  let hubs : SMap HubCache := s.hubs.map fun h =>
    let keep : SMap (List KeepLine) := h.2.keep.map fun e => (e.1, e.2.filter fun l => !k.blocks.contains l.1)
    (h.1, { keep := keep.filter fun e => !e.2.isEmpty, reuse := h.2.reuse.filter fun e => !k.blocks.contains e.1 })
  let keys := s.keys.filter fun x => !(x.tenant == k.tenant && x.id == k.id && x.st == .dropped)
  let inst := s.installs.filter fun e => !(e.1 == k.tenant && e.2 == k.id)
  ({ s with hubs := hubs, keys := keys, installs := inst }).modTenant k.tenant fun t =>
    { t with blocksUsed := t.blocksUsed - k.blocks.length }

/-- A job still holds a key. -/
def State.keyHeld (s : State) (k : Key) : Bool := s.jobs.any fun j => j.tenant == k.tenant && j.keys.contains k.id

/-- Free every dropped key that no job holds any more (R129). -/
def State.reap (s : State) : State :=
  (s.keys.filter fun k => k.st == .dropped && !s.keyHeld k).foldl State.freeKey s

/-- After records of a stream were written: freed keys, the end of a drain. -/
def State.settle (s : State) (n : Nat) : State := (s.drainCheck n).reap

/-- Write a stream's held records as far as they may go. -/
def State.flush (s : State) (n : Nat) : State := (s.flushRecords n (s.stream n).held.length).settle n

/-! ## Doorbells (R401) -/

/-- A stream exists (R392). -/
def streamOk (n : Nat) : Bool := decide (n < 16384)

/-- A doorbell write that is dropped (R401). -/
def State.dropDoorbell (s : State) (n : Nat) : State :=
  s.modStream n fun x => { x with drops := bump x.drops }

/-- A doorbell write counts: 32 bits wide, through the owning function, for an ENABLED stream (R401). -/
def State.doorbellOk (s : State) (f : FnId) (n width : Nat) : Bool :=
  width == 4 && fnOfEntry (s.stream n).fn == f && (s.stream n).st == .enabled

/-- DOORBELL_SQ_TAIL: new descriptors are written; too many put the stream into ERROR (R401). -/
def execDoorbellSqTail (f : FnId) (stream width value : Nat) (s : State) : Res :=
  need (f.wf && streamOk stream) "stream" <|
    .next (
      if !s.powered then s
      else if !s.doorbellOk f stream width then s.dropDoorbell stream
      else
        let v := value % 2 ^ 32
        s.modStream stream fun x =>
          if 2 ^ x.sqLog2 < (v + 2 ^ 32 - x.sqHead) % 2 ^ 32 then
            { x with sqTail := v, st := .error, reason := 5, errLive := true }
          else { x with sqTail := v })

/-- CQ_HEAD has passed a record's position (R417). -/
def passed (head c : Nat) : Bool := decide (0 < (head + 2 ^ 32 - c) % 2 ^ 32 ∧ (head + 2 ^ 32 - c) % 2 ^ 32 < 2 ^ 31)

/-- DOORBELL_CQ_HEAD: records are consumed, become final and leave room for held ones (R401, R417). -/
def execDoorbellCqHead (f : FnId) (stream width value : Nat) (s : State) : Res :=
  need (f.wf && streamOk stream) "stream" <|
    .next (
      if !s.powered then s
      else if !s.doorbellOk f stream width then s.dropDoorbell stream
      else
        let v := value % 2 ^ 32
        (s.modStream stream fun x =>
          let gone := x.recs.filter fun r => passed v r.1
          { x with
            cqHead := v, recs := x.recs.filter fun r => !passed v r.1
            done := x.done.filter fun j => !gone.any fun r => r.2.kind == 3 && r.2.seq == j.seq }).flush stream)

/-! ## Deciding a descriptor (R397..R399, R403..R405) -/

/-- A job descriptor's fields (R397). -/
structure JobDesc where
  seq : Nat
  prog : Nat
  flags : Nat
  nbuf : Nat
  jobId : Nat
  buftab : Nat
  keys : List Nat
  user : Nat
  rsvd : Bool
  raw : List Byte
  deriving DecidableEq, Repr

/-- The descriptor that 64 bytes spell. -/
def jobDesc (bs : List Byte) : JobDesc :=
  { seq := field bs 0 4, prog := field bs 4 1, flags := field bs 5 1, nbuf := field bs 6 2, jobId := field bs 8 8
    buftab := field bs 16 8, keys := (List.range 8).map fun i => field bs (24 + 2 * i) 2, user := field bs 40 8
    rsvd := decide (field bs 5 1 / 4 = 0) && (slice bs 48 16).all (· == 0), raw := bs }

/-- A buffer-table entry breaks R398; its RSVD bytes are ignored (R7). -/
def bufBad (bs : List Byte) (i : Nat) : Bool :=
  field bs (16 * i) 8 % 64 != 0 || field bs (16 * i + 8) 4 % 64 != 0 || field bs (16 * i + 8) 4 == 0

/-- The buffer table of a descriptor: none when it cannot be read or breaks R398. -/
def State.bufTable (s : State) (x : Stream) (d : JobDesc) : Option (List (Nat × Nat)) :=
  if d.nbuf = 0 then some []
  else if d.buftab % 64 ≠ 0 then none
  else match s.hostRead (fnOfEntry x.fn) (s.streamPasid x) d.buftab (16 * d.nbuf) with
    | none => none
    | some bs =>
      if (List.range d.nbuf).any (bufBad bs) then none
      else some ((List.range d.nbuf).map fun i => (field bs (16 * i) 8, field bs (16 * i + 8) 4))

/-- A key that a requirement can resolve to (R399). -/
def keyServes (tenant : Nat) (r : KeyReq) (k : Key) : Bool :=
  k.tenant == tenant && k.kind == r.kind && k.st == .usable && k.pset == some r.pset

/-- Resolve a program's requirements in order (R399): the KEY_IDs, or the index of the first that cannot be. -/
def State.resolveKeys (s : State) (tenant : Nat) (reqs : List KeyReq) (given : List Nat) : Except Nat (List Nat) :=
  (reqs.foldl (fun (acc : Except Nat (List Nat) × Nat × Nat) r =>
    match acc with
    | (.error e, i, p) => (.error e, i, p)
    | (.ok l, i, p) =>
      let named := decide (2 ≤ r.kind)
      let hit := s.keys.find? fun k => keyServes tenant r k &&
        (if named then k.id == given.getD p 0xFFFF else r.kind == 0 || k.galois == r.galois)
      match hit with
      | some k => (.ok (l ++ [k.id]), i + 1, if named then p + 1 else p)
      | none => (.error i, i + 1, p)) (.ok [], 0, 0)).1

/-- The outcome of the tests of R404 on a descriptor with d = 0: a refusal's code and DETAIL, or what the job holds. -/
inductive Decision where
  | refuse (code detail : Nat)
  | accept (bufs : List (Nat × Nat)) (keys : List Nat)
  deriving DecidableEq, Repr

/-- BAD_DESCRIPTOR (R404). -/
def descBad (d : JobDesc) (p : Option Program) : Bool :=
  !d.rsvd || (d.nbuf == 0 && d.buftab != 0) || (bit d.flags 0 != (d.jobId != 0)) ||
    match p with
    | some p => d.nbuf != p.nin + p.nout || bit d.flags 0 != spansPackages p
    | none => false

/-- The health manager throttles a program's admission (R477): every program while no variant is selectable (R472). -/
def State.throttles (s : State) (prog : Nat) : Bool := s.throttlesAll || s.hm.throttled.contains prog

/-- A program uses a TEST_ONLY set (R72). -/
def State.usesTestOnly (s : State) (p : Program) : Bool := s.plan.any fun q => q.testOnly.any fun n => bit p.psets n

/-- The tests of R404, in order. -/
def State.decideDesc (s : State) (x : Stream) (d : JobDesc) : Decision :=
  let t := s.tenant x.tenant
  let prog := s.program d.prog
  if descBad d prog then .refuse 0x03 0
  else match prog with
    | none => .refuse 0x04 0
    | some p =>
      match s.bufTable x d with
      | none => .refuse 0x05 0
      | some bufs =>
        if t.st == .disabled then .refuse 0x06 0
        else if s.throttles d.prog then .refuse 0x07 0
        else if s.usesTestOnly p && !t.test then .refuse 0x08 0
        else match s.resolveKeys x.tenant p.reqs d.keys with
          | .error i => .refuse 0x09 i
          | .ok keys =>
            if bit d.flags 0 && s.jobs.any (fun j => j.domain && j.jobId == d.jobId) then .refuse 0x0A 0
            else if x.credits ≤ x.inflight ∨ (t.creditLimit ≠ 0 ∧ t.creditLimit ≤ t.inflight) then .refuse 0x0B 0
            else .accept bufs keys

/-- Completed jobs whose records are not final: they keep their entries (R417, R436). -/
def State.doneJobs (s : State) : List Job := s.streams.flatMap fun e => e.2.done

/-- The lowest free entry of the in-flight table (R407); when none is, the lowest that a job holds only for a record that
is not final (log 15). -/
def State.freeEntry (s : State) : Nat :=
  let open' (js : List Job) : Option Nat := (List.range 65536).find? fun i => !(js.any fun j => j.idx == i)
  (open' (s.jobs ++ s.doneJobs)).getD ((open' s.jobs).getD 65536)

/-- An entry that is taken is no longer that of a completed job. -/
def State.takeEntry (s : State) (i : Nat) : State :=
  let streams : SMap Stream := s.streams.map fun e => (e.1, { e.2 with done := e.2.done.filter fun j => j.idx != i })
  { s with streams := streams }

/-- Admit a job to its program's slot queue behind every job receipted before (R314, R405). -/
def State.admitJob (s : State) (i : Nat) : State :=
  let r := s.nextOrder
  let s := r.2.modJob i fun j => { j with st := .queued, order := 2 ^ 62 + r.1 }
  match s.job? i with
  | some j => s.queueInstalls j
  | none => s

/-- The RECEIPT record of a job (R400). -/
def receiptOf (j : Job) (now : Nat) : CRec := { seq := j.seq, kind := 1, time := now, user := j.user }

/-- A package holds a domain job PENDING: the lead notes its READY (R381). -/
def State.noteReady (s : State) (from' jobId prog tenant : Nat) : State :=
  let old := s.dom.leadJobs.find? fun l => l.jobId == jobId
  let new : LeadJob := match old with
    | some l => { l with ready := from' :: l.ready.filter (· != from') }
    | none => { jobId := jobId, prog := prog, tenant := tenant, ready := [from'], since := s.tm.now / epochNs }
  { s with dom := { s.dom with leadJobs := new :: s.dom.leadJobs.filter fun l => l.jobId != jobId } }

/-- Tell the lead that a member holds a domain job PENDING (R381). -/
def State.tellReady (s : State) (j : Job) : State :=
  if s.isLead then s.noteReady s.dom.pkgAddr j.jobId j.prog j.tenant
  else if s.dom.st == .member then s.sendDctl s.dom.lead 4 [j.jobId, j.prog, j.tenant] else s

/-- A PENDING domain job is admitted: its RECEIPT is written and it joins its slot queue (R381, R405). -/
def State.admitDomain (s : State) (jobId aseq : Nat) : State :=
  match s.jobs.find? fun j => j.domain && j.jobId == jobId && j.st == .pending with
  | none => s
  | some j =>
    let s := s.modJob j.idx fun j => { j with receipt := some s.tm.now, aseq := aseq }
    ((s.addRecord j.stream (receiptOf j s.tm.now)).admitJob j.idx).settle j.stream

/-- The lead admits a job once every member of the domain has sent READY (R381). -/
def State.leadCheck (s : State) (jobId : Nat) : State :=
  let size := match s.plan with
    | some p => p.domainSize
    | none => 0
  match s.dom.leadJobs.find? fun l => l.jobId == jobId with
  | none => s
  | some l =>
    if s.isLead && l.aseq.isNone && s.dom.members.length == size && s.dom.members.all l.ready.contains then
      let n := s.dom.aseq + 1
      let set (x : LeadJob) : LeadJob := if x.jobId = jobId then { x with aseq := some n } else x
      let s := { s with dom := { s.dom with aseq := n, leadJobs := s.dom.leadJobs.map set } }
      (s.sendMembers 6 [jobId, n]).admitDomain jobId n
    else s

/-- A PENDING domain job is refused: DOMAIN_REFUSED, and its credit is free (R381, R407). -/
def State.refuseDomain (s : State) (jobId : Nat) : State :=
  match s.jobs.find? fun j => j.domain && j.jobId == jobId && j.st == .pending with
  | none => s
  | some j =>
    let x := s.stream j.stream
    let s := s.setStream j.stream { x with refusals := bump x.refusals }
    let s := s.modTenant x.tenant fun t => { t with refused := bump t.refused }
    let s := { s with
      jobs := s.jobs.filter fun k => k.idx != j.idx, dom := { s.dom with refused := bump s.dom.refused } }
    (s.addRecord j.stream
      { seq := j.seq, kind := 2, code := 0x0C, time := s.tm.now, user := j.user, irq := true }).settle j.stream

/-- The lead refuses a domain job that is not admitted to every member (R381). -/
def State.leadRefuse (s : State) (jobId : Nat) : State :=
  if s.dom.leadJobs.any fun l => l.jobId == jobId && l.aseq.isSome then s
  else
    let s := { s with dom := { s.dom with leadJobs := s.dom.leadJobs.filter fun l => l.jobId != jobId } }
    (s.sendMembers 5 [jobId, 0x0C]).refuseDomain jobId

/-- A package refuses a domain job at its doorbell (R381). -/
def State.tellRefuse (s : State) (jobId code : Nat) : State :=
  if s.isLead then s.leadRefuse jobId
  else if s.dom.st == .member then s.sendDctl s.dom.lead 5 [jobId, code] else s

/-- A descriptor passes: one credit, and a RECEIPT, or PENDING (R405). -/
def State.acceptJob (s : State) (n : Nat) (d : JobDesc) (bufs : List (Nat × Nat)) (keys : List Nat) : State :=
  let x := s.stream n
  let dom := bit d.flags 0
  let j : Job :=
    { idx := s.freeEntry, stream := n, seq := d.seq, tenant := x.tenant, prog := d.prog, jobId := d.jobId, domain := dom
      notify := bit d.flags 1, desc := d.raw, bufs := bufs, keys := keys, user := d.user
      st := if dom then .pending else .queued, receipt := if dom then none else some s.tm.now
      pendSince := s.tm.now / epochNs }
  let s := s.setStream n { x with inflight := x.inflight + 1 }
  let s := s.modTenant x.tenant fun t => { t with inflight := t.inflight + 1 }
  let s := s.takeEntry j.idx
  let s := { s with jobs := s.jobs ++ [j] }
  if dom then (s.tellReady j).leadCheck j.jobId
  else (s.addRecord n (receiptOf j s.tm.now)).admitJob j.idx

/-- A descriptor is refused: its record, its counts, and REFUSE to the lead for one with a JOB_ID (R381, R404, R413). -/
def State.refuseDesc (s : State) (n : Nat) (d : JobDesc) (code detail : Nat) : State :=
  let x := s.stream n
  let s := s.setStream n { x with
    refusals := bump x.refusals, overloads := if code = 0x0B then bump x.overloads else x.overloads }
  let s := s.modTenant x.tenant fun t => { t with refused := bump t.refused }
  let s := if bit d.flags 0 then s.tellRefuse d.jobId code else s
  s.addRecord n { seq := d.seq, kind := 2, code := code, time := s.tm.now, detail := detail, user := d.user, irq := true }

/-- Read the next descriptor and decide it (R403, R404). -/
def State.readDesc (s : State) (n : Nat) : State :=
  let x := s.stream n
  match s.hostRead (fnOfEntry x.fn) (s.streamPasid x) (x.sqAddr + 64 * (x.sqHead % 2 ^ x.sqLog2)) 64 with
  | none => s.streamFault n
  | some bs =>
    let d := jobDesc bs
    let gap := (d.seq + 2 ^ 32 - x.nextSeq) % 2 ^ 32
    let s := s.setStream n { x with
      sqHead := (x.sqHead + 1) % 2 ^ 32, stalled := false
      nextSeq := if gap = 0 then (x.nextSeq + 1) % 2 ^ 32 else x.nextSeq }
    if gap = 0 then
      match s.decideDesc (s.stream n) d with
      | .refuse code detail => s.refuseDesc n d code detail
      | .accept bufs keys => s.acceptJob n d bufs keys
    else s.refuseDesc n d (if gap < 2 ^ 31 then 0x01 else 0x02) 0

/-- DESCRIPTOR_DECIDE: the part reads a stream's next descriptor and decides it (R401, R403..R405); a full CQ holds it
back, counted once. -/
def execDescriptorDecide (stream : Nat) (s : State) : Res :=
  need (streamOk stream) "stream" <|
    let x := s.stream stream
    arises (x.st == .enabled && x.sqHead != x.sqTail) "no descriptor waits" <|
      .next (
        if !s.working || s.en.st != 2 || x.portWait || x.bmeWait then s
        else if s.recordsHeld x then
          if x.stalled then s
          else s.setStream stream { x with stalled := true, cqStalls := bump x.cqStalls }
        else (s.readDesc stream).settle stream)

/-! ## Completions (R410, R411) -/

/-- The job of a stream whose COMPLETION is next in SEQ order: receipted or PENDING, with no COMPLETION yet (R410). -/
def State.nextDone (s : State) (n : Nat) : Option Job :=
  let x := s.stream n
  let js := s.jobs.filter fun j => j.stream == n && !(x.held.any fun r => r.kind == 3 && r.seq == j.seq)
  js.foldl (fun b j => match b with
    | none => some j
    | some i => if (j.seq + 2 ^ 32 - x.nextSeq) % 2 ^ 32 < (i.seq + 2 ^ 32 - x.nextSeq) % 2 ^ 32 then some j else some i) none

/-- The output buffers of a job that ends with a status other than OK hold free bytes (R411, log 9). -/
def State.spoilOutputs (s : State) (j : Job) : State :=
  let nin := match s.program j.prog with
    | some p => p.nin
    | none => 0
  let x := s.stream j.stream
  (j.bufs.drop nin).foldl (fun s b =>
    let f := s.freshBytes b.2
    match f.2.hostWrite (fnOfEntry x.fn) (s.streamPasid x) b.1 f.1 with
    | some t => t
    | none => f.2) s

/-- Write a finished job's COMPLETION, with the time of its completion, or hold it while the ring has no room (R400, R410,
R413). -/
def State.complete (s : State) (j : Job) (status detail inc : Nat) : State :=
  let s := if status = 0 then s else s.spoilOutputs j
  s.addRecord j.stream
    { seq := j.seq, kind := 3, code := status, flags := j.flags, time := j.doneAt, inc := inc, detail := detail
      user := j.user, irq := j.notify }

/-- COMPLETION: a finished job's COMPLETION is written in SEQ order, after its last output has landed (R25, R410, R411). -/
def execCompletion (stream : Nat) (s : State) : Res :=
  need (streamOk stream) "stream" <|
    match s.nextDone stream with
    | some j => (match j.result with
      | some (st, d, inc) =>
        arises (!s.outputsPending j.idx inc) "an output of the job is not visible yet" <|
          .next (if s.running then (s.complete j st d inc).settle stream else s)
      | none => .refused (.cannotArise "the earliest job of the stream has not finished"))
    | none => .refused (.cannotArise "no job of the stream waits for its COMPLETION")

/-- IRQ_DELAY_EXPIRY: an interrupt held by STR_IRQ_DELAY is raised (R413). -/
def execIrqDelayExpiry (stream : Nat) (s : State) : Res :=
  need (streamOk stream) "stream" <|
    let x := s.stream stream
    arises x.irqWait "no interrupt waits" <|
      .next (if !s.powered then s
        else
          let s := s.reach (x.irqLast.getD 0 + 1000 * x.irqDelay)
          (s.setStream stream { x with irqWait := false, irqLast := some s.tm.now }).raiseMsix (fnOfEntry x.fn) x.vector)

/-! ## STR_CTL (R396, R402, R514) -/

/-- A stream counts in CREDITS_ASSIGNED: it is enabled, drains, or is in an ERROR entered while ENABLED (R402, R407). -/
def Stream.assigned (x : Stream) : Bool := x.st == .enabled || x.st == .draining || (x.st == .error && x.errLive)

/-- CREDITS_ASSIGNED. -/
def State.creditsAssigned (s : State) : Nat :=
  ((s.streams.filter fun e => e.2.assigned).map fun e => e.2.credits).foldl (· + ·) 0

/-- A function exists with Bus Master Enable set (R396). -/
def State.fnReady (s : State) (v : Nat) : Bool := (s.fn (fnOfEntry v)).present && (s.fn (fnOfEntry v)).bme

/-- STR_REASON of an enable, 0 when every condition holds (R396, R402). -/
def State.enableReason (s : State) (x : Stream) : Nat :=
  let others := s.creditsAssigned - (if x.assigned then x.credits else 0)
  if (s.tenant x.tenant).st != .active then 1
  else if !s.fnReady x.fn || (x.altFn != 0xFFFF && !s.fnReady x.altFn) then 2
  else if x.sqAddr % 4096 ≠ 0 ∨ x.cqAddr % 4096 ≠ 0 ∨ x.statusAddr % 64 ≠ 0 ∨ x.sqLog2 < 4 ∨ 16 < x.sqLog2 ∨
      x.cqLog2 < 4 ∨ 16 < x.cqLog2 then 3
  else if 65536 < others + x.credits then 4
  else if x.altFn != 0xFFFF && x.altFn / 256 % 2 == x.fn / 256 % 2 then 7
  else 0

/-- STR_CTL 1 (R396, R402): the status of the request and the state. -/
def State.enableStream (s : State) (n : Nat) : Nat × State :=
  let x := s.stream n
  if x.st = .enabled then (0, s)
  else if x.st = .draining then (5, s)
  else
    let r := s.enableReason x
    if r ≠ 0 then (0, s.setStream n { x with st := .error, reason := r, errLive := x.st == .error && x.errLive })
    else if x.st = .error ∧ x.errLive then (0, (s.setStream n { x with st := .enabled, reason := 0, errLive := false }).flush n)
    else
      let last := (x.nextSeq + 2 ^ 32 - 1) % 2 ^ 32
      (0, s.setStream n { x with
        st := .enabled, reason := 0, errLive := false, committed := last, completed := last, sqHead := 0, sqTail := 0
        cqTail := 0, cqHead := 0, stalled := false, held := [], recs := [], done := [], irqLast := none, irqWait := false
        bmeWait := false, portWait := (s.port (fnOfEntry x.fn).port).failed })

/-- STR_CTL 2 (R402): the stream drains. -/
def State.disableStream (s : State) (n : Nat) : Nat × State :=
  let x := s.stream n
  match x.st with
  | .disabled => (0, s)
  | .draining => (5, s)
  | _ => (0, (s.setStream n { x with st := .draining }).flush n)

/-- Jobs of a stream that a stream reset ends: receipted, not DOMAIN, not bound (R514 step 2). -/
def State.resetJobs (s : State) (n : Nat) : State :=
  (s.jobs.filter fun j => j.stream == n && !j.domain && j.st == .queued).foldl (fun s j => s.finishJob j.idx 0x09 0) s

/-- STR_CTL 3 (R514): a stream reset. -/
def State.resetStream (s : State) (n : Nat) : Nat × State :=
  let x := s.stream n
  if x.st = .disabled then (0, s)
  else (0, ((s.setStream n { x with st := .draining, resetting := true }).resetJobs n).flush n)

end Sys2Proof.Machine
end

