-- ==== Sys2Proof/Machine/DomainCtl.lean ====
section
/-! DEFINITION. Schedule domains (R326, R349, R380..R390, R412): reception of domain-control messages, joining and leaving,
admission, the lead and its loss, abandonment across packages. -/

namespace Sys2Proof.Machine

/-! ## Reception (R383) -/

/-- A message is a duplicate: its MSEQ lies within 2^15 behind the last one accepted from its source (R383). -/
def State.isDuplicate (s : State) (d : DHdr) : Bool :=
  match mget 0 s.dom.mseqIn d.src with
  | 0 => false
  | n + 1 => decide ((n + 65536 - d.mseq % 65536) % 65536 ≤ 32768)

/-- Forward a message for another package (R383), or drop it and count it. -/
def State.forwardDctl (s : State) (j : Nat) (d : DHdr) (subtype : Nat) (fields : List Nat) : State :=
  match s.dctlLink d.dst with
  | some k => if (s.link k).up && (s.link k).session then s.txFrame k 0 (.dctl d subtype fields) else s.noRoute j
  | none => s.noRoute j

/-- Receive a domain-control message (R383): forward it, drop a duplicate, or act on it while the part runs. -/
def State.receiveDctl (s : State) (r : Rx) (d : DHdr) (subtype : Nat) (fields : List Nat) (k : State → State) : State :=
  s.receive r true false fun s =>
    if d.dst != s.dom.pkgAddr then s.forwardDctl r.link d subtype fields
    else if s.isDuplicate d then s
    else
      let s := { s with dom := { s.dom with mseqIn := mset 0 s.dom.mseqIn d.src (d.mseq % 65536 + 1) } }
      if s.running then k s else s

/-- A frame of an unlisted SUBTYPE is dropped and counted (R367, R384); a domain-control one for another package travels on. -/
def State.badSubtype (s : State) (rx : Rx) (head : Option (DHdr × List Byte)) (subtype : Nat) : State :=
  let count (s : State) : State := s.modLink rx.link fun l => { l with txErr := l.txErr + 1 }
  match head with
  | none => s.receive rx true true count
  | some (d, body) => s.receive rx true false fun s =>
      if d.dst != s.dom.pkgAddr then s.forwardDctl rx.link d subtype (body.map (·.toNat)) else count s

/-- UNCORRECTABLE_CODEWORD: a codeword the decoder cannot correct, or a frame of an unlisted TYPE or SUBTYPE (R362, R364, R367,
R384). -/
def execUncorrectableCodeword (f : BadFrame) (s : State) : Res :=
  need f.wf "link" <|
    .next (match f with
      | .codeword j =>
        if (s.link j).carries then
          (s.modLink j fun l => { l with fecUncorr := bump l.fecUncorr, txErr := l.txErr + 1 }).dropFrame j
        else s
      | .badType j =>
        if (s.link j).carries then (s.modLink j fun l => { l with txErr := l.txErr + 1 }).dropFrame j else s
      | .badSubtype rx head subtype => s.badSubtype rx head subtype)

/-- The number that bytes spell, for a message field. -/
def digestNat (bs : List Byte) : Nat := leNat bs

/-- Members of a mask of 512 bits (R384). -/
def maskMembers (m : Nat) : List Nat := (List.range 512).filter fun p => bit m p

/-- Act on a message from the lead. -/
def State.fromLead (s : State) (d : DHdr) (k : State → State) : State :=
  if s.dom.st == .member && d.src == s.dom.lead then k s else s

/-- Act on a message that reaches the lead. -/
def State.atLead (s : State) (k : State → State) : State := if s.isLead then k s else s

/-! ## Joining and leaving (R340, R380, R387) -/

/-- Send JOIN to a lead (R380). -/
def State.sendJoinTo (s : State) (lead : Nat) : State := match s.plan with
  | none => s
  | some p =>
    let s := { s with dom := { s.dom with st := .joining, lead := lead, leaveReason := 0 } }
    s.sendDctl lead 1 [p.planId, digestNat p.domainDigest]

/-- Send JOIN to the plan's lead (R380). -/
def State.sendJoin (s : State) : State := match s.plan with
  | none => s
  | some p => s.sendJoinTo p.lead

/-- The second that a joiner loads: that of the next PPS edge (R340, R380). -/
def State.nextSecond (s : State) : Nat := (s.tm.now / 1000000000 + 1) * 1000000000

/-- The lead answers a JOIN; it binds DOMAIN slots from the joiner's first member epoch on (R380, R384, R387). -/
def State.answerJoin (s : State) (d : DHdr) (digest : List Byte) : State :=
  let mine := match s.plan with
    | some p => p.domainDigest
    | none => []
  if mine != digest then s.sendDctl d.src 3 [0x43]
  else if s.dom.members.contains d.src then s.sendDctl d.src 3 [0x40]
  else
    let ms := s.dom.members ++ [d.src]
    let e := (s.epoch + 4) % 2 ^ 32
    let s := { s with dom := { s.dom with members := ms, bindFrom := e } }
    s.sendDctl d.src 2 [e, 0, s.nextSecond, memberMask ms]

/-- JOIN (R380). -/
def execJoin (rx : Rx) (d : DHdr) (planId : Nat) (digest : List Byte) (s : State) : Res :=
  need rx.wf "link" <|
    .next (s.receiveDctl rx d 1 [planId, digestNat digest] fun s => s.atLead fun s => s.answerJoin d digest)

/-- The distance of a time from the nearest whole second, in ns (R344). -/
def toSecond (x : Int) : Int := x - 1000000000 * roundDiv x 1000000000

/-- The time base is loaded (R340, R345): epochs already worked through are not worked again, a switch that is pending
keeps its distance, and offsets measured before stay comparable. -/
def State.setClock (s : State) (v : Nat) : State :=
  let old := s.tm.now / epochNs
  let new := v / epochNs
  let move : Int := (v : Int) - s.tm.now
  let shift (e : Nat) : Nat := (e + 2 ^ 32 - old % 2 ^ 32 + new) % 2 ^ 32
  let bad : List (Int × Nat) := s.tm.badRun.map fun b => (b.1 + toSecond move, ((b.2 : Int) + move).toNat)
  { s with
    tm := { s.tm with
      now := v, edge := new, hold := 0, lastStep := none, dueStep := none, badRun := bad
      lastValid := s.tm.lastValid.map fun l => (l.1 + toSecond move, ((l.2 : Int) + move).toNat) }
    vs := { s.vs with
      pending := s.vs.pending.map fun p => (p.1, shift p.2)
      announced := s.vs.announced.map fun a => (a.1, a.2.1, shift a.2.2) } }

/-- A whole-second value is loaded at the next valid PPS edge when PPS_STATE reads LOCKED, else at once (R340). -/
def State.loadSecond (s : State) (v : Nat) : State :=
  if s.tm.pps = .locked then { s with tm := { s.tm with timeSet := v, setPending := true } }
  else { s with tm := { s.tm with timeSet := v, setPending := false } }.setClock v

/-- Residency of every refresh key that a job of the domain needs, reported after a join (R385). -/
def State.reportResidency (s : State) : State :=
  (s.keys.filter fun k => k.kind == 5 && s.domainNeeds k.tenant k.id).foldl
    (fun s k => s.tellResident k.tenant k.id k.resident) s

/-- The joiner is accepted (R380): while it enables, it loads the second and its check may end; later it is a member. -/
def State.takeAccept (s : State) (d : DHdr) (firstEpoch second : Nat) (members : List Nat) : State :=
  let dom := { s.dom with lead := d.src, members := members, firstEpoch := firstEpoch, noTick := 0, bindFrom := firstEpoch }
  let s := { s with dom := dom }
  if s.en.on then State.reportResidency { s with dom := { s.dom with st := .member } }
  else ({ s with en := { s.en with accepted := true } }).loadSecond second

/-- ACCEPT (R380). -/
def execAccept (rx : Rx) (d : DHdr) (firstEpoch second : Nat) (members : List Nat) (s : State) : Res :=
  need rx.wf "link" <|
    .next (s.receiveDctl rx d 2 [firstEpoch, 0, second, memberMask members] fun s =>
      if s.dom.st == .joining && d.src == s.dom.lead then s.takeAccept d firstEpoch second members else s)

/-- The enable is refused (R431). -/
def State.refuseEnable (s : State) (code detail : Nat) : State :=
  { s with
    en := { s.en with st := 3, reason := code, detail := detail, accepted := false }
    dom := if s.dom.st = .joining then { s.dom with st := .standalone } else s.dom }

/-- The detail of R357: instance, index, subindex. -/
def enDetail (inst index sub : Nat) : Nat := inst * 2 ^ 24 + index * 256 + sub

/-- A join is answered by a code of R390: the enable is refused with it, and a member that had left stays out. -/
def State.joinFailed (s : State) (code : Nat) : State :=
  if s.en.on then { s with dom := { s.dom with st := .left } }
  else if code = 0x40 then s.refuseEnable 0x40 (enDetail 0xFF 0x8100 1)
  else if code = 0x43 then s.refuseEnable 0x43 (enDetail 0xFF 0x5000 6)
  else s.refuseEnable 0x44 (enDetail 0xFF 0x8100 3)

/-- JOIN_REFUSED (R384, R390). -/
def execJoinRefused (rx : Rx) (d : DHdr) (reason : Nat) (s : State) : Res :=
  need rx.wf "link" <|
    .next (s.receiveDctl rx d 3 [reason] fun s =>
      if s.dom.st == .joining && d.src == s.dom.lead then s.joinFailed reason else s)

/-- ACCEPT_TIMEOUT: no ACCEPT within 1 s (R390). -/
def execAcceptTimeout (s : State) : Res :=
  arises (s.dom.st == .joining && !s.en.accepted) "no JOIN waits for its ACCEPT" <| .next (s.joinFailed 0x44)

/-- LEAVE (R387). -/
def execLeave (rx : Rx) (d : DHdr) (reason : Nat) (s : State) : Res :=
  need rx.wf "link" <| .next (s.receiveDctl rx d 10 [reason] fun s => s.atLead fun s => s.memberGone d.src)

/-- DOMAIN_REJOIN: fit for 3 consecutive seconds after it left, a member joins again (R387), at the lead that it knows; a former
lead joins the deputy that took its place (R388). -/
def execDomainRejoin (s : State) : Res :=
  arises (s.dom.st == .left && s.plan.any (·.domain)) "the package has not left a domain" <|
    .next (if s.working && s.en.st == 2 then
        s.sendJoinTo (if s.dom.lead = s.dom.pkgAddr then s.dom.deputy else s.dom.lead)
      else s)

/-! ## Admission (R381) -/

/-- READY (R381). -/
def execReady (rx : Rx) (d : DHdr) (jobId prog tenant : Nat) (s : State) : Res :=
  need rx.wf "link" <|
    .next (s.receiveDctl rx d 4 [jobId, prog, tenant] fun s => s.atLead fun s =>
      (s.noteReady d.src jobId prog tenant).leadCheck jobId)

/-- REFUSE: at the lead it refuses the job to every member, at a member it completes the job (R381). -/
def execRefuse (rx : Rx) (d : DHdr) (jobId code : Nat) (s : State) : Res :=
  need rx.wf "link" <|
    .next (s.receiveDctl rx d 5 [jobId, code] fun s =>
      if s.isLead then s.leadRefuse jobId else s.fromLead d fun s => s.refuseDomain jobId)

/-- ADMIT (R381). -/
def execAdmit (rx : Rx) (d : DHdr) (jobId aseq : Nat) (s : State) : Res :=
  need rx.wf "link" <|
    .next (s.receiveDctl rx d 6 [jobId, aseq] fun s => s.fromLead d fun s => s.admitDomain jobId aseq)

/-- ADMIT_WAIT_EXPIRY: ADMIT_WAIT epochs have passed since a job's first READY (R381). -/
def execAdmitWaitExpiry (jobId : Nat) (s : State) : Res :=
  match s.dom.leadJobs.find? fun l => l.jobId == jobId && l.aseq.isNone with
  | some l =>
    arises s.isLead "this package does not lead" <|
      .next (
        let wait := match s.route with
          | some r => r.admitWait
          | none => 0
        (s.reach ((l.since + wait) * epochNs)).leadRefuse jobId)
  | none => .refused (.cannotArise "the lead waits for no READY of the job")

/-! ## Binding, ticks, residency, variants (R315, R326, R384, R385) -/

/-- BIND (R315). -/
def execBind (rx : Rx) (d : DHdr) (epoch slot : Nat) (es : List BindEntry) (s : State) : Res :=
  need rx.wf "link" <|
    .next (s.receiveDctl rx d 7 ([epoch, slot, es.length] ++ es.flatMap fun b => [b.jobId, b.bpos, b.inc]) fun s =>
      s.fromLead d fun s =>
        let rest := s.dom.binds.filter fun m => !(m.epoch == epoch && m.slot == slot)
        { s with dom := { s.dom with binds := rest ++ [{ epoch := epoch, slot := slot, es := es }] } })

/-- TICK (R384). -/
def execTick (rx : Rx) (d : DHdr) (lead deputy admitted : Nat) (members : List Nat) (s : State) : Res :=
  need rx.wf "link" <|
    .next (s.receiveDctl rx d 8 [lead, deputy, admitted, memberMask members] fun s => s.fromLead d fun s =>
      { s with dom := { s.dom with lead := lead, deputy := deputy, members := members, noTick := 0 } })

/-- RESIDENT (R385). -/
def execResident (rx : Rx) (d : DHdr) (tenant keyId st : Nat) (s : State) : Res :=
  need rx.wf "link" <|
    .next (s.receiveDctl rx d 14 [tenant, keyId, st] fun s => s.atLead fun s =>
      let rest := s.dom.resident.filter fun e => e != (d.src, tenant, keyId)
      { s with dom := { s.dom with resident := if st = 1 then rest ++ [(d.src, tenant, keyId)] else rest } })

/-- A package's decision of a switch takes its place among the announced ones (R326). -/
def State.noteSwitch (s : State) (origin variant e : Nat) : State :=
  { s with vs := { s.vs with announced := (origin, variant, e) :: s.vs.announced.filter fun a => a.1 != origin } }

/-- VDECIDE (R326). -/
def execVdecide (rx : Rx) (d : DHdr) (variant e : Nat) (s : State) : Res :=
  need rx.wf "link" <|
    .next (s.receiveDctl rx d 11 [variant, e] fun s => s.atLead fun s =>
      (s.noteSwitch d.src variant e).sendMembers 12 [d.src, variant, e])

/-- VANNOUNCE (R326). -/
def execVannounce (rx : Rx) (d : DHdr) (origin variant e : Nat) (s : State) : Res :=
  need rx.wf "link" <|
    .next (s.receiveDctl rx d 12 [origin, variant, e] fun s => s.fromLead d fun s =>
      (s.noteSwitch origin variant e).acknowledgeSwitch (origin, e))

/-- VACK (R326). -/
def execVack (rx : Rx) (d : DHdr) (origin e : Nat) (s : State) : Res :=
  need rx.wf "link" <|
    .next (s.receiveDctl rx d 13 [origin, e] fun s => s.atLead fun s =>
      { s with dom := { s.dom with vacks := (s.dom.vacks.filter fun a => a != (d.src, origin, e)) ++ [(d.src, origin, e)] } })

/-! ## Abandonment and failed inputs (R386, R412) -/

/-- An incarnation that the domain abandons is abandoned here (R323, R386): counted unless R385 or R328 is the cause. -/
def State.abandonHere (s : State) (jobId inc cause : Nat) : State :=
  match s.jobs.find? fun j => j.domain && j.jobId == jobId && j.inc == inc && (j.st == .bound || j.st == .queued) with
  | none => s
  | some j =>
    if cause = 11 ∨ cause = 12 then s.returnJob j.idx true
    else s.countedReturn j.idx 0 (if cause = 13 then 2 else cause)

/-- ABANDON: the lead forwards it, and every member abandons the incarnation (R386). -/
def execAbandon (rx : Rx) (d : DHdr) (jobId inc cause : Nat) (s : State) : Res :=
  need rx.wf "link" <|
    .next (s.receiveDctl rx d 9 [jobId, inc, cause] fun s =>
      if s.isLead then (s.sendMembers 9 [jobId, inc, cause]).abandonHere jobId inc cause
      else s.fromLead d fun s => s.abandonHere jobId inc cause)

/-- A domain job's input is invalid on another member (R412). -/
def State.failHere (s : State) (jobId inc detail : Nat) : State :=
  match s.jobs.find? fun j => j.domain && j.jobId == jobId && j.inc == inc && j.st == .bound with
  | none => s
  | some j => match s.runOfJob j.idx with
    | none => s
    | some r =>
      if r.bad.any fun b => b.1 == j.bpos then s else s.modRun r fun r => { r with bad := r.bad ++ [(j.bpos, detail)] }

/-- FAILJOB: the lead forwards it, and every member treats the position as unfilled (R412). -/
def execFailjob (rx : Rx) (d : DHdr) (jobId inc status detail : Nat) (s : State) : Res :=
  need rx.wf "link" <|
    .next (s.receiveDctl rx d 17 [jobId, inc, status, detail] fun s =>
      if s.isLead then (s.sendMembers 17 [jobId, inc, status, detail]).failHere jobId inc detail
      else s.fromLead d fun s => s.failHere jobId inc detail)

/-! ## The loss of the lead (R387, R388) -/

/-- Jobs of the domain that this package holds, with ASEQ or 0 for a PENDING one (R384). -/
def State.heldJobs (s : State) : List (Nat × Nat) :=
  (s.jobs.filter fun j => j.domain && j.st != .finished).map fun j => (j.jobId, if j.receipt.isSome then j.aseq else 0)

/-- The lead's list of jobs after a collection, in admission-sequence order (R388). -/
def State.rebuild (s : State) (reported : List (Nat × Nat)) : State :=
  let ad := sortBy (·.2) (((s.heldJobs ++ reported).filter fun e => e.2 != 0).eraseDups)
  let top := ad.foldl (fun m e => max m e.2) s.dom.aseq
  let entry (e : Nat × Nat) : LeadJob :=
    let j := (s.jobs.find? fun j => j.domain && j.jobId == e.1).getD {}
    { jobId := e.1, prog := j.prog, tenant := j.tenant, ready := s.dom.members, since := s.tm.now / epochNs, aseq := some e.2 }
  let old := s.dom.leadJobs.filter fun l => l.aseq.isNone && !ad.any fun e => e.1 == l.jobId
  let order (j : Job) : Job := if j.domain && j.aseq != 0 && j.st == .queued then { j with order := 2 ^ 61 + j.aseq } else j
  let s := { s with
    jobs := s.jobs.map order
    dom := { s.dom with
      aseq := top, leadJobs := ad.map entry ++ old, qcollect := none, bindFrom := (s.epoch + 4) % 2 ^ 32 } }
  let live := s.jobs.filter fun j => j.domain && j.st == .bound
  live.foldl (fun s j => s.abandonJob j.idx true 0 2 2) s

/-- The collection ends when every reachable member has sent its last report (R388). -/
def State.collectCheck (s : State) : State :=
  match s.dom.qcollect with
  | none => s
  | some (done, jobs) =>
    let reach (p : Nat) : Bool := match s.dctlLink p with
      | some j => (s.link j).up
      | none => false
    if (s.dom.members.filter fun p => p != s.dom.pkgAddr && reach p).all done.contains then s.rebuild jobs else s

/-- The deputy becomes lead and collects the queues (R388). -/
def State.takeLead (s : State) : State :=
  let ms := s.dom.members.filter fun p => p != s.dom.lead
  let s := { s with dom := { s.dom with
      lead := s.dom.pkgAddr, members := ms, noTick := 0, qcollect := some ([], []), leadJobs := [], resident := [] } }
  let s := (s.jobs.filter fun j => j.domain && j.st == .pending).foldl
    (fun s j => s.noteReady s.dom.pkgAddr j.jobId j.prog j.tenant) s
  (s.sendMembers 15 [0]).collectCheck

/-- LEAD_LOST: 100 epochs in a row without TICK (R387, R388): the deputy becomes lead, another member follows it, and one
that cannot reach it leaves. -/
def execLeadLost (s : State) : Res :=
  arises (s.dom.st == .member && !s.isLead && decide (100 ≤ s.dom.noTick)) "the lead's TICK is not missing" <|
    .next (
      if s.dom.deputy == s.dom.pkgAddr then s.takeLead
      else
        let ok := match s.dctlLink s.dom.deputy with
          | some j => (s.link j).up && s.dom.deputy != s.dom.lead
          | none => false
        if ok then { s with dom := { s.dom with lead := s.dom.deputy, noTick := 0 } } else s.leaveDomain 3)

/-- One QREPORT of up to 14 entries for each piece of the held jobs, the last marked (R384). -/
def State.sendReports (s : State) (dst : Nat) : State :=
  let js := s.heldJobs
  let n := max 1 ((js.length + 13) / 14)
  (List.range n).foldl (fun s i =>
    let es := (js.drop (14 * i)).take 14
    s.sendDctl dst 16 ([i, b2n (i + 1 == n), es.length] ++ es.flatMap fun e => [e.1, e.2])) s

/-- QREQ: a member answers its new lead, the deputy (R388). -/
def execQreq (rx : Rx) (d : DHdr) (s : State) : Res :=
  need rx.wf "link" <|
    .next (s.receiveDctl rx d 15 [0] fun s =>
      if s.dom.st == .member && (d.src == s.dom.deputy || d.src == s.dom.lead) then
        State.sendReports { s with dom := { s.dom with lead := d.src, noTick := 0 } } d.src
      else s)

/-- QREPORT: the new lead collects (R388). -/
def execQreport (rx : Rx) (d : DHdr) (frag : Nat) (lastFrag : Bool) (es : List (Nat × Nat)) (s : State) : Res :=
  need rx.wf "link" <|
    .next (s.receiveDctl rx d 16 ([frag, b2n lastFrag, es.length] ++ es.flatMap fun e => [e.1, e.2]) fun s =>
      s.atLead fun s => match s.dom.qcollect with
        | none => s
        | some (done, jobs) =>
          let all := jobs ++ es.filter fun e => e.2 != 0
          let who := if lastFrag then d.src :: done else done
          let dom : Domain := { s.dom with qcollect := some (who, all) }
          let s : State := { s with dom := dom }
          let s := (es.filter fun e => e.2 == 0).foldl (fun s e =>
            let j := (s.jobs.find? fun j => j.domain && j.jobId == e.1).getD {}
            s.noteReady d.src e.1 j.prog j.tenant) s
          s.collectCheck)

end Sys2Proof.Machine
end

