-- ==== Sys2Proof/Machine/Ports.lean ====
section
/-! DEFINITION. The host ports: Bus Master Enable and MSI-X (R413), a port's failure and return (R418), the port reset
(R513), the release of PERSTn_N (R504) and the Function Level Reset (R515). -/

namespace Sys2Proof.Machine

/-! ## Functions and streams -/

/-- Streams whose current function satisfies a test, by number. -/
def State.streamsOn (s : State) (f : FnId → Bool) : List Nat :=
  (s.streams.filter fun e => f (fnOfEntry e.2.fn)).map (·.1)

/-- Change every stream whose current function satisfies a test. -/
def State.modStreams (s : State) (f : FnId → Bool) (g : Stream → Stream) : State :=
  (s.streamsOn f).foldl (fun s n => s.modStream n g) s

/-- A requester's selectors return to their defaults at its next access (R423). -/
def State.dropSels (s : State) (p : Requester → Bool) : State := { s with sels := s.sels.filter fun e => !p e.1 }

/-- A snapshot whose holder is reset is released (R437). -/
def State.dropSnap (s : State) (p : Requester → Bool) : State :=
  { s with snap := s.snap.filter fun x => !p x.holder }

/-- Uploads, submissions and partial-decryption reads in progress through a function end as a host access fault (R515). -/
def State.failHostReads (s : State) (p : FnId → Bool) : State :=
  let tens : SMap Tenant := s.tenants.map fun e =>
    let t := e.2
    let hit := p (fnOfEntry t.homeFn)
    (e.1, { t with
      upFault := t.upFault || (t.keyLoad == 2 && p (fnOfEntry t.upFn))
      submitFault := t.submitFault || (t.submitSt == 1 && hit)
      pdecFault := t.pdecFault || (t.pdecRun == 2 && hit) })
  { s with tenants := tens }

/-! ## MSI-X (R413) -/

/-- Send the pending messages that may leave now: Bus Master Enable set and the vector unmasked (R413). -/
def State.sendPending (s : State) (f : FnId) : State :=
  let x := s.fn f
  if x.bme then
    let go := x.pend &&& ~~~x.mask
    let s := s.setFn f { x with pend := x.pend &&& x.mask }
    ((List.range 32).filter fun v => go.getLsbD v).foldl (fun s v => s.send (x.message f v)) s
  else s

/-- The virtual functions of a port that SR-IOV enables (R391): functions 1 to `n`. -/
def State.setVfs (s : State) (port n : Nat) : State :=
  (List.range 64).foldl (fun s k =>
    let f : FnId := ⟨port, k⟩
    if (s.fn f).present == decide (k ≤ n) then s else s.setFn f { s.fn f with present := decide (k ≤ n) }) s

/-- BUS_MASTER_ENABLE_SET: held records of the function's streams and its pending messages go out (R413, R513, R515); a function
0 enables its port's virtual functions with it (R391, log 96). -/
def execBusMasterEnableSet (e : FnEnable) (s : State) : Res :=
  let f := e.fn
  need e.wf "function" <|
    .next (
      if s.powered && (s.fn f).present && (s.port f.port).linkUp then
        let s := if f.fn = 0 then s.setVfs f.port e.vfs else s
        let s := s.setFn f { s.fn f with bme := true }
        let ns := s.streamsOn (· == f)
        let s := ns.foldl (fun s n => (s.modStream n fun x => { x with bmeWait := false }).flush n) s
        s.sendPending f
      else s)

/-- MSIX_UNMASK: the host writes the vector's table entry with its mask clear, and a pending message is sent (R392, R413). -/
def execMsixUnmask (f : FnId) (v : MsixVec) (s : State) : Res :=
  need (f.wf && v.wf) "MSI-X vector" <|
    .next (
      if s.powered && (s.fn f).present && (s.port f.port).linkUp then
        let x := s.fn f
        (s.setFn f { x with
          mask := x.mask &&& ~~~((1 : BitVec 32) <<< v.vec), msi := mset (0, 0) x.msi v.vec (v.addr, v.data) }).sendPending f
      else s)

/-! ## BAR0 (R392) -/

/-- Bytes 0 to 15 of an entry of a function's MSI-X table: address, data, mask. -/
def Fn.msixEntry (x : Fn) (vec : Nat) : List Byte :=
  let m := mget (0, 0) x.msi vec
  leBytes 8 m.1 ++ leBytes 4 m.2 ++ leBytes 4 (if x.mask.getLsbD vec then 1 else 0)

/-- A byte of BAR0 above the mailbox and the doorbells (R392): the MSI-X table, its pending bits, and 0 outside the ranges. -/
def Fn.bar0Byte (x : Fn) (off : Nat) : Byte :=
  if 0xC0000 ≤ off ∧ off < 0xC0200 then (x.msixEntry ((off - 0xC0000) / 16)).getD (off % 16) 0
  else if 0xC1000 ≤ off ∧ off < 0xC1008 then (leBytes 8 x.pend.toNat).getD (off - 0xC1000) 0
  else 0

/-! ## Failure and return of a port (R418) -/

/-- Write every record that is not final again at its position, with identical bytes (R417, R418). -/
def State.rewriteRecords (s : State) (n : Nat) : State :=
  (s.stream n).recs.foldl (fun s r =>
    let x := s.stream n
    match s.hostWrite (fnOfEntry x.fn) (s.streamPasid x) (x.cqAddr + 32 * (r.1 % 2 ^ x.cqLog2))
        (recBytes r.2 (phaseOf r.1 x.cqLog2)) with
    | some t => t
    | none => s.streamFault n) s

/-- A stream of a failed port (R418): it moves to its alternate function and its bound jobs return, or it is held; on an
alternate function whose port has failed too its records wait for that port. -/
def State.failStream (s : State) (n : Nat) : State :=
  let x := s.stream n
  if x.altFn = 0xFFFF then s.setStream n { x with portWait := true }
  else
    let gone := (s.port (fnOfEntry x.altFn).port).failed
    let s := s.setStream n { x with fn := x.altFn, bmeWait := false, portWait := gone }
    let s := s.reopenJobs (List.range 8) fun j => j.stream == n
    let js := s.jobs.filter fun j => j.stream == n && j.st == .bound
    let s := js.foldl (fun s j => s.abandonJob j.idx true 0 2 2) s
    if gone then s else ((s.rewriteRecords n).writeStatus n).flush n

/-- HOST_PORT_FAILURE: a port's link was down for 100 ms, or it reported an uncorrectable error (R418). -/
def execHostPortFailure (port : Nat) (s : State) : Res :=
  need (decide (port < 2)) "host port" <|
    .next (
      if s.powered then
        let ns := s.streamsOn fun f => f.port == port
        let s := s.setPort port { s.port port with failed := true, linkUp := false }
        ns.foldl State.failStream s
      else s)

/-- HOST_PORT_RETURN: the link of a failed port comes up again; held streams write the records that are not final again,
then those that waited, and read descriptors (R417, R418). -/
def execHostPortReturn (port : Nat) (s : State) : Res :=
  need (decide (port < 2)) "host port" <|
    .next (
      if s.powered && !(s.port port).perst then
        let s := s.setPort port { s.port port with failed := false, linkUp := true, cfgLoaded := true }
        let ns := s.streamsOn fun f => f.port == port
        ns.foldl (fun s n =>
          if (s.stream n).portWait then ((s.modStream n fun x => { x with portWait := false }).rewriteRecords n).flush n else s) s
      else s)

/-! ## Resets of ports and functions (R504, R513, R515) -/

/-- PERST_RELEASE: the port trains its link and answers configuration requests (R504). -/
def execPerstRelease (port : Nat) (s : State) : Res :=
  need (decide (port < 2)) "host port" <|
    .next (
      if s.powered && (s.port port).perst then
        s.setPort port { s.port port with perst := false, linkUp := true, cfgLoaded := true }
      else s)

/-- A function whose configuration space and MSI-X table are reset. -/
def Fn.clearConfig (x : Fn) : Fn := { x with bme := false, mask := 0xFFFFFFFF, pend := 0, msi := [] }

/-- The configuration spaces and MSI-X tables of a port's functions return to their reset state, and their selector copies
to their defaults; the records of their streams wait for Bus Master Enable (R513). -/
def State.clearPort (s : State) (port : Nat) : State :=
  let mine (f : FnId) : Bool := f.port == port
  let fns : SMap Fn := s.fns.map fun e => (e.1, if e.1 / 64 = port then e.2.clearConfig else e.2)
  let s := { s with fns := fns }
  let holder (q : Requester) : Bool := match q with
    | .fn f => mine f
    | _ => false
  let s := (s.dropSels holder).dropSnap holder
  s.modStreams mine fun x => { x with bmeWait := true }

/-- PORT_RESET: PERSTn_N of one port asserted alone (R513). -/
def execPortReset (port : Nat) (s : State) : Res :=
  need (decide (port < 2)) "host port" <|
    .next (
      if s.powered then
        (s.setPort port { s.port port with perst := true, linkUp := false, cfgLoaded := false }).clearPort port
      else s)

/-- FUNCTION_LEVEL_RESET: the function's streams are reset, its mailbox request is abandoned and its reads fail (R515). -/
def execFunctionLevelReset (f : FnId) (s : State) : Res :=
  need f.wf "function" <|
    .next (
      if s.powered then
        let ns := s.streamsOn (· == f)
        let s := s.setFn f { (s.fn f).clearConfig with go := 0 }
        let me (q : Requester) : Bool := q == .fn f
        let s := ((s.dropSels me).dropSnap me).failHostReads (· == f)
        let s := s.modStreams (· == f) fun x => { x with bmeWait := true }
        ns.foldl (fun s n => (s.resetStream n).2) s
      else s)

end Sys2Proof.Machine
end

