-- ==== Sys2Proof/Machine/Enable.lean ====
section
/-! DEFINITION. DEVICE_ENABLE (R431..R433): the consistency check with the tests of R357, R390, R420 and R433, the journal's
replay (R417), and the disable (R432). -/

namespace Sys2Proof.Machine

/-- What a test answers: the code and the detail of a refusal, none when it passes. -/
abbrev EnTest := Option (Nat × Nat)

/-- The first failure of tests in order. -/
def firstFail : List EnTest → EnTest
  | [] => none
  | some e :: _ => some e
  | none :: ts => firstFail ts

/-- A test: refuse with a code and a detail when the condition holds. -/
def refuseIf (c : Bool) (code detail : Nat) : EnTest := if c then some (code, detail) else none

/-- The loaded plan is a DOMAIN plan. -/
def State.domainPlan (s : State) : Bool := s.plan.any (·.domain)

/-- Links of the ROUTE section that have a peer, in order (R373). -/
def State.routeLinks (s : State) : List Nat := (List.range 32).filter fun j => (s.linkEnt j).isSome

/-- Tests 0x10..0x15 (R357). -/
def State.timeTests (s : State) : List EnTest :=
  let dom := s.domainPlan
  let slow := s.routeLinks.find? fun j => !(s.link j).flocked
  [ refuseIf (s.tm.refclk == .absent) 0x10 (enDetail 0xFF 0x7000 5),
    refuseIf (dom && s.tm.refclk == .spread) 0x11 (enDetail 0xFF 0x7000 5),
    refuseIf (dom && s.tm.pps != .locked) 0x12 (enDetail 0xFF 0x7000 6),
    if dom then slow.map (fun j => (0x13, enDetail j 0x7000 5)) else none,
    refuseIf (s.tm.pps == .locked && decide (1000 < s.tm.offset.natAbs)) 0x14 (enDetail 0xFF 0x7000 9),
    refuseIf s.tm.setPending 0x15 (enDetail 0xFF 0x7000 3) ]

/-- A link of the plan is not up, or too narrow (R390). -/
def State.linkWeak (s : State) (j : Nat) : Bool :=
  !(s.link j).up || decide ((s.link j).width < s.minLanes j)

/-- A trained peer differs from the link's entry, or the delay is too long (R390). -/
def State.linkWrong (s : State) (j : Nat) : Bool := match s.linkEnt j with
  | some e => (s.link j).peerPkg != e.peerPkg || (s.link j).peerLink != e.peerLink || decide (e.maxDelay < (s.link j).delay)
  | none => false

/-- Tests 0x40..0x42 (R390): what the package sees by itself. -/
def State.domainTests (s : State) : List EnTest :=
  if s.domainPlan then
    let pkg := match s.route with
      | some r => r.pkg
      | none => s.dom.pkgAddr
    [ refuseIf (s.dom.pkgAddr != pkg) 0x40 (enDetail 0xFF 0x8100 1),
      (s.routeLinks.find? s.linkWeak).map (fun j => (0x41, enDetail j (0x8000 + j) 1)),
      (s.routeLinks.find? s.linkWrong).map (fun j => (0x42, enDetail j (0x8000 + j) 4)) ]
  else []

/-- Tests 0x10..0x15, 0x27 and 0x40..0x42, in order (R433). -/
def State.firstTests (s : State) : EnTest :=
  firstFail (s.timeTests ++ [refuseIf s.plan.isNone 0x27 0] ++ s.domainTests)

/-- A stream's function is absent or may not master the bus (R420). -/
def State.fnBad (s : State) (v : Nat) : Bool := !(s.fn (fnOfEntry v)).present || !(s.fn (fnOfEntry v)).bme

/-- Tests 0x70 and 0x71 of the ENABLED streams, lowest number first (R420). -/
def State.hostTests (s : State) : List EnTest :=
  let es := s.streams.filter fun e => e.2.st == .enabled
  let bad := es.findSome? fun e =>
    if s.fnBad e.2.fn then some (0x70, e.1 * 65536 + 4)
    else if e.2.altFn != 0xFFFF && s.fnBad e.2.altFn then some (0x70, e.1 * 65536 + 5) else none
  let same := es.find? fun e => e.2.altFn != 0xFFFF && (fnOfEntry e.2.altFn).port == (fnOfEntry e.2.fn).port
  [bad, same.map fun e => (0x71, e.1 * 65536 + 5)]

/-- Tests 0x50, 0x51, 0x60, 0x61, 0x70 and 0x71, in order (R433). -/
def State.lastTests (s : State) : EnTest :=
  let lost := (List.range 6).filter fun k => (s.stack k).lost
  let low := lost.headD 0
  firstFail ([
    refuseIf (s.sec.entropy != .healthy) 0x50 (enDetail 0xFF 0x9000 0),
    refuseIf (s.sec.identity != 1) 0x51 (enDetail 0xFF 0x9000 0),
    refuseIf (s.mem.mrgRun == 1) 0x60 (enDetail 0xFF 0xB200 3),
    refuseIf (decide (2 ≤ lost.length)) 0x61 (enDetail low (0xA000 + 16 * low) 1)] ++ s.hostTests)

/-! ## Joining as part of the check (R380) -/

/-- The lead joins itself: the first member, at least four epochs ahead. -/
def State.joinSelf (s : State) : State :=
  let me := s.dom.pkgAddr
  let dep := match s.route with
    | some r => r.deputy
    | none => me
  let ms := if s.dom.members.contains me then s.dom.members else s.dom.members ++ [me]
  let e := (s.epoch + 4) % 2 ^ 32
  let dom : Domain := { s.dom with
    st := .joining, lead := me, deputy := dep, members := ms, firstEpoch := e, bindFrom := e, leaveReason := 0 }
  { s with dom := dom, en := { s.en with accepted := true } }

/-- JOIN to the plan's lead, or to itself (R380). -/
def State.startJoin (s : State) : State :=
  if (s.plan.map (·.lead)) == some s.dom.pkgAddr then s.joinSelf else s.sendJoin

/-- The check begins: a DOMAIN plan whose first tests pass sends its JOIN. -/
def State.beginCheck (s : State) : State :=
  let s : State := { s with en := { s.en with st := 1, accepted := false } }
  if s.domainPlan && s.firstTests.isNone then s.startJoin else s

/-- A write of 1 to DEVICE_ENABLE (R431): the status and the state. -/
def State.setEnable (s : State) : Nat × State :=
  if s.en.st = 1 ∨ s.en.st = 4 then (5, s)
  else if s.en.on then (0, s)
  else (0, s.beginCheck)

/-! ## The journal's replay (R417) -/

/-- Jobs to be returned: receipted, their COMPLETION not journalled, in the order in which they took their entries: that is
SEQ order in each stream. -/
def State.replayJobs (s : State) : List Job := s.jobs.filter fun j => j.receipt.isSome && j.st != .finished

/-- The records of a stream that are not final and its status block are written again (R417 steps 3, 4). -/
def State.replayStream (s : State) (n : Nat) : State :=
  if (s.stream n).st == .disabled then s else ((s.rewriteRecords n).writeStatus n).flush n

/-- The steps of R417 after a warm reset: later jobs are returned first to the head, so that receipts keep their order. -/
def State.replayJournal (s : State) : State :=
  let s := s.replayJobs.foldl (fun s j => (s.returnJob j.idx false).queueInstalls j) s
  let s := (s.streams.map (·.1)).foldl State.replayStream s
  { s with en := { s.en with replay := false } }

/-! ## The end of the check, and the disable -/

/-- The part is enabled (R431). -/
def State.enableOk (s : State) : State :=
  let n := s.usableLinks
  let hm := { s.hm with linksBase := if s.hm.baseTaken then s.hm.linksBase else n, baseTaken := true }
  let dom := if s.domainPlan then { s.dom with st := .member, noTick := 0 } else s.dom
  let en : Enable := { s.en with on := true, reason := 0, detail := 0, st := 2, time := s.tm.now, accepted := false }
  let s : State := { s with hm := hm, dom := dom, en := en, pw := { s.pw with part := .enabled } }
  let s := if s.en.replay then s.replayJournal else s
  let s := if s.domainPlan then s.reportResidency else s
  s.replaceCheck

/-- The check ends (R431). A DOMAIN plan that is accepted has passed the tests before 0x44; one whose first tests pass
only now sends its JOIN. -/
def State.endCheck (s : State) : State :=
  if s.en.accepted then
    match s.lastTests with
    | some e => s.refuseEnable e.1 e.2
    | none => s.enableOk
  else match s.firstTests with
    | some e => s.refuseEnable e.1 e.2
    | none =>
      if s.domainPlan then s.startJoin
      else match s.lastTests with
        | some e => s.refuseEnable e.1 e.2
        | none => s.enableOk

/-- ENABLE_CHECK_DONE (R431): with a DOMAIN plan the check waits for the lead's ACCEPT, or its absence (R390), and for the second
that an ACCEPT names to be loaded (R340). A part that has entered SAFE is not enabled: SAFE is left only by the resets of
R485. -/
def execEnableCheckDone (s : State) : Res :=
  arises (s.en.st == 1 && !(s.dom.st == .joining && !s.en.accepted) && !(s.en.accepted && s.tm.setPending))
    "no consistency check can end" <|
    .next (if s.running then s.endCheck else s)

/-- A write of 0 to DEVICE_ENABLE (R432). -/
def State.clearEnable (s : State) : Nat × State :=
  if s.en.st = 2 then (0, ({ s with en := { s.en with st := 4 } }).leaveDomain 4) else (0, s)

/-- The disable is complete: bound slots have ended (R432). -/
def State.disableDone (s : State) : State :=
  let part : PartState := if s.working then .standby else s.pw.part
  { s with
    en := { s.en with on := false, st := 0 }, pw := { s.pw with part := part }, tm := { s.tm with dueStep := none } }

/-- DISABLE_COMPLETE (R432): arises while DISABLING, once no slot is bound. -/
def execDisableComplete (s : State) : Res :=
  arises (s.en.st == 4 && !(s.runs.any fun r => !r.jobs.isEmpty && !r.abandoned)) "no disable can complete" <|
    .next s.disableDone

end Sys2Proof.Machine
end

