-- ==== Sys2Proof/Machine/Image.lean ====
section
/-! DEFINITION. Reading a plan image: its header, its directory and the records of its sections (R302..R309, R33, R47,
R170, R264, R269, R270, R274, R281, R373). -/

namespace Sys2Proof.Machine

/-- A flag of a word at a bit. -/
def flagAt (v n : Nat) : Bool := bit v n

/-- Bytes of an image are all zero. -/
def zeroAt (bs : List Byte) (off len : Nat) : Bool := (slice bs off len).all (· == 0)

/-- A directory entry (R303) and its position. -/
structure Sect where
  pos : Nat
  type : Nat
  count : Nat
  off : Nat
  len : Nat
  rsvdOk : Bool
  deriving DecidableEq, Repr

/-- The directory of an image (R303). -/
def directory (img : List Byte) : List Sect :=
  (List.range (field img 7 1)).map fun i =>
    let o := 256 + 32 * i
    { pos := i, type := field img o 1, count := field img (o + 4) 4, off := field img (o + 8) 8
      len := field img (o + 16) 8, rsvdOk := zeroAt img (o + 1) 3 && zeroAt img (o + 24) 8 }

/-- The section of a type. -/
def sectOf (img : List Byte) (type : Nat) : Option Sect := (directory img).find? fun x => x.type == type

/-- The bytes of a section; none when it is absent. -/
def sectBytes (img : List Byte) (type : Nat) : List Byte := match sectOf img type with
  | some x => slice img x.off x.len
  | none => []

/-- The records the directory counts in a section. -/
def sectCount (img : List Byte) (type : Nat) : Nat := match sectOf img type with
  | some x => x.count
  | none => 0

/-- Records of one size that stand one after another. -/
def records (bs : List Byte) (size n : Nat) : List (List Byte) := (List.range n).map fun i => slice bs (size * i) size

/-- A prime-book entry (R33). -/
def primeOf (bs : List Byte) : PrimeEntry :=
  let e := field bs 0 32
  { q := bits e 31 0, c64 := bits e 63 32, mu := bits e 96 64, kbits := bits e 102 97, role := bits e 104 103
    valid := bit e 105, logn2 := bits e 111 106, psi := bits e 159 128, psiInv := bits e 191 160
    nInv := bits e 223 192, raw := bs }

/-- A parameter-set record (R47). -/
def psetOf (bs : List Byte) : PSet :=
  { scheme := field bs 0 1, logn := field bs 1 1, lq := field bs 2 1, lp := field bs 3 1, checkIdx := field bs 4 1
    tIdx := field bs 5 1, flags := field bs 6 1, logDelta := field bs 7 1, t := field bs 8 4, dnum := field bs 12 1
    glweRank := field bs 13 1, lweN := field bs 14 2, lweLogq := field bs 16 1
    qIdx := (slice bs 32 64).map (·.toNat), pIdx := (slice bs 96 16).map (·.toNat)
    rsvdOk := zeroAt bs 17 15 && zeroAt bs 112 16 && decide (field bs 6 1 ≤ 1), raw := bs }

/-- A program record with its key requirements (R304). -/
def programOf (sect bs : List Byte) : Program :=
  let off := field bs 4 4
  let n := field bs 8 2
  let reqs := (List.range n).map fun i => slice sect (off + 8 * i) 8
  { prog := field bs 0 1, psets := field bs 1 1, flags := field bs 2 1, bmax := field bs 3 1, nin := field bs 10 2
    nout := field bs 12 2
    reqs := reqs.map fun r => { kind := field r 0 1, pset := field r 1 1, galois := field r 4 4 }
    rsvdOk := zeroAt bs 14 18 && decide (field bs 2 1 < 4) && reqs.all (fun r => zeroAt r 2 2) &&
      decide (n = 0 ∨ off + 8 * n ≤ sect.length) && decide (n ≤ 1024) }

/-- Rounded up to a multiple of 64. -/
def up64 (n : Nat) : Nat := (n + 63) / 64 * 64

/-- The code blocks of a CODE section, one after another (R305); a block that passes the section's end is not well
formed. -/
def codeFrom (bs : List Byte) : Nat → Nat → List CodeBlock
  | 0, _ => []
  | n + 1, off =>
    let el := field bs (off + 20) 4
    let al := field bs (off + 24) 4
    let c : CodeBlock :=
      { off := off, prog := field bs off 1, flags := field bs (off + 1) 1, vbase := field bs (off + 2) 1
        vmask := field bs (off + 4) 2, dieMask := field bs (off + 6) 1, arrayMask := field bs (off + 8) 8
        start := field bs (off + 16) 4, exec := slice bs (off + 64) el
        access := slice bs (off + 64 + up64 el) al
        rsvdOk := zeroAt bs (off + 3) 1 && zeroAt bs (off + 7) 1 && zeroAt bs (off + 28) 36 &&
          decide (field bs (off + 1) 1 ≤ 1) && decide (off + 64 + up64 el + up64 al ≤ bs.length) }
    c :: (if c.rsvdOk then codeFrom bs n (off + 64 + up64 el + up64 al) else [])

/-- A variant record (R307). -/
def variantOf (bs : List Byte) : Variant :=
  { num := field bs 0 1, gear := field bs 1 1, dieMask := field bs 2 1, pref := field bs 3 1, template := field bs 4 1
    cacheSteps := (slice bs 8 32).flatMap fun b => [b.toNat % 16, b.toNat / 16], hmap := field bs 40 2
    rsvdOk := zeroAt bs 5 3 && zeroAt bs 42 22 }

/-- A slot record (R308). -/
def slotOf (bs : List Byte) : SlotRec :=
  { slot := field bs 0 2, kind := field bs 2 1, prog := field bs 3 1, batch := field bs 4 1, dieMask := field bs 5 1
    arrayMask := field bs 8 8, start := field bs 16 4, length := field bs 20 4, slack := field bs 24 4
    tolerance := field bs 28 4, installBytes := field bs 32 8, hmap := field bs 40 2
    rsvdOk := zeroAt bs 6 2 && zeroAt bs 42 22 }

/-- The templates of a TEMPLATE section (R308). -/
def templatesFrom (bs : List Byte) : Nat → Nat → List Template
  | 0, _ => []
  | n + 1, off =>
    let k := field bs (off + 2) 2
    let inside := decide (off + 32 + 64 * k ≤ bs.length)
    let t : Template :=
      { num := field bs off 1, rate := field bs (off + 4) 4, depth := field bs (off + 8) 4
        slots := if inside then (records (bs.drop (off + 32)) 64 k).map slotOf else []
        rsvdOk := zeroAt bs (off + 1) 1 && zeroAt bs (off + 12) 20 && inside }
    t :: (if inside then templatesFrom bs n (off + 32 + 64 * k) else [])

/-- A handle entry (R239): the entry and whether its reserved bit is 0. -/
def handleOfNum (e : Nat) : Handle × Bool :=
  ({ kind := BitVec.ofNat 2 (bits e 127 126), slotScope := bit e 125, rwrite := bit e 124, sheaf := bit e 123
     evalDom := bit e 122, cst0 := BitVec.ofNat 4 (bits e 121 118), cst1 := BitVec.ofNat 4 (bits e 117 114)
     cst2 := BitVec.ofNat 4 (bits e 113 110), level := BitVec.ofNat 7 (bits e 109 103)
     pset := BitVec.ofNat 3 (bits e 102 100), npoly := BitVec.ofNat 2 (bits e 99 98), image := bit e 97
     length := BitVec.ofNat 32 (bits e 95 64), target := BitVec.ofNat 64 (bits e 63 0) }, !bit e 96)

/-- An entry of a handle map (R309). -/
def hmapEntOf (bs : List Byte) : HMapEnt :=
  let h := handleOfNum (field bs 16 16)
  { die := field bs 0 1, arr := field bs 1 1, handle := field bs 2 1, imageSrc := field bs 4 5, entry := h.1
    rsvdOk := zeroAt bs 3 1 && zeroAt bs 9 7 && h.2 }

/-- The handle maps of a HANDLES section (R309). -/
def hmapsFrom (bs : List Byte) : Nat → Nat → List HMap
  | 0, _ => []
  | n + 1, off =>
    let k := field bs (off + 8) 4
    let inside := decide (off + 16 + 32 * k ≤ bs.length)
    let m : HMap :=
      { map := field bs off 2, vmask := field bs (off + 2) 2, slotScope := field bs (off + 4) 1 == 1
        ents := if inside then (records (bs.drop (off + 16)) 32 k).map hmapEntOf else []
        rsvdOk := zeroAt bs (off + 5) 3 && zeroAt bs (off + 12) 4 && decide (field bs (off + 4) 1 ≤ 1) && inside }
    m :: (if inside then hmapsFrom bs n (off + 16 + 32 * k) else [])

/-- A tensor record (R264). -/
def tensorOf (bs : List Byte) : Tensor :=
  { id := field bs 0 2, dtype := field bs 2 1, rank := field bs 3 1, path := field bs 4 1, flags := field bs 5 1
    handle := field bs 6 1, shape := (List.range 4).map fun i => field bs (8 + 4 * i) 4
    stride := (List.range 3).map fun i => field bs (24 + 4 * i) 4, base := field bs 36 4
    rsvdOk := zeroAt bs 7 1 && zeroAt bs 40 24 && decide (field bs 5 1 < 8) }

/-- An owners entry (R270). -/
def ownEntOf (e : Nat) : OwnEnt :=
  { valid := bit e 63, overflow := bit e 62, pkg := bits e 61 53, die := bits e 52 50, arr := bits e 49 44
    handle := bits e 43 36, offset := bits e 35 0 }

/-- The owners tables of an OWNERS section (R269). -/
def ownersFrom (bs : List Byte) : Nat → Nat → List Owners
  | 0, _ => []
  | n + 1, off =>
    let k := field bs (off + 2) 2
    let inside := decide (off + 48 + 8 * k ≤ bs.length)
    let o : Owners :=
      { id := field bs off 1, rank := field bs (off + 1) 1, nblk := k, vmask := field bs (off + 4) 2
        tensor := field bs (off + 6) 2, bshape := (List.range 4).map fun i => field bs (off + 8 + 4 * i) 4
        bstride := (List.range 3).map fun i => field bs (off + 24 + 4 * i) 4
        ents := if inside then (records (bs.drop (off + 48)) 8 k).map fun r => ownEntOf (field r 0 8) else []
        raw := slice bs off (48 + 8 * k), rsvdOk := zeroAt bs (off + 36) 12 && inside }
    o :: (if inside then ownersFrom bs n (off + 48 + 8 * k) else [])

/-- An encoder-table entry (R274). -/
def encEntOf (e : Nat) : EncEnt :=
  { handle := bits e 63 56, shandle := bits e 55 48, code := bits e 47 46, sign := bit e 45, logspan := bits e 44 40
    dshift := bits e 39 34, sbase := bits e 33 11, raw := BitVec.ofNat 64 e }

/-- An encoder table with its 8-byte head (R303). -/
def encTableOf (bs : List Byte) : EncTable :=
  { vmask := field bs 0 2, die := field bs 2 1, arr := field bs 3 1
    ents := (List.range 16).map fun i => encEntOf (field bs (8 + 8 * i) 8) }

/-- An overflow record (R281). -/
def overflowOf (bs : List Byte) : Overflow :=
  { variant := field bs 0 1, gBytes := field bs 8 8, epochBytes := field bs 16 8, costNs := field bs 24 4
    rsvdOk := zeroAt bs 1 7 && zeroAt bs 28 4 }

/-- A COMPAT_MAP record (R170). -/
def compatOf (bs : List Byte) : Compat :=
  { codeOff := field bs 0 4, rver := field bs 4 1, nwords := field bs 8 4
    rsvdOk := zeroAt bs 6 2 && zeroAt bs 12 4 }

/-- A route entry (R373). -/
def routeEntOf (bs : List Byte) : RouteEnt :=
  { dst := field bs 0 2, srcDies := field bs 2 1
    paths := (List.range (min 3 (field bs 3 1))).map fun i =>
      { egress := field bs (8 + 8 * i) 1, chan := field bs (9 + 8 * i) 1, hops := field bs (10 + 8 * i) 1
        latNs := field bs (12 + 8 * i) 4 } }

/-- The ROUTE section (R373). -/
def routeOf (bs : List Byte) : Route :=
  let nr := field bs 4 2
  let nf := field bs 6 2
  { pkg := field bs 0 2, deputy := field bs 2 2, bindLead := field bs 8 4, admitWait := field bs 12 2
    links := (records (bs.drop 32) 8 32).map fun r =>
      { peerPkg := field r 0 2, peerLink := field r 2 1, minLanes := field r 3 1, maxDelay := field r 4 2 }
    routes := (records (bs.drop 288) 32 nr).map routeEntOf
    fwd := (records (bs.drop (288 + 32 * nr)) 8 nf).map fun r =>
      { inLink := field r 0 1, inChan := field r 1 1, outLink := field r 2 1, outChan := field r 3 1 } }

/-- The plan an image spells, before any test of the load check. -/
def planOf (img : List Byte) : Plan :=
  let prog := sectBytes img 3
  { planId := field img 8 8, realTime := bit (field img 6 1) 0, domain := bit (field img 6 1) 1
    imageLen := field img 16 8
    dataLen := match sectOf img 12 with | some x => x.len | none => 0
    regionBlocks := field img 24 4, refreshRegion := field img 28 4, domainSize := field img 32 2, lead := field img 34 2
    hostReadNs := field img 36 4, imageDigest := slice img 48 48, domainDigest := slice img 96 48
    primes := (records (sectBytes img 1) 32 80).map primeOf
    psets := (records (sectBytes img 2) 128 (field img 42 1)).map psetOf
    programs := (records prog 32 (field img 41 1)).map (programOf prog)
    code := codeFrom (sectBytes img 4) (sectCount img 4) 0
    variants := (records (sectBytes img 5) 64 (field img 40 1)).map variantOf
    templates := templatesFrom (sectBytes img 6) (sectCount img 6) 0
    hmaps := hmapsFrom (sectBytes img 7) (sectCount img 7) 0
    tensors := (records (sectBytes img 8) 64 (sectCount img 8)).map tensorOf
    owners := ownersFrom (sectBytes img 9) (sectCount img 9) 0
    encoders := (records (sectBytes img 10) 136 (sectCount img 10)).map encTableOf
    overflow := (records (sectBytes img 11) 32 (sectCount img 11)).map overflowOf
    route := (sectOf img 13).map fun x => routeOf (slice img x.off x.len)
    compat := (records (sectBytes img 14) 16 (sectCount img 14)).map compatOf }

end Sys2Proof.Machine
end

