-- ==== Sys2Proof/Machine/Words.lean ====
section
/-! DEFINITION. The decoding of code blocks at plan load (R167..R170, R191..R208, R537, R540): compressed long words,
access-stream words and Razavar words, with the reasons they are refused for. -/

namespace Sys2Proof.Machine

/-! ## Long words (R192..R204) -/

/-- The header of a command (R195). -/
def hdrOf (v : Nat) : Hdr :=
  { gap := BitVec.ofNat 14 (bits v 63 50), waitg := BitVec.ofNat 4 (bits v 49 46), nwid := bit v 45
    nsh := BitVec.ofNat 5 (bits v 44 40), narrow := bit v 39, act := BitVec.ofNat 2 (bits v 38 37), anchor := bit v 36
    verify := bit v 35, rescale := bit v 34, ptadd := bit v 33, sk := BitVec.ofNat 5 (bits v 32 28), sck := bit v 27
    scale := bit v 26, flagout := bit v 25, token := bit v 24, tag := BitVec.ofNat 24 (bits v 23 0) }

/-- The cell slot (R199). -/
def cellSlotOf (v : Nat) : CellSlot :=
  { opc := BitVec.ofNat 6 (bits v 63 58), bsrc := BitVec.ofNat 2 (bits v 57 56), k := BitVec.ofNat 5 (bits v 55 51)
    const := BitVec.ofNat 32 (bits v 31 0) }

/-- The network slot (R201). -/
def netSlotOf (v : Nat) : NetSlot :=
  { nopc := BitVec.ofNat 4 (bits v 23 20), dom := bit v 19, neg := bit v 18, gm := BitVec.ofNat 18 (bits v 17 0) }

/-- The vector slot (R202). -/
def vecSlotOf (v : Nat) : VecSlot :=
  { vopc := BitVec.ofNat 7 (bits v 63 57), type := BitVec.ofNat 3 (bits v 56 54), ttype := BitVec.ofNat 3 (bits v 53 51)
    rm := BitVec.ofNat 2 (bits v 50 49), ftz := bit v 48, s1 := BitVec.ofNat 2 (bits v 47 46)
    s2 := BitVec.ofNat 2 (bits v 45 44), s3 := BitVec.ofNat 2 (bits v 43 42), dest := bit v 41
    vrep := BitVec.ofNat 9 (bits v 40 32), const := BitVec.ofNat 32 (bits v 31 0) }

/-- The fold/accumulate slot (R200). -/
def accSlotOf (v : Nat) : AccSlot :=
  { aop := BitVec.ofNat 4 (bits v 31 28), e0 := BitVec.ofNat 6 (bits v 27 22), ediv := BitVec.ofNat 8 (bits v 21 14)
    fprime := BitVec.ofNat 7 (bits v 13 7), rep := BitVec.ofNat 7 (bits v 6 0) }

/-- The crib addressing slot (R198). -/
def cribSlotOf (v : Nat) : CribSlot :=
  { pset := BitVec.ofNat 3 (bits v 47 45), lpos := BitVec.ofNat 7 (bits v 44 38), nlimb := BitVec.ofNat 4 (bits v 37 34)
    arow := BitVec.ofNat 8 (bits v 33 26), brow := BitVec.ofNat 8 (bits v 25 18), drow := BitVec.ofNat 8 (bits v 17 10)
    rows := BitVec.ofNat 8 (bits v 9 2), xop := BitVec.ofNat 2 (bits v 1 0) }

/-- The queue slot (R204). -/
def queSlotOf (v : Nat) : QueSlot := { bind := BitVec.ofNat 6 (bits v 23 18), omode := BitVec.ofNat 2 (bits v 17 16) }

/-- A long word as it stands in the stream (R192, R193). -/
structure RawWord where
  hdr : Option Hdr := none
  chain : Bool := false
  w : LongWord
  size : Nat
  /-- the padding is 0 (R193); reserved fields are ignored (R7). -/
  padOk : Bool
  deriving DecidableEq, Repr

/-- Take a present slot of `n` bits off a compressed word: the slot and the rest. -/
def takeSlot (present : Bool) (n v : Nat) : Nat × Nat := if present then (v % 2 ^ n, v / 2 ^ n) else (0, v)

/-- The bits of a compressed word by its presence mask (R192, R193). -/
def wordBits (m : Nat) : Nat :=
  8 + 64 * b2n (bit m 6) + 64 * b2n (bit m 0) + 24 * b2n (bit m 1) + 64 * b2n (bit m 2) + 32 * b2n (bit m 3) +
    48 * b2n (bit m 4) + 24 * b2n (bit m 5)

/-- Decode the compressed word at an offset of a stream (R192, R193). -/
def rawWordAt (bs : List Byte) (off : Nat) : RawWord :=
  let v := field bs off 48
  let m := v % 256
  let size := (wordBits m + 31) / 32 * 4
  let v := v % 2 ^ (8 * size) / 256
  let h := takeSlot (bit m 6) 64 v
  let c := takeSlot (bit m 0) 64 h.2
  let n := takeSlot (bit m 1) 24 c.2
  let e := takeSlot (bit m 2) 64 n.2
  let a := takeSlot (bit m 3) 32 e.2
  let k := takeSlot (bit m 4) 48 a.2
  let q := takeSlot (bit m 5) 24 k.2
  { hdr := if bit m 6 then some (hdrOf h.1) else none
    chain := bit m 7
    w := { cell := if bit m 0 then some (cellSlotOf c.1) else none
           net := if bit m 1 then some (netSlotOf n.1) else none
           vec := if bit m 2 then some (vecSlotOf e.1) else none
           acc := if bit m 3 then some (accSlotOf a.1) else none
           crib := if bit m 4 then some (cribSlotOf k.1) else none
           que := if bit m 5 then some (queSlotOf q.1) else none }
    size := size
    padOk := q.2 == 0 }

/-- The cell operation of an opcode as a command of the table (R203). -/
def cellInstr (x : Exec) (opc : Nat) : Option Instr := match opc with
  | 0x01 => some (.cellMove x) | 0x02 => some (.cellMadd x) | 0x03 => some (.cellMsub x) | 0x04 => some (.cellMneg x)
  | 0x05 => some (.cellMscal x) | 0x06 => some (.cellMmul x) | 0x07 => some (.cellMmulc x) | 0x08 => some (.mac x)
  | 0x09 => some (.macn x) | 0x0A => some (.macc x) | 0x0B => some (.alpha x) | 0x0C => some (.imma x)
  | 0x10 => some (.ntt x) | 0x11 => some (.intt x) | _ => none

/-- A vector opcode of R203. -/
def vecCode (v : Nat) : Bool :=
  decide ((1 ≤ v ∧ v ≤ 9) ∨ (0x10 ≤ v ∧ v ≤ 0x21) ∨ (0x28 ≤ v ∧ v ≤ 0x2C) ∨ (0x30 ≤ v ∧ v ≤ 0x3B) ∨ v = 0x40 ∨ v = 0x41)

/-- The first row a word writes (R207): DROW, AROW for a transform, none when it writes no crib row. -/
def firstWritten (w : LongWord) (c : CribSlot) : Option (BitVec 8) :=
  let opc := match w.cell with | some x => x.opc.toNat | none => 0
  if opc = 0x10 ∨ opc = 0x11 then some c.arow
  else
    let vecDest : Bool := match w.vec with | some v => v.dest | none => false
    if decide (1 ≤ opc ∧ opc ≤ 7) || c.xop == 1 || w.net.isSome || (w.acc.isSome && w.cell.isNone) || vecDest then
      some c.drow
    else none

/-- The effective CRIB and QUE slots of a word after the word before it (R207). -/
def effective (prev : Option LongWord) (w : LongWord) : LongWord :=
  match prev with
  | none => w
  | some p =>
    let crib := match w.crib, p.crib with
      | some c, _ => some c
      | none, some c => some { c with xop := 0, arow := (firstWritten p c).getD c.arow }
      | none, none => none
    let que := match w.que, p.que with
      | some q, _ => some q
      | none, some q => some { q with bind := 0 }
      | none, none => none
    let cribTaken := w.crib.isNone && crib.isSome
    let queTaken := w.que.isNone && que.isSome
    { w with crib := crib, que := que, cribTaken := cribTaken, queTaken := queTaken }

/-- A word carries a slot that runs an operation beside a transfer. -/
def wordWorks (w : LongWord) : Bool := w.cell.isSome || w.net.isSome || w.vec.isSome || w.acc.isSome

/-- The rules of R199..R203 that need the plan: parameter set and limbs, constants below every prime, FPRIME and MLIFT
targets, whole limbs for AUTO and MULX (R100, R198, R201). -/
def wordPlanOk (v : Env) (w : LongWord) : Bool :=
  match w.crib with
  | none => true
  | some c =>
    let ps := v.pset c.pset.toNat
    let rpl := rowsPerLimb ps
    let rows := cribRows c
    let n := c.nlimb.toNat + 1
    let modVec := match w.vec with | some x => x.type == 0 || x.vopc == 0x08 | none => false
    let modular := (match w.cell with | some x => x.opc != 0x0C | none => false) || w.net.isSome || modVec
    let last := c.lpos.toNat + n - 1
    let limbsOk := if c.lpos = 0x7F then n == 1 else decide (last < ps.lq + ps.lp)
    let limbs := (List.range n).map fun i => v.limb ps (c.lpos.toNat + i)
    (!modular || (decide (c.pset.toNat < v.psets.length) && limbsOk && decide (rows ≤ n * rpl))) &&
    (match w.cell with
     | some x =>
       let usesConst := x.opc == 0x07 || x.opc == 0x0A || (x.bsrc == 3 && cellReadsB x.opc.toNat && x.opc != 0x0C)
       (!usesConst || limbs.all fun e => decide (x.const.toNat < e.q)) &&
       (if x.opc = 0x10 ∨ x.opc = 0x11 then decide (c.arow.toNat + n * rpl ≤ 256 ∧ c.arow.toNat % rpl = 0) else true)
     | none => true) &&
    (match w.acc with
     | some a => a.aop == 1 || (v.prime a.fprime.toNat).valid
     | none => true) &&
    (match w.vec with
     | some x => x.vopc != 0x07 || (v.prime (x.const.toNat % 128)).valid
     | none => true) &&
    (match w.net with
     | some x =>
       let whole := decide (rows % rpl = 0 ∧ c.arow.toNat % rpl = 0 ∧ c.drow.toNat % rpl = 0)
       if x.nopc = 1 then decide (x.gm.toNat % 2 = 1 ∧ x.gm.toNat < 2 ^ (ps.logn + 1)) && whole
       else decide (x.gm.toNat < 2 ^ ps.logn) && (x.dom || whole)
     | none => true)

/-- The operations of a word break no rule of R196..R203: each of them is a well-formed command. -/
def wordOpsOk (x : Exec) : Bool :=
  (match x.w.cell with
   | some c => (match cellInstr x c.opc.toNat with | some i => i.wf | none => false)
   | none => true) &&
  (match x.w.net with | some n => (n.nopc == 1 || n.nopc == 2) && x.netOk n.nopc | none => true) &&
  (match x.w.vec with | some v => vecCode v.vopc.toNat && x.vecOk v.vopc | none => true) &&
  (match x.w.acc, x.w.cell with | some a, none => x.foldOk a.aop | _, _ => true) &&
  (if wordWorks x.w then true
   else match x.w.crib with
     | some c => if c.xop = 0 then x.delayOk else x.xferOk c.xop
     | none => x.delayOk)

/-- Two ranges of crib rows, each a first row and a count, overlap. -/
def rangesMeet (a b : Nat × Nat) : Bool := decide (a.1 < b.1 + b.2 ∧ b.1 < a.1 + a.2)

/-- The crib rows that a word's cell, network or fold operation reads and those it writes: a transform works in place on whole
limbs (R198). -/
def cellRanges (v : Env) (w : LongWord) (c : CribSlot) : List (Nat × Nat) × List (Nat × Nat) :=
  let n := cribRows c
  let a := (c.arow.toNat, n)
  let d := (c.drow.toNat, n)
  match w.cell, w.net, w.acc with
  | some x, _, _ =>
    let o := x.opc.toNat
    let limbs := (c.arow.toNat, (c.nlimb.toNat + 1) * rowsPerLimb (v.pset c.pset.toNat))
    if o = 0x10 ∨ o = 0x11 then ([limbs], [limbs])
    else (a :: (if cellReadsB o && x.bsrc == 0 then [(c.brow.toNat, n)] else []), if o ≤ 7 then [d] else [])
  | none, some _, some _ => ([a], [d])
  | none, some _, none => ([a], [d])
  | none, none, some _ => ([], [d])
  | none, none, none => ([], [])

/-- The crib rows that a word's vector operation reads and those it writes (R159, R202). -/
def vecRanges (x : VecSlot) (c : CribSlot) : List (Nat × Nat) × List (Nat × Nat) :=
  let n := cribRows c
  ((if x.s1 == 1 then [(c.arow.toNat, n)] else []) ++ (if x.s2 == 2 || x.s3 == 2 then [(c.brow.toNat, n)] else []),
    if x.dest then [(c.drow.toNat, vecRows x n)] else [])

/-- A vector operation of a word and its cell, network or fold operation touch the same crib row, one of them writing (R163,
R208). -/
def vecConflict (v : Env) (w : LongWord) : Bool := match w.vec, w.crib with
  | some x, some c =>
    let p := cellRanges v w c
    let q := vecRanges x c
    let meet (a b : List (Nat × Nat)) : Bool := a.any fun r => b.any (rangesMeet r)
    meet q.2 (p.1 ++ p.2) || meet p.2 q.1
  | _, _ => false

/-- The header requests an epilogue stage (R103). -/
def epilogueOf (h : Hdr) : Bool :=
  h.scale || h.ptadd || h.rescale || h.verify || h.anchor || h.act != 0 || h.narrow

/-- The last word's result is a cell or fold result (R208). -/
def hasResult (w : LongWord) : Bool := match w.cell, w.acc with
  | some c, _ => !accumulating c.opc
  | none, some _ => true
  | none, none => false

/-- A decoded word of a command: its offset in the stream and the word with its effective slots. -/
structure DWordAt where
  off : Nat
  x : Exec
  deriving DecidableEq, Repr

/-- The words of one command from an offset (R191, R196, R207): the words and the offset after them, or the reason and
the offset of the offending word. -/
def wordsFrom (v : Env) (bs : List Byte) (h : Hdr) :
    Nat → Nat → Nat → Option LongWord → Except (Nat × Nat) (List DWordAt × Nat)
  | 0, off, _, _ => .error (0x2D, off)
  | k + 1, off, stage, prev =>
    let r := rawWordAt bs off
    let w := effective prev r.w
    let last := !r.chain
    let x : Exec :=
      { arr := ⟨0, 0⟩, hdr := h, stage := BitVec.ofNat 3 stage, opens := true, closes := true, last := last, w := w
        dets := [] }
    if decide (bs.length < off + r.size) || !r.padOk then .error (0x2C, off)
    else if stage != 0 && r.hdr.isSome then .error (0x2C, off)
    else if stage == 0 && wordWorks r.w && r.w.crib.isNone then .error (0x2C, off)
    else if wordWorks w && w.crib.isNone then .error (0x2D, off)
    else if !wordOpsOk x || !wordPlanOk v w then .error (0x2C, off)
    else if vecConflict v w then .error (0x2D, off)
    else if last then
      if epilogueOf h && !hasResult w then .error (0x2D, off) else .ok ([⟨off, x⟩], off + r.size)
    else match wordsFrom v bs h k (off + r.size) (stage + 1) (some w) with
      | .error e => .error e
      | .ok t => .ok (⟨off, x⟩ :: t.1, t.2)

/-- The commands of an execute stream, at most `fuel` (R191, R205, R225): a stream ends at its end or where only padding
is left. -/
def commandsFrom (v : Env) (prog : Nat) (bs : List Byte) : Nat → Nat → Except (Nat × Nat) (List (List DWordAt))
  | 0, _ => .ok []
  | k + 1, off =>
    if decide (bs.length ≤ off) || zeroAt bs off (bs.length - off) then .ok []
    else match (rawWordAt bs off).hdr with
      | none => .error (0x2C, off)
      | some h =>
        if h.tag.toNat / 65536 != prog then .error (0x2C, off)
        else match wordsFrom v bs h 8 off 0 none with
          | .error e => .error e
          | .ok c => match commandsFrom v prog bs k c.2 with
            | .error e => .error e
            | .ok t => .ok (c.1 :: t)

/-- The commands of a code block's execute stream. -/
def blockCommands (v : Env) (c : CodeBlock) : Except (Nat × Nat) (List (List DWordAt)) :=
  commandsFrom v c.prog c.exec (c.exec.length / 4 + 1) 0

/-! ## Access-stream words (R537, R540) -/

/-- The fields of an access-stream word (R537). -/
def ccWordOf (n : Nat) : CcWord :=
  { arr := ⟨0, 0⟩, pneg := bit n 57, pred := BitVec.ofNat 2 (bits n 56 55), rd := BitVec.ofNat 5 (bits n 54 50)
    rs1 := BitVec.ofNat 5 (bits n 49 45), rs2 := BitVec.ofNat 5 (bits n 44 40), x := BitVec.ofNat 8 (bits n 39 32)
    imm := BitVec.ofNat 32 (bits n 31 0), dets := [] }

/-- The arithmetic instructions of opcodes 0x00..0x16 (R537). -/
def ccArith (c : CcWord) (opc : Nat) : Option Instr := match opc with
  | 0x00 => some (.ccEnd c) | 0x01 => some (.ccAdd c) | 0x02 => some (.ccSub c) | 0x03 => some (.ccAnd c)
  | 0x04 => some (.ccOr c) | 0x05 => some (.ccXor c) | 0x06 => some (.ccShl c) | 0x07 => some (.ccShr c)
  | 0x08 => some (.ccSar c) | 0x09 => some (.ccMin c) | 0x0A => some (.ccMax c) | 0x0B => some (.li c)
  | 0x0C => some (.lui c) | 0x10 => some (.ccMul c) | 0x11 => some (.ccMulh c) | 0x14 => some (.ccCmpEq c)
  | 0x15 => some (.ccCmpLt c) | 0x16 => some (.ccCmpLtu c) | _ => none

/-- The instruction of an opcode (R537). -/
def ccInstr (c : CcWord) (opc : Nat) : Option Instr := match opc with
  | 0x18 => some (.loop c) | 0x19 => some (.endl c) | 0x20 => some (.ld c) | 0x21 => some (.st c)
  | 0x22 => some (.ldj c) | 0x24 => some (.mfs c) | 0x28 => some (.aqpush c) | 0x29 => some (.oqpush c)
  | 0x2A => some (.tqwait c) | 0x2C => some (.xferLc c) | 0x2D => some (.xferCl c) | 0x30 => some (.dmaq c)
  | 0x31 => some (.req c) | 0x34 => some (.acq c) | 0x35 => some (.acqB c) | 0x36 => some (.fence c)
  | 0x38 => some (.twait c) | 0x3F => some (.nop c) | _ => ccArith c opc

/-- The first word of an access stream that breaks R537 or R540, by its byte offset; `loops` holds the offsets of the open LOOPs,
innermost first, and a LOOP without its ENDL is such a word. Words after END are read too, as LOOPs skip to their ENDL; zero
padding is END words. -/
def accessBad : List DWord → Nat → List Nat → Option Nat
  | [], _, loops => loops.getLast?
  | w :: ws, off, loops =>
    let n := w.toNat
    let opc := bits n 63 58
    match ccInstr (ccWordOf n) opc with
    | none => some off
    | some i =>
      if !i.wf then some off
      else if opc = 0x18 then (if 4 ≤ loops.length then some off else accessBad ws (off + 8) (off :: loops))
      else if opc = 0x19 then (if loops.isEmpty then some off else accessBad ws (off + 8) (loops.drop 1))
      else accessBad ws (off + 8) loops

/-! ## Razavar words (R167..R170) -/

/-- A Razavar word as a KF8 long word (R168, R169); none when it has no equivalent. -/
def razavar (vbase n : Nat) : Option LongWord :=
  let rop := bits n 63 57
  let vd := bits n 46 42
  let vs1 := bits n 41 37
  let vs2 := bits n 36 32
  let vs3 := bits n 31 27
  let imm := bits n 16 7
  let row (r : Nat) : BitVec 8 := BitVec.ofNat 8 (vbase + r)
  if bits n 56 54 ≥ 6 ∨ bits n 6 0 ≠ 0 then none
  else if rop = 0x50 then
    some { cell := none, net := none, vec := none, acc := none
           crib := some { pset := 0, lpos := 0, nlimb := 0, arow := 0, brow := 0, drow := row vd, rows := 0, xop := 1 }
           que := some { bind := 0x20, omode := 0 } }
  else if rop = 0x51 then
    some { cell := none, net := none, vec := none, acc := none
           crib := some { pset := 0, lpos := 0, nlimb := 0, arow := row vs1, brow := 0, drow := 0, rows := 0, xop := 2 }
           que := some { bind := 0x02, omode := 0 } }
  else if !vecCode rop then none
  else
    let srcs := vecSources (BitVec.ofNat 7 rop)
    let mulc := decide (rop = 0x05)
    let imm32 : Nat := if rop = 0x06 then imm % 32 else if rop = 0x07 then imm % 128 else 0
    let v : VecSlot :=
      { vopc := BitVec.ofNat 7 rop, type := BitVec.ofNat 3 (bits n 56 54), ttype := BitVec.ofNat 3 (bits n 53 51)
        rm := BitVec.ofNat 2 (bits n 50 49), ftz := bit n 48, s1 := 1
        s2 := if mulc then 3 else if 2 ≤ srcs then 2 else 0, s3 := if srcs = 3 then 2 else 0, dest := true, vrep := 0
        const := BitVec.ofNat 32 imm32 }
    let isMod := v.type == 0
    if !v.typeOk || (srcs == 3 && vs3 != vs2) then none
    else
      some { cell := none, net := none, vec := some v, acc := none
             crib := some { pset := if isMod then BitVec.ofNat 3 (bits n 26 24) else 0
                            lpos := if isMod then BitVec.ofNat 7 (bits n 23 17) else 0
                            nlimb := 0, arow := row vs1, brow := if 2 ≤ srcs then row vs2 else 0, drow := row vd
                            rows := 0, xop := 0 }
             que := if mulc then some { bind := 0, omode := 0 } else none }

/-- The header of a translated command (R169). -/
def razavarHdr (prog i : Nat) : Hdr :=
  { gap := 0, waitg := 0, nwid := false, nsh := 0, narrow := false, act := 0, anchor := false, verify := false
    rescale := false, ptadd := false, sk := 0, sck := false, scale := false, flagout := false, token := false
    tag := BitVec.ofNat 24 (prog * 65536 + i % 65536) }

/-- The compressed form of a translated word (R169, R193): HDR, then VEC, CRIB and QUE. -/
def packRazavar (prog i : Nat) (w : LongWord) : List Byte :=
  let tag := prog * 65536 + i % 65536
  let crib (c : CribSlot) : Nat :=
    c.pset.toNat * 2 ^ 45 + c.lpos.toNat * 2 ^ 38 + c.nlimb.toNat * 2 ^ 34 + c.arow.toNat * 2 ^ 26 +
      c.brow.toNat * 2 ^ 18 + c.drow.toNat * 2 ^ 10 + c.rows.toNat * 4 + c.xop.toNat
  let vec (v : VecSlot) : Nat :=
    v.vopc.toNat * 2 ^ 57 + v.type.toNat * 2 ^ 54 + v.ttype.toNat * 2 ^ 51 + v.rm.toNat * 2 ^ 49 + b2n v.ftz * 2 ^ 48 +
      v.s1.toNat * 2 ^ 46 + v.s2.toNat * 2 ^ 44 + v.s3.toNat * 2 ^ 42 + b2n v.dest * 2 ^ 41 + v.const.toNat
  let que (q : QueSlot) : Nat := q.bind.toNat * 2 ^ 18 + q.omode.toNat * 2 ^ 16
  let mask := 0x40 + 4 * b2n w.vec.isSome + 16 + 32 * b2n w.que.isSome
  let parts : List (Nat × Nat) :=
    [(8, mask), (64, tag)] ++ (match w.vec with | some v => [(64, vec v)] | none => []) ++
      (match w.crib with | some c => [(48, crib c)] | none => []) ++
      (match w.que with | some q => [(24, que q)] | none => [])
  let t := parts.foldl (fun (acc : Nat × Nat) p => (acc.1 + p.1, acc.2 + p.2 * 2 ^ acc.1)) (0, 0)
  leBytes ((t.1 + 31) / 32 * 4) t.2

/-- The first Razavar word of a block without an equivalent, by its byte offset (R167, R169), among `n` words. -/
def razavarBad (vbase : Nat) (bs : List Byte) (n : Nat) : Option Nat :=
  ((List.range n).find? fun i => (razavar vbase (field bs (8 * i) 8)).isNone).map (8 * ·)

/-- The translated execute stream of a COMPAT block (R169). -/
def translate (c : CodeBlock) (n : Nat) : List Byte :=
  padTo 64 ((List.range n).flatMap fun i => match razavar c.vbase (field c.exec (8 * i) 8) with
    | some w => packRazavar c.prog i w
    | none => [])

/-- The block is marked COMPAT (R305). -/
def CodeBlock.compat (c : CodeBlock) : Bool := bit c.flags 0

/-- A block as the stores hold it: a COMPAT block translated (R169). -/
def storedBlock (p : Plan) (c : CodeBlock) : CodeBlock :=
  if c.compat then
    match p.compat.find? fun r => r.codeOff == c.off with
    | some r => { c with exec := translate c r.nwords }
    | none => c
  else c

end Sys2Proof.Machine
end

