-- ==== Sys2Proof/Machine/LoadCheck.lean ====
section
/-! DEFINITION. The load check on the records of a plan image (R49, R72, R108, R136, R146, R170, R205, R308, R311, R330,
R332..R334): tests 8..25 and 50..60 and the decoding, each answering the refusal code and detail of the first failure. -/

namespace Sys2Proof.Machine

/-- What a test answers: none, or the refusal code and detail. -/
abbrev Verdict := Option (Nat × Nat)

/-- The verdict of the load check's simulation, where it is one of a test (log 11). -/
def simulated (img : List Byte) (n : Nat) : Verdict :=
  (Config.simulate img).bind fun v => if v.2 / 2 ^ 24 = n then some v else none

/-- The detail of R334: test, variant or 0xFF, low half. -/
def det (test var low : Nat) : Nat := test * 2 ^ 24 + var * 2 ^ 16 + min low 0xFFFF

/-- The detail of R49: test, parameter set, prime-book entry, limb position. -/
def det49 (test ps e limb : Nat) : Nat := test * 2 ^ 24 + ps * 2 ^ 16 + e % 256 * 256 + limb % 256

/-- The first verdict of a list. -/
def firstV {α : Type} (l : List α) (f : α → Verdict) : Verdict := l.findSome? f

/-- Fail with a code and a detail when a condition is broken. -/
def failIf (bad : Bool) (code detail : Nat) : Verdict := if bad then some (code, detail) else none

/-- One test after another. -/
def Verdict.next (a : Verdict) (b : Unit → Verdict) : Verdict := match a with
  | some v => some v
  | none => b ()

/-! ## Overflow weights (R279) -/

/-- This package's address, by the plan's ROUTE section or the part's own entry. -/
def planPkg (s : State) (p : Plan) : Nat := match p.route with
  | some r => r.pkg
  | none => s.dom.pkgAddr

/-- Owners tables that apply in a variant. -/
def tablesIn (p : Plan) (v : Variant) : List Owners := p.owners.filter fun o => bit o.vmask v.num

/-- Bytes of the blocks of this package of the WEIGHT tables of a variant that satisfy a test. -/
def weightBytes (s : State) (p : Plan) (v : Variant) (f : OwnEnt → Bool) : Nat :=
  (((tablesIn p v).filter fun o => isWeight (tensorFor p o)).flatMap (blocksOf p)).foldl
    (fun n b => if b.1.pkg = planPkg s p ∧ f b.1 = true then n + b.2 else n) 0

/-- G_v (R279): weight bytes at PLACE 1. -/
def gBytes (s : State) (p : Plan) (v : Variant) : Nat := weightBytes s p v (·.overflow)

/-! ## Tests 8..11 (R302..R309) -/

/-- Test 8: the header. -/
def test8 (img : List Byte) (planLen : Nat) : Verdict :=
  let f (o n : Nat) := field img o n
  let domain := bit (f 6 1) 1
  failIf (f 0 4 != 0x4C50464B || f 4 2 != 1 || decide (4 ≤ f 6 1) || f 7 1 == 0 || decide (14 < f 7 1) ||
    f 16 8 % 64 != 0 || f 16 8 != planLen || f 32 2 == 0 || decide (512 < f 32 2) || (!domain && f 32 2 != 1) ||
    decide (511 < f 34 2) || decide (f 36 4 < 500) || decide (20000 < f 36 4) || f 40 1 == 0 || decide (16 < f 40 1) ||
    f 41 1 == 0 || f 42 1 == 0 || decide (8 < f 42 1) || !zeroAt img 43 5 || !zeroAt img 144 112) 0x20 (det 8 0xFF 0xFFFF)

/-- The smallest size of a section by its counts; none when its records have their own length. -/
def sectMin (x : Sect) : Nat :=
  let size := match x.type with
    | 1 => 32 | 2 => 128 | 3 => 32 | 5 => 64 | 8 => 64 | 10 => 136 | 11 => 32 | 14 => 16 | _ => 0
  if x.type = 13 then 288 else size * x.count

/-- The records a section must count, by the header (R303). -/
def sectWants (img : List Byte) (x : Sect) : Bool := match x.type with
  | 1 => x.count == 80
  | 2 => x.count == field img 42 1
  | 3 => x.count == field img 41 1
  | 5 => x.count == field img 40 1
  | _ => true

/-- The sections an image requires (R303): tables name tensors, DIST tensors need tables, overflow blocks their records,
COMPAT blocks the map. That encoding is used shows in the encoder tables alone. -/
def required (s : State) (img : List Byte) : List Nat :=
  let p := planOf img
  let want (b : Bool) (t : Nat) : List Nat := if b then [t] else []
  [1, 2, 3, 4, 5, 6, 7] ++ want (!p.owners.isEmpty) 8 ++ want (p.tensors.any fun t => bit t.flags 0) 9 ++
    want (p.variants.any fun v => decide (0 < gBytes s p v)) 11 ++ want (p.regionBlocks != 0) 12 ++ want p.domain 13 ++
    want (p.code.any (·.compat)) 14

/-- Test 9: the directory (R303). -/
def test9 (s : State) (img : List Byte) : Verdict :=
  let d := directory img
  let dirEnd := 256 + 32 * d.length
  let bad (x : Sect) : Bool :=
    !x.rsvdOk || x.type == 0 || decide (14 < x.type) || x.off % 64 != 0 || decide (x.off < dirEnd) ||
      decide (img.length < x.off + x.len) || decide (x.len < sectMin x) || !sectWants img x ||
      d.any fun y => decide (y.pos < x.pos) && (y.type == x.type || decide (y.off < x.off + x.len ∧ x.off < y.off + y.len))
  (firstV d fun x => failIf (bad x) 0x20 (det 9 0xFF x.pos)).next fun _ =>
    firstV (required s img) fun t => failIf ((sectOf img t).isNone) 0x20 (det 9 0xFF (0xFF00 + t))

/-- The digest of an image, its own digest field taken as zero (R302). -/
def imageHash (img : List Byte) : List Byte := sha384 (img.take 48 ++ List.replicate 48 0 ++ img.drop 96)

/-- Test 10: the digest (R302). -/
def test10 (img : List Byte) : Verdict := failIf (imageHash img != slice img 48 48) 0x21 (det 10 0xFF 0xFFFF)

/-- Set bits of a mask of `n` bits. -/
def ones (v n : Nat) : Nat := ((List.range n).filter (bit v ·)).length

/-- A program record is inside R304 and R398: at most 256 buffers, at most 8 key requirements of kinds 2..5. -/
def programOk (g : Program) : Bool :=
  g.rsvdOk && decide (g.prog ≤ 254 ∧ 1 ≤ g.bmax ∧ g.bmax ≤ 8 ∧ g.nin ≤ 255 ∧ g.nout ≤ 255 ∧ g.nin + g.nout ≤ 256 ∧
    (g.reqs.filter fun r => decide (2 ≤ r.kind)).length ≤ 8) && g.reqs.all fun r => decide (r.kind ≤ 5 ∧ r.pset ≤ 7)

/-- A variant record is inside R307. -/
def variantOk (v : Variant) : Bool :=
  v.rsvdOk && decide (v.num ≤ 15 ∧ v.gear ≤ 3 ∧ 6 ≤ ones v.dieMask 8) && v.cacheSteps.all fun c => decide (c ≤ 4)

/-- A slot record is inside R308, but for what test 57 tests. -/
def slotRecOk (q : SlotRec) : Bool :=
  q.rsvdOk && decide (q.kind ≤ 2 ∧ q.start ≤ 24999 ∧ 1 ≤ q.length) && (q.kind == 0 || q.prog == 0xFF) &&
    (q.kind == 1 || q.installBytes == 0)

/-- A template is inside R308. -/
def templateOk (t : Template) : Bool :=
  t.rsvdOk && decide (1 ≤ t.slots.length ∧ t.slots.length ≤ 1024 ∧ 1024 ≤ t.rate ∧ t.rate ≤ 65536 ∧ 1024 ≤ t.depth ∧
    t.depth ≤ 16777216) && t.depth % 1024 == 0 && t.slots.all slotRecOk && uniq (t.slots.map (·.slot))

/-- A handle map is inside R309. -/
def hmapOk (m : HMap) : Bool := m.rsvdOk && m.ents.all fun e => e.rsvdOk && decide (e.die < 8 ∧ e.arr < 64)

/-- A code block is inside R305. -/
def codeOk (c : CodeBlock) : Bool := c.rsvdOk && c.vbase % 32 == 0 && decide (256 ≤ c.start) && c.access.length % 64 == 0

/-- Test 11: the records (R304, R305, R307..R309, R398), by the directory position of their section, a variant record by
its number (R334). -/
def test11 (img : List Byte) (p : Plan) : Verdict :=
  let pos (t : Nat) : Nat := match sectOf img t with | some x => x.pos | none => 0xFFFF
  let bad := p.variants.find? fun v => !variantOk v
  let var (t : Nat) : Nat := match bad with
    | some v => if t = 5 ∧ v.num ≤ 15 then v.num else 0xFF
    | none => 0xFF
  let f (t : Nat) (ok : Bool) : Verdict := failIf (!ok) 0x20 (det 11 (var t) (pos t))
  let prog := p.programs.all programOk && uniq (p.programs.map (·.prog))
  let code := p.code.all codeOk && p.code.length == sectCount img 4
  let tmpl := p.templates.all templateOk && p.templates.length == sectCount img 6 && uniq (p.templates.map (·.num))
  let maps := p.hmaps.all hmapOk && p.hmaps.length == sectCount img 7 && uniq (p.hmaps.map (·.map))
  firstV [(3, prog), (4, code), (5, bad.isNone), (6, tmpl), (7, maps)] fun e => f e.1 e.2

/-! ## The tests of R49, with 23 and 25 (R108, R136) -/

/-- Greatest common divisor is 1. -/
def coprime (a b : Nat) : Bool := Nat.gcd a b == 1

/-- The prime tests 1..5 and 7 of one entry (R49), by test number. -/
def primeBad (n : Nat) (e : PrimeEntry) (raw : List Byte) : Bool :=
  if n = 7 then !e.valid && !zeroAt raw 0 32
  else e.valid && match n with
    | 1 => !isPrime e.q
    | 2 =>
      let lo := if e.role = 2 then 2 ^ 8 else 2 ^ 30
      let hi := if e.role = 3 then 2 ^ 31 else 2 ^ 32
      decide (e.q ≤ lo ∨ hi ≤ e.q ∨ e.logn2 < 11 ∨ 18 < e.logn2)
    | 3 => e.q % 2 ^ e.logn2 != 1 || powMod e.q e.psi (2 ^ (e.logn2 - 1)) != e.q - 1
    | 4 => e.psi * e.psiInv % e.q != 1 || 2 ^ (e.logn2 - 1) * e.nInv % e.q != 1
    | 5 => e.kbits != bitLen e.q || e.mu != 2 ^ (2 * bitLen e.q) / e.q || e.c64 != 2 ^ 64 % e.q
    | _ => false

/-- Tests 1..7 over the prime book, each over the entries in ascending order. -/
def primeTests (img : List Byte) (p : Plan) : Verdict :=
  let raws := records (sectBytes img 1) 32 80
  let es := p.primes.zipIdx
  firstV [1, 2, 3, 4, 5, 6, 7] fun n => firstV es fun e =>
    let bad := if n = 6 then
        e.1.valid && es.any fun f => decide (f.2 < e.2) && f.1.valid && f.1.q == e.1.q && f.1.logn2 == e.1.logn2
      else primeBad n e.1 (raws.getD e.2 [])
    failIf bad 0x28 (det49 n 0xFF e.2 0xFF)

/-- The entries a set names: role, entry, limb position (R47, R198). -/
def named (ps : PSet) : List (Nat × Nat × Nat) :=
  ((List.range ps.lq).map fun j => (0, ps.qIdx.getD j 0xFF, j)) ++
    ((List.range ps.lp).map fun i => (1, ps.pIdx.getD i 0xFF, ps.lq + i)) ++ [(3, ps.checkIdx, 0x7F)] ++
    (if ps.tIdx = 0xFF then [] else [(2, ps.tIdx, 0xFF)])

/-- Test 16: the ranges of R48. -/
def setRangeOk (ps : PSet) : Bool :=
  if ps.scheme = 3 then
    decide (10 ≤ ps.logn ∧ ps.logn ≤ 12 ∧ 1 ≤ ps.lq ∧ ps.lq ≤ 2 ∧ ps.lp = 0 ∧ 1 ≤ ps.glweRank ∧ ps.glweRank ≤ 4 ∧
      256 ≤ ps.lweN ∧ ps.lweN ≤ 1024 ∧ 10 ≤ ps.lweLogq ∧ ps.lweLogq ≤ 32 ∧ ps.t = 0)
  else
    decide (ps.scheme < 3 ∧ 12 ≤ ps.logn ∧ ps.logn ≤ 17 ∧ 1 ≤ ps.lq ∧ ps.lq ≤ 64 ∧ ps.lp ≤ 15) &&
      (if ps.scheme = 0 then decide (20 ≤ ps.logDelta ∧ ps.logDelta ≤ 60 ∧ ps.t = 0) else decide (2 ≤ ps.t))

/-- The product of a set's ciphertext primes. -/
def setQ (p : Plan) (ps : PSet) : Nat := prodL ((ps.qIdx.take ps.lq).map fun i => (p.primes.getD i {}).q)

/-- Test 23 (R107, R108). -/
def digitsOk (ps : PSet) : Bool :=
  if ps.scheme = 3 then true
  else if ps.lp = 0 then ps.dnum == 0
  else if ps.dnum = 0 ∨ ps.lq < ps.dnum then false
  else
    let a := (ps.lq + ps.dnum - 1) / ps.dnum
    decide (a ≤ ps.lp ∧ (ps.dnum - 1) * a < ps.lq)

/-- Test 25 (R136). -/
def gadgetOk (p : Plan) (ps : PSet) : Bool :=
  ps.scheme != 3 || decide (1 ≤ ps.dnum ∧ ps.dnum ≤ 8 ∧ 2 ≤ ps.logDelta ∧ ps.logDelta ≤ 22 ∧
    ps.dnum * ps.logDelta ≤ bitLen (setQ p ps) ∧ ps.logDelta ≤ ps.lweLogq)

/-- One test of a parameter set by number: the entry and limb position of the failure. -/
def setTest (p : Plan) (n : Nat) (ps : PSet) : Option (Nat × Nat) :=
  let prime (i : Nat) : PrimeEntry := p.primes.getD i {}
  let whole (bad : Bool) : Option (Nat × Nat) := if bad then some (0xFF, 0xFF) else none
  let ns := named ps
  let find (f : Nat × Nat × Nat → Bool) : Option (Nat × Nat) := (ns.find? f).map (·.2)
  match n with
  | 16 => whole (!setRangeOk ps)
  | 17 => find fun e => !(prime e.2.1).valid || (prime e.2.1).role != e.1 || (e.1 == 2 && (prime e.2.1).q != ps.t)
  | 18 => find fun e => (prime e.2.1).logn2 != ps.logn + 1
  | 19 =>
    let qs := (ns.filter fun e => decide (e.1 ≤ 1)).zipIdx
    (qs.find? fun e => qs.any fun f => decide (f.2 < e.2) && (prime f.1.2.1).q == (prime e.1.2.1).q).map (·.1.2)
  | 20 =>
    let pc := (prime ps.checkIdx).q
    if (ns.any fun e => e.1 != 3 && (prime e.2.1).q == pc) || ((ps.scheme == 1 || ps.scheme == 2) && ps.t == pc) then
      some (ps.checkIdx, 0x7F) else none
  | 21 => if ps.scheme = 1 ∨ ps.scheme = 2 then find fun e => e.1 != 2 && !coprime ps.t (prime e.2.1).q else none
  | 22 =>
    if !ps.rsvdOk then some (0xFF, 0xFF)
    else ((List.range 64).find? fun j => decide (ps.lq ≤ j) && ps.qIdx.getD j 0 != 0xFF).map (fun j => (0xFF, j)) <|>
      ((List.range 16).find? fun i => decide (ps.lp ≤ i) && ps.pIdx.getD i 0 != 0xFF).map fun i => (0xFF, ps.lq + i)
  | 23 => whole (!digitsOk ps)
  | 24 => if bit ps.flags 0 then find fun e => decide (e.1 ≤ 1 ∧ (prime e.2.1).q ≤ 2 ^ 31) else none
  | _ => whole (!gadgetOk p ps)

/-- Tests 16..25, each over the sets in ascending order (R49, R108, R136). -/
def setTests (p : Plan) : Verdict :=
  firstV [16, 17, 18, 19, 20, 21, 22, 23, 24, 25] fun n => firstV p.psets.zipIdx fun e =>
    (setTest p n e.1).map fun r => (if n = 24 then 0x2A else 0x29, det49 n e.2 r.1 r.2)

/-- The limits of R70: dimension and bits. -/
def securityLimits : List (Nat × Nat) :=
  [(1024, 27), (2048, 54), (4096, 109), (8192, 218), (16384, 438), (32768, 881), (65536, 1762), (131072, 3524)]

/-- The limit of the largest row not above a dimension (R71). -/
def limitOf (n : Nat) : Nat := ((securityLimits.filter fun e => decide (e.1 ≤ n)).getLast?.map (·.2)).getD 0

/-- A parameter set is below the security table (R71). -/
def belowTable (p : Plan) (ps : PSet) : Bool :=
  let q := setQ p ps
  if ps.scheme = 3 then
    decide (limitOf (ps.glweRank * 2 ^ ps.logn) < bitLen q ∨ 27 * ps.lweN / 1024 < ps.lweLogq)
  else
    let pp := prodL ((ps.pIdx.take ps.lp).map fun i => (p.primes.getD i {}).q)
    decide (limitOf (2 ^ ps.logn) < bitLen (q * pp))

/-- The sets marked TEST_ONLY (R72). -/
def testOnlySets (p : Plan) : List Nat := (p.psets.zipIdx.filter fun e => belowTable p e.1).map (·.2)

/-! ## Tests 12..15 (R241, R289, R306, R512) -/

/-- The variants in ascending order. -/
def variantsUp (p : Plan) : List Variant := sortBy (·.num) p.variants

/-- Test 12: the stores of every array hold its streams (R306), COMPAT streams translated (R169). -/
def test12 (p : Plan) : Verdict :=
  let code := p.code.map (storedBlock p)
  firstV (variantsUp p) fun v => firstV (variantArrs v) fun a =>
    let cs := codeFor { p with code := code } v.num a
    let el : Nat := cs.foldl (fun n c => n + c.exec.length) 0
    let al : Nat := cs.foldl (fun n c => n + c.access.length) 0
    failIf (decide (131072 < el ∨ 65536 < al)) 0x22 (det 12 v.num (globalOf a))

/-- The byte range of a LOCAL handle. -/
def localRange (h : Handle) : Nat × Nat := (h.target.toNat, h.target.toNat + h.length.toNat)

/-- An entry of a handle map breaks R239 or R241 by itself. -/
def entryBad (p : Plan) (m : HMap) (e : HMapEnt) : Bool :=
  let h := e.entry
  let len := h.length.toNat
  let t := h.target.toNat
  let ps := p.psets.getD h.pset.toNat {}
  decide (248 ≤ e.handle) || h.slotScope != m.slotScope ||
    (h.kind != 0 &&
      (len % 1024 != 0 || decide (len < 1024 ∨ 7340032 < len) || (h.kind != 1 && (h.rwrite || h.sheaf)) ||
        (h.kind == 1 && decide (t % 1024 ≠ 0 ∨ 7340032 < t + len)) ||
        (h.kind == 2 && decide (t % 128 ≠ 0 ∨ 2 ^ 40 ≤ t)) ||
        (h.kind == 3 && decide (1 < t / 2 ^ 61 ∨ t % 2 ^ 23 % 128 ≠ 0)) ||
        (h.sheaf && (decide (p.psets.length ≤ h.pset.toNat ∨ h.level.toNat = 0 ∨ 64 < h.level.toNat ∨ h.npoly = 0) ||
          decide (len < h.npoly.toNat * sheafBytes h ps.logn)))))

/-- Entries of one array clash: two LOCAL handles share a byte, or a number is mapped twice (R241). -/
def entsClash (es : List HMapEnt) : Bool :=
  let l := es.zipIdx
  l.any fun e => l.any fun f =>
    decide (f.2 < e.2) && f.1.die == e.1.die && f.1.arr == e.1.arr &&
      (f.1.handle == e.1.handle ||
        (f.1.entry.kind == 1 && e.1.entry.kind == 1 &&
          decide ((localRange f.1.entry).1 < (localRange e.1.entry).2 ∧ (localRange e.1.entry).1 < (localRange f.1.entry).2)))

/-- A LOCAL handle reaches into the loft cache or the refresh region of its array (R145, R241, R245). -/
def intoCache (p : Plan) (v : Variant) (e : HMapEnt) : Bool :=
  e.entry.kind == 1 && bit v.dieMask e.die &&
    decide (7340032 - stepsOf v e.arr * 524288 - p.refreshRegion / 64 < (localRange e.entry).2)

/-- The map that a variant or slot names, of its scope and applying in the variant (R333 test 13). -/
def mapFor (p : Plan) (n : Nat) (slotScope : Bool) (v : Nat) : Option HMap :=
  p.hmaps.find? fun m => m.map == n && m.slotScope == slotScope && bit m.vmask v

/-- The template of a variant. -/
def templateFor (p : Plan) (v : Variant) : Template := (p.templates.find? fun t => t.num == v.template).getD {}

/-- The slot maps its entry: the slot occupies the array. -/
def slotHas (q : SlotRec) (e : HMapEnt) : Bool := bit q.dieMask e.die && bit q.arrayMask e.arr

/-- Two slots overlap in time. -/
def slotsMeet (a b : SlotRec) : Bool := decide (a.start < b.start + b.length ∧ b.start < a.start + a.length)

/-- Test 13 for one variant (R241, R333). -/
def test13In (p : Plan) (v : Variant) : Verdict :=
  match mapFor p v.hmap false v.num with
  | none => some (0x22, det 13 v.num v.hmap)
  | some pm =>
    let t := templateFor p v
    let qs := t.slots.filter fun q => q.hmap != 0xFFFF
    let entsOf (q : SlotRec) : List HMapEnt := match mapFor p q.hmap true v.num with
      | some m => m.ents.filter (slotHas q)
      | none => []
    (failIf (pm.ents.any (intoCache p v)) 0x22 (det 13 v.num pm.map)).next fun _ =>
      (firstV qs fun q => failIf ((mapFor p q.hmap true v.num).isNone || (entsOf q).any (intoCache p v) ||
        entsClash (pm.ents ++ entsOf q)) 0x22 (det 13 v.num q.hmap)).next fun _ =>
      firstV qs.zipIdx fun e => failIf (qs.zipIdx.any fun f =>
        decide (f.2 < e.2) && slotsMeet f.1 e.1 &&
          entsClash ((entsOf f.1).filter (slotHas e.1) ++ (entsOf e.1).filter (slotHas f.1)))
        0x22 (det 13 v.num e.1.hmap)

/-- Test 13: the handle maps. -/
def test13 (p : Plan) : Verdict :=
  (firstV p.hmaps fun m => failIf (m.ents.any (entryBad p m) || entsClash m.ents) 0x22 (det 13 0xFF m.map)).next fun _ =>
    firstV (variantsUp p) (test13In p)

/-- The plan holds refresh programs (R145, R304). -/
def hasRefresh (p : Plan) : Bool := p.programs.any fun g => bit g.flags 1

/-- Test 14: the PLAN region and the refresh region (R145, R289). -/
def test14 (s : State) (p : Plan) : Verdict :=
  let top := planBase + 2 * ((p.regionBlocks + 2) / 3 * 3)
  failIf (decide (granBlocks < top) || (s.keys.any fun k => k.blocks.any fun b => decide (b < top)) ||
    decide (p.regionBlocks * 65536 < p.dataLen) || decide (100663296 < p.refreshRegion) ||
    p.refreshRegion % 4194304 != 0 || (hasRefresh p != (p.refreshRegion != 0))) 0x22 (det 14 0xFF 0xFFFF)

/-- Test 15: the retained image (R512). -/
def test15 (p : Plan) : Verdict := failIf (decide (536870912 < p.imageLen - p.dataLen)) 0x22 (det 15 0xFF 0xFFFF)

/-! ## Decoding (R167, R170, R205, R540) -/

/-- The primes and sets of a plan, as the words name them. -/
def planEnv (p : Plan) : Env := State.env { plan := some p }

/-- The COMPAT_MAP section breaks R170. -/
def compatBad (p : Plan) : Bool :=
  let ofBlock (c : CodeBlock) : List Compat := p.compat.filter fun r => r.codeOff == c.off
  (p.code.any fun c => c.compat && (ofBlock c).length != 1) ||
    p.compat.any fun r => !r.rsvdOk || r.rver != 2 || match p.code.find? fun c => c.off == r.codeOff with
      | some c => !c.compat || c.exec.length != up64 (8 * r.nwords)
      | none => true

/-- The execute stream of a block does not decode. -/
def execBad (v : Env) (p : Plan) (c : CodeBlock) : Verdict :=
  if c.compat then
    match p.compat.find? fun r => r.codeOff == c.off with
    | none => none
    | some r =>
      match razavarBad c.vbase c.exec r.nwords with
      | some off => some (0x2B, off)
      | none => firstV (List.range r.nwords) fun i => match razavar c.vbase (field c.exec (8 * i) 8) with
        | some w =>
          let x : Exec :=
            { arr := ⟨0, 0⟩, hdr := razavarHdr c.prog i, stage := 0, opens := true, closes := true, last := true, w := w
              dets := [] }
          failIf (!wordOpsOk x || !wordPlanOk v w) 0x2C (8 * i)
        | none => none
  else match blockCommands v c with
    | .error e => some e
    | .ok _ => none

/-- Step 4 of R332: every code block decodes. -/
def decodeTest (p : Plan) : Verdict :=
  let v := planEnv p
  (failIf (compatBad p) 0x2B 0xFFFFFFFF).next fun _ =>
    firstV p.code fun c => (execBad v p c).next fun _ => (accessBad (accessWords c) 0 []).map fun off => (0x2C, off)

/-! ## Tests 50..60 (R146, R308, R311, R330, R333) -/

/-- The program of a JOB slot spans packages. -/
def domainSlot (p : Plan) (q : SlotRec) : Bool :=
  q.kind == 0 && p.programs.any fun g => g.prog == q.prog && bit g.flags 0

/-- What R330 compares of a variant's DOMAIN slots, whatever the order of their records. The routes are one section of the plan
for all variants; arrival deadlines are the simulation's (log 11). -/
def domainSlots (p : Plan) (v : Variant) : List (Nat × Nat × Nat × Nat) :=
  let t := templateFor p v
  sortBy (fun e => ((e.1 * 2 ^ 32 + e.2.1) * 256 + e.2.2.1) * 256 + e.2.2.2)
    ((t.slots.filter (domainSlot p)).map fun q => (q.start, q.length, q.prog, q.batch))

/-- Tests 50 and 51. -/
def variantTests (img : List Byte) (p : Plan) : Verdict :=
  let vs := p.variants.zipIdx
  (firstV vs fun v => failIf (vs.any fun w => decide (w.2 < v.2) && w.1.num == v.1.num) 0x26
    (det 50 v.1.num 0xFFFF)).next fun _ =>
  (firstV (variantsUp p) fun v => failIf (!p.templates.any fun t => t.num == v.template) 0x26
    (det 50 v.num 0xFFFF)).next fun _ =>
  if p.domain then
    match variantsUp p with
    | [] => none
    | z :: rest => (firstV rest fun v => failIf (domainSlots p v != domainSlots p z) 0x26 (det 51 v.num 0xFFFF)).next fun _ =>
      simulated img 51
  else failIf (p.programs.any fun g => bit g.flags 0) 0x26 (det 51 0xFF 0xFFFF)

/-- Two slots of a template share an array: a FALLOW slot takes every array (R311). -/
def slotsShare (a b : SlotRec) : Bool :=
  a.kind == 2 || b.kind == 2 || (a.dieMask &&& b.dieMask != 0 && a.arrayMask &&& b.arrayMask != 0)

/-- One of tests 55..59 on a template, in a variant that names it or in none: the low half of the detail. Where the plan has no
INSTALL slot, test 59 names none (DESIGN CHOICE, log 92). -/
def templateTest (p : Plan) (n : Nat) (v? : Option Variant) (t : Template) : Option Nat :=
  let qs := t.slots
  match n with
  | 55 => (qs.zipIdx.find? fun e => decide (25000 < e.1.start + e.1.length) ||
      qs.zipIdx.any fun f => decide (f.2 < e.2) && slotsMeet f.1 e.1 && slotsShare f.1 e.1).map (·.1.slot)
  | 56 =>
    let fs := qs.filter fun q => q.kind == 2
    let dies := v?.elim 0 (·.dieMask)
    ((fs.find? fun q => q.dieMask &&& dies != dies || q.arrayMask != 2 ^ 64 - 1).map (·.slot)) <|>
      (if fs.foldl (fun n q => n + q.length) 0 < 500 then some 0xFFFF else none)
  | 57 => (qs.find? fun q =>
      decide (q.kind < 2 ∧ q.slack < 32) || (p.realTime && decide (q.slack < q.tolerance)) ||
        (if q.kind = 0 then match p.programs.find? fun g => g.prog == q.prog with
          | some g => decide (q.batch = 0 ∨ g.bmax < q.batch)
          | none => true
         else q.batch != 0)).map (·.slot)
  | 58 => v?.bind fun v => (qs.find? fun q => q.dieMask &&& v.dieMask != q.dieMask).map (·.slot)
  | _ =>
    let is := qs.filter fun q => q.kind == 1
    if hasRefresh p && decide (is.foldl (fun n q => n + q.installBytes) 0 < max 1 p.refreshRegion)
    then some ((is.head?.map (·.slot)).getD 0xFFFF) else none

/-- Test 60 in a variant: the array. -/
def test60 (p : Plan) (v : Variant) (t : Template) : Option Nat :=
  (t.slots.filter fun q => q.kind == 0).findSome? fun q => ((slotArrs v q).find? fun a =>
    ((codeFor p v.num a).filter fun c => c.prog == q.prog).length != 1).map globalOf

/-- Tests 55..60, each over the variants in ascending order, then over the templates that no variant names. -/
def slotTests (p : Plan) : Verdict :=
  let rest := p.templates.filter fun t => !p.variants.any fun v => v.template == t.num
  firstV [55, 56, 57, 58, 59, 60] fun n =>
    (firstV (variantsUp p) fun v => (if n = 60 then test60 p v (templateFor p v)
      else templateTest p n (some v) (templateFor p v)).map fun low => (0x23, det n v.num low)).next fun _ =>
    firstV rest fun t => (if n = 60 then none else templateTest p n none t).map fun low => (0x23, det n 0xFF low)

end Sys2Proof.Machine
end

