-- ==== Sys2Proof/Machine/VectorOps.lean ====
section
/-! DEFINITION. The vector family (R159..R163, R172..R184, R202): each operation as the work of a word under the frame of
Machine/Exec.lean, its elements by Machine/Vector.lean. -/

namespace Sys2Proof.Machine

/-- A vector operation reads a row of the loft. -/
def vecPorts (v : VecSlot) : Bool := v.s1 == 0 || v.s2 == 1 || v.s3 == 1

/-- A vector operation as the work of a word: into crib rows or port LW, its flags into port LF with FLAGOUT. The reduction
check covers the modular type alone (R58). -/
def vecWork (x : Exec) : WordOp where
  total := match x.w.vec with
    | some v => slotRows x * (v.vrep.toNat + 1)
    | none => 0
  per := vecRate x
  lane := fun k l s => match x.w.vec with | some v => vecStep k v x.hdr.flagout l s | none => l
  dest := match x.w.vec with
    | some v => if v.dest then x.w.crib.map fun c => (c.drow.toNat, vecRows v (cribRows c)) else none
    | none => none
  sees := detectors (x.w.vec.any fun v => v.s1 == 1 || v.s2 == 2 || v.s3 == 2) (x.w.vec.any vecPorts)
    (x.w.vec.any fun v => decide (v.vopc.toNat ≤ 8) || (v.type == 0 && decide (0x40 ≤ v.vopc.toNat))) false false false

/-- VEC_MADD: Vector modular addition (R174). -/
def execVecMadd (x : Exec) (s : State) : Res := runExec (x.vecOk 0x01) x (vecWork x) s

/-- VEC_MSUB: Vector modular subtraction (R174). -/
def execVecMsub (x : Exec) (s : State) : Res := runExec (x.vecOk 0x02) x (vecWork x) s

/-- VEC_MNEG: Vector modular negation (R174). -/
def execVecMneg (x : Exec) (s : State) : Res := runExec (x.vecOk 0x03) x (vecWork x) s

/-- VEC_MMUL: Vector modular multiplication (R174). -/
def execVecMmul (x : Exec) (s : State) : Res := runExec (x.vecOk 0x04) x (vecWork x) s

/-- VEC_MMULC: Vector modular multiplication by a constant (R174). -/
def execVecMmulc (x : Exec) (s : State) : Res := runExec (x.vecOk 0x05) x (vecWork x) s

/-- VEC_MSCAL: Vector modular multiplication by a small integer (R174). -/
def execVecMscal (x : Exec) (s : State) : Res := runExec (x.vecOk 0x06) x (vecWork x) s

/-- MLIFT: Vector centred residue reduced to another prime (R174). -/
def execMlift (x : Exec) (s : State) : Res := runExec (x.vecOk 0x07) x (vecWork x) s

/-- MRED: Vector reduction of int32 to a residue (R174). -/
def execMred (x : Exec) (s : State) : Res := runExec (x.vecOk 0x08) x (vecWork x) s

/-- MCEN: Vector centred lift of a residue to int32 (R174). -/
def execMcen (x : Exec) (s : State) : Res := runExec (x.vecOk 0x09) x (vecWork x) s

/-- VEC_ADD: Vector integer addition modulo 2^w (R174). -/
def execVecAdd (x : Exec) (s : State) : Res := runExec (x.vecOk 0x10) x (vecWork x) s

/-- VEC_SUB: Vector integer subtraction modulo 2^w (R174). -/
def execVecSub (x : Exec) (s : State) : Res := runExec (x.vecOk 0x11) x (vecWork x) s

/-- VEC_MUL: Vector integer multiplication keeping the low bits (R174). -/
def execVecMul (x : Exec) (s : State) : Res := runExec (x.vecOk 0x12) x (vecWork x) s

/-- VEC_MULH: Vector integer multiplication keeping the high bits (R174). -/
def execVecMulh (x : Exec) (s : State) : Res := runExec (x.vecOk 0x13) x (vecWork x) s

/-- ADDS: Vector saturating integer addition (R174). -/
def execAdds (x : Exec) (s : State) : Res := runExec (x.vecOk 0x14) x (vecWork x) s

/-- SUBS: Vector saturating integer subtraction (R174). -/
def execSubs (x : Exec) (s : State) : Res := runExec (x.vecOk 0x15) x (vecWork x) s

/-- IDIV: Vector integer division rounding toward zero (R174). -/
def execIdiv (x : Exec) (s : State) : Res := runExec (x.vecOk 0x16) x (vecWork x) s

/-- VEC_MIN: Vector integer minimum (R174). -/
def execVecMin (x : Exec) (s : State) : Res := runExec (x.vecOk 0x17) x (vecWork x) s

/-- VEC_MAX: Vector integer maximum (R174). -/
def execVecMax (x : Exec) (s : State) : Res := runExec (x.vecOk 0x18) x (vecWork x) s

/-- ABS: Vector integer absolute value (R174). -/
def execVabs (x : Exec) (s : State) : Res := runExec (x.vecOk 0x19) x (vecWork x) s

/-- NEG: Vector integer negation (R174). -/
def execVneg (x : Exec) (s : State) : Res := runExec (x.vecOk 0x1A) x (vecWork x) s

/-- VEC_AND: Vector bitwise AND (R174). -/
def execVecAnd (x : Exec) (s : State) : Res := runExec (x.vecOk 0x1B) x (vecWork x) s

/-- VEC_OR: Vector bitwise OR (R174). -/
def execVecOr (x : Exec) (s : State) : Res := runExec (x.vecOk 0x1C) x (vecWork x) s

/-- VEC_XOR: Vector bitwise XOR (R174). -/
def execVecXor (x : Exec) (s : State) : Res := runExec (x.vecOk 0x1D) x (vecWork x) s

/-- NOT: Vector bitwise NOT (R174). -/
def execVnot (x : Exec) (s : State) : Res := runExec (x.vecOk 0x1E) x (vecWork x) s

/-- VEC_SHL: Vector shift left (R174). -/
def execVecShl (x : Exec) (s : State) : Res := runExec (x.vecOk 0x1F) x (vecWork x) s

/-- VEC_SHR: Vector logical shift right (R174). -/
def execVecShr (x : Exec) (s : State) : Res := runExec (x.vecOk 0x20) x (vecWork x) s

/-- VEC_SAR: Vector arithmetic shift right (R174). -/
def execVecSar (x : Exec) (s : State) : Res := runExec (x.vecOk 0x21) x (vecWork x) s

/-- VEC_CMP_EQ: Vector compare for equality giving a mask (R174). -/
def execVecCmpEq (x : Exec) (s : State) : Res := runExec (x.vecOk 0x28) x (vecWork x) s

/-- VEC_CMP_NE: Vector compare for inequality giving a mask (R174). -/
def execVecCmpNe (x : Exec) (s : State) : Res := runExec (x.vecOk 0x29) x (vecWork x) s

/-- VEC_CMP_LT: Vector compare less-than giving a mask (R174). -/
def execVecCmpLt (x : Exec) (s : State) : Res := runExec (x.vecOk 0x2A) x (vecWork x) s

/-- VEC_CMP_LE: Vector compare less-or-equal giving a mask (R174). -/
def execVecCmpLe (x : Exec) (s : State) : Res := runExec (x.vecOk 0x2B) x (vecWork x) s

/-- SEL: Vector select by mask (R174). -/
def execSel (x : Exec) (s : State) : Res := runExec (x.vecOk 0x2C) x (vecWork x) s

/-- FADD: Vector floating-point addition (R174). -/
def execFadd (x : Exec) (s : State) : Res := runExec (x.vecOk 0x30) x (vecWork x) s

/-- FSUB: Vector floating-point subtraction (R174). -/
def execFsub (x : Exec) (s : State) : Res := runExec (x.vecOk 0x31) x (vecWork x) s

/-- FMUL: Vector floating-point multiplication (R174). -/
def execFmul (x : Exec) (s : State) : Res := runExec (x.vecOk 0x32) x (vecWork x) s

/-- FMA: Vector fused multiply-add with one rounding (R174). -/
def execFma (x : Exec) (s : State) : Res := runExec (x.vecOk 0x33) x (vecWork x) s

/-- FDIV: Vector floating-point division (R174). -/
def execFdiv (x : Exec) (s : State) : Res := runExec (x.vecOk 0x34) x (vecWork x) s

/-- FSQRT: Vector floating-point square root (R174). -/
def execFsqrt (x : Exec) (s : State) : Res := runExec (x.vecOk 0x35) x (vecWork x) s

/-- FMIN: Vector floating-point minimumNumber (R174). -/
def execFmin (x : Exec) (s : State) : Res := runExec (x.vecOk 0x36) x (vecWork x) s

/-- FMAX: Vector floating-point maximumNumber (R174). -/
def execFmax (x : Exec) (s : State) : Res := runExec (x.vecOk 0x37) x (vecWork x) s

/-- FABS: Vector floating-point sign clear (R174). -/
def execFabs (x : Exec) (s : State) : Res := runExec (x.vecOk 0x38) x (vecWork x) s

/-- FNEG: Vector floating-point sign inversion (R174). -/
def execFneg (x : Exec) (s : State) : Res := runExec (x.vecOk 0x39) x (vecWork x) s

/-- FCVT: Vector conversion between floating-point and other types (R174). -/
def execFcvt (x : Exec) (s : State) : Res := runExec (x.vecOk 0x3A) x (vecWork x) s

/-- CVT: Vector conversion between integer widths (R174). -/
def execCvt (x : Exec) (s : State) : Res := runExec (x.vecOk 0x3B) x (vecWork x) s

/-- RSUM_S: Vector per-lane sum over the rows of a stream (R175). -/
def execRsumS (x : Exec) (s : State) : Res := runExec (x.vecOk 0x40) x (vecWork x) s

/-- RSUM_L: Vector sum of all elements of a row (R175). -/
def execRsumL (x : Exec) (s : State) : Res := runExec (x.vecOk 0x41) x (vecWork x) s

end Sys2Proof.Machine
end

