-- ==== Sys2Proof/Machine/Walk.lean ====
section
/-! DEFINITION. What the load check reads from a program's streams alone (R186, R189, R540): a walk through an access
stream with the values that follow from the program, the traffic it passes on, and the queue entries it pushes. -/

namespace Sys2Proof.Machine

/-- A DMAQ (`dmaq`) or REQ of a walk: how many tokens the stream has waited for before it, the bytes of its descriptor or
request where the program alone gives them, and whether the bytes that it does give break R219 for CLASP. -/
structure Use where
  dmaq : Bool
  tokens : Nat
  got : Option (List Byte)
  unclasped : Bool := false
  deriving DecidableEq, Repr

/-- An XFER of a walk: how many tokens the stream has waited for before it, its direction (`into` the crib), handle, byte offset,
first crib row and number of rows. -/
structure Xfer where
  into : Bool
  tokens : Nat
  handle : Nat
  off : Nat
  row : Nat
  rows : Nat
  deriving DecidableEq, Repr

/-- A control core as the load check knows it: a value is none where it derives from data (R540). -/
structure Walk where
  regs : SMap (Option DWord) := []
  preds : List (Option Bool) := [some true, some false, some false, some false]
  loops : List (Nat × Nat) := []
  pc : Nat := 0
  ended : Bool := false
  /-- a LOOP whose count derives from data. -/
  open' : Bool := false
  /-- the DMAQs and REQs in order. -/
  uses : List Use := []
  /-- bytes that the stream stored, by handle and offset; none where they derive from data. -/
  mem : List ((Nat × Nat) × Option Byte) := []
  /-- handles into which the stream stored at places or in a way that it alone does not give. -/
  stored : List Nat := []
  /-- entries pushed to the address queue and to the operand queue, the newest first. -/
  aq : List (Option DWord) := []
  oq : List (Option Word) := []
  /-- tokens that the stream has waited for, and that sum after each wait. -/
  tokens : Nat := 0
  waits : List Nat := []
  /-- the XFERs in order; one of which the program alone does not give all. -/
  xfers : List Xfer := []
  looseXfer : Bool := false
  deriving DecidableEq, Repr

/-- A register of the walk; S0 is 0 (R185). -/
def Walk.reg (k : Walk) (r : Nat) : Option DWord := if r = 0 then some 0 else mget (some 0) k.regs r

/-- The value of the instruction's predicate, where it is known (R186). -/
def Walk.holds (k : Walk) (c : CcWord) : Option Bool := (k.preds.getD c.pred.toNat none).map (· != c.pneg)

/-- Both values, where both are known. -/
def bothOf {α β : Type} (a b : Option α) (f : α → α → β) : Option β := match a, b with
  | some x, some y => some (f x y)
  | _, _ => none

/-- What a destination holds after a predicated write. -/
def afterWrite {α : Type} (p : Option Bool) (old new : Option α) : Option α := match p with
  | some true => new
  | some false => old
  | none => none

/-- RD takes a value, under the predicate. -/
def Walk.put (k : Walk) (c : CcWord) (v : Option DWord) : Walk :=
  let r := c.rd.toNat
  { k with
    pc := k.pc + 1
    regs := if r = 0 then k.regs else mset (some 0) k.regs r (afterWrite (k.holds c) (k.reg r) v) }

/-- The function of a two-operand instruction (R537). -/
def coreFn (opc : Nat) : Option (DWord → DWord → DWord) := match opc with
  | 0x01 => some fun a b => a + b
  | 0x02 => some fun a b => a - b
  | 0x03 => some fun a b => a &&& b
  | 0x04 => some fun a b => a ||| b
  | 0x05 => some fun a b => a ^^^ b
  | 0x06 => some fun a b => a <<< (b.toNat % 64)
  | 0x07 => some fun a b => a >>> (b.toNat % 64)
  | 0x08 => some fun a b => a.sshiftRight (b.toNat % 64)
  | 0x09 => some fun a b => if a.toInt ≤ b.toInt then a else b
  | 0x0A => some fun a b => if a.toInt ≤ b.toInt then b else a
  | 0x10 => some fun a b => a * b
  | 0x11 => some fun a b => BitVec.ofInt 64 (a.toInt * b.toInt / 2 ^ 64)
  | _ => none

/-- The comparison of a compare (R537). -/
def coreCmp (opc : Nat) : Option (DWord → DWord → Bool) := match opc with
  | 0x14 => some fun a b => a == b
  | 0x15 => some fun a b => decide (a.toInt < b.toInt)
  | 0x16 => some fun a b => decide (a.toNat < b.toNat)
  | _ => none

/-- A byte of a handle as the program alone gives it: what the stream stored last, else what the plan image holds. -/
def Walk.byteAt (image : Nat → List Byte) (k : Walk) (h off : Nat) : Option Byte :=
  match k.mem.find? fun e => e.1 == (h, off) with
  | some e => e.2
  | none => if k.stored.contains h then none else (image h)[off]?

/-- Bytes of a handle, where the program alone gives all of them. -/
def Walk.bytesAt (image : Nat → List Byte) (k : Walk) (h off len : Nat) : Option (List Byte) :=
  (List.range len).foldr (fun i o => o.bind fun l => (k.byteAt image h (off + i)).map (· :: l)) (some [])

/-- A store of `n` bytes (R537). -/
def Walk.store (k : Walk) (c : CcWord) (off : Option DWord) (n : Nat) (v : Option DWord) : Walk :=
  let h := c.x.toNat
  let k := { k with pc := k.pc + 1 }
  match k.holds c, off with
  | some false, _ => k
  | some true, some o =>
    { k with mem := (List.range n).foldl (fun m i =>
        ((h, o.toNat + i), v.map fun w => BitVec.ofNat 8 (w.toNat / 256 ^ i)) :: m) k.mem }
  | none, some o => { k with mem := (List.range n).foldl (fun m i => ((h, o.toNat + i), none) :: m) k.mem }
  | _, none => { k with mem := k.mem.filter fun e => e.1.1 != h, stored := h :: k.stored }

/-- The descriptor that a DMAQ passes on, as its bytes (R216). -/
def Walk.descBytes (image : Nat → List Byte) (k : Walk) (h off : Nat) : Option (List Byte) :=
  (k.bytesAt image h off 32).bind fun hd =>
    let n := field hd 0 2
    if n = 0 ∨ 4096 < n then none else (k.bytesAt image h (off + 32) (32 * n)).map (hd ++ ·)

/-- Where the program alone gives a descriptor's BLOCKS, GROUP and the CLASP bits, whether they break R219: with a group, CLASP is
on the last block alone. -/
def Walk.unclasped (image : Nat → List Byte) (k : Walk) (h off : Nat) : Bool :=
  match k.bytesAt image h off 3 with
  | none => false
  | some hd =>
    let n := field hd 0 2
    decide (1 ≤ field hd 2 1 ∧ field hd 2 1 ≤ 15 ∧ n ≤ 4096) && (List.range n).any fun i =>
      match k.byteAt image h (off + 55 + 32 * i) with
      | some b => b.getLsbD 0 != (i + 1 == n)
      | none => false

/-- An XFER; a predicate or an offset that derives from data leaves open which rows it moves. -/
def Walk.xfer (k : Walk) (c : CcWord) (into : Bool) (off : Option DWord) : Walk :=
  let k := { k with pc := k.pc + 1 }
  let n := c.imm.toNat
  match k.holds c, off with
  | some false, _ => k
  | some true, some o =>
    { k with xfers := k.xfers ++ [⟨into, k.tokens, c.x.toNat, o.toNat, n % 256, n / 256 % 256 + 1⟩] }
  | _, _ => { k with looseXfer := true }

/-- A DMAQ or a REQ; a predicate that derives from data counts as true. -/
def Walk.use (image : Nat → List Byte) (k : Walk) (c : CcWord) (dmaq : Bool) (off : Option DWord) : Walk :=
  let k := { k with pc := k.pc + 1 }
  if k.holds c = some false then k
  else
    let get (o : Nat) : Option (List Byte) :=
      if dmaq then k.descBytes image c.x.toNat o else k.bytesAt image c.x.toNat o 32
    let loose := dmaq && off.any fun o => k.unclasped image c.x.toNat o.toNat
    { k with uses := k.uses ++ [⟨dmaq, k.tokens, off.bind fun o => get o.toNat, loose⟩] }

/-- A queue push; one whose predicate is false pushes zero (R186). -/
def pushed {α : Type} (zero : α) (p : Option Bool) (v : Option α) : Option α := match p with
  | some true => v
  | some false => some zero
  | none => none

/-- One word of the walk, on logical array `larr`, of the stream `ws`; `image` gives the plan image's bytes of a handle (R186,
R537, R540). -/
def Walk.step (larr : Nat) (image : Nat → List Byte) (ws : List DWord) (k : Walk) : Walk := match ws[k.pc]? with
  | none => { k with ended := true }
  | some w =>
    let n := w.toNat
    let c := ccWordOf n
    let opc := bits n 63 58
    let a := k.reg c.rs1.toNat
    let b := if c.x.getLsbD 0 then some (immS c) else k.reg c.rs2.toNat
    let off := a.map fun v => v + immS c
    let next := { k with pc := k.pc + 1 }
    match coreFn opc, coreCmp opc with
    | some f, _ => k.put c (bothOf a b f)
    | none, some f =>
      let r := c.rd.toNat
      { next with preds := modifyNth k.preds r fun old => afterWrite (k.holds c) old (bothOf a b f) }
    | none, none => match opc with
      | 0x00 => { k with ended := true }
      | 0x0B => k.put c (some (immS c))
      | 0x0C => k.put c ((k.reg c.rd.toNat).map fun v => c.imm ++ v.extractLsb' 0 32)
      | 0x18 => match if c.x = 0 then a.map (·.toNat) else some c.imm.toNat with
        | none => { k with ended := true, open' := true }
        | some 0 => { k with pc := afterEndl (ws.drop (k.pc + 1)) 0 (k.pc + 1) }
        | some m => { next with loops := (k.pc + 1, m) :: k.loops }
      | 0x19 => match k.loops with
        | (s, m) :: l => if 2 ≤ m then { k with loops := (s, m - 1) :: l, pc := s } else { next with loops := l }
        | [] => next
      | 0x20 => k.put c none
      | 0x22 => k.put c none
      | 0x24 => k.put c (if c.x = 4 then some (BitVec.ofNat 64 larr) else none)
      | 0x21 => k.store c off (2 ^ c.rs2.toNat) (k.reg c.rd.toNat)
      | 0x2C => k.xfer c true a
      | 0x2D => { k.xfer c false a with mem := (k.store c none 0 none).mem, stored := (k.store c none 0 none).stored }
      | 0x28 => { next with aq := pushed 0 (k.holds c) a :: k.aq }
      | 0x29 => { next with oq := pushed 0 (k.holds c) (a.map fun v => v.extractLsb' 0 32) :: k.oq }
      | 0x2A =>
        let t := k.tokens + c.imm.toNat
        { next with tokens := t, waits := k.waits ++ [t] }
      | 0x30 => k.use image c true off
      | 0x31 => k.use image c false off
      | _ => next

/-- The walk of at most so many words. -/
def Walk.run (larr : Nat) (image : Nat → List Byte) (ws : List DWord) : Nat → Walk → Walk
  | 0, k => k
  | n + 1, k => if k.ended then k else Walk.run larr image ws n (k.step larr image ws)

/-- The entries a command's words pop at least, of the address and the operand queue (R204, R211). -/
def popsOf (ws : List DWordAt) : Nat × Nat :=
  ws.foldl (fun n w =>
    let x := w.x
    let binds := match x.w.que with
      | some q => ((List.range 6).filter fun i => q.bind.getLsbD i).length
      | none => 0
    let cells := match x.w.cell with | some c => c.bsrc == 2 && cellReadsB c.opc.toNat | none => false
    let vecs := match x.w.vec with | some v => b2n (v.s1 == 2) + b2n (v.s2 == 3) | none => 0
    let head := b2n (x.last && x.hdr.scale && x.hdr.sck) + 2 * b2n (x.last && x.hdr.act == 2)
    (n.1 + binds, n.2 + b2n cells + vecs + head)) (0, 0)

/-! ## The descriptors and requests of a stream (R216, R217, R272) -/

/-- The image bytes of a handle of an array: a PLAN-scope LOCAL handle with IMAGE set is filled from PLAN_DATA (R272). -/
def imageOf (data : List Byte) (m : Option HMap) (a : ArrId) (h : Nat) : List Byte :=
  match (hmapEnts m a).find? fun e => e.handle == h && e.entry.kind == 1 && e.entry.image && !e.entry.slotScope with
  | some e => slice data (e.imageSrc * 1024) e.entry.length.toNat
  | none => []

/-- The walk of a block's access stream on an array, in a slot of so many cycles: two words a cycle at most (R540). -/
def walkOf (data : List Byte) (m : Option HMap) (a : ArrId) (c : CodeBlock) (cycles : Nat) : Walk :=
  Walk.run a.arr (imageOf data m a) (accessWords c) (2 * cycles) {}

/-- A descriptor of a stream (R216): the tokens awaited before it, its group, its TOKEN bit and its blocks. -/
structure PlanDesc where
  tokens : Nat
  group : Nat
  token : Bool
  blocks : List Block
  deriving DecidableEq, Repr

/-- The descriptor in bytes. -/
def descIn (tokens : Nat) (bs : List Byte) : PlanDesc :=
  { tokens := tokens, group := if field bs 2 1 ≤ 15 then field bs 2 1 else 0, token := bit (field bs 3 1) 0
    blocks := (List.range (field bs 0 2)).map fun i => blockOf (slice bs (32 + 32 * i) 32) }

/-- The descriptors of a walk that the program alone gives. -/
def Walk.descs (k : Walk) : List PlanDesc :=
  k.uses.filterMap fun u => if u.dmaq then u.got.map (descIn u.tokens) else none

/-- The requests of a walk that the program alone gives, with the tokens awaited before each. -/
def Walk.reqs (k : Walk) (a : ArrId) : List (Nat × UnitReq) :=
  k.uses.filterMap fun u => if u.dmaq then none else u.got.map fun bs => (u.tokens, unitReqOf bs a)

/-- The program alone gives every descriptor of the walk. -/
def Walk.allDescs (k : Walk) : Bool := k.uses.all fun u => !u.dmaq || u.got.isSome
/-- The program alone gives every request of the walk. -/
def Walk.allReqs (k : Walk) : Bool := k.uses.all fun u => u.dmaq || u.got.isSome

/-- Two blocks of a descriptor share a destination byte, one of them an atomic (R257). -/
def overlapBad (d : PlanDesc) : Bool :=
  let same (a b : Endpoint) : Option (Nat × Nat) := match a, b with
    | .loft d a h o, .loft d' a' h' o' => if d = d' ∧ a = a' ∧ h = h' then some (o, o') else none
    | .far p d a h o, .far p' d' a' h' o' => if p = p' ∧ d = d' ∧ a = a' ∧ h = h' then some (o, o') else none
    | _, _ => none
  d.blocks.zipIdx.any fun e => d.blocks.zipIdx.any fun f =>
    decide (f.2 < e.2) && (e.1.aop != 0 || f.1.aop != 0) && match same (endpointOf e.1.dst) (endpointOf f.1.dst) with
      | some (o, o') => rowsMeet (o, e.1.rows, e.1.dstride, e.1.len) (o', f.1.rows, f.1.dstride, f.1.len)
      | none => false

/-- The group a descriptor completes, and the array where it does (R231). -/
def completes (d : PlanDesc) : Option (Nat × ArrId) := match d.blocks.getLast? with
  | some b => (match endpointOf b.dst with
    | .loft die arr _ _ => if d.group = 0 then none else some (d.group, ⟨die, arr⟩)
    | _ => none)
  | none => none

/-- What holds a byte: the loft behind a handle of an array of this package, or its PLAN region. -/
inductive Holder where
  | loft (die arr handle : Nat)
  | planRegion
  deriving DecidableEq, Repr

/-- What a source endpoint reads, with the byte where it starts, straight or through a window (R218, R239, R242): `map` gives the
handles of this package. -/
def sourceOf (pkg : Nat) (map : Nat → Nat → Nat → Handle) (e : Endpoint) : Option (Holder × Nat) :=
  let own (e : Endpoint) : Option (Nat × Nat × Nat × Nat) := match e with
    | .loft d a h o => some (d, a, h, o)
    | .far p d a h o => if p = pkg then some (d, a, h, o) else none
    | _ => none
  (own e).bind fun q =>
    let x := map q.1 q.2.1 q.2.2.1
    if x.kind = 2 then some (.planRegion, x.target.toNat % 2 ^ 40 + q.2.2.2)
    else if x.kind = 3 then (own (endpointOf x.target)).map fun r => (.loft r.1 r.2.1 r.2.2.1, r.2.2.2 + q.2.2.2)
    else some (.loft q.1 q.2.1 q.2.2.1, q.2.2.2)

/-- A block sends bytes of one of these ranges, each with its first byte and its end, to a SPACE 1 endpoint (R27). -/
def sendsOut (pkg : Nat) (map : Nat → Nat → Nat → Handle) (ranges : List (Holder × Nat × Nat)) (b : Block) : Bool :=
  match endpointOf b.dst, sourceOf pkg map (endpointOf b.src) with
  | .far .., some (w, off) =>
    (List.range b.rows).any fun i =>
      let lo := off + i * b.sstride
      ranges.any fun r => r.1 == w && decide (lo < r.2.2 ∧ r.2.1 < lo + b.rowBytes)
  | _, _ => false

end Sys2Proof.Machine
end

