-- ==== Sys2Proof/Machine/Follow.lean ====
section
/-! DEFINITION. The load check's run of a template (R61, R102..R104, R131, R139, R206, R252, R276, R278, R332, R536; log 11): the
commands of each JOB slot in the order of their stated cycles, by the meanings that they have at run time, on cribs and lofts
whose data are all 0, with the transfers that the program alone gives. What a command needs that the program alone does not
give ends the run of its slot, and the tests that rest on it are left to Config.simulate. -/

namespace Sys2Proof.Machine

/-! ## The slots of a template -/

/-- The commands of a block as the stores hold it, a COMPAT block translated. -/
def commandsOf (v : Env) (p : Plan) (c : CodeBlock) : List (List DWordAt) :=
  match blockCommands v (storedBlock p c) with
  | .ok cs => cs
  | .error _ => []

/-- The walk of a block in a slot of a variant. -/
def slotWalk (data : List Byte) (p : Plan) (v : Variant) (q : SlotRec) (a : ArrId) (c : CodeBlock) : Walk :=
  walkOf data (mapFor p v.hmap false v.num) a c (q.length * cyclesPerQuantum v.gear)

/-- What a JOB slot runs on one array: the array, its block and the walk of the access stream. -/
abbrev SlotBlock := ArrId × CodeBlock × Walk

/-- The JOB slots of a variant's template with what each array runs. -/
def jobBlocks (data : List Byte) (p : Plan) (v : Variant) : List (SlotRec × List SlotBlock) :=
  ((templateFor p v).slots.filter fun q => q.kind == 0).map fun q =>
    (q, (slotArrs v q).flatMap fun a => ((codeFor p v.num a).filter fun c => c.prog == q.prog).map fun c =>
      (a, c, slotWalk data p v q a c))

/-- Every transfer, request and queue entry of a slot is one that the program alone gives. -/
def slotKnown (bs : List SlotBlock) : Bool :=
  bs.all fun b =>
    let k := b.2.2
    !k.open' && !k.looseXfer && k.allDescs && k.allReqs && k.aq.all (·.isSome) && k.oq.all (·.isSome)

/-! ## The operations of a decoded word -/

/-- The work of a word's cell, fold or network operation or transfer. -/
def engineWork (v : Env) (x : Exec) : Option WordOp := match x.w.cell, x.w.acc, x.w.net with
  | some c, _, _ =>
    let o := c.opc.toNat
    some (if o = 0x10 ∨ o = 0x11 then transformWork v x (o == 0x11) else if accumulating c.opc then accWork x else cellWork x)
  | none, some a, _ => some (foldWork x (a.aop == 3))
  | none, none, some n => some (if n.nopc = 1 then netWork x autoStep none else mulxWork x)
  | none, none, none => match x.w.crib with
    | some c => if c.xop = 1 then some (loadWork x) else if c.xop = 2 then some (storeWork x) else none
    | none => none

/-- The operations of a word, as the table's commands run them; a word with none is a delay or bindings alone. -/
def wordWorksOf (v : Env) (x : Exec) : List WordOp :=
  match (engineWork v x).toList ++ (if x.w.vec.isSome then [vecWork x] else []) with
  | [] => [delayWork]
  | l => l

/-- Run the operations of a word on an array. -/
def State.runWorks (s : State) (x : Exec) : State :=
  let l := wordWorksOf s.env x
  l.zipIdx.foldl (fun s o => s.runWord { x with opens := o.2 == 0, closes := o.2 + 1 == l.length } o.1) s

/-! ## The run -/

/-- A command of a slot with the cycle that its GAP and the stated counts before it give (R191, R206). -/
structure SlotCmd where
  arr : ArrId
  start : Nat
  ws : List DWordAt
  deriving DecidableEq, Repr

/-- The cycle at which a command that starts on cycle n ends, as far as its words give it (R196, R206). -/
def commandEnd (e : Env) (ws : List DWordAt) (n : Nat) : Nat :=
  (ws.foldl (fun (acc : Nat × Bool) w =>
    (acc.1 + wordCount e w.x - bareCycles acc.2 w.x, acc.2 || carriesSlot w.x)) (n, false)).1

/-- The commands of an array in order. -/
def arrayCmds (e : Env) (p : Plan) (a : ArrId) (c : CodeBlock) : List SlotCmd :=
  ((commandsOf e p c).foldl (fun (acc : Nat × List SlotCmd) ws =>
    let gap : Nat := match ws with | w :: _ => w.x.hdr.gap.toNat | [] => 0
    (commandEnd e ws (acc.1 + gap), ⟨a, acc.1 + gap, ws⟩ :: acc.2)) (c.start, [])).2.reverse

/-- The commands of a slot in the order of their stated cycles. -/
def slotCmds (e : Env) (p : Plan) (bs : List SlotBlock) : List SlotCmd :=
  sortBy (·.start) (bs.flatMap fun b => arrayCmds e p b.1 b.2.1)

/-- The load check's run of a slot as it goes: the state; descriptors and requests still to come; tokens posted by each array;
evaluation-domain automorphism results not yet verified, each with its tag plus 1, by array and crib row or loft row (R102);
what is found: tests that fail with the array, encoding LOADs with handle and set, places to report; the slot's arrays; whether
an earlier slot was not followed to its end (`past`), and whether this slot or an earlier one runs a DOMAIN program (`far`);
whether the program alone no longer gives what follows. -/
structure Dry where
  s : State
  descs : List (ArrId × PlanDesc) := []
  reqs : List (ArrId × Nat × UnitReq) := []
  xfers : List (ArrId × Xfer) := []
  posted : SMap Nat := []
  auto : SMap Nat := []
  bad : List (Nat × ArrId) := []
  loads : List (ArrId × Nat × Nat) := []
  report : List (ArrId × Nat) := []
  arrs : List ArrId := []
  past : Bool := false
  far : Bool := false
  lost : Bool := false
  deriving DecidableEq, Repr

/-- A test fails at an array. -/
def Dry.fail (d : Dry) (test : Nat) (a : ArrId) : Dry := { d with bad := d.bad ++ [(test, a)] }

/-- The states of a handle's sheaves do not follow from what the run has followed: a slot that it could not follow may have
changed them, or another package that shares a DOMAIN program and may write the handle (R240, R242). -/
def Dry.unsure (d : Dry) (a : ArrId) (h : Nat) : Bool :=
  let e := handleOf (d.s.arr a) h
  e.sheaf && (d.far && e.rwrite || d.past && (!e.slotScope || !d.arrs.contains a ||
    (d.s.sheafParts a h).any fun p => p.arr.any fun b => !d.arrs.contains b))

/-- Such a handle lies behind an endpoint. -/
def Dry.unsureAt (d : Dry) (w : DWord) : Bool := match d.s.ownEndpoint (endpointOf w) with
  | .loft x y h _ => d.unsure ⟨x, y⟩ h
  | _ => false

/-- Bytes of a loft that a transfer or a unit writes, as far as the states go: OPEN in a sheaf (R52, R240). -/
def State.dryWrite (s : State) (a : ArrId) (h off len : Nat) : State :=
  let v := s.env.psets
  s.aside a fun x => (limbStarts (handleOf x h) (sheafLogn v (handleOf x h)) off len).foldl
    (fun x i => trackWrite v x h i {}) x

/-- A block of a descriptor, as far as the states go (R40, R59, R60, R240, R260): the state, and whether a sheaf leaves the
package OPEN. -/
def State.dryBlock (s : State) (b : Block) : State × Bool :=
  let src := s.ownEndpoint (endpointOf b.src)
  let from' := s.sheafSource src
  match s.ownEndpoint (endpointOf b.dst) with
  | .loft dd aa h o =>
    let a : ArrId := ⟨dd, aa⟩
    let e := handleOf (s.arr a) h
    let offs := (List.range b.rows).map fun r => o + r * b.dstride
    let v : Arrival :=
      { handle := h, off := o, rows := List.replicate b.rows (List.replicate b.len 0), dstride := b.dstride, aop := b.aop
        ver := match from' with
          | some (_, _, f, p) => f.ver.getLsbD (polyAt f (sheafLogn s.env.psets f) p)
          | none => false }
    if b.aop ≠ 0 then (s.openSheaves a e v, false)
    else match src, (if e.sheaf then from' else none) with
      | .host .., _ => ((polysOf s.env e offs b.len).foldl (fun s n => s.anchorStored a h n)
          (offs.foldl (fun s o => s.dryWrite a h o b.len) s), false)
      | _, some (_, _, f, p) => match sheafOf s.env f p with
        | some (c, dom, l) => (s.landSheaf a v c dom l, false)
        | none => (s, false)
      | _, none => (offs.foldl (fun s o => s.dryWrite a h o b.len) s, false)
  | .bad => (s, false)
  | _ => match from' with
    | some (_, _, f, p) =>
      (s, !f.evalDom && (polysOf s.env f ((List.range b.rows).map fun r => p + r * b.sstride) b.rowBytes).any fun n =>
        decide (13 < (f.cst n).toNat))
    | none => (s, false)

/-- Keys of crib rows and loft rows of an array in the map of automorphism results. -/
def autoCrib (a : ArrId) (r : Nat) : Nat := globalOf a * 16384 + r
/-- The key of a loft row. -/
def autoLoft (a : ArrId) (r : Nat) : Nat := globalOf a * 16384 + 1024 + r

/-- A polynomial of a handle's sheaves is between the first and the completing command of a rescale (R536). -/
def State.midRescale (s : State) (a : ArrId) (h : Nat) (polys : List Nat) : Bool :=
  (s.sheafParts a h).any fun p => p.arr.any fun b => (s.arr b).track.any fun e =>
    e.1 / 512 == p.handle && polys.contains (e.1 / 128 % 4) && e.2.stage && e.2.drop != []

/-- Some of the sheaves that a block reads is between the first and the completing command of a rescale (R536). -/
def State.blockMidRescale (s : State) (b : Block) : Bool := (s.sheavesRead b).any fun p => s.midRescale p.1 p.2.1 [p.2.2]

/-- The marks of automorphism results that a block takes from the loft rows of one array of this package to those of another
(R102). -/
def State.blockMarks (s : State) (m : SMap Nat) (b : Block) : SMap Nat :=
  match s.ownEndpoint (endpointOf b.src), (if b.aop = 0 then s.ownEndpoint (endpointOf b.dst) else .bad) with
  | src, .loft dd da dh doff =>
    let y := s.arr ⟨dd, da⟩
    let n := (b.len + 1023) / 1024
    (List.range (b.rows * n)).foldl (fun m i =>
      let to' := autoLoft ⟨dd, da⟩ (((handleOf y dh).target.toNat + doff + i / n * b.dstride) / 1024 + i % n)
      let mark := match src with
        | .loft sd sa sh so =>
          mget 0 m (autoLoft ⟨sd, sa⟩ (((handleOf (s.arr ⟨sd, sa⟩) sh).target.toNat + so + i / n * b.sstride) / 1024 + i % n))
        | _ => 0
      mset 0 m to' mark) m
  | _, _ => m

/-- Loft rows that a unit writes hold no automorphism result any more. -/
def State.clearMarks (s : State) (m : SMap Nat) (a : ArrId) (h off len : Nat) : SMap Nat :=
  let lo := (handleOf (s.arr a) h).target.toNat + off
  (List.range ((lo + len + 1023) / 1024 - lo / 1024)).foldl (fun m i => merase m (autoLoft a (lo / 1024 + i))) m

/-- A descriptor lands. -/
def Dry.land (d : Dry) (a : ArrId) (e : PlanDesc) : Dry :=
  let d := if e.blocks.any fun b => d.unsureAt b.src || d.unsureAt b.dst then { d with lost := true } else d
  let mid := e.blocks.any d.s.blockMidRescale
  let r := e.blocks.foldl (fun (acc : State × Bool) b =>
    let t := acc.1.dryBlock b
    (t.1, acc.2 || t.2)) (d.s, false)
  let d := { d with
    s := r.1, descs := d.descs.erase (a, e), auto := e.blocks.foldl d.s.blockMarks d.auto
    posted := if e.token then mset 0 d.posted (globalOf a) (mget 0 d.posted (globalOf a) + 1) else d.posted }
  if !d.lost && (r.2 || mid) then d.fail 80 a else d

/-- A unit serves a request, as far as the states go: a thresher input that R139 does not accept fails test 82. -/
def Dry.serve (d : Dry) (a : ArrId) (n : Nat) (u : UnitReq) : Dry :=
  let d := { d with reqs := d.reqs.erase (a, n, u) }
  let open' (d : Dry) (a : ArrId) (h off len : Nat) : Dry :=
    { d with s := d.s.dryWrite a h off len, auto := d.s.clearMarks d.auto a h off len, lost := d.lost || d.unsure a h }
  match endpointOf u.dst with
  | .loft dd aa h off =>
    match u.unit with
    | 1 => open' d ⟨dd, aa⟩ h off (4 * u.len)
    | 2 => ((List.range 8).filter fun k => bit u.p2 k).foldl (fun d k => open' d ⟨k, aa⟩ h off u.len) d
    | 3 =>
      let w := u.src.toNat
      let d := if d.unsure a (bits w 7 0) || d.unsure a (bits w 15 8) then { d with lost := true } else d
      let taken (h poly : Nat) : Bool := match d.s.thresherLimb a h poly with
        | .error (7, 5) => false
        | _ => true
      let mid := !d.lost && [bits w 7 0, bits w 15 8].any fun h => d.s.midRescale a h [0, 1]
      let d := if mid then d.fail 80 a else d
      let ok := d.lost || d.s.oneSet a (bits w 7 0) (bits w 15 8) && taken (bits w 7 0) 0 &&
        taken (bits w 15 8) (if bits w 7 0 = bits w 15 8 then 1 else 0)
      let rs := d.s.env.pset u.p0
      let d := open' d ⟨dd, aa⟩ h off ((bits w 49 33 + 1) * smallBytes rs.lweN rs.lweLogq)
      if ok then d else d.fail 82 a
    | _ =>
      let len := 4 * limbBytes (d.s.env.pset u.p0).logn
      { d with
        s := d.s.bindSheaf ⟨dd, aa⟩ h, auto := d.s.clearMarks d.auto ⟨dd, aa⟩ h off len
        lost := d.lost || d.unsure ⟨dd, aa⟩ h }
  | _ => d

/-- An XFER takes place, with what it does to the states and the marks (R75, R102, R240). -/
def Dry.xfer (d : Dry) (a : ArrId) (t : Xfer) : Dry :=
  let ps := d.s.env.psets
  let e := handleOf (d.s.arr a) t.handle
  let loft (i : Nat) : Nat := autoLoft a ((e.target.toNat + t.off) / 1024 + i)
  let crib (i : Nat) : Nat := autoCrib a (t.row + i)
  let c : CcWord := { arr := a, pred := 0, pneg := false, rd := 0, rs1 := 0, rs2 := 0, x := 0, imm := 0, dets := [] }
  let move (f g : Nat → Nat) : SMap Nat := (List.range t.rows).foldl (fun m i => mset 0 m (g i) (mget 0 d.auto (f i))) d.auto
  let d := { d with xfers := d.xfers.erase (a, t) }
  if (xferFault e t.off t.rows).isSome || d.unsure a t.handle then { d with lost := true }
  else if t.into then { d with s := d.s.modArr a (xferIn ps c t.handle t.off t.row t.rows), auto := move loft crib }
  else { d with s := d.s.aside a (xferOut ps c t.handle t.off t.row t.rows), auto := move crib loft }

/-- Tokens that an array has posted. -/
def Dry.tokens (d : Dry) (a : ArrId) : Nat := mget 0 d.posted (globalOf a)

/-- Every descriptor and request that waits for no more tokens, and whose group no command waits for, takes place. -/
def Dry.due (waited : List (Nat × ArrId)) (d : Dry) : Dry :=
  let d := (d.descs.filter fun e => decide (e.2.tokens ≤ d.tokens e.1) && match completes e.2 with
    | some g => !waited.contains g
    | none => true).foldl (fun d e => d.land e.1 e.2) d
  let d := (d.xfers.filter fun e => decide (e.2.tokens ≤ d.tokens e.1)).foldl (fun d e => d.xfer e.1 e.2) d
  (d.reqs.filter fun e => decide (e.2.1 ≤ d.tokens e.1)).foldl (fun d e => d.serve e.1 e.2.1 e.2.2) d

/-- The transfers of the group that a command waits for take place (R232). -/
def Dry.await (d : Dry) (g : Nat) (a : ArrId) : Dry :=
  if g = 0 then d
  else match d.descs.find? fun e => completes e.2 == some (g, a) with
    | some e => d.land e.1 e.2
    | none => d

/-! ## What a word shows -/

/-- A port's binding without its place in it. -/
def Binding.whole (b : Binding) : Binding := { b with next := 0 }

/-- The bindings that a word has read or written through a port, each with the rows of it (R211, R214, R215), from the state of
the array before and after. A word pops address-queue entries for the ports that it binds, then for those that use up an entry:
where several do, the entries between a port's first and last are not told apart. -/
def portUses (x : Exec) (y z : Arr) (p : Nat) : List (Binding × List Nat) :=
  let bits' := (x.w.que.getD { bind := 0, omode := 0 }).bind
  let bound := (List.range 6).filter fun q => bits'.getLsbD (5 - q)
  let popped := (y.aq.take (y.aq.length - z.aq.length)).map bindingOf
  let first (q : Nat) : Binding := match (bound.zip popped).find? fun e => e.1 == q with
    | some e => e.2
    | none => mget {} y.ports q
  let last (q : Nat) : Binding := mget {} z.ports q
  let used := (List.range 6).filter fun q => last q != first q
  let rest := popped.drop bound.length
  let rolled (q : Nat) : Bool := (last q).whole != (first q).whole || decide ((last q).next < (first q).next)
  let alone := used == [p] || used.filter rolled == [p]
  let chain := if rest.isEmpty then [first p]
    else if alone then first p :: rest
    else if rolled p then [first p, last p] else [first p]
  if !used.contains p then []
  else chain.zipIdx.map fun e =>
    let from' := if e.2 = 0 then e.1.next else 0
    let to' := if e.2 + 1 = chain.length then (last p).next else e.1.nrows
    (e.1, (List.range (to' - from')).map (from' + ·))

/-- The loft rows that a word has moved through a port: for each handle the rows' addresses in units of 1,024 bytes. -/
def portRows (x : Exec) (y z : Arr) (p : Nat) : List (Nat × List Nat) :=
  (portUses x y z p).map fun u =>
    let e := handleOf z u.1.handle
    (u.1.handle, if e.kind = 1 then u.2.map fun (i : Nat) => e.target.toNat / 1024 + (u.1.row0 + (i : Int) * u.1.stride).toNat else [])

/-- The handles that a word has read or written through its ports: those of its rows, and of the queue entries it has popped. -/
def portHandles (x : Exec) (y z : Arr) : List Nat :=
  (((List.range 6).flatMap (portUses x y z)).map (·.1.handle) ++
    (y.aq.take (y.aq.length - z.aq.length)).map fun w => (bindingOf w).handle).eraseDups

/-- A word's VERIFY reaches a sheaf of which some limbs have passed a RESCALE stage and others not (R536): `t` is the tracked
state that its result row has after it. -/
def State.halfRescaled (s : State) (x : Exec) (k : Ctx) (base n : Nat) (t : RowSt) : Bool :=
  let e := handleOf (s.arr x.arr) t.handle
  let top := limbPos k.ps e.ext e.level.toNat e.level.toNat
  let want := if x.hdr.rescale then [top] else []
  let level := e.level.toNat - want.length
  let parts := s.sheafParts x.arr t.handle
  x.last && x.hdr.verify && t.tracked && e.sheaf && (List.range (level + 1)).any fun i =>
    let r := s.limbState parts (k.ps.logn == 17) t.poly i {}
    (heldRow k base n (limbPos k.ps (e.ext && !want.any fun p => decide (k.ps.lq ≤ p)) level i)).isNone &&
      (if r.stage then r.drop else []) != want

/-- A word extends a polynomial of a BFV set exactly to special primes that R131 finds too short. -/
def State.shortBfv (s : State) (x : Exec) (k : Ctx) : Bool :=
  let short (d : Conv) : Bool :=
    let big := prodL ((List.range k.ps.lp).map fun i => (k.v.limb k.ps (k.ps.lq + i)).q)
    decide (bitLen big < bitLen (k.prod d.base) + k.ps.logn + 5)
  let y := s.arr x.arr
  let special (p : Nat) : Bool := decide (k.ps.lq ≤ limbAt k.ps k.c p ∧ limbAt k.ps k.c p ≠ 0x7F)
  k.ps.scheme == 2 && match x.w.cell, x.w.acc with
    | some c, _ => c.opc == 3 && c.bsrc == 0 && (List.range (cribRows k.c)).any fun p =>
        match (rowState y (k.c.arow.toNat + p)).kind, (rowState y (k.c.brow.toNat + p)).kind with
        | .part d, .count d' _ 3 => special p && d == d' && short d
        | _, _ => false
    | none, some a => (List.range (accSteps k.c a)).any fun st =>
        let t := mget {} y.accTag (accEntry a st)
        let q := (k.v.prime a.fprime.toNat).q
        match tagConv k t q with
        | some d => special (st % cribRows k.c) && tagExtends k t q d && short d
        | none => false
    | none, none => false

/-- The operands of a word's pointwise product (R102): crib rows, and whether it takes rows of the ports LS0, LS1. -/
def productReads (w : LongWord) (c : CribSlot) : List Nat × List Nat :=
  let n := cribRows c
  let a := (List.range n).map (c.arow.toNat + ·)
  let b := (List.range n).map (c.brow.toNat + ·)
  let cell : List Nat × List Nat := match w.cell with
    | some x => if x.opc = 0x06 ∨ x.opc = 0x08 ∨ x.opc = 0x09 then
        (a ++ (if x.bsrc = 0 then b else []), if x.bsrc = 1 then [0] else []) else ([], [])
    | none => ([], [])
  let vec : List Nat × List Nat := match w.vec with
    | some v => if v.vopc = 0x04 then
        ((if v.s1 = 1 then a else []) ++ (if v.s2 = 2 then b else []), (if v.s1 = 0 then [0] else []) ++ (if v.s2 = 1 then [1] else []))
      else ([], [])
    | none => ([], [])
  (cell.1 ++ vec.1, cell.2 ++ vec.2)

/-- The rows a word writes. -/
def writtenRows (v : Env) (w : LongWord) (c : CribSlot) : List Nat := match firstWritten w c with
  | none => []
  | some r =>
    let opc := match w.cell with | some x => x.opc.toNat | none => 0
    let n := if opc = 0x10 ∨ opc = 0x11 then (c.nlimb.toNat + 1) * rowsPerLimb (v.pset c.pset.toNat)
      else match w.vec with
        | some x => if w.cell.isNone ∧ w.net.isNone ∧ w.acc.isNone then vecRows x (cribRows c) else cribRows c
        | none => cribRows c
    (List.range n).map (r.toNat + ·)

/-- The automorphism results after a word, and the tags of those that its pointwise product takes (R102): the result of an
automorphism in the evaluation domain, as it is and where MOVE, STORE and LOAD bring it. -/
def autoStepOf (v : Env) (a : ArrId) (x : Exec) (port : Nat → List Nat) (m : SMap Nat) : SMap Nat × List Nat :=
  match x.w.crib with
  | none => (m, [])
  | some c =>
    let reads := productReads x.w c
    let keys := reads.1.map (autoCrib a) ++ reads.2.flatMap fun p => (port p).map (autoLoft a)
    let found := ((keys.map (mget 0 m)).filter (· != 0)).map (· - 1)
    let ds := writtenRows v x.w c
    let stored := port 4
    let live := (ds.map (autoCrib a) ++ stored.map (autoLoft a)).foldl merase m
    let put (m' : SMap Nat) (e : Nat × Nat) : SMap Nat := mset 0 m' e.1 (mget 0 m e.2)
    let arow (i : Nat) : Nat := autoCrib a (c.arow.toNat + i)
    let isMove := match x.w.cell with | some o => o.opc == 1 | none => false
    let isAuto := match x.w.net with | some n => n.nopc == 1 && n.dom | none => false
    let after :=
      if isAuto then ds.foldl (fun m r => mset 0 m (autoCrib a r) (x.hdr.tag.toNat + 1)) live
      else if isMove then (ds.zipIdx.map fun r => (autoCrib a r.1, arow r.2)).foldl put live
      else if c.xop = 1 then ((ds.zip (port 0)).map fun r => (autoCrib a r.1, autoLoft a r.2)).foldl put live
      else if c.xop = 2 then (stored.zipIdx.map fun r => (autoLoft a r.1, arow r.2)).foldl put live
      else live
    (after, found)

/-- One word of a command: its run, and what it shows. `farSheaf`: some sheaf of the variant lies partly in another package, so
that a failing verification shows nothing (log 32). -/
def Dry.word (farSheaf : Bool) (a : ArrId) (d : Dry) (w : DWordAt) : Dry :=
  if d.lost then d
  else
    let x := { w.x with arr := a }
    let s := d.s
    let v := s.env
    let y := s.arr a
    let op := (engineWork v x).getD delayWork
    let k := execCtx v x op y
    let t := s.runWorks x
    let z := t.arr a
    if (portHandles x y z).any (d.unsure a) then { d with lost := true }
    else
    let d := if s.shortBfv x k then d.fail 82 a else d
    let d := match op.dest with
      | some (base, n) => if s.halfRescaled x k base n (rowState z base) then d.fail 80 a else d
      | none => d
    let rows (p : Nat) : List Nat := (portRows x y z p).flatMap (·.2)
    let read := ((List.range 4).flatMap (portRows x y z)).filter fun r => !r.2.isEmpty
    let wrote := [4, 5].flatMap rows
    let polys (r : Nat × List Nat) : List Nat :=
      let e := handleOf y r.1
      r.2.map fun i => polyAt e (sheafLogn v.psets e) (i * 1024 - e.target.toNat)
    let d := if !x.hdr.rescale && read.any fun r => s.midRescale a r.1 (polys r) then d.fail 80 a else d
    let d := if read.any fun r => r.2.any wrote.contains then d.fail 72 a else d
    let isLoad := match x.w.crib with | some c => c.xop == 1 | none => false
    let hs := if isLoad then (((portRows x y z 0).map (·.1)).filter fun h => (encOf z h).isSome).eraseDups else []
    let d := { d with loads := d.loads ++ hs.map fun h => (a, h, k.c.pset.toNat) }
    let d := if !hs.isEmpty && k.ps.scheme == 3 then d.fail 82 a else d
    let m := autoStepOf v a x rows d.auto
    let d := { d with s := t, auto := m.1, report := d.report ++ (m.2.map fun tag => (a, tag)) }
    if z.waiting then { d with lost := true }
    else if z.dead then
      let d := { d with lost := true }
      match z.lastFault with
      | some f =>
        if f.kind = 1 ∧ f.sub = 0 ∧ (f.point = 1 ∨ f.point = 2 ∨ f.point = 5) ∧ !farSheaf then d.fail 80 a else d
      | none => d
    else d

/-- One command of the run. -/
def Dry.cmd (farSheaf : Bool) (waited : List (Nat × ArrId)) (d : Dry) (c : SlotCmd) : Dry :=
  if d.lost then d
  else
    let h := c.ws.head?.map (·.x.hdr)
    let d := (d.due waited).await (h.elim 0 (·.waitg.toNat)) c.arr
    let d := c.ws.foldl (Dry.word farSheaf c.arr) d
    if h.any (·.token) then { d with posted := mset 0 d.posted (globalOf c.arr) (d.tokens c.arr + 1) } else d

/-- The groups and arrays that the commands of a slot wait for. -/
def waitedGroups (cs : List SlotCmd) : List (Nat × ArrId) :=
  (cs.filterMap fun c => match c.ws with
    | w :: _ => if w.x.hdr.waitg = 0 then none else some (w.x.hdr.waitg.toNat, c.arr)
    | [] => none).eraseDups

/-- A slot as it starts in the load check's run: its handles, every store and queue as its streams give them, and no job. The
slot counts as faulted, so that no command waits for a flag (R320). -/
def State.dryStart (s : State) (p : Plan) (q : SlotRec) (bs : List SlotBlock) : State :=
  let run : SlotRun := { slot := q.slot, epoch := s.epoch, started := true, faulted := true }
  let s := { s with runs := [run] }.startRun p q 0
  bs.foldl (fun s b => s.modArr b.1 fun x =>
    { x with aq := b.2.2.aq.reverse.filterMap id, oq := b.2.2.oq.reverse.filterMap id }) s

/-- What the load check's run of a slot gives. -/
structure SlotDry where
  slot : Nat
  /-- the run reached the slot's end. -/
  whole : Bool
  bad : List (Nat × ArrId)
  loads : List (ArrId × Nat × Nat)
  report : List (ArrId × Nat)
  /-- the cycle on which each array's last command ends. -/
  ends : List (ArrId × Nat)
  deriving DecidableEq, Repr

/-- Some table of a variant places limbs of residues in another package. -/
def farLimbs (pkg : Nat) (p : Plan) (v : Variant) : Bool :=
  p.owners.any fun o => bit o.vmask v.num && (p.tensors.any fun t => t.id == o.tensor && t.dtype == 0) &&
    o.ents.any fun e => e.pkg != pkg

/-- The run of one slot, from where the slots before have left the handles and the marks of R102 in the lofts. One that is not
followed to its end leaves them as they were, and what it may have changed is unsure from then on. -/
def dryStep (e : Env) (p : Plan) (v : Variant) (acc : Dry × List SlotDry) (b : SlotRec × List SlotBlock) :
    Dry × List SlotDry :=
  let far := acc.1.far || domainSlot p b.1
  if !slotKnown b.2 then
    ({ acc.1 with past := true, far := far },
      acc.2 ++ [{ slot := b.1.slot, whole := false, bad := [], loads := [], report := [], ends := [] }])
  else
    let cs := slotCmds e p b.2
    let d : Dry :=
      { s := acc.1.s.dryStart p b.1 b.2, descs := b.2.flatMap fun x => x.2.2.descs.map fun q => (x.1, q)
        reqs := b.2.flatMap fun x => (x.2.2.reqs x.1).map fun q => (x.1, q.1, q.2)
        xfers := b.2.flatMap fun x => x.2.2.xfers.map fun q => (x.1, q)
        auto := acc.1.auto, arrs := slotArrs v b.1, past := acc.1.past, far := far }
    let waited := waitedGroups cs
    let d := (cs.foldl (Dry.cmd (farLimbs d.s.dom.pkgAddr p v) waited) d).due waited
    let after : Dry := if d.lost then { acc.1 with past := true, far := far }
      else { s := d.s, auto := d.auto.filter fun m => decide (1024 ≤ m.1 % 16384), past := acc.1.past, far := far }
    (after, acc.2 ++ [
      { slot := b.1.slot, whole := !d.lost, bad := d.bad, loads := d.loads, report := d.report.eraseDups
        ends := b.2.map fun x => (x.1, (d.s.arr x.1).cycle) }])

/-- The arrays that a variant gives a program or handles: no other array acts in the load check's run. -/
def dryArrs (p : Plan) (v : Variant) : List ArrId :=
  (variantArrs v).filter fun a => !(codeFor p v.num a).isEmpty || !(hmapEnts (hmapOf p v.hmap false) a).isEmpty

/-- The load check's run of a variant's template: its JOB slots in the order of their START, each of them bound. -/
def dryRun (s : State) (data : List Byte) (p : Plan) (v : Variant) : List SlotDry :=
  let t := { s with
    plan := some p, vs := { s.vs with current := v.num }, arrs := [], gran := [], runs := [], jobs := [], dies := []
    mem := {} }
  let t := (dryArrs p v).foldl (fun s a => s.storeOne p v a) t
  ((sortBy (fun b => b.1.start) (jobBlocks data p v)).foldl (dryStep (planEnv p) p v) ({ s := t }, [])).2

end Sys2Proof.Machine
end

