-- ==== Sys2Proof/Machine/LoadTensors.lean ====
section
/-! DEFINITION. The load check on tensors and weights (R265, R268..R274, R279..R284): tests 30..46, residency. -/

namespace Sys2Proof.Machine

/-- Strides of a writable shape of a rank keep elements apart (R265). -/
def stridesApart (t : Tensor) (rank : Nat) (shape stride : List Nat) : Bool :=
  (decide (rank < 2) || decide (rowLen t (shape.getD 0 1) ≤ stride.getD 0 0)) &&
    (List.range 2).all fun i => decide (rank < i + 3) ||
      decide (stride.getD i 0 * shape.getD (i + 1) 1 ≤ stride.getD (i + 1) 0)

/-- The map entries of a handle number in PLAN-scope maps that apply in a variant, by array. -/
def mappings (p : Plan) (v : Variant) (h : Nat) : List HMapEnt := match mapFor p v.hmap false v.num with
  | some m => m.ents.filter fun e => e.handle == h && bit v.dieMask e.die
  | none => []

/-- The map entries of a handle number in the PLAN-scope map of a variant and in the SLOT-scope maps of its template's slots. -/
def mappedIn (p : Plan) (v : Variant) (h : Nat) : List HMapEnt :=
  mappings p v h ++ (templateFor p v).slots.flatMap fun q => match mapFor p q.hmap true v.num with
    | some m => m.ents.filter fun e => e.handle == h && slotHas q e && bit v.dieMask e.die
    | none => []

/-- The handle of a number on an array in a variant. -/
def handleIn (p : Plan) (v : Variant) (die arr h : Nat) : Handle :=
  ((mappings p v h).find? fun e => e.die == die && e.arr == arr).elim {} (·.entry)

/-- Test 30. -/
def tensorRecBad (t : Tensor) : Bool :=
  !t.rsvdOk || decide (7 < t.dtype ∨ t.rank = 0 ∨ 4 < t.rank ∨ 1 < t.path) || (t.shape.any (· == 0)) ||
    (t.dtype == 6 && t.shape.getD 0 0 % 2 != 0)

/-- Test 31. -/
def tensorAlignBad (t : Tensor) : Bool := t.base % widthOf t != 0 || t.stride.any fun x => x % widthOf t != 0

/-- Test 33 in a variant: the extents of a tensor's handles and PLACE 0 blocks. -/
def extentBad (s : State) (p : Plan) (v : Variant) (t : Tensor) : Bool :=
  if isDist t then
    (tablesIn p v).any fun o => o.tensor == t.id && (blocksOf p o).any fun b =>
      let e := b.1
      let ms := (mappedIn p v e.handle).filter fun m => m.die == e.die && m.arr == e.arr
      e.valid && !e.overflow && e.pkg == planPkg s p &&
        (ms.isEmpty || ms.any fun m => m.entry.kind != 1 || decide (m.entry.length.toNat < e.offset + b.2))
  else
    let ms := mappedIn p v t.handle
    ms.isEmpty || ms.any fun e =>
      e.entry.kind != 1 || decide (e.entry.length.toNat < t.base + extentOf t t.shape t.stride)

/-- Test 35: an owners table against R269 and the grid. DESIGN CHOICE (log 92): no test asks that a PLACE 0 OFFSET be a multiple
of A (R270). -/
def ownersBad (p : Plan) (o : Owners) : Bool :=
  let t := tensorFor p o
  !o.rsvdOk || o.nblk == 0 || decide (4096 < o.nblk) || o.rank != t.rank || (o.bshape.any (· == 0)) ||
    o.nblk != gridOf t o || (o.ents.any fun e => !e.valid) || (o.bstride.any fun x => x % widthOf t != 0) ||
    !(p.tensors.any fun t => t.id == o.tensor && isDist t) || (!isReadOnly t && !stridesApart t o.rank o.bshape o.bstride) ||
    decide (1 < (p.owners.filter fun q => q.id == o.id).length)

/-- Test 36: entries of this package against the variants. -/
def ownersPlaceBad (s : State) (p : Plan) (o : Owners) : Bool :=
  o.ents.any fun e =>
    (e.overflow && e.pkg != planPkg s p) ||
      (e.pkg == planPkg s p && p.variants.any fun v => bit o.vmask v.num && !bit v.dieMask e.die)

/-- The place of a block with its bytes: PLACE 0 by array and handle, PLACE 1 in the PLAN region; first byte and end. -/
def placeOf (b : OwnEnt × Nat) : (Nat × Nat × Nat × Nat) × Nat × Nat :=
  let e := b.1
  if e.overflow then ((1, 0, 0, 0), 2048 * e.offset, 2048 * e.offset + b.2)
  else ((0, e.die, e.arr, e.handle), e.offset, e.offset + b.2)

/-- Test 37: blocks of this package that overlap in a variant, by the table of the later one. -/
def overlapIn (s : State) (p : Plan) (v : Variant) : Option Nat :=
  let bs := (tablesIn p v).flatMap fun o =>
    ((blocksOf p o).filter fun b => b.1.pkg == planPkg s p).map fun b => (o.id, placeOf b)
  let l := bs.zipIdx
  (l.find? fun x => l.any fun y => decide (y.2 < x.2) && y.1.2.1 == x.1.2.1 &&
    decide (y.1.2.2.1 < x.1.2.2.2 ∧ x.1.2.2.1 < y.1.2.2.2)).map (·.1.1)

/-- Largest LOGN and LOG_DELTA of the plan's encoding sets. -/
def encSets (p : Plan) : List PSet := p.psets.filter fun ps => ps.scheme != 3

/-- A handle of an array is mapped in a variant, and LOCAL in every map that applies. -/
def localIn (p : Plan) (v : Variant) (die arr h : Nat) : Bool :=
  let ms := (mappedIn p v h).filter fun e => e.die == die && e.arr == arr
  !ms.isEmpty && ms.all fun e => e.entry.kind == 1

/-- Test 38: an encoder entry against R274 in a variant. -/
def encBad (p : Plan) (v : Variant) (t : EncTable) (e : EncEnt) : Bool :=
  e.code != 0 &&
    (e.code == 3 || e.sbase % 4 != 0 || e.raw.toNat % 2 ^ 11 != 0 || decide (17 < e.logspan) ||
      !localIn p v t.die t.arr e.handle || !localIn p v t.die t.arr e.shandle ||
      !((encSets p).any fun ps => decide (e.logspan ≤ ps.logn)) ||
      !((encSets p).any fun ps => if ps.scheme = 0 then decide (e.dshift ≤ ps.logDelta) else e.dshift == 0))

/-- A scale faults under R277 for some code of an entry on a set: the largest code is 8 or 128 in magnitude. -/
def scaleFaults (ps : PSet) (e : EncEnt) (f : Nat) : Bool :=
  let ex := bits f 30 23
  let man := bits f 22 0
  if ex = 255 then true
  else
    let m := if ex = 0 then man else 2 ^ 23 + man
    let sh : Int := (max 1 ex : Nat) - (150 : Int)
    let k := if e.code = 1 then 8 else 128
    if ps.scheme = 0 then
      let up := sh + (ps.logDelta - e.dshift : Nat)
      if 0 ≤ up then decide (2 ^ 29 - 1 < k * m * 2 ^ up.toNat)
      else decide ((2 * (2 ^ 29 - 1) + 1) * 2 ^ (-up).toNat < 2 * (k * m))
    else
      let whole := if 0 ≤ sh then true else decide (m % 2 ^ (-sh).toNat = 0)
      let v := if 0 ≤ sh then m * 2 ^ sh.toNat else m / 2 ^ (-sh).toNat
      !whole || decide (2 ^ 24 ≤ v) || decide (2 ^ 30 ≤ ps.t + 1 ∧ 2 ^ 29 - 1 < k * v)

/-- The sets whose LOADs an encoder entry serves, by the load check's run; where that run does not reach every LOAD, none is
known. -/
def loadSets (p : Plan) (ds : List SlotDry) (a : ArrId) (e : EncEnt) : List PSet :=
  (ds.flatMap fun d => (d.loads.filter fun l => l.1 == a && l.2.1 == e.handle).map fun l => p.psets.getD l.2.2 {}).eraseDups

/-- Test 39: a scale of an IMAGE handle faults on a set that a LOAD through the entry names, or, where no such LOAD is known, on
every encoding set of the plan. -/
def scalesBad (img : List Byte) (p : Plan) (ds : List SlotDry) (v : Variant) (t : EncTable) (e : EncEnt) : Bool :=
  e.code != 0 &&
    match (mappings p v e.shandle).find? fun x => x.die == t.die && x.arr == t.arr with
    | some x =>
      let codes := (handleIn p v t.die t.arr e.handle).length.toNat * (if e.code = 1 then 2 else 1)
      let n := min ((codes + 2 ^ e.logspan - 1) / 2 ^ e.logspan) ((x.entry.length.toNat - e.sbase) / 4)
      let base := (match sectOf img 12 with | some q => q.off | none => 0) + x.imageSrc * 1024 + e.sbase
      let sets := loadSets p ds ⟨t.die, t.arr⟩ e
      let faults (f : Nat) : Bool :=
        if sets.isEmpty then (encSets p).all fun ps => scaleFaults ps e f else sets.any fun ps => scaleFaults ps e f
      x.entry.image && (List.range n).any fun i => faults (field img (base + 4 * i) 4)
    | none => false

/-- The FP32 WEIGHT tensor of a handle, for the detail of test 39. -/
def scaleTensor (p : Plan) (h : Nat) : Nat :=
  ((p.tensors.find? fun t => isWeight t && t.dtype == 4 && t.handle == h).map (·.id)).getD 0xFFFF

/-- The encoder entries of a variant with their tables. -/
def encIn (p : Plan) (v : Variant) : List (EncTable × EncEnt) :=
  (p.encoders.filter fun t => bit t.vmask v.num).flatMap fun t => t.ents.map fun e => (t, e)

/-- Test 40: a WEIGHT tensor in another package or behind RWRITE (R27). -/
def weightBad (s : State) (p : Plan) (v : Variant) (t : Tensor) : Bool :=
  isWeight t &&
    (if isDist t then
      (tablesIn p v).any fun o => o.tensor == t.id && o.ents.any fun e =>
        e.pkg != planPkg s p ||
          (!e.overflow && (mappedIn p v e.handle).any fun m => m.die == e.die && m.arr == e.arr && m.entry.rwrite)
     else (mappedIn p v t.handle).any (·.entry.rwrite))

/-- D_v (R279): the weight demand. -/
def dBytes (s : State) (p : Plan) (v : Variant) : Nat :=
  p.tensors.foldl (fun n t =>
    if isWeight t && !isDist t then
      n + ((mappedIn p v t.handle).map fun e => (e.die, e.arr)).eraseDups.length * extentOf t t.shape t.stride
    else n)
    (weightBytes s p v fun _ => true)

/-- Handles that hold a WEIGHT tensor on an array in a variant. -/
def weightHandles (s : State) (p : Plan) (v : Variant) (a : ArrId) : List Nat :=
  (p.tensors.filter fun t => isWeight t && !isDist t).map (·.handle) ++
    (tablesIn p v).flatMap fun o =>
      if isWeight (tensorFor p o) then
        (o.ents.filter fun e => !e.overflow && e.pkg == planPkg s p && e.die == a.die && e.arr == a.arr).map (·.handle)
      else []

/-- NW(v, a) (R279): loft bytes that hold no weights, with the largest set of SLOT-scope handles
that the slots of a template map at one time, and the refresh region. -/
def nwBytes (s : State) (p : Plan) (v : Variant) (a : ArrId) : Nat :=
  let ws := weightHandles s p v a
  let sum (es : List HMapEnt) : Nat :=
    es.foldl (fun n e => if e.entry.kind == 1 && !ws.contains e.handle then n + e.entry.length.toNat else n) 0
  let slotSum (q : SlotRec) : Nat := sum ((hmapEnts (mapFor p q.hmap true v.num) a).filter (slotHas q))
  let mapped (t : Template) (q : SlotRec) : Nat :=
    (t.slots.filter fun r => decide (r.start ≤ q.start ∧ q.start < r.start + r.length)).foldl (fun k r => k + slotSum r) 0
  let most := p.templates.foldl (fun n t => t.slots.foldl (fun n q => max n (mapped t q)) n) 0
  sum (hmapEnts (mapFor p v.hmap false v.num) a) + most + p.refreshRegion / 64

/-- A_v (R279): the residency available to weights. -/
def aBytes (s : State) (p : Plan) (v : Variant) : Nat :=
  (variantArrs v).foldl (fun n a => n + (7340032 - nwBytes s p v a - stepsOf v a.arr * 524288)) 0

/-- The overflow blocks of this package in a variant, with their bytes. -/
def overflowBlocks (s : State) (p : Plan) (v : Variant) : List (OwnEnt × Nat) :=
  ((tablesIn p v).flatMap (blocksOf p)).filter fun b => b.1.overflow && b.1.pkg == planPkg s p

/-- The bytes of a read of the PLAN region that lie in an overflow block. -/
def readMeets (u : UnitReq) (b : OwnEnt × Nat) : Nat :=
  min (u.src.toNat + u.len) (2048 * b.1.offset + b.2) - max u.src.toNat (2048 * b.1.offset)

/-- A read of the PLAN region is one of an overflow block and breaks R282: without the KEEP hint, or to another place than the
block's handle on its die. -/
def keepBad (bs : List (OwnEnt × Nat)) (u : UnitReq) : Bool :=
  bs.any fun b => decide (0 < readMeets u b) && !(u.p0 == 1 && u.p2 == 2 ^ b.1.die && match endpointOf u.dst with
    | .loft _ a h _ => a == b.1.arr && h == b.1.handle
    | _ => false)

/-- The reads of the PLAN region that the streams of a variant's slots make, as the program alone gives them. -/
def planReads (data : List Byte) (p : Plan) (v : Variant) : List UnitReq :=
  (jobBlocks data p v).flatMap fun q => q.2.flatMap fun b =>
    ((b.2.2.reqs b.1).map (·.2)).filter fun u => u.unit == 2 && u.keyId == 0xFFFF

/-- Tests 44..46 of one variant (R280..R282, R284). EPOCH_BYTES is what the slots' granary reads of overflow blocks come to; where
the streams have requests that the program alone does not give, the test of it is left to Config.simulate (log 11). DESIGN CHOICE
(log 92): the excess is rounded up, and of tests 44 and 45 it is what the record lacks or differs by. -/
def overflowTest (s : State) (data : List Byte) (p : Plan) (n : Nat) (v : Variant) : Verdict :=
  let g := gBytes s p v
  let rec' := p.overflow.filter fun o => o.variant == v.num
  let excess (k : Nat) : Nat := min 0xFFFF ((k + 65535) / 65536)
  let far (a b : Nat) : Nat := excess (if a < b then b - a else a - b)
  match n with
  | 44 => failIf (decide (0 < g) && rec'.isEmpty) 0x2F (det 44 v.num (excess g))
  | 45 =>
    let bs := overflowBlocks s p v
    let us := if bs.isEmpty && rec'.isEmpty then [] else planReads data p v
    let known := (jobBlocks data p v).all fun q => q.2.all fun b => b.2.2.allReqs && !b.2.2.open'
    let epoch := us.foldl (fun n u => bs.foldl (fun n b => n + readMeets u b) n) 0
    (firstV rec' fun o =>
      (failIf (!o.rsvdOk || o.gBytes != g || g % 2048 != 0) 0x2F (det 45 v.num (far o.gBytes g))).next fun _ =>
        failIf (known && o.epochBytes != epoch) 0x2F (det 45 v.num (far o.epochBytes epoch))).next fun _ =>
      failIf (us.any (keepBad bs)) 0x2F (det 45 v.num 0)
  | _ => failIf (decide (aBytes s p v < 8 * g)) 0x2F (det 46 v.num (excess (8 * g - aBytes s p v)))

/-- Tests 30..46 in numeric order (R284), the simulation's part of 39 where the runs do not reach every LOAD; `ds` is the load
check's run of each variant. DESIGN CHOICE (log 92): the variant in the detail of test 36 is 0xFF. -/
def tensorTests (s : State) (img : List Byte) (p : Plan) (ds : Variant → List SlotDry) : Verdict :=
  let vs := variantsUp p
  let rest39 : Verdict := if vs.all fun v => (ds v).all (·.whole) then none else simulated img 39
  let onT (n : Nat) (f : Tensor → Bool) : Verdict := firstV p.tensors fun t => failIf (f t) 0x2E (det n 0xFF t.id)
  let onV (n : Nat) (f : Variant → Tensor → Bool) : Verdict :=
    firstV vs fun v => firstV p.tensors fun t => failIf (f v t) 0x2E (det n v.num t.id)
  let onO (n : Nat) (f : Owners → Bool) : Verdict := firstV p.owners fun o => failIf (f o) 0x2E (det n 0xFF o.id)
  (onT 30 tensorRecBad).next fun _ => (onT 31 tensorAlignBad).next fun _ =>
  (onT 32 fun t => !bit t.flags 2 && !isDist t && !stridesApart t t.rank t.shape t.stride).next fun _ =>
  (onV 33 (extentBad s p)).next fun _ =>
  (onV 34 fun v t => isDist t && ((tablesIn p v).filter fun o => o.tensor == t.id).length != 1).next fun _ =>
  (onO 35 (ownersBad p)).next fun _ => (onO 36 (ownersPlaceBad s p)).next fun _ =>
  (firstV vs fun v => (overlapIn s p v).map fun o => (0x2E, det 37 v.num o)).next fun _ =>
  (firstV vs fun v => firstV (encIn p v) fun e =>
    failIf (encBad p v e.1 e.2) 0x2E (det 38 v.num (e.1.die * 64 + e.1.arr))).next fun _ =>
  (firstV vs fun v => firstV (encIn p v) fun e =>
    failIf (scalesBad img p (ds v) v e.1 e.2) 0x2E (det 39 v.num (scaleTensor p e.2.shandle))).next fun _ =>
  rest39.next fun _ =>
  (onV 40 (weightBad s p)).next fun _ =>
  firstV [44, 45, 46] fun n => (firstV vs (overflowTest s (sectBytes img 12) p n)).next fun _ =>
    if n = 45 then simulated img 45 else none

end Sys2Proof.Machine
end

