-- ==== Sys2Proof/Machine/LoadTimed.lean ====
section
/-! DEFINITION. The load check on a plan's streams (R27, R61, R72, R87, R93, R102..R104, R122, R124, R131, R138, R139, R158, R163,
R189, R213, R219, R252, R257, R276, R278, R312, R332..R335, R377, R536, R540; log 11): tests 70..82; the whole check; the load
report. -/

namespace Sys2Proof.Machine

/-! ## Tests 70..82 -/

/-- What the tests of the streams look at: the variant, its JOB slots with what each array runs, and the load check's run. -/
structure VariantRun where
  v : Variant
  slots : List (SlotRec × List SlotBlock)
  dry : List SlotDry

/-- The run of a JOB slot. -/
def VariantRun.dryOf (r : VariantRun) (q : SlotRec) : Option SlotDry := r.dry.find? fun d => d.slot == q.slot

/-- A test of every JOB slot: the verdict carries the slot (R334). -/
def onSlots (rs : List VariantRun) (n : Nat) (f : VariantRun → SlotRec → List SlotBlock → Bool) : Verdict :=
  firstV rs fun r => firstV r.slots fun q => failIf (f r q.1 q.2) 0x24 (det n r.v.num q.1.slot)

/-- A test of every array: the verdict carries the array (R334). -/
def onArrays (rs : List VariantRun) (n : Nat) (f : VariantRun → ArrId → Bool) : Verdict :=
  firstV rs fun r => firstV (variantArrs r.v) fun a => failIf (f r a) 0x25 (det n r.v.num (globalOf a))

/-- The load check's run of a slot found a test to fail. -/
def VariantRun.found (r : VariantRun) (q : SlotRec) (n : Nat) : Bool := (r.dryOf q).any fun d => d.bad.any fun b => b.1 == n

/-- The load check's run found a test to fail at an array. -/
def VariantRun.foundAt (r : VariantRun) (n : Nat) (a : ArrId) : Bool := r.dry.any fun d => d.bad.contains (n, a)

/-- The slot cycle at which a block's stated work ends, as far as its words alone give it (R191, R206). -/
def statedEnd (e : Env) (p : Plan) (c : CodeBlock) : Nat :=
  (commandsOf e p c).foldl (fun n ws => commandEnd e ws (n + match ws with
    | w :: _ => w.x.hdr.gap.toNat
    | [] => 0)) c.start

/-- Test 70: stated work ends before the slack (R312), with the cycles of VERIFY, ANCHOR and the encoder's builds (R104, R278)
where the load check's run gives them. -/
def test70 (p : Plan) (rs : List VariantRun) : Verdict :=
  let e := planEnv p
  firstV rs fun r =>
    firstV ((templateFor p r.v).slots.filter fun q => q.kind != 2) fun q =>
      let limit := (q.length - q.slack) * cyclesPerQuantum r.v.gear
      let words (a : ArrId) : Bool := ((codeFor p r.v.num a).filter fun c => c.prog == q.prog).any fun c =>
        decide (limit < statedEnd e p c)
      let run := (r.dryOf q).any fun d => d.ends.any fun x => decide (limit < x.2)
      failIf (decide (limit < 256) || (q.kind == 0 && ((slotArrs r.v q).any words || run))) 0x24 (det 70 r.v.num q.slot)

/-- After some number of the tokens that a block's commands and descriptors post, more than 16 are there even when the stream has
taken them as soon as it could (R189, R213). -/
def tokensBad (e : Env) (p : Plan) (b : SlotBlock) : Bool :=
  let cmds := ((commandsOf e p b.2.1).filter fun ws => ws.head?.any fun w => w.x.hdr.token).length
  let descs := (b.2.2.descs.filter (·.token)).length
  let taken (n : Nat) : Nat := ((b.2.2.waits.takeWhile fun t => decide (t ≤ n)).getLast?).getD 0
  (List.range (cmds + descs + 1)).any fun n => decide (taken n + 16 < n)

/-- Test 71, what the streams alone show: a LOOP whose count derives from data (R540), fewer entries pushed than the execute
stream pops (R189), or more tokens than the queue holds (R213). -/
def test71 (p : Plan) (rs : List VariantRun) : Verdict :=
  let e := planEnv p
  onSlots rs 71 fun _ _ bs => bs.any fun b =>
    let k := b.2.2
    let n := (commandsOf e p b.2.1).map popsOf
    k.open' || decide (k.aq.length < (n.map (·.1)).sum) || decide (k.oq.length < (n.map (·.2)).sum) || tokensBad e p b

/-- Test 72 where a word's own streams share a byte (R252). -/
def test72 (rs : List VariantRun) : Verdict := onSlots rs 72 fun r q _ => r.found q 72

/-- The bound of R377 on a path's latency: the fixed terms, the first hop, and 180 ns for each intermediate package. -/
def latBound (r : Route) (q : RPath) : Nat := 150 + (r.links.getD q.egress {}).maxDelay + (q.hops - 1) * 180 + 250

/-- Test 74, the part of it that R377 states over the ROUTE section: its detail names no variant and no slot, since the record is
none's (DESIGN CHOICE, log 92). -/
def test74 (p : Plan) : Verdict := match p.route with
  | some r => failIf (r.routes.any fun e => e.paths.any fun q => decide (q.latNs < latBound r q)) 0x24 (det 74 0xFF 0xFFFF)
  | none => none

/-- The blocks of the PLAN region in REUSE after a read more, each with its hub and count (R121, R122). -/
def reuseStep (s : State) (l : List (Nat × Nat × Nat)) (u : UnitReq) : List (Nat × Nat × Nat) :=
  let m := u.src.toNat / 65536
  if u.unit != 2 || u.p0 != 2 || u.keyId != 0xFFFF then l
  else match l.find? fun x => x.1 == m with
    | some x => if x.2.2 ≤ 1 then l.erase x else (l.erase x) ++ [(x.1, x.2.1, x.2.2 - 1)]
    | none => l ++ [(m, hubOfStack (stackOf (s.servingCopy planBase m)), u.p1)]

/-- More than 1,024 REUSE entries on one hub. -/
def reuseFull (l : List (Nat × Nat × Nat)) : Bool :=
  (l.map (·.2.1)).eraseDups.any fun h => decide (1024 < (l.filter fun x => x.2.1 == h).length)

/-- The DISCARD reads of some requests fill a hub's REUSE entries at some point of their order. -/
def reuseBad (s : State) (us : List UnitReq) : Bool :=
  (us.foldl (fun (acc : List (Nat × Nat × Nat) × Bool) u =>
    let l := reuseStep s acc.1 u
    (l, acc.2 || reuseFull l)) ([], false)).2

/-- Test 75 for blocks of the PLAN region: more than 1,024 REUSE entries on one hub (R122) after some read of an array's stream, or
at the end of the slot. -/
def test75 (s : State) (rs : List VariantRun) : Verdict :=
  onSlots rs 75 fun _ _ bs =>
    let of' (b : SlotBlock) : List UnitReq := (b.2.2.reqs b.1).map (·.2)
    bs.any (fun b => reuseBad s (of' b)) || reuseFull ((bs.flatMap of').foldl (reuseStep s) [])

/-- Where WEIGHT tensors lie in this package (R27): each range with its first byte and its end; a DIST one by its blocks, in lofts
and in the PLAN region. -/
def weightRanges (s : State) (p : Plan) (v : Variant) : List (Holder × Nat × Nat) :=
  (p.tensors.filter fun t => isWeight t && !isDist t).flatMap (fun t =>
    (mappedIn p v t.handle).map fun e => (.loft e.die e.arr t.handle, t.base, t.base + extentOf t t.shape t.stride)) ++
  (tablesIn p v).flatMap fun o =>
    if isWeight (tensorFor p o) then
      ((blocksOf p o).filter fun b => b.1.pkg == planPkg s p).flatMap fun b =>
        let stay : Holder × Nat × Nat := (.loft b.1.die b.1.arr b.1.handle, b.1.offset, b.1.offset + b.2)
        if b.1.overflow then [(.planRegion, 2048 * b.1.offset, 2048 * b.1.offset + b.2)] else [stay]
    else []

/-- The handles of this package in a slot of a variant. -/
def slotHandle (p : Plan) (v : Variant) (q : SlotRec) (d a h : Nat) : Handle :=
  let of' (m : Option HMap) : List HMapEnt := (hmapEnts m ⟨d, a⟩).filter (·.handle == h)
  ((of' (mapFor p q.hmap true v.num)).filter (slotHas q) ++ of' (mapFor p v.hmap false v.num)).head?.elim {} (·.entry)

/-- Test 77 of the descriptors and requests that the program alone gives: CLASP (R219), atomics that overlap (R257), weights sent
out (R27), and a granary read's destination dies (R124). -/
def test77 (s : State) (p : Plan) (rs : List VariantRun) : Verdict :=
  onSlots rs 77 fun r q bs =>
    let ws := weightRanges s p r.v
    bs.any fun b =>
      b.2.2.uses.any (·.unclasped) ||
        b.2.2.descs.any (fun d => overlapBad d || d.blocks.any (sendsOut (planPkg s p) (slotHandle p r.v q) ws)) ||
        (b.2.2.reqs b.1).any fun u => u.2.unit == 2 && u.2.p2 &&& r.v.dieMask != u.2.p2

/-- Test 78 where the program alone gives every descriptor of the slot: a WAITG that none of them completes at its array. In a
DOMAIN program other packages complete groups too. -/
def test78 (p : Plan) (rs : List VariantRun) : Verdict :=
  let e := planEnv p
  onSlots rs 78 fun _ q bs =>
    let done := bs.flatMap fun b => b.2.2.descs.filterMap completes
    !domainSlot p q && bs.all (fun b => b.2.2.allDescs) && bs.any fun b => (commandsOf e p b.2.1).any fun ws => match ws with
      | w :: _ => w.x.hdr.waitg != 0 && !done.contains (w.x.hdr.waitg.toNat, b.1)
      | [] => false

/-- Test 80, what a command's own words show: VERIFY, ANCHOR or RESCALE on a result in the evaluation domain (R103). -/
def evalEpilogue (ws : List DWordAt) : Bool := match ws.getLast? with
  | some w => (w.x.hdr.verify || w.x.hdr.anchor || w.x.hdr.rescale) &&
      ((match w.x.w.cell with | some c => c.opc == 0x10 | none => false) ||
        match w.x.w.net with | some n => n.dom | none => false)
  | none => false

/-- The code blocks of an array. -/
def anyBlock (p : Plan) (r : VariantRun) (a : ArrId) (f : CodeBlock → Bool) : Bool := (codeFor p r.v.num a).any f

/-- Test 80 (R61, R103, R536). -/
def test80 (p : Plan) (rs : List VariantRun) : Verdict :=
  let e := planEnv p
  onArrays rs 80 fun r a => anyBlock p r a (fun c => (commandsOf e p c).any evalEpilogue) || r.foundAt 80 a

/-- Terms of an entry and whether it holds an ALPHA term, after a word; none when a rule of R80 or R87 breaks. Int32 entries count
no terms (R83), and a fold that keeps one leaves it as it is (R81). -/
def accTerms (x : Exec) (m : SMap (Nat × Bool)) : Option (SMap (Nat × Bool)) :=
  match x.w.acc, x.w.crib with
  | some a, some c =>
    let opc : Nat := match x.w.cell with | some cs => cs.opc.toNat | none => 0
    (List.range (accSteps c a)).foldl (fun o st => o.bind fun m =>
      let e := accEntry a st
      let y := mget (0, false) m e
      if opc = 0x0C then some m
      else if a.aop = 1 then if 256 < y.1 + 1 then none else some (mset (0, false) m e (y.1 + 1, y.2 || opc == 0x0B))
      else if y.2 then none
      else some (mset (0, false) m e (if a.aop = 3 then (1, false) else (0, false)))) (some m)
  | _, _ => some m

/-- Test 81: no entry reaches a 257th term, no fold reads an ALPHA term (R80, R87). -/
def test81 (p : Plan) (rs : List VariantRun) : Verdict :=
  let e := planEnv p
  let bad (c : CodeBlock) : Bool :=
    ((commandsOf e p c).flatMap id |>.foldl (fun o w => o.bind (accTerms w.x)) (some [])).isNone
  onArrays rs 81 fun r a => anyBlock p r a bad

/-- A form-0 key of a program breaks R138: LWE_N of a refresh set it names is no power of two that divides N. -/
def formZeroBad (p : Plan) (g : Program) : Bool :=
  g.reqs.any fun r =>
    let ps := (p.psets[r.pset]?).getD {}
    r.kind == 4 && ps.scheme != 3 && p.psets.zipIdx.any fun e => bit g.psets e.2 && e.1.scheme == 3 &&
      !((List.range (ps.logn + 1)).any fun k => 2 ^ k == e.1.lweN)

/-- A refresh set of a refresh program leaves no room for a group of samples (R158). -/
def groupBad (p : Plan) (g : Program) : Bool :=
  bit g.flags 1 && p.psets.zipIdx.any fun e => bit g.psets e.2 && e.1.scheme == 3 &&
    decide (256 < (e.1.glweRank + 1) * (e.1.dnum + 2) * e.1.lq * (2 ^ e.1.logn / 256))

/-- What the plan's records and words show of test 82: a command on limbs of 2^17 at an odd array (R93), R138, R158. -/
def oddBad (e : Env) (p : Plan) (a : ArrId) (c : CodeBlock) : Bool :=
  (a.arr % 2 == 1 && (commandsOf e p c).any fun ws => ws.any fun w => execPaired e w.x) ||
    p.programs.any fun g => g.prog == c.prog && (formZeroBad p g || groupBad p g)

/-- Test 82 (R93, R131, R138, R139, R158, R276). -/
def test82 (p : Plan) (rs : List VariantRun) : Verdict :=
  onArrays rs 82 fun r a => anyBlock p r a (oddBad (planEnv p) p a) || r.foundAt 82 a

/-- The load check's view of every variant. -/
def variantRuns (s : State) (img : List Byte) (p : Plan) : List VariantRun :=
  let data := sectBytes img 12
  (variantsUp p).map fun v => { v := v, slots := jobBlocks data p v, dry := dryRun s data p v }

/-- Tests 70..82 in numeric order (R332): each by what the plan's records and streams show, then by the simulation's
verdict. -/
def timedTests (s : State) (img : List Byte) (p : Plan) (rs : List VariantRun) : Verdict :=
  let both (n : Nat) (t : Verdict) : Verdict := t.next fun _ => simulated img n
  (both 70 (test70 p rs)).next fun _ => (both 71 (test71 p rs)).next fun _ => (both 72 (test72 rs)).next fun _ =>
    (both 73 none).next fun _ => (both 74 (test74 p)).next fun _ => (both 75 (test75 s rs)).next fun _ =>
    (both 76 none).next fun _ => (both 77 (test77 s p rs)).next fun _ => (both 78 (test78 p rs)).next fun _ =>
    (both 80 (test80 p rs)).next fun _ => (both 81 (test81 p rs)).next fun _ => both 82 (test82 p rs)

/-! ## The whole check (R332) -/

/-- Tests 8 and 9, then 10, then 11. -/
def formTests (s : State) (img : List Byte) (planLen : Nat) : Verdict :=
  (test8 img planLen).next fun _ => (test9 s img).next fun _ => (test10 img).next fun _ => test11 img (planOf img)

/-- The tests that need the streams decoded: 30..46, 50..60, 70..82. -/
def streamTests (s : State) (img : List Byte) (p : Plan) : Verdict :=
  let rs := variantRuns s img p
  let ds (v : Variant) : List SlotDry := ((rs.find? fun r => r.v.num == v.num).map (·.dry)).getD []
  (tensorTests s img p ds).next fun _ => (variantTests img p).next fun _ => (slotTests p).next fun _ => timedTests s img p rs

/-- The load check over an image (R332). -/
def loadCheck (s : State) (img : List Byte) (planLen : Nat) : Verdict :=
  let p := planOf img
  (formTests s img planLen).next fun _ => (primeTests img p).next fun _ => (setTests p).next fun _ =>
    (test12 p).next fun _ => (test13 p).next fun _ => (test14 s p).next fun _ => (test15 p).next fun _ =>
    (decodeTest p).next fun _ => streamTests s img p

/-! ## The load report (R102, R335) -/

/-- One word's step of the report of a block whose slots the load check's run does not reach: crib rows alone. -/
def reportWord (v : Env) (a : ArrId) (acc : SMap Nat × List Nat) (w : DWordAt) : SMap Nat × List Nat :=
  let r := autoStepOf v a w.x (fun _ => []) acc.1
  (r.1, acc.2 ++ r.2)

/-- Tags of a block's unverified evaluation-domain automorphisms, by its words alone (R102). -/
def unverified (v : Env) (p : Plan) (a : ArrId) (c : CodeBlock) : List Nat :=
  ((commandsOf v p c).flatMap id |>.foldl (reportWord v a) ([], [])).2

/-- The tags to report of an array in a variant: by the load check's runs of its slots, and by the words alone. -/
def reportTags (e : Env) (p : Plan) (r : VariantRun) (a : ArrId) : List Nat :=
  ((codeFor p r.v.num a).flatMap (unverified e p a) ++
    r.dry.flatMap fun d => (d.report.filter fun x => x.1 == a).map (·.2)).eraseDups

/-- The load report (R335): 1,024 entries, then the count of the rest. -/
def loadReport (s : State) (img : List Byte) (p : Plan) : List Byte :=
  let e := planEnv p
  let es := (variantRuns s img p).flatMap fun r => (variantArrs r.v).flatMap fun a =>
    (reportTags e p r a).map fun tag => 1 + tag * 2 ^ 8 + globalOf a * 2 ^ 32 + r.v.num * 2 ^ 48
  let kept := (es.take 1024).flatMap (leBytes 8)
  if 1024 < es.length then kept ++ leBytes 8 (0xFF + (es.length - 1024) * 256) else kept

end Sys2Proof.Machine
end

