-- ==== Sys2Proof/Machine/PlanLoad.lean ====
section
/-! DEFINITION. Loading and unloading a plan (R331, R335, R336, R378, R129, R145, R148). -/

namespace Sys2Proof.Machine

/-! ## What a plan change does to keys and shares (R126, R129) -/

/-- The bytes PSET_DIGEST is formed over (R126): the record, then the prime-book entries it names. -/
def psetMessage (p : Plan) (ps : PSet) : List Byte :=
  let e (i : Nat) : List Byte := (p.primes.getD i {}).raw
  ps.raw ++ e ps.checkIdx ++ (if ps.tIdx = 0xFF then [] else e ps.tIdx) ++ (ps.qIdx.take ps.lq).flatMap e ++
    (ps.pIdx.take ps.lp).flatMap e

/-- PSET_DIGEST of a parameter set (R126). -/
def psetDigestOf (p : Plan) (ps : PSet) : List Byte := sha384 (psetMessage p ps)

/-- The number of the loaded plan's set with a digest. -/
def State.psetOfDigest (s : State) (d : List Byte) : Option Nat := match s.plan with
  | none => none
  | some p => p.psets.findIdx? fun ps => psetDigestOf p ps == d

/-- Keys whose set the loaded plan does not hold are dormant, and usable again under one that does (R129). -/
def State.rebindKeys (s : State) : State :=
  let keys := s.keys.map fun k =>
    let n := s.psetOfDigest k.psetDigest
    let st : KeyState := match k.st with
      | .usable => if n.isNone then .dormant else .usable
      | .dormant => if n.isNone then .dormant else .usable
      | x => x
    { k with pset := n, st := st }
  { s with keys := keys }

/-! ## Unloading -/

/-- No plan is loaded: resident refresh keys leave with the region, PLAN-scope entries, stores and tables are cleared,
variants return to their reset state. -/
def State.unloadPlan (s : State) : State :=
  let s := s.emptyRegion
  let clear (x : Arr) : Arr :=
    { x with
      estore := [], istore := [], handles := [], written := [], enc := [], cache := [], cacheSteps := 0, bypass := []
      track := [], touched := [], posOf := [] }
  let arrs : SMap Arr := s.arrs.map fun e => (e.1, clear e.2)
  let s : State := { s with
    plan := none, arrs := arrs, vs := { switches := s.vs.switches }, slotStats := [], pc := { s.pc with report := [] }
    mem := { s.mem with ovfMap := [] } }
  s.rebindKeys

/-! ## Loading -/

/-- The variant active after a load: the best selectable one, else the lowest-numbered (R325). -/
def State.firstVariant (s : State) (p : Plan) : Nat :=
  match bestOf (sortBy (·.num) (p.variants.filter s.selectable)) with
  | some v => v.num
  | none => ((variantsUp p).head?.map (·.num)).getD 0

/-- MGMT_ROUTE filled from the ROUTE section (R378): direct peers, then the first path of every route entry. -/
def fillRoutes (r : Route) (m : List Byte) : List Byte :=
  let peers := r.links.zipIdx.foldl (fun (m : List Byte) e =>
    if e.1.peerPkg < 512 then m.set e.1.peerPkg (BitVec.ofNat 8 e.2) else m) m
  r.routes.foldl (fun m e => match e.paths with
    | q :: _ => m.set e.dst (BitVec.ofNat 8 q.egress)
    | [] => m) peers

/-- The streams in the form the stores hold. -/
def storedPlan (p : Plan) : Plan := { p with code := p.code.map (storedBlock p), testOnly := testOnlySets p }

/-- Write a checked plan (R331 step 5): PLAN_DATA into the PLAN region, the stores of every array, the report. DESIGN CHOICE
(log 38): it is written over key blocks that a larger PLAN region covers, and the keys keep their places. -/
def State.installPlan (s : State) (img : List Byte) : State :=
  let p := storedPlan (planOf img)
  let s : State := { s with plan := some p }
  let s := s.planWrite 0 (sectBytes img 12)
  let v := s.firstVariant p
  let dom : Domain := match p.route with
    | some r => { s.dom with mgmtRoute := fillRoutes r s.dom.mgmtRoute }
    | none => s.dom
  let s : State := { s with dom := dom, vs := { s.vs with current := v }, pc := { s.pc with load := 2, report := loadReport s img (planOf img) } }
  (s.writeStores s.variant).rebindKeys

/-- The load is refused (R331 step 4). -/
def State.refuseLoad (s : State) (v : Nat × Nat) : State :=
  { s with pc := { s.pc with load := 3, reason := v.1, detail := v.2, image := none } }

/-- The refusal of a host access fault (R331). -/
def loadFault : Nat × Nat := (0x20, det 8 0xFF 0xFFFE)

/-- The image as the part reads it through the function of the load (R331). -/
def State.readImage (s : State) : Option (List Byte) := s.hostRead s.pc.via 0 s.pc.addr s.pc.len

/-- The function whose address space a load reads (R331): the requester's physical function, else HP0's. -/
def loadFn : Requester → FnId
  | .fn f => ⟨f.port, 0⟩
  | _ => ⟨0, 0⟩

/-- A write of 1 to PLAN_LOAD (R331, R432): the status and the state; the image is read as it stands now. -/
def State.startLoad (s : State) (q : Requester) : Nat × State :=
  if s.pc.load = 1 then (5, s)
  else if s.en.on then (0, s.refuseLoad (0x27, 0))
  else if !s.jobs.isEmpty || !s.doneJobs.isEmpty then (8, s)
  else
    let s : State := { s with pc := { s.pc with load := 1, via := loadFn q } }
    (0, { s with pc := { s.pc with image := s.readImage } })

/-- PLAN_LOAD_DONE: the load check ends (R331). A plan that fails leaves everything as it was; one that passes is read
again, and loaded when the second read has IMAGE_DIGEST. -/
def State.finishLoad (s : State) : State :=
  match s.pc.image with
  | none => s.refuseLoad loadFault
  | some img =>
    match loadCheck s img s.pc.len with
    | some v => s.refuseLoad v
    | none =>
      let s := s.unloadPlan
      match s.readImage with
      | none => s.refuseLoad loadFault
      | some img2 =>
        if imageHash img2 = slice img 48 48 then
          let s := s.installPlan img
          { s with pc := { s.pc with image := none } }
        else s.refuseLoad (0x21, det 10 0xFF 0xFFFF)

/-- PLAN_LOAD_DONE (R331): the event arises only while PLAN_LOAD reads BUSY. -/
def execPlanLoadDone (s : State) : Res :=
  arises (s.pc.load == 1) "no plan load runs" <| .next s.finishLoad

end Sys2Proof.Machine
end

