-- ==== Sys2Proof/Machine/Keys.lean ====
section
/-! DEFINITION. Key manifests, uploads and drops (R126..R129, R292, R460), and the tenant actions of TEN_CTL (R394). -/

namespace Sys2Proof.Machine

/-! ## Manifests (R126) -/

/-- Bytes of a signature under an ALG code (R126). -/
def sigLen (alg : Nat) : Nat := match alg with
  | 1 => 64 | 2 => 96 | 3 => 64 | 4 => 384 | 5 => 512 | _ => 0

/-- A key entry of a manifest (R126). -/
structure ManEntry where
  id : Nat
  kind : Nat
  seeded : Bool
  galois : Nat
  off : Nat
  blocks : Nat
  seed : List Byte
  rsvdOk : Bool
  deriving DecidableEq, Repr

/-- The i-th key entry of a manifest. -/
def manEntry (m : List Byte) (i : Nat) : ManEntry :=
  let o := 128 + 96 * i
  { id := field m o 2, kind := field m (o + 2) 1, seeded := bit (field m (o + 3) 1) 0, galois := field m (o + 4) 4
    off := field m (o + 8) 8, blocks := field m (o + 16) 4, seed := slice m (o + 32) 32
    rsvdOk := decide (field m (o + 3) 1 < 2) && zeroAt m (o + 20) 12 && zeroAt m (o + 64) 32 }

/-- The entries of a manifest. -/
def manEntries (m : List Byte) : List ManEntry := (List.range (field m 10 2)).map (manEntry m)

/-- The digests of the blocks of the entries, in order. DESIGN CHOICE (log 83): the manifest holds one for each 65,536 bytes of
DATA_LEN (code 0x30 of R128); those past the entries' blocks, and the data past them, are not looked at. -/
def manDigests (m : List Byte) : List (List Byte) :=
  let n := field m 10 2
  (List.range (field m 64 8 / 65536)).map fun i => slice m (128 + 96 * n + 48 * i) 48

/-- The format of a manifest (R126, R128 code 0x30). DESIGN CHOICE (log 83): a TENANT that is not the selected one, an NKEYS
outside 1..1,024 or an ALG outside 1..5, for which R128 names no code, is refused with 0x30 too. -/
def manFormOk (m : List Byte) (tenant : Nat) : Bool :=
  let n := field m 10 2
  let alg := field m 6 1
  field m 0 4 == 0x4D4B464B && field m 4 2 == 1 && decide (1 ≤ alg ∧ alg ≤ 5 ∧ 1 ≤ n ∧ n ≤ 1024) && zeroAt m 7 1 &&
    field m 8 2 == tenant && field m 64 8 % 65536 == 0 && zeroAt m 72 56 &&
    m.length == 128 + 96 * n + 48 * (field m 64 8 / 65536) + sigLen alg && (manEntries m).all (·.rsvdOk)

/-- The signature of a manifest verifies under the tenant's verification key (R126, R455). -/
def manSigOk (m : List Byte) (x : Tenant) : Bool :=
  let n := m.length - sigLen (field m 6 1)
  x.vkeyAlg != 0 && x.vkeyAlg == field m 6 1 && Config.sigVerify x.vkeyAlg x.vkey (m.take n) (m.drop n)

/-- Stored bytes of a key on a set (R111, R138, R143, R144); none when the set cannot bind a key of the kind. -/
def storedBytes (kind : Nat) (ps : PSet) (seeded : Bool) : Option Nat :=
  let n := 2 ^ ps.logn
  if ps.scheme = 3 then
    if kind = 4 then
      let w := if ps.lweLogq ≤ 16 then 2 else 4
      let sample := ((ps.lweN + 1) * w + 63) / 64 * 64
      some (ps.glweRank * n * min ps.dnum (ps.lweLogq / max 1 ps.logDelta) * sample)
    else if kind = 5 then
      let size := ps.lweN * (ps.glweRank + 1) ^ 2 * ps.dnum * ps.lq * n * 4
      if 100663296 < size then none else some size
    else none
  else if kind ≤ 4 ∧ 0 < ps.dnum then
    some ((if seeded then 1 else 2) * (ps.dnum * (ps.lq + ps.lp) * 4 * n))
  else none

/-- GALOIS is what the kind allows (R110, R126). -/
def galoisOk (kind g : Nat) (ps : PSet) : Bool :=
  if kind = 1 then decide (g % 2 = 1 ∧ 3 ≤ g ∧ g < 2 ^ (ps.logn + 1)) else g == 0

/-- Two entries, or an entry and a key, may not both stand: one KEY_ID, or one kind and g of kinds 0 and 1 (R110). -/
def keyTwice (i j k l g h : Nat) : Bool := i == j || (k == l && decide (k ≤ 1) && g == h)

/-- An entry is invalid by itself (R128 code 0x35). -/
def entryInvalid (ps : PSet) (dataLen : Nat) (e : ManEntry) : Bool :=
  !galoisOk e.kind e.galois ps || e.off % 65536 != 0 || decide (dataLen < e.off + 65536 * e.blocks) ||
    (e.seeded && !bit ps.flags 0) || (!e.seeded && e.seed.any (· != 0)) ||
    match storedBytes e.kind ps e.seeded with
    | some b => e.blocks != (b + 65535) / 65536
    | none => true

/-- Two entries of a manifest clash: overlapping data, a key twice, one seed (R128 code 0x35). -/
def entriesClash (e f : ManEntry) : Bool :=
  decide (e.off < f.off + 65536 * f.blocks ∧ f.off < e.off + 65536 * e.blocks) ||
    keyTwice e.id f.id e.kind f.kind e.galois f.galois || (e.seeded && f.seeded && e.seed == f.seed)

/-- A key of the tenant that is not CORRUPT stands in the way of an entry (R110, R126); a dropped key that a job still holds does
so too (DESIGN CHOICE, log 44). -/
def State.entryTaken (s : State) (tenant : Nat) (digest : List Byte) (e : ManEntry) : Bool :=
  s.keys.any fun k => k.tenant == tenant && k.st != .corrupt &&
    (k.id == e.id || (k.psetDigest == digest && keyTwice 0 1 e.kind k.kind e.galois k.galois))

/-- The first invalid entry of a manifest. -/
def State.badEntry (s : State) (tenant : Nat) (ps : PSet) (m : List Byte) : Option Nat :=
  let es := (manEntries m).zipIdx
  (es.find? fun e => entryInvalid ps (field m 64 8) e.1 || s.entryTaken tenant (slice m 16 48) e.1 ||
    es.any fun f => decide (f.2 < e.2) && entriesClash f.1 e.1).map (·.2)

/-! ## Blocks of the KEYS region (R292, R295) -/

/-- A granary block holds a retired line of its stack. -/
def State.blockRetired (s : State) (b : Nat) : Bool :=
  (List.range 32).any fun l => (s.stack (stackOf b)).retired.contains (rowOfLine b l)

/-- The lowest free block of a stack from block `b` on, stepping by 6, among so many blocks. -/
def State.freeBlock (s : State) (used : List Nat) : Nat → Nat → Option Nat
  | 0, _ => none
  | k + 1, b =>
    if granBlocks ≤ b then none
    else if used.contains b || s.blockRetired b then s.freeBlock used k (b + 6) else some b

/-- Blocks for `n` key blocks of a key (R292), with the blocks in use; none when a stack has no room. -/
def State.placeBlocks (s : State) (id : Nat) : Nat → Nat → List Nat → Option (List Nat)
  | 0, _, _ => some []
  | n + 1, k, used =>
    let ss := s.usableStacks
    let st := ss.getD ((id + k) % max 1 ss.length) 0
    let base := s.keysBase / 6 * 6 + st
    match s.freeBlock used ((granBlocks - base) / 6 + 1) base with
    | none => none
    | some b => (s.placeBlocks id n (k + 1) (b :: used)).map (b :: ·)

/-- Place every entry's blocks (R292). -/
def State.placeAll (s : State) : List ManEntry → List Nat → Option (List (List Nat))
  | [], _ => some []
  | e :: es, used =>
    match s.placeBlocks e.id e.blocks 0 used with
    | none => none
    | some bs => (s.placeAll es (bs ++ used)).map (bs :: ·)

/-! ## The upload (R127, R128) -/

/-- The host address space of a tenant's uploads and requests (R127, R395). -/
def State.tenantRead (s : State) (t addr len : Nat) : Option (List Byte) :=
  s.hostRead (fnOfEntry (s.tenant t).homeFn) (s.tenant t).pasid addr len

/-- What the checks of an upload answer: the refusal's code and DETAIL, or the manifest, its set and the placed blocks. -/
abbrev Upload := Except (Nat × Nat) (List Byte × Nat × List (List Nat))

/-- The first block whose data mismatch their digest: entry and block (R128 code 0x36). -/
def badBlock (m data : List Byte) : Option (Nat × Nat) :=
  let ds := manDigests m
  ((manEntries m).zipIdx.foldl (fun (acc : Nat × Option (Nat × Nat)) e =>
    let bad := (List.range e.1.blocks).find? fun b =>
      sha384 (slice data (e.1.off + 65536 * b) 65536) != ds.getD (acc.1 + b) []
    (acc.1 + e.1.blocks, match acc.2 with
      | some x => some x
      | none => bad.map fun b => (e.2, b))) (0, none)).2

/-- The checks of an upload in order: format, serial, signature, PSET_DIGEST, entries, quota, then the data (R127). DESIGN CHOICE
(log 84): with no serial accepted since the context was cleared the last one counts as 0, so SERIAL 0 is refused with 0x32.
DESIGN CHOICE (log 44): the blocks of a CORRUPT key that the upload replaces count in the quota and the region until it is
stored. -/
def State.checkUpload (s : State) (t : Nat) (m : List Byte) : Upload :=
  let x := s.tenant t
  let none16 := 0xFFFFFFFF
  let es := manEntries m
  let blocks := es.foldl (fun n e => n + e.blocks) 0
  if !manFormOk m t then .error (0x30, none16)
  else if field m 12 4 ≤ x.manSerial then .error (0x32, none16)
  else if s.sec.signetFailed || !manSigOk m x then .error (0x31, none16)
  else match s.psetOfDigest (slice m 16 48), s.plan with
    | some n, some p =>
      if p.testOnly.contains n && !x.test then .error (0x34, none16)
      else match s.badEntry t (p.psets.getD n {}) m with
        | some i => .error (0x35, i * 65536 + 0xFFFF)
        | none =>
          if x.quota ≠ 0 ∧ x.quota < x.blocksUsed + blocks then .error (0x37, none16)
          else match s.placeAll es (s.keys.flatMap (·.blocks)) with
            | none => .error (0x37, none16)
            | some bs => .ok (m, n, bs)
    | _, _ => .error (0x33, none16)

/-- The tenant's upload leaves the list; the next one runs (R127). -/
def State.nextUpload (s : State) (t : Nat) : State :=
  let us := s.uploads.filter (· != t)
  let s : State := { s with uploads := us }
  match us with
  | [] => s
  | u :: _ => s.modTenant u fun x => { x with keyLoad := 2 }

/-- An upload is refused: no key of it becomes usable (R127). -/
def State.refuseUpload (s : State) (t code detail : Nat) : State :=
  (s.modTenant t fun x => { x with keyLoad := 4, keyReason := code, keyDetail := detail, upFault := false }).nextUpload t

/-- A host access fault ends an upload: refused, with a reason code of R128 that no rule states (log 9). -/
def State.faultUpload (s : State) (t : Nat) : State :=
  let r := s.freshWord
  r.2.refuseUpload t (0x30 + r.1.toNat % 9) 0xFFFFFFFF

/-- Write one accepted key: its blocks' bytes and its entry; a CORRUPT key of the same KEY_ID gives way (R125). -/
def State.storeKey (s : State) (t set : Nat) (m data : List Byte) (first : Nat) (e : ManEntry) (bs : List Nat) : State :=
  let stale := s.keys.filter fun k => k.tenant == t && k.st == .corrupt && k.id == e.id
  let s := stale.foldl (fun s k => (s.modKey t k.id fun k => { k with st := .dropped }).freeKey { k with st := .dropped }) s
  let key : Key :=
    { tenant := t, id := e.id, kind := e.kind, seeded := e.seeded, galois := e.galois, seed := e.seed
      psetDigest := slice m 16 48, pset := some set, blocks := bs
      digests := (List.range e.blocks).map fun b => (manDigests m).getD (first + b) [] }
  let s := bs.zipIdx.foldl (fun s b => s.blockFill b.1 (slice data (e.off + 65536 * b.2) 65536)) s
  ({ s with keys := s.keys ++ [key] }).modTenant t fun x => { x with blocksUsed := x.blocksUsed + bs.length }

/-- Every key of an accepted manifest is stored and usable (R127, R460). -/
def State.storeKeys (s : State) (t set : Nat) (m data : List Byte) (places : List (List Nat)) : State :=
  let r := ((manEntries m).zip places).foldl (fun (acc : Nat × State) e =>
    (acc.1 + e.1.blocks, acc.2.storeKey t set m data acc.1 e.1 e.2)) (0, s)
  (r.2.modTenant t fun x =>
    { x with keyLoad := 3, manSerial := field m 12 4, manDigest := sha384 m }).nextUpload t

/-- A running upload ends, all or nothing (R127). DESIGN CHOICE (log 84): KEY_MANIFEST_ADDR, KEY_MANIFEST_LEN and KEY_DATA_ADDR
are read when the upload ends, not at the KEY_LOAD write. -/
def State.finishUpload (s : State) (t : Nat) : State :=
  let x := s.tenant t
  if x.upFault then s.faultUpload t
  else match s.tenantRead t x.manAddr x.manLen with
    | none => s.faultUpload t
    | some m => match s.checkUpload t m with
      | .error e => s.refuseUpload t e.1 e.2
      | .ok (m, set, places) => match s.tenantRead t x.dataAddr (field m 64 8) with
        | none => s.faultUpload t
        | some data => match badBlock m data with
          | some e => s.refuseUpload t 0x36 (e.1 * 65536 + e.2)
          | none => s.storeKeys t set m data places

/-- KEY_UPLOAD_DONE (R127): the tenant's upload has run, and the Signet engine has verified its signature. -/
def execKeyUploadDone (t : Nat) (s : State) : Res :=
  need (decide (1 ≤ t ∧ t ≤ 4095)) "tenant" <|
    arises (s.uploads.contains t && (!s.sigPending (.manifest t) || s.sec.signetFailed)) "no upload of the tenant runs" <|
      .next (s.finishUpload t)

/-- A write of 1 to KEY_LOAD (R127, R128): the upload is queued, or refused with 0x38. -/
def State.queueUpload (s : State) (t : Nat) : Nat × State :=
  let x := s.tenant t
  if s.uploads.contains t then
    (0, s.modTenant t fun x => { x with keyReason := 0x38, keyDetail := 0xFFFFFFFF })
  else if 64 ≤ (s.uploads.drop 1).length then
    (0, s.modTenant t fun x => { x with keyLoad := 4, keyReason := 0x38, keyDetail := 0xFFFFFFFF })
  else
    let run := s.uploads.isEmpty
    let s := s.setTenant t { x with keyLoad := if run then 2 else 1, upFn := x.homeFn, upFault := false }
    let s : State := { s with uploads := s.uploads ++ [t] }
    (0, s.sigPush (.manifest t))

/-- A write of KEY_DROP (R129): the key is refused from now on, and freed after the last admitted job. -/
def State.dropKey (s : State) (t id : Nat) : Nat × State :=
  (0, (s.modKey t id fun k => { k with st := .dropped }).reap)

/-! ## TEN_CTL (R394) -/

/-- TEN_CTL 1. -/
def State.activate (s : State) (t : Nat) : Nat × State := (0, s.modTenant t fun x => { x with st := .active })

/-- TEN_CTL 2: the tenant is DISABLED, and its queued partial decryptions are refused (R394, R459). -/
def State.disable (s : State) (t : Nat) : Nat × State :=
  match (s.tenant t).st with
  | .free => (8, s)
  | .disabled => (0, s)
  | .active =>
    let queued := (s.tenant t).pdecRun == 1
    let s := s.modTenant t fun x =>
      { x with st := .disabled, pdecRun := if queued then 4 else x.pdecRun, pdecReason := if queued then 0x5C else x.pdecReason }
    let q := if queued then s.sec.pdecQueue.filter (· != t) else s.sec.pdecQueue
    let s : State := { s with sec := { s.sec with pdecQueue := q } }
    (0, if queued then s.sigAbort (· == .pdec t) else s)

/-- A share or partial-decryption operation of the tenant is queued or running (R459). -/
def State.sharesBusy (s : State) (t : Nat) : Bool :=
  let x := s.tenant t
  x.offerSt == 1 || x.submitSt == 1 || x.pdecRun == 1 || x.pdecRun == 2

/-- A cleared tenant: FREE, with what R394 names zeroed or at its default, and every other entry as it was (log 86). -/
def Tenant.cleared (x : Tenant) : Tenant :=
  { x with
    st := .free, test := false, weight := 16, homeFn := 0, pasid := 0, creditLimit := 0, deficit := 0, slotsBound := 0
    refused := 0, quota := 0, blocksUsed := 0, newRate := 0, newDepth := 262144, vkeyAlg := 0, vkey := [], manSerial := 0
    manDigest := [], share := none, wipeAfter := false, pdecCounter := 0, upFault := false }

/-- TEN_CTL 3 (R394): a DISABLED tenant without work is cleared and FREE. -/
def State.clearTenant (s : State) (t : Nat) : Nat × State :=
  let x := s.tenant t
  if x.st = .free then (0, s)
  else if x.st != .disabled || (s.jobs.any fun j => j.tenant == t) ||
      (s.streams.any fun e => e.2.tenant == t && e.2.st != .disabled) || s.sharesBusy t then (8, s)
  else
    let keys := s.keys.map fun k => if k.tenant == t then { k with st := .dropped } else k
    let s := State.reap { s with keys := keys }
    let ups := s.uploads.contains t
    let s := if ups then (s.sigAbort (· == .manifest t)).nextUpload t else s
    (0, s.setTenant t { x.cleared with keyLoad := if ups then 0 else x.keyLoad })

end Sys2Proof.Machine
end

