-- ==== Sys2Proof/Machine/Health.lean ====
section
/-! DEFINITION. What the health manager is told and asked (R465..R497, R529): samples, binding and gear, die and array
requests, the steward, background work of the fallow slots, the event log's acknowledgement and the record's programming. -/

namespace Sys2Proof.Machine

/-! ## Temperature and power (R473, R474, R529) -/

/-- One sample of the sensors and of the rail telemetry (R465): readings, the highest since the last read, the mean
power. -/
def State.takeSample (s : State) (temps : List (Nat × Int)) (powers : List (Nat × Nat)) : State :=
  let s := temps.foldl (fun s e => s.modDie e.1 fun d => { d with temp := e.2, tempMax := max d.tempMax e.2 }) s
  let s := temps.foldl (fun s e => if 10 ≤ e.1 then s.modStack (e.1 - 10) fun x => { x with temp := e.2 } else s) s
  powers.foldl (fun s e => s.modDie e.1 fun d => { d with powerMw := e.2 }) s

/-- What the sample means for the permitted gear (R473, R528): hot samples in a row by die, power over the limit, the start of a
cool time. -/
def State.gearSample (s : State) : State :=
  let h := s.hm
  let hot : SMap Nat := (List.range 16).foldl (fun m d =>
    mset 0 m d (if h.tempStep ≤ s.sensor d then mget 0 h.hot d + 1 else 0)) []
  let w := s.packageMw
  let cool := (s.temps.all fun t => decide (t ≤ h.tempResume)) && decide (10 * w ≤ 9 * (1000 * h.powerLimit))
  let since : Option Nat := if cool then some (h.coolSince.getD s.tm.now) else none
  { s with hm := { h with hot := hot, overPower := decide (1000 * h.powerLimit < w), coolSince := since } }

/-- What the sample means for binding (R474). -/
def State.bindSample (s : State) : State :=
  let h := s.hm
  let top := s.hottest
  if 102 ≤ top then
    let s : State := { s with hm := { h with bindStop := true, below100 := none } }
    if h.bindStop then s else s.log 0x15 0xFF 0 top.toNat
  else if 100 ≤ top then { s with hm := { h with below100 := none } }
  else { s with hm := { h with below100 := if h.bindStop then some (h.below100.getD s.tm.now) else none } }

/-- TEMP_SAMPLE (R465, R473, R474): the step down that a sample makes due is taken at the next boundary (R466). -/
def execTempSample (temps : List (Nat × Int)) (powers : List (Nat × Nat)) (s : State) : Res :=
  need ((temps.all fun e => decide (e.1 < 16)) && powers.all fun e => decide (e.1 < 16)) "die" <|
    .next (if s.powered then (s.takeSample temps powers).gearSample.bindSample else s)

/-- BIND_RESUME: every die has read below 100 degrees for 10 ms (R474). -/
def execBindResume (s : State) : Res :=
  match s.hm.below100 with
  | none => .refused (.cannotArise "binding is not stopped, or a die reads 100 degrees or more")
  | some t =>
    .next (
      let s := s.reach (t + 10000000)
      { s with hm := { s.hm with bindStop := false, below100 := none } })

/-- The first epoch boundary at or after an instant. -/
def boundaryFrom (t : Nat) : Nat := (t + epochNs - 1) / epochNs * epochNs

/-- GEAR_STEP_UP: at the boundary after 10 s of cool temperature and low power, by policy (R473, R466). -/
def execGearStepUp (s : State) : Res :=
  match s.hm.coolSince with
  | none => .refused (.cannotArise "the part is not cool")
  | some t =>
    arises (decide (s.hm.gearCeiling < s.hm.gear)) "the permitted gear is the ceiling" <|
      .next (
        let s := s.reach (boundaryFrom (t + 10000000000))
        if s.policy 2 then
          let s : State := { s with hm := { s.hm with coolSince := some s.tm.now } }
          (s.permitGear (s.hm.gear - 1)).evaluateVariant
        else s.recommend 2)

/-- THERMTRIP_N: a reading of 112 degrees (R529, R442, R485). -/
def execThermtripN (s : State) : Res :=
  .next (
    if s.powered then
      let s := s.enterSafe 4
      { s.wipeVault with pw := { s.pw with thermtripN := true, clocksStopped := true } }
    else s)

/-! ## Hubs and the steward (R19, R479, R485) -/

/-- HUB_FAILURE (R485 row 1). -/
def execHubFailure (hub : Nat) (s : State) : Res :=
  need (decide (hub < 2)) "hub" <|
    .next (if s.powered then (s.modDie (8 + hub) fun d => { d with failed := true }).enterSafe 1 else s)

/-- STEWARD_FAILOVER: the HB0 pair halts and the mirror takes over (R479); without a mirror both are gone (R485 row 2). -/
def execStewardFailover (s : State) : Res :=
  .next (
    if !s.powered || s.hm.stewardHb1 then s
    else if s.hm.mirrorFailed then s.enterSafe 2
    else
      let s := s.log 0x62 0xFF 0 0
      { s with hm := { s.hm with stewardHb1 := true } })

/-- STEWARD_MIRROR_FAILURE (R485 row 2). -/
def execStewardMirrorFailure (s : State) : Res :=
  .next (
    if !s.powered then s
    else
      let alone := s.hm.stewardHb1
      let s : State := { s with hm := { s.hm with mirrorFailed := true } }
      if alone then s.enterSafe 2 else s)

/-! ## Fences and retirements by request (R468, R471) -/

/-- A write of FENCE_DIE (R471, R497): done at the next boundary. -/
def State.askFence (s : State) (d : Nat) : Nat × State :=
  if s.hm.fenceHost.isSome then (5, s)
  else if (s.die d).fenced then (0, { s with hm := { s.hm with fenceSt := 3 } })
  else (0, { s with hm := { s.hm with fenceSt := 1, fenceHost := some d } })

/-- A write of RETIRE_ARRAY (R468, R497). -/
def State.askRetire (s : State) (n : Nat) : Nat × State :=
  let a := arrOf n
  let d := s.die a.die
  if s.hm.retireHost.isSome then (5, s)
  else if d.fenced || d.spares == 0 then (0, { s with hm := { s.hm with retireSt := 3 } })
  else
    let s := s.modDie a.die fun x => { x with retireReq := x.retireReq ++ [a.arr] }
    (0, { s with hm := { s.hm with retireSt := 1, retireHost := some n } })

/-- DIE_PLL_LOSS: a hard fence (R471, R472), and the choice of a variant that it makes mandatory (R325; log 59). -/
def execDiePllLoss (d : Nat) (s : State) : Res :=
  need (decide (d < 8)) "compute die" <|
    .next (if s.powered && !(s.die d).fenced then ((s.fence d 1).mandatoryVariant).replaceCheck else s)

/-- What a spare holds after the copy (R469 step 3): loft, stores and tables; the logical array keeps its counts. Its bucket
starts full (R223). -/
def copiedArr (depth : Nat) (x : Arr) : Arr :=
  { loft := x.loft, written := x.written, estore := x.estore, istore := x.istore, handles := x.handles, enc := x.enc
    cacheSteps := x.cacheSteps, cum := x.cum, cnt := x.cnt, lastFault := x.lastFault, word := x.word
    landing := x.landing, dseq := x.dseq, track := x.track, posOf := x.posOf, bucket := depth }

/-- The end of a retirement: the logical number moves to the spare (R469 step 4, R11). -/
def State.moveArray (s : State) (d a p q : Nat) : State :=
  let arrs := mset {} (mset {} s.arrs (slotKey d q) (copiedArr s.template.depth (mget {} s.arrs (slotKey d p)))) (slotKey d p) {}
  let s : State := { s with arrs := arrs }
  let s := s.modDie d fun x =>
    { x with retiring := none, slotMap := x.slotMap.set a q, slotSt := (x.slotSt.set p .retired).set q .active }
  let mine := s.hm.retireHost == some (d * 64 + a)
  let hm := { s.hm with
    retireHost := if mine then none else s.hm.retireHost, retireSt := if mine then 2 else s.hm.retireSt }
  let s : State := { s with hm := hm }
  ((s.record 1 d (p + 256 * q + 65536 * a)).log 0x10 d (d * 64 + a) (p + 256 * q)).replaceCheck

/-- RETIREMENT_COPY: in the fallow slots the loft and stores are copied and the number moves (R469). -/
def execRetirementCopy (d : Nat) (s : State) : Res :=
  need (decide (d < 8)) "compute die" <|
    match (s.die d).retiring with
    | none => .refused (.cannotArise "no retirement of the die is in progress")
    | some (a, p, q) => arises s.background "no FALLOW slot runs" <| .next (s.moveArray d a p q)

/-! ## Background work (R235, R460, R491, R492) -/

/-- An item of background work that is late counts once (R492). -/
def State.noteLate (s : State) (late : Bool) : State :=
  if late then { s with hm := { s.hm with bgDeferred := bump s.hm.bgDeferred } } else s

/-- HEALTH_SWEEP: a SPARE slot tests itself; one that fails is RETIRED and logged (R491). -/
def execHealthSweep (d pslot : Nat) (pass : Bool) (s : State) : Res :=
  need (decide (d < 8) && decide (pslot < 68)) "physical slot" <|
    arises (s.background && (s.die d).slotSt.getD pslot .retired == .spare) "the slot is no SPARE, or no FALLOW slot runs" <|
      .next (
        let k := slotKey d pslot
        let s := s.noteLate (decide (mget 0 s.hm.sweeps k + 600000000000 < s.tm.now))
        let s : State := { s with hm := { s.hm with sweeps := mset 0 s.hm.sweeps k s.tm.now } }
        if pass then s
        else ((s.modDie d fun x => { x with slotSt := x.slotSt.set pslot .retired }).log 0x11 d 0 pslot).replaceCheck)

/-- The logical array that a physical slot holds. -/
def State.arrayIn (s : State) (d p : Nat) : Option ArrId :=
  let x := s.die d
  if x.slotSt.getD p .retired == .spare || x.slotSt.getD p .retired == .retired then none
  else (x.slotMap.findIdx? (· == p)).map fun a => ⟨d, a⟩

/-- One erroneous word of a scrubbed row (R234); the record's CYCLE is that of the FALLOW slot that scrubs (R226). -/
def State.scrubWord (s : State) (d p row : Nat) (e : WordErr) : State :=
  match s.arrayIn d p with
  | some a =>
    if e.corr then s.corrected a true
    else
      let f : Flt := { kind := 2, sub := 4, index := row * 256 + 2 * e.word, cycle := s.fallowCycle }
      (s.raiseFault { a := a, tag := 0 } f none).restoreRow a row
  | none =>
    s.modDie d fun x =>
      if e.corr then { x with corrF := markSlot x.corrF p s.minute } else { x with uncorrF := markSlot x.uncorrF p s.hour }

/-- LOFT_SCRUB: a row of a loft is read in a fallow slot and its errors are handled (R234, R235). -/
def execLoftScrub (d pslot row : Nat) (errs : List WordErr) (s : State) : Res :=
  need (decide (d < 8) && decide (pslot < 68) && decide (row < 7168) && errs.all fun e => decide (e.word < 128)) "loft row" <|
    arises s.background "no FALLOW slot runs" <|
      .next (
        if !s.powered || (s.die d).fenced then s
        else errs.foldl (fun s e => s.scrubWord d pslot row e) s)

/-- A block of a key has another digest than its manifest's (R460). -/
def State.digestWrong (s : State) (k : Key) (b : Nat) : Bool :=
  sha384 (s.keyBytes k (65536 * b) 65536) != k.digests.getD b []

/-- KEY_REHASH: a block of a live key is hashed again; a mismatch makes the key CORRUPT (R460, R125). -/
def execKeyRehash (t id block : Nat) (s : State) : Res :=
  need (decide (1 ≤ t ∧ t ≤ 4095)) "tenant" <|
    match s.key? t id with
    | none => .refused (.cannotArise "the tenant has no such key")
    | some k =>
      arises (s.background && decide (block < k.blocks.length)) "no FALLOW slot runs, or the key has no such block" <|
        .next (
          if s.digestWrong k block then
            let s := s.corruptKey t id
            let s : State := { s with sec := { s.sec with keyDigestFails := bump s.sec.keyDigestFails } }
            s.log 0x24 0xFF 0 (id + 65536 * t)
          else s)

/-! ## The event log (R482) -/

/-- A write of EVT_ACK (R482). -/
def State.ackEvent (s : State) (seq : Nat) : Nat × State :=
  if seq = 0xFFFFFFFF then
    let es := s.hm.evts.map fun e => { e with ack := true, pinned := false }
    (0, { s with hm := { s.hm with evts := es }, pw := { s.pw with alertHeld := false } })
  else
    let es := repin (s.hm.evts.map fun e => if e.seq == seq then { e with ack := true } else e)
    (0, { s with hm := { s.hm with evts := es } })

/-! ## The persistent record (R488, R489) -/

/-- The rank of a queued entry: rows, then FAULT events, then ALERT events (R488). -/
def recRank (e : PrEnt) : Nat :=
  if e.type = 4 ∨ e.type = 5 then 0 else if sevOf e.arg = 3 then 1 else 2

/-- The log entry of a persisted event shows PERSISTED (R480). -/
def markPersisted (es : List EvtRec) (e : PrEnt) : List EvtRec :=
  if e.type = 6 then
    match es.findIdx? fun x => x.code == e.arg && x.time == e.time && x.die == e.unit && !x.persisted with
    | some i => es.modify i fun x => { x with persisted := true }
    | none => es
  else es

/-- The active sector fails a program verify: it is retired, and the live set moves (R489). -/
def sectorFail (h : Health) : Health :=
  recordErase { h with sectors := modifyNth h.sectors h.active fun x => { x with good := false } }

/-- Program the next queued entry (R488). -/
def State.programNext (s : State) (fail : Bool) : State :=
  match sortBy recRank s.hm.prQueue with
  | [] => s
  | e :: _ =>
    let win := s.hm.prTimes.filter fun t => decide (s.tm.now < t + 10000000000)
    let wait := if 32 ≤ win.length then (win.getD (win.length - 32) 0) + 10000000000 else s.tm.now
    let s := s.reach wait
    let times := (s.hm.prTimes.filter fun t => decide (s.tm.now < t + 10000000000)) ++ [s.tm.now]
    let h := { s.hm with prQueue := s.hm.prQueue.erase e, prTimes := times }
    let h := if fail then sectorFail h else h
    let live := h.prState != 2
    let h := recordAppend h e
    let h := if live then { h with evts := markPersisted h.evts e } else h
    State.recordCheck { s with hm := h }

/-- RECORD_PROGRAM (R488). -/
def execRecordProgram (fail : Bool) (s : State) : Res :=
  arises (!s.hm.prQueue.isEmpty && s.powered) "no record entry is queued" <| .next (s.programNext fail)

end Sys2Proof.Machine
end

