-- ==== Sys2Proof/Machine/Security.lean ====
section
/-! DEFINITION. Shares, partial decryption and the hallmark (R456..R463), the end of an engine operation (R453, R454), the
entropy source (R450), the vault (R442, R443) and the test access port. -/

namespace Sys2Proof.Machine

/-! ## Shares (R456, R457) -/

/-- The tenant has a verification key (R455). -/
def hasVkey (x : Tenant) : Bool := x.vkeyAlg != 0 && !x.vkey.isEmpty

/-- Refuse an offer (R463). -/
def State.refuseOffer (s : State) (t code : Nat) : State :=
  s.modTenant t fun x => { x with offerSt := 3, shareReason := code }

/-- Refuse a submission (R463). -/
def State.refuseSubmit (s : State) (t code : Nat) : State :=
  s.modTenant t fun x => { x with submitSt := 3, submitFault := false, shareReason := code }

/-- Why an offer or a submission is refused as it is written (R463): entropy, engine or identity, tenant, share. -/
def State.shareBar (s : State) (t : Nat) : Option Nat :=
  if !s.entropyOk then some 0x52
  else if !s.identityOk then some 0x53
  else if (s.tenant t).st != .active then some 0x5C
  else if (s.tenant t).share.isSome then some 0x58 else none

/-- A write of 1 to SHARE_OFFER (R456): the status and the state. -/
def State.startOffer (s : State) (t : Nat) : Nat × State :=
  if (s.tenant t).offerSt = 1 then (5, s)
  else match s.shareBar t with
    | some c => (0, s.refuseOffer t c)
    | none => (0, (s.modTenant t fun x => { x with offerSt := 1 }).sigPush (.offer t))

/-- The offer's first 160 bytes (R456). -/
def offerBytes (t time : Nat) (nonce epk : List Byte) : List Byte :=
  [0x4B, 0x46, 0x53, 0x4F] ++ leBytes 2 1 ++ leBytes 2 t ++ leBytes 8 Config.serial.toNat ++ leBytes 8 time ++
    nonce ++ slice epk 0 97 ++ leBytes 7 0

/-- An offer is made (R456 step 2): it replaces the live one. -/
def State.makeOffer (s : State) (t : Nat) : State :=
  let k := s.newEphemeral
  let n := k.2.generate 32
  let body := offerBytes t s.tm.now n.1 (Config.ephemeralPub k.1)
  let g := n.2.signIdentity body
  let o : Offer := { bytes := body ++ g.1, nonce := n.1, key := k.1, time := s.tm.now }
  g.2.modTenant t fun x => { x with offer := some o, offerSt := 2, shareReason := 0 }

/-- An offer's engine operations have ended. -/
def State.offerDone (s : State) (t : Nat) (ok : Bool) : State :=
  if (s.tenant t).offerSt != 1 then s
  else if !s.entropyOk then s.refuseOffer t 0x52
  else if !ok || !s.identityOk then s.refuseOffer t 0x53
  else s.makeOffer t

/-- A write of 1 to SHARE_SUBMIT (R456). -/
def State.startSubmit (s : State) (t : Nat) : Nat × State :=
  if (s.tenant t).submitSt = 1 then (5, s)
  else match s.shareBar t with
    | some c => (0, s.refuseSubmit t c)
    | none => (0, (s.modTenant t fun x => { x with submitSt := 1, submitFault := false }).sigPush (.submit t))

/-- The format of a submission (R456, code 0x54); without a verification key no length is the right one. -/
def submitFormOk (m : List Byte) (t alg : Nat) : Bool :=
  slice m 0 4 == [0x4B, 0x46, 0x53, 0x53] && field m 4 2 == 1 && field m 6 2 == t && zeroAt m 137 7 &&
    zeroAt m 148 12 && (alg == 0 || m.length == 176 + field m 144 4 + sigLen alg) &&
    (List.range 17).any fun k => field m 144 4 == 64 + 2 ^ k

/-- A signature under the tenant's verification key over everything before it (R455). -/
def tenantSigOk (m : List Byte) (x : Tenant) : Bool :=
  let n := m.length - sigLen x.vkeyAlg
  Config.sigVerify x.vkeyAlg x.vkey (m.take n) (m.drop n)

/-- The share record of a submission: decryption under K (R456 steps 3 and 4); none when the tag fails. -/
def submitOpen (m : List Byte) (t : Nat) (o : Offer) : Option (List Byte) :=
  match Config.ecdh o.key (slice m 40 97) with
  | none => none
  | some z =>
    let k := Config.hkdf z o.nonce (ascii "KF8 share" ++ leBytes 2 t) 32
    let n := field m 144 4
    Config.gcmOpen k (leBytes 12 0) (m.take 160) (slice m 160 n) (slice m (160 + n) 16)

/-- The coefficients of a share record. -/
def shareCoeffs (r : List Byte) : List Int := (r.drop 64).map fun b => b.toInt

/-- The checks of a submission in order: format, signature, offer, decryption, record (R456 step 6). -/
def State.checkSubmit (s : State) (t : Nat) (m : List Byte) : Except Nat Share :=
  let x := s.tenant t
  if !submitFormOk m t x.vkeyAlg then .error 0x54
  else if !hasVkey x || !tenantSigOk m x then .error 0x55
  else match x.offer with
    | none => .error 0x56
    | some o =>
      if slice m 8 32 != o.nonce then .error 0x56
      else match submitOpen m t o with
        | none => .error 0x56
        | some r =>
          let sets := match s.plan with
            | some p => p.psets
            | none => []
          let logn := match s.psetOfDigest (slice r 0 48) with
            | some n => (sets.getD n {}).logn
            | none => 0
          if logn = 0 ∨ field r 48 1 ≠ logn ∨ r.length ≠ 64 + 2 ^ logn then .error 0x57
          else if !zeroAt r 49 15 then .error 0x54
          else if (shareCoeffs r).contains (-128) then .error 0x59
          else
            let n := field m 144 4
            .ok { psetDigest := slice r 0 48, logn := logn, coeffs := shareCoeffs r, digest := sha384 (slice m 160 (n + 16)) }

/-- A submission's engine operations have ended (R456 steps 6 and 7). -/
def State.submitDone (s : State) (t : Nat) (ok : Bool) : State :=
  let x := s.tenant t
  if x.submitSt != 1 then s
  else if !s.entropyOk then s.refuseSubmit t 0x52
  else if !ok || !s.identityOk then s.refuseSubmit t 0x53
  else if x.share.isSome then s.refuseSubmit t 0x58
  else if x.submitFault then s.refuseSubmit t 0x5A
  else match s.tenantRead t x.shareAddr x.shareLen with
    | none => s.refuseSubmit t 0x5A
    | some m => match s.checkSubmit t m with
      | .error c => s.refuseSubmit t c
      | .ok sh =>
        (s.generate 12).2.modTenant t fun x =>
          { x with share := some sh, offer := none, offerSt := 0, submitSt := 2, shareReason := 0 }

/-- The share offer's expiry is due: a live offer is 600 s old (R456). -/
def execShareOfferExpiry (t : Nat) (s : State) : Res :=
  need (decide (1 ≤ t ∧ t ≤ 4095)) "tenant" <|
    match (s.tenant t).offer with
    | none => .refused (.cannotArise "the tenant has no live offer")
    | some o =>
      .next ((s.reach (o.time + 600000000000)).modTenant t fun x =>
        { x with offer := none, offerSt := if x.offerSt = 2 then 0 else x.offerSt })

/-! ## The queue of partial decryptions (R459) -/

/-- The tenant's request leaves the queue; the next one is BUSY and its signature goes to the engine. -/
def State.pdecNext (s : State) (t : Nat) : State :=
  let head := s.sec.pdecQueue.head? == some t
  let q := s.sec.pdecQueue.filter (· != t)
  let s : State := { s with sec := { s.sec with pdecQueue := q } }
  let s := s.sigAbort (· == .pdec t)
  match q with
  | u :: _ => if head then (s.modTenant u fun x => { x with pdecRun := 2 }).sigPush (.pdec u) else s
  | [] => s

/-- The unwrapped share and the intermediate values leave the vault; a wipe that waited is done (R457, R459). -/
def State.pdecWipe (s : State) (t : Nat) : State :=
  let s : State := { s with sec := { s.sec with vaultShare := none } }
  s.modTenant t fun x =>
    { x with share := if x.wipeAfter then none else x.share, wipeAfter := false, pdecFault := false }

/-- A queued or running request is refused (R463). -/
def State.pdecRefuse (s : State) (t code : Nat) : State :=
  ((s.modTenant t fun x => { x with pdecRun := 4, pdecReason := code }).pdecWipe t).pdecNext t

/-- The tenant holds a share of a set of the loaded plan (R457). -/
def State.shareUsable (s : State) (t : Nat) : Bool := match (s.tenant t).share with
  | some h => (s.psetOfDigest h.psetDigest).isSome
  | none => false

/-- A write of 1 to PDEC_RUN (R459, R463). A tenant's second request leaves the first as it is. -/
def State.startPdec (s : State) (t : Nat) : Nat × State :=
  let x := s.tenant t
  let no (c : Nat) : Nat × State := (0, s.modTenant t fun x => { x with pdecRun := 4, pdecReason := c })
  if x.pdecRun = 1 ∨ x.pdecRun = 2 then (0, s.modTenant t fun x => { x with pdecReason := 0x5B })
  else if !s.entropyOk then no 0x52
  else if !s.identityOk then no 0x53
  else if 64 ≤ s.sec.pdecQueue.length then no 0x5B
  else if x.st != .active then no 0x5C
  else if !hasVkey x then no 0x55
  else if !s.shareUsable t then no 0x58
  else
    let first := s.sec.pdecQueue.isEmpty
    let s := s.modTenant t fun x => { x with pdecRun := if first then 2 else 1, pdecReason := 0, pdecFault := false }
    let s : State := { s with sec := { s.sec with pdecQueue := s.sec.pdecQueue ++ [t] } }
    (0, if first then s.sigPush (.pdec t) else s)

/-- A write of 1 to SHARE_WIPE (R457). -/
def State.wipeShare (s : State) (t : Nat) : Nat × State :=
  let x := s.tenant t
  if x.pdecRun = 2 then (0, s.modTenant t fun x => { x with wipeAfter := true })
  else
    let s := s.modTenant t fun x => { x with share := none }
    (0, if x.pdecRun = 1 then s.pdecRefuse t 0x58 else s)

/-! ## One partial decryption (R458, R459) -/

/-- A partial-decryption request (R458). -/
structure PdecReq where
  counter : Nat
  digest : List Byte
  level : Nat
  flood : Nat
  c1 : Nat
  dest : Nat
  c1Digest : List Byte
  deriving DecidableEq, Repr

/-- The fields of a request. -/
def pdecReqOf (m : List Byte) : PdecReq :=
  { counter := field m 8 8, digest := slice m 16 48, level := field m 64 1, flood := field m 65 1, c1 := field m 72 8
    dest := field m 80 8, c1Digest := slice m 88 48 }

/-- The format of a request (R458, code 0x54). -/
def pdecFormOk (m : List Byte) (t : Nat) : Bool :=
  slice m 0 4 == [0x4B, 0x46, 0x50, 0x44] && field m 4 2 == 1 && field m 6 2 == t && zeroAt m 66 6 &&
    zeroAt m 136 56 && field m 72 8 % 64 == 0 && field m 80 8 % 64 == 0

/-- The first ℓ chain primes of a set. -/
def chainPrimes (p : Plan) (ps : PSet) (l : Nat) : List Nat := (ps.qIdx.take l).map fun i => (p.primes.getD i {}).q

/-- LEVEL and FLOOD_BITS are in range (R458). -/
def pdecRangeOk (p : Plan) (ps : PSet) (r : PdecReq) : Bool :=
  let q := (chainPrimes p ps r.level).foldl (· * ·) 1
  decide (1 ≤ r.level ∧ r.level ≤ min 8 ps.lq ∧ 20 ≤ r.flood ∧ r.flood ≤ min 60 (q.log2 + 1 - 6))

/-- The noise e_i of coefficient i from the DRBG's bytes (R459 step 3). -/
def floodNoise (bs : List Byte) (f i : Nat) : Int := (field bs (8 * i) 8 % 2 ^ (f + 1) : Nat) - (2 ^ f : Int)

/-- Coefficient i of c × s in Z[X]/(X^n + 1). -/
def negacyclic (n : Nat) (c : List Nat) (s : List Int) (i : Nat) : Int :=
  (List.range n).foldl (fun acc k =>
    let x : Int := c.getD k 0
    if k ≤ i then acc + x * s.getD (i - k) 0 else acc - x * s.getD (n + i - k) 0) 0

/-- d_j = c1_j × s + e mod q_j, as its 4N bytes (R459 step 4). -/
def pdecLimb (n q : Nat) (c : List Nat) (s e : List Int) : List Byte :=
  (List.range n).flatMap fun i => leBytes 4 ((negacyclic n c s i + e.getD i 0) % (q : Int)).toNat

/-- The limbs of a polynomial in the host layout of R40. -/
def hostLimb (bs : List Byte) (n j : Nat) : List Nat := (List.range n).map fun i => field bs (4 * (n * j + i)) 4

/-- The response's first 192 bytes (R459). -/
def pdecResponse (t counter time : Nat) (req d share : List Byte) : List Byte :=
  [0x4B, 0x46, 0x50, 0x52] ++ leBytes 2 1 ++ leBytes 2 t ++ leBytes 8 counter ++ leBytes 8 time ++ sha384 req ++
    sha384 d ++ share ++ leBytes 24 0

/-- Free bytes over a request's output buffer: its contents are unstated (R450, log 9). -/
def State.scramble (s : State) (t addr len : Nat) : State :=
  let b := s.freshBytes len
  (b.2.hostWrite (fnOfEntry (s.tenant t).homeFn) (s.tenant t).pasid addr b.1).getD b.2

/-- The checked request runs: noise, limbs, output, response, count (R459 steps 2 to 6). A request that a host access fault
refuses does not consume its COUNTER (R459, R463). -/
def State.pdecCompute (s : State) (t : Nat) (p : Plan) (ps : PSet) (h : Share) (req c1 : List Byte) : State :=
  let r := pdecReqOf req
  let n := 2 ^ ps.logn
  let g := s.generate (8 * n)
  let e := (List.range n).map (floodNoise g.1 r.flood)
  let d := (chainPrimes p ps r.level).zipIdx.flatMap fun q => pdecLimb n q.1 (hostLimb c1 n q.2) h.coeffs e
  let fn := fnOfEntry (s.tenant t).homeFn
  let pasid := (s.tenant t).pasid
  match g.2.hostWrite fn pasid r.dest d with
  | none => g.2.pdecRefuse t 0x5A
  | some s =>
    let body := pdecResponse t r.counter s.tm.now req d h.digest
    let sg := s.signIdentity body
    match sg.2.hostWrite fn pasid (r.dest + r.level * 4 * n) (body ++ sg.1) with
    | none => sg.2.pdecRefuse t 0x5A
    | some s =>
      ((s.modTenant t fun x =>
        { x with pdecRun := 3, pdecReason := 0, pdecCounter := r.counter, pdecCount := bump x.pdecCount }).pdecWipe t).pdecNext t

/-- The checks of the request at the head of the queue, then its run (R458, R459, R463). -/
def State.pdecServe (s : State) (t : Nat) : State :=
  let x := s.tenant t
  let fail := s.pdecRefuse t
  if !s.entropyOk then fail 0x52
  else if !s.identityOk then fail 0x53
  else if x.pdecFault then fail 0x5A
  else match s.tenantRead t x.pdecAddr (192 + sigLen x.vkeyAlg), s.plan, x.share with
    | none, _, _ => fail 0x5A
    | some m, some p, some h =>
      let r := pdecReqOf m
      if !pdecFormOk m t then fail 0x54
      else if !tenantSigOk m x then fail 0x55
      else if r.counter ≤ x.pdecCounter then fail 0x56
      else match s.psetOfDigest h.psetDigest with
        | none => fail 0x58
        | some k =>
          let ps := p.psets.getD k {}
          if r.digest != h.psetDigest || decide (2 < ps.scheme) then fail 0x57
          else if !pdecRangeOk p ps r then fail 0x59
          else match s.tenantRead t r.c1 (r.level * 4 * 2 ^ ps.logn) with
            | none => fail 0x5A
            | some c1 =>
              let small := (chainPrimes p ps r.level).zipIdx.all fun q =>
                (hostLimb c1 (2 ^ ps.logn) q.2).all fun w => decide (w < q.1)
              if sha384 c1 != r.c1Digest || !small then fail 0x59
              else s.pdecCompute t p ps h m c1
    | some _, _, _ => fail 0x58

/-- PARTIAL_DECRYPTION (R459): the request at the head of the queue is served, once the engine has verified its
signature. -/
def execPartialDecryption (s : State) : Res :=
  match s.sec.pdecQueue with
  | [] => .refused (.cannotArise "no partial decryption is queued")
  | t :: _ =>
    arises (!s.sigPending (.pdec t)) "the request's signature waits at the Signet engine" <| .next (s.pdecServe t)

/-! ## The hallmark (R461) -/

/-- PART_STATE as 0x1000.06 reads it (R430). -/
def partCode : PartState → Nat
  | .off => 0 | .boot => 1 | .standby => 2 | .enabled => 3 | .replaceRequested => 4 | .safe => 5

/-- TEN_CTL as it reads (R395). -/
def tenCode : TenState → Nat
  | .free => 0 | .active => 1 | .disabled => 2

/-- ENTROPY_STATE as it reads (R462). -/
def entCode : EntSt → Nat
  | .startup => 0 | .healthy => 1 | .unhealthy => 2 | .failed => 3

/-- SHA-384 of the tenant's verification key, or zero (R455). -/
def vkeyDigest (x : Tenant) : List Byte := if x.vkey.isEmpty then leBytes 48 0 else sha384 x.vkey

/-- SHARE_DIGEST, or zero (R457). -/
def shareDigest (x : Tenant) : List Byte := match x.share with
  | some h => h.digest
  | none => leBytes 48 0

/-- Bytes 240..351 of a report: the tenant section, or zero (R461). -/
def State.hmTenantPart (s : State) (t : Nat) : List Byte :=
  if t = 0 then leBytes 112 0
  else
    let x := s.tenant t
    leBytes 2 t ++ leBytes 1 (b2n x.test + 2 * b2n x.share.isSome + 4 * b2n (s.shareUsable t)) ++
      leBytes 1 (tenCode x.st) ++ leBytes 4 x.manSerial ++ vkeyDigest x ++ shareDigest x ++ leBytes 8 x.pdecCounter

/-- The die-fence bits as FENCED. -/
def State.fencedMask (s : State) : Nat :=
  (List.range 8).foldl (fun m d => if (s.die d).fenced then m + 2 ^ d else m) 0

/-- Bytes 0..367 of a report (R461). -/
def State.hmBody (s : State) : List Byte :=
  let t := s.sec.hmTenant
  let plan : List Byte × Nat × List Byte := match s.plan with
    | some p => (slice p.imageDigest 0 48, p.planId, slice p.domainDigest 0 48)
    | none => (leBytes 48 0, 0, leBytes 48 0)
  [0x4B, 0x46, 0x48, 0x4D] ++ leBytes 2 1 ++ leBytes 2 (if t = 0 then 0 else 1) ++ leBytes 8 Config.serial.toNat ++
    ascii "KF8-P40A" ++ ascii "B0" ++ leBytes 2 s.pw.svn ++ leBytes 1 (partCode s.pw.part) ++
    leBytes 1 (entCode s.sec.entropy) ++ leBytes 1 s.fencedMask ++
    leBytes 1 (if s.plan.isSome then s.vs.current else 0xFF) ++ leBytes 8 s.tm.now ++ slice s.sec.hmNonce 0 32 ++
    s.measurement ++ plan.1 ++ leBytes 8 plan.2.1 ++ plan.2.2 ++ leBytes 16 0 ++
    s.hmTenantPart t ++ leBytes 16 0

/-- Refuse a hallmark (R463). -/
def State.refuseHm (s : State) (code : Nat) : State := { s with sec := { s.sec with hmRun := 3, hmReason := code } }

/-- A write of 1 to HM_RUN (R461). -/
def State.startHm (s : State) : Nat × State :=
  if s.sec.hmRun = 1 then (5, s)
  else if !s.entropyOk then (0, s.refuseHm 0x52)
  else if !s.identityOk then (0, s.refuseHm 0x53)
  else (0, ({ s with sec := { s.sec with hmRun := 1 } }).sigPush .hallmark)

/-- The hallmark's engine operation has ended. -/
def State.hmDone (s : State) (ok : Bool) : State :=
  if s.sec.hmRun != 1 then s
  else if !s.entropyOk then s.refuseHm 0x52
  else if !ok || !s.identityOk then s.refuseHm 0x53
  else
    let body := s.hmBody
    let g := s.signIdentity body
    { g.2 with sec := { g.2.sec with hmRun := 2, hmReason := 0, hmReport := body ++ g.1 } }

/-! ## The end of an engine operation (R453, R454) -/

/-- The requester of an engine operation sees its end. -/
def State.sigFinish (s : State) (op : SigOp) (ok : Bool) : State :=
  match op with
  | .linkKex j => s.kexDone j ok
  | .linkRekey j => s.rekeyDone j ok
  | .pdec t => if ok then ({ s with sec := { s.sec with vaultShare := some t } }) else s.pdecRefuse t 0x53
  | .manifest _ => s
  | .offer t => s.offerDone t ok
  | .submit t => s.submitDone t ok
  | .hallmark => s.hmDone ok

/-- The engine has failed: it serves nothing, and what waits there is refused (R453, R463). -/
def State.failEngine (s : State) : State :=
  let q := s.sec.sigQueue.map (·.2)
  let s : State := { s with sec := { s.sec with signetFailed := true, sigQueue := [], sigBusy := none, operands := false } }
  let s := q.foldl (fun s op => s.sigFinish op false) s
  s.sec.pdecQueue.foldl (fun s t => s.pdecRefuse t 0x53) s

/-- A mismatch of a private-key operation (R453). -/
def State.noteMismatch (s : State) : State :=
  let n := bump s.sec.mismatch
  ({ s with sec := { s.sec with mismatch := n } }).log 0x51 0xFF 0 n

/-- SIGNET_OPERATION_DONE (R454): the operand memory is wiped, the requester sees the end, the next request starts. -/
def execSignetOperationDone (mismatch : Bool) (s : State) : Res :=
  match s.sec.sigBusy with
  | none => .refused (.cannotArise "the Signet engine is idle")
  | some op =>
    .next (
      let bad := mismatch && op.isPrivate
      let s : State := { s with sec := { s.sec with sigBusy := none, operands := false } }
      let s := if bad then s.noteMismatch else s
      let s := s.sigFinish op (!bad)
      if bad && decide (8 ≤ s.sec.mismatch) then s.failEngine else s.sigStart)

/-! ## The entropy source (R450) -/

/-- Every consumer stops (R450): offers, submissions, partial decryptions and the hallmark are refused with 0x52, and the
output of a request in progress is unstated. -/
def State.stopConsumers (s : State) : State :=
  let s := match s.sec.pdecQueue with
    | t :: _ => match s.tenantRead t (s.tenant t).pdecAddr 192, s.plan, (s.tenant t).share with
      | some m, some _, some h =>
        let r := pdecReqOf m
        if s.sec.vaultShare == some t then s.scramble t r.dest (r.level * 4 * 2 ^ h.logn) else s
      | _, _, _ => s
    | [] => s
  let s := s.sigAbort fun op => match op with
    | .offer _ => true
    | .submit _ => true
    | .pdec _ => true
    | .hallmark => true
    | _ => false
  let ts := s.tenants.map (·.1)
  let s := ts.foldl (fun s t => if (s.tenant t).offerSt = 1 then s.refuseOffer t 0x52 else s) s
  let s := ts.foldl (fun s t => if (s.tenant t).submitSt = 1 then s.refuseSubmit t 0x52 else s) s
  let s : State := s.sec.pdecQueue.foldl (fun s t => s.pdecRefuse t 0x52) s
  let s : State := if s.sec.hmRun = 1 then s.refuseHm 0x52 else s
  s.sigAbort fun op => match op with
    | .pdec _ => true
    | _ => false

/-- ENTROPY_FAIL (R450): the DRBG stops, the failure is counted and logged; 16 are FAILED until the next cold reset. -/
def execEntropyFail (s : State) : Res :=
  .next (
    if !s.powered || s.sec.entropy == .failed then s
    else
      let n := bump s.sec.entropyFails
      let st : EntSt := if 16 ≤ n then .failed else .unhealthy
      let s : State := { s with sec := { s.sec with entropy := st, drbgUp := false, entropyFails := n } }
      (s.log 0x50 0xFF 0 n).stopConsumers)

/-- ENTROPY_RETEST (R450): the startup tests are repeated; when they pass, the DRBG is instantiated afresh. -/
def execEntropyRetest (pass : Bool) (s : State) : Res :=
  arises (s.sec.entropy == .unhealthy) "the entropy source is not UNHEALTHY" <|
    .next (if pass && s.powered then
      State.instantiateDrbg { s with sec := { s.sec with entropy := .healthy } } else s)

/-! ## The vault (R442, R443) and the test access port -/

/-- VAULT_UNCORRECTABLE (R443): the secret is discarded and recovered by what it was. A key derived from the UDS is the
same key again. -/
def execVaultUncorrectable (what : VaultItem) (s : State) : Res :=
  match what with
  | .identityKey => .next s
  | .wrapKey => .next s
  | .linkSession j =>
    need (linkWf j) "link" <| .next (if (s.link j).session then (s.linkFail j 5).startTraining { link := j } else s)
  | .share => .next (match s.sec.vaultShare with
    | some t => s.pdecRefuse t 0x59
    | none => s)
  | .drbg => .next (if s.sec.drbgUp then s.instantiateDrbg else s)

/-- JTAG_INSTRUCTION (R442, R533): an instruction outside BYPASS, IDCODE and SAMPLE/PRELOAD wipes the vault, blocks key
derivation and enters SAFE. -/
def execJtagInstruction (i : JtagInstr) (s : State) : Res :=
  .next (match i with
    | .other =>
      if s.powered then
        let s : State := { s.wipeVault with pw := { s.pw with keysBlocked := true } }
        s.enterSafe 3
      else s
    | .bypass => s
    | .idcode => s
    | .samplePreload => s)

end Sys2Proof.Machine
end

