-- ==== Sys2Proof/Machine/Reset.lean ====
section
/-! DEFINITION. Power, resets and boot (R295, R498..R518, R529): what each reset keeps, the self-tests and what follows
from them, the end of BOOT. -/

namespace Sys2Proof.Machine

/-! ## Board flash (R501, R503) -/

/-- The boot parameter block is used: MAGIC, VERSION, CRC, and every field none or in the range of its entry (R501). -/
def paramsOk (b : List Byte) : Bool :=
  let pkg := field b 6 2
  let delay := sNat 32 (field b 8 4)
  b.length == 64 && slice b 0 4 == [0x4B, 0x46, 0x42, 0x50] && field b 4 2 == 1 &&
    field b 60 4 == (crc32 (b.take 60)).toNat && (pkg == 0xFFFF || decide (pkg < 512)) &&
    (field b 8 4 == 0x80000000 || decide (-100000 ≤ delay ∧ delay ≤ 100000)) &&
    (field b 12 1 == 0xFF || decide (field b 12 1 < 2)) && (field b 13 1 == 0xFF || decide (field b 13 1 < 2)) &&
    (field b 14 1 == 0xFF || decide (field b 14 1 < 4))

/-- Apply the boot parameter block to the defaults, or set PARAMS (R501). -/
def State.applyParams (s : State) : State :=
  let b := s.pw.bootParams
  if !paramsOk b then { s with pw := { s.pw with paramsBad := true } }
  else
    let dom := if field b 6 2 = 0xFFFF then s.dom else { s.dom with pkgAddr := field b 6 2 }
    let delay := if field b 8 4 = 0x80000000 then s.tm.ppsDelay else sNat 32 (field b 8 4)
    let fall := if field b 12 1 = 0xFF then s.tm.ppsFalling else field b 12 1 == 1
    let pol := if field b 13 1 = 0xFF then s.sec.peerPolicy else field b 13 1 == 1
    let ceil := if field b 14 1 = 0xFF then s.hm.gearCeiling else field b 14 1
    { s with
      dom := dom, tm := { s.tm with ppsDelay := delay, ppsFalling := fall }, sec := { s.sec with peerPolicy := pol }
      hm := { s.hm with gearCeiling := ceil } }

/-- The ROM's verification of a firmware slot (R445, R502): its SVN, none where it fails. `steward` and `security` are
the STEWARD_LEN and SECURITY_LEN bytes read; `sigOk` is the outcome of the header's signature under the ROM's key (log 7). -/
def fwSvn (f : FwSlot) (minSvn : Nat) : Option Nat :=
  let h := f.header
  let svn := field h 6 2
  let form := h.length == 4096 && slice h 0 4 == [0x4B, 0x46, 0x46, 0x57] && field h 4 2 == 1 && (h.drop 208).all (· == 0)
  let lens := decide (field h 8 4 + field h 12 4 ≤ 4194304) && f.steward.length == field h 8 4 &&
    f.security.length == field h 12 4
  let digests := sha384 f.steward == slice h 16 48 && sha384 f.security == slice h 64 48
  if form && lens && digests && f.sigOk && decide (minSvn ≤ svn) then some svn else none

/-- The firmware slot that boots (R503): the higher SVN, slot A on a tie; none when both fail. -/
def bootSlot (e : BootEnv) (minSvn : Nat) : Option (Bool × Nat) := match fwSvn e.fwA minSvn, fwSvn e.fwB minSvn with
  | some a, some b => if a < b then some (false, b) else some (true, a)
  | some a, none => some (true, a)
  | none, some b => some (false, b)
  | none, none => none

/-- BOOT begins with the outcomes of its tests (R503, log 7): the ROM verifies both slots and chooses one. -/
def State.beginBoot (s : State) (e : BootEnv) (warm : Bool) : State :=
  let ok (f : FwSlot) : Bool := (fwSvn f s.pw.minSvn).isSome
  let pw : Power := { s.pw with
    part := .boot, pwrgood := true, env := e, warm := warm, fwFallback := ok e.fwA != ok e.fwB, noRefclk := false
    noCert := false, entropyBad := false, signetBad := false, recordBad := false, slotRetired := false, resetDue := 0 }
  match bootSlot e s.pw.minSvn with
  | some (a, v) => { s with pw := { pw with stage := 0, faultN := false, fwSlotA := a, svn := v } }
  | none => { s with pw := { pw with stage := 0xF, faultN := true } }

/-! ## Cold reset (R510) -/

/-- What a cold reset leaves: the state right after reset, with the fuses and the board flash kept; host memory and what
the part has sent are outside. -/
def State.coldState (s : State) : State :=
  let r := State.reset
  let ports : SMap Port := s.ports.map fun e => (e.1, { r.port e.1 with perst := e.2.perst, linkUp := !e.2.perst, cfgLoaded := !e.2.perst })
  let hm : Health := { r.hm with sectors := s.hm.sectors, active := s.hm.active, fuses := s.hm.fuses }
  { r with
    pending := s.pending, hostMem := s.hostMem, hostFaults := s.hostFaults, free := s.free, out := s.out, ports := ports
    hm := hm, pw := { r.pw with bootParams := s.pw.bootParams, minSvn := s.pw.minSvn } }

/-- A cold reset (R504, R509, R510, R517). -/
def State.coldReset (s : State) (cause : Nat) (e : BootEnv) : State :=
  let t := s.coldState
  let s := (t.beginBoot e false).applyParams
  { s with pw := { s.pw with resetCause := cause }, hm := { s.hm with gear := s.hm.gearCeiling } }

/-! ## Warm reset (R510, R511, R516) -/

/-- A CMD entry's BUSY or QUEUED reads IDLE again (R516). -/
def idleIf (st : Nat) (busy : List Nat) : Nat := if busy.contains st then 0 else st

/-- A tenant after a warm reset: actions in progress are abandoned, the offer is gone (R456, R516). -/
def Tenant.warm (t : Tenant) : Tenant :=
  { t with
    keyLoad := idleIf t.keyLoad [1, 2], upFault := false, offer := none, offerSt := idleIf t.offerSt [1, 2]
    submitSt := idleIf t.submitSt [1], submitFault := false, pdecRun := idleIf t.pdecRun [1, 2], pdecFault := false
    share := if t.wipeAfter then none else t.share, wipeAfter := false }

/-- A link after a warm reset: DOWN and not started; its counters are kept. -/
def Link.warm (l : Link) : Link :=
  let d : Link := {}
  { d with
    rekeys := l.rekeys, retrans := l.retrans, fecCorr := l.fecCorr, fecUncorr := l.fecUncorr, authFail := l.authFail
    noroute := l.noroute, txErr := l.txErr, retrain := idleIf l.retrain [1] }

/-- A die after a warm reset: windows, slot map and fence are kept; requests are gone; a retirement in progress is cut
off and its decision stands. -/
def Die.warm (d : Die) : Die :=
  let d := match d.retiring with
    | some (a, p, _) => { d with slotSt := d.slotSt.set p .active, retireReq := a :: d.retireReq }
    | none => d
  { d with descs := [], units := [], unitSeq := 0, retiring := none }

/-- An array after a warm reset: contents are cleared, counters and the last fault kept. -/
def Arr.warm (x : Arr) : Arr := { cnt := x.cnt, cum := x.cum, lastFault := x.lastFault }

/-- A stream after a warm reset: its function's configuration space is reset, so records wait for Bus Master Enable. -/
def Stream.warm (x : Stream) : Stream :=
  if x.st = .disabled then x else { x with bmeWait := true, portWait := false, irqWait := false }

/-- The security controller after a warm reset: the vault is wiped, requests are abandoned (R442, R447, R516). -/
def Sec.warm (x : Sec) : Sec :=
  { x with
    entropy := if x.entropy = .failed then .failed else .startup, drbgUp := false, sigQueue := [], sigBusy := none
    operands := false, identity := 0, vaultId := false, vaultWrap := false, vaultShare := none, peers := []
    pdecQueue := [], hmRun := idleIf x.hmRun [1] }

/-- The health manager after a warm reset (R473, R479): log, windows, record and settings are kept. -/
def Health.warm (h : Health) : Health :=
  { h with
    gear := h.gearCeiling, stewardHb1 := false, mirrorFailed := false, hot := [], overPower := false, stepHold := 0
    coolSince := none, mpNow := false }

/-- The domain after a warm reset: the package is in none; its settings and counters are kept. -/
def Domain.warm (d : Domain) : Domain :=
  let r : Domain := {}
  { r with
    pkgAddr := d.pkgAddr, refused := d.refused, mgmtRoute := d.mgmtRoute, remoteWrite := d.remoteWrite
    mgmtTimeouts := d.mgmtTimeouts, mseqOut := d.mseqOut, mseqIn := d.mseqIn }

/-- A function after a reset of its port: configuration space, MSI-X and mailbox are reset. -/
def Fn.warm (x : Fn) : Fn :=
  let d : Fn := {}
  { d with present := x.present }

/-- What a warm reset leaves (R510, R511, R516). -/
def State.warmState (s : State) : State :=
  let links : SMap Link := s.links.map fun e => (e.1, e.2.warm)
  let dies : SMap Die := s.dies.map fun e => (e.1, e.2.warm)
  let arrs : SMap Arr := s.arrs.map fun e => (e.1, e.2.warm)
  let tens : SMap Tenant := s.tenants.map fun e => (e.1, e.2.warm)
  let strs : SMap Stream := s.streams.map fun e => (e.1, e.2.warm)
  let fns : SMap Fn := s.fns.map fun e => (e.1, e.2.warm)
  let keys := s.keys.map fun k => { k with resident := false }
  let pw : Power := { s.pw with
    safeRow := 0, thermalHold := s.pw.safeRow == 4, thermtripN := false, clocksStopped := false, selfRefresh := true }
  { s with
    links := links, dies := dies, arrs := arrs, tenants := tens, streams := strs, fns := fns, keys := keys, hubs := []
    runs := [], installs := [], uploads := [], snap := none, sec := s.sec.warm, hm := s.hm.warm, dom := s.dom.warm
    pw := pw, tm := { s.tm with dueStep := none }
    en := { s.en with on := false, st := 0, accepted := false, replay := true }
    vs := { s.vs with pending := none, inSwitch := false, relocking := false, announced := [] }
    pc := { s.pc with load := idleIf s.pc.load [1], image := none }
    mem := { s.mem with mrgRun := idleIf s.mem.mrgRun [1] }
    dump := { s.dump with run := idleIf s.dump.run [1] }
    trace := { s.trace with buf := [] } }

/-- A warm reset (R509, R511); one during step 5 of a plan load leaves no plan loaded (R331). -/
def State.warmReset (s : State) (cause : Nat) (e : BootEnv) : State :=
  let s := if e.loading && s.pc.load == 1 then s.unloadPlan else s
  let s := (s.reopenJobs (List.range 8) fun _ => true).warmState.beginBoot e true
  { s with pw := { s.pw with resetCause := cause } }

/-- A warm reset is taken: not in OFF; the BOOT of a warm reset restarts, that of a cold one outranks it (R509), and a BOOT
in which both firmware slots failed is left by a cold reset alone (R503); SAFE is left only as R485 allows. -/
def State.warmAllowed (s : State) : Bool := match s.pw.part with
  | .off => false
  | .boot => s.pw.warm && s.pw.stage != 0xF
  | .safe => s.pw.safeRow == 2 || s.pw.safeRow == 4
  | _ => true

/-- Both PERSTs together trigger a warm reset: not during BOOT, where they only hold their ports in reset (R509). -/
def State.perstAllowed (s : State) : Bool := s.pw.part != .boot && s.warmAllowed

/-! ## The record and the fuses at boot (R487, R490, R504) -/

/-- The row that a record entry's ARG names (R487). -/
def argRow (a : Nat) : Nat := ((bits a 4 0 * 2 + bits a 5 5) * 16 + bits a 9 6) * 352 + bits a 18 10

/-- Reapply one entry of the persistent record (R487). -/
def State.reapply (s : State) (e : PrEnt) : State :=
  if e.type = 1 then
    s.modDie e.unit fun d =>
      { d with
        slotMap := d.slotMap.set (bits e.arg 21 16) (bits e.arg 15 8)
        slotSt := (d.slotSt.set (bits e.arg 7 0) .retired).set (bits e.arg 15 8) .active }
  else if e.type = 2 then s.modDie e.unit fun d => { d with fenced := true, stopped := true }
  else if e.type = 3 then s.modStack (e.unit - 10) fun x => { x with lost := true }
  else if e.type = 4 then s.modStack (e.unit - 10) fun x =>
    if x.marked.contains (argRow e.arg) || x.remapped.contains (argRow e.arg) then x else { x with marked := x.marked ++ [argRow e.arg] }
  else if e.type = 5 then s.modStack (e.unit - 10) fun x =>
    { x with
      retired := if x.retired.contains (argRow e.arg) then x.retired else x.retired ++ [argRow e.arg]
      marked := x.marked.filter (· != argRow e.arg) }
  else s

/-- The good sector with the highest sequence number is the active one (R487). -/
def activeSector (h : Health) : Nat :=
  ((List.range h.sectors.length).filter fun i => (h.sectors.getD i {}).good).foldl (fun b i =>
    if !(h.sectors.getD b {}).good || decide ((h.sectors.getD b {}).seq < (h.sectors.getD i {}).seq) then i else b) 0

/-- The record is reapplied, and fused dies are fenced (R487, R490, R504). -/
def State.bootRecord (s : State) : State :=
  let h := { s.hm with active := activeSector s.hm }
  let s : State := { s with hm := h }
  let s := (activeEnts h).foldl State.reapply s
  (List.range 8).foldl (fun s d =>
    if s.hm.fuses.contains (BitVec.ofNat 8 (0x80 + d)) then s.modDie d fun x => { x with fenced := true, stopped := true }
    else s) s

/-! ## Self-tests (R295, R507) -/

/-- One failing physical slot: a SPARE is RETIRED; an active logical number moves to the lowest SPARE (R507). -/
def State.bootRetire (s : State) (d p : Nat) : State :=
  let x := s.die d
  let s : State := { s with pw := { s.pw with slotRetired := true } }
  match x.slotSt.getD p .retired with
  | .spare => (s.modDie d fun x => { x with slotSt := x.slotSt.set p .retired }).log 0x11 d 0 p
  | .retired => s
  | _ => match x.spare, x.slotMap.findIdx? (· == p) with
    | some q, some a => s.moveArray d a p q
    | _, _ => s

/-- The BIST of a die's physical slots: failing spares first, then active slots; more failures than spares fence it. -/
def State.bootDie (s : State) (e : BootEnv) (d : Nat) : State :=
  let x := s.die d
  let bad := (List.range 68).filter fun p => e.bistFail.contains (d, p) && x.slotSt.getD p .retired != .retired
  if x.fenced then s
  else if e.unitFail.contains d || decide (x.spares < bad.length) then s.fence d 1
  else
    let sp := bad.filter fun p => x.slotSt.getD p .retired == .spare
    let ac := bad.filter fun p => x.slotSt.getD p .retired != .spare
    (sp ++ ac).foldl (fun s p => s.bootRetire d p) s

/-- A row that could not be repaired is retired (R295): its mirrored blocks keep one copy, a KEYS block's key is CORRUPT. -/
def State.retireRow (s : State) (k n : Nat) : State :=
  let bs := blocksOfRow k n
  let s := s.modStack k fun x => { x with retired := x.retired ++ [n], marked := x.marked.filter (· != n) }
  let s := s.corruptWhere fun b => bs.contains b
  let s := (s.recordQueue 5 (stackDie k) (rowArg n)).log 0x22 (stackDie k) k (rowArg n)
  if 3604 < (s.stack k).retired.length then s.loseStack k else s

/-- Stack repair at a reset (R295): rows in spares that are repaired go back, but for those that could not be copied correctly,
which count; marked rows that are not repaired are retired. DESIGN CHOICE (log 89): remap candidates and a copy in progress end. -/
def State.repairStack (s : State) (e : BootEnv) (k : Nat) : State :=
  let x := s.stack k
  if x.lost then s
  else
    let bad (n : Nat) : Bool := e.unrepaired.contains (k, n)
    let kept := x.remapped.filter fun n => !bad n && e.uncopied.contains (k, n)
    let out := x.marked.filter bad
    let s := s.setStack k { x with
      remapped := x.remapped.filter (fun n => bad n || kept.contains n), marked := out, cands := [], copying := none
      copied := false, uncorr := addTo x.uncorr kept.length }
    out.foldl (fun s n => s.retireRow k n) s

/-- The tests of dies and stacks, and what follows: repair, the stores of the loaded plan and its IMAGE handles (R272, R507,
R511). -/
def State.dieTests (s : State) (e : BootEnv) : State :=
  let s := (List.range 8).foldl (fun s d => s.bootDie e d) s
  let s := e.stackFail.foldl State.loseStack s
  let s := (List.range 6).foldl (fun s k => s.repairStack e k) s
  if s.plan.isSome then s.writeStores s.variant else s

/-- The identity, the engine's known-answer tests and the entropy startup tests (R445, R448, R450, R507). -/
def State.bootSecurity (s : State) (e : BootEnv) : State :=
  let keys := !s.pw.keysBlocked
  let sec : Sec := { s.sec with
    vaultId := keys, vaultWrap := keys, identity := if e.certOk && keys then 1 else 2
    signetFailed := s.sec.signetFailed || !e.signetOk }
  let s : State := { s with
    sec := sec, pw := { s.pw with noCert := !(e.certOk && keys), entropyBad := !e.entropyOk, signetBad := !e.signetOk } }
  if s.sec.entropy == .failed then s
  else if e.entropyOk then State.instantiateDrbg { s with sec := { s.sec with entropy := .healthy } }
  else
    let n := bump s.sec.entropyFails
    let st : EntSt := if 16 ≤ n then .failed else .unhealthy
    ({ s with sec := { s.sec with entropy := st, entropyFails := n } }).log 0x50 0xFF 0 n

/-- BOOT ends (R504, R507): record, identity, tests, STANDBY; a failing hub is SAFE. -/
def State.finishBoot (s : State) : State :=
  let e := s.pw.env
  if e.hubFail then s.enterSafe 1
  else
    let s := s.bootRecord.bootSecurity e
    let s : State := { s with
      tm := { s.tm with refclk := e.refclk }
      pw := { s.pw with selfRefresh := false, recordBad := goodSectors s.hm == 0, noRefclk := e.refclk == .absent } }
    let s := if s.pw.noRefclk then s else s.dieTests e
    let s : State := { s with pw := { s.pw with part := .standby, stage := 6 }, hm := { s.hm with gear := s.hm.gearCeiling } }
    s.recordCheck.replaceCheck

/-! ## Commands -/

/-- PWRGOOD_ASSERT (R504, R518): from OFF into BOOT; the cause is that of a power loss during operation (R517). -/
def execPwrgoodAssert (e : BootEnv) (s : State) : Res :=
  .next (if s.pw.part == .off then s.coldReset 4 e else s)

/-- PWRGOOD_DEASSERT (R499): OFF; every volatile content is lost. -/
def execPwrgoodDeassert (s : State) : Res :=
  .next (
    let t := s.coldState
    { t with ports := [], pw := { t.pw with part := .off, pwrgood := false, resetDue := 0 } })

/-- PERST_BOTH_WARM_RESET (R509): both ports are reset (R513), and a warm reset runs where one is taken. -/
def execPerstBothWarmReset (e : BootEnv) (s : State) : Res :=
  .next (
    if !s.powered then s
    else
      let t := (s.clearPort 0).clearPort 1
      let t := if s.perstAllowed then t.warmReset 3 e else t
      { t with ports := [] })

/-- BOOT_COMPLETE (R504): not while both firmware slots have failed (R503) or a warm reset waits for cool sensors (R529). -/
def execBootComplete (s : State) : Res :=
  arises (s.pw.part == .boot && s.pw.stage != 0xF && !s.pw.thermalHold) "no BOOT can complete" <| .next s.finishBoot

/-- THERMAL_BOOT_HOLD_RELEASE (R529): every sensor reads below 95 degrees. -/
def execThermalBootHoldRelease (s : State) : Res :=
  arises (s.pw.part == .boot && s.pw.thermalHold && s.temps.all fun t => decide (t < 95)) "no BOOT waits for cool sensors" <|
    .next { s with pw := { s.pw with thermalHold := false } }

/-- REFCLK_LOCK (R507): REFCLK_SYS locks after a STANDBY without it; the tests left out run. -/
def execRefclkLock (e : BootEnv) (s : State) : Res :=
  arises (s.pw.noRefclk && s.powered) "the part is not without its reference clock" <|
    .next (
      let s : State := { s with tm := { s.tm with refclk := .locked } }
      let s := (s.dieTests e).replaceCheck
      { s with pw := { s.pw with noRefclk := false } })

/-- A write of RESET_CMD (R517): the reset starts 1 ms after the response. -/
def State.askReset (s : State) (v : Nat) : Nat × State := (0, { s with pw := { s.pw with resetDue := v } })

/-- A port reset's part of a cold or warm reset by RESET_CMD: links train again on ports whose PERSTn_N is released. -/
def State.portsAgain (s : State) : State :=
  let ports : SMap Port := s.ports.map fun e =>
    (e.1, { e.2 with linkUp := !e.2.perst, cfgLoaded := !e.2.perst, failed := false })
  { s with ports := ports }

/-- The reset that a RESET_CMD started, 1 ms after its response (R517). -/
def State.resetByCmd (s : State) (v : Nat) (e : BootEnv) : State :=
  let s := s.reach (s.tm.now + 1000000)
  if v = 1 then s.coldReset 1 e else (s.warmReset 2 e).portsAgain

end Sys2Proof.Machine
end

