-- ==== Sys2Proof/Machine/Views.lean ====
section
/-! DEFINITION. The readable forms of what the dictionary shows: records and tables as bytes (R83, R226, R239, R436, R480,
R508), and snapshots of the mirror (R437). -/

namespace Sys2Proof.Machine

/-! ## Records of the arrays -/

/-- The 64 bytes of a fault record (R226). -/
def faultBytes (f : FaultRec) : List Byte :=
  leBytes 1 f.kind ++ leBytes 1 f.sub ++ leBytes 1 f.point ++ leBytes 1 f.stage ++ leBytes 4 f.tag ++ leBytes 2 f.larr ++
    leBytes 1 f.pslot ++ leBytes 1 f.limb ++ leBytes 4 f.index ++ leBytes 4 f.epoch ++ leBytes 4 f.cycle ++
    leBytes 2 f.stream ++ leBytes 2 f.inc ++ leBytes 4 f.seq ++ leBytes 32 f.word.toNat

/-- The 128-bit image of an accumulator entry (R83); VALUE and CKR read 0 while the part is enabled (R435). -/
def accImage (a : Acc) (hidden : Bool) : Nat :=
  (if hidden then 0 else a.value.toNat) + a.fc * 2 ^ 72 + b2n a.int32 * 2 ^ 81 + (if hidden then 0 else a.ckr * 2 ^ 82)

/-- The images of E0..E63 of a cell (R435). -/
def accBytes (x : Arr) (cell : Nat) (hidden : Bool) : List Byte :=
  (List.range 64).flatMap fun e => leBytes 16 (accImage ((mget [] x.acc e).getD cell {}) hidden)

/-- The eight counts of ARR_COUNTERS (R435). -/
def counterBytes (c : ArrCnt) : List Byte :=
  [c.cribCorr, c.check, c.perm, c.fold, c.starve, c.deadline, c.waits, c.unreported].flatMap (leBytes 4)

/-- A handle entry as its 128 bits (R239). -/
def handleNum (h : Handle) : Nat :=
  h.target.toNat + h.length.toNat * 2 ^ 64 + b2n h.image * 2 ^ 97 + h.npoly.toNat * 2 ^ 98 + h.pset.toNat * 2 ^ 100 +
    h.level.toNat * 2 ^ 103 + h.cst2.toNat * 2 ^ 110 + h.cst1.toNat * 2 ^ 114 + h.cst0.toNat * 2 ^ 118 +
    b2n h.evalDom * 2 ^ 122 + b2n h.sheaf * 2 ^ 123 + b2n h.rwrite * 2 ^ 124 + b2n h.slotScope * 2 ^ 125 +
    h.kind.toNat * 2 ^ 126

/-- LOFT_HANDLES (R262). -/
def handleBytes (x : Arr) : List Byte := (List.range 256).flatMap fun h => leBytes 16 (handleNum (mget {} x.handles h))

/-- ENC_TABLE (R285); the reserved bits [10:0] of an entry read 0 (R7). -/
def encBytes (x : Arr) : List Byte :=
  (List.range 16).flatMap fun i => leBytes 8 ((mget {} x.enc i).raw.toNat / 2048 * 2048)

/-- PRIME_ENTRY (R33); its reserved bits [255:224] and [127:112] read 0 (R7). -/
def primeBytes (e : PrimeEntry) : List Byte := slice e.raw 0 14 ++ leBytes 2 0 ++ slice e.raw 16 12 ++ leBytes 4 0

/-- A physical slot's state (R496). -/
def pstCode : PSt → Nat
  | .active => 0 | .spare => 1 | .retired => 2 | .retiring => 3

/-- PSLOT_HEALTH (R496). -/
def State.slotHealth (s : State) (d p : Nat) : List Byte :=
  let x := s.die d
  leBytes 4 (inDay s (mget [] x.checkF p)).length ++ leBytes 4 (inDay s (mget [] x.uncorrF p)).length ++
    leBytes 4 (inHour s (mget [] x.corrF p)).length ++ leBytes 4 0

/-! ## The event log (R480) -/

/-- The 96 bytes of a log entry (R480). -/
def evtBytes (e : EvtRec) : List Byte :=
  leBytes 4 e.seq ++ leBytes 2 e.code ++ leBytes 1 e.sev ++
    leBytes 1 (b2n e.ack + 2 * b2n e.pinned + 4 * b2n e.persisted) ++ leBytes 8 e.time ++
    leBytes 4 (e.die + 256 * e.inst) ++ leBytes 4 e.arg ++ leBytes 8 0 ++
    (match e.body with
      | some f => faultBytes f
      | none => leBytes 64 0)

/-- EVT_ENTRY: the entry of a SEQ, or zero (R497). -/
def State.evtEntry (s : State) (seq : Nat) : List Byte := match s.hm.evts.find? fun e => e.seq == seq with
  | some e => evtBytes e
  | none => leBytes 96 0

/-! ## Boot and identity (R430, R508) -/

/-- BOOT_STATUS (R508). -/
def State.bootStatus (s : State) : Nat :=
  let p := s.pw
  let lost := (List.range 6).foldl (fun m k => if (s.stack k).lost then m + 2 ^ k else m) 0
  p.stage * 2 ^ 28 + lost * 2 ^ 22 + s.fencedMask * 2 ^ 14 + b2n p.fwFallback * 128 + b2n p.noRefclk * 64 +
    b2n p.noCert * 32 + b2n p.entropyBad * 16 + b2n p.signetBad * 8 + b2n p.recordBad * 4 + b2n p.paramsBad * 2 +
    b2n p.slotRetired

/-- DICT_REQUESTER (R430). -/
def requesterCode : Requester → Nat
  | .fn f => f.port * 256 + f.fn
  | .mctp => 0x4000
  | .remote pkg _ => 0x8000 + pkg

/-! ## Mirror records (R436) -/

/-- STR_CTL as it reads (R402). -/
def strCode : StrState → Nat
  | .disabled => 0 | .enabled => 1 | .draining => 2 | .error => 3

/-- A stream record. -/
def streamRec (x : Stream) : List Byte :=
  leBytes 1 (strCode x.st) ++ leBytes 1 x.sqLog2 ++ leBytes 1 x.cqLog2 ++ leBytes 1 x.vector ++ leBytes 2 x.tenant ++
    leBytes 2 x.fn ++ leBytes 2 x.altFn ++ leBytes 2 x.credits ++ leBytes 2 x.inflight ++ leBytes 2 0 ++
    leBytes 8 x.sqAddr ++ leBytes 8 x.cqAddr ++ leBytes 8 x.statusAddr ++ leBytes 4 x.nextSeq ++ leBytes 4 x.committed ++
    leBytes 4 x.completed ++ leBytes 4 x.sqHead ++ leBytes 4 x.cqTail ++ leBytes 4 x.cqHead

/-- TEN_DEFICIT: DEF clamped to 32 bits (R395). -/
def deficit32 (x : Tenant) : Int := max (-(2 ^ 31)) (min (2 ^ 31 - 1) x.deficit)

/-- A tenant record. -/
def tenantRec (t : Nat) (x : Tenant) : List Byte :=
  leBytes 2 t ++ leBytes 1 (tenCode x.st) ++ leBytes 1 (b2n x.test) ++ leBytes 1 x.weight ++ leBytes 1 0 ++
    leBytes 2 x.homeFn ++ leBytes 4 x.pasid.toNat ++ leBytes 4 x.creditLimit ++ leBytes 4 x.inflight ++
    leBytes 4 x.blocksUsed ++ leInt 4 (deficit32 x) ++ leBytes 4 0

/-- The state of a job (R436). -/
def jobCode : JobState → Nat
  | .pending => 1 | .queued => 2 | .bound => 3 | .finished => 4

/-- A job record; a FREE entry is zero but for SLOT. -/
def jobRec : Option Job → List Byte
  | none => leBytes 12 0 ++ leBytes 2 0xFFFF ++ leBytes 2 0
  | some j =>
    leBytes 2 j.stream ++ leBytes 1 j.prog ++ leBytes 1 (jobCode j.st) ++ leBytes 4 j.seq ++ leBytes 2 j.inc ++
      leBytes 1 j.bpos ++ leBytes 1 0 ++ leBytes 2 (if j.st == .bound then j.slot else 0xFFFF) ++ leBytes 2 0

/-- The state of a key (R436). -/
def keyCode : KeyState → Nat
  | .usable => 0 | .dormant => 1 | .corrupt => 2 | .dropped => 3

/-- A key record. -/
def keyRec (k : Key) : List Byte :=
  leBytes 2 k.id ++ leBytes 1 k.kind ++ leBytes 1 (keyCode k.st) ++ leBytes 4 k.galois ++ leBytes 4 k.blocks.length ++
    leBytes 1 (b2n k.seeded + 2 * b2n k.resident) ++ leBytes 1 (if k.st == .dormant then 0xFF else k.pset.getD 0xFF) ++
    leBytes 2 0

/-- Records of a tenant's keys in ascending KEY_ID. -/
def State.keyRecs (s : State) (t : Nat) : List Byte :=
  (sortBy (·.id) (s.keys.filter fun k => k.tenant == t)).flatMap keyRec

/-- Stream records from a number on. -/
def State.streamRecs (s : State) (from' n : Nat) : List Byte :=
  (List.range n).flatMap fun i => if from' + i < 16384 then streamRec (s.stream (from' + i)) else leBytes 64 0

/-- Tenant records from a number on; record r is tenant T(r + 1). -/
def State.tenantRecs (s : State) (from' n : Nat) : List Byte :=
  (List.range n).flatMap fun i => if from' + i < 4095 then tenantRec (from' + i + 1) (s.tenant (from' + i + 1)) else leBytes 32 0

/-- What an entry of the in-flight table holds: a job, or one whose COMPLETION is written and not final (R417, R436). -/
def State.entry? (s : State) (i : Nat) : Option Job := match s.job? i with
  | some j => some j
  | none => s.doneJobs.find? fun j => j.idx == i

/-- Job records from a number on. -/
def State.jobRecs (s : State) (from' n : Nat) : List Byte := 
  (List.range n).flatMap fun i => jobRec (s.entry? (from' + i))

/-! ## Snapshots (R437) -/

/-- A snapshot of the four tables, now. -/
def State.takeSnap (s : State) (q : Requester) : Snap :=
  { holder := q, time := s.tm.now, lastRead := s.tm.now, streams := s.streamRecs 0 16384, tenants := s.tenantRecs 0 4096
    jobs := s.jobRecs 0 65536, keys := (List.range 4096).map fun t => (t, s.keyRecs t) }

/-- A write of MIRROR_SNAP (R435, R437). -/
def State.snapWrite (s : State) (q : Requester) (v : Nat) : Nat × State :=
  match s.snap with
  | none => if v = 1 then (0, { s with snap := some (s.takeSnap q) }) else (0, s)
  | some x =>
    if x.holder != q then (5, s)
    else if v = 1 then (0, { s with snap := some (s.takeSnap q) })
    else (0, { s with snap := none })

/-- MIRROR_SNAP as a requester reads it. -/
def State.snapCode (s : State) (q : Requester) : Nat := match s.snap with
  | none => 0
  | some x => if x.holder == q then 1 else 2

/-- Records of one read of an 0xC010 page: those of the requester's snapshot, or live ones (R437). -/
def State.mirrorPage (s : State) (q : Requester) (sub first tenant : Nat) : List Byte :=
  let mine := s.snap.filter fun x => x.holder == q
  match mine with
  | some x =>
    if sub = 1 then slice x.streams (64 * first) 4096
    else if sub = 2 then slice x.tenants (32 * first) 4096
    else if sub = 3 then slice x.jobs (16 * first) 65536
    else slice (mget [] x.keys tenant) (16 * first) 65536
  | none =>
    if sub = 1 then s.streamRecs first 64
    else if sub = 2 then s.tenantRecs first 128
    else if sub = 3 then s.jobRecs first 4096
    else slice (s.keyRecs tenant) (16 * first) 65536

/-- Records that a page read returns (R435). -/
def pageRecords (sub : Nat) : Nat := if sub = 1 then 64 else if sub = 2 then 128 else 4096

end Sys2Proof.Machine
end

