-- ==== Sys2Proof/Machine/Entries.lean ====
section
/-! DEFINITION. The entries of the parameter dictionary (R8, R9, R421, R439): type, access right and range of each, and what
a read of it returns (R127, R224, R230, R262, R285, R301, R336, R356, R389, R395, R402, R430, R435, R438, R462, R496, R497,
R517). -/

namespace Sys2Proof.Machine

/-! ## Types, rights and ranges -/

/-- The types of R8; a DOMAIN with the lengths it may have. -/
inductive Ty where
  | bool | u8 | u16 | u32 | u64 | s32 | enum | str
  | dom (lo hi : Nat)
  deriving DecidableEq, Repr

/-- The access rights of R9; `mute` is a CMD entry without a status (R425). -/
inductive Right where
  | ro | rw | rwd | wo | cmd | mute
  deriving DecidableEq, Repr

/-- An entry: type, right, and the range its unsigned value lies in. -/
structure Row where
  ty : Ty
  right : Right
  ok : Nat → Bool

/-- The least and greatest length of a value of a type. -/
def tyLens : Ty → Nat × Nat
  | .bool => (1, 1) | .u8 => (1, 1) | .u16 => (2, 2) | .u32 => (4, 4) | .u64 => (8, 8) | .s32 => (4, 4) | .enum => (1, 1)
  | .str => (1, 256)
  | .dom lo hi => (lo, hi)

/-- A read-only entry. -/
def ro (t : Ty) : Row := ⟨t, .ro, fun _ => true⟩
/-- A RW entry of any value. -/
def rw' (t : Ty) : Row := ⟨t, .rw, fun _ => true⟩
/-- A RW entry of a range. -/
def rwIn (t : Ty) (lo hi : Nat) : Row := ⟨t, .rw, fun v => decide (lo ≤ v ∧ v ≤ hi)⟩
/-- A RWD entry of a range. -/
def rwdIn (t : Ty) (lo hi : Nat) : Row := ⟨t, .rwd, fun v => decide (lo ≤ v ∧ v ≤ hi)⟩
/-- A 64-bit address with an alignment. -/
def addrRow (right : Right) (align : Nat) : Row := ⟨.u64, right, fun v => v % align == 0⟩
/-- A CMD entry of a range. -/
def cmdIn (t : Ty) (lo hi : Nat) : Row := ⟨t, .cmd, fun v => decide (lo ≤ v ∧ v ≤ hi)⟩
/-- A function number of R395: [8] port, [5:0] function. -/
def fnValue (v : Nat) : Bool := decide (v < 512) && decide (v % 256 < 64)
/-- A signed 32-bit range. -/
def sIn (lo hi : Int) (v : Nat) : Bool := decide (lo ≤ sNat 32 v ∧ sNat 32 v ≤ hi)

/-- 0x1000 (R430). -/
def idRows : List Row :=
  [ro .str, ro .str, ro .str, ro .u64, ro .u32, ro .enum, ro .u32, ro .u64, ro .u8, ro .u8, ro .u16]
/-- 0x2000 (R430, R517). -/
def enableRows : List Row :=
  [rwIn .bool 0 1, ro .u8, ro .u32, ro .enum, ro .u64, cmdIn .u8 1 2, ro .enum]
/-- 0x3n00 (R496). -/
def dieRows : List Row :=
  [ro .enum, ro .s32, ro .s32, ro .u32, ro .u8, ro (.dom 64 64), ro (.dom 68 68), ro .u32, ro .u32]
/-- 0x3n01 (R496). -/
def pslotRows : List Row := [rwIn .u8 0 67, ro (.dom 16 16)]
/-- 0x3n40 (R262). -/
def loftRows : List Row :=
  [rwIn .u8 0 63, ro (.dom 4096 4096), ro .u32, ro .u32, ro .u32, ro .u64, ro .u64, ro .u32, ro .u32]
/-- 0x3n41 (R285). -/
def encRows : List Row := [ro (.dom 128 128)]
/-- 0x4000 (R395). -/
def tenSelRows : List Row := [rwIn .u16 1 4095, rwIn .u32 1000 12800000, ro .u16]
/-- 0x4010 (R395). -/
def tenRows : List Row :=
  [cmdIn .u8 1 3, rwIn .bool 0 1, rwIn .u8 1 255, ⟨.u16, .rw, fnValue⟩, ⟨.u32, .rw, fun v => bits v 30 20 == 0⟩,
    rwIn .u32 0 65536, ro .u32, ro .s32, ro .u64, ro .u32]
/-- 0x4020 (R127). -/
def keyRows : List Row :=
  [addrRow .rw 64, rwIn .u32 256 16777216, addrRow .rw 4096, cmdIn .u8 1 1, ro .u8, ro .u32,
    ⟨.u16, .mute, fun _ => true⟩, rw' .u32, ro .u32]
/-- 0x4030 (R224). -/
def bucketRows : List Row :=
  [rwIn .u32 0 65536, ⟨.u32, .rw, fun v => decide (1024 ≤ v ∧ v ≤ 16777216) && v % 1024 == 0⟩]
/-- 0x4800 (R402). -/
def strSelRows : List Row := [rwIn .u16 0 16383, ro .u32]
/-- 0x4810 (R402). -/
def strRows : List Row :=
  [cmdIn .u8 1 3, ro .u8, rwIn .u16 1 4095, ⟨.u16, .rw, fnValue⟩, ⟨.u16, .rw, fun v => v == 0xFFFF || fnValue v⟩,
    addrRow .rw 4096, addrRow .rw 4096, addrRow .rw 64, rwIn .u8 4 16, rwIn .u8 4 16, rwIn .u16 1 4096, rw' .u32,
    ⟨.u8, .rw, fun v => v == 0xFF || decide (v < 32)⟩, rw' .u16] ++
  [ro .u32, ro .u32, ro .u32, ro .u32, ro .u32, ro .u32, ro .u16, ro .u32, ro .u32, ro .u32, ro .u32]
/-- 0x5000 (R336). -/
def planRows : List Row :=
  [addrRow .rwd 4096, rwdIn .u64 4096 17179869184, cmdIn .u8 1 1, ro .u8, ro .u32, ro .u64, ro .enum, ro (.dom 0 8200)]
/-- 0x5010 (R336). -/
def varRows : List Row := [ro .u8, ro .u8, ro .u32, ro .u16, cmdIn .u8 0 15, ro .u32]
/-- 0x5020 (R336). -/
def slotEntRows : List Row := [rw' .u16, ro .u32, ro .u32, ro .u32, ro .u32, ro .u16, ro .u32]
/-- 0x5040 (R285). -/
def ownersRows : List Row := [rw' .u8, ro (.dom 0 32816)]
/-- 0x5041 (R285). -/
def resRows : List Row := [rwIn .u8 0 15, ro .u64, ro .u64, ro .u64, ro .u64, ro .u32]
/-- 0x6000 (R497), with the bound that TEMP_STEP_C sets. -/
def policyRows (step : Int) : List Row :=
  [rwIn .u8 0 63, rwIn .u8 1 255, rwIn .u8 1 255, rwIn .u32 10 1000000, rwIn .u8 1 255, rwIn .enum 0 3,
    ⟨.s32, .rw, sIn 80 95⟩, ⟨.s32, .rw, sIn 60 (step - 5)⟩, rwIn .u16 600 1500, rwIn .u16 1 1000,
    rw' (.dom 16 16), rwIn .u16 10 60000]
/-- 0x6010 (R497). -/
def healthRows : List Row :=
  [ro .u8, ro .u8, ro .u16, ro .bool, ro (.dom 32 32), ro .u8, ro .u8, cmdIn .u8 0 7, cmdIn .u16 0 511, ro .u32, ro .enum]
/-- 0x6020 (R497). -/
def evtRows : List Row :=
  [ro .u32, rw' .u32, ro (.dom 96 96), ⟨.u32, .mute, fun _ => true⟩, ro .u32, ro .u16]
/-- 0x6030 (R497). -/
def recordRows : List Row := [ro .enum, ro .u32, ro .u8, ro .u32, ro .u32, ro (.dom 16 16)]
/-- 0x7000 (R356). -/
def timeRows : List Row :=
  [ro .u64, ⟨.u64, .rwd, fun v => v % 1000000000 == 0⟩, ro .bool, ro .u32, ro .enum, ro .enum, rwdIn .enum 0 1,
    ⟨.s32, .rwd, sIn (-100000) 100000⟩, ro .s32, ro .s32, ro .u32, ro .u32, ro .u32, ro .u32, ro .u32, ro .u32]
/-- 0x80jj (R389). -/
def linkRows : List Row :=
  [ro .enum, ro .u8, ro .enum, ro .u32, ro .u32, ro .s32, ro .u64, ro .u64, ro .u32, ro .u32, ro .u64, ro .u32, ro .u32,
    ro .u32, cmdIn .u8 1 1]
/-- 0x8100 (R389). -/
def domainRows : List Row :=
  [rwdIn .u16 0 511, ro .enum, ro .u16, ro .enum, ro (.dom 64 64), ro .u32, ro .u32]
/-- 0x8200 (R389). -/
def mgmtRows : List Row := [rw' (.dom 512 512), rwdIn .bool 0 1, ro .u32]
/-- 0x9000 (R462). -/
def secRows : List Row :=
  [ro .enum, ro .u32, ro .u32, ro .u32, ro .enum, ro .u32, ro .u8, ro .enum, ro (.dom 48 48), ro .u16, ro .u32]
/-- 0x9010 (R462). -/
def certRows : List Row := [ro (.dom 0 2048), ro (.dom 0 2048), rwdIn .enum 0 1]
/-- 0x9020 (R462). -/
def vkeyRows : List Row := [rwIn .u8 0 5, rw' (.dom 32 544), ro (.dom 48 48), ro .u32, ro (.dom 48 48)]
/-- 0x9030 (R462). -/
def shareRows : List Row :=
  [cmdIn .u8 1 1, ro (.dom 0 256), addrRow .rw 64, rwIn .u32 384 131856, cmdIn .u8 1 1,
    ⟨.u8, .wo, fun v => v == 1⟩, ro .u8]
/-- 0x9040 (R462). -/
def pdecRows : List Row := [addrRow .rw 64, cmdIn .u8 1 1, ro .u8, ro .u64, ro .u32]
/-- 0x9050 (R462). -/
def hmRows : List Row := [rw' (.dom 32 32), rwIn .u16 0 4095, cmdIn .u8 1 1, ro .u8, ro (.dom 0 464)]
/-- 0xA0s0 (R301). -/
def stackRows : List Row :=
  [ro .enum, ro .s32, ro .u32, ro .u32, ro .u32, ro .u32, ro .u16, ro .u16, ro .u16, ro .u32]
/-- 0xA100 (R301). -/
def glnRows : List Row := [rwIn .u16 5 10000, ro .u64, ro .u32, ro .u32, ro .bool]
/-- 0xB100 (R230). -/
def traceRows : List Row :=
  [rwIn .bool 0 1, ⟨.u32, .rw, fun v => v % 2 == 0 && decide (v < 256)⟩, rw' (.dom 64 64), addrRow .rwd 4096,
    ⟨.u32, .rwd, fun v => decide (65536 ≤ v ∧ v ≤ 1073741824) && v % 4096 == 0⟩, rwdIn .enum 0 1, ro .u32, ro .u32]
/-- 0xB200 (R301). -/
def marginRows : List Row := [rwdIn .u8 0 5, rwdIn .enum 0 2, cmdIn .u8 1 1, ro (.dom 128 128)]
/-- 0xB300 (R438), with DUMP_OFFSET and DUMP_LEN as they stand. -/
def dumpRows (off len : Nat) : List Row :=
  [rwdIn .u16 0 511,
    ⟨.u32, .rwd, fun v => decide (v ≤ 7339008 ∧ v + len ≤ 7340032) && v % 1024 == 0⟩,
    ⟨.u32, .rwd, fun v => decide (1024 ≤ v ∧ off + v ≤ 7340032) && v % 1024 == 0⟩, addrRow .rwd 4096, cmdIn .u8 1 1]
/-- 0xC000 (R435). -/
def snapRows : List Row := [cmdIn .u8 1 2, ro .u64, rwIn .u32 0 65535]
/-- 0xC010 (R435). -/
def pageRows : List Row := [ro (.dom 4096 4096), ro (.dom 4096 4096), ro (.dom 65536 65536), ro (.dom 65536 65536)]
/-- 0xC020 (R435). -/
def arrayRows : List Row :=
  [rwIn .u16 0 511, ro .u8, rw' .u32, ro (.dom 64 64), ro (.dom 32 32), rw' .u8, ro (.dom 1024 1024), ro (.dom 32 32)]
/-- 0xC030 (R435). -/
def primeRows : List Row := [rwIn .u8 0 79, ro (.dom 32 32), rwIn .u8 0 7, ro (.dom 128 128), ro .bool]

/-- The rows of an index in subindex order, none for an undefined index (R439). -/
def State.rowsOf (s : State) (index : Nat) : List Row :=
  if bits index 15 12 = 3 then
    match bits index 7 0 with
    | 0x00 => dieRows
    | 0x01 => pslotRows
    | 0x40 => if bits index 11 8 < 8 then loftRows else []
    | 0x41 => if bits index 11 8 < 8 then encRows else []
    | _ => []
  else if 0x8000 ≤ index ∧ index < 0x8020 then linkRows
  else if 0xA000 ≤ index ∧ index ≤ 0xA050 ∧ index % 16 = 0 then stackRows
  else match index with
    | 0x1000 => idRows | 0x2000 => enableRows
    | 0x4000 => tenSelRows | 0x4010 => tenRows | 0x4020 => keyRows | 0x4030 => bucketRows
    | 0x4800 => strSelRows | 0x4810 => strRows
    | 0x5000 => planRows | 0x5010 => varRows | 0x5020 => slotEntRows | 0x5040 => ownersRows | 0x5041 => resRows
    | 0x6000 => policyRows s.hm.tempStep | 0x6010 => healthRows | 0x6020 => evtRows | 0x6030 => recordRows
    | 0x7000 => timeRows | 0x8100 => domainRows | 0x8200 => mgmtRows
    | 0x9000 => secRows | 0x9010 => certRows | 0x9020 => vkeyRows | 0x9030 => shareRows | 0x9040 => pdecRows
    | 0x9050 => hmRows
    | 0xA100 => glnRows | 0xB100 => traceRows | 0xB200 => marginRows | 0xB300 => dumpRows s.dump.offset s.dump.len
    | 0xC000 => snapRows | 0xC010 => pageRows | 0xC020 => arrayRows | 0xC030 => primeRows
    | _ => []

/-- An entry by name; subindex 0 is the highest subindex of a defined index (R421). -/
def State.row? (s : State) (index sub : Nat) : Option Row :=
  let rs := s.rowsOf index
  if sub = 0 then (if rs.isEmpty then none else some (ro .u8)) else rs[sub - 1]?

/-! ## Selectors (R423) -/

/-- A requester's selectors. -/
def State.sel (s : State) (q : Requester) : Sel := match s.sels.find? fun e => e.1 == q with
  | some e => e.2
  | none => {}

/-- Change a requester's selectors. -/
def State.setSel (s : State) (q : Requester) (x : Sel) : State :=
  { s with sels := (q, x) :: s.sels.filter fun e => e.1 != q }

/-! ## Reads -/

/-- A value as its entry holds it. -/
inductive Val where
  | n (v : Nat) | i (v : Int) | b (bs : List Byte)
  deriving DecidableEq, Repr

/-- A Bool's value. -/
def vB (x : Bool) : Val := .n (b2n x)

/-- A value as the bytes of a type (R5, R8). -/
def encodeVal (t : Ty) : Val → List Byte
  | .n v => leBytes (tyLens t).1 v
  | .i v => leInt (tyLens t).1 v
  | .b bs => bs

/-- 0x1000. -/
def State.readId (s : State) (q : Requester) (sub : Nat) : Val := match sub with
  | 1 => .b (ascii "Wainsol") | 2 => .b (ascii "KF8-P40A") | 3 => .b (ascii "B0") | 4 => .n Config.serial.toNat
  | 5 => .n Config.iana.toNat | 6 => .n (partCode s.pw.part) | 7 => .n s.bootStatus | 8 => .n Config.i3cPid.toNat
  | 9 => .n s.mctp.dynAddr | 10 => .n s.mctp.eid | _ => .n (requesterCode q)

/-- 0x2000. -/
def State.readEnable (s : State) (sub : Nat) : Val := match sub with
  | 1 => vB s.en.on | 2 => .n s.en.reason | 3 => .n s.en.detail | 4 => .n s.en.st | 5 => .n s.en.time | 6 => .n 0
  | _ => .n s.pw.resetCause

/-- DIE_STATE (R496). -/
def State.dieCode (s : State) (d : Nat) : Nat :=
  if d < 8 then b2n (s.die d).fenced
  else if d < 10 then (if (s.die d).failed then 2 else 0) else if (s.stack (d - 10)).lost then 3 else 0

/-- 0x3n00. -/
def State.readDie (s : State) (d sub : Nat) : Val :=
  let x := s.die d
  match sub with
  | 1 => .n (s.dieCode d) | 2 => .i x.temp | 3 => .i x.tempMax | 4 => .n x.powerMw
  | 5 => .n (if d < 8 then x.spares else 0) | 6 => .b (x.slotMap.map (BitVec.ofNat 8))
  | 7 => .b (x.slotSt.map fun p => BitVec.ofNat 8 (pstCode p)) | 8 => .n (inDay s x.unitFaults).length
  | _ => .n (inHour s x.reloads).length

/-- 0x3n40. -/
def State.readLoft (s : State) (q : Requester) (d sub : Nat) : Val :=
  let a := mget 0 (s.sel q).loft d
  let x := s.arr ⟨d, a⟩
  match sub with
  | 1 => .n a | 2 => .b (handleBytes x) | 3 => .n (x.cacheSteps * 524288) | 4 => .n x.cnt.loftCorr
  | 5 => .n x.cnt.loftUncorr | 6 => .n x.cnt.hits | 7 => .n x.cnt.misses | 8 => .n x.cnt.staleDrops
  | _ => .n x.cnt.landHwm

/-- 0x4000, 0x4010, 0x4020, 0x4030. -/
def State.readTenant (s : State) (q : Requester) (index sub : Nat) : Val :=
  let t := (s.sel q).ten
  let x := s.tenant t
  match index, sub with
  | 0x4000, 1 => .n t | 0x4000, 2 => .n s.drrQuantum
  | 0x4000, _ => .n (s.tenants.filter fun e => e.2.st == .active).length
  | 0x4010, 1 => .n (tenCode x.st) | 0x4010, 2 => vB x.test | 0x4010, 3 => .n x.weight | 0x4010, 4 => .n x.homeFn
  | 0x4010, 5 => .n x.pasid.toNat | 0x4010, 6 => .n x.creditLimit | 0x4010, 7 => .n x.inflight
  | 0x4010, 8 => .i (deficit32 x) | 0x4010, 9 => .n x.slotsBound | 0x4010, _ => .n x.refused
  | 0x4020, 1 => .n x.manAddr | 0x4020, 2 => .n x.manLen | 0x4020, 3 => .n x.dataAddr | 0x4020, 4 => .n x.keyLoad
  | 0x4020, 5 => .n x.keyReason | 0x4020, 6 => .n x.keyDetail | 0x4020, 8 => .n x.quota | 0x4020, _ => .n x.blocksUsed
  | _, 1 => .n x.newRate
  | _, _ => .n x.newDepth

/-- 0x4800, 0x4810. -/
def State.readStream (s : State) (q : Requester) (index sub : Nat) : Val :=
  let n := (s.sel q).str
  let x := s.stream n
  match index, sub with
  | 0x4800, 1 => .n n | 0x4800, _ => .n s.creditsAssigned
  | _, 1 => .n (strCode x.st) | _, 2 => .n x.reason | _, 3 => .n x.tenant | _, 4 => .n x.fn | _, 5 => .n x.altFn
  | _, 6 => .n x.sqAddr | _, 7 => .n x.cqAddr | _, 8 => .n x.statusAddr | _, 9 => .n x.sqLog2 | _, 10 => .n x.cqLog2
  | _, 11 => .n x.credits | _, 12 => .n x.nextSeq | _, 13 => .n x.vector | _, 14 => .n x.irqDelay
  | _, 15 => .n x.committed | _, 16 => .n x.completed | _, 17 => .n x.sqHead | _, 18 => .n x.sqTail
  | _, 19 => .n x.cqTail | _, 20 => .n x.cqHead | _, 21 => .n x.inflight | _, 22 => .n x.refusals
  | _, 23 => .n x.overloads | _, 24 => .n x.cqStalls | _, _ => .n x.drops

/-- Jobs queued for the program of a slot of the active variant's template (SLOT_QUEUE). -/
def State.slotQueue (s : State) (slot : Nat) : Nat := match s.slotRec slot with
  | some r => if r.kind = 0 then (s.jobs.filter fun j => j.prog == r.prog && j.st == .queued).length else 0
  | none => 0

/-- What VAR_REQUEST reads (R336): 2 after a refusal, 1 while the pinned variant is pending or active, else 0 (log 47). -/
def State.requestState (s : State) : Nat :=
  if s.vs.request = 2 then 2
  else match s.vs.pin with
    | some v => b2n (match s.vs.pending with
      | some (p, _) => p == v
      | none => s.vs.current == v)
    | none => 0

/-- 0x5000, 0x5010, 0x5020. -/
def State.readPlan (s : State) (q : Requester) (index sub : Nat) : Val :=
  let slot := (s.sel q).slot
  let st := mget {} s.slotStats slot
  match index, sub with
  | 0x5000, 1 => .n s.pc.addr | 0x5000, 2 => .n s.pc.len | 0x5000, 3 => .n s.pc.load | 0x5000, 4 => .n s.pc.reason
  | 0x5000, 5 => .n s.pc.detail
  | 0x5000, 6 => .n ((s.plan.map (·.planId)).getD 0) | 0x5000, 7 => vB (s.plan.any (·.realTime)) | 0x5000, _ => .b s.pc.report
  | 0x5010, 1 => .n s.vs.current | 0x5010, 2 => .n ((s.vs.pending.map (·.1)).getD 0xFF)
  | 0x5010, 3 => .n ((s.vs.pending.map (·.2)).getD 0)
  | 0x5010, 4 => .n (s.selectables.foldl (fun m v => m + 2 ^ v.num) 0) | 0x5010, 5 => .n s.requestState
  | 0x5010, _ => .n s.vs.switches
  | _, 1 => .n slot | _, 2 => .n st.bound | _, 3 => .n st.unfilled | _, 4 => .n st.abandoned | _, 5 => .n st.delayMax
  | _, 6 => .n (s.slotQueue slot) | _, _ => .n st.shifted

/-- 0x5040, 0x5041. -/
def State.readResidency (s : State) (q : Requester) (index sub : Nat) : Val :=
  let id := (s.sel q).owners
  let num := (s.sel q).resVar
  let v := s.variantRec num
  let of (f : Plan → Variant → Nat) : Val := match s.plan, v with
    | some p, some v => .n (f p v)
    | _, _ => .n 0
  let ovf (f : Overflow → Nat) : Val := match s.plan with
    | some p => .n (((p.overflow.find? fun o => o.variant == num).map f).getD 0)
    | none => .n 0
  match index, sub with
  | 0x5040, 1 => .n id
  | 0x5040, _ => .b (match s.plan.bind fun p => p.owners.find? fun o => o.id == id with
    | some o => o.raw
    | none => [])
  | _, 1 => .n num
  | _, 2 => of (aBytes s)
  | _, 3 => of fun p v => dBytes s p v - gBytes s p v
  | _, 4 => of (gBytes s)
  | _, 5 => ovf (·.epochBytes)
  | _, _ => ovf (·.costNs)

/-- A bit mask as bytes. -/
def maskBytes (n : Nat) (on : List Nat) : List Byte := leBytes n ((on.eraseDups).foldl (fun m p => m + 2 ^ p) 0)

/-- The programs that are throttled (R477): every program of the plan while no variant is selectable. -/
def State.throttledProgs (s : State) : List Nat := match s.plan with
  | some p => if s.throttlesAll then p.programs.map (·.prog) else s.hm.throttled
  | none => s.hm.throttled

/-- 0x6000, 0x6010. -/
def State.readPolicy (s : State) (index sub : Nat) : Val :=
  let h := s.hm
  match index, sub with
  | 0x6000, 1 => .n h.auto.toNat | 0x6000, 2 => .n h.retCheck | 0x6000, 3 => .n h.retEcc | 0x6000, 4 => .n h.retCorr
  | 0x6000, 5 => .n h.fenceUnit | 0x6000, 6 => .n h.gearCeiling | 0x6000, 7 => .i h.tempStep | 0x6000, 8 => .i h.tempResume
  | 0x6000, 9 => .n h.powerLimit | 0x6000, 10 => .n h.memLimit | 0x6000, 11 => .b h.memAlt | 0x6000, _ => .n h.horizon
  | _, 1 => .n h.gear | _, 2 => .n h.replace.toNat | _, 3 => .n (h.mpBits.filter id).length | _, 4 => vB h.mpActive
  | _, 5 => .b (maskBytes 32 s.throttledProgs) | _, 6 => .n s.usableLinks | _, 7 => .n h.linksBase | _, 8 => .n h.fenceSt
  | _, 9 => .n h.retireSt | _, 10 => .n h.bgDeferred | _, _ => vB h.stewardHb1

/-- 0x6020, 0x6030. -/
def State.readLog (s : State) (q : Requester) (index sub : Nat) : Val :=
  let h := s.hm
  match index, sub with
  | 0x6020, 1 => .n h.evtSeq | 0x6020, 2 => .n (s.sel q).evt | 0x6020, 3 => .b (s.evtEntry (s.sel q).evt)
  | 0x6020, 5 => .n h.evtLost | 0x6020, _ => .n (h.evts.filter (·.pinned)).length
  | _, 1 => .n h.prState | _, 2 => .n (erasesLeft h) | _, 3 => .n (goodSectors h)
  | _, 4 => .n (liveSet (activeEnts h)).length | _, 5 => .n (sat32 (h.prNever + h.prQueue.length)) | _, _ => .b h.fuses

/-- REFCLK_STATE and PPS_STATE as they read (R356). -/
def refCode : RefState → Nat
  | .absent => 0 | .locked => 1 | .spread => 2
/-- PPS_STATE (R356). -/
def ppsCode : PpsState → Nat
  | .absent => 0 | .acquiring => 1 | .locked => 2 | .holdover => 3

/-- 0x7000. -/
def State.readTime (s : State) (sub : Nat) : Val :=
  let t := s.tm
  match sub with
  | 1 => .n t.now | 2 => .n t.timeSet | 3 => vB t.setPending | 4 => .n s.epoch | 5 => .n (refCode t.refclk)
  | 6 => .n (ppsCode t.pps) | 7 => vB t.ppsFalling | 8 => .i t.ppsDelay | 9 => .i t.offset | 10 => .i t.drift
  | 11 => .n t.stepsRet | 12 => .n t.stepsAdv | 13 => .n t.spurious | 14 => .n t.alignFaults | 15 => .n t.replicaErr
  | _ => .n t.skew

/-- LINK_STATE (R389). -/
def linkCode : LinkSt → Nat
  | .down => 0 | .training => 1 | .up => 2 | .degraded => 3 | .failed => 4
/-- DOMAIN_STATE (R389). -/
def domCode : DomSt → Nat
  | .standalone => 0 | .joining => 1 | .member => 2 | .left => 3

/-- 0x80jj. -/
def State.readLink (s : State) (j sub : Nat) : Val :=
  let l := s.link j
  match sub with
  | 1 => .n (linkCode l.st) | 2 => .n l.width | 3 => .n l.reason | 4 => .n (l.peerPkg + 65536 * l.peerLink)
  | 5 => .n l.delay | 6 => .i l.offset | 7 => .n l.fcntTx | 8 => .n (if l.session then l.scntTx else 0) | 9 => .n l.rekeys
  | 10 => .n l.retrans | 11 => .n l.fecCorr | 12 => .n l.fecUncorr | 13 => .n l.authFail | 14 => .n l.noroute
  | _ => .n l.retrain

/-- 0x8100, 0x8200. -/
def State.readDomain (s : State) (index sub : Nat) : Val :=
  let d := s.dom
  match index, sub with
  | 0x8100, 1 => .n d.pkgAddr | 0x8100, 2 => .n (domCode d.st) | 0x8100, 3 => .n d.lead | 0x8100, 4 => .n d.leaveReason
  | 0x8100, 5 => .b (maskBytes 64 d.members)
  | 0x8100, 6 => .n (s.jobs.filter fun j => j.st == .pending).length | 0x8100, _ => .n d.refused
  | _, 1 => .b d.mgmtRoute | _, 2 => vB d.remoteWrite | _, _ => .n d.mgmtTimeouts

/-- 0x9000, 0x9010. -/
def State.readSec (s : State) (index sub : Nat) : Val :=
  let x := s.sec
  let known := s.sec.identity != 0
  match index, sub with
  | 0x9000, 1 => .n (entCode x.entropy) | 0x9000, 2 => .n x.entropyFails | 0x9000, 3 => .n x.drbgReseeds
  | 0x9000, 4 => .n x.drbgCalls | 0x9000, 5 => vB x.signetFailed | 0x9000, 6 => .n x.mismatch
  | 0x9000, 7 => .n (min 255 x.sigQueue.length) | 0x9000, 8 => .n x.identity
  | 0x9000, 9 => .b (if known then s.measurement else leBytes 48 0)
  | 0x9000, 10 => .n s.pw.svn | 0x9000, _ => .n x.keyDigestFails
  | _, 1 => .b (if known then Config.certDeviceId else []) | _, 2 => .b (if x.identity = 1 then Config.certIdentity else [])
  | _, _ => vB x.peerPolicy

/-- 0x9020..0x9050 (R462). -/
def State.readShare (s : State) (q : Requester) (index sub : Nat) : Val :=
  let x := s.tenant (s.sel q).ten
  match index, sub with
  | 0x9020, 1 => .n x.vkeyAlg | 0x9020, 2 => .b x.vkey | 0x9020, 3 => .b (vkeyDigest x) | 0x9020, 4 => .n x.manSerial
  | 0x9020, _ => .b (slice x.manDigest 0 48)
  | 0x9030, 1 => .n x.offerSt | 0x9030, 2 => .b ((x.offer.map (·.bytes)).getD []) | 0x9030, 3 => .n x.shareAddr
  | 0x9030, 4 => .n x.shareLen | 0x9030, 5 => .n x.submitSt
  | 0x9030, 6 => .b (leBytes 1 (b2n x.share.isSome) ++ shareDigest x) | 0x9030, _ => .n x.shareReason
  | 0x9040, 1 => .n x.pdecAddr | 0x9040, 2 => .n x.pdecRun | 0x9040, 3 => .n x.pdecReason | 0x9040, 4 => .n x.pdecCounter
  | 0x9040, _ => .n x.pdecCount
  | _, 1 => .b (slice s.sec.hmNonce 0 32) | _, 2 => .n s.sec.hmTenant | _, 3 => .n s.sec.hmRun | _, 4 => .n s.sec.hmReason
  | _, _ => .b s.sec.hmReport

/-- 0xA0s0. -/
def State.readStack (s : State) (k sub : Nat) : Val :=
  let x := s.stack k
  match sub with
  | 1 => .n (if x.lost then 2 else if x.copying.isSome then 1 else 0) | 2 => .i x.temp | 3 => .n x.corr | 4 => .n x.devCorr
  | 5 => .n x.retry | 6 => .n x.uncorr | 7 => .n (8192 - x.remapped.length - x.copying.toList.length)
  | 8 => .n x.marked.length | 9 => .n x.retired.length | _ => .n (s.singleCopies k)

/-- 0xA100, 0xB100, 0xB200, 0xB300. -/
def State.readTools (s : State) (index sub : Nat) : Val :=
  let m := s.mem
  let t := s.trace
  let d := s.dump
  match index, sub with
  | 0xA100, 1 => .n m.glnRate | 0xA100, 2 => .n m.glnStart | 0xA100, 3 => .n s.glnDone | 0xA100, 4 => .n s.glnShort
  | 0xA100, _ => vB m.glnBehind
  | 0xB100, 1 => vB t.enable | 0xB100, 2 => .n t.events.toNat | 0xB100, 3 => .b t.arrays | 0xB100, 4 => .n t.addr
  | 0xB100, 5 => .n t.len | 0xB100, 6 => vB t.wrap | 0xB100, 7 => .n t.ptr | 0xB100, _ => .n t.lost
  | 0xB200, 1 => .n m.mrgStack | 0xB200, 2 => .n m.mrgKind | 0xB200, 3 => .n m.mrgRun
  | 0xB200, _ => .b ((List.range 32).flatMap fun c => leBytes 4 (m.mrgResult.getD c 0).toNat)
  | _, 1 => .n d.array | _, 2 => .n d.offset | _, 3 => .n d.len | _, 4 => .n d.addr | _, _ => .n d.run

/-- 0xC000, 0xC010, 0xC020, 0xC030. -/
def State.readMirror (s : State) (q : Requester) (index sub : Nat) : Val :=
  let e := s.sel q
  let a := arrOf e.mirArray
  let x := s.arr a
  let p := s.plan.getD {}
  match index, sub with
  | 0xC000, 1 => .n (s.snapCode q) | 0xC000, 2 => .n ((s.snap.map (·.time)).getD 0) | 0xC000, _ => .n e.mirFirst
  | 0xC010, k => .b (s.mirrorPage q k e.mirFirst e.ten)
  | 0xC020, 1 => .n e.mirArray | 0xC020, 2 => .n (s.pslot a) | 0xC020, 3 => .n x.cum.toNat
  | 0xC020, 4 => .b ((x.lastFault.map faultBytes).getD (leBytes 64 0)) | 0xC020, 5 => .b (leBytes 32 x.word.toNat)
  | 0xC020, 6 => .n e.mirCell | 0xC020, 7 => .b (accBytes x e.mirCell s.en.on) | 0xC020, _ => .b (counterBytes x.cnt)
  | _, 1 => .n e.prime | _, 2 => .b (primeBytes (p.primes.getD e.prime {})) | _, 3 => .n e.pset
  | _, 4 => .b (slice (p.psets.getD e.pset {}).raw 0 128) | _, _ => vB (p.testOnly.contains e.pset)

/-- What an entry reads as; a defined index's subindex 0 is its highest subindex. -/
def State.readVal (s : State) (q : Requester) (index sub : Nat) : Val :=
  if sub = 0 then .n (s.rowsOf index).length
  else
    let n := bits index 11 8
    match bits index 15 12 with
    | 1 => s.readId q sub
    | 2 => s.readEnable sub
    | 3 =>
      if bits index 7 0 = 0 then s.readDie n sub
      else if bits index 7 0 = 1 then
        let p := mget 0 (s.sel q).pslot n
        if sub = 1 then .n p else .b (s.slotHealth n p)
      else if bits index 7 0 = 0x40 then s.readLoft q n sub
      else .b (encBytes (s.arr ⟨n, mget 0 (s.sel q).loft n⟩))
    | 4 => if index < 0x4800 then s.readTenant q index sub else s.readStream q index sub
    | 5 => if index < 0x5040 then s.readPlan q index sub else s.readResidency q index sub
    | 6 => if index < 0x6020 then s.readPolicy index sub else s.readLog q index sub
    | 7 => s.readTime sub
    | 8 => if index < 0x8100 then s.readLink (index - 0x8000) sub else s.readDomain index sub
    | 9 => if index < 0x9020 then s.readSec index sub else s.readShare q index sub
    | 10 => if index < 0xA100 then s.readStack (index / 16 % 16) sub else s.readTools index sub
    | 11 => s.readTools index sub
    | _ => s.readMirror q index sub

/-! ## What a read changes (R262, R336, R356, R435, R437, R496) -/

/-- LOFT_LAND_HWM reads and restarts (R262). -/
def State.afterLoftRead (s : State) (q : Requester) (d : Nat) : State :=
  s.modArr ⟨d, mget 0 (s.sel q).loft d⟩ fun x => { x with cnt := { x.cnt with landHwm := 0 } }

/-- SLOT_DELAY_MAX reads and restarts (R336). -/
def State.afterSlotRead (s : State) (q : Requester) : State :=
  s.modSlotStat (s.sel q).slot fun x => { x with delayMax := 0 }

/-- DOMAIN_SKEW_NS reads and restarts (R356). -/
def State.afterSkewRead (s : State) : State := { s with tm := { s.tm with skew := 0 } }

/-- DIE_TEMP_MAX reads and falls to DIE_TEMP (R496). -/
def State.afterTempRead (s : State) (d : Nat) : State := s.modDie d fun x => { x with tempMax := x.temp }

/-- A page read moves MIRROR_FIRST on (R435). -/
def State.afterPageRead (s : State) (q : Requester) (sub : Nat) : State :=
  let e := s.sel q
  s.setSel q { e with mirFirst := (e.mirFirst + pageRecords sub) % 65536 }

/-- A read of area 0xC000 by a snapshot's holder keeps it alive (R437). -/
def State.touchSnap (s : State) (q : Requester) (index : Nat) : State :=
  if 0xC000 ≤ index then
    { s with snap := s.snap.map fun x => if x.holder == q then { x with lastRead := s.tm.now } else x }
  else s

/-- What a served read changes. -/
def State.afterRead (s : State) (q : Requester) (index sub : Nat) : State :=
  let s := s.touchSnap q index
  if bits index 15 12 = 3 ∧ bits index 7 0 = 0x40 ∧ sub = 9 then s.afterLoftRead q (bits index 11 8)
  else if bits index 15 12 = 3 ∧ bits index 7 0 = 0 ∧ sub = 3 then s.afterTempRead (bits index 11 8)
  else if index = 0x5020 ∧ sub = 5 then s.afterSlotRead q
  else if index = 0x7000 ∧ sub = 16 then s.afterSkewRead
  else if index = 0xC010 ∧ sub ≠ 0 then s.afterPageRead q sub
  else s

end Sys2Proof.Machine
end

