-- ==== Sys2Proof/Machine/Dict.lean ====
section
/-! DEFINITION. Requests to the parameter dictionary (R421..R425): who may reach what, writes and the actions they start, the
mirror snapshot's expiry, the loft copy (R438), margining (R300), and every command that is a request. -/

namespace Sys2Proof.Machine

/-! ## Reach (R379, R424) -/

/-- A virtual function's reach (R424). -/
def State.vfReach (s : State) (f : FnId) (index sub : Nat) (write : Bool) : Bool :=
  let code := f.port * 256 + f.fn
  let e := s.sel (.fn f)
  let t := s.tenant e.ten
  let x := s.stream e.str
  match index with
  | 0x1000 => !write
  | 0x4000 => sub == 1
  | 0x4800 => sub == 1
  | 0x4010 => !write && t.homeFn == code
  | 0x4020 => t.homeFn == code
  | 0x4810 => (x.fn == code || x.altFn == code) && !(write && decide (3 ≤ sub ∧ sub ≤ 5))
  | _ => false

/-- A remote package's reach (R379, R424, R438, R462, R517). -/
def State.remoteReach (s : State) (index sub : Nat) (write : Bool) (right : Right) : Bool :=
  let closed := bits index 15 12 == 9 || index == 0xB300 || (index == 0x2000 && (sub == 6 || sub == 7))
  !closed && (!write || (s.dom.remoteWrite && right != .wo))

/-- A request lies within its requester's reach. -/
def State.reaches (s : State) (q : Requester) (index sub : Nat) (write : Bool) (right : Right) : Bool := match q with
  | .fn f => f.fn == 0 || s.vfReach f index sub write
  | .mctp => index / 256 != 0xB3 && index / 256 != 0xC0
  | .remote _ _ => s.remoteReach index sub write right

/-- What the part's state answers before anything else (R430, R486, R505): 7 before STANDBY, 8 in SAFE. -/
def State.closed (s : State) (index : Nat) (write : Bool) : Option Nat := match s.pw.part with
  | .boot => if index = 0x1000 then none else some 7
  | .safe => if !write && (index == 0x1000 || bits index 15 12 == 6) then none else some 8
  | _ => none

/-! ## Actions of their own -/

/-- A write of VAR_REQUEST (R325, R336, R475): the variant is pinned for the evaluations to come, or the request is
REFUSED. -/
def State.requestVariant (s : State) (v : Nat) : Nat × State :=
  if s.plan.isNone || !s.selectableNum v then (0, { s with vs := { s.vs with request := 2 } })
  else (0, { s with vs := { s.vs with request := 0, pin := some v } })

/-- A write of 1 to MRG_RUN (R300, R301). -/
def State.startMargin (s : State) : Nat × State :=
  if s.mem.mrgRun = 1 then (5, s)
  else
    let bad := s.en.on || (s.stack s.mem.mrgStack).lost
    (0, { s with mem := { s.mem with mrgRun := if bad then 3 else 1 } })

/-- A row of a loft belongs to a PLAN-scope LOCAL handle with IMAGE set. -/
def imageRow (x : Arr) (row : Nat) : Bool := match handleAt x (row * 1024) with
  | some (_, e) => e.image && !e.slotScope
  | none => false

/-- The bytes of a loft copy (R438). -/
def State.dumpBytes (s : State) : List Byte :=
  let x := s.arr (arrOf s.dump.array)
  (List.range (s.dump.len / 1024)).flatMap fun i =>
    let row := s.dump.offset / 1024 + i
    if imageRow x row then Memory.read x.loft (row * 1024) 1024 else leBytes 1024 0

/-- A write of 1 to DUMP_RUN (R438): the copy is made at once; a status that no rule states after a host access fault is
free (log 9). -/
def State.runDump (s : State) (q : Requester) : Nat × State :=
  let fin (s : State) (r : Nat) : State := { s with dump := { s.dump with run := r } }
  match q with
  | .fn f =>
    if s.en.on then (0, fin s 3)
    else match s.hostWrite f 0 s.dump.addr s.dumpBytes with
      | some s => (0, fin s 2)
      | none =>
        let r := s.freshWord
        (0, fin r.2 (r.1.toNat % 4))
  | .mctp => (6, s)
  | .remote _ _ => (6, s)

/-- Bytes of a verification key under an ALG code (R455). -/
def vkeyLen (alg : Nat) : Nat := match alg with
  | 1 => 65 | 2 => 97 | 3 => 32 | 4 => 416 | 5 => 544 | _ => 0

/-- A write of TEN_VKEY: one the Signet engine would refuse is refused with RANGE (R455). -/
def State.writeVkey (s : State) (t : Nat) (bs : List Byte) : Nat × State :=
  let x := s.tenant t
  if x.st != .free then (8, s)
  else if bs.length != vkeyLen x.vkeyAlg || !Config.keyValid x.vkeyAlg bs then (3, s)
  else (0, s.setTenant t { x with vkey := bs })

/-! ## Writes by area -/

/-- The entry took the value. -/
def took (s : State) : Nat × State := (0, s)

/-- 0x4000, 0x4010, 0x4020, 0x4030 (R127, R129, R224, R394, R395). -/
def State.writeTenant (s : State) (q : Requester) (index sub v : Nat) : Nat × State :=
  let e := s.sel q
  let t := e.ten
  let x := s.tenant t
  let put (y : Tenant) : Nat × State := (0, s.setTenant t y)
  match index, sub with
  | 0x4000, 1 => took (s.setSel q { e with ten := v })
  | 0x4000, _ => took { s with drrQuantum := v }
  | 0x4010, 1 => if v = 1 then s.activate t else if v = 2 then s.disable t else s.clearTenant t
  | 0x4010, 2 => if x.st = .active then (8, s) else put { x with test := v == 1 }
  | 0x4010, 3 => put { x with weight := v }
  | 0x4010, 4 => put { x with homeFn := v }
  | 0x4010, 5 => put { x with pasid := BitVec.ofNat 32 v }
  | 0x4010, _ => put { x with creditLimit := v }
  | 0x4020, 1 => put { x with manAddr := v }
  | 0x4020, 2 => put { x with manLen := v }
  | 0x4020, 3 => put { x with dataAddr := v }
  | 0x4020, 4 => s.queueUpload t
  | 0x4020, 7 => s.dropKey t v
  | 0x4020, _ => put { x with quota := v }
  | _, 1 => put { x with newRate := v }
  | _, _ => put { x with newDepth := v }

/-- A setting of a stream (R402). -/
def Stream.setting (x : Stream) (sub v : Nat) : Stream := match sub with
  | 3 => { x with tenant := v } | 4 => { x with fn := v } | 5 => { x with altFn := v } | 6 => { x with sqAddr := v }
  | 7 => { x with cqAddr := v } | 8 => { x with statusAddr := v } | 9 => { x with sqLog2 := v }
  | 10 => { x with cqLog2 := v } | 11 => { x with credits := v } | 12 => { x with nextSeq := v }
  | 13 => { x with vector := v } | _ => { x with irqDelay := v }

/-- 0x4800, 0x4810 (R396, R402, R514): settings are accepted only while STR_CTL reads DISABLED. -/
def State.writeStream (s : State) (q : Requester) (index sub v : Nat) : Nat × State :=
  let e := s.sel q
  let n := e.str
  let x := s.stream n
  if index = 0x4800 then took (s.setSel q { e with str := v })
  else if sub = 1 then (if v = 1 then s.enableStream n else if v = 2 then s.disableStream n else s.resetStream n)
  else if x.st != .disabled then (8, s)
  else took (s.setStream n (x.setting sub v))

/-- 0x5000..0x5041 (R285, R325, R331, R336). -/
def State.writePlan (s : State) (q : Requester) (index sub v : Nat) : Nat × State :=
  let e := s.sel q
  match index, sub with
  | 0x5000, 1 => took { s with pc := { s.pc with addr := v } }
  | 0x5000, 2 => took { s with pc := { s.pc with len := v } }
  | 0x5000, _ => s.startLoad q
  | 0x5010, _ => s.requestVariant v
  | 0x5020, _ => took (s.setSel q { e with slot := v })
  | 0x5040, _ => took (s.setSel q { e with owners := v })
  | _, _ => took (s.setSel q { e with resVar := v })

/-- 0x6000, 0x6010, 0x6020 (R482, R497). -/
def State.writeHealth (s : State) (q : Requester) (index sub v : Nat) (bs : List Byte) : Nat × State :=
  let h := s.hm
  let put (y : Health) : Nat × State := (0, { s with hm := y })
  match index, sub with
  | 0x6000, 1 => put { h with auto := BitVec.ofNat 8 v }
  | 0x6000, 2 => put { h with retCheck := v }
  | 0x6000, 3 => put { h with retEcc := v }
  | 0x6000, 4 => put { h with retCorr := v }
  | 0x6000, 5 => put { h with fenceUnit := v }
  | 0x6000, 6 => put { h with gearCeiling := v }
  | 0x6000, 7 => put { h with tempStep := sNat 32 v }
  | 0x6000, 8 => put { h with tempResume := sNat 32 v }
  | 0x6000, 9 => put { h with powerLimit := v }
  | 0x6000, 10 => put { h with memLimit := v }
  | 0x6000, 11 => put { h with memAlt := bs }
  | 0x6000, _ => put { h with horizon := v }
  | 0x6010, 8 => s.askFence v
  | 0x6010, _ => s.askRetire v
  | _, 2 => took (s.setSel q { s.sel q with evt := v })
  | _, _ => s.ackEvent v

/-- 0x7000, 0x80jj, 0x8100, 0x8200 (R340, R356, R369, R389). -/
def State.writeLinks (s : State) (index sub v : Nat) (bs : List Byte) : Nat × State :=
  match index, sub with
  | 0x7000, 2 => took (s.loadSecond v)
  | 0x7000, 7 => took { s with tm := { s.tm with ppsFalling := v == 1 } }
  | 0x7000, _ => took { s with tm := { s.tm with ppsDelay := sNat 32 v } }
  | 0x8100, _ => took { s with dom := { s.dom with pkgAddr := v } }
  | 0x8200, 1 => took { s with dom := { s.dom with mgmtRoute := bs } }
  | 0x8200, _ => took { s with dom := { s.dom with remoteWrite := v == 1 } }
  | _, _ => s.retrainLink (index - 0x8000)

/-- 0x9010..0x9050 (R455..R462). -/
def State.writeSec (s : State) (q : Requester) (index sub v : Nat) (bs : List Byte) : Nat × State :=
  let t := (s.sel q).ten
  let x := s.tenant t
  let put (y : Tenant) : Nat × State := (0, s.setTenant t y)
  match index, sub with
  | 0x9010, _ => took { s with sec := { s.sec with peerPolicy := v == 1 } }
  | 0x9020, 1 => if x.st != .free then (8, s) else put { x with vkeyAlg := v }
  | 0x9020, _ => s.writeVkey t bs
  | 0x9030, 1 => s.startOffer t
  | 0x9030, 3 => put { x with shareAddr := v }
  | 0x9030, 4 => put { x with shareLen := v }
  | 0x9030, 5 => s.startSubmit t
  | 0x9030, _ => s.wipeShare t
  | 0x9040, 1 => put { x with pdecAddr := v }
  | 0x9040, _ => s.startPdec t
  | _, 1 => took { s with sec := { s.sec with hmNonce := bs } }
  | _, 2 => took { s with sec := { s.sec with hmTenant := v } }
  | _, _ => s.startHm

/-- 0xA100, 0xB100, 0xB200, 0xB300 (R230, R300, R301, R438). -/
def State.writeTools (s : State) (q : Requester) (index sub v : Nat) (bs : List Byte) : Nat × State :=
  let m := s.mem
  let t := s.trace
  let d := s.dump
  let tr (y : Trace) : Nat × State := (0, { s with trace := y })
  let du (y : Dump) : Nat × State := (0, { s with dump := y })
  match index, sub with
  | 0xA100, _ => took { s with mem := { m with glnRate := v } }
  | 0xB100, 1 => tr { t with enable := v == 1 }
  | 0xB100, 2 => tr { t with events := BitVec.ofNat 32 v }
  | 0xB100, 3 => tr { t with arrays := bs }
  | 0xB100, 4 => tr { t with addr := v }
  | 0xB100, 5 => tr { t with len := v }
  | 0xB100, _ => tr { t with wrap := v == 1 }
  | 0xB200, 1 => took { s with mem := { m with mrgStack := v } }
  | 0xB200, 2 => took { s with mem := { m with mrgKind := v } }
  | 0xB200, _ => s.startMargin
  | _, 1 => du { d with array := v }
  | _, 2 => du { d with offset := v }
  | _, 3 => du { d with len := v }
  | _, 4 => du { d with addr := v }
  | _, _ => s.runDump q

/-- 0xC000, 0xC020, 0xC030 (R435). -/
def State.writeMirror (s : State) (q : Requester) (index sub v : Nat) : Nat × State :=
  let e := s.sel q
  match index, sub with
  | 0xC000, 1 => s.snapWrite q v
  | 0xC000, _ => took (s.setSel q { e with mirFirst := v })
  | 0xC020, 1 => took (s.setSel q { e with mirArray := v })
  | 0xC020, 3 => took (s.modArr (arrOf e.mirArray) fun x => { x with cum := x.cum &&& ~~~(BitVec.ofNat 32 v) })
  | 0xC020, _ => took (s.setSel q { e with mirCell := v })
  | _, 1 => took (s.setSel q { e with prime := v })
  | _, _ => took (s.setSel q { e with pset := v })

/-- Selectors of the per-die areas (R262, R496). -/
def State.writeDieSel (s : State) (q : Requester) (index v : Nat) : Nat × State :=
  let e := s.sel q
  let n := bits index 11 8
  if bits index 7 0 = 0x40 then took (s.setSel q { e with loft := mset 0 e.loft n v })
  else took (s.setSel q { e with pslot := mset 0 e.pslot n v })

/-- A write that passed every check of its entry (R421): its effect. -/
def State.writeVal (s : State) (q : Requester) (index sub : Nat) (bs : List Byte) : Nat × State :=
  let v := leNat bs
  match bits index 15 12 with
  | 2 => if sub = 1 then (if v = 1 then s.setEnable else s.clearEnable) else s.askReset v
  | 3 => s.writeDieSel q index v
  | 4 => if index < 0x4800 then s.writeTenant q index sub v else s.writeStream q index sub v
  | 5 => s.writePlan q index sub v
  | 6 => s.writeHealth q index sub v bs
  | 7 => s.writeLinks index sub v bs
  | 8 => s.writeLinks index sub v bs
  | 9 => s.writeSec q index sub v bs
  | 10 => s.writeTools q index sub v bs
  | 11 => s.writeTools q index sub v bs
  | _ => s.writeMirror q index sub v

/-! ## Requests -/

/-- The value of a write has a length its type allows and lies in the entry's range (R8, R421). -/
def valueOk (r : Row) (bs : List Byte) : Bool :=
  let n := tyLens r.ty
  let inLen := decide (n.1 ≤ bs.length ∧ bs.length ≤ n.2)
  match r.ty with
  | .dom _ _ => inLen
  | .str => inLen
  | _ => inLen && r.ok (leNat bs)

/-- A write request: its status and the state; a refused request changes nothing (R425). -/
def State.dictWrite (s : State) (q : Requester) (index sub : Nat) (bs : List Byte) : Nat × State :=
  match s.closed index true with
  | some c => (c, s)
  | none => match s.row? index sub with
    | none => (1, s)
    | some r =>
      if !s.reaches q index sub true r.right then (6, s)
      else if r.right == .ro then (2, s)
      else if !valueOk r bs then (3, s)
      else if r.right == .rwd && (s.en.on || s.en.st == 1) then (4, s)
      else s.writeVal q index sub bs

/-- A read request: its status, the value, the state. -/
def State.dictRead (s : State) (q : Requester) (index sub : Nat) : Nat × List Byte × State :=
  match s.closed index false with
  | some c => (c, [], s)
  | none => match s.row? index sub with
    | none => (1, [], s)
    | some r =>
      if !s.reaches q index sub false r.right then (6, [], s)
      else if r.right == .mute then (2, [], s)
      else (0, encodeVal r.ty (s.readVal q index sub), s.afterRead q index sub)

/-- A requester is answered: a function through its port's link, whose hub lives; a package through a link that is up. -/
def State.answers (s : State) (q : Requester) : Bool :=
  s.powered && match q with
    | .fn f => f.wf && (s.fn f).present && (s.port f.port).linkUp && !(s.die (8 + f.port)).failed
    | .mctp => true
    | .remote _ j => (s.link j).up

/-- A write request and its response. -/
def State.command (s : State) (q : Requester) (index sub : Nat) (bs : List Byte) : State :=
  if s.answers q then
    let r := s.dictWrite q index sub bs
    r.2.send (.response q r.1 index sub [])
  else s

/-- A read request and its response. -/
def State.query (s : State) (q : Requester) (index sub : Nat) : State :=
  if s.answers q then
    let r := s.dictRead q index sub
    r.2.2.send (.response q r.1 index sub r.2.1)
  else s

/-- A number as the w bytes of a type, or one byte more when it does not fit, so that the width is refused. -/
def numBytes (w v : Nat) : List Byte := if v < 256 ^ w then leBytes w v else leBytes (w + 1) v

/-! ## The commands that are requests -/

/-- DICT_WRITE (R421). -/
def execDictWrite (q : Requester) (index sub : Nat) (value : List Byte) (s : State) : Res :=
  .next (s.command q index sub value)

/-- TIME_SET (R340). -/
def execTimeSet (q : Requester) (value : List Byte) (s : State) : Res := .next (s.command q 0x7000 2 value)

/-- DEVICE_ENABLE 1 (R431). -/
def execDeviceEnableSet (q : Requester) (s : State) : Res := .next (s.command q 0x2000 1 [1])

/-- DEVICE_ENABLE 0 (R432). -/
def execDeviceEnableClear (q : Requester) (s : State) : Res := .next (s.command q 0x2000 1 [0])

/-- PLAN_LOAD (R331). -/
def execPlanLoad (q : Requester) (s : State) : Res := .next (s.command q 0x5000 3 [1])

/-- KEY_LOAD (R127). -/
def execKeyLoad (q : Requester) (s : State) : Res := .next (s.command q 0x4020 4 [1])

/-- KEY_DROP (R129). -/
def execKeyDrop (q : Requester) (keyId : Nat) (s : State) : Res := .next (s.command q 0x4020 7 (numBytes 2 keyId))

/-- VAR_REQUEST (R325). -/
def execVarRequest (q : Requester) (v : Nat) (s : State) : Res := .next (s.command q 0x5010 5 (numBytes 1 v))

/-- LINK_RETRAIN (R369). -/
def execLinkRetrain (q : Requester) (j : Nat) (s : State) : Res :=
  need (linkWf j) "link" <| .next (s.command q (0x8000 + j) 15 [1])

/-- MRG_RUN (R300). -/
def execMrgRun (q : Requester) (s : State) : Res := .next (s.command q 0xB200 3 [1])

/-- A channel's result (R300, R301): its edges, and the pass bit, set when they are at least 20/64 UI apart, or 8 % of the supply in
steps of 0.5 % for the reference voltage (log 90). -/
def marginResult (kind : Nat) (edges : Word) : Word :=
  let lo := bits edges.toNat 7 0
  let hi := bits edges.toNat 15 8
  let wide := decide ((if kind = 2 then 16 else 20) ≤ (hi + 256 - lo) % 256)
  BitVec.ofNat 32 (lo + 256 * hi + if wide then 65536 else 0)

/-- MARGIN_SWEEP_DONE: MRG_RESULT holds each channel's result (R300, R301). -/
def execMarginSweepDone (results : List Word) (s : State) : Res :=
  arises (s.mem.mrgRun == 1) "no margining sweep runs" <|
    .next (
      let rs : List Word := (List.range 32).map fun c => marginResult s.mem.mrgKind (results.getD c 0)
      { s with mem := { s.mem with mrgRun := 2, mrgResult := rs } })

/-- TEN_CTL 1 (R394). -/
def execTenActivate (q : Requester) (s : State) : Res := .next (s.command q 0x4010 1 [1])

/-- TEN_CTL 2 (R394). -/
def execTenDisable (q : Requester) (s : State) : Res := .next (s.command q 0x4010 1 [2])

/-- TEN_CTL 3 (R394). -/
def execTenClear (q : Requester) (s : State) : Res := .next (s.command q 0x4010 1 [3])

/-- STR_CTL 1 (R396). -/
def execStreamEnable (q : Requester) (s : State) : Res := .next (s.command q 0x4810 1 [1])

/-- STR_CTL 2 (R402). -/
def execStreamDisable (q : Requester) (s : State) : Res := .next (s.command q 0x4810 1 [2])

/-- STR_CTL 3 (R514). -/
def execStreamReset (q : Requester) (s : State) : Res := .next (s.command q 0x4810 1 [3])

/-- MIRROR_SNAP 1 (R437). -/
def execMirrorSnapTake (q : Requester) (s : State) : Res := .next (s.command q 0xC000 1 [1])

/-- MIRROR_SNAP 2 (R437). -/
def execMirrorSnapRelease (q : Requester) (s : State) : Res := .next (s.command q 0xC000 1 [2])

/-- SNAPSHOT_EXPIRY: 10 s after the holder's last read of area 0xC000 (R437). -/
def execSnapshotExpiry (s : State) : Res :=
  match s.snap with
  | none => .refused (.cannotArise "no snapshot is held")
  | some x => .next { s.reach (x.lastRead + 10000000000) with snap := none }

/-- MIRROR_BLOCK_READ (R435). -/
def execMirrorBlockRead (q : Requester) (sub : Nat) (s : State) : Res := .next (s.query q 0xC010 sub)

/-- A read of LOFT_LAND_HWM (R262). -/
def execLoftLandHwmRead (q : Requester) (d : Nat) (s : State) : Res :=
  need (decide (d < 8)) "compute die" <| .next (s.query q (0x3040 + 256 * d) 9)

/-- A read of SLOT_DELAY_MAX (R336). -/
def execSlotDelayMaxRead (q : Requester) (s : State) : Res := .next (s.query q 0x5020 5)

/-- A read of DOMAIN_SKEW_NS (R356). -/
def execDomainSkewNsRead (q : Requester) (s : State) : Res := .next (s.query q 0x7000 16)

/-- A read of DIE_TEMP_MAX (R496). -/
def execDieTempMaxRead (q : Requester) (d : Nat) (s : State) : Res :=
  need (decide (d < 16)) "die" <| .next (s.query q (0x3000 + 256 * d) 3)

/-- DUMP_RUN (R438). -/
def execDumpRun (q : Requester) (s : State) : Res := .next (s.command q 0xB300 5 [1])

/-- SHARE_OFFER (R456). -/
def execShareOffer (q : Requester) (s : State) : Res := .next (s.command q 0x9030 1 [1])

/-- SHARE_SUBMIT (R456). -/
def execShareSubmit (q : Requester) (s : State) : Res := .next (s.command q 0x9030 5 [1])

/-- SHARE_WIPE (R457). -/
def execShareWipe (q : Requester) (s : State) : Res := .next (s.command q 0x9030 6 [1])

/-- PDEC_RUN (R459). -/
def execPdecRun (q : Requester) (s : State) : Res := .next (s.command q 0x9040 2 [1])

/-- HM_RUN (R461). -/
def execHmRun (q : Requester) (s : State) : Res := .next (s.command q 0x9050 3 [1])

/-- A write of RESET_CMD and the reset it starts 1 ms after the response; one answered before (R427) starts now, unless the
part has meanwhile lost power or entered a SAFE that a warm reset does not leave (R485). -/
def State.resetRequest (s : State) (q : Requester) (v : Nat) (e : BootEnv) : State :=
  let s := if s.pw.resetDue = v then s else s.command q 0x2000 6 (leBytes 1 v)
  if s.pw.resetDue = v && s.powered && (v == 1 || s.warmAllowed) then s.resetByCmd v e else s

/-- RESET_CMD 1 (R517). -/
def execResetCmdCold (q : Requester) (e : BootEnv) (s : State) : Res := .next (s.resetRequest q 1 e)

/-- RESET_CMD 2 (R517). -/
def execResetCmdWarm (q : Requester) (e : BootEnv) (s : State) : Res := .next (s.resetRequest q 2 e)

/-- FENCE_DIE (R471, R472). -/
def execFenceDie (q : Requester) (d : Nat) (s : State) : Res := .next (s.command q 0x6010 8 (numBytes 1 d))

/-- RETIRE_ARRAY (R468). -/
def execRetireArray (q : Requester) (n : Nat) (s : State) : Res := .next (s.command q 0x6010 9 (numBytes 2 n))

/-- EVT_ACK (R482). -/
def execEvtAck (q : Requester) (seq : Nat) (s : State) : Res := .next (s.command q 0x6020 4 (numBytes 4 seq))

end Sys2Proof.Machine
end

