-- ==== Sys2Proof/Machine/Mgmt.lean ====
section
/-! DEFINITION. The three ways to the dictionary: the PCIe mailbox (R426, R427), MCTP over I3C (R428, R429) and the
management channel between packages (R378, R379). -/

namespace Sys2Proof.Machine

/-! ## Fragments (R429) -/

/-- The fragmented write of a requester and TAG. -/
def State.fragRun? (s : State) (q : Requester) (tag : Nat) : Option FragRun :=
  s.dom.frags.find? fun r => r.who == q && r.tag == tag

/-- Forget the fragmented write of a requester and TAG. -/
def State.dropFrag (s : State) (q : Requester) (tag : Nat) : State :=
  let frags := s.dom.frags.filter fun r => !(r.who == q && r.tag == tag)
  { s with dom := { s.dom with frags := frags } }

/-- One fragment of a write, of the given full size: the status of the whole write once it ends (R429). A fragment that
does not continue its TAG leaves the write incomplete: RANGE (R425). -/
def State.takeFrag (s : State) (size : Nat) (q : Requester) (tag index sub frag : Nat) (value : List Byte) :
    Option (Nat × State) × State :=
  let old := s.fragRun? q tag
  let run : FragRun := match old with
    | some r => r
    | none => { who := q, tag := tag, index := index, sub := sub }
  let s := s.dropFrag q tag
  let follows := run.next % 256 == frag && run.index == index && run.sub == sub && decide (value.length ≤ size)
  if !follows then (some (3, s), s)
  else
    let got := run.got ++ value
    if value.length < size then (some (s.dictWrite q index sub got), s)
    else
      let next : FragRun := { run with got := got, next := run.next + 1 }
      (none, { s with dom := { s.dom with frags := s.dom.frags ++ [next] } })

/-- The fragments of a value: full ones, then one shorter (R429). -/
def fragsOf (size : Nat) (bs : List Byte) : List (Nat × List Byte) :=
  (List.range (bs.length / size + 1)).map fun i => (i % 256, (bs.drop (i * size)).take size)

/-! ## Management messages (R378) -/

/-- The link toward a package: the one MGMT_ROUTE names, else that of a direct peer (R378). -/
def State.mgmtLink (s : State) (p : Nat) : Option Nat :=
  let j := (s.dom.mgmtRoute.getD p 0xFF).toNat
  if j < 32 then some j
  else (List.range 32).find? fun k => (s.link k).up && (s.link k).session && (s.link k).peerPkg == p

/-- Send or forward a management message; without an onward link it is dropped and counted on the link it came by. -/
def State.mgmtSend (s : State) (j op : Nat) (m : MgmtMsg) : State :=
  match s.mgmtLink m.dst with
  | some k => if (s.link k).up && (s.link k).session then s.txFrame k 255 (.mgmt op m) else s.noRoute j
  | none => s.noRoute j

/-- The response to a management request, a value in fragments of 224 bytes (R378, R429). -/
def State.mgmtAnswer (s : State) (j : Nat) (m : MgmtMsg) (status : Nat) (value : List Byte) : State :=
  (fragsOf 224 value).foldl (fun s e =>
    let a : MgmtMsg :=
      { dst := m.src, src := s.dom.pkgAddr, status := status, tag := m.tag, index := m.index, sub := m.sub
        frag := e.1, value := e.2 }
    s.mgmtSend j 3 a) s

/-! ## The mailbox (R426, R427) -/

/-- Write a function's mailbox fields at the end of a request: GO reads 0 again. -/
def State.mboxDone (s : State) (f : FnId) (m : MboxReq) (status : Nat) (len : Nat) (value : List Byte) : State :=
  let x := s.fn f
  s.setFn f
    { x with
      op := m.op, status := status, tag := m.tag, index := m.index, sub := m.sub, len := len, go := 0, value := value }

/-- A served mailbox request: a read answers with the value and its length, a write with its status. -/
def State.mboxServe (s : State) (f : FnId) (m : MboxReq) : State :=
  match m.op with
  | 1 =>
    let r := s.dictRead (.fn f) m.index m.sub
    let v := if r.1 = 0 then r.2.1 else m.value
    r.2.2.mboxDone f m r.1 (if r.1 = 0 then r.2.1.length else 0) v
  | 2 =>
    let r := s.dictWrite (.fn f) m.index m.sub m.value
    r.2.mboxDone f m r.1 m.value.length m.value
  | _ =>
    let r := s.freshWord
    r.2.mboxDone f m (r.1.toNat % 256) m.value.length m.value

/-- MAILBOX_GO (R426, R427): the steward serves the request of a function it answers. -/
def execMailboxGo (f : FnId) (m : MboxReq) (s : State) : Res :=
  need f.wf "function" <| .next (if s.answers (.fn f) then s.mboxServe f m else s)

/-! ## MCTP over I3C (R428, R430) -/

/-- The part answers on I3C: power is good. -/
def State.i3cUp (s : State) : Bool := s.powered

/-- An MCTP dictionary message (R428, R429): a read answers the whole value, whose fragments R429 fixes. -/
def State.takeMctp (s : State) (m : MctpMsg) : State :=
  match m.op with
  | 1 => s.query .mctp m.index m.sub
  | 2 =>
    let r := s.takeFrag 1024 .mctp m.tag m.index m.sub m.frag m.value
    match r.1 with
    | none => r.2
    | some (st, t) => t.send (.response .mctp st m.index m.sub [])
  | _ => s

/-- MCTP_DICTIONARY_MESSAGE (R428). -/
def execMctpDictionaryMessage (m : MctpMsg) (s : State) : Res :=
  .next (if s.i3cUp then s.takeMctp m else s)

/-- FRAGMENT_TIMEOUT: more than 100 ms passed between two fragments: the write is discarded and answers RANGE (R429). -/
def execFragmentTimeout (q : Requester) (tag : Nat) (s : State) : Res :=
  match s.fragRun? q tag with
  | none => .refused (.cannotArise "no fragmented write of this TAG is open")
  | some r =>
    .next (
      let s := s.dropFrag q tag
      match q with
      | .remote p j =>
        let m : MgmtMsg :=
          { dst := s.dom.pkgAddr, src := p, status := 0, tag := tag, index := r.index, sub := r.sub, frag := 0, value := [] }
        s.mgmtAnswer j m 3 []
      | _ => s.send (.response q 3 r.index r.sub []))

/-- ENTDAA: the target takes its dynamic address (R428, R430). -/
def execEntdaa (addr : Nat) (s : State) : Res :=
  .next (
    if s.i3cUp && decide (8 ≤ addr ∧ addr ≤ 0x7D) then { s with mctp := { s.mctp with dynAddr := addr } } else s)

/-- The answer to an MCTP control command, PRESUMED in the form of DSP0236 that R428 leaves to the standard (log 52). -/
def State.mctpAnswer (s : State) (cmd : Nat) (bytes : List Byte) : State := s.send (.mctp cmd bytes)

/-- Set Endpoint ID (R428, R430): the bus owner's EID is kept; 0 and 0xFF name no endpoint (log 52). -/
def execSetEndpointId (eid : Nat) (s : State) : Res :=
  .next (
    if !s.i3cUp then s
    else if 1 ≤ eid ∧ eid ≤ 0xFE then
      ({ s with mctp := { s.mctp with eid := eid } } : State).mctpAnswer 1 [0, 0, BitVec.ofNat 8 eid, 0]
    else s.mctpAnswer 1 [2])

/-- Get Endpoint ID (R428). -/
def execGetEndpointId (s : State) : Res :=
  .next (
    if s.i3cUp then
      let r := s.freshBytes 1
      r.2.mctpAnswer 2 ([0, BitVec.ofNat 8 s.mctp.eid, 0] ++ r.1)
    else s)

/-- Get MCTP Version Support (R428): the version bytes are free, since no rule states them. -/
def execGetMctpVersionSupport (s : State) : Res :=
  .next (
    if s.i3cUp then
      let r := s.freshBytes 4
      r.2.mctpAnswer 4 ([0, 1] ++ r.1)
    else s)

/-- Get Message Type Support: the one type 0x7F (R428). -/
def execGetMessageTypeSupport (s : State) : Res :=
  .next (if s.i3cUp then s.mctpAnswer 5 [0, 1, 0x7F] else s)

/-- Get Vendor Defined Message Support: the IANA form and the number of IDN_IANA (R428); the set's version is free. -/
def execGetVendorDefinedMsgSupport (s : State) : Res :=
  .next (
    if s.i3cUp then
      let r := s.freshBytes 2
      r.2.mctpAnswer 6 ([0, 0xFF, 1] ++ (leBytes 4 Config.iana.toNat).reverse ++ r.1)
    else s)

/-! ## The management channel (R378, R379) -/

/-- Receive a management message: forward one for another package, act on one for this package (R378). -/
def State.receiveMgmt (s : State) (r : Rx) (op : Nat) (m : MgmtMsg) (k : State → State) : State :=
  s.receive r true false fun s =>
    if m.dst != s.dom.pkgAddr then s.mgmtSend r.link op m
    else if s.powered then k s else s

/-- MGMT_READ (R378, R379). -/
def execMgmtRead (rx : Rx) (m : MgmtMsg) (s : State) : Res :=
  need rx.wf "link" <|
    .next (s.receiveMgmt rx 1 m fun s =>
      let r := s.dictRead (.remote m.src rx.link) m.index m.sub
      r.2.2.mgmtAnswer rx.link m r.1 r.2.1)

/-- MGMT_WRITE (R378, R379). -/
def execMgmtWrite (rx : Rx) (m : MgmtMsg) (s : State) : Res :=
  need rx.wf "link" <|
    .next (s.receiveMgmt rx 2 m fun s =>
      let r := s.takeFrag 224 (.remote m.src rx.link) m.tag m.index m.sub m.frag m.value
      match r.1 with
      | none => r.2
      | some (st, t) => t.mgmtAnswer rx.link m st [])

/-- MGMT_RESPONSE (R378): on to its requester, or here to the one that asked. -/
def execMgmtResponse (rx : Rx) (m : MgmtMsg) (s : State) : Res :=
  need rx.wf "link" <|
    .next (s.receiveMgmt rx 3 m fun s => s.send (.response (.remote m.src rx.link) m.status m.index m.sub m.value))

/-- MGMT_TIMEOUT: a request with no response within 10 ms is counted, not retried (R379). -/
def execMgmtTimeout (_tag : Nat) (s : State) : Res :=
  .next (
    if s.powered then { s with dom := { s.dom with mgmtTimeouts := bump s.dom.mgmtTimeouts } } else s)

end Sys2Proof.Machine
end

