-- ==== Sys2Proof/Machine/Time.lean ====
section
/-! DEFINITION. The reference clock and the alignment of the time base to PPS_IN (R338, R340, R344..R349). -/

namespace Sys2Proof.Machine

/-- REFCLK_STATE_CHANGE: the REFCLK PLL reports a state; without LOCKED, PPS_STATE is ABSENT (R338, R344). -/
def execRefclkStateChange (st : RefState) (s : State) : Res :=
  .next (
    if !s.powered then s
    else
      let lost := st != .locked
      { s with tm := { s.tm with
          refclk := st, pps := if lost then .absent else s.tm.pps, badRun := if lost then [] else s.tm.badRun } })

/-- Two captures lie 1 s apart, within 50 µs (R344). -/
def oneSecond (a b : Nat) (corr : Int) : Bool :=
  decide (((b : Int) - a - corr - 1000000000).natAbs ≤ 50000)

/-- The offset of an edge (R344). -/
def TimeSt.edgeOffset (t : TimeSt) (captured : Nat) : Int := toSecond ((captured : Int) - t.ppsDelay)

/-- The offset of an edge with the corrections since the previous valid edge taken out (R344, R347). -/
def TimeSt.adjusted (t : TimeSt) (captured : Nat) : Int := t.edgeOffset captured - t.netCorr

/-- An edge is valid (R344). -/
def TimeSt.validEdge (t : TimeSt) (captured : Nat) : Bool := match t.lastValid with
  | none => true
  | some (f, _) => decide ((t.adjusted captured - f).natAbs ≤ 50000)

/-- The third of three successive invalid edges, 1 s apart, whose offsets agree within 100 ns (R344). -/
def TimeSt.thirdAgrees (t : TimeSt) (captured : Nat) : Bool := match t.badRun with
  | (f2, c2) :: (f1, c1) :: _ =>
    let f3 := t.edgeOffset captured
    oneSecond c1 c2 0 && oneSecond c2 captured 0 && decide ((f3 - f2).natAbs ≤ 100) && decide ((f3 - f1).natAbs ≤ 100) &&
      decide ((f2 - f1).natAbs ≤ 100)
  | _ => false

/-- PPS_STATE after a valid edge (R344). -/
def TimeSt.afterValid (t : TimeSt) (captured : Nat) (third : Bool) : PpsState :=
  if third then .locked
  else match t.pps, t.lastValid with
    | .absent, _ => .acquiring
    | .acquiring, some (_, c) => if oneSecond c captured t.netCorr then .locked else .acquiring
    | .acquiring, none => .acquiring
    | _, _ => .locked

/-- Rt of a valid edge (R347): against the previous valid edge; for the first edge after an enable, the drift that the
edges before it gave (the example after R349). -/
def State.driftAt (s : State) (captured : Nat) : Int := match s.tm.lastValid with
  | none => 0
  | some (f, c) => if s.en.on && decide (c < s.en.time) then s.tm.drift else s.tm.adjusted captured - f

/-- A valid edge: state, offset and drift, the alignment of R345, the load of R340, the steps of R347, the fault of R349.
An edge on which the time base is moved begins its second, so its offset is 0 (log 57). -/
def State.validPps (s : State) (captured : Nat) (third : Bool) : State :=
  let t := s.tm
  let f := t.edgeOffset captured
  let r := s.driftAt captured
  let st : PpsState := t.afterValid captured third
  let was : PpsState := t.pps
  let s : State := { s with tm := { t with
      pps := st, offset := f, drift := r, lastValid := some (f, captured), netCorr := 0, badRun := [], dueStep := none
      stepsDue := if st == PpsState.locked then roundDiv (f + r) 5 else 0 } }
  let s : State :=
    if s.en.on && decide (1000 < f.natAbs) then
      let s := { s with tm := { s.tm with alignFaults := bump s.tm.alignFaults } }
      let s := s.log 0x40 0xFF 0 (f % 2 ^ 32).toNat
      if s.plan.any (·.domain) then s.leaveDomain 1 else s
    else s
  if s.tm.setPending then
    State.setClock { s with tm := { s.tm with setPending := false, stepsDue := 0, offset := 0 } } ((s.tm.timeSet : Int) + t.ppsDelay).toNat
  else if !s.en.on && st == .locked && was != .locked then
    State.setClock { s with tm := { s.tm with stepsDue := 0, offset := 0 } } ((s.tm.now : Int) - f).toNat
  else s

/-- PPS_EDGE: an edge of PPS_IN (R344..R349); the part captures only edges of the kind that PPS_EDGE selects. -/
def execPpsEdge (edge : PpsEdge) (s : State) : Res :=
  .next (
    if !s.powered || s.tm.refclk != .locked || edge.falling != s.tm.ppsFalling then s
    else
      let captured := edge.time
      let s := s.reach captured
      if s.tm.validEdge captured then s.validPps captured false
      else
        let third := s.tm.thirdAgrees captured
        let t := s.tm
        let s := { s with tm := { t with
            spurious := bump t.spurious, badRun := ((t.edgeOffset captured, captured) :: t.badRun).take 2 } }
        if third then s.validPps captured true else s)

/-- PPS_LOST: no valid edge for 2.5 s while LOCKED (R344). -/
def execPpsLost (s : State) : Res :=
  arises (s.tm.pps == .locked) "PPS_STATE is not LOCKED" <|
    .next (
      let last := match s.tm.lastValid with
        | some (_, c) => c
        | none => 0
      let s := s.reach (last + 2500000000)
      ({ s with tm := { s.tm with pps := .holdover } }).log 0x41 0xFF 0 0)

end Sys2Proof.Machine
end

