-- ==== Sys2Proof/Machine/Dispatch.lean ====
section
/-! DEFINITION. One arm for each command: the one place that says which meaning a command has. -/

namespace Sys2Proof.Machine

def exec (i : Instr) (s : State) : Host.Outcome State Fault Refusal :=
  match i with
  | .pwrgoodAssert env => Sys2Proof.Machine.execPwrgoodAssert env s
  | .pwrgoodDeassert => Sys2Proof.Machine.execPwrgoodDeassert s
  | .perstBothWarmReset env => Sys2Proof.Machine.execPerstBothWarmReset env s
  | .portReset port => Sys2Proof.Machine.execPortReset port s
  | .functionLevelReset f => Sys2Proof.Machine.execFunctionLevelReset f s
  | .busMasterEnableSet f => Sys2Proof.Machine.execBusMasterEnableSet f s
  | .msixUnmask f v => Sys2Proof.Machine.execMsixUnmask f v s
  | .hostPortFailure port => Sys2Proof.Machine.execHostPortFailure port s
  | .refclkLock env => Sys2Proof.Machine.execRefclkLock env s
  | .refclkStateChange st => Sys2Proof.Machine.execRefclkStateChange st s
  | .bootComplete => Sys2Proof.Machine.execBootComplete s
  | .thermalBootHoldRelease => Sys2Proof.Machine.execThermalBootHoldRelease s
  | .linkStart r => Sys2Proof.Machine.execLinkStart r s
  | .notReadyWaitExpiry r => Sys2Proof.Machine.execNotReadyWaitExpiry r s
  | .trainingRetry r => Sys2Proof.Machine.execTrainingRetry r s
  | .laneFailure j lane => Sys2Proof.Machine.execLaneFailure j lane s
  | .flockLoss j => Sys2Proof.Machine.execFlockLoss j s
  | .idle rx => Sys2Proof.Machine.execIdle rx s
  | .openFrame rx o => Sys2Proof.Machine.execOpenFrame rx o s
  | .dataFrame rx payload => Sys2Proof.Machine.execDataFrame rx payload s
  | .lack rx es => Sys2Proof.Machine.execLack rx es s
  | .nak rx expect => Sys2Proof.Machine.execNak rx expect s
  | .delayFrame rx tTx echoTx echoRx rxTime => Sys2Proof.Machine.execDelayFrame rx tTx echoTx echoRx rxTime s
  | .hello rx h => Sys2Proof.Machine.execHello rx h s
  | .kex rx frag lastFrag body => Sys2Proof.Machine.execKex rx frag lastFrag body s
  | .rekey rx b => Sys2Proof.Machine.execRekey rx b s
  | .pathDown rx chan reason => Sys2Proof.Machine.execPathDown rx chan reason s
  | .pathUp rx chan epoch => Sys2Proof.Machine.execPathUp rx chan epoch s
  | .rekeyStart j => Sys2Proof.Machine.execRekeyStart j s
  | .rekeyRetry j => Sys2Proof.Machine.execRekeyRetry j s
  | .sessionKeySwitch j tx => Sys2Proof.Machine.execSessionKeySwitch j tx s
  | .scntHalt j tx => Sys2Proof.Machine.execScntHalt j tx s
  | .authFailLimit j => Sys2Proof.Machine.execAuthFailLimit j s
  | .join rx d planId digest => Sys2Proof.Machine.execJoin rx d planId digest s
  | .accept rx d firstEpoch second members => Sys2Proof.Machine.execAccept rx d firstEpoch second members s
  | .joinRefused rx d reason => Sys2Proof.Machine.execJoinRefused rx d reason s
  | .acceptTimeout => Sys2Proof.Machine.execAcceptTimeout s
  | .ready rx d jobId prog tenant => Sys2Proof.Machine.execReady rx d jobId prog tenant s
  | .refuse rx d jobId code => Sys2Proof.Machine.execRefuse rx d jobId code s
  | .admitJob rx d jobId aseq => Sys2Proof.Machine.execAdmit rx d jobId aseq s
  | .admitWaitExpiry jobId => Sys2Proof.Machine.execAdmitWaitExpiry jobId s
  | .leadBindDecision epoch slot => Sys2Proof.Machine.execLeadBindDecision epoch slot s
  | .bind rx d epoch slot es => Sys2Proof.Machine.execBind rx d epoch slot es s
  | .tick rx d lead deputy admitted members => Sys2Proof.Machine.execTick rx d lead deputy admitted members s
  | .leadLost => Sys2Proof.Machine.execLeadLost s
  | .abandon rx d jobId inc cause => Sys2Proof.Machine.execAbandon rx d jobId inc cause s
  | .leave rx d reason => Sys2Proof.Machine.execLeave rx d reason s
  | .domainRejoin => Sys2Proof.Machine.execDomainRejoin s
  | .vdecide rx d variant e => Sys2Proof.Machine.execVdecide rx d variant e s
  | .vannounce rx d origin variant e => Sys2Proof.Machine.execVannounce rx d origin variant e s
  | .vack rx d origin e => Sys2Proof.Machine.execVack rx d origin e s
  | .resident rx d tenant keyId st => Sys2Proof.Machine.execResident rx d tenant keyId st s
  | .qreq rx d => Sys2Proof.Machine.execQreq rx d s
  | .qreport rx d frag lastFrag es => Sys2Proof.Machine.execQreport rx d frag lastFrag es s
  | .failjob rx d jobId inc status detail => Sys2Proof.Machine.execFailjob rx d jobId inc status detail s
  | .mgmtRead rx m => Sys2Proof.Machine.execMgmtRead rx m s
  | .mgmtWrite rx m => Sys2Proof.Machine.execMgmtWrite rx m s
  | .mgmtResponse rx m => Sys2Proof.Machine.execMgmtResponse rx m s
  | .mgmtTimeout tag => Sys2Proof.Machine.execMgmtTimeout tag s
  | .ppsEdge edge => Sys2Proof.Machine.execPpsEdge edge s
  | .ppsLost => Sys2Proof.Machine.execPpsLost s
  | .timeSet q value => Sys2Proof.Machine.execTimeSet q value s
  | .epochBoundary => Sys2Proof.Machine.execEpochBoundary s
  | .gearRelockDone => Sys2Proof.Machine.execGearRelockDone s
  | .bindPoint epoch slot => Sys2Proof.Machine.execBindPoint epoch slot s
  | .slotStart slot => Sys2Proof.Machine.execSlotStart slot s
  | .fallowSlotStart slot replicas => Sys2Proof.Machine.execFallowSlotStart slot replicas s
  | .slotEnd slot => Sys2Proof.Machine.execSlotEnd slot s
  | .slotPacedAbandon slot => Sys2Proof.Machine.execSlotPacedAbandon slot s
  | .slotDeadlineAbandon slot a group cycle tag => Sys2Proof.Machine.execSlotDeadlineAbandon slot a group cycle tag s
  | .releaseSlot => Sys2Proof.Machine.execReleaseSlot s
  | .commandDelay x => Sys2Proof.Machine.execCommandDelay x s
  | .cribLoad x => Sys2Proof.Machine.execCribLoad x s
  | .cribStore x => Sys2Proof.Machine.execCribStore x s
  | .cellMove x => Sys2Proof.Machine.execCellMove x s
  | .cellMadd x => Sys2Proof.Machine.execCellMadd x s
  | .cellMsub x => Sys2Proof.Machine.execCellMsub x s
  | .cellMneg x => Sys2Proof.Machine.execCellMneg x s
  | .cellMscal x => Sys2Proof.Machine.execCellMscal x s
  | .cellMmul x => Sys2Proof.Machine.execCellMmul x s
  | .cellMmulc x => Sys2Proof.Machine.execCellMmulc x s
  | .mac x => Sys2Proof.Machine.execMac x s
  | .macn x => Sys2Proof.Machine.execMacn x s
  | .macc x => Sys2Proof.Machine.execMacc x s
  | .alpha x => Sys2Proof.Machine.execAlpha x s
  | .imma x => Sys2Proof.Machine.execImma x s
  | .foldClr x => Sys2Proof.Machine.execFoldClr x s
  | .foldKeep x => Sys2Proof.Machine.execFoldKeep x s
  | .ntt x => Sys2Proof.Machine.execNtt x s
  | .intt x => Sys2Proof.Machine.execIntt x s
  | .auto x => Sys2Proof.Machine.execAuto x s
  | .mulx x => Sys2Proof.Machine.execMulx x s
  | .vecMadd x => Sys2Proof.Machine.execVecMadd x s
  | .vecMsub x => Sys2Proof.Machine.execVecMsub x s
  | .vecMneg x => Sys2Proof.Machine.execVecMneg x s
  | .vecMmul x => Sys2Proof.Machine.execVecMmul x s
  | .vecMmulc x => Sys2Proof.Machine.execVecMmulc x s
  | .vecMscal x => Sys2Proof.Machine.execVecMscal x s
  | .mlift x => Sys2Proof.Machine.execMlift x s
  | .mred x => Sys2Proof.Machine.execMred x s
  | .mcen x => Sys2Proof.Machine.execMcen x s
  | .vecAdd x => Sys2Proof.Machine.execVecAdd x s
  | .vecSub x => Sys2Proof.Machine.execVecSub x s
  | .vecMul x => Sys2Proof.Machine.execVecMul x s
  | .vecMulh x => Sys2Proof.Machine.execVecMulh x s
  | .adds x => Sys2Proof.Machine.execAdds x s
  | .subs x => Sys2Proof.Machine.execSubs x s
  | .idiv x => Sys2Proof.Machine.execIdiv x s
  | .vecMin x => Sys2Proof.Machine.execVecMin x s
  | .vecMax x => Sys2Proof.Machine.execVecMax x s
  | .vabs x => Sys2Proof.Machine.execVabs x s
  | .vneg x => Sys2Proof.Machine.execVneg x s
  | .vecAnd x => Sys2Proof.Machine.execVecAnd x s
  | .vecOr x => Sys2Proof.Machine.execVecOr x s
  | .vecXor x => Sys2Proof.Machine.execVecXor x s
  | .vnot x => Sys2Proof.Machine.execVnot x s
  | .vecShl x => Sys2Proof.Machine.execVecShl x s
  | .vecShr x => Sys2Proof.Machine.execVecShr x s
  | .vecSar x => Sys2Proof.Machine.execVecSar x s
  | .vecCmpEq x => Sys2Proof.Machine.execVecCmpEq x s
  | .vecCmpNe x => Sys2Proof.Machine.execVecCmpNe x s
  | .vecCmpLt x => Sys2Proof.Machine.execVecCmpLt x s
  | .vecCmpLe x => Sys2Proof.Machine.execVecCmpLe x s
  | .sel x => Sys2Proof.Machine.execSel x s
  | .fadd x => Sys2Proof.Machine.execFadd x s
  | .fsub x => Sys2Proof.Machine.execFsub x s
  | .fmul x => Sys2Proof.Machine.execFmul x s
  | .fma x => Sys2Proof.Machine.execFma x s
  | .fdiv x => Sys2Proof.Machine.execFdiv x s
  | .fsqrt x => Sys2Proof.Machine.execFsqrt x s
  | .fmin x => Sys2Proof.Machine.execFmin x s
  | .fmax x => Sys2Proof.Machine.execFmax x s
  | .fabs x => Sys2Proof.Machine.execFabs x s
  | .fneg x => Sys2Proof.Machine.execFneg x s
  | .fcvt x => Sys2Proof.Machine.execFcvt x s
  | .cvt x => Sys2Proof.Machine.execCvt x s
  | .rsumS x => Sys2Proof.Machine.execRsumS x s
  | .rsumL x => Sys2Proof.Machine.execRsumL x s
  | .ccEnd c => Sys2Proof.Machine.execCcEnd c s
  | .ccAdd c => Sys2Proof.Machine.execCcAdd c s
  | .ccSub c => Sys2Proof.Machine.execCcSub c s
  | .ccAnd c => Sys2Proof.Machine.execCcAnd c s
  | .ccOr c => Sys2Proof.Machine.execCcOr c s
  | .ccXor c => Sys2Proof.Machine.execCcXor c s
  | .ccShl c => Sys2Proof.Machine.execCcShl c s
  | .ccShr c => Sys2Proof.Machine.execCcShr c s
  | .ccSar c => Sys2Proof.Machine.execCcSar c s
  | .ccMin c => Sys2Proof.Machine.execCcMin c s
  | .ccMax c => Sys2Proof.Machine.execCcMax c s
  | .li c => Sys2Proof.Machine.execLi c s
  | .lui c => Sys2Proof.Machine.execLui c s
  | .ccMul c => Sys2Proof.Machine.execCcMul c s
  | .ccMulh c => Sys2Proof.Machine.execCcMulh c s
  | .ccCmpEq c => Sys2Proof.Machine.execCcCmpEq c s
  | .ccCmpLt c => Sys2Proof.Machine.execCcCmpLt c s
  | .ccCmpLtu c => Sys2Proof.Machine.execCcCmpLtu c s
  | .loop c => Sys2Proof.Machine.execLoop c s
  | .endl c => Sys2Proof.Machine.execEndl c s
  | .ld c => Sys2Proof.Machine.execLd c s
  | .st c => Sys2Proof.Machine.execSt c s
  | .ldj c => Sys2Proof.Machine.execLdj c s
  | .mfs c => Sys2Proof.Machine.execMfs c s
  | .aqpush c => Sys2Proof.Machine.execAqpush c s
  | .oqpush c => Sys2Proof.Machine.execOqpush c s
  | .tqwait c => Sys2Proof.Machine.execTqwait c s
  | .ccStallRelease a => Sys2Proof.Machine.execCcStallRelease a s
  | .xferLc c => Sys2Proof.Machine.execXferLc c s
  | .xferCl c => Sys2Proof.Machine.execXferCl c s
  | .dmaq c => Sys2Proof.Machine.execDmaq c s
  | .req c => Sys2Proof.Machine.execReq c s
  | .acq c => Sys2Proof.Machine.execAcq c s
  | .acqB c => Sys2Proof.Machine.execAcqB c s
  | .fence c => Sys2Proof.Machine.execFence c s
  | .twait c => Sys2Proof.Machine.execTwait c s
  | .nop c => Sys2Proof.Machine.execNop c s
  | .sowerRequest die mismatch => Sys2Proof.Machine.execSowerRequest die mismatch s
  | .granaryRead die lines => Sys2Proof.Machine.execGranaryRead die lines s
  | .extract die det => Sys2Proof.Machine.execExtract die det s
  | .binderRequest die det => Sys2Proof.Machine.execBinderRequest die det s
  | .blockWrite b => Sys2Proof.Machine.execBlockWrite b s
  | .loftArrival a => Sys2Proof.Machine.execLoftArrival a s
  | .modularAdd a => Sys2Proof.Machine.execModularAdd a s
  | .int32Add a => Sys2Proof.Machine.execInt32Add a s
  | .fp32Add a => Sys2Proof.Machine.execFp32Add a s
  | .atomicMin a => Sys2Proof.Machine.execAtomicMin a s
  | .atomicMax a => Sys2Proof.Machine.execAtomicMax a s
  | .swap a => Sys2Proof.Machine.execSwap a s
  | .compareAndSwap a => Sys2Proof.Machine.execCompareAndSwap a s
  | .doorbellSqTail f stream width value => Sys2Proof.Machine.execDoorbellSqTail f stream width value s
  | .doorbellCqHead f stream width value => Sys2Proof.Machine.execDoorbellCqHead f stream width value s
  | .descriptorDecide stream => Sys2Proof.Machine.execDescriptorDecide stream s
  | .completion stream => Sys2Proof.Machine.execCompletion stream s
  | .irqDelayExpiry stream => Sys2Proof.Machine.execIrqDelayExpiry stream s
  | .mailboxGo f m => Sys2Proof.Machine.execMailboxGo f m s
  | .mctpDictionaryMessage m => Sys2Proof.Machine.execMctpDictionaryMessage m s
  | .fragmentTimeout q tag => Sys2Proof.Machine.execFragmentTimeout q tag s
  | .entdaa addr => Sys2Proof.Machine.execEntdaa addr s
  | .setEndpointId eid => Sys2Proof.Machine.execSetEndpointId eid s
  | .getEndpointId => Sys2Proof.Machine.execGetEndpointId s
  | .getMctpVersionSupport => Sys2Proof.Machine.execGetMctpVersionSupport s
  | .getMessageTypeSupport => Sys2Proof.Machine.execGetMessageTypeSupport s
  | .getVendorDefinedMsgSupport => Sys2Proof.Machine.execGetVendorDefinedMsgSupport s
  | .dictWrite q index sub value => Sys2Proof.Machine.execDictWrite q index sub value s
  | .deviceEnableSet q => Sys2Proof.Machine.execDeviceEnableSet q s
  | .enableCheckDone => Sys2Proof.Machine.execEnableCheckDone s
  | .deviceEnableClear q => Sys2Proof.Machine.execDeviceEnableClear q s
  | .disableComplete => Sys2Proof.Machine.execDisableComplete s
  | .planLoad q => Sys2Proof.Machine.execPlanLoad q s
  | .planLoadDone => Sys2Proof.Machine.execPlanLoadDone s
  | .keyLoad q => Sys2Proof.Machine.execKeyLoad q s
  | .keyUploadDone tenant => Sys2Proof.Machine.execKeyUploadDone tenant s
  | .keyDrop q keyId => Sys2Proof.Machine.execKeyDrop q keyId s
  | .varRequest q v => Sys2Proof.Machine.execVarRequest q v s
  | .linkRetrain q j => Sys2Proof.Machine.execLinkRetrain q j s
  | .mrgRun q => Sys2Proof.Machine.execMrgRun q s
  | .marginSweepDone results => Sys2Proof.Machine.execMarginSweepDone results s
  | .tenActivate q => Sys2Proof.Machine.execTenActivate q s
  | .tenDisable q => Sys2Proof.Machine.execTenDisable q s
  | .tenClear q => Sys2Proof.Machine.execTenClear q s
  | .streamEnable q => Sys2Proof.Machine.execStreamEnable q s
  | .streamDisable q => Sys2Proof.Machine.execStreamDisable q s
  | .streamReset q => Sys2Proof.Machine.execStreamReset q s
  | .mirrorSnapTake q => Sys2Proof.Machine.execMirrorSnapTake q s
  | .mirrorSnapRelease q => Sys2Proof.Machine.execMirrorSnapRelease q s
  | .snapshotExpiry => Sys2Proof.Machine.execSnapshotExpiry s
  | .mirrorBlockRead q sub => Sys2Proof.Machine.execMirrorBlockRead q sub s
  | .loftLandHwmRead q die => Sys2Proof.Machine.execLoftLandHwmRead q die s
  | .slotDelayMaxRead q => Sys2Proof.Machine.execSlotDelayMaxRead q s
  | .domainSkewNsRead q => Sys2Proof.Machine.execDomainSkewNsRead q s
  | .dieTempMaxRead q die => Sys2Proof.Machine.execDieTempMaxRead q die s
  | .dumpRun q => Sys2Proof.Machine.execDumpRun q s
  | .shareOffer q => Sys2Proof.Machine.execShareOffer q s
  | .shareOfferExpiry tenant => Sys2Proof.Machine.execShareOfferExpiry tenant s
  | .shareSubmit q => Sys2Proof.Machine.execShareSubmit q s
  | .shareWipe q => Sys2Proof.Machine.execShareWipe q s
  | .pdecRun q => Sys2Proof.Machine.execPdecRun q s
  | .partialDecryption => Sys2Proof.Machine.execPartialDecryption s
  | .hmRun q => Sys2Proof.Machine.execHmRun q s
  | .signetOperationDone mismatch => Sys2Proof.Machine.execSignetOperationDone mismatch s
  | .entropyFail => Sys2Proof.Machine.execEntropyFail s
  | .entropyRetest pass => Sys2Proof.Machine.execEntropyRetest pass s
  | .vaultUncorrectable what => Sys2Proof.Machine.execVaultUncorrectable what s
  | .jtagInstruction j => Sys2Proof.Machine.execJtagInstruction j s
  | .resetCmdCold q env => Sys2Proof.Machine.execResetCmdCold q env s
  | .resetCmdWarm q env => Sys2Proof.Machine.execResetCmdWarm q env s
  | .fenceDie q die => Sys2Proof.Machine.execFenceDie q die s
  | .diePllLoss die => Sys2Proof.Machine.execDiePllLoss die s
  | .retireArray q larr => Sys2Proof.Machine.execRetireArray q larr s
  | .retirementCopy die => Sys2Proof.Machine.execRetirementCopy die s
  | .evtAck q seq => Sys2Proof.Machine.execEvtAck q seq s
  | .tempSample temps powers => Sys2Proof.Machine.execTempSample temps powers s
  | .bindResume => Sys2Proof.Machine.execBindResume s
  | .gearStepUp => Sys2Proof.Machine.execGearStepUp s
  | .thermtripN => Sys2Proof.Machine.execThermtripN s
  | .hubFailure hub => Sys2Proof.Machine.execHubFailure hub s
  | .stewardFailover => Sys2Proof.Machine.execStewardFailover s
  | .stewardMirrorFailure => Sys2Proof.Machine.execStewardMirrorFailure s
  | .healthSweep die pslot pass => Sys2Proof.Machine.execHealthSweep die pslot pass s
  | .loftScrub die pslot row errs => Sys2Proof.Machine.execLoftScrub die pslot row errs s
  | .keyRehash tenant keyId block => Sys2Proof.Machine.execKeyRehash tenant keyId block s
  | .bgBehind tier => Sys2Proof.Machine.execBgBehind tier s
  | .gleanerBlockRead stack block lines => Sys2Proof.Machine.execGleanerBlockRead stack block lines s
  | .gleanerEscalate => Sys2Proof.Machine.execGleanerEscalate s
  | .gleanerBehind => Sys2Proof.Machine.execGleanerBehind s
  | .hbmRefresh stack bank => Sys2Proof.Machine.execHbmRefresh stack bank s
  | .rowRemapCopy row => Sys2Proof.Machine.execRowRemapCopy row s
  | .rowRemap row => Sys2Proof.Machine.execRowRemap row s
  | .stackLost stack => Sys2Proof.Machine.execStackLost stack s
  | .recordProgram fail => Sys2Proof.Machine.execRecordProgram fail s
  | .perstRelease port => Sys2Proof.Machine.execPerstRelease port s
  | .hostPortReturn port => Sys2Proof.Machine.execHostPortReturn port s
  | .uncorrectableCodeword f => Sys2Proof.Machine.execUncorrectableCodeword f s

end Sys2Proof.Machine
end

