-- ==== Sys2Proof/Machine/Refresh.lean ====
section
/-! DEFINITION. Table refresh of small samples (R136, R143, R144, R149..R154) as functions of the samples, the keys and the
tables. No command of the spec carries a refresh: the plan's words do it, and a failing test of R150 or R152 arises on them
as the detection `recomposition` (log 85). -/

namespace Sys2Proof.Machine

/-! ## The signed decomposition (R136, R149, R150) -/

/-- Gadget element d: floor(Q / B^(d+1) + 1/2) (R136). -/
def gadget (q b d : Nat) : Nat := (2 * q + b ^ (d + 1)) / (2 * b ^ (d + 1))

/-- The last `n` digits of x in base B, before those found: each in −B/2..B/2 − 1, a carry going up (R149). -/
def signedDigits (b : Nat) : Nat → Nat → List Int → List Int
  | 0, _, ds => ds
  | n + 1, x, ds =>
    if b ≤ 2 * (x % b) then signedDigits b n (x / b + 1) (((x % b : Nat) - b : Int) :: ds)
    else signedDigits b n (x / b) (((x % b : Nat) : Int) :: ds)

/-- The digits dig[0]..dig[D−1] of x modulo Q (R149). -/
def decompose (q b d x : Nat) : List Int := signedDigits b d (msSwitch q (b ^ d) x) []

/-- Σ dig[d] × g_d (R150). -/
def recompose (q b : Nat) (ds : List Int) : Int := (ds.zipIdx.map fun e => e.1 * (gadget q b e.2 : Int)).sum

/-- The recomposition test: the distance from x modulo Q is at most Q / (2 B^D) + D B / 4 (R150). -/
def recomposeOk (q b d x : Nat) (ds : List Int) : Bool :=
  let r := intMod q (recompose q b ds - x)
  decide (4 * b ^ d * min r (q - r) ≤ 2 * q + d * b ^ (d + 1))

/-- Decompose, and test the recomposition; none where it fails (R150). -/
def decomposeChecked (q b d x : Nat) : Option (List Int) :=
  if recomposeOk q b d x (decompose q b d x) then some (decompose q b d x) else none

/-! ## GLWE ciphertexts and keys (R133, R144) -/

/-- The words of a GLWE ciphertext: by component A_0..A_(k−1), B, by limb, by coefficient (R133). -/
abbrev Glwe := List (List (List Nat))

/-- The prime-book entries of a refresh set's limbs. -/
def refreshPrimes (v : Env) (ps : PSet) : List PrimeEntry := (ps.qIdx.take ps.lq).map v.prime

/-- A GGSW's bytes hold, in this order, row l, digit d, component c, limb p, N_r words each (R144). -/
def ggswWords (ps : PSet) (g : List Byte) (l d c p : Nat) : List Nat :=
  let k1 := ps.glweRank + 1
  let o := ((l * ps.dnum + d) * k1 + c) * ps.lq + p
  (List.range (2 ^ ps.logn)).map fun i => field g (4 * (o * 2 ^ ps.logn + i)) 4

/-- The exact lift of each coefficient of a polynomial to Q_r (R137). -/
def liftPoly (es : List PrimeEntry) (limbs : List (List Nat)) (n : Nat) : List Nat :=
  (List.range n).map fun i => (liftAll ((es.zip limbs).map fun e => (e.1.q, e.2.getD i 0))).1

/-- The sum of two polynomials, limb by limb. -/
def addLimbs (es : List PrimeEntry) (a b : List (List Nat)) : List (List Nat) :=
  (es.zip (a.zip b)).map fun e => (e.2.1.zip e.2.2).map fun w => addMod e.1.q w.1 w.2

/-- The digit polynomials of one component: by digit, by coefficient; none where a recomposition fails (R149, R150). -/
def digitPolys (es : List PrimeEntry) (ps : PSet) (limbs : List (List Nat)) : Option (List (List Int)) :=
  let xs := liftPoly es limbs (2 ^ ps.logn)
  let q := prodL (es.map (·.q))
  let ds := xs.map (decomposeChecked q (2 ^ ps.logDelta) ps.dnum)
  if ds.all Option.isSome then
    some ((List.range ps.dnum).map fun d => ds.map fun x => (x.getD []).getD d 0)
  else none

/-- Limb p of component c of extprod(G, C) from the digit polynomials of C (R149, steps 2..4). -/
def extprodLimb (ps : PSet) (g : List Byte) (digs : List (List (List Int))) (c p : Nat) (e : PrimeEntry) : List Nat :=
  let terms := digs.zipIdx.flatMap fun row => row.1.zipIdx.map fun dig =>
    let t := ntt e.q e.psi ps.logn (dig.1.map (intMod e.q))
    (t.zip (ggswWords ps g row.2 dig.2 c p)).map fun w => mulMod e.q w.1 w.2
  let sum := terms.foldl (fun a b => (a.zip b).map fun w => addMod e.q w.1 w.2) (List.replicate (2 ^ ps.logn) 0)
  intt e.q e.psiInv e.nInv ps.logn sum

/-- extprod(G, C) (R149); none where a recomposition fails. -/
def extprod (es : List PrimeEntry) (ps : PSet) (g : List Byte) (c : Glwe) : Option Glwe :=
  let digs := c.map (digitPolys es ps)
  if digs.all Option.isSome then
    some ((List.range (ps.glweRank + 1)).map fun j =>
      es.zipIdx.map fun e => extprodLimb ps g (digs.map (·.getD [])) j e.2 e.1)
  else none

/-! ## Test polynomials (R152, R153) -/

/-- V′, the smallest of 1, 2 and 4 that is not below V (R152). -/
def tableSlots (v : Nat) : Nat := if v ≤ 1 then 1 else if v ≤ 2 then 2 else 4

/-- The box width w (R153). -/
def boxWidth (nr t : Nat) : Nat := nr / 2 ^ t

/-- The offset h (R153). -/
def boxOffset (nr t v : Nat) : Nat := boxWidth nr t / (2 * tableSlots v)

/-- A refresh command the load check does not refuse for its tables (R152, test 82). -/
def tablesFit (nr t v : Nat) : Bool := decide (1 ≤ v ∧ v ≤ 4 ∧ 4 ≤ t ∧ t ≤ 10 ∧ 2 ^ t ≤ nr / (2 * tableSlots v))

/-- Entry m of table u in the buffer, a U64; positions V..V′ − 1 are not read and count as 0 (R152, log 85). -/
def tableEntry (tb : List Byte) (t v u m : Nat) : Nat := if u < v then field tb (8 * (u * 2 ^ t + m)) 8 else 0

/-- Every entry is below Q_r; otherwise the command faults with CHECK, point code 6 (R152). -/
def entriesBelow (q : Nat) (tb : List Byte) (t v : Nat) : Bool :=
  (List.range v).all fun u => (List.range (2 ^ t)).all fun m => decide (tableEntry tb t v u m < q)

/-- TP[k] modulo a limb prime (R153). -/
def testWord (q nr t v : Nat) (entry : Nat → Nat → Nat) (k : Nat) : Nat :=
  let w := boxWidth nr t
  entry (k % w * tableSlots v / w) (k / w) % q

/-- Coefficient i of X^e × A in Z_q[X]/(X^n + 1) (R149): X^n is −1. -/
def turnWord (q n e : Nat) (a : Nat → Nat) (i : Nat) : Nat :=
  let j := (i + 2 * n - e % (2 * n)) % (2 * n)
  if j < n then a j else negMod q (a (j - n))

/-- X^e × A on the words of a polynomial. -/
def turnPoly (q n e : Nat) (a : List Nat) : List Nat :=
  let v := a.toArray
  (List.range n).map (turnWord q n e fun j => v.getD j 0)

/-! ## The refresh (R149, R151, R154) -/

/-- X^(−x) of R149 as a positive power. -/
def minusExp (nr x : Nat) : Nat := 2 * nr - x % (2 * nr)

/-- The accumulator before the rotation: (0, …, 0, X^(−bp) × TP) (R149). -/
def startAcc (es : List PrimeEntry) (ps : PSet) (tb : List Byte) (t v bp : Nat) : Glwe :=
  let n := 2 ^ ps.logn
  List.replicate ps.glweRank (es.map fun _ => List.replicate n 0) ++
    [es.map fun e => (List.range n).map (turnWord e.q n (minusExp n bp) (testWord e.q n t v (tableEntry tb t v)))]

/-- One step of the blind rotation, with at[j] (R149). -/
def rotateStep (es : List PrimeEntry) (ps : PSet) (g : List Byte) (at' : Nat) (acc : Glwe) : Option Glwe :=
  let n := 2 ^ ps.logn
  let c := acc.map fun comp => (es.zip comp).map fun l =>
    (turnPoly l.1.q n (minusExp n at') l.2 |>.zip l.2).map fun w => subMod l.1.q w.1 w.2
  (extprod es ps g c).map fun o => (acc.zip o).map fun x => addLimbs es x.1 x.2

/-- The blind rotation over the elements of a small sample, GGSW j with a_j (R149). -/
def blindRotate (es : List PrimeEntry) (ps : PSet) : List (List Byte × Nat) → Glwe → Option Glwe
  | [], acc => some acc
  | (g, a) :: l, acc => match rotateStep es ps g a acc with
    | some acc => blindRotate es ps l acc
    | none => none

/-- The words of one limb of the wide sample at index i: a_0.., b (R151). -/
def extractWide (q n i : Nat) (as : List (List Nat)) (b : List Nat) : List Nat :=
  (as.flatMap fun a => (List.range n).map fun j => if j ≤ i then a.getD (i - j) 0 else negMod q (a.getD (n + i - j) 0)) ++
    [b.getD i 0]

/-- extract(ACC, i): a wide sample, by limb (R135, R151). -/
def extractAt (es : List PrimeEntry) (ps : PSet) (acc : Glwe) (i : Nat) : List (List Nat) :=
  es.zipIdx.map fun e =>
    let comps := acc.map fun c => c.getD e.2 []
    extractWide e.1.q (2 ^ ps.logn) i (comps.take ps.glweRank) (comps.getD ps.glweRank [])

/-- Refresh of one small sample (a_0..a_(n−1), b) with the n GGSW of a key and V tables of exponent t (R149, R152): the V wide
samples, or none where an entry is not below Q_r or a recomposition fails (CHECK, point code 6). -/
def refresh (es : List PrimeEntry) (ps : PSet) (key : List (List Byte)) (tb : List Byte) (t v : Nat) (as : List Nat) (b : Nat) :
    Option (List (List (List Nat))) :=
  let n := 2 ^ ps.logn
  let turns := as.map (msSwitch (2 ^ ps.lweLogq) (2 * n))
  let bp := (msSwitch (2 ^ ps.lweLogq) (2 * n) b + boxOffset n t v) % (2 * n)
  if entriesBelow (prodL (es.map (·.q))) tb t v then
    (blindRotate es ps (key.zip turns) (startAcc es ps tb t v bp)).map fun acc =>
      (List.range v).map fun u => extractAt es ps acc (u * boxWidth n t / tableSlots v)
  else none

/-! ## The form-1 key switch (R143) -/

/-- D_ks (R143). -/
def switchDigits (ps : PSet) : Nat := min ps.dnum (ps.lweLogq / ps.logDelta)

/-- The elements of the small sample for (i, d) of a form-1 key (R143). -/
def switchSample (ps : PSet) (key : List Byte) (i d : Nat) : List Nat :=
  let o := (i * switchDigits ps + d) * smallBytes ps.lweN ps.lweLogq
  (List.range (ps.lweN + 1)).map fun j => field key (o + j * smallWidth ps.lweLogq) (smallWidth ps.lweLogq)

/-- Add a multiple of a sample modulo r. -/
def addTimes (r : Nat) (acc : List Nat) (k : Int) (x : List Nat) : List Nat :=
  (acc.zip x).map fun w => addMod r w.1 (intMod r (k * w.2))

/-- A form-1 switch of a wide sample, given by the words of each limb (R143): the elements of the small sample; none where a
recomposition fails (R150). -/
def formOneSwitch (es : List PrimeEntry) (ps : PSet) (key : List Byte) (wide : List (List Nat)) : Option (List Nat) :=
  let r := 2 ^ ps.lweLogq
  let q := prodL (es.map (·.q))
  let kn := ps.glweRank * 2 ^ ps.logn
  let xs := (liftPoly es wide (kn + 1)).map (msSwitch q r)
  let ds := (xs.take kn).map (decomposeChecked r (2 ^ ps.logDelta) (switchDigits ps))
  if ds.all Option.isSome then
    some (ds.zipIdx.foldl (fun acc e => (e.1.getD []).zipIdx.foldl (fun acc f =>
      addTimes r acc f.1 (switchSample ps key e.2 f.2)) acc) (List.replicate ps.lweN 0 ++ [xs.getD kn 0]))
  else none

end Sys2Proof.Machine
end

