-- ==== Sys2Proof/Certificates/Slice0/Obligations.lean ====
section
/-! DEFINITION. The statements for the provers. -/

namespace Sys2Proof.Stated

open Sys2Proof.Machine

/-- A command answers a next state, of which P holds. -/
def Runs (c : Instr) (s : State) (P : State → Prop) : Prop := ∃ t, exec c s = .next t ∧ P t

/-- A step answers a next state, of which P holds. -/
def Runs' (s : State) (P : State → Prop) : Prop := ∃ t, step s = .next t ∧ P t

/-! ## The queue and the memories -/

/-- Every memory of the part is in its canonical form. -/
def MemoriesWf (s : State) : Prop :=
  Memory.wf s.gran = true ∧ Memory.wf s.hostMem = true ∧ ∀ e ∈ s.arrs, Memory.wf e.2.loft = true

/-- The keys of a table rise strictly: no key stands twice. -/
def Rising {α : Type} (m : SMap α) : Prop := (m.map (·.1)).Pairwise (· < ·)

/-- The tables of the part keep their keys rising. -/
def TablesRising (s : State) : Prop :=
  Rising s.arrs ∧ Rising s.dies ∧ Rising s.links ∧ Rising s.streams ∧ Rising s.tenants ∧ Rising s.fns ∧
  Rising s.ports ∧ Rising s.stk ∧ Rising s.hubs

/-! ## Words of the execute stream -/

/-- The state with which an operation starts: a command that its arrival group has held back is counted (R232). -/
def waited (s : State) (x : Exec) (op : WordOp) (r : SlotRun) : State :=
  let y := s.arr x.arr
  let pair := execPaired s.env x
  if statedCycle x op.per y + y.delay < s.flagCycle x r pair ∧ y.waiting = false then s.modLanes x.arr pair countWait else s

/-- The delay with which an operation starts. -/
def startedLate (s : State) (x : Exec) (op : WordOp) (r : SlotRun) : Nat :=
  s.startDelay x op.per r (execPaired s.env x)

/-- The lanes with which an operation starts. -/
def startLanes (s : State) (x : Exec) (op : WordOp) (r : SlotRun) : Lanes :=
  openLanes (waited s x op r) x (startedLate s x op r) (execPaired s.env x)

/-- A word issues: it is on an array of a running JOB slot, outside a gear relock, that is not abandoned, its flag
is set or it waits for none, its delay keeps the slot's TOLERANCE, its command is not dead, its queues hold what its start
pops, no error is found, nothing is traced, and it carries no VERIFY or ANCHOR stage. -/
structure Issues (s : State) (x : Exec) (op : WordOp) (r : SlotRun) : Prop where
  run : s.runOf x.arr = some r
  job : s.issues r = true
  live : r.abandoned = false
  ready : ∀ a ∈ wordArrs x.arr (execPaired s.env x), waitsFor x r (s.arr a) = false
  inTime : s.tooLate r (startedLate s x op r) = false
  fed : starved (startLanes s x op r) = false
  alive : (startLanes s x op r).1.x.dead = false
  clean : x.dets = []
  quiet : s.trace.enable = false
  bare : x.hdr.verify = false ∧ x.hdr.anchor = false

/-- The lanes after the work of a word that issues. -/
def workOf (s : State) (x : Exec) (op : WordOp) (r : SlotRun) : Lanes :=
  workLanes x op (execCtx s.env x op (startLanes s x op r).1.x) (startLanes s x op r)

/-- The state after a word whose work leaves these lanes: they are stored, the slot's delay is noted, and the word and its
command end. -/
def wordDone (s : State) (x : Exec) (op : WordOp) (r : SlotRun) (l : Lanes) : State :=
  let t := (waited s x op r).putLanes x.arr l
  (t.noteDelay r.slot (t.arr x.arr).delay).afterWork x r op (execCtx s.env x op (startLanes s x op r).1.x)
    (execPaired s.env x) l

/-- A word that issues, and whose work neither faults nor finds a queue empty, stores exactly what its work leaves. -/
def Stores (mk : Exec → Instr) (ok : Exec → Bool) (op : State → Exec → WordOp) : Prop :=
  ∀ (s : State) (x : Exec) (r : SlotRun), ok x = true → Issues s x (op s x) r → x.arr.wf = true →
    starved (workOf s x (op s x) r) = false → metFaults (workOf s x (op s x) r) = [] →
    exec (mk x) s = .next (wordDone s x (op s x) r (workOf s x (op s x) r))

/-- The element-wise cell operations but MMUL with their opcodes. -/
def cellOps : List ((Exec → Instr) × BitVec 6) :=
  [(.cellMove, 1), (.cellMadd, 2), (.cellMsub, 3), (.cellMneg, 4), (.cellMscal, 5), (.cellMmulc, 7)]

/-- The accumulating cell operations with their opcodes. -/
def accOps : List ((Exec → Instr) × BitVec 6) :=
  [(.mac, 8), (.macn, 9), (.macc, 10), (.alpha, 11), (.imma, 12)]

/-- The vector operations with their opcodes. -/
def vecOps : List ((Exec → Instr) × BitVec 7) :=
  [(.vecMadd, 0x01), (.vecMsub, 0x02), (.vecMneg, 0x03), (.vecMmul, 0x04), (.vecMmulc, 0x05), (.vecMscal, 0x06),
   (.mlift, 0x07), (.mred, 0x08), (.mcen, 0x09), (.vecAdd, 0x10), (.vecSub, 0x11), (.vecMul, 0x12), (.vecMulh, 0x13),
   (.adds, 0x14), (.subs, 0x15), (.idiv, 0x16), (.vecMin, 0x17), (.vecMax, 0x18), (.vabs, 0x19), (.vneg, 0x1A)] ++
  [(.vecAnd, 0x1B), (.vecOr, 0x1C), (.vecXor, 0x1D), (.vnot, 0x1E), (.vecShl, 0x1F), (.vecShr, 0x20), (.vecSar, 0x21),
   (.vecCmpEq, 0x28), (.vecCmpNe, 0x29), (.vecCmpLt, 0x2A), (.vecCmpLe, 0x2B), (.sel, 0x2C)] ++
  [(.fadd, 0x30), (.fsub, 0x31), (.fmul, 0x32), (.fma, 0x33), (.fdiv, 0x34), (.fsqrt, 0x35), (.fmin, 0x36),
   (.fmax, 0x37), (.fabs, 0x38), (.fneg, 0x39), (.fcvt, 0x3A), (.cvt, 0x3B), (.rsumS, 0x40), (.rsumL, 0x41)]

end Sys2Proof.Stated

open Sys2Proof Sys2Proof.Machine Sys2Proof.Stated

/-- One step runs the command at the front of the queue, with the queue's rest (log 1). -/
def Obligations.StepRunsTheFrontCommand : Prop :=
  ∀ (c : Instr) (cs : List Instr) (s : State), s.pending = c :: cs → step s = exec c { s with pending := cs }

/-- On an empty queue the time base counts one tick, unless a retard step holds it (R339, R346; log 1); the step of R346 that
falls due with the tick holds it for 5 ticks, or adds 5. -/
def Obligations.EmptyQueueCountsOneTick : Prop :=
  ∀ s : State, s.pending = [] →
    (s.pw.part = .off → step s = .next s) ∧
    (s.pw.part ≠ .off → s.tm.hold = 0 → (∀ d b, s.tm.dueStep = some (d, b) → s.tm.now + 1 < d) →
      step s = .next { s with tm := { s.tm with now := s.tm.now + 1 } }) ∧
    (∀ b, s.pw.part ≠ .off → s.tm.hold = 0 → s.tm.dueStep = some (s.tm.now + 1, b) → Runs' s fun t =>
      t.tm.dueStep = none ∧ t.tm.lastStep = some (s.tm.now + 1) ∧
      (b = true → t.tm.now = s.tm.now + 1 ∧ t.tm.hold = 5 ∧ t.tm.stepsDue = s.tm.stepsDue - 1) ∧
      (b = false → t.tm.now = s.tm.now + 6 ∧ t.tm.hold = 0 ∧ t.tm.stepsDue = s.tm.stepsDue + 1)) ∧
    (s.pw.part ≠ .off → s.tm.hold ≠ 0 → step s = .next { s with tm := { s.tm with hold := s.tm.hold - 1 } })

/-- Every step keeps every memory in its canonical form: granary, host memory and each loft. -/
def Obligations.EveryStepKeepsMemoriesCanonical : Prop :=
  ∀ s t : State, MemoriesWf s → step s = .next t → MemoriesWf t

/-- Every step keeps the keys of the part's tables rising. -/
def Obligations.EveryStepKeepsTablesRising : Prop :=
  ∀ s t : State, TablesRising s → step s = .next t → TablesRising t

/-- The reset state's memories are canonical, and it holds what R421 and R430 give: BOOT, disabled, nothing mapped. -/
def Obligations.ResetHoldsTheDefaults : Prop :=
  MemoriesWf State.reset ∧ TablesRising State.reset ∧ State.reset.pending = [] ∧ State.reset.pw.part = .boot ∧ State.reset.en.on = false ∧
  State.reset.en.st = 0 ∧ State.reset.mctp = { dynAddr := 0, eid := 0 } ∧ State.reset.dom.remoteWrite = false ∧
  State.reset.dom.mgmtRoute = List.replicate 512 0xFF ∧ State.reset.plan = none ∧ State.reset.jobs = [] ∧
  State.reset.tm.now = 0

/-- MOVE, MADD, MSUB, MNEG, MSCAL, MMUL, MMULC: a word that issues stores its rows (R80, R103, R206). -/
def Obligations.CellWordsStoreTheirRows : Prop :=
  (∀ p ∈ cellOps, Stores p.1 (·.cellOk p.2) fun _ x => cellWork x) ∧
  Stores .cellMmul (·.cellOk 6) fun s x => mmulWork s.env x

/-- MAC, MACN, MACC, ALPHA, IMMA: a word that issues adds its terms to its entries (R80, R83, R89); FOLD.CLR and FOLD.KEEP
write their folds, and clear or keep the entries (R81, R82). -/
def Obligations.AccumulatingWordsStoreTheirEntries : Prop :=
  (∀ p ∈ accOps, Stores p.1 (·.cellOk p.2) fun _ x => accWork x) ∧
  Stores .foldClr (·.foldOk 2) (fun _ x => foldWork x false) ∧ Stores .foldKeep (·.foldOk 3) (fun _ x => foldWork x true)

/-- Every vector operation: a word that issues streams its rows to the crib or to port LW (R174, R202). -/
def Obligations.VectorWordsStoreTheirRows : Prop :=
  ∀ p ∈ vecOps, Stores p.1 (·.vecOk p.2) fun _ x => vecWork x

/-- NTT, INTT, AUTO, MULX: a word that issues stores the limbs it names (R91, R92, R97, R99); LOAD and STORE move rows
between crib and loft; a delay changes nothing but the cycle (R75, R191, R196). -/
def Obligations.TransformAndTransferWordsStoreTheirRows : Prop :=
  Stores .ntt (·.cellOk 0x10) (fun s x => transformWork s.env x false) ∧
  Stores .intt (·.cellOk 0x11) (fun s x => transformWork s.env x true) ∧
  Stores .auto (·.netOk 1) (fun _ x => netWork x autoStep none) ∧ Stores .mulx (·.netOk 2) (fun _ x => mulxWork x) ∧
  Stores .cribLoad (·.xferOk 1) (fun _ x => loadWork x) ∧ Stores .cribStore (·.xferOk 2) (fun _ x => storeWork x) ∧
  Stores .commandDelay (·.delayOk) (fun _ _ => delayWork)

/-- R34, R149, R150, R154: the Barrett procedure on a product of residues, and the fold of a sum below 2^72, are exact modulo
q; the signed digits of a value are in range and spell it, and the recomposition test passes on them; the test polynomial
that a phase of m boxes turns shows entry m of its table, or its negation. -/
def Obligations.ReductionsAreExact : Prop :=
  (∀ q k : Nat, 2 ≤ q → 2 ^ (k - 1) ≤ q → q < 2 ^ k →
    (∀ a b : Nat, a < q → b < q → barrett k (2 ^ (2 * k) / q) q (a * b) = a * b % q) ∧
    (∀ v : Nat, v < 2 ^ 72 → reduceLazy (2 ^ 64 % q) q v = v % q)) ∧
  (∀ β n x : Nat, 1 ≤ β → x < 2 ^ (β * n) →
    let ds := signedDigits (2 ^ β) n x []
    ds.length = n ∧ (∀ d ∈ ds, -(2 ^ (β - 1)) ≤ d ∧ d < 2 ^ (β - 1)) ∧
    (ds.foldl (fun a d => a * 2 ^ β + d) (0 : Int) - x) % 2 ^ (β * n) = 0) ∧
  (∀ q β n x : Nat, 1 ≤ β → 1 ≤ n → x < q → recomposeOk q (2 ^ β) n x (decompose q (2 ^ β) n x) = true) ∧
  (∀ (q e t v u m d : Nat) (entry : Nat → Nat → Nat), 1 ≤ q → tablesFit (2 ^ e) t v = true → u < v → m < 2 ^ (t + 1) →
    d < 2 * boxOffset (2 ^ e) t v →
    turnWord q (2 ^ e) (minusExp (2 ^ e) (m * boxWidth (2 ^ e) t + d)) (testWord q (2 ^ e) t v entry)
        (u * boxWidth (2 ^ e) t / tableSlots v) =
      if m < 2 ^ t then entry u m % q else (q - entry u (m - 2 ^ t) % q) % q)

/-- R80: the result word of a modular cell operation on residues, for a prime-book entry whose KBITS and MU are those of
R33: sum, difference, negation, signed multiple, and the two products, each modulo the prime. -/
def Obligations.CellResultsAreResidues : Prop :=
  ∀ (e : PrimeEntry) (kk : Int) (c a b : Nat), 2 ≤ e.q → 2 ^ (e.kbits - 1) ≤ e.q → e.q < 2 ^ e.kbits →
    e.mu = 2 ^ (2 * e.kbits) / e.q → a < e.q → b < e.q → c < e.q →
    cellWord 1 e kk c a b = a ∧ cellWord 2 e kk c a b = (a + b) % e.q ∧
    (cellWord 3 e kk c a b + b) % e.q = a ∧ cellWord 3 e kk c a b < e.q ∧
    (cellWord 4 e kk c a b + a) % e.q = 0 ∧ cellWord 4 e kk c a b < e.q ∧
    (cellWord 5 e kk c a b : Int) = kk * a % e.q ∧
    cellWord 6 e kk c a b = a * b % e.q ∧ cellWord 7 e kk c a b = a * c % e.q

/-- R79, R80: one row of an element-wise cell operation whose B operand, if it reads one, is a crib row: every word of
the D row is the operation's result on the words of its A and B rows, the row takes its check state, and nothing else of
the array changes. -/
def Obligations.CellRowsAreElementwise : Prop :=
  ∀ (k : Ctx) (cs : CellSlot) (l : Lane) (n : Nat), l.ok = true → k.dets = [] → n < cribRows k.c →
    1 ≤ cs.opc.toNat → cs.opc.toNat ≤ 7 → cs.bsrc = 0 →
    poisoned (rowState l.x (k.c.arow.toNat + n)) = false →
    (cellReadsB cs.opc.toNat = true → poisoned (rowState l.x (k.c.brow.toNat + n)) = false) →
    (cs.opc ≠ 1 → ∀ w ∈ cribRow l.x (k.c.arow.toNat + n), w < (k.prime n).q) →
    (cellReadsB cs.opc.toNat = true → ∀ w ∈ cribRow l.x (k.c.brow.toNat + n), w < (k.prime n).q) →
    (cs.opc = 3 → extensionBad k (k.prime n).q (rowState l.x (k.c.arow.toNat + n)) (rowState l.x (k.c.brow.toNat + n))
      (cribRow l.x (k.c.brow.toNat + n)) = none) →
    let op := cellWord cs.opc.toNat (k.prime n) (smallK cs.k) cs.const.toNat
    let a := cribRow l.x (k.c.arow.toNat + n)
    let ws := if cellReadsB cs.opc.toNat then List.zipWith op a (cribRow l.x (k.c.brow.toNat + n)) else a.map fun w => op w 0
    ∃ st : RowSt, cellStep k cs l n =
      { l with x := setRowState (setCribRow l.x (k.c.drow.toNat + n) ws) (k.c.drow.toNat + n) st }

/-- R83, R90: an int8 group is added to an entry with the clamp of sat32; SAT is reported exactly when it clamps. -/
def Obligations.ImmaSaturates : Prop :=
  ∀ (a b : Nat) (e : Acc), -(2 ^ 31) ≤ accInt e → accInt e < 2 ^ 31 →
    let v := accInt e + int8Dot a b
    (-(2 ^ 31) ≤ v ∧ v < 2 ^ 31 → accInt (immaAdd a b e).1 = v ∧ (immaAdd a b e).2 = 0) ∧
    (2 ^ 31 ≤ v → accInt (immaAdd a b e).1 = 2 ^ 31 - 1 ∧ (immaAdd a b e).2 = 32) ∧
    (v < -(2 ^ 31) → accInt (immaAdd a b e).1 = -(2 ^ 31) ∧ (immaAdd a b e).2 = 32)

/-- R174: integer vector results wrap, saturate, divide and shift as the table says, with their flags. -/
def Obligations.IntegerVectorResults : Prop :=
  ∀ w ∈ [8, 16, 32], ∀ a b : Nat, a < 2 ^ w → b < 2 ^ w →
    let x := sNat w a
    let y := sNat w b
    (sNat w (intOp 0x10 w a b).1 - (x + y)) % 2 ^ w = 0 ∧
    ((intOp 0x10 w a b).2 = 4 ↔ ¬(-(2 ^ (w - 1)) ≤ x + y ∧ x + y < 2 ^ (w - 1))) ∧
    sNat w (intOp 0x14 w a b).1 = max (-(2 ^ (w - 1))) (min (x + y) (2 ^ (w - 1) - 1)) ∧
    (y = 0 → intOp 0x16 w a b = (0, 2)) ∧
    (y ≠ 0 → ¬(x = -(2 ^ (w - 1)) ∧ y = -1) → sNat w (intOp 0x16 w a b).1 = Int.tdiv x y ∧ (intOp 0x16 w a b).2 = 0) ∧
    (x = -(2 ^ (w - 1)) ∧ y = -1 → intOp 0x16 w a b = (2 ^ (w - 1), 4)) ∧
    sNat w (intOp 0x17 w a b).1 = min x y ∧ sNat w (intOp 0x18 w a b).1 = max x y ∧
    sNat w (intOp 0x21 w a b).1 = x / 2 ^ (b % w) ∧ (intOp 0x20 w a b).1 = a / 2 ^ (b % w)

/-- R179: an exact zero sum or difference of operands of opposite sign is +0 under modes 0, 1 and 3, and -0 under mode 2, in
FP32 (23 fraction bits) and BF16 (7): of FADD, FSUB and the sum of FMA. -/
def Obligations.ExactZeroSumsTakeTheirSign : Prop :=
  ∀ fr ∈ [7, 23], ∀ (rm : Nat) (ftz : Bool) (m : Nat), rm < 4 → m < 255 * 2 ^ fr →
    let neg := m + 2 ^ (fr + 8)
    let z := if rm = 2 then 2 ^ (fr + 8) else 0
    (fAdd fr rm ftz m neg).1 = z ∧ (fAdd fr rm ftz neg m).1 = z ∧ (fSub fr rm ftz m m).1 = z ∧
    (fSub fr rm ftz neg neg).1 = z ∧ (fFma fr rm ftz m (127 * 2 ^ fr) neg).1 = z ∧
    (fFma fr rm ftz neg (127 * 2 ^ fr) m).1 = z ∧
    (ftz = true → m < 2 ^ fr → ∀ n < 2 ^ fr, (fAdd fr rm ftz n neg).1 = z ∧ (fAdd fr rm ftz neg n).1 = z)

namespace Sys2Proof.Stated

/-! ## Words of the access stream -/

/-- An access-stream word issues: its slot, of KIND JOB, runs outside a gear relock and is not abandoned, the core
has not ended and does not stall, and the instruction store reads without an uncorrectable error. -/
structure CoreGoes (s : State) (c : CcWord) (r : SlotRun) : Prop where
  run : s.runOf c.arr = some r
  job : s.issues r = true
  live : r.abandoned = false
  going : (s.arr c.arr).core.ended = false ∧ (s.arr c.arr).core.stall = none
  clean : (c.dets.any fun d => d.kind == .storeUncorr) = false

/-- Every loft but that of one array is as it was. -/
def OtherLofts (s t : State) (a : ArrId) : Prop :=
  ∀ b : ArrId, slotKey b.die (s.pslot b) ≠ slotKey a.die (s.pslot a) → (t.arr b).loft = (s.arr b).loft

/-- An array whose core has written RD. -/
def setRd (x : Arr) (rd : Nat) (v : DWord) : Arr := { x with core := setCoreReg x.core rd v }

/-- The core of a word's array. -/
def coreOf (s : State) (c : CcWord) : Core := (s.arr c.arr).core

/-- A word that issues changes its core by g when its predicate holds, goes on to the next word, and changes nothing
else. -/
def CoreSets (mk : CcWord → Instr) (ok : CcWord → Bool) (g : CcWord → Core → Core) : Prop :=
  ∀ (s : State) (c : CcWord) (r : SlotRun), ok c = true → CoreGoes s c r →
    exec (mk c) s = .next (s.modArr c.arr fun x =>
      nextPc (if predTrue (coreOf s c) c then { x with core := g c x.core } else x))

/-- The two-operand instructions and their results (R537). -/
def aluOps : List ((CcWord → Instr) × (DWord → DWord → DWord)) :=
  [(.ccAdd, fun a b => a + b), (.ccSub, fun a b => a - b), (.ccAnd, fun a b => a &&& b), (.ccOr, fun a b => a ||| b),
   (.ccXor, fun a b => a ^^^ b), (.ccShl, fun a b => a <<< (b.toNat % 64)), (.ccShr, fun a b => a >>> (b.toNat % 64)),
   (.ccSar, fun a b => a.sshiftRight (b.toNat % 64)), (.ccMin, fun a b => if a.toInt ≤ b.toInt then a else b),
   (.ccMax, fun a b => if a.toInt ≤ b.toInt then b else a)]

/-- The compares and their results (R537). -/
def cmpOps : List ((CcWord → Instr) × (DWord → DWord → Bool)) :=
  [(.ccCmpEq, fun a b => a == b), (.ccCmpLt, fun a b => decide (a.toInt < b.toInt)),
   (.ccCmpLtu, fun a b => decide (a.toNat < b.toNat))]

/-- A word that issues whatever its predicate, and changes its array by g. -/
def CoreDoes (mk : CcWord → Instr) (ok : CcWord → Bool) (P : State → CcWord → SlotRun → Prop)
    (g : State → CcWord → Arr → Arr) : Prop :=
  ∀ (s : State) (c : CcWord) (r : SlotRun), ok c = true → CoreGoes s c r → P s c r →
    exec (mk c) s = .next (s.modArr c.arr (g s c))

end Sys2Proof.Stated

/-- R537: the two-operand integer instructions give RD, and the compares predicate RD, the stated function of RS1 and B. -/
def Obligations.CoreArithmeticAndCompares : Prop :=
  (∀ p ∈ aluOps, CoreSets p.1 (·.binOk) fun c k => setCoreReg k c.rd.toNat (p.2 (coreReg k c.rs1.toNat) (opB k c))) ∧
  (∀ p ∈ cmpOps, CoreSets p.1 (·.cmpOk) fun c k => setCorePred k c.rd.toNat (p.2 (coreReg k c.rs1.toNat) (opB k c)))

/-- R185, R537: LI, LUI, MUL and MULH give RD their values; S0 reads 0 and keeps no write, P0 reads true and keeps none. -/
def Obligations.CoreMovesAndProductsSetRd : Prop :=
  (CoreSets .li (·.fields true false false false true) fun c k => setCoreReg k c.rd.toNat (c.imm.signExtend 64)) ∧
  (CoreSets .lui (·.fields true false false false true) fun c k =>
    setCoreReg k c.rd.toNat (c.imm ++ (coreReg k c.rd.toNat).extractLsb' 0 32)) ∧
  (CoreSets .ccMul (·.fields true true true false false) fun c k =>
    setCoreReg k c.rd.toNat (coreReg k c.rs1.toNat * coreReg k c.rs2.toNat)) ∧
  (CoreSets .ccMulh (·.fields true true true false false) fun c k =>
    setCoreReg k c.rd.toNat
      (BitVec.ofInt 64 ((coreReg k c.rs1.toNat).toInt * (coreReg k c.rs2.toNat).toInt / 2 ^ 64))) ∧
  (∀ (k : Core) (v : DWord), setCoreReg k 0 v = k ∧ coreReg k 0 = 0) ∧
  (∀ (k : Core) (b : Bool), setCorePred k 0 b = k ∧ corePred k 0 = true) ∧
  (∀ (k : Core) (i j : Nat) (v : DWord), i ≠ 0 → (SMap.wf 0 k.regs = true → coreReg (setCoreReg k i v) i = v) ∧
    (i ≠ j → coreReg (setCoreReg k i v) j = coreReg k j))

/-- R537: END stops the core; LOOP opens a loop of at least one pass; ENDL goes back while passes are left and on after
the last. -/
def Obligations.CoreLoopsCount : Prop :=
  (∀ (s : State) (c : CcWord) (r : SlotRun), (c.plain && c.fields false false false false false) = true →
    CoreGoes s c r → exec (.ccEnd c) s = .next (s.modCore c.arr fun k => { k with ended := true })) ∧
  (CoreDoes .loop (fun c => c.plain && (c.x == 0 || c.x == 1) && c.fields false (c.x == 0) false true (c.x == 1))
    (fun s c _ => (if c.x = 0 then (coreReg (coreOf s c) c.rs1.toNat).toNat else c.imm.toNat) ≠ 0)
    fun s c x => { x with core := { x.core with
      loops := (x.core.pc + 1, if c.x = 0 then (coreReg (coreOf s c) c.rs1.toNat).toNat else c.imm.toNat) :: x.core.loops
      pc := x.core.pc + 1 } }) ∧
  (CoreDoes .loop (fun c => c.plain && (c.x == 0 || c.x == 1) && c.fields false (c.x == 0) false true (c.x == 1))
    (fun s c _ => (if c.x = 0 then (coreReg (coreOf s c) c.rs1.toNat).toNat else c.imm.toNat) = 0)
    fun _ _ x => { x with core := { x.core with
      pc := afterEndl (x.istore.drop (x.core.base + x.core.pc + 1)) 0 (x.core.pc + 1) } }) ∧
  (∀ (s : State) (c : CcWord) (r : SlotRun) (b n : Nat) (l : List (Nat × Nat)),
    (c.plain && c.fields false false false false false) = true → CoreGoes s c r → (coreOf s c).loops = (b, n) :: l →
    (2 ≤ n → exec (.endl c) s = .next (s.modCore c.arr fun k => { k with loops := (b, n - 1) :: l, pc := b })) ∧
    (n < 2 → exec (.endl c) s = .next (s.modCore c.arr fun k => { k with loops := l, pc := k.pc + 1 })))

/-- R186, R189, R210: a push enters its queue while there is room and stalls the core otherwise, with a zero entry when
its predicate is false; TQWAIT consumes its tokens or stalls; TWAIT goes on at or after its release slot. -/
def Obligations.CoreQueuesFillAndStall : Prop :=
  (CoreDoes .aqpush (·.fields false true false false false) (fun s c _ => (s.arr c.arr).aq.length < 32) fun s c x =>
    nextPc { x with aq := x.aq ++ [if predTrue (coreOf s c) c then coreReg x.core c.rs1.toNat else 0] }) ∧
  (CoreDoes .aqpush (·.fields false true false false false) (fun s c _ => 32 ≤ (s.arr c.arr).aq.length) fun s c x =>
    nextPc { x with core := { x.core with
      stall := some (.aqFull (if predTrue (coreOf s c) c then coreReg x.core c.rs1.toNat else 0)) } }) ∧
  (CoreDoes .oqpush (·.fields false true false false false) (fun s c _ => (s.arr c.arr).oq.length < 64) fun s c x =>
    nextPc { x with oq := x.oq ++
      [if predTrue (coreOf s c) c then (coreReg x.core c.rs1.toNat).extractLsb' 0 32 else 0] }) ∧
  (CoreDoes .tqwait (fun c => c.fields false false false false true && decide (1 ≤ c.imm.toNat ∧ c.imm.toNat ≤ 16))
    (fun s c _ => c.imm.toNat ≤ (s.arr c.arr).tokens) fun _ c x => nextPc { x with tokens := x.tokens - c.imm.toNat }) ∧
  (CoreDoes .tqwait (fun c => c.fields false false false false true && decide (1 ≤ c.imm.toNat ∧ c.imm.toNat ≤ 16))
    (fun s c _ => (s.arr c.arr).tokens < c.imm.toNat) fun _ c x =>
      nextPc { x with core := { x.core with stall := some (.tokens c.imm.toNat) } }) ∧
  (CoreDoes .twait (fun c => c.fields false false false false true && decide (c.imm.toNat ≤ 15624))
    (fun s c _ => c.imm.toNat ≤ s.tm.now % 1000000 / 64) fun _ _ x => nextPc x) ∧
  (∀ (s : State) (a : ReadRef) (e : DWord), a.arr.wf = true → (s.arr a.arr).core.stall = some (.aqFull e) →
    (s.arr a.arr).aq.length < 32 → exec (.ccStallRelease a) s = .next (s.setArr a.arr { s.arr a.arr with
      aq := (s.arr a.arr).aq ++ [e], core := { (s.arr a.arr).core with stall := none } })) ∧
  (∀ (s : State) (a : ReadRef) (n : Nat), a.arr.wf = true → (s.arr a.arr).core.stall = some (.tokens n) →
    n ≤ (s.arr a.arr).tokens → exec (.ccStallRelease a) s = .next (s.setArr a.arr { s.arr a.arr with
      tokens := (s.arr a.arr).tokens - n, core := { (s.arr a.arr).core with stall := none } }))

/-- R185, R188, R250, R537: NOP and FENCE change nothing but the place, nor does a memory instruction whose predicate is false;
LD and ST through a LOCAL handle go on to the next word; ACQ drops the lines of its handle, ACQ.B marks the next LD
of a window; LDJ reads the descriptor of a filled position and 0 of an unfilled one; MFS reads a special register. -/
def Obligations.CoreOrderAndReadInstructionsGoOn : Prop :=
  (CoreDoes .nop (·.fields false false false false false) (fun _ _ _ => True) fun _ _ x => nextPc x) ∧
  (∀ (s : State) (c : CcWord) (r : SlotRun), CoreGoes s c r →
    (predTrue (coreOf s c) c = false →
      ((c.fields true true true true true && decide (c.rs2.toNat ≤ 7)) = true →
        exec (.ld c) s = .next (s.modArr c.arr nextPc)) ∧
      ((c.fields true true true true true && decide (c.rs2.toNat ≤ 3)) = true →
        exec (.st c) s = .next (s.modArr c.arr nextPc)) ∧
      ((c.fields false true false true true && decide (c.imm.toNat % 256 + c.imm.toNat / 256 % 256 ≤ 255)) = true →
        exec (.xferLc c) s = .next (s.modArr c.arr nextPc) ∧ exec (.xferCl c) s = .next (s.modArr c.arr nextPc))) ∧
    (predTrue (coreOf s c) c = true → c.dets = [] → Rising s.arrs →
      let e := handleOf (s.arr c.arr) c.x.toNat
      let on (t : State) : Prop := (t.arr c.arr).core.pc = (coreOf s c).pc + 1
      (∀ b, b = 2 ^ (c.rs2.toNat % 4) → e.kind = 1 → coreOff (coreOf s c) c % b = 0 →
        coreOff (coreOf s c) c + b ≤ e.length.toNat →
        ((c.fields true true true true true && decide (c.rs2.toNat ≤ 7)) = true → Runs (.ld c) s on) ∧
        ((c.fields true true true true true && decide (c.rs2.toNat ≤ 3)) = true → Runs (.st c) s on)))) ∧
  (CoreDoes .fence (·.fields false false false false false) (fun _ _ _ => True) fun _ _ x => nextPc x) ∧
  (CoreDoes .acq (·.fields false false false true false) (fun s c _ => predTrue (coreOf s c) c = true) fun _ c x =>
    nextPc (cacheDrop x fun l => l.handle == c.x.toNat)) ∧
  (CoreDoes .acqB (·.fields false false false true false)
    (fun s c _ => predTrue (coreOf s c) c = true ∧ (handleOf (s.arr c.arr) c.x.toNat).kind ≠ 1) fun _ c x =>
      nextPc { x with bypass := insRow c.x.toNat x.bypass }) ∧
  (∀ mk ∈ [Instr.acq, Instr.acqB], CoreDoes mk (·.fields false false false true false)
    (fun s c _ => predTrue (coreOf s c) c = false) fun _ _ x => nextPc x) ∧
  (∀ (s : State) (c : CcWord) (r : SlotRun), (c.fields true true false false true &&
      decide (c.imm.toNat ≤ 56 ∧ c.imm.toNat % 8 = 0)) = true → CoreGoes s c r → predTrue (coreOf s c) c = true →
    let p := (coreReg (coreOf s c) c.rs1.toNat).toNat % 8
    (∀ q j, (filledPositions r).find? (fun e => e.1 == p) = some q → s.job? q.2 = some j →
      exec (.ldj c) s = .next (s.modArr c.arr fun x => nextPc
        (setRd x c.rd.toNat (BitVec.ofNat 64 (field j.desc c.imm.toNat 8))))) ∧
    ((filledPositions r).find? (fun e => e.1 == p) = none →
      exec (.ldj c) s = .next (s.modArr c.arr fun x => nextPc (setRd x c.rd.toNat 0)))) ∧
  (∀ (s : State) (c : CcWord) (r : SlotRun), (c.fields true false false true false && decide (c.x.toNat ≤ 5)) = true →
    CoreGoes s c r → predTrue (coreOf s c) c = true →
    exec (.mfs c) s = .next (s.modArr c.arr fun x => nextPc (setRd x c.rd.toNat
      (BitVec.ofNat 64 (match c.x.toNat with
        | 0 => s.slotCycle r % 2 ^ 32 | 1 => r.epoch % 2 ^ 32 | 2 => fillMask r | 3 => (s.arr c.arr).status.toNat
        | 4 => c.arr.arr | _ => s.pslot c.arr)))))

/-- R188, R242, R249, R537: LD through a LOCAL handle gives RD the bytes, extended, with the core's own stores that are on their
way; ST stores the low bytes of RD there, behind an earlier store to the same bytes that has not landed; an
unmapped handle, a misaligned offset and a range past LENGTH each take the fault ADDR with its subcode. -/
def Obligations.CoreLoadsAndStores : Prop :=
  (∀ (s : State) (c : CcWord) (r : SlotRun), (c.fields true true true true true && decide (c.rs2.toNat ≤ 7)) = true →
    CoreGoes s c r → c.dets = [] → predTrue (coreOf s c) c = true →
    let off := coreOff (coreOf s c) c
    let b := 2 ^ (c.rs2.toNat % 4)
    let e := handleOf (s.arr c.arr) c.x.toNat
    let bare (x : Arr) : Arr := { x with bypass := x.bypass.filter (· != c.x.toNat) }
    (e.kind = 1 → off % b = 0 → off + b ≤ e.length.toNat →
      exec (.ld c) s = .next (s.modArr c.arr fun x => nextPc (setRd (bare x) c.rd.toNat
        (extTo64 b (c.rs2.getLsbD 2) (leNat (s.ownView c.arr (s.arr c.arr) e off b)))))) ∧
    (s.pendingStores c.arr (s.arr c.arr) = [] →
      s.ownView c.arr (s.arr c.arr) e off b = loftRead (s.arr c.arr) e off b) ∧
    (e.kind = 0 → exec (.ld c) s = .next ((s.modArr c.arr bare).coreFail c.arr 7 3)) ∧
    (e.kind ≠ 0 → off % b ≠ 0 → exec (.ld c) s = .next ((s.modArr c.arr bare).coreFail c.arr 7 2)) ∧
    (e.kind = 1 → off % b = 0 → e.length.toNat < off + b →
      exec (.ld c) s = .next ((s.modArr c.arr bare).coreFail c.arr 7 1)) ∧
    (∀ l, 2 ≤ e.kind.toNat → off % b = 0 → off + b ≤ e.length.toNat → c.x.toNat ∉ (s.arr c.arr).bypass →
      0 < cacheSets (s.arr c.arr) → cacheLine (s.arr c.arr) c.x.toNat (off / 128 * 128) = some l → Runs (.ld c) s fun t =>
        Rising s.arrs → Rising (coreOf s c).regs → coreReg (t.arr c.arr).core c.rd.toNat = if c.rd = 0 then 0 else
          extTo64 b (c.rs2.getLsbD 2) (leNat (slice l.bytes (off % 128) b)))) ∧
  (∀ (s : State) (c : CcWord) (r : SlotRun), (c.fields true true true true true && decide (c.rs2.toNat ≤ 3)) = true →
    CoreGoes s c r → predTrue (coreOf s c) c = true →
    let off := coreOff (coreOf s c) c
    let b := 2 ^ c.rs2.toNat
    let e := handleOf (s.arr c.arr) c.x.toNat
    let bs := leBytes b (coreReg (coreOf s c) c.rd.toNat).toNat
    let meets (w : Nat × List Byte) : Prop :=
      w.1 < e.target.toNat + off + b ∧ e.target.toNat + off < w.1 + w.2.length
    (e.kind = 1 → off % b = 0 → off + b ≤ e.length.toNat →
      (∃ w ∈ s.pendingStores c.arr (s.arr c.arr), meets w) →
      exec (.st c) s = .next ((s.queueArrival c.arr
        { handle := c.x.toNat, off := off, rows := [bs], job := stampOf s r, core := some c.arr }).modArr c.arr nextPc)) ∧
    (e.kind = 1 → off % b = 0 → off + b ≤ e.length.toNat →
      (∀ w ∈ s.pendingStores c.arr (s.arr c.arr), ¬meets w) → Runs (.st c) s fun t =>
      t = (s.plainWrite c.arr c.x.toNat off 0 [bs] 8).modArr c.arr nextPc ∧
      (Rising s.arrs → (t.arr c.arr).loft = (loftWrite (s.arr c.arr) e off bs).loft ∧ OtherLofts s t c.arr)) ∧
    (∀ u, e.kind = 3 → off % b = 0 → off + b ≤ e.length.toNat → s.remoteStore c.arr r e off bs = .ok u →
      cacheLine (u.arr c.arr) c.x.toNat (off / 128 * 128) = none → exec (.st c) s = .next (u.modArr c.arr nextPc)) ∧
    (e.kind = 0 ∨ e.kind = 2 → exec (.st c) s = .next (s.coreFail c.arr 7 3)) ∧
    (e.kind = 1 ∨ e.kind = 3 → off % b ≠ 0 → exec (.st c) s = .next (s.coreFail c.arr 7 2)) ∧
    (e.kind = 1 ∨ e.kind = 3 → off % b = 0 → e.length.toNat < off + b →
      exec (.st c) s = .next (s.coreFail c.arr 7 1))) ∧
  (∀ (s : State) (c : CcWord) (r : SlotRun), (c.fields false true false true true &&
      decide (c.imm.toNat % 256 + c.imm.toNat / 256 % 256 ≤ 255)) = true → CoreGoes s c r → c.dets = [] →
    predTrue (coreOf s c) c = true →
    let off := (coreReg (coreOf s c) c.rs1.toNat).toNat
    let e := handleOf (s.arr c.arr) c.x.toNat
    let row := c.imm.toNat % 256
    let n := c.imm.toNat / 256 % 256 + 1
    let st (i : Nat) : RowSt := streamState s.env.psets (s.arr c.arr) c.x.toNat (off + i * 1024)
    e.kind = 1 → off % 1024 = 0 → off + n * 1024 ≤ e.length.toNat →
    ((∀ i < n, poisoned (st i) = false) → exec (.xferLc c) s = .next (s.modArr c.arr fun x => nextPc ((List.range n).foldl (fun x i =>
      setRowState (setCribRow x (row + i) (toWords (loftRead x e (off + i * 1024) 1024))) (row + i) (st i)) x))) ∧
    ((∀ i < n, poisoned (rowState (s.arr c.arr) (row + i)) = false) → Runs (.xferCl c) s fun t => Rising s.arrs →
      (t.arr c.arr).loft = ((List.range n).foldl (fun x i =>
        loftWrite x e (off + i * 1024) (ofWords (cribRow x (row + i)))) (s.arr c.arr)).loft ∧ OtherLofts s t c.arr))

/-- R216, R220, R221, R537: DMAQ passes its descriptor to the die DMA, stalling while 256 are held; REQ passes a request
that keeps R221 to its unit. -/
def Obligations.CoreRequestsReachTheirUnits : Prop :=
  (∀ (s u : State) (c : CcWord) (r : SlotRun), c.fields false true false true true = true → CoreGoes s c r →
    c.dets = [] → predTrue (coreOf s c) c = true →
    let off := coreOff (coreOf s c) c
    (256 ≤ (s.die c.arr.die).descs.length → exec (.dmaq c) s = .next ((s.modArr c.arr nextPc).modCore c.arr fun k =>
      { k with stall := some (.dmaFull c.x.toNat off) })) ∧
    ((s.die c.arr.die).descs.length < 256 → s.acceptDesc c.arr r c.x.toNat off = .ok u →
      exec (.dmaq c) s = .next (u.modArr c.arr nextPc))) ∧
  (∀ (s : State) (c : CcWord) (r : SlotRun), c.fields false true false true true = true → CoreGoes s c r →
    c.dets = [] → predTrue (coreOf s c) c = true →
    let off := coreOff (coreOf s c) c
    let e := handleOf (s.arr c.arr) c.x.toNat
    let bs := loftRead (s.arr c.arr) e off 32
    let n := (s.die c.arr.die).unitSeq
    e.kind = 1 → off % 32 = 0 → off + 32 ≤ e.length.toNat →
    (unitReqOk (unitReqOf bs c.arr) (field bs 7 1 + field bs 28 4) = true →
      ∃ q : UnitReq, q.n = n ∧ q.unit = field bs 0 1 ∧ q.arr = c.arr ∧ q.slot = r.slot ∧
        exec (.req c) s = .next ((s.modDie c.arr.die fun d =>
          { d with unitSeq := n + 1, units := d.units ++ [q] }).modArr c.arr fun x =>
            nextPc { x with reqs := x.reqs ++ [.unit n] })) ∧
    (unitReqOk (unitReqOf bs c.arr) (field bs 7 1 + field bs 28 4) = false →
      exec (.req c) s = .next (s.coreFail c.arr 7 5)))

/-! ## The die DMA, atomics and units -/

/-- R223, R343: RELEASE_SLOT takes a working part's time base to the next 64 ns boundary; loft and host memory stay. -/
def Obligations.ReleaseSlotAdvancesToTheBoundary : Prop :=
  ∀ s : State, s.working = true → Runs .releaseSlot s fun t =>
    t.tm = s.tm.reach ((s.tm.now / 64 + 1) * 64) ∧
    ((∀ d b, s.tm.dueStep = some (d, b) → (s.tm.now / 64 + 1) * 64 < d) → t.tm.now = (s.tm.now / 64 + 1) * 64) ∧
    t = { s with tm := t.tm, tenants := t.tenants, arrs := t.arrs, dies := t.dies, trace := t.trace } ∧
    (Rising s.arrs → ∀ a, (t.arr a).loft = (s.arr a).loft ∧ (t.arr a).crib = (s.arr a).crib)

/-- R217, R219: a released block goes to its move. One with AOP 0 between two lofts of this package, aligned and within its
handles, from a handle that holds no sheaves, completes: it queues its rows at the destination, or no row where it carries data
of a position that no job fills, with its group and clasp, and is marked sent. So does one whose read goes through a window. -/
def Obligations.BlockWriteSendsItsRows : Prop :=
  ∀ (s : State) (b : BlockRef) (d : Desc), b.arr.wf = true → s.desc? b.arr b.dseq = some d →
    s.blockReady d b.blk = true →
    (b.hostErr = none ∨ b.hostErr = some 1 ∨ b.hostErr = some 2 →
      exec (.blockWrite b) s = .next (s.moveBlock d (d.blocks.getD b.blk {}) b)) ∧
    (∀ sd sa dd da sh so h o : Nat,
      let k := d.blocks.getD b.blk {}
      let x := s.arr ⟨sd, sa⟩
      let e := handleOf x sh
      let f := handleOf (s.arr ⟨dd, da⟩) h
      s.ownEndpoint (endpointOf k.src) = .loft sd sa sh so → s.ownEndpoint (endpointOf k.dst) = .loft dd da h o →
      k.len % 64 = 0 → k.sstride % 64 = 0 → k.dstride % 64 = 0 → so % 64 = 0 → o % 64 = 0 →
      0 < k.len → k.len ≤ 1048576 → 0 < k.rows → k.aop = 0 → e.kind = 1 → e.sheaf = false →
      so + (k.rows - 1) * k.sstride + k.len ≤ e.length.toNat → f.kind = 1 →
      (f.rwrite = true ∨ (⟨dd, da⟩ : ArrId) = d.arr) → o + (k.rows - 1) * k.dstride + k.len ≤ f.length.toNat →
      b.hostErr = none → b.ecc = [] →
      ∃ v : Arrival, v.handle = h ∧ v.off = o ∧ v.dstride = k.dstride ∧ v.aop = 0 ∧ v.group = d.group ∧
        v.clasp = k.bflags.getLsbD 0 ∧
        v.rows = (if s.writesNothing d k then []
          else (List.range k.rows).map fun r => loftRead x e (so + r * k.sstride) k.len) ∧
        exec (.blockWrite b) s = .next ((s.modDesc d.arr d.dseq fun e => e.setBlock b.blk .sent).queueArrival ⟨dd, da⟩ v)) ∧
    (∀ (u : State) (rows : List (List Byte)) (sd sa dd da : Nat) (sh so h o : Nat),
      let k := d.blocks.getD b.blk {}
      b.hostErr = none → b.ecc = [] → s.blockFault d k = none →
      s.ownEndpoint (endpointOf k.src) = .loft sd sa sh so → s.ownEndpoint (endpointOf k.dst) = .loft dd da h o →
      (handleOf (s.arr ⟨sd, sa⟩) sh).sheaf = false → s.fetchRows d k b.refused = .rows rows u → u.dom = s.dom →
      u.writesNothing d k = false →
      ∃ v : Arrival, v.handle = h ∧ v.off = o ∧ v.rows = rows ∧ v.aop = k.aop ∧ v.group = d.group ∧
        v.clasp = k.bflags.getLsbD 0 ∧
        exec (.blockWrite b) s = .next ((u.modDesc d.arr d.dseq fun e => e.setBlock b.blk .sent).queueArrival ⟨dd, da⟩ v))

/-- R249, R231, R256, R412: the arrival at the head of the landing buffer leaves it; it lands when it is neither stale nor refused
by its handle; a stale one is dropped and counted, one that the handle refuses faults the array that sent it, and one with data of
a position whose input is invalid writes nothing to another array's loft. -/
def Obligations.ArrivalsLandInOrder : Prop :=
  ∀ (s : State) (a : ArrId) (v : Arrival) (rest : List Arrival), a.wf = true → (s.arr a).landing = v :: rest → v.aop = 0 →
    exec (.loftArrival a) s = .next (s.land a v) ∧
    (s.staleRef v.job = true → v.src = none →
      exec (.loftArrival a) s = .next ((s.popLanding a).modArr a fun x =>
        { x with cnt := { x.cnt with staleDrops := bump x.cnt.staleDrops } })) ∧
    (∀ e sub, e = handleOf (s.arr a) v.handle → Rising s.arrs → s.staleRef v.job = false →
      arrivalFault e a v v.last = some sub →
      exec (.loftArrival a) s = .next ((s.popLanding a).arrivalFail v sub)) ∧
    (∀ e, e = handleOf (s.arr a) v.handle → Rising s.arrs → s.staleRef v.job = false → v.src = none → v.retTo = none →
      v.hostBuf = none → arrivalFault e a v v.last = none → s.positionBad a v = true → Runs (.loftArrival a) s fun t =>
        (t.arr a).landing = rest ∧ ∀ b, (t.arr b).loft = (s.arr b).loft) ∧
    (∀ e, e = handleOf (s.arr a) v.handle → Rising s.arrs → s.staleRef v.job = false → v.src = none → v.retTo = none →
      v.hostBuf = none → s.positionBad a v = false → arrivalFault e a v v.last = none → Runs (.loftArrival a) s fun t =>
        (t.arr a).landing = rest ∧ OtherLofts s t a ∧
        (t.arr a).loft = (v.rows.zipIdx.foldl (fun x r => loftWrite x e (v.off + r.2 * v.dstride) r.1) (s.arr a)).loft ∧
        (t.arr a).flags = (if v.clasp ∧ v.group ≠ 0 then (s.arr a).flags ||| (1 : BitVec 16) <<< v.group
          else (s.arr a).flags))

/-- R258: each atomic at the head of the landing buffer executes at its home, and each element takes the stated value. -/
def Obligations.AtomicsExecuteAtTheirHome : Prop :=
  (∀ p ∈ [(Instr.modularAdd, 1), (Instr.int32Add, 2), (Instr.fp32Add, 3), (Instr.atomicMin, 4), (Instr.atomicMax, 5),
      (Instr.swap, 6), (Instr.compareAndSwap, 7)],
    ∀ (s : State) (a : ReadRef) (v : Arrival) (rest : List Arrival), a.arr.wf = true → (s.arr a.arr).landing = v :: rest →
      v.aop = p.2 → exec (p.1 a) s = .next (s.atomic a.arr v a.ecc)) ∧
  (∀ q d b n : Nat, d < 2 ^ 32 → b < 2 ^ 32 →
    (d < q → b < q → (atomElem 1 q d b n).new = (d + b) % q ∧ (atomElem 1 q d b n).bad = false) ∧
    (q ≤ d ∨ q ≤ b → (atomElem 1 q d b n).new = d ∧ (atomElem 1 q d b n).bad = true) ∧
    sNat 32 (atomElem 2 q d b n).new = max (-(2 ^ 31)) (min (sNat 32 d + sNat 32 b) (2 ^ 31 - 1)) ∧
    sNat 32 (atomElem 4 q d b n).new = min (sNat 32 d) (sNat 32 b) ∧
    sNat 32 (atomElem 5 q d b n).new = max (sNat 32 d) (sNat 32 b) ∧
    (atomElem 6 q d b n).new = b ∧ (atomElem 6 q d b n).old = d ∧ (atomElem 7 q d b n).old = d ∧
    (atomElem 7 q d b n).new = (if d = b then n else d))

/-- R116, R121, R139, R155, R221: the next released request of a unit is served: its writes land and it leaves the list,
unless its incarnation is stale. -/
def Obligations.UnitsServeReleasedRequests : Prop :=
  (∀ (s t : State) (die : Nat) (u : UnitReq), die < 8 → s.unitHead die 1 = some u → s.sow u = .ok t →
    s.unitStale u = false → exec (.sowerRequest die none) s = .next (t.unitDone die u.n)) ∧
  (∀ (s t : State) (die : Nat) (u : UnitReq) (rows : List (ArrId × Nat)), die < 8 → s.unitStale u = false →
    (s.unitHead die 3 = some u → s.thresh u = .ok (t, rows) → exec (.extract die {}) s = .next (t.unitDone die u.n)) ∧
    (s.unitHead die 4 = some u → s.binderWork u = .ok (t, rows) →
      exec (.binderRequest die {}) s = .next (t.unitDone die u.n))) ∧
  (∀ (s : State) (die : Nat) (u : UnitReq) (lines : List LineState), die < 8 → s.unitHead die 2 = some u →
    exec (.granaryRead die lines) s = .next (s.granServe die u lines)) ∧
  (∀ (s : State) (die : Nat) (u : UnitReq), die < 8 →
    (s.unitHead die 1 = some u → ∀ c < 8, exec (.sowerRequest die (some c)) s =
      .next (s.unitFail die u { kind := 5, sub := c } none)) ∧
    (∀ e ∈ [(3, 1, State.thresh, Instr.extract die), (4, 2, State.binderWork, Instr.binderRequest die)],
      s.unitHead die e.1 = some u →
      (∀ f, e.2.2.1 s u = .error f → ∀ det, exec (e.2.2.2 det) s =
        .next (s.unitFail die u { kind := f.1, sub := f.2 } none)) ∧
      (∀ t rows, e.2.2.1 s u = .ok (t, rows) →
        exec (e.2.2.2 { mismatch := true }) s =
          .next (s.unitFail die u { kind := 6, sub := e.2.1, pos := s.rowsPos rows } none) ∧
        ∀ i, exec (e.2.2.2 { reduction := some i }) s =
          .next (s.unitFail die u { kind := 1, point := 6, index := i, pos := s.rowsPos rows } none))))

/-! ## Slots and epochs -/

/-- R314, R316, R317, R381, R382, R409: at its bind point a JOB slot of a shared program binds the oldest eligible jobs of
the tenant whose turn it is, which pays for it, or stays unfilled; the lead's decision for a DOMAIN slot is kept. -/
def Obligations.SlotsBindByFairShare : Prop :=
  (∀ (s : State) (e slot : Nat) (q : SlotRec) (p : Program), s.working = true → s.slotRec slot = some q → q.kind = 0 →
    (∀ r ∈ s.runs, ¬(r.slot = slot ∧ r.epoch = e)) → s.program q.prog = some p → spansPackages p = false →
    let u := s.reach (s.bindNs e q)
    let el := u.jobs.filter (u.eligible p e (u.bindNs e q))
    (u.mayBind e q = false ∨ el = [] → exec (.bindPoint e slot) s = .next (u.unfilled q)) ∧
    (∀ n, u.mayBind e q = true → Rising s.tenants → u.chooseTenant (slotCost u.variant q) (el.map (·.tenant)) = some n →
      let js := (queueOrder (el.filter (·.tenant == n))).take q.batch
      Runs (.bindPoint e slot) s fun t =>
        t.drrPtr = n + 1 ∧ (t.tenant n).deficit = (s.tenant n).deficit - (slotCost u.variant q : Nat) ∧
        t.runs = s.runs ++ [{ slot := q.slot, epoch := e, jobs := js.zipIdx.map (fun x => (x.2, x.1.idx))
                              incs := js.zipIdx.map (fun x => (x.2, x.1.inc)) }] ∧
        ∀ j ∈ js, ∃ k, t.job? j.idx = some k ∧ k.st = .bound ∧ k.slot = q.slot)) ∧
  (∀ (s : State) (e slot : Nat) (q : SlotRec) (p : Program), s.working = true → s.slotRec slot = some q → q.kind = 0 →
    (∀ r ∈ s.runs, ¬(r.slot = slot ∧ r.epoch = e)) → s.program q.prog = some p → spansPackages p = true →
    exec (.bindPoint e slot) s = .next ((s.reach (s.bindNs e q)).bindDomain p e q)) ∧
  (∀ (s : State) (e slot : Nat) (q : SlotRec) (p : Program), s.working = true → s.slotRec slot = some q →
    s.program q.prog = some p → s.isLead = true → spansPackages p = true →
    Runs (.leadBindDecision e slot) s fun t => ∃ es : List BindEntry,
      t.dom.binds = s.dom.binds ++ [{ epoch := e, slot := q.slot, es := es }] ∧ es.length ≤ min 8 q.batch ∧
      ∀ b ∈ es, ∃ j ∈ s.jobs, j.domain = true ∧ j.jobId = b.jobId ∧ j.inc = b.inc)

/-- R77, R183, R312, R316, R321, R346, R354: a bound slot starts with its arrays cleared and its shift counted, none during a gear
relock; a FALLOW slot sets the instant of one step that is due, 1 µs from its start and 50 µs from the last step; at its end a slot's live incarnations are finished and its run is gone; one that is abandoned
keeps its place, marked. -/
def Obligations.SlotsStartAndEnd : Prop :=
  (∀ (s : State) (slot : Nat) (ls : List LineState) (q : SlotRec) (p : Plan), s.working = true →
    s.slotRec slot = some q → s.plan = some p → s.running? slot = none →
    (s.vs.relocking = true ∨ q.kind = 0 ∧ s.waiting? slot = none → q.kind ≠ 2 →
      exec (.slotStart ⟨slot, ls⟩) s = .next s) ∧
    (∀ r, s.vs.relocking = false → q.kind = 0 → s.waiting? slot = some r →
      let u := s.reach (s.slotNs r.epoch q)
      let d := u.shiftOf q
      Runs (.slotStart ⟨slot, ls⟩) s fun t =>
        t.tm = u.tm.reach (u.slotNs r.epoch q + d * 40 / u.perQuantum) ∧
        t.runs = s.runs.map (fun x => if sameRun x r then { x with started := true, shift := d } else x) ∧
        (r.abandoned = false → Rising s.arrs → ∀ a ∈ slotArrs s.variant q,
          (t.arr a).crib = [] ∧ (t.arr a).acc = [] ∧ (t.arr a).status = 0 ∧ (t.arr a).flags = 0 ∧ (t.arr a).aq = [] ∧
          (t.arr a).oq = [] ∧ (t.arr a).tokens = 0 ∧ (t.arr a).delay = d)) ∧
    (s.vs.relocking = false → q.kind = 1 → Runs (.slotStart ⟨slot, ls⟩) s fun t => ∃ k, t.runs = s.runs ++
      [{ slot := q.slot, epoch := (s.startShifted s.epoch q).1.epoch, started := true, install := k
         shift := (s.startShifted s.epoch q).2 }])) ∧
  (∀ (s : State) (slot : Nat) (q : SlotRec) (rs : List (Nat × Nat)), s.working = true → s.slotRec slot = some q →
    q.kind = 2 → s.running? slot = none →
    let u := s.reach (s.epochStart + 40 * q.start)
    Runs (.fallowSlotStart slot rs) s fun t =>
      t.runs = s.runs ++ [{ slot := slot, epoch := u.epoch, started := true }] ∧ t.trace.buf = [] ∧
      t.tm.now = u.tm.now ∧ t.tm.hold = u.tm.hold ∧ t.tm.stepsDue = u.tm.stepsDue ∧
      (u.tm.stepsDue ≠ 0 → u.tm.lastStep = none → 51 ≤ q.length →
        t.tm.dueStep = some (u.tm.now + 1000, decide (0 < u.tm.stepsDue))) ∧
      (∀ n, u.tm.stepsDue ≠ 0 → u.tm.lastStep = some n → u.tm.now + 1000 ≤ n + 50000 →
        n + 51005 ≤ u.tm.now + 40 * q.length → t.tm.dueStep = some (n + 50000, decide (0 < u.tm.stepsDue))) ∧
      (u.tm.stepsDue = 0 → t.tm.dueStep = u.tm.dueStep)) ∧
  (∀ (s : State) (slot : Nat) (q : SlotRec), s.slotRec slot = some q →
    (s.running? slot = none → exec (.slotEnd slot) s = .next s) ∧
    (∀ r, s.running? slot = some r → Runs (.slotEnd slot) s fun t =>
      t.runs = s.runs.filter (fun x => !sameRun x r) ∧
      (q.kind ≠ 2 → r.abandoned = false → ∀ p ∈ r.jobs, ∀ j, s.job? p.2 = some j → j.st = .bound →
        (p.1, j.inc) ∈ r.incs → ∃ k, t.job? p.2 = some k ∧ k.st = .finished))) ∧
  (∀ (s : State) (slot : Nat) (q : SlotRec) (p : Plan) (r : SlotRun), s.plan = some p → s.slotRec slot = some q →
    s.running? slot = some r → q.kind = 0 → r.abandoned = false →
    let marked (t : State) : Prop := t.runs = s.runs.map fun x => if sameRun x r then { x with abandoned := true } else x
    (p.realTime = false → limitQuantum s.template q * s.perQuantum < s.actualEnd q →
      Runs (.slotPacedAbandon slot) s marked) ∧
    (∀ a : ArrId, p.realTime = true → a.wf = true → slotOccupies s.variant q a = true → (s.arr a).waiting = true →
      ((s.arr a).heldGroup ≠ 0 → (s.arr a).flags.getLsbD (s.arr a).heldGroup = false) →
      Runs (.slotDeadlineAbandon slot a (s.arr a).heldGroup (s.arr a).heldAt (s.arr a).heldTag) s marked))

/-- R321, R322, R323, R324, R336: a slot past its limit (paced) or over its TOLERANCE (real time) is abandoned: its bound
incarnations end, it counts unless a fault has ended them before, and a DEADLINE fault is recorded in real-time mode. -/
def Obligations.SlotsAreAbandoned : Prop :=
  ∀ (s : State) (slot : Nat) (q : SlotRec) (p : Plan) (r : SlotRun), s.plan = some p → s.slotRec slot = some q →
    s.running? slot = some r → q.kind = 0 → r.abandoned = false →
    let gone (t : State) : Prop :=
      t.runs = s.runs.map (fun x => if sameRun x r then { x with abandoned := true } else x) ∧
      (Rising s.slotStats → (mget {} t.slotStats slot).abandoned =
        if r.faulted then (mget {} s.slotStats slot).abandoned else bump (mget {} s.slotStats slot).abandoned) ∧
      (∀ e ∈ r.jobs, ∀ j, s.job? e.2 = some j → j.st = .bound → (e.1, j.inc) ∈ r.incs →
        ∃ k, t.job? e.2 = some k ∧ k.st ≠ .bound)
    (p.realTime = false → limitQuantum s.template q * s.perQuantum < s.actualEnd q →
      Runs (.slotPacedAbandon slot) s fun t =>
        t.tm = s.tm.reach (s.absEpoch r.epoch * 1000000 + 40 * limitQuantum s.template q) ∧ gone t) ∧
    (∀ (a : ArrId) (g c tag : Nat), p.realTime = true → a.wf = true → slotOccupies s.variant q a = true →
      (s.arr a).waiting = true → (s.arr a).heldAt = c → (s.arr a).heldTag = tag → (s.arr a).heldGroup = g →
      (g ≠ 0 → (s.arr a).flags.getLsbD g = false) →
      Runs (.slotDeadlineAbandon slot a g c tag) s fun t =>
        t.tm = s.tm.reach (s.slotNs r.epoch q + (c + (q.tolerance * s.perQuantum + 1)) * 40 / s.perQuantum) ∧
        gone t ∧ (t.arr a).cnt.deadline = bump (s.arr a).cnt.deadline ∧
        ∃ f, (t.arr a).lastFault = some f ∧ f.kind = 10 ∧ f.sub = 1 ∧ f.index = g ∧ f.cycle = c ∧ f.tag = tag)

/-- R224, R326, R327, R342, R354: an epoch boundary moves the epoch on by one, performs the switch that is due, and makes
written DMA settings count; 40 µs into a switch epoch the gear PLLs have relocked. -/
def Obligations.EpochBoundariesAdvance : Prop :=
  (∀ s : State, s.running = false → exec .epochBoundary s = .next s) ∧
  (∀ s : State, s.running = true → Rising s.tenants → Runs .epochBoundary s fun t =>
    t.tm.edge = s.tm.edge + 1 ∧ t.tm.now = (s.tm.reach ((s.tm.edge + 1) * 1000000)).now ∧
    ((s.tm.edge + 1) * 1000000 ≤ t.tm.now) ∧
    (∀ n, (t.tenant n).dmaRate = (s.tenant n).newRate ∧ (t.tenant n).dmaDepth = (s.tenant n).newDepth) ∧
    (∀ v, s.vs.pending = some (v, (s.tm.edge + 1) % 2 ^ 32) →
      t.vs.current = v ∧ t.vs.switches = bump s.vs.switches ∧ t.vs.inSwitch = true ∧ t.vs.relocking = true)) ∧
  (∀ s : State, s.vs.relocking = true → exec .gearRelockDone s = .next { s with
    tm := s.tm.reach (s.tm.edge * 1000000 + 40000), vs := { s.vs with relocking := false } })

/-- R414: a job's incarnation is 0 at its receipt; a job abandoned at incarnation 63 completes with RETRY_LIMIT instead of
returning, and before that it returns to its queue with its incarnation one higher. -/
def Obligations.ReturnedJobsStopAtTheRetryLimit : Prop :=
  (∀ (s t : State) (n : Nat), exec (.descriptorDecide n) s = .next t →
    ∀ j ∈ t.jobs, (∀ k ∈ s.jobs, k.idx ≠ j.idx) → j.inc = 0) ∧
  (∀ (s : State) (i : Nat) (j : Job) (later : Bool), s.job? i = some j → j.st ≠ .finished →
    ∃ k, (s.returnJob i later).job? i = some k ∧
      (63 ≤ j.inc → k.st = .finished ∧ k.result = some (0x08, 0, j.inc)) ∧
      (j.inc < 63 → k.st = .queued ∧ k.inc = j.inc + 1 ∧ k.slot = 0xFFFF))

/-! ## Streams and host ports -/

/-- R401: a doorbell counts only 32 bits wide, through the owning function, on an ENABLED stream; more descriptors than
the ring holds put the stream into ERROR; a passed record becomes final. -/
def Obligations.DoorbellsMoveTheRings : Prop :=
  ∀ (s : State) (f : FnId) (n w v : Nat), f.wf = true → n < 16384 → s.pw.part ≠ .off →
    let x := s.stream n
    (s.doorbellOk f n w = false → ∀ c ∈ [Instr.doorbellSqTail f n w v, Instr.doorbellCqHead f n w v],
      exec c s = .next (s.setStream n { x with drops := bump x.drops })) ∧
    (s.doorbellOk f n w = true →
      ((v % 2 ^ 32 + 2 ^ 32 - x.sqHead) % 2 ^ 32 ≤ 2 ^ x.sqLog2 →
        exec (.doorbellSqTail f n w v) s = .next (s.setStream n { x with sqTail := v % 2 ^ 32 })) ∧
      (2 ^ x.sqLog2 < (v % 2 ^ 32 + 2 ^ 32 - x.sqHead) % 2 ^ 32 →
        exec (.doorbellSqTail f n w v) s = .next (s.setStream n
          { x with sqTail := v % 2 ^ 32, st := .error, reason := 5, errLive := true })) ∧
      (Rising s.streams → Runs (.doorbellCqHead f n w v) s fun t =>
        (t.stream n).cqHead = v % 2 ^ 32 ∧
        (x.held = [] → (t.stream n).recs = x.recs.filter fun r => !passed (v % 2 ^ 32) r.1)))

/-- R401, R403, R404, R405: the next descriptor of a stream is read and decided once a record may be written: a wrong SEQ
or a failed test refuses it, otherwise it takes a credit and joins the in-flight table; one of a program with no buffer and no
key requirement does so whenever its tenant, its program and its credits allow it. -/
def Obligations.DescriptorsAreDecided : Prop :=
  ∀ (s : State) (n : Nat), n < 16384 → s.working = true → s.en.st = 2 → (s.stream n).st = .enabled →
    (s.stream n).sqHead ≠ (s.stream n).sqTail → (s.stream n).portWait = false → (s.stream n).bmeWait = false →
    Rising s.streams →
    let x := s.stream n
    (s.recordsHeld x = true → x.stalled = true → exec (.descriptorDecide n) s = .next s) ∧
    (s.recordsHeld x = true → x.stalled = false →
      exec (.descriptorDecide n) s = .next (s.setStream n { x with stalled := true, cqStalls := bump x.cqStalls })) ∧
    (s.recordsHeld x = false →
      let at' := x.sqAddr + 64 * (x.sqHead % 2 ^ x.sqLog2)
      (s.hostFaults? (fnOfEntry x.fn) (s.streamPasid x) at' 64 = false → Runs (.descriptorDecide n) s fun t =>
        (t.stream n).sqHead = (x.sqHead + 1) % 2 ^ 32) ∧
      (s.hostRead (fnOfEntry x.fn) (s.streamPasid x) at' 64 = none → Runs (.descriptorDecide n) s fun t =>
        (t.stream n).st = .error ∧ (t.stream n).reason = 6) ∧
      (∀ bs, s.hostRead (fnOfEntry x.fn) (s.streamPasid x) at' 64 = some bs →
        let d := jobDesc bs
        (d.seq ≠ x.nextSeq % 2 ^ 32 → x.nextSeq < 2 ^ 32 → Runs (.descriptorDecide n) s fun t =>
          (t.stream n).sqHead = (x.sqHead + 1) % 2 ^ 32 ∧ (t.stream n).nextSeq = x.nextSeq ∧
          (bit d.flags 0 = false → (t.stream n).refusals = bump x.refusals)) ∧
        (∀ p, d.seq = x.nextSeq → x.nextSeq < 2 ^ 32 → s.program d.prog = some p → d.rsvd = true → d.nbuf = 0 →
          d.buftab = 0 → p.nin = 0 → p.nout = 0 → bit d.flags 0 = false → d.jobId = 0 → spansPackages p = false →
          p.reqs = [] → (s.tenant x.tenant).st ≠ .disabled → s.throttles d.prog = false → s.usesTestOnly p = false →
          x.inflight < x.credits →
          (s.tenant x.tenant).creditLimit = 0 ∨ (s.tenant x.tenant).inflight < (s.tenant x.tenant).creditLimit →
          x.held = [] → Runs (.descriptorDecide n) s fun t =>
            (t.stream n).sqHead = (x.sqHead + 1) % 2 ^ 32 ∧ (t.stream n).nextSeq = (x.nextSeq + 1) % 2 ^ 32 ∧
            (t.stream n).inflight = x.inflight + 1 ∧
            ∃ j ∈ t.jobs, j.stream = n ∧ j.seq = d.seq ∧ j.prog = d.prog ∧ j.bufs = [] ∧ j.keys = [] ∧ j.inc = 0 ∧
              j.st = .queued ∧ j.receipt = some s.tm.now) ∧
        (d.seq = x.nextSeq → x.nextSeq < 2 ^ 32 → Runs (.descriptorDecide n) s fun t =>
          (t.stream n).sqHead = (x.sqHead + 1) % 2 ^ 32 ∧ (t.stream n).nextSeq = (x.nextSeq + 1) % 2 ^ 32 ∧
          (∀ y code detail, y = { x with sqHead := (x.sqHead + 1) % 2 ^ 32, stalled := false
                                         nextSeq := (x.nextSeq + 1) % 2 ^ 32 } →
            (s.setStream n y).decideDesc y d = .refuse code detail → bit d.flags 0 = false →
            (t.stream n).refusals = bump x.refusals ∧
            (t.stream n).overloads = if code = 0x0B then bump x.overloads else x.overloads) ∧
          (∀ y bufs keys, y = { x with sqHead := (x.sqHead + 1) % 2 ^ 32, stalled := false
                                       nextSeq := (x.nextSeq + 1) % 2 ^ 32 } →
            (s.setStream n y).decideDesc y d = .accept bufs keys →
            ∃ j ∈ t.jobs, j.stream = n ∧ j.seq = d.seq ∧ j.prog = d.prog ∧ j.bufs = bufs ∧ j.keys = keys ∧
              (bit d.flags 0 = false → j.st = .queued ∧ j.receipt = some s.tm.now)))))

/-- R25, R400, R410, R413: the stream's earliest job, once finished and with its last output in host memory, takes
the next record of the ring, its COMPLETED and its credit; an interrupt held by STR_IRQ_DELAY is raised when the delay ends. -/
def Obligations.CompletionsFollowSeq : Prop :=
  (∀ (s : State) (n : Nat) (j : Job) (st d inc : Nat), n < 16384 → s.nextDone n = some j → j.result = some (st, d, inc) →
    (s.outputsPending j.idx inc = true →
      exec (.completion n) s = .refused (.cannotArise "an output of the job is not visible yet")) ∧
    (s.outputsPending j.idx inc = false →
    (s.running = false → exec (.completion n) s = .next s) ∧
    (s.running = true → st = 0 → Rising s.streams → (s.stream n).held = [] → s.recordsHeld (s.stream n) = false →
      (s.hostFaults? (fnOfEntry (s.stream n).fn) (s.streamPasid (s.stream n))
        ((s.stream n).cqAddr + 32 * ((s.stream n).cqTail % 2 ^ (s.stream n).cqLog2)) 32 = false →
      Runs (.completion n) s fun t =>
        (t.stream n).cqTail = ((s.stream n).cqTail + 1) % 2 ^ 32 ∧ (t.stream n).completed = j.seq ∧
        (t.stream n).inflight = (s.stream n).inflight - 1 ∧ (j.st = .finished → j ∉ t.jobs ∧
          ((s.stream n).st = .enabled → j ∈ (t.stream n).done)))) ∧
    (s.running = true → Runs (.completion n) s fun t => t.plan = s.plan ∧ t.tm = s.tm))) ∧
  (∀ (s : State) (n : Nat), n < 16384 → s.pw.part ≠ .off → (s.stream n).irqWait = true →
    let x := s.stream n
    let f := fnOfEntry x.fn
    let v := s.reach (x.irqLast.getD 0 + 1000 * x.irqDelay)
    let u := v.setStream n { x with irqWait := false, irqLast := some v.tm.now }
    ((s.fn f).bme = true → (s.fn f).mask.getLsbD x.vector = false →
      exec (.irqDelayExpiry n) s = .next { u with out := s.out ++ [(s.fn f).message f x.vector] }) ∧
    ((s.fn f).bme = false ∨ (s.fn f).mask.getLsbD x.vector = true → exec (.irqDelayExpiry n) s =
      .next (u.setFn f { s.fn f with pend := (s.fn f).pend ||| (1 : BitVec 32) <<< x.vector })))

/-- R391, R392, R413, R418, R504, R513, R515: function 0 gives its port's virtual functions (log 96); Bus Master Enable and the
MSI-X table entry let pending messages out; a failed port moves its
streams to their alternate functions or holds them; the resets of a port and of a function clear what they name. -/
def Obligations.PortsFailReturnAndReset : Prop :=
  (∀ (s : State) (f : FnId), f.wf = true → s.pw.part ≠ .off → (s.fn f).present = true → (s.port f.port).linkUp = true →
    (∀ k < 64, Rising s.streams → Rising s.fns → Runs (.busMasterEnableSet { fn := f, vfs := k }) s fun t =>
      (t.fn f).bme = true ∧ (∀ n ∈ s.streamsOn (· == f), (t.stream n).bmeWait = false) ∧
      ∀ i < 64, (t.fn ⟨f.port, i⟩).present = if f.fn = 0 then decide (i ≤ k) else (s.fn ⟨f.port, i⟩).present) ∧
    (∀ v : MsixVec, v.vec < 32 → Rising (s.fn f).msi → Runs (.msixUnmask f v) s fun t =>
      (t.fn f).mask.getLsbD v.vec = false ∧ mget (0, 0) (t.fn f).msi v.vec = (v.addr, v.data) ∧
      ((s.fn f).bme = true → (s.fn f).pend.getLsbD v.vec = true →
        Out.msix f v.vec v.addr v.data ∈ t.out ∧ (t.fn f).pend.getLsbD v.vec = false))) ∧
  (∀ (s : State) (p : Nat), p < 2 → s.pw.part ≠ .off → Rising s.streams → Rising s.ports →
    (Runs (.hostPortFailure p) s fun t => (t.port p).failed = true ∧ (t.port p).linkUp = false ∧
      ∀ n ∈ s.streamsOn (fun f => f.port == p), ((s.stream n).altFn = 0xFFFF → (t.stream n).portWait = true) ∧
        ((s.stream n).altFn ≠ 0xFFFF → (t.stream n).fn = (s.stream n).altFn)) ∧
    ((s.port p).perst = false → Runs (.hostPortReturn p) s fun t =>
      (t.port p).failed = false ∧ (t.port p).linkUp = true ∧
      ∀ n ∈ s.streamsOn (fun f => f.port == p), (t.stream n).portWait = false) ∧
    ((s.port p).perst = true → exec (.hostPortReturn p) s = .next s ∧ exec (.perstRelease p) s =
      .next (s.setPort p { s.port p with perst := false, linkUp := true, cfgLoaded := true })) ∧
    (Runs (.portReset p) s fun t =>
      t.port p = { s.port p with perst := true, linkUp := false, cfgLoaded := false } ∧
      (∀ k < 64, (t.fn ⟨p, k⟩).bme = false ∧ (t.fn ⟨p, k⟩).mask = 0xFFFFFFFF ∧ (t.fn ⟨p, k⟩).pend = 0 ∧
        (t.fn ⟨p, k⟩).msi = []) ∧
      (∀ n ∈ s.streamsOn (fun f => f.port == p), (t.stream n).bmeWait = true))) ∧
  (∀ (s : State) (f : FnId), f.wf = true → s.pw.part ≠ .off → Rising s.fns → Rising s.streams →
    Runs (.functionLevelReset f) s fun t => (t.fn f).bme = false ∧ (t.fn f).go = 0 ∧
      ∀ n ∈ s.streamsOn (· == f), (t.stream n).bmeWait = true)

/-! ## Time -/

/-- R338, R340, R344, R345, R347, R349: without LOCKED there is no PPS; a valid edge gives the state, the offset and the
steps of its second, aligns a disabled part when it locks, and counts a misaligned enabled one; an invalid edge is counted;
a lost PPS is HOLDOVER. -/
def Obligations.PpsEdgesAlignTheTimeBase : Prop :=
  (∀ (s : State) (st : RefState), (s.pw.part = .off → exec (.refclkStateChange st) s = .next s) ∧
    (s.pw.part ≠ .off → Runs (.refclkStateChange st) s fun t => t.tm.refclk = st ∧ t.tm.now = s.tm.now ∧
      t.tm.pps = if st = .locked then s.tm.pps else .absent)) ∧
  (∀ (s : State) (x : PpsEdge), s.pw.part = .off ∨ s.tm.refclk ≠ .locked ∨ x.falling ≠ s.tm.ppsFalling →
    exec (.ppsEdge x) s = .next s) ∧
  (∀ (s : State) (x : PpsEdge), s.pw.part ≠ .off → s.tm.refclk = .locked → x.falling = s.tm.ppsFalling →
    let c := x.time
    let u := s.reach c
    let f := u.tm.edgeOffset c
    (u.tm.validEdge c = true → Runs (.ppsEdge x) s fun t =>
      t.tm.offset = (if s.tm.setPending = true ∨ (s.en.on = false ∧ u.tm.afterValid c false = .locked ∧ s.tm.pps ≠ .locked)
        then 0 else f) ∧ t.tm.pps = u.tm.afterValid c false ∧
      (s.tm.setPending = true → t.tm.now = ((s.tm.timeSet : Int) + s.tm.ppsDelay).toNat ∧ t.tm.setPending = false) ∧
      (s.tm.setPending = false → s.en.on = false → u.tm.afterValid c false = .locked → s.tm.pps ≠ .locked →
        t.tm.now = ((u.tm.now : Int) - f).toNat) ∧
      (s.tm.setPending = false → s.en.on = true → t.tm.now = u.tm.now ∧
        (u.tm.afterValid c false = .locked → t.tm.stepsDue = roundDiv (f + u.driftAt c) 5) ∧
        (1000 < f.natAbs → t.tm.alignFaults = bump s.tm.alignFaults ∧
          (s.plan.any (·.domain) = true → s.dom.st = .member → t.dom.st = .left)) ∧
        (f.natAbs ≤ 1000 → t.tm.alignFaults = s.tm.alignFaults ∧ t.dom = s.dom))) ∧
    (u.tm.validEdge c = false → u.tm.thirdAgrees c = false → exec (.ppsEdge x) s = .next { u with
      tm := { u.tm with spurious := bump s.tm.spurious
                        badRun := ((f, c) :: s.tm.badRun).take 2 } }) ∧
    (u.tm.validEdge c = false → u.tm.thirdAgrees c = true → Runs (.ppsEdge x) s fun t =>
      t.tm.pps = .locked ∧ t.tm.spurious = bump s.tm.spurious ∧
      t.tm.offset = (if s.tm.setPending = true ∨ (s.en.on = false ∧ s.tm.pps ≠ .locked) then 0 else f))) ∧
  (∀ s : State, s.tm.pps = .locked → Runs .ppsLost s fun t => t.tm.pps = .holdover ∧
    ∀ f c, s.tm.lastValid = some (f, c) → t.tm.now = (s.tm.reach (c + 2500000000)).now)

/-! ## Stacks -/

/-- R286, R290, R293, R296..R299, R492: refresh follows the temperature; a candidate row is copied and then redirected; a
lost stack makes its keys CORRUPT and asks for replacement; the gleaner counts the blocks it reads and what it is behind. -/
def Obligations.StacksAreMaintained : Prop :=
  (∀ (s : State) (k b : Nat), k < 6 → b < 16 →
    (s.pw.part ≠ .off → s.pw.selfRefresh = false → (s.stack k).lost = false → exec (.hbmRefresh k b) s =
      .next (s.setStack k { s.stack k with fastRefresh := decide (85 < (s.stack k).temp) })) ∧
    (s.pw.part = .off ∨ s.pw.selfRefresh = true ∨ (s.stack k).lost = true → exec (.hbmRefresh k b) s = .next s)) ∧
  (∀ (s : State) (r : RowId), rowOk r = true →
    let x := s.stack r.stack
    let n := rowNum r
    (s.background = true → x.lost = false → n ∈ x.cands ∧ x.copying = none ∨ x.copying = some n → exec (.rowRemapCopy r) s =
      .next (s.setStack r.stack { x with cands := x.cands.filter (· != n), copying := some n, copied := true })) ∧
    (x.copying = some n → x.copied = true → Runs (.rowRemap r) s fun t =>
      t.stack r.stack = { x with copying := none, copied := false, remapped := x.remapped ++ [n] })) ∧
  (∀ (s : State) (k : Nat), k < 6 → s.pw.part ≠ .off →
    ((s.stack k).lost = true → exec (.stackLost k) s = .next s) ∧
    ((s.stack k).lost = false → Runs (.stackLost k) s fun t => (t.stack k).lost = true ∧
      t.hm.replace.getLsbD 2 = true ∧
      t.keys = s.keys.map fun x =>
        if x.st != .dropped && x.blocks.any (fun b => b % 6 == k) then { x with st := .corrupt } else x)) ∧
  (∀ (s : State) (k b : Nat) (ls : List LineState), k < 6 → b < 360448 → s.background = true → s.pw.part ≠ .off →
    s.pw.selfRefresh = false → (s.stack k).lost = false →
    exec (.gleanerBlockRead k b ls) s = .next (s.glean k b ls) ∧
    ((∀ l ∈ ls, l = .clean) → (s.stack k).glnDone + 1 < 360448 → Runs (.gleanerBlockRead k b ls) s fun t =>
      t.stack k = { s.stack k with glnDone := (s.stack k).glnDone + 1 } ∧ t.keys = s.keys)) ∧
  (∀ (s : State) (b l : Nat), (s.readLine b l .dead).2 =
    if s.mirrored b ∧ s.copyGood (otherCopy b) then { ok := true, retries := 3 } else { ok := false, retries := 2 }) ∧
  (∀ s : State, s.pw.part ≠ .off →
    exec .gleanerEscalate s = .next { s with
      tm := s.tm.reach (s.mem.glnStart + 72000000000000), mem := { s.mem with glnEscalated := true } } ∧
    (Runs .gleanerBehind s fun t => t.mem = { s.mem with glnBehind := true } ∧
      t.hm.bgDeferred = bump s.hm.bgDeferred ∧ t.tm = s.tm.reach (s.mem.glnStart + 86400000000000)) ∧
    (Runs (.bgBehind 3) s fun t => t.hm.bgDeferred = s.hm.bgDeferred) ∧
    (Runs (.bgBehind 4) s fun t => t.hm.bgDeferred = bump s.hm.bgDeferred))

/-! ## Health -/

namespace Sys2Proof.Stated

/-- The part has entered SAFE by a row of R485 (R486). -/
def InSafe (row : Nat) (t : State) : Prop :=
  t.pw.part = .safe ∧ t.pw.safeRow = row ∧ t.pw.faultN = true ∧ t.pw.selfRefresh = true ∧ t.runs = [] ∧
  t.sec.vaultId = false ∧ t.sec.vaultWrap = false ∧ t.sec.vaultShare = none ∧ t.sec.drbgUp = false ∧
  ∀ e ∈ t.links, e.2.st = .down ∧ e.2.session = false

end Sys2Proof.Stated

/-- R442, R473, R474, R479, R485, R486, R528, R529: a sample stops binding at 102 degrees, a stack's counting 10 more; 10 ms below 100 resume it; a cool part
steps its permitted gear up; a trip, a failed hub, or a steward without its mirror enters SAFE. -/
def Obligations.HeatAndFailuresAreAnswered : Prop :=
  (∀ (s : State) (ts : List (Nat × Int)) (ps : List (Nat × Nat)), (∀ e ∈ ts, e.1 < 16) → (∀ e ∈ ps, e.1 < 16) →
    s.pw.part ≠ .off → Rising s.dies → Runs (.tempSample ts ps) s fun t =>
      ((ts.map (·.1)).Nodup → ∀ e ∈ ts, (t.die e.1).temp = e.2 ∧ (t.die e.1).tempMax = max (s.die e.1).tempMax e.2) ∧
      (∀ k < 6, (t.die (10 + k)).temp + 10 ≤ t.hottest) ∧ (102 ≤ t.hottest → t.hm.bindStop = true) ∧ (100 ≤ t.hottest → t.hm.below100 = none) ∧
      (t.hottest < 102 → t.hm.bindStop = s.hm.bindStop) ∧ t.hm.gear = s.hm.gear) ∧
  (∀ (s : State) (n : Nat), s.hm.below100 = some n → exec .bindResume s = .next { s with
    tm := s.tm.reach (n + 10000000), hm := { s.hm with bindStop := false, below100 := none } }) ∧
  (∀ (s : State) (n : Nat), s.hm.coolSince = some n → s.hm.gearCeiling < s.hm.gear → Runs .gearStepUp s fun t =>
    t.tm = s.tm.reach (boundaryFrom (n + 10000000000)) ∧
    (s.policy 2 = true → t.hm.gear = s.hm.gear - 1) ∧ (s.policy 2 = false → t.hm.gear = s.hm.gear)) ∧
  (∀ s : State, s.pw.part ≠ .off →
    (Runs .thermtripN s fun t => t.pw.part = .safe ∧ t.pw.thermtripN = true ∧ t.pw.clocksStopped = true ∧
      (s.pw.part ≠ .safe → InSafe 4 t)) ∧
    (∀ h < 2, Runs (.hubFailure h) s fun t => (t.die (8 + h)).failed = true ∧ (s.pw.part ≠ .safe → InSafe 1 t)) ∧
    (s.hm.stewardHb1 = true → exec .stewardFailover s = .next s ∧
      Runs .stewardMirrorFailure s fun t => s.pw.part ≠ .safe → InSafe 2 t) ∧
    (s.hm.stewardHb1 = false → exec .stewardMirrorFailure s = .next { s with hm := { s.hm with mirrorFailed := true } }) ∧
    (s.hm.stewardHb1 = false → Runs .stewardFailover s fun t =>
      (s.hm.mirrorFailed = false → t.hm.stewardHb1 = true ∧ t.pw.part = s.pw.part) ∧
      (s.hm.mirrorFailed = true → s.pw.part ≠ .safe → InSafe 2 t)))

/-- R234, R460, R469, R471, R488, R491: a lost PLL fences the die, whose slots are abandoned, whose arrays lose their
contents and which no selectable variant names; a copied array answers from its spare; a spare that
fails its sweep is retired; scrubbed words are counted; a block with a wrong digest makes its key CORRUPT; queued record
entries are programmed in rank order. -/
def Obligations.DiesArraysAndRecordAreKept : Prop :=
  (∀ (s : State) (d : Nat), d < 8 → (s.pw.part ≠ .off → (s.die d).fenced = false → Rising s.arrs → Rising s.dies →
      Runs (.diePllLoss d) s fun t =>
      (t.die d).fenced = true ∧ (t.die d).stopped = true ∧ (t.die d).retiring = none ∧
      (∀ p < 64, mget {} t.arrs (slotKey d p) = {}) ∧ (∀ v : Variant, bit v.dieMask d = true → t.selectable v = false) ∧
      ((0x80 + BitVec.ofNat 8 d ∈ s.hm.fuses ∨ 0 ∈ s.hm.fuses) → 0x80 + BitVec.ofNat 8 d ∈ t.hm.fuses) ∧
      (∀ r ∈ t.runs, t.occupiesDie r d = true → r.abandoned = true) ∧
      t.hm.replace.getLsbD 1 = true) ∧
    (s.pw.part = .off ∨ (s.die d).fenced = true → exec (.diePllLoss d) s = .next s)) ∧
  (∀ (s : State) (d a p q : Nat), d < 8 → (s.die d).retiring = some (a, p, q) → s.background = true → p ≠ q →
    a < (s.die d).slotMap.length → Rising s.arrs → Rising s.dies → Runs (.retirementCopy d) s fun t =>
      (t.die d).retiring = none ∧ (t.die d).slotMap = (s.die d).slotMap.set a q ∧
      (t.die d).slotSt = ((s.die d).slotSt.set p .retired).set q .active ∧
      (t.arr ⟨d, a⟩).loft = (mget {} s.arrs (slotKey d p)).loft ∧
      (t.arr ⟨d, a⟩).istore = (mget {} s.arrs (slotKey d p)).istore) ∧
  (∀ (s : State) (d p : Nat) (ok : Bool), d < 8 → p < 68 → s.background = true →
    (s.die d).slotSt.getD p .retired = .spare → Runs (.healthSweep d p ok) s fun t =>
      (ok = true → t.dies = s.dies) ∧ (ok = false → (t.die d).slotSt = (s.die d).slotSt.set p .retired)) ∧
  (∀ (s : State) (d p row : Nat) (es : List WordErr), d < 8 → p < 68 → row < 7168 → (∀ e ∈ es, e.word < 128) →
    s.background = true →
    (s.pw.part = .off ∨ (s.die d).fenced = true → exec (.loftScrub d p row es) s = .next s) ∧
    (s.pw.part ≠ .off → (s.die d).fenced = false →
      (es = [] → exec (.loftScrub d p row es) s = .next s) ∧
      (∀ e a, es = [e] → s.arrayIn d p = some a →
        (e.corr = true → exec (.loftScrub d p row es) s = .next (s.corrected a true)) ∧
        (e.corr = false → Runs (.loftScrub d p row es) s fun t =>
          (t.arr a).cnt.loftUncorr = bump (s.arr a).cnt.loftUncorr)))) ∧
  (∀ (s : State) (n i b : Nat) (k : Key), 1 ≤ n → n ≤ 4095 → s.key? n i = some k → s.background = true →
    b < k.blocks.length → (s.digestWrong k b = false → exec (.keyRehash n i b) s = .next s) ∧
    (s.digestWrong k b = true → Runs (.keyRehash n i b) s fun t =>
      t.sec.keyDigestFails = bump s.sec.keyDigestFails ∧
      (k.st ≠ .dropped → t.key? n i = some { k with st := .corrupt }))) ∧
  (∀ (s : State) (fail : Bool) (e : PrEnt) (es : List PrEnt), sortBy recRank s.hm.prQueue = e :: es → s.pw.part ≠ .off →
    Runs (.recordProgram fail) s fun t => (∃ l, t.hm.prQueue = s.hm.prQueue.erase e ++ l) ∧
      (s.hm.prState = 2 → t.hm.prNever = bump s.hm.prNever) ∧
      (fail = false → s.hm.prState ≠ 2 → s.hm.active < s.hm.sectors.length → (activeEnts s.hm).length + 2 < 65532 →
        e ∈ activeEnts t.hm))

/-! ## Links -/

namespace Sys2Proof.Stated

/-- A frame is accepted on a link with a session: it arrives in order, whole, and with its tag (R361, R364, R366). -/
structure Accepted (s : State) (r : Rx) : Prop where
  wf : r.wf = true
  carried : (s.link r.link).carries = true
  whole : r.crcOk = true ∧ r.tagOk = true
  inOrder : r.fcnt = (s.link r.link).fcntRx
  session : (s.link r.link).session = true

/-- A link is FAILED for a reason (R372, R389). -/
def FailedFor (j reason : Nat) (t : State) : Prop := (t.link j).st = .failed ∧ (t.link j).reason = reason ∧
  (t.link j).session = false ∧ (t.link j).width = 0

/-- The frames that carry a block, its acknowledgements and nothing else. -/
def blockFrames (rx : Rx) (o : OpenBody) (p : List Byte) (es : List LackEntry) : List (Instr × FrameOut) :=
  [(.openFrame rx o, .openFrame o), (.dataFrame rx p, .data p), (.lack rx es, .lack es)]

end Sys2Proof.Stated

/-- R362, R363, R364, R366, R373, R374: a frame in order frees what its ACK covers and acts; a block's frames go onward, or
to the block open on their CHAN, or nowhere; a bad frame draws one NAK, a bad tag counts, and so does a TYPE or SUBTYPE that no table lists. -/
def Obligations.LinkFramesAreReceived : Prop :=
  (∀ (s : State) (r : Rx), Accepted s r →
    let u := s.takeFrame r
    (u.link r.link).fcntRx = (s.link r.link).fcntRx + 1 ∧ exec (.idle r) s = .next u ∧
    ((s.link r.link).txWait = [] →
      (u.link r.link).replay = (s.link r.link).replay.filter (fun f => !ackCovers r.ack f.fcnt)) ∧
    (u.link r.link).nakSent = false ∧
    (∀ o p es, ∀ e ∈ blockFrames r o p es,
      (∀ l c, u.hop r.link r.chan = .onward l c → (u.link l).up = true → exec e.1 s = .next (u.txFrame l c e.2)) ∧
      (u.hop r.link r.chan = .nowhere →
        exec e.1 s = .next (u.setLink r.link { u.link r.link with noroute := bump (u.link r.link).noroute }))) ∧
    (∀ o p es, u.hop r.link r.chan = .here →
      (blockRowLen o * o.rows ≠ 0 → exec (.openFrame r o) s = .next (u.setLink r.link
        { u.link r.link with opens := minsert (u.link r.link).opens r.chan { body := o } })) ∧
      (blockRowLen o * o.rows = 0 → exec (.openFrame r o) s = .next (u.blockDone r.link r.chan o [])) ∧
      exec (.lack r es) s = .next (es.foldl (fun u e => u.takeLack r.link r.chan e) u) ∧
      (u.openOn r.link r.chan = none → exec (.dataFrame r p) s = .next u) ∧
      (∀ b, u.openOn r.link r.chan = some b →
        let got := b.got ++ slice p 0 256
        let total := blockRowLen b.body * b.body.rows
        (got.length < total → exec (.dataFrame r p) s = .next (u.setLink r.link
          { u.link r.link with opens := minsert (u.link r.link).opens r.chan { b with got := got } })) ∧
        (total ≤ got.length → exec (.dataFrame r p) s = .next (State.blockDone (u.setLink r.link
          { u.link r.link with opens := merase (u.link r.link).opens r.chan }) r.link r.chan b.body (got.take total)))))) ∧
  (∀ (s : State) (r : Rx), r.wf = true → (s.link r.link).carries = true →
    let l := s.link r.link
    let nak : TxFrame := l.frame 0 (.lctl 1 [l.fcntRx] [])
    (r.crcOk = false ∨ r.fcnt ≠ l.fcntRx → l.nakSent = true → exec (.idle r) s = .next s) ∧
    (r.crcOk = false ∨ r.fcnt ≠ l.fcntRx → l.nakSent = false → l.replay.length < 1024 → Runs (.idle r) s fun t =>
      t.out = s.out ++ [.frame r.link nak nak.bytes] ∧ (t.link r.link).nakSent = true) ∧
    (r.crcOk = true → l.session = true → r.tagOk = false → ∀ n, Runs (.nak r n) s fun t =>
      (t.link r.link).authFail = bump l.authFail ∧ (t.link r.link).fcntRx = l.fcntRx)) ∧
  (∀ (s : State) (j : Nat), j < 32 →
    ((s.link j).carries = false → ∀ f ∈ [BadFrame.codeword j, .badType j], exec (.uncorrectableCodeword f) s = .next s) ∧
    ((s.link j).carries = true →
      (Runs (.uncorrectableCodeword (.codeword j)) s fun t => (t.link j).fecUncorr = bump (s.link j).fecUncorr ∧
        (t.link j).nakSent = true ∧ (t.link j).txErr = (s.link j).txErr + 1) ∧
      (Runs (.uncorrectableCodeword (.badType j)) s fun t => (t.link j).fecUncorr = (s.link j).fecUncorr ∧
        (t.link j).nakSent = true ∧ (t.link j).txErr = (s.link j).txErr + 1))) ∧
  (∀ (s : State) (r : Rx) (n : Nat), Accepted s r →
    (Runs (.uncorrectableCodeword (.badSubtype r none n)) s fun t =>
      (t.link r.link).txErr = (s.link r.link).txErr + 1 ∧ (t.link r.link).fcntRx = (s.link r.link).fcntRx + 1) ∧
    (∀ d bs, d.dst = s.dom.pkgAddr → Runs (.uncorrectableCodeword (.badSubtype r (some (d, bs)) n)) s fun t =>
      (t.link r.link).txErr = (s.link r.link).txErr + 1 ∧ t.dom = s.dom))

/-- R362, R364, R367, R368, R375, R376, R447: every frame that is accepted counts; what NAK, DELAY, PATH_DOWN, PATH_UP, REKEY,
HELLO and KEX do. -/
def Obligations.LinkControlActs : Prop :=
  (∀ (s : State) (r : Rx), Accepted s r →
    let u := s.takeFrame r
    let l := u.link r.link
    (∀ o p es, ∀ c ∈ [Instr.idle r, .openFrame r o, .dataFrame r p, .lack r es], Runs c s fun t =>
      (t.link r.link).fcntRx = (s.link r.link).fcntRx + 1) ∧
    (∀ n, (∀ x ∈ l.replay, x.resent < 6) → Runs (.nak r n) s fun t => (t.link r.link).retrans = bump l.retrans ∧
      t.out = u.out ++ (l.replay.filter fun x => decide (n ≤ x.fcnt)).map fun x =>
        let y := { x with resent := x.resent + 1 }
        .frame r.link y y.bytes) ∧
    (∀ n, (∃ x ∈ l.replay, n ≤ x.fcnt ∧ 6 ≤ x.resent) → Runs (.nak r n) s fun t => FailedFor r.link 3 t) ∧
    (∀ a b c d : Nat, b ≠ 0 → l.st ≠ .training →
      let m : Int := ((c : Int) - b + ((d : Int) - a)) / 2
      ((∀ e, u.linkEnt r.link = some e → m ≤ (e.maxDelay : Int)) → Runs (.delayFrame r a b c d) s fun t =>
        (t.link r.link).delay = m.toNat ∧ (t.link r.link).offset = ((c : Int) - b - ((d : Int) - a)) / 2 ∧
        (t.link r.link).missed = 0) ∧
      ((∃ e, u.linkEnt r.link = some e ∧ (e.maxDelay : Int) < m) → Runs (.delayFrame r a b c d) s fun t =>
        FailedFor r.link 7 t)) ∧
    (∀ a c d : Nat, l.st ≠ .training →
      exec (.delayFrame r a 0 c d) s = .next (u.setLink r.link { l with dlyTx := a, dlyRx := d, missed := 0 })) ∧
    (∀ c n, u.ownPath r.link c = true → Runs (.pathDown r c n) s fun t => (r.link, c) ∈ t.dom.down) ∧
    (∀ c e, (r.link, c) ∈ u.dom.down → Runs (.pathUp r c e) s fun t => (r.link, c, e) ∈ t.dom.upAt) ∧
    (∀ b : RekeyBody, b.answer = false → u.linkLo r.link = false → Runs (.rekey r b) s fun t =>
      (t.link r.link).rekey = some { key := 0, lohi := b.switchLoHi, hilo := b.switchHiLo, peerEpk := some b.epk }) ∧
    (∀ (b : RekeyBody) (k : RekeyRun), b.answer = true → u.linkLo r.link = true → l.rekey = some k → k.peerEpk = none →
      Runs (.rekey r b) s fun t =>
        (b.switchLoHi = k.lohi ∧ b.switchHiLo = k.hilo → (t.link r.link).rekey = some { k with peerEpk := some b.epk }) ∧
        (¬(b.switchLoHi = k.lohi ∧ b.switchHiLo = k.hilo) → (t.link r.link).rekey = none))) ∧
  (∀ (s : State) (r : Rx) (h : HelloBody), r.wf = true → (s.link r.link).carries = true → r.crcOk = true →
    r.fcnt = (s.link r.link).fcntRx → (s.link r.link).session = false → (s.link r.link).st = .training →
    ((s.link r.link).step = 4 → s.kexReady = true → Runs (.hello r h) s fun t =>
      (t.link r.link).peerPkg = h.pkg ∧ (t.link r.link).peerLink = h.link ∧ (t.link r.link).helloIn = some h ∧
      (t.link r.link).step = 5) ∧
    ((s.link r.link).step = 4 → s.kexReady = false → (s.link r.link).attempts < 9 → Runs (.hello r h) s fun t =>
      (t.link r.link).attempts = (s.link r.link).attempts + 1) ∧
    (∀ n last bs, (s.link r.link).step = 5 → (s.link r.link).kexFrag = n → Runs (.kex r n last bs) s fun t =>
      (t.link r.link).kexIn = (s.link r.link).kexIn ++ bs)) ∧
  (∀ (s : State) (r : Rx) (h : HelloBody) (n : Nat) (last : Bool) (bs : List Byte), r.wf = true →
    (s.link r.link).carries = true → r.crcOk = true → (s.link r.link).session = true →
    exec (.hello r h) s = .next (s.tagFailed r.link) ∧ exec (.kex r n last bs) s = .next (s.tagFailed r.link))

/-- R350, R366, R368, R369, R370, R371, R372, R504, R506: training starts, waits for signal, and is tried again with the wait and
the attempts counted; lost lanes narrow a link or fail it; a bad codeword takes no FCNT; lost lock, failed tags and exhausted keys take it down; a rekey starts,
retries and switches each direction at its FCNT. -/
def Obligations.LinksTrainFailAndRekey : Prop :=
  (∀ (s : State) (j : Nat), j < 32 → s.pw.part ≠ .off →
    let l := s.link j
    let trains (t : State) : Prop := (t.link j).st = .training ∧ (t.link j).step = 4 ∧ (t.link j).fcntTx = 1 ∧
      (t.link j).fcntRx = 0 ∧ (t.link j).session = false
    let x : TrainRef := { link := j }
    (∀ y : TrainRef, y.link = j → s.pw.part = .safe ∨ s.pw.noRefclk = true ∨ l.started = true →
      exec (.linkStart y) s = .next s) ∧
    (l.carries = true → ∀ f ∈ [BadFrame.codeword j, .badType j], Runs (.uncorrectableCodeword f) s fun t =>
      (t.link j).fcntRx = l.fcntRx) ∧
    (s.pw.part ≠ .safe → s.pw.noRefclk = false → l.started = false →
      (4 ≤ l.lanes → Runs (.linkStart x) s fun t => trains t ∧ (t.link j).started = true ∧ (t.link j).attempts = 0) ∧
      (l.lanes < 4 → Runs (.linkStart x) s fun t => FailedFor j 2 t) ∧
      (∀ y : TrainRef, y.link = j → y.signal ≠ 0xFF → Runs (.linkStart y) s fun t => (t.link j).st = .training ∧
        (t.link j).step = 1 ∧ (t.link j).nrWait = if y.signal = 3 ∧ y.prbs7 = true then 50 else 0)) ∧
    (l.started = true → l.st = .training →
      (∀ y : TrainRef, y.link = j → l.step ≠ 1 → exec (.notReadyWaitExpiry y) s = .next s) ∧
      (∀ y : TrainRef, y.link = j → y.signal ≠ 0xFF → l.step = 1 → Runs (.notReadyWaitExpiry y) s fun t =>
        (t.link j).step = 1 ∧ (t.link j).nrWait =
          if y.signal = 3 ∧ y.prbs7 = true then (if l.nrWait = 0 then 50 else min 800 (2 * l.nrWait)) else l.nrWait) ∧
      (4 ≤ l.lanes →
        (l.step = 1 → (Runs (.notReadyWaitExpiry x) s fun t => trains t ∧ (t.link j).nrWait = l.nrWait) ∧
          (l.attempts < 9 → Runs (.notReadyWaitExpiry { x with lock := false }) s fun t =>
            (t.link j).attempts = l.attempts + 1 ∧ (t.link j).step = 0) ∧
          (∀ n < 8, l.lanes = 4 → l.badLanes.contains (n / 2 * 2) = false → l.badLanes.contains (n / 2 * 2 + 1) = false →
            Runs (.notReadyWaitExpiry { x with weak := [n] }) s fun t => FailedFor j 2 t)) ∧
        (l.step ≤ 1 → Runs (.trainingRetry x) s fun t => trains t ∧ (t.link j).attempts = l.attempts) ∧
        (1 < l.step → l.attempts < 9 → Runs (.trainingRetry x) s fun t => trains t ∧
          (t.link j).attempts = l.attempts + 1) ∧
        (1 < l.step → 9 ≤ l.attempts → Runs (.trainingRetry x) s fun t => FailedFor j 1 t))) ∧
    (∀ b : Bool, l.session = true → 4 ≤ l.lanes →
      2 ^ 48 - 2 ^ 20 ≤ (if b then l.fcntTx - l.keyTx else l.fcntRx - l.keyRx) + 1 →
      Runs (.scntHalt j b) s fun t => trains t)) ∧
  (∀ (s : State) (j lane : Nat), j < 32 → lane < 8 → (s.link j).up = true →
    let l := { s.link j with
      badLanes := (lane / 2 * 2 :: (lane / 2 * 2 + 1) :: (s.link j).badLanes).eraseDups }
    (s.minLanes j ≤ l.lanes → Runs (.laneFailure j lane) s fun t =>
      t.link j = { l with st := .degraded, width := l.lanes }) ∧
    (l.lanes < s.minLanes j → Runs (.laneFailure j lane) s fun t => FailedFor j 2 t)) ∧
  (∀ (s : State) (j : Nat), j < 32 →
    (s.plan.any (·.domain) = true → (s.linkEnt j).isSome = true → (s.link j).up = true →
      Runs (.flockLoss j) s fun t => FailedFor j 6 t) ∧
    (s.plan.any (·.domain) = false ∨ s.linkEnt j = none ∨ (s.link j).up = false →
      exec (.flockLoss j) s = .next (s.setLink j { s.link j with flocked := false })) ∧
    ((s.link j).carries = true → 16 < ((s.link j).tagFails.filter fun t => decide (s.tm.now < t + 1000000000)).length →
      Runs (.authFailLimit j) s fun t => FailedFor j 4 t) ∧
    (s.rekeyDue j = true → (s.link j).rekey = none → s.sigPending (.linkRekey j) = false →
      (s.kexReady = true → Runs (.rekeyStart j) s fun t => t.sigPending (.linkRekey j) = true) ∧
      (s.kexReady = false → exec (.rekeyStart j) s = .next s)) ∧
    (s.rekeyDue j = true ∨ (s.link j).rekey.isSome = true → Rising s.links → Runs (.rekeyRetry j) s fun t =>
      (t.link j).rekey = none) ∧
    (∀ r keys th, (s.link j).rekey = some r → s.rekeyKeys j = some (keys, th) → Rising s.links →
      let fx := if s.linkLo j then r.lohi else r.hilo
      let fr := if s.linkLo j then r.hilo else r.lohi
      (fx ≤ (s.link j).fcntTx → (s.link j).keyTx ≠ fx → Runs (.sessionKeySwitch j true) s fun t =>
        (t.link j).keyTx = fx ∧ (t.link j).keys = [keys.getD 0 [], (s.link j).keys.getD 1 []] ∧
        ((s.link j).keyRx = fr → (t.link j).rekey = none ∧ (t.link j).rekeys = bump (s.link j).rekeys)) ∧
      (fr ≤ (s.link j).fcntRx → (s.link j).keyRx ≠ fr → Runs (.sessionKeySwitch j false) s fun t =>
        (t.link j).keyRx = fr ∧ (t.link j).keys = [(s.link j).keys.getD 0 [], keys.getD 1 []])))

/-! ## The schedule domain -/

namespace Sys2Proof.Stated

/-- A domain-control message for this package is accepted and acted on: its frame is, it is no duplicate, and the part
runs (R383). -/
structure ForMe (s : State) (r : Rx) (d : DHdr) : Prop where
  frame : Accepted s r
  here : d.dst = s.dom.pkgAddr
  fresh : s.isDuplicate d = false
  runs : s.running = true

/-- The state in which such a message acts: the frame is taken and the message's MSEQ noted. -/
def noted (s : State) (r : Rx) (d : DHdr) : State :=
  { s.takeFrame r with dom := { s.dom with mseqIn := mset 0 s.dom.mseqIn d.src (d.mseq % 65536 + 1) } }

/-- This package is a member of the domain that d's sender leads. -/
def FromLead (s : State) (d : DHdr) : Prop := s.dom.st = .member ∧ d.src = s.dom.lead

/-- A message of each subtype that a lead sends, with a header. -/
def leadMessages (r : Rx) (d : DHdr) (a b : Nat) (es : List BindEntry) (ms : List Nat) : List Instr :=
  [.admitJob r d a b, .bind r d a b es, .tick r d a b 0 ms, .vannounce r d a b 0, .abandon r d a b 0, .failjob r d a b 0 0,
   .refuse r d a b]

end Sys2Proof.Stated

/-- R383: a duplicate changes nothing but what any accepted frame changes; a message that another package sent is acted on
only by the lead's members. -/
def Obligations.DomainMessagesAreFiltered : Prop :=
  (∀ (s : State) (r : Rx) (d : DHdr) (a b : Nat) (es : List BindEntry) (ms : List Nat) (bs : List Byte), Accepted s r →
    d.dst = s.dom.pkgAddr →
    (s.isDuplicate d = true → ∀ c ∈ leadMessages r d a b es ms ++ [.join r d a bs, .accept r d a b ms, .ready r d a b 0,
      .leave r d a, .resident r d a b 0, .vdecide r d a b, .vack r d a b, .qreq r d, .qreport r d a true []],
      exec c s = .next (s.takeFrame r)) ∧
    (ForMe s r d → ¬FromLead s d → s.isLead = false → ∀ c ∈ leadMessages r d a b es ms, exec c s = .next (noted s r d))) ∧
  (∀ (s : State) (r : Rx) (d : DHdr) (a b l : Nat) (ms : List Nat), Accepted s r → d.dst ≠ s.dom.pkgAddr →
    (s.takeFrame r).dctlLink d.dst = some l → ((s.takeFrame r).link l).up = true →
    ((s.takeFrame r).link l).session = true → exec (.tick r d a b 0 ms) s =
      .next ((s.takeFrame r).txFrame l 0 (.dctl d 8 [a, b, 0, memberMask ms])))

/-- R340, R380, R384, R387, R390: joining, acceptance and refusal, and leaving. -/
def Obligations.PackagesJoinAndLeave : Prop :=
  (∀ (s : State) (r : Rx) (d : DHdr), ForMe s r d →
    (∀ n bs (p : Plan), s.isLead = true → s.plan = some p → Runs (.join r d n bs) s fun t =>
      (p.domainDigest = bs → d.src ∉ s.dom.members → t.dom.members = s.dom.members ++ [d.src]) ∧
      (p.domainDigest ≠ bs ∨ d.src ∈ s.dom.members → t.dom.members = s.dom.members)) ∧
    (s.dom.st = .joining → d.src = s.dom.lead →
      (∀ e n ms, Runs (.accept r d e n ms) s fun t => t.dom.members = ms ∧ t.dom.firstEpoch = e ∧ t.dom.lead = d.src ∧
        (s.en.on = true → t.dom.st = .member ∧ t.tm = s.tm) ∧
        (s.en.on = false → t.en.accepted = true ∧ t.tm.timeSet = n ∧
          (s.tm.pps = .locked → t.tm.setPending = true ∧ t.tm.now = s.tm.now) ∧
          (s.tm.pps ≠ .locked → t.tm.now = n))) ∧
      (∀ n, Runs (.joinRefused r d n) s fun t =>
        (s.en.on = true → t.dom.st = .left) ∧
        (s.en.on = false → t.dom.st = .standalone ∧ t.en.st = 3 ∧
          t.en.reason = if n = 0x40 ∨ n = 0x43 then n else 0x44))) ∧
    (∀ n, s.isLead = true → Runs (.leave r d n) s fun t => d.src ∉ t.dom.members)) ∧
  (∀ s : State, s.dom.st = .joining → s.en.accepted = false → Runs .acceptTimeout s fun t =>
    (s.en.on = true → t.dom.st = .left) ∧ (s.en.on = false → t.dom.st = .standalone ∧ t.en.st = 3 ∧ t.en.reason = 0x44)) ∧
  (∀ (s : State) (p : Plan), s.plan = some p → p.domain = true → s.dom.st = .left →
    (s.working = true → s.en.st = 2 → Runs .domainRejoin s fun t => t.dom.st = .joining ∧
      t.dom.lead = if s.dom.lead = s.dom.pkgAddr then s.dom.deputy else s.dom.lead) ∧
    (s.working = false ∨ s.en.st ≠ 2 → exec .domainRejoin s = .next s))

/-- R381, R387, R388: READY is noted at the lead; an admitted job takes its RECEIPT and its ASEQ; a refused one leaves; a
deputy takes over a lead whose TICK stays away, and collects the queues. -/
def Obligations.DomainJobsAreAdmitted : Prop :=
  (∀ (s : State) (r : Rx) (d : DHdr), ForMe s r d →
    (∀ j p n, s.isLead = true → Runs (.ready r d j p n) s fun t => ∃ l ∈ t.dom.leadJobs, l.jobId = j ∧ d.src ∈ l.ready) ∧
    (∀ j c, s.isLead = true → (∀ l ∈ s.dom.leadJobs, l.jobId = j → l.aseq = none) → Runs (.refuse r d j c) s fun t =>
      ∀ l ∈ t.dom.leadJobs, l.jobId ≠ j) ∧
    (∀ j c, s.isLead = false → FromLead s d → exec (.refuse r d j c) s = .next ((noted s r d).refuseDomain j)) ∧
    (∀ j n k, FromLead s d → s.jobs.find? (fun x => x.domain && x.jobId == j && x.st == .pending) = some k →
      Runs (.admitJob r d j n) s fun t => ∃ x ∈ t.jobs, x.idx = k.idx ∧ x.jobId = j ∧ x.st = .queued ∧ x.aseq = n ∧
        x.receipt = some s.tm.now) ∧
    (∀ n last es, s.isLead = true → (s.dom.qcollect = none → exec (.qreport r d n last es) s = .next (noted s r d)) ∧
      (s.dom.qcollect.isSome = true → Runs (.qreport r d n last es) s fun t => t.dom.qcollect = none ∨
        ∃ w a, t.dom.qcollect = some (w, a) ∧ (last = true → d.src ∈ w) ∧ ∀ e ∈ es, e.2 ≠ 0 → e ∈ a)) ∧
    (s.dom.st = .member → d.src = s.dom.deputy ∨ d.src = s.dom.lead → Runs (.qreq r d) s fun t =>
      t.dom.lead = d.src ∧ t.dom.noTick = 0)) ∧
  (∀ (s : State) (j : Nat) (l : LeadJob) (p : Route), s.isLead = true → s.route = some p →
    s.dom.leadJobs.find? (fun x => x.jobId == j && x.aseq.isNone) = some l →
    (∀ x ∈ s.dom.leadJobs, x.jobId = j → x.aseq = none) → Runs (.admitWaitExpiry j) s fun t =>
      t.tm = s.tm.reach ((l.since + p.admitWait) * 1000000) ∧ ∀ x ∈ t.dom.leadJobs, x.jobId ≠ j) ∧
  (∀ s : State, s.dom.st = .member → s.isLead = false → 100 ≤ s.dom.noTick → Runs .leadLost s fun t =>
    (s.dom.deputy = s.dom.pkgAddr → t.dom.lead = s.dom.pkgAddr ∧ t.dom.noTick = 0 ∧ s.dom.lead ∉ t.dom.members) ∧
    (s.dom.deputy ≠ s.dom.pkgAddr → s.dctlLink s.dom.deputy = none → t.dom.st = .left ∧ t.dom.leaveReason = 3) ∧
    (∀ j, s.dom.deputy ≠ s.dom.pkgAddr → s.dom.deputy ≠ s.dom.lead → s.dctlLink s.dom.deputy = some j →
      (s.link j).up = true → t.dom.lead = s.dom.deputy ∧ t.dom.st = .member))

/-- R315, R326, R384, R385, R386, R412: what BIND, TICK, RESIDENT, VDECIDE, VANNOUNCE, VACK, ABANDON and FAILJOB change. -/
def Obligations.DomainMessagesAct : Prop :=
  ∀ (s : State) (r : Rx) (d : DHdr), ForMe s r d →
    let u := noted s r d
    (FromLead s d →
      (∀ e n es, exec (.bind r d e n es) s = .next { u with dom := { u.dom with
        binds := (s.dom.binds.filter fun m => !(m.epoch == e && m.slot == n)) ++ [{ epoch := e, slot := n, es := es }] } }) ∧
      (∀ a b c ms, exec (.tick r d a b c ms) s =
        .next { u with dom := { u.dom with lead := a, deputy := b, members := ms, noTick := 0 } }) ∧
      (∀ o v e, Runs (.vannounce r d o v e) s fun t => t.vs.announced = (o, v, e) :: s.vs.announced.filter fun a => a.1 != o) ∧
      (s.isLead = false → ∀ j n c k, s.jobs.find? (fun x => x.domain && x.jobId == j && x.inc == n &&
          (x.st == .bound || x.st == .queued)) = some k → Runs (.abandon r d j n c) s fun t =>
        ∃ x, t.job? k.idx = some x ∧ x.st ≠ .bound) ∧
      (s.isLead = false → ∀ j n c x k q, s.jobs.find? (fun x => x.domain && x.jobId == j && x.inc == n && x.st == .bound) =
          some k → u.runOfJob k.idx = some q → (∀ b ∈ q.bad, b.1 ≠ k.bpos) →
        exec (.failjob r d j n c x) s = .next (u.modRun q fun y => { y with bad := y.bad ++ [(k.bpos, x)] }))) ∧
    (s.isLead = true →
      (∀ a b c, Runs (.resident r d a b c) s fun t => (c = 1 → (d.src, a, b) ∈ t.dom.resident) ∧
        (c ≠ 1 → (d.src, a, b) ∉ t.dom.resident)) ∧
      (∀ v e, Runs (.vdecide r d v e) s fun t =>
        t.vs.announced = (d.src, v, e) :: s.vs.announced.filter fun a => a.1 != d.src) ∧
      (∀ o e, Runs (.vack r d o e) s fun t => (d.src, o, e) ∈ t.dom.vacks))

/-! ## Keys, shares and the security controller -/

namespace Sys2Proof.Stated

/-- The state after the engine has ended its operation: its operand memory is wiped (R454). -/
def engineFree (s : State) : State := { s with sec := { s.sec with sigBusy := none, operands := false } }

end Sys2Proof.Stated

/-- R127, R128, R456, R459, R463: an upload is stored whole or refused; an offer expires; a partial decryption is refused
while the entropy source or the identity is missing, and one that is served counts and keeps its counter. -/
def Obligations.UploadsSharesAndDecryptionsEnd : Prop :=
  (∀ (s : State) (n : Nat), 1 ≤ n → n ≤ 4095 → n ∈ s.uploads → s.sigPending (.manifest n) = false → Rising s.tenants →
    let x := s.tenant n
    (x.upFault = true ∨ s.tenantRead n x.manAddr x.manLen = none → Runs (.keyUploadDone n) s fun t =>
      (t.tenant n).keyLoad = 4 ∧ n ∉ t.uploads ∧ t.keys = s.keys) ∧
    (∀ m, x.upFault = false → s.tenantRead n x.manAddr x.manLen = some m →
      (∀ e, s.checkUpload n m = .error e → Runs (.keyUploadDone n) s fun t =>
        (t.tenant n).keyLoad = 4 ∧ (t.tenant n).keyReason = e.1 ∧ (t.tenant n).keyDetail = e.2 ∧ n ∉ t.uploads ∧
        t.keys = s.keys ∧ t.gran = s.gran) ∧
      (∀ v data, s.checkUpload n m = .ok v → s.tenantRead n x.dataAddr (field v.1 64 8) = some data →
        badBlock v.1 data = none → Runs (.keyUploadDone n) s fun t =>
          (t.tenant n).keyLoad = 3 ∧ (t.tenant n).manSerial = field v.1 12 4 ∧ n ∉ t.uploads ∧
          ∀ e ∈ (manEntries v.1).zip v.2.2, ∃ k ∈ t.keys, k.tenant = n ∧ k.id = e.1.id ∧ k.kind = e.1.kind ∧
            k.st = .usable ∧ k.blocks = e.2))) ∧
  (∀ (s : State) (n : Nat) (o : Offer), 1 ≤ n → n ≤ 4095 → (s.tenant n).offer = some o → Rising s.tenants →
    Runs (.shareOfferExpiry n) s fun t => t.tm = s.tm.reach (o.time + 600000000000) ∧
      t.tenant n = { s.tenant n with offer := none, offerSt := if (s.tenant n).offerSt = 2 then 0 else (s.tenant n).offerSt }) ∧
  (∀ (s : State) (n : Nat) (ns : List Nat), s.sec.pdecQueue = n :: ns → s.sigPending (.pdec n) = false → Rising s.tenants →
    let x := s.tenant n
    let refused (code : Nat) : Prop := Runs .partialDecryption s fun t =>
      (t.tenant n).pdecRun = 4 ∧ (t.tenant n).pdecReason = code ∧ n ∉ t.sec.pdecQueue ∧
      (t.tenant n).pdecCounter = x.pdecCounter ∧ t.hostMem = s.hostMem
    (s.entropyOk = false → refused 0x52) ∧ (s.entropyOk = true → s.identityOk = false → refused 0x53) ∧
    (s.entropyOk = true → s.identityOk = true → x.pdecFault = true → refused 0x5A) ∧
    (∀ m p h k c1, s.entropyOk = true → s.identityOk = true → x.pdecFault = false →
      s.tenantRead n x.pdecAddr (192 + sigLen x.vkeyAlg) = some m → s.plan = some p → x.share = some h →
      (pdecFormOk m n = false → refused 0x54) ∧
      (pdecFormOk m n = true → tenantSigOk m x = false → refused 0x55) ∧
      (pdecFormOk m n = true → tenantSigOk m x = true → (pdecReqOf m).counter ≤ x.pdecCounter → refused 0x56) ∧
      (pdecFormOk m n = true → tenantSigOk m x = true → x.pdecCounter < (pdecReqOf m).counter →
        s.psetOfDigest h.psetDigest = some k → (pdecReqOf m).digest = h.psetDigest → (p.psets.getD k {}).scheme ≤ 2 →
        pdecRangeOk p (p.psets.getD k {}) (pdecReqOf m) = true →
        s.tenantRead n (pdecReqOf m).c1 ((pdecReqOf m).level * 4 * 2 ^ (p.psets.getD k {}).logn) = some c1 →
        sha384 c1 = (pdecReqOf m).c1Digest →
        (∀ q ∈ (chainPrimes p (p.psets.getD k {}) (pdecReqOf m).level).zipIdx,
          ∀ w ∈ hostLimb c1 (2 ^ (p.psets.getD k {}).logn) q.2, w < q.1) →
        s.hostFaults = [] → Runs .partialDecryption s fun t =>
          (t.tenant n).pdecRun = 3 ∧ (t.tenant n).pdecReason = 0 ∧ (t.tenant n).pdecCounter = (pdecReqOf m).counter ∧
          (t.tenant n).pdecCount = bump x.pdecCount ∧ n ∉ t.sec.pdecQueue)))

/-- R442, R443, R450, R453, R454: the engine's end, its mismatches and its failure; the entropy source's failure and retest;
a lost secret of the vault; a boundary-scan instruction. -/
def Obligations.SecurityEventsAct : Prop :=
  (∀ (s : State) (op : SigOp) (b : Bool), s.sec.sigBusy = some op →
    (b = false ∨ op.isPrivate = false → exec (.signetOperationDone b) s =
      .next ((engineFree s).sigFinish op true).sigStart) ∧
    (b = true → op.isPrivate = true → Runs (.signetOperationDone b) s fun t =>
      t.sec.mismatch = bump s.sec.mismatch ∧ (8 ≤ bump s.sec.mismatch → t.sec.signetFailed = true))) ∧
  (∀ s : State, (s.pw.part = .off ∨ s.sec.entropy = .failed → exec .entropyFail s = .next s) ∧
    (s.pw.part ≠ .off → s.sec.entropy ≠ .failed → Rising s.tenants → Runs .entropyFail s fun t =>
      t.sec.entropyFails = bump s.sec.entropyFails ∧ t.sec.drbgUp = false ∧
      t.sec.entropy = (if 16 ≤ bump s.sec.entropyFails then .failed else .unhealthy) ∧
      (s.sec.hmRun = 1 → t.sec.hmRun = 3 ∧ t.sec.hmReason = 0x52) ∧
      ∀ n, (s.tenant n).offerSt = 1 → (t.tenant n).offerSt = 3)) ∧
  (∀ (s : State) (b : Bool), s.sec.entropy = .unhealthy →
    (b = false ∨ s.pw.part = .off → exec (.entropyRetest b) s = .next s) ∧
    (b = true → s.pw.part ≠ .off → Runs (.entropyRetest b) s fun t => t.sec.entropy = .healthy ∧ t.sec.drbgUp = true ∧
      t.sec.drbgReseeds = bump s.sec.drbgReseeds)) ∧
  (∀ s : State, (∀ i ∈ [VaultItem.identityKey, .wrapKey], exec (.vaultUncorrectable i) s = .next s) ∧
    (∀ j < 32, ((s.link j).session = false → exec (.vaultUncorrectable (.linkSession j)) s = .next s) ∧
      ((s.link j).session = true → 4 ≤ (s.link j).lanes → Runs (.vaultUncorrectable (.linkSession j)) s fun t =>
        (t.link j).st = .training ∧ (t.link j).session = false)) ∧
    (s.sec.vaultShare = none → exec (.vaultUncorrectable .share) s = .next s) ∧
    (∀ n, s.sec.vaultShare = some n → Rising s.tenants → Runs (.vaultUncorrectable .share) s fun t =>
      (t.tenant n).pdecRun = 4 ∧ (t.tenant n).pdecReason = 0x59 ∧ t.sec.vaultShare = none) ∧
    (s.sec.drbgUp = true → Runs (.vaultUncorrectable .drbg) s fun t => t.sec.drbgReseeds = bump s.sec.drbgReseeds ∧
      t.sec.drbgCalls = 0) ∧
    (s.sec.drbgUp = false → exec (.vaultUncorrectable .drbg) s = .next s)) ∧
  (∀ s : State, (∀ i ∈ [JtagInstr.bypass, .idcode, .samplePreload], exec (.jtagInstruction i) s = .next s) ∧
    (s.pw.part = .off → exec (.jtagInstruction .other) s = .next s) ∧
    (s.pw.part ≠ .off → Runs (.jtagInstruction .other) s fun t => t.pw.keysBlocked = true ∧ t.sec.vaultId = false ∧
      (s.pw.part ≠ .safe → InSafe 3 t)))

/-! ## Power, resets, boot -/

namespace Sys2Proof.Stated

/-- A request reaches its entry: the requester is answered, the part is past BOOT and not in SAFE, and the entry of this
right lies in the requester's reach (R421, R424, R425). -/
structure Heard (s : State) (q : Requester) (index sub : Nat) (write : Bool) (r : Right) : Prop where
  answered : s.answers q = true
  open' : s.running = true
  reached : s.reaches q index sub write r = true

/-- The last thing sent is the answer to a request. -/
def Answered (q : Requester) (status index sub : Nat) (value : List Byte) (t : State) : Prop :=
  t.out.getLast? = some (.response q status index sub value)

/-- A request that is answered by a status and changes nothing. -/
def OnlyAnswers (c : Instr) (s : State) (q : Requester) (status index sub : Nat) : Prop :=
  exec c s = .next { s with out := s.out ++ [.response q status index sub []] }

end Sys2Proof.Stated

/-- R295, R485, R487, R490, R499, R502, R503, R504, R507, R509..R511, R517, R529: a firmware slot is verified by its header;
power-up and the two resets bring BOOT and keep what they keep; BOOT ends in STANDBY with the fused dies fenced, or in SAFE without a hub. -/
def Obligations.ResetsAndBoot : Prop :=
  (∀ (s : State) (e : BootEnv),
    let cold (cause : Nat) (t : State) : Prop := t.pw.part = .boot ∧ t.pw.resetCause = cause ∧ t.plan = none ∧
      t.jobs = [] ∧ t.keys = [] ∧ t.runs = [] ∧ t.gran = [] ∧ t.arrs = [] ∧ t.tenants = [] ∧ t.streams = [] ∧
      t.tm.now = 0 ∧ t.hm.evts = [] ∧ t.hm.fuses = s.hm.fuses ∧ t.hm.sectors = s.hm.sectors ∧ t.hostMem = s.hostMem
    let warm (cause : Nat) (t : State) : Prop := t.pw.part = .boot ∧ t.pw.resetCause = cause ∧ t.pw.warm = true ∧
      t.runs = [] ∧ t.gran = s.gran ∧ t.hm.evts = s.hm.evts ∧
      t.hm.fuses = s.hm.fuses ∧ t.hm.sectors = s.hm.sectors ∧ t.en.on = false ∧ t.en.replay = true ∧
      t.sec.vaultId = false ∧ t.sec.drbgUp = false ∧ (e.loading = true ∧ s.pc.load = 1 → t.plan = none) ∧
      (e.loading = false ∨ s.pc.load ≠ 1 → t.plan = s.plan ∧ t.jobs = (s.reopenJobs (List.range 8) fun _ => true).jobs ∧
        t.keys = s.keys.map fun k => { k with resident := false })
    (s.pw.part ≠ .off → exec (.pwrgoodAssert e) s = .next s) ∧
    (s.pw.part = .off → Runs (.pwrgoodAssert e) s (cold 4)) ∧
    (Runs .pwrgoodDeassert s fun t => t.pw.part = .off ∧ t.plan = none ∧ t.jobs = [] ∧ t.keys = [] ∧ t.gran = [] ∧
      t.hm.fuses = s.hm.fuses ∧ t.hm.sectors = s.hm.sectors ∧ t.hostMem = s.hostMem) ∧
    (s.perstAllowed = true → Runs (.perstBothWarmReset e) s fun t => warm 3 t ∧ t.ports = [] ∧
      t.tm = { s.tm with dueStep := none }) ∧
    (s.perstAllowed = false → s.pw.part ≠ .off → Runs (.perstBothWarmReset e) s fun t => t.pw = s.pw ∧ t.ports = []) ∧
    (s.pw.part = .off → exec (.perstBothWarmReset e) s = .next s) ∧
    (∀ q, s.pw.part ≠ .off → (s.pw.resetDue = 1 ∨ Heard s q 0x2000 6 true .cmd) → Runs (.resetCmdCold q e) s (cold 1)) ∧
    (∀ q, s.warmAllowed = true → (s.pw.resetDue = 2 ∨ Heard s q 0x2000 6 true .cmd) → Runs (.resetCmdWarm q e) s fun t =>
      warm 2 t ∧ t.tm.now = (s.tm.reach (s.tm.now + 1000000)).now)) ∧
  (∀ (f : FwSlot) (m v : Nat), fwSvn f m = some v ↔ (f.header.length = 4096 ∧
    slice f.header 0 4 = [0x4B, 0x46, 0x46, 0x57] ∧ field f.header 4 2 = 1 ∧ (∀ b ∈ f.header.drop 208, b = 0) ∧
    field f.header 8 4 + field f.header 12 4 ≤ 4194304 ∧ f.steward.length = field f.header 8 4 ∧
    f.security.length = field f.header 12 4 ∧ sha384 f.steward = slice f.header 16 48 ∧
    sha384 f.security = slice f.header 64 48 ∧ f.sigOk = true ∧ m ≤ v ∧ v = field f.header 6 2)) ∧
  (∀ s : State, s.pw.part = .boot → s.pw.stage ≠ 0xF → s.pw.thermalHold = false →
    (s.pw.env.hubFail = true → Runs .bootComplete s (InSafe 1)) ∧
    (s.pw.env.hubFail = false → Runs .bootComplete s fun t => t.pw.part = .standby ∧ t.pw.stage = 6 ∧
      t.pw.selfRefresh = false ∧ t.tm.refclk = s.pw.env.refclk ∧ t.hm.gear = s.hm.gearCeiling ∧
      ∀ d < 8, BitVec.ofNat 8 (0x80 + d) ∈ s.hm.fuses → (t.die d).fenced = true)) ∧
  (∀ s : State, s.pw.part = .boot → s.pw.thermalHold = true → (∀ x ∈ s.temps, x < 95) →
    exec .thermalBootHoldRelease s = .next { s with pw := { s.pw with thermalHold := false } }) ∧
  (∀ (s : State) (e : BootEnv), s.pw.noRefclk = true → s.pw.part ≠ .off → Runs (.refclkLock e) s fun t =>
    t.tm.refclk = .locked ∧ t.pw.noRefclk = false ∧ t.tm.now = s.tm.now)

/-! ## Enabling and plans -/

/-- R380, R390, R431, R432, R433, R484: DEVICE_ENABLE starts the check, its end enables the part or names the first test
that fails, and a disable returns to STANDBY when no slot is bound. -/
def Obligations.TheDeviceEnablesAndDisables : Prop :=
  (∀ (s : State) (q : Requester), Heard s q 0x2000 1 true .rw →
    (s.en.st = 1 ∨ s.en.st = 4 → OnlyAnswers (.deviceEnableSet q) s q 5 0x2000 1) ∧
    (s.en.st ≠ 1 → s.en.st ≠ 4 → s.en.on = true → OnlyAnswers (.deviceEnableSet q) s q 0 0x2000 1) ∧
    (s.en.st ≠ 1 → s.en.st ≠ 4 → s.en.on = false → Runs (.deviceEnableSet q) s fun t =>
      Answered q 0 0x2000 1 [] t ∧ t.en.st = 1 ∧ t.en.on = false ∧
      (s.domainPlan = false → t.dom = s.dom) ∧
      (s.domainPlan = true → s.firstTests = none → t.dom.st = .joining)) ∧
    (s.en.st ≠ 2 → OnlyAnswers (.deviceEnableClear q) s q 0 0x2000 1) ∧
    (s.en.st = 2 → Runs (.deviceEnableClear q) s fun t => Answered q 0 0x2000 1 [] t ∧ t.en.st = 4 ∧
      (s.dom.st = .member → t.dom.st = .left ∧ t.dom.leaveReason = 4))) ∧
  (∀ s : State, s.en.st = 1 → ¬(s.dom.st = .joining ∧ s.en.accepted = false) →
      ¬(s.en.accepted = true ∧ s.tm.setPending = true) →
    let refused (e : Nat × Nat) : Prop := Runs .enableCheckDone s fun t =>
      t.en.on = s.en.on ∧ t.en.st = 3 ∧ t.en.reason = e.1 ∧ t.en.detail = e.2 ∧ t.pw = s.pw
    let enabled : Prop := Runs .enableCheckDone s fun t => t.en.on = true ∧ t.en.st = 2 ∧ t.en.reason = 0 ∧
      t.en.time = s.tm.now ∧ t.hm.baseTaken = true ∧
      t.pw.part = (if t.hm.replace = 0 then .enabled else .replaceRequested) ∧
      (s.domainPlan = true → t.dom.st = .member)
    (s.running = false → exec .enableCheckDone s = .next s) ∧
    (s.running = true →
      (s.en.accepted = true → (∀ e, s.lastTests = some e → refused e) ∧ (s.lastTests = none → enabled)) ∧
      (s.en.accepted = false → (∀ e, s.firstTests = some e → refused e) ∧
        (s.firstTests = none → s.domainPlan = true → Runs .enableCheckDone s fun t => t.dom.st = .joining ∧ t.en.st = 1) ∧
        (s.firstTests = none → s.domainPlan = false →
          (∀ e, s.lastTests = some e → refused e) ∧ (s.lastTests = none → enabled))))) ∧
  (∀ s : State, s.en.st = 4 → (∀ r ∈ s.runs, r.jobs = [] ∨ r.abandoned = true) → exec .disableComplete s =
    .next { s with en := { s.en with on := false, st := 0 }
                   pw := { s.pw with part := if s.working then .standby else s.pw.part }
                   tm := { s.tm with dueStep := none } })

/-- R325, R326, R331, R335, R336, R432, R475: a load reads the image, checks it and replaces the plan only when it passes
twice; a variant that is asked for is pinned, and the evaluation of a boundary switches to it four epochs ahead. -/
def Obligations.PlansLoadAndVariantsAreRequested : Prop :=
  (∀ (s : State) (q : Requester), Heard s q 0x5000 3 true .cmd →
    (s.pc.load = 1 → OnlyAnswers (.planLoad q) s q 5 0x5000 3) ∧
    (s.pc.load ≠ 1 → s.en.on = true → Runs (.planLoad q) s fun t => Answered q 0 0x5000 3 [] t ∧ t.pc.load = 3 ∧
      t.pc.reason = 0x27 ∧ t.plan = s.plan) ∧
    (s.pc.load ≠ 1 → s.en.on = false → s.jobs ≠ [] ∨ s.doneJobs ≠ [] → OnlyAnswers (.planLoad q) s q 8 0x5000 3) ∧
    (s.pc.load ≠ 1 → s.en.on = false → s.jobs = [] → s.doneJobs = [] → Runs (.planLoad q) s fun t => Answered q 0 0x5000 3 [] t ∧
      t.pc.load = 1 ∧ t.pc.image = s.hostRead (loadFn q) 0 s.pc.addr s.pc.len ∧ t.plan = s.plan)) ∧
  (∀ s : State, s.pc.load = 1 →
    (s.pc.image = none → Runs .planLoadDone s fun t => t.pc.load = 3 ∧ t.pc.reason = 0x20 ∧ t.plan = s.plan) ∧
    (∀ img, s.pc.image = some img →
      (∀ v, loadCheck s img s.pc.len = some v → Runs .planLoadDone s fun t => t.pc.load = 3 ∧ t.pc.reason = v.1 ∧
        t.pc.detail = v.2 ∧ t.plan = s.plan ∧ t.arrs = s.arrs ∧ t.gran = s.gran) ∧
      (loadCheck s img s.pc.len = none →
        (s.readImage = none → Runs .planLoadDone s fun t => t.pc.load = 3 ∧ t.pc.reason = 0x20 ∧ t.plan = none) ∧
        (∀ again, s.readImage = some again → imageHash again = slice img 48 48 → Runs .planLoadDone s fun t =>
          t.pc.load = 2 ∧ t.plan = some (storedPlan (planOf img)) ∧ t.vs.pending = none) ∧
        (∀ again, s.readImage = some again → imageHash again ≠ slice img 48 48 → Runs .planLoadDone s fun t =>
          t.pc.load = 3 ∧ t.pc.reason = 0x21 ∧ t.plan = none)))) ∧
  (∀ (s : State) (q : Requester) (v : Nat), Heard s q 0x5010 5 true .cmd → v ≤ 15 → Runs (.varRequest q v) s fun t =>
    Answered q 0 0x5010 5 [] t ∧
    (s.plan = none ∨ s.selectableNum v = false → t.vs = { s.vs with request := 2 }) ∧
    (s.plan ≠ none → s.selectableNum v = true → t.vs = { s.vs with request := 0, pin := some v })) ∧
  (∀ (s : State) (v : Nat), s.plan ≠ none → s.vs.pin = some v → s.selectableNum v = true →
    (s.vs.pending = none → s.vs.current = v → s.evaluateVariant.vs.pending = none) ∧
    (s.vs.pending = none → s.vs.current ≠ v → s.evaluateVariant.vs.pending = some (v, (s.epoch + 4) % 2 ^ 32) ∧
      ∃ rest, s.evaluateVariant.vs.announced = (s.dom.pkgAddr, v, (s.epoch + 4) % 2 ^ 32) :: rest))

/-! ## The dictionary -/

namespace Sys2Proof.Stated

/-- The plain settings of the dictionary, RW and RWD: each index with its subindices. -/
def settings : List (Nat × List Nat) :=
  (List.range 16).map (fun d => (0x3001 + 256 * d, [1])) ++ (List.range 8).map (fun d => (0x3040 + 256 * d, [1])) ++
  [(0x4000, [1, 2]), (0x4010, [2, 3, 4, 5, 6]), (0x4020, [1, 2, 3, 8]), (0x4030, [1, 2]), (0x4800, [1]),
   (0x4810, [3, 4, 5, 6, 7, 8, 9, 10, 11, 12, 13, 14]), (0x5000, [1, 2]), (0x5020, [1]), (0x5040, [1]), (0x5041, [1]),
   (0x6000, [1, 2, 3, 4, 5, 6, 7, 8, 9, 10, 11, 12]), (0x6020, [2]), (0x7000, [7, 8]), (0x8100, [1]), (0x8200, [1, 2]),
   (0x9010, [3]), (0x9020, [1]), (0x9030, [3, 4]), (0x9040, [1]), (0x9050, [1, 2]), (0xA100, [1]),
   (0xB100, [1, 2, 3, 4, 5, 6]), (0xB200, [1, 2]), (0xB300, [1, 2, 3, 4]), (0xC000, [3]), (0xC020, [1, 6]), (0xC030, [1, 3])]

/-- The tables a setting lies in keep their keys rising. -/
def SettingsRising (s : State) (q : Requester) : Prop :=
  Rising s.tenants ∧ Rising s.streams ∧ Rising (s.sel q).loft ∧ Rising (s.sel q).pslot

end Sys2Proof.Stated

/-- R421, R424, R425, R430, R431, R486: a write is answered once; the first check that fails names the status, and a
refused write changes nothing but what is sent. The order of the checks is the model's own (log 61). -/
def Obligations.RequestsAreCheckedInOrder : Prop :=
  ∀ (s : State) (q : Requester) (index sub : Nat) (bs : List Byte),
    let c := Instr.dictWrite q index sub bs
    let answers (status : Nat) : Prop := OnlyAnswers c s q status index sub
    (s.answers q = false → exec c s = .next s) ∧
    (s.answers q = true →
      (s.pw.part = .boot → index ≠ 0x1000 → answers 7) ∧
      (s.pw.part = .safe → answers 8) ∧
      (s.pw.part ≠ .safe → (s.pw.part = .boot → index = 0x1000) →
        (s.row? index sub = none → answers 1) ∧
        ∀ r, s.row? index sub = some r →
          (s.reaches q index sub true r.right = false → answers 6) ∧
          (s.reaches q index sub true r.right = true →
            (r.right = .ro → answers 2) ∧
            (r.right ≠ .ro → valueOk r bs = false → answers 3) ∧
            (r.right = .rwd → valueOk r bs = true → s.en.on = true ∨ s.en.st = 1 → answers 4) ∧
            (r.right ≠ .ro → valueOk r bs = true → (r.right = .rwd → s.en.on = false ∧ s.en.st ≠ 1) →
              Runs c s (Answered q (s.writeVal q index sub bs).1 index sub [])))))

/-- R421: a setting that took a value reads as that value, to the requester that wrote it. -/
def Obligations.SettingsReadBackWhatWasWritten : Prop :=
  ∀ (s : State) (q : Requester) (bs : List Byte), SettingsRising s q →
    ∀ e ∈ settings, ∀ k ∈ e.2, (s.dictWrite q e.1 k bs).1 = 0 →
      (((s.dictWrite q e.1 k bs).2.dictRead q e.1 k).1 = 0 ∧ ((s.dictWrite q e.1 k bs).2.dictRead q e.1 k).2.1 = bs)

/-! ## Requests that act -/

/-- R127, R128, R129, R394, R396, R402, R456, R457, R459, R461, R463, R514: the actions of tenants, streams, keys and
shares: what each starts, and the status or reason when it may not. -/
def Obligations.TenantAndStreamRequestsAct : Prop :=
  (∀ (s : State) (q : Requester), Rising s.tenants →
    let n := (s.sel q).ten
    let x := s.tenant n
    (Heard s q 0x4020 4 true .cmd →
      (n ∈ s.uploads → Runs (.keyLoad q) s fun t => Answered q 0 0x4020 4 [] t ∧ t.uploads = s.uploads ∧
        t.tenant n = { x with keyReason := 0x38, keyDetail := 0xFFFFFFFF }) ∧
      (n ∉ s.uploads → 65 ≤ s.uploads.length → Runs (.keyLoad q) s fun t => Answered q 0 0x4020 4 [] t ∧
        t.uploads = s.uploads ∧ t.tenant n = { x with keyLoad := 4, keyReason := 0x38, keyDetail := 0xFFFFFFFF }) ∧
      (n ∉ s.uploads → s.uploads.length < 65 → Runs (.keyLoad q) s fun t => Answered q 0 0x4020 4 [] t ∧
        t.uploads = s.uploads ++ [n] ∧ (t.tenant n).keyLoad = (if s.uploads = [] then 2 else 1) ∧
        t.sigPending (.manifest n) = true)) ∧
    (∀ id < 65536, Heard s q 0x4020 7 true .mute → Runs (.keyDrop q id) s fun t => Answered q 0 0x4020 7 [] t ∧
      (∀ k ∈ t.keys, k.tenant = n → k.id = id → k.st = .dropped) ∧
      (∀ k ∈ s.keys, ¬(k.tenant = n ∧ k.id = id) → k.st ≠ .dropped → k ∈ t.keys) ∧
      ((∀ j ∈ s.jobs, j.tenant ≠ n) → ∀ k ∈ t.keys, ¬(k.tenant = n ∧ k.id = id))) ∧
    (Heard s q 0x4010 1 true .cmd →
      (Runs (.tenActivate q) s fun t => Answered q 0 0x4010 1 [] t ∧ t.tenant n = { x with st := .active }) ∧
      (x.st = .free → OnlyAnswers (.tenDisable q) s q 8 0x4010 1) ∧
      (x.st = .disabled → OnlyAnswers (.tenDisable q) s q 0 0x4010 1) ∧
      (x.st = .active → x.pdecRun ≠ 1 → Runs (.tenDisable q) s fun t => Answered q 0 0x4010 1 [] t ∧
        t.tenant n = { x with st := .disabled } ∧ t.sec = s.sec) ∧
      (x.st = .active → x.pdecRun = 1 → Runs (.tenDisable q) s fun t => Answered q 0 0x4010 1 [] t ∧
        t.tenant n = { x with st := .disabled, pdecRun := 4, pdecReason := 0x5C } ∧ n ∉ t.sec.pdecQueue) ∧
      (x.st = .free → OnlyAnswers (.tenClear q) s q 0 0x4010 1) ∧
      (x.st = .active ∨ (x.st = .disabled ∧ ((∃ j ∈ s.jobs, j.tenant = n) ∨
        (∃ e ∈ s.streams, e.2.tenant = n ∧ e.2.st ≠ .disabled) ∨ s.sharesBusy n = true)) →
          OnlyAnswers (.tenClear q) s q 8 0x4010 1) ∧
      (x.st = .disabled → (∀ j ∈ s.jobs, j.tenant ≠ n) → (∀ e ∈ s.streams, e.2.tenant = n → e.2.st = .disabled) →
        s.sharesBusy n = false → Runs (.tenClear q) s fun t => Answered q 0 0x4010 1 [] t ∧ n ∉ t.uploads ∧
          (∀ k ∈ t.keys, k.tenant = n → k.st = .dropped) ∧ (t.tenant n).st = .free ∧ (t.tenant n).share = none ∧
          (t.tenant n).vkeyAlg = 0 ∧ (t.tenant n).weight = 16 ∧ (t.tenant n).deficit = 0)) ∧
    (Heard s q 0x9030 1 true .cmd →
      (x.offerSt = 1 → OnlyAnswers (.shareOffer q) s q 5 0x9030 1) ∧
      (∀ c, x.offerSt ≠ 1 → s.shareBar n = some c → Runs (.shareOffer q) s fun t => Answered q 0 0x9030 1 [] t ∧
        t.tenant n = { x with offerSt := 3, shareReason := c }) ∧
      (x.offerSt ≠ 1 → s.shareBar n = none → Runs (.shareOffer q) s fun t => Answered q 0 0x9030 1 [] t ∧
        t.tenant n = { x with offerSt := 1 } ∧ t.sigPending (.offer n) = true)) ∧
    (Heard s q 0x9030 5 true .cmd →
      (x.submitSt = 1 → OnlyAnswers (.shareSubmit q) s q 5 0x9030 5) ∧
      (∀ c, x.submitSt ≠ 1 → s.shareBar n = some c → Runs (.shareSubmit q) s fun t => Answered q 0 0x9030 5 [] t ∧
        (t.tenant n).submitSt = 3 ∧ (t.tenant n).shareReason = c) ∧
      (x.submitSt ≠ 1 → s.shareBar n = none → Runs (.shareSubmit q) s fun t => Answered q 0 0x9030 5 [] t ∧
        (t.tenant n).submitSt = 1 ∧ t.sigPending (.submit n) = true)) ∧
    (Heard s q 0x9030 6 true .wo →
      (x.pdecRun = 2 → Runs (.shareWipe q) s fun t => Answered q 0 0x9030 6 [] t ∧ t.tenant n = { x with wipeAfter := true }) ∧
      (x.pdecRun ≠ 2 → Runs (.shareWipe q) s fun t => Answered q 0 0x9030 6 [] t ∧ (t.tenant n).share = none) ∧
      (x.pdecRun = 1 → Runs (.shareWipe q) s fun t => (t.tenant n).pdecRun = 4 ∧ (t.tenant n).pdecReason = 0x58 ∧
        n ∉ t.sec.pdecQueue)) ∧
    (Heard s q 0x9040 2 true .cmd →
      let refused (c : Nat) : Prop := Runs (.pdecRun q) s fun t => Answered q 0 0x9040 2 [] t ∧
        t.tenant n = { x with pdecRun := 4, pdecReason := c } ∧ t.sec = s.sec
      (x.pdecRun = 1 ∨ x.pdecRun = 2 → Runs (.pdecRun q) s fun t => Answered q 0 0x9040 2 [] t ∧
        t.tenant n = { x with pdecReason := 0x5B }) ∧
      (x.pdecRun ≠ 1 → x.pdecRun ≠ 2 →
        (s.entropyOk = false → refused 0x52) ∧ (s.entropyOk = true → s.identityOk = false → refused 0x53) ∧
        (s.entropyOk = true → s.identityOk = true → 64 ≤ s.sec.pdecQueue.length → refused 0x5B) ∧
        (s.entropyOk = true → s.identityOk = true → s.sec.pdecQueue.length < 64 →
          (x.st ≠ .active → refused 0x5C) ∧ (x.st = .active → hasVkey x = false → refused 0x55) ∧
          (x.st = .active → hasVkey x = true → s.shareUsable n = false → refused 0x58) ∧
          (x.st = .active → hasVkey x = true → s.shareUsable n = true → Runs (.pdecRun q) s fun t =>
            Answered q 0 0x9040 2 [] t ∧ t.sec.pdecQueue = s.sec.pdecQueue ++ [n] ∧ (t.tenant n).pdecReason = 0 ∧
            (t.tenant n).pdecRun = (if s.sec.pdecQueue = [] then 2 else 1))))) ∧
    (Heard s q 0x9050 3 true .cmd →
      (s.sec.hmRun = 1 → OnlyAnswers (.hmRun q) s q 5 0x9050 3) ∧
      (s.sec.hmRun ≠ 1 → s.entropyOk = false → Runs (.hmRun q) s fun t => Answered q 0 0x9050 3 [] t ∧
        t.sec = { s.sec with hmRun := 3, hmReason := 0x52 }) ∧
      (s.sec.hmRun ≠ 1 → s.entropyOk = true → s.identityOk = false → Runs (.hmRun q) s fun t =>
        Answered q 0 0x9050 3 [] t ∧ t.sec = { s.sec with hmRun := 3, hmReason := 0x53 }) ∧
      (s.sec.hmRun ≠ 1 → s.entropyOk = true → s.identityOk = true → Runs (.hmRun q) s fun t =>
        Answered q 0 0x9050 3 [] t ∧ t.sec.hmRun = 1 ∧ t.sigPending .hallmark = true))) ∧
  (∀ (s : State) (q : Requester), Rising s.streams → Heard s q 0x4810 1 true .cmd →
    let m := (s.sel q).str
    let y := s.stream m
    (y.st = .enabled → OnlyAnswers (.streamEnable q) s q 0 0x4810 1) ∧
    (y.st = .draining → OnlyAnswers (.streamEnable q) s q 5 0x4810 1 ∧ OnlyAnswers (.streamDisable q) s q 5 0x4810 1) ∧
    (y.st = .disabled → OnlyAnswers (.streamDisable q) s q 0 0x4810 1 ∧ OnlyAnswers (.streamReset q) s q 0 0x4810 1) ∧
    (y.st = .disabled ∨ y.st = .error → s.enableReason y ≠ 0 → Runs (.streamEnable q) s fun t =>
      Answered q 0 0x4810 1 [] t ∧ (t.stream m).st = .error ∧ (t.stream m).reason = s.enableReason y) ∧
    (y.st = .disabled ∨ (y.st = .error ∧ y.errLive = false) → s.enableReason y = 0 → Runs (.streamEnable q) s fun t =>
      let z := t.stream m
      let last := (y.nextSeq + 2 ^ 32 - 1) % 2 ^ 32
      Answered q 0 0x4810 1 [] t ∧ z.st = .enabled ∧ z.reason = 0 ∧ z.committed = last ∧ z.completed = last ∧
      z.sqHead = 0 ∧ z.sqTail = 0 ∧ z.cqTail = 0 ∧ z.cqHead = 0) ∧
    (y.st = .error → y.errLive = true → s.enableReason y = 0 → y.held = [] → Runs (.streamEnable q) s fun t =>
      Answered q 0 0x4810 1 [] t ∧ t.stream m = { y with st := .enabled, reason := 0, errLive := false }) ∧
    (y.st = .enabled ∨ y.st = .error → y.held = [] →
      (Runs (.streamDisable q) s fun t => Answered q 0 0x4810 1 [] t ∧
        (t.stream m).st = (if y.inflight = 0 then .disabled else .draining)) ∧
      (Runs (.streamReset q) s fun t => Answered q 0 0x4810 1 [] t ∧
        (t.stream m).st = (if y.inflight = 0 then .disabled else .draining) ∧
        ∀ j ∈ s.jobs, j.stream = m → j.domain = false → j.st = .queued →
          ∃ k ∈ t.jobs, k.idx = j.idx ∧ k.st = .finished ∧ ∃ d, k.result = some (0x09, 0, d))))

/-- R300, R340, R369, R437, R438, R468, R471, R482, R497: the time, a link's retraining, margining, the snapshot, the loft
copy, a fence, a retirement and an acknowledgement that are asked for. -/
def Obligations.PartRequestsAct : Prop :=
  (∀ (s : State) (q : Requester) (bs : List Byte), Heard s q 0x7000 2 true .rwd → bs.length = 8 →
    (leNat bs % 1000000000 ≠ 0 → OnlyAnswers (.timeSet q bs) s q 3 0x7000 2) ∧
    (leNat bs % 1000000000 = 0 →
      (s.en.on = true ∨ s.en.st = 1 → OnlyAnswers (.timeSet q bs) s q 4 0x7000 2) ∧
      (s.en.on = false → s.en.st ≠ 1 →
        (s.tm.pps = .locked → Runs (.timeSet q bs) s fun t => Answered q 0 0x7000 2 [] t ∧
          t.tm = { s.tm with timeSet := leNat bs, setPending := true }) ∧
        (s.tm.pps ≠ .locked → Runs (.timeSet q bs) s fun t => Answered q 0 0x7000 2 [] t ∧
          t.tm.now = leNat bs ∧ t.tm.timeSet = leNat bs ∧ t.tm.setPending = false)))) ∧
  (∀ (s : State) (q : Requester) (j : Nat), j < 32 → Heard s q (0x8000 + j) 15 true .cmd →
    ((s.link j).retrain = 1 → OnlyAnswers (.linkRetrain q j) s q 5 (0x8000 + j) 15) ∧
    ((s.link j).retrain ≠ 1 → Runs (.linkRetrain q j) s fun t => Answered q 0 (0x8000 + j) 15 [] t ∧
      (t.link j).st = .training ∧ (t.link j).badLanes = [] ∧ (t.link j).retrain = 1 ∧ (t.link j).session = false)) ∧
  (∀ (s : State) (q : Requester), Heard s q 0xB200 3 true .cmd →
    (s.mem.mrgRun = 1 → OnlyAnswers (.mrgRun q) s q 5 0xB200 3) ∧
    (s.mem.mrgRun ≠ 1 → Runs (.mrgRun q) s fun t => Answered q 0 0xB200 3 [] t ∧
      t.mem = { s.mem with mrgRun := if s.en.on = true ∨ (s.stack s.mem.mrgStack).lost = true then 3 else 1 })) ∧
  (∀ (s : State) (rs : List Word), s.mem.mrgRun = 1 → exec (.marginSweepDone rs) s = .next { s with
    mem := { s.mem with mrgRun := 2, mrgResult := (List.range 32).map fun c => marginResult s.mem.mrgKind (rs.getD c 0) } }) ∧
  (∀ (s : State) (q : Requester), Heard s q 0xC000 1 true .cmd →
    (∀ x, s.snap = some x → x.holder ≠ q →
      OnlyAnswers (.mirrorSnapTake q) s q 5 0xC000 1 ∧ OnlyAnswers (.mirrorSnapRelease q) s q 5 0xC000 1) ∧
    ((∀ x, s.snap = some x → x.holder = q) →
      (Runs (.mirrorSnapTake q) s fun t => Answered q 0 0xC000 1 [] t ∧ ∃ x, t.snap = some x ∧ x.holder = q ∧
        x.time = s.tm.now ∧ x.lastRead = s.tm.now ∧ x.streams = s.streamRecs 0 16384 ∧ x.tenants = s.tenantRecs 0 4096 ∧
        x.jobs = s.jobRecs 0 65536) ∧
      (Runs (.mirrorSnapRelease q) s fun t => Answered q 0 0xC000 1 [] t ∧ t.snap = none))) ∧
  (∀ (s : State) (x : Snap), s.snap = some x → exec .snapshotExpiry s = .next { s with
    snap := none, tm := s.tm.reach (x.lastRead + 10000000000) }) ∧
  (∀ (s : State) (f : FnId), Heard s (.fn f) 0xB300 5 true .cmd →
    (s.en.on = true → Runs (.dumpRun (.fn f)) s fun t => Answered (.fn f) 0 0xB300 5 [] t ∧ t.dump.run = 3 ∧
      t.hostMem = s.hostMem) ∧
    (∀ u, s.en.on = false → s.hostWrite f 0 s.dump.addr s.dumpBytes = some u → Runs (.dumpRun (.fn f)) s fun t =>
      Answered (.fn f) 0 0xB300 5 [] t ∧ t.dump.run = 2 ∧ t.hostMem = u.hostMem)) ∧
  (∀ (s : State) (q : Requester) (d : Nat), Heard s q 0x6010 8 true .cmd →
    (7 < d → d < 256 → OnlyAnswers (.fenceDie q d) s q 3 0x6010 8) ∧
    (d ≤ 7 → s.hm.fenceHost ≠ none → OnlyAnswers (.fenceDie q d) s q 5 0x6010 8) ∧
    (d ≤ 7 → s.hm.fenceHost = none → Runs (.fenceDie q d) s fun t => Answered q 0 0x6010 8 [] t ∧
      t.hm = if (s.die d).fenced then { s.hm with fenceSt := 3 } else { s.hm with fenceSt := 1, fenceHost := some d })) ∧
  (∀ (s : State) (q : Requester) (n : Nat), Heard s q 0x6010 9 true .cmd → n < 512 → Rising s.dies →
    (s.hm.retireHost ≠ none → OnlyAnswers (.retireArray q n) s q 5 0x6010 9) ∧
    (s.hm.retireHost = none → (s.die (n / 64)).fenced = true ∨ (s.die (n / 64)).spares = 0 →
      Runs (.retireArray q n) s fun t => Answered q 0 0x6010 9 [] t ∧ t.hm = { s.hm with retireSt := 3 } ∧ t.dies = s.dies) ∧
    (s.hm.retireHost = none → (s.die (n / 64)).fenced = false → (s.die (n / 64)).spares ≠ 0 →
      Runs (.retireArray q n) s fun t => Answered q 0 0x6010 9 [] t ∧
        t.hm = { s.hm with retireSt := 1, retireHost := some n } ∧
        (t.die (n / 64)).retireReq = (s.die (n / 64)).retireReq ++ [n % 64])) ∧
  (∀ (s : State) (q : Requester) (n : Nat), Heard s q 0x6020 4 true .mute → n < 2 ^ 32 →
    Runs (.evtAck q n) s fun t => Answered q 0 0x6020 4 [] t ∧
      t.hm.evts.map (·.seq) = s.hm.evts.map (·.seq) ∧ (∀ e ∈ t.hm.evts, e.seq = n ∨ n = 0xFFFFFFFF → e.ack = true) ∧
      (∀ e ∈ t.hm.evts, e.pinned = true → e.ack = false ∧ e.sev = 3) ∧
      (t.hm.evts.filter (·.pinned)).length ≤ 1024 ∧ (n = 0xFFFFFFFF → t.pw.alertHeld = false))

/-- R262, R336, R356, R435, R437, R496: a page read returns its records and moves MIRROR_FIRST on, and a holder's read keeps
its snapshot alive; a read of a high-water mark returns it and restarts it. -/
def Obligations.ReadsAnswerAndRestart : Prop :=
  ∀ (s : State) (q : Requester), TablesRising s → Rising s.slotStats →
    (∀ k, 1 ≤ k → k ≤ 4 → Heard s q 0xC010 k false .ro → Runs (.mirrorBlockRead q k) s fun t =>
      Answered q 0 0xC010 k (s.mirrorPage q k (s.sel q).mirFirst (s.sel q).ten) t ∧
      (t.sel q).mirFirst = ((s.sel q).mirFirst + if k = 1 then 64 else if k = 2 then 128 else 4096) % 65536 ∧
      ∀ x, t.snap = some x → x.holder = q → x.lastRead = s.tm.now) ∧
    (∀ d < 8, Heard s q (0x3040 + 256 * d) 9 false .ro → Runs (.loftLandHwmRead q d) s fun t =>
      let a : ArrId := ⟨d, mget 0 (s.sel q).loft d⟩
      Answered q 0 (0x3040 + 256 * d) 9 (leBytes 4 (s.arr a).cnt.landHwm) t ∧
      t.arr a = { s.arr a with cnt := { (s.arr a).cnt with landHwm := 0 } }) ∧
    (Heard s q 0x5020 5 false .ro → Runs (.slotDelayMaxRead q) s fun t =>
      let x := mget {} s.slotStats (s.sel q).slot
      Answered q 0 0x5020 5 (leBytes 4 x.delayMax) t ∧ mget {} t.slotStats (s.sel q).slot = { x with delayMax := 0 }) ∧
    (Heard s q 0x7000 16 false .ro → Runs (.domainSkewNsRead q) s fun t =>
      Answered q 0 0x7000 16 (leBytes 4 s.tm.skew) t ∧ t.tm = { s.tm with skew := 0 }) ∧
    (∀ d < 16, Heard s q (0x3000 + 256 * d) 3 false .ro → Runs (.dieTempMaxRead q d) s fun t =>
      Answered q 0 (0x3000 + 256 * d) 3 (leInt 4 (s.die d).tempMax) t ∧
      t.die d = { s.die d with tempMax := (s.die d).temp }) ∧
    (s.answers q = true → s.pw.part = .boot ∨ s.pw.part = .safe →
      let c := if s.pw.part = .boot then 7 else 8
      OnlyAnswers (.slotDelayMaxRead q) s q c 0x5020 5 ∧ OnlyAnswers (.domainSkewNsRead q) s q c 0x7000 16 ∧
      (∀ k, OnlyAnswers (.mirrorBlockRead q k) s q c 0xC010 k) ∧
      (∀ d < 8, OnlyAnswers (.loftLandHwmRead q d) s q c (0x3040 + 256 * d) 9) ∧
      (∀ d < 16, OnlyAnswers (.dieTempMaxRead q d) s q c (0x3000 + 256 * d) 3))

/-! ## The ways to the dictionary -/

/-- R378, R379, R426..R430: the mailbox, MCTP and the management channel carry requests and their answers; fragments are
put together in order; a message for another package goes on. The form of the MCTP control answers is the model's (log 52). -/
def Obligations.MessagesReachTheDictionary : Prop :=
  (∀ (s : State) (f : FnId) (m : MboxReq), f.wf = true → Rising s.fns →
    (s.answers (.fn f) = false → exec (.mailboxGo f m) s = .next s) ∧
    (s.answers (.fn f) = true → m.op = 1 →
      let r := s.dictRead (.fn f) m.index m.sub
      Runs (.mailboxGo f m) s fun t => t.fn f = { s.fn f with
        op := 1, status := r.1, tag := m.tag, index := m.index, sub := m.sub, go := 0
        len := if r.1 = 0 then r.2.1.length else 0, value := if r.1 = 0 then r.2.1 else m.value }) ∧
    (s.answers (.fn f) = true → m.op = 2 → Runs (.mailboxGo f m) s fun t => (t.fn f).go = 0 ∧ (t.fn f).tag = m.tag ∧
      (t.fn f).status = (s.dictWrite (.fn f) m.index m.sub m.value).1) ∧
    (s.answers (.fn f) = true → m.op ≠ 1 → m.op ≠ 2 → Runs (.mailboxGo f m) s fun t => (t.fn f).go = 0 ∧
      (t.fn f).tag = m.tag ∧ t.dom = s.dom ∧ t.tenants = s.tenants)) ∧
  (∀ (s : State) (m : MctpMsg), s.pw.part ≠ .off →
    (m.op = 1 → Runs (.mctpDictionaryMessage m) s (Answered .mctp (s.dictRead .mctp m.index m.sub).1 m.index m.sub
      (s.dictRead .mctp m.index m.sub).2.1)) ∧
    (m.op = 2 → s.fragRun? .mctp m.tag = none → m.frag = 0 →
      (m.value.length < 1024 → Runs (.mctpDictionaryMessage m) s
        (Answered .mctp (s.dictWrite .mctp m.index m.sub m.value).1 m.index m.sub [])) ∧
      (m.value.length = 1024 → exec (.mctpDictionaryMessage m) s = .next { s with dom := { s.dom with
        frags := s.dom.frags ++ [{ who := .mctp, tag := m.tag, index := m.index, sub := m.sub, got := m.value, next := 1 }] } })) ∧
    (∀ r, m.op = 2 → s.fragRun? .mctp m.tag = some r →
      (m.frag ≠ r.next % 256 → Runs (.mctpDictionaryMessage m) s fun t => Answered .mctp 3 m.index m.sub [] t ∧
        t.fragRun? .mctp m.tag = none) ∧
      (m.frag = r.next % 256 → r.index = m.index → r.sub = m.sub → m.value.length < 1024 →
        Runs (.mctpDictionaryMessage m) s
          (Answered .mctp ((s.dropFrag .mctp m.tag).dictWrite .mctp m.index m.sub (r.got ++ m.value)).1 m.index m.sub [])))) ∧
  (∀ (s : State) (q : Requester) (tag : Nat) (r : FragRun), s.fragRun? q tag = some r →
    (Runs (.fragmentTimeout q tag) s fun t => t.fragRun? q tag = none) ∧
    ((∀ p j, q ≠ .remote p j) → Runs (.fragmentTimeout q tag) s (Answered q 3 r.index r.sub []))) ∧
  (∀ (s : State), s.pw.part ≠ .off →
    (∀ a, exec (.entdaa a) s =
      .next (if 8 ≤ a ∧ a ≤ 0x7D then { s with mctp := { s.mctp with dynAddr := a } } else s)) ∧
    (∀ e, 1 ≤ e → e ≤ 0xFE → exec (.setEndpointId e) s = .next { s with
      mctp := { s.mctp with eid := e }, out := s.out ++ [.mctp 1 [0, 0, BitVec.ofNat 8 e, 0]] }) ∧
    (∀ e, e = 0 ∨ e = 0xFF → exec (.setEndpointId e) s = .next { s with out := s.out ++ [.mctp 1 [2]] }) ∧
    (Runs .getEndpointId s fun t => t.mctp = s.mctp ∧
      ∃ b, t.out = s.out ++ [.mctp 2 [0, BitVec.ofNat 8 s.mctp.eid, 0, b]]) ∧
    (Runs .getMctpVersionSupport s fun t => ∃ bs, bs.length = 4 ∧ t.out = s.out ++ [.mctp 4 ([0, 1] ++ bs)]) ∧
    exec .getMessageTypeSupport s = .next { s with out := s.out ++ [.mctp 5 [0, 1, 0x7F]] } ∧
    (Runs .getVendorDefinedMsgSupport s fun t => ∃ bs, bs.length = 2 ∧
      t.out = s.out ++ [.mctp 6 ([0, 0xFF, 1] ++ (leBytes 4 Config.iana.toNat).reverse ++ bs)]) ∧
    (∀ tag, exec (.mgmtTimeout tag) s =
      .next { s with dom := { s.dom with mgmtTimeouts := bump s.dom.mgmtTimeouts } })) ∧
  (∀ (s : State) (r : Rx) (m : MgmtMsg), Accepted s r →
    let u := s.takeFrame r
    (m.dst ≠ s.dom.pkgAddr → ∀ e ∈ [(Instr.mgmtRead r m, 1), (Instr.mgmtWrite r m, 2), (Instr.mgmtResponse r m, 3)],
      (∀ k, u.mgmtLink m.dst = some k → (u.link k).up = true → (u.link k).session = true →
        exec e.1 s = .next (u.txFrame k 255 (.mgmt e.2 m))) ∧
      (u.mgmtLink m.dst = none →
        exec e.1 s = .next (u.setLink r.link { u.link r.link with noroute := bump (u.link r.link).noroute }))) ∧
    (m.dst = s.dom.pkgAddr → s.pw.part ≠ .off →
      let q := Requester.remote m.src r.link
      let back (status : Nat) (value : List Byte) (v : State) (k : Nat) : Out :=
        let y := (v.link k).frame 255 (.mgmt 3 ⟨m.src, v.dom.pkgAddr, status, m.tag, m.index, m.sub, 0, value⟩)
        .frame k y y.bytes
      exec (.mgmtResponse r m) s = .next { u with out := u.out ++ [.response q m.status m.index m.sub m.value] } ∧
      (∀ k, u.mgmtLink m.src = some k → (u.link k).up = true → (u.link k).session = true → (u.link k).replay.length < 1024 →
        (u.dictRead q m.index m.sub).2.1.length < 224 → Runs (.mgmtRead r m) s fun t =>
          t.out.getLast? = some (back (u.dictRead q m.index m.sub).1 (u.dictRead q m.index m.sub).2.1 u k)) ∧
      (∀ k, u.fragRun? q m.tag = none → m.frag = 0 → m.value.length < 224 →
        let w := u.dictWrite q m.index m.sub m.value
        w.2.mgmtLink m.src = some k → (w.2.link k).up = true → (w.2.link k).session = true →
        (w.2.link k).replay.length < 1024 →
          Runs (.mgmtWrite r m) s fun t => t.out.getLast? = some (back w.1 [] w.2 k))))

/-! ## The whole part -/

namespace Sys2Proof.Stated

/-- The moves between the part's states that R518 lists, each with its event; SAFE with its row of R485. -/
def PartMoves (c : Instr) (s t : State) : Prop :=
  let a := s.pw.part
  let b := t.pw.part
  (a = .off ∧ b = .boot ∧ ∃ e, c = .pwrgoodAssert e) ∨
  (a ≠ .off ∧ b = .off ∧ c = .pwrgoodDeassert) ∨
  (a ≠ .off ∧ b = .boot ∧ ∃ q e, c = .resetCmdCold q e) ∨
  (a ≠ .off ∧ b = .boot ∧ (a = .safe → s.pw.safeRow = 2 ∨ s.pw.safeRow = 4) ∧
    ((∃ e, c = .perstBothWarmReset e) ∨ ∃ q e, c = .resetCmdWarm q e)) ∨
  (a = .boot ∧ b = .standby ∧ c = .bootComplete) ∨
  (a ≠ .off ∧ a ≠ .safe ∧ b = .safe ∧
    ((t.pw.safeRow = 1 ∧ (c = .bootComplete ∨ ∃ h, c = .hubFailure h)) ∨
     (t.pw.safeRow = 2 ∧ (c = .stewardFailover ∨ c = .stewardMirrorFailure)) ∨
     (t.pw.safeRow = 3 ∧ c = .jtagInstruction .other) ∨ (t.pw.safeRow = 4 ∧ c = .thermtripN))) ∨
  (a = .standby ∧ (b = .enabled ∨ b = .replaceRequested) ∧ c = .enableCheckDone ∧ t.en.on = true) ∨
  (a = .enabled ∧ b = .replaceRequested ∧ t.hm.replace ≠ 0) ∨
  (a = .replaceRequested ∧ b = .enabled ∧ t.hm.replace = 0) ∨
  ((a = .enabled ∨ a = .replaceRequested) ∧ b = .standby ∧ c = .disableComplete)

end Sys2Proof.Stated

/-- R518: the part moves between its states only on the listed events, SAFE is left only as R485 allows, and BOOT stays at
STAGE 0xF when both firmware slots fail; a fuse that is burnt stays as it is (R490). -/
def Obligations.PartStatesAndFusesMoveOnlyAsListed : Prop :=
  ∀ (c : Instr) (s t : State), exec c s = .next t →
    (t.pw.part = s.pw.part ∨ PartMoves c s t) ∧
    (s.pw.part ≠ .boot → t.pw.part = .boot → fwSvn t.pw.env.fwA t.pw.minSvn = none →
      fwSvn t.pw.env.fwB t.pw.minSvn = none → t.pw.stage = 0xF) ∧
    t.hm.fuses.length = s.hm.fuses.length ∧ ∀ i, s.hm.fuses.getD i 0 ≠ 0 → t.hm.fuses.getD i 0 = s.hm.fuses.getD i 0

namespace Sys2Proof.Stated

/-- The fields of State other than the queue. -/
inductive Field where
  | pw | ports | fns | tm | en | mctp | plan | pc | vs | tenants | drrQuantum | drrPtr | keys | uploads | installs
  | streams | jobs | jobSeq | runs | slotStats | arrs | dies | hubs | stk | mem | gran | links | dom | sec | hm
  | sels | snap | trace | dump | hostMem | hostFaults | free | out
  deriving DecidableEq

/-- A field is the same in two states. -/
def Field.same (s t : State) : Field → Prop
  | .pw => t.pw = s.pw
  | .ports => t.ports = s.ports
  | .fns => t.fns = s.fns
  | .tm => t.tm = s.tm
  | .en => t.en = s.en
  | .mctp => t.mctp = s.mctp
  | .plan => t.plan = s.plan
  | .pc => t.pc = s.pc
  | .vs => t.vs = s.vs
  | .tenants => t.tenants = s.tenants
  | .drrQuantum => t.drrQuantum = s.drrQuantum
  | .drrPtr => t.drrPtr = s.drrPtr
  | .keys => t.keys = s.keys
  | .uploads => t.uploads = s.uploads
  | .installs => t.installs = s.installs
  | .streams => t.streams = s.streams
  | .jobs => t.jobs = s.jobs
  | .jobSeq => t.jobSeq = s.jobSeq
  | .runs => t.runs = s.runs
  | .slotStats => t.slotStats = s.slotStats
  | .arrs => t.arrs = s.arrs
  | .dies => t.dies = s.dies
  | .hubs => t.hubs = s.hubs
  | .stk => t.stk = s.stk
  | .mem => t.mem = s.mem
  | .gran => t.gran = s.gran
  | .links => t.links = s.links
  | .dom => t.dom = s.dom
  | .sec => t.sec = s.sec
  | .hm => t.hm = s.hm
  | .sels => t.sels = s.sels
  | .snap => t.snap = s.snap
  | .trace => t.trace = s.trace
  | .dump => t.dump = s.dump
  | .hostMem => t.hostMem = s.hostMem
  | .hostFaults => t.hostFaults = s.hostFaults
  | .free => t.free = s.free
  | .out => t.out = s.out

/-- The fields that a command may change. -/
def mayWrite : Instr → List Field
  | .pwrgoodAssert .. | .pwrgoodDeassert .. =>
    [.pw, .ports, .fns, .tm, .en, .mctp, .plan, .pc, .vs, .tenants, .drrQuantum, .drrPtr, .keys, .uploads, .installs,
    .streams, .jobs, .jobSeq, .runs, .slotStats, .arrs, .dies, .hubs, .stk, .mem, .gran, .links, .dom, .sec, .hm,
    .sels, .snap, .trace, .dump]
  | .perstBothWarmReset .. =>
    [.pw, .ports, .fns, .en, .pc, .vs, .tenants, .keys, .uploads, .installs, .streams, .runs, .arrs, .dies, .hubs,
    .mem, .links, .dom, .sec, .hm, .snap, .trace, .dump, .jobs, .sels, .plan, .slotStats, .tm, .out]
  | .portReset .. =>
    [.ports, .fns, .tenants, .streams, .sels, .snap]
  | .functionLevelReset .. =>
    [.fns, .tenants, .keys, .installs, .streams, .jobs, .hubs, .sels, .snap, .hostMem, .out]
  | .busMasterEnableSet .. | .doorbellCqHead .. | .streamEnable .. | .streamDisable .. | .streamReset .. =>
    [.fns, .tenants, .keys, .installs, .streams, .jobs, .hubs, .hostMem, .out]
  | .msixUnmask .. =>
    [.fns, .out]
  | .hostPortFailure .. =>
    [.ports, .fns, .tenants, .keys, .installs, .streams, .jobs, .jobSeq, .hubs, .links, .dom, .hostMem, .out]
  | .refclkLock .. =>
    [.pw, .tm, .keys, .jobs, .jobSeq, .runs, .slotStats, .arrs, .dies, .stk, .links, .dom, .hm, .out]
  | .refclkStateChange .. =>
    [.tm]
  | .bootComplete .. =>
    [.pw, .tm, .tenants, .keys, .jobs, .jobSeq, .runs, .slotStats, .arrs, .dies, .stk, .links, .dom, .sec, .hm, .out]
  | .thermalBootHoldRelease .. =>
    [.pw]
  | .linkStart .. | .notReadyWaitExpiry .. | .trainingRetry .. | .laneFailure .. | .flockLoss .. | .nak ..
  | .hello .. | .scntHalt .. | .authFailLimit .. | .linkRetrain .. =>
    [.pw, .jobs, .jobSeq, .runs, .arrs, .dies, .links, .dom, .sec, .hm, .trace, .out]
  | .idle .. | .mgmtResponse .. | .uncorrectableCodeword .. =>
    [.links, .out]
  | .openFrame .. | .dataFrame .. | .lack .. | .pathDown .. | .ccEnd .. | .ccAdd .. | .ccSub .. | .ccAnd .. | .ccOr .. | .ccXor .. | .ccShl ..
  | .ccShr .. | .ccSar .. | .ccMin .. | .ccMax .. | .li .. | .lui .. | .ccMul .. | .ccMulh .. | .ccCmpEq ..
  | .ccCmpLt .. | .ccCmpLtu .. | .loop .. | .endl .. | .st .. | .ldj .. | .mfs .. | .aqpush .. | .oqpush ..
  | .tqwait .. | .ccStallRelease .. | .xferLc .. | .xferCl .. | .dmaq .. | .req .. | .acq .. | .acqB .. | .fence ..
  | .twait .. | .nop .. | .sowerRequest .. | .extract .. | .binderRequest .. | .loftArrival .. | .modularAdd ..
  | .int32Add .. | .fp32Add .. | .atomicMin .. | .atomicMax .. | .swap .. | .compareAndSwap .. | .loftScrub .. =>
    [.pw, .jobs, .jobSeq, .runs, .arrs, .dies, .links, .dom, .hm, .trace, .out]
  | .delayFrame .. =>
    [.pw, .tm, .jobs, .jobSeq, .runs, .arrs, .dies, .links, .dom, .sec, .hm, .trace, .out]
  | .kex .. | .rekey .. =>
    [.links, .sec, .out]
  | .pathUp .. | .join .. | .bind .. | .tick .. | .domainRejoin .. | .vack .. | .resident .. | .qreq ..
  | .fragmentTimeout .. =>
    [.links, .dom, .out]
  | .rekeyStart .. | .entropyRetest .. =>
    [.sec]
  | .rekeyRetry .. =>
    [.links, .sec]
  | .sessionKeySwitch .. =>
    [.links]
  | .accept .. =>
    [.tm, .en, .vs, .links, .dom, .out]
  | .joinRefused .. | .deviceEnableSet .. | .deviceEnableClear .. =>
    [.en, .links, .dom, .out]
  | .acceptTimeout .. =>
    [.en, .dom]
  | .ready .. | .admitJob .. | .descriptorDecide .. =>
    [.fns, .tenants, .keys, .installs, .streams, .jobs, .jobSeq, .hubs, .links, .dom, .hostMem, .out]
  | .refuse .. =>
    [.fns, .tenants, .keys, .installs, .streams, .jobs, .hubs, .links, .dom, .hostMem, .out]
  | .admitWaitExpiry .. =>
    [.fns, .tm, .tenants, .keys, .installs, .streams, .jobs, .hubs, .links, .dom, .hostMem, .out]
  | .leadBindDecision .. =>
    [.tm, .tenants, .drrPtr, .links, .dom, .out]
  | .leadLost .. | .abandon .. | .leave .. | .qreport .. =>
    [.jobs, .jobSeq, .links, .dom, .out]
  | .vdecide .. | .vannounce .. =>
    [.vs, .links, .dom, .out]
  | .failjob .. =>
    [.runs, .links, .dom, .out]
  | .mgmtRead .. =>
    [.tm, .slotStats, .arrs, .dies, .links, .sels, .snap, .out]
  | .mgmtWrite .. | .dictWrite .. =>
    [.pw, .fns, .tm, .en, .pc, .vs, .tenants, .drrQuantum, .keys, .uploads, .installs, .streams, .jobs, .jobSeq,
    .runs, .arrs, .dies, .hubs, .mem, .links, .dom, .sec, .hm, .sels, .snap, .trace, .dump, .hostMem, .free, .out]
  | .mgmtTimeout .. =>
    [.dom]
  | .ppsEdge .. =>
    [.pw, .tm, .vs, .links, .dom, .hm, .out]
  | .ppsLost .. | .recordProgram .. =>
    [.pw, .tm, .hm]
  | .timeSet .. =>
    [.tm, .vs, .out]
  | .epochBoundary .. =>
    [.pw, .tm, .vs, .tenants, .keys, .installs, .jobs, .jobSeq, .runs, .slotStats, .arrs, .dies, .links, .dom, .hm,
    .trace, .hostMem, .out]
  | .gearRelockDone .. =>
    [.tm, .vs]
  | .bindPoint .. =>
    [.tm, .tenants, .drrPtr, .keys, .jobs, .jobSeq, .runs, .slotStats, .links, .dom, .out]
  | .slotStart .. =>
    [.pw, .tm, .keys, .installs, .jobs, .runs, .slotStats, .arrs, .hubs, .stk, .links, .dom, .hm, .trace, .out]
  | .fallowSlotStart .. =>
    [.pw, .tm, .runs, .dies, .links, .hm, .trace, .hostMem, .out]
  | .slotEnd .. =>
    [.tm, .jobs, .runs, .slotStats, .arrs, .dies, .hubs]
  | .slotPacedAbandon .. =>
    [.tm, .jobs, .jobSeq, .runs, .slotStats, .links, .dom, .out]
  | .slotDeadlineAbandon .. =>
    [.pw, .tm, .jobs, .jobSeq, .runs, .slotStats, .arrs, .links, .dom, .hm, .trace, .out]
  | .releaseSlot .. =>
    [.tm, .tenants, .arrs, .dies, .trace]
  | .commandDelay .. | .cribLoad .. | .cribStore .. | .cellMove .. | .cellMadd .. | .cellMsub .. | .cellMneg ..
  | .cellMscal .. | .cellMmul .. | .cellMmulc .. | .mac .. | .macn .. | .macc .. | .alpha .. | .imma ..
  | .foldClr .. | .foldKeep .. | .ntt .. | .intt .. | .auto .. | .mulx .. | .vecMadd .. | .vecMsub .. | .vecMneg ..
  | .vecMmul .. | .vecMmulc .. | .vecMscal .. | .mlift .. | .mred .. | .mcen .. | .vecAdd .. | .vecSub ..
  | .vecMul .. | .vecMulh .. | .adds .. | .subs .. | .idiv .. | .vecMin .. | .vecMax .. | .vabs .. | .vneg ..
  | .vecAnd .. | .vecOr .. | .vecXor .. | .vnot .. | .vecShl .. | .vecShr .. | .vecSar .. | .vecCmpEq ..
  | .vecCmpNe .. | .vecCmpLt .. | .vecCmpLe .. | .sel .. | .fadd .. | .fsub .. | .fmul .. | .fma .. | .fdiv ..
  | .fsqrt .. | .fmin .. | .fmax .. | .fabs .. | .fneg .. | .fcvt .. | .cvt .. | .rsumS .. | .rsumL .. | .ld .. =>
    [.pw, .jobs, .jobSeq, .runs, .slotStats, .arrs, .dies, .links, .dom, .hm, .trace, .free, .out]
  | .granaryRead .. =>
    [.pw, .plan, .vs, .keys, .free, .jobs, .jobSeq, .runs, .arrs, .dies, .hubs, .stk, .mem, .gran, .links, .dom, .hm, .trace, .out]
  | .blockWrite .. =>
    [.pw, .jobs, .jobSeq, .runs, .arrs, .dies, .links, .dom, .hm, .trace, .hostMem, .free, .out]
  | .doorbellSqTail .. =>
    [.streams]
  | .completion .. =>
    [.fns, .tenants, .keys, .installs, .streams, .jobs, .hubs, .hostMem, .free, .out]
  | .irqDelayExpiry .. =>
    [.fns, .tm, .streams, .out]
  | .mailboxGo .. | .mctpDictionaryMessage .. =>
    [.pw, .fns, .tm, .en, .pc, .vs, .tenants, .drrQuantum, .keys, .uploads, .installs, .streams, .jobs, .jobSeq,
    .runs, .slotStats, .arrs, .dies, .hubs, .mem, .links, .dom, .sec, .hm, .sels, .snap, .trace, .dump, .hostMem,
    .free, .out]
  | .entdaa .. =>
    [.mctp]
  | .setEndpointId .. =>
    [.mctp, .out]
  | .getEndpointId .. | .getMctpVersionSupport .. | .getVendorDefinedMsgSupport .. =>
    [.free, .out]
  | .getMessageTypeSupport .. =>
    [.out]
  | .enableCheckDone .. =>
    [.pw, .fns, .en, .tenants, .keys, .installs, .streams, .jobs, .jobSeq, .hubs, .links, .dom, .hm, .hostMem, .out]
  | .disableComplete .. =>
    [.pw, .tm, .en]
  | .planLoad .. =>
    [.pc, .out]
  | .planLoadDone .. =>
    [.plan, .pc, .vs, .keys, .slotStats, .arrs, .mem, .gran, .links, .dom, .out]
  | .keyLoad .. =>
    [.tenants, .uploads, .sec, .out]
  | .keyUploadDone .. =>
    [.tenants, .keys, .uploads, .installs, .hubs, .gran, .free]
  | .keyDrop .. =>
    [.tenants, .keys, .installs, .hubs, .out]
  | .varRequest .. =>
    [.pw, .vs, .dies, .links, .dom, .hm, .out]
  | .mrgRun .. =>
    [.mem, .out]
  | .marginSweepDone .. =>
    [.mem]
  | .tenActivate .. =>
    [.tenants, .out]
  | .tenDisable .. | .shareOffer .. | .shareSubmit .. | .shareWipe .. | .pdecRun .. =>
    [.tenants, .sec, .out]
  | .tenClear .. =>
    [.tenants, .keys, .uploads, .installs, .hubs, .sec, .out]
  | .mirrorSnapTake .. | .mirrorSnapRelease .. =>
    [.snap, .out]
  | .snapshotExpiry .. =>
    [.tm, .snap]
  | .mirrorBlockRead .. =>
    [.sels, .snap, .out]
  | .loftLandHwmRead .. =>
    [.arrs, .out]
  | .slotDelayMaxRead .. =>
    [.slotStats, .out]
  | .domainSkewNsRead .. =>
    [.tm, .out]
  | .dieTempMaxRead .. =>
    [.dies, .out]
  | .dumpRun .. =>
    [.dump, .hostMem, .free, .out]
  | .shareOfferExpiry .. =>
    [.tm, .tenants]
  | .partialDecryption .. =>
    [.tenants, .sec, .hostMem]
  | .hmRun .. =>
    [.sec, .out]
  | .signetOperationDone .. | .vaultUncorrectable .. =>
    [.pw, .tenants, .jobs, .jobSeq, .runs, .arrs, .dies, .links, .dom, .sec, .hm, .trace, .out]
  | .entropyFail .. =>
    [.pw, .tenants, .sec, .hm, .hostMem, .free]
  | .jtagInstruction .. | .thermtripN .. | .stewardFailover .. | .stewardMirrorFailure .. =>
    [.pw, .tenants, .jobs, .jobSeq, .runs, .links, .dom, .sec, .hm, .out]
  | .resetCmdCold .. =>
    [.pw, .ports, .fns, .tm, .en, .mctp, .plan, .pc, .vs, .tenants, .drrQuantum, .drrPtr, .keys, .uploads, .installs,
    .streams, .jobs, .jobSeq, .runs, .slotStats, .arrs, .dies, .hubs, .stk, .mem, .gran, .links, .dom, .sec, .hm,
    .sels, .snap, .trace, .dump, .out]
  | .resetCmdWarm .. =>
    [.pw, .ports, .fns, .tm, .en, .pc, .vs, .tenants, .keys, .uploads, .installs, .streams, .runs, .arrs, .dies,
    .hubs, .mem, .links, .dom, .sec, .hm, .snap, .trace, .dump, .out, .jobs, .plan, .slotStats]
  | .fenceDie .. =>
    [.hm, .out]
  | .diePllLoss .. =>
    [.pw, .vs, .jobs, .jobSeq, .runs, .slotStats, .arrs, .dies, .links, .dom, .hm, .out]
  | .retireArray .. =>
    [.dies, .hm, .out]
  | .retirementCopy .. =>
    [.pw, .arrs, .dies, .hm]
  | .evtAck .. =>
    [.pw, .hm, .out]
  | .tempSample .. =>
    [.pw, .dies, .stk, .hm]
  | .bindResume .. =>
    [.tm, .hm]
  | .gearStepUp .. =>
    [.pw, .tm, .vs, .dies, .links, .dom, .hm, .out]
  | .hubFailure .. =>
    [.pw, .tenants, .jobs, .jobSeq, .runs, .dies, .links, .dom, .sec, .hm, .out]
  | .healthSweep .. =>
    [.pw, .dies, .hm]
  | .keyRehash .. =>
    [.pw, .keys, .sec, .hm]
  | .bgBehind .. =>
    [.pw, .hm]
  | .gleanerBlockRead .. =>
    [.pw, .keys, .stk, .mem, .hm, .free]
  | .gleanerEscalate .. =>
    [.tm, .mem]
  | .gleanerBehind .. =>
    [.pw, .tm, .mem, .hm]
  | .hbmRefresh .. | .rowRemapCopy .. =>
    [.stk]
  | .rowRemap .. =>
    [.pw, .stk, .hm]
  | .stackLost .. =>
    [.pw, .keys, .stk, .hm]
  | .perstRelease .. =>
    [.ports]
  | .hostPortReturn .. =>
    [.ports, .fns, .tenants, .keys, .installs, .streams, .jobs, .hubs, .hostMem, .out]

/-- The access-stream instructions that store nothing. -/
def storesNothing : List (CcWord → Instr) :=
  [.nop, .lui, .li, .ccAdd, .ccSub, .ccAnd, .ccOr, .ccXor, .ccShl, .ccShr, .ccSar, .ccMin, .ccMax, .ccMul, .ccMulh,
   .ccCmpEq, .ccCmpLt, .ccCmpLtu, .loop, .endl, .ccEnd, .acq, .acqB, .fence, .aqpush, .oqpush, .twait, .tqwait, .ldj,
   .mfs, .dmaq, .req]

end Sys2Proof.Stated

/-- No command changes the queue of those that wait, and each changes no field of the part but those listed for it: what is
not listed (a memory, a table, a counter) is the same in every next state. An access-stream instruction that stores nothing
leaves every loft as it is, unless it meets an uncorrectable row, which is restored. -/
def Obligations.EveryCommandKeepsItsFrame : Prop :=
  (∀ (c : Instr) (s t : State), exec c s = .next t → t.pending = s.pending ∧ ∀ f, f ∉ mayWrite c → f.same s t) ∧
  (∀ mk ∈ storesNothing, ∀ (c : CcWord) (s t : State), Rising s.arrs → (∀ d ∈ c.dets, d.kind ≠ .loftUncorr) →
    exec (mk c) s = .next t →
    ∀ a, (t.arr a).loft = (s.arr a).loft)
end

