-- ==== Sys2Proof/Laws/Map.lean ====
section
/-! SUPPORT. Sparse tables: their canonical form as a property of keys and values, what reading after a change gives, and
that every change keeps the form. The memories (granary, lofts, host memory) are such tables. -/

namespace Sys2Proof.Machine

/-- Keys rise strictly. -/
def KeysRise {α : Type} (m : SMap α) : Prop := (m.map (·.1)).Pairwise (· < ·)

/-- The canonical form is: keys rise, and no value is the default. -/
theorem SMap.wf_iff {α : Type} [DecidableEq α] (d : α) (m : SMap α) :
    SMap.wf d m = true ↔ KeysRise m ∧ ∀ e ∈ m, e.2 ≠ d := by
  induction m with
  | nil => simp [SMap.wf, KeysRise]
  | cons e m ih =>
    obtain ⟨k, v⟩ := e
    cases m with
    | nil => simp [SMap.wf, KeysRise]
    | cons f m =>
      obtain ⟨k', v'⟩ := f
      simp only [SMap.wf, Bool.and_eq_true, decide_eq_true_eq, ih, KeysRise, List.map_cons, List.pairwise_cons,
        List.mem_cons, forall_eq_or_imp]
      constructor
      · rintro ⟨⟨hv, hk⟩, ⟨hlt, hp⟩, hd, hr⟩
        exact ⟨⟨⟨hk, fun a ha => lt_trans hk (hlt a ha)⟩, hlt, hp⟩, hv, hd, hr⟩
      · rintro ⟨⟨⟨hk, _⟩, hlt, hp⟩, hv, hd, hr⟩
        exact ⟨⟨hv, hk⟩, ⟨hlt, hp⟩, hd, hr⟩

/-- Reading a key that stands below every key of a table gives the default. -/
theorem mget_below {α : Type} (d : α) (m : SMap α) (i : Nat) (h : ∀ e ∈ m, i < e.1) : mget d m i = d := by
  induction m with
  | nil => rfl
  | cons e m ih =>
    have h0 : i ≠ e.1 := (h e (by simp)).ne
    simp [mget, h0, ih fun x hx => h x (by simp [hx])]

/-- The keys below a table that rises. -/
theorem KeysRise.tail {α : Type} {e : Nat × α} {m : SMap α} (h : KeysRise (e :: m)) : KeysRise m := by
  simpa [KeysRise] using (List.pairwise_cons.1 h).2

/-- In a table that rises, every later key is above the first. -/
theorem KeysRise.head_lt {α : Type} {e : Nat × α} {m : SMap α} (h : KeysRise (e :: m)) : ∀ f ∈ m, e.1 < f.1 := by
  intro f hf
  exact (List.pairwise_cons.1 h).1 f.1 (List.mem_map_of_mem hf)

/-- What stands in a table after an entry was put in. -/
theorem mem_minsert {α : Type} (m : SMap α) (i : Nat) (v : α) (e : Nat × α) (h : e ∈ minsert m i v) :
    e = (i, v) ∨ e ∈ m := by
  induction m with
  | nil => simpa [minsert] using h
  | cons f m ih =>
    simp only [minsert] at h
    split at h
    · simpa using h
    · split at h
      · rcases List.mem_cons.1 h with h | h
        · exact .inl h
        · exact .inr (by simp [h])
      · rcases List.mem_cons.1 h with h | h
        · exact .inr (by simp [h])
        · rcases ih h with h | h
          · exact .inl h
          · exact .inr (by simp [h])

/-- What stands in a table after a key was taken out stood there before. -/
theorem mem_merase {α : Type} (m : SMap α) (i : Nat) (e : Nat × α) (h : e ∈ merase m i) : e ∈ m := by
  induction m with
  | nil => simp [merase] at h
  | cons f m ih =>
    simp only [merase] at h
    split at h
    · simp [h]
    · rcases List.mem_cons.1 h with h | h
      · simp [h]
      · simp [ih h]

/-- Putting an entry in keeps the keys rising. -/
theorem KeysRise.minsert {α : Type} {m : SMap α} (h : KeysRise m) (i : Nat) (v : α) : KeysRise (minsert m i v) := by
  induction m with
  | nil => simp [Machine.minsert, KeysRise]
  | cons f m ih =>
    have hl := h.head_lt
    simp only [Machine.minsert]
    split
    · next hi =>
      refine List.pairwise_cons.2 ⟨?_, h⟩
      intro a ha
      obtain ⟨x, hx, rfl⟩ := List.mem_map.1 ha
      rcases List.mem_cons.1 hx with rfl | hx
      · exact hi
      · exact lt_trans hi (hl x hx)
    · split
      · next hi =>
        refine List.pairwise_cons.2 ⟨?_, h.tail⟩
        intro a ha
        obtain ⟨x, hx, rfl⟩ := List.mem_map.1 ha
        exact hi ▸ hl x hx
      · next h1 h2 =>
        refine List.pairwise_cons.2 ⟨?_, ih h.tail⟩
        intro a ha
        obtain ⟨x, hx, rfl⟩ := List.mem_map.1 ha
        rcases mem_minsert m i v x hx with rfl | hx
        · show f.1 < i
          omega
        · exact hl x hx

/-- Taking a key out keeps the keys rising. -/
theorem KeysRise.merase {α : Type} {m : SMap α} (h : KeysRise m) (i : Nat) : KeysRise (merase m i) := by
  induction m with
  | nil => simp [Machine.merase, KeysRise]
  | cons f m ih =>
    simp only [Machine.merase]
    split
    · exact h.tail
    · refine List.pairwise_cons.2 ⟨?_, ih h.tail⟩
      intro a ha
      obtain ⟨x, hx, rfl⟩ := List.mem_map.1 ha
      exact h.head_lt x (mem_merase m i x hx)

/-- Setting a key keeps the keys rising. -/
theorem KeysRise.mset {α : Type} [DecidableEq α] {m : SMap α} (h : KeysRise m) (d : α) (i : Nat) (v : α) :
    KeysRise (mset d m i v) := by
  simp only [Machine.mset]
  split
  · exact h.merase i
  · exact h.minsert i v

/-- Reading the key that was put in. -/
theorem mget_minsert_self {α : Type} (d : α) (m : SMap α) (i : Nat) (v : α) : mget d (minsert m i v) i = v := by
  induction m with
  | nil => simp [minsert, mget]
  | cons f m ih =>
    simp only [minsert]
    split
    · simp [mget]
    · split
      · simp [mget]
      · next h1 h2 => simp [mget, h2, ih]

/-- Reading another key than the one that was put in. -/
theorem mget_minsert_of_ne {α : Type} (d : α) (m : SMap α) (i j : Nat) (v : α) (h : j ≠ i) :
    mget d (minsert m i v) j = mget d m j := by
  induction m with
  | nil => simp [minsert, mget, h]
  | cons f m ih =>
    simp only [minsert]
    split
    · simp [mget, h]
    · split
      · next h1 h2 => simp [mget, h, ← h2]
      · simp [mget, ih]

/-- Reading the key that was taken out of a table that rises. -/
theorem mget_merase_self {α : Type} (d : α) {m : SMap α} (h : KeysRise m) (i : Nat) : mget d (merase m i) i = d := by
  induction m with
  | nil => rfl
  | cons f m ih =>
    simp only [merase]
    split
    · next hi => exact mget_below d m i fun e he => hi ▸ h.head_lt e he
    · next hi => simp [mget, hi, ih h.tail]

/-- Reading another key than the one that was taken out. -/
theorem mget_merase_of_ne {α : Type} (d : α) (m : SMap α) (i j : Nat) (h : j ≠ i) :
    mget d (merase m i) j = mget d m j := by
  induction m with
  | nil => rfl
  | cons f m ih =>
    simp only [merase]
    split
    · next hi => simp [mget, ← hi, h]
    · simp [mget, ih]

/-- Reading the key that was set, in a table that rises. -/
theorem mget_mset_self {α : Type} [DecidableEq α] (d : α) {m : SMap α} (h : KeysRise m) (i : Nat) (v : α) :
    mget d (mset d m i v) i = v := by
  simp only [mset]
  split
  · next hv => rw [mget_merase_self d h, hv]
  · exact mget_minsert_self d m i v

/-- Reading the key that was set to something else than the default, in any table. -/
theorem mget_mset_self_of_ne {α : Type} [DecidableEq α] (d : α) (m : SMap α) (i : Nat) (v : α) (h : v ≠ d) :
    mget d (mset d m i v) i = v := by
  simp [mset, h, mget_minsert_self]

/-- Reading another key than the one that was set. -/
theorem mget_mset_of_ne {α : Type} [DecidableEq α] (d : α) (m : SMap α) (i j : Nat) (v : α) (h : j ≠ i) :
    mget d (mset d m i v) j = mget d m j := by
  simp only [mset]
  split
  · exact mget_merase_of_ne d m i j h
  · exact mget_minsert_of_ne d m i j v h

/-- Setting a key keeps the canonical form. -/
theorem SMap.wf_mset {α : Type} [DecidableEq α] {d : α} {m : SMap α} (h : SMap.wf d m = true) (i : Nat) (v : α) :
    SMap.wf d (mset d m i v) = true := by
  obtain ⟨hr, hd⟩ := (SMap.wf_iff d m).1 h
  refine (SMap.wf_iff d _).2 ⟨hr.mset d i v, ?_⟩
  intro e he
  simp only [mset] at he
  split at he
  · exact hd e (mem_merase m i e he)
  · next hv =>
    rcases mem_minsert m i v e he with rfl | he
    · exact hv
    · exact hd e he

/-- Dropping a range of keys keeps the canonical form. -/
theorem SMap.wf_mclear {α : Type} [DecidableEq α] {d : α} {m : SMap α} (h : SMap.wf d m = true) (lo hi : Nat) :
    SMap.wf d (mclear m lo hi) = true := by
  obtain ⟨hr, hd⟩ := (SMap.wf_iff d m).1 h
  refine (SMap.wf_iff d _).2 ⟨?_, fun e he => hd e (List.mem_filter.1 he).1⟩
  exact List.Pairwise.sublist ((List.filter_sublist (l := m)).map _) hr

/-- Setting successive keys keeps the canonical form. -/
theorem SMap.wf_msetRange {α : Type} [DecidableEq α] {d : α} {m : SMap α} (h : SMap.wf d m = true) (i : Nat)
    (vs : List α) : SMap.wf d (msetRange d m i vs) = true := by
  induction vs generalizing m i with
  | nil => exact h
  | cons v vs ih => exact ih (SMap.wf_mset h i v) (i + 1)

/-! ## Memories -/

/-- The empty memory is canonical. -/
@[simp] theorem Memory.wf_nil : Memory.wf [] = true := rfl

/-- Writing a byte keeps a memory canonical. -/
theorem Memory.wf_setByte {m : Memory} (h : Memory.wf m = true) (a : Nat) (v : Byte) :
    Memory.wf (Memory.setByte m a v) = true := SMap.wf_mset h a v

/-- Writing bytes keeps a memory canonical. -/
theorem Memory.wf_write {m : Memory} (h : Memory.wf m = true) (a : Nat) (bs : List Byte) :
    Memory.wf (Memory.write m a bs) = true := SMap.wf_msetRange h a bs

/-- Clearing a range keeps a memory canonical. -/
theorem Memory.wf_clear {m : Memory} (h : Memory.wf m = true) (lo hi : Nat) :
    Memory.wf (mclear m lo hi) = true := SMap.wf_mclear h lo hi

/-- A byte reads as what was written there. -/
theorem Memory.byte_setByte_self {m : Memory} (h : Memory.wf m = true) (a : Nat) (v : Byte) :
    Memory.byte (Memory.setByte m a v) a = v := mget_mset_self 0 ((SMap.wf_iff 0 m).1 h).1 a v

/-- Every other byte reads as before. -/
theorem Memory.byte_setByte_of_ne (m : Memory) (a b : Nat) (v : Byte) (h : b ≠ a) :
    Memory.byte (Memory.setByte m a v) b = Memory.byte m b := mget_mset_of_ne 0 m a b v h

/-- Bytes outside the written range read as before. -/
theorem Memory.byte_write_outside (m : Memory) (a b : Nat) (bs : List Byte) (h : b < a ∨ a + bs.length ≤ b) :
    Memory.byte (Memory.write m a bs) b = Memory.byte m b := by
  induction bs generalizing m a with
  | nil => rfl
  | cons v bs ih =>
    have hb : b ≠ a := by
      simp only [List.length_cons] at h
      omega
    have := ih (Memory.setByte m a v) (a + 1) (by simp only [List.length_cons] at h; omega)
    exact this.trans (Memory.byte_setByte_of_ne m a b v hb)

/-- A byte of the written range reads as what was written. -/
theorem Memory.byte_write_inside {m : Memory} (h : Memory.wf m = true) (a i : Nat) (bs : List Byte) (hi : i < bs.length) :
    Memory.byte (Memory.write m a bs) (a + i) = bs.getD i 0 := by
  induction bs generalizing m a i with
  | nil => simp at hi
  | cons v bs ih =>
    have hw := Memory.wf_setByte h a v
    cases i with
    | zero =>
      have := Memory.byte_write_outside (Memory.setByte m a v) (a + 1) a bs (.inl (by omega))
      exact this.trans (Memory.byte_setByte_self h a v)
    | succ i =>
      have := ih hw (a + 1) i (by simpa using hi)
      rw [show a + (i + 1) = a + 1 + i by omega]
      exact this.trans (by simp)

end Sys2Proof.Machine
end

