-- ==== Sys2Proof/Laws/State.lean ====
section
/-! SUPPORT. What each named update of State leaves in each field: one lemma per field per update, so that no proof unfolds a
record update; then what the units read after one. -/

namespace Sys2Proof.Machine

/-! ## setArr -/

@[simp] theorem State.setArr_pending (s : State) (a : ArrId) (x : Arr) : (s.setArr a x).pending = s.pending := rfl
@[simp] theorem State.setArr_pw (s : State) (a : ArrId) (x : Arr) : (s.setArr a x).pw = s.pw := rfl
@[simp] theorem State.setArr_ports (s : State) (a : ArrId) (x : Arr) : (s.setArr a x).ports = s.ports := rfl
@[simp] theorem State.setArr_fns (s : State) (a : ArrId) (x : Arr) : (s.setArr a x).fns = s.fns := rfl
@[simp] theorem State.setArr_tm (s : State) (a : ArrId) (x : Arr) : (s.setArr a x).tm = s.tm := rfl
@[simp] theorem State.setArr_en (s : State) (a : ArrId) (x : Arr) : (s.setArr a x).en = s.en := rfl
@[simp] theorem State.setArr_mctp (s : State) (a : ArrId) (x : Arr) : (s.setArr a x).mctp = s.mctp := rfl
@[simp] theorem State.setArr_plan (s : State) (a : ArrId) (x : Arr) : (s.setArr a x).plan = s.plan := rfl
@[simp] theorem State.setArr_pc (s : State) (a : ArrId) (x : Arr) : (s.setArr a x).pc = s.pc := rfl
@[simp] theorem State.setArr_vs (s : State) (a : ArrId) (x : Arr) : (s.setArr a x).vs = s.vs := rfl
@[simp] theorem State.setArr_tenants (s : State) (a : ArrId) (x : Arr) : (s.setArr a x).tenants = s.tenants := rfl
@[simp] theorem State.setArr_drrQuantum (s : State) (a : ArrId) (x : Arr) :
    (s.setArr a x).drrQuantum = s.drrQuantum := rfl
@[simp] theorem State.setArr_drrPtr (s : State) (a : ArrId) (x : Arr) : (s.setArr a x).drrPtr = s.drrPtr := rfl
@[simp] theorem State.setArr_keys (s : State) (a : ArrId) (x : Arr) : (s.setArr a x).keys = s.keys := rfl
@[simp] theorem State.setArr_uploads (s : State) (a : ArrId) (x : Arr) : (s.setArr a x).uploads = s.uploads := rfl
@[simp] theorem State.setArr_installs (s : State) (a : ArrId) (x : Arr) : (s.setArr a x).installs = s.installs := rfl
@[simp] theorem State.setArr_streams (s : State) (a : ArrId) (x : Arr) : (s.setArr a x).streams = s.streams := rfl
@[simp] theorem State.setArr_jobs (s : State) (a : ArrId) (x : Arr) : (s.setArr a x).jobs = s.jobs := rfl
@[simp] theorem State.setArr_jobSeq (s : State) (a : ArrId) (x : Arr) : (s.setArr a x).jobSeq = s.jobSeq := rfl
@[simp] theorem State.setArr_runs (s : State) (a : ArrId) (x : Arr) : (s.setArr a x).runs = s.runs := rfl
@[simp] theorem State.setArr_slotStats (s : State) (a : ArrId) (x : Arr) : (s.setArr a x).slotStats = s.slotStats := rfl
@[simp] theorem State.setArr_arrs (s : State) (a : ArrId) (x : Arr) :
    (s.setArr a x).arrs = mset {} s.arrs (slotKey a.die (s.pslot a)) x := rfl
@[simp] theorem State.setArr_dies (s : State) (a : ArrId) (x : Arr) : (s.setArr a x).dies = s.dies := rfl
@[simp] theorem State.setArr_hubs (s : State) (a : ArrId) (x : Arr) : (s.setArr a x).hubs = s.hubs := rfl
@[simp] theorem State.setArr_stk (s : State) (a : ArrId) (x : Arr) : (s.setArr a x).stk = s.stk := rfl
@[simp] theorem State.setArr_mem (s : State) (a : ArrId) (x : Arr) : (s.setArr a x).mem = s.mem := rfl
@[simp] theorem State.setArr_gran (s : State) (a : ArrId) (x : Arr) : (s.setArr a x).gran = s.gran := rfl
@[simp] theorem State.setArr_links (s : State) (a : ArrId) (x : Arr) : (s.setArr a x).links = s.links := rfl
@[simp] theorem State.setArr_dom (s : State) (a : ArrId) (x : Arr) : (s.setArr a x).dom = s.dom := rfl
@[simp] theorem State.setArr_sec (s : State) (a : ArrId) (x : Arr) : (s.setArr a x).sec = s.sec := rfl
@[simp] theorem State.setArr_hm (s : State) (a : ArrId) (x : Arr) : (s.setArr a x).hm = s.hm := rfl
@[simp] theorem State.setArr_sels (s : State) (a : ArrId) (x : Arr) : (s.setArr a x).sels = s.sels := rfl
@[simp] theorem State.setArr_snap (s : State) (a : ArrId) (x : Arr) : (s.setArr a x).snap = s.snap := rfl
@[simp] theorem State.setArr_trace (s : State) (a : ArrId) (x : Arr) : (s.setArr a x).trace = s.trace := rfl
@[simp] theorem State.setArr_dump (s : State) (a : ArrId) (x : Arr) : (s.setArr a x).dump = s.dump := rfl
@[simp] theorem State.setArr_hostMem (s : State) (a : ArrId) (x : Arr) : (s.setArr a x).hostMem = s.hostMem := rfl
@[simp] theorem State.setArr_hostFaults (s : State) (a : ArrId) (x : Arr) :
    (s.setArr a x).hostFaults = s.hostFaults := rfl
@[simp] theorem State.setArr_free (s : State) (a : ArrId) (x : Arr) : (s.setArr a x).free = s.free := rfl
@[simp] theorem State.setArr_out (s : State) (a : ArrId) (x : Arr) : (s.setArr a x).out = s.out := rfl

/-! ## setDie -/

@[simp] theorem State.setDie_pending (s : State) (d : Nat) (x : Die) : (s.setDie d x).pending = s.pending := rfl
@[simp] theorem State.setDie_pw (s : State) (d : Nat) (x : Die) : (s.setDie d x).pw = s.pw := rfl
@[simp] theorem State.setDie_ports (s : State) (d : Nat) (x : Die) : (s.setDie d x).ports = s.ports := rfl
@[simp] theorem State.setDie_fns (s : State) (d : Nat) (x : Die) : (s.setDie d x).fns = s.fns := rfl
@[simp] theorem State.setDie_tm (s : State) (d : Nat) (x : Die) : (s.setDie d x).tm = s.tm := rfl
@[simp] theorem State.setDie_en (s : State) (d : Nat) (x : Die) : (s.setDie d x).en = s.en := rfl
@[simp] theorem State.setDie_mctp (s : State) (d : Nat) (x : Die) : (s.setDie d x).mctp = s.mctp := rfl
@[simp] theorem State.setDie_plan (s : State) (d : Nat) (x : Die) : (s.setDie d x).plan = s.plan := rfl
@[simp] theorem State.setDie_pc (s : State) (d : Nat) (x : Die) : (s.setDie d x).pc = s.pc := rfl
@[simp] theorem State.setDie_vs (s : State) (d : Nat) (x : Die) : (s.setDie d x).vs = s.vs := rfl
@[simp] theorem State.setDie_tenants (s : State) (d : Nat) (x : Die) : (s.setDie d x).tenants = s.tenants := rfl
@[simp] theorem State.setDie_drrQuantum (s : State) (d : Nat) (x : Die) :
    (s.setDie d x).drrQuantum = s.drrQuantum := rfl
@[simp] theorem State.setDie_drrPtr (s : State) (d : Nat) (x : Die) : (s.setDie d x).drrPtr = s.drrPtr := rfl
@[simp] theorem State.setDie_keys (s : State) (d : Nat) (x : Die) : (s.setDie d x).keys = s.keys := rfl
@[simp] theorem State.setDie_uploads (s : State) (d : Nat) (x : Die) : (s.setDie d x).uploads = s.uploads := rfl
@[simp] theorem State.setDie_installs (s : State) (d : Nat) (x : Die) : (s.setDie d x).installs = s.installs := rfl
@[simp] theorem State.setDie_streams (s : State) (d : Nat) (x : Die) : (s.setDie d x).streams = s.streams := rfl
@[simp] theorem State.setDie_jobs (s : State) (d : Nat) (x : Die) : (s.setDie d x).jobs = s.jobs := rfl
@[simp] theorem State.setDie_jobSeq (s : State) (d : Nat) (x : Die) : (s.setDie d x).jobSeq = s.jobSeq := rfl
@[simp] theorem State.setDie_runs (s : State) (d : Nat) (x : Die) : (s.setDie d x).runs = s.runs := rfl
@[simp] theorem State.setDie_slotStats (s : State) (d : Nat) (x : Die) : (s.setDie d x).slotStats = s.slotStats := rfl
@[simp] theorem State.setDie_arrs (s : State) (d : Nat) (x : Die) : (s.setDie d x).arrs = s.arrs := rfl
@[simp] theorem State.setDie_dies (s : State) (d : Nat) (x : Die) : (s.setDie d x).dies = mset {} s.dies d x := rfl
@[simp] theorem State.setDie_hubs (s : State) (d : Nat) (x : Die) : (s.setDie d x).hubs = s.hubs := rfl
@[simp] theorem State.setDie_stk (s : State) (d : Nat) (x : Die) : (s.setDie d x).stk = s.stk := rfl
@[simp] theorem State.setDie_mem (s : State) (d : Nat) (x : Die) : (s.setDie d x).mem = s.mem := rfl
@[simp] theorem State.setDie_gran (s : State) (d : Nat) (x : Die) : (s.setDie d x).gran = s.gran := rfl
@[simp] theorem State.setDie_links (s : State) (d : Nat) (x : Die) : (s.setDie d x).links = s.links := rfl
@[simp] theorem State.setDie_dom (s : State) (d : Nat) (x : Die) : (s.setDie d x).dom = s.dom := rfl
@[simp] theorem State.setDie_sec (s : State) (d : Nat) (x : Die) : (s.setDie d x).sec = s.sec := rfl
@[simp] theorem State.setDie_hm (s : State) (d : Nat) (x : Die) : (s.setDie d x).hm = s.hm := rfl
@[simp] theorem State.setDie_sels (s : State) (d : Nat) (x : Die) : (s.setDie d x).sels = s.sels := rfl
@[simp] theorem State.setDie_snap (s : State) (d : Nat) (x : Die) : (s.setDie d x).snap = s.snap := rfl
@[simp] theorem State.setDie_trace (s : State) (d : Nat) (x : Die) : (s.setDie d x).trace = s.trace := rfl
@[simp] theorem State.setDie_dump (s : State) (d : Nat) (x : Die) : (s.setDie d x).dump = s.dump := rfl
@[simp] theorem State.setDie_hostMem (s : State) (d : Nat) (x : Die) : (s.setDie d x).hostMem = s.hostMem := rfl
@[simp] theorem State.setDie_hostFaults (s : State) (d : Nat) (x : Die) :
    (s.setDie d x).hostFaults = s.hostFaults := rfl
@[simp] theorem State.setDie_free (s : State) (d : Nat) (x : Die) : (s.setDie d x).free = s.free := rfl
@[simp] theorem State.setDie_out (s : State) (d : Nat) (x : Die) : (s.setDie d x).out = s.out := rfl

/-! ## setFn -/

@[simp] theorem State.setFn_pending (s : State) (f : FnId) (x : Fn) : (s.setFn f x).pending = s.pending := rfl
@[simp] theorem State.setFn_pw (s : State) (f : FnId) (x : Fn) : (s.setFn f x).pw = s.pw := rfl
@[simp] theorem State.setFn_ports (s : State) (f : FnId) (x : Fn) : (s.setFn f x).ports = s.ports := rfl
@[simp] theorem State.setFn_fns (s : State) (f : FnId) (x : Fn) : (s.setFn f x).fns = mset {} s.fns (fnKey f) x := rfl
@[simp] theorem State.setFn_tm (s : State) (f : FnId) (x : Fn) : (s.setFn f x).tm = s.tm := rfl
@[simp] theorem State.setFn_en (s : State) (f : FnId) (x : Fn) : (s.setFn f x).en = s.en := rfl
@[simp] theorem State.setFn_mctp (s : State) (f : FnId) (x : Fn) : (s.setFn f x).mctp = s.mctp := rfl
@[simp] theorem State.setFn_plan (s : State) (f : FnId) (x : Fn) : (s.setFn f x).plan = s.plan := rfl
@[simp] theorem State.setFn_pc (s : State) (f : FnId) (x : Fn) : (s.setFn f x).pc = s.pc := rfl
@[simp] theorem State.setFn_vs (s : State) (f : FnId) (x : Fn) : (s.setFn f x).vs = s.vs := rfl
@[simp] theorem State.setFn_tenants (s : State) (f : FnId) (x : Fn) : (s.setFn f x).tenants = s.tenants := rfl
@[simp] theorem State.setFn_drrQuantum (s : State) (f : FnId) (x : Fn) : (s.setFn f x).drrQuantum = s.drrQuantum := rfl
@[simp] theorem State.setFn_drrPtr (s : State) (f : FnId) (x : Fn) : (s.setFn f x).drrPtr = s.drrPtr := rfl
@[simp] theorem State.setFn_keys (s : State) (f : FnId) (x : Fn) : (s.setFn f x).keys = s.keys := rfl
@[simp] theorem State.setFn_uploads (s : State) (f : FnId) (x : Fn) : (s.setFn f x).uploads = s.uploads := rfl
@[simp] theorem State.setFn_installs (s : State) (f : FnId) (x : Fn) : (s.setFn f x).installs = s.installs := rfl
@[simp] theorem State.setFn_streams (s : State) (f : FnId) (x : Fn) : (s.setFn f x).streams = s.streams := rfl
@[simp] theorem State.setFn_jobs (s : State) (f : FnId) (x : Fn) : (s.setFn f x).jobs = s.jobs := rfl
@[simp] theorem State.setFn_jobSeq (s : State) (f : FnId) (x : Fn) : (s.setFn f x).jobSeq = s.jobSeq := rfl
@[simp] theorem State.setFn_runs (s : State) (f : FnId) (x : Fn) : (s.setFn f x).runs = s.runs := rfl
@[simp] theorem State.setFn_slotStats (s : State) (f : FnId) (x : Fn) : (s.setFn f x).slotStats = s.slotStats := rfl
@[simp] theorem State.setFn_arrs (s : State) (f : FnId) (x : Fn) : (s.setFn f x).arrs = s.arrs := rfl
@[simp] theorem State.setFn_dies (s : State) (f : FnId) (x : Fn) : (s.setFn f x).dies = s.dies := rfl
@[simp] theorem State.setFn_hubs (s : State) (f : FnId) (x : Fn) : (s.setFn f x).hubs = s.hubs := rfl
@[simp] theorem State.setFn_stk (s : State) (f : FnId) (x : Fn) : (s.setFn f x).stk = s.stk := rfl
@[simp] theorem State.setFn_mem (s : State) (f : FnId) (x : Fn) : (s.setFn f x).mem = s.mem := rfl
@[simp] theorem State.setFn_gran (s : State) (f : FnId) (x : Fn) : (s.setFn f x).gran = s.gran := rfl
@[simp] theorem State.setFn_links (s : State) (f : FnId) (x : Fn) : (s.setFn f x).links = s.links := rfl
@[simp] theorem State.setFn_dom (s : State) (f : FnId) (x : Fn) : (s.setFn f x).dom = s.dom := rfl
@[simp] theorem State.setFn_sec (s : State) (f : FnId) (x : Fn) : (s.setFn f x).sec = s.sec := rfl
@[simp] theorem State.setFn_hm (s : State) (f : FnId) (x : Fn) : (s.setFn f x).hm = s.hm := rfl
@[simp] theorem State.setFn_sels (s : State) (f : FnId) (x : Fn) : (s.setFn f x).sels = s.sels := rfl
@[simp] theorem State.setFn_snap (s : State) (f : FnId) (x : Fn) : (s.setFn f x).snap = s.snap := rfl
@[simp] theorem State.setFn_trace (s : State) (f : FnId) (x : Fn) : (s.setFn f x).trace = s.trace := rfl
@[simp] theorem State.setFn_dump (s : State) (f : FnId) (x : Fn) : (s.setFn f x).dump = s.dump := rfl
@[simp] theorem State.setFn_hostMem (s : State) (f : FnId) (x : Fn) : (s.setFn f x).hostMem = s.hostMem := rfl
@[simp] theorem State.setFn_hostFaults (s : State) (f : FnId) (x : Fn) : (s.setFn f x).hostFaults = s.hostFaults := rfl
@[simp] theorem State.setFn_free (s : State) (f : FnId) (x : Fn) : (s.setFn f x).free = s.free := rfl
@[simp] theorem State.setFn_out (s : State) (f : FnId) (x : Fn) : (s.setFn f x).out = s.out := rfl

/-! ## setPort -/

@[simp] theorem State.setPort_pending (s : State) (n : Nat) (x : Port) : (s.setPort n x).pending = s.pending := rfl
@[simp] theorem State.setPort_pw (s : State) (n : Nat) (x : Port) : (s.setPort n x).pw = s.pw := rfl
@[simp] theorem State.setPort_ports (s : State) (n : Nat) (x : Port) :
    (s.setPort n x).ports = mset {} s.ports n x := rfl
@[simp] theorem State.setPort_fns (s : State) (n : Nat) (x : Port) : (s.setPort n x).fns = s.fns := rfl
@[simp] theorem State.setPort_tm (s : State) (n : Nat) (x : Port) : (s.setPort n x).tm = s.tm := rfl
@[simp] theorem State.setPort_en (s : State) (n : Nat) (x : Port) : (s.setPort n x).en = s.en := rfl
@[simp] theorem State.setPort_mctp (s : State) (n : Nat) (x : Port) : (s.setPort n x).mctp = s.mctp := rfl
@[simp] theorem State.setPort_plan (s : State) (n : Nat) (x : Port) : (s.setPort n x).plan = s.plan := rfl
@[simp] theorem State.setPort_pc (s : State) (n : Nat) (x : Port) : (s.setPort n x).pc = s.pc := rfl
@[simp] theorem State.setPort_vs (s : State) (n : Nat) (x : Port) : (s.setPort n x).vs = s.vs := rfl
@[simp] theorem State.setPort_tenants (s : State) (n : Nat) (x : Port) : (s.setPort n x).tenants = s.tenants := rfl
@[simp] theorem State.setPort_drrQuantum (s : State) (n : Nat) (x : Port) :
    (s.setPort n x).drrQuantum = s.drrQuantum := rfl
@[simp] theorem State.setPort_drrPtr (s : State) (n : Nat) (x : Port) : (s.setPort n x).drrPtr = s.drrPtr := rfl
@[simp] theorem State.setPort_keys (s : State) (n : Nat) (x : Port) : (s.setPort n x).keys = s.keys := rfl
@[simp] theorem State.setPort_uploads (s : State) (n : Nat) (x : Port) : (s.setPort n x).uploads = s.uploads := rfl
@[simp] theorem State.setPort_installs (s : State) (n : Nat) (x : Port) : (s.setPort n x).installs = s.installs := rfl
@[simp] theorem State.setPort_streams (s : State) (n : Nat) (x : Port) : (s.setPort n x).streams = s.streams := rfl
@[simp] theorem State.setPort_jobs (s : State) (n : Nat) (x : Port) : (s.setPort n x).jobs = s.jobs := rfl
@[simp] theorem State.setPort_jobSeq (s : State) (n : Nat) (x : Port) : (s.setPort n x).jobSeq = s.jobSeq := rfl
@[simp] theorem State.setPort_runs (s : State) (n : Nat) (x : Port) : (s.setPort n x).runs = s.runs := rfl
@[simp] theorem State.setPort_slotStats (s : State) (n : Nat) (x : Port) :
    (s.setPort n x).slotStats = s.slotStats := rfl
@[simp] theorem State.setPort_arrs (s : State) (n : Nat) (x : Port) : (s.setPort n x).arrs = s.arrs := rfl
@[simp] theorem State.setPort_dies (s : State) (n : Nat) (x : Port) : (s.setPort n x).dies = s.dies := rfl
@[simp] theorem State.setPort_hubs (s : State) (n : Nat) (x : Port) : (s.setPort n x).hubs = s.hubs := rfl
@[simp] theorem State.setPort_stk (s : State) (n : Nat) (x : Port) : (s.setPort n x).stk = s.stk := rfl
@[simp] theorem State.setPort_mem (s : State) (n : Nat) (x : Port) : (s.setPort n x).mem = s.mem := rfl
@[simp] theorem State.setPort_gran (s : State) (n : Nat) (x : Port) : (s.setPort n x).gran = s.gran := rfl
@[simp] theorem State.setPort_links (s : State) (n : Nat) (x : Port) : (s.setPort n x).links = s.links := rfl
@[simp] theorem State.setPort_dom (s : State) (n : Nat) (x : Port) : (s.setPort n x).dom = s.dom := rfl
@[simp] theorem State.setPort_sec (s : State) (n : Nat) (x : Port) : (s.setPort n x).sec = s.sec := rfl
@[simp] theorem State.setPort_hm (s : State) (n : Nat) (x : Port) : (s.setPort n x).hm = s.hm := rfl
@[simp] theorem State.setPort_sels (s : State) (n : Nat) (x : Port) : (s.setPort n x).sels = s.sels := rfl
@[simp] theorem State.setPort_snap (s : State) (n : Nat) (x : Port) : (s.setPort n x).snap = s.snap := rfl
@[simp] theorem State.setPort_trace (s : State) (n : Nat) (x : Port) : (s.setPort n x).trace = s.trace := rfl
@[simp] theorem State.setPort_dump (s : State) (n : Nat) (x : Port) : (s.setPort n x).dump = s.dump := rfl
@[simp] theorem State.setPort_hostMem (s : State) (n : Nat) (x : Port) : (s.setPort n x).hostMem = s.hostMem := rfl
@[simp] theorem State.setPort_hostFaults (s : State) (n : Nat) (x : Port) :
    (s.setPort n x).hostFaults = s.hostFaults := rfl
@[simp] theorem State.setPort_free (s : State) (n : Nat) (x : Port) : (s.setPort n x).free = s.free := rfl
@[simp] theorem State.setPort_out (s : State) (n : Nat) (x : Port) : (s.setPort n x).out = s.out := rfl

/-! ## setTenant -/

@[simp] theorem State.setTenant_pending (s : State) (t : Nat) (x : Tenant) :
    (s.setTenant t x).pending = s.pending := rfl
@[simp] theorem State.setTenant_pw (s : State) (t : Nat) (x : Tenant) : (s.setTenant t x).pw = s.pw := rfl
@[simp] theorem State.setTenant_ports (s : State) (t : Nat) (x : Tenant) : (s.setTenant t x).ports = s.ports := rfl
@[simp] theorem State.setTenant_fns (s : State) (t : Nat) (x : Tenant) : (s.setTenant t x).fns = s.fns := rfl
@[simp] theorem State.setTenant_tm (s : State) (t : Nat) (x : Tenant) : (s.setTenant t x).tm = s.tm := rfl
@[simp] theorem State.setTenant_en (s : State) (t : Nat) (x : Tenant) : (s.setTenant t x).en = s.en := rfl
@[simp] theorem State.setTenant_mctp (s : State) (t : Nat) (x : Tenant) : (s.setTenant t x).mctp = s.mctp := rfl
@[simp] theorem State.setTenant_plan (s : State) (t : Nat) (x : Tenant) : (s.setTenant t x).plan = s.plan := rfl
@[simp] theorem State.setTenant_pc (s : State) (t : Nat) (x : Tenant) : (s.setTenant t x).pc = s.pc := rfl
@[simp] theorem State.setTenant_vs (s : State) (t : Nat) (x : Tenant) : (s.setTenant t x).vs = s.vs := rfl
@[simp] theorem State.setTenant_tenants (s : State) (t : Nat) (x : Tenant) :
    (s.setTenant t x).tenants = mset {} s.tenants t x := rfl
@[simp] theorem State.setTenant_drrQuantum (s : State) (t : Nat) (x : Tenant) :
    (s.setTenant t x).drrQuantum = s.drrQuantum := rfl
@[simp] theorem State.setTenant_drrPtr (s : State) (t : Nat) (x : Tenant) : (s.setTenant t x).drrPtr = s.drrPtr := rfl
@[simp] theorem State.setTenant_keys (s : State) (t : Nat) (x : Tenant) : (s.setTenant t x).keys = s.keys := rfl
@[simp] theorem State.setTenant_uploads (s : State) (t : Nat) (x : Tenant) :
    (s.setTenant t x).uploads = s.uploads := rfl
@[simp] theorem State.setTenant_installs (s : State) (t : Nat) (x : Tenant) :
    (s.setTenant t x).installs = s.installs := rfl
@[simp] theorem State.setTenant_streams (s : State) (t : Nat) (x : Tenant) :
    (s.setTenant t x).streams = s.streams := rfl
@[simp] theorem State.setTenant_jobs (s : State) (t : Nat) (x : Tenant) : (s.setTenant t x).jobs = s.jobs := rfl
@[simp] theorem State.setTenant_jobSeq (s : State) (t : Nat) (x : Tenant) : (s.setTenant t x).jobSeq = s.jobSeq := rfl
@[simp] theorem State.setTenant_runs (s : State) (t : Nat) (x : Tenant) : (s.setTenant t x).runs = s.runs := rfl
@[simp] theorem State.setTenant_slotStats (s : State) (t : Nat) (x : Tenant) :
    (s.setTenant t x).slotStats = s.slotStats := rfl
@[simp] theorem State.setTenant_arrs (s : State) (t : Nat) (x : Tenant) : (s.setTenant t x).arrs = s.arrs := rfl
@[simp] theorem State.setTenant_dies (s : State) (t : Nat) (x : Tenant) : (s.setTenant t x).dies = s.dies := rfl
@[simp] theorem State.setTenant_hubs (s : State) (t : Nat) (x : Tenant) : (s.setTenant t x).hubs = s.hubs := rfl
@[simp] theorem State.setTenant_stk (s : State) (t : Nat) (x : Tenant) : (s.setTenant t x).stk = s.stk := rfl
@[simp] theorem State.setTenant_mem (s : State) (t : Nat) (x : Tenant) : (s.setTenant t x).mem = s.mem := rfl
@[simp] theorem State.setTenant_gran (s : State) (t : Nat) (x : Tenant) : (s.setTenant t x).gran = s.gran := rfl
@[simp] theorem State.setTenant_links (s : State) (t : Nat) (x : Tenant) : (s.setTenant t x).links = s.links := rfl
@[simp] theorem State.setTenant_dom (s : State) (t : Nat) (x : Tenant) : (s.setTenant t x).dom = s.dom := rfl
@[simp] theorem State.setTenant_sec (s : State) (t : Nat) (x : Tenant) : (s.setTenant t x).sec = s.sec := rfl
@[simp] theorem State.setTenant_hm (s : State) (t : Nat) (x : Tenant) : (s.setTenant t x).hm = s.hm := rfl
@[simp] theorem State.setTenant_sels (s : State) (t : Nat) (x : Tenant) : (s.setTenant t x).sels = s.sels := rfl
@[simp] theorem State.setTenant_snap (s : State) (t : Nat) (x : Tenant) : (s.setTenant t x).snap = s.snap := rfl
@[simp] theorem State.setTenant_trace (s : State) (t : Nat) (x : Tenant) : (s.setTenant t x).trace = s.trace := rfl
@[simp] theorem State.setTenant_dump (s : State) (t : Nat) (x : Tenant) : (s.setTenant t x).dump = s.dump := rfl
@[simp] theorem State.setTenant_hostMem (s : State) (t : Nat) (x : Tenant) :
    (s.setTenant t x).hostMem = s.hostMem := rfl
@[simp] theorem State.setTenant_hostFaults (s : State) (t : Nat) (x : Tenant) :
    (s.setTenant t x).hostFaults = s.hostFaults := rfl
@[simp] theorem State.setTenant_free (s : State) (t : Nat) (x : Tenant) : (s.setTenant t x).free = s.free := rfl
@[simp] theorem State.setTenant_out (s : State) (t : Nat) (x : Tenant) : (s.setTenant t x).out = s.out := rfl

/-! ## setStream -/

@[simp] theorem State.setStream_pending (s : State) (n : Nat) (x : Stream) :
    (s.setStream n x).pending = s.pending := rfl
@[simp] theorem State.setStream_pw (s : State) (n : Nat) (x : Stream) : (s.setStream n x).pw = s.pw := rfl
@[simp] theorem State.setStream_ports (s : State) (n : Nat) (x : Stream) : (s.setStream n x).ports = s.ports := rfl
@[simp] theorem State.setStream_fns (s : State) (n : Nat) (x : Stream) : (s.setStream n x).fns = s.fns := rfl
@[simp] theorem State.setStream_tm (s : State) (n : Nat) (x : Stream) : (s.setStream n x).tm = s.tm := rfl
@[simp] theorem State.setStream_en (s : State) (n : Nat) (x : Stream) : (s.setStream n x).en = s.en := rfl
@[simp] theorem State.setStream_mctp (s : State) (n : Nat) (x : Stream) : (s.setStream n x).mctp = s.mctp := rfl
@[simp] theorem State.setStream_plan (s : State) (n : Nat) (x : Stream) : (s.setStream n x).plan = s.plan := rfl
@[simp] theorem State.setStream_pc (s : State) (n : Nat) (x : Stream) : (s.setStream n x).pc = s.pc := rfl
@[simp] theorem State.setStream_vs (s : State) (n : Nat) (x : Stream) : (s.setStream n x).vs = s.vs := rfl
@[simp] theorem State.setStream_tenants (s : State) (n : Nat) (x : Stream) :
    (s.setStream n x).tenants = s.tenants := rfl
@[simp] theorem State.setStream_drrQuantum (s : State) (n : Nat) (x : Stream) :
    (s.setStream n x).drrQuantum = s.drrQuantum := rfl
@[simp] theorem State.setStream_drrPtr (s : State) (n : Nat) (x : Stream) : (s.setStream n x).drrPtr = s.drrPtr := rfl
@[simp] theorem State.setStream_keys (s : State) (n : Nat) (x : Stream) : (s.setStream n x).keys = s.keys := rfl
@[simp] theorem State.setStream_uploads (s : State) (n : Nat) (x : Stream) :
    (s.setStream n x).uploads = s.uploads := rfl
@[simp] theorem State.setStream_installs (s : State) (n : Nat) (x : Stream) :
    (s.setStream n x).installs = s.installs := rfl
@[simp] theorem State.setStream_streams (s : State) (n : Nat) (x : Stream) :
    (s.setStream n x).streams = mset {} s.streams n x := rfl
@[simp] theorem State.setStream_jobs (s : State) (n : Nat) (x : Stream) : (s.setStream n x).jobs = s.jobs := rfl
@[simp] theorem State.setStream_jobSeq (s : State) (n : Nat) (x : Stream) : (s.setStream n x).jobSeq = s.jobSeq := rfl
@[simp] theorem State.setStream_runs (s : State) (n : Nat) (x : Stream) : (s.setStream n x).runs = s.runs := rfl
@[simp] theorem State.setStream_slotStats (s : State) (n : Nat) (x : Stream) :
    (s.setStream n x).slotStats = s.slotStats := rfl
@[simp] theorem State.setStream_arrs (s : State) (n : Nat) (x : Stream) : (s.setStream n x).arrs = s.arrs := rfl
@[simp] theorem State.setStream_dies (s : State) (n : Nat) (x : Stream) : (s.setStream n x).dies = s.dies := rfl
@[simp] theorem State.setStream_hubs (s : State) (n : Nat) (x : Stream) : (s.setStream n x).hubs = s.hubs := rfl
@[simp] theorem State.setStream_stk (s : State) (n : Nat) (x : Stream) : (s.setStream n x).stk = s.stk := rfl
@[simp] theorem State.setStream_mem (s : State) (n : Nat) (x : Stream) : (s.setStream n x).mem = s.mem := rfl
@[simp] theorem State.setStream_gran (s : State) (n : Nat) (x : Stream) : (s.setStream n x).gran = s.gran := rfl
@[simp] theorem State.setStream_links (s : State) (n : Nat) (x : Stream) : (s.setStream n x).links = s.links := rfl
@[simp] theorem State.setStream_dom (s : State) (n : Nat) (x : Stream) : (s.setStream n x).dom = s.dom := rfl
@[simp] theorem State.setStream_sec (s : State) (n : Nat) (x : Stream) : (s.setStream n x).sec = s.sec := rfl
@[simp] theorem State.setStream_hm (s : State) (n : Nat) (x : Stream) : (s.setStream n x).hm = s.hm := rfl
@[simp] theorem State.setStream_sels (s : State) (n : Nat) (x : Stream) : (s.setStream n x).sels = s.sels := rfl
@[simp] theorem State.setStream_snap (s : State) (n : Nat) (x : Stream) : (s.setStream n x).snap = s.snap := rfl
@[simp] theorem State.setStream_trace (s : State) (n : Nat) (x : Stream) : (s.setStream n x).trace = s.trace := rfl
@[simp] theorem State.setStream_dump (s : State) (n : Nat) (x : Stream) : (s.setStream n x).dump = s.dump := rfl
@[simp] theorem State.setStream_hostMem (s : State) (n : Nat) (x : Stream) :
    (s.setStream n x).hostMem = s.hostMem := rfl
@[simp] theorem State.setStream_hostFaults (s : State) (n : Nat) (x : Stream) :
    (s.setStream n x).hostFaults = s.hostFaults := rfl
@[simp] theorem State.setStream_free (s : State) (n : Nat) (x : Stream) : (s.setStream n x).free = s.free := rfl
@[simp] theorem State.setStream_out (s : State) (n : Nat) (x : Stream) : (s.setStream n x).out = s.out := rfl

/-! ## setLink -/

@[simp] theorem State.setLink_pending (s : State) (j : Nat) (x : Link) : (s.setLink j x).pending = s.pending := rfl
@[simp] theorem State.setLink_pw (s : State) (j : Nat) (x : Link) : (s.setLink j x).pw = s.pw := rfl
@[simp] theorem State.setLink_ports (s : State) (j : Nat) (x : Link) : (s.setLink j x).ports = s.ports := rfl
@[simp] theorem State.setLink_fns (s : State) (j : Nat) (x : Link) : (s.setLink j x).fns = s.fns := rfl
@[simp] theorem State.setLink_tm (s : State) (j : Nat) (x : Link) : (s.setLink j x).tm = s.tm := rfl
@[simp] theorem State.setLink_en (s : State) (j : Nat) (x : Link) : (s.setLink j x).en = s.en := rfl
@[simp] theorem State.setLink_mctp (s : State) (j : Nat) (x : Link) : (s.setLink j x).mctp = s.mctp := rfl
@[simp] theorem State.setLink_plan (s : State) (j : Nat) (x : Link) : (s.setLink j x).plan = s.plan := rfl
@[simp] theorem State.setLink_pc (s : State) (j : Nat) (x : Link) : (s.setLink j x).pc = s.pc := rfl
@[simp] theorem State.setLink_vs (s : State) (j : Nat) (x : Link) : (s.setLink j x).vs = s.vs := rfl
@[simp] theorem State.setLink_tenants (s : State) (j : Nat) (x : Link) : (s.setLink j x).tenants = s.tenants := rfl
@[simp] theorem State.setLink_drrQuantum (s : State) (j : Nat) (x : Link) :
    (s.setLink j x).drrQuantum = s.drrQuantum := rfl
@[simp] theorem State.setLink_drrPtr (s : State) (j : Nat) (x : Link) : (s.setLink j x).drrPtr = s.drrPtr := rfl
@[simp] theorem State.setLink_keys (s : State) (j : Nat) (x : Link) : (s.setLink j x).keys = s.keys := rfl
@[simp] theorem State.setLink_uploads (s : State) (j : Nat) (x : Link) : (s.setLink j x).uploads = s.uploads := rfl
@[simp] theorem State.setLink_installs (s : State) (j : Nat) (x : Link) : (s.setLink j x).installs = s.installs := rfl
@[simp] theorem State.setLink_streams (s : State) (j : Nat) (x : Link) : (s.setLink j x).streams = s.streams := rfl
@[simp] theorem State.setLink_jobs (s : State) (j : Nat) (x : Link) : (s.setLink j x).jobs = s.jobs := rfl
@[simp] theorem State.setLink_jobSeq (s : State) (j : Nat) (x : Link) : (s.setLink j x).jobSeq = s.jobSeq := rfl
@[simp] theorem State.setLink_runs (s : State) (j : Nat) (x : Link) : (s.setLink j x).runs = s.runs := rfl
@[simp] theorem State.setLink_slotStats (s : State) (j : Nat) (x : Link) :
    (s.setLink j x).slotStats = s.slotStats := rfl
@[simp] theorem State.setLink_arrs (s : State) (j : Nat) (x : Link) : (s.setLink j x).arrs = s.arrs := rfl
@[simp] theorem State.setLink_dies (s : State) (j : Nat) (x : Link) : (s.setLink j x).dies = s.dies := rfl
@[simp] theorem State.setLink_hubs (s : State) (j : Nat) (x : Link) : (s.setLink j x).hubs = s.hubs := rfl
@[simp] theorem State.setLink_stk (s : State) (j : Nat) (x : Link) : (s.setLink j x).stk = s.stk := rfl
@[simp] theorem State.setLink_mem (s : State) (j : Nat) (x : Link) : (s.setLink j x).mem = s.mem := rfl
@[simp] theorem State.setLink_gran (s : State) (j : Nat) (x : Link) : (s.setLink j x).gran = s.gran := rfl
@[simp] theorem State.setLink_links (s : State) (j : Nat) (x : Link) :
    (s.setLink j x).links = mset {} s.links j x := rfl
@[simp] theorem State.setLink_dom (s : State) (j : Nat) (x : Link) : (s.setLink j x).dom = s.dom := rfl
@[simp] theorem State.setLink_sec (s : State) (j : Nat) (x : Link) : (s.setLink j x).sec = s.sec := rfl
@[simp] theorem State.setLink_hm (s : State) (j : Nat) (x : Link) : (s.setLink j x).hm = s.hm := rfl
@[simp] theorem State.setLink_sels (s : State) (j : Nat) (x : Link) : (s.setLink j x).sels = s.sels := rfl
@[simp] theorem State.setLink_snap (s : State) (j : Nat) (x : Link) : (s.setLink j x).snap = s.snap := rfl
@[simp] theorem State.setLink_trace (s : State) (j : Nat) (x : Link) : (s.setLink j x).trace = s.trace := rfl
@[simp] theorem State.setLink_dump (s : State) (j : Nat) (x : Link) : (s.setLink j x).dump = s.dump := rfl
@[simp] theorem State.setLink_hostMem (s : State) (j : Nat) (x : Link) : (s.setLink j x).hostMem = s.hostMem := rfl
@[simp] theorem State.setLink_hostFaults (s : State) (j : Nat) (x : Link) :
    (s.setLink j x).hostFaults = s.hostFaults := rfl
@[simp] theorem State.setLink_free (s : State) (j : Nat) (x : Link) : (s.setLink j x).free = s.free := rfl
@[simp] theorem State.setLink_out (s : State) (j : Nat) (x : Link) : (s.setLink j x).out = s.out := rfl

/-! ## setStack -/

@[simp] theorem State.setStack_pending (s : State) (k : Nat) (x : Stack) : (s.setStack k x).pending = s.pending := rfl
@[simp] theorem State.setStack_pw (s : State) (k : Nat) (x : Stack) : (s.setStack k x).pw = s.pw := rfl
@[simp] theorem State.setStack_ports (s : State) (k : Nat) (x : Stack) : (s.setStack k x).ports = s.ports := rfl
@[simp] theorem State.setStack_fns (s : State) (k : Nat) (x : Stack) : (s.setStack k x).fns = s.fns := rfl
@[simp] theorem State.setStack_tm (s : State) (k : Nat) (x : Stack) : (s.setStack k x).tm = s.tm := rfl
@[simp] theorem State.setStack_en (s : State) (k : Nat) (x : Stack) : (s.setStack k x).en = s.en := rfl
@[simp] theorem State.setStack_mctp (s : State) (k : Nat) (x : Stack) : (s.setStack k x).mctp = s.mctp := rfl
@[simp] theorem State.setStack_plan (s : State) (k : Nat) (x : Stack) : (s.setStack k x).plan = s.plan := rfl
@[simp] theorem State.setStack_pc (s : State) (k : Nat) (x : Stack) : (s.setStack k x).pc = s.pc := rfl
@[simp] theorem State.setStack_vs (s : State) (k : Nat) (x : Stack) : (s.setStack k x).vs = s.vs := rfl
@[simp] theorem State.setStack_tenants (s : State) (k : Nat) (x : Stack) : (s.setStack k x).tenants = s.tenants := rfl
@[simp] theorem State.setStack_drrQuantum (s : State) (k : Nat) (x : Stack) :
    (s.setStack k x).drrQuantum = s.drrQuantum := rfl
@[simp] theorem State.setStack_drrPtr (s : State) (k : Nat) (x : Stack) : (s.setStack k x).drrPtr = s.drrPtr := rfl
@[simp] theorem State.setStack_keys (s : State) (k : Nat) (x : Stack) : (s.setStack k x).keys = s.keys := rfl
@[simp] theorem State.setStack_uploads (s : State) (k : Nat) (x : Stack) : (s.setStack k x).uploads = s.uploads := rfl
@[simp] theorem State.setStack_installs (s : State) (k : Nat) (x : Stack) :
    (s.setStack k x).installs = s.installs := rfl
@[simp] theorem State.setStack_streams (s : State) (k : Nat) (x : Stack) : (s.setStack k x).streams = s.streams := rfl
@[simp] theorem State.setStack_jobs (s : State) (k : Nat) (x : Stack) : (s.setStack k x).jobs = s.jobs := rfl
@[simp] theorem State.setStack_jobSeq (s : State) (k : Nat) (x : Stack) : (s.setStack k x).jobSeq = s.jobSeq := rfl
@[simp] theorem State.setStack_runs (s : State) (k : Nat) (x : Stack) : (s.setStack k x).runs = s.runs := rfl
@[simp] theorem State.setStack_slotStats (s : State) (k : Nat) (x : Stack) :
    (s.setStack k x).slotStats = s.slotStats := rfl
@[simp] theorem State.setStack_arrs (s : State) (k : Nat) (x : Stack) : (s.setStack k x).arrs = s.arrs := rfl
@[simp] theorem State.setStack_dies (s : State) (k : Nat) (x : Stack) : (s.setStack k x).dies = s.dies := rfl
@[simp] theorem State.setStack_hubs (s : State) (k : Nat) (x : Stack) : (s.setStack k x).hubs = s.hubs := rfl
@[simp] theorem State.setStack_stk (s : State) (k : Nat) (x : Stack) : (s.setStack k x).stk = mset {} s.stk k x := rfl
@[simp] theorem State.setStack_mem (s : State) (k : Nat) (x : Stack) : (s.setStack k x).mem = s.mem := rfl
@[simp] theorem State.setStack_gran (s : State) (k : Nat) (x : Stack) : (s.setStack k x).gran = s.gran := rfl
@[simp] theorem State.setStack_links (s : State) (k : Nat) (x : Stack) : (s.setStack k x).links = s.links := rfl
@[simp] theorem State.setStack_dom (s : State) (k : Nat) (x : Stack) : (s.setStack k x).dom = s.dom := rfl
@[simp] theorem State.setStack_sec (s : State) (k : Nat) (x : Stack) : (s.setStack k x).sec = s.sec := rfl
@[simp] theorem State.setStack_hm (s : State) (k : Nat) (x : Stack) : (s.setStack k x).hm = s.hm := rfl
@[simp] theorem State.setStack_sels (s : State) (k : Nat) (x : Stack) : (s.setStack k x).sels = s.sels := rfl
@[simp] theorem State.setStack_snap (s : State) (k : Nat) (x : Stack) : (s.setStack k x).snap = s.snap := rfl
@[simp] theorem State.setStack_trace (s : State) (k : Nat) (x : Stack) : (s.setStack k x).trace = s.trace := rfl
@[simp] theorem State.setStack_dump (s : State) (k : Nat) (x : Stack) : (s.setStack k x).dump = s.dump := rfl
@[simp] theorem State.setStack_hostMem (s : State) (k : Nat) (x : Stack) : (s.setStack k x).hostMem = s.hostMem := rfl
@[simp] theorem State.setStack_hostFaults (s : State) (k : Nat) (x : Stack) :
    (s.setStack k x).hostFaults = s.hostFaults := rfl
@[simp] theorem State.setStack_free (s : State) (k : Nat) (x : Stack) : (s.setStack k x).free = s.free := rfl
@[simp] theorem State.setStack_out (s : State) (k : Nat) (x : Stack) : (s.setStack k x).out = s.out := rfl

/-! ## setHub -/

@[simp] theorem State.setHub_pending (s : State) (h : Nat) (x : HubCache) : (s.setHub h x).pending = s.pending := rfl
@[simp] theorem State.setHub_pw (s : State) (h : Nat) (x : HubCache) : (s.setHub h x).pw = s.pw := rfl
@[simp] theorem State.setHub_ports (s : State) (h : Nat) (x : HubCache) : (s.setHub h x).ports = s.ports := rfl
@[simp] theorem State.setHub_fns (s : State) (h : Nat) (x : HubCache) : (s.setHub h x).fns = s.fns := rfl
@[simp] theorem State.setHub_tm (s : State) (h : Nat) (x : HubCache) : (s.setHub h x).tm = s.tm := rfl
@[simp] theorem State.setHub_en (s : State) (h : Nat) (x : HubCache) : (s.setHub h x).en = s.en := rfl
@[simp] theorem State.setHub_mctp (s : State) (h : Nat) (x : HubCache) : (s.setHub h x).mctp = s.mctp := rfl
@[simp] theorem State.setHub_plan (s : State) (h : Nat) (x : HubCache) : (s.setHub h x).plan = s.plan := rfl
@[simp] theorem State.setHub_pc (s : State) (h : Nat) (x : HubCache) : (s.setHub h x).pc = s.pc := rfl
@[simp] theorem State.setHub_vs (s : State) (h : Nat) (x : HubCache) : (s.setHub h x).vs = s.vs := rfl
@[simp] theorem State.setHub_tenants (s : State) (h : Nat) (x : HubCache) : (s.setHub h x).tenants = s.tenants := rfl
@[simp] theorem State.setHub_drrQuantum (s : State) (h : Nat) (x : HubCache) :
    (s.setHub h x).drrQuantum = s.drrQuantum := rfl
@[simp] theorem State.setHub_drrPtr (s : State) (h : Nat) (x : HubCache) : (s.setHub h x).drrPtr = s.drrPtr := rfl
@[simp] theorem State.setHub_keys (s : State) (h : Nat) (x : HubCache) : (s.setHub h x).keys = s.keys := rfl
@[simp] theorem State.setHub_uploads (s : State) (h : Nat) (x : HubCache) : (s.setHub h x).uploads = s.uploads := rfl
@[simp] theorem State.setHub_installs (s : State) (h : Nat) (x : HubCache) : (s.setHub h x).installs = s.installs := rfl
@[simp] theorem State.setHub_streams (s : State) (h : Nat) (x : HubCache) : (s.setHub h x).streams = s.streams := rfl
@[simp] theorem State.setHub_jobs (s : State) (h : Nat) (x : HubCache) : (s.setHub h x).jobs = s.jobs := rfl
@[simp] theorem State.setHub_jobSeq (s : State) (h : Nat) (x : HubCache) : (s.setHub h x).jobSeq = s.jobSeq := rfl
@[simp] theorem State.setHub_runs (s : State) (h : Nat) (x : HubCache) : (s.setHub h x).runs = s.runs := rfl
@[simp] theorem State.setHub_slotStats (s : State) (h : Nat) (x : HubCache) :
    (s.setHub h x).slotStats = s.slotStats := rfl
@[simp] theorem State.setHub_arrs (s : State) (h : Nat) (x : HubCache) : (s.setHub h x).arrs = s.arrs := rfl
@[simp] theorem State.setHub_dies (s : State) (h : Nat) (x : HubCache) : (s.setHub h x).dies = s.dies := rfl
@[simp] theorem State.setHub_hubs (s : State) (h : Nat) (x : HubCache) : (s.setHub h x).hubs = mset {} s.hubs h x := rfl
@[simp] theorem State.setHub_stk (s : State) (h : Nat) (x : HubCache) : (s.setHub h x).stk = s.stk := rfl
@[simp] theorem State.setHub_mem (s : State) (h : Nat) (x : HubCache) : (s.setHub h x).mem = s.mem := rfl
@[simp] theorem State.setHub_gran (s : State) (h : Nat) (x : HubCache) : (s.setHub h x).gran = s.gran := rfl
@[simp] theorem State.setHub_links (s : State) (h : Nat) (x : HubCache) : (s.setHub h x).links = s.links := rfl
@[simp] theorem State.setHub_dom (s : State) (h : Nat) (x : HubCache) : (s.setHub h x).dom = s.dom := rfl
@[simp] theorem State.setHub_sec (s : State) (h : Nat) (x : HubCache) : (s.setHub h x).sec = s.sec := rfl
@[simp] theorem State.setHub_hm (s : State) (h : Nat) (x : HubCache) : (s.setHub h x).hm = s.hm := rfl
@[simp] theorem State.setHub_sels (s : State) (h : Nat) (x : HubCache) : (s.setHub h x).sels = s.sels := rfl
@[simp] theorem State.setHub_snap (s : State) (h : Nat) (x : HubCache) : (s.setHub h x).snap = s.snap := rfl
@[simp] theorem State.setHub_trace (s : State) (h : Nat) (x : HubCache) : (s.setHub h x).trace = s.trace := rfl
@[simp] theorem State.setHub_dump (s : State) (h : Nat) (x : HubCache) : (s.setHub h x).dump = s.dump := rfl
@[simp] theorem State.setHub_hostMem (s : State) (h : Nat) (x : HubCache) : (s.setHub h x).hostMem = s.hostMem := rfl
@[simp] theorem State.setHub_hostFaults (s : State) (h : Nat) (x : HubCache) :
    (s.setHub h x).hostFaults = s.hostFaults := rfl
@[simp] theorem State.setHub_free (s : State) (h : Nat) (x : HubCache) : (s.setHub h x).free = s.free := rfl
@[simp] theorem State.setHub_out (s : State) (h : Nat) (x : HubCache) : (s.setHub h x).out = s.out := rfl

/-! ## modJob -/

@[simp] theorem State.modJob_pending (s : State) (i : Nat) (f : Job → Job) : (s.modJob i f).pending = s.pending := rfl
@[simp] theorem State.modJob_pw (s : State) (i : Nat) (f : Job → Job) : (s.modJob i f).pw = s.pw := rfl
@[simp] theorem State.modJob_ports (s : State) (i : Nat) (f : Job → Job) : (s.modJob i f).ports = s.ports := rfl
@[simp] theorem State.modJob_fns (s : State) (i : Nat) (f : Job → Job) : (s.modJob i f).fns = s.fns := rfl
@[simp] theorem State.modJob_tm (s : State) (i : Nat) (f : Job → Job) : (s.modJob i f).tm = s.tm := rfl
@[simp] theorem State.modJob_en (s : State) (i : Nat) (f : Job → Job) : (s.modJob i f).en = s.en := rfl
@[simp] theorem State.modJob_mctp (s : State) (i : Nat) (f : Job → Job) : (s.modJob i f).mctp = s.mctp := rfl
@[simp] theorem State.modJob_plan (s : State) (i : Nat) (f : Job → Job) : (s.modJob i f).plan = s.plan := rfl
@[simp] theorem State.modJob_pc (s : State) (i : Nat) (f : Job → Job) : (s.modJob i f).pc = s.pc := rfl
@[simp] theorem State.modJob_vs (s : State) (i : Nat) (f : Job → Job) : (s.modJob i f).vs = s.vs := rfl
@[simp] theorem State.modJob_tenants (s : State) (i : Nat) (f : Job → Job) : (s.modJob i f).tenants = s.tenants := rfl
@[simp] theorem State.modJob_drrQuantum (s : State) (i : Nat) (f : Job → Job) :
    (s.modJob i f).drrQuantum = s.drrQuantum := rfl
@[simp] theorem State.modJob_drrPtr (s : State) (i : Nat) (f : Job → Job) : (s.modJob i f).drrPtr = s.drrPtr := rfl
@[simp] theorem State.modJob_keys (s : State) (i : Nat) (f : Job → Job) : (s.modJob i f).keys = s.keys := rfl
@[simp] theorem State.modJob_uploads (s : State) (i : Nat) (f : Job → Job) : (s.modJob i f).uploads = s.uploads := rfl
@[simp] theorem State.modJob_installs (s : State) (i : Nat) (f : Job → Job) :
    (s.modJob i f).installs = s.installs := rfl
@[simp] theorem State.modJob_streams (s : State) (i : Nat) (f : Job → Job) : (s.modJob i f).streams = s.streams := rfl
@[simp] theorem State.modJob_jobs (s : State) (i : Nat) (f : Job → Job) :
    (s.modJob i f).jobs = s.jobs.map fun j => if j.idx == i then f j else j := rfl
@[simp] theorem State.modJob_jobSeq (s : State) (i : Nat) (f : Job → Job) : (s.modJob i f).jobSeq = s.jobSeq := rfl
@[simp] theorem State.modJob_runs (s : State) (i : Nat) (f : Job → Job) : (s.modJob i f).runs = s.runs := rfl
@[simp] theorem State.modJob_slotStats (s : State) (i : Nat) (f : Job → Job) :
    (s.modJob i f).slotStats = s.slotStats := rfl
@[simp] theorem State.modJob_arrs (s : State) (i : Nat) (f : Job → Job) : (s.modJob i f).arrs = s.arrs := rfl
@[simp] theorem State.modJob_dies (s : State) (i : Nat) (f : Job → Job) : (s.modJob i f).dies = s.dies := rfl
@[simp] theorem State.modJob_hubs (s : State) (i : Nat) (f : Job → Job) : (s.modJob i f).hubs = s.hubs := rfl
@[simp] theorem State.modJob_stk (s : State) (i : Nat) (f : Job → Job) : (s.modJob i f).stk = s.stk := rfl
@[simp] theorem State.modJob_mem (s : State) (i : Nat) (f : Job → Job) : (s.modJob i f).mem = s.mem := rfl
@[simp] theorem State.modJob_gran (s : State) (i : Nat) (f : Job → Job) : (s.modJob i f).gran = s.gran := rfl
@[simp] theorem State.modJob_links (s : State) (i : Nat) (f : Job → Job) : (s.modJob i f).links = s.links := rfl
@[simp] theorem State.modJob_dom (s : State) (i : Nat) (f : Job → Job) : (s.modJob i f).dom = s.dom := rfl
@[simp] theorem State.modJob_sec (s : State) (i : Nat) (f : Job → Job) : (s.modJob i f).sec = s.sec := rfl
@[simp] theorem State.modJob_hm (s : State) (i : Nat) (f : Job → Job) : (s.modJob i f).hm = s.hm := rfl
@[simp] theorem State.modJob_sels (s : State) (i : Nat) (f : Job → Job) : (s.modJob i f).sels = s.sels := rfl
@[simp] theorem State.modJob_snap (s : State) (i : Nat) (f : Job → Job) : (s.modJob i f).snap = s.snap := rfl
@[simp] theorem State.modJob_trace (s : State) (i : Nat) (f : Job → Job) : (s.modJob i f).trace = s.trace := rfl
@[simp] theorem State.modJob_dump (s : State) (i : Nat) (f : Job → Job) : (s.modJob i f).dump = s.dump := rfl
@[simp] theorem State.modJob_hostMem (s : State) (i : Nat) (f : Job → Job) : (s.modJob i f).hostMem = s.hostMem := rfl
@[simp] theorem State.modJob_hostFaults (s : State) (i : Nat) (f : Job → Job) :
    (s.modJob i f).hostFaults = s.hostFaults := rfl
@[simp] theorem State.modJob_free (s : State) (i : Nat) (f : Job → Job) : (s.modJob i f).free = s.free := rfl
@[simp] theorem State.modJob_out (s : State) (i : Nat) (f : Job → Job) : (s.modJob i f).out = s.out := rfl

/-! ## send -/

@[simp] theorem State.send_pending (s : State) (o : Out) : (s.send o).pending = s.pending := rfl
@[simp] theorem State.send_pw (s : State) (o : Out) : (s.send o).pw = s.pw := rfl
@[simp] theorem State.send_ports (s : State) (o : Out) : (s.send o).ports = s.ports := rfl
@[simp] theorem State.send_fns (s : State) (o : Out) : (s.send o).fns = s.fns := rfl
@[simp] theorem State.send_tm (s : State) (o : Out) : (s.send o).tm = s.tm := rfl
@[simp] theorem State.send_en (s : State) (o : Out) : (s.send o).en = s.en := rfl
@[simp] theorem State.send_mctp (s : State) (o : Out) : (s.send o).mctp = s.mctp := rfl
@[simp] theorem State.send_plan (s : State) (o : Out) : (s.send o).plan = s.plan := rfl
@[simp] theorem State.send_pc (s : State) (o : Out) : (s.send o).pc = s.pc := rfl
@[simp] theorem State.send_vs (s : State) (o : Out) : (s.send o).vs = s.vs := rfl
@[simp] theorem State.send_tenants (s : State) (o : Out) : (s.send o).tenants = s.tenants := rfl
@[simp] theorem State.send_drrQuantum (s : State) (o : Out) : (s.send o).drrQuantum = s.drrQuantum := rfl
@[simp] theorem State.send_drrPtr (s : State) (o : Out) : (s.send o).drrPtr = s.drrPtr := rfl
@[simp] theorem State.send_keys (s : State) (o : Out) : (s.send o).keys = s.keys := rfl
@[simp] theorem State.send_uploads (s : State) (o : Out) : (s.send o).uploads = s.uploads := rfl
@[simp] theorem State.send_installs (s : State) (o : Out) : (s.send o).installs = s.installs := rfl
@[simp] theorem State.send_streams (s : State) (o : Out) : (s.send o).streams = s.streams := rfl
@[simp] theorem State.send_jobs (s : State) (o : Out) : (s.send o).jobs = s.jobs := rfl
@[simp] theorem State.send_jobSeq (s : State) (o : Out) : (s.send o).jobSeq = s.jobSeq := rfl
@[simp] theorem State.send_runs (s : State) (o : Out) : (s.send o).runs = s.runs := rfl
@[simp] theorem State.send_slotStats (s : State) (o : Out) : (s.send o).slotStats = s.slotStats := rfl
@[simp] theorem State.send_arrs (s : State) (o : Out) : (s.send o).arrs = s.arrs := rfl
@[simp] theorem State.send_dies (s : State) (o : Out) : (s.send o).dies = s.dies := rfl
@[simp] theorem State.send_hubs (s : State) (o : Out) : (s.send o).hubs = s.hubs := rfl
@[simp] theorem State.send_stk (s : State) (o : Out) : (s.send o).stk = s.stk := rfl
@[simp] theorem State.send_mem (s : State) (o : Out) : (s.send o).mem = s.mem := rfl
@[simp] theorem State.send_gran (s : State) (o : Out) : (s.send o).gran = s.gran := rfl
@[simp] theorem State.send_links (s : State) (o : Out) : (s.send o).links = s.links := rfl
@[simp] theorem State.send_dom (s : State) (o : Out) : (s.send o).dom = s.dom := rfl
@[simp] theorem State.send_sec (s : State) (o : Out) : (s.send o).sec = s.sec := rfl
@[simp] theorem State.send_hm (s : State) (o : Out) : (s.send o).hm = s.hm := rfl
@[simp] theorem State.send_sels (s : State) (o : Out) : (s.send o).sels = s.sels := rfl
@[simp] theorem State.send_snap (s : State) (o : Out) : (s.send o).snap = s.snap := rfl
@[simp] theorem State.send_trace (s : State) (o : Out) : (s.send o).trace = s.trace := rfl
@[simp] theorem State.send_dump (s : State) (o : Out) : (s.send o).dump = s.dump := rfl
@[simp] theorem State.send_hostMem (s : State) (o : Out) : (s.send o).hostMem = s.hostMem := rfl
@[simp] theorem State.send_hostFaults (s : State) (o : Out) : (s.send o).hostFaults = s.hostFaults := rfl
@[simp] theorem State.send_free (s : State) (o : Out) : (s.send o).free = s.free := rfl
@[simp] theorem State.send_out (s : State) (o : Out) : (s.send o).out = s.out ++ [o] := rfl

/-! ## reach -/

@[simp] theorem State.reach_pending (s : State) (n : Nat) : (s.reach n).pending = s.pending := rfl
@[simp] theorem State.reach_pw (s : State) (n : Nat) : (s.reach n).pw = s.pw := rfl
@[simp] theorem State.reach_ports (s : State) (n : Nat) : (s.reach n).ports = s.ports := rfl
@[simp] theorem State.reach_fns (s : State) (n : Nat) : (s.reach n).fns = s.fns := rfl
@[simp] theorem State.reach_tm (s : State) (n : Nat) : (s.reach n).tm = s.tm.reach n := rfl
@[simp] theorem State.reach_en (s : State) (n : Nat) : (s.reach n).en = s.en := rfl
@[simp] theorem State.reach_mctp (s : State) (n : Nat) : (s.reach n).mctp = s.mctp := rfl
@[simp] theorem State.reach_plan (s : State) (n : Nat) : (s.reach n).plan = s.plan := rfl
@[simp] theorem State.reach_pc (s : State) (n : Nat) : (s.reach n).pc = s.pc := rfl
@[simp] theorem State.reach_vs (s : State) (n : Nat) : (s.reach n).vs = s.vs := rfl
@[simp] theorem State.reach_tenants (s : State) (n : Nat) : (s.reach n).tenants = s.tenants := rfl
@[simp] theorem State.reach_drrQuantum (s : State) (n : Nat) : (s.reach n).drrQuantum = s.drrQuantum := rfl
@[simp] theorem State.reach_drrPtr (s : State) (n : Nat) : (s.reach n).drrPtr = s.drrPtr := rfl
@[simp] theorem State.reach_keys (s : State) (n : Nat) : (s.reach n).keys = s.keys := rfl
@[simp] theorem State.reach_uploads (s : State) (n : Nat) : (s.reach n).uploads = s.uploads := rfl
@[simp] theorem State.reach_installs (s : State) (n : Nat) : (s.reach n).installs = s.installs := rfl
@[simp] theorem State.reach_streams (s : State) (n : Nat) : (s.reach n).streams = s.streams := rfl
@[simp] theorem State.reach_jobs (s : State) (n : Nat) : (s.reach n).jobs = s.jobs := rfl
@[simp] theorem State.reach_jobSeq (s : State) (n : Nat) : (s.reach n).jobSeq = s.jobSeq := rfl
@[simp] theorem State.reach_runs (s : State) (n : Nat) : (s.reach n).runs = s.runs := rfl
@[simp] theorem State.reach_slotStats (s : State) (n : Nat) : (s.reach n).slotStats = s.slotStats := rfl
@[simp] theorem State.reach_arrs (s : State) (n : Nat) : (s.reach n).arrs = s.arrs := rfl
@[simp] theorem State.reach_dies (s : State) (n : Nat) : (s.reach n).dies = s.dies := rfl
@[simp] theorem State.reach_hubs (s : State) (n : Nat) : (s.reach n).hubs = s.hubs := rfl
@[simp] theorem State.reach_stk (s : State) (n : Nat) : (s.reach n).stk = s.stk := rfl
@[simp] theorem State.reach_mem (s : State) (n : Nat) : (s.reach n).mem = s.mem := rfl
@[simp] theorem State.reach_gran (s : State) (n : Nat) : (s.reach n).gran = s.gran := rfl
@[simp] theorem State.reach_links (s : State) (n : Nat) : (s.reach n).links = s.links := rfl
@[simp] theorem State.reach_dom (s : State) (n : Nat) : (s.reach n).dom = s.dom := rfl
@[simp] theorem State.reach_sec (s : State) (n : Nat) : (s.reach n).sec = s.sec := rfl
@[simp] theorem State.reach_hm (s : State) (n : Nat) : (s.reach n).hm = s.hm := rfl
@[simp] theorem State.reach_sels (s : State) (n : Nat) : (s.reach n).sels = s.sels := rfl
@[simp] theorem State.reach_snap (s : State) (n : Nat) : (s.reach n).snap = s.snap := rfl
@[simp] theorem State.reach_trace (s : State) (n : Nat) : (s.reach n).trace = s.trace := rfl
@[simp] theorem State.reach_dump (s : State) (n : Nat) : (s.reach n).dump = s.dump := rfl
@[simp] theorem State.reach_hostMem (s : State) (n : Nat) : (s.reach n).hostMem = s.hostMem := rfl
@[simp] theorem State.reach_hostFaults (s : State) (n : Nat) : (s.reach n).hostFaults = s.hostFaults := rfl
@[simp] theorem State.reach_free (s : State) (n : Nat) : (s.reach n).free = s.free := rfl
@[simp] theorem State.reach_out (s : State) (n : Nat) : (s.reach n).out = s.out := rfl

/-! ## What the units read -/

/-- An array reads as it was set. -/
theorem State.arr_setArr_self {s : State} (h : KeysRise s.arrs) (a : ArrId) (x : Arr) : (s.setArr a x).arr a = x :=
  mget_mset_self ({} : Arr) h _ x

/-- An array of another physical place reads as before. -/
theorem State.arr_setArr_of_ne (s : State) (a b : ArrId) (x : Arr)
    (h : slotKey b.die (s.pslot b) ≠ slotKey a.die (s.pslot a)) : (s.setArr a x).arr b = s.arr b :=
  mget_mset_of_ne ({} : Arr) s.arrs _ _ x h

/-- The die that was set. -/
theorem State.die_setDie_self {s : State} (h : KeysRise s.dies) (d : Nat) (x : Die) : (s.setDie d x).die d = x :=
  mget_mset_self ({} : Die) h d x

/-- Another die than the one that was set. -/
theorem State.die_setDie_of_ne (s : State) (d e : Nat) (x : Die) (h : e ≠ d) : (s.setDie d x).die e = s.die e :=
  mget_mset_of_ne ({} : Die) s.dies d e x h

/-- The tenant that was set. -/
theorem State.tenant_setTenant_self {s : State} (h : KeysRise s.tenants) (d : Nat) (x : Tenant) : (s.setTenant d x).tenant d = x :=
  mget_mset_self ({} : Tenant) h d x

/-- Another tenant than the one that was set. -/
theorem State.tenant_setTenant_of_ne (s : State) (d e : Nat) (x : Tenant) (h : e ≠ d) : (s.setTenant d x).tenant e = s.tenant e :=
  mget_mset_of_ne ({} : Tenant) s.tenants d e x h

/-- The stream that was set. -/
theorem State.stream_setStream_self {s : State} (h : KeysRise s.streams) (d : Nat) (x : Stream) : (s.setStream d x).stream d = x :=
  mget_mset_self ({} : Stream) h d x

/-- Another stream than the one that was set. -/
theorem State.stream_setStream_of_ne (s : State) (d e : Nat) (x : Stream) (h : e ≠ d) : (s.setStream d x).stream e = s.stream e :=
  mget_mset_of_ne ({} : Stream) s.streams d e x h

/-- The link that was set. -/
theorem State.link_setLink_self {s : State} (h : KeysRise s.links) (d : Nat) (x : Link) : (s.setLink d x).link d = x :=
  mget_mset_self ({} : Link) h d x

/-- Another link than the one that was set. -/
theorem State.link_setLink_of_ne (s : State) (d e : Nat) (x : Link) (h : e ≠ d) : (s.setLink d x).link e = s.link e :=
  mget_mset_of_ne ({} : Link) s.links d e x h

/-- The stack that was set. -/
theorem State.stack_setStack_self {s : State} (h : KeysRise s.stk) (d : Nat) (x : Stack) : (s.setStack d x).stack d = x :=
  mget_mset_self ({} : Stack) h d x

/-- Another stack than the one that was set. -/
theorem State.stack_setStack_of_ne (s : State) (d e : Nat) (x : Stack) (h : e ≠ d) : (s.setStack d x).stack e = s.stack e :=
  mget_mset_of_ne ({} : Stack) s.stk d e x h

/-- The port that was set. -/
theorem State.port_setPort_self {s : State} (h : KeysRise s.ports) (d : Nat) (x : Port) : (s.setPort d x).port d = x :=
  mget_mset_self ({} : Port) h d x

/-- Another port than the one that was set. -/
theorem State.port_setPort_of_ne (s : State) (d e : Nat) (x : Port) (h : e ≠ d) : (s.setPort d x).port e = s.port e :=
  mget_mset_of_ne ({} : Port) s.ports d e x h

/-- The hub that was set. -/
theorem State.hub_setHub_self {s : State} (h : KeysRise s.hubs) (d : Nat) (x : HubCache) : (s.setHub d x).hub d = x :=
  mget_mset_self ({} : HubCache) h d x

/-- Another hub than the one that was set. -/
theorem State.hub_setHub_of_ne (s : State) (d e : Nat) (x : HubCache) (h : e ≠ d) : (s.setHub d x).hub e = s.hub e :=
  mget_mset_of_ne ({} : HubCache) s.hubs d e x h

end Sys2Proof.Machine
end

