-- ==== Sys2Proof/Laws/Ops.lean ====
section
/-! SUPPORT. What each shared operation can do, once: the guards of every meaning, words, requests and frames. A proof cites
these and does not unfold the operation. -/

namespace Sys2Proof.Machine

/-! ## Guards -/

/-- A command that needs a unit goes on exactly when the unit exists. -/
theorem need_next (ok : Bool) (what : String) (k : Res) (t : State) :
    need ok what k = .next t ↔ ok = true ∧ k = .next t := by
  cases ok <;> simp [need]

/-- A command whose event can arise goes on exactly when it can. -/
theorem arises_next (ok : Bool) (why : String) (k : Res) (t : State) :
    arises ok why k = .next t ↔ ok = true ∧ k = .next t := by
  cases ok <;> simp [arises]

/-- A word goes on exactly when a loaded plan can hold it. -/
theorem formed_next (ok : Bool) (why : String) (k : Res) (t : State) :
    formed ok why k = .next t ↔ ok = true ∧ k = .next t := by
  cases ok <;> simp [formed]

/-- A guard that holds is not seen. -/
@[simp] theorem need_true (what : String) (k : Res) : need true what k = k := rfl
/-- A guard that holds is not seen. -/
@[simp] theorem arises_true (why : String) (k : Res) : arises true why k = k := rfl
/-- A guard that holds is not seen. -/
@[simp] theorem formed_true (why : String) (k : Res) : formed true why k = k := rfl

/-! ## Words -/

/-- An execute word answers a next state exactly when it is well formed on an array of a running slot that issues words, and that state is
what the word does. -/
theorem runExec_next (ok : Bool) (x : Exec) (op : WordOp) (s t : State) :
    runExec ok x op s = .next t ↔
      x.arr.wf = true ∧ ok = true ∧ (s.runOf x.arr).any s.issues = true ∧ s.runWord x op = t := by
  simp [runExec, need_next, formed_next, arises_next]

/-- A word on an array of an abandoned slot changes nothing (R323). -/
theorem runWord_abandoned (s : State) (x : Exec) (op : WordOp) (r : SlotRun) (h : s.runOf x.arr = some r)
    (ha : r.abandoned = true) : s.runWord x op = s := by
  simp [State.runWord, h, ha]

/-- An access-stream word answers a next state exactly when it is well formed on an array of a running slot that issues words. -/
theorem runCore_next (ok : Bool) (c : CcWord) (s t u : State) :
    runCore ok c s t = .next u ↔ c.arr.wf = true ∧ ok = true ∧ (s.runOf c.arr).any s.issues = true ∧ t = u := by
  simp [runCore, need_next, formed_next, arises_next]

/-! ## The dictionary -/

/-- A write is refused and changes nothing, or its entry takes it. -/
theorem dictWrite_cases (s : State) (q : Requester) (index sub : Nat) (bs : List Byte) :
    (∃ c, c ∈ [1, 2, 3, 4, 6, 7, 8] ∧ s.dictWrite q index sub bs = (c, s)) ∨
      s.dictWrite q index sub bs = s.writeVal q index sub bs := by
  have hc : ∀ c, s.closed index true = some c → c = 7 ∨ c = 8 := by
    intro c h
    simp only [State.closed] at h
    split at h
    · split at h <;> simp_all
    · split at h <;> simp_all
    · simp at h
  simp only [State.dictWrite]
  split
  · next c h => exact .inl ⟨c, by rcases hc c h with rfl | rfl <;> simp, rfl⟩
  · split
    · exact .inl ⟨1, by simp, rfl⟩
    · split
      · exact .inl ⟨6, by simp, rfl⟩
      · split
        · exact .inl ⟨2, by simp, rfl⟩
        · split
          · exact .inl ⟨3, by simp, rfl⟩
          · split
            · exact .inl ⟨4, by simp, rfl⟩
            · exact .inr rfl

/-- A read is refused and changes nothing, or answers the entry's value and changes what a read of it changes. -/
theorem dictRead_cases (s : State) (q : Requester) (index sub : Nat) :
    (∃ c, s.dictRead q index sub = (c, [], s)) ∨
      ∃ r, s.row? index sub = some r ∧
        s.dictRead q index sub = (0, encodeVal r.ty (s.readVal q index sub), s.afterRead q index sub) := by
  simp only [State.dictRead]
  split
  · exact .inl ⟨_, rfl⟩
  · split
    · exact .inl ⟨_, rfl⟩
    · next r h =>
      split
      · exact .inl ⟨_, rfl⟩
      · split
        · exact .inl ⟨_, rfl⟩
        · exact .inr ⟨r, h, rfl⟩

/-- A request of a requester that is not answered changes nothing. -/
theorem command_unanswered (s : State) (q : Requester) (index sub : Nat) (bs : List Byte) (h : s.answers q = false) :
    s.command q index sub bs = s := by
  simp [State.command, h]

/-- A request that is answered ends with its response. -/
theorem command_answered (s : State) (q : Requester) (index sub : Nat) (bs : List Byte) (h : s.answers q = true) :
    s.command q index sub bs =
      (s.dictWrite q index sub bs).2.send (.response q (s.dictWrite q index sub bs).1 index sub []) := by
  simp [State.command, h]

/-- A read of a requester that is not answered changes nothing. -/
theorem query_unanswered (s : State) (q : Requester) (index sub : Nat) (h : s.answers q = false) :
    s.query q index sub = s := by
  simp [State.query, h]

/-- A read that is answered ends with its response. -/
theorem query_answered (s : State) (q : Requester) (index sub : Nat) (h : s.answers q = true) :
    s.query q index sub = (s.dictRead q index sub).2.2.send
      (.response q (s.dictRead q index sub).1 index sub (s.dictRead q index sub).2.1) := by
  simp [State.query, h]

/-! ## Frames -/

/-- A frame of a link that carries none changes nothing. -/
theorem receive_silent (s : State) (r : Rx) (p e : Bool) (k : State → State) (h : (s.link r.link).carries = false) :
    s.receive r p e k = s := by
  simp [State.receive, h]

/-- A frame in order, whole and with its tag, on a link with a session, acts on the state that has taken it. -/
theorem receive_accepted (s : State) (r : Rx) (p e : Bool) (k : State → State) (hc : (s.link r.link).carries = true)
    (hw : r.crcOk = true) (ht : r.tagOk = true) (ho : r.fcnt = (s.link r.link).fcntRx)
    (hs : (s.link r.link).session = true) : s.receive r p e k = k (s.takeFrame r) := by
  simp [State.receive, hc, hw, ht, ho, hs]

/-- A frame is dropped, counted as a failed tag, or taken; nothing else happens to it. -/
theorem receive_cases (s : State) (r : Rx) (p e : Bool) (k : State → State) :
    s.receive r p e k = s ∨ s.receive r p e k = s.dropFrame r.link ∨ s.receive r p e k = s.tagFailed r.link ∨
      s.receive r p e k = s.takeFrame r ∨ s.receive r p e k = k (s.takeFrame r) := by
  simp only [State.receive]
  repeat' split
  all_goals simp

/-! ## Host memory -/

/-- A host write faults, or writes its bytes and nothing else. -/
theorem hostWrite_cases (s : State) (f : FnId) (p : BitVec 32) (a : Nat) (bs : List Byte) :
    s.hostWrite f p a bs = none ∨
      s.hostWrite f p a bs = some { s with hostMem := Memory.write s.hostMem (hostKey (hostSpace f p) a) bs } := by
  simp only [State.hostWrite]
  split <;> simp

/-- A host write keeps host memory canonical. -/
theorem hostWrite_wf {s t : State} {f : FnId} {p : BitVec 32} {a : Nat} {bs : List Byte} (h : s.hostWrite f p a bs = some t)
    (hw : Memory.wf s.hostMem = true) : Memory.wf t.hostMem = true := by
  rcases hostWrite_cases s f p a bs with h' | h' <;> rw [h'] at h
  · simp at h
  · obtain rfl := Option.some.inj h
    exact Memory.wf_write hw _ bs

end Sys2Proof.Machine
end

