-- ==== Sys2Proof/Laws/PerInstr.lean ====
section
/-! SUPPORT. A family of statements made per command: a well-formed command that acts on an array names one the part has. -/

namespace Sys2Proof.Laws.Places

/-- The array whose streams, landing buffer or slot a command is about. -/
def arrayOf : Instr → Option ArrId
  | .slotDeadlineAbandon _ a _ _ _ => some a
  | .commandDelay x => some x.arr
  | .cribLoad x => some x.arr
  | .cribStore x => some x.arr
  | .cellMove x => some x.arr
  | .cellMadd x => some x.arr
  | .cellMsub x => some x.arr
  | .cellMneg x => some x.arr
  | .cellMscal x => some x.arr
  | .cellMmul x => some x.arr
  | .cellMmulc x => some x.arr
  | .mac x => some x.arr
  | .macn x => some x.arr
  | .macc x => some x.arr
  | .alpha x => some x.arr
  | .imma x => some x.arr
  | .foldClr x => some x.arr
  | .foldKeep x => some x.arr
  | .ntt x => some x.arr
  | .intt x => some x.arr
  | .auto x => some x.arr
  | .mulx x => some x.arr
  | .vecMadd x => some x.arr
  | .vecMsub x => some x.arr
  | .vecMneg x => some x.arr
  | .vecMmul x => some x.arr
  | .vecMmulc x => some x.arr
  | .vecMscal x => some x.arr
  | .mlift x => some x.arr
  | .mred x => some x.arr
  | .mcen x => some x.arr
  | .vecAdd x => some x.arr
  | .vecSub x => some x.arr
  | .vecMul x => some x.arr
  | .vecMulh x => some x.arr
  | .adds x => some x.arr
  | .subs x => some x.arr
  | .idiv x => some x.arr
  | .vecMin x => some x.arr
  | .vecMax x => some x.arr
  | .vabs x => some x.arr
  | .vneg x => some x.arr
  | .vecAnd x => some x.arr
  | .vecOr x => some x.arr
  | .vecXor x => some x.arr
  | .vnot x => some x.arr
  | .vecShl x => some x.arr
  | .vecShr x => some x.arr
  | .vecSar x => some x.arr
  | .vecCmpEq x => some x.arr
  | .vecCmpNe x => some x.arr
  | .vecCmpLt x => some x.arr
  | .vecCmpLe x => some x.arr
  | .sel x => some x.arr
  | .fadd x => some x.arr
  | .fsub x => some x.arr
  | .fmul x => some x.arr
  | .fma x => some x.arr
  | .fdiv x => some x.arr
  | .fsqrt x => some x.arr
  | .fmin x => some x.arr
  | .fmax x => some x.arr
  | .fabs x => some x.arr
  | .fneg x => some x.arr
  | .fcvt x => some x.arr
  | .cvt x => some x.arr
  | .rsumS x => some x.arr
  | .rsumL x => some x.arr
  | .ccEnd c => some c.arr
  | .ccAdd c => some c.arr
  | .ccSub c => some c.arr
  | .ccAnd c => some c.arr
  | .ccOr c => some c.arr
  | .ccXor c => some c.arr
  | .ccShl c => some c.arr
  | .ccShr c => some c.arr
  | .ccSar c => some c.arr
  | .ccMin c => some c.arr
  | .ccMax c => some c.arr
  | .li c => some c.arr
  | .lui c => some c.arr
  | .ccMul c => some c.arr
  | .ccMulh c => some c.arr
  | .ccCmpEq c => some c.arr
  | .ccCmpLt c => some c.arr
  | .ccCmpLtu c => some c.arr
  | .loop c => some c.arr
  | .endl c => some c.arr
  | .ld c => some c.arr
  | .st c => some c.arr
  | .ldj c => some c.arr
  | .mfs c => some c.arr
  | .aqpush c => some c.arr
  | .oqpush c => some c.arr
  | .tqwait c => some c.arr
  | .ccStallRelease a => some a.arr
  | .xferLc c => some c.arr
  | .xferCl c => some c.arr
  | .dmaq c => some c.arr
  | .req c => some c.arr
  | .acq c => some c.arr
  | .acqB c => some c.arr
  | .fence c => some c.arr
  | .twait c => some c.arr
  | .nop c => some c.arr
  | .blockWrite b => some b.arr
  | .loftArrival a => some a
  | .modularAdd a => some a.arr
  | .int32Add a => some a.arr
  | .fp32Add a => some a.arr
  | .atomicMin a => some a.arr
  | .atomicMax a => some a.arr
  | .swap a => some a.arr
  | .compareAndSwap a => some a.arr
  | _ => none

/-- A well-formed command that is about an array names one of R10. -/
def Statement (i : Instr) : Prop := i.wf = true → ∀ a, arrayOf i = some a → a.wf = true

theorem andLeft {a b : Bool} (h : (a && b) = true) : a = true := (Bool.and_eq_true_iff.1 h).1
theorem andRight {a b : Bool} (h : (a && b) = true) : b = true := (Bool.and_eq_true_iff.1 h).2
theorem cellOk_arr {x : Exec} {o : BitVec 6} (h : x.cellOk o = true) : x.arr.wf = true := andLeft (andLeft h)
theorem foldOk_arr {x : Exec} {o : BitVec 4} (h : x.foldOk o = true) : x.arr.wf = true := andLeft (andLeft h)
theorem netOk_arr {x : Exec} {o : BitVec 4} (h : x.netOk o = true) : x.arr.wf = true := andLeft (andLeft h)
theorem vecOk_arr {x : Exec} {o : BitVec 7} (h : x.vecOk o = true) : x.arr.wf = true := andLeft (andLeft h)
theorem xferOk_arr {x : Exec} {o : BitVec 2} (h : x.xferOk o = true) : x.arr.wf = true := andLeft (andLeft h)
theorem delayOk_arr {x : Exec} (h : x.delayOk = true) : x.arr.wf = true :=
  andLeft (andLeft (andLeft (andLeft (andLeft (andLeft h)))))
theorem fields_arr {c : CcWord} {a b d e f : Bool} (h : c.fields a b d e f = true) : c.arr.wf = true :=
  andLeft (andLeft (andLeft (andLeft (andLeft h))))
theorem binOk_arr {c : CcWord} (h : c.binOk = true) : c.arr.wf = true := fields_arr (andRight h)
theorem cmpOk_arr {c : CcWord} (h : c.cmpOk = true) : c.arr.wf = true := binOk_arr (andLeft h)

theorem pwrgoodAssert (env : BootEnv) : Statement (.pwrgoodAssert env) := fun _ _ e => nomatch e
theorem pwrgoodDeassert : Statement .pwrgoodDeassert := fun _ _ e => nomatch e
theorem perstBothWarmReset (env : BootEnv) : Statement (.perstBothWarmReset env) := fun _ _ e => nomatch e
theorem portReset (port : Nat) : Statement (.portReset port) := fun _ _ e => nomatch e
theorem functionLevelReset (f : FnId) : Statement (.functionLevelReset f) := fun _ _ e => nomatch e
theorem busMasterEnableSet (f : FnEnable) : Statement (.busMasterEnableSet f) := fun _ _ e => nomatch e
theorem msixUnmask (f : FnId) (v : MsixVec) : Statement (.msixUnmask f v) := fun _ _ e => nomatch e
theorem hostPortFailure (port : Nat) : Statement (.hostPortFailure port) := fun _ _ e => nomatch e
theorem refclkLock (env : BootEnv) : Statement (.refclkLock env) := fun _ _ e => nomatch e
theorem refclkStateChange (st : RefState) : Statement (.refclkStateChange st) := fun _ _ e => nomatch e
theorem bootComplete : Statement .bootComplete := fun _ _ e => nomatch e
theorem thermalBootHoldRelease : Statement .thermalBootHoldRelease := fun _ _ e => nomatch e
theorem linkStart (r : TrainRef) : Statement (.linkStart r) := fun _ _ e => nomatch e
theorem notReadyWaitExpiry (r : TrainRef) : Statement (.notReadyWaitExpiry r) := fun _ _ e => nomatch e
theorem trainingRetry (r : TrainRef) : Statement (.trainingRetry r) := fun _ _ e => nomatch e
theorem laneFailure (j : Nat) (lane : Nat) : Statement (.laneFailure j lane) := fun _ _ e => nomatch e
theorem flockLoss (j : Nat) : Statement (.flockLoss j) := fun _ _ e => nomatch e
theorem idle (rx : Rx) : Statement (.idle rx) := fun _ _ e => nomatch e
theorem openFrame (rx : Rx) (o : OpenBody) : Statement (.openFrame rx o) := fun _ _ e => nomatch e
theorem dataFrame (rx : Rx) (payload : List Byte) : Statement (.dataFrame rx payload) := fun _ _ e => nomatch e
theorem lack (rx : Rx) (es : List LackEntry) : Statement (.lack rx es) := fun _ _ e => nomatch e
theorem nak (rx : Rx) (expect : Nat) : Statement (.nak rx expect) := fun _ _ e => nomatch e
theorem delayFrame (rx : Rx) (tTx : Nat) (echoTx : Nat) (echoRx : Nat) (rxTime : Nat) : Statement (.delayFrame rx tTx echoTx echoRx rxTime) := fun _ _ e => nomatch e
theorem hello (rx : Rx) (h : HelloBody) : Statement (.hello rx h) := fun _ _ e => nomatch e
theorem kex (rx : Rx) (frag : Nat) (lastFrag : Bool) (body : List Byte) : Statement (.kex rx frag lastFrag body) := fun _ _ e => nomatch e
theorem rekey (rx : Rx) (b : RekeyBody) : Statement (.rekey rx b) := fun _ _ e => nomatch e
theorem pathDown (rx : Rx) (chan : Nat) (reason : Nat) : Statement (.pathDown rx chan reason) := fun _ _ e => nomatch e
theorem pathUp (rx : Rx) (chan : Nat) (epoch : Nat) : Statement (.pathUp rx chan epoch) := fun _ _ e => nomatch e
theorem rekeyStart (j : Nat) : Statement (.rekeyStart j) := fun _ _ e => nomatch e
theorem rekeyRetry (j : Nat) : Statement (.rekeyRetry j) := fun _ _ e => nomatch e
theorem sessionKeySwitch (j : Nat) (tx : Bool) : Statement (.sessionKeySwitch j tx) := fun _ _ e => nomatch e
theorem scntHalt (j : Nat) (tx : Bool) : Statement (.scntHalt j tx) := fun _ _ e => nomatch e
theorem authFailLimit (j : Nat) : Statement (.authFailLimit j) := fun _ _ e => nomatch e
theorem join (rx : Rx) (d : DHdr) (planId : Nat) (digest : List Byte) : Statement (.join rx d planId digest) := fun _ _ e => nomatch e
theorem accept (rx : Rx) (d : DHdr) (firstEpoch : Nat) (second : Nat) (members : List Nat) : Statement (.accept rx d firstEpoch second members) := fun _ _ e => nomatch e
theorem joinRefused (rx : Rx) (d : DHdr) (reason : Nat) : Statement (.joinRefused rx d reason) := fun _ _ e => nomatch e
theorem acceptTimeout : Statement .acceptTimeout := fun _ _ e => nomatch e
theorem ready (rx : Rx) (d : DHdr) (jobId : Nat) (prog : Nat) (tenant : Nat) : Statement (.ready rx d jobId prog tenant) := fun _ _ e => nomatch e
theorem refuse (rx : Rx) (d : DHdr) (jobId : Nat) (code : Nat) : Statement (.refuse rx d jobId code) := fun _ _ e => nomatch e
theorem admitJob (rx : Rx) (d : DHdr) (jobId : Nat) (aseq : Nat) : Statement (.admitJob rx d jobId aseq) := fun _ _ e => nomatch e
theorem admitWaitExpiry (jobId : Nat) : Statement (.admitWaitExpiry jobId) := fun _ _ e => nomatch e
theorem leadBindDecision (epoch : Nat) (slot : Nat) : Statement (.leadBindDecision epoch slot) := fun _ _ e => nomatch e
theorem bind (rx : Rx) (d : DHdr) (epoch : Nat) (slot : Nat) (es : List BindEntry) : Statement (.bind rx d epoch slot es) := fun _ _ e => nomatch e
theorem tick (rx : Rx) (d : DHdr) (lead : Nat) (deputy : Nat) (admitted : Nat) (members : List Nat) : Statement (.tick rx d lead deputy admitted members) := fun _ _ e => nomatch e
theorem leadLost : Statement .leadLost := fun _ _ e => nomatch e
theorem abandon (rx : Rx) (d : DHdr) (jobId : Nat) (inc : Nat) (cause : Nat) : Statement (.abandon rx d jobId inc cause) := fun _ _ e => nomatch e
theorem leave (rx : Rx) (d : DHdr) (reason : Nat) : Statement (.leave rx d reason) := fun _ _ e => nomatch e
theorem domainRejoin : Statement .domainRejoin := fun _ _ e => nomatch e
theorem vdecide (rx : Rx) (d : DHdr) (variant : Nat) (e : Nat) : Statement (.vdecide rx d variant e) := fun _ _ e => nomatch e
theorem vannounce (rx : Rx) (d : DHdr) (origin : Nat) (variant : Nat) (e : Nat) : Statement (.vannounce rx d origin variant e) := fun _ _ e => nomatch e
theorem vack (rx : Rx) (d : DHdr) (origin : Nat) (e : Nat) : Statement (.vack rx d origin e) := fun _ _ e => nomatch e
theorem resident (rx : Rx) (d : DHdr) (tenant : Nat) (keyId : Nat) (st : Nat) : Statement (.resident rx d tenant keyId st) := fun _ _ e => nomatch e
theorem qreq (rx : Rx) (d : DHdr) : Statement (.qreq rx d) := fun _ _ e => nomatch e
theorem qreport (rx : Rx) (d : DHdr) (frag : Nat) (lastFrag : Bool) (es : List (Nat × Nat)) : Statement (.qreport rx d frag lastFrag es) := fun _ _ e => nomatch e
theorem failjob (rx : Rx) (d : DHdr) (jobId : Nat) (inc : Nat) (status : Nat) (detail : Nat) : Statement (.failjob rx d jobId inc status detail) := fun _ _ e => nomatch e
theorem mgmtRead (rx : Rx) (m : MgmtMsg) : Statement (.mgmtRead rx m) := fun _ _ e => nomatch e
theorem mgmtWrite (rx : Rx) (m : MgmtMsg) : Statement (.mgmtWrite rx m) := fun _ _ e => nomatch e
theorem mgmtResponse (rx : Rx) (m : MgmtMsg) : Statement (.mgmtResponse rx m) := fun _ _ e => nomatch e
theorem mgmtTimeout (tag : Nat) : Statement (.mgmtTimeout tag) := fun _ _ e => nomatch e
theorem ppsEdge (edge : PpsEdge) : Statement (.ppsEdge edge) := fun _ _ e => nomatch e
theorem ppsLost : Statement .ppsLost := fun _ _ e => nomatch e
theorem timeSet (q : Requester) (value : List Byte) : Statement (.timeSet q value) := fun _ _ e => nomatch e
theorem epochBoundary : Statement .epochBoundary := fun _ _ e => nomatch e
theorem gearRelockDone : Statement .gearRelockDone := fun _ _ e => nomatch e
theorem bindPoint (epoch : Nat) (slot : Nat) : Statement (.bindPoint epoch slot) := fun _ _ e => nomatch e
theorem slotStart (slot : SlotBegin) : Statement (.slotStart slot) := fun _ _ e => nomatch e
theorem fallowSlotStart (slot : Nat) (replicas : List (Nat × Nat)) : Statement (.fallowSlotStart slot replicas) := fun _ _ e => nomatch e
theorem slotEnd (slot : Nat) : Statement (.slotEnd slot) := fun _ _ e => nomatch e
theorem slotPacedAbandon (slot : Nat) : Statement (.slotPacedAbandon slot) := fun _ _ e => nomatch e
theorem slotDeadlineAbandon (slot : Nat) (a : ArrId) (group : Nat) (cycle : Nat) (tag : Nat) : Statement (.slotDeadlineAbandon slot a group cycle tag) := fun h _ e => by cases e; exact h
theorem releaseSlot : Statement .releaseSlot := fun _ _ e => nomatch e
theorem commandDelay (x : Exec) : Statement (.commandDelay x) := fun h _ e => by cases e; exact delayOk_arr h
theorem cribLoad (x : Exec) : Statement (.cribLoad x) := fun h _ e => by cases e; exact xferOk_arr h
theorem cribStore (x : Exec) : Statement (.cribStore x) := fun h _ e => by cases e; exact xferOk_arr h
theorem cellMove (x : Exec) : Statement (.cellMove x) := fun h _ e => by cases e; exact cellOk_arr h
theorem cellMadd (x : Exec) : Statement (.cellMadd x) := fun h _ e => by cases e; exact cellOk_arr h
theorem cellMsub (x : Exec) : Statement (.cellMsub x) := fun h _ e => by cases e; exact cellOk_arr h
theorem cellMneg (x : Exec) : Statement (.cellMneg x) := fun h _ e => by cases e; exact cellOk_arr h
theorem cellMscal (x : Exec) : Statement (.cellMscal x) := fun h _ e => by cases e; exact cellOk_arr h
theorem cellMmul (x : Exec) : Statement (.cellMmul x) := fun h _ e => by cases e; exact cellOk_arr h
theorem cellMmulc (x : Exec) : Statement (.cellMmulc x) := fun h _ e => by cases e; exact cellOk_arr h
theorem mac (x : Exec) : Statement (.mac x) := fun h _ e => by cases e; exact cellOk_arr h
theorem macn (x : Exec) : Statement (.macn x) := fun h _ e => by cases e; exact cellOk_arr h
theorem macc (x : Exec) : Statement (.macc x) := fun h _ e => by cases e; exact cellOk_arr h
theorem alpha (x : Exec) : Statement (.alpha x) := fun h _ e => by cases e; exact cellOk_arr h
theorem imma (x : Exec) : Statement (.imma x) := fun h _ e => by cases e; exact cellOk_arr h
theorem foldClr (x : Exec) : Statement (.foldClr x) := fun h _ e => by cases e; exact foldOk_arr h
theorem foldKeep (x : Exec) : Statement (.foldKeep x) := fun h _ e => by cases e; exact foldOk_arr h
theorem ntt (x : Exec) : Statement (.ntt x) := fun h _ e => by cases e; exact cellOk_arr h
theorem intt (x : Exec) : Statement (.intt x) := fun h _ e => by cases e; exact cellOk_arr h
theorem auto (x : Exec) : Statement (.auto x) := fun h _ e => by cases e; exact netOk_arr h
theorem mulx (x : Exec) : Statement (.mulx x) := fun h _ e => by cases e; exact netOk_arr h
theorem vecMadd (x : Exec) : Statement (.vecMadd x) := fun h _ e => by cases e; exact vecOk_arr h
theorem vecMsub (x : Exec) : Statement (.vecMsub x) := fun h _ e => by cases e; exact vecOk_arr h
theorem vecMneg (x : Exec) : Statement (.vecMneg x) := fun h _ e => by cases e; exact vecOk_arr h
theorem vecMmul (x : Exec) : Statement (.vecMmul x) := fun h _ e => by cases e; exact vecOk_arr h
theorem vecMmulc (x : Exec) : Statement (.vecMmulc x) := fun h _ e => by cases e; exact vecOk_arr h
theorem vecMscal (x : Exec) : Statement (.vecMscal x) := fun h _ e => by cases e; exact vecOk_arr h
theorem mlift (x : Exec) : Statement (.mlift x) := fun h _ e => by cases e; exact vecOk_arr h
theorem mred (x : Exec) : Statement (.mred x) := fun h _ e => by cases e; exact vecOk_arr h
theorem mcen (x : Exec) : Statement (.mcen x) := fun h _ e => by cases e; exact vecOk_arr h
theorem vecAdd (x : Exec) : Statement (.vecAdd x) := fun h _ e => by cases e; exact vecOk_arr h
theorem vecSub (x : Exec) : Statement (.vecSub x) := fun h _ e => by cases e; exact vecOk_arr h
theorem vecMul (x : Exec) : Statement (.vecMul x) := fun h _ e => by cases e; exact vecOk_arr h
theorem vecMulh (x : Exec) : Statement (.vecMulh x) := fun h _ e => by cases e; exact vecOk_arr h
theorem adds (x : Exec) : Statement (.adds x) := fun h _ e => by cases e; exact vecOk_arr h
theorem subs (x : Exec) : Statement (.subs x) := fun h _ e => by cases e; exact vecOk_arr h
theorem idiv (x : Exec) : Statement (.idiv x) := fun h _ e => by cases e; exact vecOk_arr h
theorem vecMin (x : Exec) : Statement (.vecMin x) := fun h _ e => by cases e; exact vecOk_arr h
theorem vecMax (x : Exec) : Statement (.vecMax x) := fun h _ e => by cases e; exact vecOk_arr h
theorem vabs (x : Exec) : Statement (.vabs x) := fun h _ e => by cases e; exact vecOk_arr h
theorem vneg (x : Exec) : Statement (.vneg x) := fun h _ e => by cases e; exact vecOk_arr h
theorem vecAnd (x : Exec) : Statement (.vecAnd x) := fun h _ e => by cases e; exact vecOk_arr h
theorem vecOr (x : Exec) : Statement (.vecOr x) := fun h _ e => by cases e; exact vecOk_arr h
theorem vecXor (x : Exec) : Statement (.vecXor x) := fun h _ e => by cases e; exact vecOk_arr h
theorem vnot (x : Exec) : Statement (.vnot x) := fun h _ e => by cases e; exact vecOk_arr h
theorem vecShl (x : Exec) : Statement (.vecShl x) := fun h _ e => by cases e; exact vecOk_arr h
theorem vecShr (x : Exec) : Statement (.vecShr x) := fun h _ e => by cases e; exact vecOk_arr h
theorem vecSar (x : Exec) : Statement (.vecSar x) := fun h _ e => by cases e; exact vecOk_arr h
theorem vecCmpEq (x : Exec) : Statement (.vecCmpEq x) := fun h _ e => by cases e; exact vecOk_arr h
theorem vecCmpNe (x : Exec) : Statement (.vecCmpNe x) := fun h _ e => by cases e; exact vecOk_arr h
theorem vecCmpLt (x : Exec) : Statement (.vecCmpLt x) := fun h _ e => by cases e; exact vecOk_arr h
theorem vecCmpLe (x : Exec) : Statement (.vecCmpLe x) := fun h _ e => by cases e; exact vecOk_arr h
theorem sel (x : Exec) : Statement (.sel x) := fun h _ e => by cases e; exact vecOk_arr h
theorem fadd (x : Exec) : Statement (.fadd x) := fun h _ e => by cases e; exact vecOk_arr h
theorem fsub (x : Exec) : Statement (.fsub x) := fun h _ e => by cases e; exact vecOk_arr h
theorem fmul (x : Exec) : Statement (.fmul x) := fun h _ e => by cases e; exact vecOk_arr h
theorem fma (x : Exec) : Statement (.fma x) := fun h _ e => by cases e; exact vecOk_arr h
theorem fdiv (x : Exec) : Statement (.fdiv x) := fun h _ e => by cases e; exact vecOk_arr h
theorem fsqrt (x : Exec) : Statement (.fsqrt x) := fun h _ e => by cases e; exact vecOk_arr h
theorem fmin (x : Exec) : Statement (.fmin x) := fun h _ e => by cases e; exact vecOk_arr h
theorem fmax (x : Exec) : Statement (.fmax x) := fun h _ e => by cases e; exact vecOk_arr h
theorem fabs (x : Exec) : Statement (.fabs x) := fun h _ e => by cases e; exact vecOk_arr h
theorem fneg (x : Exec) : Statement (.fneg x) := fun h _ e => by cases e; exact vecOk_arr h
theorem fcvt (x : Exec) : Statement (.fcvt x) := fun h _ e => by cases e; exact vecOk_arr h
theorem cvt (x : Exec) : Statement (.cvt x) := fun h _ e => by cases e; exact vecOk_arr h
theorem rsumS (x : Exec) : Statement (.rsumS x) := fun h _ e => by cases e; exact vecOk_arr h
theorem rsumL (x : Exec) : Statement (.rsumL x) := fun h _ e => by cases e; exact vecOk_arr h
theorem ccEnd (c : CcWord) : Statement (.ccEnd c) := fun h _ e => by cases e; exact fields_arr (andRight h)
theorem ccAdd (c : CcWord) : Statement (.ccAdd c) := fun h _ e => by cases e; exact binOk_arr h
theorem ccSub (c : CcWord) : Statement (.ccSub c) := fun h _ e => by cases e; exact binOk_arr h
theorem ccAnd (c : CcWord) : Statement (.ccAnd c) := fun h _ e => by cases e; exact binOk_arr h
theorem ccOr (c : CcWord) : Statement (.ccOr c) := fun h _ e => by cases e; exact binOk_arr h
theorem ccXor (c : CcWord) : Statement (.ccXor c) := fun h _ e => by cases e; exact binOk_arr h
theorem ccShl (c : CcWord) : Statement (.ccShl c) := fun h _ e => by cases e; exact binOk_arr h
theorem ccShr (c : CcWord) : Statement (.ccShr c) := fun h _ e => by cases e; exact binOk_arr h
theorem ccSar (c : CcWord) : Statement (.ccSar c) := fun h _ e => by cases e; exact binOk_arr h
theorem ccMin (c : CcWord) : Statement (.ccMin c) := fun h _ e => by cases e; exact binOk_arr h
theorem ccMax (c : CcWord) : Statement (.ccMax c) := fun h _ e => by cases e; exact binOk_arr h
theorem li (c : CcWord) : Statement (.li c) := fun h _ e => by cases e; exact fields_arr h
theorem lui (c : CcWord) : Statement (.lui c) := fun h _ e => by cases e; exact fields_arr h
theorem ccMul (c : CcWord) : Statement (.ccMul c) := fun h _ e => by cases e; exact fields_arr h
theorem ccMulh (c : CcWord) : Statement (.ccMulh c) := fun h _ e => by cases e; exact fields_arr h
theorem ccCmpEq (c : CcWord) : Statement (.ccCmpEq c) := fun h _ e => by cases e; exact cmpOk_arr h
theorem ccCmpLt (c : CcWord) : Statement (.ccCmpLt c) := fun h _ e => by cases e; exact cmpOk_arr h
theorem ccCmpLtu (c : CcWord) : Statement (.ccCmpLtu c) := fun h _ e => by cases e; exact cmpOk_arr h
theorem loop (c : CcWord) : Statement (.loop c) := fun h _ e => by cases e; exact fields_arr (andRight h)
theorem endl (c : CcWord) : Statement (.endl c) := fun h _ e => by cases e; exact fields_arr (andRight h)
theorem ld (c : CcWord) : Statement (.ld c) := fun h _ e => by cases e; exact fields_arr (andLeft h)
theorem st (c : CcWord) : Statement (.st c) := fun h _ e => by cases e; exact fields_arr (andLeft h)
theorem ldj (c : CcWord) : Statement (.ldj c) := fun h _ e => by cases e; exact fields_arr (andLeft h)
theorem mfs (c : CcWord) : Statement (.mfs c) := fun h _ e => by cases e; exact fields_arr (andLeft h)
theorem aqpush (c : CcWord) : Statement (.aqpush c) := fun h _ e => by cases e; exact fields_arr h
theorem oqpush (c : CcWord) : Statement (.oqpush c) := fun h _ e => by cases e; exact fields_arr h
theorem tqwait (c : CcWord) : Statement (.tqwait c) := fun h _ e => by cases e; exact fields_arr (andLeft h)
theorem ccStallRelease (a : ReadRef) : Statement (.ccStallRelease a) := fun h _ e => by cases e; exact h
theorem xferLc (c : CcWord) : Statement (.xferLc c) := fun h _ e => by cases e; exact fields_arr (andLeft h)
theorem xferCl (c : CcWord) : Statement (.xferCl c) := fun h _ e => by cases e; exact fields_arr (andLeft h)
theorem dmaq (c : CcWord) : Statement (.dmaq c) := fun h _ e => by cases e; exact fields_arr h
theorem req (c : CcWord) : Statement (.req c) := fun h _ e => by cases e; exact fields_arr h
theorem acq (c : CcWord) : Statement (.acq c) := fun h _ e => by cases e; exact fields_arr h
theorem acqB (c : CcWord) : Statement (.acqB c) := fun h _ e => by cases e; exact fields_arr h
theorem fence (c : CcWord) : Statement (.fence c) := fun h _ e => by cases e; exact fields_arr h
theorem twait (c : CcWord) : Statement (.twait c) := fun h _ e => by cases e; exact fields_arr (andLeft h)
theorem nop (c : CcWord) : Statement (.nop c) := fun h _ e => by cases e; exact fields_arr h
theorem sowerRequest (die : Nat) (mismatch : Option Nat) : Statement (.sowerRequest die mismatch) := fun _ _ e => nomatch e
theorem granaryRead (die : Nat) (lines : List LineState) : Statement (.granaryRead die lines) := fun _ _ e => nomatch e
theorem extract (die : Nat) (det : UnitDet) : Statement (.extract die det) := fun _ _ e => nomatch e
theorem binderRequest (die : Nat) (det : UnitDet) : Statement (.binderRequest die det) := fun _ _ e => nomatch e
theorem blockWrite (b : BlockRef) : Statement (.blockWrite b) := fun h _ e => by cases e; exact h
theorem loftArrival (a : ArrId) : Statement (.loftArrival a) := fun h _ e => by cases e; exact h
theorem modularAdd (a : ReadRef) : Statement (.modularAdd a) := fun h _ e => by cases e; exact h
theorem int32Add (a : ReadRef) : Statement (.int32Add a) := fun h _ e => by cases e; exact h
theorem fp32Add (a : ReadRef) : Statement (.fp32Add a) := fun h _ e => by cases e; exact h
theorem atomicMin (a : ReadRef) : Statement (.atomicMin a) := fun h _ e => by cases e; exact h
theorem atomicMax (a : ReadRef) : Statement (.atomicMax a) := fun h _ e => by cases e; exact h
theorem swap (a : ReadRef) : Statement (.swap a) := fun h _ e => by cases e; exact h
theorem compareAndSwap (a : ReadRef) : Statement (.compareAndSwap a) := fun h _ e => by cases e; exact h
theorem doorbellSqTail (f : FnId) (stream : Nat) (width : Nat) (value : Nat) : Statement (.doorbellSqTail f stream width value) := fun _ _ e => nomatch e
theorem doorbellCqHead (f : FnId) (stream : Nat) (width : Nat) (value : Nat) : Statement (.doorbellCqHead f stream width value) := fun _ _ e => nomatch e
theorem descriptorDecide (stream : Nat) : Statement (.descriptorDecide stream) := fun _ _ e => nomatch e
theorem completion (stream : Nat) : Statement (.completion stream) := fun _ _ e => nomatch e
theorem irqDelayExpiry (stream : Nat) : Statement (.irqDelayExpiry stream) := fun _ _ e => nomatch e
theorem mailboxGo (f : FnId) (m : MboxReq) : Statement (.mailboxGo f m) := fun _ _ e => nomatch e
theorem mctpDictionaryMessage (m : MctpMsg) : Statement (.mctpDictionaryMessage m) := fun _ _ e => nomatch e
theorem fragmentTimeout (q : Requester) (tag : Nat) : Statement (.fragmentTimeout q tag) := fun _ _ e => nomatch e
theorem entdaa (addr : Nat) : Statement (.entdaa addr) := fun _ _ e => nomatch e
theorem setEndpointId (eid : Nat) : Statement (.setEndpointId eid) := fun _ _ e => nomatch e
theorem getEndpointId : Statement .getEndpointId := fun _ _ e => nomatch e
theorem getMctpVersionSupport : Statement .getMctpVersionSupport := fun _ _ e => nomatch e
theorem getMessageTypeSupport : Statement .getMessageTypeSupport := fun _ _ e => nomatch e
theorem getVendorDefinedMsgSupport : Statement .getVendorDefinedMsgSupport := fun _ _ e => nomatch e
theorem dictWrite (q : Requester) (index : Nat) (sub : Nat) (value : List Byte) : Statement (.dictWrite q index sub value) := fun _ _ e => nomatch e
theorem deviceEnableSet (q : Requester) : Statement (.deviceEnableSet q) := fun _ _ e => nomatch e
theorem enableCheckDone : Statement .enableCheckDone := fun _ _ e => nomatch e
theorem deviceEnableClear (q : Requester) : Statement (.deviceEnableClear q) := fun _ _ e => nomatch e
theorem disableComplete : Statement .disableComplete := fun _ _ e => nomatch e
theorem planLoad (q : Requester) : Statement (.planLoad q) := fun _ _ e => nomatch e
theorem planLoadDone : Statement .planLoadDone := fun _ _ e => nomatch e
theorem keyLoad (q : Requester) : Statement (.keyLoad q) := fun _ _ e => nomatch e
theorem keyUploadDone (tenant : Nat) : Statement (.keyUploadDone tenant) := fun _ _ e => nomatch e
theorem keyDrop (q : Requester) (keyId : Nat) : Statement (.keyDrop q keyId) := fun _ _ e => nomatch e
theorem varRequest (q : Requester) (v : Nat) : Statement (.varRequest q v) := fun _ _ e => nomatch e
theorem linkRetrain (q : Requester) (j : Nat) : Statement (.linkRetrain q j) := fun _ _ e => nomatch e
theorem mrgRun (q : Requester) : Statement (.mrgRun q) := fun _ _ e => nomatch e
theorem marginSweepDone (results : List Word) : Statement (.marginSweepDone results) := fun _ _ e => nomatch e
theorem tenActivate (q : Requester) : Statement (.tenActivate q) := fun _ _ e => nomatch e
theorem tenDisable (q : Requester) : Statement (.tenDisable q) := fun _ _ e => nomatch e
theorem tenClear (q : Requester) : Statement (.tenClear q) := fun _ _ e => nomatch e
theorem streamEnable (q : Requester) : Statement (.streamEnable q) := fun _ _ e => nomatch e
theorem streamDisable (q : Requester) : Statement (.streamDisable q) := fun _ _ e => nomatch e
theorem streamReset (q : Requester) : Statement (.streamReset q) := fun _ _ e => nomatch e
theorem mirrorSnapTake (q : Requester) : Statement (.mirrorSnapTake q) := fun _ _ e => nomatch e
theorem mirrorSnapRelease (q : Requester) : Statement (.mirrorSnapRelease q) := fun _ _ e => nomatch e
theorem snapshotExpiry : Statement .snapshotExpiry := fun _ _ e => nomatch e
theorem mirrorBlockRead (q : Requester) (sub : Nat) : Statement (.mirrorBlockRead q sub) := fun _ _ e => nomatch e
theorem loftLandHwmRead (q : Requester) (die : Nat) : Statement (.loftLandHwmRead q die) := fun _ _ e => nomatch e
theorem slotDelayMaxRead (q : Requester) : Statement (.slotDelayMaxRead q) := fun _ _ e => nomatch e
theorem domainSkewNsRead (q : Requester) : Statement (.domainSkewNsRead q) := fun _ _ e => nomatch e
theorem dieTempMaxRead (q : Requester) (die : Nat) : Statement (.dieTempMaxRead q die) := fun _ _ e => nomatch e
theorem dumpRun (q : Requester) : Statement (.dumpRun q) := fun _ _ e => nomatch e
theorem shareOffer (q : Requester) : Statement (.shareOffer q) := fun _ _ e => nomatch e
theorem shareOfferExpiry (tenant : Nat) : Statement (.shareOfferExpiry tenant) := fun _ _ e => nomatch e
theorem shareSubmit (q : Requester) : Statement (.shareSubmit q) := fun _ _ e => nomatch e
theorem shareWipe (q : Requester) : Statement (.shareWipe q) := fun _ _ e => nomatch e
theorem pdecRun (q : Requester) : Statement (.pdecRun q) := fun _ _ e => nomatch e
theorem partialDecryption : Statement .partialDecryption := fun _ _ e => nomatch e
theorem hmRun (q : Requester) : Statement (.hmRun q) := fun _ _ e => nomatch e
theorem signetOperationDone (mismatch : Bool) : Statement (.signetOperationDone mismatch) := fun _ _ e => nomatch e
theorem entropyFail : Statement .entropyFail := fun _ _ e => nomatch e
theorem entropyRetest (pass : Bool) : Statement (.entropyRetest pass) := fun _ _ e => nomatch e
theorem vaultUncorrectable (what : VaultItem) : Statement (.vaultUncorrectable what) := fun _ _ e => nomatch e
theorem jtagInstruction (i : JtagInstr) : Statement (.jtagInstruction i) := fun _ _ e => nomatch e
theorem resetCmdCold (q : Requester) (env : BootEnv) : Statement (.resetCmdCold q env) := fun _ _ e => nomatch e
theorem resetCmdWarm (q : Requester) (env : BootEnv) : Statement (.resetCmdWarm q env) := fun _ _ e => nomatch e
theorem fenceDie (q : Requester) (die : Nat) : Statement (.fenceDie q die) := fun _ _ e => nomatch e
theorem diePllLoss (die : Nat) : Statement (.diePllLoss die) := fun _ _ e => nomatch e
theorem retireArray (q : Requester) (larr : Nat) : Statement (.retireArray q larr) := fun _ _ e => nomatch e
theorem retirementCopy (die : Nat) : Statement (.retirementCopy die) := fun _ _ e => nomatch e
theorem evtAck (q : Requester) (seq : Nat) : Statement (.evtAck q seq) := fun _ _ e => nomatch e
theorem tempSample (temps : List (Nat × Int)) (powers : List (Nat × Nat)) : Statement (.tempSample temps powers) := fun _ _ e => nomatch e
theorem bindResume : Statement .bindResume := fun _ _ e => nomatch e
theorem gearStepUp : Statement .gearStepUp := fun _ _ e => nomatch e
theorem thermtripN : Statement .thermtripN := fun _ _ e => nomatch e
theorem hubFailure (hub : Nat) : Statement (.hubFailure hub) := fun _ _ e => nomatch e
theorem stewardFailover : Statement .stewardFailover := fun _ _ e => nomatch e
theorem stewardMirrorFailure : Statement .stewardMirrorFailure := fun _ _ e => nomatch e
theorem healthSweep (die : Nat) (pslot : Nat) (pass : Bool) : Statement (.healthSweep die pslot pass) := fun _ _ e => nomatch e
theorem loftScrub (die : Nat) (pslot : Nat) (row : Nat) (errs : List WordErr) : Statement (.loftScrub die pslot row errs) := fun _ _ e => nomatch e
theorem keyRehash (tenant : Nat) (keyId : Nat) (block : Nat) : Statement (.keyRehash tenant keyId block) := fun _ _ e => nomatch e
theorem bgBehind (tier : Nat) : Statement (.bgBehind tier) := fun _ _ e => nomatch e
theorem gleanerBlockRead (stack : Nat) (block : Nat) (lines : List LineState) : Statement (.gleanerBlockRead stack block lines) := fun _ _ e => nomatch e
theorem gleanerEscalate : Statement .gleanerEscalate := fun _ _ e => nomatch e
theorem gleanerBehind : Statement .gleanerBehind := fun _ _ e => nomatch e
theorem hbmRefresh (stack : Nat) (bank : Nat) : Statement (.hbmRefresh stack bank) := fun _ _ e => nomatch e
theorem rowRemapCopy (row : RowId) : Statement (.rowRemapCopy row) := fun _ _ e => nomatch e
theorem rowRemap (row : RowId) : Statement (.rowRemap row) := fun _ _ e => nomatch e
theorem stackLost (stack : Nat) : Statement (.stackLost stack) := fun _ _ e => nomatch e
theorem recordProgram (fail : Bool) : Statement (.recordProgram fail) := fun _ _ e => nomatch e
theorem perstRelease (port : Nat) : Statement (.perstRelease port) := fun _ _ e => nomatch e
theorem hostPortReturn (port : Nat) : Statement (.hostPortReturn port) := fun _ _ e => nomatch e
theorem uncorrectableCodeword (f : BadFrame) : Statement (.uncorrectableCodeword f) := fun _ _ e => nomatch e

/-- Every well-formed command that is about an array names one the part has. -/
theorem all (i : Instr) : Statement i := by
  cases i with
  | pwrgoodAssert env => exact pwrgoodAssert env
  | pwrgoodDeassert => exact pwrgoodDeassert
  | perstBothWarmReset env => exact perstBothWarmReset env
  | portReset port => exact portReset port
  | functionLevelReset f => exact functionLevelReset f
  | busMasterEnableSet f => exact busMasterEnableSet f
  | msixUnmask f vec => exact msixUnmask f vec
  | hostPortFailure port => exact hostPortFailure port
  | refclkLock env => exact refclkLock env
  | refclkStateChange st => exact refclkStateChange st
  | bootComplete => exact bootComplete
  | thermalBootHoldRelease => exact thermalBootHoldRelease
  | linkStart j => exact linkStart j
  | notReadyWaitExpiry j => exact notReadyWaitExpiry j
  | trainingRetry j => exact trainingRetry j
  | laneFailure j lane => exact laneFailure j lane
  | flockLoss j => exact flockLoss j
  | idle rx => exact idle rx
  | openFrame rx o => exact openFrame rx o
  | dataFrame rx payload => exact dataFrame rx payload
  | lack rx es => exact lack rx es
  | nak rx expect => exact nak rx expect
  | delayFrame rx tTx echoTx echoRx rxTime => exact delayFrame rx tTx echoTx echoRx rxTime
  | hello rx h => exact hello rx h
  | kex rx frag lastFrag body => exact kex rx frag lastFrag body
  | rekey rx b => exact rekey rx b
  | pathDown rx chan reason => exact pathDown rx chan reason
  | pathUp rx chan epoch => exact pathUp rx chan epoch
  | rekeyStart j => exact rekeyStart j
  | rekeyRetry j => exact rekeyRetry j
  | sessionKeySwitch j tx => exact sessionKeySwitch j tx
  | scntHalt j tx => exact scntHalt j tx
  | authFailLimit j => exact authFailLimit j
  | join rx d planId digest => exact join rx d planId digest
  | accept rx d firstEpoch second members => exact accept rx d firstEpoch second members
  | joinRefused rx d reason => exact joinRefused rx d reason
  | acceptTimeout => exact acceptTimeout
  | ready rx d jobId prog tenant => exact ready rx d jobId prog tenant
  | refuse rx d jobId code => exact refuse rx d jobId code
  | admitJob rx d jobId aseq => exact admitJob rx d jobId aseq
  | admitWaitExpiry jobId => exact admitWaitExpiry jobId
  | leadBindDecision epoch slot => exact leadBindDecision epoch slot
  | bind rx d epoch slot es => exact bind rx d epoch slot es
  | tick rx d lead deputy admitted members => exact tick rx d lead deputy admitted members
  | leadLost => exact leadLost
  | abandon rx d jobId inc cause => exact abandon rx d jobId inc cause
  | leave rx d reason => exact leave rx d reason
  | domainRejoin => exact domainRejoin
  | vdecide rx d variant e => exact vdecide rx d variant e
  | vannounce rx d origin variant e => exact vannounce rx d origin variant e
  | vack rx d origin e => exact vack rx d origin e
  | resident rx d tenant keyId st => exact resident rx d tenant keyId st
  | qreq rx d => exact qreq rx d
  | qreport rx d frag lastFrag es => exact qreport rx d frag lastFrag es
  | failjob rx d jobId inc status detail => exact failjob rx d jobId inc status detail
  | mgmtRead rx m => exact mgmtRead rx m
  | mgmtWrite rx m => exact mgmtWrite rx m
  | mgmtResponse rx m => exact mgmtResponse rx m
  | mgmtTimeout tag => exact mgmtTimeout tag
  | ppsEdge edge => exact ppsEdge edge
  | ppsLost => exact ppsLost
  | timeSet q value => exact timeSet q value
  | epochBoundary => exact epochBoundary
  | gearRelockDone => exact gearRelockDone
  | bindPoint epoch slot => exact bindPoint epoch slot
  | slotStart slot => exact slotStart slot
  | fallowSlotStart slot replicas => exact fallowSlotStart slot replicas
  | slotEnd slot => exact slotEnd slot
  | slotPacedAbandon slot => exact slotPacedAbandon slot
  | slotDeadlineAbandon slot a group cycle tag => exact slotDeadlineAbandon slot a group cycle tag
  | releaseSlot => exact releaseSlot
  | commandDelay x => exact commandDelay x
  | cribLoad x => exact cribLoad x
  | cribStore x => exact cribStore x
  | cellMove x => exact cellMove x
  | cellMadd x => exact cellMadd x
  | cellMsub x => exact cellMsub x
  | cellMneg x => exact cellMneg x
  | cellMscal x => exact cellMscal x
  | cellMmul x => exact cellMmul x
  | cellMmulc x => exact cellMmulc x
  | mac x => exact mac x
  | macn x => exact macn x
  | macc x => exact macc x
  | alpha x => exact alpha x
  | imma x => exact imma x
  | foldClr x => exact foldClr x
  | foldKeep x => exact foldKeep x
  | ntt x => exact ntt x
  | intt x => exact intt x
  | auto x => exact auto x
  | mulx x => exact mulx x
  | vecMadd x => exact vecMadd x
  | vecMsub x => exact vecMsub x
  | vecMneg x => exact vecMneg x
  | vecMmul x => exact vecMmul x
  | vecMmulc x => exact vecMmulc x
  | vecMscal x => exact vecMscal x
  | mlift x => exact mlift x
  | mred x => exact mred x
  | mcen x => exact mcen x
  | vecAdd x => exact vecAdd x
  | vecSub x => exact vecSub x
  | vecMul x => exact vecMul x
  | vecMulh x => exact vecMulh x
  | adds x => exact adds x
  | subs x => exact subs x
  | idiv x => exact idiv x
  | vecMin x => exact vecMin x
  | vecMax x => exact vecMax x
  | vabs x => exact vabs x
  | vneg x => exact vneg x
  | vecAnd x => exact vecAnd x
  | vecOr x => exact vecOr x
  | vecXor x => exact vecXor x
  | vnot x => exact vnot x
  | vecShl x => exact vecShl x
  | vecShr x => exact vecShr x
  | vecSar x => exact vecSar x
  | vecCmpEq x => exact vecCmpEq x
  | vecCmpNe x => exact vecCmpNe x
  | vecCmpLt x => exact vecCmpLt x
  | vecCmpLe x => exact vecCmpLe x
  | sel x => exact sel x
  | fadd x => exact fadd x
  | fsub x => exact fsub x
  | fmul x => exact fmul x
  | fma x => exact fma x
  | fdiv x => exact fdiv x
  | fsqrt x => exact fsqrt x
  | fmin x => exact fmin x
  | fmax x => exact fmax x
  | fabs x => exact fabs x
  | fneg x => exact fneg x
  | fcvt x => exact fcvt x
  | cvt x => exact cvt x
  | rsumS x => exact rsumS x
  | rsumL x => exact rsumL x
  | ccEnd c => exact ccEnd c
  | ccAdd c => exact ccAdd c
  | ccSub c => exact ccSub c
  | ccAnd c => exact ccAnd c
  | ccOr c => exact ccOr c
  | ccXor c => exact ccXor c
  | ccShl c => exact ccShl c
  | ccShr c => exact ccShr c
  | ccSar c => exact ccSar c
  | ccMin c => exact ccMin c
  | ccMax c => exact ccMax c
  | li c => exact li c
  | lui c => exact lui c
  | ccMul c => exact ccMul c
  | ccMulh c => exact ccMulh c
  | ccCmpEq c => exact ccCmpEq c
  | ccCmpLt c => exact ccCmpLt c
  | ccCmpLtu c => exact ccCmpLtu c
  | loop c => exact loop c
  | endl c => exact endl c
  | ld c => exact ld c
  | st c => exact st c
  | ldj c => exact ldj c
  | mfs c => exact mfs c
  | aqpush c => exact aqpush c
  | oqpush c => exact oqpush c
  | tqwait c => exact tqwait c
  | ccStallRelease a => exact ccStallRelease a
  | xferLc c => exact xferLc c
  | xferCl c => exact xferCl c
  | dmaq c => exact dmaq c
  | req c => exact req c
  | acq c => exact acq c
  | acqB c => exact acqB c
  | fence c => exact fence c
  | twait c => exact twait c
  | nop c => exact nop c
  | sowerRequest die mismatch => exact sowerRequest die mismatch
  | granaryRead die lines => exact granaryRead die lines
  | extract die det => exact extract die det
  | binderRequest die det => exact binderRequest die det
  | blockWrite b => exact blockWrite b
  | loftArrival a => exact loftArrival a
  | modularAdd a => exact modularAdd a
  | int32Add a => exact int32Add a
  | fp32Add a => exact fp32Add a
  | atomicMin a => exact atomicMin a
  | atomicMax a => exact atomicMax a
  | swap a => exact swap a
  | compareAndSwap a => exact compareAndSwap a
  | doorbellSqTail f stream width value => exact doorbellSqTail f stream width value
  | doorbellCqHead f stream width value => exact doorbellCqHead f stream width value
  | descriptorDecide stream => exact descriptorDecide stream
  | completion stream => exact completion stream
  | irqDelayExpiry stream => exact irqDelayExpiry stream
  | mailboxGo f m => exact mailboxGo f m
  | mctpDictionaryMessage m => exact mctpDictionaryMessage m
  | fragmentTimeout q tag => exact fragmentTimeout q tag
  | entdaa addr => exact entdaa addr
  | setEndpointId eid => exact setEndpointId eid
  | getEndpointId => exact getEndpointId
  | getMctpVersionSupport => exact getMctpVersionSupport
  | getMessageTypeSupport => exact getMessageTypeSupport
  | getVendorDefinedMsgSupport => exact getVendorDefinedMsgSupport
  | dictWrite q index sub value => exact dictWrite q index sub value
  | deviceEnableSet q => exact deviceEnableSet q
  | enableCheckDone => exact enableCheckDone
  | deviceEnableClear q => exact deviceEnableClear q
  | disableComplete => exact disableComplete
  | planLoad q => exact planLoad q
  | planLoadDone => exact planLoadDone
  | keyLoad q => exact keyLoad q
  | keyUploadDone tenant => exact keyUploadDone tenant
  | keyDrop q keyId => exact keyDrop q keyId
  | varRequest q v => exact varRequest q v
  | linkRetrain q j => exact linkRetrain q j
  | mrgRun q => exact mrgRun q
  | marginSweepDone results => exact marginSweepDone results
  | tenActivate q => exact tenActivate q
  | tenDisable q => exact tenDisable q
  | tenClear q => exact tenClear q
  | streamEnable q => exact streamEnable q
  | streamDisable q => exact streamDisable q
  | streamReset q => exact streamReset q
  | mirrorSnapTake q => exact mirrorSnapTake q
  | mirrorSnapRelease q => exact mirrorSnapRelease q
  | snapshotExpiry => exact snapshotExpiry
  | mirrorBlockRead q sub => exact mirrorBlockRead q sub
  | loftLandHwmRead q die => exact loftLandHwmRead q die
  | slotDelayMaxRead q => exact slotDelayMaxRead q
  | domainSkewNsRead q => exact domainSkewNsRead q
  | dieTempMaxRead q die => exact dieTempMaxRead q die
  | dumpRun q => exact dumpRun q
  | shareOffer q => exact shareOffer q
  | shareOfferExpiry tenant => exact shareOfferExpiry tenant
  | shareSubmit q => exact shareSubmit q
  | shareWipe q => exact shareWipe q
  | pdecRun q => exact pdecRun q
  | partialDecryption => exact partialDecryption
  | hmRun q => exact hmRun q
  | signetOperationDone mismatch => exact signetOperationDone mismatch
  | entropyFail => exact entropyFail
  | entropyRetest pass => exact entropyRetest pass
  | vaultUncorrectable what => exact vaultUncorrectable what
  | jtagInstruction i => exact jtagInstruction i
  | resetCmdCold q env => exact resetCmdCold q env
  | resetCmdWarm q env => exact resetCmdWarm q env
  | fenceDie q die => exact fenceDie q die
  | diePllLoss die => exact diePllLoss die
  | retireArray q larr => exact retireArray q larr
  | retirementCopy die => exact retirementCopy die
  | evtAck q seq => exact evtAck q seq
  | tempSample temps powers => exact tempSample temps powers
  | bindResume => exact bindResume
  | gearStepUp => exact gearStepUp
  | thermtripN => exact thermtripN
  | hubFailure hub => exact hubFailure hub
  | stewardFailover => exact stewardFailover
  | stewardMirrorFailure => exact stewardMirrorFailure
  | healthSweep die pslot pass => exact healthSweep die pslot pass
  | loftScrub die pslot row errs => exact loftScrub die pslot row errs
  | keyRehash tenant keyId block => exact keyRehash tenant keyId block
  | bgBehind tier => exact bgBehind tier
  | gleanerBlockRead stack block lines => exact gleanerBlockRead stack block lines
  | gleanerEscalate => exact gleanerEscalate
  | gleanerBehind => exact gleanerBehind
  | hbmRefresh stack bank => exact hbmRefresh stack bank
  | rowRemapCopy row => exact rowRemapCopy row
  | rowRemap row => exact rowRemap row
  | stackLost stack => exact stackLost stack
  | recordProgram fail => exact recordProgram fail
  | perstRelease port => exact perstRelease port
  | hostPortReturn port => exact hostPortReturn port
  | uncorrectableCodeword j => exact uncorrectableCodeword j

end Sys2Proof.Laws.Places
end

