-- ==== Sys2Proof/Tests/Slice0.lean ====
section
/-! SUPPORT. Tests: ill-formed commands are refused (a term per check of WellFormed), results that the spec states or that
follow from its tables by hand, and for every statement with hypotheses a state and operands that meet them. -/

namespace Sys2Proof.Tests

set_option Elab.async false

open Sys2Proof.Machine Sys2Proof.Stated

/-! ## Small states -/

/-- The next state of an outcome. -/
def nextOf : Host.Outcome State Fault Refusal → Option State
  | .next t => some t
  | _ => none

/-- Array 0 of compute die 0. -/
def a0 : ArrId := ⟨0, 0⟩

/-- A prime-book entry of the prime 12,289: KBITS, MU and C64 by R33. -/
def p0 : PrimeEntry :=
  { valid := true, logn2 := 11, kbits := 14, mu := 21843, c64 := 2 ^ 64 % 12289, q := 12289, psi := 1945, psiInv := 4050, nInv := 12277 }

/-- A parameter set of N = 1,024 with two limbs. -/
def ps0 : Machine.PSet := { scheme := 0, logn := 10, lq := 2, lp := 1, qIdx := [0, 0], pIdx := [0], checkIdx := 0 }

/-- One slot of each kind: a JOB slot on two arrays, an INSTALL slot, a FALLOW slot. -/
def slots3 : List SlotRec :=
  [{ slot := 0, kind := 0, prog := 1, batch := 2, dieMask := 1, arrayMask := 3, start := 100, length := 1000 },
   { slot := 1, kind := 1, dieMask := 1, arrayMask := 4, start := 2000, length := 500, installBytes := 65536 },
   { slot := 2, kind := 2, start := 20000, length := 100 }]

/-- A plan of one program and one variant. -/
def plan0 : Plan :=
  { planId := 7, primes := [p0], psets := [ps0], programs := [{ prog := 1, bmax := 2 }]
    variants := [{ num := 0, gear := 0, dieMask := 1, template := 0 }], templates := [{ num := 0, slots := slots3 }] }

/-- A run of the JOB slot with one job in position 0. -/
def run0 : SlotRun := { slot := 0, epoch := 5, jobs := [(0, 0)], incs := [(0, 0)], started := true }

/-- An array whose crib holds small residues in rows 0..31, whose loft holds nothing, and which maps handle 1 on it. -/
def arr0 : Arr :=
  { crib := (List.range 4).map fun i => (i, List.replicate 256 (BitVec.ofNat 32 (i + 3)))
    handles := [(1, { kind := 1, length := 65536, rwrite := true })]
    core := { regs := [(1, 40), (2, 3)] } }

/-- An enabled part in the fifth epoch, whose JOB slot runs. -/
def s0 : State :=
  { pw := { part := .enabled }, en := { on := true, st := 2 }, plan := some plan0, tm := { now := 5010000, edge := 5 }
    tenants := [(1, { st := .active, creditLimit := 16 })], jobs := [{ idx := 0, tenant := 1, prog := 1, st := .bound, slot := 0 }]
    runs := [run0], arrs := [(0, arr0)] }

/-- Execute header with nothing set. -/
def hdr0 : Hdr :=
  { gap := 0, waitg := 0, nwid := false, nsh := 0, narrow := false, act := 0, anchor := false, verify := false, rescale := false
    ptadd := false, sk := 0, sck := false, scale := false, flagout := false, token := false, tag := 0 }

/-- A word of one operation, in one row, from crib rows 0 and 1 to row 2. -/
def word (w : LongWord) : Exec :=
  { arr := a0, hdr := hdr0, stage := 0, opens := true, closes := true, last := true, w := w, dets := [] }

/-- The CRIB slot of those words. -/
def crib0 : CribSlot := { pset := 0, lpos := 0, nlimb := 0, arow := 0, brow := 1, drow := 2, rows := 0, xop := 0 }

/-- No slot. -/
def bareWord : LongWord := { cell := none, net := none, vec := none, acc := none, crib := none, que := none }

/-- A CRIB slot that is taken from the word before (R207) reads 0 in the full form (R194). -/
theorem test_full_form_taken : fullForm { bareWord with crib := some crib0, cribTaken := true } = 0 ∧
    fullForm { bareWord with crib := some crib0 } ≠ 0 := by decide

/-- A cell operation with the constant 5 and K = -2; an accumulating one with its ACC slot. -/
def cellW (opc : BitVec 6) : Exec := word { bareWord with
  cell := some { opc := opc, bsrc := 0, k := 30, const := 5 }, crib := some crib0
  acc := if accumulating opc then some { aop := 1, e0 := 0, ediv := 255, fprime := 0, rep := 0 } else none }

/-- A fold. -/
def foldW (aop : BitVec 4) : Exec := word { bareWord with
  acc := some { aop := aop, e0 := 0, ediv := 255, fprime := 0, rep := 0 }, crib := some crib0 }

/-- A network operation. -/
def netW (nopc : BitVec 4) : Exec := word { bareWord with
  net := some { nopc := nopc, dom := false, neg := false, gm := 3 }, crib := some { crib0 with rows := 3, drow := 4 } }

/-- A transform of one limb. -/
def nttW (opc : BitVec 6) : Exec := word { bareWord with
  cell := some { opc := opc, bsrc := 0, k := 0, const := 0 }, crib := some { crib0 with rows := 3, drow := 0 } }

/-- A type that the vector opcode allows, and its TTYPE. -/
def vecTypes (vopc : BitVec 7) : BitVec 3 × BitVec 3 :=
  if vopc = 8 then (3, 0) else if vopc = 9 then (0, 3) else if vopc ≤ 7 then (0, 0)
  else if vopc = 0x3A then (4, 3) else if vopc = 0x3B then (3, 1)
  else if 0x30 ≤ vopc ∧ vopc ≤ 0x39 then (4, 0) else (3, 0)

/-- A vector operation from crib row 0 (and port LS1... by crib row 1) to crib row 2. -/
def vecW (vopc : BitVec 7) : Exec := word { bareWord with
  vec := some { vopc := vopc, type := (vecTypes vopc).1, ttype := (vecTypes vopc).2, rm := 0, ftz := false, s1 := 1
                s2 := if 2 ≤ vecSources vopc then 2 else 0, s3 := if vecSources vopc = 3 then 2 else 0, dest := true
                vrep := 0, const := 5 }
  crib := some crib0 }

/-- The premises of `Stores`, as a check. -/
def goes (s : State) (x : Exec) (r : SlotRun) (op : WordOp) : Bool :=
  s.runOf x.arr == some r && s.issues r && !r.abandoned && (wordArrs x.arr (execPaired s.env x)).all (fun a => !waitsFor x r (s.arr a)) &&
    !s.tooLate r (startedLate s x op r) && !starved (startLanes s x op r) && !(startLanes s x op r).1.x.dead &&
    x.dets.isEmpty && !s.trace.enable && !x.hdr.verify && !x.hdr.anchor && x.arr.wf && !starved (workOf s x op r) &&
    (metFaults (workOf s x op r)).isEmpty

/-- The first word of a crib row of array 0 of die 0 after one step that runs a command. -/
def wordAfter (s : State) (c : Instr) (row : Nat) : Option Nat :=
  (nextOf (step { s with pending := [c] })).map fun t => ((cribRow (t.arr a0) row).getD 0 0)

/-- The first accumulator entry, cell 0, after one step: value and term count. -/
def accAfter (s : State) (c : Instr) : Option (Nat × Nat) :=
  (nextOf (step { s with pending := [c] })).map fun t =>
    let e := ((mget [] (t.arr a0).acc 0).getD 0 {})
    (e.value.toNat, e.fc)


/-! ## WellFormed: an ill-formed term for each check -/

/-- An access-stream word without fields on array 0. -/
def cc0 : CcWord := { arr := a0, pneg := false, pred := 0, rd := 0, rs1 := 0, rs2 := 0, x := 0, imm := 0, dets := [] }

/-- A frame on link 3, CHAN 5. -/
def rx0 : Rx := { link := 3, fcnt := 0, chan := 5, ack := 0, crcOk := true, tagOk := true }

/-- The management endpoint, and function 0 of port 0. -/
def fn0 : FnId := ⟨0, 0⟩
def q0 : Requester := .fn fn0

theorem test_wf_units : ([.portReset 2, .functionLevelReset ⟨0, 64⟩, .busMasterEnableSet { fn := ⟨2, 0⟩ }, .msixUnmask fn0 { vec := 32 },
    .linkStart { link := 32 }, .laneFailure 0 8, .idle { rx0 with link := 32 }, .idle { rx0 with chan := 256 },
    .slotDeadlineAbandon 0 ⟨8, 0⟩ 0 0 0, .ccStallRelease { arr := ⟨0, 64⟩ }, .sowerRequest 8 none, .doorbellSqTail fn0 16384 4 0,
    .descriptorDecide 16384, .keyUploadDone 0, .keyUploadDone 4096, .loftLandHwmRead q0 8, .dieTempMaxRead q0 16,
    .fenceDie q0 8, .retireArray q0 512, .hubFailure 2, .healthSweep 0 68 true, .gleanerBlockRead 6 0 [],
    .rowRemap ⟨0, 32, 0, 0, 0⟩, .rowRemap ⟨0, 0, 2, 0, 0⟩, .rowRemapCopy ⟨0, 0, 0, 16, 0⟩, .rowRemapCopy ⟨0, 0, 0, 0, 352⟩,
    .hmRun (.remote 512 0), .hmRun (.remote 0 32), .blockWrite { arr := ⟨0, 64⟩, dseq := 0, blk := 0, hostErr := none }, .slotStart { slot := 0, lines := [{ retries := 3 }] },
    .granaryRead 0 [{ bad := true }]] : List Instr).all (fun c => !c.wf) :=
  by decide

/-- A word with its CRIB slot changed. -/
def withCrib (x : Exec) (f : CribSlot → CribSlot) : Exec := { x with w := { x.w with crib := x.w.crib.map f } }

/-- A vector word with its VEC slot changed. -/
def withVec (x : Exec) (f : VecSlot → VecSlot) : Exec := { x with w := { x.w with vec := x.w.vec.map f } }

theorem test_wf_execute_words : ([.cellMadd (cellW 3), .cellMadd { cellW 2 with arr := ⟨0, 64⟩ },
    .cellMadd (withCrib (cellW 2) fun c => { c with rows := 255 }), .cellMadd (withCrib (cellW 2) fun c => { c with drow := 254, rows := 2 }),
    .cellMadd (withCrib (cellW 2) fun c => { c with xop := 1 }), .cellMadd { cellW 2 with w := { (cellW 2).w with crib := none } },
    .cellMadd { cellW 2 with w := { (cellW 2).w with net := some ⟨1, false, false, 3⟩ } },
    .cellMadd { cellW 2 with w := { (cellW 2).w with acc := some ⟨1, 0, 255, 0, 0⟩ } },
    .cellMadd { cellW 2 with w := { (cellW 2).w with que := some ⟨0, 3⟩ } }, .cellMadd { cellW 2 with hdr := { hdr0 with act := 3 } },
    .mac { cellW 8 with w := { (cellW 8).w with acc := none } }, .foldClr (foldW 3), .foldClr (foldW 1), .auto (netW 2),
    .vecAdd (vecW 0x11), .vecAdd (withVec (vecW 0x10) fun v => { v with s2 := 0 }), .vabs (withVec (vecW 0x19) fun v => { v with s2 := 2 }),
    .vecAdd (withVec (vecW 0x10) fun v => { v with type := 4 }), .fadd (withVec (vecW 0x30) fun v => { v with type := 3 }),
    .vecMadd (withVec (vecW 1) fun v => { v with type := 1 }), .cribLoad (word { bareWord with crib := some { crib0 with xop := 2 } }),
    .commandDelay (cellW 2)] : List Instr).all (fun c => !c.wf) := by decide

theorem test_wf_access_words : ([.nop { cc0 with imm := 1 }, .nop { cc0 with arr := ⟨8, 0⟩ }, .ccAdd { cc0 with x := 2 },
    .ccAdd { cc0 with imm := 1 }, .ccAdd { cc0 with x := 1, rs2 := 1 }, .ccCmpEq cc0, .ccCmpEq { cc0 with rd := 4 },
    .ccEnd { cc0 with pred := 1 }, .loop { cc0 with x := 2 }, .loop { cc0 with pneg := true }, .li { cc0 with rs1 := 1 },
    .ccMul { cc0 with x := 1 }, .ld { cc0 with rs2 := 8 }, .st { cc0 with rs2 := 4 }, .ldj { cc0 with imm := 4 },
    .ldj { cc0 with imm := 64 }, .mfs { cc0 with x := 6 }, .tqwait cc0, .tqwait { cc0 with imm := 17 },
    .twait { cc0 with imm := 15625 }, .xferLc { cc0 with imm := 0x01FF }, .aqpush { cc0 with rd := 1 },
    .dmaq { cc0 with rd := 1 }, .acq { cc0 with imm := 1 }] : List Instr).all (fun c => !c.wf) := by decide

/-- Their well-formed counterparts pass. -/
theorem test_wf_accepts : ([.portReset 1, .msixUnmask fn0 { vec := 31 }, .linkStart { link := 31 }, .idle rx0, .keyUploadDone 4095, .retireArray q0 511,
    .rowRemap ⟨5, 31, 1, 15, 351⟩, .cellMadd (cellW 2), .mac (cellW 8), .foldClr (foldW 2), .auto (netW 1), .vecAdd (vecW 0x10),
    .fadd (vecW 0x30), .nop cc0, .ccAdd { cc0 with x := 1, imm := 5 }, .ccCmpEq { cc0 with rd := 3 }, .ld { cc0 with rs2 := 7 },
    .ldj { cc0 with imm := 56 }, .tqwait { cc0 with imm := 16 }, .twait { cc0 with imm := 15624 },
    .xferLc { cc0 with imm := 0xFF00 }] : List Instr).all Instr.wf := by decide

/-! ## Worked examples of the spec, and results by hand from its tables -/

/-- Chapter 2, worked example at N = 8: q = 17, psi = 3. -/
theorem test_ntt_example : ntt 17 3 3 [1, 2, 3, 4, 0, 0, 0, 0] = [6, 16, 8, 8, 3, 4, 15, 16] := by decide +kernel

/-- The same example backwards: psi^-1 = 6, N^-1 = 15. -/
theorem test_intt_example : intt 17 6 15 3 [6, 16, 8, 8, 3, 4, 15, 16] = [1, 2, 3, 4, 0, 0, 0, 0] := by decide +kernel

/-- Chapter 10, worked example: where KEYS block 1,000,003 lies, and line 5 on channel 5. -/
theorem test_granary_example : stackOf 1000003 = 1 ∧ blockPlace 1000003 = (1, 5, 24, 162) ∧
    rowOfLine 1000003 5 = rowNum ⟨1, 5, 1, 5, 162⟩ := by decide

/-- R291, its example: logical block 4 of the PLAN region lies at granary block 32,779 on ST1, and on ST4. -/
theorem test_mirror_example : copiesOf planBase 4 = (32779, 32782) ∧ stackOf 32779 = 1 ∧ stackOf 32782 = 4 := by decide

/-- Chapter 8, worked example of R261: fp32 atomics in the two orders of arrival. -/
theorem test_atomic_example : (atomElem 3 0 0x3F800000 0x4B800000 0).new = 0x4B800000 ∧
    (atomElem 3 0 0x4B800000 0xCB800000 0).new = 0 ∧ (atomElem 3 0 0x3F800000 0xCB800000 0).new = 0xCB7FFFFF ∧
    (atomElem 3 0 0xCB7FFFFF 0x4B800000 0).new = 0x3F800000 := by decide +kernel

/-- FIPS 180-4 and FIPS 202: SHA-384 of "abc", its first bytes; SHAKE128 of the empty string, its first bytes. -/
theorem test_hashes : (sha384 [0x61, 0x62, 0x63]).take 4 = [0xCB, 0x00, 0x75, 0x3F] ∧
    shake128 [] 4 = [0x7F, 0x9C, 0x2B, 0xA4] := by decide +kernel

theorem test_cell_results : (cellOps.map fun p => wordAfter s0 (p.1 (cellW p.2)) 2) =
    [some 3, some 7, some 12288, some 12286, some 12283, some 15] ∧ wordAfter s0 (.cellMmul (cellW 6)) 2 = some 12 := by
  decide +kernel

/-- MAC 3 × 4, MACN 3 × (q - 4), MACC 3 × 5, IMMA 3 × 4 on the low bytes: value and term count (R80, R83). -/
theorem test_acc_results : ([(Instr.mac, 8), (.macn, 9), (.macc, 10), (.imma, 12)].map fun p => accAfter s0 (p.1 (cellW p.2))) =
    [some (12, 1), some (36855, 1), some (15, 1), some (12, 0)] := by decide +kernel

/-- The first element of a vector result, by opcode, on the residues or integers 3, 4, 5 (R174). -/
def vecOf (t u : Nat) (opc a b c : Nat) : Nat × Nat :=
  vecElem { v := { primes := [p0], psets := [ps0] }, type := t, ttype := u, const := 30 } opc p0 5 a b c

theorem test_vector_modular : ([1, 2, 3, 4, 5, 6].map fun o => (vecOf 0 0 o 3 4 5).1) = [7, 12288, 12286, 12, 15, 12283] ∧
    vecOf 3 0 8 (2 ^ 32 - 1) 0 0 = (12288, 0) ∧ vecOf 0 3 9 12288 0 0 = (2 ^ 32 - 1, 0) := by decide +kernel

theorem test_vector_integer : ([0x10, 0x11, 0x12, 0x13, 0x14, 0x15, 0x16, 0x17, 0x18].map fun o => vecOf 1 0 o 0x80 0x03 0) =
    [(0x83, 0), (0x7D, 4), (0x80, 4), (0xFE, 0), (0x83, 0), (0x80, 32), (0xD6, 0), (0x80, 0), (0x03, 0)] ∧
    ([0x19, 0x1A].map fun o => vecOf 1 0 o 0x80 0 0) = [(0x80, 4), (0x80, 4)] ∧
    ([0x1B, 0x1C, 0x1D, 0x1E, 0x1F, 0x20, 0x21].map fun o => (vecOf 1 0 o 0x96 0x0A 0).1) =
      [0x02, 0x9E, 0x9C, 0x69, 0x58, 0x25, 0xE5] ∧
    ([0x28, 0x29, 0x2A, 0x2B].map fun o => (vecOf 1 0 o 0x80 0x03 0).1) = [0, 0xFF, 0xFF, 0xFF] ∧
    ((vecOf 1 0 0x2C 1 7 9).1, (vecOf 1 0 0x2C 0 7 9).1) = (7, 9) ∧ vecOf 3 1 0x3B 300 0 0 = (127, 32) := by decide +kernel

/-- FP32: 1 + 2, 1 - 2, 2 × 2, 2 × 2 + 1, 1 / 0 with DZ, the square root of 4, min, max, |-1|, -1, and 2.5 to int32. -/
theorem test_vector_float :
    vecOf 4 0 0x30 0x3F800000 0x40000000 0 = (0x40400000, 0) ∧ vecOf 4 0 0x31 0x3F800000 0x40000000 0 = (0xBF800000, 0) ∧
    vecOf 4 0 0x32 0x40000000 0x40000000 0 = (0x40800000, 0) ∧
    vecOf 4 0 0x33 0x40000000 0x40000000 0x3F800000 = (0x40A00000, 0) ∧
    vecOf 4 0 0x34 0x3F800000 0 0 = (0x7F800000, 2) ∧ vecOf 4 0 0x35 0x40800000 0 0 = (0x40000000, 0) ∧
    vecOf 4 0 0x36 0x3F800000 0x40000000 0 = (0x3F800000, 0) ∧ vecOf 4 0 0x37 0x3F800000 0x40000000 0 = (0x40000000, 0) ∧
    vecOf 4 0 0x38 0xBF800000 0 0 = (0x3F800000, 0) ∧ vecOf 4 0 0x39 0x3F800000 0 0 = (0xBF800000, 0) ∧
    vecOf 4 3 0x3A 0x40200000 0 0 = (2, 16) := by decide +kernel

/-- RSUM over a type's row: 3 words of a MOD row of 12,288 sum to q - 3 (R174). -/
theorem test_row_sum : (rowSum { v := {}, type := 0, ttype := 0 } p0 [12288, 12288, 12288]).1 = 12286 := by decide +kernel

/-! ## Access-stream words -/

/-- Register 3 of array 0's core after one step that runs a word. -/
def reg3 (s : State) (c : Instr) : Option DWord := (nextOf (step { s with pending := [c] })).map fun t => coreReg (t.arr a0).core 3

/-- A word that writes register 3 from registers 1 (40) and 2 (3). -/
def cc3 : CcWord := { cc0 with rd := 3, rs1 := 1, rs2 := 2 }

/-- s0 with the core of array 0 changed. -/
def withCore (k : Core) : State := { s0 with arrs := [(0, { arr0 with core := k })] }

theorem test_core_results : (aluOps.map fun p => reg3 s0 (p.1 cc3)) =
    [some 43, some 37, some 0, some 43, some 43, some 320, some 5, some 5, some 3, some 40] := by decide +kernel

theorem test_core_moves : reg3 s0 (.li { cc0 with rd := 3, imm := 0xFFFFFFFE }) = some 0xFFFFFFFFFFFFFFFE ∧
    reg3 (withCore { regs := [(3, 7)] }) (.lui { cc0 with rd := 3, imm := 5 }) = some 0x500000007 ∧
    reg3 s0 (.ccMul cc3) = some 120 ∧
    reg3 (withCore { regs := [(1, 2 ^ 63), (2, 4)] }) (.ccMulh cc3) = some 0xFFFFFFFFFFFFFFFE ∧
    reg3 s0 (.ccAdd { cc0 with rd := 3, rs1 := 1, x := 1, imm := 0xFFFFFFFF }) = some 39 ∧
    reg3 s0 (.ccSar { cc0 with rd := 3, rs1 := 1, x := 1, imm := 66 }) = some 10 := by decide +kernel

theorem test_core_compares : (cmpOps.map fun p =>
    (nextOf (step { withCore { regs := [(1, 2 ^ 63), (2, 3)] } with pending := [p.1 { cc0 with rd := 2, rs1 := 1, rs2 := 2 }] })).map
      fun t => corePred (t.arr a0).core 2) = [some false, some true, some false] := by decide +kernel

/-- A false predicate writes nothing, and register 0 keeps no write. -/
theorem test_core_predicate : reg3 s0 (.ccAdd { cc3 with pneg := true }) = some 0 ∧
    ((nextOf (exec (.li { cc0 with imm := 9 }) s0)).map fun t => (coreReg (t.arr a0).core 0, (t.arr a0).core.pc)) = some (0, 1) := by
  decide +kernel

/-- An ST of 40 at offset 24 of handle 1, and the LD of the word it stored, sign-extended from a byte. -/
theorem test_core_memory :
    ((nextOf (exec (.st { cc0 with rd := 1, x := 1, imm := 24 }) s0)).map fun t => (t.arr a0).loft) = some [(24, 40)] ∧
    reg3 { s0 with arrs := [(0, { arr0 with loft := [(24, 0x80)] })] } (.ld { cc0 with rd := 3, rs2 := 4, x := 1, imm := 24 }) =
      some 0xFFFFFFFFFFFFFF80 := by decide +kernel

/-- XFER moves row 5 of the crib to offset 0 of the loft, and back. -/
theorem test_core_transfers :
    ((nextOf (exec (.xferCl { cc0 with x := 1, imm := 2 }) s0)).map fun t => (t.arr a0).loft.take 2) = some [(0, 5), (4, 5)] ∧
    wordAfter { s0 with arrs := [(0, { arr0 with loft := [(1, 1)] })] } (.xferLc { cc0 with x := 1, imm := 9 }) 9 = some 256 := by
  decide +kernel

theorem test_core_special : (([0, 1, 2, 3, 4, 5] : List (BitVec 8)).map fun n => reg3 s0 (.mfs { cc0 with rd := 3, x := n })) =
    [some 9600, some 5, some 1, some 0, some 0, some 0] := by decide +kernel

/-! ## Statements about the queue and the memories: states that meet their hypotheses -/

theorem witness_StepRunsTheFrontCommand : ({ s0 with pending := [.nop cc0] } : State).pending = .nop cc0 :: [] := rfl

theorem witness_EmptyQueueCountsOneTick : s0.pending = [] ∧ s0.pw.part ≠ .off ∧ s0.tm.hold = 0 ∧
    ({ s0 with tm := { s0.tm with hold := 5 } } : State).tm.hold ≠ 0 ∧ ({ s0 with pw := { part := .off } } : State).pw.part = .off := by
  decide

/-- s0 with a loft byte. -/
def sLoft : State := { s0 with arrs := [(0, { arr0 with loft := [(24, 0x80)] })] }

theorem witness_EveryStepKeepsMemoriesCanonical : MemoriesWf sLoft ∧ (nextOf (step sLoft)).isSome = true := by
  refine ⟨⟨?_, ?_, ?_⟩, ?_⟩ <;> decide +kernel

theorem witness_EveryStepKeepsTablesRising : TablesRising sLoft ∧ (nextOf (step sLoft)).isSome = true := by
  refine ⟨⟨?_, ?_, ?_, ?_, ?_, ?_, ?_, ?_, ?_⟩, ?_⟩ <;> (try unfold Rising) <;> decide +kernel

/-! ## Statements about execute words -/

theorem issues_of_goes {s : State} {x : Exec} {r : SlotRun} {op : WordOp} (h : goes s x r op = true) :
    Issues s x op r ∧ x.arr.wf = true ∧ starved (workOf s x op r) = false ∧ metFaults (workOf s x op r) = [] := by
  simp only [goes, Bool.and_eq_true, beq_iff_eq, Bool.not_eq_true', List.isEmpty_iff, List.all_eq_true] at h
  obtain ⟨⟨⟨⟨⟨⟨⟨⟨⟨⟨⟨⟨⟨h1, h0⟩, h2⟩, h3⟩, h4⟩, h5⟩, h6⟩, h7⟩, h8⟩, h9⟩, h10⟩, h11⟩, h12⟩, h13⟩ := h
  exact ⟨⟨h1, h0, h2, h3, h4, h5, h6, h7, h8, ⟨h9, h10⟩⟩, h11, h12, h13⟩

/-- The premises of `Stores` hold of a word. -/
def Issued (s : State) (x : Exec) (ok : Bool) (op : WordOp) (r : SlotRun) : Prop :=
  ok = true ∧ Issues s x op r ∧ x.arr.wf = true ∧ starved (workOf s x op r) = false ∧ metFaults (workOf s x op r) = []

theorem issued_of {s : State} {x : Exec} {ok : Bool} {op : WordOp} {r : SlotRun} (h : (ok && goes s x r op) = true) :
    Issued s x ok op r := by
  simp only [Bool.and_eq_true] at h
  exact ⟨h.1, issues_of_goes h.2⟩

theorem witness_CellWordsStoreTheirRows :
    (∀ p ∈ cellOps, Issued s0 (cellW p.2) ((cellW p.2).cellOk p.2) (cellWork (cellW p.2)) run0) ∧
    Issued s0 (cellW 6) ((cellW 6).cellOk 6) (mmulWork s0.env (cellW 6)) run0 := by
  have h : cellOps.all (fun p => (cellW p.2).cellOk p.2 && goes s0 (cellW p.2) run0 (cellWork (cellW p.2))) = true := by decide +kernel
  exact ⟨fun p hp => issued_of (List.all_eq_true.mp h p hp), issued_of (by decide +kernel)⟩

theorem witness_AccumulatingWordsStoreTheirEntries :
    (∀ p ∈ accOps, Issued s0 (cellW p.2) ((cellW p.2).cellOk p.2) (accWork (cellW p.2)) run0) ∧
    Issued s0 (foldW 2) ((foldW 2).foldOk 2) (foldWork (foldW 2) false) run0 ∧
    Issued s0 (foldW 3) ((foldW 3).foldOk 3) (foldWork (foldW 3) true) run0 := by
  have h : accOps.all (fun p => (cellW p.2).cellOk p.2 && goes s0 (cellW p.2) run0 (accWork (cellW p.2))) = true := by decide +kernel
  exact ⟨fun p hp => issued_of (List.all_eq_true.mp h p hp), issued_of (by decide +kernel), issued_of (by decide +kernel)⟩

theorem witness_VectorWordsStoreTheirRows :
    ∀ p ∈ vecOps, Issued s0 (vecW p.2) ((vecW p.2).vecOk p.2) (vecWork (vecW p.2)) run0 := by
  have h : vecOps.all (fun p => (vecW p.2).vecOk p.2 && goes s0 (vecW p.2) run0 (vecWork (vecW p.2))) = true := by decide +kernel
  exact fun p hp => issued_of (List.all_eq_true.mp h p hp)

/-- A LOAD from port LS2 and a STORE to port LW, bound to rows of handle 1, and a delay. -/
def xferW (xop : BitVec 2) (bind : BitVec 6) : Exec := word { bareWord with crib := some { crib0 with xop := xop }, que := some ⟨bind, 0⟩ }
def delayW : Exec := { word bareWord with hdr := { hdr0 with gap := 9 } }
def sAq : State := { s0 with arrs := [(0, { arr0 with aq := [0x0100000000008000] })] }

theorem witness_TransformAndTransferWordsStoreTheirRows :
    Issued s0 (nttW 16) ((nttW 16).cellOk 16) (transformWork s0.env (nttW 16) false) run0 ∧
    Issued s0 (nttW 17) ((nttW 17).cellOk 17) (transformWork s0.env (nttW 17) true) run0 ∧
    Issued s0 (netW 1) ((netW 1).netOk 1) (netWork (netW 1) autoStep none) run0 ∧
    Issued s0 (netW 2) ((netW 2).netOk 2) (mulxWork (netW 2)) run0 ∧
    Issued sAq (xferW 1 32) ((xferW 1 32).xferOk 1) (loadWork (xferW 1 32)) run0 ∧
    Issued sAq (xferW 2 2) ((xferW 2 2).xferOk 2) (storeWork (xferW 2 2)) run0 ∧
    Issued s0 delayW delayW.delayOk delayWork run0 := by
  refine ⟨?_, ?_, ?_, ?_, ?_, ?_, ?_⟩ <;> exact issued_of (by decide +kernel)

/-- A delay of GAP 9 moves the array's cycle on by 9 (R191); a STORE puts row 0 at the start of the loft. -/
theorem test_delay_and_store : ((nextOf (exec (.commandDelay delayW) s0)).map fun t => (t.arr a0).cycle) = some 9 ∧
    ((nextOf (exec (.cribStore (xferW 2 2)) sAq)).map fun t => (t.arr a0).loft.take 2) = some [(0, 3), (4, 3)] := by
  decide +kernel

theorem witness_ReductionsAreExact : 2 ≤ p0.q ∧ 2 ^ (14 - 1) ≤ p0.q ∧ p0.q < 2 ^ 14 ∧ 12288 < p0.q ∧ (2 ^ 72 - 1 : Nat) < 2 ^ 72 ∧
    barrett 14 (2 ^ 28 / 12289) 12289 (12288 * 12288) = 1 ∧ reduceLazy (2 ^ 64 % 12289) 12289 (2 ^ 72 - 1) = 12170 ∧
    (1 ≤ 2 ∧ (2 ^ 6 - 1 : Nat) < 2 ^ (2 * 3) ∧ signedDigits (2 ^ 2) 3 63 [] = [0, 0, -1]) ∧ (1 ≤ 3 ∧ 12288 < 12289) ∧
    (tablesFit (2 ^ 12) 6 1 = true ∧ tablesFit (2 ^ 5) 4 1 = true ∧ tablesFit (2 ^ 5) 5 1 = false ∧ (0 : Nat) < 1 ∧
      (2 ^ 7 - 1 : Nat) < 2 ^ (6 + 1) ∧ 63 < 2 * boxOffset (2 ^ 12) 6 1) := by decide

/-- R154's worked example: N_r = 4,096, t = 6, V = 1, T[16] = 798,589, modulo 3,221,225,473: w = 64, h = 32, TP[1,061] = T[16];
a phase of 1,061 shows T[16], and 4,096 more its negation. -/
theorem test_refresh_example :
    let tp := testWord 3221225473 4096 6 1 fun _ m => if m = 16 then 798589 else 0
    boxWidth 4096 6 = 64 ∧ boxOffset 4096 6 1 = 32 ∧ tp 1061 = 798589 ∧
    turnWord 3221225473 4096 (minusExp 4096 1061) tp 0 = 798589 ∧
    turnWord 3221225473 4096 (minusExp 4096 (1061 + 4096)) tp 0 = 3220426884 := by decide +kernel

theorem witness_CellResultsAreResidues : 2 ≤ p0.q ∧ 2 ^ (p0.kbits - 1) ≤ p0.q ∧ p0.q < 2 ^ p0.kbits ∧
    p0.mu = 2 ^ (2 * p0.kbits) / p0.q ∧ 12288 < p0.q ∧ 0 < p0.q := by decide

/-- The context and the lane with which the MADD of crib rows 0 and 1 runs, and that of a move. -/
def maddLane : Lane := (startLanes s0 (cellW 2) (cellWork (cellW 2)) run0).1
def maddCtx : Ctx := execCtx s0.env (cellW 2) (cellWork (cellW 2)) maddLane.x
/-- The same of the MSUB. -/
def msubLane : Lane := (startLanes s0 (cellW 3) (cellWork (cellW 3)) run0).1
def msubCtx : Ctx := execCtx s0.env (cellW 3) (cellWork (cellW 3)) msubLane.x

theorem witness_CellRowsAreElementwise : maddLane.ok = true ∧ maddCtx.dets = [] ∧ 0 < cribRows maddCtx.c ∧
    poisoned (rowState maddLane.x (maddCtx.c.arow.toNat + 0)) = false ∧
    (cellReadsB 2 = true ∧ poisoned (rowState maddLane.x (maddCtx.c.brow.toNat + 0)) = false) ∧
    (∀ w ∈ cribRow maddLane.x (maddCtx.c.arow.toNat + 0), w < (maddCtx.prime 0).q) ∧
    (∀ w ∈ cribRow maddLane.x (maddCtx.c.brow.toNat + 0), w < (maddCtx.prime 0).q) ∧
    extensionBad msubCtx (msubCtx.prime 0).q (rowState msubLane.x (msubCtx.c.arow.toNat + 0))
      (rowState msubLane.x (msubCtx.c.brow.toNat + 0)) (cribRow msubLane.x (msubCtx.c.brow.toNat + 0)) = none := by decide +kernel

theorem witness_ImmaSaturates :
    (accInt { value := 0x7FFFFFFE } < 2 ^ 31 ∧ accInt { value := 0x7FFFFFFE } + int8Dot 1 1 = 2 ^ 31 - 1) ∧
    (-(2 ^ 31) ≤ accInt { value := 0x7FFFFFFF } ∧ accInt { value := 0x7FFFFFFF } + int8Dot 1 1 = 2 ^ 31) ∧
    (-(2 ^ 31) ≤ accInt { value := 0x80000000 } ∧ accInt { value := 0x80000000 } + int8Dot 1 255 = -(2 ^ 31) - 1) := by
  decide +kernel

theorem witness_IntegerVectorResults : (0x80 : Nat) < 2 ^ 8 ∧ sNat 8 0x80 = -(2 ^ 7) ∧ sNat 8 0xFF = -1 ∧ sNat 8 0 = 0 ∧
    intOp 0x16 8 0x80 0xFF = (0x80, 4) ∧ intOp 0x16 8 0x80 0 = (0, 2) ∧ intOp 0x16 8 0xF9 2 = (0xFD, 0) := by decide +kernel

theorem witness_ExactZeroSumsTakeTheirSign : 255 * 2 ^ 23 - 1 < 255 * 2 ^ 23 ∧ (fAdd 23 2 false (255 * 2 ^ 23 - 1) (255 * 2 ^ 23 - 1 + 2 ^ 31)).1 = 2 ^ 31 ∧
    (2 ^ 23 - 1 < 2 ^ 23 ∧ (fAdd 23 0 true 1 (2 ^ 23 - 1 + 2 ^ 31)).1 = 0) := by decide +kernel

/-! ## Statements about access-stream words -/

/-- The premises of `CoreGoes`, as a check. -/
def goesOn (s : State) (c : CcWord) (r : SlotRun) : Bool :=
  s.runOf c.arr == some r && s.issues r && !r.abandoned && !(s.arr c.arr).core.ended && (s.arr c.arr).core.stall.isNone &&
    !(c.dets.any fun d => d.kind == .storeUncorr)

theorem coreGoes_of {s : State} {c : CcWord} {r : SlotRun} (h : goesOn s c r = true) : CoreGoes s c r := by
  simp only [goesOn, Bool.and_eq_true, beq_iff_eq, Bool.not_eq_true', Option.isNone_iff_eq_none] at h
  obtain ⟨⟨⟨⟨⟨h1, h0⟩, h2⟩, h3⟩, h4⟩, h5⟩ := h
  exact ⟨h1, h0, h2, ⟨h3, h4⟩, h5⟩

theorem witness_CoreArithmeticAndCompares : cc3.binOk = true ∧ ({ cc3 with rd := 2 } : CcWord).cmpOk = true ∧ goesOn s0 cc3 run0 = true := by
  decide +kernel

theorem witness_CoreMovesAndProductsSetRd : ({ cc0 with rd := 31, imm := 7 } : CcWord).fields true false false false true = true ∧
    cc3.fields true true true false false = true ∧ goesOn s0 { cc0 with rd := 31, imm := 7 } run0 = true ∧
    SMap.wf 0 arr0.core.regs = true := by decide +kernel

/-- s0 whose core runs the last, or the last but one, of a loop's passes. -/
def sLoop (n : Nat) : State := withCore { loops := [(4, n)], pc := 9 }

theorem witness_CoreLoopsCount : (cc0.plain && cc0.fields false false false false false) = true ∧ goesOn s0 cc0 run0 = true ∧
    (coreOf (sLoop 2) cc0).loops = (4, 2) :: [] ∧ goesOn (sLoop 2) cc0 run0 = true ∧ (coreOf (sLoop 1) cc0).loops = (4, 1) :: [] ∧
    (let c : CcWord := { cc0 with x := 1, imm := 1 }
     (c.plain && (c.x == 0 || c.x == 1) && c.fields false (c.x == 0) false true (c.x == 1)) = true ∧
      (if c.x = 0 then (coreReg (coreOf s0 c) c.rs1.toNat).toNat else c.imm.toNat) ≠ 0) ∧
    (if cc0.x = 0 then (coreReg (coreOf s0 cc0) cc0.rs1.toNat).toNat else cc0.imm.toNat) = 0 := by decide +kernel

/-- Where the core of array 0 is after one word, and its loops. -/
def placeAfter (s : State) (c : Instr) : Option (Nat × List (Nat × Nat)) :=
  (nextOf (exec c s)).map fun t => ((t.arr a0).core.pc, (t.arr a0).core.loops)

theorem test_core_loops : placeAfter s0 (.loop { cc0 with x := 1, imm := 3 }) = some (1, [(1, 3)]) ∧
    placeAfter (sLoop 2) (.endl cc0) = some (4, [(4, 1)]) ∧ placeAfter (sLoop 1) (.endl cc0) = some (10, []) ∧
    ((nextOf (exec (.ccEnd cc0) s0)).map fun t => (t.arr a0).core.ended) = some true := by decide +kernel

/-- s0 with array 0 changed. -/
def withArr (x : Arr) : State := { s0 with arrs := [(0, x)] }

theorem witness_CoreQueuesFillAndStall : ({ cc0 with rs1 := 1 } : CcWord).fields false true false false false = true ∧
    goesOn (withArr { arr0 with aq := List.replicate 31 0 }) { cc0 with rs1 := 1 } run0 = true ∧
    ((withArr { arr0 with aq := List.replicate 31 0 }).arr a0).aq.length < 32 ∧
    32 ≤ ((withArr { arr0 with aq := List.replicate 32 0 }).arr a0).aq.length ∧
    ((withArr { arr0 with oq := List.replicate 63 0 }).arr a0).oq.length < 64 ∧
    (({ cc0 with imm := 16 } : CcWord).fields false false false false true && decide (1 ≤ (16 : Nat) ∧ (16 : Nat) ≤ 16)) = true ∧
    (16 ≤ ((withArr { arr0 with tokens := 16 }).arr a0).tokens ∧ ((withArr { arr0 with tokens := 15 }).arr a0).tokens < 16) ∧
    (156 : Nat) ≤ s0.tm.now % 1000000 / 64 ∧
    ((withArr { arr0 with core := { stall := some (.aqFull 7) } }).arr a0).core.stall = some (.aqFull 7) ∧
    ((withArr { arr0 with core := { stall := some (.tokens 2) }, tokens := 2 }).arr a0).core.stall = some (.tokens 2) := by
  decide +kernel

theorem test_core_queues :
    ((nextOf (exec (.aqpush { cc0 with rs1 := 1 }) s0)).map fun t => (t.arr a0).aq) = some [40] ∧
    ((nextOf (exec (.aqpush { cc0 with rs1 := 1 }) (withArr { arr0 with aq := List.replicate 32 0 }))).map fun t =>
      (t.arr a0).core.stall) = some (some (.aqFull 40)) ∧
    ((nextOf (exec (.oqpush { cc0 with rs1 := 1, pneg := true }) s0)).map fun t => (t.arr a0).oq) = some [0] ∧
    ((nextOf (exec (.tqwait { cc0 with imm := 3 }) (withArr { arr0 with tokens := 4 }))).map fun t => (t.arr a0).tokens) = some 1 ∧
    ((nextOf (exec (.twait { cc0 with imm := 157 }) s0)).map fun t => ((t.arr a0).core.stall, (t.arr a0).core.pc)) =
      some (some (.time 157), 1) ∧
    ((nextOf (exec (.ccStallRelease { arr := a0 }) (withArr { arr0 with core := { stall := some (.tokens 2) }, tokens := 3 }))).map fun t =>
      ((t.arr a0).tokens, (t.arr a0).core.stall)) = some (1, none) := by decide +kernel

/-- A descriptor whose byte 8 is 7. -/
def sDesc : State := { s0 with jobs := [{ idx := 0, tenant := 1, st := .bound, desc := List.replicate 8 0 ++ [7] }] }

theorem witness_CoreOrderAndReadInstructionsGoOn : cc0.fields false false false false false = true ∧ goesOn s0 cc0 run0 = true ∧
    predTrue (coreOf s0 cc0) { cc0 with x := 1 } = true ∧ predTrue (coreOf s0 cc0) { cc0 with x := 1, pneg := true } = false ∧
    (handleOf (s0.arr a0) 2).kind ≠ 1 ∧
    (({ cc0 with rd := 3, imm := 56 } : CcWord).fields true true false false true && decide ((56 : Nat) ≤ 56 ∧ (56 : Nat) % 8 = 0)) = true ∧
    (filledPositions run0).find? (fun e => e.1 == 0) = some (0, 0) ∧ sDesc.job? 0 = sDesc.jobs.head? ∧
    (filledPositions run0).find? (fun e => e.1 == (coreReg (coreOf s0 cc0) 2).toNat % 8) = none ∧
    (({ cc0 with rd := 3, x := 5 } : CcWord).fields true false false true false && decide ((5 : Nat) ≤ 5)) = true ∧
    (let c : CcWord := { cc0 with x := 1, pneg := true, imm := 0xFF00 }
     (c.fields false true false true true && decide (c.imm.toNat % 256 + c.imm.toNat / 256 % 256 ≤ 255)) = true ∧
      goesOn s0 c run0 = true ∧ predTrue (coreOf s0 c) c = false) := by decide +kernel

theorem test_core_ldj_and_acq : reg3 sDesc (.ldj { cc0 with rd := 3, imm := 8 }) = some 7 ∧
    ((nextOf (exec (.acq { cc0 with x := 2 }) (withArr { arr0 with cache := [(0, [⟨2, 0, []⟩, ⟨3, 0, []⟩])] }))).map fun t =>
      (t.arr a0).cache) = some [(0, [⟨3, 0, []⟩])] ∧
    ((nextOf (exec (.acqB { cc0 with x := 2 }) s0)).map fun t => (t.arr a0).bypass) = some [2] ∧
    placeAfter s0 (.nop cc0) = some (1, []) ∧ placeAfter s0 (.fence cc0) = some (1, []) := by decide +kernel

/-- The loads and stores of the clauses: in range at the end of LENGTH, unmapped, misaligned, past LENGTH, a window. -/
def ldAt (off : Word) : CcWord := { cc0 with rd := 3, rs2 := 3, x := 1, imm := off }

/-- A REMOTE window of handle 2 onto handle 1 of array 1, and the cached line of its last 128 bytes. -/
def sWindow : State := { s0 with arrs := [
  (0, { arr0 with
          handles := [(2, { kind := 3, length := 4096, target := BitVec.ofNat 64 (2 ^ 43 + 2 ^ 35) })], cacheSteps := 1
          cache := [(105, [⟨2, 3968, List.replicate 120 0 ++ [9, 8, 7, 6, 5, 4, 3, 2]⟩])] }), (1, arr0)] }

theorem witness_CoreLoadsAndStores :
    ((ldAt 65528).fields true true true true true && decide ((ldAt 65528).rs2.toNat ≤ 7)) = true ∧ goesOn s0 (ldAt 65528) run0 = true ∧
    (let e := handleOf (s0.arr a0) 1
     e.kind = 1 ∧ e.sheaf = false ∧ coreOff (coreOf s0 cc0) (ldAt 65528) % 8 = 0 ∧
      coreOff (coreOf s0 cc0) (ldAt 65528) + 8 ≤ e.length.toNat ∧ e.length.toNat < coreOff (coreOf s0 cc0) (ldAt 65536) + 8) ∧
    (handleOf (s0.arr a0) 9).kind = 0 ∧ coreOff (coreOf s0 cc0) (ldAt 4) % 8 ≠ 0 ∧
    (handleOf ((withArr { arr0 with handles := [(1, { kind := 2, length := 4096 })] }).arr a0) 1).kind = 2 ∧
    (({ cc0 with x := 1, imm := 0x0002 } : CcWord).fields false true false true true &&
      decide ((2 : Nat) % 256 + 2 / 256 % 256 ≤ 255)) = true ∧ poisoned (rowState (s0.arr a0) 2) = false ∧
    ((handleOf (sWindow.arr a0) 2).kind = 3 ∧ 2 ∉ (sWindow.arr a0).bypass ∧ 0 < cacheSets (sWindow.arr a0) ∧
      (cacheLine (sWindow.arr a0) 2 (4088 / 128 * 128)).isSome = true ∧ cacheLine (sWindow.arr a0) 2 0 = none ∧
      (sWindow.remoteStore a0 run0 (handleOf (sWindow.arr a0) 2) 0 [1, 2, 3, 4, 5, 6, 7, 8]).isOk = true ∧
      goesOn sWindow { ldAt 4088 with x := 2 } run0 = true) := by decide +kernel

/-- A load of a cached line gives its bytes; a store through the window waits at its target (R246, R249). -/
theorem test_window : reg3 sWindow (.ld { ldAt 4088 with x := 2 }) = some 0x0203040506070809 ∧
    ((nextOf (exec (.st { ldAt 0 with x := 2, rd := 1 }) sWindow)).map fun t => (t.arr ⟨0, 1⟩).landing.map fun v => (v.handle, v.off, v.rows)) =
      some [(1, 0, [[40, 0, 0, 0, 0, 0, 0, 0]])] := by decide +kernel

theorem test_core_addr_faults : ((nextOf (exec (.ld (ldAt 4)) s0)).bind fun t => (t.arr a0).lastFault.map fun f => (f.kind, f.sub)) =
    some (7, 2) ∧ ((nextOf (exec (.ld (ldAt 65536)) s0)).bind fun t => (t.arr a0).lastFault.map fun f => (f.kind, f.sub)) =
    some (7, 1) ∧ ((nextOf (exec (.st { ldAt 0 with x := 9 }) s0)).bind fun t => (t.arr a0).lastFault.map fun f => (f.kind, f.sub)) =
    some (7, 3) := by decide +kernel

/-- A descriptor image of one block of one row of 64 bytes, from handle 1 at 64 to handle 1 at 128 of array 0, with group 3
and a clasp (R216, R217); and a granary request image for KEY_ID 0xFFFF, 2,048 bytes at 0, to handle 1 (R221). -/
def descImage : List Byte :=
  leBytes 2 1 ++ [3, 1] ++ List.replicate 28 0 ++ leBytes 8 (2 ^ 35 + 64) ++ leBytes 8 (2 ^ 35 + 128) ++ leBytes 4 64 ++ leBytes 2 1 ++
    [0, 1] ++ leBytes 4 0 ++ leBytes 4 0
def reqImage : List Byte := [2, 0, 0, 1, 0xFF, 0xFF, 0, 0] ++ leBytes 8 0 ++ leBytes 8 (2 ^ 35) ++ leBytes 4 2048 ++ leBytes 4 0

/-- s0 with bytes at the start of array 0's loft. -/
def withLoft (bs : List Byte) : State := withArr (loftWrite arr0 (handleOf arr0 1) 0 bs)

/-- A die whose DMA holds 256 descriptors. -/
def sFull : State := { s0 with dies := [(0, { descs := List.replicate 256 {} })] }

theorem witness_CoreRequestsReachTheirUnits : ({ cc0 with x := 1 } : CcWord).fields false true false true true = true ∧
    goesOn sFull { cc0 with x := 1 } run0 = true ∧ 256 ≤ (sFull.die 0).descs.length ∧ (s0.die 0).descs.length < 256 ∧
    ((withLoft descImage).acceptDesc a0 run0 1 0).isOk = true ∧
    (let s := withLoft reqImage
     let bs := loftRead (s.arr a0) (handleOf (s.arr a0) 1) 0 32
     unitReqOk (unitReqOf bs a0) (field bs 7 1 + field bs 28 4) = true) ∧
    (let s := withLoft (reqImage.set 7 1)
     let bs := loftRead (s.arr a0) (handleOf (s.arr a0) 1) 0 32
     unitReqOk (unitReqOf bs a0) (field bs 7 1 + field bs 28 4) = false) := by decide +kernel

/-- DMAQ passes the descriptor with DSEQ 0, and stalls at a full list; REQ passes the request, or faults (R220, R221). -/
theorem test_core_requests :
    ((nextOf (exec (.dmaq { cc0 with x := 1 }) (withLoft descImage))).map fun t =>
      ((t.die 0).descs.map fun d => (d.dseq, d.group, d.blocks.length))) = some [(0, 3, 1)] ∧
    ((nextOf (exec (.dmaq { cc0 with x := 1, imm := 64 }) sFull)).map fun t => (t.arr a0).core.stall) = some (some (.dmaFull 1 64)) ∧
    ((nextOf (exec (.req { cc0 with x := 1 }) (withLoft reqImage))).map fun t => ((t.die 0).units.map fun u => (u.unit, u.keyId, u.len))) =
      some [(2, 65535, 2048)] ∧
    ((nextOf (exec (.req { cc0 with x := 1 }) (withLoft (reqImage.set 7 1)))).bind fun t => (t.arr a0).lastFault.map fun f =>
      (f.kind, f.sub)) = some (7, 5) := by refine ⟨?_, ?_, ?_, ?_⟩ <;> decide +kernel

/-! ## Die DMA, atomics, units -/

theorem witness_ReleaseSlotAdvancesToTheBoundary : s0.working = true ∧ Rising s0.arrs := by
  refine ⟨?_, ?_⟩ <;> (try unfold Rising) <;> decide

/-- RELEASE_SLOT at 5,010,000 ns goes to 5,010,048, the next multiple of 64 (R343), and releases the block of array 0's
descriptor, which costs one unit (R223). -/
def sRelease : State := { withArr { arr0 with reqs := [.desc 0], bucket := 4096 } with
  dies := [(0, { descs := [{ arr := a0, blocks := [{ src := 2 ^ 35 + 64, dst := 2 ^ 35 + 128, len := 64, rows := 1, bflags := 1 }], group := 3 }] })] }

theorem test_release_slot : ((nextOf (exec .releaseSlot sRelease)).map fun t => (t.tm.now, (t.arr a0).bucket)) = some (5010048, 3072) ∧
    ((nextOf (exec .releaseSlot sRelease)).bind fun t => (t.desc? a0 0).bind fun d => d.blocks.head?.map (·.st)) = some .released := by
  refine ⟨?_, ?_⟩ <;> decide +kernel

/-- The block reference of those blocks, and s0 with the block released. -/
def b0 : BlockRef := { arr := a0, dseq := 0, blk := 0, hostErr := none }
def d0 : Desc := { arr := a0, blocks := [{ src := 2 ^ 35 + 64, dst := 2 ^ 35 + 128, len := 64, rows := 1, bflags := 1, st := .released }], group := 3 }
def sBlock : State := { withLoft (List.replicate 64 0 ++ List.replicate 64 9) with dies := [(0, { descs := [d0] })] }

/-- A block to an input buffer's position that no job fills. -/
def dIn : Block := { src := 2 ^ 62 + 2 ^ 58, dst := 2 ^ 43 + 2 ^ 35, len := 64, rows := 1 }

/-- Whether a fetch gives rows. -/
def gives : Fetched → Option (List (List Byte))
  | .rows r _ => some r
  | _ => none

theorem witness_BlockWriteSendsItsRows : b0.arr.wf = true ∧ sBlock.desc? b0.arr b0.dseq = some d0 ∧ sBlock.blockReady d0 b0.blk = true ∧
    (b0.hostErr = none ∧ b0.ecc = []) ∧ sBlock.blockFault d0 (d0.blocks.getD 0 {}) = none ∧
    sBlock.ownEndpoint (endpointOf (d0.blocks.getD 0 {}).src) = .loft 0 0 1 64 ∧
    sBlock.ownEndpoint (endpointOf (d0.blocks.getD 0 {}).dst) = .loft 0 0 1 128 ∧
    (handleOf (sBlock.arr ⟨0, 0⟩) 1).sheaf = false ∧ sBlock.writesNothing d0 (d0.blocks.getD 0 {}) = false ∧
    ((d0.blocks.getD 0 {}).len % 64 = 0 ∧ (d0.blocks.getD 0 {}).rows = 1 ∧ 128 + 64 ≤ (handleOf (sBlock.arr ⟨0, 0⟩) 1).length.toNat ∧
      (handleOf (sBlock.arr ⟨0, 0⟩) 1).kind = 1 ∧ (⟨0, 0⟩ : ArrId) = d0.arr) ∧ sBlock.writesNothing d0 dIn = true ∧
    gives (sBlock.fetchRows d0 (d0.blocks.getD 0 {}) b0.refused) = some [List.replicate 64 9] := by
  refine ⟨?_, ?_, ?_, ?_, ?_, ?_, ?_, ?_, ?_, ?_, ?_, ?_⟩ <;> decide +kernel

theorem test_block_write : ((nextOf (exec (.blockWrite b0) sBlock)).map fun t =>
    ((t.arr a0).landing.map fun v => (v.off, v.rows, v.group, v.clasp))) = some [(128, [List.replicate 64 9], 3, true)] := by decide +kernel

/-- An arrival of four bytes 1, and one of an atomic on the word at offset 24. -/
def arrival (aop : Nat) (bytes : List Byte) : Arrival := { handle := 1, off := 24, rows := [bytes], aop := aop, group := 3, clasp := true }
def sLand (v : Arrival) : State := withArr { arr0 with landing := [v], loft := [(24, 7)] }

theorem witness_ArrivalsLandInOrder : a0.wf = true ∧ ((sLand (arrival 0 [1, 1])).arr a0).landing = arrival 0 [1, 1] :: [] ∧
    localFault (handleOf ((sLand (arrival 0 [1, 1])).arr a0) 1) 0 (24 + 2) = none ∧ (arrival 0 [1, 1]).job = none ∧
    (arrival 0 [1, 1]).rows.length = 1 ∧ (arrival 0 [1, 1]).clasp = true ∧ (arrival 0 [1, 1]).group ≠ 0 ∧
    (sLand { arrival 0 [1] with job := some (9, 0) }).staleRef (some (9, 0)) = true ∧
    (let v := arrival 0 [1, 1]
     arrivalFault (handleOf ((sLand v).arr a0) v.handle) a0 v v.last = none ∧ (sLand v).staleRef v.job = false ∧ v.src = none ∧
      v.retTo = none ∧ v.hostBuf = none ∧ (sLand v).positionBad a0 v = false) ∧
    (let v := { arrival 0 [1, 1] with job := some (0, 0), pos := 0, remote := some (3, 5, 0, 0, 0, 0) }
     let s : State := { sLand v with runs := [{ run0 with bad := [(0, 8)] }] }
     arrivalFault (handleOf (s.arr a0) v.handle) a0 v v.last = none ∧ s.staleRef v.job = false ∧ s.positionBad a0 v = true) ∧
    (let v := { arrival 0 [1, 1] with off := 65535 }
     arrivalFault (handleOf ((sLand v).arr a0) v.handle) a0 v v.last = some 1 ∧ (sLand v).staleRef v.job = false) := by decide +kernel

theorem test_arrival_lands : ((nextOf (exec (.loftArrival a0) (sLand (arrival 0 [1, 1])))).map fun t =>
    ((t.arr a0).loft, (t.arr a0).flags.toNat)) = some ([(24, 1), (25, 1)], 8) ∧
    ((nextOf (exec (.loftArrival a0) (sLand { arrival 0 [1] with job := some (9, 0) }))).map fun t =>
      ((t.arr a0).loft, (t.arr a0).cnt.staleDrops)) = some ([(24, 7)], 1) := by decide +kernel

theorem witness_AtomicsExecuteAtTheirHome : a0.wf = true ∧ ((sLand (arrival 2 [1, 0, 0, 0])).arr a0).landing = arrival 2 [1, 0, 0, 0] :: [] ∧
    (arrival 2 [1, 0, 0, 0]).aop = 2 ∧ (12288 < 12289 ∧ 12288 < 12289 ∧ 12289 ≤ 12289) ∧ (2 ^ 32 - 1 : Nat) < 2 ^ 32 := by decide +kernel

/-- The word 7 after each atomic with operand 1 (R258): modular add, int32 add, min, max, swap, and compare 7 with new 5. -/
theorem test_atomics : ([(Instr.modularAdd, 1, [1, 0, 0, 0]), (.int32Add, 2, [1, 0, 0, 0]), (.atomicMin, 4, [1, 0, 0, 0]),
    (.atomicMax, 5, [1, 0, 0, 0]), (.swap, 6, [1, 0, 0, 0]), (.compareAndSwap, 7, [7, 0, 0, 0, 5, 0, 0, 0])].map
    fun p => (nextOf (exec (p.1 { arr := a0 }) (sLand (arrival p.2.1 p.2.2)))).map fun t => (t.arr a0).loft) =
    [some [(24, 8)], some [(24, 8)], some [(24, 1)], some [(24, 7)], some [(24, 1)], some [(24, 5)]] ∧
    ((nextOf (exec (.fp32Add { arr := a0 }) (withArr { arr0 with landing := [arrival 3 [0, 0, 0x80, 0x3F]] }))).map fun t => (t.arr a0).loft) =
      some [(26, 0x80), (27, 0x3F)] := by refine ⟨?_, ?_⟩ <;> decide +kernel

/-- A plan of N = 8 whose tenant 1 has a seeded key 4 of kind 1 with GALOIS 5, and a request of each unit in array 0. -/
def ps8 : Machine.PSet := { scheme := 0, logn := 3, lq := 1, lp := 1, dnum := 1, qIdx := [0], pIdx := [0] }
def psL : Machine.PSet := { scheme := 3, logn := 2, lq := 1, lweN := 4, lweLogq := 16, glweRank := 1, qIdx := [0] }
def unit0 (unit : Nat) : UnitReq := { n := 5, arr := a0, unit := unit, dst := BitVec.ofNat 64 (2 ^ 35 + 1024), slot := 0, epoch := 5, released := true, job := some 0 }
def sowerReq : UnitReq := { unit0 1 with keyId := 4, len := 8 }
def granReq : UnitReq := { unit0 2 with keyId := 4, len := 2048, p2 := 1 }
def extractReq : UnitReq := { unit0 3 with p0 := 1, src := 2 * 2 ^ 8 + 2 }
def binderReq : UnitReq := { unit0 4 with p0 := 0, src := 3 }
def sUnit (u : UnitReq) : State := { withArr { arr0 with handles := arr0.handles ++
      [(2, { kind := 1, length := 65536, target := 4096, sheaf := true, level := 1, npoly := 2, ver := 3 }),
       (3, { kind := 1, length := 65536, target := 8192, pset := 1 })] } with
  plan := some { plan0 with psets := [ps8, psL] }
  keys := [{ tenant := 1, id := 4, kind := 1, seeded := true, galois := 5, seed := (List.range 32).map (BitVec.ofNat 8), pset := some 0, blocks := [60000] }]
  gran := [(60000 * 65536, 0x5A)]
  dies := [(0, { units := [u] })] }

theorem witness_UnitsServeReleasedRequests :
    ((sUnit sowerReq).unitHead 0 1 = some sowerReq ∧ ((sUnit sowerReq).sow sowerReq).isOk = true ∧ (sUnit sowerReq).unitStale sowerReq = false) ∧
    ((sUnit extractReq).unitHead 0 3 = some extractReq ∧ ((sUnit extractReq).thresh extractReq).isOk = true ∧
      (sUnit extractReq).unitStale extractReq = false) ∧
    ((sUnit binderReq).unitHead 0 4 = some binderReq ∧ ((sUnit binderReq).binderWork binderReq).isOk = true ∧
      (sUnit binderReq).unitStale binderReq = false) ∧ (sUnit granReq).unitHead 0 2 = some granReq ∧
    ((sUnit { extractReq with src := 9 * 2 ^ 8 + 9 }).thresh { extractReq with src := 9 * 2 ^ 8 + 9 }).isOk = false ∧
    ((sUnit { binderReq with src := 9 }).binderWork { binderReq with src := 9 }).isOk = false := by
  refine ⟨⟨?_, ?_, ?_⟩, ⟨?_, ?_, ?_⟩, ⟨?_, ?_, ?_⟩, ?_, ?_, ?_⟩ <;> decide +kernel

/-- R117 with SHAKE128 of FIPS 202: the first two words of the limb of that seed, computed outside the model. -/
theorem test_sower : ((nextOf (exec (.sowerRequest 0 none) (sUnit sowerReq))).map fun t =>
    toWords (loftRead (t.arr a0) (handleOf (t.arr a0) 1) 1024 8)) = some [5726, 5388] := by decide +kernel

/-- A line that the controllers cannot give makes the tenant's key CORRUPT (R125), and the request is gone. -/
theorem test_granary_read : ((nextOf (exec (.granaryRead 0 [.dead]) (sUnit granReq))).map fun t => (t.keys.map (·.st), (t.die 0).units)) =
    some ([.corrupt], []) ∧ (nextOf (exec (.granaryRead 0 []) (sUnit granReq))).map (fun t => (t.die 0).units) = some [] := by
  refine ⟨?_, ?_⟩ <;> decide +kernel

theorem test_unit_faults : ((nextOf (exec (.sowerRequest 0 (some 2)) (sUnit sowerReq))).bind fun t => (t.arr a0).lastFault.map fun f =>
      (f.kind, f.sub)) = some (5, 2) ∧
    ((nextOf (exec (.extract 0 { mismatch := true }) (sUnit extractReq))).bind fun t => (t.arr a0).lastFault.map fun f => (f.kind, f.sub)) = some (6, 1) ∧
    ((nextOf (exec (.binderRequest 0 { mismatch := true }) (sUnit binderReq))).bind fun t => (t.arr a0).lastFault.map fun f => (f.kind, f.sub)) =
      some (6, 2) := by refine ⟨?_, ?_, ?_⟩ <;> decide +kernel

/-! ## Slots and epochs -/

/-- A second queued job of tenant 1, received before the bind point of the JOB slot in epoch 6 (5,999,000 + 4,000 ns). -/
def jobQ : Job := { idx := 1, tenant := 1, prog := 1, receipt := some 5000000 }
def sBind : State := { s0 with jobs := s0.jobs ++ [jobQ] }
def slotJob : SlotRec := { slot := 0, kind := 0, prog := 1, batch := 2, dieMask := 1, arrayMask := 3, start := 100, length := 1000 }
def prog1 : Program := { prog := 1, bmax := 2 }

/-- A plan whose program 1 spans packages, at a member that leads. -/
def sDomain : State := { sBind with
  plan := some { plan0 with programs := [{ prog1 with flags := 1 }], domain := true, lead := 9
                            route := some { pkg := 9, deputy := 10, admitWait := 4 } }
  dom := { pkgAddr := 9, st := .member, lead := 9, deputy := 10, members := [9, 10] } }

theorem witness_SlotsBindByFairShare : (sBind.working = true ∧ sBind.slotRec 0 = some slotJob ∧ slotJob.kind = 0 ∧
      (∀ r ∈ sBind.runs, ¬(r.slot = 0 ∧ r.epoch = 6)) ∧ sBind.program 1 = some prog1 ∧ spansPackages prog1 = false) ∧
    (let u := sBind.reach (sBind.bindNs 6 slotJob)
     let el := u.jobs.filter (u.eligible prog1 6 (u.bindNs 6 slotJob))
     u.mayBind 6 slotJob = true ∧ el = [jobQ] ∧ u.chooseTenant (slotCost u.variant slotJob) (el.map (·.tenant)) = some 1) ∧
    Rising sBind.tenants ∧ (s0.reach (s0.bindNs 6 slotJob)).jobs.filter
      ((s0.reach (s0.bindNs 6 slotJob)).eligible prog1 6 (s0.bindNs 6 slotJob)) = [] ∧
    (sDomain.isLead = true ∧ sDomain.program 1 = some { prog1 with flags := 1 } ∧ spansPackages { prog1 with flags := 1 } = true) := by
  refine ⟨⟨?_, ?_, ?_, ?_, ?_, ?_⟩, ⟨?_, ?_, ?_⟩, ?_, ?_, ?_, ?_, ?_⟩ <;> (try unfold Rising) <;> decide +kernel

/-- The slot of 2 arrays and 1,000 quanta costs tenant 1 2,000 of its deficit (R409), and binds its job. -/
theorem test_bind_point : ((nextOf (exec (.bindPoint 6 0) sBind)).map fun t =>
    ((t.tenant 1).deficit, t.drrPtr, t.tm.now, (t.job? 1).map (·.st))) = some (-2000, 2, 6003000, some .bound) ∧
    ((nextOf (exec (.bindPoint 6 0) s0)).map fun t => (mget {} t.slotStats 0).unfilled) = some 1 ∧
    ((nextOf (exec (.leadBindDecision 6 0) sDomain)).map fun t => t.dom.binds.map fun b => (b.epoch, b.slot)) = some [(6, 0)] := by
  refine ⟨?_, ?_, ?_⟩ <;> decide +kernel

/-- A bound run that has not started, in epoch 6, and the part just before it; the other two slots. -/
def runW : SlotRun := { slot := 0, epoch := 6, jobs := [(0, 0)], incs := [(0, 0)] }
def sWait : State := { s0 with runs := [runW] }
def slotInstall : SlotRec := { slot := 1, kind := 1, dieMask := 1, arrayMask := 4, start := 2000, length := 500, installBytes := 65536 }
def slotFallow : SlotRec := { slot := 2, kind := 2, start := 20000, length := 100 }
def sSteps (n : Int) : State := { s0 with tm := { s0.tm with stepsDue := n } }
/-- One nanosecond before a step is due. -/
def sDue (up : Bool) : State := { s0 with tm := { now := 5800999, stepsDue := 1, dueStep := some (5801000, up) } }

theorem witness_EmptyQueueCountsOneTick_due : (sDue true).pending = [] ∧ (sDue true).tm.hold = 0 ∧
    (sDue true).tm.dueStep = some ((sDue true).tm.now + 1, true) ∧ (sDue false).tm.dueStep = some ((sDue false).tm.now + 1, false) ∧
    ∀ d b, s0.tm.dueStep = some (d, b) → s0.tm.now + 1 < d := by
  refine ⟨by decide, by decide, by decide, by decide, fun d b h => nomatch h⟩

theorem witness_SlotsStartAndEnd : (sWait.working = true ∧ sWait.slotRec 0 = some slotJob ∧ sWait.plan = some plan0 ∧
      sWait.running? 0 = none ∧ sWait.waiting? 0 = some runW ∧ runW.abandoned = false ∧ Rising sWait.arrs) ∧
    ({ s0 with runs := [] } : State).waiting? 0 = none ∧ (s0.slotRec 1 = some slotInstall ∧ slotInstall.kind = 1 ∧ s0.running? 1 = none) ∧
    (s0.slotRec 2 = some slotFallow ∧ slotFallow.kind = 2 ∧ s0.running? 2 = none ∧ 51 ≤ slotFallow.length ∧ (sSteps 1).tm.lastStep = none ∧
      0 < (sSteps 1).tm.stepsDue ∧ (sSteps (-1)).tm.stepsDue < 0 ∧ (sSteps 0).tm.stepsDue = 0) ∧
    (s0.running? 0 = some run0 ∧ s0.running? 2 = none ∧ s0.job? 0 = s0.jobs.head? ∧ (0, 0) ∈ run0.incs) := by
  refine ⟨⟨?_, ?_, ?_, ?_, ?_, ?_, ?_⟩, ?_, ⟨?_, ?_, ?_⟩, ⟨?_, ?_, ?_, ?_, ?_, ?_, ?_, ?_⟩, ⟨?_, ?_, ?_, ?_⟩⟩ <;> (try unfold Rising) <;>
    decide +kernel

theorem test_slots : ((nextOf (exec (.slotStart ⟨0, []⟩) sWait)).map fun t => (t.tm.now, (t.runOf a0).isSome, (t.arr a0).crib)) =
      some (6004000, true, []) ∧
    ((nextOf (exec (.slotStart ⟨1, []⟩) s0)).map fun t => t.runs.length) = some 2 ∧
    ((nextOf (exec (.fallowSlotStart 2 []) (sSteps 1))).map fun t => (t.tm.now, t.tm.dueStep)) = some (5800000, some (5801000, true)) ∧
    ((nextOf (exec (.fallowSlotStart 2 []) (sSteps (-1)))).map fun t => (t.tm.reach 5802000).now) = some 5802000 ∧
    ((nextOf (step (sDue true))).map fun t => (t.tm.now, t.tm.hold, t.tm.stepsDue)) = some (5801000, 5, 0) ∧
    ((nextOf (step (sDue false))).map fun t => (t.tm.now, t.tm.hold, t.tm.stepsDue)) = some (5801005, 0, 2) ∧
    ((nextOf (exec (.slotEnd 0) s0)).map fun t => (t.runs, (t.job? 0).map (·.st))) = some ([], some .finished) := by
  refine ⟨?_, ?_, ?_, ?_, ?_, ?_, ?_⟩ <;> decide +kernel

/-- A paced slot that its delay carries past the FALLOW slot at quantum 20,000, and a real-time plan. -/
def sLate : State := withArr { arr0 with delay := 19000 * 64 }
def sReal : State := { withArr { arr0 with waiting := true, heldAt := 64000, heldTag := 9, heldGroup := 3 } with
  plan := some { plan0 with realTime := true } }

theorem witness_SlotsAreAbandoned : sLate.plan = some plan0 ∧ sLate.slotRec 0 = some slotJob ∧ sLate.running? 0 = some run0 ∧
    slotJob.kind = 0 ∧ run0.abandoned = false ∧ plan0.realTime = false ∧
    limitQuantum sLate.template slotJob * sLate.perQuantum < sLate.actualEnd slotJob ∧
    ({ plan0 with realTime := true } : Plan).realTime = true ∧ a0.wf = true ∧ slotOccupies sReal.variant slotJob a0 = true ∧
    (sReal.arr a0).waiting = true ∧ (sReal.arr a0).flags.getLsbD 3 = false := by
  refine ⟨?_, ?_, ?_, ?_, ?_, ?_, ?_, ?_, ?_, ?_, ?_, ?_⟩ <;> decide +kernel

theorem test_abandonments : ((nextOf (exec (.slotPacedAbandon 0) sLate)).map fun t => (t.tm.now, t.runs.map (·.abandoned))) =
      some (5800000, [true]) ∧
    ((nextOf (exec (.slotDeadlineAbandon 0 a0 3 64000 9) sReal)).bind fun t => (t.arr a0).lastFault.map fun f => (f.kind, f.index, f.tag)) =
      some (10, 3, 9) := by refine ⟨?_, ?_⟩ <;> decide +kernel

theorem witness_EpochBoundariesAdvance : s0.running = true ∧ Rising s0.tenants ∧
    ({ s0 with vs := { pending := some (0, 6) } } : State).vs.pending = some (0, (s0.tm.edge + 1) % 2 ^ 32) ∧
    State.reset.running = false ∧ ({ s0 with vs := { relocking := true } } : State).vs.relocking = true := by
  refine ⟨?_, ?_, ?_, ?_, ?_⟩ <;> (try unfold Rising) <;> decide

theorem test_epochs : ((nextOf (exec .epochBoundary { s0 with tenants := [(1, { newRate := 512, newDepth := 4096 })] })).map fun t =>
      (t.tm.now, t.tm.edge, (t.tenant 1).dmaRate)) = some (6000000, 6, 512) ∧
    ((nextOf (exec .gearRelockDone { s0 with vs := { relocking := true } })).map fun t => (t.tm.now, t.vs.relocking)) =
      some (5040000, false) := by refine ⟨?_, ?_⟩ <;> decide +kernel

/-- A bound job at incarnation 62, and at the limit. -/
def sInc (n : Nat) : State := { s0 with jobs := [{ idx := 0, tenant := 1, prog := 1, st := .bound, slot := 0, inc := n }] }

theorem witness_ReturnedJobsStopAtTheRetryLimit : ((sInc 62).job? 0).map (·.st) = some .bound ∧ (62 : Nat) < 63 ∧
    ((sInc 63).job? 0).map (·.inc) = some 63 := by decide

/-- R343, its table: the first gear cycles at or after 64, 128, 192 and 256 ns in each gear. -/
theorem test_gear_cycles : ([0, 1, 2, 3].map fun g => [64, 128, 192, 256].map (gearCycle g)) =
    [[103, 205, 308, 410], [90, 180, 269, 359], [77, 154, 231, 308], [52, 103, 154, 205]] := by decide

theorem test_retry_limit : (((sInc 62).returnJob 0 false).job? 0).map (fun j => (j.st, j.inc)) = some (.queued, 63) ∧
    (((sInc 63).returnJob 0 false).job? 0).map (fun j => (j.st, j.result)) = some (.finished, some (8, 0, 63)) := by decide +kernel

/-! ## Streams and host ports -/

/-- s0 whose stream 3 of tenant 1 holds one unread descriptor (SEQ 7, PROG 1, no buffers) at host address 4,096 of function 0
of port 0, whose vector 2 is unmasked. -/
def str0 : Stream :=
  { st := .enabled, fn := 0, sqAddr := 4096, cqAddr := 8192, statusAddr := 16384, nextSeq := 7, sqTail := 1, vector := 2 }
def sStr (x : Stream) : State := { s0 with
  streams := [(3, x)], fns := [(0, { bme := true, mask := 0xFFFFFFFB })], ports := [(0, { perst := false, linkUp := true, cfgLoaded := true })]
  hostMem := [(4096, 7), (4100, 1)] }
def s3 : State := sStr str0

theorem witness_DoorbellsMoveTheRings : fn0.wf = true ∧ 3 < 16384 ∧ s3.pw.part ≠ .off ∧ s3.doorbellOk fn0 3 4 = true ∧
    s3.doorbellOk fn0 3 8 = false ∧ s3.doorbellOk ⟨1, 0⟩ 3 4 = false ∧ (256 % 2 ^ 32 + 2 ^ 32 - str0.sqHead) % 2 ^ 32 ≤ 2 ^ str0.sqLog2 ∧
    2 ^ str0.sqLog2 < (257 % 2 ^ 32 + 2 ^ 32 - str0.sqHead) % 2 ^ 32 ∧ Rising s3.streams ∧ str0.held = [] := by
  refine ⟨?_, ?_, ?_, ?_, ?_, ?_, ?_, ?_, ?_, ?_⟩ <;> (try unfold Rising) <;> decide

theorem test_doorbells : ((nextOf (exec (.doorbellSqTail fn0 3 4 256) s3)).map fun t => ((t.stream 3).sqTail, (t.stream 3).reason)) =
      some (256, 0) ∧
    ((nextOf (exec (.doorbellSqTail fn0 3 4 257) s3)).map fun t => ((t.stream 3).st, (t.stream 3).reason)) = some (.error, 5) ∧
    ((nextOf (exec (.doorbellCqHead fn0 3 8 1) s3)).map fun t => ((t.stream 3).cqHead, (t.stream 3).drops)) = some (0, 1) ∧
    ((nextOf (exec (.doorbellCqHead fn0 3 4 1) (sStr { str0 with recs := [(0, {}), (1, {})], cqTail := 2 }))).map fun t =>
      ((t.stream 3).recs.map (·.1))) = some [1] := by refine ⟨?_, ?_, ?_, ?_⟩ <;> decide +kernel

/-- The ring of stream 3 is full; its descriptor lies in an address range that faults; it has another SEQ; it asks for a
program the plan has not. -/
def sRing : State := sStr { str0 with cqTail := 512 }
def sGone : State := { s3 with hostFaults := [(4096, 64)] }
def sSeq : State := { s3 with hostMem := [(4096, 8), (4100, 1)] }
def sProg : State := { s3 with hostMem := [(4096, 7), (4100, 2)] }

theorem witness_DescriptorsAreDecided : (s3.working = true ∧ s3.en.st = 2 ∧ (s3.stream 3).st = .enabled ∧
      (s3.stream 3).sqHead ≠ (s3.stream 3).sqTail ∧ (s3.stream 3).portWait = false ∧ (s3.stream 3).bmeWait = false ∧ Rising s3.streams) ∧
    (sRing.recordsHeld (sRing.stream 3) = true ∧ (sRing.stream 3).stalled = false) ∧ s3.recordsHeld (s3.stream 3) = false ∧
    sGone.hostRead fn0 0 4096 64 = none ∧ ((sSeq.hostRead fn0 0 4096 64).map fun bs => (jobDesc bs).seq) = some 8 ∧
    ((s3.hostRead fn0 0 4096 64).map fun bs => s3.decideDesc str0 (jobDesc bs)) = some (.accept [] []) ∧
    ((sProg.hostRead fn0 0 4096 64).map fun bs => sProg.decideDesc str0 (jobDesc bs)) = some (.refuse 4 0) ∧
    ((s3.hostRead fn0 0 4096 64).map fun bs => ((jobDesc bs).seq, (jobDesc bs).prog, (jobDesc bs).rsvd)) = some (7, 1, true) ∧
    ((s3.hostRead fn0 0 4096 64).map fun bs =>
      ((jobDesc bs).nbuf, (jobDesc bs).buftab, bit (jobDesc bs).flags 0, (jobDesc bs).jobId)) = some (0, 0, false, 0) ∧
    (s3.program 1 = some prog1 ∧ prog1.nin = 0 ∧ prog1.nout = 0 ∧ prog1.reqs = [] ∧ spansPackages prog1 = false ∧
      (s3.tenant str0.tenant).st ≠ .disabled ∧ s3.throttles 1 = false ∧ s3.usesTestOnly prog1 = false ∧ str0.inflight < str0.credits ∧
      (s3.tenant str0.tenant).inflight < (s3.tenant str0.tenant).creditLimit) := by
  refine ⟨⟨?_, ?_, ?_, ?_, ?_, ?_, ?_⟩, ⟨?_, ?_⟩, ?_, ?_, ?_, ?_, ?_, ?_, ?_, ?_⟩ <;> (try unfold Rising) <;> decide +kernel

theorem test_descriptors : ((nextOf (exec (.descriptorDecide 3) s3)).map fun t =>
      ((t.jobs.map (·.seq)), (t.stream 3).sqHead, (t.stream 3).nextSeq, (t.stream 3).inflight)) = some ([0, 7], 1, 8, 1) ∧
    ((nextOf (exec (.descriptorDecide 3) sProg)).map fun t => ((t.stream 3).refusals, (t.stream 3).nextSeq)) = some (1, 8) ∧
    ((nextOf (exec (.descriptorDecide 3) sGone)).map fun t => (t.stream 3).reason) = some 6 := by
  refine ⟨?_, ?_, ?_⟩ <;> decide +kernel

/-- Stream 3 with a finished job of SEQ 6 that asked for an interrupt, and one whose interrupt waits for its delay. -/
def jobDone : Job := { idx := 4, stream := 3, seq := 6, tenant := 1, prog := 1, st := .finished, notify := true, result := some (0, 0, 0) }
def sDone : State := { sStr { str0 with inflight := 1 } with jobs := [jobDone] }
/-- The same, with an output block of the job that has not landed. -/
def sOut : State := { sDone with dies := [(0, { descs := [
  { arr := ⟨0, 0⟩, dseq := 0, jobs := [(0, 4)], blocks := [{ dst := 0x4000000000000000, len := 64, st := .released }] }] })] }
def sIrq : State := sStr { str0 with irqWait := true, irqLast := some 5000000, irqDelay := 20 }

theorem witness_CompletionsFollowSeq : (sDone.nextDone 3 = some jobDone ∧ jobDone.result = some (0, 0, 0) ∧ sDone.running = true ∧
      Rising sDone.streams ∧ (sDone.stream 3).held = [] ∧ sDone.recordsHeld (sDone.stream 3) = false ∧
      sDone.hostFaults? fn0 0 8192 32 = false) ∧ ({ sDone with pw := { part := .safe } } : State).running = false ∧
    (sDone.outputsPending 4 0 = false ∧ sOut.nextDone 3 = some jobDone ∧ sOut.outputsPending 4 0 = true) ∧
    ((sIrq.stream 3).irqWait = true ∧ (sIrq.fn fn0).bme = true ∧ (sIrq.fn fn0).mask.getLsbD 2 = false) ∧
    (({ sIrq with fns := [] } : State).fn fn0).bme = false := by
  refine ⟨⟨?_, ?_, ?_, ?_, ?_, ?_, ?_⟩, ?_, ⟨?_, ?_, ?_⟩, ⟨?_, ?_, ?_⟩, ?_⟩ <;> (try unfold Rising) <;> decide +kernel

/-- A warm reset returns a job whose output had not landed when it struck. -/
theorem test_outputs_lost : ((sOut.reopenJobs (List.range 8) fun _ => true).job? 4).map (fun j => (j.st, j.result)) =
    some (.bound, none) := by decide +kernel

theorem test_completion : ((nextOf (exec (.completion 3) sDone)).map fun t =>
      (t.jobs, (t.stream 3).completed, (t.stream 3).inflight, t.out)) = some ([], 6, 0, [.msix fn0 2 0 0]) ∧
    ((nextOf (exec (.irqDelayExpiry 3) sIrq)).map fun t => (t.tm.now, t.out)) = some (5020000, [.msix fn0 2 0 0]) := by
  refine ⟨?_, ?_⟩ <;> decide +kernel

/-- A part whose function 0 has a message pending on vector 5. -/
def sPend : State := { s3 with fns := [(0, { pend := 32, mask := 0xFFFFFFDF })] }

theorem witness_PortsFailReturnAndReset : fn0.wf = true ∧ s3.pw.part ≠ .off ∧ (s3.fn fn0).present = true ∧ (s3.port 0).linkUp = true ∧
    Rising s3.streams ∧ Rising s3.ports ∧ Rising s3.fns ∧ (s3.fn fn0).bme = true ∧ (s3.stream 3).altFn = 0xFFFF ∧
    ((sStr { str0 with altFn := 256 }).stream 3).altFn ≠ 0xFFFF ∧ s3.streamsOn (fun f => f.port == 0) = [3] ∧
    (s3.port 0).perst = false ∧ (State.reset.port 0).perst = true ∧ (sPend.fn fn0).pend.getLsbD 5 = true := by
  refine ⟨?_, ?_, ?_, ?_, ?_, ?_, ?_, ?_, ?_, ?_, ?_, ?_, ?_, ?_⟩ <;> (try unfold Rising) <;> decide

/-- R391, R392: function 0 enables two virtual functions; an MSI-X table entry, its mask and a pending bit in BAR0. -/
theorem test_functions : ((nextOf (exec (.busMasterEnableSet { fn := fn0, vfs := 2 }) s3)).map fun t =>
      [1, 2, 3, 63].map fun n => (t.fn ⟨0, n⟩).present) = some [true, true, false, false] ∧
    ((nextOf (exec (.busMasterEnableSet { fn := fn0, vfs := 2 }) s3)).map fun t => (t.fn ⟨1, 3⟩).present) = some true ∧
    (let x : Fn := { mask := 4, pend := 0x100, msi := [(2, 0xFEE00000, 9)] }
     [0xC0022, 0xC0023, 0xC0028, 0xC002C, 0xC003C, 0xC0200, 0xC1001].map x.bar0Byte) = [0xE0, 0xFE, 9, 1, 0, 0, 1] := by decide +kernel

theorem test_ports : ((nextOf (exec (.busMasterEnableSet { fn := fn0 }) sPend)).map fun t => (t.out, (t.fn fn0).pend)) = some ([.msix fn0 5 0 0], 0) ∧
    ((nextOf (exec (.msixUnmask fn0 { vec := 4, addr := 4096, data := 9 }) { s3 with fns := [(0, { bme := true, pend := 16 })] })).map fun t => t.out) = some [.msix fn0 4 4096 9] ∧
    ((nextOf (exec (.hostPortFailure 0) s3)).map fun t => ((t.port 0).failed, (t.stream 3).portWait)) = some (true, true) ∧
    ((nextOf (exec (.hostPortFailure 0) (sStr { str0 with altFn := 256 }))).map fun t => (t.stream 3).fn) = some 256 ∧
    ((nextOf (exec (.hostPortReturn 0) (sStr { str0 with portWait := true }))).map fun t => (t.stream 3).portWait) = some false ∧
    ((nextOf (exec (.perstRelease 1) s3)).map fun t => t.port 1) = some { perst := false, linkUp := true, cfgLoaded := true } ∧
    ((nextOf (exec (.portReset 0) s3)).map fun t => ((t.fn fn0).bme, (t.port 0).linkUp, (t.stream 3).bmeWait)) = some (false, false, true) ∧
    ((nextOf (exec (.functionLevelReset fn0) s3)).map fun t => ((t.fn fn0).bme, (t.stream 3).st)) = some (false, .disabled) := by
  refine ⟨?_, ?_, ?_, ?_, ?_, ?_, ?_, ?_⟩ <;> decide +kernel

/-! ## Time -/

/-- A part with LOCKED reference and PPS, enabled after its last valid edge, whose earlier drift was 1,500 ns a second
(the example after R349). -/
def sPps (t : TimeSt → TimeSt) : State := { s0 with
  en := { s0.en with time := 1500000000 }
  tm := t { now := 1900000000, refclk := .locked, pps := .locked, lastValid := some (0, 1000000000), drift := 1500 } }

/-- The edges of the witness: valid, invalid, third of three that agree, and one of a part that is off 1,001 ns. -/
def badRun2 : List (Int × Nat) := [(60000, 1000060000), (60000, 60000)]

theorem witness_PpsEdgesAlignTheTimeBase :
    ((sPps id).pw.part ≠ .off ∧ (sPps id).tm.refclk = .locked ∧ ((sPps id).reach 2000000200).tm.validEdge 2000000200 = true ∧
      (sPps id).tm.setPending = false ∧ (sPps id).en.on = true ∧ ((sPps id).reach 2000000200).tm.afterValid 2000000200 false = .locked) ∧
    (sPps fun t => { t with setPending := true }).tm.setPending = true ∧
    (let s : State := { sPps (fun t => { t with pps := .acquiring }) with en := {} }
     s.en.on = false ∧ s.tm.pps ≠ .locked ∧ (s.reach 2000000200).tm.afterValid 2000000200 false = .locked) ∧
    1000 < (((sPps id).reach 2000001001).tm.edgeOffset 2000001001).natAbs ∧ (((sPps id).reach 2000001000).tm.edgeOffset 2000001000).natAbs ≤ 1000 ∧
    (((sPps id).reach 2000050001).tm.validEdge 2000050001 = false ∧ ((sPps id).reach 2000050001).tm.thirdAgrees 2000050001 = false) ∧
    (let s := sPps fun t => { t with badRun := badRun2 }
     (s.reach 2000060000).tm.validEdge 2000060000 = false ∧ (s.reach 2000060000).tm.thirdAgrees 2000060000 = true) ∧
    (sPps id).tm.pps = .locked ∧ s0.tm.refclk ≠ .locked := by
  refine ⟨⟨?_, ?_, ?_, ?_, ?_, ?_⟩, ?_, ⟨?_, ?_, ?_⟩, ?_, ?_, ⟨?_, ?_⟩, ⟨?_, ?_⟩, ?_, ?_⟩ <;> decide +kernel

/-- Chapter 12, the example's steps 3, 4 and 6: F = 200 takes 340 steps; F = 0 after 340 takes 300; F = 3,000 logs TIME_ALIGN. -/
theorem test_pps_example : ((nextOf (exec (.ppsEdge { time := 2000000200 }) (sPps id))).map fun t => (t.tm.offset, t.tm.stepsDue)) = some (200, 340) ∧
    ((nextOf (exec (.ppsEdge { time := 3000000000 }) (sPps fun t => { t with lastValid := some (200, 2000000200), netCorr := -1700 }))).map
      fun t => (t.tm.offset, t.tm.stepsDue)) = some (0, 300) ∧
    ((nextOf (exec (.ppsEdge { time := 3000003000 }) (sPps fun t => { t with lastValid := some (0, 2000000000), netCorr := -1500 }))).map
      fun t => (t.tm.stepsDue, t.tm.alignFaults)) = some (1500, 1) := by refine ⟨?_, ?_, ?_⟩ <;> decide +kernel

theorem test_time : ((nextOf (exec .ppsLost (sPps id))).map fun t => (t.tm.pps, t.tm.now)) = some (.holdover, 3500000000) ∧
    ((nextOf (exec (.refclkStateChange .spread) (sPps id))).map fun t => (t.tm.refclk, t.tm.pps)) = some (.spread, .absent) ∧
    ((nextOf (step { s0 with tm := { s0.tm with hold := 5 } })).map fun t => (t.tm.now, t.tm.hold)) = some (5010000, 4) := by
  refine ⟨?_, ?_, ?_⟩ <;> decide

/-! ## Stacks -/

/-- The run of the FALLOW slot. -/
def fallowRun : SlotRun := { slot := 2, epoch := 5, started := true }

/-- A part that may do background work on its granary: its FALLOW slot runs, with a remap candidate on ST0, and keys on ST1. -/
def row0 : RowId := ⟨0, 0, 0, 0, 7⟩
def sStack : State := { s0 with
  runs := [fallowRun], stk := [(0, { cands := [7], temp := 86 })]
  keys := [{ tenant := 1, id := 4, blocks := [60001] }, { tenant := 1, id := 5, blocks := [60000] }] }
def sCopied : State := { sStack with stk := [(0, { copying := some 7, copied := true })] }

theorem witness_StacksAreMaintained : (sStack.pw.part ≠ .off ∧ sStack.pw.selfRefresh = false ∧ (sStack.stack 0).lost = false) ∧
    ({ sStack with pw := { part := .safe, selfRefresh := true } } : State).pw.selfRefresh = true ∧ rowOk row0 = true ∧
    (sStack.background = true ∧ rowNum row0 ∈ (sStack.stack 0).cands) ∧
    ((sCopied.stack 0).copying = some (rowNum row0) ∧ (sCopied.stack 0).copied = true) ∧
    (({ sStack with stk := [(0, { lost := true })] } : State).stack 0).lost = true ∧ (sStack.stack 1).glnDone + 1 < 360448 := by
  refine ⟨⟨?_, ?_, ?_⟩, ?_, ?_, ⟨?_, ?_⟩, ⟨?_, ?_⟩, ?_, ?_⟩ <;> decide +kernel

theorem test_stacks : ((nextOf (exec (.hbmRefresh 0 15) sStack)).map fun t => (t.stack 0).fastRefresh) = some true ∧
    ((nextOf (exec (.rowRemapCopy row0) sStack)).map fun t => ((t.stack 0).copying, (t.stack 0).cands)) = some (some 7, []) ∧
    ((nextOf (exec (.rowRemap row0) sCopied)).map fun t => (t.stack 0).remapped) = some [7] ∧
    ((nextOf (exec (.stackLost 1) sStack)).map fun t => (t.keys.map (·.st), t.hm.replace)) = some ([.corrupt, .usable], 4) ∧
    ((nextOf (exec (.gleanerBlockRead 1 9 [{ one := 1 }]) sStack)).map fun t => ((t.stack 1).glnDone, (t.stack 1).corr)) = some (1, 1) ∧
    ((nextOf (exec .gleanerEscalate sStack)).map fun t => (t.mem.glnEscalated, t.tm.now)) = some (true, 72000000000000) ∧
    ((nextOf (exec .gleanerBehind sStack)).map fun t => t.mem.glnBehind) = some true ∧
    ((nextOf (exec (.bgBehind 4) sStack)).map fun t => t.hm.bgDeferred) = some 1 := by
  refine ⟨?_, ?_, ?_, ?_, ?_, ?_, ?_, ?_⟩ <;> decide +kernel

/-! ## Health -/

/-- s0 with the health manager changed. -/
def sHm (h : Health) : State := { s0 with hm := h }

theorem witness_HeatAndFailuresAreAnswered : (∀ e ∈ [(0, (102 : Int)), (15, 99)], e.1 < 16) ∧ s0.pw.part ≠ .off ∧ Rising s0.dies ∧
    ([(0, (102 : Int)), (15, 99)].map (·.1)).Nodup ∧ (sHm { bindStop := true, below100 := some 9 }).hm.below100 = some 9 ∧
    ((sHm { gear := 2, coolSince := some 9 }).hm.coolSince = some 9 ∧ (sHm { gear := 2 }).hm.gearCeiling < (sHm { gear := 2 }).hm.gear ∧
      (sHm { gear := 2 }).policy 2 = true ∧ (sHm { auto := 0 }).policy 2 = false) ∧ s0.pw.part ≠ .safe ∧
    (sHm { stewardHb1 := true }).hm.stewardHb1 = true ∧ s0.hm.stewardHb1 = false ∧ s0.hm.mirrorFailed = false ∧
    (sHm { mirrorFailed := true }).hm.mirrorFailed = true := by
  refine ⟨?_, ?_, ?_, ?_, ?_, ⟨?_, ?_, ?_, ?_⟩, ?_, ?_, ?_, ?_, ?_⟩ <;> (try unfold Rising) <;> decide

theorem test_heat : ((nextOf (exec (.tempSample [(0, 102)] []) s0)).map fun t => ((t.die 0).tempMax, t.hm.bindStop)) = some (102, true) ∧
    ((nextOf (exec (.tempSample [(0, 101)] []) s0)).map fun t => t.hm.bindStop) = some false ∧
    ((nextOf (exec .bindResume (sHm { bindStop := true, below100 := some 9 }))).map fun t => (t.tm.now, t.hm.bindStop)) =
      some (10000009, false) ∧
    ((nextOf (exec .gearStepUp (sHm { gear := 2, coolSince := some 9 }))).map fun t => (t.tm.now, t.hm.gear)) = some (10001000000, 1) ∧
    ((nextOf (exec .thermtripN s0)).map fun t => (t.pw.part, t.pw.safeRow, t.pw.clocksStopped)) = some (.safe, 4, true) ∧
    ((nextOf (exec (.hubFailure 1) s0)).map fun t => (t.pw.part, t.pw.safeRow, (t.die 9).failed)) = some (.safe, 1, true) ∧
    ((nextOf (exec .stewardFailover s0)).map fun t => (t.pw.part, t.hm.stewardHb1)) = some (.enabled, true) ∧
    ((nextOf (exec .stewardMirrorFailure (sHm { stewardHb1 := true }))).map fun t => (t.pw.part, t.pw.safeRow)) = some (.safe, 2) := by
  refine ⟨?_, ?_, ?_, ?_, ?_, ?_, ?_, ?_⟩ <;> decide +kernel

/-- A part in its FALLOW slot whose die 0 retires array 3 from slot 3 to spare 64, with a key of one block; its stored digest. -/
def kHash : Key := { tenant := 1, id := 4, blocks := [60000] }
def sCare : State := { s0 with runs := [fallowRun], dies := [(0, { retiring := some (3, 3, 64) })] }
def prRow : PrEnt := { type := 4, unit := 10, arg := 7 }
def prEvt : PrEnt := { type := 6, arg := 0x10 }

theorem witness_DiesArraysAndRecordAreKept : (s0.pw.part ≠ .off ∧ (s0.die 7).fenced = false ∧ Rising s0.arrs ∧ Rising s0.dies ∧ 0 ∈ s0.hm.fuses) ∧
    (({ s0 with dies := [(0, { fenced := true })] } : State).die 0).fenced = true ∧
    ((sCare.die 0).retiring = some (3, 3, 64) ∧ sCare.background = true ∧ 3 < (sCare.die 0).slotMap.length ∧ Rising sCare.arrs ∧ Rising sCare.dies) ∧
    (sCare.die 0).slotSt.getD 67 .retired = .spare ∧ (sCare.arrayIn 0 0 = some a0 ∧ (∀ e ∈ [(⟨127, false⟩ : WordErr)], e.word < 128)) ∧
    (let k := kHash
     ({ sCare with keys := [k] } : State).key? 1 4 = some k ∧ 0 < k.blocks.length) ∧
    (sortBy recRank [prEvt, prRow] = [prRow, prEvt] ∧ s0.hm.active < s0.hm.sectors.length ∧ (activeEnts s0.hm).length + 2 < 65532) := by
  refine ⟨⟨?_, ?_, ?_, ?_, ?_⟩, ?_, ⟨?_, ?_, ?_, ?_, ?_⟩, ?_, ⟨?_, ?_⟩, ⟨?_, ?_⟩, ⟨?_, ?_, ?_⟩⟩ <;> (try unfold Rising) <;> decide +kernel

/-- The key with a digest for its block; a block that matches its digest, and one that does not. -/
def kDig (x : List Byte) : Key := { tenant := 1, id := 4, blocks := [60000], digests := [x] }

theorem kDig_bytes (s : State) (x : List Byte) : s.keyBytes (kDig x) = s.keyBytes (kDig []) := rfl

theorem kDig_wrong (s : State) (x : List Byte) : s.digestWrong (kDig x) 0 = (sha384 (s.keyBytes (kDig []) 0 65536) != x) := by
  unfold State.digestWrong
  rw [kDig_bytes]
  simp [kDig]

theorem witness_digests : (∃ x, sCare.digestWrong (kDig x) 0 = false) ∧ ∃ x, sCare.digestWrong (kDig x) 0 = true := by
  simp only [kDig_wrong]
  generalize sha384 (sCare.keyBytes (kDig []) 0 65536) = d
  exact ⟨⟨d, by simp⟩, ⟨d ++ [0], by simp⟩⟩

theorem test_care : ((nextOf (exec (.diePllLoss 7) s0)).map fun t =>
      ((t.die 7).fenced, t.hm.replace.getLsbD 1, t.hm.fuses.contains 0x87)) = some (true, true, true) ∧
    ((nextOf (exec (.retirementCopy 0) sCare)).map fun t =>
      ((t.die 0).slotMap.getD 3 0, (t.die 0).slotSt.getD 3 .active, (t.die 0).slotSt.getD 64 .spare)) = some (64, .retired, .active) ∧
    ((nextOf (exec (.healthSweep 0 67 false) sCare)).map fun t => (t.die 0).slotSt.getD 67 .spare) = some .retired ∧
    ((nextOf (exec (.loftScrub 0 0 5 [⟨127, false⟩]) sCare)).map fun t => (t.arr a0).cnt.loftUncorr) = some 1 ∧
    ((nextOf (exec (.recordProgram false) (sHm { prQueue := [prEvt, prRow] }))).map fun t => (t.hm.prQueue, activeEnts t.hm)) =
      some ([prEvt], [prRow]) := by refine ⟨?_, ?_, ?_, ?_, ?_⟩ <;> decide +kernel

/-! ## Links -/

/-- s0 with link 3 as given, link 4 up, and the ROUTE section of package 9: CHAN 5 of link 3 ends here, CHAN 6 goes on to
link 4 as CHAN 60, and CHAN 7 of link 3 is a path of its own to package 12. -/
def l0 : Link := { st := .up, width := 8, session := true, started := true, step := 6, fcntTx := 20, keys := [[1], [2]], peerPkg := 12 }
def route0 : Route :=
  { pkg := 9, deputy := 10, admitWait := 4, links := (List.range 32).map fun j => if j = 3 then { peerPkg := 12, maxDelay := 500 } else {}
    routes := [{ dst := 12, srcDies := 255, paths := [{ egress := 3, chan := 7, hops := 1 }] }]
    fwd := [⟨3, 5, 0xFF, 0⟩, ⟨3, 6, 4, 60⟩] }
def sLink (l : Link) : State := { s0 with
  links := [(3, l), (4, { l0 with fcntTx := 30 })], plan := some { plan0 with domain := true, lead := 12, route := some route0 }
  dom := { pkgAddr := 9 } }
def sl : State := sLink l0

theorem accepted0 : Accepted sl rx0 := ⟨by decide, by decide, by decide, by decide, by decide⟩

/-- A block of one row of 64 bytes to handle 1 of array 0, group 3, with a clasp. -/
def open0 : OpenBody :=
  { dst := BitVec.ofNat 64 (2 ^ 35), len := 64, rows := 1, aop := 0, bflags := 1, dstride := 0, inc := 0, group := 3, cstate := 0
    domain := false, sheaf := false, level := 0, srcLarr := 0, block := 0, jobId := 0, dseq := 0 }
def rx (c : Nat) : Rx := { rx0 with chan := c }

theorem witness_LinkFramesAreReceived : Accepted sl rx0 ∧ sl.hop 3 5 = .here ∧ sl.hop 3 7 = .here ∧ sl.hop 3 8 = .nowhere ∧
    (sl.hop 3 6 = .onward 4 60 ∧ (sl.link 4).up = true) ∧ sl.openOn 3 5 = none ∧
    ((sLink { l0 with opens := [(5, { body := open0 })] }).openOn 3 5).map (·.body) = some open0 ∧
    (rx0.wf = true ∧ (sl.link 3).carries = true ∧ ({ rx0 with fcnt := 1 } : Rx).fcnt ≠ (sl.link 3).fcntRx ∧ (sl.link 3).nakSent = false ∧
      (sl.link 3).replay.length < 1024 ∧ (sl.link 3).txWait = []) ∧
    (sLink { l0 with nakSent := true }).links.isEmpty = false ∧ ({ rx0 with tagOk := false } : Rx).crcOk = true ∧ (sl.link 0).carries = false := by
  refine ⟨accepted0, ?_, ?_, ?_, ⟨?_, ?_⟩, ?_, ?_, ⟨?_, ?_, ?_, ?_, ?_, ?_⟩, ?_, ?_, ?_⟩ <;> decide

/-- The frame that was sent last. -/
def sent (t : State) : Option TxFrame := match t.out.getLast? with
  | some (.frame _ f _) => some f
  | _ => none

theorem test_frames : ((nextOf (exec (.openFrame (rx 5) open0) sl)).map fun t => ((t.link 3).opens.map (·.1), (t.link 3).fcntRx)) = some ([5], 1) ∧
    ((nextOf (exec (.dataFrame (rx 5) (List.replicate 64 7)) (sLink { l0 with opens := [(5, { body := open0 })] }))).map fun t =>
      ((t.arr a0).landing.map fun v => (v.handle, v.rows))) = some [(1, [List.replicate 64 7])] ∧
    ((nextOf (exec (.openFrame (rx 6) open0) sl)).map fun t => ((t.link 4).fcntTx, t.out.length)) = some (31, 1) ∧
    ((nextOf (exec (.idle { rx0 with fcnt := 1 }) sl)).map fun t => (sent t, (t.link 3).nakSent)) =
      some (some { fcnt := 20, chan := 0, frame := .lctl 1 [0] [], sealing := some ([1], 20) }, true) ∧
    ((nextOf (exec (.lack (rx 8) []) sl)).map fun t => (t.link 3).noroute) = some 1 ∧
    ((nextOf (exec (.uncorrectableCodeword (.codeword 3)) sl)).map fun t => (t.link 3).fecUncorr) = some 1 := by
  refine ⟨?_, ?_, ?_, ?_, ?_, ?_⟩ <;> decide +kernel

/-- R361, R362, R370: CRC-32 of the standard's check string; the head of a frame in clear, and its 272 bytes; a DCTL frame of an
unlisted SUBTYPE is dropped and counted; PRBS7 has period 127. -/
theorem test_wire : crc32 ((ascii "123456789")) = 0xCBF43926 ∧
    (let f : TxFrame := { fcnt := 20, chan := 7, frame := .data [1, 2], ack := 3 }
     (f.bytes.length, f.bytes.take 12, f.bytes.drop 16 |>.take 3)) = (272, [20, 0, 0, 0, 0, 0, 0, 0, 1, 7, 3, 0], [1, 2, 0]) ∧
    ((nextOf (exec (.uncorrectableCodeword (.badSubtype rx0 (some ({ dst := 9, src := 12, mseq := 4, epoch := 5 }, [])) 99)) sl)).map fun t =>
      (t.link 3).txErr) = some 1 ∧
    prbs7 1 127 = (prbs7 1 254).drop 127 ∧ prbs7 1 127 ≠ (prbs7 1 128).drop 1 ++ [true] := by
  refine ⟨?_, ?_, ?_, ?_, ?_⟩ <;> decide +kernel

/-- R359: the generator polynomial is the table's of the standard for RS(544,514); a scrambled pulse comes back after 39 and 58
bits; six symbols over four lanes. -/
theorem test_codewords : rsGenerator.reverse = [523, 834, 128, 158, 185, 127, 392, 193, 610, 788, 361, 883, 503, 942, 385, 495,
      720, 94, 132, 593, 249, 282, 565, 108, 1, 552, 230, 187, 552, 575, 1] ∧
    (rsCodeword [5, 7]).foldl (fun r c => gfMul r 2 ^^^ c) 0 = 0 ∧
    ((scramble 0 (true :: List.replicate 60 false)).zipIdx.filter (·.1)).map (·.2) = [0, 39, 58] ∧
    laneSymbols 4 1 [10, 11, 12, 13, 14, 15] = [11, 15] := by
  refine ⟨?_, ?_, ?_, ?_⟩ <;> decide +kernel

/-- Links with a held frame, one that has been resent 6 times, and a rekey under way; package 9 is the lower side of link 3. -/
def held (n : Nat) : Link := { l0 with replay := [{ fcnt := 18 }, { fcnt := 19, resent := n }] }
def rekeying (epk : Option (List Byte)) : Link := { l0 with rekey := some { key := 1, lohi := 100, hilo := 101, peerEpk := epk } }
def training (n : Nat) : Link := { l0 with st := .training, step := n, session := false }
def hello0 : HelloBody := { pkg := 12, link := 3, width := 8, svn := 0, serial := 1 }

/-- A session exchange can run. -/
def withKex (s : State) : State := { s with sec := { s.sec with entropy := .healthy, drbgUp := true, identity := 1, vaultId := true } }

theorem witness_LinkControlActs : Accepted (sLink (held 5)) rx0 ∧ (∀ x ∈ (((sLink (held 5)).takeFrame rx0).link 3).replay, x.resent < 6) ∧
    (∃ x ∈ (((sLink (held 6)).takeFrame rx0).link 3).replay, 19 ≤ x.fcnt ∧ 6 ≤ x.resent) ∧ (sl.link 3).st ≠ .training ∧
    (sl.linkEnt 3).map (·.maxDelay) = some 500 ∧ (sl.takeFrame rx0).ownPath 3 7 = true ∧
    ((3, 7) ∈ ({ sl with dom := { sl.dom with down := [(3, 7)] } } : State).dom.down) ∧ (sl.takeFrame rx0).linkLo 3 = true ∧
    ((sLink { l0 with peerPkg := 2 }).takeFrame rx0).linkLo 3 = false ∧
    ((((sLink (rekeying none)).takeFrame rx0).link 3).rekey.map (·.peerEpk)) = some none ∧
    ((sLink (training 4)).link 3).carries = true ∧ (withKex (sLink (training 4))).kexReady = true ∧ (sLink (training 4)).kexReady = false ∧
    (((sLink { training 5 with kexFrag := 2 }).link 3).step = 5 ∧ ((sLink { training 5 with kexFrag := 2 }).link 3).kexFrag = 2) := by
  refine ⟨⟨?_, ?_, ?_, ?_, ?_⟩, ?_, ?_, ?_, ?_, ?_, ?_, ?_, ?_, ?_, ?_, ?_, ?_, ⟨?_, ?_⟩⟩ <;> decide

/-- t1 = 1,000, t2 = 1,300, t3 = 5,000, t4 = 5,100 give a delay of 200 and an offset of 100 (R376). -/
theorem test_link_control : ((nextOf (exec (.delayFrame rx0 5000 1000 1300 5100) sl)).map fun t => ((t.link 3).delay, (t.link 3).offset)) =
      some (200, 100) ∧
    ((nextOf (exec (.delayFrame rx0 5000 1000 2300 5100) sl)).map fun t => ((t.link 3).st, (t.link 3).reason)) = some (.failed, 7) ∧
    ((nextOf (exec (.nak rx0 19) (sLink (held 5)))).map fun t => ((t.link 3).replay.map (·.resent), t.out.length)) = some ([0, 6], 1) ∧
    ((nextOf (exec (.nak rx0 19) (sLink (held 6)))).map fun t => ((t.link 3).st, (t.link 3).reason)) = some (.failed, 3) ∧
    ((nextOf (exec (.pathDown rx0 7 2) sl)).map fun t => t.dom.down) = some [(3, 7)] ∧
    ((nextOf (exec (.pathUp rx0 7 9) { sl with dom := { sl.dom with down := [(3, 7)] } })).map fun t => t.dom.upAt) = some [(3, 7, 9)] ∧
    ((nextOf (exec (.rekey rx0 { answer := true, switchLoHi := 100, switchHiLo := 102, epk := [5] }) (sLink (rekeying none)))).map
      fun t => (t.link 3).rekey) = some none ∧
    ((nextOf (exec (.hello rx0 hello0) (withKex (sLink (training 4))))).map fun t => ((t.link 3).step, (t.link 3).peerPkg)) = some (5, 12) ∧
    ((nextOf (exec (.kex rx0 2 false [7]) (sLink { training 5 with kexFrag := 2 }))).map fun t => ((t.link 3).kexIn, (t.link 3).kexFrag)) =
      some ([7], 3) := by refine ⟨?_, ?_, ?_, ?_, ?_, ?_, ?_, ?_, ?_⟩ <;> decide +kernel

/-- Links at the limits of SCNT, with 17 tag failures, before their start, and after nine failed attempts. -/
def lBig (n : Nat) : Link := { l0 with fcntTx := n }
def lTags : Link := { l0 with tagFails := List.replicate 17 4500000 }

theorem witness_LinksTrainFailAndRekey : s0.pw.part ≠ .off ∧ (s0.pw.part ≠ .safe ∧ s0.pw.noRefclk = false ∧ (sLink {}).links.isEmpty = false ∧
      4 ≤ (({} : Link)).lanes) ∧ ({ badLanes := [0, 1, 2, 3, 4, 5] } : Link).lanes < 4 ∧
    ((training 4).started = true ∧ (training 4).st = .training ∧ 4 ≤ (training 4).lanes) ∧
    (l0.session = true ∧ 2 ^ 48 - 2 ^ 20 ≤ (lBig (2 ^ 48 - 2 ^ 20 - 1)).fcntTx - (lBig (2 ^ 48 - 2 ^ 20 - 1)).keyTx + 1) ∧
    ((sl.link 3).up = true ∧ sl.minLanes 3 ≤ ({ l0 with badLanes := [0, 1] } : Link).lanes) ∧
    ((sLink { l0 with badLanes := [0, 1, 2, 3, 4, 5] }).minLanes 3 = 4) ∧
    (sl.plan.any (·.domain) = true ∧ (sl.linkEnt 3).isSome = true ∧ sl.linkEnt 4 = none) ∧
    (16 < (lTags.tagFails.filter fun t => decide (s0.tm.now < t + 1000000000)).length) ∧
    ((sLink (lBig (2 ^ 47))).rekeyDue 3 = true ∧ (sLink (lBig (2 ^ 47))).sigPending (.linkRekey 3) = false) ∧
    ((withKex sl).kexReady = true ∧ sl.kexReady = false) ∧ Rising sl.links := by
  refine ⟨?_, ⟨?_, ?_, ?_, ?_⟩, ?_, ⟨?_, ?_, ?_⟩, ⟨?_, ?_⟩, ⟨?_, ?_⟩, ?_, ⟨?_, ?_, ?_⟩, ?_, ⟨?_, ?_⟩, ⟨?_, ?_⟩, ?_⟩ <;>
    (try unfold Rising) <;> decide +kernel

theorem rekeyKeys_some {s : State} {j : Nat} {r : RekeyRun} {p z : List Byte} (h : (s.link j).rekey = some r)
    (hp : r.peerEpk = some p) (hk : r.key ≠ 0) (hz : Config.ecdh r.key p = some z) : ∃ x, s.rekeyKeys j = some x := by
  simp only [State.rekeyKeys, h, Option.bind_some, hp, hk, if_false, hz, Option.map_some]
  exact ⟨_, rfl⟩

/-- The keys of a rekey exist when the key agreement, which the spec names without defining (log 10), accepts the peer's key. -/
theorem witness_SessionKeySwitch (z : List Byte) (h : Config.ecdh 1 [5] = some z) :
    ∃ x, (sLink { rekeying (some [5]) with fcntTx := 100 }).rekeyKeys 3 = some x :=
  rekeyKeys_some (r := { key := 1, lohi := 100, hilo := 101, peerEpk := some [5] }) (by decide) rfl (by decide) h

theorem witness_SessionKeySwitch_key : ((sLink { rekeying (some [5]) with fcntTx := 100 }).link 3).keyTx ≠ 100 := by decide

theorem test_training : ((nextOf (exec (.linkStart { link := 3 }) (sLink {}))).map fun t => ((t.link 3).st, (t.link 3).step, (t.link 3).fcntTx)) =
      some (.training, 4, 1) ∧
    ((nextOf (exec (.notReadyWaitExpiry { link := 3, signal := 3, prbs7 := true }) (sLink (training 1)))).map fun t =>
      ((t.link 3).step, (t.link 3).nrWait)) = some (1, 50) ∧
    ((nextOf (exec (.linkStart { link := 3, weak := [5] }) (sLink {}))).map fun t => ((t.link 3).step, (t.link 3).badLanes)) =
      some (4, [4, 5]) ∧
    ((nextOf (exec (.linkStart { link := 3, lock := false }) (sLink {}))).map fun t => ((t.link 3).step, (t.link 3).attempts)) =
      some (0, 1) ∧
    ((nextOf (exec (.trainingRetry { link := 3 }) (sLink { training 4 with attempts := 9 }))).map fun t => ((t.link 3).st, (t.link 3).reason)) =
      some (.failed, 1) ∧
    ((nextOf (exec (.laneFailure 3 5) sl)).map fun t => ((t.link 3).st, (t.link 3).width, (t.link 3).badLanes)) = some (.degraded, 6, [4, 5]) ∧
    ((nextOf (exec (.flockLoss 3) sl)).map fun t => ((t.link 3).st, (t.link 3).reason)) = some (.failed, 6) ∧
    ((nextOf (exec (.authFailLimit 3) (sLink lTags))).map fun t => ((t.link 3).st, (t.link 3).reason)) = some (.failed, 4) ∧
    ((nextOf (exec (.scntHalt 3 true) (sLink (lBig (2 ^ 48 - 2 ^ 20 - 1))))).map fun t => ((t.link 3).st, (t.link 3).session)) =
      some (.training, false) ∧
    ((nextOf (exec (.rekeyStart 3) (withKex (sLink (lBig (2 ^ 47)))))).map fun t => t.sigPending (.linkRekey 3)) = some true ∧
    ((nextOf (exec (.rekeyRetry 3) (sLink (rekeying none)))).map fun t => (t.link 3).rekey) = some none := by
  refine ⟨?_, ?_, ?_, ?_, ?_, ?_, ?_, ?_, ?_⟩ <;> decide +kernel

/-! ## The schedule domain -/

/-- A message from package 12 to package 9; package 9 as a member that 12 leads, as the lead, and while it joins. -/
def dh0 : DHdr := { dst := 9, src := 12, mseq := 4, epoch := 5 }
def sMember (d : Domain) : State := { sl with dom := { d with pkgAddr := 9 } }
def sm : State := sMember { st := .member, lead := 12, deputy := 10, members := [9, 10, 12] }
def sLead : State := sMember { st := .member, lead := 9, deputy := 10, members := [9, 10] }
def sJoin : State := sMember { st := .joining, lead := 12 }
def sOff (s : State) : State := { s with pw := { part := .standby }, en := { st := 1 } }

theorem forMe_of {s : State} (h : (rx0.wf && (s.link 3).carries && (s.link 3).fcntRx == 0 && (s.link 3).session && s.dom.pkgAddr == 9 &&
    !s.isDuplicate dh0 && s.running) = true) : ForMe s rx0 dh0 := by
  simp only [Bool.and_eq_true, beq_iff_eq, Bool.not_eq_true'] at h
  obtain ⟨⟨⟨⟨⟨⟨h1, h2⟩, h3⟩, h4⟩, h5⟩, h6⟩, h7⟩ := h
  exact ⟨⟨h1, h2, ⟨rfl, rfl⟩, h3.symm, h4⟩, h5.symm, h6, h7⟩

theorem witness_ForMe : ForMe sm rx0 dh0 ∧ FromLead sm dh0 ∧ sm.isLead = false ∧ ForMe sLead rx0 dh0 ∧ sLead.isLead = true ∧ ForMe sJoin rx0 dh0 :=
  ⟨forMe_of (by decide), ⟨by decide, by decide⟩, by decide, forMe_of (by decide), by decide, forMe_of (by decide)⟩

theorem witness_DomainMessagesAreFiltered :
    (sMember { mseqIn := [(12, 5)] }).isDuplicate dh0 = true ∧ Accepted (sMember { mseqIn := [(12, 5)] }) rx0 ∧ ForMe sl rx0 dh0 ∧
    ¬FromLead sl dh0 ∧ sl.isLead = false ∧
    ((sl.takeFrame rx0).dctlLink 12 = some 3 ∧ ((sl.takeFrame rx0).link 3).up = true ∧ ((sl.takeFrame rx0).link 3).session = true ∧
      ({ dh0 with dst := 12 } : DHdr).dst ≠ sl.dom.pkgAddr) := by
  refine ⟨by decide, ⟨by decide, by decide, by decide, by decide, by decide⟩, forMe_of (by decide), ?_, by decide, by decide⟩
  rintro ⟨h, -⟩
  exact absurd h (by decide)

theorem witness_PackagesJoinAndLeave : (sLead.plan.map (·.domainDigest)) = some [] ∧ dh0.src ∉ sLead.dom.members ∧
    (dh0.src ∈ (sMember { st := .member, lead := 9, members := [9, 12] }).dom.members) ∧
    (sJoin.dom.st = .joining ∧ dh0.src = sJoin.dom.lead ∧ sJoin.en.on = true ∧ (sOff sJoin).en.on = false ∧ sJoin.en.accepted = false) ∧
    ((sMember { st := .left }).dom.st = .left ∧ (sMember { st := .left }).plan.any (·.domain) = true ∧ (sMember { st := .left }).working = true ∧
      (sOff (sMember { st := .left })).working = false) := by decide

theorem test_joining : ((nextOf (exec (.join rx0 dh0 7 []) sLead)).map fun t => (t.dom.members, t.out.length)) = some ([9, 10, 12], 1) ∧
    ((nextOf (exec (.join rx0 dh0 7 [1]) sLead)).map fun t => t.dom.members) = some [9, 10] ∧
    ((nextOf (exec (.accept rx0 dh0 9 3000000000 [9, 12]) (sOff sJoin))).map fun t => (t.dom.members, t.en.accepted, t.tm.now)) =
      some ([9, 12], true, 3000000000) ∧
    ((nextOf (exec (.joinRefused rx0 dh0 0x43) (sOff sJoin))).map fun t => (t.dom.st, t.en.st, t.en.reason)) = some (.standalone, 3, 0x43) ∧
    ((nextOf (exec .acceptTimeout (sOff sJoin))).map fun t => t.en.reason) = some 0x44 ∧
    ((nextOf (exec (.leave rx0 { dh0 with src := 10 } 1) sLead)).map fun t => t.dom.members) = some [9] ∧
    ((nextOf (exec .domainRejoin (sMember { st := .left, lead := 12 }))).map fun t => (t.dom.st, t.dom.lead)) = some (.joining, 12) := by
  refine ⟨?_, ?_, ?_, ?_, ?_, ?_, ?_⟩ <;> decide +kernel

/-- A domain job, PENDING, bound, and as the lead knows it. -/
def jobD (st : JobState) : Job := { idx := 6, domain := true, jobId := 77, tenant := 1, prog := 1, st := st, slot := 0 }
def withJob (s : State) (st : JobState) : State := { s with jobs := [jobD st], runs := [{ slot := 0, epoch := 5, jobs := [(0, 6)], incs := [(0, 0)], started := true }] }
def ready1 : LeadJob := { jobId := 77, prog := 1, tenant := 1, ready := [9], since := 5 }
def sLeadJob : State := sMember { st := .member, lead := 9, deputy := 10, members := [9, 10], leadJobs := [ready1] }
def sLost : State := sMember { st := .member, lead := 12, deputy := 9, members := [9, 12], noTick := 100 }

theorem witness_DomainJobsAreAdmitted : (∀ l ∈ sLeadJob.dom.leadJobs, l.jobId = 77 → l.aseq = none) ∧
    (withJob sm .pending).jobs.find? (fun x => x.domain && x.jobId == 77 && x.st == .pending) = some (jobD .pending) ∧
    sLead.dom.qcollect = none ∧ (sMember { st := .member, lead := 9, qcollect := some ([], []) }).dom.qcollect.isSome = true ∧
    (sm.dom.st = .member ∧ dh0.src = sm.dom.lead) ∧ sLeadJob.route = some route0 ∧
    sLeadJob.dom.leadJobs.find? (fun x => x.jobId == 77 && x.aseq.isNone) = some ready1 ∧
    (sLost.dom.st = .member ∧ sLost.isLead = false ∧ 100 ≤ sLost.dom.noTick ∧ sLost.dom.deputy = sLost.dom.pkgAddr) ∧
    (let s := sMember { st := .member, lead := 2, deputy := 12, noTick := 100 }
     s.dom.deputy ≠ s.dom.pkgAddr ∧ s.dctlLink s.dom.deputy = some 3 ∧ (s.link 3).up = true) ∧
    (let s := sMember { st := .member, lead := 2, deputy := 44, noTick := 100 }
     s.dom.deputy ≠ s.dom.pkgAddr ∧ s.dctlLink s.dom.deputy = none) := by decide +kernel

theorem test_admission : ((nextOf (exec (.ready rx0 { dh0 with src := 10 } 77 1 1) sLeadJob)).map fun t =>
      t.dom.leadJobs.map fun l => (l.ready, l.aseq)) = some [([10, 9], none)] ∧
    ((nextOf (exec (.refuse rx0 dh0 77 12) sLeadJob)).map fun t => t.dom.leadJobs) = some [] ∧
    ((nextOf (exec (.admitJob rx0 dh0 77 3) (withJob sm .pending))).map fun t => t.jobs.map fun j => (j.st, j.aseq, j.receipt)) =
      some [(.queued, 3, some 5010000)] ∧
    ((nextOf (exec (.admitWaitExpiry 77) sLeadJob)).map fun t => (t.tm.now, t.dom.leadJobs)) = some (9000000, []) ∧
    ((nextOf (exec .leadLost sLost)).map fun t => (t.dom.lead, t.dom.members)) = some (9, [9]) ∧
    ((nextOf (exec (.qreq rx0 dh0) sm)).map fun t => (t.dom.lead, t.out.length)) = some (12, 1) ∧
    ((nextOf (exec (.qreport rx0 { dh0 with src := 10 } 0 true [(77, 4)]) (sMember { st := .member, lead := 9, members := [9, 12], qcollect := some ([], []) }))).map
      fun t => t.dom.qcollect.isSome) = some true := by refine ⟨?_, ?_, ?_, ?_, ?_, ?_, ?_⟩ <;> decide +kernel

theorem witness_DomainMessagesAct : ForMe (withJob sm .bound) rx0 dh0 ∧ FromLead (withJob sm .bound) dh0 ∧
    (withJob sm .bound).jobs.find? (fun x => x.domain && x.jobId == 77 && x.inc == 0 && (x.st == .bound || x.st == .queued)) = some (jobD .bound) ∧
    ((noted (withJob sm .bound) rx0 dh0).runOfJob 6).map (fun q => (q.slot, q.bad)) = some (0, []) :=
  ⟨forMe_of (by decide), ⟨by decide, by decide⟩, by decide, by decide⟩

theorem test_domain_messages : ((nextOf (exec (.bind rx0 dh0 9 0 []) sm)).map fun t => t.dom.binds.map fun b => (b.epoch, b.slot)) = some [(9, 0)] ∧
    ((nextOf (exec (.tick rx0 dh0 12 10 3 [9, 12]) sm)).map fun t => (t.dom.deputy, t.dom.members)) = some (10, [9, 12]) ∧
    ((nextOf (exec (.vannounce rx0 dh0 10 0 20) sm)).map fun t => t.vs.announced) = some [(10, 0, 20)] ∧
    ((nextOf (exec (.abandon rx0 dh0 77 0 3) (withJob sm .bound))).map fun t => t.jobs.map fun j => (j.st, j.inc)) = some [(.queued, 1)] ∧
    ((nextOf (exec (.failjob rx0 dh0 77 0 4 8) (withJob sm .bound))).map fun t => t.runs.map (·.bad)) = some [[(0, 8)]] ∧
    ((nextOf (exec (.resident rx0 dh0 1 4 1) sLead)).map fun t => t.dom.resident) = some [(12, 1, 4)] ∧
    ((nextOf (exec (.vdecide rx0 dh0 0 20) sLead)).map fun t => t.vs.announced) = some [(12, 0, 20)] ∧
    ((nextOf (exec (.vack rx0 dh0 9 20) sLead)).map fun t => t.dom.vacks) = some [(12, 9, 20)] := by
  refine ⟨?_, ?_, ?_, ?_, ?_, ?_, ?_, ?_⟩ <;> decide +kernel

/-! ## Keys, shares and the security controller -/

/-- A parameter set whose key of kind 4 takes no block (the test hashes no 64 KiB), and one of N = 1 for a partial decryption. -/
def psK : Machine.PSet := { scheme := 3, dnum := 1, glweRank := 1, lweN := 1, lweLogq := 0, logDelta := 1 }
def psD : Machine.PSet := { lq := 2, qIdx := [0, 0], raw := [1] }
def planK : Plan := { plan0 with psets := [psK, psD] }

/-- A manifest of tenant 1 with serial 5 and one key entry, KEY_ID 4 of kind 4 (R126). -/
def manifest : List Byte :=
  leBytes 4 0x4D4B464B ++ leBytes 2 1 ++ [1, 0] ++ leBytes 2 1 ++ leBytes 2 1 ++ leBytes 4 5 ++ psetDigestOf planK psK ++
    List.replicate 64 0 ++ leBytes 2 4 ++ [4] ++ List.replicate 93 0 ++ List.replicate 64 0

/-- A partial-decryption request of tenant 1: counter 2, LEVEL 2, FLOOD_BITS 20, c1 at 8,192 (R458). -/
def pdecReq : List Byte :=
  [0x4B, 0x46, 0x50, 0x44] ++ leBytes 2 1 ++ leBytes 2 1 ++ leBytes 8 2 ++ psetDigestOf planK psD ++ [2, 20] ++ List.replicate 6 0 ++
    leBytes 8 8192 ++ leBytes 8 12288 ++ sha384 (leBytes 4 7 ++ leBytes 4 9) ++ List.replicate 56 0 ++ List.replicate 64 0

/-- The cells of a memory that holds bytes from an address on. -/
def cellsAt (a : Nat) (bs : List Byte) : List Host.Cell := ((bs.zipIdx a).filter fun e => e.1 != 0).map fun e => (e.2, e.1)

/-- s0 as a part in STANDBY with a healthy source and a valid identity, whose tenant 1 has a verification key; its function 0
masters the bus, and its host memory holds `m` at 4,096 and a c1 of two limbs at 8,192. -/
def ten0 : Tenant := { st := .active, vkeyAlg := 1, vkey := [1], manAddr := 4096, manLen := 288, pdecAddr := 4096 }
def sSec (x : Tenant) (m : List Byte) : State := { s0 with
  plan := some planK, tenants := [(1, x)], uploads := [1], fns := [(0, { bme := true })]
  sec := { entropy := .healthy, drbgUp := true, identity := 1, vaultId := true, pdecQueue := [1] }
  hostMem := cellsAt 4096 m ++ cellsAt 8192 (leBytes 4 7 ++ leBytes 4 9) }
def sMan : State := sSec ten0 manifest

/-- What an upload or a request reads, and what the form checks say of it, on the bytes of the two records. -/
theorem witness_UploadsSharesAndDecryptionsEnd_reads : sMan.sigPending (.manifest 1) = false ∧ 1 ∈ sMan.uploads ∧
    sMan.tenantRead 1 4096 288 = some manifest ∧
    ({ sMan with fns := [] } : State).tenantRead 1 4096 288 = none ∧ (sSec { ten0 with upFault := true } []).tenant 1 = { ten0 with upFault := true } ∧
    (sSec ten0 []).checkUpload 1 (List.replicate 288 0) = .error (0x30, 0xFFFFFFFF) ∧ sMan.tenantRead 1 0 (field manifest 64 8) = some [] ∧
    badBlock manifest [] = none := by refine ⟨?_, ?_, ?_, ?_, ?_, ?_, ?_, ?_⟩ <;> decide +kernel

theorem witness_UploadsSharesAndDecryptionsEnd_upload
    (h : Config.sigVerify 1 [1] (manifest.take 224) (manifest.drop 224) = true) :
    sMan.checkUpload 1 manifest = .ok (manifest, 0, [[]]) := by
  have h1 : manFormOk manifest 1 = true := by decide +kernel
  have h2 : ¬field manifest 12 4 ≤ (sMan.tenant 1).manSerial := by decide +kernel
  have h3 : sMan.sec.signetFailed = false := rfl
  have h4 : manSigOk manifest (sMan.tenant 1) = true := by
    have a : (sMan.tenant 1).vkeyAlg = 1 := by decide
    have b : (sMan.tenant 1).vkey = [1] := by decide
    have c : field manifest 6 1 = 1 := by decide +kernel
    have d : manifest.length - sigLen 1 = 224 := by decide +kernel
    simp only [manSigOk, a, b, c, d, h]
    decide
  have h5 : sMan.psetOfDigest (slice manifest 16 48) = some 0 := by decide +kernel
  have h6 : sMan.badEntry 1 (planK.psets[0]?.getD {}) manifest = none := by decide +kernel
  have h7 : sMan.placeAll (manEntries manifest) (sMan.keys.flatMap (·.blocks)) = some [[]] := by decide +kernel
  have h8 : sMan.plan = some planK := rfl
  have h9 : (sMan.tenant 1).quota = 0 := by decide
  have h0 : planK.testOnly = [] := rfl
  unfold State.checkUpload
  simp [h1, h2, h3, h4, h5, h6, h7, h8, h9, h0]

/-- The same part with tenant 1's share, whose oldest request is that of tenant 1; the counter it has served. -/
def share0 : Share := { psetDigest := psetDigestOf planK psD }
def sPd (n : Nat) : State := sSec { ten0 with share := some share0, pdecCounter := n } pdecReq

theorem witness_UploadsSharesAndDecryptionsEnd_offer : (sSec { ten0 with offer := some { time := 9 }, offerSt := 2 } []).tenant 1 =
    { ten0 with offer := some { time := 9 }, offerSt := 2 } ∧ ({ time := 9 } : Offer).time = 9 := by decide +kernel

theorem sPd_read : (sPd 1).tenantRead 1 4096 256 = some pdecReq := by
  have h : (sPd 1).tenantRead 1 4096 256 == some pdecReq := by decide +kernel
  simpa using h

theorem witness_UploadsSharesAndDecryptionsEnd_pdec :
    (sPd 1).sec.pdecQueue = [1] ∧ (sPd 1).sigPending (.pdec 1) = false ∧ Rising (sPd 1).tenants ∧
    ((sPd 1).entropyOk = true ∧ (sPd 1).identityOk = true ∧ ({ sPd 1 with sec := { pdecQueue := [1] } } : State).entropyOk = false ∧
      ({ sPd 1 with sec := { (sPd 1).sec with vaultId := false } } : State).identityOk = false) ∧
    192 + sigLen ((sPd 1).tenant 1).vkeyAlg = 256 ∧ (sPd 1).tenantRead 1 4096 256 = some pdecReq ∧ pdecFormOk pdecReq 1 = true ∧ pdecFormOk [] 1 = false ∧
    ((pdecReqOf pdecReq).counter ≤ ((sPd 2).tenant 1).pdecCounter ∧ ((sPd 1).tenant 1).pdecCounter < (pdecReqOf pdecReq).counter) ∧
    ((sPd 1).psetOfDigest share0.psetDigest = some 1 ∧ (pdecReqOf pdecReq).digest = share0.psetDigest) ∧
    pdecRangeOk planK psD (pdecReqOf pdecReq) = true ∧
    (sPd 1).tenantRead 1 (pdecReqOf pdecReq).c1 8 = some (leBytes 4 7 ++ leBytes 4 9) ∧
    sha384 (leBytes 4 7 ++ leBytes 4 9) = (pdecReqOf pdecReq).c1Digest ∧
    (∀ q ∈ (chainPrimes planK psD 2).zipIdx, ∀ w ∈ hostLimb (leBytes 4 7 ++ leBytes 4 9) 1 q.2, w < q.1) := by
  refine ⟨?_, ?_, ?_, ⟨?_, ?_, ?_, ?_⟩, ?_, sPd_read, ?_, ?_, ⟨?_, ?_⟩, ⟨?_, ?_⟩, ?_, ?_, ?_, ?_⟩ <;> (try unfold Rising) <;> decide +kernel

/-- The signature of the request verifies where the verification that the spec names without defining (log 10) says so. -/
theorem witness_pdec_signature (h : Config.sigVerify 1 [1] (pdecReq.take 192) (pdecReq.drop 192) = true) :
    tenantSigOk pdecReq ((sPd 1).tenant 1) = true := by
  have a : ((sPd 1).tenant 1).vkeyAlg = 1 := by decide
  have b : ((sPd 1).tenant 1).vkey = [1] := by decide
  have d : pdecReq.length - sigLen 1 = 192 := by decide +kernel
  simp only [tenantSigOk, a, b, d, h]

theorem test_uploads : ((nextOf (exec (.keyUploadDone 1) (sSec ten0 []))).map fun t =>
      ((t.tenant 1).keyLoad, (t.tenant 1).keyReason, t.uploads)) = some (4, 0x30, []) ∧
    ((nextOf (exec (.shareOfferExpiry 1) (sSec { ten0 with offer := some { time := 9 }, offerSt := 2 } []))).map fun t =>
      (t.tm.now, (t.tenant 1).offerSt, (t.tenant 1).offer)) = some (600000000009, 0, none) ∧
    ((nextOf (exec .partialDecryption (sSec { ten0 with share := some share0 } []))).map fun t => ((t.tenant 1).pdecReason, t.sec.pdecQueue)) = some (0x54, []) := by
  refine ⟨?_, ?_, ?_⟩ <;> decide +kernel

/-! ## Security events, resets, enabling and plans -/

/-- s0 with the security controller changed. -/
def sSc (x : Sec) : State := { s0 with sec := x, tenants := [(1, { ten0 with share := some {} })] }
def secUp : Sec := { entropy := .healthy, drbgUp := true, identity := 1, vaultId := true }

theorem witness_SecurityEventsAct : (sSc { sigBusy := some .hallmark }).sec.sigBusy = some .hallmark ∧ SigOp.hallmark.isPrivate = true ∧
    (SigOp.manifest 1).isPrivate = false ∧ (sSc { mismatch := 7 }).sec.mismatch + 1 = 8 ∧
    (s0.pw.part ≠ .off ∧ s0.sec.entropy ≠ .failed ∧ Rising s0.tenants ∧ (sSc { secUp with hmRun := 1 }).sec.hmRun = 1 ∧
      (sSc { secUp with entropyFails := 15 }).sec.entropyFails + 1 = 16) ∧
    (sSc { entropy := .unhealthy }).sec.entropy = .unhealthy ∧
    ((sSc {}).sec.vaultShare = none ∧ (sSc { vaultShare := some 1 }).sec.vaultShare = some 1 ∧ (sSc secUp).sec.drbgUp = true ∧
      (sSc {}).sec.drbgUp = false ∧ ((sLink l0).link 3).session = true ∧ 4 ≤ ((sLink l0).link 3).lanes ∧ ((sLink l0).link 5).session = false) := by
  refine ⟨?_, ?_, ?_, ?_, ⟨?_, ?_, ?_, ?_, ?_⟩, ?_, ⟨?_, ?_, ?_, ?_, ?_, ?_, ?_⟩⟩ <;> (try unfold Rising) <;> decide

theorem test_security : ((nextOf (exec (.signetOperationDone true) (sSc { sigBusy := some .hallmark, mismatch := 7, operands := true }))).map
      fun t => (t.sec.signetFailed, t.sec.mismatch, t.sec.operands)) = some (true, 8, false) ∧
    ((nextOf (exec .entropyFail (sSc { secUp with entropyFails := 15 }))).map fun t => (t.sec.entropy, t.sec.drbgUp)) = some (.failed, false) ∧
    ((nextOf (exec (.entropyRetest true) (sSc { entropy := .unhealthy }))).map fun t => (t.sec.entropy, t.sec.drbgReseeds)) = some (.healthy, 1) ∧
    ((nextOf (exec (.entropyRetest false) (sSc { entropy := .unhealthy }))).map fun t => t.sec.entropy) = some .unhealthy ∧
    ((nextOf (exec (.vaultUncorrectable (.linkSession 3)) (sLink l0))).map fun t => ((t.link 3).st, (t.link 3).session)) = some (.training, false) ∧
    ((nextOf (exec (.vaultUncorrectable .share) (sSc { vaultShare := some 1, pdecQueue := [1] }))).map fun t => (t.tenant 1).pdecReason) = some 0x59 ∧
    ((nextOf (exec (.jtagInstruction .other) s0)).map fun t => (t.pw.part, t.pw.safeRow, t.pw.keysBlocked)) = some (.safe, 3, true) ∧
    ((nextOf (exec (.jtagInstruction .idcode) s0)).map fun t => t.pw.part) = some .enabled := by
  refine ⟨?_, ?_, ?_, ?_, ?_, ?_, ?_, ?_⟩ <;> decide +kernel

/-- A firmware slot of SVN 3 without firmware bytes, by R502; its header without the two digests. -/
def fwHead : List Byte := [0x4B, 0x46, 0x46, 0x57, 1, 0, 3, 0] ++ List.replicate 8 0
def fw0 : FwSlot := { header := fwHead ++ (sha384 [] ++ (sha384 [] ++ List.replicate 3984 0)) }

/-- A boot in which every test passes, one without a hub, one without firmware; s0 in another state of the part. -/
def env0 : BootEnv := { fwA := fw0, fwB := fw0, refclk := .locked, bistFail := [], unitFail := [], hubFail := false, stackFail := [], entropyOk := true
                        signetOk := true, certOk := true, unrepaired := [] }
def sPart (x : PartState) : State := { s0 with pw := { part := x, env := env0 }, en := {}, runs := [] }
def sBoot (e : BootEnv) : State := { sPart .boot with pw := { part := .boot, env := e } }
def sReset : State := { sPart .standby with jobs := [] }
def hold0 : State := { sPart .boot with pw := { part := .boot, thermalHold := true } }

/-- R502 gives that slot its SVN, unless a digest, MAGIC or the minimum SVN fails. -/
theorem test_firmware : fwSvn fw0 0 = some 3 ∧ fwSvn fw0 4 = none ∧ fwSvn { fw0 with steward := [1] } 0 = none ∧ fwSvn {} 0 = none := by
  refine ⟨?_, ?_, ?_, ?_⟩ <;> decide +kernel

theorem witness_ResetsAndBoot : (s0.pw.part ≠ .off ∧ (sPart .off).pw.part = .off ∧ (sPart .off).pw.part = .off) ∧
    (s0.perstAllowed = true ∧ (sPart .safe).perstAllowed = false ∧ (sPart .boot).perstAllowed = false ∧ (sPart .safe).pw.part ≠ .off) ∧
    ({ s0 with pw := { part := .enabled, resetDue := 1 } } : State).pw.resetDue = 1 ∧
    (let s : State := { s0 with pw := { part := .enabled, resetDue := 2 } }
     s.warmAllowed = true ∧ s.pw.resetDue = 2) ∧ Heard s0 .mctp 0x2000 6 true .cmd ∧
    ((sBoot env0).pw.stage ≠ 0xF ∧ (sBoot env0).pw.thermalHold = false ∧ (sBoot env0).pw.env.hubFail = false ∧
      (sBoot { env0 with hubFail := true }).pw.env.hubFail = true) ∧
    (hold0.pw.part = .boot ∧ hold0.pw.thermalHold = true ∧ ∀ x ∈ hold0.temps, x < 95) ∧
    (let s : State := { sPart .boot with pw := { part := .boot, noRefclk := true } }
     s.pw.noRefclk = true ∧ s.pw.part ≠ .off) :=
  ⟨by decide, by decide, by decide, by decide, ⟨by decide, by decide, by decide⟩, by decide, by decide, by decide⟩

theorem witness_ResetsAndBoot_loading : (let e := { env0 with loading := true }
    let s : State := { sReset with pc := { load := 1 } }
    e.loading = true ∧ s.pc.load = 1 ∧ s.perstAllowed = true) ∧ sReset.plan.isSome = true ∧
    ((nextOf (exec (.perstBothWarmReset { env0 with loading := true }) { sReset with pc := { load := 1 } })).map fun t => t.plan.isSome) =
      some false := by refine ⟨?_, ?_, ?_⟩ <;> decide +kernel

/-- A warm reset keeps the plan and the jobs; a cold one does not; boot ends in STANDBY, or in SAFE without a hub. -/
theorem test_resets : ((nextOf (exec (.perstBothWarmReset env0) s0)).map fun t => (t.pw.part, t.pw.resetCause, t.plan.isSome, t.jobs.length)) =
      some (.boot, 3, true, 1) ∧
    ((nextOf (exec (.resetCmdCold .mctp env0) s0)).map fun t => (t.pw.part, t.pw.resetCause, t.plan.isSome, t.jobs.length)) =
      some (.boot, 1, false, 0) ∧
    ((nextOf (exec (.resetCmdWarm .mctp env0) s0)).map fun t => (t.pw.resetCause, t.tm.now)) = some (2, 6010000) ∧
    ((nextOf (exec .pwrgoodDeassert s0)).map fun t => (t.pw.part, t.jobs.length)) = some (.off, 0) ∧
    ((nextOf (exec (.pwrgoodAssert env0) (sPart .off))).map fun t => (t.pw.part, t.pw.resetCause)) = some (.boot, 4) ∧
    ((nextOf (exec .bootComplete (sBoot env0))).map fun t => (t.pw.part, t.pw.stage)) = some (.standby, 6) ∧
    ((nextOf (exec .bootComplete (sBoot { env0 with hubFail := true }))).map fun t => (t.pw.part, t.pw.safeRow)) = some (.safe, 1) ∧
    ((nextOf (exec .thermalBootHoldRelease hold0)).map fun t => t.pw.thermalHold) = some false := by
  refine ⟨?_, ?_, ?_, ?_, ?_, ?_, ?_, ?_⟩ <;> decide +kernel

/-- A part in STANDBY that may be enabled, and one whose consistency check runs. -/
def sReady : State := { sPart .standby with sec := secUp, tm := { now := 5010000, edge := 5, refclk := .locked } }
def sCheck (acc : Bool) : State := { sReady with en := { st := 1, accepted := acc } }

theorem witness_TheDeviceEnablesAndDisables : Heard sReady .mctp 0x2000 1 true .rw ∧ (sReady.en.st ≠ 1 ∧ sReady.en.st ≠ 4 ∧ sReady.en.on = false) ∧
    sReady.domainPlan = false ∧ (s0.en.on = true ∧ s0.en.st = 2 ∧ Heard s0 .mctp 0x2000 1 true .rw) ∧
    ((sCheck true).en.st = 1 ∧ (sCheck true).running = true ∧ (sCheck true).lastTests = none ∧ (sCheck false).firstTests = none ∧
      ({ sCheck true with sec := {} } : State).lastTests = some (0x50, 0xFF900000) ∧
      ({ sCheck false with plan := none } : State).firstTests = some (0x27, 0) ∧
      ({ sCheck true with pw := { part := .safe } } : State).running = false) ∧
    (let s : State := { sCheck false with plan := some { plan0 with domain := true, route := some route0, lead := 12 }, tm := { now := 5010000, refclk := .locked, pps := .locked } }
     s.domainPlan = true ∧ s.dom.st ≠ .joining) ∧
    (let s : State := { s0 with en := { on := true, st := 4 }, runs := [] }
     s.en.st = 4 ∧ ∀ r ∈ s.runs, r.jobs = [] ∨ r.abandoned = true) :=
  ⟨⟨by decide, by decide, by decide⟩, by decide, by decide, ⟨by decide, by decide, ⟨by decide, by decide, by decide⟩⟩, by decide, by decide,
    by decide⟩

theorem test_enable : ((nextOf (exec (.deviceEnableSet .mctp) sReady)).map fun t => (t.en.st, t.out.length)) = some (1, 1) ∧
    ((nextOf (exec .enableCheckDone (sCheck false))).map fun t => (t.en.on, t.en.st, t.pw.part)) = some (true, 2, .enabled) ∧
    ((nextOf (exec .enableCheckDone { sCheck false with plan := none })).map fun t => (t.en.on, t.en.st, t.en.reason)) = some (false, 3, 0x27) ∧
    ((nextOf (exec (.deviceEnableClear .mctp) s0)).map fun t => (t.en.st, t.en.on)) = some (4, true) ∧
    ((nextOf (exec .disableComplete { s0 with en := { on := true, st := 4 }, runs := [] })).map fun t => (t.en.st, t.pw.part)) =
      some (0, .standby) := by refine ⟨?_, ?_, ?_, ?_, ?_⟩ <;> decide +kernel

/-- A part in STANDBY that loads a plan image of eight bytes. -/
def sLoad (img : Option (List Byte)) : State := { sReady with jobs := [], pc := { load := 1, image := img, len := 8 } }
/-- Two variants, of which 1 asks for no die that is missing. -/
def plan2 : Plan := { plan0 with variants := [{ num := 0, gear := 0, dieMask := 1, template := 0 }, { num := 1, gear := 0, dieMask := 1, template := 0 }] }
def sVar : State := { s0 with plan := some plan2 }

theorem witness_PlansLoadAndVariantsAreRequested : Heard sReady .mctp 0x5000 3 true .cmd ∧
    (sReady.pc.load ≠ 1 ∧ sReady.en.on = false ∧ sReady.jobs ≠ []) ∧ (let s : State := { sLoad none with pc := {} }
      Heard s .mctp 0x5000 3 true .cmd ∧ s.pc.load ≠ 1 ∧ s.en.on = false ∧ s.jobs = [] ∧ s.doneJobs = []) ∧ (s0.pc.load ≠ 1 ∧ s0.en.on = true) ∧
    Heard s0 .mctp 0x5000 3 true .cmd ∧ (sLoad none).pc.load = 1 ∧ (sLoad none).pc.image = none ∧
    ((sLoad (some [1])).pc.image = some [1] ∧ (loadCheck (sLoad (some [1])) [1] 8).isSome = true) ∧
    (Heard sVar .mctp 0x5010 5 true .cmd ∧ sVar.plan ≠ none ∧ sVar.selectableNum 1 = true ∧ sVar.selectableNum 2 = false ∧
      sVar.vs.pending = none ∧ sVar.vs.current ≠ 1 ∧ sVar.vs.current = 0) ∧
    (let s : State := { sVar with vs := { sVar.vs with pin := some 1 } }
     s.plan ≠ none ∧ s.vs.pin = some 1 ∧ s.selectableNum 1 = true ∧ s.vs.pending = none ∧ s.vs.current ≠ 1 ∧ s.selectableNum 0 = true) :=
  ⟨⟨by decide, by decide, by decide⟩, by decide, ⟨⟨by decide, by decide, by decide⟩, by decide, by decide, by decide, by decide⟩, by decide,
    ⟨by decide, by decide, by decide⟩, by decide, by decide, by decide +kernel,
    ⟨⟨by decide, by decide, by decide⟩, by decide, by decide, by decide, by decide, by decide, by decide⟩,
    by decide, by decide, by decide, by decide, by decide, by decide⟩

theorem test_plans : ((nextOf (exec (.planLoad .mctp) { sLoad none with pc := {} })).map fun t => t.pc.load) = some 1 ∧
    ((nextOf (exec .planLoadDone (sLoad none))).map fun t => (t.pc.load, t.pc.reason)) = some (3, 0x20) ∧
    ((nextOf (exec (.planLoad .mctp) s0)).map fun t => (t.pc.load, t.pc.reason)) = some (3, 0x27) ∧
    ((nextOf (exec (.varRequest .mctp 1) sVar)).map fun t => (t.vs.pin, t.vs.pending, t.evaluateVariant.vs.pending)) =
      some (some 1, none, some (1, 9)) ∧
    ((nextOf (exec (.varRequest .mctp 2) sVar)).map fun t => t.vs.request) = some 2 := by
  refine ⟨?_, ?_, ?_, ?_, ?_⟩ <;> decide +kernel

/-! ## A plan image that passes -/

/-- Zero bytes. -/
def z (n : Nat) : List Byte := List.replicate n 0

/-- An image, its digest left zero, of one program on one array, one variant, a JOB slot and a FALLOW slot: three primes, one set of N = 4,096. -/
def imgBase : List Byte :=
  [[75, 70, 80, 76, 1, 0, 0, 7, 9, 86], z 6, [128, 14], z 14, [1, 0, 0, 0, 208, 7, 0, 0, 1, 1, 1], z 213, [1, 0, 0, 0,
    80, 0, 0, 0, 0, 2], z 7, [10], z 14, [2, 0, 0, 0, 1, 0, 0, 0, 0, 12], z 6, [128], z 15, [3, 0, 0, 0, 1, 0, 0, 0,
    128, 12], z 6, [32], z 15, [4, 0, 0, 0, 1, 0, 0, 0, 192, 12], z 6, [128], z 15, [5, 0, 0, 0, 1, 0, 0, 0, 64, 13], z
    6, [64], z 15, [6, 0, 0, 0, 1, 0, 0, 0, 128, 13], z 6, [160], z 15, [7, 0, 0, 0, 1, 0, 0, 0, 64, 14], z 6, [48], z
    47, [1, 0, 96, 72, 228, 115, 254, 11, 7, 99, 96, 226, 190, 55, 0, 0, 0, 1, 0, 0, 1, 160, 23, 72, 1, 122, 91, 72, 0,
    0, 0, 0, 1, 0, 0, 120, 227, 221, 221, 69, 135, 136, 136, 136, 62, 54, 0, 0, 183, 160, 97, 9, 53, 246, 231, 73, 1,
    128, 248, 119], z 2501, [12, 1, 0, 0, 255, 0, 30], z 24, [1], List.replicate 79 255, z 16, [1, 1, 0, 1, 32], z 59,
    [1, 0, 224, 0, 1, 0, 1, 0, 1], z 8, [1, 0, 0, 64], z 43, [64, 0, 0, 1, 0, 0, 0, 40], z 58, [255, 1], z 62, [2, 0, 0,
    0, 1, 0, 0, 0, 0, 1], z 23, [1, 1, 1, 0, 0, 1], z 11, [100, 0, 0, 0, 32], z 15, [255, 255], z 22, [1, 0, 2, 255, 0,
    255, 0, 0, 255, 255, 255, 255, 255, 255, 255, 255, 180, 95, 0, 0, 244, 1], z 18, [255, 255], z 56, [1, 0, 0, 0, 0,
    0, 1], z 25, [1], z 6, [4, 0, 0, 0, 0, 0, 64], z 16].flatten

/-- The image with its digest (R302). -/
def img0 : List Byte := imgBase.take 48 ++ (sha384 imgBase ++ imgBase.drop 96)

theorem img_digest : (sha384 imgBase).length = 48 := by decide +kernel

theorem img_blank : img0.take 48 ++ z 48 ++ img0.drop 96 = imgBase := by decide +kernel

theorem img_read : slice img0 48 48 = sha384 imgBase := by
  have e : (img0.drop 48).take 48 = sha384 imgBase := by
    rw [img0, List.drop_left' (by decide +kernel), List.take_left' img_digest]
  simp only [slice, e, img_digest, Nat.sub_self, List.replicate_zero, List.append_nil]

theorem img_test10 : test10 img0 = none := by
  have h : imageHash img0 = sha384 imgBase := congrArg sha384 img_blank
  simp [test10, failIf, h, img_read]

theorem img_form : test8 img0 3712 = none ∧ test9 (sLoad none) img0 = none ∧ test11 img0 (planOf img0) = none := by decide +kernel

theorem img_primes : primeTests img0 (planOf img0) = none := by decide +kernel

theorem img_sets : setTests (planOf img0) = none ∧ test12 (planOf img0) = none ∧ test13 (planOf img0) = none := by decide +kernel

theorem img_region : test14 (sLoad none) (planOf img0) = none ∧ test15 (planOf img0) = none := by decide +kernel

/-- The load check's view of the image's variant. -/
def runs0 : List VariantRun := variantRuns (sLoad none) img0 (planOf img0)

/-- The simulation, whose verdict no rule states as a function (log 11), finds nothing. -/
theorem sim_none (h : Config.simulate img0 = none) (n : Nat) : simulated img0 n = none := by simp [simulated, h]

theorem img_code : decodeTest (planOf img0) = none := by decide +kernel

theorem img_tensors (h : Config.simulate img0 = none) : tensorTests (sLoad none) img0 (planOf img0)
    (fun v => ((runs0.find? fun r => r.v.num == v.num).map (·.dry)).getD []) = none := by
  unfold tensorTests
  simp only [sim_none h]
  decide +kernel

theorem img_slots : slotTests (planOf img0) = none := by decide +kernel

theorem img_variants (h : Config.simulate img0 = none) : variantTests img0 (planOf img0) = none := by
  unfold variantTests
  simp only [sim_none h]
  decide +kernel

theorem img_timed : test70 (planOf img0) runs0 = none ∧ test71 (planOf img0) runs0 = none ∧ test72 runs0 = none ∧
    test74 (planOf img0) = none ∧ test75 (sLoad none) runs0 = none := by decide +kernel

theorem img_streams : test77 (sLoad none) (planOf img0) runs0 = none ∧ test78 (planOf img0) runs0 = none ∧
    test80 (planOf img0) runs0 = none ∧ test81 (planOf img0) runs0 = none ∧ test82 (planOf img0) runs0 = none := by decide +kernel

/-- A walk of LI S1 3, LOOP S1, AQPUSH S0, ENDL, END pushes three entries; a LOOP on what LDJ read is open (R540). -/
theorem test_walk :
    (Walk.run 0 (fun _ => []) [0x2C04000000000003, 0x6000200000000000, 0xA000000000000000, 0x6400000000000000, 0] 100 {}).aq.length = 3 ∧
      (Walk.run 0 (fun _ => []) [0x8804000000000000, 0x6000200000000000] 100 {}).open' = true := by decide +kernel

theorem next_of_none {v : Verdict} {f : Unit → Verdict} (h : v = none) : v.next f = f () := by rw [h]; rfl

/-- The image passes the load check where the simulation, whose verdict no rule states as a function (log 11), finds nothing. -/
theorem witness_PlansLoadAndVariantsAreRequested_image (h : Config.simulate img0 = none) : loadCheck (sLoad none) img0 3712 = none := by
  have f : formTests (sLoad none) img0 3712 = none := by
    unfold formTests
    rw [next_of_none img_form.1, next_of_none img_form.2.1, next_of_none img_test10, img_form.2.2]
  have t : timedTests (sLoad none) img0 (planOf img0) runs0 = none := by
    unfold timedTests
    simp only [sim_none h, img_timed.1, img_timed.2.1, img_timed.2.2.1, img_timed.2.2.2.1, img_timed.2.2.2.2,
      img_streams.1, img_streams.2.1, img_streams.2.2.1, img_streams.2.2.2.1, img_streams.2.2.2.2, Verdict.next]
  have u : streamTests (sLoad none) img0 (planOf img0) = none := by
    unfold streamTests
    rw [show variantRuns (sLoad none) img0 (planOf img0) = runs0 from rfl, next_of_none (img_tensors h),
      next_of_none (img_variants h), next_of_none img_slots, t]
  unfold loadCheck
  rw [next_of_none f, next_of_none img_primes, next_of_none img_sets.1, next_of_none img_sets.2.1, next_of_none img_sets.2.2,
    next_of_none img_region.1, next_of_none img_region.2, next_of_none img_code, u]

/-! ## The dictionary -/

/-- s0 whose function 0 of port 0 answers; a mailbox request of it. -/
def sFn : State := { s0 with ports := [(0, { perst := false, linkUp := true, cfgLoaded := true })], fns := [(0, { bme := true })] }
def mbox (op index sub : Nat) (v : List Byte) : MboxReq := { op := op, tag := 5, index := index, sub := sub, value := v }

theorem witness_RequestsAreCheckedInOrder : s0.answers .mctp = true ∧ s0.answers q0 = false ∧
    ((sPart .boot).pw.part = .boot ∧ (sPart .boot).answers .mctp = true ∧ (sPart .safe).answers .mctp = true) ∧
    (s0.row? 0x4010 3).isSome = true ∧ (s0.row? 0x4010 11).isNone = true ∧ s0.reaches .mctp 0xB300 1 true .rwd = false ∧
    s0.reaches .mctp 0x4010 3 true .rw = true ∧
    ((s0.row? 0x4010 3).map (fun r => (r.right, valueOk r [0], valueOk r [1], valueOk r [255]))) = some (.rw, false, true, true) ∧
    ((s0.row? 0x4010 7).map (·.right)) = some .ro ∧
    ((s0.row? 0x5000 1).map (fun r => (r.right, valueOk r (leBytes 8 4096)))) = some (.rwd, true) := by
  refine ⟨?_, ?_, ⟨?_, ?_, ?_⟩, ?_, ?_, ?_, ?_, ?_, ?_, ?_⟩ <;> decide +kernel

/-- The status of one write. -/
def statusOf (s : State) (i k : Nat) (bs : List Byte) : Nat := (s.dictWrite .mctp i k bs).1

theorem test_statuses : statusOf s0 0x4010 11 [0] = 1 ∧ statusOf s0 0x4010 7 (leBytes 4 0) = 2 ∧ statusOf s0 0x4010 3 [0] = 3 ∧
    statusOf s0 0x4010 3 [1, 0] = 3 ∧ statusOf s0 0x5000 1 (leBytes 8 4096) = 4 ∧ statusOf s0 0xB300 1 [0, 0] = 6 ∧
    statusOf (sPart .boot) 0x4010 3 [1] = 7 ∧ statusOf (sPart .safe) 0x4010 3 [1] = 8 ∧ statusOf s0 0x4010 3 [1] = 0 := by decide +kernel

theorem witness_SettingsReadBackWhatWasWritten : SettingsRising sReady .mctp ∧
    settings.all (fun e => e.2.all fun k => (sReady.row? e.1 k).isSome) = true ∧
    ([(0x3001, 1, [67]), (0x4010, 3, [255]), (0x4810, 7, leBytes 8 4096), (0x5000, 1, leBytes 8 4096), (0x6000, 7, leBytes 4 80),
      (0x7000, 8, leBytes 4 100000), (0x9050, 2, leBytes 2 4095)] : List (Nat × Nat × List Byte)).all
      (fun e => decide ((sReady.dictWrite .mctp e.1 e.2.1 e.2.2).1 = 0)) = true := by
  refine ⟨⟨?_, ?_, ?_, ?_⟩, ?_, ?_⟩ <;> (try unfold Rising) <;> decide +kernel

/-- A tenant in one state, and stream 3 in one state, selected by the MCTP requester. -/
def sTen (x : Tenant) : State := { s0 with tenants := [(1, x)], jobs := [], sec := secUp, sels := [(.mctp, { ten := 1, str := 3 })] }
def sStrm (x : Stream) : State := { s3 with streams := [(3, x)], sels := [(.mctp, { ten := 1, str := 3 })] }
def keyed (k : Key) : State := { sTen ten0 with keys := [k] }

theorem heard_ten (x : Tenant) (i k : Nat) (w : Bool) (r : Right) (h : (i / 256 != 0xB3 && i / 256 != 0xC0) = true) :
    Heard (sTen x) .mctp i k w r := ⟨rfl, rfl, h⟩

theorem witness_TenantAndStreamRequestsAct : Rising (sTen ten0).tenants ∧ ((sTen ten0).sel .mctp).ten = 1 ∧
    (1 ∈ ({ sTen ten0 with uploads := [1] } : State).uploads ∧ 1 ∉ (sTen ten0).uploads ∧
      65 ≤ ({ sTen ten0 with uploads := (List.range 65).map (· + 2) } : State).uploads.length ∧
      1 ∉ ({ sTen ten0 with uploads := (List.range 65).map (· + 2) } : State).uploads) ∧
    (65535 : Nat) < 65536 ∧
    (((sTen ten0).tenant 1).st = .active ∧ ((sTen { ten0 with pdecRun := 1 }).tenant 1).pdecRun = 1 ∧
      ((sTen {}).tenant 1).st = .free ∧ ((sTen { st := .disabled }).tenant 1).st = .disabled ∧
      (sTen { st := .disabled }).sharesBusy 1 = false ∧ (sTen { st := .disabled, offerSt := 1 }).sharesBusy 1 = true) ∧
    ((sTen ten0).shareBar 1 = none ∧ (sTen { ten0 with share := some {} }).shareBar 1 = some 0x58) ∧
    ((sTen { ten0 with pdecRun := 2 }).tenant 1).pdecRun = 2 ∧
    ((sTen ten0).entropyOk = true ∧ (sTen ten0).identityOk = true ∧ hasVkey ten0 = true ∧ hasVkey { ten0 with vkeyAlg := 0 } = false ∧
      (sTen ten0).shareUsable 1 = false ∧ (sPd 1).shareUsable 1 = true ∧
      64 ≤ ({ sTen ten0 with sec := { secUp with pdecQueue := List.replicate 64 2 } } : State).sec.pdecQueue.length) ∧
    (sTen ten0).sec.hmRun ≠ 1 := by
  refine ⟨?_, ?_, ⟨?_, ?_, ?_, ?_⟩, ?_, ⟨?_, ?_, ?_, ?_, ?_, ?_⟩, ⟨?_, ?_⟩, ?_, ⟨?_, ?_, ?_, ?_, ?_, ?_, ?_⟩, ?_⟩ <;> (try unfold Rising) <;>
    decide +kernel

/-- Streams: enabled, draining, disabled with a reason and without, in a live and a dead error. -/
theorem witness_TenantAndStreamRequestsAct_streams : Rising (sStrm str0).streams ∧ Heard (sStrm str0) .mctp 0x4810 1 true .cmd ∧
    ((sStrm str0).sel .mctp).str = 3 ∧ ((sStrm str0).stream 3).held = [] ∧
    (sStrm { tenant := 2 }).enableReason { tenant := 2 } ≠ 0 ∧
    (let y := { str0 with st := .disabled, tenant := 1 }
     ((sStrm y).stream 3).st = .disabled ∧ (sStrm y).enableReason y = 0) ∧
    (let y := { str0 with st := .error, tenant := 1, errLive := true }
     ((sStrm y).stream 3).errLive = true ∧ (sStrm y).enableReason y = 0) :=
  ⟨by unfold Rising; decide, ⟨by decide, by decide, by decide⟩, by decide, by decide, by decide, by decide, by decide⟩

/-- What one command leaves of a tenant or stream. -/
def tenAfter {α : Type} (c : Instr) (s : State) (f : State → α) : Option α := (nextOf (exec c s)).map f

theorem test_tenants : tenAfter (.keyLoad .mctp) (sTen ten0) (fun t => ((t.tenant 1).keyLoad, t.uploads)) = some (2, [1]) ∧
    tenAfter (.keyDrop .mctp 4) (keyed { tenant := 1, id := 4 }) (fun t => t.keys.length) = some 0 ∧
    tenAfter (.tenActivate .mctp) (sTen {}) (fun t => (t.tenant 1).st) = some .active ∧
    tenAfter (.tenDisable .mctp) (sTen { ten0 with pdecRun := 1 }) (fun t => ((t.tenant 1).st, (t.tenant 1).pdecReason)) = some (.disabled, 0x5C) ∧
    tenAfter (.tenClear .mctp) (sTen { st := .disabled, weight := 3 }) (fun t => ((t.tenant 1).st, (t.tenant 1).weight)) = some (.free, 16) ∧
    tenAfter (.shareOffer .mctp) (sTen ten0) (fun t => ((t.tenant 1).offerSt, t.sec.sigBusy)) = some (1, some (.offer 1)) ∧
    tenAfter (.shareSubmit .mctp) (sTen {}) (fun t => ((t.tenant 1).submitSt, (t.tenant 1).shareReason)) = some (3, 0x5C) ∧
    tenAfter (.shareWipe .mctp) (sTen { ten0 with share := some {}, pdecRun := 1 }) (fun t => ((t.tenant 1).share, (t.tenant 1).pdecReason)) =
      some (none, 0x58) ∧
    tenAfter (.pdecRun .mctp) (sTen ten0) (fun t => ((t.tenant 1).pdecRun, (t.tenant 1).pdecReason)) = some (4, 0x58) ∧
    tenAfter (.hmRun .mctp) (sTen ten0) (fun t => t.sec.hmRun) = some 1 := by
  refine ⟨?_, ?_, ?_, ?_, ?_, ?_, ?_, ?_, ?_, ?_⟩ <;> decide +kernel

theorem test_streams : tenAfter (.streamEnable .mctp) (sStrm { str0 with st := .disabled, tenant := 1 }) (fun t =>
      ((t.stream 3).st, (t.stream 3).committed, (t.stream 3).sqTail)) = some (.enabled, 6, 0) ∧
    tenAfter (.streamEnable .mctp) (sStrm { str0 with st := .disabled, tenant := 2 }) (fun t => ((t.stream 3).st, (t.stream 3).reason)) =
      some (.error, 1) ∧
    tenAfter (.streamDisable .mctp) (sStrm { str0 with inflight := 1 }) (fun t => (t.stream 3).st) = some .draining ∧
    tenAfter (.streamReset .mctp) (sStrm str0) (fun t => (t.stream 3).st) = some .disabled := by
  refine ⟨?_, ?_, ?_, ?_⟩ <;> decide +kernel

/-- A part in STANDBY for the entries that are written while disabled, and one that holds what the requests ask about. -/
def sOne (h : Health) : State := { sReady with hm := h }
def snap0 (q : Requester) : Snap := { holder := q, time := 4, lastRead := 5 }

theorem heard_ready (h : Health) (i k : Nat) (r : Right) (e : (i / 256 != 0xB3 && i / 256 != 0xC0) = true) :
    Heard (sOne h) .mctp i k true r := ⟨rfl, rfl, e⟩

theorem witness_PartRequestsAct : (leNat (leBytes 8 2000000000) % 1000000000 = 0 ∧ leNat (leBytes 8 7) % 1000000000 ≠ 0 ∧
      (leBytes 8 7).length = 8 ∧ sReady.en.on = false ∧ sReady.en.st ≠ 1 ∧ sReady.tm.pps ≠ .locked ∧
      ({ sReady with tm := { pps := .locked } } : State).tm.pps = .locked) ∧
    ((sLink { l0 with retrain := 1 }).link 3).retrain = 1 ∧ ((sLink l0).link 3).retrain ≠ 1 ∧
    (({ sReady with mem := { mrgRun := 1 } } : State).mem.mrgRun = 1 ∧ sReady.mem.mrgRun ≠ 1) ∧
    (Heard sFn q0 0xC000 1 true .cmd ∧ Heard sFn q0 0xB300 5 true .cmd ∧ snap0 .mctp ≠ snap0 q0 ∧
      (sFn.hostWrite fn0 0 sFn.dump.addr sFn.dumpBytes).isSome = true) ∧
    ((sOne { fenceHost := some 3 }).hm.fenceHost ≠ none ∧ (sOne {}).hm.fenceHost = none ∧ (sOne { retireHost := some 3 }).hm.retireHost ≠ none ∧
      ((sOne {}).die (511 / 64)).spares ≠ 0 ∧ ((sOne {}).die (511 / 64)).fenced = false) ∧ Rising (sOne {}).dies := by
  refine ⟨?_, ?_, ?_, ?_, ⟨⟨?_, ?_, ?_⟩, ⟨?_, ?_, ?_⟩, ?_, ?_⟩, ?_, ?_⟩ <;> (try unfold Rising) <;> decide +kernel

theorem test_part_requests :
    tenAfter (.timeSet .mctp (leBytes 8 2000000000)) sReady (fun t => t.tm.now) = some 2000000000 ∧
    tenAfter (.linkRetrain .mctp 3) (sLink l0) (fun t => ((t.link 3).st, (t.link 3).retrain)) = some (.training, 1) ∧
    tenAfter (.mrgRun .mctp) sReady (fun t => t.mem.mrgRun) = some 1 ∧
    tenAfter (.marginSweepDone [0xFFFFFFFF]) { sReady with mem := { mrgRun := 1 } } (fun t => (t.mem.mrgRun, t.mem.mrgResult.take 2)) =
      some (2, [0xFFFF, 0]) ∧
    tenAfter (.mirrorSnapTake q0) sFn (fun t => t.snap.map (·.holder)) = some (some q0) ∧
    tenAfter .snapshotExpiry { sFn with snap := some (snap0 q0) } (fun t => (t.snap, t.tm.now)) = some (none, 10000000005) ∧
    tenAfter (.fenceDie .mctp 3) (sOne {}) (fun t => (t.hm.fenceSt, t.hm.fenceHost)) = some (1, some 3) ∧
    tenAfter (.retireArray .mctp 511) (sOne {}) (fun t => ((t.die 7).retireReq, t.hm.retireSt)) = some ([63], 1) ∧
    tenAfter (.evtAck .mctp 9) (sOne { evts := [{ seq := 9, code := 0x10, sev := 3 }] }) (fun t => t.hm.evts.map (·.ack)) = some [true] := by
  refine ⟨?_, ?_, ?_, ?_, ?_, ?_, ?_, ?_, ?_⟩ <;> decide +kernel

theorem witness_ReadsAnswerAndRestart : TablesRising sFn ∧ Rising sFn.slotStats ∧ Heard sFn q0 0xC010 4 false .ro ∧
    Heard sFn q0 0x3740 9 false .ro ∧ Heard sFn q0 0x5020 5 false .ro ∧ Heard sFn q0 0x7000 16 false .ro ∧ Heard sFn q0 0x3F00 3 false .ro ∧
    ((sPart .boot).answers .mctp = true ∧ (sPart .safe).pw.part = .safe) := by
  refine ⟨⟨?_, ?_, ?_, ?_, ?_, ?_, ?_, ?_, ?_⟩, ?_, ⟨?_, ?_, ?_⟩, ⟨?_, ?_, ?_⟩, ⟨?_, ?_, ?_⟩, ⟨?_, ?_, ?_⟩, ⟨?_, ?_, ?_⟩, ?_⟩ <;> (try unfold Rising) <;>
    decide

theorem test_marks : tenAfter (.dieTempMaxRead .mctp 2) { s0 with dies := [(2, { temp := 40, tempMax := 90 })] } (fun t =>
      ((t.die 2).tempMax, t.out)) = some (40, [.response .mctp 0 0x3200 3 (leBytes 4 90)]) ∧
    tenAfter (.domainSkewNsRead .mctp) { s0 with tm := { skew := 7 } } (fun t => (t.tm.skew, t.out)) =
      some (0, [.response .mctp 0 0x7000 16 (leBytes 4 7)]) ∧
    tenAfter (.loftLandHwmRead .mctp 0) (withArr { arr0 with cnt := { landHwm := 9 } }) (fun t => ((t.arr a0).cnt.landHwm, t.out)) =
      some (0, [.response .mctp 0 0x3040 9 (leBytes 4 9)]) ∧
    tenAfter (.slotDelayMaxRead .mctp) s0 (fun t => t.out) = some [.response .mctp 0 0x5020 5 (leBytes 4 0)] ∧
    tenAfter (.mirrorBlockRead q0 1) sFn (fun t => (t.sel q0).mirFirst) = some 64 := by refine ⟨?_, ?_, ?_, ?_, ?_⟩ <;> decide +kernel

/-- A fragment of a write by MCTP, and a management message for package 12 and for this one. -/
def frag (n : Nat) (v : List Byte) : MctpMsg := { op := 2, tag := 3, index := 0x4010, sub := 3, frag := n, value := v }
def sFrag : State := { s0 with dom := { frags := [{ who := .mctp, tag := 3, index := 0x4010, sub := 3, got := [], next := 1 }] } }
def mg (dst : Nat) : MgmtMsg := { dst := dst, src := 12, status := 0, tag := 1, index := 0x1000, sub := 5, frag := 0, value := [] }

theorem witness_MessagesReachTheDictionary : (fn0.wf = true ∧ Rising sFn.fns ∧ sFn.answers q0 = true ∧ s0.answers q0 = false ∧ s0.pw.part ≠ .off) ∧
    (s0.fragRun? .mctp 3 = none ∧ (sFrag.fragRun? .mctp 3).isSome = true ∧ (frag 0 (List.replicate 1024 1)).value.length = 1024 ∧
      (frag 1 [7]).frag = 1 % 256 ∧ (frag 2 []).frag ≠ 1 % 256 ∧ ∀ p j, Requester.mctp ≠ .remote p j) ∧
    Accepted sl rx0 ∧ ((mg 12).dst ≠ sl.dom.pkgAddr ∧ (mg 9).dst = sl.dom.pkgAddr) ∧
    ((sl.takeFrame rx0).mgmtLink 12 = some 3 ∧ (sl.takeFrame rx0).mgmtLink 44 = none ∧ ((sl.takeFrame rx0).link 3).session = true ∧
      ((sl.takeFrame rx0).link 3).replay.length < 1024) ∧
    (((sl.takeFrame rx0).dictRead (.remote 12 3) 0x1000 5).2.1.length < 224) :=
  ⟨⟨by decide, by unfold Rising; decide, by decide, by decide, by decide⟩,
    ⟨by decide, by decide, by decide +kernel, by decide, by decide, fun _ _ h => nomatch h⟩, accepted0, by decide, by decide, by decide +kernel⟩

theorem test_messages : tenAfter (.mailboxGo fn0 (mbox 1 0x4010 3 [])) sFn (fun t => ((t.fn fn0).status, (t.fn fn0).value)) = some (0, [16]) ∧
    tenAfter (.mailboxGo fn0 (mbox 2 0x4010 3 [0])) sFn (fun t => (t.fn fn0).status) = some 3 ∧
    tenAfter (.mctpDictionaryMessage (frag 1 [7])) sFrag (fun t => ((t.tenant 1).weight, t.out)) =
      some (7, [.response .mctp 0 0x4010 3 []]) ∧
    tenAfter (.fragmentTimeout .mctp 3) sFrag (fun t => (t.dom.frags.length, t.out)) = some (0, [.response .mctp 3 0x4010 3 []]) ∧
    tenAfter (.entdaa 0x7E) s0 (fun t => t.mctp.dynAddr) = some s0.mctp.dynAddr ∧
    tenAfter (.setEndpointId 9) s0 (fun t => (t.mctp.eid, t.out)) = some (9, [.mctp 1 [0, 0, 9, 0]]) ∧
    tenAfter .getMessageTypeSupport s0 (fun t => t.out) = some [.mctp 5 [0, 1, 0x7F]] ∧
    tenAfter (.mgmtRead rx0 (mg 12)) sl (fun t => t.out.length) = some 1 ∧
    tenAfter (.mgmtTimeout 3) s0 (fun t => t.dom.mgmtTimeouts) = some 1 := by
  refine ⟨?_, ?_, ?_, ?_, ?_, ?_, ?_, ?_, ?_⟩ <;> decide +kernel

/-- A step that moves the part, and one that keeps it; fuses that are burnt stay. -/
theorem witness_PartStatesAndFusesMoveOnlyAsListed : (nextOf (exec .thermtripN s0)).isSome = true ∧ s0.pw.part = .enabled ∧
    ((nextOf (exec .thermtripN s0)).map fun t => t.pw.part) = some .safe ∧ (nextOf (exec (.idle rx0) s0)).isSome = true ∧
    ((nextOf (exec (.resetCmdCold .mctp { env0 with fwA := {}, fwB := {} }) s0)).map fun t => (t.pw.part, t.pw.stage)) =
      some (.boot, 0xF) ∧ (sHm { fuses := [0x80] }).hm.fuses.getD 0 0 ≠ 0 := by
  refine ⟨?_, ?_, ?_, ?_, ?_, ?_⟩ <;> decide +kernel

theorem witness_EveryCommandKeepsItsFrame : (nextOf (exec (.nop cc0) s0)).isSome = true ∧ Rising s0.arrs ∧
    Field.gran ∉ mayWrite (.nop cc0) ∧ Field.hostMem ∉ mayWrite (.cellMadd (cellW 2)) := by
  refine ⟨?_, ?_, ?_, ?_⟩ <;> (try unfold Rising) <;> decide +kernel

end Sys2Proof.Tests
end

section
/-! Proofs about FP32 and BF16. A finite positive encoding and its opposite decode to one magnitude with the two signs, so
their exact sum is zero and its sign is the one that R179 gives to the rounding mode. -/

namespace Sys2Proof.Machine

/-! ## Decoding of finite operands -/

/-- The model's reading of a bit is the library's. -/
theorem bit_eq_testBit (v n : Nat) : bit v n = v.testBit n := Nat.testBit_eq_decide_div_mod_eq.symm

/-- Adding the sign bit's weight decodes to the opposite operand: only the sign bit changes. -/
theorem fDecode_add_sign (fr : Nat) (ftz : Bool) (v : Nat) :
    fDecode fr ftz (v + 2 ^ (fr + 8)) = (fDecode fr ftz v).neg := by
  have hsign : bit (v + 2 ^ (fr + 8)) (fr + 8) = !bit v (fr + 8) := by
    rw [bit_eq_testBit, bit_eq_testBit, add_comm, Nat.testBit_two_pow_add_eq]
  have hquiet : bit (v + 2 ^ (fr + 8)) (fr - 1) = bit v (fr - 1) := by
    rw [bit_eq_testBit, bit_eq_testBit, add_comm, Nat.testBit_two_pow_add_gt (by omega)]
  have hfrac : (v + 2 ^ (fr + 8)) % 2 ^ fr = v % 2 ^ fr := by
    rw [pow_add, Nat.add_mul_mod_self_left]
  have hexp : bits (v + 2 ^ (fr + 8)) (fr + 7) fr = bits v (fr + 7) fr := by
    rw [bits, bits, pow_add, Nat.add_mul_div_left _ _ (Nat.two_pow_pos fr), show fr + 7 + 1 - fr = 8 by omega,
      Nat.add_mod_right]
  simp only [fDecode, hsign, hquiet, hfrac, hexp]
  split_ifs <;> rfl

/-- An encoding below the infinity is positive and finite, and its exponent field is its quotient by 2^fr. -/
theorem fDecode_of_lt_inf {fr v : Nat} (ftz : Bool) (hv : v < 255 * 2 ^ fr) :
    fDecode fr ftz v =
      if v / 2 ^ fr = 0 then (if ftz then .fin false 0 0 else .fin false (v % 2 ^ fr) (-126 - fr))
      else .fin false (v % 2 ^ fr + 2 ^ fr) ((v / 2 ^ fr : Nat) - 127 - fr) := by
  have hq : v / 2 ^ fr < 255 := Nat.div_lt_of_lt_mul (by rwa [mul_comm])
  have hexp : bits v (fr + 7) fr = v / 2 ^ fr := by
    rw [bits, show fr + 7 + 1 - fr = 8 by omega, Nat.mod_eq_of_lt (by omega)]
  have hsign : bit v (fr + 8) = false := by
    rw [bit_eq_testBit, Nat.testBit_lt_two_pow (by rw [pow_add]; omega)]
  simp only [fDecode, hexp, hsign, if_neg hq.ne]

theorem exists_fDecode_eq_fin {fr v : Nat} (ftz : Bool) (hv : v < 255 * 2 ^ fr) :
    ∃ k e, fDecode fr ftz v = .fin false k e := by
  rw [fDecode_of_lt_inf ftz hv]
  split_ifs <;> exact ⟨_, _, rfl⟩

/-- Under FTZ a positive subnormal encoding reads as +0 (R177). -/
theorem fDecode_ftz_subnormal {fr v : Nat} (hv : v < 2 ^ fr) : fDecode fr true v = .fin false 0 0 := by
  rw [fDecode_of_lt_inf true (by omega), if_pos (Nat.div_eq_of_lt hv), if_pos rfl]

/-- The encoding of 1. -/
theorem fDecode_one (fr : Nat) (ftz : Bool) : fDecode fr ftz (127 * 2 ^ fr) = .fin false (2 ^ fr) (-fr) := by
  have hpos : 0 < 2 ^ fr := Nat.two_pow_pos fr
  rw [fDecode_of_lt_inf ftz (by omega), Nat.mul_div_cancel _ hpos, Nat.mul_mod_left]
  simp

/-! ## Exact zero sums -/

/-- One magnitude with the two signs, also when the first operand writes it with an exponent lower by d, sums to zero. -/
theorem exactSum_opposite (n : Bool) (k d : Nat) (e : Int) : (exactSum n (k * 2 ^ d) (e - d) (!n) k e).1 = 0 := by
  cases n <;> simp [exactSum]

/-- An exact zero sum of operands of opposite sign takes the sign of the rounding mode (R179). -/
theorem fSum_opposite_signs (fr rm : Nat) (ftz n : Bool) {m1 m2 : Nat} {e1 e2 : Int}
    (hzero : (exactSum n m1 e1 (!n) m2 e2).1 = 0) :
    fSum fr rm ftz (.fin n m1 e1) (.fin (!n) m2 e2) = (fZero fr (rm == 2), 0) := by
  simp [fSum, hzero]

theorem fSum_opposite (fr rm : Nat) (ftz n : Bool) (k : Nat) (e : Int) :
    fSum fr rm ftz (.fin n k e) (.fin (!n) k e) = (fZero fr (rm == 2), 0) :=
  fSum_opposite_signs fr rm ftz n (by simpa using exactSum_opposite n k 0 e)

/-- FMA of an operand, 1 and the operand's opposite: the exact product is the operand itself. -/
theorem fFma_one_opposite {fr rm a c : Nat} {ftz n : Bool} {k : Nat} {e : Int} (ha : fDecode fr ftz a = .fin n k e)
    (hc : fDecode fr ftz c = .fin (!n) k e) :
    fFma fr rm ftz a (127 * 2 ^ fr) c = (fZero fr (rm == 2), 0) := by
  have hfma : fFma fr rm ftz a (127 * 2 ^ fr) c = fSum fr rm ftz (.fin n (k * 2 ^ fr) (e - fr)) (.fin (!n) k e) := by
    simp [fFma, ha, hc, fDecode_one, FVal.signalling, FVal.isNaN, sub_eq_add_neg]
  rw [hfma, fSum_opposite_signs fr rm ftz n (exactSum_opposite n k fr e)]

/-- The zero of the rounding mode's sign, as an encoding. -/
theorem fZero_mode (fr rm : Nat) : fZero fr (rm == 2) = if rm = 2 then 2 ^ (fr + 8) else 0 := by
  by_cases h : rm = 2 <;> simp [fZero, fSignW, b2n, h]

/-- Settles O15: the operands decode to one magnitude with the two signs, and 1 times an operand is the operand. -/
theorem exactZeroSumsTakeTheirSign : Obligations.ExactZeroSumsTakeTheirSign := by
  intro fr _ rm ftz m _ hm
  obtain ⟨k, e, hpos⟩ := exists_fDecode_eq_fin ftz hm
  have hneg : fDecode fr ftz (m + 2 ^ (fr + 8)) = .fin true k e := by rw [fDecode_add_sign, hpos, FVal.neg, Bool.not_false]
  have hpn (k e) : fSum fr rm ftz (.fin false k e) (.fin true k e) = (fZero fr (rm == 2), 0) :=
    fSum_opposite fr rm ftz false k e
  have hnp (k e) : fSum fr rm ftz (.fin true k e) (.fin false k e) = (fZero fr (rm == 2), 0) :=
    fSum_opposite fr rm ftz true k e
  simp only [← fZero_mode]
  refine ⟨?_, ?_, ?_, ?_, ?_, ?_, ?_⟩
  · rw [fAdd, hpos, hneg, hpn]
  · rw [fAdd, hpos, hneg, hnp]
  · rw [fSub, hpos, FVal.neg, Bool.not_false, hpn]
  · rw [fSub, hneg, FVal.neg, Bool.not_true, hnp]
  · rw [fFma_one_opposite hpos hneg]
  · rw [fFma_one_opposite hneg hpos]
  · rintro rfl hsub n hn
    have hn0 := fDecode_ftz_subnormal hn
    have hneg0 : fDecode fr true (m + 2 ^ (fr + 8)) = .fin true 0 0 := by
      rw [fDecode_add_sign, fDecode_ftz_subnormal hsub, FVal.neg, Bool.not_false]
    exact ⟨by rw [fAdd, hn0, hneg0, hpn], by rw [fAdd, hn0, hneg0, hnp]⟩

end Sys2Proof.Machine
end

section
/-! Proofs about the requests of the control core. A word that issues is its own meaning applied to the state it finds, so
each of DMAQ and REQ has one equation per outcome; without detected errors the corrections in between change nothing. -/

namespace Sys2Proof.Machine

open Sys2Proof.Stated

/-! ## Words that issue -/

/-- In a slot that runs, and on a core that goes on, the frame of an access-stream word is its function. -/
theorem coreStep_of_goes {s : State} {c : CcWord} {r : SlotRun} (h : CoreGoes s c r) (f : SlotRun → Bool → State → State) :
    s.coreStep c f = f r (predTrue (coreOf s c) c) s := by
  obtain ⟨hrun, -, hlive, ⟨hended, hstall⟩, hclean⟩ := h
  simp [State.coreStep, hrun, hlive, hended, hstall, hclean, coreOf]

/-- A well-formed word that issues answers what its function gives. -/
theorem runCore_of_goes {s : State} {c : CcWord} {r : SlotRun} {ok : Bool} (harr : c.arr.wf = true) (hok : ok = true)
    (h : CoreGoes s c r) (f : SlotRun → Bool → State → State) :
    runCore ok c s (s.coreStep c f) = .next (f r (predTrue (coreOf s c) c) s) :=
  (runCore_next ..).2 ⟨harr, hok, by simp [h.run, h.job], coreStep_of_goes h f⟩

/-! ## Words without detected errors -/

theorem coreCorrected_of_no_dets {c : CcWord} (hd : c.dets = []) (s : State) (h off : Nat) : s.coreCorrected c h off = s := by
  simp [State.coreCorrected, hd]

theorem loftBad_of_no_dets {c : CcWord} (hd : c.dets = []) : loftBad c = none := by simp [loftBad, hd]

/-! ## DMAQ (R216, R220) -/

section
variable {s : State} {c : CcWord} {r : SlotRun} (hf : c.fields false true false true true = true) (hg : CoreGoes s c r)
  (hp : predTrue (coreOf s c) c = true)
include hf hg hp

/-- A DMAQ that finds 256 descriptors in the list of its die's DMA goes on to the next word and stalls there. -/
theorem exec_dmaq_full (hfull : 256 ≤ (s.die c.arr.die).descs.length) :
    exec (.dmaq c) s = .next ((s.modArr c.arr nextPc).modCore c.arr fun k =>
      { k with stall := some (.dmaFull c.x.toNat (coreOff (coreOf s c) c)) }) := by
  have hdma : s.dmaFull c.arr.die = true := decide_eq_true hfull
  refine (runCore_of_goes (Laws.Places.fields_arr hf) hf hg _).trans ?_
  simp only [hp, hdma]
  rfl

/-- A DMAQ that finds room leaves its descriptor with the die DMA and goes on. -/
theorem exec_dmaq_accepted {u : State} (hd : c.dets = []) (hroom : (s.die c.arr.die).descs.length < 256)
    (hu : s.acceptDesc c.arr r c.x.toNat (coreOff (coreOf s c) c) = .ok u) :
    exec (.dmaq c) s = .next (u.modArr c.arr nextPc) := by
  have hdma : s.dmaFull c.arr.die = false := decide_eq_false hroom.not_ge
  rw [coreOf] at hu
  refine (runCore_of_goes (Laws.Places.fields_arr hf) hf hg _).trans ?_
  simp [hp, hdma, hu, loftBad_of_no_dets hd, coreCorrected_of_no_dets hd]

end

/-! ## REQ (R221) -/

/-- The 32 bytes that a REQ names. -/
def reqBytes (s : State) (c : CcWord) : List Byte :=
  loftRead (s.arr c.arr) (handleOf (s.arr c.arr) c.x.toNat) (coreOff (coreOf s c) c) 32

/-- The image keeps the table of R221, its reserved bytes 7 and 28..31 included. -/
def keepsR221 (bs : List Byte) (a : ArrId) : Bool := unitReqOk (unitReqOf bs a) (field bs 7 1 + field bs 28 4)

/-- The request that a unit's list takes: the image's, numbered `n`, for the slot, epoch and job of the run. -/
def queuedReq (bs : List Byte) (a : ArrId) (r : SlotRun) (n : Nat) : UnitReq :=
  { unitReqOf bs a with
    n := n, slot := r.slot, epoch := r.epoch, job := (r.jobs.find? fun e => e.1 == (unitReqOf bs a).bpos).map (·.2) }

/-- The place that a REQ names is 32 bytes of the array's own loft, aligned and within the handle. -/
structure ReqReads (s : State) (c : CcWord) : Prop where
  kind : (handleOf (s.arr c.arr) c.x.toNat).kind = 1
  aligned : coreOff (coreOf s c) c % 32 = 0
  inside : coreOff (coreOf s c) c + 32 ≤ (handleOf (s.arr c.arr) c.x.toNat).length.toNat

/-- The units of the array's die take a request, and the core goes on. -/
def State.passReq (s : State) (a : ArrId) (q : UnitReq) : State :=
  (s.modDie a.die fun d => { d with unitSeq := q.n + 1, units := d.units ++ [q] }).modArr a fun x =>
    nextPc { x with reqs := x.reqs ++ [.unit q.n] }

/-- A REQ that reads its request passes it to the units of the die, or faults where it breaks R221. -/
theorem exec_req {s : State} {c : CcWord} {r : SlotRun} (hf : c.fields false true false true true = true)
    (hg : CoreGoes s c r) (hp : predTrue (coreOf s c) c = true) (hd : c.dets = []) (hr : ReqReads s c) :
    exec (.req c) s = .next (
      if keepsR221 (reqBytes s c) c.arr then
        s.passReq c.arr (queuedReq (reqBytes s c) c.arr r (s.die c.arr.die).unitSeq)
      else s.coreFail c.arr 7 5) := by
  obtain ⟨hkind, haligned, hinside⟩ := hr
  refine (runCore_of_goes (Laws.Places.fields_arr hf) hf hg _).trans ?_
  cases hk : keepsR221 (reqBytes s c) c.arr
  all_goals
    simp only [keepsR221, reqBytes, coreOf] at hk haligned hinside
    simp only [hp, hkind, haligned, hinside.not_gt, loftBad_of_no_dets hd, coreCorrected_of_no_dets hd, hk]
    rfl

/-- Settles O22: a DMAQ stalls at a full list and else passes its descriptor; a REQ passes its request or faults. -/
theorem coreRequestsReachTheirUnits : Obligations.CoreRequestsReachTheirUnits := by
  refine ⟨fun s u c r hf hg hd hp => ⟨exec_dmaq_full hf hg hp, exec_dmaq_accepted hf hg hp hd⟩, ?_⟩
  intro s c r hf hg hd hp off e bs n hkind haligned hinside
  have hexec := exec_req hf hg hp hd ⟨hkind, haligned, hinside⟩
  refine ⟨fun hkeeps => ⟨queuedReq bs c.arr r n, rfl, rfl, rfl, rfl, ?_⟩, fun hbreaks => ?_⟩
  · exact hexec.trans (congrArg _ (if_pos hkeeps))
  · exact hexec.trans (congrArg _ (if_neg (ne_true_of_eq_false hbreaks)))

end Sys2Proof.Machine
end

section
/-! Proofs about the incarnations of jobs. Deciding a descriptor changes the in-flight table through records, domain messages
and admissions only: none of them changes a job's incarnation, and the job that it enters is at incarnation 0. -/

namespace Sys2Proof.Machine

/-! ## Operations that leave the in-flight table alone -/

@[simp] theorem State.freeKey_jobs (s : State) (k : Key) : (s.freeKey k).jobs = s.jobs := rfl
@[simp] theorem State.noRoute_jobs (s : State) (j : Nat) : (s.noRoute j).jobs = s.jobs := rfl
@[simp] theorem State.noteReady_jobs (s : State) (p i prog tenant : Nat) : (s.noteReady p i prog tenant).jobs = s.jobs := rfl

/-- A loop whose every turn leaves the table alone leaves it alone. -/
theorem foldl_jobs {α : Type} {f : State → α → State} (h : ∀ s x, (f s x).jobs = s.jobs) (l : List α) (s : State) :
    (l.foldl f s).jobs = s.jobs :=
  List.foldlRecOn l f (motive := fun t => t.jobs = s.jobs) rfl fun t ht x _ => (h t x).trans ht

theorem hostWrite_jobs {s t : State} {f : FnId} {p : BitVec 32} {a : Nat} {bs : List Byte}
    (h : s.hostWrite f p a bs = some t) : t.jobs = s.jobs := by
  rcases hostWrite_cases s f p a bs with h' | h' <;> rw [h'] at h
  · simp at h
  · rw [← Option.some.inj h]

@[simp] theorem State.raiseMsix_jobs (s : State) (f : FnId) (v : Nat) : (s.raiseMsix f v).jobs = s.jobs := by
  simp only [State.raiseMsix]
  split <;> rfl

@[simp] theorem State.streamIrq_jobs (s : State) (n : Nat) : (s.streamIrq n).jobs = s.jobs := by
  simp only [State.streamIrq]
  split_ifs <;> simp

@[simp] theorem State.writeStatus_jobs (s : State) (n : Nat) : (s.writeStatus n).jobs = s.jobs := by
  simp only [State.writeStatus]
  split
  · next h => exact hostWrite_jobs h
  · rfl

@[simp] theorem State.settle_jobs (s : State) (n : Nat) : (s.settle n).jobs = s.jobs := by
  have hdrain : (s.drainCheck n).jobs = s.jobs := by
    simp only [State.drainCheck]
    split <;> rfl
  exact (foldl_jobs State.freeKey_jobs _ _).trans hdrain

@[simp] theorem State.queueInstalls_jobs (s : State) (j : Job) : (s.queueInstalls j).jobs = s.jobs := by
  simp only [State.queueInstalls]
  split
  · refine foldl_jobs (fun u i => ?_) _ _
    split
    · split <;> rfl
    · rfl
  · rfl

@[simp] theorem State.txFrame_jobs (s : State) (j chan : Nat) (f : FrameOut) : (s.txFrame j chan f).jobs = s.jobs := by
  simp only [State.txFrame]
  split_ifs <;> rfl

@[simp] theorem State.sendDctl_jobs (s : State) (dst subtype : Nat) (fields : List Nat) :
    (s.sendDctl dst subtype fields).jobs = s.jobs := by
  simp only [State.sendDctl]
  split
  · split <;> simp
  · rfl

@[simp] theorem State.sendMembers_jobs (s : State) (subtype : Nat) (fields : List Nat) :
    (s.sendMembers subtype fields).jobs = s.jobs :=
  foldl_jobs (fun u p => u.sendDctl_jobs p subtype fields) _ _

@[simp] theorem State.tellReady_jobs (s : State) (j : Job) : (s.tellReady j).jobs = s.jobs := by
  simp only [State.tellReady]
  split_ifs <;> simp

/-! ## Operations that keep incarnations -/

/-- Every job of `t` is at incarnation 0, or `s` holds its entry at the same incarnation. -/
def IncsKept (s t : State) : Prop := ∀ j ∈ t.jobs, j.inc = 0 ∨ ∃ k ∈ s.jobs, k.idx = j.idx ∧ k.inc = j.inc

theorem IncsKept.of_jobs_subset {s t : State} (h : t.jobs ⊆ s.jobs) : IncsKept s t :=
  fun j hj => .inr ⟨j, h hj, rfl, rfl⟩

theorem IncsKept.of_jobs_eq {s t : State} (h : t.jobs = s.jobs) : IncsKept s t := .of_jobs_subset (h ▸ List.Subset.refl _)

theorem IncsKept.trans {s t u : State} (hst : IncsKept s t) (htu : IncsKept t u) : IncsKept s u := by
  intro j hj
  rcases htu j hj with hj0 | ⟨k, hk, hidx, hinc⟩
  · exact .inl hj0
  · rcases hst k hk with hk0 | ⟨i, hi, hidx', hinc'⟩
    · exact .inl (hinc ▸ hk0)
    · exact .inr ⟨i, hi, hidx'.trans hidx, hinc'.trans hinc⟩

/-- An operation that keeps incarnations, applied to a state with the table of `s`. -/
theorem IncsKept.after {s t u : State} (htu : IncsKept t u) (h : t.jobs = s.jobs) : IncsKept s u :=
  (IncsKept.of_jobs_eq h).trans htu

/-- A job that enters the table at incarnation 0. -/
theorem IncsKept.of_append {s t : State} {j : Job} (h : t.jobs = s.jobs ++ [j]) (hj : j.inc = 0) : IncsKept s t := by
  intro k hk
  rw [h, List.mem_append, List.mem_singleton] at hk
  rcases hk with hk | rfl
  · exact .inr ⟨k, hk, rfl, rfl⟩
  · exact .inl hj

theorem incsKept_modJob (s : State) (i : Nat) {f : Job → Job} (h : ∀ j, (f j).idx = j.idx ∧ (f j).inc = j.inc) :
    IncsKept s (s.modJob i f) := by
  intro j hj
  obtain ⟨k, hk, rfl⟩ := List.mem_map.1 hj
  refine .inr ⟨k, hk, ?_⟩
  split
  · exact ⟨(h k).1.symm, (h k).2.symm⟩
  · exact ⟨rfl, rfl⟩

/-! ### Records -/

/-- A record removes at most the entry of the job that it completes. -/
theorem incsKept_recordEffect (s : State) (n : Nat) (r : CRec) : IncsKept s (s.recordEffect n r) := by
  simp only [State.recordEffect]
  split_ifs
  · exact .of_jobs_subset (List.filter_subset_self _)
  all_goals exact .of_jobs_eq rfl

/-- A record's effect and the status block after it. -/
theorem incsKept_recorded (s : State) (n : Nat) (x : Stream) (r : CRec) :
    IncsKept s (((s.setStream n x).recordEffect n r).writeStatus n) :=
  ((incsKept_recordEffect (s.setStream n x) n r).after rfl).trans (.of_jobs_eq (State.writeStatus_jobs _ _))

theorem incsKept_putRecord (s : State) (n : Nat) (r : CRec) : IncsKept s (s.putRecord n r) := by
  simp only [State.putRecord]
  split
  · exact .of_jobs_eq rfl
  · next u hu =>
    refine IncsKept.after (t := u) ?_ (hostWrite_jobs hu)
    split
    · exact (incsKept_recorded u n _ r).trans (.of_jobs_eq (State.streamIrq_jobs _ _))
    · exact incsKept_recorded u n _ r

theorem incsKept_flushRecords (s : State) (n fuel : Nat) : IncsKept s (s.flushRecords n fuel) := by
  induction fuel generalizing s with
  | zero => exact .of_jobs_eq rfl
  | succ k ih =>
    simp only [State.flushRecords]
    split
    · exact .of_jobs_eq rfl
    · split
      · exact .of_jobs_eq rfl
      · exact ((incsKept_putRecord _ n _).trans (ih _)).after rfl

theorem incsKept_addRecord (s : State) (n : Nat) (r : CRec) : IncsKept s (s.addRecord n r) :=
  (incsKept_flushRecords _ n _).after rfl

/-! ### Admissions and refusals -/

theorem incsKept_admitJob (s : State) (i : Nat) : IncsKept s (s.admitJob i) := by
  have hmod : IncsKept s (s.nextOrder.2.modJob i fun j => { j with st := .queued, order := 2 ^ 62 + s.nextOrder.1 }) :=
    incsKept_modJob s.nextOrder.2 i fun _ => ⟨rfl, rfl⟩
  simp only [State.admitJob]
  split
  · exact hmod.trans (.of_jobs_eq (State.queueInstalls_jobs _ _))
  · exact hmod

/-- A RECEIPT and the admission that follows it. -/
theorem incsKept_receipt (s : State) (n i : Nat) (r : CRec) : IncsKept s ((s.addRecord n r).admitJob i) :=
  (incsKept_addRecord s n r).trans (incsKept_admitJob _ i)

theorem incsKept_admitDomain (s : State) (jobId aseq : Nat) : IncsKept s (s.admitDomain jobId aseq) := by
  simp only [State.admitDomain]
  split
  · exact .of_jobs_eq rfl
  · next j _ =>
    refine (IncsKept.trans ?_ (incsKept_receipt _ _ _ _)).trans (.of_jobs_eq (State.settle_jobs _ _))
    exact incsKept_modJob s j.idx fun k => ⟨rfl, rfl⟩

theorem incsKept_leadCheck (s : State) (jobId : Nat) : IncsKept s (s.leadCheck jobId) := by
  simp only [State.leadCheck]
  split
  · exact .of_jobs_eq rfl
  · split_ifs
    · exact (incsKept_admitDomain _ _ _).after (State.sendMembers_jobs _ _ _)
    · exact .of_jobs_eq rfl

theorem incsKept_refuseDomain (s : State) (jobId : Nat) : IncsKept s (s.refuseDomain jobId) := by
  simp only [State.refuseDomain]
  split
  · exact .of_jobs_eq rfl
  · refine (IncsKept.trans ?_ (incsKept_addRecord _ _ _)).trans (.of_jobs_eq (State.settle_jobs _ _))
    exact .of_jobs_subset (List.filter_subset_self _)

theorem incsKept_tellRefuse (s : State) (jobId code : Nat) : IncsKept s (s.tellRefuse jobId code) := by
  simp only [State.tellRefuse, State.leadRefuse]
  split_ifs
  · exact .of_jobs_eq rfl
  · exact (incsKept_refuseDomain _ _).after (State.sendMembers_jobs _ _ _)
  · exact .of_jobs_eq (State.sendDctl_jobs _ _ _ _)
  · exact .of_jobs_eq rfl

/-! ## Deciding a descriptor (R403..R405) -/

/-- The job of a descriptor that passes enters the table at incarnation 0, whether admitted or PENDING. -/
theorem incsKept_acceptJob (s : State) (n : Nat) (d : JobDesc) (bufs : List (Nat × Nat)) (keys : List Nat) :
    IncsKept s (s.acceptJob n d bufs keys) := by
  simp only [State.acceptJob]
  split
  · exact (IncsKept.of_append (State.tellReady_jobs _ _) rfl).trans (incsKept_leadCheck _ _)
  · exact (IncsKept.of_append rfl rfl).trans (incsKept_receipt _ _ _ _)

theorem incsKept_refuseDesc (s : State) (n : Nat) (d : JobDesc) (code detail : Nat) :
    IncsKept s (s.refuseDesc n d code detail) := by
  simp only [State.refuseDesc]
  refine IncsKept.trans ?_ (incsKept_addRecord _ _ _)
  split
  · exact (incsKept_tellRefuse _ _ _).after rfl
  · exact .of_jobs_eq rfl

theorem incsKept_readDesc (s : State) (n : Nat) : IncsKept s (s.readDesc n) := by
  simp only [State.readDesc]
  split
  · exact .of_jobs_eq rfl
  · split
    · split
      · exact (incsKept_refuseDesc _ _ _ _ _).after rfl
      · exact (incsKept_acceptJob _ _ _ _ _).after rfl
    · exact (incsKept_refuseDesc _ _ _ _ _).after rfl

/-- Deciding a descriptor changes no incarnation. -/
theorem incsKept_descriptorDecide {s t : State} {n : Nat} (h : exec (.descriptorDecide n) s = .next t) : IncsKept s t := by
  obtain ⟨-, h⟩ := (need_next ..).1 h
  obtain ⟨-, h⟩ := (arises_next ..).1 h
  obtain rfl := Host.Outcome.next.inj h
  split_ifs
  · exact .of_jobs_eq rfl
  · exact .of_jobs_eq rfl
  · exact .of_jobs_eq rfl
  · exact (incsKept_readDesc s n).trans (.of_jobs_eq (State.settle_jobs _ _))

/-! ## The return of a job (R317, R414) -/

/-- A job reads as it was changed, where the change keeps its entry. -/
theorem job?_modJob {s : State} {i : Nat} {j : Job} {f : Job → Job} (hj : s.job? i = some j)
    (hidx : ∀ j, (f j).idx = j.idx) : (s.modJob i f).job? i = some (f j) := by
  have hkey : ((fun j => j.idx == i) ∘ fun j => if j.idx == i then f j else j) = fun j => j.idx == i := by
    funext j
    by_cases h : j.idx = i <;> simp [h, hidx]
  have hji : j.idx = i := by simpa using List.find?_some hj
  rw [State.job?] at hj ⊢
  rw [State.modJob_jobs, List.find?_map, hkey, hj]
  simp [hji]

section
variable {s : State} {i : Nat} {j : Job} (hj : s.job? i = some j) (hst : j.st ≠ .finished)
include hj hst

/-- At incarnation 63 a job completes with RETRY_LIMIT. -/
theorem returnJob_at_limit (hinc : 63 ≤ j.inc) (later : Bool) :
    ∃ k, (s.returnJob i later).job? i = some k ∧ k.st = .finished ∧ k.result = some (0x08, 0, j.inc) := by
  have hlimit : 64 ≤ j.inc + 1 := by omega
  have hreturn : s.returnJob i later = (s.finishJob i 0x08 0).modJob i fun j => { j with inc := j.inc + 1 } := by
    simp [State.returnJob, hj, hst, hlimit]
  rw [hreturn]
  exact ⟨_, job?_modJob (job?_modJob hj fun _ => rfl) fun _ => rfl, rfl, rfl⟩

/-- Below it a job returns to its queue, bound to no slot, at the next incarnation. -/
theorem returnJob_below_limit (hinc : j.inc < 63) (later : Bool) :
    ∃ k, (s.returnJob i later).job? i = some k ∧ k.st = .queued ∧ k.inc = j.inc + 1 ∧ k.slot = 0xFFFF := by
  have hlimit : ¬ 64 ≤ j.inc + 1 := by omega
  simp only [State.returnJob, hj, beq_iff_eq, hst, hlimit, if_false]
  exact ⟨_, job?_modJob (s := s.nextOrder.2) hj fun _ => rfl, rfl, rfl, rfl⟩

end

/-- Settles O32: a job that no entry held before is at incarnation 0, since deciding a descriptor keeps every incarnation; a
job that returns is below the limit or at it. -/
theorem returnedJobsStopAtTheRetryLimit : Obligations.ReturnedJobsStopAtTheRetryLimit := by
  refine ⟨fun s t n h j hj hnew => ?_, fun s i j later hj hst => ?_⟩
  · rcases incsKept_descriptorDecide h j hj with hinc | ⟨k, hk, hidx, -⟩
    · exact hinc
    · exact absurd hidx (hnew k hk)
  · rcases Nat.lt_or_ge j.inc 63 with hinc | hinc
    · obtain ⟨k, hk, hqueued⟩ := returnJob_below_limit hj hst hinc later
      exact ⟨k, hk, fun h => absurd hinc h.not_gt, fun _ => hqueued⟩
    · obtain ⟨k, hk, hfinished⟩ := returnJob_at_limit hj hst hinc later
      exact ⟨k, hk, fun _ => hfinished, fun h => absurd h hinc.not_gt⟩

end Sys2Proof.Machine
end

section
/-! What a step does to the standing of the part: its state, the SAFE row, DEVICE_ENABLE, the replace triggers and the
fuses. One rule for each operation of the model that leaves all five as they are. -/

namespace Sys2Proof.Machine

/-! ## The standing of the part -/

/-- What R518, R485, R490 and R431 speak of: the part's state with its SAFE row, DEVICE_ENABLE, the replace triggers and
the fuses. -/
structure Standing where
  part : PartState
  safeRow : Nat
  on : Bool
  replace : BitVec 8
  fuses : List Byte

def State.standing (s : State) : Standing := ⟨s.pw.part, s.pw.safeRow, s.en.on, s.hm.replace, s.hm.fuses⟩

/-- The standing of a state after a record update. -/
@[simp] theorem standing_mk
    {pending pw ports fns tm en mctp plan pc vs tenants drrQuantum drrPtr keys uploads installs streams jobs
    jobSeq runs slotStats arrs dies hubs stk mem gran links dom sec hm sels snap trace dump hostMem hostFaults
    free out} :
    (⟨pending, pw, ports, fns, tm, en, mctp, plan, pc, vs, tenants, drrQuantum, drrPtr, keys, uploads, installs,
      streams, jobs, jobSeq, runs, slotStats, arrs, dies, hubs, stk, mem, gran, links, dom, sec, hm, sels, snap,
      trace, dump, hostMem, hostFaults, free, out⟩ : State).standing =
      ⟨pw.part, pw.safeRow, en.on, hm.replace, hm.fuses⟩ := by rfl

@[simp] theorem standing_fields (s : State) :
    (⟨s.pw.part, s.pw.safeRow, s.en.on, s.hm.replace, s.hm.fuses⟩ : Standing) = s.standing := by rfl

@[simp] theorem standing_ite (c : Prop) [Decidable c] (s t : State) :
    (if c then s else t).standing = if c then s.standing else t.standing := apply_ite ..

/-- A loop whose every turn keeps the standing keeps it. -/
@[simp] theorem foldl_standing {α : Type} {f : State → α → State} (h : ∀ s x, (f s x).standing = s.standing)
    (l : List α) (s : State) : (l.foldl f s).standing = s.standing :=
  List.foldlRecOn l f (motive := fun t => t.standing = s.standing) rfl fun t ht x _ => (h t x).trans ht

theorem standing_hm {s : State} {hm : Health} (hr : hm.replace = s.hm.replace) (hf : hm.fuses = s.hm.fuses) :
    ({ s with hm := hm } : State).standing = s.standing := by
  simp [hr, hf]

theorem foldl_ok {σ α : Type} {P : σ → Prop} {f : Except Nat σ → α → Except Nat σ} {r : Except Nat σ}
    {l : List α} {t : σ} (hf : ∀ r x t, (∀ u, r = .ok u → P u) → f r x = .ok t → P t) (hr : ∀ u, r = .ok u → P u)
    (h : l.foldl f r = .ok t) : P t :=
  List.foldlRecOn l f (motive := fun r => ∀ u, r = .ok u → P u) hr (fun r hr x _ u hu => hf r x u hr hu) t h

theorem foldl_rows {s t : State} {α : Type} {f : Fetched → α → Fetched} {bs : List (List Byte)} {rows} {l : List α}
    (hf : ∀ r x b u, (∀ c v, r = .rows c v → v.standing = s.standing) → f r x = .rows b u → u.standing = s.standing)
    (h : l.foldl f (.rows bs s) = .rows rows t) : t.standing = s.standing := by
  refine List.foldlRecOn l f (motive := fun r => ∀ c v, r = .rows c v → v.standing = s.standing) (fun c v hv => ?_)
    (fun r hr x _ c v hv => hf r x c v hr hv) rows t h
  cases hv
  rfl

/-! ## The state, its jobs and its records -/

@[simp] theorem State.modDie_standing (s : State) (d f) : (s.modDie d f).standing = s.standing := by rfl

@[simp] theorem State.setArr_standing (s : State) (a x) : (s.setArr a x).standing = s.standing := by rfl

@[simp] theorem State.modArr_standing (s : State) (a f) : (s.modArr a f).standing = s.standing := by rfl

@[simp] theorem State.setFn_standing (s : State) (f x) : (s.setFn f x).standing = s.standing := by rfl

@[simp] theorem State.setPort_standing (s : State) (n x) : (s.setPort n x).standing = s.standing := by rfl

@[simp] theorem State.setTenant_standing (s : State) (t x) : (s.setTenant t x).standing = s.standing := by rfl

@[simp] theorem State.modTenant_standing (s : State) (t f) : (s.modTenant t f).standing = s.standing := by rfl

@[simp] theorem State.setStream_standing (s : State) (n x) : (s.setStream n x).standing = s.standing := by rfl

@[simp] theorem State.modStream_standing (s : State) (n f) : (s.modStream n f).standing = s.standing := by rfl

@[simp] theorem State.setLink_standing (s : State) (j x) : (s.setLink j x).standing = s.standing := by rfl

@[simp] theorem State.modLink_standing (s : State) (j f) : (s.modLink j f).standing = s.standing := by rfl

@[simp] theorem State.setStack_standing (s : State) (k x) : (s.setStack k x).standing = s.standing := by rfl

@[simp] theorem State.modStack_standing (s : State) (k f) : (s.modStack k f).standing = s.standing := by rfl

@[simp] theorem State.setHub_standing (s : State) (h x) : (s.setHub h x).standing = s.standing := by rfl

@[simp] theorem State.modJob_standing (s : State) (i f) : (s.modJob i f).standing = s.standing := by rfl

@[simp] theorem State.modRun_standing (s : State) (q f) : (s.modRun q f).standing = s.standing := by rfl

@[simp] theorem State.dropRun_standing (s : State) (q) : (s.dropRun q).standing = s.standing := by rfl

@[simp] theorem State.modSlotStat_standing (s : State) (slot f) : (s.modSlotStat slot f).standing = s.standing := by rfl

@[simp] theorem State.noteDelay_standing (s : State) (slot d) :
    (s.noteDelay slot d).standing = s.standing := by simp [State.noteDelay]

@[simp] theorem State.freshWord_standing (s : State) : s.freshWord.2.standing = s.standing := by rfl

@[simp] theorem State.freshBytes_standing (s : State) (n) : (s.freshBytes n).2.standing = s.standing := by rfl

theorem hostWrite_standing {s t : State} {f p a bs} (h : s.hostWrite f p a bs = some t) : t.standing = s.standing := by
  rcases hostWrite_cases s f p a bs with h' | h' <;> rw [h'] at h
  · simp at h
  · rw [← Option.some.inj h]
    rfl

@[simp] theorem State.send_standing (s : State) (o) : (s.send o).standing = s.standing := by rfl

@[simp] theorem State.raiseMsix_standing (s : State) (f vec) :
    (s.raiseMsix f vec).standing = s.standing := by simp [State.raiseMsix]

@[simp] theorem recordErase_replace (h : Health) : (recordErase h).replace = h.replace := by
  simp only [recordErase]
  split <;> rfl

@[simp] theorem recordErase_fuses (h : Health) : (recordErase h).fuses = h.fuses := by
  simp only [recordErase]
  split <;> rfl

@[simp] theorem recordAppend_replace (h : Health) (e) : (recordAppend h e).replace = h.replace := by
  simp only [recordAppend]
  split_ifs <;> simp

@[simp] theorem recordAppend_fuses (h : Health) (e) : (recordAppend h e).fuses = h.fuses := by
  simp only [recordAppend]
  split_ifs <;> simp

@[simp] theorem recordEvent_replace (h : Health) (code die time) :
    (recordEvent h code die time).replace = h.replace := by
  simp only [recordEvent]
  split_ifs <;> simp

@[simp] theorem recordEvent_fuses (h : Health) (code die time) : (recordEvent h code die time).fuses = h.fuses := by
  simp only [recordEvent]
  split_ifs <;> simp

@[simp] theorem evtInsert_standing (s : State) (e) : (evtInsert s e).standing = s.standing := by
  simp only [evtInsert]
  split
  · rfl
  · split <;> rfl

@[simp] theorem State.logBody_standing (s : State) (code die inst arg body) :
    (s.logBody code die inst arg body).standing = s.standing := by
  simp [State.logBody]

@[simp] theorem State.log_standing (s : State) (code die inst arg) :
    (s.log code die inst arg).standing = s.standing := by simp [State.log]

@[simp] theorem State.recordCheck_standing (s : State) : s.recordCheck.standing = s.standing := by
  simp only [State.recordCheck]
  split_ifs <;> simp

@[simp] theorem State.record_standing (s : State) (type unit arg) : (s.record type unit arg).standing = s.standing := by
  simp [State.record]

@[simp] theorem State.recordQueue_standing (s : State) (type unit arg) :
    (s.recordQueue type unit arg).standing = s.standing := by rfl

@[simp] theorem State.reach_standing (s : State) (t) : (s.reach t).standing = s.standing := by rfl

/-! ## Frames -/

@[simp] theorem State.txFrame_standing (s : State) (j chan f) :
    (s.txFrame j chan f).standing = s.standing := by simp [State.txFrame]

@[simp] theorem State.releaseFrames_standing (s : State) (j) :
    (s.releaseFrames j).standing = s.standing := by simp [State.releaseFrames]

@[simp] theorem State.noRoute_standing (s : State) (j) : (s.noRoute j).standing = s.standing := by rfl

@[simp] theorem State.sendDctl_standing (s : State) (dst subtype fields) :
    (s.sendDctl dst subtype fields).standing = s.standing := by
  simp only [State.sendDctl]
  split <;> simp

@[simp] theorem State.sendMembers_standing (s : State) (subtype fields) :
    (s.sendMembers subtype fields).standing = s.standing := by simp [State.sendMembers]

/-! ## Jobs -/

@[simp] theorem State.streamFault_standing (s : State) (n) : (s.streamFault n).standing = s.standing := by rfl

@[simp] theorem State.writeStatus_standing (s : State) (n) : (s.writeStatus n).standing = s.standing := by
  simp only [State.writeStatus]
  split
  · next h => exact hostWrite_standing h
  · simp

@[simp] theorem State.streamIrq_standing (s : State) (n) :
    (s.streamIrq n).standing = s.standing := by simp [State.streamIrq]

@[simp] theorem State.freeCredit_standing (s : State) (n) : (s.freeCredit n).standing = s.standing := by rfl

@[simp] theorem State.recordEffect_standing (s : State) (n r) :
    (s.recordEffect n r).standing = s.standing := by simp [State.recordEffect]

@[simp] theorem State.putRecord_standing (s : State) (n r) : (s.putRecord n r).standing = s.standing := by
  simp only [State.putRecord]
  split
  · simp
  · next h => simp [hostWrite_standing h]

@[simp] theorem State.flushRecords_standing (s : State) (n fuel) : (s.flushRecords n fuel).standing = s.standing := by
  induction fuel generalizing s with
  | zero => rfl
  | succ k ih =>
    simp only [State.flushRecords]
    split
    · rfl
    · split <;> simp [ih]

@[simp] theorem State.addRecord_standing (s : State) (n r) :
    (s.addRecord n r).standing = s.standing := by simp [State.addRecord]

@[simp] theorem State.drainCheck_standing (s : State) (n) :
    (s.drainCheck n).standing = s.standing := by simp [State.drainCheck]

@[simp] theorem State.finishJob_standing (s : State) (i status detail) :
    (s.finishJob i status detail).standing = s.standing := by rfl

@[simp] theorem State.nextOrder_standing (s : State) : s.nextOrder.2.standing = s.standing := by rfl

@[simp] theorem State.returnJob_standing (s : State) (i later) :
    (s.returnJob i later).standing = s.standing := by
  simp only [State.returnJob]
  split <;> simp

@[simp] theorem State.countedReturn_standing (s : State) (i tag kind) :
    (s.countedReturn i tag kind).standing = s.standing := by
  simp only [State.countedReturn]
  repeat' split
  all_goals simp

@[simp] theorem State.tellAbandon_standing (s : State) (j inc cause) :
    (s.tellAbandon j inc cause).standing = s.standing := by simp [State.tellAbandon]

@[simp] theorem State.abandonJob_standing (s : State) (i counted tag kind cause) :
    (s.abandonJob i counted tag kind cause).standing = s.standing := by
  simp only [State.abandonJob]
  split <;> simp

@[simp] theorem State.abandonRun_standing (s : State) (r named tag kind cause) :
    (s.abandonRun r named tag kind cause).standing = s.standing := by
  refine foldl_standing (fun _ _ => ?_) _ _
  repeat' split
  all_goals simp

@[simp] theorem State.reopenJobs_standing (s : State) (dies sel) :
    (s.reopenJobs dies sel).standing = s.standing := by rfl

/-! ## Faults -/

@[simp] theorem State.trace?_standing (s : State) (a evt stage tag time cycle arg stream inc) :
    (s.trace? a evt stage tag time cycle arg stream inc).standing = s.standing := by simp [State.trace?]

@[simp] theorem State.drainTrace_standing (s : State) : s.drainTrace.standing = s.standing := by
  simp only [State.drainTrace, standing_mk, standing_fields]
  refine foldl_standing (fun u e => ?_) _ _
  repeat' split
  any_goals rfl
  all_goals exact (hostWrite_standing ‹_› :)

@[simp] theorem State.corrected_standing (s : State) (a loft) : (s.corrected a loft).standing = s.standing := by rfl

@[simp] theorem State.endNamed_standing (s : State) (pos inc kind ends) :
    (s.endNamed pos inc kind ends).standing = s.standing := by
  simp only [State.endNamed]
  repeat' split
  all_goals simp

@[simp] theorem State.raiseFault_standing (s : State) (w f ends) :
    (s.raiseFault w f ends).standing = s.standing := by
  simp only [State.raiseFault]
  repeat' split
  any_goals simp
  -- what is left has counted the fault against its die
  all_goals exact (State.modDie_standing ..).trans (by simp)

@[simp] theorem State.coreFault_standing (s : State) (a kind sub offset) :
    (s.coreFault a kind sub offset).standing = s.standing := by simp [State.coreFault]

/-! ## Granary -/

@[simp] theorem State.granSet_standing (s : State) (block off v) :
    (s.granSet block off v).standing = s.standing := by simp [State.granSet]

@[simp] theorem State.planWrite_standing (s : State) (off bs) :
    (s.planWrite off bs).standing = s.standing := by simp [State.planWrite]

@[simp] theorem State.blockFill_standing (s : State) (block bs) : (s.blockFill block bs).standing = s.standing := by rfl

@[simp] theorem State.modKey_standing (s : State) (tenant id f) : (s.modKey tenant id f).standing = s.standing := by rfl

/-! ## Variants, gears and abandonment -/

@[simp] theorem State.recommend_standing (s : State) (b) :
    (s.recommend b).standing = s.standing := by simp [State.recommend]

@[simp] theorem State.refuseRetire_standing (s : State) (d) :
    (s.refuseRetire d).standing = s.standing := by simp [State.refuseRetire]

@[simp] theorem State.cancelRetire_standing (s : State) (d) :
    (s.cancelRetire d).standing = s.standing := by simp [State.cancelRetire]

@[simp] theorem State.cancelRetirements_standing (s : State) (mask) :
    (s.cancelRetirements mask).standing = s.standing := by simp [State.cancelRetirements]

@[simp] theorem State.announce_standing (s : State) (v e) :
    (s.announce v e).standing = s.standing := by simp [State.announce]

@[simp] theorem State.decideSwitch_standing (s : State) (target item) :
    (s.decideSwitch target item).standing = s.standing := by simp [State.decideSwitch]

@[simp] theorem State.dropPending_standing (s : State) :
    s.dropPending.standing = s.standing := by simp [State.dropPending]

@[simp] theorem State.evaluateVariant_standing (s : State) :
    s.evaluateVariant.standing = s.standing := by
  simp only [State.evaluateVariant]
  repeat' split
  all_goals simp

@[simp] theorem State.mandatoryVariant_standing (s : State) :
    s.mandatoryVariant.standing = s.standing := by simp [State.mandatoryVariant]

@[simp] theorem State.abandonRuns_standing (s : State) (rs counted kind cause) :
    (s.abandonRuns rs counted kind cause).standing = s.standing := by
  refine foldl_standing (fun _ _ => ?_) _ _
  repeat' split
  all_goals simp

@[simp] theorem State.markAbandoned_standing (s : State) (paced r) :
    (s.markAbandoned paced r).standing = s.standing := by simp [State.markAbandoned]

@[simp] theorem State.abandonSlot_standing (s : State) (r) :
    (s.abandonSlot r).standing = s.standing := by simp [State.abandonSlot]

@[simp] theorem State.deadline_standing (s : State) (r a group cycle tag late word) :
    (s.deadline r a group cycle tag late word).standing = s.standing := by simp [State.deadline]

@[simp] theorem State.abandonDie_standing (s : State) (d) :
    (s.abandonDie d).standing = s.standing := by simp [State.abandonDie]

@[simp] theorem State.returnOutputs_standing (s : State) (d) :
    (s.returnOutputs d).standing = s.standing := by simp [State.returnOutputs]

@[simp] theorem State.permitGear_standing (s : State) (g) :
    (s.permitGear g).standing = s.standing := by simp [State.permitGear]

@[simp] theorem State.gearStep_standing (s : State) : s.gearStep.standing = s.standing := by simp [State.gearStep]

@[simp] theorem State.holdGear_standing (s : State) : s.holdGear.standing = s.standing := by rfl

@[simp] theorem State.memPressure_standing (s : State) :
    s.memPressure.standing = s.standing := by simp [State.memPressure]

@[simp] theorem State.throttling_standing (s : State) :
    s.throttling.standing = s.standing := by
  simp only [State.throttling]
  split <;> simp

@[simp] theorem State.wipeVault_standing (s : State) : s.wipeVault.standing = s.standing := by rfl

/-! ## Sheaves and spots -/

@[simp] theorem State.putLoftLimb_standing (s : State) (parts logn poly idx ws) :
    (s.putLoftLimb parts logn poly idx ws).standing = s.standing := by
  simp only [State.putLoftLimb]
  repeat' split
  all_goals simp

@[simp] theorem State.eachPart_standing (s : State) (parts pair f) :
    (s.eachPart parts pair f).standing = s.standing := by
  refine foldl_standing (fun _ _ => ?_) _ _
  repeat' split
  all_goals simp

@[simp] theorem State.modParts_standing (s : State) (parts pair f) :
    (s.modParts parts pair f).standing = s.standing := by simp [State.modParts]

@[simp] theorem State.setSheaf_standing (s : State) (parts pair poly c f) :
    (s.setSheaf parts pair poly c f).standing = s.standing := by simp [State.setSheaf]

@[simp] theorem State.poisonSheaf_standing (s : State) (a h poly) :
    (s.poisonSheaf a h poly).standing = s.standing := by simp [State.poisonSheaf]

@[simp] theorem State.settleSheaf_standing (s : State) (a key) :
    (s.settleSheaf a key).standing = s.standing := by simp [State.settleSheaf]

@[simp] theorem State.settleSheaves_standing (s : State) (a) :
    (s.settleSheaves a).standing = s.standing := by simp [State.settleSheaves]

@[simp] theorem State.aside_standing (s : State) (a f) : (s.aside a f).standing = s.standing := by simp [State.aside]

@[simp] theorem State.plainWrite_standing (s : State) (a h off stride rows pos) :
    (s.plainWrite a h off stride rows pos).standing = s.standing := by simp [State.plainWrite]

@[simp] theorem State.restoreRow_standing (s : State) (a row) : (s.restoreRow a row).standing = s.standing := by
  simp only [State.restoreRow]
  split
  · rfl
  · repeat' split
    any_goals rfl
    all_goals exact State.poisonSheaf_standing ..

/-! ## Execute words -/

@[simp] theorem State.putLanes_standing (s : State) (a l) :
    (s.putLanes a l).standing = s.standing := by
  simp only [State.putLanes]
  split <;> simp

@[simp] theorem State.modLanes_standing (s : State) (a pair f) :
    (s.modLanes a pair f).standing = s.standing := by simp [State.modLanes]

@[simp] theorem State.addCycles_standing (s : State) (cs) :
    (s.addCycles cs).standing = s.standing := by simp [State.addCycles]

@[simp] theorem State.sheafStage_standing (s : State) (x k pair base n) :
    (s.sheafStage x k pair base n).1.standing = s.standing := by
  simp only [State.sheafStage]
  repeat' split
  all_goals simp

@[simp] theorem State.poisonDest_standing (s : State) (x pair d fs) :
    (s.poisonDest x pair d fs).standing = s.standing := by
  simp only [State.poisonDest]
  repeat' split
  all_goals simp

@[simp] theorem State.countLost_standing (s : State) (x fs) :
    (s.countLost x fs).standing = s.standing := by simp [State.countLost]

@[simp] theorem State.wordFault_standing (s : State) (x pair f) :
    (s.wordFault x pair f).standing = s.standing := by simp [State.wordFault]

@[simp] theorem State.countCorrected_standing (s : State) (x dets) :
    (s.countCorrected x dets).standing = s.standing := by
  refine foldl_standing (fun _ _ => ?_) _ _
  repeat' split
  all_goals simp

@[simp] theorem State.restoreRows_standing (s : State) (x l) :
    (s.restoreRows x l).standing = s.standing := by
  simp only [State.restoreRows]
  split <;> simp

@[simp] theorem State.traceWord_standing (s : State) (x r evt arg) :
    (s.traceWord x r evt arg).standing = s.standing := by simp [State.traceWord]

@[simp] theorem State.reportWord_standing (s : State) (x pair) :
    (s.reportWord x pair).standing = s.standing := by
  simp only [State.reportWord]
  split <;> simp

@[simp] theorem State.closeWord_standing (s : State) (x r pair) :
    (s.closeWord x r pair).standing = s.standing := by simp [State.closeWord]

@[simp] theorem State.stageErrors_standing (s : State) (x k pair base n) :
    (s.stageErrors x k pair base n).1.standing = s.standing := by simp [State.stageErrors]

@[simp] theorem State.countQuiet_standing (s : State) (x fs) :
    (s.countQuiet x fs).standing = s.standing := by simp [State.countQuiet]

@[simp] theorem State.stagesOf_standing (s : State) (x op k pair bad) :
    (s.stagesOf x op k pair bad).standing = s.standing := by
  simp only [State.stagesOf]
  repeat' split
  all_goals simp

@[simp] theorem State.afterWork_standing (s : State) (x r op k pair l) :
    (s.afterWork x r op k pair l).standing = s.standing := by simp [State.afterWork]

@[simp] theorem State.noteStart_standing (s : State) (x r y flag queue) :
    (s.noteStart x r y flag queue).standing = s.standing := by simp [State.noteStart]

@[simp] theorem State.runWord_standing (s : State) (x op) :
    (s.runWord x op).standing = s.standing := by
  simp only [State.runWord]
  split <;> simp

/-! ## Remote reads -/

theorem targetRead_standing {s : State} {a refused e off len r} (h : s.targetRead a refused e off len = .ok r) :
    r.2.standing = s.standing := by
  simp only [State.targetRead] at h
  repeat' split at h
  all_goals cases h
  all_goals rfl

theorem windowLine_standing {s : State} {a refused k line r} (h : s.windowLine a refused k line = .ok r) :
    r.2.standing = s.standing := by
  simp only [State.windowLine] at h
  split at h
  · cases h
    rfl
  · split at h
    · cases h
    · next ht =>
      cases h
      simpa using targetRead_standing ht

theorem windowRead_standing {s : State} {a refused k off len r} (h : s.windowRead a refused k off len = .ok r) :
    r.2.standing = s.standing := by
  simp only [State.windowRead] at h
  split at h
  · cases h
  · next hr =>
    cases h
    refine foldl_ok (P := fun u => u.2.standing = s.standing) (fun acc i u hacc hu => ?_) (fun u hu => ?_) hr
    · split at hu
      · cases hu
      · split at hu
        · cases hu
        · next hl =>
          cases hu
          exact (windowLine_standing hl).trans (hacc _ rfl)
    · cases hu
      rfl

theorem handleRead_standing {s : State} {a refused k off len r} (h : s.handleRead a refused k off len = .ok r) :
    r.2.standing = s.standing := by
  simp only [State.handleRead] at h
  split at h
  · cases h
  · split at h
    · cases h
      rfl
    · exact windowRead_standing h

@[simp] theorem State.restoreSpot_standing (s : State) (a p) :
    (s.restoreSpot a p).standing = s.standing := by
  simp only [State.restoreSpot]
  split <;> simp

@[simp] theorem State.correctedSpot_standing (s : State) (a p) :
    (s.correctedSpot a p).standing = s.standing := by
  simp only [State.correctedSpot]
  split <;> simp

@[simp] theorem State.noteLanding_standing (s : State) (b n) : (s.noteLanding b n).standing = s.standing := by rfl

@[simp] theorem State.queueArrival_standing (s : State) (b v) : (s.queueArrival b v).standing = s.standing := by rfl

@[simp] theorem State.sendBlock_standing (s : State) (p o rows) :
    (s.sendBlock p o rows).standing = s.standing := by simp [State.sendBlock]

/-! ## Control cores -/

@[simp] theorem State.modCore_standing (s : State) (a f) : (s.modCore a f).standing = s.standing := by rfl

/-- A word of a control core keeps the standing where what it does when it issues keeps it. -/
theorem State.coreStep_standing (s : State) (c) {f : SlotRun → Bool → State → State}
    (hf : ∀ r p, (f r p s).standing = s.standing) : (s.coreStep c f).standing = s.standing := by
  simp only [State.coreStep]
  split <;> simp [hf]

@[simp] theorem State.coreAlu_standing (s : State) (c f) : (s.coreAlu c f).standing = s.standing :=
  s.coreStep_standing c fun _ _ => by simp

@[simp] theorem State.coreFail_standing (s : State) (a kind sub) :
    (s.coreFail a kind sub).standing = s.standing := by simp [State.coreFail]

@[simp] theorem State.coreCorrected_standing (s : State) (c h off) :
    (s.coreCorrected c h off).standing = s.standing := by
  refine foldl_standing (fun _ _ => ?_) _ _
  repeat' split
  all_goals simp

@[simp] theorem State.coreEcc_standing (s : State) (c h off row) :
    (s.coreEcc c h off row).standing = s.standing := by simp [State.coreEcc]

theorem coreLoad_standing {s : State} {c k off b r} (h : s.coreLoad c k off b = .ok r) : r.2.standing = s.standing := by
  simp only [State.coreLoad] at h
  split at h
  · split at h
    · cases h
    · split at h
      · cases h
      · next ht =>
        cases h
        simpa using targetRead_standing ht
  · split at h
    · cases h
      rfl
    · exact handleRead_standing h

theorem remoteStore_standing {s t : State} {a r e off bs} (h : s.remoteStore a r e off bs = .ok t) :
    t.standing = s.standing := by
  simp only [State.remoteStore] at h
  repeat' split at h
  all_goals cases h
  all_goals simp

theorem acceptDesc_standing {s t : State} {a r k off} (h : s.acceptDesc a r k off = .ok t) :
    t.standing = s.standing := by
  simp only [State.acceptDesc] at h
  iterate 4
    split at h
    · cases h
  cases h
  simp

/-- The errors of the rows that a descriptor lies in. -/
theorem State.descErrors_standing (s : State) (a h off ecc) {t : State} (ht : t.standing = s.standing) :
    (s.descErrors a h off ecc t).standing = s.standing := by
  simp [State.descErrors, ht]

@[simp] theorem State.stallRelease_standing (s : State) (a ecc) : (s.stallRelease a ecc).standing = s.standing := by
  simp only [State.stallRelease]
  split
  iterate 3 simp
  · split <;> simp
  · split
    · rfl
    · split
      · simp
      · next h => exact State.descErrors_standing _ _ _ _ _ (acceptDesc_standing h)
  all_goals rfl

/-! ## Data movement -/

@[simp] theorem State.modDesc_standing (s : State) (a dseq f) : (s.modDesc a dseq f).standing = s.standing := by rfl

@[simp] theorem State.takeUnits_standing (s : State) (a t n) :
    (s.takeUnits a t n).standing = s.standing := by
  simp only [State.takeUnits]
  split <;> simp

@[simp] theorem State.popReq_standing (s : State) (a) : (s.popReq a).standing = s.standing := by rfl

@[simp] theorem State.traceHold_standing (s : State) (a bpos bytes) :
    (s.traceHold a bpos bytes).standing = s.standing := by
  simp only [State.traceHold]
  split <;> simp

@[simp] theorem State.releaseHead_standing (s : State) (a fuel) : (s.releaseHead a fuel).standing = s.standing := by
  induction fuel generalizing s with
  | zero => rfl
  | succ k ih =>
    simp only [State.releaseHead]
    repeat' split
    all_goals simp [ih]

@[simp] theorem State.fillBuckets_standing (s : State) : s.fillBuckets.standing = s.standing := by rfl

@[simp] theorem State.release_standing (s : State) : s.release.standing = s.standing := by simp [State.release]

@[simp] theorem State.anchorLimbs_standing (s : State) (a h poly main) :
    (s.anchorLimbs a h poly main).standing = s.standing := by simp [State.anchorLimbs]

@[simp] theorem State.verifyStored_standing (s : State) (a h poly) :
    (s.verifyStored a h poly).1.standing = s.standing := by
  simp only [State.verifyStored]
  split <;> simp

@[simp] theorem State.anchorStored_standing (s : State) (a h poly) :
    (s.anchorStored a h poly).standing = s.standing := by simp [State.anchorStored]

@[simp] theorem State.anchorInputs_standing (s : State) (d) :
    (s.anchorInputs d).standing = s.standing := by simp [State.anchorInputs]

@[simp] theorem State.descEnd_standing (s : State) (a dseq) :
    (s.descEnd a dseq).standing = s.standing := by
  simp only [State.descEnd]
  split <;> simp

@[simp] theorem State.endBlock_standing (s : State) (a dseq i) :
    (s.endBlock a dseq i).standing = s.standing := by simp [State.endBlock]

@[simp] theorem State.blockLanded_standing (s : State) (a dseq i flags) :
    (s.blockLanded a dseq i flags).standing = s.standing := by simp [State.blockLanded]

theorem writeHostRows_standing {s t : State} {j buf ps} (h : s.writeHostRows j buf ps = some t) :
    t.standing = s.standing := by
  simp only [State.writeHostRows] at h
  refine List.foldlRecOn (motive := fun r => ∀ u, r = some u → u.standing = s.standing) ps _ (fun u hu => ?_)
    (fun r hr p _ u hu => ?_) t h
  · cases hu
    rfl
  · obtain ⟨v, hv, hw⟩ := Option.bind_eq_some_iff.1 hu
    exact (hostWrite_standing hw).trans (hr v hv)

@[simp] theorem State.verifyAll_standing (s : State) (ps) : (s.verifyAll ps).1.standing = s.standing := by
  simp only [State.verifyAll]
  refine List.foldlRecOn (motive := fun r : State × Option Nat => r.1.standing = s.standing) ps _ rfl fun r hr p _ => ?_
  split
  · exact hr
  · simpa using hr

@[simp] theorem State.dmaFault_standing (s : State) (a bpos f ends) :
    (s.dmaFault a bpos f ends).standing = s.standing := by simp [State.dmaFault]

@[simp] theorem State.blockFail_standing (s : State) (a dseq i f ends) :
    (s.blockFail a dseq i f ends).standing = s.standing := by simp [State.blockFail]

@[simp] theorem State.verifyBlock_standing (s : State) (d b) :
    (s.verifyBlock d b).1.standing = s.standing := by
  simp only [State.verifyBlock]
  repeat' split
  all_goals simp

@[simp] theorem State.deliver_standing (s : State) (d i b rows) : (s.deliver d i b rows).standing = s.standing := by
  simp only [State.deliver]
  split
  · split
    · simp
    · split
      · next h => simpa using writeHostRows_standing h
      · simp
  · simp
  · split
    · simp
    · split <;> simp
  · rfl

theorem fetchRows_standing {s t : State} {d b refused rows} (h : s.fetchRows d b refused = .rows rows t) :
    t.standing = s.standing := by
  simp only [State.fetchRows] at h
  split at h
  · refine foldl_rows (fun acc r _ u hacc hu => ?_) h
    split at hu
    · split at hu
      · next hr =>
        cases hu
        exact (handleRead_standing hr).trans (hacc _ _ rfl)
      · cases hu
    · exact hacc _ _ hu
  · split at h
    · cases h
    · refine foldl_rows (fun acc r _ u hacc hu => ?_) h
      split at hu
      · cases hu
        simpa using hacc _ _ rfl
      · exact hacc _ _ hu
  · split at h
    · cases h
      rfl
    · refine foldl_rows (fun acc r _ u hacc hu => ?_) h
      split at hu
      · split at hu
        · cases hu
          exact hacc _ _ rfl
        · cases hu
      · exact hacc _ _ hu
  · cases h

@[simp] theorem State.moveBlock_standing (s : State) (d b r) : (s.moveBlock d b r).standing = s.standing := by
  simp only [State.moveBlock]
  split
  · simp
  · split
    · simp
    · split_ifs
      · simp
      · simp
      · split
        · simp
        · split
          · next h => simpa using fetchRows_standing h
          all_goals simp

@[simp] theorem State.inputBad_standing (s : State) (r bpos detail) :
    (s.inputBad r bpos detail).standing = s.standing := by
  simp only [State.inputBad]
  repeat' split
  all_goals simp

@[simp] theorem State.landSheaf_standing (s : State) (a v c d l) :
    (s.landSheaf a v c d l).standing = s.standing := by simp [State.landSheaf]

@[simp] theorem State.landRows_standing (s : State) (a e v) :
    (s.landRows a e v).standing = s.standing := by
  simp only [State.landRows]
  split <;> simp

@[simp] theorem State.landChecks_standing (s : State) (e v) :
    (s.landChecks e v).standing = s.standing := by
  simp only [State.landChecks]
  repeat' split
  all_goals simp

@[simp] theorem State.acknowledge_standing (s : State) (v flags fault ret) :
    (s.acknowledge v flags fault ret).standing = s.standing := by
  simp only [State.acknowledge]
  repeat' split
  all_goals simp

@[simp] theorem State.dropStale_standing (s : State) (a v) :
    (s.dropStale a v).standing = s.standing := by
  simp only [State.dropStale]
  split <;> simp

@[simp] theorem State.arrivalFail_standing (s : State) (v sub) :
    (s.arrivalFail v sub).standing = s.standing := by
  simp only [State.arrivalFail]
  split <;> simp

@[simp] theorem State.raiseFlag_standing (s : State) (a v) : (s.raiseFlag a v).standing = s.standing := by rfl

@[simp] theorem State.popLanding_standing (s : State) (a) : (s.popLanding a).standing = s.standing := by rfl

@[simp] theorem State.land_standing (s : State) (a v) :
    (s.land a v).standing = s.standing := by
  simp only [State.land]
  repeat' split
  all_goals simp

@[simp] theorem State.openSheaves_standing (s : State) (a e v) :
    (s.openSheaves a e v).standing = s.standing := by simp [State.openSheaves]

@[simp] theorem State.homeErrors_standing (s : State) (a e v ecc) :
    (s.homeErrors a e v ecc).1.standing = s.standing := by simp [State.homeErrors]

@[simp] theorem State.atomic_standing (s : State) (a v ecc) :
    (s.atomic a v ecc).standing = s.standing := by
  simp only [State.atomic]
  repeat' split
  all_goals simp

/-! ## The security engine -/

@[simp] theorem State.generate_standing (s : State) (n) : (s.generate n).2.standing = s.standing := by rfl

@[simp] theorem State.instantiateDrbg_standing (s : State) : s.instantiateDrbg.standing = s.standing := by rfl

@[simp] theorem State.newEphemeral_standing (s : State) : s.newEphemeral.2.standing = s.standing := by rfl

@[simp] theorem State.signIdentity_standing (s : State) (msg) : (s.signIdentity msg).2.standing = s.standing := by rfl

@[simp] theorem State.sigStart_standing (s : State) :
    s.sigStart.standing = s.standing := by
  simp only [State.sigStart]
  repeat' split
  all_goals simp

@[simp] theorem State.sigPush_standing (s : State) (op) :
    (s.sigPush op).standing = s.standing := by simp [State.sigPush]

@[simp] theorem State.sigAbort_standing (s : State) (p) :
    (s.sigAbort p).standing = s.standing := by simp [State.sigAbort]

/-! ## Links -/

@[simp] theorem State.losePath_standing (s : State) (j c) :
    (s.losePath j c).standing = s.standing := by simp [State.losePath]

@[simp] theorem State.regainPath_standing (s : State) (j c e) :
    (s.regainPath j c e).standing = s.standing := by simp [State.regainPath]

@[simp] theorem State.txLctl_standing (s : State) (j subtype fields) :
    (s.txLctl j subtype fields).standing = s.standing := by simp [State.txLctl]

@[simp] theorem State.pathsDown_standing (s : State) (j reason) :
    (s.pathsDown j reason).standing = s.standing := by simp [State.pathsDown]

@[simp] theorem State.pathsUp_standing (s : State) (j) : (s.pathsUp j).standing = s.standing := by simp [State.pathsUp]

@[simp] theorem State.abortLink_standing (s : State) (j) :
    (s.abortLink j).standing = s.standing := by simp [State.abortLink]

@[simp] theorem State.dropFrame_standing (s : State) (j) :
    (s.dropFrame j).standing = s.standing := by simp [State.dropFrame]

@[simp] theorem State.tagFailed_standing (s : State) (j) :
    (s.tagFailed j).standing = s.standing := by simp [State.tagFailed]

@[simp] theorem State.takeFrame_standing (s : State) (r) :
    (s.takeFrame r).standing = s.standing := by simp [State.takeFrame]

@[simp] theorem State.kexSend_standing (s : State) (j) : (s.kexSend j).standing = s.standing := by simp [State.kexSend]

@[simp] theorem State.takeKex_standing (s : State) (j frag lastFrag body) :
    (s.takeKex j frag lastFrag body).standing = s.standing := by simp [State.takeKex]

@[simp] theorem State.noteSkew_standing (s : State) (o) :
    (s.noteSkew o).standing = s.standing := by simp [State.noteSkew]

@[simp] theorem State.rekeyDone_standing (s : State) (j ok) :
    (s.rekeyDone j ok).standing = s.standing := by
  simp only [State.rekeyDone]
  repeat' split
  all_goals simp

@[simp] theorem State.takeRekey_standing (s : State) (j b) :
    (s.takeRekey j b).standing = s.standing := by
  simp only [State.takeRekey]
  repeat' split
  all_goals simp

@[simp] theorem State.forward_standing (s : State) (j c f) :
    (s.forward j c f).standing = s.standing := by simp [State.forward]

@[simp] theorem State.raiseInc_standing (s : State) (j inc) :
    (s.raiseInc j inc).standing = s.standing := by simp [State.raiseInc]

@[simp] theorem State.blockIn_standing (s : State) (j c o got) :
    (s.blockIn j c o got).standing = s.standing := by
  simp only [State.blockIn]
  repeat' split
  all_goals simp

@[simp] theorem State.valuesBack_standing (s : State) (j c o got) :
    (s.valuesBack j c o got).standing = s.standing := by
  simp only [State.valuesBack]
  repeat' split
  all_goals simp

@[simp] theorem State.blockDone_standing (s : State) (j c o got) :
    (s.blockDone j c o got).standing = s.standing := by
  simp only [State.blockDone]
  split <;> simp

@[simp] theorem State.takeData_standing (s : State) (j c payload) :
    (s.takeData j c payload).standing = s.standing := by
  simp only [State.takeData]
  split <;> simp

@[simp] theorem State.lackBlock_standing (s : State) (a b e) :
    (s.lackBlock a b e).standing = s.standing := by
  simp only [State.lackBlock]
  split <;> simp

@[simp] theorem State.takeLack_standing (s : State) (j c e) :
    (s.takeLack j c e).standing = s.standing := by
  simp only [State.takeLack]
  repeat' split
  all_goals simp

@[simp] theorem State.pathNotice_standing (s : State) (j c subtype rest) :
    (s.pathNotice j c subtype rest).standing = s.standing := by
  simp only [State.pathNotice]
  split <;> simp

/-! ## Stores and keys -/

@[simp] theorem State.fillImage_standing (s : State) (a e) :
    (s.fillImage a e).standing = s.standing := by simp [State.fillImage]

@[simp] theorem State.storeOne_standing (s : State) (p v a) :
    (s.storeOne p v a).standing = s.standing := by simp [State.storeOne]

@[simp] theorem State.writeStores_standing (s : State) (v) :
    (s.writeStores v).standing = s.standing := by
  simp only [State.writeStores]
  split <;> simp

@[simp] theorem State.tellResident_standing (s : State) (tenant id on) :
    (s.tellResident tenant id on).standing = s.standing := by simp [State.tellResident]

@[simp] theorem State.evictKey_standing (s : State) (tenant id) :
    (s.evictKey tenant id).standing = s.standing := by simp [State.evictKey]

@[simp] theorem State.queueInstalls_standing (s : State) (j) : (s.queueInstalls j).standing = s.standing := by
  simp only [State.queueInstalls]
  split
  · refine foldl_standing (fun u i => ?_) _ _
    split
    · split <;> rfl
    · rfl
  · rfl

@[simp] theorem State.requeueInstalls_standing (s : State) :
    s.requeueInstalls.standing = s.standing := by simp [State.requeueInstalls]

@[simp] theorem State.emptyRegion_standing (s : State) :
    s.emptyRegion.standing = s.standing := by simp [State.emptyRegion]

@[simp] theorem State.keepRegion_standing (s : State) (old : State) :
    (s.keepRegion old).standing = s.standing := by simp [State.keepRegion]

/-! ## Memory stacks -/

@[simp] theorem State.corruptKey_standing (s : State) (tenant id) :
    (s.corruptKey tenant id).standing = s.standing := by rfl

@[simp] theorem State.corruptWhere_standing (s : State) (f) : (s.corruptWhere f).standing = s.standing := by rfl

@[simp] theorem State.recordRow_standing (s : State) (k row) :
    (s.recordRow k row).standing = s.standing := by simp [State.recordRow]

@[simp] theorem State.candidate_standing (s : State) (k row) :
    (s.candidate k row).standing = s.standing := by simp [State.candidate]

@[simp] theorem State.rowEvent_standing (s : State) (k row) :
    (s.rowEvent k row).standing = s.standing := by simp [State.rowEvent]

@[simp] theorem State.glnPass_standing (s : State) : s.glnPass.standing = s.standing := by simp [State.glnPass]

@[simp] theorem State.gleanFault_standing (s : State) (k) :
    (s.gleanFault k).standing = s.standing := by simp [State.gleanFault]

@[simp] theorem State.redirect_standing (s : State) (k n) :
    (s.redirect k n).standing = s.standing := by simp [State.redirect]

/-! ## Pool units -/

@[simp] theorem State.unitDone_standing (s : State) (die n) : (s.unitDone die n).standing = s.standing := by rfl

@[simp] theorem State.unitFail_standing (s : State) (die u f ends) :
    (s.unitFail die u f ends).standing = s.standing := by simp [State.unitFail]

@[simp] theorem State.unitDrop_standing (s : State) (die u) :
    (s.unitDrop die u).standing = s.standing := by simp [State.unitDrop]

theorem unitWrite_standing {s t : State} {a h off bs pos} (hw : s.unitWrite a h off bs pos = .ok t) :
    t.standing = s.standing := by
  simp only [State.unitWrite] at hw
  split at hw
  · cases hw
  · cases hw
    simp

theorem writeLimbs_standing {s t : State} {logn a h off limbs pos} (hw : s.writeLimbs logn a h off limbs pos = .ok t) :
    t.standing = s.standing := by
  refine foldl_ok (P := fun u => u.standing = s.standing) (fun acc p u hacc hu => ?_) (fun u hu => ?_) hw
  · split at hu
    · cases hu
    · exact (unitWrite_standing hu).trans (hacc _ rfl)
  · cases hu
    rfl

theorem State.unitServe_standing (s : State) (die u) {r : Except Nat State}
    (hr : ∀ t, r = .ok t → t.standing = s.standing) :
    (s.unitServe die u r).standing = s.standing := by
  simp only [State.unitServe]
  split
  · simp
  · split
    · simp
    · simpa using hr _ rfl

theorem sow_standing {s t : State} {u} (h : s.sow u = .ok t) : t.standing = s.standing := by
  simp only [State.sow] at h
  split at h
  · split at h
    · cases h
    · exact writeLimbs_standing h
  · cases h

@[simp] theorem State.readDelay_standing (s : State) (u n mirror) :
    (s.readDelay u n mirror).standing = s.standing := by simp [State.readDelay]

@[simp] theorem State.pressure_standing (s : State) (u plan n) :
    (s.pressure u plan n).standing = s.standing := by simp [State.pressure]

@[simp] theorem State.overflowLost_standing (s : State) (l n bad) :
    (s.overflowLost l n bad).standing = s.standing := by
  simp only [State.overflowLost]
  repeat' split
  all_goals simp

theorem granDeliver_standing {s t : State} {u bs} (h : s.granDeliver u bs = .ok t) : t.standing = s.standing := by
  simp only [State.granDeliver] at h
  split at h
  · refine foldl_ok (P := fun v => v.standing = s.standing) (fun acc d v hacc hv => ?_) (fun v hv => ?_) h
    · split at hv
      · cases hv
      · exact (unitWrite_standing hv).trans (hacc _ rfl)
    · cases hv
      rfl
  · cases h

@[simp] theorem State.unitErrors_standing (s : State) (det rows) :
    (s.unitErrors det rows).standing = s.standing := by
  refine foldl_standing (fun _ _ => ?_) _ _
  repeat' split
  all_goals simp

@[simp] theorem State.bindSheaf_standing (s : State) (a h) :
    (s.bindSheaf a h).standing = s.standing := by simp [State.bindSheaf]

/-! ## Slots -/

@[simp] theorem State.payFor_standing (s : State) (t cost) : (s.payFor t cost).standing = s.standing := by rfl

@[simp] theorem State.bindJobs_standing (s : State) (e q ps) :
    (s.bindJobs e q ps).standing = s.standing := by
  simp only [State.bindJobs]
  split <;> simp

@[simp] theorem State.unfilled_standing (s : State) (q) : (s.unfilled q).standing = s.standing := by rfl

@[simp] theorem State.refuseBind_standing (s : State) (es cause) :
    (s.refuseBind es cause).standing = s.standing := by
  refine foldl_standing (fun _ _ => ?_) _ _
  repeat' split
  all_goals simp

@[simp] theorem State.bindDomain_standing (s : State) (p e q) :
    (s.bindDomain p e q).standing = s.standing := by
  simp only [State.bindDomain]
  repeat' split
  all_goals simp

@[simp] theorem State.bindShared_standing (s : State) (p e q) :
    (s.bindShared p e q).standing = s.standing := by
  simp only [State.bindShared]
  repeat' split
  all_goals simp

@[simp] theorem State.leadBind_standing (s : State) (p e q) :
    (s.leadBind p e q).standing = s.standing := by
  simp only [State.leadBind]
  split <;> simp

@[simp] theorem State.traceClearing_standing (s : State) (q shift a) :
    (s.traceClearing q shift a).standing = s.standing := by simp [State.traceClearing]

@[simp] theorem State.startRun_standing (s : State) (p q shift) :
    (s.startRun p q shift).standing = s.standing := by simp [State.startRun]

@[simp] theorem State.startShifted_standing (s : State) (epoch q) :
    (s.startShifted epoch q).1.standing = s.standing := by simp [State.startShifted]

@[simp] theorem State.startJob_standing (s : State) (p q r) :
    (s.startJob p q r).standing = s.standing := by simp [State.startJob]

@[simp] theorem State.installBytes_standing (s : State) (k c) :
    (s.installBytes k c).standing = s.standing := by simp [State.installBytes]

@[simp] theorem State.installFails_standing (s : State) (tenant id) :
    (s.installFails tenant id).standing = s.standing := by simp [State.installFails]

@[simp] theorem State.setReplicas_standing (s : State) (rs) : (s.setReplicas rs).standing = s.standing := by rfl

@[simp] theorem State.checkReplicas_standing (s : State) :
    s.checkReplicas.standing = s.standing := by simp [State.checkReplicas]

@[simp] theorem State.timeStep_standing (s : State) (q) :
    (s.timeStep q).standing = s.standing := by simp [State.timeStep]

@[simp] theorem State.measureDelays_standing (s : State) :
    s.measureDelays.standing = s.standing := by simp [State.measureDelays]

@[simp] theorem State.completeBound_standing (s : State) (r flags) :
    (s.completeBound r flags).standing = s.standing := by
  refine foldl_standing (fun _ _ => ?_) _ _
  repeat' split
  all_goals simp

@[simp] theorem State.dropRequests_standing (s : State) (q r) :
    (s.dropRequests q r).standing = s.standing := by simp [State.dropRequests]

@[simp] theorem State.freeReuse_standing (s : State) (slot) : (s.freeReuse slot).standing = s.standing := by rfl

@[simp] theorem State.closeArrays_standing (s : State) (q busy) :
    (s.closeArrays q busy).standing = s.standing := by simp [State.closeArrays]

@[simp] theorem State.endRun_standing (s : State) (q r) : (s.endRun q r).standing = s.standing := by simp [State.endRun]

@[simp] theorem State.performSwitch_standing (s : State) (v) :
    (s.performSwitch v).standing = s.standing := by simp [State.performSwitch]

@[simp] theorem State.switchStep_standing (s : State) (e) :
    (s.switchStep e).standing = s.standing := by
  simp only [State.switchStep]
  split <;> simp

@[simp] theorem State.fillDeficits_standing (s : State) (e) :
    (s.fillDeficits e).standing = s.standing := by simp [State.fillDeficits]

@[simp] theorem State.applyDma_standing (s : State) : s.applyDma.standing = s.standing := by rfl

@[simp] theorem State.memberGone_standing (s : State) (p) :
    (s.memberGone p).standing = s.standing := by simp [State.memberGone]

@[simp] theorem State.unacknowledged_standing (s : State) (e) : (s.unacknowledged e).standing = s.standing := by
  simp only [State.unacknowledged]
  split
  · exact foldl_standing State.memberGone_standing _ _
  · rfl

@[simp] theorem State.leaveDomain_standing (s : State) (reason) :
    (s.leaveDomain reason).standing = s.standing := by simp [State.leaveDomain]

@[simp] theorem State.sendVack_standing (s : State) (a) :
    (s.sendVack a).standing = s.standing := by simp [State.sendVack]

@[simp] theorem State.acknowledgeSwitch_standing (s : State) (a) :
    (s.acknowledgeSwitch a).standing = s.standing := by simp [State.acknowledgeSwitch]

@[simp] theorem State.ackStep_standing (s : State) (e) : (s.ackStep e).standing = s.standing := by simp [State.ackStep]

@[simp] theorem State.domainStep_standing (s : State) (e) :
    (s.domainStep e).standing = s.standing := by simp [State.domainStep]

@[simp] theorem State.freeArrays_standing (s : State) : s.freeArrays.standing = s.standing := by rfl

/-! ## Streams -/

@[simp] theorem State.freeKey_standing (s : State) (k) : (s.freeKey k).standing = s.standing := by rfl

@[simp] theorem State.reap_standing (s : State) : s.reap.standing = s.standing := by simp [State.reap]

@[simp] theorem State.settle_standing (s : State) (n) : (s.settle n).standing = s.standing := by simp [State.settle]

@[simp] theorem State.flush_standing (s : State) (n) : (s.flush n).standing = s.standing := by simp [State.flush]

@[simp] theorem State.dropDoorbell_standing (s : State) (n) : (s.dropDoorbell n).standing = s.standing := by rfl

@[simp] theorem State.takeEntry_standing (s : State) (i) : (s.takeEntry i).standing = s.standing := by rfl

@[simp] theorem State.admitJob_standing (s : State) (i) :
    (s.admitJob i).standing = s.standing := by
  simp only [State.admitJob]
  split <;> simp

@[simp] theorem State.noteReady_standing (s : State) (from' jobId prog tenant) :
    (s.noteReady from' jobId prog tenant).standing = s.standing := by rfl

@[simp] theorem State.tellReady_standing (s : State) (j) :
    (s.tellReady j).standing = s.standing := by simp [State.tellReady]

@[simp] theorem State.admitDomain_standing (s : State) (jobId aseq) :
    (s.admitDomain jobId aseq).standing = s.standing := by
  simp only [State.admitDomain]
  split <;> simp

@[simp] theorem State.leadCheck_standing (s : State) (jobId) :
    (s.leadCheck jobId).standing = s.standing := by
  simp only [State.leadCheck]
  split <;> simp

@[simp] theorem State.refuseDomain_standing (s : State) (jobId) :
    (s.refuseDomain jobId).standing = s.standing := by
  simp only [State.refuseDomain]
  split <;> simp

@[simp] theorem State.leadRefuse_standing (s : State) (jobId) :
    (s.leadRefuse jobId).standing = s.standing := by simp [State.leadRefuse]

@[simp] theorem State.tellRefuse_standing (s : State) (jobId code) :
    (s.tellRefuse jobId code).standing = s.standing := by simp [State.tellRefuse]

@[simp] theorem State.acceptJob_standing (s : State) (n d bufs keys) :
    (s.acceptJob n d bufs keys).standing = s.standing := by simp [State.acceptJob]

@[simp] theorem State.refuseDesc_standing (s : State) (n d code detail) :
    (s.refuseDesc n d code detail).standing = s.standing := by simp [State.refuseDesc]

@[simp] theorem State.readDesc_standing (s : State) (n) :
    (s.readDesc n).standing = s.standing := by
  simp only [State.readDesc]
  repeat' split
  all_goals simp

@[simp] theorem State.spoilOutputs_standing (s : State) (j) : (s.spoilOutputs j).standing = s.standing := by
  refine foldl_standing (fun u b => ?_) _ _
  dsimp only
  split
  · next h => simpa using hostWrite_standing h
  · simp

@[simp] theorem State.complete_standing (s : State) (j status detail inc) :
    (s.complete j status detail inc).standing = s.standing := by simp [State.complete]

@[simp] theorem State.enableStream_standing (s : State) (n) : (s.enableStream n).2.standing = s.standing := by
  simp only [State.enableStream]
  iterate 2
    split
    · rfl
  split
  · exact State.setStream_standing ..
  · split
    · exact (State.flush_standing ..).trans (State.setStream_standing ..)
    · exact State.setStream_standing ..

@[simp] theorem State.disableStream_standing (s : State) (n) :
    (s.disableStream n).2.standing = s.standing := by
  simp only [State.disableStream]
  split <;> simp

@[simp] theorem State.resetJobs_standing (s : State) (n) :
    (s.resetJobs n).standing = s.standing := by simp [State.resetJobs]

@[simp] theorem State.resetStream_standing (s : State) (n) :
    (s.resetStream n).2.standing = s.standing := by
  simp only [State.resetStream]
  split_ifs <;> simp

/-! ## The domain -/

@[simp] theorem State.forwardDctl_standing (s : State) (j d subtype fields) :
    (s.forwardDctl j d subtype fields).standing = s.standing := by
  simp only [State.forwardDctl]
  split <;> simp

@[simp] theorem State.sendJoinTo_standing (s : State) (lead) :
    (s.sendJoinTo lead).standing = s.standing := by
  simp only [State.sendJoinTo]
  split <;> simp

@[simp] theorem State.sendJoin_standing (s : State) :
    s.sendJoin.standing = s.standing := by
  simp only [State.sendJoin]
  split <;> simp

@[simp] theorem State.answerJoin_standing (s : State) (d digest) :
    (s.answerJoin d digest).standing = s.standing := by simp [State.answerJoin]

@[simp] theorem State.setClock_standing (s : State) (v) : (s.setClock v).standing = s.standing := by rfl

@[simp] theorem State.loadSecond_standing (s : State) (v) :
    (s.loadSecond v).standing = s.standing := by simp [State.loadSecond]

@[simp] theorem State.reportResidency_standing (s : State) :
    s.reportResidency.standing = s.standing := by simp [State.reportResidency]

@[simp] theorem State.takeAccept_standing (s : State) (d firstEpoch second members) :
    (s.takeAccept d firstEpoch second members).standing = s.standing := by simp [State.takeAccept]

@[simp] theorem State.refuseEnable_standing (s : State) (code detail) :
    (s.refuseEnable code detail).standing = s.standing := by rfl

@[simp] theorem State.joinFailed_standing (s : State) (code) :
    (s.joinFailed code).standing = s.standing := by simp [State.joinFailed]

@[simp] theorem State.noteSwitch_standing (s : State) (origin variant e) :
    (s.noteSwitch origin variant e).standing = s.standing := by rfl

@[simp] theorem State.abandonHere_standing (s : State) (jobId inc cause) :
    (s.abandonHere jobId inc cause).standing = s.standing := by
  simp only [State.abandonHere]
  split <;> simp

@[simp] theorem State.failHere_standing (s : State) (jobId inc detail) :
    (s.failHere jobId inc detail).standing = s.standing := by
  simp only [State.failHere]
  repeat' split
  all_goals simp

@[simp] theorem State.rebuild_standing (s : State) (reported) :
    (s.rebuild reported).standing = s.standing := by simp [State.rebuild]

@[simp] theorem State.collectCheck_standing (s : State) :
    s.collectCheck.standing = s.standing := by
  simp only [State.collectCheck]
  split <;> simp

@[simp] theorem State.takeLead_standing (s : State) : s.takeLead.standing = s.standing := by simp [State.takeLead]

@[simp] theorem State.sendReports_standing (s : State) (dst) :
    (s.sendReports dst).standing = s.standing := by simp [State.sendReports]

/-! ## Ports -/

@[simp] theorem State.modStreams_standing (s : State) (f g) :
    (s.modStreams f g).standing = s.standing := by simp [State.modStreams]

@[simp] theorem State.dropSels_standing (s : State) (p) : (s.dropSels p).standing = s.standing := by rfl

@[simp] theorem State.dropSnap_standing (s : State) (p) : (s.dropSnap p).standing = s.standing := by rfl

@[simp] theorem State.failHostReads_standing (s : State) (p) : (s.failHostReads p).standing = s.standing := by rfl

@[simp] theorem State.sendPending_standing (s : State) (f) :
    (s.sendPending f).standing = s.standing := by simp [State.sendPending]

@[simp] theorem State.setVfs_standing (s : State) (port n) :
    (s.setVfs port n).standing = s.standing := by simp [State.setVfs]

@[simp] theorem State.rewriteRecords_standing (s : State) (n) : (s.rewriteRecords n).standing = s.standing := by
  refine foldl_standing (fun u r => ?_) _ _
  dsimp only
  split
  · next h => exact hostWrite_standing h
  · simp

@[simp] theorem State.failStream_standing (s : State) (n) :
    (s.failStream n).standing = s.standing := by simp [State.failStream]

@[simp] theorem State.clearPort_standing (s : State) (port) :
    (s.clearPort port).standing = s.standing := by simp [State.clearPort]

/-! ## Enabling -/

@[simp] theorem State.joinSelf_standing (s : State) : s.joinSelf.standing = s.standing := by rfl

@[simp] theorem State.startJoin_standing (s : State) : s.startJoin.standing = s.standing := by simp [State.startJoin]

@[simp] theorem State.beginCheck_standing (s : State) : s.beginCheck.standing = s.standing := by simp [State.beginCheck]

@[simp] theorem State.setEnable_standing (s : State) :
    s.setEnable.2.standing = s.standing := by
  simp only [State.setEnable]
  split_ifs <;> simp

@[simp] theorem State.replayStream_standing (s : State) (n) :
    (s.replayStream n).standing = s.standing := by simp [State.replayStream]

@[simp] theorem State.replayJournal_standing (s : State) :
    s.replayJournal.standing = s.standing := by simp [State.replayJournal]

@[simp] theorem State.clearEnable_standing (s : State) :
    s.clearEnable.2.standing = s.standing := by
  simp only [State.clearEnable]
  split_ifs <;> simp

/-! ## Ports again -/

/-! ## Plans -/

@[simp] theorem State.rebindKeys_standing (s : State) : s.rebindKeys.standing = s.standing := by rfl

@[simp] theorem State.unloadPlan_standing (s : State) : s.unloadPlan.standing = s.standing := by simp [State.unloadPlan]

@[simp] theorem State.installPlan_standing (s : State) (img) :
    (s.installPlan img).standing = s.standing := by simp [State.installPlan]

@[simp] theorem State.refuseLoad_standing (s : State) (v) : (s.refuseLoad v).standing = s.standing := by rfl

@[simp] theorem State.startLoad_standing (s : State) (q) :
    (s.startLoad q).2.standing = s.standing := by
  simp only [State.startLoad]
  split_ifs <;> simp

@[simp] theorem State.finishLoad_standing (s : State) :
    s.finishLoad.standing = s.standing := by
  simp only [State.finishLoad]
  repeat' split
  all_goals simp

/-! ## Uploads -/

@[simp] theorem State.nextUpload_standing (s : State) (t) :
    (s.nextUpload t).standing = s.standing := by
  simp only [State.nextUpload]
  split <;> simp

@[simp] theorem State.refuseUpload_standing (s : State) (t code detail) :
    (s.refuseUpload t code detail).standing = s.standing := by simp [State.refuseUpload]

@[simp] theorem State.faultUpload_standing (s : State) (t) :
    (s.faultUpload t).standing = s.standing := by simp [State.faultUpload]

@[simp] theorem State.storeKey_standing (s : State) (t set m data first e bs) :
    (s.storeKey t set m data first e bs).standing = s.standing := by simp [State.storeKey]

@[simp] theorem State.storeKeys_standing (s : State) (t set m data places) :
    (s.storeKeys t set m data places).standing = s.standing := by
  simp only [State.storeKeys, State.nextUpload_standing, State.modTenant_standing]
  exact List.foldlRecOn (motive := fun r : Nat × State => r.2.standing = s.standing) _ _ rfl
    fun r hr e _ => by simpa using hr

@[simp] theorem State.finishUpload_standing (s : State) (t) :
    (s.finishUpload t).standing = s.standing := by
  simp only [State.finishUpload]
  repeat' split
  all_goals simp

@[simp] theorem State.queueUpload_standing (s : State) (t) :
    (s.queueUpload t).2.standing = s.standing := by
  simp only [State.queueUpload]
  split_ifs <;> simp

@[simp] theorem State.dropKey_standing (s : State) (t id) :
    (s.dropKey t id).2.standing = s.standing := by simp [State.dropKey]

@[simp] theorem State.activate_standing (s : State) (t) : (s.activate t).2.standing = s.standing := by rfl

@[simp] theorem State.disable_standing (s : State) (t) :
    (s.disable t).2.standing = s.standing := by
  simp only [State.disable]
  split <;> simp

@[simp] theorem State.clearTenant_standing (s : State) (t) :
    (s.clearTenant t).2.standing = s.standing := by
  simp only [State.clearTenant]
  split_ifs <;> simp

/-! ## Health -/

@[simp] theorem State.takeSample_standing (s : State) (temps powers) :
    (s.takeSample temps powers).standing = s.standing := by simp [State.takeSample]

@[simp] theorem State.gearSample_standing (s : State) : s.gearSample.standing = s.standing := by rfl

@[simp] theorem State.bindSample_standing (s : State) : s.bindSample.standing = s.standing := by simp [State.bindSample]

@[simp] theorem State.askFence_standing (s : State) (d) :
    (s.askFence d).2.standing = s.standing := by
  simp only [State.askFence]
  split_ifs <;> simp

@[simp] theorem State.askRetire_standing (s : State) (n) :
    (s.askRetire n).2.standing = s.standing := by
  simp only [State.askRetire]
  split_ifs <;> simp

@[simp] theorem State.noteLate_standing (s : State) (late) :
    (s.noteLate late).standing = s.standing := by simp [State.noteLate]

@[simp] theorem State.scrubWord_standing (s : State) (d p row e) :
    (s.scrubWord d p row e).standing = s.standing := by
  simp only [State.scrubWord]
  split <;> simp

@[simp] theorem State.ackEvent_standing (s : State) (seq) : (s.ackEvent seq).2.standing = s.standing := by
  simp only [State.ackEvent]
  split <;> rfl

@[simp] theorem sectorFail_replace (h : Health) : (sectorFail h).replace = h.replace := by simp [sectorFail]

@[simp] theorem sectorFail_fuses (h : Health) : (sectorFail h).fuses = h.fuses := by simp [sectorFail]

@[simp] theorem State.programNext_standing (s : State) (fail) : (s.programNext fail).standing = s.standing := by
  simp only [State.programNext]
  split
  · rfl
  · refine (State.recordCheck_standing _).trans ((standing_hm ?_ ?_).trans (State.reach_standing ..))
    · simp only [apply_ite Health.replace, recordAppend_replace, sectorFail_replace, ite_self]
    · simp only [apply_ite Health.fuses, recordAppend_fuses, sectorFail_fuses, ite_self]

/-! ## Security -/

@[simp] theorem State.refuseOffer_standing (s : State) (t code) : (s.refuseOffer t code).standing = s.standing := by rfl

@[simp] theorem State.refuseSubmit_standing (s : State) (t code) :
    (s.refuseSubmit t code).standing = s.standing := by rfl

@[simp] theorem State.startOffer_standing (s : State) (t) :
    (s.startOffer t).2.standing = s.standing := by
  simp only [State.startOffer]
  repeat' split
  all_goals simp

@[simp] theorem State.makeOffer_standing (s : State) (t) :
    (s.makeOffer t).standing = s.standing := by simp [State.makeOffer]

@[simp] theorem State.offerDone_standing (s : State) (t ok) :
    (s.offerDone t ok).standing = s.standing := by simp [State.offerDone]

@[simp] theorem State.startSubmit_standing (s : State) (t) :
    (s.startSubmit t).2.standing = s.standing := by
  simp only [State.startSubmit]
  repeat' split
  all_goals simp

@[simp] theorem State.submitDone_standing (s : State) (t ok) :
    (s.submitDone t ok).standing = s.standing := by
  simp only [State.submitDone]
  repeat' split
  all_goals simp

@[simp] theorem State.pdecNext_standing (s : State) (t) :
    (s.pdecNext t).standing = s.standing := by
  simp only [State.pdecNext]
  split <;> simp

@[simp] theorem State.pdecWipe_standing (s : State) (t) : (s.pdecWipe t).standing = s.standing := by rfl

@[simp] theorem State.pdecRefuse_standing (s : State) (t code) :
    (s.pdecRefuse t code).standing = s.standing := by simp [State.pdecRefuse]

theorem snd_ite_standing {α : Type} {c : Prop} [Decidable c] {p q : α × State} {a : Standing} (hp : p.2.standing = a)
    (hq : q.2.standing = a) : (if c then p else q).2.standing = a := by
  split <;> assumption

@[simp] theorem State.startPdec_standing (s : State) (t) : (s.startPdec t).2.standing = s.standing := by
  simp only [State.startPdec]
  iterate 7 refine snd_ite_standing (State.modTenant_standing ..) ?_
  simp

@[simp] theorem State.wipeShare_standing (s : State) (t) : (s.wipeShare t).2.standing = s.standing := by
  simp only [State.wipeShare]
  refine snd_ite_standing (State.modTenant_standing ..) ?_
  simp

@[simp] theorem State.scramble_standing (s : State) (t addr len) : (s.scramble t addr len).standing = s.standing := by
  simp only [State.scramble]
  cases h : (s.freshBytes len).2.hostWrite (fnOfEntry (s.tenant t).homeFn) (s.tenant t).pasid addr (s.freshBytes len).1
  · simp
  · simpa using hostWrite_standing h

@[simp] theorem State.pdecCompute_standing (s : State) (t p ps h req c1) :
    (s.pdecCompute t p ps h req c1).standing = s.standing := by
  simp only [State.pdecCompute]
  split
  · simp
  · next hd =>
    split
    · simp [hostWrite_standing hd]
    · next hb => simp [hostWrite_standing hb, hostWrite_standing hd]

@[simp] theorem State.pdecServe_standing (s : State) (t) : (s.pdecServe t).standing = s.standing := by
  simp only [State.pdecServe]
  split_ifs
  iterate 3 simp
  split
  · simp
  · split_ifs
    iterate 3 simp
    split
    · simp
    · split_ifs
      iterate 2 simp
      split
      · simp
      · split <;> simp
  · simp

@[simp] theorem State.refuseHm_standing (s : State) (code) : (s.refuseHm code).standing = s.standing := by rfl

@[simp] theorem State.startHm_standing (s : State) :
    s.startHm.2.standing = s.standing := by
  simp only [State.startHm]
  split_ifs <;> simp

@[simp] theorem State.hmDone_standing (s : State) (ok) : (s.hmDone ok).standing = s.standing := by simp [State.hmDone]

@[simp] theorem State.noteMismatch_standing (s : State) :
    s.noteMismatch.standing = s.standing := by simp [State.noteMismatch]

@[simp] theorem State.stopConsumers_standing (s : State) :
    s.stopConsumers.standing = s.standing := by
  simp only [State.stopConsumers]
  repeat' split
  all_goals simp

/-! ## BOOT -/

@[simp] theorem State.reapply_standing (s : State) (e) : (s.reapply e).standing = s.standing := by simp [State.reapply]

@[simp] theorem State.bootRecord_standing (s : State) : s.bootRecord.standing = s.standing := by simp [State.bootRecord]

@[simp] theorem State.bootSecurity_standing (s : State) (e) :
    (s.bootSecurity e).standing = s.standing := by simp [State.bootSecurity]

@[simp] theorem State.askReset_standing (s : State) (v) : (s.askReset v).2.standing = s.standing := by rfl

/-! ## Views -/

@[simp] theorem State.snapWrite_standing (s : State) (q v) :
    (s.snapWrite q v).2.standing = s.standing := by
  simp only [State.snapWrite]
  repeat' split
  all_goals simp

/-! ## Dictionary entries -/

@[simp] theorem State.setSel_standing (s : State) (q x) : (s.setSel q x).standing = s.standing := by rfl

@[simp] theorem State.afterLoftRead_standing (s : State) (q d) : (s.afterLoftRead q d).standing = s.standing := by rfl

@[simp] theorem State.afterSlotRead_standing (s : State) (q) : (s.afterSlotRead q).standing = s.standing := by rfl

@[simp] theorem State.afterSkewRead_standing (s : State) : s.afterSkewRead.standing = s.standing := by rfl

@[simp] theorem State.afterTempRead_standing (s : State) (d) : (s.afterTempRead d).standing = s.standing := by rfl

@[simp] theorem State.afterPageRead_standing (s : State) (q sub) :
    (s.afterPageRead q sub).standing = s.standing := by rfl

@[simp] theorem State.touchSnap_standing (s : State) (q index) :
    (s.touchSnap q index).standing = s.standing := by simp [State.touchSnap]

@[simp] theorem State.afterRead_standing (s : State) (q index sub) :
    (s.afterRead q index sub).standing = s.standing := by simp [State.afterRead]

/-! ## The dictionary -/

@[simp] theorem State.requestVariant_standing (s : State) (v) :
    (s.requestVariant v).2.standing = s.standing := by
  simp only [State.requestVariant]
  split_ifs <;> simp

@[simp] theorem State.startMargin_standing (s : State) :
    s.startMargin.2.standing = s.standing := by
  simp only [State.startMargin]
  split_ifs <;> simp

@[simp] theorem State.runDump_standing (s : State) (q) : (s.runDump q).2.standing = s.standing := by
  simp only [State.runDump]
  split
  · split_ifs
    · rfl
    · split
      · next h => simpa using hostWrite_standing h
      · simp
  all_goals rfl

@[simp] theorem State.writeVkey_standing (s : State) (t bs) :
    (s.writeVkey t bs).2.standing = s.standing := by
  simp only [State.writeVkey]
  split_ifs <;> simp

@[simp] theorem took_standing (s : State) : (took s).2.standing = s.standing := by rfl

@[simp] theorem State.writeTenant_standing (s : State) (q index sub v) :
    (s.writeTenant q index sub v).2.standing = s.standing := by
  simp only [State.writeTenant]
  repeat' split
  all_goals simp

@[simp] theorem State.writeStream_standing (s : State) (q index sub v) :
    (s.writeStream q index sub v).2.standing = s.standing := by
  simp only [State.writeStream]
  split_ifs <;> simp

@[simp] theorem State.writePlan_standing (s : State) (q index sub v) :
    (s.writePlan q index sub v).2.standing = s.standing := by
  simp only [State.writePlan]
  split <;> simp

@[simp] theorem State.writeHealth_standing (s : State) (q index sub v bs) :
    (s.writeHealth q index sub v bs).2.standing = s.standing := by
  simp only [State.writeHealth]
  split <;> simp

@[simp] theorem State.writeSec_standing (s : State) (q index sub v bs) :
    (s.writeSec q index sub v bs).2.standing = s.standing := by
  simp only [State.writeSec]
  repeat' split
  all_goals simp

@[simp] theorem State.writeTools_standing (s : State) (q index sub v bs) :
    (s.writeTools q index sub v bs).2.standing = s.standing := by
  simp only [State.writeTools]
  split <;> simp

@[simp] theorem State.writeMirror_standing (s : State) (q index sub v) :
    (s.writeMirror q index sub v).2.standing = s.standing := by
  simp only [State.writeMirror]
  split <;> simp

@[simp] theorem State.writeDieSel_standing (s : State) (q index v) :
    (s.writeDieSel q index v).2.standing = s.standing := by
  simp only [State.writeDieSel]
  split_ifs <;> simp

@[simp] theorem State.dictRead_standing (s : State) (q index sub) :
    (s.dictRead q index sub).2.2.standing = s.standing := by
  simp only [State.dictRead]
  repeat' split
  all_goals simp

@[simp] theorem State.query_standing (s : State) (q index sub) :
    (s.query q index sub).standing = s.standing := by simp [State.query]

/-! ## Management -/

@[simp] theorem State.dropFrag_standing (s : State) (q tag) : (s.dropFrag q tag).standing = s.standing := by rfl

@[simp] theorem State.mgmtSend_standing (s : State) (j op m) :
    (s.mgmtSend j op m).standing = s.standing := by
  simp only [State.mgmtSend]
  split <;> simp

@[simp] theorem State.mgmtAnswer_standing (s : State) (j m status value) :
    (s.mgmtAnswer j m status value).standing = s.standing := by simp [State.mgmtAnswer]

@[simp] theorem State.mboxDone_standing (s : State) (f m status len value) :
    (s.mboxDone f m status len value).standing = s.standing := by rfl

@[simp] theorem State.mctpAnswer_standing (s : State) (cmd bytes) :
    (s.mctpAnswer cmd bytes).standing = s.standing := by rfl

/-! ## PPS -/

@[simp] theorem State.validPps_standing (s : State) (captured third) :
    (s.validPps captured third).standing = s.standing := by simp [State.validPps]

end Sys2Proof.Machine
end

section
/-! Operations that only drift: the part's state stands still or follows the replace triggers (R484), and fences burn
blank fuses (R490). The rest of the standing is kept. -/

namespace Sys2Proof.Machine

/-- The fuses after a step: as many, and each burnt one as it was (R490). -/
def FusesKept (fs gs : List Byte) : Prop :=
  gs.length = fs.length ∧ ∀ i, fs.getD i 0 ≠ 0 → gs.getD i 0 = fs.getD i 0

theorem FusesKept.refl (fs : List Byte) : FusesKept fs fs := ⟨rfl, fun _ _ => rfl⟩

theorem FusesKept.trans {fs gs hs : List Byte} (h : FusesKept fs gs) (h' : FusesKept gs hs) : FusesKept fs hs := by
  refine ⟨h'.1.trans h.1, fun i hi => ?_⟩
  have hgi := h.2 i hi
  rw [h'.2 i (hgi ▸ hi), hgi]

theorem FusesKept.append {fs gs : List Byte} (h : FusesKept fs gs) {b c : Byte} (hb : b ≠ 0 → c = b) :
    FusesKept (fs ++ [b]) (gs ++ [c]) := by
  obtain ⟨hlen, hkept⟩ := h
  refine ⟨by simp [hlen], fun i hi => ?_⟩
  rcases Nat.lt_trichotomy i fs.length with hlt | rfl | hgt
  · rw [List.getD_append _ _ _ _ hlt] at hi ⊢
    rw [List.getD_append _ _ _ _ (hlen ▸ hlt), hkept i hi]
  · simp_all
  · simp [hgt] at hi

/-- Burning fills blank fuses only. -/
theorem burnFuses_kept (fs : List Byte) (d : Nat) : FusesKept fs (burnFuses fs d) := by
  rw [burnFuses]
  split
  · exact .refl fs
  · clear * -
    induction fs using List.reverseRecOn with
    | nil => exact .refl _
    | append_singleton fs b ih =>
      rw [List.foldl_append, List.foldl_cons, List.foldl_nil]
      split_ifs with hb
      · exact ih.append fun h => absurd hb.1 h
      · exact ih.append fun _ => rfl

/-- R484: the part's state that the replace triggers give. -/
def PartState.follow (p : PartState) (triggers : BitVec 8) : PartState :=
  if p == .enabled && triggers != 0#8 then .replaceRequested
  else if p == .replaceRequested && triggers == 0#8 then .enabled else p

@[simp] theorem PartState.follow_follow (p : PartState) (x y) : (p.follow x).follow y = p.follow y := by
  cases p
  case enabled => by_cases hx : x = 0#8 <;> simp [PartState.follow, hx]
  case replaceRequested => by_cases hx : x = 0#8 <;> simp [PartState.follow, hx]
  all_goals rfl

/-- The standing moves without an event of R518: the part's state stands still or follows the replace triggers, the SAFE
row stays, and so do burnt fuses. -/
structure Standing.Drifts (a b : Standing) : Prop where
  safeRow : b.safeRow = a.safeRow
  part : b.part = a.part ∧ b.replace = a.replace ∨ b.part = a.part.follow b.replace
  fuses : FusesKept a.fuses b.fuses

@[simp] theorem Standing.Drifts.refl (a : Standing) : a.Drifts a := ⟨rfl, .inl ⟨rfl, rfl⟩, .refl _⟩

theorem Standing.Drifts.of_eq {a b : Standing} (h : b = a) : a.Drifts b := h ▸ .refl _

theorem Standing.Drifts.trans {a b c : Standing} (h : a.Drifts b) (h' : b.Drifts c) : a.Drifts c := by
  obtain ⟨hrow, hpart, hfuses⟩ := h
  obtain ⟨hrow', hpart', hfuses'⟩ := h'
  refine ⟨hrow'.trans hrow, ?_, hfuses.trans hfuses'⟩
  rcases hpart with ⟨hp, hr⟩ | hp <;> rcases hpart' with ⟨hp', hr'⟩ | hp'
  · exact .inl ⟨hp'.trans hp, hr'.trans hr⟩
  · exact .inr (hp ▸ hp')
  · exact .inr (by rw [hp', hr', hp])
  · exact .inr (by rw [hp', hp, PartState.follow_follow])

@[simp] theorem drifts_ite (a b c : Standing) (p : Prop) [Decidable p] :
    a.Drifts (if p then b else c) ↔ if p then a.Drifts b else a.Drifts c := by
  split <;> rfl

/-- A loop whose every turn drifts drifts. -/
@[simp] theorem foldl_drifts {α : Type} {f : State → α → State} {a : Standing} {s : State}
    (hf : ∀ (u : State) x, u.standing.Drifts (f u x).standing) (l : List α) (h : a.Drifts s.standing) :
    a.Drifts (l.foldl f s).standing :=
  List.foldlRecOn l f (motive := fun u => a.Drifts u.standing) h fun u hu x _ => hu.trans (hf u x)

/-- The replace triggers as R484 leaves them. -/
def State.newTriggers (s : State) : BitVec 8 := (s.hm.replace &&& 0xF7#8) ||| s.triggers

theorem standing_part (s : State) (p) :
    ({ s with pw := { s.pw with part := p } } : State).standing = { s.standing with part := p } := by rfl

/-- The part's state follows the replace triggers. -/
theorem State.replaceCheck_standing (s : State) : s.replaceCheck.standing =
    { s.standing with part := s.pw.part.follow s.newTriggers, replace := s.newTriggers } := by
  simp only [State.replaceCheck]
  generalize hu : List.foldl _ _ _ = u
  have hlogged : u.standing = { s.standing with replace := s.newTriggers } :=
    hu ▸ (foldl_standing (fun _ _ => State.log_standing ..) _ _).trans rfl
  have hpart : u.pw.part = s.pw.part := congrArg Standing.part hlogged
  rw [hpart]
  exact (standing_part u _).trans (hlogged ▸ rfl)

/-- Fencing a die burns its number. -/
theorem State.fence_standing (s : State) (d cause) (hd : (s.die d).fenced = false) :
    (s.fence d cause).standing = { s.standing with fuses := burnFuses s.hm.fuses d } := by
  simp only [State.fence, hd, Bool.false_eq_true, if_false, State.log_standing, State.record_standing]
  generalize hu : State.modDie _ _ _ = u
  have hstopped : u.standing = s.standing := by simp [← hu]
  have hfuses : u.hm.fuses = s.hm.fuses := congrArg Standing.fuses hstopped
  rw [hfuses, ← hstopped]
  rfl

section
variable {σ : Standing} {s : State} (h : σ.Drifts s.standing)
include h

@[simp] theorem State.replaceCheck_drifts : σ.Drifts s.replaceCheck.standing :=
  h.trans (s.replaceCheck_standing ▸ ⟨rfl, .inr rfl, .refl _⟩)

@[simp] theorem State.fence_drifts (d cause) : σ.Drifts (s.fence d cause).standing := by
  cases hd : (s.die d).fenced
  · rw [s.fence_standing d cause hd]
    exact h.trans ⟨rfl, .inl ⟨rfl, rfl⟩, burnFuses_kept ..⟩
  · simpa [State.fence, hd] using h

@[simp] theorem State.receive_drifts (r prot early) {k : State → State} (hk : ∀ u : State, u.standing.Drifts (k u).standing) :
    σ.Drifts (s.receive r prot early k).standing := by
  rcases receive_cases s r prot early k with hr | hr | hr | hr | hr <;> rw [hr]
  · exact h
  · simpa using h
  · simpa using h
  · simpa using h
  · exact (by simpa using h : σ.Drifts (s.takeFrame r).standing).trans (hk _)

end

/-! ### What reaches a fence or the replace triggers -/

@[simp] theorem State.serve_granDeliver_standing (s : State) (die u bs) :
    (s.unitServe die u (s.granDeliver u bs)).standing = s.standing :=
  s.unitServe_standing _ _ fun _ => granDeliver_standing

theorem makeRoom_standing (s : State) (n fuel) : (s.makeRoom n fuel).1.standing = s.standing := by
  induction fuel generalizing s with
  | zero => rfl
  | succ k ih =>
    simp only [State.makeRoom]
    split
    · rfl
    · split
      · simp [ih]
      · rfl

theorem takeFrag_standing (s : State) (size q tag index sub frag value) :
    (s.takeFrag size q tag index sub frag value).2.standing = s.standing := by
  simp only [State.takeFrag]
  repeat' split
  all_goals simp

section
variable {σ : Standing} {s : State} (h : σ.Drifts s.standing)
include h

@[simp] theorem State.dueFences_drifts :
    σ.Drifts s.dueFences.standing := by
  simp only [State.dueFences]
  split <;> simp [h]

@[simp] theorem State.softFences_drifts :
    σ.Drifts s.softFences.standing := by simp [State.softFences, h]

@[simp] theorem State.startRetirement_drifts (d a) :
    σ.Drifts (s.startRetirement d a).standing := by
  simp only [State.startRetirement]
  split <;> simp [h]

@[simp] theorem State.retirements_drifts : σ.Drifts s.retirements.standing := by
  simp only [State.retirements]
  split
  · exact h
  · refine foldl_drifts (fun u d => ?_) _ h
    repeat' split
    all_goals simp

@[simp] theorem State.evaluateHealth_drifts : σ.Drifts s.evaluateHealth.standing := by
  have hunits : σ.Drifts s.dueFences.softFences.retirements.standing := by
    exact State.retirements_drifts (State.softFences_drifts (State.dueFences_drifts h))
  refine State.replaceCheck_drifts ?_
  split <;> simpa using hunits

@[simp] theorem State.linkFail_drifts (j reason) :
    σ.Drifts (s.linkFail j reason).standing := by simp [State.linkFail, h]

@[simp] theorem State.trainFail_drifts (j) :
    σ.Drifts (s.trainFail j).standing := by simp [State.trainFail, h]

@[simp] theorem State.startTraining_drifts (r) :
    σ.Drifts (s.startTraining r).standing := by simp [State.startTraining, h]

@[simp] theorem State.trainDone_drifts (j) :
    σ.Drifts (s.trainDone j).standing := by simp [State.trainDone, h]

@[simp] theorem State.answerNak_drifts (j expect) :
    σ.Drifts (s.answerNak j expect).standing := by simp [State.answerNak, h]

@[simp] theorem State.takeHello_drifts (j b) : σ.Drifts (s.takeHello j b).standing := by
  simp only [State.takeHello]
  split
  · split <;> simp [h]
  · exact h

@[simp] theorem State.kexFinish_drifts (j) :
    σ.Drifts (s.kexFinish j).standing := by
  simp only [State.kexFinish]
  repeat' split
  all_goals simp [h]

@[simp] theorem State.kexDone_drifts (j ok) :
    σ.Drifts (s.kexDone j ok).standing := by simp [State.kexDone, h]

@[simp] theorem State.measure_drifts (j tTx echoTx echoRx rxTime) :
    σ.Drifts (s.measure j tTx echoTx echoRx rxTime).standing := by simp [State.measure, h]

@[simp] theorem State.dropLane_drifts (j lane) :
    σ.Drifts (s.dropLane j lane).standing := by simp [State.dropLane, h]

@[simp] theorem State.retrainLink_drifts (j) :
    σ.Drifts (s.retrainLink j).2.standing := by
  simp only [State.retrainLink]
  split <;> simp [h]

@[simp] theorem State.loseStack_drifts (k) :
    σ.Drifts (s.loseStack k).standing := by simp [State.loseStack, h]

@[simp] theorem State.rowUncorr_drifts (k row) :
    σ.Drifts (s.rowUncorr k row).standing := by simp [State.rowUncorr, h]

@[simp] theorem State.readLine_drifts (block line st) :
    σ.Drifts (s.readLine block line st).1.standing := by
  simp only [State.readLine]
  split_ifs <;> simp [h]

@[simp] theorem State.glean_drifts (k block lines) :
    σ.Drifts (s.glean k block lines).standing := by simp [State.glean, h]

@[simp] theorem State.hubLine_drifts (hint block line st) :
    σ.Drifts (s.hubLine hint block line st).1.standing := by
  simp only [State.hubLine]
  split_ifs <;> simp [h]

omit h in
theorem granLine_drifts {g : GranRead} (hg : σ.Drifts g.s.standing) (u key i st) :
    σ.Drifts (granLine u key g i st).s.standing := by
  simp only [granLine]
  split <;> simp [hg]

@[simp] theorem State.granRead_drifts (u key lines) : σ.Drifts (s.granRead u key lines).s.standing := by
  have hread : σ.Drifts ((List.range (u.len / 2048)).foldl
      (fun g i => granLine u key g i (lines.getD i .clean)) { s := s }).s.standing :=
    List.foldlRecOn (motive := fun g : GranRead => σ.Drifts g.s.standing) _ _ h fun g hg i _ => granLine_drifts hg ..
  simp only [State.granRead]
  split
  · simpa using hread
  · exact hread

@[simp] theorem State.granServe_drifts (die u lines) : σ.Drifts (s.granServe die u lines).standing := by
  simp only [State.granServe]
  repeat' split
  all_goals simp [h]

@[simp] theorem State.installRead_drifts (k lines) : σ.Drifts (s.installRead k lines).1.standing :=
  List.foldlRecOn (motive := fun r : State × Bool => σ.Drifts r.1.standing) _ _ h fun r hr b _ =>
    List.foldlRecOn (motive := fun r : State × Bool => σ.Drifts r.1.standing) _ _ hr fun r hr i _ => by simp [hr]

@[simp] theorem State.installHead_drifts (capacity lines) : σ.Drifts (s.installHead capacity lines).1.standing := by
  simp only [State.installHead]
  split
  · exact h
  · split
    · simp [h]
    · split
      · simp [h]
      · split
        · exact h
        · split
          · simp [h, makeRoom_standing]
          · split <;> simp [h, makeRoom_standing]

@[simp] theorem State.startInstall_drifts (p q lines) :
    σ.Drifts (s.startInstall p q lines).standing := by
  simp only [State.startInstall]
  split <;> simp [h]

@[simp] theorem State.boundary_drifts :
    σ.Drifts s.boundary.standing := by
  simp only [State.boundary]
  split <;> simp [h]

@[simp] theorem State.moveArray_drifts (d a p q) :
    σ.Drifts (s.moveArray d a p q).standing := by simp [State.moveArray, h]

@[simp] theorem State.sigFinish_drifts (op ok) :
    σ.Drifts (s.sigFinish op ok).standing := by
  simp only [State.sigFinish]
  split <;> simp [h]

@[simp] theorem State.failEngine_drifts :
    σ.Drifts s.failEngine.standing := by simp [State.failEngine, h]

@[simp] theorem State.bootRetire_drifts (d p) :
    σ.Drifts (s.bootRetire d p).standing := by
  simp only [State.bootRetire]
  repeat' split
  all_goals simp [h]

@[simp] theorem State.bootDie_drifts (e d) : σ.Drifts (s.bootDie e d).standing := by
  simp only [State.bootDie]
  split
  · exact h
  · split
    · exact State.fence_drifts h ..
    · exact foldl_drifts (fun u p => State.bootRetire_drifts (.refl _) d p) _ h

@[simp] theorem State.retireRow_drifts (k n) :
    σ.Drifts (s.retireRow k n).standing := by simp [State.retireRow, h]

@[simp] theorem State.repairStack_drifts (e k) :
    σ.Drifts (s.repairStack e k).standing := by simp [State.repairStack, h]

@[simp] theorem State.dieTests_drifts (e) : σ.Drifts (s.dieTests e).standing := by
  have hdies := foldl_drifts (f := fun u d => u.bootDie e d) (fun u d => State.bootDie_drifts (.refl _) e d)
    (List.range 8) h
  have hlost := foldl_drifts (f := State.loseStack) (fun u k => State.loseStack_drifts (.refl _) k) e.stackFail hdies
  have hrepaired := foldl_drifts (f := fun u k => u.repairStack e k) (fun u k => State.repairStack_drifts (.refl _) e k)
    (List.range 6) hlost
  simp only [State.dieTests]
  split
  · simpa using hrepaired
  · exact hrepaired

@[simp] theorem State.writeLinks_drifts (index sub v bs) :
    σ.Drifts (s.writeLinks index sub v bs).2.standing := by
  simp only [State.writeLinks]
  split <;> simp [h]

@[simp] theorem State.writeVal_drifts (q index sub bs) :
    σ.Drifts (s.writeVal q index sub bs).2.standing := by
  simp only [State.writeVal]
  repeat' split
  all_goals simp [h]

@[simp] theorem State.dictWrite_drifts (q index sub bs) :
    σ.Drifts (s.dictWrite q index sub bs).2.standing := by
  simp only [State.dictWrite]
  repeat' split
  all_goals simp [h]

@[simp] theorem State.command_drifts (q index sub bs) :
    σ.Drifts (s.command q index sub bs).standing := by simp [State.command, h]

theorem takeFrag_drifts {size q tag index sub frag value r}
    (ht : (s.takeFrag size q tag index sub frag value).1 = some r) : σ.Drifts r.2.standing := by
  simp only [State.takeFrag] at ht
  repeat' split at ht
  all_goals cases ht
  all_goals simp [h]

@[simp] theorem State.mboxServe_drifts (f m) :
    σ.Drifts (s.mboxServe f m).standing := by
  simp only [State.mboxServe]
  split <;> simp [h]

@[simp] theorem State.takeMctp_drifts (m) : σ.Drifts (s.takeMctp m).standing := by
  simp only [State.takeMctp]
  split
  · simp [h]
  · split
    · simp [h, takeFrag_standing]
    · next ht => simp [takeFrag_drifts h ht]
  · exact h

end

end Sys2Proof.Machine
end

section
/-! Commands that only drift, which are all but the events of R518 and R485. -/

namespace Sys2Proof.Machine

section
variable {σ : Standing} {s : State} (h : σ.Drifts s.standing)
include h

@[simp] theorem State.receiveKex_drifts (r) {k : State → State} (hk : ∀ u : State, u.standing.Drifts (k u).standing) :
    σ.Drifts (s.receiveKex r k).standing := by
  simp only [State.receiveKex]
  split
  · simpa using h
  · exact State.receive_drifts h r false true hk

@[simp] theorem State.fromLead_drifts (d) {k : State → State} (hk : ∀ u : State, u.standing.Drifts (k u).standing) :
    σ.Drifts (s.fromLead d k).standing := by
  simp only [State.fromLead]
  split
  · exact h.trans (hk s)
  · exact h

@[simp] theorem State.atLead_drifts {k : State → State} (hk : ∀ u : State, u.standing.Drifts (k u).standing) :
    σ.Drifts (s.atLead k).standing := by
  simp only [State.atLead]
  split
  · exact h.trans (hk s)
  · exact h

@[simp] theorem State.receiveDctl_drifts (r d subtype fields) {k : State → State}
    (hk : ∀ u : State, u.standing.Drifts (k u).standing) :
    σ.Drifts (s.receiveDctl r d subtype fields k).standing := by
  refine State.receive_drifts h r true false fun u => ?_
  split
  · simp
  · split
    · exact .refl _
    · dsimp only
      split
      · exact .trans (by simp) (hk _)
      · exact .refl _

@[simp] theorem State.receiveMgmt_drifts (r op m) {k : State → State}
    (hk : ∀ u : State, u.standing.Drifts (k u).standing) : σ.Drifts (s.receiveMgmt r op m k).standing := by
  refine State.receive_drifts h r true false fun u => ?_
  repeat' split
  · simp
  · exact hk _
  · exact .refl _

@[simp] theorem State.badSubtype_drifts (rx head subtype) : σ.Drifts (s.badSubtype rx head subtype).standing := by
  simp only [State.badSubtype]
  split
  · exact State.receive_drifts h _ _ _ fun u => by simp
  · exact State.receive_drifts h _ _ _ fun u => by simp

end

/-- The standing only drifts to any state that a command answers. -/
def Standing.DriftsBy (σ : Standing) (r : Res) : Prop := ∀ t, r = .next t → σ.Drifts t.standing

section
variable {σ : Standing}

@[simp] theorem driftsBy_next (t : State) : σ.DriftsBy (.next t) ↔ σ.Drifts t.standing := by
  simp [Standing.DriftsBy]

@[simp] theorem driftsBy_refused (r) : σ.DriftsBy (.refused r) := by simp [Standing.DriftsBy]

@[simp] theorem driftsBy_need (ok what k) : σ.DriftsBy (need ok what k) ↔ (ok = true → σ.DriftsBy k) := by
  simp only [Standing.DriftsBy, need_next]
  tauto

@[simp] theorem driftsBy_arises (ok why k) : σ.DriftsBy (arises ok why k) ↔ (ok = true → σ.DriftsBy k) := by
  simp only [Standing.DriftsBy, arises_next]
  tauto

@[simp] theorem driftsBy_formed (ok why k) : σ.DriftsBy (formed ok why k) ↔ (ok = true → σ.DriftsBy k) := by
  simp only [Standing.DriftsBy, formed_next]
  tauto

end

/-! ### Words -/

theorem runExec_drifts (s : State) (ok x op) : s.standing.DriftsBy (runExec ok x op s) := by
  simp [runExec]

theorem runCore_drifts {s t : State} (ok c) (h : t.standing = s.standing) : s.standing.DriftsBy (runCore ok c s t) := by
  simp [runCore, h]

theorem aluWord_drifts (s : State) (g c) :
    s.standing.DriftsBy (aluWord g c s) := runCore_drifts _ _ (s.coreAlu_standing ..)

theorem cmpWord_drifts (s : State) (g c) :
    s.standing.DriftsBy (cmpWord g c s) := runCore_drifts _ _ (s.coreAlu_standing ..)

theorem atomicCmd_drifts (s : State) (aop a) : s.standing.DriftsBy (atomicCmd aop a s) := by
  simp only [atomicCmd, driftsBy_need]
  split <;> simp

theorem thresh_standing {s t : State} {u rows} (h : s.thresh u = .ok (t, rows)) : t.standing = s.standing := by
  simp only [State.thresh] at h
  split at h
  iterate 2 cases h
  · split at h
    · cases h
    · split at h
      · cases h
      · next hw =>
        cases h
        exact unitWrite_standing hw
  · cases h

theorem binderWork_standing {s t : State} {u rows} (h : s.binderWork u = .ok (t, rows)) : t.standing = s.standing := by
  simp only [State.binderWork] at h
  split at h
  · cases h
  · split at h
    · cases h
    · split at h
      · cases h
      · split at h
        · cases h
        · next hw =>
          cases h
          simpa using writeLimbs_standing hw
      · cases h

theorem pairUnit_drifts (s : State) (unit sub) {work : State → UnitReq → PairWork}
    (hwork : ∀ u t rows, work s u = .ok (t, rows) → t.standing = s.standing) (die det) :
    s.standing.DriftsBy (pairUnit unit sub work die det s) := by
  simp only [pairUnit, driftsBy_need]
  intro _
  split
  · simp
  · split
    · simp
    · next hw =>
      split
      · simp
      · simp [State.unitServe, apply_ite State.standing, hwork _ _ _ hw]

/-! ### Ports, the reference clock and the thermal hold -/

theorem execPortReset_drifts (s : State) (port) : s.standing.DriftsBy (execPortReset port s) := by simp [execPortReset]

theorem execFunctionLevelReset_drifts (s : State) (f) : s.standing.DriftsBy (execFunctionLevelReset f s) := by
  simp [execFunctionLevelReset]

theorem execBusMasterEnableSet_drifts (s : State) (f) : s.standing.DriftsBy (execBusMasterEnableSet f s) := by
  simp [execBusMasterEnableSet]

theorem execMsixUnmask_drifts (s : State) (f v) : s.standing.DriftsBy (execMsixUnmask f v s) := by simp [execMsixUnmask]

theorem execHostPortFailure_drifts (s : State) (port) : s.standing.DriftsBy (execHostPortFailure port s) := by
  simp [execHostPortFailure]

theorem execRefclkLock_drifts (s : State) (env) : s.standing.DriftsBy (execRefclkLock env s) := by simp [execRefclkLock]

theorem execRefclkStateChange_drifts (s : State) (st) : s.standing.DriftsBy (execRefclkStateChange st s) := by
  simp [execRefclkStateChange]

theorem execThermalBootHoldRelease_drifts (s : State) : s.standing.DriftsBy (execThermalBootHoldRelease s) := by
  simp [execThermalBootHoldRelease]

/-! ### Links -/

theorem execLinkStart_drifts (s : State) (r) : s.standing.DriftsBy (execLinkStart r s) := by simp [execLinkStart]

theorem execNotReadyWaitExpiry_drifts (s : State) (r) : s.standing.DriftsBy (execNotReadyWaitExpiry r s) := by
  simp [execNotReadyWaitExpiry]

theorem execTrainingRetry_drifts (s : State) (r) : s.standing.DriftsBy (execTrainingRetry r s) := by
  simp [execTrainingRetry]

theorem execLaneFailure_drifts (s : State) (j lane) : s.standing.DriftsBy (execLaneFailure j lane s) := by
  simp [execLaneFailure]

theorem execFlockLoss_drifts (s : State) (j) : s.standing.DriftsBy (execFlockLoss j s) := by simp [execFlockLoss]

theorem execIdle_drifts (s : State) (rx) : s.standing.DriftsBy (execIdle rx s) := by simp [execIdle]

theorem execOpenFrame_drifts (s : State) (rx o) : s.standing.DriftsBy (execOpenFrame rx o s) := by
  simp only [execOpenFrame, driftsBy_need, driftsBy_next]
  exact fun _ => State.receive_drifts (.refl _) _ _ _ fun u => by split <;> simp

theorem execDataFrame_drifts (s : State) (rx payload) : s.standing.DriftsBy (execDataFrame rx payload s) := by
  simp only [execDataFrame, driftsBy_need, driftsBy_next]
  exact fun _ => State.receive_drifts (.refl _) _ _ _ fun u => by split <;> simp

theorem execLack_drifts (s : State) (rx es) : s.standing.DriftsBy (execLack rx es s) := by
  simp only [execLack, driftsBy_need, driftsBy_next]
  exact fun _ => State.receive_drifts (.refl _) _ _ _ fun u => by split <;> simp

theorem execNak_drifts (s : State) (rx expect) : s.standing.DriftsBy (execNak rx expect s) := by simp [execNak]

theorem execDelayFrame_drifts (s : State) (rx tTx echoTx echoRx rxTime) :
    s.standing.DriftsBy (execDelayFrame rx tTx echoTx echoRx rxTime s) := by
  simp [execDelayFrame]

theorem execHello_drifts (s : State) (rx h) : s.standing.DriftsBy (execHello rx h s) := by simp [execHello]

theorem execKex_drifts (s : State) (rx frag lastFrag body) : s.standing.DriftsBy (execKex rx frag lastFrag body s) := by
  simp [execKex]

theorem execRekey_drifts (s : State) (rx b) : s.standing.DriftsBy (execRekey rx b s) := by simp [execRekey]

theorem execPathDown_drifts (s : State) (rx chan reason) : s.standing.DriftsBy (execPathDown rx chan reason s) := by
  simp [execPathDown]

theorem execPathUp_drifts (s : State) (rx chan epoch) : s.standing.DriftsBy (execPathUp rx chan epoch s) := by
  simp [execPathUp]

theorem execRekeyStart_drifts (s : State) (j) : s.standing.DriftsBy (execRekeyStart j s) := by simp [execRekeyStart]

theorem execRekeyRetry_drifts (s : State) (j) : s.standing.DriftsBy (execRekeyRetry j s) := by simp [execRekeyRetry]

theorem execSessionKeySwitch_drifts (s : State) (j tx) : s.standing.DriftsBy (execSessionKeySwitch j tx s) := by
  simp only [execSessionKeySwitch]
  split <;> simp

theorem execScntHalt_drifts (s : State) (j tx) : s.standing.DriftsBy (execScntHalt j tx s) := by simp [execScntHalt]

theorem execAuthFailLimit_drifts (s : State) (j) : s.standing.DriftsBy (execAuthFailLimit j s) := by
  simp [execAuthFailLimit]

/-! ### The domain and the management channel -/

theorem execJoin_drifts (s : State) (rx d planId digest) : s.standing.DriftsBy (execJoin rx d planId digest s) := by
  simp [execJoin]

theorem execAccept_drifts (s : State) (rx d firstEpoch second members) :
    s.standing.DriftsBy (execAccept rx d firstEpoch second members s) := by
  simp [execAccept]

theorem execJoinRefused_drifts (s : State) (rx d reason) : s.standing.DriftsBy (execJoinRefused rx d reason s) := by
  simp [execJoinRefused]

theorem execAcceptTimeout_drifts (s : State) : s.standing.DriftsBy (execAcceptTimeout s) := by simp [execAcceptTimeout]

theorem execReady_drifts (s : State) (rx d jobId prog tenant) :
    s.standing.DriftsBy (execReady rx d jobId prog tenant s) := by
  simp [execReady]

theorem execRefuse_drifts (s : State) (rx d jobId code) : s.standing.DriftsBy (execRefuse rx d jobId code s) := by
  simp [execRefuse]

theorem execAdmit_drifts (s : State) (rx d jobId aseq) : s.standing.DriftsBy (execAdmit rx d jobId aseq s) := by
  simp [execAdmit]

theorem execAdmitWaitExpiry_drifts (s : State) (jobId) : s.standing.DriftsBy (execAdmitWaitExpiry jobId s) := by
  simp only [execAdmitWaitExpiry]
  split <;> simp

theorem execLeadBindDecision_drifts (s : State) (epoch slot) :
    s.standing.DriftsBy (execLeadBindDecision epoch slot s) := by
  simp only [execLeadBindDecision]
  repeat' split
  all_goals simp

theorem execBind_drifts (s : State) (rx d epoch slot es) : s.standing.DriftsBy (execBind rx d epoch slot es s) := by
  simp [execBind]

theorem execTick_drifts (s : State) (rx d lead deputy admitted members) :
    s.standing.DriftsBy (execTick rx d lead deputy admitted members s) := by
  simp [execTick]

theorem execLeadLost_drifts (s : State) : s.standing.DriftsBy (execLeadLost s) := by simp [execLeadLost]

theorem execAbandon_drifts (s : State) (rx d jobId inc cause) :
    s.standing.DriftsBy (execAbandon rx d jobId inc cause s) := by
  simp [execAbandon]

theorem execLeave_drifts (s : State) (rx d reason) : s.standing.DriftsBy (execLeave rx d reason s) := by
  simp [execLeave]

theorem execDomainRejoin_drifts (s : State) : s.standing.DriftsBy (execDomainRejoin s) := by simp [execDomainRejoin]

theorem execVdecide_drifts (s : State) (rx d variant e) : s.standing.DriftsBy (execVdecide rx d variant e s) := by
  simp [execVdecide]

theorem execVannounce_drifts (s : State) (rx d origin variant e) :
    s.standing.DriftsBy (execVannounce rx d origin variant e s) := by
  simp [execVannounce]

theorem execVack_drifts (s : State) (rx d origin e) : s.standing.DriftsBy (execVack rx d origin e s) := by
  simp [execVack]

theorem execResident_drifts (s : State) (rx d tenant keyId st) :
    s.standing.DriftsBy (execResident rx d tenant keyId st s) := by
  simp [execResident]

theorem execQreq_drifts (s : State) (rx d) : s.standing.DriftsBy (execQreq rx d s) := by simp [execQreq]

theorem execQreport_drifts (s : State) (rx d frag lastFrag es) :
    s.standing.DriftsBy (execQreport rx d frag lastFrag es s) := by
  simp only [execQreport, driftsBy_need, driftsBy_next]
  refine fun _ => State.receiveDctl_drifts (.refl _) _ _ _ _ fun u => State.atLead_drifts (.refl _) fun v => ?_
  split <;> simp

theorem execFailjob_drifts (s : State) (rx d jobId inc status detail) :
    s.standing.DriftsBy (execFailjob rx d jobId inc status detail s) := by
  simp [execFailjob]

theorem execMgmtRead_drifts (s : State) (rx m) : s.standing.DriftsBy (execMgmtRead rx m s) := by simp [execMgmtRead]

theorem execMgmtWrite_drifts (s : State) (rx m) : s.standing.DriftsBy (execMgmtWrite rx m s) := by
  simp only [execMgmtWrite, driftsBy_need, driftsBy_next]
  refine fun _ => State.receiveMgmt_drifts (.refl _) _ _ _ fun u => ?_
  split
  · simp [takeFrag_standing]
  · next ht => simpa using takeFrag_drifts (.refl _) ht

theorem execMgmtResponse_drifts (s : State) (rx m) : s.standing.DriftsBy (execMgmtResponse rx m s) := by
  simp [execMgmtResponse]

theorem execMgmtTimeout_drifts (s : State) (tag) : s.standing.DriftsBy (execMgmtTimeout tag s) := by
  simp [execMgmtTimeout]

/-! ### Time and slots -/

theorem execPpsEdge_drifts (s : State) (edge) : s.standing.DriftsBy (execPpsEdge edge s) := by
  simp only [execPpsEdge]
  repeat' split
  all_goals simp

theorem execPpsLost_drifts (s : State) : s.standing.DriftsBy (execPpsLost s) := by simp [execPpsLost]

theorem execEpochBoundary_drifts (s : State) : s.standing.DriftsBy (execEpochBoundary s) := by simp [execEpochBoundary]

theorem execGearRelockDone_drifts (s : State) : s.standing.DriftsBy (execGearRelockDone s) := by
  simp [execGearRelockDone]

theorem execBindPoint_drifts (s : State) (epoch slot) : s.standing.DriftsBy (execBindPoint epoch slot s) := by
  simp only [execBindPoint]
  repeat' split
  all_goals simp

theorem execSlotStart_drifts (s : State) (slot) : s.standing.DriftsBy (execSlotStart slot s) := by
  simp only [execSlotStart]
  repeat' split
  all_goals simp

theorem execFallowSlotStart_drifts (s : State) (slot replicas) :
    s.standing.DriftsBy (execFallowSlotStart slot replicas s) := by
  simp only [execFallowSlotStart]
  repeat' split
  all_goals simp

theorem execSlotEnd_drifts (s : State) (slot) : s.standing.DriftsBy (execSlotEnd slot s) := by
  simp only [execSlotEnd]
  repeat' split
  all_goals simp

theorem execSlotPacedAbandon_drifts (s : State) (slot) : s.standing.DriftsBy (execSlotPacedAbandon slot s) := by
  simp only [execSlotPacedAbandon]
  split <;> simp

theorem execSlotDeadlineAbandon_drifts (s : State) (slot a group cycle tag) :
    s.standing.DriftsBy (execSlotDeadlineAbandon slot a group cycle tag s) := by
  simp only [execSlotDeadlineAbandon]
  split <;> simp

theorem execReleaseSlot_drifts (s : State) : s.standing.DriftsBy (execReleaseSlot s) := by simp [execReleaseSlot]

/-! ### Words of the control cores -/

theorem execCcEnd_drifts (s : State) (c) : s.standing.DriftsBy (execCcEnd c s) :=
  runCore_drifts _ _ (s.coreStep_standing _ fun r p => by simp)

theorem execCcAdd_drifts (s : State) (c) : s.standing.DriftsBy (execCcAdd c s) := aluWord_drifts s _ c

theorem execCcSub_drifts (s : State) (c) : s.standing.DriftsBy (execCcSub c s) := aluWord_drifts s _ c

theorem execCcAnd_drifts (s : State) (c) : s.standing.DriftsBy (execCcAnd c s) := aluWord_drifts s _ c

theorem execCcOr_drifts (s : State) (c) : s.standing.DriftsBy (execCcOr c s) := aluWord_drifts s _ c

theorem execCcXor_drifts (s : State) (c) : s.standing.DriftsBy (execCcXor c s) := aluWord_drifts s _ c

theorem execCcShl_drifts (s : State) (c) : s.standing.DriftsBy (execCcShl c s) := aluWord_drifts s _ c

theorem execCcShr_drifts (s : State) (c) : s.standing.DriftsBy (execCcShr c s) := aluWord_drifts s _ c

theorem execCcSar_drifts (s : State) (c) : s.standing.DriftsBy (execCcSar c s) := aluWord_drifts s _ c

theorem execCcMin_drifts (s : State) (c) : s.standing.DriftsBy (execCcMin c s) := aluWord_drifts s _ c

theorem execCcMax_drifts (s : State) (c) : s.standing.DriftsBy (execCcMax c s) := aluWord_drifts s _ c

theorem execLi_drifts (s : State) (c) : s.standing.DriftsBy (execLi c s) :=
  runCore_drifts _ _ (s.coreStep_standing _ fun r p => by simp)

theorem execLui_drifts (s : State) (c) : s.standing.DriftsBy (execLui c s) :=
  runCore_drifts _ _ (s.coreStep_standing _ fun r p => by simp)

theorem execCcMul_drifts (s : State) (c) : s.standing.DriftsBy (execCcMul c s) :=
  runCore_drifts _ _ (s.coreStep_standing _ fun r p => by simp)

theorem execCcMulh_drifts (s : State) (c) : s.standing.DriftsBy (execCcMulh c s) :=
  runCore_drifts _ _ (s.coreStep_standing _ fun r p => by simp)

theorem execCcCmpEq_drifts (s : State) (c) : s.standing.DriftsBy (execCcCmpEq c s) := cmpWord_drifts s _ c

theorem execCcCmpLt_drifts (s : State) (c) : s.standing.DriftsBy (execCcCmpLt c s) := cmpWord_drifts s _ c

theorem execCcCmpLtu_drifts (s : State) (c) : s.standing.DriftsBy (execCcCmpLtu c s) := cmpWord_drifts s _ c

theorem execLoop_drifts (s : State) (c) : s.standing.DriftsBy (execLoop c s) :=
  runCore_drifts _ _ (s.coreStep_standing _ fun r p => by simp)

theorem execEndl_drifts (s : State) (c) : s.standing.DriftsBy (execEndl c s) :=
  runCore_drifts _ _ (s.coreStep_standing _ fun r p => by simp)

theorem execLd_drifts (s : State) (c) : s.standing.DriftsBy (execLd c s) := by
  refine runCore_drifts _ _ (s.coreStep_standing _ fun r p => ?_)
  dsimp only
  iterate 3
    split
    · simp
  split
  · simp
  · next h =>
    split
    · simp
    · simp
    · simpa using coreLoad_standing h

theorem execSt_drifts (s : State) (c) : s.standing.DriftsBy (execSt c s) := by
  refine runCore_drifts _ _ (s.coreStep_standing _ fun r p => ?_)
  dsimp only
  iterate 5
    split
    · simp
  split
  · simp
  · next h => simpa using remoteStore_standing h

theorem execLdj_drifts (s : State) (c) : s.standing.DriftsBy (execLdj c s) :=
  runCore_drifts _ _ (s.coreStep_standing _ fun r p => by simp)

theorem execMfs_drifts (s : State) (c) : s.standing.DriftsBy (execMfs c s) :=
  runCore_drifts _ _ (s.coreStep_standing _ fun r p => by simp)

theorem execAqpush_drifts (s : State) (c) : s.standing.DriftsBy (execAqpush c s) :=
  runCore_drifts _ _ (s.coreStep_standing _ fun r p => by simp)

theorem execOqpush_drifts (s : State) (c) : s.standing.DriftsBy (execOqpush c s) :=
  runCore_drifts _ _ (s.coreStep_standing _ fun r p => by simp)

theorem execTqwait_drifts (s : State) (c) : s.standing.DriftsBy (execTqwait c s) :=
  runCore_drifts _ _ (s.coreStep_standing _ fun r p => by simp)

theorem execCcStallRelease_drifts (s : State) (a) : s.standing.DriftsBy (execCcStallRelease a s) := by
  simp [execCcStallRelease]

theorem execXferLc_drifts (s : State) (c) : s.standing.DriftsBy (execXferLc c s) := by
  refine runCore_drifts _ _ (s.coreStep_standing _ fun r p => ?_)
  dsimp only
  iterate 3
    split
    · simp
  simp

theorem execXferCl_drifts (s : State) (c) : s.standing.DriftsBy (execXferCl c s) := by
  refine runCore_drifts _ _ (s.coreStep_standing _ fun r p => ?_)
  dsimp only
  iterate 2
    split
    · simp
  simp

theorem execDmaq_drifts (s : State) (c) : s.standing.DriftsBy (execDmaq c s) := by
  refine runCore_drifts _ _ (s.coreStep_standing _ fun r p => ?_)
  dsimp only
  iterate 2
    split
    · simp
  split
  iterate 2 simp
  next h _ => simpa using acceptDesc_standing h

theorem execReq_drifts (s : State) (c) : s.standing.DriftsBy (execReq c s) :=
  runCore_drifts _ _ (s.coreStep_standing _ fun r p => by simp)

theorem execAcq_drifts (s : State) (c) : s.standing.DriftsBy (execAcq c s) :=
  runCore_drifts _ _ (s.coreStep_standing _ fun r p => by simp)

theorem execAcqB_drifts (s : State) (c) : s.standing.DriftsBy (execAcqB c s) :=
  runCore_drifts _ _ (s.coreStep_standing _ fun r p => by simp)

theorem execFence_drifts (s : State) (c) : s.standing.DriftsBy (execFence c s) :=
  runCore_drifts _ _ (s.coreStep_standing _ fun r p => by simp)

theorem execTwait_drifts (s : State) (c) : s.standing.DriftsBy (execTwait c s) :=
  runCore_drifts _ _ (s.coreStep_standing _ fun r p => by simp)

theorem execNop_drifts (s : State) (c) : s.standing.DriftsBy (execNop c s) :=
  runCore_drifts _ _ (s.coreStep_standing _ fun r p => by simp)

/-! ### Pool units and arrivals -/

theorem execSowerRequest_drifts (s : State) (die core) : s.standing.DriftsBy (execSowerRequest die core s) := by
  simp only [execSowerRequest, driftsBy_need]
  intro _
  split
  · simp
  · split
    · simp
    · simp [State.unitServe_standing _ _ _ fun _ => sow_standing]

theorem execGranaryRead_drifts (s : State) (die lines) : s.standing.DriftsBy (execGranaryRead die lines s) := by
  simp only [execGranaryRead]
  split <;> simp

theorem execExtract_drifts (s : State) (die det) : s.standing.DriftsBy (execExtract die det s) :=
  pairUnit_drifts s _ _ (fun _ _ _ => thresh_standing) _ _

theorem execBinderRequest_drifts (s : State) (die det) : s.standing.DriftsBy (execBinderRequest die det s) :=
  pairUnit_drifts s _ _ (fun _ _ _ => binderWork_standing) _ _

theorem execBlockWrite_drifts (s : State) (b) : s.standing.DriftsBy (execBlockWrite b s) := by
  simp only [execBlockWrite]
  split <;> simp

theorem execLoftArrival_drifts (s : State) (a) : s.standing.DriftsBy (execLoftArrival a s) := by
  simp only [execLoftArrival]
  split <;> simp

/-! ### Streams, the mailbox and MCTP -/

theorem execDoorbellSqTail_drifts (s : State) (f stream width value) :
    s.standing.DriftsBy (execDoorbellSqTail f stream width value s) := by
  simp [execDoorbellSqTail]

theorem execDoorbellCqHead_drifts (s : State) (f stream width value) :
    s.standing.DriftsBy (execDoorbellCqHead f stream width value s) := by
  simp [execDoorbellCqHead]

theorem execDescriptorDecide_drifts (s : State) (stream) : s.standing.DriftsBy (execDescriptorDecide stream s) := by
  simp [execDescriptorDecide]

theorem execCompletion_drifts (s : State) (stream) : s.standing.DriftsBy (execCompletion stream s) := by
  simp only [execCompletion]
  repeat' split
  all_goals simp

theorem execIrqDelayExpiry_drifts (s : State) (stream) : s.standing.DriftsBy (execIrqDelayExpiry stream s) := by
  simp [execIrqDelayExpiry]

theorem execMailboxGo_drifts (s : State) (f m) : s.standing.DriftsBy (execMailboxGo f m s) := by simp [execMailboxGo]

theorem execMctpDictionaryMessage_drifts (s : State) (m) : s.standing.DriftsBy (execMctpDictionaryMessage m s) := by
  simp [execMctpDictionaryMessage]

theorem execFragmentTimeout_drifts (s : State) (q tag) : s.standing.DriftsBy (execFragmentTimeout q tag s) := by
  simp only [execFragmentTimeout]
  repeat' split
  all_goals simp

theorem execEntdaa_drifts (s : State) (addr) : s.standing.DriftsBy (execEntdaa addr s) := by simp [execEntdaa]

theorem execSetEndpointId_drifts (s : State) (eid) : s.standing.DriftsBy (execSetEndpointId eid s) := by
  simp [execSetEndpointId]

theorem execGetEndpointId_drifts (s : State) : s.standing.DriftsBy (execGetEndpointId s) := by simp [execGetEndpointId]

theorem execGetMctpVersionSupport_drifts (s : State) : s.standing.DriftsBy (execGetMctpVersionSupport s) := by
  simp [execGetMctpVersionSupport]

theorem execGetMessageTypeSupport_drifts (s : State) : s.standing.DriftsBy (execGetMessageTypeSupport s) := by
  simp [execGetMessageTypeSupport]

theorem execGetVendorDefinedMsgSupport_drifts (s : State) : s.standing.DriftsBy (execGetVendorDefinedMsgSupport s) := by
  simp [execGetVendorDefinedMsgSupport]

/-! ### Loads, views and reads -/

theorem execPlanLoadDone_drifts (s : State) : s.standing.DriftsBy (execPlanLoadDone s) := by simp [execPlanLoadDone]

theorem execKeyUploadDone_drifts (s : State) (tenant) : s.standing.DriftsBy (execKeyUploadDone tenant s) := by
  simp [execKeyUploadDone]

theorem execLinkRetrain_drifts (s : State) (q j) : s.standing.DriftsBy (execLinkRetrain q j s) := by
  simp [execLinkRetrain]

theorem execMarginSweepDone_drifts (s : State) (results) : s.standing.DriftsBy (execMarginSweepDone results s) := by
  simp [execMarginSweepDone]

theorem execSnapshotExpiry_drifts (s : State) : s.standing.DriftsBy (execSnapshotExpiry s) := by
  simp only [execSnapshotExpiry]
  split <;> simp

theorem execMirrorBlockRead_drifts (s : State) (q sub) : s.standing.DriftsBy (execMirrorBlockRead q sub s) := by
  simp [execMirrorBlockRead]

theorem execLoftLandHwmRead_drifts (s : State) (q die) : s.standing.DriftsBy (execLoftLandHwmRead q die s) := by
  simp [execLoftLandHwmRead]

theorem execSlotDelayMaxRead_drifts (s : State) (q) : s.standing.DriftsBy (execSlotDelayMaxRead q s) := by
  simp [execSlotDelayMaxRead]

theorem execDomainSkewNsRead_drifts (s : State) (q) : s.standing.DriftsBy (execDomainSkewNsRead q s) := by
  simp [execDomainSkewNsRead]

theorem execDieTempMaxRead_drifts (s : State) (q die) : s.standing.DriftsBy (execDieTempMaxRead q die s) := by
  simp [execDieTempMaxRead]

/-! ### Shares, the security engine and the vault -/

theorem execShareOfferExpiry_drifts (s : State) (tenant) : s.standing.DriftsBy (execShareOfferExpiry tenant s) := by
  simp only [execShareOfferExpiry]
  split <;> simp

theorem execPartialDecryption_drifts (s : State) : s.standing.DriftsBy (execPartialDecryption s) := by
  simp only [execPartialDecryption]
  split <;> simp

theorem execSignetOperationDone_drifts (s : State) (mismatch) :
    s.standing.DriftsBy (execSignetOperationDone mismatch s) := by
  simp only [execSignetOperationDone]
  split <;> simp

theorem execEntropyFail_drifts (s : State) : s.standing.DriftsBy (execEntropyFail s) := by simp [execEntropyFail]

theorem execEntropyRetest_drifts (s : State) (pass) : s.standing.DriftsBy (execEntropyRetest pass s) := by
  simp [execEntropyRetest]

theorem execVaultUncorrectable_drifts (s : State) (what) : s.standing.DriftsBy (execVaultUncorrectable what s) := by
  simp only [execVaultUncorrectable]
  repeat' split
  all_goals simp

/-! ### Health and background work -/

theorem execDiePllLoss_drifts (s : State) (die) : s.standing.DriftsBy (execDiePllLoss die s) := by simp [execDiePllLoss]

theorem execRetirementCopy_drifts (s : State) (die) : s.standing.DriftsBy (execRetirementCopy die s) := by
  simp only [execRetirementCopy]
  split <;> simp

theorem execTempSample_drifts (s : State) (temps powers) : s.standing.DriftsBy (execTempSample temps powers s) := by
  simp [execTempSample]

theorem execBindResume_drifts (s : State) : s.standing.DriftsBy (execBindResume s) := by
  simp only [execBindResume]
  split <;> simp

theorem execGearStepUp_drifts (s : State) : s.standing.DriftsBy (execGearStepUp s) := by
  simp only [execGearStepUp]
  split <;> simp

/-- A sweep that fails retires its slot. The lateness stays a variable: evaluating its ten-minute literal is too deep. -/
theorem sweep_drifts (s : State) (d pslot : Nat) (late : Bool) (sweeps : State → SMap Nat) (pass : Bool) :
    s.standing.Drifts (
      let s := s.noteLate late
      let s : State := { s with hm := { s.hm with sweeps := sweeps s } }
      if pass then s
      else ((s.modDie d fun x => { x with slotSt := x.slotSt.set pslot .retired }).log 0x11 d 0 pslot).replaceCheck
    ).standing := by
  have hnoted (u : State) (x) : ({ u with hm := { u.hm with sweeps := x } } : State).standing = u.standing := by rfl
  dsimp only
  split
  · exact .of_eq ((hnoted ..).trans (State.noteLate_standing ..))
  · refine State.replaceCheck_drifts (.of_eq ?_)
    rw [State.log_standing, State.modDie_standing]
    exact (hnoted ..).trans (State.noteLate_standing ..)

theorem execHealthSweep_drifts (s : State) (d pslot pass) : s.standing.DriftsBy (execHealthSweep d pslot pass s) :=
  (driftsBy_need ..).2 fun _ => (driftsBy_arises ..).2 fun _ => (driftsBy_next _).2 <|
    sweep_drifts s d pslot _ (fun u => mset 0 u.hm.sweeps (slotKey d pslot) u.tm.now) pass

theorem execLoftScrub_drifts (s : State) (die pslot row errs) :
    s.standing.DriftsBy (execLoftScrub die pslot row errs s) := by
  simp [execLoftScrub]

theorem execKeyRehash_drifts (s : State) (tenant keyId block) :
    s.standing.DriftsBy (execKeyRehash tenant keyId block s) := by
  simp only [execKeyRehash]
  split <;> simp

theorem execBgBehind_drifts (s : State) (tier) : s.standing.DriftsBy (execBgBehind tier s) := by simp [execBgBehind]

theorem execGleanerBlockRead_drifts (s : State) (stack block lines) :
    s.standing.DriftsBy (execGleanerBlockRead stack block lines s) := by
  simp [execGleanerBlockRead]

theorem execGleanerEscalate_drifts (s : State) : s.standing.DriftsBy (execGleanerEscalate s) := by
  simp [execGleanerEscalate]

theorem execGleanerBehind_drifts (s : State) : s.standing.DriftsBy (execGleanerBehind s) := by simp [execGleanerBehind]

theorem execHbmRefresh_drifts (s : State) (stack bank) : s.standing.DriftsBy (execHbmRefresh stack bank s) := by
  simp [execHbmRefresh]

theorem execRowRemapCopy_drifts (s : State) (row) : s.standing.DriftsBy (execRowRemapCopy row s) := by
  simp [execRowRemapCopy]

theorem execRowRemap_drifts (s : State) (row) : s.standing.DriftsBy (execRowRemap row s) := by simp [execRowRemap]

theorem execStackLost_drifts (s : State) (stack) : s.standing.DriftsBy (execStackLost stack s) := by
  simp [execStackLost]

theorem execRecordProgram_drifts (s : State) (fail) : s.standing.DriftsBy (execRecordProgram fail s) := by
  simp [execRecordProgram]

theorem execPerstRelease_drifts (s : State) (port) : s.standing.DriftsBy (execPerstRelease port s) := by
  simp [execPerstRelease]

theorem execHostPortReturn_drifts (s : State) (port) : s.standing.DriftsBy (execHostPortReturn port s) := by
  simp [execHostPortReturn]

theorem execUncorrectableCodeword_drifts (s : State) (f) : s.standing.DriftsBy (execUncorrectableCodeword f s) := by
  simp only [execUncorrectableCodeword]
  split <;> simp

end Sys2Proof.Machine
end

section
/-! The moves of R518 that are no drift: resets, BOOT, DEVICE_ENABLE and the entries into SAFE. Then every command. -/

namespace Sys2Proof.Machine

open Sys2Proof.Stated

/-- What a step may do to the part's state and the fuses, as R518 and R490 say. -/
structure MovesAsListed (c : Instr) (s t : State) : Prop where
  part : t.pw.part = s.pw.part ∨ PartMoves c s t
  stage : s.pw.part ≠ .boot → t.pw.part = .boot → fwSvn t.pw.env.fwA t.pw.minSvn = none →
    fwSvn t.pw.env.fwB t.pw.minSvn = none → t.pw.stage = 0xF
  fuses : FusesKept s.hm.fuses t.hm.fuses

/-- Following the replace triggers changes the part's state between ENABLED and REPLACE_REQUESTED only. -/
theorem PartState.follow_cases (p : PartState) (x : BitVec 8) :
    p.follow x = p ∨ p = .enabled ∧ p.follow x = .replaceRequested ∧ x ≠ 0 ∨
      p = .replaceRequested ∧ p.follow x = .enabled ∧ x = 0 := by
  cases p
  case enabled => by_cases hx : x = 0#8 <;> simp [PartState.follow, hx]
  case replaceRequested => by_cases hx : x = 0#8 <;> simp [PartState.follow, hx]
  all_goals exact .inl rfl

section
variable {s t : State} (h : s.standing.Drifts t.standing)
include h

/-- A part that drifts stays, or makes the moves of R484. -/
theorem drifts_part : t.pw.part = s.pw.part ∨
    s.pw.part = .enabled ∧ t.pw.part = .replaceRequested ∧ t.hm.replace ≠ 0 ∨
    s.pw.part = .replaceRequested ∧ t.pw.part = .enabled ∧ t.hm.replace = 0 := by
  rcases h.part with ⟨hp, -⟩ | hp
  · exact .inl hp
  · have hp' : t.pw.part = s.pw.part.follow t.hm.replace := hp
    rw [hp']
    exact s.pw.part.follow_cases _

theorem drifts_part_iff {p : PartState} (he : p ≠ .enabled) (hr : p ≠ .replaceRequested) :
    t.pw.part = p ↔ s.pw.part = p := by
  rcases drifts_part h with hp | ⟨hs, ht, -⟩ | ⟨hs, ht, -⟩
  · rw [hp]
  · rw [hs, ht]
    exact iff_of_false hr.symm he.symm
  · rw [hs, ht]
    exact iff_of_false he.symm hr.symm

/-- What only drifts moves as R518 lists. -/
theorem movesAsListed_of_drifts (c : Instr) : MovesAsListed c s t where
  part := (drifts_part h).imp_right fun hp => by
    rcases hp with ⟨hs, ht, hr⟩ | ⟨hs, ht, hr⟩
    · simpa [PartMoves, hs, ht] using hr
    · simpa [PartMoves, hs, ht] using hr
  stage hs ht := absurd ((drifts_part_iff h (by simp) (by simp)).1 ht) hs
  fuses := h.fuses

end

/-! ### SAFE (R485, R486) -/

/-- The rows of R485 with the commands that enter SAFE by them. -/
def EntersSafeBy (c : Instr) (row : Nat) : Prop :=
  (row = 1 ∧ (c = .bootComplete ∨ ∃ h, c = .hubFailure h)) ∨
  (row = 2 ∧ (c = .stewardFailover ∨ c = .stewardMirrorFailure)) ∨
  (row = 3 ∧ c = .jtagInstruction .other) ∨ (row = 4 ∧ c = .thermtripN)

theorem State.enterSafe_standing {s : State} (row : Nat) (hsafe : s.pw.part ≠ .safe) (hoff : s.pw.part ≠ .off) :
    (s.enterSafe row).standing = { s.standing with part := .safe, safeRow := row } := by
  simp only [State.enterSafe, hsafe, hoff, or_self, if_false, State.log_standing]
  generalize hu : State.wipeVault _ = u
  have hwiped : u.standing = s.standing := by simp [← hu]
  rw [← hwiped]
  rfl

/-- A command of R485 that enters SAFE from a state with the standing of its own, and leaves the standing there. -/
theorem movesAsListed_enterSafe {c : Instr} {row : Nat} {s u t : State} (hc : EntersSafeBy c row)
    (hu : u.standing = s.standing) (hoff : s.pw.part ≠ .off) (ht : t.standing = (u.enterSafe row).standing) :
    MovesAsListed c s t := by
  have hpart : u.pw.part = s.pw.part := congrArg Standing.part hu
  by_cases hsafe : s.pw.part = .safe
  · have hstays : u.enterSafe row = u := if_pos (.inl (hpart.trans hsafe))
    exact movesAsListed_of_drifts (.of_eq (by rw [ht, hstays, hu])) c
  · rw [State.enterSafe_standing row (hpart ▸ hsafe) (hpart ▸ hoff), hu] at ht
    have hpart' : t.pw.part = .safe := congrArg Standing.part ht
    have hrow : t.pw.safeRow = row := congrArg Standing.safeRow ht
    have hfuses : t.hm.fuses = s.hm.fuses := congrArg Standing.fuses ht
    refine ⟨.inr ?_, fun _ hboot => absurd (hpart'.symm.trans hboot) (by simp), hfuses ▸ .refl _⟩
    simpa [PartMoves, hpart', hrow, hoff, hsafe, EntersSafeBy] using hc

/-! ### Resets (R503, R510) -/

/-- A BOOT that begins, with the fuses of `s`; at STAGE 0xF where both firmware slots fail (R503). -/
structure Boots (s t : State) : Prop where
  part : t.pw.part = .boot
  stage : fwSvn t.pw.env.fwA t.pw.minSvn = none → fwSvn t.pw.env.fwB t.pw.minSvn = none → t.pw.stage = 0xF
  fuses : t.hm.fuses = s.hm.fuses

theorem State.beginBoot_boots (s : State) (e warm) : Boots s (s.beginBoot e warm) := by
  simp only [State.beginBoot]
  split
  · next h =>
    refine ⟨rfl, fun ha hb => ?_, rfl⟩
    simp [bootSlot, ha, hb] at h
  · exact ⟨rfl, fun _ _ => rfl, rfl⟩

/-- The boot parameter block moves nothing that BOOT has set. -/
theorem Boots.applyParams {s t : State} (h : Boots s t) : Boots s t.applyParams := by
  obtain ⟨hpart, hstage, hfuses⟩ := h
  simp only [State.applyParams]
  split
  · exact ⟨hpart, hstage, hfuses⟩
  · exact ⟨hpart, hstage, hfuses⟩

theorem State.coldReset_boots (s : State) (cause e) : Boots s (s.coldReset cause e) := by
  obtain ⟨hpart, hstage, hfuses⟩ := (s.coldState.beginBoot_boots e false).applyParams
  exact ⟨hpart, hstage, hfuses⟩

theorem State.warmReset_boots (s : State) (cause e) : Boots s (s.warmReset cause e) := by
  simp only [State.warmReset]
  generalize hu : (if (e.loading && s.pc.load == 1) = true then s.unloadPlan else s) = u
  have hunloaded : u.standing = s.standing := by
    rw [← hu]
    split <;> simp
  have hkept : u.hm.fuses = s.hm.fuses := congrArg Standing.fuses hunloaded
  obtain ⟨hpart, hstage, hfuses⟩ := (u.reopenJobs (List.range 8) fun _ => true).warmState.beginBoot_boots e true
  exact ⟨hpart, hstage, hfuses.trans hkept⟩

/-- A reset of R518 begins a BOOT in a state that the part has drifted to. -/
theorem movesAsListed_of_boots {c : Instr} {s u t : State} (hu : s.standing.Drifts u.standing) (h : Boots u t)
    (hc : t.pw.part = .boot → PartMoves c s t) : MovesAsListed c s t where
  part := .inr (hc h.part)
  stage _ _ := h.stage
  fuses := h.fuses ▸ hu.fuses

/-! ### The commands of R518 -/

/-- A warm reset finds the part powered, and in SAFE only by rows 2 and 4 of R485. -/
theorem warmAllowed_iff (s : State) : s.warmAllowed = true ↔ s.pw.part ≠ .off ∧
    (s.pw.part = .boot → s.pw.warm = true ∧ s.pw.stage ≠ 0xF) ∧
    (s.pw.part = .safe → s.pw.safeRow = 2 ∨ s.pw.safeRow = 4) := by
  cases hp : s.pw.part <;> simp [State.warmAllowed, hp]

theorem powered_iff (s : State) : s.powered = true ↔ s.pw.part ≠ .off := by simp [State.powered]

/-- A warm reset allowed after a drift was allowed before it. -/
theorem warm_allowed_of_drifts {s u : State} (h : s.standing.Drifts u.standing) (hu : u.warmAllowed = true) :
    s.pw.part ≠ .off ∧ (s.pw.part = .safe → s.pw.safeRow = 2 ∨ s.pw.safeRow = 4) := by
  have hrow : u.pw.safeRow = s.pw.safeRow := h.safeRow
  obtain ⟨hoff, -, hsafe⟩ := (warmAllowed_iff u).1 hu
  rw [ne_eq, drifts_part_iff h (by simp) (by simp)] at hoff
  rw [drifts_part_iff h (by simp) (by simp), hrow] at hsafe
  exact ⟨hoff, hsafe⟩

section
variable {s t : State}

theorem execPwrgoodAssert_moves (e : BootEnv) (h : execPwrgoodAssert e s = .next t) :
    MovesAsListed (.pwrgoodAssert e) s t := by
  simp only [execPwrgoodAssert, Host.Outcome.next.injEq] at h
  split at h
  · next hoff =>
    subst h
    refine movesAsListed_of_boots (.refl _) (s.coldReset_boots 4 e) fun ht => ?_
    simpa [PartMoves, ht] using hoff
  · exact movesAsListed_of_drifts (h ▸ .refl _) _

theorem execPwrgoodDeassert_moves (h : execPwrgoodDeassert s = .next t) : MovesAsListed .pwrgoodDeassert s t := by
  cases h
  refine ⟨?_, nofun, .refl _⟩
  by_cases hoff : s.pw.part = .off
  · exact .inl hoff.symm
  · simp [PartMoves, hoff]

theorem execPerstBothWarmReset_moves (e : BootEnv) (h : execPerstBothWarmReset e s = .next t) :
    MovesAsListed (.perstBothWarmReset e) s t := by
  simp only [execPerstBothWarmReset, Host.Outcome.next.injEq] at h
  have hcleared : ((s.clearPort 0).clearPort 1).standing = s.standing := by simp
  split at h
  · exact movesAsListed_of_drifts (h ▸ .refl _) _
  · split at h
    · next hallowed =>
      simp only [State.perstAllowed, Bool.and_eq_true, warmAllowed_iff] at hallowed
      obtain ⟨-, hoff, -, hsafe⟩ := hallowed
      obtain ⟨hpart, hstage, hfuses⟩ := ((s.clearPort 0).clearPort 1).warmReset_boots 3 e
      subst h
      refine movesAsListed_of_boots (.of_eq hcleared) ⟨hpart, hstage, hfuses⟩ fun _ => ?_
      simpa [PartMoves, hpart, hoff] using hsafe
    · subst h
      exact movesAsListed_of_drifts (.of_eq (by simp)) _

/-- A reset by command drifts through its write, and then resets only if that reset is allowed. -/
theorem resetRequest_cases (s : State) (q v e) : ∃ u : State, s.standing.Drifts u.standing ∧
    (s.resetRequest q v e = u ∨
      u.powered = true ∧ v = 1 ∧ Boots u (s.resetRequest q v e) ∨
      u.warmAllowed = true ∧ v ≠ 1 ∧ Boots u (s.resetRequest q v e)) := by
  simp only [State.resetRequest]
  generalize hu : (if s.pw.resetDue = v then s else s.command q 0x2000 6 (leBytes 1 v)) = u
  refine ⟨u, by rw [← hu]; split <;> simp, ?_⟩
  split
  · next hdue =>
    simp only [Bool.and_eq_true, Bool.or_eq_true, beq_iff_eq, decide_eq_true_eq] at hdue
    obtain ⟨⟨-, hpowered⟩, hv⟩ := hdue
    simp only [State.resetByCmd]
    split
    · next h1 =>
      obtain ⟨hpart, hstage, hfuses⟩ := (u.reach (u.tm.now + 1000000)).coldReset_boots 1 e
      exact .inr (.inl ⟨hpowered, h1, hpart, hstage, hfuses⟩)
    · next h1 =>
      obtain ⟨hpart, hstage, hfuses⟩ := (u.reach (u.tm.now + 1000000)).warmReset_boots 2 e
      exact .inr (.inr ⟨hv.resolve_left h1, h1, hpart, hstage, hfuses⟩)
  · exact .inl rfl

theorem execResetCmdCold_moves (q e) (h : execResetCmdCold q e s = .next t) :
    MovesAsListed (.resetCmdCold q e) s t := by
  cases h
  obtain ⟨u, hu, ht | ⟨hpowered, -, hboots⟩ | ⟨-, hv, -⟩⟩ := resetRequest_cases s q 1 e
  · exact movesAsListed_of_drifts (ht ▸ hu) _
  · have hoff : s.pw.part ≠ .off := by
      rwa [powered_iff, ne_eq, drifts_part_iff hu (by simp) (by simp)] at hpowered
    exact movesAsListed_of_boots hu hboots fun ht => by simp [PartMoves, ht, hoff]
  · exact absurd rfl hv

theorem execResetCmdWarm_moves (q e) (h : execResetCmdWarm q e s = .next t) :
    MovesAsListed (.resetCmdWarm q e) s t := by
  cases h
  obtain ⟨u, hu, ht | ⟨-, hv, -⟩ | ⟨hallowed, -, hboots⟩⟩ := resetRequest_cases s q 2 e
  · exact movesAsListed_of_drifts (ht ▸ hu) _
  · cases hv
  · obtain ⟨hoff, hsafe⟩ := warm_allowed_of_drifts hu hallowed
    exact movesAsListed_of_boots hu hboots fun ht => by simpa [PartMoves, ht, hoff] using hsafe

theorem execJtagInstruction_moves (i) (h : execJtagInstruction i s = .next t) :
    MovesAsListed (.jtagInstruction i) s t := by
  simp only [execJtagInstruction, Host.Outcome.next.injEq] at h
  subst h
  split
  · split
    · next hpowered =>
      exact movesAsListed_enterSafe (u := { s.wipeVault with pw := { s.pw with keysBlocked := true } })
        (.inr (.inr (.inl ⟨rfl, rfl⟩))) (by rfl) ((powered_iff s).1 hpowered) rfl
    · exact movesAsListed_of_drifts (.refl _) _
  all_goals exact movesAsListed_of_drifts (.refl _) _

theorem execThermtripN_moves (h : execThermtripN s = .next t) : MovesAsListed .thermtripN s t := by
  simp only [execThermtripN, Host.Outcome.next.injEq] at h
  subst h
  split
  · next hpowered =>
    exact movesAsListed_enterSafe (.inr (.inr (.inr ⟨rfl, rfl⟩))) rfl ((powered_iff s).1 hpowered) (by rfl)
  · exact movesAsListed_of_drifts (.refl _) _

theorem execHubFailure_moves (hub) (h : execHubFailure hub s = .next t) : MovesAsListed (.hubFailure hub) s t := by
  obtain ⟨-, h⟩ := (need_next ..).1 h
  cases h
  split
  · next hpowered =>
    exact movesAsListed_enterSafe (.inl ⟨rfl, .inr ⟨_, rfl⟩⟩) (State.modDie_standing ..)
      ((powered_iff s).1 hpowered) rfl
  · exact movesAsListed_of_drifts (.refl _) _

theorem execStewardFailover_moves (h : execStewardFailover s = .next t) : MovesAsListed .stewardFailover s t := by
  simp only [execStewardFailover, Host.Outcome.next.injEq] at h
  subst h
  split
  · exact movesAsListed_of_drifts (.refl _) _
  · next hpowered =>
    split
    · exact movesAsListed_enterSafe (.inr (.inl ⟨rfl, .inl rfl⟩)) rfl (by simp_all [powered_iff]) rfl
    · exact movesAsListed_of_drifts (.of_eq (by simp)) _

theorem execStewardMirrorFailure_moves (h : execStewardMirrorFailure s = .next t) :
    MovesAsListed .stewardMirrorFailure s t := by
  simp only [execStewardMirrorFailure, Host.Outcome.next.injEq] at h
  subst h
  split
  · exact movesAsListed_of_drifts (.refl _) _
  · next hpowered =>
    split
    · exact movesAsListed_enterSafe (u := { s with hm := { s.hm with mirrorFailed := true } })
        (.inr (.inl ⟨rfl, .inr rfl⟩)) (by rfl) (by simpa [powered_iff] using hpowered) rfl
    · exact movesAsListed_of_drifts (.of_eq (by rfl)) _

end

/-! ### BOOT that completes, DEVICE_ENABLE (R507, R431, R432) -/

/-- The end of a BOOT with both hubs good: its tests only drift, then the part is in STANDBY and the checks run. -/
theorem State.finishBoot_cases (s : State) (hhub : s.pw.env.hubFail = false) :
    ∃ u : State, s.standing.Drifts u.standing ∧ s.finishBoot = (State.recordCheck { u with
      pw := { u.pw with part := .standby, stage := 6 }, hm := { u.hm with gear := u.hm.gearCeiling } }).replaceCheck := by
  simp only [State.finishBoot, hhub, Bool.false_eq_true, if_false]
  refine ⟨_, ?_, rfl⟩
  split <;> simp

theorem execBootComplete_moves {s t : State} (h : execBootComplete s = .next t) : MovesAsListed .bootComplete s t := by
  obtain ⟨hboot, h⟩ := (arises_next ..).1 h
  replace hboot : s.pw.part = .boot := by simp_all
  cases h
  cases hhub : s.pw.env.hubFail with
  | true =>
    refine movesAsListed_enterSafe (.inl ⟨rfl, .inl rfl⟩) rfl (by simp [hboot]) ?_
    rw [State.finishBoot, if_pos hhub]
  | false =>
    obtain ⟨u, hu, ht⟩ := s.finishBoot_cases hhub
    rw [ht]
    generalize hv : ({ u with
      pw := { u.pw with part := .standby, stage := 6 }, hm := { u.hm with gear := u.hm.gearCeiling } } : State) = v
    have hvu : v.standing = { u.standing with part := .standby } := by rw [← hv]; rfl
    have hchecked : v.standing.Drifts v.recordCheck.replaceCheck.standing := by simp
    have hpart := (drifts_part_iff hchecked (p := .standby) (by simp) (by simp)).2 (congrArg Standing.part hvu)
    refine ⟨.inr (by simp [PartMoves, hboot, hpart]), fun hs => absurd hboot hs, ?_⟩
    exact hu.fuses.trans ((congrArg Standing.fuses hvu : v.hm.fuses = u.hm.fuses) ▸ hchecked.fuses)

theorem execDisableComplete_moves {s t : State} (h : execDisableComplete s = .next t) :
    MovesAsListed .disableComplete s t := by
  obtain ⟨-, h⟩ := (arises_next ..).1 h
  cases h
  by_cases hw : s.working = true
  · have hpart : s.disableDone.pw.part = .standby := if_pos hw
    refine ⟨.inr ?_, fun _ ht => absurd (hpart.symm.trans ht) (by simp), .refl _⟩
    simpa [PartMoves, hpart, State.working] using hw
  · have hpart : s.disableDone.pw.part = s.pw.part := if_neg hw
    exact ⟨.inl hpart, fun hs ht => absurd (hpart.symm.trans ht) hs, .refl _⟩

/-- An enable that passes sets ENABLED and DEVICE_ENABLE before it looks at the replace triggers. -/
theorem State.enableOk_cases (s : State) : ∃ u : State,
    u.standing = ⟨.enabled, s.pw.safeRow, true, s.hm.replace, s.hm.fuses⟩ ∧ s.enableOk = u.replaceCheck := by
  simp only [State.enableOk]
  refine ⟨_, ?_, rfl⟩
  simp [apply_ite State.standing]

/-- An enable that passes leaves the part ENABLED or as the replace triggers ask. -/
theorem State.enableOk_follows (s : State) : s.enableOk.pw.part = PartState.enabled.follow s.enableOk.hm.replace ∧
    s.enableOk.en.on = true ∧ s.enableOk.hm.fuses = s.hm.fuses := by
  obtain ⟨u, hset, hok⟩ := s.enableOk_cases
  have hpart : u.pw.part = .enabled := congrArg Standing.part hset
  have hfollows := u.replaceCheck_standing
  rw [hpart, hset, ← hok] at hfollows
  have hbits : s.enableOk.hm.replace = u.newTriggers := congrArg Standing.replace hfollows
  exact ⟨hbits ▸ congrArg Standing.part hfollows, congrArg Standing.on hfollows, congrArg Standing.fuses hfollows⟩

theorem State.endCheck_cases (s : State) : s.endCheck.standing = s.standing ∨ s.endCheck = s.enableOk := by
  simp only [State.endCheck]
  repeat' split
  all_goals simp

/-- An enable from STANDBY, ENABLED or REPLACE_REQUESTED moves as R431 and R484 say. -/
theorem movesAsListed_enabled {s t : State} (hs : s.running = true)
    (ht : t.pw.part = PartState.enabled.follow t.hm.replace) (hon : t.en.on = true) (hfuses : t.hm.fuses = s.hm.fuses) :
    MovesAsListed .enableCheckDone s t := by
  simp only [State.running, State.working, Bool.or_eq_true, beq_iff_eq] at hs
  by_cases hbits : t.hm.replace = 0#8
  · replace ht : t.pw.part = .enabled := by simpa [PartState.follow, hbits] using ht
    refine ⟨?_, fun _ hboot => absurd (ht.symm.trans hboot) (by simp), hfuses ▸ .refl _⟩
    rcases hs with (hs | hs) | hs
    · exact .inl (ht.trans hs.symm)
    · exact .inr (by simp [PartMoves, hs, ht, hbits])
    · exact .inr (by simp [PartMoves, hs, ht, hon])
  · replace ht : t.pw.part = .replaceRequested := by simpa [PartState.follow, hbits] using ht
    refine ⟨?_, fun _ hboot => absurd (ht.symm.trans hboot) (by simp), hfuses ▸ .refl _⟩
    rcases hs with (hs | hs) | hs
    · exact .inr (by simpa [PartMoves, hs, ht] using hbits)
    · exact .inl (ht.trans hs.symm)
    · exact .inr (by simp [PartMoves, hs, ht, hon])

theorem execEnableCheckDone_moves {s t : State} (h : execEnableCheckDone s = .next t) :
    MovesAsListed .enableCheckDone s t := by
  obtain ⟨-, h⟩ := (arises_next ..).1 h
  cases h
  split
  · next hrunning =>
    rcases s.endCheck_cases with hkept | hok
    · exact movesAsListed_of_drifts (.of_eq hkept) _
    · obtain ⟨hpart, hon, hfuses⟩ := s.enableOk_follows
      exact hok ▸ movesAsListed_enabled hrunning hpart hon hfuses
  · exact movesAsListed_of_drifts (.refl _) _

/-! ### Every command -/

/-- Every state a command answers is a move as listed. -/
def MovesBy (c : Instr) (s : State) (r : Res) : Prop := ∀ t, r = .next t → MovesAsListed c s t

theorem Standing.DriftsBy.moves {s : State} {r : Res} (h : s.standing.DriftsBy r) (c : Instr) : MovesBy c s r :=
  fun t ht => movesAsListed_of_drifts (h t ht) c

theorem command_drifts (s : State) (q index sub bs) : s.standing.DriftsBy (.next (s.command q index sub bs)) := by
  simp

/-- Whatever the command, the part moves as R518 lists and burnt fuses stay. -/
theorem exec_moves (c : Instr) (s : State) : MovesBy c s (exec c s) := by
  cases c with
  | commandDelay _ | cribLoad _ | cribStore _ | cellMove _ | cellMadd _ | cellMsub _ | cellMneg _ | cellMscal _
  | cellMmul _ | cellMmulc _ | mac _ | macn _ | macc _ | alpha _ | imma _ | foldClr _ | foldKeep _ | ntt _ | intt _
  | auto _ | mulx _ | vecMadd _ | vecMsub _ | vecMneg _ | vecMmul _ | vecMmulc _ | vecMscal _ | mlift _ | mred _
  | mcen _ | vecAdd _ | vecSub _ | vecMul _ | vecMulh _ | adds _ | subs _ | idiv _ | vecMin _ | vecMax _ | vabs _
  | vneg _ | vecAnd _ | vecOr _ | vecXor _ | vnot _ | vecShl _ | vecShr _ | vecSar _ | vecCmpEq _ | vecCmpNe _
  | vecCmpLt _ | vecCmpLe _ | sel _ | fadd _ | fsub _ | fmul _ | fma _ | fdiv _ | fsqrt _ | fmin _ | fmax _ | fabs _
  | fneg _ | fcvt _ | cvt _ | rsumS _ | rsumL _ =>
    exact (runExec_drifts s _ _ _).moves _
  | modularAdd _ | int32Add _ | fp32Add _ | atomicMin _ | atomicMax _ | swap _ | compareAndSwap _ =>
    exact (atomicCmd_drifts s _ _).moves _
  | timeSet _ _ | dictWrite _ _ _ _ | deviceEnableSet _ | deviceEnableClear _ | planLoad _ | keyLoad _ | keyDrop _ _
  | varRequest _ _ | mrgRun _ | tenActivate _ | tenDisable _ | tenClear _ | streamEnable _ | streamDisable _
  | streamReset _ | mirrorSnapTake _ | mirrorSnapRelease _ | dumpRun _ | shareOffer _ | shareSubmit _ | shareWipe _
  | pdecRun _ | hmRun _ | fenceDie _ _ | retireArray _ _ | evtAck _ _ =>
    exact (command_drifts s _ _ _ _).moves _
  | pwrgoodAssert env => exact fun _ => execPwrgoodAssert_moves env
  | pwrgoodDeassert => exact fun _ => execPwrgoodDeassert_moves
  | perstBothWarmReset env => exact fun _ => execPerstBothWarmReset_moves env
  | bootComplete => exact fun _ => execBootComplete_moves
  | enableCheckDone => exact fun _ => execEnableCheckDone_moves
  | disableComplete => exact fun _ => execDisableComplete_moves
  | jtagInstruction j => exact fun _ => execJtagInstruction_moves j
  | resetCmdCold q env => exact fun _ => execResetCmdCold_moves q env
  | resetCmdWarm q env => exact fun _ => execResetCmdWarm_moves q env
  | thermtripN => exact fun _ => execThermtripN_moves
  | hubFailure hub => exact fun _ => execHubFailure_moves hub
  | stewardFailover => exact fun _ => execStewardFailover_moves
  | stewardMirrorFailure => exact fun _ => execStewardMirrorFailure_moves
  | portReset port => exact (execPortReset_drifts s port).moves _
  | functionLevelReset f => exact (execFunctionLevelReset_drifts s f).moves _
  | busMasterEnableSet f => exact (execBusMasterEnableSet_drifts s f).moves _
  | msixUnmask f v => exact (execMsixUnmask_drifts s f v).moves _
  | hostPortFailure port => exact (execHostPortFailure_drifts s port).moves _
  | refclkLock env => exact (execRefclkLock_drifts s env).moves _
  | refclkStateChange st => exact (execRefclkStateChange_drifts s st).moves _
  | thermalBootHoldRelease => exact (execThermalBootHoldRelease_drifts s).moves _
  | linkStart r => exact (execLinkStart_drifts s r).moves _
  | notReadyWaitExpiry r => exact (execNotReadyWaitExpiry_drifts s r).moves _
  | trainingRetry r => exact (execTrainingRetry_drifts s r).moves _
  | laneFailure j lane => exact (execLaneFailure_drifts s j lane).moves _
  | flockLoss j => exact (execFlockLoss_drifts s j).moves _
  | idle rx => exact (execIdle_drifts s rx).moves _
  | openFrame rx o => exact (execOpenFrame_drifts s rx o).moves _
  | dataFrame rx payload => exact (execDataFrame_drifts s rx payload).moves _
  | lack rx es => exact (execLack_drifts s rx es).moves _
  | nak rx expect => exact (execNak_drifts s rx expect).moves _
  | delayFrame rx tTx echoTx echoRx rxTime => exact (execDelayFrame_drifts s rx tTx echoTx echoRx rxTime).moves _
  | hello rx h => exact (execHello_drifts s rx h).moves _
  | kex rx frag lastFrag body => exact (execKex_drifts s rx frag lastFrag body).moves _
  | rekey rx b => exact (execRekey_drifts s rx b).moves _
  | pathDown rx chan reason => exact (execPathDown_drifts s rx chan reason).moves _
  | pathUp rx chan epoch => exact (execPathUp_drifts s rx chan epoch).moves _
  | rekeyStart j => exact (execRekeyStart_drifts s j).moves _
  | rekeyRetry j => exact (execRekeyRetry_drifts s j).moves _
  | sessionKeySwitch j tx => exact (execSessionKeySwitch_drifts s j tx).moves _
  | scntHalt j tx => exact (execScntHalt_drifts s j tx).moves _
  | authFailLimit j => exact (execAuthFailLimit_drifts s j).moves _
  | join rx d planId digest => exact (execJoin_drifts s rx d planId digest).moves _
  | accept rx d firstEpoch second members => exact (execAccept_drifts s rx d firstEpoch second members).moves _
  | joinRefused rx d reason => exact (execJoinRefused_drifts s rx d reason).moves _
  | acceptTimeout => exact (execAcceptTimeout_drifts s).moves _
  | ready rx d jobId prog tenant => exact (execReady_drifts s rx d jobId prog tenant).moves _
  | refuse rx d jobId code => exact (execRefuse_drifts s rx d jobId code).moves _
  | admitJob rx d jobId aseq => exact (execAdmit_drifts s rx d jobId aseq).moves _
  | admitWaitExpiry jobId => exact (execAdmitWaitExpiry_drifts s jobId).moves _
  | leadBindDecision epoch slot => exact (execLeadBindDecision_drifts s epoch slot).moves _
  | bind rx d epoch slot es => exact (execBind_drifts s rx d epoch slot es).moves _
  | tick rx d lead deputy admitted members => exact (execTick_drifts s rx d lead deputy admitted members).moves _
  | leadLost => exact (execLeadLost_drifts s).moves _
  | abandon rx d jobId inc cause => exact (execAbandon_drifts s rx d jobId inc cause).moves _
  | leave rx d reason => exact (execLeave_drifts s rx d reason).moves _
  | domainRejoin => exact (execDomainRejoin_drifts s).moves _
  | vdecide rx d variant e => exact (execVdecide_drifts s rx d variant e).moves _
  | vannounce rx d origin variant e => exact (execVannounce_drifts s rx d origin variant e).moves _
  | vack rx d origin e => exact (execVack_drifts s rx d origin e).moves _
  | resident rx d tenant keyId st => exact (execResident_drifts s rx d tenant keyId st).moves _
  | qreq rx d => exact (execQreq_drifts s rx d).moves _
  | qreport rx d frag lastFrag es => exact (execQreport_drifts s rx d frag lastFrag es).moves _
  | failjob rx d jobId inc status detail => exact (execFailjob_drifts s rx d jobId inc status detail).moves _
  | mgmtRead rx m => exact (execMgmtRead_drifts s rx m).moves _
  | mgmtWrite rx m => exact (execMgmtWrite_drifts s rx m).moves _
  | mgmtResponse rx m => exact (execMgmtResponse_drifts s rx m).moves _
  | mgmtTimeout tag => exact (execMgmtTimeout_drifts s tag).moves _
  | ppsEdge edge => exact (execPpsEdge_drifts s edge).moves _
  | ppsLost => exact (execPpsLost_drifts s).moves _
  | epochBoundary => exact (execEpochBoundary_drifts s).moves _
  | gearRelockDone => exact (execGearRelockDone_drifts s).moves _
  | bindPoint epoch slot => exact (execBindPoint_drifts s epoch slot).moves _
  | slotStart slot => exact (execSlotStart_drifts s slot).moves _
  | fallowSlotStart slot replicas => exact (execFallowSlotStart_drifts s slot replicas).moves _
  | slotEnd slot => exact (execSlotEnd_drifts s slot).moves _
  | slotPacedAbandon slot => exact (execSlotPacedAbandon_drifts s slot).moves _
  | slotDeadlineAbandon slot a group cycle tag => exact (execSlotDeadlineAbandon_drifts s slot a group cycle tag).moves _
  | releaseSlot => exact (execReleaseSlot_drifts s).moves _
  | ccEnd c => exact (execCcEnd_drifts s c).moves _
  | ccAdd c => exact (execCcAdd_drifts s c).moves _
  | ccSub c => exact (execCcSub_drifts s c).moves _
  | ccAnd c => exact (execCcAnd_drifts s c).moves _
  | ccOr c => exact (execCcOr_drifts s c).moves _
  | ccXor c => exact (execCcXor_drifts s c).moves _
  | ccShl c => exact (execCcShl_drifts s c).moves _
  | ccShr c => exact (execCcShr_drifts s c).moves _
  | ccSar c => exact (execCcSar_drifts s c).moves _
  | ccMin c => exact (execCcMin_drifts s c).moves _
  | ccMax c => exact (execCcMax_drifts s c).moves _
  | li c => exact (execLi_drifts s c).moves _
  | lui c => exact (execLui_drifts s c).moves _
  | ccMul c => exact (execCcMul_drifts s c).moves _
  | ccMulh c => exact (execCcMulh_drifts s c).moves _
  | ccCmpEq c => exact (execCcCmpEq_drifts s c).moves _
  | ccCmpLt c => exact (execCcCmpLt_drifts s c).moves _
  | ccCmpLtu c => exact (execCcCmpLtu_drifts s c).moves _
  | loop c => exact (execLoop_drifts s c).moves _
  | endl c => exact (execEndl_drifts s c).moves _
  | ld c => exact (execLd_drifts s c).moves _
  | st c => exact (execSt_drifts s c).moves _
  | ldj c => exact (execLdj_drifts s c).moves _
  | mfs c => exact (execMfs_drifts s c).moves _
  | aqpush c => exact (execAqpush_drifts s c).moves _
  | oqpush c => exact (execOqpush_drifts s c).moves _
  | tqwait c => exact (execTqwait_drifts s c).moves _
  | ccStallRelease a => exact (execCcStallRelease_drifts s a).moves _
  | xferLc c => exact (execXferLc_drifts s c).moves _
  | xferCl c => exact (execXferCl_drifts s c).moves _
  | dmaq c => exact (execDmaq_drifts s c).moves _
  | req c => exact (execReq_drifts s c).moves _
  | acq c => exact (execAcq_drifts s c).moves _
  | acqB c => exact (execAcqB_drifts s c).moves _
  | fence c => exact (execFence_drifts s c).moves _
  | twait c => exact (execTwait_drifts s c).moves _
  | nop c => exact (execNop_drifts s c).moves _
  | sowerRequest die mismatch => exact (execSowerRequest_drifts s die mismatch).moves _
  | granaryRead die lines => exact (execGranaryRead_drifts s die lines).moves _
  | extract die det => exact (execExtract_drifts s die det).moves _
  | binderRequest die det => exact (execBinderRequest_drifts s die det).moves _
  | blockWrite b => exact (execBlockWrite_drifts s b).moves _
  | loftArrival a => exact (execLoftArrival_drifts s a).moves _
  | doorbellSqTail f stream width value => exact (execDoorbellSqTail_drifts s f stream width value).moves _
  | doorbellCqHead f stream width value => exact (execDoorbellCqHead_drifts s f stream width value).moves _
  | descriptorDecide stream => exact (execDescriptorDecide_drifts s stream).moves _
  | completion stream => exact (execCompletion_drifts s stream).moves _
  | irqDelayExpiry stream => exact (execIrqDelayExpiry_drifts s stream).moves _
  | mailboxGo f m => exact (execMailboxGo_drifts s f m).moves _
  | mctpDictionaryMessage m => exact (execMctpDictionaryMessage_drifts s m).moves _
  | fragmentTimeout q tag => exact (execFragmentTimeout_drifts s q tag).moves _
  | entdaa addr => exact (execEntdaa_drifts s addr).moves _
  | setEndpointId eid => exact (execSetEndpointId_drifts s eid).moves _
  | getEndpointId => exact (execGetEndpointId_drifts s).moves _
  | getMctpVersionSupport => exact (execGetMctpVersionSupport_drifts s).moves _
  | getMessageTypeSupport => exact (execGetMessageTypeSupport_drifts s).moves _
  | getVendorDefinedMsgSupport => exact (execGetVendorDefinedMsgSupport_drifts s).moves _
  | planLoadDone => exact (execPlanLoadDone_drifts s).moves _
  | keyUploadDone tenant => exact (execKeyUploadDone_drifts s tenant).moves _
  | linkRetrain q j => exact (execLinkRetrain_drifts s q j).moves _
  | marginSweepDone results => exact (execMarginSweepDone_drifts s results).moves _
  | snapshotExpiry => exact (execSnapshotExpiry_drifts s).moves _
  | mirrorBlockRead q sub => exact (execMirrorBlockRead_drifts s q sub).moves _
  | loftLandHwmRead q die => exact (execLoftLandHwmRead_drifts s q die).moves _
  | slotDelayMaxRead q => exact (execSlotDelayMaxRead_drifts s q).moves _
  | domainSkewNsRead q => exact (execDomainSkewNsRead_drifts s q).moves _
  | dieTempMaxRead q die => exact (execDieTempMaxRead_drifts s q die).moves _
  | shareOfferExpiry tenant => exact (execShareOfferExpiry_drifts s tenant).moves _
  | partialDecryption => exact (execPartialDecryption_drifts s).moves _
  | signetOperationDone mismatch => exact (execSignetOperationDone_drifts s mismatch).moves _
  | entropyFail => exact (execEntropyFail_drifts s).moves _
  | entropyRetest pass => exact (execEntropyRetest_drifts s pass).moves _
  | vaultUncorrectable what => exact (execVaultUncorrectable_drifts s what).moves _
  | diePllLoss die => exact (execDiePllLoss_drifts s die).moves _
  | retirementCopy die => exact (execRetirementCopy_drifts s die).moves _
  | tempSample temps powers => exact (execTempSample_drifts s temps powers).moves _
  | bindResume => exact (execBindResume_drifts s).moves _
  | gearStepUp => exact (execGearStepUp_drifts s).moves _
  | healthSweep die pslot pass => exact (execHealthSweep_drifts s die pslot pass).moves _
  | loftScrub die pslot row errs => exact (execLoftScrub_drifts s die pslot row errs).moves _
  | keyRehash tenant keyId block => exact (execKeyRehash_drifts s tenant keyId block).moves _
  | bgBehind tier => exact (execBgBehind_drifts s tier).moves _
  | gleanerBlockRead stack block lines => exact (execGleanerBlockRead_drifts s stack block lines).moves _
  | gleanerEscalate => exact (execGleanerEscalate_drifts s).moves _
  | gleanerBehind => exact (execGleanerBehind_drifts s).moves _
  | hbmRefresh stack bank => exact (execHbmRefresh_drifts s stack bank).moves _
  | rowRemapCopy row => exact (execRowRemapCopy_drifts s row).moves _
  | rowRemap row => exact (execRowRemap_drifts s row).moves _
  | stackLost stack => exact (execStackLost_drifts s stack).moves _
  | recordProgram fail => exact (execRecordProgram_drifts s fail).moves _
  | perstRelease port => exact (execPerstRelease_drifts s port).moves _
  | hostPortReturn port => exact (execHostPortReturn_drifts s port).moves _
  | uncorrectableCodeword f => exact (execUncorrectableCodeword_drifts s f).moves _

/-- Settles O59: outside the events of R518 and R485 the part only drifts, a reset begins a BOOT at STAGE 0xF where both
slots fail, and burning fills blank fuses only. -/
theorem partStatesAndFusesMoveOnlyAsListed : Obligations.PartStatesAndFusesMoveOnlyAsListed := by
  unfold Obligations.PartStatesAndFusesMoveOnlyAsListed
  intro c s t h
  obtain ⟨hpart, hstage, hfuses⟩ := exec_moves c s t h
  exact ⟨hpart, hstage, hfuses⟩

end Sys2Proof.Machine
end

section
/-! One proof is elaborated at a time: the threads that wait for one another would not fit the check's memory. -/

set_option Elab.async false

section
/-! What a command leaves as it is, and what it keeps true: one relation between two states says which fields may differ, that
the memories stay canonical and that the tables keep their keys rising. Every operation of the model keeps it. -/

namespace Sys2Proof.Machine

open Sys2Proof.Stated

/-! ### Fields that go together -/

/-- What a fault may change: the array and its slot, the jobs it ends, the records and what other packages hear. -/
abbrev faultFields : List Field :=
  [.pw, .jobs, .jobSeq, .runs, .arrs, .dies, .links, .dom, .hm, .trace, .out]

/-- What a word of the execute stream may change. -/
abbrev wordFields : List Field :=
  [.pw, .jobs, .jobSeq, .runs, .slotStats, .arrs, .dies, .links, .dom, .hm, .trace, .free, .out]

/-- What the loss of a link may change. -/
abbrev linkFields : List Field :=
  [.pw, .jobs, .jobSeq, .runs, .arrs, .dies, .links, .dom, .sec, .hm, .trace, .out]

/-- What the records of a stream may change. -/
abbrev ringFields : List Field :=
  [.fns, .tenants, .keys, .installs, .streams, .jobs, .hubs, .hostMem, .out]

/-- What a write of the dictionary may change. -/
abbrev writeFields : List Field :=
  [.pw, .fns, .tm, .en, .pc, .vs, .tenants, .drrQuantum, .keys, .uploads, .installs, .streams, .jobs, .jobSeq, .runs, .arrs,
  .dies, .hubs, .mem, .links, .dom, .sec, .hm, .sels, .snap, .trace, .dump, .hostMem, .free, .out]

/-- What a message with a dictionary request may change. -/
abbrev messageFields : List Field :=
  [.pw, .fns, .tm, .en, .pc, .vs, .tenants, .drrQuantum, .keys, .uploads, .installs, .streams, .jobs, .jobSeq, .runs,
  .slotStats, .arrs, .dies, .hubs, .mem, .links, .dom, .sec, .hm, .sels, .snap, .trace, .dump, .hostMem, .free, .out]

/-- What an entry into SAFE may change. -/
abbrev safeFields : List Field :=
  [.pw, .tenants, .jobs, .jobSeq, .runs, .links, .dom, .sec, .hm, .out]

/-- What the fencing of a die may change. -/
abbrev dieFields : List Field :=
  [.pw, .jobs, .jobSeq, .runs, .slotStats, .arrs, .dies, .links, .dom, .hm, .out]

/-- What the admission of a job may change. -/
abbrev admitFields : List Field :=
  [.fns, .tenants, .keys, .installs, .streams, .jobs, .jobSeq, .hubs, .links, .dom, .hostMem, .out]

/-- What the end of BOOT may change. -/
abbrev bootFields : List Field :=
  [.pw, .tm, .tenants, .keys, .jobs, .jobSeq, .runs, .slotStats, .arrs, .dies, .stk, .links, .dom, .sec, .hm, .out]

/-- What a power event may change: all but what lies outside the part. -/
abbrev resetFields : List Field :=
  [.pw, .ports, .fns, .tm, .en, .mctp, .plan, .pc, .vs, .tenants, .drrQuantum, .drrPtr, .keys, .uploads, .installs, .streams,
  .jobs, .jobSeq, .runs, .slotStats, .arrs, .dies, .hubs, .stk, .mem, .gran, .links, .dom, .sec, .hm, .sels, .snap, .trace,
  .dump]

/-- What a block may change on its way. -/
abbrev blockFields : List Field :=
  [.pw, .jobs, .jobSeq, .runs, .arrs, .dies, .links, .dom, .hm, .trace, .hostMem, .free, .out]

/-- What a load of the control core may change. -/
abbrev loadFields : List Field :=
  [.pw, .jobs, .jobSeq, .runs, .arrs, .dies, .links, .dom, .hm, .trace, .free, .out]

/-- What an operation of the Signet engine may change. -/
abbrev signetFields : List Field :=
  [.pw, .tenants, .jobs, .jobSeq, .runs, .arrs, .dies, .links, .dom, .sec, .hm, .trace, .out]

/-- What the refusal of a domain job may change. -/
abbrev refuseFields : List Field :=
  [.fns, .tenants, .keys, .installs, .streams, .jobs, .hubs, .links, .dom, .hostMem, .out]

/-- From s to t no field outside F changes, the queue stays, the memories stay canonical and the tables keep rising. -/
structure Keeps (F : List Field) (s t : State) : Prop where
  queue : t.pending = s.pending
  same : ∀ f, f ∉ F → f.same s t
  canon : MemoriesWf s → MemoriesWf t
  rising : TablesRising s → TablesRising t

theorem same_refl (f : Field) (s : State) : f.same s s := by cases f <;> rfl

theorem same_trans (f : Field) {s t u : State} (h : f.same s t) (k : f.same t u) : f.same s u := by
  cases f <;> exact Eq.trans k h

namespace Keeps

theorem refl {F : List Field} (s : State) : Keeps F s s := ⟨rfl, fun f _ => same_refl f s, id, id⟩

section
variable {F : List Field} {s t u : State}

theorem trans (h : Keeps F s t) (k : Keeps F t u) : Keeps F s u :=
  ⟨k.queue.trans h.queue, fun f hf => same_trans f (h.same f hf) (k.same f hf), k.canon ∘ h.canon, k.rising ∘ h.rising⟩

theorem mono {G : List Field} (h : Keeps G s t) (hG : G ⊆ F) : Keeps F s t :=
  ⟨h.queue, fun f hf => h.same f fun hg => hf (hG hg), h.canon, h.rising⟩

/-- A change of the fields G follows. -/
theorem andThen {G : List Field} (h : Keeps F s t) (hG : G ⊆ F) (k : Keeps G t u) : Keeps F s u := h.trans (k.mono hG)

/-- A loop keeps what each of its turns keeps. -/
theorem foldl {α : Type} {f : State → α → State} {l : List α} (h : Keeps F s u) (hf : ∀ t x, Keeps F t (f t x)) :
    Keeps F s (l.foldl f u) :=
  List.foldlRecOn l f (motive := Keeps F s) h fun t ht x _ => ht.trans (hf t x)

/-- A record update: every field outside F stands as it did; the memories and the tables stay as they are. -/
theorem update (h : Keeps F s u) (hq : t.pending = u.pending := by rfl)
    (hf : ∀ f, f ∉ F → f.same u t := by intro f hf; cases f <;> first | rfl | exact absurd (by decide) hf)
    (hm : MemoriesWf u → MemoriesWf t := by exact id) (hr : TablesRising u → TablesRising t := by exact id) : Keeps F s t :=
  ⟨hq.trans h.queue, fun f hn => same_trans f (h.same f hn) (hf f hn), hm ∘ h.canon, hr ∘ h.rising⟩

/-! ### Updates of one field -/

theorem withPw (h : Keeps F s u) {x} (hF : .pw ∈ F := by decide) :
    Keeps F s { u with pw := x } :=
  ⟨h.queue, fun f hf => same_trans f (h.same f hf) (by cases f with | pw => exact absurd hF hf | _ => rfl), h.canon,
    h.rising⟩

theorem withPorts (h : Keeps F s u) {x} (hx : Rising u.ports → Rising x) (hF : .ports ∈ F := by decide) :
    Keeps F s { u with ports := x } :=
  ⟨h.queue, fun f hf => same_trans f (h.same f hf) (by cases f with | ports => exact absurd hF hf | _ => rfl), h.canon,
    fun r => let ⟨r0, r1, r2, r3, r4, r5, r6, r7, r8⟩ := h.rising r; ⟨r0, r1, r2, r3, r4, r5, hx r6, r7, r8⟩⟩

theorem withFns (h : Keeps F s u) {x} (hx : Rising u.fns → Rising x) (hF : .fns ∈ F := by decide) :
    Keeps F s { u with fns := x } :=
  ⟨h.queue, fun f hf => same_trans f (h.same f hf) (by cases f with | fns => exact absurd hF hf | _ => rfl), h.canon,
    fun r => let ⟨r0, r1, r2, r3, r4, r5, r6, r7, r8⟩ := h.rising r; ⟨r0, r1, r2, r3, r4, hx r5, r6, r7, r8⟩⟩

theorem withTm (h : Keeps F s u) {x} (hF : .tm ∈ F := by decide) :
    Keeps F s { u with tm := x } :=
  ⟨h.queue, fun f hf => same_trans f (h.same f hf) (by cases f with | tm => exact absurd hF hf | _ => rfl), h.canon,
    h.rising⟩

theorem withEn (h : Keeps F s u) {x} (hF : .en ∈ F := by decide) :
    Keeps F s { u with en := x } :=
  ⟨h.queue, fun f hf => same_trans f (h.same f hf) (by cases f with | en => exact absurd hF hf | _ => rfl), h.canon,
    h.rising⟩

theorem withMctp (h : Keeps F s u) {x} (hF : .mctp ∈ F := by decide) :
    Keeps F s { u with mctp := x } :=
  ⟨h.queue, fun f hf => same_trans f (h.same f hf) (by cases f with | mctp => exact absurd hF hf | _ => rfl), h.canon,
    h.rising⟩

theorem withPlan (h : Keeps F s u) {x} (hF : .plan ∈ F := by decide) :
    Keeps F s { u with plan := x } :=
  ⟨h.queue, fun f hf => same_trans f (h.same f hf) (by cases f with | plan => exact absurd hF hf | _ => rfl), h.canon,
    h.rising⟩

theorem withPc (h : Keeps F s u) {x} (hF : .pc ∈ F := by decide) :
    Keeps F s { u with pc := x } :=
  ⟨h.queue, fun f hf => same_trans f (h.same f hf) (by cases f with | pc => exact absurd hF hf | _ => rfl), h.canon,
    h.rising⟩

theorem withVs (h : Keeps F s u) {x} (hF : .vs ∈ F := by decide) :
    Keeps F s { u with vs := x } :=
  ⟨h.queue, fun f hf => same_trans f (h.same f hf) (by cases f with | vs => exact absurd hF hf | _ => rfl), h.canon,
    h.rising⟩

theorem withTenants (h : Keeps F s u) {x} (hx : Rising u.tenants → Rising x) (hF : .tenants ∈ F := by decide) :
    Keeps F s { u with tenants := x } :=
  ⟨h.queue, fun f hf => same_trans f (h.same f hf) (by cases f with | tenants => exact absurd hF hf | _ => rfl), h.canon,
    fun r => let ⟨r0, r1, r2, r3, r4, r5, r6, r7, r8⟩ := h.rising r; ⟨r0, r1, r2, r3, hx r4, r5, r6, r7, r8⟩⟩

theorem withDrrQuantum (h : Keeps F s u) {x} (hF : .drrQuantum ∈ F := by decide) :
    Keeps F s { u with drrQuantum := x } :=
  ⟨h.queue, fun f hf => same_trans f (h.same f hf) (by cases f with | drrQuantum => exact absurd hF hf | _ => rfl), h.canon,
    h.rising⟩

theorem withDrrPtr (h : Keeps F s u) {x} (hF : .drrPtr ∈ F := by decide) :
    Keeps F s { u with drrPtr := x } :=
  ⟨h.queue, fun f hf => same_trans f (h.same f hf) (by cases f with | drrPtr => exact absurd hF hf | _ => rfl), h.canon,
    h.rising⟩

theorem withKeys (h : Keeps F s u) {x} (hF : .keys ∈ F := by decide) :
    Keeps F s { u with keys := x } :=
  ⟨h.queue, fun f hf => same_trans f (h.same f hf) (by cases f with | keys => exact absurd hF hf | _ => rfl), h.canon,
    h.rising⟩

theorem withUploads (h : Keeps F s u) {x} (hF : .uploads ∈ F := by decide) :
    Keeps F s { u with uploads := x } :=
  ⟨h.queue, fun f hf => same_trans f (h.same f hf) (by cases f with | uploads => exact absurd hF hf | _ => rfl), h.canon,
    h.rising⟩

theorem withInstalls (h : Keeps F s u) {x} (hF : .installs ∈ F := by decide) :
    Keeps F s { u with installs := x } :=
  ⟨h.queue, fun f hf => same_trans f (h.same f hf) (by cases f with | installs => exact absurd hF hf | _ => rfl), h.canon,
    h.rising⟩

theorem withStreams (h : Keeps F s u) {x} (hx : Rising u.streams → Rising x) (hF : .streams ∈ F := by decide) :
    Keeps F s { u with streams := x } :=
  ⟨h.queue, fun f hf => same_trans f (h.same f hf) (by cases f with | streams => exact absurd hF hf | _ => rfl), h.canon,
    fun r => let ⟨r0, r1, r2, r3, r4, r5, r6, r7, r8⟩ := h.rising r; ⟨r0, r1, r2, hx r3, r4, r5, r6, r7, r8⟩⟩

theorem withJobs (h : Keeps F s u) {x} (hF : .jobs ∈ F := by decide) :
    Keeps F s { u with jobs := x } :=
  ⟨h.queue, fun f hf => same_trans f (h.same f hf) (by cases f with | jobs => exact absurd hF hf | _ => rfl), h.canon,
    h.rising⟩

theorem withJobSeq (h : Keeps F s u) {x} (hF : .jobSeq ∈ F := by decide) :
    Keeps F s { u with jobSeq := x } :=
  ⟨h.queue, fun f hf => same_trans f (h.same f hf) (by cases f with | jobSeq => exact absurd hF hf | _ => rfl), h.canon,
    h.rising⟩

theorem withRuns (h : Keeps F s u) {x} (hF : .runs ∈ F := by decide) :
    Keeps F s { u with runs := x } :=
  ⟨h.queue, fun f hf => same_trans f (h.same f hf) (by cases f with | runs => exact absurd hF hf | _ => rfl), h.canon,
    h.rising⟩

theorem withSlotStats (h : Keeps F s u) {x} (hF : .slotStats ∈ F := by decide) :
    Keeps F s { u with slotStats := x } :=
  ⟨h.queue, fun f hf => same_trans f (h.same f hf) (by cases f with | slotStats => exact absurd hF hf | _ => rfl), h.canon,
    h.rising⟩

theorem withArrs (h : Keeps F s u) {x} (hx : Rising u.arrs → Rising x)
    (hw : (∀ e ∈ u.arrs, Memory.wf e.2.loft = true) → ∀ e ∈ x, Memory.wf e.2.loft = true) (hF : .arrs ∈ F := by decide) :
    Keeps F s { u with arrs := x } :=
  ⟨h.queue, fun f hf => same_trans f (h.same f hf) (by cases f with | arrs => exact absurd hF hf | _ => rfl),
    fun c => let ⟨g, m, a⟩ := h.canon c; ⟨g, m, hw a⟩,
    fun r => ⟨hx (h.rising r).1, (h.rising r).2⟩⟩

theorem withDies (h : Keeps F s u) {x} (hx : Rising u.dies → Rising x) (hF : .dies ∈ F := by decide) :
    Keeps F s { u with dies := x } :=
  ⟨h.queue, fun f hf => same_trans f (h.same f hf) (by cases f with | dies => exact absurd hF hf | _ => rfl), h.canon,
    fun r => let ⟨r0, r1, r2, r3, r4, r5, r6, r7, r8⟩ := h.rising r; ⟨r0, hx r1, r2, r3, r4, r5, r6, r7, r8⟩⟩

theorem withHubs (h : Keeps F s u) {x} (hx : Rising u.hubs → Rising x) (hF : .hubs ∈ F := by decide) :
    Keeps F s { u with hubs := x } :=
  ⟨h.queue, fun f hf => same_trans f (h.same f hf) (by cases f with | hubs => exact absurd hF hf | _ => rfl), h.canon,
    fun r => let ⟨r0, r1, r2, r3, r4, r5, r6, r7, r8⟩ := h.rising r; ⟨r0, r1, r2, r3, r4, r5, r6, r7, hx r8⟩⟩

theorem withStk (h : Keeps F s u) {x} (hx : Rising u.stk → Rising x) (hF : .stk ∈ F := by decide) :
    Keeps F s { u with stk := x } :=
  ⟨h.queue, fun f hf => same_trans f (h.same f hf) (by cases f with | stk => exact absurd hF hf | _ => rfl), h.canon,
    fun r => let ⟨r0, r1, r2, r3, r4, r5, r6, r7, r8⟩ := h.rising r; ⟨r0, r1, r2, r3, r4, r5, r6, hx r7, r8⟩⟩

theorem withMem (h : Keeps F s u) {x} (hF : .mem ∈ F := by decide) :
    Keeps F s { u with mem := x } :=
  ⟨h.queue, fun f hf => same_trans f (h.same f hf) (by cases f with | mem => exact absurd hF hf | _ => rfl), h.canon,
    h.rising⟩

theorem withGran (h : Keeps F s u) {x} (hx : Memory.wf u.gran = true → Memory.wf x = true) (hF : .gran ∈ F := by decide) :
    Keeps F s { u with gran := x } :=
  ⟨h.queue, fun f hf => same_trans f (h.same f hf) (by cases f with | gran => exact absurd hF hf | _ => rfl),
    fun c => let ⟨g, m, a⟩ := h.canon c; ⟨hx g, m, a⟩,
    h.rising⟩

theorem withLinks (h : Keeps F s u) {x} (hx : Rising u.links → Rising x) (hF : .links ∈ F := by decide) :
    Keeps F s { u with links := x } :=
  ⟨h.queue, fun f hf => same_trans f (h.same f hf) (by cases f with | links => exact absurd hF hf | _ => rfl), h.canon,
    fun r => let ⟨r0, r1, r2, r3, r4, r5, r6, r7, r8⟩ := h.rising r; ⟨r0, r1, hx r2, r3, r4, r5, r6, r7, r8⟩⟩

theorem withDom (h : Keeps F s u) {x} (hF : .dom ∈ F := by decide) :
    Keeps F s { u with dom := x } :=
  ⟨h.queue, fun f hf => same_trans f (h.same f hf) (by cases f with | dom => exact absurd hF hf | _ => rfl), h.canon,
    h.rising⟩

theorem withSec (h : Keeps F s u) {x} (hF : .sec ∈ F := by decide) :
    Keeps F s { u with sec := x } :=
  ⟨h.queue, fun f hf => same_trans f (h.same f hf) (by cases f with | sec => exact absurd hF hf | _ => rfl), h.canon,
    h.rising⟩

theorem withHm (h : Keeps F s u) {x} (hF : .hm ∈ F := by decide) :
    Keeps F s { u with hm := x } :=
  ⟨h.queue, fun f hf => same_trans f (h.same f hf) (by cases f with | hm => exact absurd hF hf | _ => rfl), h.canon,
    h.rising⟩

theorem withSels (h : Keeps F s u) {x} (hF : .sels ∈ F := by decide) :
    Keeps F s { u with sels := x } :=
  ⟨h.queue, fun f hf => same_trans f (h.same f hf) (by cases f with | sels => exact absurd hF hf | _ => rfl), h.canon,
    h.rising⟩

theorem withSnap (h : Keeps F s u) {x} (hF : .snap ∈ F := by decide) :
    Keeps F s { u with snap := x } :=
  ⟨h.queue, fun f hf => same_trans f (h.same f hf) (by cases f with | snap => exact absurd hF hf | _ => rfl), h.canon,
    h.rising⟩

theorem withTrace (h : Keeps F s u) {x} (hF : .trace ∈ F := by decide) :
    Keeps F s { u with trace := x } :=
  ⟨h.queue, fun f hf => same_trans f (h.same f hf) (by cases f with | trace => exact absurd hF hf | _ => rfl), h.canon,
    h.rising⟩

theorem withDump (h : Keeps F s u) {x} (hF : .dump ∈ F := by decide) :
    Keeps F s { u with dump := x } :=
  ⟨h.queue, fun f hf => same_trans f (h.same f hf) (by cases f with | dump => exact absurd hF hf | _ => rfl), h.canon,
    h.rising⟩

theorem withHostMem (h : Keeps F s u) {x} (hx : Memory.wf u.hostMem = true → Memory.wf x = true)
    (hF : .hostMem ∈ F := by decide) :
    Keeps F s { u with hostMem := x } :=
  ⟨h.queue, fun f hf => same_trans f (h.same f hf) (by cases f with | hostMem => exact absurd hF hf | _ => rfl),
    fun c => let ⟨g, m, a⟩ := h.canon c; ⟨g, hx m, a⟩,
    h.rising⟩

theorem withHostFaults (h : Keeps F s u) {x} (hF : .hostFaults ∈ F := by decide) :
    Keeps F s { u with hostFaults := x } :=
  ⟨h.queue, fun f hf => same_trans f (h.same f hf) (by cases f with | hostFaults => exact absurd hF hf | _ => rfl), h.canon,
    h.rising⟩

theorem withFree (h : Keeps F s u) {x} (hF : .free ∈ F := by decide) :
    Keeps F s { u with free := x } :=
  ⟨h.queue, fun f hf => same_trans f (h.same f hf) (by cases f with | free => exact absurd hF hf | _ => rfl), h.canon,
    h.rising⟩

theorem withOut (h : Keeps F s u) {x} (hF : .out ∈ F := by decide) :
    Keeps F s { u with out := x } :=
  ⟨h.queue, fun f hf => same_trans f (h.same f hf) (by cases f with | out => exact absurd hF hf | _ => rfl), h.canon,
    h.rising⟩

end

end Keeps
end Sys2Proof.Machine
end

section
/-! Every operation of the model keeps the part's form: one rule for each, in the order of the definitions. -/

namespace Sys2Proof.Machine

open Sys2Proof.Stated

theorem mget_mem_or_default {α : Type} (d : α) (m : SMap α) (i : Nat) : mget d m i = d ∨ (i, mget d m i) ∈ m := by
  induction m with
  | nil => exact .inl rfl
  | cons e m ih =>
    simp only [mget]
    split
    · next h => exact .inr (by simp [h])
    · exact ih.imp_right (List.mem_cons_of_mem _)

theorem mem_mset {α : Type} [DecidableEq α] {d : α} {m : SMap α} {i : Nat} {v : α} {e : Nat × α} (h : e ∈ mset d m i v) :
    e = (i, v) ∨ e ∈ m := by
  simp only [mset] at h
  split at h
  · exact .inr (mem_merase m i e h)
  · exact mem_minsert m i v e h

theorem rising_nil {α : Type} : Rising ([] : SMap α) := .nil

theorem rising_map {α β : Type} {m : SMap α} {f : Nat × α → Nat × β}
    (hf : ∀ e, (f e).1 = e.1 := by intro e; rfl) (h : Rising m) : Rising (m.map f) := by
  simpa only [Rising, List.map_map, Function.comp_def, hf] using h

theorem rising_filter {α : Type} {m : SMap α} {p : Nat × α → Bool} (h : Rising m) : Rising (m.filter p) :=
  List.Pairwise.sublist (List.filter_sublist.map _) h

theorem rising_mset {α : Type} [DecidableEq α] {d : α} {m : SMap α} {i v} (h : Rising m) : Rising (mset d m i v) :=
  KeysRise.mset h d i v

/-- Arrays changed one by one keep the lofts canonical that each change keeps so. -/
theorem lofts_map {m : SMap Arr} {f : Nat × Arr → Nat × Arr}
    (hf : ∀ e, Memory.wf e.2.loft = true → Memory.wf (f e).2.loft = true := by exact fun _ h => h)
    (h : ∀ e ∈ m, Memory.wf e.2.loft = true) : ∀ e ∈ m.map f, Memory.wf e.2.loft = true := by
  simpa only [List.forall_mem_map] using fun e he => hf e (h e he)

theorem lofts_mset {m : SMap Arr} {i : Nat} {x : Arr} (hx : Memory.wf x.loft = true)
    (h : ∀ e ∈ m, Memory.wf e.2.loft = true) : ∀ e ∈ mset {} m i x, Memory.wf e.2.loft = true := fun e he => by
  rcases mem_mset he with rfl | he
  · exact hx
  · exact h e he

/-- The array at a place of a table whose lofts are canonical. -/
theorem mget_loft_wf {m : SMap Arr} (h : ∀ e ∈ m, Memory.wf e.2.loft = true) (i : Nat) :
    Memory.wf (mget {} m i).loft = true := by
  rcases mget_mem_or_default {} m i with hd | hm
  · exact (congrArg (fun x : Arr => Memory.wf x.loft) hd).trans rfl
  · exact h _ hm

/-- Every loft of canonical memories is canonical. -/
theorem State.arr_loft_wf {s : State} (h : ∀ e ∈ s.arrs, Memory.wf e.2.loft = true) (a : ArrId) :
    Memory.wf (s.arr a).loft = true :=
  mget_loft_wf h _

namespace Keeps

variable {F : List Field} {s u : State}

/-! ### Units by number -/

theorem setArr (h : Keeps F s u) {a : ArrId} {x : Arr}
    (hx : Memory.wf (u.arr a).loft = true → Memory.wf x.loft = true := by exact fun h => h)
    (hF : .arrs ∈ F := by decide) : Keeps F s (u.setArr a x) :=
  h.withArrs rising_mset (fun w e he => by
    rcases mem_mset he with rfl | he
    · exact hx (State.arr_loft_wf w a)
    · exact w e he) hF

theorem modArr (h : Keeps F s u) {a : ArrId} {f : Arr → Arr}
    (hf : ∀ x : Arr, Memory.wf x.loft = true → Memory.wf (f x).loft = true := by exact fun _ h => h)
    (hF : .arrs ∈ F := by decide) : Keeps F s (u.modArr a f) :=
  h.setArr (hf _) hF

/-- A write into a loft through the present array. -/
theorem setLoft (h : Keeps F s u) {a : ArrId} {p : Nat} {bs : List Byte} (hF : .arrs ∈ F := by decide) :
    Keeps F s (u.setArr a { u.arr a with loft := Memory.write (u.arr a).loft p bs }) :=
  h.setArr (hx := fun w => Memory.wf_write w p bs) hF

theorem writeLoft (h : Keeps F s u) {a : ArrId} {p : Arr → Nat} {bs : List Byte} (hF : .arrs ∈ F := by decide) :
    Keeps F s (u.modArr a fun x => { x with loft := Memory.write x.loft (p x) bs }) :=
  h.setLoft hF

theorem setDie (h : Keeps F s u) {d x} (hF : .dies ∈ F := by decide) : Keeps F s (u.setDie d x) :=
  h.withDies rising_mset hF

theorem setFn (h : Keeps F s u) {f x} (hF : .fns ∈ F := by decide) : Keeps F s (u.setFn f x) :=
  h.withFns rising_mset hF

theorem setPort (h : Keeps F s u) {n x} (hF : .ports ∈ F := by decide) : Keeps F s (u.setPort n x) :=
  h.withPorts rising_mset hF

theorem setTenant (h : Keeps F s u) {t x} (hF : .tenants ∈ F := by decide) : Keeps F s (u.setTenant t x) :=
  h.withTenants rising_mset hF

theorem setStream (h : Keeps F s u) {n x} (hF : .streams ∈ F := by decide) : Keeps F s (u.setStream n x) :=
  h.withStreams rising_mset hF

theorem setLink (h : Keeps F s u) {j x} (hF : .links ∈ F := by decide) : Keeps F s (u.setLink j x) :=
  h.withLinks rising_mset hF

theorem setStack (h : Keeps F s u) {k x} (hF : .stk ∈ F := by decide) : Keeps F s (u.setStack k x) :=
  h.withStk rising_mset hF

theorem setHub (h : Keeps F s u) {k x} (hF : .hubs ∈ F := by decide) : Keeps F s (u.setHub k x) :=
  h.withHubs rising_mset hF

theorem hostWrite (h : Keeps F s u) {f p a bs t} (ht : u.hostWrite f p a bs = some t) (hF : .hostMem ∈ F := by decide) :
    Keeps F s t := by
  rcases hostWrite_cases u f p a bs with hw | hw <;> rw [hw] at ht
  · simp at ht
  · obtain rfl := Option.some.inj ht
    exact h.withHostMem (fun w => Memory.wf_write w _ bs) hF

end Keeps
end Sys2Proof.Machine
end

section
/-! The loft of an array through the operations on an array and on the lanes of a word: most leave it as it is, a write keeps
it canonical. -/

namespace Sys2Proof.Machine

/-! ### Arrays -/

@[simp] theorem setPos_loft (x : Arr) (a len pos : Nat) : (setPos x a len pos).loft = x.loft := rfl

@[simp] theorem trackWrite_loft (psets : List PSet) (x : Arr) (h off : Nat) (st : RowSt) :
    (trackWrite psets x h off st).loft = x.loft := by
  simp only [trackWrite]
  split <;> rfl

@[simp] theorem setRowState_loft (x : Arr) (r : Nat) (t : RowSt) : (setRowState x r t).loft = x.loft := rfl

@[simp] theorem setCribRow_loft (x : Arr) (r : Nat) (ws : List Nat) : (setCribRow x r ws).loft = x.loft := rfl

@[simp] theorem setAccCells_loft (x : Arr) (e : Nat) (cs : List Acc) : (setAccCells x e cs).loft = x.loft := rfl

@[simp] theorem orStatus_loft (x : Arr) (fl : Nat) : (orStatus x fl).loft = x.loft := rfl

/-- A loop over arrays keeps a loft that each of its turns keeps. -/
theorem foldl_loft {α : Type} {f : Arr → α → Arr} {l : List α} {x : Arr} (hf : ∀ x a, (f x a).loft = x.loft) :
    (l.foldl f x).loft = x.loft :=
  List.foldlRecOn l f (motive := fun y => y.loft = x.loft) rfl fun y hy a _ => (hf y a).trans hy

@[simp] theorem setLimbState_loft (x : Arr) (b rpl : Nat) (t : RowSt) : (setLimbState x b rpl t).loft = x.loft :=
  foldl_loft fun _ _ => rfl

@[simp] theorem setLimbWords_loft (x : Arr) (b rpl : Nat) (ws : List Nat) : (setLimbWords x b rpl ws).loft = x.loft :=
  foldl_loft fun _ _ => rfl

@[simp] theorem badRows_loft (base n : Nat) (x : Arr) : (badRows base n x).loft = x.loft := foldl_loft fun _ _ => rfl

@[simp] theorem markRows_loft (base n : Nat) (c : BitVec 4) (x : Arr) : (markRows base n c x).loft = x.loft :=
  foldl_loft fun _ _ => rfl

@[simp] theorem xferIn_loft (ps : List PSet) (c : CcWord) (h off row n : Nat) (x : Arr) :
    (xferIn ps c h off row n x).loft = x.loft := foldl_loft fun _ _ => rfl

@[simp] theorem startCommand_loft (x : Exec) (d : Nat) (a : Arr) : (startCommand x d a).loft = a.loft := by
  simp only [startCommand]
  split <;> rfl

@[simp] theorem holdWord_loft (x : Exec) (per group : Nat) (a : Arr) : (holdWord x per group a).loft = a.loft := by
  simp only [holdWord]
  split <;> rfl

@[simp] theorem setFlag_loft (c : Nat) (x : Arr) (v : Arrival) : (setFlag c x v).loft = x.loft := by
  simp only [setFlag]
  split <;> rfl

@[simp] theorem nextPc_loft (x : Arr) : (nextPc x).loft = x.loft := rfl

@[simp] theorem pushAq_loft (x : Arr) (e : DWord) : (pushAq x e).loft = x.loft := by
  simp only [pushAq]
  split <;> rfl

@[simp] theorem pushOq_loft (x : Arr) (e : Word) : (pushOq x e).loft = x.loft := by
  simp only [pushOq]
  split <;> rfl

@[simp] theorem takeTokens_loft (x : Arr) (n : Nat) : (takeTokens x n).loft = x.loft := by
  simp only [takeTokens]
  split <;> rfl

/-- A loop over arrays keeps a loft canonical where each of its turns does. -/
theorem foldl_loft_wf {α : Type} {f : Arr → α → Arr} {l : List α} {x : Arr}
    (hf : ∀ x a, Memory.wf x.loft = true → Memory.wf (f x a).loft = true) (h : Memory.wf x.loft = true) :
    Memory.wf (l.foldl f x).loft = true :=
  List.foldlRecOn l f (motive := fun y => Memory.wf y.loft = true) h fun y hy a _ => hf y a hy

theorem openRow_loft_wf {x : Arr} (r : Nat) (h : Memory.wf x.loft = true) : Memory.wf (openRow x r).loft = true := by
  simp only [openRow]
  split
  · exact h
  · exact Memory.wf_clear h ..

theorem loftWrite_loft_wf {x : Arr} {e : Handle} {off : Nat} {bs : List Byte} (h : Memory.wf x.loft = true) :
    Memory.wf (loftWrite x e off bs).loft = true := by
  refine Memory.wf_write ?_ ..
  split
  · exact foldl_loft_wf (fun _ i => openRow_loft_wf _) h
  · exact h

theorem plainRows_loft_wf {psets : List PSet} {h off stride : Nat} {rows : List (List Byte)} {pos : Nat} {x : Arr}
    (hx : Memory.wf x.loft = true) : Memory.wf (plainRows psets h off stride rows pos x).loft = true := by
  refine foldl_loft_wf (fun y r hy => ?_) hx
  rw [foldl_loft fun _ _ => by simp]
  exact loftWrite_loft_wf hy

theorem xferOut_loft_wf {ps : List PSet} {c : CcWord} {h off row n : Nat} {x : Arr} (hx : Memory.wf x.loft = true) :
    Memory.wf (xferOut ps c h off row n x).loft = true :=
  foldl_loft_wf (fun y i hy => by simpa using loftWrite_loft_wf hy) hx

theorem atomicRows_loft_wf {q : Nat} {e : Handle} {v : Arrival} {x : Arr} (hx : Memory.wf x.loft = true) :
    Memory.wf (atomicRows q e v x).1.loft = true :=
  List.foldlRecOn _ _ (motive := fun acc : Arr × Nat × List (List Byte) × Option Nat => Memory.wf acc.1.loft = true) hx
    fun _ hy _ _ => loftWrite_loft_wf hy

/-! ### Lanes -/

@[simp] theorem Lane.fail_x (l : Lane) (f : Flt) : (l.fail f).x = l.x := by
  simp only [Lane.fail]
  repeat' split
  all_goals rfl

@[simp] theorem Lane.failWith_x (l : Lane) (f : Flt) (g : Option Flt) : (l.failWith f g).x = l.x := by
  cases g <;> simp only [Lane.failWith, Option.toList, List.foldl_nil, List.foldl_cons] <;> repeat' split
  all_goals simp

@[simp] theorem Lane.stop_x (l : Lane) (fs : List Flt) : (l.stop fs).x = l.x := by
  simp only [Lane.stop]
  split <;> rfl

@[simp] theorem Lane.did_loft (l : Lane) (s : Nat) : (l.did s).x.loft = l.x.loft := rfl

@[simp] theorem Lane.modWip_loft (l : Lane) (f : Wip → Wip) : (l.modWip f).x.loft = l.x.loft := rfl

@[simp] theorem Lane.paced_loft (l r : Lane) : (l.paced r).x.loft = l.x.loft := rfl

@[simp] theorem Lane.unwritten_loft (r l : Lane) : (r.unwritten l).x.loft = l.x.loft := rfl

@[simp] theorem Lane.idleStep_loft (f : Lane → Nat → Lane) (l : Lane) (s : Nat) : (l.idleStep f s).x.loft = l.x.loft := by
  simp only [Lane.idleStep]
  split <;> rfl

@[simp] theorem bindPort_loft (l : Lane) (p : Nat) : (bindPort l p).x.loft = l.x.loft := by
  simp only [bindPort]
  split <;> rfl

@[simp] theorem bindPorts_loft (l : Lane) (b : BitVec 6) : (bindPorts l b).x.loft = l.x.loft :=
  List.foldlRecOn _ _ (motive := fun r : Lane => r.x.loft = l.x.loft) rfl fun r hr p _ => by
    split
    · simpa using hr
    · exact hr

@[simp] theorem popOperand_loft (l : Lane) : (popOperand l).1.x.loft = l.x.loft := by
  simp only [popOperand]
  split <;> rfl

/-- Stated over any word: the kernel would otherwise compare the encoding of a word with the field that takes it. -/
theorem bindPorts_word_loft (l : Lane) (w : BitVec 256) (o : BitVec 2) (b : BitVec 6) :
    (bindPorts { l with x := { l.x with word := w, omode := o } } b).x.loft = l.x.loft := bindPorts_loft _ b

@[simp] theorem openWord_loft (x : Exec) (l : Lane) : (openWord x l).x.loft = l.x.loft := by
  have hm := bindPorts_word_loft l (fullForm x.w) (x.w.que.getD { bind := 0, omode := 0 }).omode
    (x.w.que.getD { bind := 0, omode := 0 }).bind
  unfold openWord
  extract_lets q _ m r0 _ _ n r t
  have hm : m.x.loft = l.x.loft := bindPorts_word_loft l (fullForm x.w) q.omode q.bind
  have hn : n.x.loft = l.x.loft := by
    rw [← hm]
    simp only [n]
    split
    · exact popOperand_loft m
    · rfl
  split
  · exact (popOperand_loft _).trans ((popOperand_loft n).trans hn)
  · exact hn

@[simp] theorem operandAt_loft (omode : BitVec 2) (rpl s p : Nat) (l : Lane) (last : Nat) :
    (operandAt omode rpl s p l last).1.x.loft = l.x.loft := by
  unfold operandAt
  extract_lets pop
  split
  · exact popOperand_loft l
  · rfl

@[simp] theorem portNext_loft (c : Nat) (l : Lane) (p : Nat) : (portNext c l p).1.x.loft = l.x.loft := by
  simp only [portNext]
  repeat' split
  all_goals simp

@[simp] theorem portRead_loft (v : Env) (c : Nat) (l : Lane) (p : Nat) : (portRead v c l p).1.x.loft = l.x.loft := by
  simp only [portRead]
  repeat' split
  all_goals simp

theorem portRead_ite_loft (b : Bool) (v : Env) (c : Nat) (l : Lane) (p : Nat) :
    (if b then portRead v c l p else (l, [], {})).1.x.loft = l.x.loft := by
  split
  · exact portRead_loft v c l p
  · rfl

@[simp] theorem stageStep_loft (x : Exec) (k : Ctx) (base n : Nat) (l : Lane) (s : Nat) :
    (stageStep x k base n l s).x.loft = l.x.loft := by
  unfold stageStep
  extract_lets p row e at' pt rs m
  have hm : m.x.loft = l.x.loft := (portRead_ite_loft ..).trans (portRead_ite_loft ..)
  rw [← hm]
  clear_value m rs
  repeat' split
  all_goals first | rfl | exact congrArg Arr.loft (Lane.fail_x ..)

/-! ### The operations of a word -/

@[simp] theorem cellB_loft (k : Ctx) (cs : CellSlot) (l : Lane) (s p : Nat) : (cellB k cs l s p).1.x.loft = l.x.loft := by
  unfold cellB
  split
  · rfl
  · exact portRead_loft ..
  · exact operandAt_loft ..
  · rfl

theorem cellB_ite_loft (b : Bool) (k : Ctx) (cs : CellSlot) (l : Lane) (s p : Nat) (ws : List Nat) :
    (if b then cellB k cs l s p else (l, ws, {})).1.x.loft = l.x.loft := by
  split
  · exact cellB_loft ..
  · rfl

@[simp] theorem cellStep_loft (k : Ctx) (cs : CellSlot) (l : Lane) (s : Nat) : (cellStep k cs l s).x.loft = l.x.loft := by
  unfold cellStep
  extract_lets p opc e two a ta r m
  have hm : m.x.loft = l.x.loft := cellB_ite_loft ..
  rw [← hm]
  repeat' split
  all_goals first | rfl | exact congrArg Arr.loft (Lane.fail_x ..)

@[simp] theorem accStep_loft (k : Ctx) (cs : CellSlot) (as : AccSlot) (l : Lane) (s : Nat) :
    (accStep k cs as l s).x.loft = l.x.loft := by
  unfold accStep
  extract_lets p opc e ent two a ta r m pos cells tag term fold n
  have hn : n.x.loft = l.x.loft := by
    have hm : m.x.loft = l.x.loft := cellB_ite_loft ..
    simp only [n]
    split
    · exact (orStatus_loft ..).trans hm
    · exact hm
  rw [← hn]
  clear_value n fold tag
  repeat' split
  all_goals first | rfl | exact congrArg Arr.loft (Lane.fail_x ..) | exact congrArg Arr.loft (Lane.failWith_x ..)

@[simp] theorem foldStep_loft (k : Ctx) (as : AccSlot) (keep : Bool) (l : Lane) (s : Nat) :
    (foldStep k as keep l s).x.loft = l.x.loft := by
  unfold foldStep
  extract_lets
  repeat' split
  all_goals first | rfl | exact congrArg Arr.loft (Lane.fail_x ..)

@[simp] theorem mulxRowStep_loft (k : Ctx) (n : NetSlot) (l : Lane) (s : Nat) :
    (mulxRowStep k n l s).x.loft = l.x.loft := by
  unfold mulxRowStep
  extract_lets
  repeat' split
  all_goals first | rfl | exact congrArg Arr.loft (Lane.fail_x ..)

@[simp] theorem encFetch_loft (v : Env) (c : Nat) (en : EncEnt) (l : Lane) : (encFetch v c en l).x.loft = l.x.loft :=
  portRead_loft ..

@[simp] theorem encWord_loft (k : Ctx) (p : Nat) (l : Lane) : (encWord k p l).1.x.loft = l.x.loft := by
  unfold encWord
  split
  · rfl
  · split
    · rfl
    · extract_lets en limb fresh si build sh at' m
      have hm : m.x.loft = l.x.loft := rfl
      rw [← hm]
      clear_value m
      split
      · exact congrArg Arr.loft (Lane.fail_x ..)
      · split
        · exact congrArg Arr.loft (Lane.fail_x ..)
        · rfl

/-- A loop over a lane and what it gathers keeps a loft that each of its turns keeps. -/
theorem foldl_lane_loft {α β : Type} {f : Lane × β → α → Lane × β} {l : List α} {a : Lane × β}
    (hf : ∀ a x, (f a x).1.x.loft = a.1.x.loft) : (l.foldl f a).1.x.loft = a.1.x.loft :=
  List.foldlRecOn l f (motive := fun b => b.1.x.loft = a.1.x.loft) rfl fun b hb x _ => (hf b x).trans hb

@[simp] theorem encRow_loft (k : Ctx) (en : EncEnt) (l : Lane) (p : Nat) : (encRow k en l p).x.loft = l.x.loft := by
  unfold encRow
  extract_lets m q d st
  have hm : m.x.loft = l.x.loft := by
    simp only [m]
    split
    · exact encFetch_loft ..
    · rfl
  have hq : q.1.x.loft = l.x.loft := by
    simp only [q]
    refine (foldl_lane_loft ?_).trans hm
    exact fun a _ => encWord_loft k p a.1
  rw [← hq]
  clear_value q st
  split <;> rfl

@[simp] theorem loadRow_loft (k : Ctx) (l : Lane) (p : Nat) : (loadRow k l p).x.loft = l.x.loft := by
  unfold loadRow
  extract_lets h r d st
  have hr : r.1.x.loft = l.x.loft := portRead_loft ..
  split
  · exact encRow_loft ..
  · refine Eq.trans ?_ hr
    clear_value r st
    split <;> rfl

@[simp] theorem loadStep_loft (k : Ctx) (l : Lane) (p : Nat) : (loadStep k l p).x.loft = l.x.loft := by
  unfold loadStep
  extract_lets m
  split <;> exact loadRow_loft ..

@[simp] theorem vecSource_loft (k : Ctx) (x : VCtx) (l : Lane) (kind port row s last : Nat) :
    (vecSource k x l kind port row s last).1.x.loft = l.x.loft := by
  unfold vecSource
  extract_lets
  split
  · exact portRead_loft ..
  · rfl
  · exact operandAt_loft ..
  · rfl
  · rfl

theorem portWrite_loft_wf {v : Env} {c : Nat} {l : Lane} {p : Nat} {bs : List Byte} {st : RowSt}
    (h : Memory.wf l.x.loft = true) : Memory.wf (portWrite v c l p bs st).x.loft = true := by
  unfold portWrite
  extract_lets r e x
  have hr : Memory.wf r.1.x.loft = true := by simpa [r] using h
  split
  · exact h
  · split
    · exact hr
    · simpa using loftWrite_loft_wf hr

theorem storeStep_loft_wf {k : Ctx} {l : Lane} {p : Nat} (h : Memory.wf l.x.loft = true) :
    Memory.wf (storeStep k l p).x.loft = true := by
  unfold storeStep
  extract_lets
  split
  · simpa using h
  · exact portWrite_loft_wf h

theorem vecFlush_loft_wf {k : Ctx} {v : VecSlot} {c b : Nat} {fo fin : Bool} {n : Nat} {l : Lane}
    (h : Memory.wf l.x.loft = true) : Memory.wf (vecFlush k v c b fo fin n l).x.loft = true := by
  induction n generalizing l with
  | zero => exact h
  | succ n ih =>
    unfold vecFlush
    extract_lets w row at' m m'
    split
    · exact h
    · split
      · refine ih ?_
        have hm : Memory.wf m.x.loft = true := by
          simp only [m]
          split
          · exact h
          · exact portWrite_loft_wf h
        have hm' : m'.x.loft = m.x.loft := by
          simp only [m']
          split <;> rfl
        exact (congrArg (Memory.wf ·) hm').trans hm
      · split
        · exact ih (portWrite_loft_wf h)
        · exact h

theorem vecPut_loft_wf {k : Ctx} {v : VecSlot} {fo : Bool} {s : Nat} {st : RowSt} {e : PrimeEntry} {c : Nat}
    {as bs ds : List Nat} {l : Lane} (h : Memory.wf l.x.loft = true) :
    Memory.wf (vecPut k v fo s st e c as bs ds l).x.loft = true := by
  unfold vecPut
  extract_lets x opc fin sum res m n o
  refine vecFlush_loft_wf ?_
  simp only [o, n]
  split <;> split <;> exact h

theorem vecStep_loft_wf {k : Ctx} {v : VecSlot} {fo : Bool} {l : Lane} {s : Nat} (h : Memory.wf l.x.loft = true) :
    Memory.wf (vecStep k v fo l s).x.loft = true := by
  unfold vecStep
  extract_lets x p opc e b k1 k2 k3 a w2 w3 mc m ta tb pos
  have hw : w3.1.x.loft = l.x.loft := (vecSource_loft ..).trans ((vecSource_loft ..).trans (vecSource_loft ..))
  have hm : m.x.loft = l.x.loft := by
    refine Eq.trans ?_ hw
    simp only [m, mc, Lane.modWip_loft]
    split
    · exact operandAt_loft ..
    · rfl
  have hmw : Memory.wf m.x.loft = true := hm ▸ h
  clear_value m
  repeat' split
  · exact hmw
  · simpa using hmw
  · simpa using hmw
  · simpa using hmw
  · exact vecPut_loft_wf hmw

end Sys2Proof.Machine
end

section
namespace Sys2Proof.Machine.Keeps

open Sys2Proof.Stated

set_option Elab.async false

variable {F : List Field} {s u : State}

theorem tick (h : Keeps F s u) (hF : [.tm] ⊆ F := by decide) : Keeps F s u.tick :=
  h.andThen hF <| by
    simp only [State.tick]
    split
    · split <;> exact ((refl _).withTm)
    · exact (refl _)

theorem applyParams (h : Keeps F s u) (hF : [.pw, .tm, .dom, .sec, .hm] ⊆ F := by decide) : Keeps F s u.applyParams :=
  h.andThen hF <| by
    simp only [State.applyParams]
    split
    · exact ((refl _).withPw)
    · exact ((refl _).update)

theorem beginBoot (h : Keeps F s u) {e warm} (hF : [.pw] ⊆ F := by decide) : Keeps F s (u.beginBoot e warm) :=
  h.andThen hF <| by
    simp only [State.beginBoot]
    split <;> exact ((refl _).withPw)

theorem dropSnap (h : Keeps F s u) {p} (hF : [.snap] ⊆ F := by decide) : Keeps F s (u.dropSnap p) :=
  h.andThen hF ((refl _).withSnap)

theorem dropSels (h : Keeps F s u) {p} (hF : [.sels] ⊆ F := by decide) : Keeps F s (u.dropSels p) :=
  h.andThen hF ((refl _).withSels)

theorem modStream (h : Keeps F s u) {n f} (hF : [.streams] ⊆ F := by decide) : Keeps F s (u.modStream n f) :=
  h.andThen hF ((refl _).setStream)

theorem modStreams (h : Keeps F s u) {f g} (hF : [.streams] ⊆ F := by decide) : Keeps F s (u.modStreams f g) :=
  h.andThen hF ((refl _).foldl fun t x => (refl _).modStream)

theorem clearPort (h : Keeps F s u) {port} (hF : [.fns, .streams, .sels, .snap] ⊆ F := by decide) :
    Keeps F s (u.clearPort port) :=
  h.andThen hF ((refl _).withFns rising_map).dropSels.dropSnap.modStreams

theorem send (h : Keeps F s u) {o} (hF : [.out] ⊆ F := by decide) : Keeps F s (u.send o) :=
  h.andThen hF ((refl _).withOut)

theorem txFrame (h : Keeps F s u) {j chan f} (hF : [.links, .out] ⊆ F := by decide) :
    Keeps F s (u.txFrame j chan f) :=
  h.andThen hF <| by
    simp only [State.txFrame]
    split
    · exact (refl _)
    · split
      · exact (refl _).setLink.send
      · exact (refl _).setLink

theorem modLink (h : Keeps F s u) {j f} (hF : [.links] ⊆ F := by decide) : Keeps F s (u.modLink j f) :=
  h.andThen hF ((refl _).setLink)

theorem noRoute (h : Keeps F s u) {j} (hF : [.links] ⊆ F := by decide) : Keeps F s (u.noRoute j) :=
  h.andThen hF ((refl _).modLink)

theorem sendDctl (h : Keeps F s u) {dst subtype fields} (hF : [.links, .dom, .out] ⊆ F := by decide) :
    Keeps F s (u.sendDctl dst subtype fields) :=
  h.andThen hF <| by
    simp only [State.sendDctl]
    split
    · split
      · exact ((refl _).withDom).txFrame
      · exact ((refl _).withDom).noRoute
    · exact ((refl _).withDom).noRoute

theorem tellResident (h : Keeps F s u) {tenant id on} (hF : [.links, .dom, .out] ⊆ F := by decide) :
    Keeps F s (u.tellResident tenant id on) :=
  h.andThen hF <| by
    simp only [State.tellResident]
    split
    · split
      · exact (refl _)
      · exact (refl _).sendDctl
    · exact (refl _)

theorem modKey (h : Keeps F s u) {tenant id f} (hF : [.keys] ⊆ F := by decide) : Keeps F s (u.modKey tenant id f) :=
  h.andThen hF ((refl _).withKeys)

theorem evictKey (h : Keeps F s u) {tenant id} (hF : [.keys, .links, .dom, .out] ⊆ F := by decide) :
    Keeps F s (u.evictKey tenant id) :=
  h.andThen hF ((refl _).modKey.tellResident)

theorem emptyRegion (h : Keeps F s u) (hF : [.keys, .links, .dom, .out] ⊆ F := by decide) : Keeps F s u.emptyRegion :=
  h.andThen hF ((refl _).foldl fun t x => (refl _).evictKey)

theorem rebindKeys (h : Keeps F s u) (hF : [.keys] ⊆ F := by decide) : Keeps F s u.rebindKeys :=
  h.andThen hF ((refl _).withKeys)

theorem unloadPlan (h : Keeps F s u)
    (hF : [.plan, .pc, .vs, .keys, .slotStats, .arrs, .mem, .links, .dom, .out] ⊆ F := by decide) : Keeps F s u.unloadPlan :=
  h.andThen hF <| Keeps.rebindKeys <| (refl _).emptyRegion.update (hm := fun ⟨g, m, a⟩ => ⟨g, m, lofts_map (h := a)⟩)
    (hr := fun ⟨r0, r1, r2, r3, r4, r5, r6, r7, r8⟩ => ⟨rising_map (h := r0), r1, r2, r3, r4, r5, r6, r7, r8⟩)

theorem warmState (h : Keeps F s u)
    (hF : [.pw, .fns, .tm, .en, .pc, .vs, .tenants, .keys, .uploads, .installs, .streams, .runs, .arrs, .dies, .hubs, .mem,
      .links, .dom, .sec, .hm, .snap, .trace, .dump] ⊆ F := by decide) : Keeps F s u.warmState :=
  h.andThen hF <| (refl _).update (hm := fun ⟨g, m, a⟩ => ⟨g, m, lofts_map (hf := fun _ _ => rfl) (h := a)⟩)
    (hr := fun ⟨r0, r1, r2, r3, r4, r5, r6, r7, _⟩ =>
      ⟨rising_map (h := r0), rising_map (h := r1), rising_map (h := r2), rising_map (h := r3), rising_map (h := r4),
        rising_map (h := r5), r6, r7, rising_nil⟩)

theorem reopenJobs (h : Keeps F s u) {dies sel} (hF : [.jobs] ⊆ F := by decide) : Keeps F s (u.reopenJobs dies sel) :=
  h.andThen hF ((refl _).withJobs)

theorem warmReset (h : Keeps F s u) {cause e}
    (hF : [.pw, .fns, .tm, .en, .plan, .pc, .vs, .tenants, .keys, .uploads, .installs, .streams, .jobs, .runs, .slotStats,
      .arrs, .dies, .hubs, .mem, .links, .dom, .sec, .hm, .snap, .trace, .dump, .out] ⊆ F := by decide) :
    Keeps F s (u.warmReset cause e) :=
  h.andThen hF <| by
    simp only [State.warmReset]
    split
    · exact ((refl _).unloadPlan.reopenJobs.warmState.beginBoot.withPw)
    · exact ((refl _).reopenJobs.warmState.beginBoot.withPw)

theorem failHostReads (h : Keeps F s u) {p} (hF : [.tenants] ⊆ F := by decide) : Keeps F s (u.failHostReads p) :=
  h.andThen hF ((refl _).withTenants rising_map)

theorem modTenant (h : Keeps F s u) {t' f} (hF : [.tenants] ⊆ F := by decide) : Keeps F s (u.modTenant t' f) :=
  h.andThen hF ((refl _).setTenant)

theorem drainCheck (h : Keeps F s u) {n} (hF : [.streams] ⊆ F := by decide) : Keeps F s (u.drainCheck n) :=
  h.andThen hF <| by
    simp only [State.drainCheck]
    split
    · exact (refl _).setStream
    · exact (refl _)

theorem streamFault (h : Keeps F s u) {n} (hF : [.streams] ⊆ F := by decide) : Keeps F s (u.streamFault n) :=
  h.andThen hF ((refl _).modStream)

theorem writeStatus (h : Keeps F s u) {n} (hF : [.streams, .hostMem] ⊆ F := by decide) :
    Keeps F s (u.writeStatus n) :=
  h.andThen hF <| by
    simp only [State.writeStatus]
    split
    · exact ((refl _).hostWrite ‹_›)
    · exact (refl _).streamFault

theorem freeCredit (h : Keeps F s u) {n} (hF : [.tenants, .streams] ⊆ F := by decide) : Keeps F s (u.freeCredit n) :=
  h.andThen hF <| by
    simp only [State.freeCredit]
    exact (refl _).setStream.modTenant

theorem recordEffect (h : Keeps F s u) {n r} (hF : [.tenants, .streams, .jobs] ⊆ F := by decide) :
    Keeps F s (u.recordEffect n r) :=
  h.andThen hF <| by
    simp only [State.recordEffect]
    split
    · exact ((refl _).modStream.freeCredit.withJobs)
    · split
      · exact (refl _)
      · split
        · exact (refl _).modStream.freeCredit
        · exact (refl _).modStream

theorem raiseMsix (h : Keeps F s u) {f vec} (hF : [.fns, .out] ⊆ F := by decide) : Keeps F s (u.raiseMsix f vec) :=
  h.andThen hF <| by
    simp only [State.raiseMsix]
    split
    · exact (refl _).send
    · exact (refl _).setFn

theorem streamIrq (h : Keeps F s u) {n} (hF : [.fns, .streams, .out] ⊆ F := by decide) : Keeps F s (u.streamIrq n) :=
  h.andThen hF <| by
    simp only [State.streamIrq]
    split
    · exact (refl _)
    · split
      · split
        · exact (refl _).setStream
        · exact (refl _).setStream.raiseMsix
      · split
        · exact (refl _).setStream
        · exact (refl _).setStream.raiseMsix

theorem putRecord (h : Keeps F s u) {n r} (hF : [.fns, .tenants, .streams, .jobs, .hostMem, .out] ⊆ F := by decide) :
    Keeps F s (u.putRecord n r) :=
  h.andThen hF <| by
    simp only [State.putRecord]
    split
    · exact (refl _).setStream.streamFault
    · split
      · exact ((refl _).hostWrite ‹_›).setStream.recordEffect.writeStatus.streamIrq
      · exact ((refl _).hostWrite ‹_›).setStream.recordEffect.writeStatus

theorem modJob (h : Keeps F s u) {i f} (hF : [.jobs] ⊆ F := by decide) : Keeps F s (u.modJob i f) :=
  h.andThen hF ((refl _).withJobs)

theorem finishJob (h : Keeps F s u) {i status detail} (hF : [.jobs] ⊆ F := by decide) :
    Keeps F s (u.finishJob i status detail) :=
  h.andThen hF ((refl _).modJob)

theorem resetJobs (h : Keeps F s u) {n} (hF : [.jobs] ⊆ F := by decide) : Keeps F s (u.resetJobs n) :=
  h.andThen hF ((refl _).foldl fun t x => (refl _).finishJob)

theorem setVfs (h : Keeps F s u) {port n} (hF : [.fns] ⊆ F := by decide) : Keeps F s (u.setVfs port n) :=
  h.andThen hF <| by
    simp only [State.setVfs]
    exact ((refl _).foldl fun t x => by
        split
        · exact (refl _)
        · exact (refl _).setFn)

theorem sendPending (h : Keeps F s u) {f} (hF : [.fns, .out] ⊆ F := by decide) : Keeps F s (u.sendPending f) :=
  h.andThen hF <| by
    simp only [State.sendPending]
    split
    · exact ((refl _).setFn.foldl fun t x => (refl _).send)
    · exact (refl _)

theorem sendMembers (h : Keeps F s u) {subtype fields} (hF : [.links, .dom, .out] ⊆ F := by decide) :
    Keeps F s (u.sendMembers subtype fields) :=
  h.andThen hF ((refl _).foldl fun t x => (refl _).sendDctl)

theorem tellAbandon (h : Keeps F s u) {j inc cause} (hF : [.links, .dom, .out] ⊆ F := by decide) :
    Keeps F s (u.tellAbandon j inc cause) :=
  h.andThen hF <| by
    simp only [State.tellAbandon]
    split
    · split
      · exact (refl _).sendMembers
      · split
        · exact (refl _).sendDctl
        · exact (refl _)
    · exact (refl _)

theorem nextOrder (h : Keeps F s u) (hF : [.jobSeq] ⊆ F := by decide) : Keeps F s u.nextOrder.2 :=
  h.andThen hF ((refl _).withJobSeq)

theorem returnJob (h : Keeps F s u) {i later} (hF : [.jobs, .jobSeq] ⊆ F := by decide) :
    Keeps F s (u.returnJob i later) :=
  h.andThen hF <| by
    simp only [State.returnJob]
    split
    · exact (refl _)
    · split
      · exact (refl _)
      · split
        · exact (refl _).finishJob.modJob
        · exact (refl _).nextOrder.modJob

theorem countedReturn (h : Keeps F s u) {i tag kind} (hF : [.jobs, .jobSeq] ⊆ F := by decide) :
    Keeps F s (u.countedReturn i tag kind) :=
  h.andThen hF <| by
    simp only [State.countedReturn]
    split
    · exact (refl _)
    · split
      · exact (refl _).modJob.finishJob.modJob
      · exact (refl _).modJob.returnJob

theorem abandonJob (h : Keeps F s u) {i counted tag kind cause} (hF : [.jobs, .jobSeq, .links, .dom, .out] ⊆ F := by decide) :
    Keeps F s (u.abandonJob i counted tag kind cause) :=
  h.andThen hF <| by
    simp only [State.abandonJob]
    split
    · exact (refl _)
    · split
      · split
        · exact (refl _).tellAbandon.countedReturn
        · exact (refl _).tellAbandon.returnJob
      · exact (refl _)

theorem rewriteRecords (h : Keeps F s u) {n} (hF : [.streams, .hostMem] ⊆ F := by decide) :
    Keeps F s (u.rewriteRecords n) :=
  h.andThen hF <| by
    simp only [State.rewriteRecords]
    exact ((refl _).foldl fun t x => by
        split
        · exact ((refl _).hostWrite ‹_›)
        · exact (refl _).streamFault)

theorem evtInsert (h : Keeps F s u) {e} (hF : [.pw, .hm] ⊆ F := by decide) : Keeps F s (evtInsert u e) :=
  h.andThen hF <| by
    simp only [Machine.evtInsert]
    split
    · exact ((refl _).withHm)
    · split
      · exact ((refl _).withHm)
      · exact ((refl _).update)

theorem logBody (h : Keeps F s u) {code die inst arg body} (hF : [.pw, .hm] ⊆ F := by decide) :
    Keeps F s (u.logBody code die inst arg body) :=
  h.andThen hF ((refl _).evtInsert.withHm)

theorem log (h : Keeps F s u) {code die inst arg} (hF : [.pw, .hm] ⊆ F := by decide) :
    Keeps F s (u.log code die inst arg) :=
  h.andThen hF ((refl _).logBody)

theorem replaceCheck (h : Keeps F s u) (hF : [.pw, .hm] ⊆ F := by decide) : Keeps F s u.replaceCheck :=
  h.andThen hF ((((refl _).withHm).foldl fun t x => (refl _).log).withPw)

theorem modSlotStat (h : Keeps F s u) {slot f} (hF : [.slotStats] ⊆ F := by decide) :
    Keeps F s (u.modSlotStat slot f) :=
  h.andThen hF ((refl _).withSlotStats)

theorem modRun (h : Keeps F s u) {q f} (hF : [.runs] ⊆ F := by decide) : Keeps F s (u.modRun q f) :=
  h.andThen hF ((refl _).withRuns)

theorem markAbandoned (h : Keeps F s u) {paced r} (hF : [.runs, .slotStats] ⊆ F := by decide) :
    Keeps F s (u.markAbandoned paced r) :=
  h.andThen hF <| by
    simp only [State.markAbandoned]
    split
    · exact (refl _).modRun
    · exact (refl _).modSlotStat.modRun

theorem abandonRuns (h : Keeps F s u) {rs counted kind cause} (hF : [.jobs, .jobSeq, .links, .dom, .out] ⊆ F := by decide) :
    Keeps F s (u.abandonRuns rs counted kind cause) :=
  h.andThen hF ((refl _).foldl fun t x => by
    split
    · split
      · exact (refl _).abandonJob
      · exact (refl _)
    · exact (refl _))

theorem abandonDie (h : Keeps F s u) {d} (hF : [.jobs, .jobSeq, .runs, .slotStats, .links, .dom, .out] ⊆ F := by decide) :
    Keeps F s (u.abandonDie d) :=
  h.andThen hF ((refl _).abandonRuns.foldl fun t x => (refl _).markAbandoned)

theorem returnOutputs (h : Keeps F s u) {d} (hF : [.jobs, .jobSeq, .links, .dom, .out] ⊆ F := by decide) :
    Keeps F s (u.returnOutputs d) :=
  h.andThen hF ((refl _).reopenJobs.foldl fun t x => (refl _).abandonJob)

theorem modDie (h : Keeps F s u) {d f} (hF : [.dies] ⊆ F := by decide) : Keeps F s (u.modDie d f) :=
  h.andThen hF ((refl _).setDie)

theorem refuseRetire (h : Keeps F s u) {d} (hF : [.hm] ⊆ F := by decide) : Keeps F s (u.refuseRetire d) :=
  h.andThen hF <| by
    simp only [State.refuseRetire]
    split
    · exact ((refl _).withHm)
    · exact (refl _)

theorem cancelRetire (h : Keeps F s u) {d} (hF : [.dies, .hm] ⊆ F := by decide) : Keeps F s (u.cancelRetire d) :=
  h.andThen hF ((refl _).modDie.refuseRetire)

theorem recordCheck (h : Keeps F s u) (hF : [.pw, .hm] ⊆ F := by decide) : Keeps F s u.recordCheck :=
  h.andThen hF <| by
    simp only [State.recordCheck]
    split
    · split
      · split <;> exact ((refl _).withHm).log
      · exact (refl _)
    · split
      · split
        · split <;> exact ((refl _).withHm).log
        · exact (refl _)
      · split
        · split <;> exact ((refl _).withHm).log
        · exact (refl _)

theorem record (h : Keeps F s u) {type unit arg} (hF : [.pw, .hm] ⊆ F := by decide) :
    Keeps F s (u.record type unit arg) :=
  h.andThen hF ((refl _).withHm).recordCheck

theorem modStack (h : Keeps F s u) {k f} (hF : [.stk] ⊆ F := by decide) : Keeps F s (u.modStack k f) :=
  h.andThen hF ((refl _).setStack)

theorem corruptWhere (h : Keeps F s u) {f} (hF : [.keys] ⊆ F := by decide) : Keeps F s (u.corruptWhere f) :=
  h.andThen hF ((refl _).withKeys)

theorem loseStack (h : Keeps F s u) {k} (hF : [.pw, .keys, .stk, .hm] ⊆ F := by decide) : Keeps F s (u.loseStack k) :=
  h.andThen hF <| by
    simp only [State.loseStack]
    split
    · exact (refl _)
    · exact (refl _).modStack.corruptWhere.record.log.replaceCheck

theorem recordQueue (h : Keeps F s u) {type unit arg} (hF : [.hm] ⊆ F := by decide) :
    Keeps F s (u.recordQueue type unit arg) :=
  h.andThen hF ((refl _).withHm)

theorem retireRow (h : Keeps F s u) {k n} (hF : [.pw, .keys, .stk, .hm] ⊆ F := by decide) :
    Keeps F s (u.retireRow k n) :=
  h.andThen hF <| by
    simp only [State.retireRow]
    split
    · exact (refl _).modStack.corruptWhere.recordQueue.log.loseStack
    · exact (refl _).modStack.corruptWhere.recordQueue.log

theorem repairStack (h : Keeps F s u) {e k} (hF : [.pw, .keys, .stk, .hm] ⊆ F := by decide) :
    Keeps F s (u.repairStack e k) :=
  h.andThen hF <| by
    simp only [State.repairStack]
    split
    · exact (refl _)
    · exact ((refl _).setStack.foldl fun t x => (refl _).retireRow)

theorem fillImage (h : Keeps F s u) {a e} (hF : [.arrs] ⊆ F := by decide) : Keeps F s (u.fillImage a e) :=
  h.andThen hF <| by
    simp only [State.fillImage]
    split
    · exact (refl _).writeLoft
    · exact refl _

theorem storeOne (h : Keeps F s u) {p v a} (hF : [.arrs] ⊆ F := by decide) : Keeps F s (u.storeOne p v a) :=
  h.andThen hF ((refl _).modArr.modArr.foldl fun t x => (refl _).fillImage)

theorem writeStores (h : Keeps F s u) {v} (hF : [.arrs] ⊆ F := by decide) : Keeps F s (u.writeStores v) :=
  h.andThen hF <| by
    simp only [State.writeStores]
    split
    · exact (refl _)
    · exact ((refl _).foldl fun t x => (refl _).storeOne)

theorem wipeVault (h : Keeps F s u) (hF : [.tenants, .links, .sec] ⊆ F := by decide) : Keeps F s u.wipeVault :=
  h.andThen hF <| (refl _).update
    (hr := fun ⟨r0, r1, r2, r3, r4, r5, r6, r7, r8⟩ => ⟨r0, r1, rising_map (h := r2), r3, rising_map
      (h := r4), r5, r6, r7, r8⟩)

theorem instantiateDrbg (h : Keeps F s u) (hF : [.sec] ⊆ F := by decide) : Keeps F s u.instantiateDrbg :=
  h.andThen hF ((refl _).withSec)

theorem bootSecurity (h : Keeps F s u) {e} (hF : [.pw, .sec, .hm] ⊆ F := by decide) : Keeps F s (u.bootSecurity e) :=
  h.andThen hF <| by
    simp only [State.bootSecurity]
    split
    · exact ((refl _).update)
    · split
      · exact ((refl _).update).instantiateDrbg
      · exact ((refl _).update).log

theorem reapply (h : Keeps F s u) {e} (hF : [.dies, .stk] ⊆ F := by decide) : Keeps F s (u.reapply e) :=
  h.andThen hF <| by
    simp only [State.reapply]
    split
    · exact (refl _).modDie
    · split
      · exact (refl _).modDie
      · split
        · exact (refl _).modStack
        · split
          · exact (refl _).modStack
          · split
            · exact (refl _).modStack
            · exact (refl _)

theorem bootRecord (h : Keeps F s u) (hF : [.dies, .stk, .hm] ⊆ F := by decide) : Keeps F s u.bootRecord :=
  h.andThen hF ((((refl _).withHm).foldl fun t x => (refl _).reapply).foldl fun t x => by
    split
    · exact (refl _).modDie
    · exact (refl _))

theorem sigStart (h : Keeps F s u) (hF : [.sec] ⊆ F := by decide) : Keeps F s u.sigStart :=
  h.andThen hF <| by
    simp only [State.sigStart]
    split
    · exact (refl _)
    · split
      · exact (refl _)
      · exact ((refl _).withSec)

theorem sigAbort (h : Keeps F s u) {p} (hF : [.sec] ⊆ F := by decide) : Keeps F s (u.sigAbort p) :=
  h.andThen hF ((refl _).withSec).sigStart

theorem abortLink (h : Keeps F s u) {j} (hF : [.sec] ⊆ F := by decide) : Keeps F s (u.abortLink j) :=
  h.andThen hF ((refl _).sigAbort)

theorem txLctl (h : Keeps F s u) {j subtype fields} (hF : [.links, .out] ⊆ F := by decide) :
    Keeps F s (u.txLctl j subtype fields) :=
  h.andThen hF <| by
    simp only [State.txLctl]
    split
    · exact (refl _).txFrame
    · exact (refl _)

theorem trace? (h : Keeps F s u) {a evt stage tag time cycle arg stream inc} (hF : [.trace] ⊆ F := by decide) :
    Keeps F s (u.trace? a evt stage tag time cycle arg stream inc) :=
  h.andThen hF <| by
    simp only [State.trace?]
    split
    · split <;> exact ((refl _).withTrace)
    · exact (refl _)

theorem endNamed (h : Keeps F s u) {pos inc kind ends} (hF : [.jobs, .links, .dom, .out] ⊆ F := by decide) :
    Keeps F s (u.endNamed pos inc kind ends) :=
  h.andThen hF <| by
    simp only [State.endNamed]
    split
    · split
      · split
        · exact (refl _).tellAbandon.finishJob.modJob
        · exact (refl _)
      · exact (refl _)
    · exact (refl _)

theorem abandonRun (h : Keeps F s u) {r named tag kind cause} (hF : [.jobs, .jobSeq, .links, .dom, .out] ⊆ F := by decide) :
    Keeps F s (u.abandonRun r named tag kind cause) :=
  h.andThen hF ((refl _).foldl fun t x => by
    split
    · split
      · exact (refl _).abandonJob
      · exact (refl _)
    · exact (refl _))

theorem raiseFault (h : Keeps F s u) {w f ends}
    (hF : faultFields ⊆ F := by decide) :
    Keeps F s (u.raiseFault w f ends) :=
  h.andThen hF <| by
    simp only [State.raiseFault]
    split
    · split
      · exact (refl _).modArr
      · split
        · exact (refl _).modArr.modArr.logBody.modDie.trace?
        · exact (refl _).modArr.modArr.logBody.modDie.trace?.endNamed.abandonRun.modRun
    · split
      · exact (refl _).modArr
      · split
        · exact (refl _).modArr.modArr.logBody.modDie.trace?
        · exact (refl _).modArr.modArr.logBody.modDie.trace?.endNamed.abandonRun.modRun

theorem dmaFault (h : Keeps F s u) {a bpos f ends}
    (hF : faultFields ⊆ F := by decide) :
    Keeps F s (u.dmaFault a bpos f ends) :=
  h.andThen hF ((refl _).raiseFault)

theorem eachPart (h : Keeps F s u) {parts pair} {f : Nat → Part → Arr → Arr}
    (hf : ∀ n p x, Memory.wf x.loft = true → Memory.wf (f n p x).loft = true := by exact fun _ _ _ h => h)
    (hF : [.arrs] ⊆ F := by decide) : Keeps F s (u.eachPart parts pair f) :=
  h.andThen hF <| by
    refine (refl _).foldl fun t p => ?_
    split
    · split
      · exact ((refl _).modArr (hf := hf _ _)).modArr (hf := hf _ _)
      · exact (refl _).modArr (hf := hf _ _)
    · exact refl _

theorem modParts (h : Keeps F s u) {parts pair f} (hF : [.arrs] ⊆ F := by decide) :
    Keeps F s (u.modParts parts pair f) :=
  h.andThen hF ((refl _).eachPart)

theorem setSheaf (h : Keeps F s u) {parts pair poly c f} (hF : [.arrs] ⊆ F := by decide) :
    Keeps F s (u.setSheaf parts pair poly c f) :=
  h.andThen hF ((refl _).eachPart.modParts)

theorem putLoftLimb (h : Keeps F s u) {parts logn poly idx ws} (hF : [.arrs] ⊆ F := by decide) :
    Keeps F s (u.putLoftLimb parts logn poly idx ws) :=
  h.andThen hF <| by
    simp only [State.putLoftLimb]
    split
    · exact refl _
    · split
      · exact refl _
      · split
        · exact ((refl _).modArr (hf := fun _ => loftWrite_loft_wf)).modArr (hf := fun _ => loftWrite_loft_wf)
        · exact (refl _).modArr (hf := fun _ => loftWrite_loft_wf)

theorem anchorLimbs (h : Keeps F s u) {a h' poly main} (hF : [.arrs] ⊆ F := by decide) :
    Keeps F s (u.anchorLimbs a h' poly main) :=
  h.andThen hF <| by
    simp only [State.anchorLimbs]
    exact (refl _).putLoftLimb.setSheaf

theorem anchorStored (h : Keeps F s u) {a h' poly} (hF : [.arrs] ⊆ F := by decide) :
    Keeps F s (u.anchorStored a h' poly) :=
  h.andThen hF ((refl _).anchorLimbs)

theorem anchorInputs (h : Keeps F s u) {d} (hF : [.arrs] ⊆ F := by decide) : Keeps F s (u.anchorInputs d) :=
  h.andThen hF ((refl _).foldl fun t x => (refl _).anchorStored)

theorem coreFault (h : Keeps F s u) {a kind sub offset}
    (hF : faultFields ⊆ F := by decide) :
    Keeps F s (u.coreFault a kind sub offset) :=
  h.andThen hF ((refl _).raiseFault)

theorem descEnd (h : Keeps F s u) {a dseq}
    (hF : faultFields ⊆ F := by decide) :
    Keeps F s (u.descEnd a dseq) :=
  h.andThen hF <| by
    simp only [State.descEnd]
    split
    · exact (refl _)
    · split
      · exact (refl _)
      · split
        · exact (refl _).modDie.anchorInputs
        · split
          · exact (refl _).modDie.anchorInputs.coreFault
          · exact (refl _).modDie.anchorInputs.modArr

theorem modDesc (h : Keeps F s u) {a dseq f} (hF : [.dies] ⊆ F := by decide) : Keeps F s (u.modDesc a dseq f) :=
  h.andThen hF ((refl _).modDie)

theorem endBlock (h : Keeps F s u) {a dseq i}
    (hF : faultFields ⊆ F := by decide) :
    Keeps F s (u.endBlock a dseq i) :=
  h.andThen hF ((refl _).modDesc.descEnd)

theorem blockFail (h : Keeps F s u) {a dseq i f ends}
    (hF : faultFields ⊆ F := by decide) :
    Keeps F s (u.blockFail a dseq i f ends) :=
  h.andThen hF ((refl _).endBlock.dmaFault)

theorem losePath (h : Keeps F s u) {j c}
    (hF : faultFields ⊆ F := by decide) :
    Keeps F s (u.losePath j c) :=
  h.andThen hF (((refl _).withDom).foldl fun t x => (refl _).blockFail)

theorem pathsDown (h : Keeps F s u) {j reason}
    (hF : faultFields ⊆ F := by decide) :
    Keeps F s (u.pathsDown j reason) :=
  h.andThen hF (((refl _).foldl fun t x => (refl _).txLctl).foldl fun t x => (refl _).losePath)

theorem linkFail (h : Keeps F s u) {j reason}
    (hF : linkFields ⊆ F := by decide) :
    Keeps F s (u.linkFail j reason) :=
  h.andThen hF ((refl _).setLink.abortLink.pathsDown.log.replaceCheck)

theorem trainFail (h : Keeps F s u) {j}
    (hF : linkFields ⊆ F := by decide) :
    Keeps F s (u.trainFail j) :=
  h.andThen hF <| by
    simp only [State.trainFail]
    split
    · exact (refl _).setLink.abortLink.linkFail
    · exact (refl _).setLink.abortLink

theorem startTraining (h : Keeps F s u) {r}
    (hF : linkFields ⊆ F := by decide) :
    Keeps F s (u.startTraining r) :=
  h.andThen hF <| by
    simp only [State.startTraining]
    split
    · exact (refl _).abortLink.setLink
    · split
      · exact (refl _).abortLink.setLink.linkFail
      · split
        · exact (refl _).abortLink.setLink.trainFail
        · exact (refl _).abortLink.setLink.setLink.txFrame

theorem dropLane (h : Keeps F s u) {j lane}
    (hF : linkFields ⊆ F := by decide) :
    Keeps F s (u.dropLane j lane) :=
  h.andThen hF <| by
    simp only [State.dropLane]
    split
    · split
      · exact (refl _).modLink.linkFail
      · exact (refl _).modLink.setLink.log
    · split
      · exact (refl _).modLink.linkFail
      · exact (refl _).modLink

theorem dropFrame (h : Keeps F s u) {j} (hF : [.links, .out] ⊆ F := by decide) : Keeps F s (u.dropFrame j) :=
  h.andThen hF <| by
    simp only [State.dropFrame]
    split
    · exact (refl _)
    · exact (refl _).setLink.txFrame

theorem tagFailed (h : Keeps F s u) {j} (hF : [.links, .out] ⊆ F := by decide) : Keeps F s (u.tagFailed j) :=
  h.andThen hF ((refl _).modLink.dropFrame)

theorem releaseFrames (h : Keeps F s u) {j} (hF : [.links, .out] ⊆ F := by decide) : Keeps F s (u.releaseFrames j) :=
  h.andThen hF <| by
    simp only [State.releaseFrames]
    split
    · exact (refl _)
    · exact ((refl _).setLink.foldl fun t x => (refl _).txFrame)

theorem takeFrame (h : Keeps F s u) {r} (hF : [.links, .out] ⊆ F := by decide) : Keeps F s (u.takeFrame r) :=
  h.andThen hF ((refl _).modLink.releaseFrames)

theorem receive (h : Keeps F s u) {r prot early k} (hk : ∀ t, Keeps F t (k t)) (hF : [.links, .out] ⊆ F := by decide) :
    Keeps F s (u.receive r prot early k) :=
  h.trans <| by
    simp only [State.receive]
    split
    · exact refl _
    · split
      · exact (refl _).dropFrame.mono hF
      · split
        · exact (refl _).tagFailed.mono hF
        · split
          · exact (refl _).dropFrame.mono hF
          · split
            · exact ((refl _).takeFrame.mono hF).trans (hk _)
            · exact (refl _).takeFrame.mono hF

theorem forward (h : Keeps F s u) {j c f} (hF : [.links, .out] ⊆ F := by decide) : Keeps F s (u.forward j c f) :=
  h.andThen hF <| by
    simp only [State.forward]
    split
    · exact (refl _).txFrame
    · exact (refl _)

theorem settleSheaf (h : Keeps F s u) {a key} (hF : [.arrs] ⊆ F := by decide) : Keeps F s (u.settleSheaf a key) :=
  h.andThen hF <| by
    simp only [State.settleSheaf]
    split
    · split
      · exact (refl _).eachPart.eachPart.modParts
      · exact (refl _).eachPart.modParts
    · split
      · exact (refl _).eachPart.eachPart.modParts
      · exact (refl _).eachPart.modParts

theorem settleSheaves (h : Keeps F s u) {a} (hF : [.arrs] ⊆ F := by decide) : Keeps F s (u.settleSheaves a) :=
  h.andThen hF <| by
    simp only [State.settleSheaves]
    exact ((refl _).foldl fun t x => (refl _).settleSheaf).modArr

theorem dropStale (h : Keeps F s u) {a v}
    (hF : faultFields ⊆ F := by decide) :
    Keeps F s (u.dropStale a v) :=
  h.andThen hF <| by
    simp only [State.dropStale]
    split
    · exact (refl _).modArr.endBlock
    · exact (refl _).modArr

theorem noteLanding (h : Keeps F s u) {b n} (hF : [.arrs] ⊆ F := by decide) : Keeps F s (u.noteLanding b n) :=
  h.andThen hF ((refl _).modArr)

theorem queueArrival (h : Keeps F s u) {b v} (hF : [.arrs] ⊆ F := by decide) : Keeps F s (u.queueArrival b v) :=
  h.andThen hF ((refl _).noteLanding.modArr)

theorem raiseInc (h : Keeps F s u) {j inc} (hF : [.jobs, .jobSeq, .links, .dom, .out] ⊆ F := by decide) :
    Keeps F s (u.raiseInc j inc) :=
  h.andThen hF <| by
    simp only [State.raiseInc]
    split
    · exact (refl _).abandonJob.modJob
    · exact (refl _)

theorem blockIn (h : Keeps F s u) {j c o got}
    (hF : faultFields ⊆ F := by decide) :
    Keeps F s (u.blockIn j c o got) :=
  h.andThen hF <| by
    simp only [State.blockIn]
    split
    · split
      · exact (refl _)
      · split
        · exact (refl _).queueArrival
        · exact (refl _).dropStale
        · exact (refl _).raiseInc.queueArrival
    · exact (refl _)

theorem blockLanded (h : Keeps F s u) {a dseq i flags}
    (hF : faultFields ⊆ F := by decide) :
    Keeps F s (u.blockLanded a dseq i flags) :=
  h.andThen hF ((refl _).modArr.modDesc.descEnd)

theorem lackBlock (h : Keeps F s u) {a b e}
    (hF : faultFields ⊆ F := by decide) :
    Keeps F s (u.lackBlock a b e) :=
  h.andThen hF <| by
    simp only [State.lackBlock]
    split
    · exact (refl _).blockLanded
    · exact (refl _).blockLanded.dmaFault
    · exact (refl _).blockFail

theorem takeLack (h : Keeps F s u) {j c e}
    (hF : faultFields ⊆ F := by decide) :
    Keeps F s (u.takeLack j c e) :=
  h.andThen hF <| by
    simp only [State.takeLack]
    split
    · split
      · exact (refl _).modArr.dmaFault
      · exact (refl _).modArr
    · split
      · exact (refl _)
      · split
        · split
          · exact (refl _).lackBlock
          · exact (refl _)
        · split
          · exact (refl _).lackBlock
          · exact (refl _)

theorem answerNak (h : Keeps F s u) {j expect}
    (hF : linkFields ⊆ F := by decide) :
    Keeps F s (u.answerNak j expect) :=
  h.andThen hF <| by
    simp only [State.answerNak]
    split
    · exact ((refl _).setLink.foldl fun t x => (refl _).send).linkFail
    · exact ((refl _).setLink.foldl fun t x => (refl _).send)

theorem noteSkew (h : Keeps F s u) {o} (hF : [.pw, .tm, .hm] ⊆ F := by decide) : Keeps F s (u.noteSkew o) :=
  h.andThen hF <| by
    simp only [State.noteSkew]
    split
    · split
      · exact ((refl _).withTm).log
      · exact ((refl _).withTm)
    · exact (refl _)

theorem regainPath (h : Keeps F s u) {j c e} (hF : [.dom] ⊆ F := by decide) : Keeps F s (u.regainPath j c e) :=
  h.andThen hF <| by
    simp only [State.regainPath]
    split
    · exact ((refl _).withDom)
    · exact (refl _)

theorem pathsUp (h : Keeps F s u) {j} (hF : [.links, .dom, .out] ⊆ F := by decide) : Keeps F s (u.pathsUp j) :=
  h.andThen hF (((refl _).foldl fun t x => (refl _).txLctl).foldl fun t x => (refl _).regainPath)

theorem trainDone (h : Keeps F s u) {j}
    (hF : faultFields ⊆ F := by decide) :
    Keeps F s (u.trainDone j) :=
  h.andThen hF <| by
    simp only [State.trainDone]
    split
    · split
      · split
        · exact (refl _).setLink.pathsDown.replaceCheck
        · exact (refl _).setLink.pathsUp.replaceCheck
      · split
        · exact (refl _).setLink.pathsDown.replaceCheck
        · exact (refl _).setLink.pathsUp.replaceCheck
    · split
      · split
        · exact (refl _).setLink.log.pathsDown.replaceCheck
        · exact (refl _).setLink.log.pathsUp.replaceCheck
      · split
        · exact (refl _).setLink.log.pathsDown.replaceCheck
        · exact (refl _).setLink.log.pathsUp.replaceCheck

theorem measure (h : Keeps F s u) {j tTx echoTx echoRx rxTime}
    (hF : [.pw, .tm, .jobs, .jobSeq, .runs, .arrs, .dies, .links, .dom, .sec, .hm, .trace, .out] ⊆ F := by decide) :
    Keeps F s (u.measure j tTx echoTx echoRx rxTime) :=
  h.andThen hF <| by
    simp only [State.measure]
    split
    · split
      · exact (refl _).modLink.txFrame
      · exact (refl _).modLink
    · split
      · split
        · exact (refl _).modLink.modLink.noteSkew.linkFail
        · split
          · exact (refl _).modLink.modLink.noteSkew.trainDone
          · exact (refl _).modLink.modLink.noteSkew
      · split
        · exact (refl _).modLink.modLink.noteSkew.linkFail
        · split
          · exact (refl _).modLink.modLink.noteSkew.trainDone
          · exact (refl _).modLink.modLink.noteSkew

theorem receiveKex (h : Keeps F s u) {r k} (hk : ∀ t, Keeps F t (k t)) (hF : [.links, .out] ⊆ F := by decide) :
    Keeps F s (u.receiveKex r k) :=
  h.trans <| by
    simp only [State.receiveKex]
    split
    · exact (refl _).tagFailed.mono hF
    · exact (refl _).receive hk hF

theorem sigPush (h : Keeps F s u) {op} (hF : [.sec] ⊆ F := by decide) : Keeps F s (u.sigPush op) :=
  h.andThen hF ((refl _).withSec).sigStart

theorem takeHello (h : Keeps F s u) {j h'}
    (hF : linkFields ⊆ F := by decide) :
    Keeps F s (u.takeHello j h') :=
  h.andThen hF <| by
    simp only [State.takeHello]
    split
    · split
      · exact (refl _).setLink.sigPush
      · exact (refl _).setLink.trainFail
    · exact (refl _)

theorem takeKex (h : Keeps F s u) {j frag lastFrag body} (hF : [.links, .sec] ⊆ F := by decide) :
    Keeps F s (u.takeKex j frag lastFrag body) :=
  h.andThen hF <| by
    simp only [State.takeKex]
    split
    · split
      · exact (refl _).setLink.sigPush
      · exact (refl _).setLink
    · exact (refl _)

theorem takeRekey (h : Keeps F s u) {j b} (hF : [.links, .sec] ⊆ F := by decide) : Keeps F s (u.takeRekey j b) :=
  h.andThen hF <| by
    simp only [State.takeRekey]
    split
    · split
      · split
        · exact (refl _)
        · split <;> exact (refl _).setLink
      · exact (refl _)
    · split
      · exact (refl _)
      · split
        · exact (refl _).setLink.sigPush
        · exact (refl _).setLink

theorem pathNotice (h : Keeps F s u) {j c subtype rest} (hF : [.links, .out] ⊆ F := by decide) :
    Keeps F s (u.pathNotice j c subtype rest) :=
  h.andThen hF <| by
    simp only [State.pathNotice]
    split
    · exact (refl _)
    · exact ((refl _).foldl fun t x => (refl _).txLctl)

theorem forwardDctl (h : Keeps F s u) {j d subtype fields} (hF : [.links, .out] ⊆ F := by decide) :
    Keeps F s (u.forwardDctl j d subtype fields) :=
  h.andThen hF <| by
    simp only [State.forwardDctl]
    split
    · split
      · exact (refl _).txFrame
      · exact (refl _).noRoute
    · exact (refl _).noRoute

theorem receiveDctl (h : Keeps F s u) {r d subtype fields k} (hk : ∀ t, Keeps F t (k t))
    (hF : [.links, .dom, .out] ⊆ F := by decide) :
    Keeps F s (u.receiveDctl r d subtype fields k) :=
  h.receive (hF := fun _ m => hF (by revert m; decide +revert)) fun t => by
    split
    · exact (refl _).forwardDctl.mono hF
    · split
      · exact refl _
      · dsimp only
        split
        · exact ((refl _).withDom.mono hF).trans (hk _)
        · exact (refl _).withDom.mono hF

theorem atLead (h : Keeps F s u) {k} (hk : ∀ t, Keeps F t (k t)) : Keeps F s (u.atLead k) :=
  h.trans <| by
    simp only [State.atLead]
    split
    · exact hk _
    · exact refl _

theorem answerJoin (h : Keeps F s u) {d digest} (hF : [.links, .dom, .out] ⊆ F := by decide) :
    Keeps F s (u.answerJoin d digest) :=
  h.andThen hF <| by
    simp only [State.answerJoin]
    split
    · split
      · exact (refl _).sendDctl
      · split
        · exact (refl _).sendDctl
        · exact ((refl _).withDom).sendDctl
    · split
      · exact (refl _).sendDctl
      · split
        · exact (refl _).sendDctl
        · exact ((refl _).withDom).sendDctl

theorem reportResidency (h : Keeps F s u) (hF : [.links, .dom, .out] ⊆ F := by decide) :
    Keeps F s u.reportResidency :=
  h.andThen hF ((refl _).foldl fun t x => (refl _).tellResident)

theorem setClock (h : Keeps F s u) {v} (hF : [.tm, .vs] ⊆ F := by decide) : Keeps F s (u.setClock v) :=
  h.andThen hF ((refl _).update)

theorem loadSecond (h : Keeps F s u) {v} (hF : [.tm, .vs] ⊆ F := by decide) : Keeps F s (u.loadSecond v) :=
  h.andThen hF <| by
    simp only [State.loadSecond]
    split
    · exact ((refl _).withTm)
    · exact ((refl _).withTm).setClock

theorem takeAccept (h : Keeps F s u) {d firstEpoch second members}
    (hF : [.tm, .en, .vs, .links, .dom, .out] ⊆ F := by decide) :
    Keeps F s (u.takeAccept d firstEpoch second members) :=
  h.andThen hF <| by
    simp only [State.takeAccept]
    split
    · exact ((refl _).withDom).reportResidency
    · exact ((refl _).update).loadSecond

theorem refuseEnable (h : Keeps F s u) {code detail} (hF : [.en, .dom] ⊆ F := by decide) :
    Keeps F s (u.refuseEnable code detail) :=
  h.andThen hF ((refl _).update)

theorem joinFailed (h : Keeps F s u) {code} (hF : [.en, .dom] ⊆ F := by decide) : Keeps F s (u.joinFailed code) :=
  h.andThen hF <| by
    simp only [State.joinFailed]
    split
    · exact ((refl _).withDom)
    · split
      · exact (refl _).refuseEnable
      · split <;> exact (refl _).refuseEnable

theorem queueInstalls (h : Keeps F s u) {j} (hF : [.installs] ⊆ F := by decide) : Keeps F s (u.queueInstalls j) :=
  h.andThen hF <| by
    simp only [State.queueInstalls]
    split
    · exact ((refl _).foldl fun t x => by
        split
        · split
          · exact ((refl _).withInstalls)
          · exact (refl _)
        · exact (refl _))
    · exact (refl _)

theorem admitJob (h : Keeps F s u) {i} (hF : [.installs, .jobs, .jobSeq] ⊆ F := by decide) :
    Keeps F s (u.admitJob i) :=
  h.andThen hF <| by
    simp only [State.admitJob]
    split
    · exact (refl _).nextOrder.modJob.queueInstalls
    · exact (refl _).nextOrder.modJob

theorem noteReady (h : Keeps F s u) {from' jobId prog tenant} (hF : [.dom] ⊆ F := by decide) :
    Keeps F s (u.noteReady from' jobId prog tenant) :=
  h.andThen hF ((refl _).withDom)

theorem fromLead (h : Keeps F s u) {d k} (hk : ∀ t, Keeps F t (k t)) : Keeps F s (u.fromLead d k) :=
  h.trans <| by
    simp only [State.fromLead]
    split
    · exact hk _
    · exact refl _

theorem reach (h : Keeps F s u) {t'} (hF : [.tm] ⊆ F := by decide) : Keeps F s (u.reach t') :=
  h.andThen hF ((refl _).withTm)

theorem payFor (h : Keeps F s u) {t' cost} (hF : [.tenants, .drrPtr] ⊆ F := by decide) :
    Keeps F s (u.payFor t' cost) :=
  h.andThen hF ((refl _).modTenant.withDrrPtr)

theorem leadBind (h : Keeps F s u) {p e q} (hF : [.tenants, .drrPtr, .links, .dom, .out] ⊆ F := by decide) :
    Keeps F s (u.leadBind p e q) :=
  h.andThen hF <| by
    simp only [State.leadBind]
    split
    · exact ((refl _).payFor.sendMembers.withDom)
    · exact ((refl _).sendMembers.withDom)

theorem rebuild (h : Keeps F s u) {reported} (hF : [.jobs, .jobSeq, .links, .dom, .out] ⊆ F := by decide) :
    Keeps F s (u.rebuild reported) :=
  h.andThen hF (((refl _).update).foldl fun t x => (refl _).abandonJob)

theorem collectCheck (h : Keeps F s u) (hF : [.jobs, .jobSeq, .links, .dom, .out] ⊆ F := by decide) :
    Keeps F s u.collectCheck :=
  h.andThen hF <| by
    simp only [State.collectCheck]
    split
    · exact (refl _)
    · split
      · exact (refl _).rebuild
      · exact (refl _)

theorem takeLead (h : Keeps F s u) (hF : [.jobs, .jobSeq, .links, .dom, .out] ⊆ F := by decide) :
    Keeps F s u.takeLead :=
  h.andThen hF (((refl _).withDom).foldl fun t x => (refl _).noteReady).sendMembers.collectCheck

theorem leaveDomain (h : Keeps F s u) {reason} (hF : [.links, .dom, .out] ⊆ F := by decide) :
    Keeps F s (u.leaveDomain reason) :=
  h.andThen hF <| by
    simp only [State.leaveDomain]
    split
    · split
      · exact ((refl _).withDom)
      · exact ((refl _).sendDctl.withDom)
    · split
      · exact ((refl _).withDom)
      · exact (refl _)

theorem abandonHere (h : Keeps F s u) {jobId inc cause} (hF : [.jobs, .jobSeq] ⊆ F := by decide) :
    Keeps F s (u.abandonHere jobId inc cause) :=
  h.andThen hF <| by
    simp only [State.abandonHere]
    split
    · exact (refl _)
    · split
      · exact (refl _).returnJob
      · exact (refl _).countedReturn

theorem memberGone (h : Keeps F s u) {p} (hF : [.jobs, .jobSeq, .links, .dom, .out] ⊆ F := by decide) :
    Keeps F s (u.memberGone p) :=
  h.andThen hF (((refl _).withDom).foldl fun t x => (refl _).abandonJob)

theorem sendJoinTo (h : Keeps F s u) {lead} (hF : [.links, .dom, .out] ⊆ F := by decide) :
    Keeps F s (u.sendJoinTo lead) :=
  h.andThen hF <| by
    simp only [State.sendJoinTo]
    split
    · exact (refl _)
    · exact ((refl _).withDom).sendDctl

theorem noteSwitch (h : Keeps F s u) {origin variant e} (hF : [.vs] ⊆ F := by decide) :
    Keeps F s (u.noteSwitch origin variant e) :=
  h.andThen hF ((refl _).withVs)

theorem sendVack (h : Keeps F s u) {a} (hF : [.links, .dom, .out] ⊆ F := by decide) : Keeps F s (u.sendVack a) :=
  h.andThen hF ((refl _).sendDctl)

theorem acknowledgeSwitch (h : Keeps F s u) {a} (hF : [.links, .dom, .out] ⊆ F := by decide) :
    Keeps F s (u.acknowledgeSwitch a) :=
  h.andThen hF <| by
    simp only [State.acknowledgeSwitch]
    split
    · exact (refl _).sendVack
    · exact ((refl _).withDom)

theorem sendReports (h : Keeps F s u) {dst} (hF : [.links, .dom, .out] ⊆ F := by decide) :
    Keeps F s (u.sendReports dst) :=
  h.andThen hF ((refl _).foldl fun t x => (refl _).sendDctl)

theorem failHere (h : Keeps F s u) {jobId inc detail} (hF : [.runs] ⊆ F := by decide) :
    Keeps F s (u.failHere jobId inc detail) :=
  h.andThen hF <| by
    simp only [State.failHere]
    split
    · exact (refl _)
    · split
      · exact (refl _)
      · split
        · exact (refl _)
        · exact (refl _).modRun

theorem mgmtSend (h : Keeps F s u) {j op m} (hF : [.links, .out] ⊆ F := by decide) : Keeps F s (u.mgmtSend j op m) :=
  h.andThen hF <| by
    simp only [State.mgmtSend]
    split
    · split
      · exact (refl _).txFrame
      · exact (refl _).noRoute
    · exact (refl _).noRoute

theorem receiveMgmt (h : Keeps F s u) {r op m k} (hk : ∀ t, Keeps F t (k t)) (hF : [.links, .out] ⊆ F := by decide) :
    Keeps F s (u.receiveMgmt r op m k) :=
  h.receive (hF := hF) fun t => by
    split
    · exact (refl _).mgmtSend.mono hF
    · split
      · exact hk t
      · exact refl _

theorem touchSnap (h : Keeps F s u) {q index} (hF : [.snap] ⊆ F := by decide) : Keeps F s (u.touchSnap q index) :=
  h.andThen hF <| by
    simp only [State.touchSnap]
    split
    · exact ((refl _).withSnap)
    · exact (refl _)

theorem afterLoftRead (h : Keeps F s u) {q d} (hF : [.arrs] ⊆ F := by decide) : Keeps F s (u.afterLoftRead q d) :=
  h.andThen hF ((refl _).modArr)

theorem afterTempRead (h : Keeps F s u) {d} (hF : [.dies] ⊆ F := by decide) : Keeps F s (u.afterTempRead d) :=
  h.andThen hF ((refl _).modDie)

theorem afterSlotRead (h : Keeps F s u) {q} (hF : [.slotStats] ⊆ F := by decide) : Keeps F s (u.afterSlotRead q) :=
  h.andThen hF ((refl _).modSlotStat)

theorem afterSkewRead (h : Keeps F s u) (hF : [.tm] ⊆ F := by decide) : Keeps F s u.afterSkewRead :=
  h.andThen hF ((refl _).withTm)

theorem setSel (h : Keeps F s u) {q x} (hF : [.sels] ⊆ F := by decide) : Keeps F s (u.setSel q x) :=
  h.andThen hF ((refl _).withSels)

theorem afterPageRead (h : Keeps F s u) {q sub} (hF : [.sels] ⊆ F := by decide) : Keeps F s (u.afterPageRead q sub) :=
  h.andThen hF ((refl _).setSel)

theorem afterRead (h : Keeps F s u) {q index sub} (hF : [.tm, .slotStats, .arrs, .dies, .sels, .snap] ⊆ F := by decide) :
    Keeps F s (u.afterRead q index sub) :=
  h.andThen hF <| by
    simp only [State.afterRead]
    split
    · exact (refl _).touchSnap.afterLoftRead
    · split
      · exact (refl _).touchSnap.afterTempRead
      · split
        · exact (refl _).touchSnap.afterSlotRead
        · split
          · exact (refl _).touchSnap.afterSkewRead
          · split
            · exact (refl _).touchSnap.afterPageRead
            · exact (refl _).touchSnap

theorem dictRead (h : Keeps F s u) {q index sub}
    (hF : [.tm, .slotStats, .arrs, .dies, .sels, .snap] ⊆ F := by decide) : Keeps F s (u.dictRead q index sub).2.2 :=
  h.andThen hF <| by
    rcases dictRead_cases u q index sub with ⟨c, hc⟩ | ⟨r, -, hr⟩
    · rw [hc]
      exact refl _
    · rw [hr]
      exact (refl _).afterRead

theorem mgmtAnswer (h : Keeps F s u) {j m status value} (hF : [.links, .out] ⊆ F := by decide) :
    Keeps F s (u.mgmtAnswer j m status value) :=
  h.andThen hF ((refl _).foldl fun t x => (refl _).mgmtSend)

theorem dropFrag (h : Keeps F s u) {q tag} (hF : [.dom] ⊆ F := by decide) : Keeps F s (u.dropFrag q tag) :=
  h.andThen hF ((refl _).withDom)

theorem joinSelf (h : Keeps F s u) (hF : [.en, .dom] ⊆ F := by decide) : Keeps F s u.joinSelf :=
  h.andThen hF ((refl _).update)

theorem sendJoin (h : Keeps F s u) (hF : [.links, .dom, .out] ⊆ F := by decide) : Keeps F s u.sendJoin :=
  h.andThen hF <| by
    simp only [State.sendJoin]
    split
    · exact (refl _)
    · exact (refl _).sendJoinTo

theorem startJoin (h : Keeps F s u) (hF : [.en, .links, .dom, .out] ⊆ F := by decide) : Keeps F s u.startJoin :=
  h.andThen hF <| by
    simp only [State.startJoin]
    split
    · exact (refl _).joinSelf
    · exact (refl _).sendJoin

theorem beginCheck (h : Keeps F s u) (hF : [.en, .links, .dom, .out] ⊆ F := by decide) : Keeps F s u.beginCheck :=
  h.andThen hF <| by
    simp only [State.beginCheck]
    split
    · exact ((refl _).withEn).startJoin
    · exact ((refl _).withEn)

theorem setEnable (h : Keeps F s u) (hF : [.en, .links, .dom, .out] ⊆ F := by decide) : Keeps F s u.setEnable.2 :=
  h.andThen hF <| by
    simp only [State.setEnable]
    split
    · exact (refl _)
    · split
      · exact (refl _)
      · exact (refl _).beginCheck

theorem clearEnable (h : Keeps F s u) (hF : [.en, .links, .dom, .out] ⊆ F := by decide) : Keeps F s u.clearEnable.2 :=
  h.andThen hF <| by
    simp only [State.clearEnable]
    split
    · exact ((refl _).withEn).leaveDomain
    · exact (refl _)

theorem askReset (h : Keeps F s u) {v} (hF : [.pw] ⊆ F := by decide) : Keeps F s (u.askReset v).2 :=
  h.andThen hF ((refl _).withPw)

theorem took (h : Keeps F s u) (hF : [] ⊆ F := by decide) : Keeps F s (took u).2 := h.andThen hF (refl _)

theorem writeDieSel (h : Keeps F s u) {q index v} (hF : [.sels] ⊆ F := by decide) :
    Keeps F s (u.writeDieSel q index v).2 :=
  h.andThen hF <| by
    simp only [State.writeDieSel]
    split <;> exact (refl _).setSel.took

theorem activate (h : Keeps F s u) {t'} (hF : [.tenants] ⊆ F := by decide) : Keeps F s (u.activate t').2 :=
  h.andThen hF <| by
    simp only [State.activate]
    exact (refl _).modTenant

theorem disable (h : Keeps F s u) {t'} (hF : [.tenants, .sec] ⊆ F := by decide) : Keeps F s (u.disable t').2 :=
  h.andThen hF <| by
    simp only [State.disable]
    split
    · exact (refl _)
    · exact (refl _)
    · split
      · dsimp only
        exact ((refl _).modTenant.withSec).sigAbort
      · dsimp only
        exact ((refl _).modTenant.withSec)

theorem nextUpload (h : Keeps F s u) {t'} (hF : [.tenants, .uploads] ⊆ F := by decide) :
    Keeps F s (u.nextUpload t') :=
  h.andThen hF <| by
    simp only [State.nextUpload]
    split
    · exact ((refl _).withUploads)
    · exact ((refl _).withUploads).modTenant

theorem refuseLoad (h : Keeps F s u) {v} (hF : [.pc] ⊆ F := by decide) : Keeps F s (u.refuseLoad v) :=
  h.andThen hF ((refl _).withPc)

theorem startLoad (h : Keeps F s u) {q} (hF : [.pc] ⊆ F := by decide) : Keeps F s (u.startLoad q).2 :=
  h.andThen hF <| by
    simp only [State.startLoad]
    split
    · exact (refl _)
    · split
      · exact (refl _).refuseLoad
      · split
        · exact (refl _)
        · exact ((refl _).withPc)

theorem requestVariant (h : Keeps F s u) {v} (hF : [.vs] ⊆ F := by decide) : Keeps F s (u.requestVariant v).2 :=
  h.andThen hF <| by
    simp only [State.requestVariant]
    split <;> exact ((refl _).withVs)

theorem writePlan (h : Keeps F s u) {q index sub v} (hF : [.pc, .vs, .sels] ⊆ F := by decide) :
    Keeps F s (u.writePlan q index sub v).2 :=
  h.andThen hF <| by
    simp only [State.writePlan]
    split
    · exact ((refl _).withPc).took
    · exact ((refl _).withPc).took
    · exact (refl _).startLoad
    · exact (refl _).requestVariant
    · exact (refl _).setSel.took
    · exact (refl _).setSel.took
    · exact (refl _).setSel.took

theorem askFence (h : Keeps F s u) {d} (hF : [.hm] ⊆ F := by decide) : Keeps F s (u.askFence d).2 :=
  h.andThen hF <| by
    simp only [State.askFence]
    split
    · exact (refl _)
    · split <;> exact ((refl _).withHm)

theorem askRetire (h : Keeps F s u) {n} (hF : [.dies, .hm] ⊆ F := by decide) : Keeps F s (u.askRetire n).2 :=
  h.andThen hF <| by
    simp only [State.askRetire]
    split
    · exact (refl _)
    · split
      · exact ((refl _).withHm)
      · dsimp only
        exact ((refl _).modDie.withHm)

theorem ackEvent (h : Keeps F s u) {seq} (hF : [.pw, .hm] ⊆ F := by decide) : Keeps F s (u.ackEvent seq).2 :=
  h.andThen hF <| by
    simp only [State.ackEvent]
    split
    · dsimp only
      exact ((refl _).update)
    · exact ((refl _).withHm)

theorem writeHealth (h : Keeps F s u) {q index sub v bs} (hF : [.pw, .dies, .hm, .sels] ⊆ F := by decide) :
    Keeps F s (u.writeHealth q index sub v bs).2 :=
  h.andThen hF <| by
    simp only [State.writeHealth]
    split
    · exact ((refl _).withHm)
    · exact ((refl _).withHm)
    · exact ((refl _).withHm)
    · exact ((refl _).withHm)
    · exact ((refl _).withHm)
    · exact ((refl _).withHm)
    · exact ((refl _).withHm)
    · exact ((refl _).withHm)
    · exact ((refl _).withHm)
    · exact ((refl _).withHm)
    · exact ((refl _).withHm)
    · exact ((refl _).withHm)
    · exact (refl _).askFence
    · exact (refl _).askRetire
    · exact (refl _).setSel.took
    · exact (refl _).ackEvent

theorem retrainLink (h : Keeps F s u) {j}
    (hF : linkFields ⊆ F := by decide) :
    Keeps F s (u.retrainLink j).2 :=
  h.andThen hF <| by
    simp only [State.retrainLink]
    split
    · exact (refl _)
    · split
      · exact (refl _).pathsDown.modLink.startTraining.replaceCheck
      · exact (refl _).modLink.startTraining.replaceCheck

theorem writeLinks (h : Keeps F s u) {index sub v bs}
    (hF : [.pw, .tm, .vs, .jobs, .jobSeq, .runs, .arrs, .dies, .links, .dom, .sec, .hm, .trace, .out] ⊆ F := by decide) :
    Keeps F s (u.writeLinks index sub v bs).2 :=
  h.andThen hF <| by
    simp only [State.writeLinks]
    split
    · exact (refl _).loadSecond.took
    · exact ((refl _).withTm).took
    · exact ((refl _).withTm).took
    · exact ((refl _).withDom).took
    · exact ((refl _).withDom).took
    · exact ((refl _).withDom).took
    · exact (refl _).retrainLink

theorem writeVkey (h : Keeps F s u) {t' bs} (hF : [.tenants] ⊆ F := by decide) : Keeps F s (u.writeVkey t' bs).2 :=
  h.andThen hF <| by
    simp only [State.writeVkey]
    split
    · exact (refl _)
    · split
      · exact (refl _)
      · exact (refl _).setTenant

theorem refuseOffer (h : Keeps F s u) {t' code} (hF : [.tenants] ⊆ F := by decide) :
    Keeps F s (u.refuseOffer t' code) :=
  h.andThen hF ((refl _).modTenant)

theorem startOffer (h : Keeps F s u) {t'} (hF : [.tenants, .sec] ⊆ F := by decide) : Keeps F s (u.startOffer t').2 :=
  h.andThen hF <| by
    simp only [State.startOffer]
    split
    · exact (refl _)
    · split
      · exact (refl _).refuseOffer
      · exact (refl _).modTenant.sigPush

theorem refuseSubmit (h : Keeps F s u) {t' code} (hF : [.tenants] ⊆ F := by decide) :
    Keeps F s (u.refuseSubmit t' code) :=
  h.andThen hF ((refl _).modTenant)

theorem startSubmit (h : Keeps F s u) {t'} (hF : [.tenants, .sec] ⊆ F := by decide) :
    Keeps F s (u.startSubmit t').2 :=
  h.andThen hF <| by
    simp only [State.startSubmit]
    split
    · exact (refl _)
    · split
      · exact (refl _).refuseSubmit
      · exact (refl _).modTenant.sigPush

theorem pdecNext (h : Keeps F s u) {t'} (hF : [.tenants, .sec] ⊆ F := by decide) : Keeps F s (u.pdecNext t') :=
  h.andThen hF <| by
    simp only [State.pdecNext]
    split
    · split
      · exact ((refl _).withSec).sigAbort.modTenant.sigPush
      · exact ((refl _).withSec).sigAbort
    · exact ((refl _).withSec).sigAbort

theorem pdecWipe (h : Keeps F s u) {t'} (hF : [.tenants, .sec] ⊆ F := by decide) : Keeps F s (u.pdecWipe t') :=
  h.andThen hF <| by
    simp only [State.pdecWipe]
    exact ((refl _).withSec).modTenant

theorem pdecRefuse (h : Keeps F s u) {t' code} (hF : [.tenants, .sec] ⊆ F := by decide) :
    Keeps F s (u.pdecRefuse t' code) :=
  h.andThen hF ((refl _).modTenant.pdecWipe.pdecNext)

theorem startPdec (h : Keeps F s u) {t'} (hF : [.tenants, .sec] ⊆ F := by decide) : Keeps F s (u.startPdec t').2 :=
  h.andThen hF <| by
    have hno (c : Nat) : Keeps [.tenants,
      .sec] u (u.modTenant t' fun x => { x with pdecRun := 4, pdecReason := c }) := (refl _).modTenant
    unfold State.startPdec
    extract_lets
    split
    · dsimp only
      exact (refl _).modTenant
    iterate 6
      split
      · exact hno _
    dsimp only
    split
    · exact ((refl _).modTenant.withSec).sigPush
    · exact (refl _).modTenant.withSec

theorem refuseHm (h : Keeps F s u) {code} (hF : [.sec] ⊆ F := by decide) : Keeps F s (u.refuseHm code) :=
  h.andThen hF ((refl _).withSec)

theorem startHm (h : Keeps F s u) (hF : [.sec] ⊆ F := by decide) : Keeps F s u.startHm.2 :=
  h.andThen hF <| by
    simp only [State.startHm]
    split
    · exact (refl _)
    · split
      · exact (refl _).refuseHm
      · split
        · exact (refl _).refuseHm
        · exact ((refl _).withSec).sigPush

theorem startMargin (h : Keeps F s u) (hF : [.mem] ⊆ F := by decide) : Keeps F s u.startMargin.2 :=
  h.andThen hF <| by
    simp only [State.startMargin]
    split
    · exact (refl _)
    · exact ((refl _).withMem)

theorem freshWord (h : Keeps F s u) (hF : [.free] ⊆ F := by decide) : Keeps F s u.freshWord.2 :=
  h.andThen hF ((refl _).withFree)

theorem runDump (h : Keeps F s u) {q} (hF : [.dump, .hostMem, .free] ⊆ F := by decide) : Keeps F s (u.runDump q).2 :=
  h.andThen hF <| by
    simp only [State.runDump]
    split
    · split
      · exact ((refl _).withDump)
      · split
        · dsimp only
          exact (((refl _).hostWrite ‹_›).withDump)
        · dsimp only
          exact ((refl _).freshWord.withDump)
    · exact (refl _)
    · exact (refl _)

theorem writeTools (h : Keeps F s u) {q index sub v bs} (hF : [.mem, .trace, .dump, .hostMem, .free] ⊆ F := by decide) :
    Keeps F s (u.writeTools q index sub v bs).2 :=
  h.andThen hF <| by
    simp only [State.writeTools]
    split
    · exact ((refl _).withMem).took
    · exact ((refl _).withTrace)
    · exact ((refl _).withTrace)
    · exact ((refl _).withTrace)
    · exact ((refl _).withTrace)
    · exact ((refl _).withTrace)
    · exact ((refl _).withTrace)
    · exact ((refl _).withMem).took
    · exact ((refl _).withMem).took
    · exact (refl _).startMargin
    · exact ((refl _).withDump)
    · exact ((refl _).withDump)
    · exact ((refl _).withDump)
    · exact ((refl _).withDump)
    · exact (refl _).runDump

theorem snapWrite (h : Keeps F s u) {q v} (hF : [.snap] ⊆ F := by decide) : Keeps F s (u.snapWrite q v).2 :=
  h.andThen hF <| by
    simp only [State.snapWrite]
    split
    · split
      · exact ((refl _).withSnap)
      · exact (refl _)
    · split
      · exact (refl _)
      · split <;> exact ((refl _).withSnap)

theorem writeMirror (h : Keeps F s u) {q index sub v} (hF : [.arrs, .sels, .snap] ⊆ F := by decide) :
    Keeps F s (u.writeMirror q index sub v).2 :=
  h.andThen hF <| by
    simp only [State.writeMirror]
    split
    · exact (refl _).snapWrite
    · exact (refl _).setSel.took
    · exact (refl _).setSel.took
    · exact (refl _).modArr.took
    · exact (refl _).setSel.took
    · exact (refl _).setSel.took
    · exact (refl _).setSel.took

theorem takeFrag (h : Keeps F s u) {size q tag index sub frag value}
    (hF : [.pw, .fns, .tm, .en, .pc, .vs, .tenants, .drrQuantum, .keys, .uploads, .installs, .streams, .jobs, .jobSeq, .runs,
      .arrs, .dies, .hubs, .mem, .links, .dom, .sec, .hm, .sels, .snap, .trace, .dump, .hostMem, .free,
        .out] ⊆ F := by decide) :
    Keeps F s (u.takeFrag size q tag index sub frag value).2 :=
  h.andThen hF <| by
    simp only [State.takeFrag]
    split
    · split
      · exact (refl _).dropFrag
      · split
        · exact (refl _).dropFrag
        · dsimp only
          exact ((refl _).dropFrag.withDom)
    · split
      · exact (refl _).dropFrag
      · split
        · exact (refl _).dropFrag
        · dsimp only
          exact ((refl _).dropFrag.withDom)

theorem validPps (h : Keeps F s u) {captured third} (hF : [.pw, .tm, .vs, .links, .dom, .hm, .out] ⊆ F := by decide) :
    Keeps F s (u.validPps captured third) :=
  h.andThen hF <| by
    simp only [State.validPps]
    split
    · split
      · split
        · split
          · exact (((refl _).withTm).log.leaveDomain.withTm).setClock
          · split
            · exact (((refl _).withTm).log.leaveDomain.withTm).setClock
            · exact ((refl _).withTm).log.leaveDomain
        · split
          · exact (((refl _).withTm).log.withTm).setClock
          · split
            · exact (((refl _).withTm).log.withTm).setClock
            · exact ((refl _).withTm).log
      · split
        · split
          · exact (((refl _).withTm).log.leaveDomain.withTm).setClock
          · split
            · exact (((refl _).withTm).log.leaveDomain.withTm).setClock
            · exact ((refl _).withTm).log.leaveDomain
        · split
          · exact (((refl _).withTm).log.withTm).setClock
          · split
            · exact (((refl _).withTm).log.withTm).setClock
            · exact ((refl _).withTm).log
    · split
      · split
        · exact (((refl _).withTm).withTm).setClock
        · split
          · exact (((refl _).withTm).withTm).setClock
          · exact ((refl _).withTm)
      · split
        · exact (((refl _).withTm).withTm).setClock
        · split
          · exact (((refl _).withTm).withTm).setClock
          · exact ((refl _).withTm)

theorem requeueInstalls (h : Keeps F s u) (hF : [.installs] ⊆ F := by decide) : Keeps F s u.requeueInstalls :=
  h.andThen hF ((refl _).foldl fun t x => (refl _).queueInstalls)

theorem keepRegion (h : Keeps F s u) {old} (hF : [.arrs] ⊆ F := by decide) : Keeps F s (u.keepRegion old) :=
  h.andThen hF <| (refl _).foldl fun t c => (refl _).foldl fun t a => by
    dsimp only
    split
    · exact refl _
    · exact (refl _).writeLoft

theorem performSwitch (h : Keeps F s u) {v} (hF : [.vs, .keys, .installs, .arrs, .links, .dom, .out] ⊆ F := by decide) :
    Keeps F s (u.performSwitch v) :=
  h.andThen hF <| by
    simp only [State.performSwitch]
    split
    · exact ((refl _).withVs).writeStores.keepRegion
    · exact ((refl _).emptyRegion.requeueInstalls.withVs).writeStores.keepRegion

theorem switchStep (h : Keeps F s u) {e} (hF : [.vs, .keys, .installs, .arrs, .links, .dom, .out] ⊆ F := by decide) :
    Keeps F s (u.switchStep e) :=
  h.andThen hF <| by
    simp only [State.switchStep]
    split
    · split
      · exact ((refl _).withVs).performSwitch
      · exact ((refl _).withVs)
    · exact ((refl _).withVs)

theorem applyDma (h : Keeps F s u) (hF : [.tenants] ⊆ F := by decide) : Keeps F s u.applyDma :=
  h.andThen hF ((refl _).withTenants rising_map)

theorem recommend (h : Keeps F s u) {b} (hF : [.pw, .hm] ⊆ F := by decide) : Keeps F s (u.recommend b) :=
  h.andThen hF ((refl _).log)

theorem cancelRetirements (h : Keeps F s u) {mask} (hF : [.dies, .hm] ⊆ F := by decide) :
    Keeps F s (u.cancelRetirements mask) :=
  h.andThen hF ((refl _).foldl fun t x => by
    split
    · exact (refl _)
    · exact (refl _).cancelRetire)

theorem announce (h : Keeps F s u) {v e} (hF : [.vs, .links, .dom, .out] ⊆ F := by decide) :
    Keeps F s (u.announce v e) :=
  h.andThen hF <| by
    simp only [State.announce]
    split
    · exact ((refl _).withVs).sendMembers
    · split
      · exact ((refl _).withVs).sendDctl
      · exact ((refl _).withVs)

theorem decideSwitch (h : Keeps F s u) {target item} (hF : [.pw, .vs, .dies, .links, .dom, .hm, .out] ⊆ F := by decide) :
    Keeps F s (u.decideSwitch target item) :=
  h.andThen hF ((refl _).withVs).log.cancelRetirements.announce

theorem dropPending (h : Keeps F s u) (hF : [.vs] ⊆ F := by decide) : Keeps F s u.dropPending :=
  h.andThen hF <| by
    simp only [State.dropPending]
    split
    · exact ((refl _).withVs)
    · exact (refl _)

theorem evaluateVariant (h : Keeps F s u) (hF : [.pw, .vs, .dies, .links, .dom, .hm, .out] ⊆ F := by decide) :
    Keeps F s u.evaluateVariant :=
  h.andThen hF <| by
    simp only [State.evaluateVariant]
    split
    · exact (refl _)
    · split
      · exact ((refl _).withVs).dropPending
      · split
        · exact ((refl _).withVs)
        · split
          · split
            · exact ((refl _).withVs).decideSwitch
            · exact ((refl _).withVs).dropPending
          · split
            · split
              · split
                · exact ((refl _).withVs).decideSwitch
                · split
                  · exact ((refl _).withVs).decideSwitch
                  · split
                    · exact ((refl _).withVs).decideSwitch
                    · exact ((refl _).withVs).dropPending.recommend
              · split
                · exact ((refl _).withVs).decideSwitch
                · split
                  · exact ((refl _).withVs).decideSwitch
                  · split
                    · exact ((refl _).withVs).decideSwitch
                    · exact ((refl _).withVs).dropPending.recommend
            · split
              · exact ((refl _).withVs).decideSwitch
              · split
                · exact ((refl _).withVs).decideSwitch
                · split
                  · exact ((refl _).withVs).decideSwitch
                  · exact ((refl _).withVs).dropPending.recommend

theorem memPressure (h : Keeps F s u) (hF : [.pw, .hm] ⊆ F := by decide) : Keeps F s u.memPressure :=
  h.andThen hF <| by
    simp only [State.memPressure]
    split
    · split
      · exact ((refl _).withHm)
      · exact ((refl _).withHm).log
    · split
      · split
        · split
          · exact ((refl _).withHm)
          · exact ((refl _).withHm).log
        · split
          · exact ((refl _).withHm)
          · exact ((refl _).withHm).log
      · split
        · split
          · exact ((refl _).withHm)
          · exact ((refl _).withHm).log
        · split
          · exact ((refl _).withHm)
          · exact ((refl _).withHm).log

theorem permitGear (h : Keeps F s u) {g} (hF : [.pw, .hm] ⊆ F := by decide) : Keeps F s (u.permitGear g) :=
  h.andThen hF ((refl _).withHm).log

theorem gearStep (h : Keeps F s u) (hF : [.pw, .hm] ⊆ F := by decide) : Keeps F s u.gearStep :=
  h.andThen hF <| by
    simp only [State.gearStep]
    split
    · split
      · split
        · exact (refl _).permitGear.permitGear
        · exact (refl _).permitGear.recommend
      · exact (refl _).permitGear
    · split
      · split
        · exact (refl _).permitGear
        · exact (refl _).recommend
      · exact (refl _)

theorem holdGear (h : Keeps F s u) (hF : [.hm] ⊆ F := by decide) : Keeps F s u.holdGear :=
  h.andThen hF ((refl _).withHm)

theorem throttling (h : Keeps F s u) (hF : [.pw, .hm] ⊆ F := by decide) : Keeps F s u.throttling :=
  h.andThen hF <| by
    simp only [State.throttling]
    split
    · exact (refl _)
    · split
      · split
        · exact ((refl _).foldl fun t x => by
            split
            · split
              · exact ((refl _).withHm).log
              · exact (refl _).recommend
            · split
              · exact ((refl _).withHm).log
              · exact (refl _))
        · exact (((refl _).foldl fun t x => by
            split
            · split
              · exact ((refl _).withHm).log
              · exact (refl _).recommend
            · split
              · exact ((refl _).withHm).log
              · exact (refl _)).withHm).log
      · split
        · exact ((refl _).foldl fun t x => by
            split
            · split
              · exact ((refl _).withHm).log
              · exact (refl _).recommend
            · split
              · exact ((refl _).withHm).log
              · exact (refl _))
        · exact (((refl _).foldl fun t x => by
            split
            · split
              · exact ((refl _).withHm).log
              · exact (refl _).recommend
            · split
              · exact ((refl _).withHm).log
              · exact (refl _)).withHm).log

theorem fillDeficits (h : Keeps F s u) {e} (hF : [.tenants] ⊆ F := by decide) : Keeps F s (u.fillDeficits e) :=
  h.andThen hF ((refl _).foldl fun t x => (refl _).modTenant)

theorem unacknowledged (h : Keeps F s u) {e} (hF : [.jobs, .jobSeq, .links, .dom, .out] ⊆ F := by decide) :
    Keeps F s (u.unacknowledged e) :=
  h.andThen hF <| by
    simp only [State.unacknowledged]
    split
    · exact ((refl _).foldl fun t x => (refl _).memberGone)
    · exact (refl _)

theorem ackStep (h : Keeps F s u) {e} (hF : [.links, .dom, .out] ⊆ F := by decide) : Keeps F s (u.ackStep e) :=
  h.andThen hF <| by
    simp only [State.ackStep]
    split
    · exact (((refl _).withDom).foldl fun t x => (refl _).sendVack)
    · split
      · exact ((refl _).withDom).leaveDomain
      · exact (refl _)

theorem domainStep (h : Keeps F s u) {e} (hF : [.jobs, .jobSeq, .links, .dom, .out] ⊆ F := by decide) :
    Keeps F s (u.domainStep e) :=
  h.andThen hF <| by
    simp only [State.domainStep]
    split
    · exact ((refl _).withDom)
    · split
      · exact (((refl _).withDom).unacknowledged.withDom).sendMembers
      · exact (((refl _).withDom).unacknowledged.withDom).ackStep

theorem freeArrays (h : Keeps F s u) (hF : [.arrs] ⊆ F := by decide) : Keeps F s u.freeArrays :=
  h.andThen hF ((refl _).withArrs rising_map (fun w => lofts_map (h := w)))

theorem drainTrace (h : Keeps F s u) (hF : [.trace, .hostMem] ⊆ F := by decide) : Keeps F s u.drainTrace :=
  h.andThen hF <| by
    simp only [State.drainTrace]
    exact (((refl _).foldl fun t x => by
        split
        · split
          · exact ((refl _).withTrace)
          · split
            · exact (((refl _).hostWrite ‹_›).withTrace)
            · exact ((refl _).withTrace)
        · split
          · exact ((refl _).withTrace)
          · split
            · exact (((refl _).hostWrite ‹_›).withTrace)
            · exact ((refl _).withTrace)).withTrace)

theorem unfilled (h : Keeps F s u) {q} (hF : [.slotStats] ⊆ F := by decide) : Keeps F s (u.unfilled q) :=
  h.andThen hF ((refl _).modSlotStat)

theorem refuseBind (h : Keeps F s u) {es cause} (hF : [.jobs, .jobSeq, .links, .dom, .out] ⊆ F := by decide) :
    Keeps F s (u.refuseBind es cause) :=
  h.andThen hF ((refl _).foldl fun t x => by
    split
    · split
      · exact (refl _).tellAbandon.countedReturn
      · exact (refl _).tellAbandon.returnJob
    · split
      · exact (refl _).sendMembers
      · split
        · exact (refl _).sendDctl
        · exact (refl _))

theorem bindJobs (h : Keeps F s u) {e q ps} (hF : [.tenants, .keys, .jobs, .runs, .slotStats] ⊆ F := by decide) :
    Keeps F s (u.bindJobs e q ps) :=
  h.andThen hF <| by
    simp only [State.bindJobs]
    split
    · exact (((refl _).foldl fun t x => ((refl _).modJob.withKeys)).withRuns).modSlotStat
    · exact (((refl _).foldl fun t x => ((refl _).modJob.withKeys)).withRuns).modSlotStat.modTenant

theorem bindDomain (h : Keeps F s u) {p e q}
    (hF : [.tenants, .keys, .jobs, .jobSeq, .runs, .slotStats, .links, .dom, .out] ⊆ F := by decide) :
    Keeps F s (u.bindDomain p e q) :=
  h.andThen hF <| by
    simp only [State.bindDomain]
    split
    · exact ((refl _).withDom).unfilled
    · split
      · exact ((refl _).withDom).unfilled
      · split
        · exact ((refl _).withDom).refuseBind.unfilled
        · split
          · exact ((refl _).withDom).refuseBind.unfilled
          · split
            · exact ((refl _).withDom).refuseBind.unfilled
            · exact ((refl _).withDom).bindJobs

theorem bindShared (h : Keeps F s u) {p e q} (hF : [.tenants, .drrPtr, .keys, .jobs, .runs, .slotStats] ⊆ F := by decide) :
    Keeps F s (u.bindShared p e q) :=
  h.andThen hF <| by
    simp only [State.bindShared]
    split
    · exact (refl _).unfilled
    · split
      · exact (refl _).unfilled
      · exact (refl _).payFor.bindJobs

theorem startShifted (h : Keeps F s u) {epoch q} (hF : [.tm, .slotStats] ⊆ F := by decide) :
    Keeps F s (u.startShifted epoch q).1 :=
  h.andThen hF <| by
    simp only [State.startShifted]
    split
    · exact (refl _).reach.reach
    · exact (refl _).reach.reach.modSlotStat

theorem noteDelay (h : Keeps F s u) {slot d} (hF : [.slotStats] ⊆ F := by decide) : Keeps F s (u.noteDelay slot d) :=
  h.andThen hF <| by
    simp only [State.noteDelay]
    split
    · exact (refl _)
    · exact (refl _).modSlotStat

theorem traceClearing (h : Keeps F s u) {q shift a} (hF : [.trace] ⊆ F := by decide) :
    Keeps F s (u.traceClearing q shift a) :=
  h.andThen hF ((refl _).trace?.trace?)

theorem startRun (h : Keeps F s u) {p q shift} (hF : [.arrs, .trace] ⊆ F := by decide) :
    Keeps F s (u.startRun p q shift) :=
  h.andThen hF ((refl _).foldl fun t x => (refl _).modArr.traceClearing)

theorem recordRow (h : Keeps F s u) {k row} (hF : [.hm] ⊆ F := by decide) : Keeps F s (u.recordRow k row) :=
  h.andThen hF <| by
    simp only [State.recordRow]
    split
    · exact ((refl _).withHm)
    · exact (refl _).recordQueue

theorem candidate (h : Keeps F s u) {k row} (hF : [.stk, .hm] ⊆ F := by decide) : Keeps F s (u.candidate k row) :=
  h.andThen hF <| by
    simp only [State.candidate]
    split
    · exact (refl _)
    · split
      · exact (refl _).setStack.recordRow
      · exact (refl _).setStack

theorem rowEvent (h : Keeps F s u) {k row} (hF : [.stk, .hm] ⊆ F := by decide) : Keeps F s (u.rowEvent k row) :=
  h.andThen hF <| by
    simp only [State.rowEvent]
    split
    · exact (refl _).setStack.candidate
    · exact (refl _).setStack

theorem rowUncorr (h : Keeps F s u) {k row} (hF : [.pw, .keys, .stk, .hm] ⊆ F := by decide) :
    Keeps F s (u.rowUncorr k row) :=
  h.andThen hF <| by
    simp only [State.rowUncorr]
    split
    · exact (refl _).setStack.loseStack
    · exact (refl _).setStack

theorem readLine (h : Keeps F s u) {block line st} (hF : [.pw, .keys, .stk, .hm] ⊆ F := by decide) :
    Keeps F s (u.readLine block line st).1 :=
  h.andThen hF <| by
    simp only [State.readLine]
    split
    · exact (refl _)
    · split
      · split
        · dsimp only
          exact ((refl _).modStack.foldl fun t x => (refl _).rowEvent).candidate.rowUncorr
        · dsimp only
          exact ((refl _).modStack.foldl fun t x => (refl _).rowEvent).rowUncorr
      · split
        · dsimp only
          exact ((refl _).modStack.foldl fun t x => (refl _).rowEvent).candidate
        · dsimp only
          exact ((refl _).modStack.foldl fun t x => (refl _).rowEvent)

theorem hubLine (h : Keeps F s u) {hint block line st} (hF : [.pw, .keys, .hubs, .stk, .hm] ⊆ F := by decide) :
    Keeps F s (u.hubLine hint block line st).1 :=
  h.andThen hF <| by
    simp only [State.hubLine]
    split
    · split
      · exact (refl _).setHub
      · exact (refl _)
    · split
      · exact (refl _)
      · split
        · exact (refl _)
        · split
          · exact (refl _).readLine.setHub
          · exact (refl _).readLine

theorem installRead (h : Keeps F s u) {k lines}
    (hF : [.pw, .keys, .hubs, .stk, .hm] ⊆ F := by decide) : Keeps F s (u.installRead k lines).1 :=
  h.andThen hF <| List.foldlRecOn _ _ (motive := fun r : State × Bool => Keeps [.pw, .keys, .hubs, .stk,
    .hm] u r.1) (refl _) fun _ hr b _ =>
    List.foldlRecOn _ _ (motive := fun r : State × Bool => Keeps [.pw, .keys, .hubs, .stk,
      .hm] u r.1) hr fun _ hr i _ => hr.hubLine

theorem corruptKey (h : Keeps F s u) {tenant id} (hF : [.keys] ⊆ F := by decide) :
    Keeps F s (u.corruptKey tenant id) :=
  h.andThen hF ((refl _).modKey)

theorem installFails (h : Keeps F s u) {tenant id} (hF : [.keys, .installs, .jobs] ⊆ F := by decide) :
    Keeps F s (u.installFails tenant id) :=
  h.andThen hF (((refl _).corruptKey.withInstalls).foldl fun t x => (refl _).finishJob)

theorem installBytes (h : Keeps F s u) {k c} (hF : [.arrs] ⊆ F := by decide) : Keeps F s (u.installBytes k c) :=
  h.andThen hF <| (refl _).foldl fun t b => (refl _).foldl fun t d => (refl _).writeLoft

theorem startJob (h : Keeps F s u) {p q r} (hF : [.tm, .runs, .slotStats, .arrs, .trace] ⊆ F := by decide) :
    Keeps F s (u.startJob p q r) :=
  h.andThen hF <| by
    simp only [State.startJob]
    split
    · exact (refl _).startShifted.modRun
    · exact (refl _).startShifted.startRun.noteDelay.modRun

theorem measureDelays (h : Keeps F s u) (hF : [.links, .hm, .out] ⊆ F := by decide) : Keeps F s u.measureDelays :=
  h.andThen hF <| by
    simp only [State.measureDelays]
    exact ((refl _).foldl fun t x => by
        split
        · exact (refl _).setLink.txFrame
        · exact ((refl _).setLink.withHm).txFrame)

theorem timeStep (h : Keeps F s u) {q} (hF : [.tm] ⊆ F := by decide) : Keeps F s (u.timeStep q) :=
  h.andThen hF <| by
    simp only [State.timeStep]
    split
    · split
      · exact (refl _)
      · exact ((refl _).withTm)
    · split
      · exact (refl _)
      · exact ((refl _).withTm)

theorem checkReplicas (h : Keeps F s u) (hF : [.pw, .tm, .dies, .hm] ⊆ F := by decide) : Keeps F s u.checkReplicas :=
  h.andThen hF ((refl _).foldl fun t x => by
    split
    · exact ((refl _).withTm).log.modDie
    · exact ((refl _).withTm).log)

theorem setReplicas (h : Keeps F s u) {rs} (hF : [.tm] ⊆ F := by decide) : Keeps F s (u.setReplicas rs) :=
  h.andThen hF ((refl _).withTm)

theorem dropRun (h : Keeps F s u) {q} (hF : [.runs] ⊆ F := by decide) : Keeps F s (u.dropRun q) :=
  h.andThen hF ((refl _).withRuns)

theorem completeBound (h : Keeps F s u) {r flags} (hF : [.jobs] ⊆ F := by decide) :
    Keeps F s (u.completeBound r flags) :=
  h.andThen hF ((refl _).foldl fun t x => by
    split
    · split
      · split <;> exact (refl _).modJob.finishJob
      · exact (refl _)
    · exact (refl _))

theorem dropRequests (h : Keeps F s u) {q r} (hF : [.arrs, .dies] ⊆ F := by decide) :
    Keeps F s (u.dropRequests q r) :=
  h.andThen hF (((refl _).foldl fun t x => (refl _).modDie).foldl fun t x => (refl _).modArr)

theorem freeReuse (h : Keeps F s u) {slot} (hF : [.hubs] ⊆ F := by decide) : Keeps F s (u.freeReuse slot) :=
  h.andThen hF ((refl _).withHubs rising_map)

theorem closeArrays (h : Keeps F s u) {q busy} (hF : [.arrs] ⊆ F := by decide) : Keeps F s (u.closeArrays q busy) :=
  h.andThen hF ((refl _).foldl fun t x => (refl _).modArr)

theorem endRun (h : Keeps F s u) {q r} (hF : [.tm, .jobs, .runs, .arrs, .dies, .hubs] ⊆ F := by decide) :
    Keeps F s (u.endRun q r) :=
  h.andThen hF <| by
    simp only [State.endRun]
    split
    · split
      · exact (refl _).reach.dropRequests.closeArrays.freeReuse.dropRun
      · exact (refl _).reach.completeBound.dropRequests.closeArrays.freeReuse.dropRun
    · split
      · exact (refl _).reach.closeArrays.freeReuse.dropRun
      · exact (refl _).reach.completeBound.closeArrays.freeReuse.dropRun

theorem abandonSlot (h : Keeps F s u) {r} (hF : [.jobs, .jobSeq, .runs, .slotStats, .links, .dom, .out] ⊆ F := by decide) :
    Keeps F s (u.abandonSlot r) :=
  h.andThen hF ((refl _).abandonRuns.markAbandoned)

theorem deadline (h : Keeps F s u) {r a group cycle tag late word}
    (hF : [.pw, .jobs, .jobSeq, .runs, .slotStats, .arrs, .links, .dom, .hm, .trace, .out] ⊆ F := by decide) :
    Keeps F s (u.deadline r a group cycle tag late word) :=
  h.andThen hF ((refl _).noteDelay.modArr.modArr.logBody.trace?.abandonSlot)

theorem fillBuckets (h : Keeps F s u) (hF : [.tenants, .arrs] ⊆ F := by decide) : Keeps F s u.fillBuckets :=
  h.andThen hF <| (refl _).update (hm := fun ⟨g, m, a⟩ => ⟨g, m, lofts_map (h := a)⟩)
    (hr := fun ⟨r0, r1, r2, r3, r4, r5, r6, r7, r8⟩ => ⟨rising_map (h := r0), r1, r2, r3, rising_map
      (h := r4), r5, r6, r7, r8⟩)

theorem popReq (h : Keeps F s u) {a} (hF : [.arrs] ⊆ F := by decide) : Keeps F s (u.popReq a) :=
  h.andThen hF ((refl _).modArr)

theorem takeUnits (h : Keeps F s u) {a t' n} (hF : [.tenants, .arrs] ⊆ F := by decide) :
    Keeps F s (u.takeUnits a t' n) :=
  h.andThen hF <| by
    simp only [State.takeUnits]
    split
    · exact (refl _).modArr.modTenant
    · exact (refl _).modArr

theorem traceHold (h : Keeps F s u) {a bpos bytes} (hF : [.trace] ⊆ F := by decide) :
    Keeps F s (u.traceHold a bpos bytes) :=
  h.andThen hF <| by
    simp only [State.traceHold]
    split <;> exact (refl _).trace?

theorem traceWord (h : Keeps F s u) {x r evt arg} (hF : [.trace] ⊆ F := by decide) :
    Keeps F s (u.traceWord x r evt arg) :=
  h.andThen hF ((refl _).trace?)

theorem noteStart (h : Keeps F s u) {x r y flag queue} (hF : [.slotStats, .trace] ⊆ F := by decide) :
    Keeps F s (u.noteStart x r y flag queue) :=
  h.andThen hF <| by
    simp only [State.noteStart]
    split
    · split
      · split
        · exact (refl _).noteDelay.traceWord.traceWord.traceWord
        · exact (refl _).noteDelay.traceWord.traceWord
      · split
        · exact (refl _).noteDelay.traceWord.traceWord
        · exact (refl _).noteDelay.traceWord
    · split
      · split
        · exact (refl _).noteDelay.traceWord.traceWord
        · exact (refl _).noteDelay.traceWord
      · split
        · exact (refl _).noteDelay.traceWord
        · exact (refl _).noteDelay

theorem modLanes (h : Keeps F s u) {a pair} {f : Arr → Arr}
    (hf : ∀ x : Arr, Memory.wf x.loft = true → Memory.wf (f x).loft = true := by exact fun _ h => h)
    (hF : [.arrs] ⊆ F := by decide) : Keeps F s (u.modLanes a pair f) :=
  h.andThen hF <| by
    simp only [State.modLanes]
    split
    · exact ((refl _).modArr (hf := hf)).modArr (hf := hf)
    · exact (refl _).modArr (hf := hf)

theorem poisonSheaf (h : Keeps F s u) {a h' poly} (hF : [.arrs] ⊆ F := by decide) :
    Keeps F s (u.poisonSheaf a h' poly) :=
  h.andThen hF ((refl _).setSheaf)

theorem restoreRow (h : Keeps F s u) {a row} (hF : [.arrs] ⊆ F := by decide) : Keeps F s (u.restoreRow a row) :=
  h.andThen hF <| by
    unfold State.restoreRow
    extract_lets x addr set
    split
    · exact (refl _).setArr
    · split
      · exact refl _
      · next hd e he =>
        split
        · exact (refl _).setLoft
        · split
          · exact (refl _).setArr
          · split
            · split
              · exact (refl _).setLoft
              · exact refl _
            · dsimp only
              split
              · exact (refl _).setLoft.poisonSheaf
              · exact (refl _).setLoft

theorem restoreRows (h : Keeps F s u) {x l} (hF : [.arrs] ⊆ F := by decide) : Keeps F s (u.restoreRows x l) :=
  h.andThen hF <| by
    simp only [State.restoreRows]
    split
    · exact (((refl _).foldl fun t x => (refl _).restoreRow).foldl fun t x => (refl _).restoreRow)
    · exact ((refl _).foldl fun t x => (refl _).restoreRow)

theorem corrected (h : Keeps F s u) {a loft} (hF : [.arrs, .dies] ⊆ F := by decide) :
    Keeps F s (u.corrected a loft) :=
  h.andThen hF <| by
    simp only [State.corrected]
    exact (refl _).modArr.modDie

theorem countCorrected (h : Keeps F s u) {x dets} (hF : [.arrs, .dies] ⊆ F := by decide) :
    Keeps F s (u.countCorrected x dets) :=
  h.andThen hF <| by
    simp only [State.countCorrected]
    exact ((refl _).foldl fun t x => by
        split
        · exact (refl _).corrected
        · exact (refl _).corrected
        · exact (refl _).modDie
        · exact (refl _))

theorem countQuiet (h : Keeps F s u) {x fs} (hF : [.arrs] ⊆ F := by decide) : Keeps F s (u.countQuiet x fs) :=
  h.andThen hF ((refl _).foldl fun t x => (refl _).modArr)

theorem wordFault (h : Keeps F s u) {x pair f}
    (hF : faultFields ⊆ F := by decide) :
    Keeps F s (u.wordFault x pair f) :=
  h.andThen hF ((refl _).modLanes.raiseFault)

theorem countLost (h : Keeps F s u) {x fs} (hF : [.arrs] ⊆ F := by decide) : Keeps F s (u.countLost x fs) :=
  h.andThen hF ((refl _).foldl fun t x => (refl _).modArr)

theorem reportWord (h : Keeps F s u) {x pair}
    (hF : faultFields ⊆ F := by decide) :
    Keeps F s (u.reportWord x pair) :=
  h.andThen hF <| by
    simp only [State.reportWord]
    split
    · exact (refl _).modArr.countLost.wordFault
    · exact (refl _).modArr

theorem closeWord (h : Keeps F s u) {x r pair}
    (hF : faultFields ⊆ F := by decide) :
    Keeps F s (u.closeWord x r pair) :=
  h.andThen hF <| by
    simp only [State.closeWord]
    split
    · exact (refl _)
    · split
      · exact (refl _).reportWord.modLanes
      · split
        · split
          · exact (refl _).reportWord.modLanes.settleSheaves.settleSheaves.traceWord
          · exact (refl _).reportWord.modLanes.settleSheaves.traceWord
        · split
          · split
            · split
              · exact (refl _).reportWord.modLanes.settleSheaves.settleSheaves.traceWord.countLost
              · exact (refl _).reportWord.modLanes.settleSheaves.settleSheaves.traceWord.wordFault
            · exact (refl _).reportWord.modLanes.settleSheaves.settleSheaves.traceWord.modLanes
          · split
            · split
              · exact (refl _).reportWord.modLanes.settleSheaves.traceWord.countLost
              · exact (refl _).reportWord.modLanes.settleSheaves.traceWord.wordFault
            · exact (refl _).reportWord.modLanes.settleSheaves.traceWord.modLanes

theorem stageErrors (h : Keeps F s u) {x k pair base n} (hF : [.arrs, .dies] ⊆ F := by decide) :
    Keeps F s (u.stageErrors x k pair base n).1 :=
  h.andThen hF (((refl _).foldl fun t x => (refl _).corrected).foldl fun t x => (refl _).restoreRow)

theorem addCycles (h : Keeps F s u) {cs} (hF : [.arrs] ⊆ F := by decide) : Keeps F s (u.addCycles cs) :=
  h.andThen hF ((refl _).foldl fun t x => (refl _).modArr)

theorem coreStep (h : Keeps F s u) {c} {f : SlotRun → Bool → State → State} (hk : ∀ r p t, Keeps F t (f r p t))
    (hF : faultFields ⊆ F := by decide) :
      Keeps F s (u.coreStep c f) :=
  h.trans <| by
    simp only [State.coreStep]
    split
    · exact refl _
    · split
      · exact refl _
      · split
        · exact (refl _).coreFault.modArr.mono hF
        · exact hk ..

theorem modCore (h : Keeps F s u) {a f} (hF : [.arrs] ⊆ F := by decide) : Keeps F s (u.modCore a f) :=
  h.andThen hF ((refl _).modArr)

theorem coreAlu (h : Keeps F s u) {c f}
    (hF : faultFields ⊆ F := by decide) :
      Keeps F s (u.coreAlu c f) :=
  h.andThen hF <| (refl _).coreStep (hk := fun r p t => (refl _).modArr (hf := fun x w => by split <;> exact w))

theorem freshBytes (h : Keeps F s u) {n} (hF : [.free] ⊆ F := by decide) : Keeps F s (u.freshBytes n).2 :=
  h.andThen hF ((refl _).withFree)

theorem targetRead (h : Keeps F s u) {a refused e off len r} (hr : u.targetRead a refused e off len = .ok r)
    (hF : [.free] ⊆ F := by decide) : Keeps F s r.2 :=
  h.andThen hF <| by
    simp only [State.targetRead] at hr
    split at hr
    · obtain rfl := Except.ok.inj hr
      exact refl _
    · split at hr
      · split at hr
        · cases hr
        · obtain rfl := Except.ok.inj hr
          exact refl _
      · split at hr
        · cases hr
        · obtain rfl := Except.ok.inj hr
          exact (refl _).freshBytes
      · cases hr

theorem restoreSpot (h : Keeps F s u) {a p} (hF : [.arrs] ⊆ F := by decide) : Keeps F s (u.restoreSpot a p) :=
  h.andThen hF <| by
    simp only [State.restoreSpot]
    split
    · exact (refl _).restoreRow
    · exact (refl _).modArr
    · exact (refl _)

theorem coreFail (h : Keeps F s u) {a kind sub}
    (hF : faultFields ⊆ F := by decide) :
    Keeps F s (u.coreFail a kind sub) :=
  h.andThen hF ((refl _).coreFault.modArr)

theorem correctedSpot (h : Keeps F s u) {a p} (hF : [.arrs, .dies] ⊆ F := by decide) :
    Keeps F s (u.correctedSpot a p) :=
  h.andThen hF <| by
    simp only [State.correctedSpot]
    split
    · exact (refl _).corrected
    · exact (refl _).corrected
    · exact (refl _)

theorem coreCorrected (h : Keeps F s u) {c h' off} (hF : [.arrs, .dies] ⊆ F := by decide) :
    Keeps F s (u.coreCorrected c h' off) :=
  h.andThen hF ((refl _).foldl fun t x => by
    split
    · exact (refl _).corrected
    · exact (refl _).correctedSpot
    · exact (refl _))

theorem sendBlock (h : Keeps F s u) {p o rows} (hF : [.links, .out] ⊆ F := by decide) :
    Keeps F s (u.sendBlock p o rows) :=
  h.andThen hF ((refl _).txFrame.foldl fun t x => (refl _).txFrame)

theorem remoteStore (h : Keeps F s u) {a r e off bs t} (ht : u.remoteStore a r e off bs = .ok t)
    (hF : [.arrs, .links, .out] ⊆ F := by decide) : Keeps F s t :=
  h.andThen hF <| by
    simp only [State.remoteStore] at ht
    split at ht
    · split at ht
      · cases ht
      · split at ht
        · cases ht
        · obtain rfl := Except.ok.inj ht
          exact (refl _).queueArrival
    · split at ht
      · cases ht
      · obtain rfl := Except.ok.inj ht
        exact (refl _).modArr.sendBlock
    · cases ht

theorem acceptDesc (h : Keeps F s u) {a r hd off t} (ht : u.acceptDesc a r hd off = .ok t)
    (hF : [.arrs, .dies] ⊆ F := by decide) : Keeps F s t :=
  h.andThen hF <| by
    simp only [State.acceptDesc] at ht
    iterate 4
      split at ht
      · cases ht
    obtain rfl := Except.ok.inj ht
    exact (refl _).modDie.modArr

theorem descErrors (h : Keeps F s u) {a hd off ecc t}
    (ht : Keeps faultFields u t)
      (hF : faultFields ⊆ F := by decide) :
    Keeps F s (u.descErrors a hd off ecc t) :=
  h.andThen hF <| by
    simp only [State.descErrors]
    split
    · exact ht.foldl fun t e => (refl _).correctedSpot
    · exact (((refl _).foldl fun t e => (refl _).correctedSpot).coreFault).foldl fun t e => (refl _).restoreSpot

theorem coreEcc (h : Keeps F s u) {c h' off row}
    (hF : faultFields ⊆ F := by decide) :
    Keeps F s (u.coreEcc c h' off row) :=
  h.andThen hF ((refl _).coreFail.restoreSpot)

theorem unitDone (h : Keeps F s u) {die n} (hF : [.dies] ⊆ F := by decide) : Keeps F s (u.unitDone die n) :=
  h.andThen hF ((refl _).modDie)

theorem unitFail (h : Keeps F s u) {die u' f ends}
    (hF : faultFields ⊆ F := by decide) :
    Keeps F s (u.unitFail die u' f ends) :=
  h.andThen hF ((refl _).unitDone.raiseFault)

theorem unitDrop (h : Keeps F s u) {die u'} (hF : [.arrs, .dies] ⊆ F := by decide) : Keeps F s (u.unitDrop die u') :=
  h.andThen hF ((refl _).unitDone.foldl fun t x => (refl _).modArr)

theorem unitServe (h : Keeps F s u) {die q r}
    (hr : ∀ t, r = .ok t → Keeps faultFields u t)
      (hF : faultFields ⊆ F := by decide) :
    Keeps F s (u.unitServe die q r) :=
  h.andThen hF <| by
    simp only [State.unitServe]
    split
    · exact (refl _).unitFail
    · split
      · exact (refl _).unitDrop
      · exact (hr _ rfl).unitDone

theorem readDelay (h : Keeps F s u) {u' n mirror} (hF : [.arrs, .free] ⊆ F := by decide) :
    Keeps F s (u.readDelay u' n mirror) :=
  h.andThen hF <| by
    simp only [State.readDelay]
    split
    · exact (refl _)
    · exact ((refl _).freshWord.foldl fun t x => by
        split
        · exact (refl _).modArr
        · exact (refl _))

theorem pressure (h : Keeps F s u) {u' plan n} (hF : [.arrs, .hm, .free] ⊆ F := by decide) :
    Keeps F s (u.pressure u' plan n) :=
  h.andThen hF <| by
    simp only [State.pressure]
    split
    · split
      · exact ((refl _).readDelay.withHm)
      · exact (refl _).readDelay
    · split
      · exact ((refl _).readDelay.withHm)
      · exact (refl _).readDelay

theorem granSet (h : Keeps F s u) {block off v} (hF : [.gran] ⊆ F := by decide) : Keeps F s (u.granSet block off v) :=
  h.andThen hF <| by
    simp only [State.granSet]
    split
    · exact refl _
    · exact (refl _).withGran fun w => Memory.wf_setByte w ..

theorem planWrite (h : Keeps F s u) {off bs} (hF : [.gran] ⊆ F := by decide) : Keeps F s (u.planWrite off bs) :=
  h.andThen hF ((refl _).foldl fun t x => (refl _).granSet.granSet)

theorem mandatoryVariant (h : Keeps F s u) (hF : [.pw, .vs, .dies, .links, .dom, .hm, .out] ⊆ F := by decide) :
    Keeps F s u.mandatoryVariant :=
  h.andThen hF <| by
    simp only [State.mandatoryVariant]
    split
    · exact (refl _)
    · split
      · exact (refl _).evaluateVariant
      · exact (refl _).dropPending

theorem overflowLost (h : Keeps F s u) {l n bad}
    (hF : [.pw, .plan, .vs, .dies, .mem, .gran, .links, .dom, .hm, .out] ⊆ F := by decide) :
    Keeps F s (u.overflowLost l n bad) :=
  h.andThen hF <| by
    simp only [State.overflowLost]
    split
    · split
      · exact ((refl _).update).planWrite
      · exact (refl _)
    · exact ((refl _).withVs).mandatoryVariant

theorem unitErrors (h : Keeps F s u) {det rows} (hF : [.arrs, .dies] ⊆ F := by decide) :
    Keeps F s (u.unitErrors det rows) :=
  h.andThen hF ((refl _).foldl fun t x => by
    split
    · split
      · exact (refl _).corrected
      · exact (refl _).restoreRow
    · exact (refl _))

theorem bindSheaf (h : Keeps F s u) {a h'} (hF : [.arrs] ⊆ F := by decide) : Keeps F s (u.bindSheaf a h') :=
  h.andThen hF <| by
    simp only [State.bindSheaf]
    split
    · exact (refl _)
    · exact ((refl _).foldl fun t x => (refl _).setSheaf)

theorem verifyStored (h : Keeps F s u) {a h' poly} (hF : [.arrs] ⊆ F := by decide) :
    Keeps F s (u.verifyStored a h' poly).1 :=
  h.andThen hF <| by
    simp only [State.verifyStored]
    split
    · exact (refl _).poisonSheaf
    · exact (refl _).anchorLimbs

theorem verifyAll (h : Keeps F s u) {ps} (hF : [.arrs] ⊆ F := by decide) : Keeps F s (u.verifyAll ps).1 :=
  h.andThen hF <| List.foldlRecOn ps _ (motive
    := fun r : State × Option Nat => Keeps [.arrs] u r.1) (refl _) fun r hr p _ => by
    split
    · exact hr
    · exact hr.verifyStored

theorem verifyBlock (h : Keeps F s u) {d b} (hF : [.arrs] ⊆ F := by decide) : Keeps F s (u.verifyBlock d b).1 :=
  h.andThen hF <| by
    simp only [State.verifyBlock]
    split
    · split
      · exact (refl _)
      · exact (refl _).verifyAll
    · split
      · exact (refl _)
      · exact (refl _).verifyAll
    · exact (refl _)

theorem writeHostRows (h : Keeps F s u) {j buf ps t} (ht : u.writeHostRows j buf ps = some t)
    (hF : [.hostMem] ⊆ F := by decide) : Keeps F s t :=
  h.andThen hF <|
    List.foldlRecOn ps _ (motive := fun o : Option State => ∀ v, o = some v → Keeps [.hostMem] u v)
      (fun v hv => Option.some.inj hv ▸ refl _) (fun o ho r _ v hv => by
        obtain ⟨w, hw, hv⟩ := Option.bind_eq_some_iff.1 hv
        exact (ho w hw).hostWrite hv) t ht

theorem deliver (h : Keeps F s u) {d i b rows}
    (hF : [.pw, .jobs, .jobSeq, .runs, .arrs, .dies, .links, .dom, .hm, .trace, .hostMem, .out] ⊆ F := by decide) :
    Keeps F s (u.deliver d i b rows) :=
  h.andThen hF <| by
    simp only [State.deliver]
    split
    · split
      · exact (refl _).blockLanded
      · split
        · exact ((refl _).writeHostRows ‹_›).blockLanded
        · exact (refl _).blockFail
    · exact (refl _).modDesc.queueArrival
    · split
      · exact (refl _).blockLanded
      · split
        · exact (refl _).blockFail
        · exact (refl _).modDesc.sendBlock
    · exact (refl _)

theorem popLanding (h : Keeps F s u) {a} (hF : [.arrs] ⊆ F := by decide) : Keeps F s (u.popLanding a) :=
  h.andThen hF ((refl _).modArr)

theorem arrivalFail (h : Keeps F s u) {v sub}
    (hF : faultFields ⊆ F := by decide) :
    Keeps F s (u.arrivalFail v sub) :=
  h.andThen hF <| by
    simp only [State.arrivalFail]
    split
    · exact (refl _).blockFail
    · exact (refl _).dmaFault
    · exact (refl _).txFrame
    · exact (refl _)

theorem inputBad (h : Keeps F s u) {r bpos detail} (hF : [.runs, .links, .dom, .out] ⊆ F := by decide) :
    Keeps F s (u.inputBad r bpos detail) :=
  h.andThen hF <| by
    simp only [State.inputBad]
    split
    · exact (refl _)
    · split
      · split
        · split
          · exact (refl _).modRun.sendMembers
          · split
            · exact (refl _).modRun.sendDctl
            · exact (refl _).modRun
        · exact (refl _).modRun
      · exact (refl _).modRun

theorem landChecks (h : Keeps F s u) {e v} (hF : [.runs, .links, .dom, .out] ⊆ F := by decide) :
    Keeps F s (u.landChecks e v) :=
  h.andThen hF <| by
    simp only [State.landChecks]
    split
    · split
      · exact (refl _)
      · split
        · exact (refl _).inputBad
        · exact (refl _)
    · exact (refl _)

theorem landSheaf (h : Keeps F s u) {a v c d l} (hF : [.arrs] ⊆ F := by decide) : Keeps F s (u.landSheaf a v c d l) :=
  h.andThen hF ((refl _).modParts.foldl fun t x => (refl _).setSheaf)

theorem raiseFlag (h : Keeps F s u) {a v} (hF : [.arrs] ⊆ F := by decide) : Keeps F s (u.raiseFlag a v) :=
  h.andThen hF <| by
    simp only [State.raiseFlag]
    exact (refl _).modArr (hf := fun x w => (setFlag_loft _ x v).symm ▸ w)

theorem homeErrors (h : Keeps F s u) {a e v ecc} (hF : [.arrs, .dies] ⊆ F := by decide) :
    Keeps F s (u.homeErrors a e v ecc).1 :=
  h.andThen hF (((refl _).foldl fun t x => (refl _).corrected).foldl fun t x => (refl _).restoreRow)

theorem openSheaves (h : Keeps F s u) {a e v} (hF : [.arrs] ⊆ F := by decide) : Keeps F s (u.openSheaves a e v) :=
  h.andThen hF <| by
    simp only [State.openSheaves]
    split
    · exact ((refl _).foldl fun t x => (refl _).setSheaf)
    · exact (refl _)

theorem dropDoorbell (h : Keeps F s u) {n} (hF : [.streams] ⊆ F := by decide) : Keeps F s (u.dropDoorbell n) :=
  h.andThen hF ((refl _).modStream)

theorem takeEntry (h : Keeps F s u) {i} (hF : [.streams] ⊆ F := by decide) : Keeps F s (u.takeEntry i) :=
  h.andThen hF ((refl _).withStreams rising_map)

theorem tellReady (h : Keeps F s u) {j} (hF : [.links, .dom, .out] ⊆ F := by decide) : Keeps F s (u.tellReady j) :=
  h.andThen hF <| by
    simp only [State.tellReady]
    split
    · exact (refl _).noteReady
    · split
      · exact (refl _).sendDctl
      · exact (refl _)

theorem spoilOutputs (h : Keeps F s u) {j} (hF : [.hostMem, .free] ⊆ F := by decide) : Keeps F s (u.spoilOutputs j) :=
  h.andThen hF <| by
    simp only [State.spoilOutputs]
    exact ((refl _).foldl fun t x => by
        split
        · exact ((refl _).freshBytes.hostWrite ‹_›)
        · exact (refl _).freshBytes)

theorem mboxDone (h : Keeps F s u) {f m status len value} (hF : [.fns] ⊆ F := by decide) :
    Keeps F s (u.mboxDone f m status len value) :=
  h.andThen hF ((refl _).setFn)

theorem query (h : Keeps F s u) {q index sub} (hF : [.tm, .slotStats, .arrs, .dies, .sels, .snap, .out] ⊆ F := by decide) :
    Keeps F s (u.query q index sub) :=
  h.andThen hF <| by
    simp only [State.query]
    split
    · exact (refl _).dictRead.send
    · exact (refl _)

theorem mctpAnswer (h : Keeps F s u) {cmd bytes} (hF : [.out] ⊆ F := by decide) :
    Keeps F s (u.mctpAnswer cmd bytes) :=
  h.andThen hF ((refl _).send)

theorem disableDone (h : Keeps F s u) (hF : [.pw, .tm, .en] ⊆ F := by decide) : Keeps F s u.disableDone :=
  h.andThen hF ((refl _).update)

theorem dryStart (h : Keeps F s u) {p q bs} (hF : [.runs, .arrs, .trace] ⊆ F := by decide) :
    Keeps F s (u.dryStart p q bs) :=
  h.andThen hF (((refl _).withRuns).startRun.foldl fun t x => (refl _).modArr)

theorem refuseUpload (h : Keeps F s u) {t' code detail} (hF : [.tenants, .uploads] ⊆ F := by decide) :
    Keeps F s (u.refuseUpload t' code detail) :=
  h.andThen hF ((refl _).modTenant.nextUpload)

theorem faultUpload (h : Keeps F s u) {t'} (hF : [.tenants, .uploads, .free] ⊆ F := by decide) :
    Keeps F s (u.faultUpload t') :=
  h.andThen hF ((refl _).freshWord.refuseUpload)

theorem blockFill (h : Keeps F s u) {block bs} (hF : [.gran] ⊆ F := by decide) : Keeps F s (u.blockFill block bs) :=
  h.andThen hF <| (refl _).withGran fun w => Memory.wf_write w ..

theorem generate (h : Keeps F s u) {n} (hF : [.sec] ⊆ F := by decide) : Keeps F s (u.generate n).2 :=
  h.andThen hF ((refl _).withSec)

theorem signIdentity (h : Keeps F s u) {msg} (hF : [.sec] ⊆ F := by decide) : Keeps F s (u.signIdentity msg).2 :=
  h.andThen hF ((refl _).generate)

theorem pdecCompute (h : Keeps F s u) {t' p ps h' req c1} (hF : [.tenants, .sec, .hostMem] ⊆ F := by decide) :
    Keeps F s (u.pdecCompute t' p ps h' req c1) :=
  h.andThen hF <| by
    simp only [State.pdecCompute]
    split
    · exact (refl _).generate.pdecRefuse
    · split
      · exact ((refl _).generate.hostWrite ‹_›).signIdentity.pdecRefuse
      · exact (((refl _).generate.hostWrite ‹_›).signIdentity.hostWrite ‹_›).modTenant.pdecWipe.pdecNext

theorem pdecServe (h : Keeps F s u) {t'} (hF : [.tenants, .sec, .hostMem] ⊆ F := by decide) :
    Keeps F s (u.pdecServe t') :=
  h.andThen hF <| by
    simp only [State.pdecServe]
    split
    · exact (refl _).pdecRefuse
    · split
      · exact (refl _).pdecRefuse
      · split
        · exact (refl _).pdecRefuse
        · split
          · exact (refl _).pdecRefuse
          · split
            · exact (refl _).pdecRefuse
            · split
              · exact (refl _).pdecRefuse
              · split
                · exact (refl _).pdecRefuse
                · split
                  · exact (refl _).pdecRefuse
                  · split
                    · exact (refl _).pdecRefuse
                    · split
                      · exact (refl _).pdecRefuse
                      · split
                        · exact (refl _).pdecRefuse
                        · split
                          · exact (refl _).pdecRefuse
                          · exact (refl _).pdecCompute
          · exact (refl _).pdecRefuse

theorem noteMismatch (h : Keeps F s u) (hF : [.pw, .sec, .hm] ⊆ F := by decide) : Keeps F s u.noteMismatch :=
  h.andThen hF ((refl _).withSec).log

theorem newEphemeral (h : Keeps F s u) (hF : [.sec] ⊆ F := by decide) : Keeps F s u.newEphemeral.2 :=
  h.andThen hF ((refl _).generate.withSec)

theorem kexSend (h : Keeps F s u) {j} (hF : [.links, .sec, .out] ⊆ F := by decide) : Keeps F s (u.kexSend j) :=
  h.andThen hF <| by
    simp only [State.kexSend]
    split
    · exact ((refl _).newEphemeral.signIdentity.modLink.foldl fun t x => (refl _).txFrame).sigPush
    · exact ((refl _).newEphemeral.signIdentity.modLink.foldl fun t x => (refl _).txFrame)

theorem kexFinish (h : Keeps F s u) {j}
    (hF : linkFields ⊆ F := by decide) :
    Keeps F s (u.kexFinish j) :=
  h.andThen hF <| by
    simp only [State.kexFinish]
    split
    · split
      · split
        · exact ((refl _).withSec).setLink.txFrame
        · exact (refl _).trainFail
      · exact (refl _).trainFail
    · exact (refl _).trainFail

theorem kexDone (h : Keeps F s u) {j ok}
    (hF : linkFields ⊆ F := by decide) :
    Keeps F s (u.kexDone j ok) :=
  h.andThen hF <| by
    simp only [State.kexDone]
    split
    · exact (refl _)
    · split
      · exact (refl _).trainFail
      · split
        · exact (refl _).kexSend
        · exact (refl _).kexFinish

theorem rekeyDone (h : Keeps F s u) {j ok} (hF : [.links, .sec, .out] ⊆ F := by decide) :
    Keeps F s (u.rekeyDone j ok) :=
  h.andThen hF <| by
    simp only [State.rekeyDone]
    split
    · exact (refl _).modLink
    · split
      · exact (refl _).newEphemeral.modLink.txFrame
      · split
        · exact (refl _)
        · exact (refl _).newEphemeral.modLink.txFrame

theorem makeOffer (h : Keeps F s u) {t'} (hF : [.tenants, .sec] ⊆ F := by decide) : Keeps F s (u.makeOffer t') :=
  h.andThen hF <| by
    simp only [State.makeOffer]
    exact (refl _).newEphemeral.generate.signIdentity.modTenant

theorem offerDone (h : Keeps F s u) {t' ok} (hF : [.tenants, .sec] ⊆ F := by decide) :
    Keeps F s (u.offerDone t' ok) :=
  h.andThen hF <| by
    simp only [State.offerDone]
    split
    · exact (refl _)
    · split
      · exact (refl _).refuseOffer
      · split
        · exact (refl _).refuseOffer
        · exact (refl _).makeOffer

theorem submitDone (h : Keeps F s u) {t' ok} (hF : [.tenants, .sec] ⊆ F := by decide) :
    Keeps F s (u.submitDone t' ok) :=
  h.andThen hF <| by
    simp only [State.submitDone]
    split
    · exact (refl _)
    · split
      · exact (refl _).refuseSubmit
      · split
        · exact (refl _).refuseSubmit
        · split
          · exact (refl _).refuseSubmit
          · split
            · exact (refl _).refuseSubmit
            · split
              · exact (refl _).refuseSubmit
              · split
                · exact (refl _).refuseSubmit
                · exact (refl _).generate.modTenant

theorem hmDone (h : Keeps F s u) {ok} (hF : [.sec] ⊆ F := by decide) : Keeps F s (u.hmDone ok) :=
  h.andThen hF <| by
    simp only [State.hmDone]
    split
    · exact (refl _)
    · split
      · exact (refl _).refuseHm
      · split
        · exact (refl _).refuseHm
        · exact ((refl _).signIdentity.withSec)

theorem sigFinish (h : Keeps F s u) {op ok}
    (hF : signetFields ⊆ F := by decide) :
    Keeps F s (u.sigFinish op ok) :=
  h.andThen hF <| by
    simp only [State.sigFinish]
    split
    · exact (refl _).kexDone
    · exact (refl _).rekeyDone
    · split
      · exact ((refl _).withSec)
      · exact (refl _).pdecRefuse
    · exact (refl _)
    · exact (refl _).offerDone
    · exact (refl _).submitDone
    · exact (refl _).hmDone

theorem failEngine (h : Keeps F s u)
    (hF : signetFields ⊆ F := by decide) :
    Keeps F s u.failEngine :=
  h.andThen hF ((((refl _).withSec).foldl fun t x => (refl _).sigFinish).foldl fun t x => (refl _).pdecRefuse)

theorem scramble (h : Keeps F s u) {t' addr len}
    (hF : [.hostMem, .free] ⊆ F := by decide) : Keeps F s (u.scramble t' addr len) :=
  h.andThen hF <| by
    simp only [State.scramble]
    rcases hostWrite_cases (u.freshBytes len).2 (fnOfEntry (u.tenant t').homeFn) (u.tenant t').pasid addr (u.freshBytes len).1
      with hw | hw
    · rw [hw]
      exact (refl _).freshBytes
    · exact (refl _).freshBytes.hostWrite (hw.trans (congrArg some (by rw [hw]; rfl)))

theorem stopConsumers (h : Keeps F s u) (hF : [.tenants, .sec, .hostMem, .free] ⊆ F := by decide) :
    Keeps F s u.stopConsumers :=
  h.andThen hF <| by
    simp only [State.stopConsumers]
    split
    · split
      · split
        · split
          · exact ((((refl _).scramble.sigAbort.foldl fun t x => by
              split
              · exact (refl _).refuseOffer
              · exact (refl _)).foldl fun t x => by
              split
              · exact (refl _).refuseSubmit
              · exact (refl _)).foldl fun t x => (refl _).pdecRefuse).refuseHm.sigAbort
          · exact ((((refl _).scramble.sigAbort.foldl fun t x => by
              split
              · exact (refl _).refuseOffer
              · exact (refl _)).foldl fun t x => by
              split
              · exact (refl _).refuseSubmit
              · exact (refl _)).foldl fun t x => (refl _).pdecRefuse).sigAbort
        · split
          · exact ((((refl _).sigAbort.foldl fun t x => by
              split
              · exact (refl _).refuseOffer
              · exact (refl _)).foldl fun t x => by
              split
              · exact (refl _).refuseSubmit
              · exact (refl _)).foldl fun t x => (refl _).pdecRefuse).refuseHm.sigAbort
          · exact ((((refl _).sigAbort.foldl fun t x => by
              split
              · exact (refl _).refuseOffer
              · exact (refl _)).foldl fun t x => by
              split
              · exact (refl _).refuseSubmit
              · exact (refl _)).foldl fun t x => (refl _).pdecRefuse).sigAbort
      · split
        · exact ((((refl _).sigAbort.foldl fun t x => by
            split
            · exact (refl _).refuseOffer
            · exact (refl _)).foldl fun t x => by
            split
            · exact (refl _).refuseSubmit
            · exact (refl _)).foldl fun t x => (refl _).pdecRefuse).refuseHm.sigAbort
        · exact ((((refl _).sigAbort.foldl fun t x => by
            split
            · exact (refl _).refuseOffer
            · exact (refl _)).foldl fun t x => by
            split
            · exact (refl _).refuseSubmit
            · exact (refl _)).foldl fun t x => (refl _).pdecRefuse).sigAbort
    · split
      · exact ((((refl _).sigAbort.foldl fun t x => by
          split
          · exact (refl _).refuseOffer
          · exact (refl _)).foldl fun t x => by
          split
          · exact (refl _).refuseSubmit
          · exact (refl _)).foldl fun t x => (refl _).pdecRefuse).refuseHm.sigAbort
      · exact ((((refl _).sigAbort.foldl fun t x => by
          split
          · exact (refl _).refuseOffer
          · exact (refl _)).foldl fun t x => by
          split
          · exact (refl _).refuseSubmit
          · exact (refl _)).foldl fun t x => (refl _).pdecRefuse).sigAbort

theorem portsAgain (h : Keeps F s u) (hF : [.ports] ⊆ F := by decide) : Keeps F s u.portsAgain :=
  h.andThen hF ((refl _).withPorts rising_map)

theorem bindSample (h : Keeps F s u) (hF : [.pw, .hm] ⊆ F := by decide) : Keeps F s u.bindSample :=
  h.andThen hF <| by
    simp only [State.bindSample]
    split
    · split
      · exact ((refl _).withHm)
      · exact ((refl _).withHm).log
    · split <;> exact ((refl _).withHm)

theorem gearSample (h : Keeps F s u) (hF : [.hm] ⊆ F := by decide) : Keeps F s u.gearSample :=
  h.andThen hF ((refl _).withHm)

theorem takeSample (h : Keeps F s u) {temps powers} (hF : [.dies, .stk] ⊆ F := by decide) :
    Keeps F s (u.takeSample temps powers) :=
  h.andThen hF ((((refl _).foldl fun t x => (refl _).modDie).foldl fun t x => by
    split
    · exact (refl _).modStack
    · exact (refl _)).foldl fun t x => (refl _).modDie)

theorem noteLate (h : Keeps F s u) {late} (hF : [.hm] ⊆ F := by decide) : Keeps F s (u.noteLate late) :=
  h.andThen hF <| by
    simp only [State.noteLate]
    split
    · exact ((refl _).withHm)
    · exact (refl _)

theorem scrubWord (h : Keeps F s u) {d p row e}
    (hF : faultFields ⊆ F := by decide) :
    Keeps F s (u.scrubWord d p row e) :=
  h.andThen hF <| by
    simp only [State.scrubWord]
    split
    · split
      · exact (refl _).corrected
      · exact (refl _).raiseFault.restoreRow
    · exact (refl _).modDie

theorem gleanFault (h : Keeps F s u) {k} (hF : [.pw, .hm, .free] ⊆ F := by decide) : Keeps F s (u.gleanFault k) :=
  h.andThen hF ((refl _).freshWord.freshWord.logBody)

theorem glnPass (h : Keeps F s u) (hF : [.stk, .mem] ⊆ F := by decide) : Keeps F s u.glnPass :=
  h.andThen hF <| by
    simp only [State.glnPass]
    split
    · exact refl _
    · exact (refl _).update
        (hr := fun ⟨r0, r1, r2, r3, r4, r5, r6, r7, r8⟩ => ⟨r0, r1, r2, r3, r4, r5, r6, rising_map (h := r7), r8⟩)

theorem glean (h : Keeps F s u) {k block lines} (hF : [.pw, .keys, .stk, .mem, .hm, .free] ⊆ F := by decide) :
    Keeps F s (u.glean k block lines) :=
  h.andThen hF <| by
    simp only [State.glean]
    exact ((refl _).foldl fun t x => by
        split
        · exact (refl _).readLine
        · split
          · exact (refl _).readLine.gleanFault
          · exact (refl _).readLine.gleanFault.corruptWhere).modStack.glnPass

theorem redirect (h : Keeps F s u) {k n} (hF : [.pw, .stk, .hm] ⊆ F := by decide) : Keeps F s (u.redirect k n) :=
  h.andThen hF ((refl _).modStack.recordRow.log)

theorem programNext (h : Keeps F s u) {fail} (hF : [.pw, .tm, .hm] ⊆ F := by decide) :
    Keeps F s (u.programNext fail) :=
  h.andThen hF <| by
    simp only [State.programNext]
    split
    · exact (refl _)
    · exact ((refl _).reach.withHm).recordCheck

theorem badSubtype (h : Keeps F s u) {rx head subtype} (hF : [.links, .out] ⊆ F := by decide) :
    Keeps F s (u.badSubtype rx head subtype) :=
  h.andThen hF <| by
    simp only [State.badSubtype]
    split
    · exact (refl _).receive (hk := fun t => (refl _).modLink)
    · refine (refl _).receive (hk := fun t => ?_)
      split
      · exact (refl _).forwardDctl
      · exact (refl _).modLink

end Sys2Proof.Machine.Keeps
end

section
namespace Sys2Proof.Machine.Keeps

open Sys2Proof.Stated

set_option Elab.async false

variable {F : List Field} {s u : State}

theorem freeKey (h : Keeps F s u) {k} (hF : [.tenants, .keys, .installs, .hubs] ⊆ F := by decide) : Keeps F s (u.freeKey k) :=
  h.andThen hF <| by
    simp only [State.freeKey]
    refine Keeps.modTenant ?_
    exact (refl _).update
      (hr := fun ⟨r0, r1, r2, r3, r4, r5, r6, r7, r8⟩ => ⟨r0, r1, r2, r3, r4, r5, r6, r7, rising_map (h := r8)⟩)

theorem reap (h : Keeps F s u) (hF : [.tenants, .keys, .installs, .hubs] ⊆ F := by decide) : Keeps F s u.reap :=
  h.andThen hF ((refl _).foldl fun t x => (refl _).freeKey)

theorem settle (h : Keeps F s u) {n} (hF : [.tenants, .keys, .installs, .streams, .hubs] ⊆ F := by decide) :
    Keeps F s (u.settle n) :=
  h.andThen hF ((refl _).drainCheck.reap)

theorem flushRecords (h : Keeps F s u) {n fuel}
    (hF : [.fns, .tenants, .streams, .jobs, .hostMem, .out] ⊆ F := by decide) : Keeps F s (u.flushRecords n fuel) :=
  h.andThen hF <| by
    clear h hF
    induction fuel generalizing u with
    | zero => exact refl _
    | succ k ih =>
      simp only [State.flushRecords]
      split
      · exact refl _
      · split
        · exact refl _
        · exact (refl _).setStream.putRecord.trans ih

theorem flush (h : Keeps F s u) {n} (hF : ringFields ⊆ F := by decide) :
    Keeps F s (u.flush n) :=
  h.andThen hF ((refl _).flushRecords.settle)

theorem resetStream (h : Keeps F s u) {n} (hF : ringFields ⊆ F := by decide) :
    Keeps F s (u.resetStream n).2 :=
  h.andThen hF <| by
    simp only [State.resetStream]
    split
    · exact (refl _)
    · dsimp only
      exact (refl _).setStream.resetJobs.flush

theorem failStream (h : Keeps F s u) {n} (hF : admitFields ⊆ F := by decide) :
    Keeps F s (u.failStream n) :=
  h.andThen hF <| by
    simp only [State.failStream]
    split
    · exact (refl _).setStream
    · split
      · exact ((refl _).setStream.reopenJobs.foldl fun t x => (refl _).abandonJob)
      · exact ((refl _).setStream.reopenJobs.foldl fun t x => (refl _).abandonJob).rewriteRecords.writeStatus.flush

theorem fence (h : Keeps F s u) {d cause} (hF : dieFields ⊆ F := by decide) : Keeps F s (u.fence d cause) :=
  h.andThen hF <| by
    simp only [State.fence]
    split
    · exact refl _
    · have hd : Keeps dieFields u (((u.abandonDie d).returnOutputs d).cancelRetire d) :=
        (refl _).abandonDie.returnOutputs.cancelRetire
      refine Keeps.log (Keeps.record ?_)
      exact (hd.modDie (d := d) (f := fun x => { x with fenced := true, stopped := true, descs := [], units := [] })).update
        (hm := fun ⟨g, m, a⟩ => ⟨g, m, fun e he => a e (List.mem_of_mem_filter he)⟩)
        (hr := fun ⟨r0, r1, r2, r3, r4, r5, r6, r7, r8⟩ => ⟨rising_filter r0, r1, r2, r3, r4, r5, r6, r7, r8⟩)

/-- The arrays after a logical number has moved to a spare. -/
theorem moved_lofts_wf {m : SMap Arr} (h : ∀ e ∈ m, Memory.wf e.2.loft = true) (i j depth : Nat) :
    ∀ e ∈ mset {} (mset {} m i (copiedArr depth (mget {} m j))) j {}, Memory.wf e.2.loft = true :=
  lofts_mset rfl (lofts_mset (mget_loft_wf h j :) h)

theorem moveArray (h : Keeps F s u) {d a p q}
    (hF : [.pw, .arrs, .dies, .hm] ⊆ F := by decide) : Keeps F s (u.moveArray d a p q) :=
  h.andThen hF <| by
    have hm := (refl (F := [.pw, .arrs, .dies, .hm]) u).withArrs (fun r => rising_mset (rising_mset r))
      (fun w => moved_lofts_wf w (slotKey d q) (slotKey d p) u.template.depth)
    exact hm.modDie.withHm.record.log.replaceCheck

theorem bootRetire (h : Keeps F s u) {d p} (hF : [.pw, .arrs, .dies, .hm] ⊆ F := by decide) :
    Keeps F s (u.bootRetire d p) :=
  h.andThen hF <| by
    simp only [State.bootRetire]
    split
    · exact ((refl _).withPw).modDie.log
    · exact ((refl _).withPw)
    · split
      · exact ((refl _).withPw).moveArray
      · exact ((refl _).withPw)

theorem bootDie (h : Keeps F s u) {e d} (hF : dieFields ⊆ F := by decide) :
    Keeps F s (u.bootDie e d) :=
  h.andThen hF <| by
    simp only [State.bootDie]
    split
    · exact (refl _)
    · split
      · exact (refl _).fence
      · exact ((refl _).foldl fun t x => (refl _).bootRetire)

theorem dieTests (h : Keeps F s u) {e}
    (hF : [.pw, .keys, .jobs, .jobSeq, .runs, .slotStats, .arrs, .dies, .stk, .links, .dom, .hm, .out] ⊆ F := by decide) :
    Keeps F s (u.dieTests e) :=
  h.andThen hF <| by
    simp only [State.dieTests]
    split
    · exact ((((refl _).foldl fun t x => (refl _).bootDie).foldl fun t x => (refl _).loseStack).foldl fun t x =>
      (refl _).repairStack).writeStores
    · exact ((((refl _).foldl fun t x => (refl _).bootDie).foldl fun t x => (refl _).loseStack).foldl fun t x =>
      (refl _).repairStack)

theorem addRecord (h : Keeps F s u) {n r} (hF : [.fns, .tenants, .streams, .jobs, .hostMem, .out] ⊆ F := by decide) :
    Keeps F s (u.addRecord n r) :=
  h.andThen hF ((refl _).setStream.flushRecords)

theorem admitDomain (h : Keeps F s u) {jobId aseq}
    (hF : [.fns, .tenants, .keys, .installs, .streams, .jobs, .jobSeq, .hubs, .hostMem, .out] ⊆ F := by decide) :
    Keeps F s (u.admitDomain jobId aseq) :=
  h.andThen hF <| by
    simp only [State.admitDomain]
    split
    · exact (refl _)
    · exact (refl _).modJob.addRecord.admitJob.settle

theorem leadCheck (h : Keeps F s u) {jobId} (hF : admitFields ⊆ F := by decide) :
    Keeps F s (u.leadCheck jobId) :=
  h.andThen hF <| by
    simp only [State.leadCheck]
    split
    · exact (refl _)
    · split
      · split
        · exact ((refl _).withDom).sendMembers.admitDomain
        · exact (refl _)
      · split
        · exact ((refl _).withDom).sendMembers.admitDomain
        · exact (refl _)

theorem clearTenant (h : Keeps F s u) {t'} (hF : [.tenants, .keys, .uploads, .installs, .hubs, .sec] ⊆ F := by decide) :
    Keeps F s (u.clearTenant t').2 :=
  h.andThen hF <| by
    simp only [State.clearTenant]
    split
    · exact (refl _)
    · split
      · exact (refl _)
      · split
        · exact ((refl _).withKeys).reap.sigAbort.nextUpload.setTenant
        · exact ((refl _).withKeys).reap.setTenant

theorem queueUpload (h : Keeps F s u) {t'} (hF : [.tenants, .uploads, .sec] ⊆ F := by decide) :
    Keeps F s (u.queueUpload t').2 :=
  h.andThen hF <| by
    simp only [State.queueUpload]
    split
    · dsimp only
      exact (refl _).modTenant
    · split
      · dsimp only
        exact (refl _).modTenant
      · dsimp only
        exact ((refl _).setTenant.withUploads).sigPush

theorem dropKey (h : Keeps F s u) {t' id} (hF : [.tenants, .keys, .installs, .hubs] ⊆ F := by decide) :
    Keeps F s (u.dropKey t' id).2 :=
  h.andThen hF ((refl _).modKey.reap)

theorem writeTenant (h : Keeps F s u) {q index sub v}
    (hF : [.tenants, .drrQuantum, .keys, .uploads, .installs, .hubs, .sec, .sels] ⊆ F := by decide) :
    Keeps F s (u.writeTenant q index sub v).2 :=
  h.andThen hF <| by
    simp only [State.writeTenant]
    split
    · exact (refl _).setSel.took
    · exact ((refl _).withDrrQuantum).took
    · split
      · exact (refl _).activate
      · split
        · exact (refl _).disable
        · exact (refl _).clearTenant
    · split
      · exact (refl _)
      · dsimp only
        exact (refl _).setTenant
    · dsimp only
      exact (refl _).setTenant
    · dsimp only
      exact (refl _).setTenant
    · dsimp only
      exact (refl _).setTenant
    · dsimp only
      exact (refl _).setTenant
    · dsimp only
      exact (refl _).setTenant
    · dsimp only
      exact (refl _).setTenant
    · dsimp only
      exact (refl _).setTenant
    · exact (refl _).queueUpload
    · exact (refl _).dropKey
    · dsimp only
      exact (refl _).setTenant
    · dsimp only
      exact (refl _).setTenant
    · dsimp only
      exact (refl _).setTenant

theorem enableStream (h : Keeps F s u) {n} (hF : ringFields ⊆ F := by decide) :
    Keeps F s (u.enableStream n).2 :=
  h.andThen hF <| by
    simp only [State.enableStream]
    split
    · exact (refl _)
    · split
      · exact (refl _)
      · split
        · dsimp only
          exact (refl _).setStream
        · split
          · dsimp only
            exact (refl _).setStream.flush
          · dsimp only
            exact (refl _).setStream

theorem disableStream (h : Keeps F s u) {n} (hF : ringFields ⊆ F := by decide) :
    Keeps F s (u.disableStream n).2 :=
  h.andThen hF <| by
    simp only [State.disableStream]
    split
    · exact (refl _)
    · exact (refl _)
    · dsimp only
      exact (refl _).setStream.flush

theorem writeStream (h : Keeps F s u) {q index sub v}
    (hF : [.fns, .tenants, .keys, .installs, .streams, .jobs, .hubs, .sels, .hostMem, .out] ⊆ F := by decide) :
    Keeps F s (u.writeStream q index sub v).2 :=
  h.andThen hF <| by
    simp only [State.writeStream]
    split
    · exact (refl _).setSel.took
    · split
      · split
        · exact (refl _).enableStream
        · split
          · exact (refl _).disableStream
          · exact (refl _).resetStream
      · split
        · exact (refl _)
        · exact (refl _).setStream.took

theorem wipeShare (h : Keeps F s u) {t'} (hF : [.tenants, .sec] ⊆ F := by decide) : Keeps F s (u.wipeShare t').2 :=
  h.andThen hF <| by
    simp only [State.wipeShare]
    split
    · dsimp only
      exact (refl _).modTenant
    · split
      · dsimp only
        exact (refl _).modTenant.pdecRefuse
      · dsimp only
        exact (refl _).modTenant

theorem writeSec (h : Keeps F s u) {q index sub v bs} (hF : [.tenants, .sec] ⊆ F := by decide) :
    Keeps F s (u.writeSec q index sub v bs).2 :=
  h.andThen hF <| by
    simp only [State.writeSec]
    split
    · exact ((refl _).withSec).took
    · split
      · exact (refl _)
      · dsimp only
        exact (refl _).setTenant
    · exact (refl _).writeVkey
    · exact (refl _).startOffer
    · dsimp only
      exact (refl _).setTenant
    · dsimp only
      exact (refl _).setTenant
    · exact (refl _).startSubmit
    · exact (refl _).wipeShare
    · dsimp only
      exact (refl _).setTenant
    · exact (refl _).startPdec
    · exact ((refl _).withSec).took
    · exact ((refl _).withSec).took
    · exact (refl _).startHm

theorem writeVal (h : Keeps F s u) {q index sub bs} (hF : writeFields ⊆ F := by decide) :
    Keeps F s (u.writeVal q index sub bs).2 :=
  h.andThen hF <| by
    simp only [State.writeVal]
    split
    · split
      · split
        · exact (refl _).setEnable
        · exact (refl _).clearEnable
      · exact (refl _).askReset
    · exact (refl _).writeDieSel
    · split
      · exact (refl _).writeTenant
      · exact (refl _).writeStream
    · exact (refl _).writePlan
    · exact (refl _).writeHealth
    · exact (refl _).writeLinks
    · exact (refl _).writeLinks
    · exact (refl _).writeSec
    · exact (refl _).writeTools
    · exact (refl _).writeTools
    · exact (refl _).writeMirror

theorem dictWrite (h : Keeps F s u) {q index sub bs} (hF : writeFields ⊆ F := by decide) :
    Keeps F s (u.dictWrite q index sub bs).2 :=
  h.andThen hF <| by
    simp only [State.dictWrite]
    split
    · exact (refl _)
    · split
      · exact (refl _)
      · split
        · exact (refl _)
        · split
          · exact (refl _)
          · split
            · exact (refl _)
            · split
              · exact (refl _)
              · exact (refl _).writeVal

theorem command (h : Keeps F s u) {q index sub bs} (hF : writeFields ⊆ F := by decide) :
    Keeps F s (u.command q index sub bs) :=
  h.andThen hF <| by
    simp only [State.command]
    split
    · exact (refl _).dictWrite.send
    · exact (refl _)

theorem startRetirement (h : Keeps F s u) {d a} (hF : dieFields ⊆ F := by decide) :
    Keeps F s (u.startRetirement d a) :=
  h.andThen hF <| by
    simp only [State.startRetirement]
    split
    · exact (refl _).fence
    · exact (refl _).modDie

theorem retirements (h : Keeps F s u) (hF : dieFields ⊆ F := by decide) :
    Keeps F s u.retirements :=
  h.andThen hF <| by
    simp only [State.retirements]
    split
    · exact (refl _)
    · exact ((refl _).foldl fun t x => by
        split
        · split
          · exact (refl _)
          · split
            · split
              · exact (refl _)
              · exact (refl _).recommend
            · split
              · exact (refl _).startRetirement
              · exact (refl _).recommend.startRetirement
        · split
          · exact (refl _)
          · split
            · split
              · exact (refl _)
              · exact (refl _).recommend
            · split
              · exact (refl _).startRetirement
              · exact (refl _).recommend.startRetirement)

theorem softFences (h : Keeps F s u) (hF : dieFields ⊆ F := by decide) :
    Keeps F s u.softFences :=
  h.andThen hF ((refl _).foldl fun t x => by
    split
    · split
      · exact (refl _).fence
      · exact (refl _).recommend
    · exact (refl _))

theorem dueFences (h : Keeps F s u) (hF : dieFields ⊆ F := by decide) :
    Keeps F s u.dueFences :=
  h.andThen hF <| by
    simp only [State.dueFences]
    split
    · exact (refl _).fence
    · exact (refl _)

theorem evaluateHealth (h : Keeps F s u)
    (hF : [.pw, .vs, .jobs, .jobSeq, .runs, .slotStats, .arrs, .dies, .links, .dom, .hm, .out] ⊆ F := by decide) :
    Keeps F s u.evaluateHealth :=
  h.andThen hF <| by
    simp only [State.evaluateHealth]
    split
    · exact (refl _).dueFences.softFences.retirements.gearStep.memPressure.evaluateVariant.holdGear.throttling.replaceCheck
    · exact (refl _).dueFences.softFences.retirements.gearStep.memPressure.evaluateVariant.throttling.replaceCheck

theorem boundary (h : Keeps F s u)
    (hF : [.pw, .tm, .vs, .tenants, .keys, .installs, .jobs, .jobSeq, .runs, .slotStats, .arrs, .dies, .links, .dom, .hm,
      .trace, .hostMem, .out] ⊆ F := by decide) :
    Keeps F s u.boundary :=
  h.andThen hF <| by
    simp only [State.boundary]
    split
    · exact ((refl _).reach.withTm).switchStep.evaluateHealth.applyDma.fillDeficits.freeArrays.domainStep.drainTrace
    · exact ((refl _).reach.withTm).switchStep.evaluateHealth.applyDma.fillDeficits.drainTrace

theorem makeRoom (h : Keeps F s u) {n fuel}
    (hF : [.keys, .links, .dom, .out] ⊆ F := by decide) : Keeps F s (u.makeRoom n fuel).1 :=
  h.andThen hF <| by
    clear h hF
    induction fuel generalizing u with
    | zero => exact refl _
    | succ k ih =>
      simp only [State.makeRoom]
      split
      · exact refl _
      · split
        · exact (refl _).evictKey.trans ih
        · exact refl _

theorem installHead (h : Keeps F s u) {capacity lines}
    (hF : [.pw, .keys, .installs, .jobs, .arrs, .hubs, .stk, .links, .dom, .hm, .out] ⊆ F := by decide) :
    Keeps F s (u.installHead capacity lines).1 :=
  h.andThen hF <| by
    simp only [State.installHead]
    split
    · exact (refl _)
    · split
      · exact ((refl _).withInstalls)
      · split
        · exact ((refl _).withInstalls)
        · split
          · exact (refl _)
          · split
            · dsimp only
              exact (refl _).makeRoom
            · split
              · dsimp only
                exact (refl _).makeRoom.installRead.installFails
              · dsimp only
                exact ((refl _).makeRoom.installRead.installBytes.withInstalls).modKey.tellResident

theorem startInstall (h : Keeps F s u) {p q lines}
    (hF : [.pw, .tm, .keys, .installs, .jobs, .runs, .slotStats, .arrs, .hubs, .stk, .links, .dom, .hm, .trace,
      .out] ⊆ F := by decide) :
    Keeps F s (u.startInstall p q lines) :=
  h.andThen hF <| by
    simp only [State.startInstall]
    split
    · exact ((refl _).startShifted.startRun.noteDelay.requeueInstalls.installHead.withRuns)
    · exact ((refl _).startShifted.startRun.noteDelay.withRuns)

theorem poisonDest (h : Keeps F s u) {x pair d fs} (hF : [.arrs] ⊆ F := by decide) : Keeps F s (u.poisonDest x pair d fs) :=
  h.andThen hF <| by
    unfold State.poisonDest
    extract_lets v
    have hv : Keeps [.arrs] u v := by
      simp only [v]
      split
      · exact (refl _).modLanes (hf := fun x w => (badRows_loft _ _ x).symm ▸ w)
      · exact refl _
    split
    · split
      · exact hv.poisonSheaf
      · exact hv
    · exact refl _

theorem acceptJob (h : Keeps F s u) {n d bufs keys} (hF : admitFields ⊆ F := by decide) :
    Keeps F s (u.acceptJob n d bufs keys) :=
  h.andThen hF <| by
    simp only [State.acceptJob]
    split
    · exact ((refl _).setStream.modTenant.takeEntry.withJobs).tellReady.leadCheck
    · exact ((refl _).setStream.modTenant.takeEntry.withJobs).addRecord.admitJob

theorem complete (h : Keeps F s u) {j status detail inc}
    (hF : [.fns, .tenants, .streams, .jobs, .hostMem, .free, .out] ⊆ F := by decide) :
    Keeps F s (u.complete j status detail inc) :=
  h.andThen hF <| by
    simp only [State.complete]
    split
    · exact (refl _).addRecord
    · exact (refl _).spoilOutputs.addRecord

theorem mboxServe (h : Keeps F s u) {f m} (hF : messageFields ⊆ F := by decide) :
    Keeps F s (u.mboxServe f m) :=
  h.andThen hF <| by
    simp only [State.mboxServe]
    split
    · exact (refl _).dictRead.mboxDone
    · exact (refl _).dictWrite.mboxDone
    · exact (refl _).freshWord.mboxDone

theorem replayStream (h : Keeps F s u) {n} (hF : ringFields ⊆ F := by decide) :
    Keeps F s (u.replayStream n) :=
  h.andThen hF <| by
    simp only [State.replayStream]
    split
    · exact (refl _)
    · exact (refl _).rewriteRecords.writeStatus.flush

theorem replayJournal (h : Keeps F s u)
    (hF : [.fns, .en, .tenants, .keys, .installs, .streams, .jobs, .jobSeq, .hubs, .hostMem, .out] ⊆ F := by decide) :
    Keeps F s u.replayJournal :=
  h.andThen hF ((((refl _).foldl fun t x => (refl _).returnJob.queueInstalls).foldl fun t x => (refl _).replayStream).withEn)

theorem enableOk (h : Keeps F s u)
    (hF : [.pw, .fns, .en, .tenants, .keys, .installs, .streams, .jobs, .jobSeq, .hubs, .links, .dom, .hm, .hostMem,
      .out] ⊆ F := by decide) :
    Keeps F s u.enableOk :=
  h.andThen hF <| by
    simp only [State.enableOk]
    split
    · split
      · split
        · split
          · exact ((refl _).update).replayJournal.reportResidency.replaceCheck
          · exact ((refl _).update).replayJournal.replaceCheck
        · split
          · exact ((refl _).update).replayJournal.reportResidency.replaceCheck
          · exact ((refl _).update).replayJournal.replaceCheck
      · split
        · split
          · exact ((refl _).update).replayJournal.reportResidency.replaceCheck
          · exact ((refl _).update).replayJournal.replaceCheck
        · split
          · exact ((refl _).update).replayJournal.reportResidency.replaceCheck
          · exact ((refl _).update).replayJournal.replaceCheck
    · split
      · split
        · split
          · exact ((refl _).update).reportResidency.replaceCheck
          · exact ((refl _).update).replaceCheck
        · split
          · exact ((refl _).update).reportResidency.replaceCheck
          · exact ((refl _).update).replaceCheck
      · split
        · split
          · exact ((refl _).update).reportResidency.replaceCheck
          · exact ((refl _).update).replaceCheck
        · split
          · exact ((refl _).update).reportResidency.replaceCheck
          · exact ((refl _).update).replaceCheck

theorem endCheck (h : Keeps F s u)
    (hF : [.pw, .fns, .en, .tenants, .keys, .installs, .streams, .jobs, .jobSeq, .hubs, .links, .dom, .hm, .hostMem,
      .out] ⊆ F := by decide) :
    Keeps F s u.endCheck :=
  h.andThen hF <| by
    simp only [State.endCheck]
    split
    · split
      · exact (refl _).refuseEnable
      · exact (refl _).enableOk
    · split
      · exact (refl _).refuseEnable
      · split
        · exact (refl _).startJoin
        · split
          · exact (refl _).refuseEnable
          · exact (refl _).enableOk

theorem storeKey (h : Keeps F s u) {t' set m data first e bs}
    (hF : [.tenants, .keys, .installs, .hubs, .gran] ⊆ F := by decide) :
    Keeps F s (u.storeKey t' set m data first e bs) :=
  h.andThen hF <| by
    simp only [State.storeKey]
    exact ((((refl u).foldl fun t k => (refl _).modKey.freeKey).foldl fun t b => (refl _).blockFill).withKeys).modTenant

theorem storeKeys (h : Keeps F s u) {t' set m data places}
    (hF : [.tenants, .keys, .uploads, .installs, .hubs, .gran] ⊆ F := by decide) :
    Keeps F s (u.storeKeys t' set m data places) :=
  h.andThen hF <| Keeps.nextUpload <| Keeps.modTenant <|
    List.foldlRecOn _ _ (motive := fun r : Nat × State => Keeps [.tenants, .keys, .uploads, .installs, .hubs,
      .gran] u r.2) (refl _) fun _ hr e _ => hr.storeKey

theorem finishUpload (h : Keeps F s u) {t'}
    (hF : [.tenants, .keys, .uploads, .installs, .hubs, .gran, .free] ⊆ F := by decide) :
    Keeps F s (u.finishUpload t') :=
  h.andThen hF <| by
    simp only [State.finishUpload]
    split
    · exact (refl _).faultUpload
    · split
      · exact (refl _).faultUpload
      · split
        · exact (refl _).refuseUpload
        · split
          · exact (refl _).faultUpload
          · split
            · exact (refl _).refuseUpload
            · exact (refl _).storeKeys

end Sys2Proof.Machine.Keeps
end

section
namespace Sys2Proof.Machine.Keeps

open Sys2Proof.Stated

set_option Elab.async false

variable {F : List Field} {s u : State}

theorem enterSafe (h : Keeps F s u) {row} (hF : safeFields ⊆ F := by decide) : Keeps F s (u.enterSafe row) :=
  h.andThen hF <| by
    unfold State.enterSafe
    extract_lets dom rs _ v links w x
    split
    · exact refl _
    · have hv : Keeps safeFields u v := (refl _).withDom.abandonRuns
      have hw : Keeps safeFields u { v with runs := [], links := links } := hv.update
        (hr := fun ⟨r0, r1, r2, r3, r4, r5, r6, r7, r8⟩ => ⟨r0, r1, rising_map (h := r2), r3, r4, r5, r6, r7, r8⟩)
      exact (hw.wipeVault.withPw).log

theorem aside (h : Keeps F s u) {a f} (hf : ∀ x : Arr, Memory.wf x.loft = true → Memory.wf (f x).loft = true)
    (hF : [.arrs] ⊆ F := by decide) : Keeps F s (u.aside a f) :=
  h.andThen hF <| by
    have hs : Keeps [.arrs] u (u.setArr a (f { u.arr a with touched := [] })) := (refl _).setArr (hx := fun w => hf _ w)
    simp only [State.aside]
    exact hs.settleSheaves.modArr

theorem plainWrite (h : Keeps F s u) {a hd off stride rows pos} (hF : [.arrs] ⊆ F := by decide) :
    Keeps F s (u.plainWrite a hd off stride rows pos) :=
  h.andThen hF <| (refl _).aside (hf := fun _ => plainRows_loft_wf)

theorem valuesBack (h : Keeps F s u) {j c o got} (hF : [.arrs, .links, .out] ⊆ F := by decide) :
    Keeps F s (u.valuesBack j c o got) :=
  h.andThen hF <| by
    simp only [State.valuesBack]
    split
    · split
      · split
        · exact (refl _).plainWrite.txFrame
        · exact (refl _)
      · exact (refl _)
    · exact (refl _)

theorem blockDone (h : Keeps F s u) {j c o got} (hF : faultFields ⊆ F := by decide) :
    Keeps F s (u.blockDone j c o got) :=
  h.andThen hF <| by
    simp only [State.blockDone]
    split
    · exact (refl _).valuesBack
    · exact (refl _).blockIn

theorem takeData (h : Keeps F s u) {j c payload} (hF : faultFields ⊆ F := by decide) :
    Keeps F s (u.takeData j c payload) :=
  h.andThen hF <| by
    simp only [State.takeData]
    split
    · exact (refl _)
    · split
      · exact (refl _).modLink
      · exact (refl _).modLink.blockDone

theorem refuseDomain (h : Keeps F s u) {jobId}
    (hF : [.fns, .tenants, .keys, .installs, .streams, .jobs, .hubs, .dom, .hostMem, .out] ⊆ F := by decide) :
      Keeps F s (u.refuseDomain jobId) :=
  h.andThen hF <| by
    unfold State.refuseDomain
    split
    · exact refl _
    · next j _ =>
      extract_lets x v w _ z
      have hw : Keeps [.fns, .tenants, .keys, .installs, .streams, .jobs, .hubs, .dom, .hostMem,
        .out] u w := (refl _).setStream.modTenant
      have hz : Keeps [.fns, .tenants, .keys, .installs, .streams, .jobs, .hubs, .dom, .hostMem, .out] u z := hw.update
      exact hz.addRecord.settle

theorem leadRefuse (h : Keeps F s u) {jobId} (hF : refuseFields ⊆ F := by decide) :
    Keeps F s (u.leadRefuse jobId) :=
  h.andThen hF <| by
    simp only [State.leadRefuse]
    split
    · exact (refl _)
    · exact ((refl _).withDom).sendMembers.refuseDomain

theorem releaseHead (h : Keeps F s u) {a fuel}
    (hF : [.tenants, .arrs, .dies, .trace] ⊆ F := by decide) : Keeps F s (u.releaseHead a fuel) :=
  h.andThen hF <| by
    clear h hF
    induction fuel generalizing u with
    | zero => exact refl _
    | succ n ih =>
      unfold State.releaseHead
      split
      · exact refl _
      · split
        · exact (refl _).popReq.trans ih
        · extract_lets want k v
          have hv : Keeps [.tenants, .arrs, .dies, .trace] u v := (refl _).takeUnits.modDie
          clear_value want k
          split
          · exact hv.popReq.trans ih
          · exact hv.traceHold
      · split
        · exact (refl _).popReq.trans ih
        · split
          · exact (refl _).popReq.trans ih
          · extract_lets b t want k st v
            have hv : Keeps [.tenants, .arrs, .dies, .trace] u v := (refl _).takeUnits.modDesc
            clear_value want k
            split
            · exact hv.trans ih
            · exact hv.traceHold

theorem release (h : Keeps F s u) (hF : [.tm, .tenants, .arrs, .dies, .trace] ⊆ F := by decide) : Keeps F s u.release :=
  h.andThen hF <| by
    unfold State.release
    extract_lets v w x n
    have hw : Keeps [.tm, .tenants, .arrs, .dies, .trace] u w := (refl _).reach.fillBuckets
    have hx : Keeps [.tm, .tenants, .arrs, .dies, .trace] u x := by
      simp only [x]
      split
      · exact hw
      · exact hw.foldl fun t a => (refl _).releaseHead
    refine hx.withArrs rising_map fun w => lofts_map (hf := fun e w => ?_) (h := w)
    dsimp only
    split
    · split <;> exact w
    · exact w

theorem windowLine (h : Keeps F s u) {a refused hd line r} (hr : u.windowLine a refused hd line = .ok r)
    (hF : [.arrs, .free] ⊆ F := by decide) : Keeps F s r.2 :=
  h.andThen hF <| by
    unfold State.windowLine at hr
    extract_lets x at hr
    split at hr
    · obtain rfl := Except.ok.inj hr
      exact (refl _).setArr
    · split at hr
      · cases hr
      · next bs t ht =>
        obtain rfl := Except.ok.inj hr
        have hk : Keeps [.arrs, .free] u t := (refl _).targetRead ht
        dsimp only
        exact hk.modArr (hf := fun x w => by split <;> exact w)

theorem windowRead (h : Keeps F s u) {a refused hd off len r} (hr : u.windowRead a refused hd off len = .ok r)
    (hF : [.arrs, .free] ⊆ F := by decide) : Keeps F s r.2 :=
  h.andThen hF <| by
    simp only [State.windowRead] at hr
    split at hr
    · cases hr
    · next bs t ht =>
      obtain rfl := Except.ok.inj hr
      refine List.foldlRecOn _ _ (motive := fun o : Except Nat (List Byte × State) => ∀ v, o = .ok v → Keeps [.arrs,
        .free] u v.2)
        (fun v hv => Except.ok.inj hv ▸ refl _) (fun o ho i _ v hv => ?_) (bs, t) ht
      split at hv
      · cases hv
      · split at hv
        · cases hv
        · next l t hl =>
          obtain rfl := Except.ok.inj hv
          exact Keeps.windowLine (r := (l, t)) (ho _ rfl) hl

theorem handleRead (h : Keeps F s u) {a refused hd off len r} (hr : u.handleRead a refused hd off len = .ok r)
    (hF : [.arrs, .free] ⊆ F := by decide) : Keeps F s r.2 :=
  h.andThen hF <| by
    simp only [State.handleRead] at hr
    split at hr
    · cases hr
    · split at hr
      · obtain rfl := Except.ok.inj hr
        exact refl _
      · exact (refl _).windowRead hr

theorem coreLoad (h : Keeps F s u) {c hd off b r} (hr : u.coreLoad c hd off b = .ok r)
    (hF : [.arrs, .free] ⊆ F := by decide) : Keeps F s r.2 :=
  h.andThen hF <| by
    unfold State.coreLoad at hr
    extract_lets a x e at hr
    split at hr
    · split at hr
      · cases hr
      · split at hr
        · cases hr
        · next bs t ht =>
          obtain rfl := Except.ok.inj hr
          have hk : Keeps [.arrs, .free] u t := (refl _).targetRead ht
          dsimp only
          exact hk.modArr
    · split at hr
      · obtain rfl := Except.ok.inj hr
        exact refl _
      · exact (refl _).handleRead hr

theorem stallRelease (h : Keeps F s u) {a ecc} (hF : faultFields ⊆ F := by decide) : Keeps F s (u.stallRelease a ecc) :=
  h.andThen hF <| by
    unfold State.stallRelease
    extract_lets x go v
    have hgo (y : Arr) : Keeps faultFields u (u.setArr a (go x)) := (refl _).setArr
    split
    · exact (refl _).setArr (hx := fun w => by simpa using w)
    · exact (refl _).setArr (hx := fun w => by simpa using w)
    · exact (refl _).setArr (hx := fun w => by simpa using w)
    · split
      · exact (refl _).setArr
      · exact refl _
    · split
      · exact refl _
      · have hv : Keeps faultFields u v := (refl _).setArr
        split
        · exact hv.coreFault
        · next t ht => exact hv.descErrors ((refl _).acceptDesc ht)
    · exact refl _
    · exact refl _

theorem unitWrite (h : Keeps F s u) {a hd off bs pos t} (ht : u.unitWrite a hd off bs pos = .ok t)
    (hF : [.arrs] ⊆ F := by decide) : Keeps F s t :=
  h.andThen hF <| by
    simp only [State.unitWrite] at ht
    split at ht
    · cases ht
    · obtain rfl := Except.ok.inj ht
      exact (refl _).noteLanding.plainWrite

theorem writeLimbs (h : Keeps F s u) {logn a hd off limbs pos t} (ht : u.writeLimbs logn a hd off limbs pos = .ok t)
    (hF : [.arrs] ⊆ F := by decide) : Keeps F s t :=
  h.andThen hF <|
    List.foldlRecOn _ _ (motive := fun o : Except Nat State => ∀ v, o = .ok v → Keeps [.arrs] u v)
      (fun v hv => Except.ok.inj hv ▸ refl _) (fun o ho p _ v hv => by
        split at hv
        · cases hv
        · exact (ho _ rfl).unitWrite hv) t ht

theorem sow (h : Keeps F s u) {q t} (ht : u.sow q = .ok t) (hF : [.arrs] ⊆ F := by decide) : Keeps F s t :=
  h.andThen hF <| by
    simp only [State.sow] at ht
    split at ht
    · split at ht
      · cases ht
      · exact (refl _).writeLimbs ht
    · cases ht

theorem granDeliver (h : Keeps F s u) {q bs t} (ht : u.granDeliver q bs = .ok t)
    (hF : [.arrs] ⊆ F := by decide) : Keeps F s t :=
  h.andThen hF <| by
    simp only [State.granDeliver] at ht
    split at ht
    · exact List.foldlRecOn _ _ (motive := fun o : Except Nat State => ∀ v, o = .ok v → Keeps [.arrs] u v)
        (fun v hv => Except.ok.inj hv ▸ refl _) (fun o ho p _ v hv => by
          split at hv
          · cases hv
          · exact (ho _ rfl).unitWrite hv) t ht
    · cases ht

theorem acknowledge (h : Keeps F s u) {v flags fault ret} (hF : faultFields ⊆ F := by decide) :
    Keeps F s (u.acknowledge v flags fault ret) :=
  h.andThen hF <| by
    simp only [State.acknowledge]
    split
    · split
      · split
        · split
          · split
            · exact (refl _).plainWrite.blockLanded.dmaFault.txFrame
            · exact (refl _).blockLanded.dmaFault.txFrame
          · split
            · exact (refl _).plainWrite.dmaFault.txFrame
            · exact (refl _).dmaFault.txFrame
        · split
          · split
            · exact (refl _).plainWrite.blockLanded.txFrame
            · exact (refl _).blockLanded.txFrame
          · split
            · exact (refl _).plainWrite.txFrame
            · exact (refl _).txFrame
      · split
        · split
          · split
            · exact (refl _).plainWrite.blockLanded.dmaFault.sendBlock.txFrame
            · exact (refl _).blockLanded.dmaFault.sendBlock.txFrame
          · split
            · exact (refl _).plainWrite.dmaFault.sendBlock.txFrame
            · exact (refl _).dmaFault.sendBlock.txFrame
        · split
          · split
            · exact (refl _).plainWrite.blockLanded.sendBlock.txFrame
            · exact (refl _).blockLanded.sendBlock.txFrame
          · split
            · exact (refl _).plainWrite.sendBlock.txFrame
            · exact (refl _).sendBlock.txFrame
    · split
      · split
        · split
          · exact (refl _).plainWrite.blockLanded.dmaFault
          · exact (refl _).blockLanded.dmaFault
        · split
          · exact (refl _).plainWrite.dmaFault
          · exact (refl _).dmaFault
      · split
        · split
          · exact (refl _).plainWrite.blockLanded
          · exact (refl _).blockLanded
        · split
          · exact (refl _).plainWrite
          · exact (refl _)

theorem tellRefuse (h : Keeps F s u) {jobId code} (hF : refuseFields ⊆ F := by decide) :
    Keeps F s (u.tellRefuse jobId code) :=
  h.andThen hF <| by
    simp only [State.tellRefuse]
    split
    · exact (refl _).leadRefuse
    · split
      · exact (refl _).sendDctl
      · exact (refl _)

theorem refuseDesc (h : Keeps F s u) {n d code detail} (hF : refuseFields ⊆ F := by decide) :
    Keeps F s (u.refuseDesc n d code detail) :=
  h.andThen hF <| by
    simp only [State.refuseDesc]
    split
    · exact (refl _).setStream.modTenant.tellRefuse.addRecord
    · exact (refl _).setStream.modTenant.addRecord

theorem readDesc (h : Keeps F s u) {n} (hF : admitFields ⊆ F := by decide) :
    Keeps F s (u.readDesc n) :=
  h.andThen hF <| by
    simp only [State.readDesc]
    split
    · exact (refl _).streamFault
    · split
      · split
        · exact (refl _).setStream.refuseDesc
        · exact (refl _).setStream.acceptJob
      · exact (refl _).setStream.refuseDesc

end Sys2Proof.Machine.Keeps
end

section
/-! The lofts of a word's lanes through its steps. -/

namespace Sys2Proof.Machine

open Sys2Proof.Stated

set_option Elab.async false

/-- The lofts of the lanes are canonical. -/
def LanesWf (l : Lanes) : Prop := Memory.wf l.1.x.loft = true ∧ ∀ o, l.2 = some o → Memory.wf o.x.loft = true

/-- A step of one array's work keeps a canonical loft canonical. -/
def LaneKeepsWf (f : Lane → Lane) : Prop := ∀ l : Lane, Memory.wf l.x.loft = true → Memory.wf (f l).x.loft = true

theorem LaneKeepsWf.of_loft {f : Lane → Lane} (h : ∀ l, (f l).x.loft = l.x.loft) : LaneKeepsWf f := fun l w => by
  rwa [h l]

theorem eachLane_wf {f : Lane → Lane} {l : Lanes} (hf : LaneKeepsWf f) (h : LanesWf l) : LanesWf (eachLane f l) := by
  refine ⟨hf _ h.1, fun o ho => ?_⟩
  obtain ⟨p, hp, rfl⟩ := Option.map_eq_some_iff.1 ho
  exact hf p (h.2 p hp)

theorem stopLanes_wf {l : Lanes} (h : LanesWf l) (fs : List Flt) : LanesWf (stopLanes l fs) := by
  refine ⟨by simpa [stopLanes] using h.1, fun o ho => ?_⟩
  obtain ⟨p, hp, rfl⟩ := Option.map_eq_some_iff.1 ho
  simpa using h.2 p hp

theorem setLanesLimb_wf {l : Lanes} (h : LanesWf l) (b rpl : Nat) (ws : List Nat) (t : RowSt) :
    LanesWf (setLanesLimb l b rpl ws t) := by
  refine ⟨by simpa [setLanesLimb] using h.1, fun o ho => ?_⟩
  obtain ⟨p, hp, rfl⟩ := Option.map_eq_some_iff.1 ho
  simpa using h.2 p hp

/-- A loop over lanes keeps their lofts canonical where each of its turns does. -/
theorem foldl_lanes_wf {α : Type} {f : Lanes → α → Lanes} {l : List α} {x : Lanes} (hf : ∀ x a, LanesWf x → LanesWf (f x a))
    (h : LanesWf x) : LanesWf (l.foldl f x) :=
  List.foldlRecOn l f (motive := LanesWf) h fun y hy a _ => hf y a hy

theorem Lane.step_loft_wf {k : Ctx} {idle : Bool} {f : Lane → Nat → Lane} {s : Nat} (hf : LaneKeepsWf fun l => f l s) :
    LaneKeepsWf fun l => l.step k idle f s := fun l h => by
  dsimp only
  unfold Lane.step
  extract_lets ds due lost m r q
  have hr : Memory.wf r.x.loft = true := hf m h
  split
  · exact h
  · split
    · simpa using h
    · split
      · exact h
      · split
        · split
          · exact h
          · simpa using hr
        · split
          · simpa using h
          · simpa using hr

theorem eachStep_wf {k : Ctx} {at' : Nat → Nat} {f : Lane → Nat → Lane} {s : Nat} {l : Lanes}
    (hf : LaneKeepsWf fun l => f l s) (h : LanesWf l) : LanesWf (eachStep k at' f l s) := by
  unfold eachStep
  extract_lets due m idle
  have hm : LanesWf m := by
    simp only [m]
    split
    · exact stopLanes_wf h _
    · exact h
  split
  · exact h
  · exact eachLane_wf (Lane.step_loft_wf hf) hm

theorem limbStep_wf {k : Ctx} {src dst : Nat} {net : Bool} {f : PrimeEntry → List Nat → List Nat} {g : RowSt → RowSt}
    {l : Lanes} {j : Nat} (h : LanesWf l) : LanesWf (limbStep k src dst net f g l j) := by
  unfold limbStep
  extract_lets rpl p e ds due t _ t' track ws here old ws'
  have ht (m : Lanes) (hm : LanesWf m) : LanesWf (track m) := eachLane_wf (.of_loft fun l => by simp) hm
  clear_value track ws'
  split
  · exact h
  · split
    · exact ht _ h
    · split
      · exact ht _ (stopLanes_wf h _)
      · split
        · exact ht _ (stopLanes_wf h _)
        · split
          · exact ht _ (stopLanes_wf h _)
          · exact eachLane_wf (.of_loft fun l => by simp) (setLanesLimb_wf h ..)

/-- The work of an operation keeps the lofts canonical: each step on one array, and each limb on all. -/
structure WordOp.KeepsWf (op : WordOp) : Prop where
  lane : ∀ k s, LaneKeepsWf fun l => op.lane k l s
  limb : ∀ f, op.limb = some f → ∀ k l j, LanesWf l → LanesWf (f k l j)

/-- An operation without whole limbs. -/
theorem WordOp.KeepsWf.of_lane {op : WordOp} (h : ∀ k s, LaneKeepsWf fun l => op.lane k l s)
    (hl : op.limb = none := by rfl) : op.KeepsWf :=
  ⟨h, fun _ hf => by simp [hl] at hf⟩

theorem rowStep_loft_wf {x : Exec} {op : WordOp} {k : Ctx} {s : Nat} (hop : op.KeepsWf) :
    LaneKeepsWf fun l => rowStep x op k l s := fun l h => by
  have hl := hop.lane k s l h
  simp only [rowStep]
  split
  · split
    · simpa using hl
    · exact hl
  · exact hl

theorem stepLanes_wf {x : Exec} {op : WordOp} {k : Ctx} {l : Lanes} (hop : op.KeepsWf) (h : LanesWf l) :
    LanesWf (stepLanes x op k l) := by
  simp only [stepLanes]
  split
  · exact foldl_lanes_wf (fun _ _ => eachStep_wf (rowStep_loft_wf hop)) h
  · next f hf =>
    have hl := foldl_lanes_wf (l := List.range (op.total / rowsPerLimb k.ps)) (fun m j => hop.limb f hf k m j) h
    split
    · split
      · exact foldl_lanes_wf (fun _ _ => eachStep_wf (.of_loft fun l => by simp)) hl
      · exact hl
    · exact hl

theorem endLane_loft (k : Ctx) (pend : List Flt) (l : Lane) : (endLane k pend l).x.loft = l.x.loft := by
  simp only [endLane]
  split <;> simp

theorem workLanes_wf {x : Exec} {op : WordOp} {k : Ctx} {l : Lanes} (hop : op.KeepsWf) (h : LanesWf l) :
    LanesWf (workLanes x op k l) := by
  simp only [workLanes]
  split
  · exact eachLane_wf (.of_loft fun l => by simp) (stepLanes_wf hop h)
  · exact eachLane_wf (.of_loft fun l => endLane_loft ..) (stepLanes_wf hop h)

theorem State.lanes_wf {s : State} {a : ArrId} {pair : Bool} (h : ∀ e ∈ s.arrs, Memory.wf e.2.loft = true) :
    LanesWf (s.lanes a pair) := by
  refine ⟨State.arr_loft_wf h a, fun o ho => ?_⟩
  simp only [State.lanes] at ho
  split at ho
  · obtain rfl := Option.some.inj ho
    exact State.arr_loft_wf h _
  · simp at ho

theorem openLanes_wf {s : State} {x : Exec} {d : Nat} {pair : Bool} (h : ∀ e ∈ s.arrs, Memory.wf e.2.loft = true) :
    LanesWf (openLanes s x d pair) := by
  unfold openLanes
  extract_lets l opens bad m
  have hm : LanesWf m := eachLane_wf (.of_loft fun l => by simp) (State.lanes_wf h)
  split
  · exact eachLane_wf (.of_loft (openWord_loft x)) hm
  · exact hm

/-! ### The operations -/

theorem cellWork_keepsWf (x : Exec) : (cellWork x).KeepsWf :=
  .of_lane fun k s => .of_loft fun l => by
    simp only [cellWork]
    split <;> simp

theorem mmulWork_keepsWf (v : Env) (x : Exec) : (mmulWork v x).KeepsWf := .of_lane (cellWork_keepsWf x).lane

theorem accWork_keepsWf (x : Exec) : (accWork x).KeepsWf :=
  .of_lane fun k s => .of_loft fun l => by
    simp only [accWork]
    split <;> simp

theorem foldWork_keepsWf (x : Exec) (keep : Bool) : (foldWork x keep).KeepsWf :=
  .of_lane fun k s => .of_loft fun l => by
    simp only [foldWork]
    split <;> simp

theorem vecWork_keepsWf (x : Exec) : (vecWork x).KeepsWf :=
  .of_lane fun k s l h => by
    simp only [vecWork]
    split
    · exact vecStep_loft_wf h
    · exact h

theorem loadWork_keepsWf (x : Exec) : (loadWork x).KeepsWf := .of_lane fun k s => .of_loft fun l => by simp [loadWork]

theorem storeWork_keepsWf (x : Exec) : (storeWork x).KeepsWf := .of_lane fun _ _ _ => storeStep_loft_wf

theorem delayWork_keepsWf : delayWork.KeepsWf := .of_lane fun _ _ _ h => h

theorem netWork_keepsWf {x : Exec} {f : Ctx → NetSlot → Lanes → Nat → Lanes}
    {row : Option (Ctx → NetSlot → Lane → Nat → Lane)} (hf : ∀ k n l j, LanesWf l → LanesWf (f k n l j))
    (hr : ∀ g, row = some g → ∀ k n s, LaneKeepsWf fun l => g k n l s) : (netWork x f row).KeepsWf where
  lane k s l h := by
    simp only [netWork]
    split
    · next n g hn => exact hr g rfl k n s l h
    · exact h
  limb g hg k l j h := by
    simp only [netWork] at hg
    split at hg
    · cases hg
    · obtain rfl := Option.some.inj hg
      dsimp only
      split
      · exact hf _ _ _ _ h
      · exact h

theorem mulxWork_keepsWf (x : Exec) : (mulxWork x).KeepsWf :=
  netWork_keepsWf (fun _ _ _ _ h => limbStep_wf h) fun g hg k n s => by
    split at hg
    · obtain rfl := Option.some.inj hg
      exact .of_loft fun l => by simp
    · cases hg

theorem transformWork_keepsWf (v : Env) (x : Exec) (inv : Bool) : (transformWork v x inv).KeepsWf where
  lane _ _ _ h := h
  limb f hf k l j h := by
    obtain rfl := Option.some.inj hf
    exact limbStep_wf h

end Sys2Proof.Machine
end

section
namespace Sys2Proof.Machine.Keeps

open Sys2Proof.Stated

set_option Elab.async false

variable {F : List Field} {s u : State}

theorem putLanes (h : Keeps F s u) {a} {l : Lanes} (hl : (∀ e ∈ u.arrs, Memory.wf e.2.loft = true) → LanesWf l)
    (hF : [.arrs, .free] ⊆ F := by decide) : Keeps F s (u.putLanes a l) :=
  h.andThen hF <| by
    simp only [State.putLanes]
    split
    · next o ho =>
      refine Keeps.withFree <| (refl u).withArrs (x := ((u.setArr a l.1.x).setArr (oddOf a) o.x).arrs)
        (fun r => rising_mset (rising_mset r)) fun w => lofts_mset ((hl w).2 o ho) (lofts_mset (hl w).1 w)
    · exact Keeps.withFree <| (refl u).withArrs (x := (u.setArr a l.1.x).arrs) rising_mset fun w => lofts_mset (hl w).1 w

theorem granLine {q key} {g : GranRead} {i st} (hg : Keeps [.pw, .keys, .hubs, .stk, .hm] u g.s) :
    Keeps [.pw, .keys, .hubs, .stk, .hm] u (granLine q key g i st).s := by
  simp only [Machine.granLine]
  split
  · exact hg
  · exact hg.hubLine

theorem granRead (h : Keeps F s u) {q key lines} (hF : [.pw, .keys, .hubs, .stk, .hm] ⊆ F := by decide) :
    Keeps F s (u.granRead q key lines).s :=
  h.andThen hF <| by
    have hg := List.foldlRecOn (List.range (q.len / 2048))
      (fun (g : GranRead) i => Machine.granLine q key g i (lines.getD i .clean)) (b := { s := u })
      (motive := fun g => Keeps [.pw, .keys, .hubs, .stk, .hm] u g.s) (refl u) fun g hg i _ => granLine hg
    simp only [State.granRead]
    split
    · exact hg.setHub
    · exact hg

theorem granServe (h : Keeps F s u) {die q lines}
    (hF : [.pw, .plan, .vs, .keys, .jobs, .jobSeq, .runs, .arrs, .dies, .hubs, .stk, .mem, .gran, .links, .dom, .hm, .trace,
      .free, .out] ⊆ F := by decide) : Keeps F s (u.granServe die q lines) :=
  h.andThen hF <| by
    unfold State.granServe
    extract_lets plan key src g t lost
    have ht : Keeps [.pw, .plan, .vs, .keys, .jobs, .jobSeq, .runs, .arrs, .dies, .hubs, .stk, .mem, .gran, .links, .dom, .hm,
      .trace, .free, .out] u t := (refl _).granRead.pressure
    split
    · exact (refl _).unitFail
    · split
      · exact ht.corruptKey.unitFail
      · exact ht.overflowLost.unitFail
      · exact ht.unitFail
      · exact ht.unitServe fun v hv => (refl _).granDeliver hv

/-- The rows that a move has read stand in a state that keeps the part's form. -/
theorem fetchRows (h : Keeps F s u) {d b refused rows t} (ht : u.fetchRows d b refused = .rows rows t)
    (hF : [.arrs, .free] ⊆ F := by decide) : Keeps F s t :=
  h.andThen hF <| by
    have hlist {l : List Nat} {f : Fetched → Nat → Fetched} {rows t}
        (hf : ∀ bs v i ws w, f (.rows bs v) i = .rows ws w → Keeps [.arrs, .free] v w)
        (ha : ∀ n i, f (.addr n) i = .addr n) (hb : ∀ n i, f (.host n) i = .host n)
        (ht : l.foldl f (.rows [] u) = .rows rows t) : Keeps [.arrs, .free] u t :=
      List.foldlRecOn l f (motive := fun o => ∀ bs v, o = .rows bs v → Keeps [.arrs, .free] u v)
        (fun bs v hv => by cases hv; exact refl _) (fun o ho i _ bs v hv => by
          cases o with
          | rows ws w => exact (ho ws w rfl).trans (hf _ _ _ _ _ hv)
          | addr n => exact nomatch (ha n i).symm.trans hv
          | host n => exact nomatch (hb n i).symm.trans hv) rows t ht
    simp only [State.fetchRows] at ht
    split at ht
    · refine hlist (fun bs v i ws w hw => ?_) (fun _ _ => rfl) (fun _ _ => rfl) ht
      dsimp only at hw
      split at hw
      · next y z hy =>
        cases hw
        exact Keeps.handleRead (r := (y, w)) (refl v) hy
      · cases hw
    · split at ht
      · cases ht
      · refine hlist (fun bs v i ws w hw => ?_) (fun _ _ => rfl) (fun _ _ => rfl) ht
        cases hw
        exact (refl _).freshBytes
    · split at ht
      · cases ht
        exact refl _
      · refine hlist (fun bs v i ws w hw => ?_) (fun _ _ => rfl) (fun _ _ => rfl) ht
        dsimp only at hw
        split at hw
        · cases hw
          exact refl _
        · cases hw
    · cases ht

theorem moveBlock (h : Keeps F s u) {d b r} (hF : blockFields ⊆ F := by decide) : Keeps F s (u.moveBlock d b r) :=
  h.andThen hF <| by
    unfold State.moveBlock
    extract_lets i fail bufOf errs v lost t
    have hfail (v : State) (f : Flt) (ends : Option (Nat × Nat)) : Keeps blockFields v (fail v f ends) := (refl _).blockFail
    split
    · exact hfail ..
    · split
      · exact hfail ..
      · have hv : Keeps blockFields u v := (refl _).foldl fun t e => (refl _).correctedSpot
        have ht : Keeps blockFields u t.1 := hv.verifyBlock
        split
        · exact hv.trans (hfail ..)
        · split
          · exact (hv.trans (hfail ..)).foldl fun t e => (refl _).restoreSpot
          · split
            · exact ht.trans (hfail ..)
            · split
              · next rows w hw => exact (ht.fetchRows hw).deliver
              · exact ht.trans (hfail ..)
              · exact ht.trans (hfail ..)

theorem landRows (h : Keeps F s u) {a e v} (hF : [.arrs] ⊆ F := by decide) : Keeps F s (u.landRows a e v) :=
  h.andThen hF <| by
    simp only [State.landRows]
    split
    · exact (refl _).plainWrite
    · have hf (x : Arr) (w : Memory.wf x.loft = true) : Memory.wf (v.rows.zipIdx.foldl (fun x r =>
          setPos (loftWrite x e (v.off + r.2 * v.dstride) r.1) (e.target.toNat + (v.off + r.2 * v.dstride)) r.1.length v.pos)
          x).loft = true :=
        foldl_loft_wf (fun y r hy => by rw [setPos_loft]; exact loftWrite_loft_wf hy) w
      have hm : Keeps [.arrs] u _ := (refl u).modArr (a := a) (hf := hf)
      exact hm.landSheaf

theorem land (h : Keeps F s u) {a v} (hF : faultFields ⊆ F := by decide) :
    Keeps F s (u.land a v) :=
  h.andThen hF <| by
    simp only [State.land]
    split
    · exact (refl _).popLanding.dropStale
    · split
      · exact (refl _).popLanding.arrivalFail
      · split
        · exact (refl _).popLanding.landChecks.raiseFlag.acknowledge
        · exact (refl _).popLanding.landChecks.landRows.raiseFlag.acknowledge

theorem atomic (h : Keeps F s u) {a v ecc} (hF : faultFields ⊆ F := by decide) : Keeps F s (u.atomic a v ecc) :=
  h.andThen hF <| by
    unfold State.atomic
    extract_lets w e f t
    have hw : Keeps faultFields u w := (refl _).popLanding
    have hf : Keeps faultFields u f.1 := hw.homeErrors
    split
    · exact hw.dropStale
    · split
      · exact hw.arrivalFail
      · split
        · exact hw.raiseFlag.acknowledge
        · split
          · exact hf.raiseFlag.acknowledge
          · have ht : Keeps faultFields u (f.1.setArr a t.1) := hf.setArr (hx := fun w => atomicRows_loft_wf w)
            exact ht.openSheaves.raiseFlag.acknowledge

/-- The write that a last fragment completes. -/
theorem takeFrag_write (h : Keeps F s u) {size q tag index sub frag value r}
    (hr : (u.takeFrag size q tag index sub frag value).1 = some r) (hF : writeFields ⊆ F := by decide) : Keeps F s r.2 :=
  h.andThen hF <| by
    simp only [State.takeFrag] at hr
    split at hr <;> rename_i hold <;> split at hr
    · obtain rfl := Option.some.inj hr
      exact (refl _).dropFrag
    · split at hr
      · obtain rfl := Option.some.inj hr
        exact (refl _).dropFrag.dictWrite
      · cases hr
    · obtain rfl := Option.some.inj hr
      exact (refl _).dropFrag
    · split at hr
      · obtain rfl := Option.some.inj hr
        exact (refl _).dropFrag.dictWrite
      · cases hr

theorem takeMctp (h : Keeps F s u) {m} (hF : messageFields ⊆ F := by decide) : Keeps F s (u.takeMctp m) :=
  h.andThen hF <| by
    simp only [State.takeMctp]
    split
    · exact (refl _).query
    · split
      · exact (refl _).takeFrag
      · next st t ht =>
        have hk : Keeps messageFields u t := Keeps.takeFrag_write (r := (st, t)) (refl u) ht
        exact hk.send
    · exact refl _

end Sys2Proof.Machine.Keeps
end

section
namespace Sys2Proof.Machine.Keeps

open Sys2Proof.Stated

set_option Elab.async false

variable {F : List Field} {s u : State}

theorem finishBoot (h : Keeps F s u) (hF : bootFields ⊆ F := by decide) : Keeps F s u.finishBoot :=
  h.andThen hF <| by
    unfold State.finishBoot
    extract_lets e v _ _ w x _ _ y
    split
    · exact (refl _).enterSafe
    · have hv : Keeps bootFields u v := (refl _).bootRecord.bootSecurity
      clear_value v
      have hw : Keeps bootFields u w := hv.update
      have hx : Keeps bootFields u x := by
        simp only [x]
        split
        · exact hw
        · exact hw.dieTests
      clear_value x
      have hy : Keeps bootFields u y := hx.update
      exact hy.recordCheck.replaceCheck

theorem sheafStage (h : Keeps F s u) {x k pair base n} (hF : [.arrs, .free] ⊆ F := by decide) :
    Keeps F s (u.sheafStage x k pair base n).1 :=
  h.andThen hF <| by
    have hb (v : State) : Keeps [.arrs, .free] v (v.modLanes x.arr pair (badRows base n)) :=
      (refl _).modLanes (hf := fun x w => by rwa [badRows_loft])
    have hm (v : State) (c : BitVec 4) : Keeps [.arrs, .free] v (v.modLanes x.arr pair (markRows base n c)) :=
      (refl _).modLanes (hf := fun x w => by rwa [markRows_loft])
    unfold State.sheafStage
    extract_lets a t at' logn rpl
    split
    · exact refl _
    · split
      · exact hb u
      · next j hj =>
        extract_lets c main qs m v bad r st w
        have hv : Keeps [.arrs, .free] u v := (refl _).withFree
        have hw : Keeps [.arrs, .free] u w := by
          simp only [w]
          split
          · exact hv.putLanes fun hc => setLanesLimb_wf (State.lanes_wf hc) ..
          · exact hv.putLoftLimb
        clear_value w bad v
        split
        · exact refl _
        · split
          · exact refl _
          · split
            · dsimp only
              exact (hv.trans (hb v)).poisonSheaf
            · dsimp only
              exact (hw.trans (hm w st)).setSheaf

theorem stagesOf (h : Keeps F s u) {x op k pair bad}
    (hF : [.arrs, .dies, .free] ⊆ F := by decide) : Keeps F s (u.stagesOf x op k pair bad) :=
  h.andThen hF <| by
    unfold State.stagesOf
    split
    · split
      · extract_lets c y e t quiet met
        have ht : Keeps [.arrs, .dies, .free] u t.1 := by
          simp only [t]
          split
          · exact refl _
          · split
            · exact (refl _).stageErrors
            · exact (refl _).stageErrors.sheafStage
        exact ht.countQuiet.modArr.addCycles
      · exact refl _
    · exact refl _

theorem afterWork (h : Keeps F s u) {x r op k pair l} (hF : loadFields ⊆ F := by decide) :
    Keeps F s (u.afterWork x r op k pair l) :=
  h.andThen hF <| by
    simp only [State.afterWork]
    split
    · exact (refl _).poisonDest.modArr.countQuiet.stagesOf.closeWord
    · exact (refl _).countCorrected.restoreRows.poisonDest.modArr.countQuiet.stagesOf.closeWord

theorem runWord (h : Keeps F s u) {x op} (hop : op.KeepsWf) (hF : wordFields ⊆ F := by decide) : Keeps F s (u.runWord x op) :=
  h.andThen hF <| by
    have hhold (v : State) (g : Nat) (pair : Bool) : Keeps wordFields v (v.modLanes x.arr pair (holdWord x op.per g)) :=
      (refl _).modLanes (hf := fun x w => by rwa [holdWord_loft])
    unfold State.runWord
    split
    · exact refl _
    · next r hr =>
      extract_lets v pair y at' word late d flag w l k lanes t
      have hw : Keeps wordFields u w := by
        simp only [w]
        split
        · exact (refl _).modLanes
        · exact refl _
      have hp : Keeps wordFields u (w.putLanes x.arr lanes) :=
        hw.putLanes fun hc => workLanes_wf hop (openLanes_wf hc)
      have ht : Keeps wordFields u t := hp.noteStart
      split
      · exact refl _
      · split
        · split
          · exact (refl _).deadline
          · exact hhold ..
        · split
          · exact (refl _).deadline
          · split
            · exact hw.trans (hhold ..)
            · split
              · exact hw
              · split
                · exact ht.trans (hhold ..)
                · exact ht.afterWork

end Sys2Proof.Machine.Keeps
end

section
/-! What each command keeps: the rules of the checks before it, and of the words of the two streams. -/

namespace Sys2Proof.Machine

open Sys2Proof.Stated

set_option Elab.async false

/-- Where a command goes on, its next state keeps the part's form and the fields outside F. -/
def KeepsBy (F : List Field) (s : State) (r : Res) : Prop := ∀ t, r = .next t → Keeps F s t

namespace KeepsBy

variable {F : List Field} {s : State} {r : Res}

theorem mono {G : List Field} (hG : G ⊆ F) (h : KeepsBy G s r) : KeepsBy F s r := fun t ht => (h t ht).mono hG

theorem next {t : State} (h : Keeps F s t) : KeepsBy F s (.next t) := fun _ hu => Host.Outcome.next.inj hu ▸ h

theorem fault {f : Fault} : KeepsBy F s (.fault f) := fun t h => by simp at h

theorem refused {f : Refusal} : KeepsBy F s (.refused f) := fun t h => by simp at h

theorem need {ok : Bool} {what : String} (h : KeepsBy F s r) : KeepsBy F s (need ok what r) :=
  fun t ht => h t ((need_next ..).1 ht).2

theorem arises {ok : Bool} {why : String} (h : KeepsBy F s r) : KeepsBy F s (arises ok why r) :=
  fun t ht => h t ((arises_next ..).1 ht).2

theorem formed {ok : Bool} {why : String} (h : KeepsBy F s r) : KeepsBy F s (formed ok why r) :=
  fun t ht => h t ((formed_next ..).1 ht).2

theorem runCore {ok : Bool} {c : CcWord} {t : State} (h : Keeps F s t) : KeepsBy F s (runCore ok c s t) :=
  .need (.formed (.arises (.next h)))

theorem runExec {ok : Bool} {x : Exec} {op : WordOp} (hop : op.KeepsWf)
    (hF : wordFields ⊆ F := by decide) :
    KeepsBy F s (runExec ok x op s) :=
  .need (.formed (.arises (.next ((Keeps.refl s).runWord hop hF))))

theorem aluWord {g : DWord → DWord → DWord} {c : CcWord}
    (hF : faultFields ⊆ F := by decide) :
    KeepsBy F s (aluWord g c s) := .runCore ((Keeps.refl s).coreAlu hF)

theorem cmpWord {g : DWord → DWord → Bool} {c : CcWord}
    (hF : faultFields ⊆ F := by decide) :
    KeepsBy F s (cmpWord g c s) := .runCore ((Keeps.refl s).coreAlu hF)

theorem atomicCmd {aop : Nat} {a : ReadRef}
    (hF : faultFields ⊆ F := by decide) :
    KeepsBy F s (atomicCmd aop a s) := by
  refine .need ?_
  split
  · exact .refused
  · exact .arises (.next ((Keeps.refl s).atomic hF))

end KeepsBy
end Sys2Proof.Machine
end

section
/-! Resets, the load of a plan, and requests of one entry of the dictionary. -/

namespace Sys2Proof.Machine.Keeps

open Sys2Proof.Stated

set_option Elab.async false

variable {F : List Field} {s u : State}

theorem installPlan (h : Keeps F s u) {img}
    (hF : [.plan, .pc, .vs, .keys, .arrs, .gran, .dom] ⊆ F := by decide) : Keeps F s (u.installPlan img) :=
  h.andThen hF <| by
    unfold State.installPlan
    extract_lets p a b v _ dom _ _ d
    have hb : Keeps [.plan, .pc, .vs, .keys, .arrs, .gran, .dom] u b := (refl _).withPlan.planWrite
    clear_value b
    have hd : Keeps [.plan, .pc, .vs, .keys, .arrs, .gran, .dom] u d := hb.update
    clear_value d
    exact hd.writeStores.rebindKeys

theorem finishLoad (h : Keeps F s u)
    (hF : [.plan, .pc, .vs, .keys, .slotStats, .arrs, .mem, .gran, .links, .dom, .out] ⊆ F := by decide) :
      Keeps F s u.finishLoad :=
  h.andThen hF <| by
    simp only [State.finishLoad]
    split
    · exact (refl _).refuseLoad
    · split
      · exact (refl _).refuseLoad
      · split
        · exact (refl _).unloadPlan.refuseLoad
        · split
          · exact ((refl _).unloadPlan.installPlan).withPc
          · exact (refl _).unloadPlan.refuseLoad

/-- What a cold reset leaves: no array is listed, host memory and what the part has sent stand outside (R510). -/
theorem coldState (h : Keeps F s u) (hF : resetFields ⊆ F := by decide) : Keeps F s u.coldState :=
  h.andThen hF <| (refl u).update (hm := fun ⟨_, m, _⟩ => ⟨rfl, m, fun _ he => absurd he List.not_mem_nil⟩)
    (hr := fun ⟨_, _, _, _, _, _, r, _, _⟩ =>
      ⟨rising_nil, rising_nil, rising_nil, rising_nil, rising_nil, rising_nil, rising_map (h := r), rising_nil, rising_nil⟩)

theorem coldReset (h : Keeps F s u) {cause e} (hF : resetFields ⊆ F := by decide) : Keeps F s (u.coldReset cause e) :=
  h.andThen hF <| by
    simp only [State.coldReset]
    exact (refl u).coldState.beginBoot.applyParams.update

/-- A write request keeps what the writing of its value keeps. -/
theorem command_of {q index sub bs} (hv : Keeps F u (u.writeVal q index sub bs).2) (hF : .out ∈ F := by decide) :
    Keeps F u (u.command q index sub bs) := by
  simp only [State.command]
  split
  · refine (Keeps.send ?_ fun _ h => List.mem_singleton.1 h ▸ hF)
    rcases dictWrite_cases u q index sub bs with ⟨c, -, hc⟩ | hw
    · rw [hc]
      exact refl u
    · rw [hw]
      exact hv
  · exact refl u

/-- A read request keeps what its reading keeps. -/
theorem query_of {q index sub} (hv : Keeps F u (u.afterRead q index sub)) (hF : .out ∈ F := by decide) :
    Keeps F u (u.query q index sub) := by
  simp only [State.query]
  split
  · refine (Keeps.send ?_ fun _ h => List.mem_singleton.1 h ▸ hF)
    rcases dictRead_cases u q index sub with ⟨c, hc⟩ | ⟨r, -, hr⟩
    · rw [hc]
      exact refl u
    · rw [hr]
      exact hv
  · exact refl u

/-- RESET_CMD is noted, and its reset runs where one is due. -/
theorem resetRequest {q v e} (hr : ∀ t : State, Keeps F t (t.resetByCmd v e)) (hF : [.pw, .out] ⊆ F := by decide) :
    Keeps F u (u.resetRequest q v e) := by
  have hw (x : Nat) : Keeps F u (u.command q 0x2000 6 (leBytes 1 x)) :=
    command_of ((refl u).withPw (hF (by decide))) (hF (by decide))
  unfold State.resetRequest
  extract_lets t
  have ht : Keeps F u t := by
    simp only [t]
    split
    · exact refl u
    · exact hw v
  split
  · exact ht.trans (hr t)
  · exact ht

end Sys2Proof.Machine.Keeps

namespace Sys2Proof.Machine.KeepsBy

open Sys2Proof.Stated Keeps

set_option Elab.async false

variable {F : List Field} {s u : State}

theorem execPlanLoadDone
    (hF : [.plan, .pc, .vs, .keys, .slotStats, .arrs, .mem, .gran, .links, .dom, .out] ⊆ F := by decide) :
      KeepsBy F u (execPlanLoadDone u) :=
  .arises (.next ((Keeps.refl u).finishLoad hF))

theorem execPwrgoodAssert {e} (hF : resetFields ⊆ F := by decide) : KeepsBy F u (execPwrgoodAssert e u) :=
  mono hF <| .next <| by
    split
    · exact (refl u).coldReset
    · exact refl u

theorem execPwrgoodDeassert (hF : resetFields ⊆ F := by decide) : KeepsBy F u (execPwrgoodDeassert u) :=
  mono hF <| .next <| by
    have ht := (refl (F := resetFields) u).coldState
    dsimp only
    generalize u.coldState = t at ht
    exact ht.update (hr := fun ⟨r0, r1, r2, r3, r4, r5, _, r7, r8⟩ => ⟨r0, r1, r2, r3, r4, r5, rising_nil, r7, r8⟩)

theorem execResetCmdCold {q e}
    (hF : [.pw, .ports, .fns, .tm, .en, .mctp, .plan, .pc, .vs, .tenants, .drrQuantum, .drrPtr, .keys, .uploads, .installs,
      .streams, .jobs, .jobSeq, .runs, .slotStats, .arrs, .dies, .hubs, .stk, .mem, .gran, .links, .dom, .sec, .hm, .sels,
        .snap, .trace, .dump, .out] ⊆ F := by decide) : KeepsBy F u (execResetCmdCold q e u) :=
  mono hF <| .next <| Keeps.resetRequest fun t => (refl t).reach.coldReset

theorem execResetCmdWarm {q e}
    (hF : [.pw, .ports, .fns, .tm, .en, .pc, .vs, .tenants, .keys, .uploads, .installs, .streams, .runs, .arrs, .dies, .hubs,
      .mem, .links, .dom, .sec, .hm, .snap, .trace, .dump, .out, .jobs, .plan, .slotStats] ⊆ F := by decide) :
        KeepsBy F u (execResetCmdWarm q e u) :=
  mono hF <| .next <| Keeps.resetRequest fun t => (refl t).reach.warmReset.portsAgain

theorem execDeviceEnableSet {q} (hF : [.en, .links, .dom, .out] ⊆ F := by decide) : KeepsBy F u (execDeviceEnableSet q u) :=
  mono hF <| .next (command_of (refl u).setEnable)

theorem execDeviceEnableClear {q}
    (hF : [.en, .links, .dom, .out] ⊆ F := by decide) : KeepsBy F u (execDeviceEnableClear q u) :=
  mono hF <| .next (command_of (refl u).clearEnable)

theorem execPlanLoad {q} (hF : [.pc, .out] ⊆ F := by decide) : KeepsBy F u (execPlanLoad q u) :=
  mono hF <| .next (command_of (refl u).startLoad)

theorem execKeyLoad {q} (hF : [.tenants, .uploads, .sec, .out] ⊆ F := by decide) : KeepsBy F u (execKeyLoad q u) :=
  mono hF <| .next (command_of (refl u).queueUpload)

theorem execKeyDrop {q keyId}
    (hF : [.tenants, .keys, .installs, .hubs, .out] ⊆ F := by decide) : KeepsBy F u (execKeyDrop q keyId u) :=
  mono hF <| .next (command_of (refl u).dropKey)

theorem execVarRequest {q v}
    (hF : [.pw, .vs, .dies, .links, .dom, .hm, .out] ⊆ F := by decide) : KeepsBy F u (execVarRequest q v u) :=
  mono hF <| .next (command_of (refl u).requestVariant)

theorem execMrgRun {q} (hF : [.mem, .out] ⊆ F := by decide) : KeepsBy F u (execMrgRun q u) :=
  mono hF <| .next (command_of (refl u).startMargin)

theorem execTenActivate {q} (hF : [.tenants, .out] ⊆ F := by decide) : KeepsBy F u (execTenActivate q u) :=
  mono hF <| .next (command_of (refl u).activate)

theorem execTenDisable {q} (hF : [.tenants, .sec, .out] ⊆ F := by decide) : KeepsBy F u (execTenDisable q u) :=
  mono hF <| .next (command_of (refl u).disable)

theorem execTenClear {q}
    (hF : [.tenants, .keys, .uploads, .installs, .hubs, .sec, .out] ⊆ F := by decide) : KeepsBy F u (execTenClear q u) :=
  mono hF <| .next (command_of (refl u).clearTenant)

theorem execStreamEnable {q} (hF : ringFields ⊆ F := by decide) : KeepsBy F u (execStreamEnable q u) :=
  mono hF <| .next (command_of (refl u).enableStream)

theorem execStreamDisable {q} (hF : ringFields ⊆ F := by decide) : KeepsBy F u (execStreamDisable q u) :=
  mono hF <| .next (command_of (refl u).disableStream)

theorem execStreamReset {q} (hF : ringFields ⊆ F := by decide) : KeepsBy F u (execStreamReset q u) :=
  mono hF <| .next (command_of (refl u).resetStream)

theorem execMirrorSnapTake {q} (hF : [.snap, .out] ⊆ F := by decide) : KeepsBy F u (execMirrorSnapTake q u) :=
  mono hF <| .next (command_of (refl u).snapWrite)

theorem execMirrorSnapRelease {q} (hF : [.snap, .out] ⊆ F := by decide) : KeepsBy F u (execMirrorSnapRelease q u) :=
  mono hF <| .next (command_of (refl u).snapWrite)

theorem execDumpRun {q} (hF : [.dump, .hostMem, .free, .out] ⊆ F := by decide) : KeepsBy F u (execDumpRun q u) :=
  mono hF <| .next (command_of (refl u).runDump)

theorem execShareOffer {q} (hF : [.tenants, .sec, .out] ⊆ F := by decide) : KeepsBy F u (execShareOffer q u) :=
  mono hF <| .next (command_of (refl u).startOffer)

theorem execShareSubmit {q} (hF : [.tenants, .sec, .out] ⊆ F := by decide) : KeepsBy F u (execShareSubmit q u) :=
  mono hF <| .next (command_of (refl u).startSubmit)

theorem execShareWipe {q} (hF : [.tenants, .sec, .out] ⊆ F := by decide) : KeepsBy F u (execShareWipe q u) :=
  mono hF <| .next (command_of (refl u).wipeShare)

theorem execPdecRun {q} (hF : [.tenants, .sec, .out] ⊆ F := by decide) : KeepsBy F u (execPdecRun q u) :=
  mono hF <| .next (command_of (refl u).startPdec)

theorem execHmRun {q} (hF : [.sec, .out] ⊆ F := by decide) : KeepsBy F u (execHmRun q u) :=
  mono hF <| .next (command_of (refl u).startHm)

theorem execFenceDie {q d} (hF : [.hm, .out] ⊆ F := by decide) : KeepsBy F u (execFenceDie q d u) :=
  mono hF <| .next (command_of (refl u).askFence)

theorem execRetireArray {q n} (hF : [.dies, .hm, .out] ⊆ F := by decide) : KeepsBy F u (execRetireArray q n u) :=
  mono hF <| .next (command_of (refl u).askRetire)

theorem execEvtAck {q seq} (hF : [.pw, .hm, .out] ⊆ F := by decide) : KeepsBy F u (execEvtAck q seq u) :=
  mono hF <| .next (command_of (refl u).ackEvent)

theorem execTimeSet {q value} (hF : [.tm, .vs, .out] ⊆ F := by decide) : KeepsBy F u (execTimeSet q value u) :=
  mono hF <| .next (command_of (refl u).loadSecond)

theorem execSlotDelayMaxRead {q} (hF : [.slotStats, .out] ⊆ F := by decide) : KeepsBy F u (execSlotDelayMaxRead q u) :=
  mono hF <| .next (query_of (refl u).afterSlotRead)

theorem execDomainSkewNsRead {q} (hF : [.tm, .out] ⊆ F := by decide) : KeepsBy F u (execDomainSkewNsRead q u) :=
  mono hF <| .next (query_of (refl u).afterSkewRead)

theorem execMirrorBlockRead {q sub}
    (hF : [.sels, .snap, .out] ⊆ F := by decide) : KeepsBy F u (execMirrorBlockRead q sub u) :=
  mono hF <| .next <| query_of <| by
    have hp : u.afterRead q 0xC010 sub =
        if 0xC010 = 0xC010 ∧ sub ≠ 0 then (u.touchSnap q 0xC010).afterPageRead q sub else u.touchSnap q 0xC010 := rfl
    rw [hp]
    split
    · exact (refl u).touchSnap.afterPageRead
    · exact (refl u).touchSnap

theorem execLoftLandHwmRead {q d} (hF : [.arrs, .out] ⊆ F := by decide) : KeepsBy F u (execLoftLandHwmRead q d u) := by
  rw [Machine.execLoftLandHwmRead, Machine.need]
  split
  · next hd =>
    have hd := of_decide_eq_true hd
    refine mono hF (.next (query_of ?_))
    have hw (n : Nat) : Keeps [.arrs, .out] u (u.afterLoftRead q n) := (refl u).afterLoftRead
    interval_cases d <;> exact hw _
  · exact .fault

theorem execDieTempMaxRead {q d} (hF : [.dies, .out] ⊆ F := by decide) : KeepsBy F u (execDieTempMaxRead q d u) := by
  rw [Machine.execDieTempMaxRead, Machine.need]
  split
  · next hd =>
    have hd := of_decide_eq_true hd
    refine mono hF (.next (query_of ?_))
    have hw (n : Nat) : Keeps [.dies, .out] u (u.afterTempRead n) := (refl u).afterTempRead
    interval_cases d <;> exact hw _
  · exact .fault

theorem execLinkRetrain {q j} (hF : linkFields ⊆ F := by decide) : KeepsBy F u (execLinkRetrain q j u) := by
  rw [Machine.execLinkRetrain, Machine.need]
  split
  · next hj =>
    have hj : j < 32 := of_decide_eq_true hj
    refine mono hF (.next (command_of ?_))
    have hw (n : Nat) : Keeps linkFields u (u.retrainLink n).2 := (refl u).retrainLink
    interval_cases j <;> exact hw _
  · exact .fault

end Sys2Proof.Machine.KeepsBy
end

section
/-! What each command keeps, in the order of the definitions. -/

namespace Sys2Proof.Machine.KeepsBy

open Sys2Proof.Stated Keeps

set_option Elab.async false

variable {F : List Field} {s u : State}

theorem execPerstBothWarmReset {e}
    (hF : [.pw, .ports, .fns, .tm, .en, .plan, .pc, .vs, .tenants, .keys, .uploads, .installs, .streams, .jobs, .runs,
      .slotStats, .arrs, .dies, .hubs, .mem, .links, .dom, .sec, .hm, .sels, .snap, .trace, .dump, .out] ⊆ F := by decide) :
    KeepsBy F u (execPerstBothWarmReset e u) :=
  mono hF <| .next <| by
    split
    · exact (refl _)
    · split
      · exact ((refl _).clearPort.clearPort.warmReset.withPorts fun _ => rising_nil)
      · exact ((refl _).clearPort.clearPort.withPorts fun _ => rising_nil)

theorem execPortReset {port} (hF : [.ports, .fns, .streams, .sels, .snap] ⊆ F := by decide) :
    KeepsBy F u (execPortReset port u) :=
  mono hF <| .need (.next <| by
    split
    · exact (refl _).setPort.clearPort
    · exact (refl _))

theorem execFunctionLevelReset {f}
    (hF : [.fns, .tenants, .keys, .installs, .streams, .jobs, .hubs, .sels, .snap, .hostMem, .out] ⊆ F := by decide) :
    KeepsBy F u (execFunctionLevelReset f u) :=
  mono hF <| .need (.next <| by
    split
    · exact ((refl _).setFn.dropSels.dropSnap.failHostReads.modStreams.foldl fun t x => (refl _).resetStream)
    · exact (refl _))

theorem execBusMasterEnableSet {e} (hF : ringFields ⊆ F := by decide) :
    KeepsBy F u (execBusMasterEnableSet e u) :=
  mono hF <| .need (.next <| by
    split
    · split
      · exact ((refl _).setVfs.setFn.foldl fun t x => (refl _).modStream.flush).sendPending
      · exact ((refl _).setFn.foldl fun t x => (refl _).modStream.flush).sendPending
    · exact (refl _))

theorem execMsixUnmask {f v} (hF : [.fns, .out] ⊆ F := by decide) :
    KeepsBy F u (execMsixUnmask f v u) :=
  mono hF <| .need (.next <| by
    split
    · exact (refl _).setFn.sendPending
    · exact (refl _))

theorem execHostPortFailure {port}
    (hF : [.ports, .fns, .tenants, .keys, .installs, .streams, .jobs, .jobSeq, .hubs, .links, .dom, .hostMem,
      .out] ⊆ F := by decide) :
    KeepsBy F u (execHostPortFailure port u) :=
  mono hF <| .need (.next <| by
    split
    · exact ((refl _).setPort.foldl fun t x => (refl _).failStream)
    · exact (refl _))

theorem execRefclkLock {e}
    (hF : [.pw, .tm, .keys, .jobs, .jobSeq, .runs, .slotStats, .arrs, .dies, .stk, .links, .dom, .hm,
      .out] ⊆ F := by decide) :
    KeepsBy F u (execRefclkLock e u) :=
  mono hF <| .arises (.next (((refl _).withTm).dieTests.replaceCheck.withPw))

theorem execRefclkStateChange {st} (hF : [.tm] ⊆ F := by decide) :
    KeepsBy F u (execRefclkStateChange st u) :=
  mono hF <| .next <| by
    split
    · exact (refl _)
    · exact ((refl _).withTm)

theorem execBootComplete (hF : bootFields ⊆ F := by decide) :
    KeepsBy F u (execBootComplete u) :=
  mono hF <| .arises (.next ((refl _).finishBoot))

theorem execThermalBootHoldRelease (hF : [.pw] ⊆ F := by decide) :
    KeepsBy F u (execThermalBootHoldRelease u) :=
  mono hF <| .arises (.next ((refl _).withPw))

theorem execLinkStart {r} (hF : linkFields ⊆ F := by decide) :
    KeepsBy F u (execLinkStart r u) :=
  mono hF <| .need (.next <| by
    split
    · exact (refl _).modLink.startTraining
    · exact (refl _))

theorem execNotReadyWaitExpiry {r} (hF : linkFields ⊆ F := by decide) : KeepsBy F u (execNotReadyWaitExpiry r u) :=
  mono hF <| .need <| .next <| by
    dsimp only
    split
    · exact (refl _).startTraining
    · exact refl _

theorem execTrainingRetry {r} (hF : linkFields ⊆ F := by decide) : KeepsBy F u (execTrainingRetry r u) :=
  mono hF <| .need <| .next <| by
    extract_lets l v
    have hv : Keeps linkFields u v := by
      simp only [v]
      split
      · exact refl _
      · exact (refl _).trainFail
    clear_value v
    split
    · split
      · exact hv.startTraining
      · exact hv
    · exact refl _

theorem execLaneFailure {j lane} (hF : linkFields ⊆ F := by decide) :
    KeepsBy F u (execLaneFailure j lane u) :=
  mono hF <| .need (.next <| by
    split
    · exact (refl _).dropLane
    · exact (refl _))

theorem execFlockLoss {j} (hF : linkFields ⊆ F := by decide) : KeepsBy F u (execFlockLoss j u) :=
  mono hF <| .need <| .next <| by
    dsimp only
    split
    · exact (refl _).modLink.linkFail
    · exact (refl _).modLink

theorem execIdle {rx} (hF : [.links, .out] ⊆ F := by decide) : KeepsBy F u (execIdle rx u) :=
  mono hF <| .need (.next ((refl _).receive (hk := fun t => refl t)))

theorem execOpenFrame {rx o} (hF : faultFields ⊆ F := by decide) :
    KeepsBy F u (execOpenFrame rx o u) :=
  mono hF <| .need (.next ((refl _).receive (hk := fun t => by
    split
    · exact (refl _).forward
    · exact (refl _).noRoute
    · split
      · exact (refl _).blockDone
      · exact (refl _).modLink)))

theorem execDataFrame {rx payload} (hF : faultFields ⊆ F := by decide) :
    KeepsBy F u (execDataFrame rx payload u) :=
  mono hF <| .need (.next ((refl _).receive (hk := fun t => by
    split
    · exact (refl _).forward
    · exact (refl _).noRoute
    · exact (refl _).takeData)))

theorem execLack {rx es} (hF : faultFields ⊆ F := by decide) :
    KeepsBy F u (execLack rx es u) :=
  mono hF <| .need (.next ((refl _).receive (hk := fun t => by
    split
    · exact (refl _).forward
    · exact (refl _).noRoute
    · exact ((refl _).foldl fun t x => (refl _).takeLack))))

theorem execNak {rx expect} (hF : linkFields ⊆ F := by decide) :
    KeepsBy F u (execNak rx expect u) :=
  mono hF <| .need (.next ((refl _).receive (hk := fun t => (refl _).answerNak)))

theorem execDelayFrame {rx tTx echoTx echoRx rxTime}
    (hF : [.pw, .tm, .jobs, .jobSeq, .runs, .arrs, .dies, .links, .dom, .sec, .hm, .trace, .out] ⊆ F := by decide) :
    KeepsBy F u (execDelayFrame rx tTx echoTx echoRx rxTime u) :=
  mono hF <| .need (.next ((refl _).receive (hk := fun t => (refl _).measure)))

theorem execHello {rx h'} (hF : linkFields ⊆ F := by decide) :
    KeepsBy F u (execHello rx h' u) :=
  mono hF <| .need (.next ((refl _).receiveKex (hk := fun t => (refl _).takeHello)))

theorem execKex {rx frag lastFrag body} (hF : [.links, .sec, .out] ⊆ F := by decide) :
    KeepsBy F u (execKex rx frag lastFrag body u) :=
  mono hF <| .need (.next ((refl _).receiveKex (hk := fun t => (refl _).takeKex)))

theorem execRekey {rx b} (hF : [.links, .sec, .out] ⊆ F := by decide) :
    KeepsBy F u (execRekey rx b u) :=
  mono hF <| .need (.next ((refl _).receive (hk := fun t => (refl _).takeRekey)))

theorem execPathDown {rx chan reason} (hF : faultFields ⊆ F := by decide) : KeepsBy F u (execPathDown rx chan reason u) :=
  mono hF <| .need <| .next <| (refl _).receive (hk := fun t => by
    dsimp only
    split
    · exact (refl _).pathNotice.losePath
    · exact (refl _).pathNotice)

theorem execPathUp {rx chan epoch} (hF : [.links, .dom, .out] ⊆ F := by decide) :
    KeepsBy F u (execPathUp rx chan epoch u) :=
  mono hF <| .need (.next ((refl _).receive (hk := fun t => (refl _).pathNotice.regainPath)))

theorem execRekeyStart {j} (hF : [.sec] ⊆ F := by decide) :
    KeepsBy F u (execRekeyStart j u) :=
  mono hF <| .need (.arises (.next <| by
    split
    · exact (refl _).sigPush
    · exact (refl _)))

theorem execRekeyRetry {j} (hF : [.links, .sec] ⊆ F := by decide) : KeepsBy F u (execRekeyRetry j u) :=
  mono hF <| .need <| .arises <| .next <| by
    dsimp only
    split
    · exact (refl _).modLink.abortLink.sigPush
    · exact (refl _).modLink.abortLink

theorem execSessionKeySwitch {j tx} (hF : [.links] ⊆ F := by decide) :
    KeepsBy F u (execSessionKeySwitch j tx u) :=
  mono hF <| .need <| by
    split
    · exact .arises (.next ((refl _).setLink))
    · exact .refused

theorem execScntHalt {j tx} (hF : linkFields ⊆ F := by decide) :
    KeepsBy F u (execScntHalt j tx u) :=
  mono hF <| .need (.arises (.next ((refl _).linkFail.startTraining)))

theorem execAuthFailLimit {j} (hF : linkFields ⊆ F := by decide) :
    KeepsBy F u (execAuthFailLimit j u) :=
  mono hF <| .need (.arises (.next <| by
    split
    · exact (refl _).linkFail
    · exact (refl _)))

theorem execJoin {rx d planId digest} (hF : [.links, .dom, .out] ⊆ F := by decide) :
    KeepsBy F u (execJoin rx d planId digest u) :=
  mono hF <| .need (.next ((refl _).receiveDctl (hk := fun t => ((refl _).atLead (hk := fun t => (refl _).answerJoin)))))

theorem execAccept {rx d firstEpoch second members} (hF : [.tm, .en, .vs, .links, .dom, .out] ⊆ F := by decide) :
    KeepsBy F u (execAccept rx d firstEpoch second members u) :=
  mono hF <| .need (.next ((refl _).receiveDctl (hk := fun t => by
    split
    · exact (refl _).takeAccept
    · exact (refl _))))

theorem execJoinRefused {rx d reason} (hF : [.en, .links, .dom, .out] ⊆ F := by decide) :
    KeepsBy F u (execJoinRefused rx d reason u) :=
  mono hF <| .need (.next ((refl _).receiveDctl (hk := fun t => by
    split
    · exact (refl _).joinFailed
    · exact (refl _))))

theorem execAcceptTimeout (hF : [.en, .dom] ⊆ F := by decide) :
    KeepsBy F u (execAcceptTimeout u) :=
  mono hF <| .arises (.next ((refl _).joinFailed))

theorem execReady {rx d jobId prog tenant} (hF : admitFields ⊆ F := by decide) :
    KeepsBy F u (execReady rx d jobId prog tenant u) :=
  mono hF <| .need (.next ((refl _).receiveDctl (hk := fun t => ((refl _).atLead
    (hk := fun t => (refl _).noteReady.leadCheck)))))

theorem execRefuse {rx d jobId code} (hF : refuseFields ⊆ F := by decide) :
    KeepsBy F u (execRefuse rx d jobId code u) :=
  mono hF <| .need (.next ((refl _).receiveDctl (hk := fun t => by
    split
    · exact (refl _).leadRefuse
    · exact ((refl _).fromLead (hk := fun t => (refl _).refuseDomain)))))

theorem execAdmit {rx d jobId aseq} (hF : admitFields ⊆ F := by decide) :
    KeepsBy F u (execAdmit rx d jobId aseq u) :=
  mono hF <| .need (.next ((refl _).receiveDctl (hk := fun t => ((refl _).fromLead (hk := fun t => (refl _).admitDomain)))))

theorem execAdmitWaitExpiry {jobId}
    (hF : [.fns, .tm, .tenants, .keys, .installs, .streams, .jobs, .hubs, .links, .dom, .hostMem, .out] ⊆ F := by decide) :
    KeepsBy F u (execAdmitWaitExpiry jobId u) :=
  mono hF <| by
    simp only [Machine.execAdmitWaitExpiry]
    split
    · exact .arises (.next ((refl _).reach.leadRefuse))
    · exact .refused

theorem execLeadBindDecision {epoch slot} (hF : [.tm, .tenants, .drrPtr, .links, .dom, .out] ⊆ F := by decide) :
    KeepsBy F u (execLeadBindDecision epoch slot u) :=
  mono hF <| by
    simp only [Machine.execLeadBindDecision]
    split
    · exact .next (refl _)
    · split
      · exact .refused
      · split
        · exact .refused
        · exact .arises (.next ((refl _).reach.leadBind))

theorem execBind {rx d epoch slot es} (hF : [.links, .dom, .out] ⊆ F := by decide) :
    KeepsBy F u (execBind rx d epoch slot es u) :=
  mono hF <| .need (.next ((refl _).receiveDctl (hk := fun t => ((refl _).fromLead (hk := fun t => ((refl _).withDom))))))

theorem execTick {rx d lead deputy admitted members} (hF : [.links, .dom, .out] ⊆ F := by decide) :
    KeepsBy F u (execTick rx d lead deputy admitted members u) :=
  mono hF <| .need (.next ((refl _).receiveDctl (hk := fun t => ((refl _).fromLead (hk := fun t => ((refl _).withDom))))))

theorem execLeadLost (hF : [.jobs, .jobSeq, .links, .dom, .out] ⊆ F := by decide) : KeepsBy F u (execLeadLost u) :=
  mono hF <| .arises <| .next <| by
    extract_lets ok
    clear_value ok
    split
    · exact (refl _).takeLead
    · split
      · exact (refl _).withDom
      · exact (refl _).leaveDomain

theorem execAbandon {rx d jobId inc cause} (hF : [.jobs, .jobSeq, .links, .dom, .out] ⊆ F := by decide) :
    KeepsBy F u (execAbandon rx d jobId inc cause u) :=
  mono hF <| .need (.next ((refl _).receiveDctl (hk := fun t => by
    split
    · exact (refl _).sendMembers.abandonHere
    · exact ((refl _).fromLead (hk := fun t => (refl _).abandonHere)))))

theorem execLeave {rx d reason} (hF : [.jobs, .jobSeq, .links, .dom, .out] ⊆ F := by decide) :
    KeepsBy F u (execLeave rx d reason u) :=
  mono hF <| .need (.next ((refl _).receiveDctl (hk := fun t => ((refl _).atLead (hk := fun t => (refl _).memberGone)))))

theorem execDomainRejoin (hF : [.links, .dom, .out] ⊆ F := by decide) :
    KeepsBy F u (execDomainRejoin u) :=
  mono hF <| .arises (.next <| by
    split
    · exact (refl _).sendJoinTo
    · exact (refl _))

theorem execVdecide {rx d variant e} (hF : [.vs, .links, .dom, .out] ⊆ F := by decide) :
    KeepsBy F u (execVdecide rx d variant e u) :=
  mono hF <| .need (.next ((refl _).receiveDctl (hk := fun t => ((refl _).atLead
    (hk := fun t => (refl _).noteSwitch.sendMembers)))))

theorem execVannounce {rx d origin variant e} (hF : [.vs, .links, .dom, .out] ⊆ F := by decide) :
    KeepsBy F u (execVannounce rx d origin variant e u) :=
  mono hF <| .need (.next ((refl _).receiveDctl (hk := fun t => ((refl _).fromLead
    (hk := fun t => (refl _).noteSwitch.acknowledgeSwitch)))))

theorem execVack {rx d origin e} (hF : [.links, .dom, .out] ⊆ F := by decide) :
    KeepsBy F u (execVack rx d origin e u) :=
  mono hF <| .need (.next ((refl _).receiveDctl (hk := fun t => ((refl _).atLead (hk := fun t => ((refl _).withDom))))))

theorem execResident {rx d tenant keyId st} (hF : [.links, .dom, .out] ⊆ F := by decide) :
    KeepsBy F u (execResident rx d tenant keyId st u) :=
  mono hF <| .need (.next ((refl _).receiveDctl (hk := fun t => ((refl _).atLead (hk := fun t => ((refl _).withDom))))))

theorem execQreq {rx d} (hF : [.links, .dom, .out] ⊆ F := by decide) :
    KeepsBy F u (execQreq rx d u) :=
  mono hF <| .need (.next ((refl _).receiveDctl (hk := fun t => by
    split
    · exact ((refl _).withDom).sendReports
    · exact (refl _))))

theorem execQreport {rx d frag lastFrag es} (hF : [.jobs, .jobSeq, .links, .dom, .out] ⊆ F := by decide) :
    KeepsBy F u (execQreport rx d frag lastFrag es u) :=
  mono hF <| .need (.next ((refl _).receiveDctl (hk := fun t => ((refl _).atLead (hk := fun t => by
    split
    · exact (refl _)
    · exact (((refl _).withDom).foldl fun t x => (refl _).noteReady).collectCheck)))))

theorem execFailjob {rx d jobId inc status detail} (hF : [.runs, .links, .dom, .out] ⊆ F := by decide) :
    KeepsBy F u (execFailjob rx d jobId inc status detail u) :=
  mono hF <| .need (.next ((refl _).receiveDctl (hk := fun t => by
    split
    · exact (refl _).sendMembers.failHere
    · exact ((refl _).fromLead (hk := fun t => (refl _).failHere)))))

theorem execMgmtRead {rx m} (hF : [.tm, .slotStats, .arrs, .dies, .links, .sels, .snap, .out] ⊆ F := by decide) :
    KeepsBy F u (execMgmtRead rx m u) :=
  mono hF <| .need (.next ((refl _).receiveMgmt (hk := fun t => (refl _).dictRead.mgmtAnswer)))

theorem execMgmtWrite {rx m} (hF : writeFields ⊆ F := by decide) : KeepsBy F u (execMgmtWrite rx m u) :=
  mono hF <| .need <| .next <| (refl _).receiveMgmt (hk := fun v => by
    dsimp only
    split
    · exact (refl _).takeFrag
    · next st t ht =>
      have hk : Keeps writeFields v t := Keeps.takeFrag_write (r := (st, t)) (refl v) ht
      exact hk.mgmtAnswer)

theorem execMgmtResponse {rx m} (hF : [.links, .out] ⊆ F := by decide) :
    KeepsBy F u (execMgmtResponse rx m u) :=
  mono hF <| .need (.next ((refl _).receiveMgmt (hk := fun t => (refl _).send)))

theorem execMgmtTimeout {tag} (hF : [.dom] ⊆ F := by decide) :
    KeepsBy F u (execMgmtTimeout tag u) :=
  mono hF <| .next <| by
    split
    · exact ((refl _).withDom)
    · exact (refl _)

theorem execPpsEdge {edge}
    (hF : [.pw, .tm, .vs, .links, .dom, .hm, .out] ⊆ F := by decide) : KeepsBy F u (execPpsEdge edge u) :=
  mono hF <| .next <| by
    extract_lets captured v third t w
    have hv : Keeps [.pw, .tm, .vs, .links, .dom, .hm, .out] u v := (refl _).reach
    have hw : Keeps [.pw, .tm, .vs, .links, .dom, .hm, .out] u w := hv.withTm
    clear_value third w
    split
    · exact refl _
    · split
      · exact hv.validPps
      · split
        · exact hw.validPps
        · exact hw

theorem execPpsLost (hF : [.pw, .tm, .hm] ⊆ F := by decide) :
    KeepsBy F u (execPpsLost u) :=
  mono hF <| .arises (.next (((refl _).reach.withTm).log))

theorem execEpochBoundary
    (hF : [.pw, .tm, .vs, .tenants, .keys, .installs, .jobs, .jobSeq, .runs, .slotStats, .arrs, .dies, .links, .dom, .hm,
      .trace, .hostMem, .out] ⊆ F := by decide) :
    KeepsBy F u (execEpochBoundary u) :=
  mono hF <| .next <| by
    split
    · exact (refl _).boundary
    · exact (refl _)

theorem execGearRelockDone (hF : [.tm, .vs] ⊆ F := by decide) :
    KeepsBy F u (execGearRelockDone u) :=
  mono hF <| .arises (.next ((refl _).reach.withVs))

theorem execBindPoint {epoch slot}
    (hF : [.tm, .tenants, .drrPtr, .keys, .jobs, .jobSeq, .runs, .slotStats, .links, .dom, .out] ⊆ F := by decide) :
    KeepsBy F u (execBindPoint epoch slot u) :=
  mono hF <| by
    simp only [Machine.execBindPoint]
    split
    · exact .next (refl _)
    · split
      · exact .refused
      · exact .arises (.arises (.next <| by
          split
          · exact (refl _).reach.unfilled
          · split
            · exact (refl _).reach.bindDomain
            · exact (refl _).reach.bindShared))

theorem execSlotStart {b}
    (hF : [.pw, .tm, .keys, .installs, .jobs, .runs, .slotStats, .arrs, .hubs, .stk, .links, .dom, .hm, .trace,
      .out] ⊆ F := by decide) :
    KeepsBy F u (execSlotStart b u) :=
  mono hF <| by
    simp only [Machine.execSlotStart]
    split
    · exact .next (refl _)
    · split
      · exact .arises (.next <| by
          split
          · exact (refl _).startInstall
          · split
            · exact (refl _).startJob
            · exact (refl _))
      · exact .refused

theorem execFallowSlotStart {slot replicas}
    (hF : [.pw, .tm, .runs, .dies, .links, .hm, .trace, .hostMem, .out] ⊆ F := by decide) :
    KeepsBy F u (execFallowSlotStart slot replicas u) :=
  mono hF <| by
    simp only [Machine.execFallowSlotStart]
    split
    · exact .next (refl _)
    · split
      · exact .arises (.next (((refl _).reach.withRuns).setReplicas.checkReplicas.timeStep.measureDelays.drainTrace))
      · exact .refused

theorem execSlotEnd {slot} (hF : [.tm, .jobs, .runs, .arrs, .dies, .hubs] ⊆ F := by decide) :
    KeepsBy F u (execSlotEnd slot u) :=
  mono hF <| by
    simp only [Machine.execSlotEnd]
    split
    · exact .refused
    · exact .next <| by
        split
        · exact (refl _)
        · split
          · exact (refl _).reach.dropRun
          · exact (refl _).endRun

theorem execSlotPacedAbandon {slot} (hF : [.tm, .jobs, .jobSeq, .runs, .slotStats, .links, .dom, .out] ⊆ F := by decide) :
    KeepsBy F u (execSlotPacedAbandon slot u) :=
  mono hF <| by
    simp only [Machine.execSlotPacedAbandon]
    split
    · exact .arises (.next ((refl _).reach.abandonSlot))
    · exact .refused

theorem execSlotDeadlineAbandon {slot a group cycle tag}
    (hF : [.pw, .tm, .jobs, .jobSeq, .runs, .slotStats, .arrs, .links, .dom, .hm, .trace, .out] ⊆ F := by decide) :
    KeepsBy F u (execSlotDeadlineAbandon slot a group cycle tag u) :=
  mono hF <| .need <| by
    split
    · exact .arises (.next ((refl _).reach.deadline))
    · exact .refused

theorem execReleaseSlot (hF : [.tm, .tenants, .arrs, .dies, .trace] ⊆ F := by decide) :
    KeepsBy F u (execReleaseSlot u) :=
  mono hF <| .next <| by
    split
    · exact (refl _).release
    · exact (refl _)

theorem execCommandDelay {x} (hF : wordFields ⊆ F := by decide) :
    KeepsBy F u (execCommandDelay x u) :=
  mono hF <| .runExec (delayWork_keepsWf ..)

theorem execCribLoad {x} (hF : wordFields ⊆ F := by decide) :
    KeepsBy F u (execCribLoad x u) :=
  mono hF <| .runExec (loadWork_keepsWf ..)

theorem execCribStore {x} (hF : wordFields ⊆ F := by decide) :
    KeepsBy F u (execCribStore x u) :=
  mono hF <| .runExec (storeWork_keepsWf ..)

theorem execCellMove {x} (hF : wordFields ⊆ F := by decide) :
    KeepsBy F u (execCellMove x u) :=
  mono hF <| .runExec (cellWork_keepsWf ..)

theorem execCellMadd {x} (hF : wordFields ⊆ F := by decide) :
    KeepsBy F u (execCellMadd x u) :=
  mono hF <| .runExec (cellWork_keepsWf ..)

theorem execCellMsub {x} (hF : wordFields ⊆ F := by decide) :
    KeepsBy F u (execCellMsub x u) :=
  mono hF <| .runExec (cellWork_keepsWf ..)

theorem execCellMneg {x} (hF : wordFields ⊆ F := by decide) :
    KeepsBy F u (execCellMneg x u) :=
  mono hF <| .runExec (cellWork_keepsWf ..)

theorem execCellMscal {x} (hF : wordFields ⊆ F := by decide) :
    KeepsBy F u (execCellMscal x u) :=
  mono hF <| .runExec (cellWork_keepsWf ..)

theorem execCellMmul {x} (hF : wordFields ⊆ F := by decide) :
    KeepsBy F u (execCellMmul x u) :=
  mono hF <| .runExec (mmulWork_keepsWf ..)

theorem execCellMmulc {x} (hF : wordFields ⊆ F := by decide) :
    KeepsBy F u (execCellMmulc x u) :=
  mono hF <| .runExec (cellWork_keepsWf ..)

theorem execMac {x} (hF : wordFields ⊆ F := by decide) :
    KeepsBy F u (execMac x u) :=
  mono hF <| .runExec (accWork_keepsWf ..)

theorem execMacn {x} (hF : wordFields ⊆ F := by decide) :
    KeepsBy F u (execMacn x u) :=
  mono hF <| .runExec (accWork_keepsWf ..)

theorem execMacc {x} (hF : wordFields ⊆ F := by decide) :
    KeepsBy F u (execMacc x u) :=
  mono hF <| .runExec (accWork_keepsWf ..)

theorem execAlpha {x} (hF : wordFields ⊆ F := by decide) :
    KeepsBy F u (execAlpha x u) :=
  mono hF <| .runExec (accWork_keepsWf ..)

theorem execImma {x} (hF : wordFields ⊆ F := by decide) :
    KeepsBy F u (execImma x u) :=
  mono hF <| .runExec (accWork_keepsWf ..)

theorem execFoldClr {x} (hF : wordFields ⊆ F := by decide) :
    KeepsBy F u (execFoldClr x u) :=
  mono hF <| .runExec (foldWork_keepsWf ..)

theorem execFoldKeep {x} (hF : wordFields ⊆ F := by decide) :
    KeepsBy F u (execFoldKeep x u) :=
  mono hF <| .runExec (foldWork_keepsWf ..)

theorem execNtt {x} (hF : wordFields ⊆ F := by decide) :
    KeepsBy F u (execNtt x u) :=
  mono hF <| .runExec (transformWork_keepsWf ..)

theorem execIntt {x} (hF : wordFields ⊆ F := by decide) :
    KeepsBy F u (execIntt x u) :=
  mono hF <| .runExec (transformWork_keepsWf ..)

theorem execAuto {x} (hF : wordFields ⊆ F := by decide) : KeepsBy F u (execAuto x u) :=
  mono hF <| .runExec (netWork_keepsWf (fun _ _ _ _ h => limbStep_wf h) nofun)

theorem execMulx {x} (hF : wordFields ⊆ F := by decide) :
    KeepsBy F u (execMulx x u) :=
  mono hF <| .runExec (mulxWork_keepsWf ..)

theorem execVecMadd {x} (hF : wordFields ⊆ F := by decide) :
    KeepsBy F u (execVecMadd x u) :=
  mono hF <| .runExec (vecWork_keepsWf ..)

theorem execVecMsub {x} (hF : wordFields ⊆ F := by decide) :
    KeepsBy F u (execVecMsub x u) :=
  mono hF <| .runExec (vecWork_keepsWf ..)

theorem execVecMneg {x} (hF : wordFields ⊆ F := by decide) :
    KeepsBy F u (execVecMneg x u) :=
  mono hF <| .runExec (vecWork_keepsWf ..)

theorem execVecMmul {x} (hF : wordFields ⊆ F := by decide) :
    KeepsBy F u (execVecMmul x u) :=
  mono hF <| .runExec (vecWork_keepsWf ..)

theorem execVecMmulc {x} (hF : wordFields ⊆ F := by decide) :
    KeepsBy F u (execVecMmulc x u) :=
  mono hF <| .runExec (vecWork_keepsWf ..)

theorem execVecMscal {x} (hF : wordFields ⊆ F := by decide) :
    KeepsBy F u (execVecMscal x u) :=
  mono hF <| .runExec (vecWork_keepsWf ..)

theorem execMlift {x} (hF : wordFields ⊆ F := by decide) :
    KeepsBy F u (execMlift x u) :=
  mono hF <| .runExec (vecWork_keepsWf ..)

theorem execMred {x} (hF : wordFields ⊆ F := by decide) :
    KeepsBy F u (execMred x u) :=
  mono hF <| .runExec (vecWork_keepsWf ..)

theorem execMcen {x} (hF : wordFields ⊆ F := by decide) :
    KeepsBy F u (execMcen x u) :=
  mono hF <| .runExec (vecWork_keepsWf ..)

theorem execVecAdd {x} (hF : wordFields ⊆ F := by decide) :
    KeepsBy F u (execVecAdd x u) :=
  mono hF <| .runExec (vecWork_keepsWf ..)

theorem execVecSub {x} (hF : wordFields ⊆ F := by decide) :
    KeepsBy F u (execVecSub x u) :=
  mono hF <| .runExec (vecWork_keepsWf ..)

theorem execVecMul {x} (hF : wordFields ⊆ F := by decide) :
    KeepsBy F u (execVecMul x u) :=
  mono hF <| .runExec (vecWork_keepsWf ..)

theorem execVecMulh {x} (hF : wordFields ⊆ F := by decide) :
    KeepsBy F u (execVecMulh x u) :=
  mono hF <| .runExec (vecWork_keepsWf ..)

theorem execAdds {x} (hF : wordFields ⊆ F := by decide) :
    KeepsBy F u (execAdds x u) :=
  mono hF <| .runExec (vecWork_keepsWf ..)

theorem execSubs {x} (hF : wordFields ⊆ F := by decide) :
    KeepsBy F u (execSubs x u) :=
  mono hF <| .runExec (vecWork_keepsWf ..)

theorem execIdiv {x} (hF : wordFields ⊆ F := by decide) :
    KeepsBy F u (execIdiv x u) :=
  mono hF <| .runExec (vecWork_keepsWf ..)

theorem execVecMin {x} (hF : wordFields ⊆ F := by decide) :
    KeepsBy F u (execVecMin x u) :=
  mono hF <| .runExec (vecWork_keepsWf ..)

theorem execVecMax {x} (hF : wordFields ⊆ F := by decide) :
    KeepsBy F u (execVecMax x u) :=
  mono hF <| .runExec (vecWork_keepsWf ..)

theorem execVabs {x} (hF : wordFields ⊆ F := by decide) :
    KeepsBy F u (execVabs x u) :=
  mono hF <| .runExec (vecWork_keepsWf ..)

theorem execVneg {x} (hF : wordFields ⊆ F := by decide) :
    KeepsBy F u (execVneg x u) :=
  mono hF <| .runExec (vecWork_keepsWf ..)

theorem execVecAnd {x} (hF : wordFields ⊆ F := by decide) :
    KeepsBy F u (execVecAnd x u) :=
  mono hF <| .runExec (vecWork_keepsWf ..)

theorem execVecOr {x} (hF : wordFields ⊆ F := by decide) :
    KeepsBy F u (execVecOr x u) :=
  mono hF <| .runExec (vecWork_keepsWf ..)

theorem execVecXor {x} (hF : wordFields ⊆ F := by decide) :
    KeepsBy F u (execVecXor x u) :=
  mono hF <| .runExec (vecWork_keepsWf ..)

theorem execVnot {x} (hF : wordFields ⊆ F := by decide) :
    KeepsBy F u (execVnot x u) :=
  mono hF <| .runExec (vecWork_keepsWf ..)

theorem execVecShl {x} (hF : wordFields ⊆ F := by decide) :
    KeepsBy F u (execVecShl x u) :=
  mono hF <| .runExec (vecWork_keepsWf ..)

theorem execVecShr {x} (hF : wordFields ⊆ F := by decide) :
    KeepsBy F u (execVecShr x u) :=
  mono hF <| .runExec (vecWork_keepsWf ..)

theorem execVecSar {x} (hF : wordFields ⊆ F := by decide) :
    KeepsBy F u (execVecSar x u) :=
  mono hF <| .runExec (vecWork_keepsWf ..)

theorem execVecCmpEq {x} (hF : wordFields ⊆ F := by decide) :
    KeepsBy F u (execVecCmpEq x u) :=
  mono hF <| .runExec (vecWork_keepsWf ..)

theorem execVecCmpNe {x} (hF : wordFields ⊆ F := by decide) :
    KeepsBy F u (execVecCmpNe x u) :=
  mono hF <| .runExec (vecWork_keepsWf ..)

theorem execVecCmpLt {x} (hF : wordFields ⊆ F := by decide) :
    KeepsBy F u (execVecCmpLt x u) :=
  mono hF <| .runExec (vecWork_keepsWf ..)

theorem execVecCmpLe {x} (hF : wordFields ⊆ F := by decide) :
    KeepsBy F u (execVecCmpLe x u) :=
  mono hF <| .runExec (vecWork_keepsWf ..)

theorem execSel {x} (hF : wordFields ⊆ F := by decide) :
    KeepsBy F u (execSel x u) :=
  mono hF <| .runExec (vecWork_keepsWf ..)

theorem execFadd {x} (hF : wordFields ⊆ F := by decide) :
    KeepsBy F u (execFadd x u) :=
  mono hF <| .runExec (vecWork_keepsWf ..)

theorem execFsub {x} (hF : wordFields ⊆ F := by decide) :
    KeepsBy F u (execFsub x u) :=
  mono hF <| .runExec (vecWork_keepsWf ..)

theorem execFmul {x} (hF : wordFields ⊆ F := by decide) :
    KeepsBy F u (execFmul x u) :=
  mono hF <| .runExec (vecWork_keepsWf ..)

theorem execFma {x} (hF : wordFields ⊆ F := by decide) :
    KeepsBy F u (execFma x u) :=
  mono hF <| .runExec (vecWork_keepsWf ..)

theorem execFdiv {x} (hF : wordFields ⊆ F := by decide) :
    KeepsBy F u (execFdiv x u) :=
  mono hF <| .runExec (vecWork_keepsWf ..)

theorem execFsqrt {x} (hF : wordFields ⊆ F := by decide) :
    KeepsBy F u (execFsqrt x u) :=
  mono hF <| .runExec (vecWork_keepsWf ..)

theorem execFmin {x} (hF : wordFields ⊆ F := by decide) :
    KeepsBy F u (execFmin x u) :=
  mono hF <| .runExec (vecWork_keepsWf ..)

theorem execFmax {x} (hF : wordFields ⊆ F := by decide) :
    KeepsBy F u (execFmax x u) :=
  mono hF <| .runExec (vecWork_keepsWf ..)

theorem execFabs {x} (hF : wordFields ⊆ F := by decide) :
    KeepsBy F u (execFabs x u) :=
  mono hF <| .runExec (vecWork_keepsWf ..)

theorem execFneg {x} (hF : wordFields ⊆ F := by decide) :
    KeepsBy F u (execFneg x u) :=
  mono hF <| .runExec (vecWork_keepsWf ..)

theorem execFcvt {x} (hF : wordFields ⊆ F := by decide) :
    KeepsBy F u (execFcvt x u) :=
  mono hF <| .runExec (vecWork_keepsWf ..)

theorem execCvt {x} (hF : wordFields ⊆ F := by decide) :
    KeepsBy F u (execCvt x u) :=
  mono hF <| .runExec (vecWork_keepsWf ..)

theorem execRsumS {x} (hF : wordFields ⊆ F := by decide) :
    KeepsBy F u (execRsumS x u) :=
  mono hF <| .runExec (vecWork_keepsWf ..)

theorem execRsumL {x} (hF : wordFields ⊆ F := by decide) :
    KeepsBy F u (execRsumL x u) :=
  mono hF <| .runExec (vecWork_keepsWf ..)

theorem execCcEnd {c} (hF : faultFields ⊆ F := by decide) :
    KeepsBy F u (execCcEnd c u) :=
  mono hF <| .runCore (((refl _).coreStep (hk := fun r p t => (refl _).modCore)))

theorem execCcAdd {c} (hF : faultFields ⊆ F := by decide) :
    KeepsBy F u (execCcAdd c u) :=
  mono hF <| .aluWord

theorem execCcSub {c} (hF : faultFields ⊆ F := by decide) :
    KeepsBy F u (execCcSub c u) :=
  mono hF <| .aluWord

theorem execCcAnd {c} (hF : faultFields ⊆ F := by decide) :
    KeepsBy F u (execCcAnd c u) :=
  mono hF <| .aluWord

theorem execCcOr {c} (hF : faultFields ⊆ F := by decide) :
    KeepsBy F u (execCcOr c u) :=
  mono hF <| .aluWord

theorem execCcXor {c} (hF : faultFields ⊆ F := by decide) :
    KeepsBy F u (execCcXor c u) :=
  mono hF <| .aluWord

theorem execCcShl {c} (hF : faultFields ⊆ F := by decide) :
    KeepsBy F u (execCcShl c u) :=
  mono hF <| .aluWord

theorem execCcShr {c} (hF : faultFields ⊆ F := by decide) :
    KeepsBy F u (execCcShr c u) :=
  mono hF <| .aluWord

theorem execCcSar {c} (hF : faultFields ⊆ F := by decide) :
    KeepsBy F u (execCcSar c u) :=
  mono hF <| .aluWord

theorem execCcMin {c} (hF : faultFields ⊆ F := by decide) :
    KeepsBy F u (execCcMin c u) :=
  mono hF <| .aluWord

theorem execCcMax {c} (hF : faultFields ⊆ F := by decide) :
    KeepsBy F u (execCcMax c u) :=
  mono hF <| .aluWord

theorem execLi {c} (hF : faultFields ⊆ F := by decide) :
    KeepsBy F u (execLi c u) :=
  mono hF <| .runCore ((refl _).coreAlu)

theorem execLui {c} (hF : faultFields ⊆ F := by decide) :
    KeepsBy F u (execLui c u) :=
  mono hF <| .runCore ((refl _).coreAlu)

theorem execCcMul {c} (hF : faultFields ⊆ F := by decide) :
    KeepsBy F u (execCcMul c u) :=
  mono hF <| .runCore ((refl _).coreAlu)

theorem execCcMulh {c} (hF : faultFields ⊆ F := by decide) :
    KeepsBy F u (execCcMulh c u) :=
  mono hF <| .runCore ((refl _).coreAlu)

theorem execCcCmpEq {c} (hF : faultFields ⊆ F := by decide) :
    KeepsBy F u (execCcCmpEq c u) :=
  mono hF <| .cmpWord

theorem execCcCmpLt {c} (hF : faultFields ⊆ F := by decide) :
    KeepsBy F u (execCcCmpLt c u) :=
  mono hF <| .cmpWord

theorem execCcCmpLtu {c} (hF : faultFields ⊆ F := by decide) :
    KeepsBy F u (execCcCmpLtu c u) :=
  mono hF <| .cmpWord

theorem execLoop {c} (hF : faultFields ⊆ F := by decide) :
    KeepsBy F u (execLoop c u) :=
  mono hF <| .runCore (((refl _).coreStep (hk := fun r p t => (refl _).modArr)))

theorem execEndl {c} (hF : faultFields ⊆ F := by decide) :
    KeepsBy F u (execEndl c u) :=
  mono hF <| .runCore (((refl _).coreStep (hk := fun r p t => (refl _).modCore)))

theorem execLd {c} (hF : loadFields ⊆ F := by decide) : KeepsBy F u (execLd c u) :=
  mono hF <| .runCore <| (refl _).coreStep (hk := fun _ p v => by
    extract_lets k off b h e r t w
    have ht : Keeps loadFields v t := (refl _).modArr
    have hw : Keeps loadFields v w := ht.coreCorrected
    have hr (z : List Byte × State) (hz : r = .ok z) : Keeps loadFields v z.2 := Keeps.coreLoad (refl v) hz
    clear_value r w t
    split
    · exact (refl _).modArr
    · split
      · exact ht.coreFail
      · split
        · exact ht.coreFail
        · rcases r with sub | ⟨bs, z⟩
          · exact ht.coreFail
          · dsimp only
            split
            · exact hw.coreFail.restoreSpot
            · exact hw.coreFail.restoreSpot
            · exact (hr (bs, z) rfl).coreCorrected.modArr)

theorem execSt {c} (hF : faultFields ⊆ F := by decide) : KeepsBy F u (execSt c u) :=
  mono hF <| .runCore <| (refl _).coreStep (hk := fun r p v => by
    extract_lets x off b h e bs lies meets
    clear_value meets bs
    split
    · exact (refl _).modArr
    · split
      · exact (refl _).coreFail
      · split
        · exact (refl _).coreFail
        · split
          · exact (refl _).coreFail
          · split
            · split
              · exact (refl _).queueArrival.modArr
              · exact (refl _).plainWrite.modArr
            · split
              · exact (refl _).coreFail
              · next t ht =>
                have hk : Keeps faultFields v t := (refl _).remoteStore ht
                exact hk.modArr (hf := fun y w => by
                  rw [nextPc_loft]
                  split <;> exact w))

theorem execLdj {c} (hF : faultFields ⊆ F := by decide) : KeepsBy F u (execLdj c u) :=
  mono hF <| .runCore <| (refl _).coreStep (hk := fun r p v => (refl _).modArr (hf := fun x w => by
    rw [nextPc_loft]
    split <;> exact w))

theorem execMfs {c} (hF : faultFields ⊆ F := by decide) : KeepsBy F u (execMfs c u) :=
  mono hF <| .runCore <| (refl _).coreStep (hk := fun r p v => (refl _).modArr (hf := fun x w => by
    rw [nextPc_loft]
    split <;> exact w))

theorem execAqpush {c} (hF : faultFields ⊆ F := by decide) :
    KeepsBy F u (execAqpush c u) :=
  mono hF <| .runCore (((refl _).coreStep (hk := fun r p t => ((refl _).modArr (hf := fun _ w => by simpa using w)))))

theorem execOqpush {c} (hF : faultFields ⊆ F := by decide) :
    KeepsBy F u (execOqpush c u) :=
  mono hF <| .runCore (((refl _).coreStep (hk := fun r p t => ((refl _).modArr (hf := fun _ w => by simpa using w)))))

theorem execTqwait {c} (hF : faultFields ⊆ F := by decide) :
    KeepsBy F u (execTqwait c u) :=
  mono hF <| .runCore (((refl _).coreStep (hk := fun r p t => ((refl _).modArr (hf := fun _ w => by simpa using w)))))

theorem execCcStallRelease {a} (hF : faultFields ⊆ F := by decide) :
    KeepsBy F u (execCcStallRelease a u) :=
  mono hF <| .need (.next ((refl _).stallRelease))

theorem execXferLc {c} (hF : faultFields ⊆ F := by decide) : KeepsBy F u (execXferLc c u) :=
  mono hF <| .runCore <| (refl _).coreStep (hk := fun _ p v => by
    extract_lets x off h e r ps w
    have hw : Keeps faultFields v w := (refl _).coreCorrected
    split
    · exact (refl _).modArr
    · split
      · exact (refl _).coreFail
      · split
        · exact hw.coreEcc
        · split
          · exact hw.coreFail
          · exact hw.modArr (hf := fun y hy => by rwa [nextPc_loft, xferIn_loft]))

theorem execXferCl {c} (hF : faultFields ⊆ F := by decide) : KeepsBy F u (execXferCl c u) :=
  mono hF <| .runCore <| (refl _).coreStep (hk := fun _ p v => by
    extract_lets x off h e r ps w
    have hw : Keeps faultFields v w := (refl _).coreCorrected
    split
    · exact (refl _).modArr
    · split
      · exact (refl _).coreFail
      · split
        · exact hw.coreFail
        · split
          · exact hw.coreFail
          · exact hw.aside (hf := fun y hy => by rw [nextPc_loft]; exact xferOut_loft_wf hy))

theorem execDmaq {c} (hF : faultFields ⊆ F := by decide) : KeepsBy F u (execDmaq c u) :=
  mono hF <| .runCore <| (refl _).coreStep (hk := fun r p v => by
    extract_lets off
    split
    · exact (refl _).modArr
    · split
      · exact (refl _).modArr.modCore
      · split
        · exact (refl _).coreFail
        · exact (refl _).coreCorrected.coreEcc
        · next t ht _ =>
          have hk : Keeps faultFields v t := (refl _).acceptDesc ht
          exact hk.coreCorrected.modArr)

theorem execReq {c} (hF : faultFields ⊆ F := by decide) : KeepsBy F u (execReq c u) :=
  mono hF <| .runCore <| (refl _).coreStep (hk := fun r p v => by
    extract_lets x off e w bs q n job z
    have hw : Keeps faultFields v w := (refl _).coreCorrected
    have hz : Keeps faultFields v z := hw.modDie
    clear_value w z
    split
    · exact (refl _).modArr
    · split
      · exact (refl _).coreFail
      · split
        · exact (refl _).coreFail
        · split
          · exact (refl _).coreFail
          · split
            · exact hw.coreEcc
            · split
              · exact hw.coreFail
              · exact hz.modArr)

theorem execAcq {c} (hF : faultFields ⊆ F := by decide) : KeepsBy F u (execAcq c u) :=
  mono hF <| .runCore <| (refl _).coreStep (hk := fun r p v => (refl _).modArr (hf := fun x w => by
    rw [nextPc_loft]
    split <;> exact w))

theorem execAcqB {c} (hF : faultFields ⊆ F := by decide) : KeepsBy F u (execAcqB c u) :=
  mono hF <| .runCore <| (refl _).coreStep (hk := fun r p v => (refl _).modArr (hf := fun x w => by
    rw [nextPc_loft]
    split <;> exact w))

theorem execFence {c} (hF : faultFields ⊆ F := by decide) :
    KeepsBy F u (execFence c u) :=
  mono hF <| .runCore (((refl _).coreStep (hk := fun r p t => (refl _).modArr)))

theorem execTwait {c} (hF : faultFields ⊆ F := by decide) : KeepsBy F u (execTwait c u) :=
  mono hF <| .runCore <| (refl _).coreStep (hk := fun r p v => (refl _).modArr (hf := fun x w => by
    rw [nextPc_loft]
    split <;> exact w))

theorem execNop {c} (hF : faultFields ⊆ F := by decide) :
    KeepsBy F u (execNop c u) :=
  mono hF <| .runCore (((refl _).coreStep (hk := fun r p t => (refl _).modArr)))

theorem execSowerRequest {die core} (hF : faultFields ⊆ F := by decide) : KeepsBy F u (execSowerRequest die core u) :=
  mono hF <| .need <| by
    split
    · exact .refused
    · refine .next ?_
      split
      · exact (refl _).unitFail
      · exact (refl _).unitServe fun t ht => (refl _).sow ht

theorem execGranaryRead {die lines}
    (hF : [.pw, .plan, .vs, .keys, .jobs, .jobSeq, .runs, .arrs, .dies, .hubs, .stk, .mem, .gran, .links, .dom, .hm, .trace,
      .free, .out] ⊆ F := by decide) :
    KeepsBy F u (execGranaryRead die lines u) :=
  mono hF <| .need <| by
    split
    · exact .refused
    · exact .next ((refl _).granServe)

/-- What the work of an EXTRACT request gives. -/
theorem thresh {q : UnitReq} {r} (hr : u.thresh q = .ok r) : Keeps [.arrs] u r.1 := by
  simp only [State.thresh] at hr
  split at hr
  · cases hr
  · cases hr
  · split at hr
    · cases hr
    · split at hr
      · cases hr
      · next t ht =>
        obtain rfl := Except.ok.inj hr
        exact (refl _).unitWrite ht
  · cases hr

/-- What the work of a BINDER request gives. -/
theorem binderWork {q : UnitReq} {r} (hr : u.binderWork q = .ok r) : Keeps [.arrs] u r.1 := by
  simp only [State.binderWork] at hr
  split at hr
  · cases hr
  · split at hr
    · cases hr
    · split at hr
      · cases hr
      · split at hr
        · cases hr
        · next t ht =>
          obtain rfl := Except.ok.inj hr
          have hk : Keeps [.arrs] u t := (refl _).writeLimbs ht
          exact hk.bindSheaf
      · cases hr

theorem pairUnit {unit sub : Nat} {work : State → UnitReq → PairWork} {die : Nat} {det : UnitDet}
    (hw : ∀ q r, work u q = .ok r → Keeps [.arrs] u r.1) (hF : faultFields ⊆ F := by decide) :
    KeepsBy F u (pairUnit unit sub work die det u) :=
  mono hF <| .need <| by
    split
    · exact .refused
    · refine .next ?_
      split
      · exact (refl _).unitFail
      · next t rows ht =>
        split
        · exact (refl _).unitFail.unitErrors
        · have hk : Keeps [.arrs] u t := hw _ (t, rows) ht
          exact ((refl _).unitServe fun v hv => Except.ok.inj hv ▸ hk.mono (by decide)).unitErrors

theorem execExtract {die det} (hF : faultFields ⊆ F := by decide) : KeepsBy F u (execExtract die det u) :=
  .pairUnit (fun _ _ => thresh) hF

theorem execBinderRequest {die det} (hF : faultFields ⊆ F := by decide) : KeepsBy F u (execBinderRequest die det u) :=
  .pairUnit (fun _ _ => binderWork) hF

theorem execBlockWrite {b} (hF : blockFields ⊆ F := by decide) :
    KeepsBy F u (execBlockWrite b u) :=
  mono hF <| .need <| by
    split
    · exact .refused
    · exact .arises (.next ((refl _).moveBlock))

theorem execLoftArrival {a} (hF : faultFields ⊆ F := by decide) :
    KeepsBy F u (execLoftArrival a u) :=
  mono hF <| .need <| by
    split
    · exact .refused
    · exact .arises (.next ((refl _).land))

theorem execModularAdd {a} (hF : faultFields ⊆ F := by decide) :
    KeepsBy F u (execModularAdd a u) :=
  mono hF <| .atomicCmd

theorem execInt32Add {a} (hF : faultFields ⊆ F := by decide) :
    KeepsBy F u (execInt32Add a u) :=
  mono hF <| .atomicCmd

theorem execFp32Add {a} (hF : faultFields ⊆ F := by decide) :
    KeepsBy F u (execFp32Add a u) :=
  mono hF <| .atomicCmd

theorem execAtomicMin {a} (hF : faultFields ⊆ F := by decide) :
    KeepsBy F u (execAtomicMin a u) :=
  mono hF <| .atomicCmd

theorem execAtomicMax {a} (hF : faultFields ⊆ F := by decide) :
    KeepsBy F u (execAtomicMax a u) :=
  mono hF <| .atomicCmd

theorem execSwap {a} (hF : faultFields ⊆ F := by decide) :
    KeepsBy F u (execSwap a u) :=
  mono hF <| .atomicCmd

theorem execCompareAndSwap {a} (hF : faultFields ⊆ F := by decide) :
    KeepsBy F u (execCompareAndSwap a u) :=
  mono hF <| .atomicCmd

theorem execDoorbellSqTail {f stream width value} (hF : [.streams] ⊆ F := by decide) :
    KeepsBy F u (execDoorbellSqTail f stream width value u) :=
  mono hF <| .need (.next <| by
    split
    · exact (refl _)
    · split
      · exact (refl _).dropDoorbell
      · exact (refl _).modStream)

theorem execDoorbellCqHead {f stream width value} (hF : ringFields ⊆ F := by decide) :
    KeepsBy F u (execDoorbellCqHead f stream width value u) :=
  mono hF <| .need (.next <| by
    split
    · exact (refl _)
    · split
      · exact (refl _).dropDoorbell
      · exact (refl _).modStream.flush)

theorem execDescriptorDecide {stream} (hF : admitFields ⊆ F := by decide) :
    KeepsBy F u (execDescriptorDecide stream u) :=
  mono hF <| .need (.arises (.next <| by
    split
    · exact (refl _)
    · split
      · split
        · exact (refl _)
        · exact (refl _).setStream
      · exact (refl _).readDesc.settle))

theorem execCompletion {stream}
    (hF : [.fns, .tenants, .keys, .installs, .streams, .jobs, .hubs, .hostMem, .free, .out] ⊆ F := by decide) :
    KeepsBy F u (execCompletion stream u) :=
  mono hF <| .need <| by
    split
    · split
      · exact .arises (.next <| by
          split
          · exact (refl _).complete.settle
          · exact (refl _))
      · exact .refused
    · exact .refused

theorem execIrqDelayExpiry {stream} (hF : [.fns, .tm, .streams, .out] ⊆ F := by decide) :
    KeepsBy F u (execIrqDelayExpiry stream u) :=
  mono hF <| .need (.arises (.next <| by
    split
    · exact (refl _)
    · exact (refl _).reach.setStream.raiseMsix))

theorem execMailboxGo {f m} (hF : messageFields ⊆ F := by decide) :
    KeepsBy F u (execMailboxGo f m u) :=
  mono hF <| .need (.next <| by
    split
    · exact (refl _).mboxServe
    · exact (refl _))

theorem execMctpDictionaryMessage {m} (hF : messageFields ⊆ F := by decide) :
    KeepsBy F u (execMctpDictionaryMessage m u) :=
  mono hF <| .next <| by
    split
    · exact (refl _).takeMctp
    · exact (refl _)

theorem execFragmentTimeout {q tag} (hF : [.links, .dom, .out] ⊆ F := by decide) :
    KeepsBy F u (execFragmentTimeout q tag u) :=
  mono hF <| by
    simp only [Machine.execFragmentTimeout]
    split
    · exact .refused
    · exact .next <| by
        split
        · exact (refl _).dropFrag.mgmtAnswer
        · exact (refl _).dropFrag.send

theorem execEntdaa {addr} (hF : [.mctp] ⊆ F := by decide) :
    KeepsBy F u (execEntdaa addr u) :=
  mono hF <| .next <| by
    split
    · exact ((refl _).withMctp)
    · exact (refl _)

theorem execSetEndpointId {eid} (hF : [.mctp, .out] ⊆ F := by decide) :
    KeepsBy F u (execSetEndpointId eid u) :=
  mono hF <| .next <| by
    split
    · exact (refl _)
    · split
      · exact ((refl _).withMctp).mctpAnswer
      · exact (refl _).mctpAnswer

theorem execGetEndpointId (hF : [.free, .out] ⊆ F := by decide) :
    KeepsBy F u (execGetEndpointId u) :=
  mono hF <| .next <| by
    split
    · exact (refl _).freshBytes.mctpAnswer
    · exact (refl _)

theorem execGetMctpVersionSupport (hF : [.free, .out] ⊆ F := by decide) :
    KeepsBy F u (execGetMctpVersionSupport u) :=
  mono hF <| .next <| by
    split
    · exact (refl _).freshBytes.mctpAnswer
    · exact (refl _)

theorem execGetMessageTypeSupport (hF : [.out] ⊆ F := by decide) :
    KeepsBy F u (execGetMessageTypeSupport u) :=
  mono hF <| .next <| by
    split
    · exact (refl _).mctpAnswer
    · exact (refl _)

theorem execGetVendorDefinedMsgSupport (hF : [.free, .out] ⊆ F := by decide) :
    KeepsBy F u (execGetVendorDefinedMsgSupport u) :=
  mono hF <| .next <| by
    split
    · exact (refl _).freshBytes.mctpAnswer
    · exact (refl _)

theorem execDictWrite {q index sub value} (hF : writeFields ⊆ F := by decide) :
    KeepsBy F u (execDictWrite q index sub value u) :=
  mono hF <| .next ((refl _).command)

theorem execEnableCheckDone
    (hF : [.pw, .fns, .en, .tenants, .keys, .installs, .streams, .jobs, .jobSeq, .hubs, .links, .dom, .hm, .hostMem,
      .out] ⊆ F := by decide) :
    KeepsBy F u (execEnableCheckDone u) :=
  mono hF <| .arises (.next <| by
    split
    · exact (refl _).endCheck
    · exact (refl _))

theorem execDisableComplete (hF : [.pw, .tm, .en] ⊆ F := by decide) :
    KeepsBy F u (execDisableComplete u) :=
  mono hF <| .arises (.next ((refl _).disableDone))

theorem execKeyUploadDone {t'} (hF : [.tenants, .keys, .uploads, .installs, .hubs, .gran, .free] ⊆ F := by decide) :
    KeepsBy F u (execKeyUploadDone t' u) :=
  mono hF <| .need (.arises (.next ((refl _).finishUpload)))

theorem execMarginSweepDone {results} (hF : [.mem] ⊆ F := by decide) :
    KeepsBy F u (execMarginSweepDone results u) :=
  mono hF <| .arises (.next ((refl _).withMem))

theorem execSnapshotExpiry (hF : [.tm, .snap] ⊆ F := by decide) :
    KeepsBy F u (execSnapshotExpiry u) :=
  mono hF <| by
    simp only [Machine.execSnapshotExpiry]
    split
    · exact .refused
    · exact .next ((refl _).reach.withSnap)

theorem execShareOfferExpiry {t'} (hF : [.tm, .tenants] ⊆ F := by decide) :
    KeepsBy F u (execShareOfferExpiry t' u) :=
  mono hF <| .need <| by
    split
    · exact .refused
    · exact .next ((refl _).reach.modTenant)

theorem execPartialDecryption (hF : [.tenants, .sec, .hostMem] ⊆ F := by decide) :
    KeepsBy F u (execPartialDecryption u) :=
  mono hF <| by
    simp only [Machine.execPartialDecryption]
    split
    · exact .refused
    · exact .arises (.next ((refl _).pdecServe))

theorem execSignetOperationDone {mismatch} (hF : signetFields ⊆ F := by decide) :
    KeepsBy F u (execSignetOperationDone mismatch u) :=
  mono hF <| by
    simp only [Machine.execSignetOperationDone]
    split
    · exact .refused
    · exact .next <| by
        split
        · split
          · exact ((refl _).withSec).noteMismatch.sigFinish.failEngine
          · exact ((refl _).withSec).noteMismatch.sigFinish.sigStart
        · split
          · exact ((refl _).withSec).sigFinish.failEngine
          · exact ((refl _).withSec).sigFinish.sigStart

theorem execEntropyFail (hF : [.pw, .tenants, .sec, .hm, .hostMem, .free] ⊆ F := by decide) :
    KeepsBy F u (execEntropyFail u) :=
  mono hF <| .next <| by
    split
    · exact (refl _)
    · exact ((refl _).withSec).log.stopConsumers

theorem execEntropyRetest {pass} (hF : [.sec] ⊆ F := by decide) :
    KeepsBy F u (execEntropyRetest pass u) :=
  mono hF <| .arises (.next <| by
    split
    · exact ((refl _).withSec).instantiateDrbg
    · exact (refl _))

theorem execVaultUncorrectable {what} (hF : signetFields ⊆ F := by decide) :
    KeepsBy F u (execVaultUncorrectable what u) :=
  mono hF <| by
    simp only [Machine.execVaultUncorrectable]
    split
    · exact .next (refl _)
    · exact .next (refl _)
    · exact .need (.next <| by
        split
        · exact (refl _).linkFail.startTraining
        · exact (refl _))
    · exact .next <| by
        split
        · exact (refl _).pdecRefuse
        · exact (refl _)
    · exact .next <| by
        split
        · exact (refl _).instantiateDrbg
        · exact (refl _)

theorem execJtagInstruction {i} (hF : safeFields ⊆ F := by decide) :
    KeepsBy F u (execJtagInstruction i u) :=
  mono hF <| .next <| by
    split
    · split
      · exact ((refl _).wipeVault.withPw).enterSafe
      · exact (refl _)
    · exact (refl _)
    · exact (refl _)
    · exact (refl _)

theorem execDiePllLoss {d}
    (hF : [.pw, .vs, .jobs, .jobSeq, .runs, .slotStats, .arrs, .dies, .links, .dom, .hm, .out] ⊆ F := by decide) :
    KeepsBy F u (execDiePllLoss d u) :=
  mono hF <| .need (.next <| by
    split
    · exact (refl _).fence.mandatoryVariant.replaceCheck
    · exact (refl _))

theorem execRetirementCopy {d} (hF : [.pw, .arrs, .dies, .hm] ⊆ F := by decide) :
    KeepsBy F u (execRetirementCopy d u) :=
  mono hF <| .need <| by
    split
    · exact .refused
    · exact .arises (.next ((refl _).moveArray))

theorem execTempSample {temps powers} (hF : [.pw, .dies, .stk, .hm] ⊆ F := by decide) :
    KeepsBy F u (execTempSample temps powers u) :=
  mono hF <| .need (.next <| by
    split
    · exact (refl _).takeSample.gearSample.bindSample
    · exact (refl _))

theorem execBindResume (hF : [.tm, .hm] ⊆ F := by decide) :
    KeepsBy F u (execBindResume u) :=
  mono hF <| by
    simp only [Machine.execBindResume]
    split
    · exact .refused
    · exact .next ((refl _).reach.withHm)

theorem execGearStepUp (hF : [.pw, .tm, .vs, .dies, .links, .dom, .hm, .out] ⊆ F := by decide) :
    KeepsBy F u (execGearStepUp u) :=
  mono hF <| by
    simp only [Machine.execGearStepUp]
    split
    · exact .refused
    · exact .arises (.next <| by
        split
        · exact ((refl _).reach.withHm).permitGear.evaluateVariant
        · exact (refl _).reach.recommend)

theorem execThermtripN (hF : safeFields ⊆ F := by decide) :
    KeepsBy F u (execThermtripN u) :=
  mono hF <| .next <| by
    split
    · exact ((refl _).enterSafe.wipeVault.withPw)
    · exact (refl _)

theorem execHubFailure {hub}
    (hF : [.pw, .tenants, .jobs, .jobSeq, .runs, .dies, .links, .dom, .sec, .hm, .out] ⊆ F := by decide) :
    KeepsBy F u (execHubFailure hub u) :=
  mono hF <| .need (.next <| by
    split
    · exact (refl _).modDie.enterSafe
    · exact (refl _))

theorem execStewardFailover (hF : safeFields ⊆ F := by decide) :
    KeepsBy F u (execStewardFailover u) :=
  mono hF <| .next <| by
    split
    · exact (refl _)
    · split
      · exact (refl _).enterSafe
      · exact ((refl _).log.withHm)

theorem execStewardMirrorFailure (hF : safeFields ⊆ F := by decide) : KeepsBy F u (execStewardMirrorFailure u) :=
  mono hF <| .next <| by
    dsimp only
    split
    · exact refl _
    · split
      · exact (refl _).withHm.enterSafe
      · exact (refl _).withHm

theorem execHealthSweep {d pslot pass} (hF : [.pw, .dies, .hm] ⊆ F := by decide) :
    KeepsBy F u (execHealthSweep d pslot pass u) :=
  mono hF <| .need (.arises (.next <| by
    split
    · exact ((refl _).noteLate.withHm)
    · exact ((refl _).noteLate.withHm).modDie.log.replaceCheck))

theorem execLoftScrub {d pslot row errs} (hF : faultFields ⊆ F := by decide) :
    KeepsBy F u (execLoftScrub d pslot row errs u) :=
  mono hF <| .need (.arises (.next <| by
    split
    · exact (refl _)
    · exact ((refl _).foldl fun t x => (refl _).scrubWord)))

theorem execKeyRehash {t' id block} (hF : [.pw, .keys, .sec, .hm] ⊆ F := by decide) :
    KeepsBy F u (execKeyRehash t' id block u) :=
  mono hF <| .need <| by
    split
    · exact .refused
    · exact .arises (.next <| by
        split
        · exact ((refl _).corruptKey.withSec).log
        · exact (refl _))

theorem execBgBehind {tier} (hF : [.pw, .hm] ⊆ F := by decide) :
    KeepsBy F u (execBgBehind tier u) :=
  mono hF <| .arises (.next <| by
    split
    · split
      · exact (refl _).log
      · exact ((refl _).withHm).log
    · exact (refl _))

theorem execGleanerBlockRead {k block lines} (hF : [.pw, .keys, .stk, .mem, .hm, .free] ⊆ F := by decide) :
    KeepsBy F u (execGleanerBlockRead k block lines u) :=
  mono hF <| .need (.arises (.next <| by
    split
    · exact (refl _).glean
    · exact (refl _)))

theorem execGleanerEscalate (hF : [.tm, .mem] ⊆ F := by decide) :
    KeepsBy F u (execGleanerEscalate u) :=
  mono hF <| .next <| by
    split
    · exact ((refl _).reach.withMem)
    · exact (refl _)

theorem execGleanerBehind (hF : [.pw, .tm, .mem, .hm] ⊆ F := by decide) :
    KeepsBy F u (execGleanerBehind u) :=
  mono hF <| .next <| by
    split
    · exact ((refl _).reach.update).log
    · exact (refl _)

theorem execHbmRefresh {k bank} (hF : [.stk] ⊆ F := by decide) :
    KeepsBy F u (execHbmRefresh k bank u) :=
  mono hF <| .need (.next <| by
    split
    · exact (refl _).modStack
    · exact (refl _))

theorem execRowRemapCopy {r} (hF : [.stk] ⊆ F := by decide) :
    KeepsBy F u (execRowRemapCopy r u) :=
  mono hF <| .need (.arises (.next ((refl _).setStack)))

theorem execRowRemap {r} (hF : [.pw, .stk, .hm] ⊆ F := by decide) :
    KeepsBy F u (execRowRemap r u) :=
  mono hF <| .need (.arises (.next ((refl _).redirect)))

theorem execStackLost {k} (hF : [.pw, .keys, .stk, .hm] ⊆ F := by decide) :
    KeepsBy F u (execStackLost k u) :=
  mono hF <| .need (.next <| by
    split
    · exact (refl _).loseStack
    · exact (refl _))

theorem execRecordProgram {fail} (hF : [.pw, .tm, .hm] ⊆ F := by decide) :
    KeepsBy F u (execRecordProgram fail u) :=
  mono hF <| .arises (.next ((refl _).programNext))

theorem execPerstRelease {port} (hF : [.ports] ⊆ F := by decide) :
    KeepsBy F u (execPerstRelease port u) :=
  mono hF <| .need (.next <| by
    split
    · exact (refl _).setPort
    · exact (refl _))

theorem execHostPortReturn {port}
    (hF : [.ports, .fns, .tenants, .keys, .installs, .streams, .jobs, .hubs, .hostMem, .out] ⊆ F := by decide) :
    KeepsBy F u (execHostPortReturn port u) :=
  mono hF <| .need (.next <| by
    split
    · exact ((refl _).setPort.foldl fun t x => by
        split
        · exact (refl _).modStream.rewriteRecords.flush
        · exact (refl _))
    · exact (refl _))

theorem execUncorrectableCodeword {f} (hF : [.links, .out] ⊆ F := by decide) :
    KeepsBy F u (execUncorrectableCodeword f u) :=
  mono hF <| .need (.next <| by
    split
    · split
      · exact (refl _).modLink.dropFrame
      · exact (refl _)
    · split
      · exact (refl _).modLink.dropFrame
      · exact (refl _)
    · exact (refl _).badSubtype)

end Sys2Proof.Machine.KeepsBy
end

section
/-! Every command keeps its frame, the memories canonical and the tables rising. -/

namespace Sys2Proof.Machine

open Sys2Proof.Stated

set_option Elab.async false

/-- What each command keeps. -/
theorem exec_keepsBy (c : Instr) (s : State) : KeepsBy (mayWrite c) s (exec c s) := by
  cases c with
  | pwrgoodAssert => exact .execPwrgoodAssert (of_decide_eq_true rfl)
  | pwrgoodDeassert => exact .execPwrgoodDeassert (of_decide_eq_true rfl)
  | perstBothWarmReset => exact .execPerstBothWarmReset (of_decide_eq_true rfl)
  | portReset => exact .execPortReset (of_decide_eq_true rfl)
  | functionLevelReset => exact .execFunctionLevelReset (of_decide_eq_true rfl)
  | busMasterEnableSet => exact .execBusMasterEnableSet (of_decide_eq_true rfl)
  | msixUnmask => exact .execMsixUnmask (of_decide_eq_true rfl)
  | hostPortFailure => exact .execHostPortFailure (of_decide_eq_true rfl)
  | refclkLock => exact .execRefclkLock (of_decide_eq_true rfl)
  | refclkStateChange => exact .execRefclkStateChange (of_decide_eq_true rfl)
  | bootComplete => exact .execBootComplete (of_decide_eq_true rfl)
  | thermalBootHoldRelease => exact .execThermalBootHoldRelease (of_decide_eq_true rfl)
  | linkStart => exact .execLinkStart (of_decide_eq_true rfl)
  | notReadyWaitExpiry => exact .execNotReadyWaitExpiry (of_decide_eq_true rfl)
  | trainingRetry => exact .execTrainingRetry (of_decide_eq_true rfl)
  | laneFailure => exact .execLaneFailure (of_decide_eq_true rfl)
  | flockLoss => exact .execFlockLoss (of_decide_eq_true rfl)
  | idle => exact .execIdle (of_decide_eq_true rfl)
  | openFrame => exact .execOpenFrame (of_decide_eq_true rfl)
  | dataFrame => exact .execDataFrame (of_decide_eq_true rfl)
  | lack => exact .execLack (of_decide_eq_true rfl)
  | nak => exact .execNak (of_decide_eq_true rfl)
  | delayFrame => exact .execDelayFrame (of_decide_eq_true rfl)
  | hello => exact .execHello (of_decide_eq_true rfl)
  | kex => exact .execKex (of_decide_eq_true rfl)
  | rekey => exact .execRekey (of_decide_eq_true rfl)
  | pathDown => exact .execPathDown (of_decide_eq_true rfl)
  | pathUp => exact .execPathUp (of_decide_eq_true rfl)
  | rekeyStart => exact .execRekeyStart (of_decide_eq_true rfl)
  | rekeyRetry => exact .execRekeyRetry (of_decide_eq_true rfl)
  | sessionKeySwitch => exact .execSessionKeySwitch (of_decide_eq_true rfl)
  | scntHalt => exact .execScntHalt (of_decide_eq_true rfl)
  | authFailLimit => exact .execAuthFailLimit (of_decide_eq_true rfl)
  | join => exact .execJoin (of_decide_eq_true rfl)
  | accept => exact .execAccept (of_decide_eq_true rfl)
  | joinRefused => exact .execJoinRefused (of_decide_eq_true rfl)
  | acceptTimeout => exact .execAcceptTimeout (of_decide_eq_true rfl)
  | ready => exact .execReady (of_decide_eq_true rfl)
  | refuse => exact .execRefuse (of_decide_eq_true rfl)
  | admitJob => exact .execAdmit (of_decide_eq_true rfl)
  | admitWaitExpiry => exact .execAdmitWaitExpiry (of_decide_eq_true rfl)
  | leadBindDecision => exact .execLeadBindDecision (of_decide_eq_true rfl)
  | bind => exact .execBind (of_decide_eq_true rfl)
  | tick => exact .execTick (of_decide_eq_true rfl)
  | leadLost => exact .execLeadLost (of_decide_eq_true rfl)
  | abandon => exact .execAbandon (of_decide_eq_true rfl)
  | leave => exact .execLeave (of_decide_eq_true rfl)
  | domainRejoin => exact .execDomainRejoin (of_decide_eq_true rfl)
  | vdecide => exact .execVdecide (of_decide_eq_true rfl)
  | vannounce => exact .execVannounce (of_decide_eq_true rfl)
  | vack => exact .execVack (of_decide_eq_true rfl)
  | resident => exact .execResident (of_decide_eq_true rfl)
  | qreq => exact .execQreq (of_decide_eq_true rfl)
  | qreport => exact .execQreport (of_decide_eq_true rfl)
  | failjob => exact .execFailjob (of_decide_eq_true rfl)
  | mgmtRead => exact .execMgmtRead (of_decide_eq_true rfl)
  | mgmtWrite => exact .execMgmtWrite (of_decide_eq_true rfl)
  | mgmtResponse => exact .execMgmtResponse (of_decide_eq_true rfl)
  | mgmtTimeout tag => exact .execMgmtTimeout (tag := tag) (of_decide_eq_true rfl)
  | ppsEdge => exact .execPpsEdge (of_decide_eq_true rfl)
  | ppsLost => exact .execPpsLost (of_decide_eq_true rfl)
  | timeSet => exact .execTimeSet (of_decide_eq_true rfl)
  | epochBoundary => exact .execEpochBoundary (of_decide_eq_true rfl)
  | gearRelockDone => exact .execGearRelockDone (of_decide_eq_true rfl)
  | bindPoint => exact .execBindPoint (of_decide_eq_true rfl)
  | slotStart => exact .execSlotStart (of_decide_eq_true rfl)
  | fallowSlotStart => exact .execFallowSlotStart (of_decide_eq_true rfl)
  | slotEnd => exact .execSlotEnd (of_decide_eq_true rfl)
  | slotPacedAbandon => exact .execSlotPacedAbandon (of_decide_eq_true rfl)
  | slotDeadlineAbandon => exact .execSlotDeadlineAbandon (of_decide_eq_true rfl)
  | releaseSlot => exact .execReleaseSlot (of_decide_eq_true rfl)
  | commandDelay => exact .execCommandDelay (of_decide_eq_true rfl)
  | cribLoad => exact .execCribLoad (of_decide_eq_true rfl)
  | cribStore => exact .execCribStore (of_decide_eq_true rfl)
  | cellMove => exact .execCellMove (of_decide_eq_true rfl)
  | cellMadd => exact .execCellMadd (of_decide_eq_true rfl)
  | cellMsub => exact .execCellMsub (of_decide_eq_true rfl)
  | cellMneg => exact .execCellMneg (of_decide_eq_true rfl)
  | cellMscal => exact .execCellMscal (of_decide_eq_true rfl)
  | cellMmul => exact .execCellMmul (of_decide_eq_true rfl)
  | cellMmulc => exact .execCellMmulc (of_decide_eq_true rfl)
  | mac => exact .execMac (of_decide_eq_true rfl)
  | macn => exact .execMacn (of_decide_eq_true rfl)
  | macc => exact .execMacc (of_decide_eq_true rfl)
  | alpha => exact .execAlpha (of_decide_eq_true rfl)
  | imma => exact .execImma (of_decide_eq_true rfl)
  | foldClr => exact .execFoldClr (of_decide_eq_true rfl)
  | foldKeep => exact .execFoldKeep (of_decide_eq_true rfl)
  | ntt => exact .execNtt (of_decide_eq_true rfl)
  | intt => exact .execIntt (of_decide_eq_true rfl)
  | auto => exact .execAuto (of_decide_eq_true rfl)
  | mulx => exact .execMulx (of_decide_eq_true rfl)
  | vecMadd => exact .execVecMadd (of_decide_eq_true rfl)
  | vecMsub => exact .execVecMsub (of_decide_eq_true rfl)
  | vecMneg => exact .execVecMneg (of_decide_eq_true rfl)
  | vecMmul => exact .execVecMmul (of_decide_eq_true rfl)
  | vecMmulc => exact .execVecMmulc (of_decide_eq_true rfl)
  | vecMscal => exact .execVecMscal (of_decide_eq_true rfl)
  | mlift => exact .execMlift (of_decide_eq_true rfl)
  | mred => exact .execMred (of_decide_eq_true rfl)
  | mcen => exact .execMcen (of_decide_eq_true rfl)
  | vecAdd => exact .execVecAdd (of_decide_eq_true rfl)
  | vecSub => exact .execVecSub (of_decide_eq_true rfl)
  | vecMul => exact .execVecMul (of_decide_eq_true rfl)
  | vecMulh => exact .execVecMulh (of_decide_eq_true rfl)
  | adds => exact .execAdds (of_decide_eq_true rfl)
  | subs => exact .execSubs (of_decide_eq_true rfl)
  | idiv => exact .execIdiv (of_decide_eq_true rfl)
  | vecMin => exact .execVecMin (of_decide_eq_true rfl)
  | vecMax => exact .execVecMax (of_decide_eq_true rfl)
  | vabs => exact .execVabs (of_decide_eq_true rfl)
  | vneg => exact .execVneg (of_decide_eq_true rfl)
  | vecAnd => exact .execVecAnd (of_decide_eq_true rfl)
  | vecOr => exact .execVecOr (of_decide_eq_true rfl)
  | vecXor => exact .execVecXor (of_decide_eq_true rfl)
  | vnot => exact .execVnot (of_decide_eq_true rfl)
  | vecShl => exact .execVecShl (of_decide_eq_true rfl)
  | vecShr => exact .execVecShr (of_decide_eq_true rfl)
  | vecSar => exact .execVecSar (of_decide_eq_true rfl)
  | vecCmpEq => exact .execVecCmpEq (of_decide_eq_true rfl)
  | vecCmpNe => exact .execVecCmpNe (of_decide_eq_true rfl)
  | vecCmpLt => exact .execVecCmpLt (of_decide_eq_true rfl)
  | vecCmpLe => exact .execVecCmpLe (of_decide_eq_true rfl)
  | sel => exact .execSel (of_decide_eq_true rfl)
  | fadd => exact .execFadd (of_decide_eq_true rfl)
  | fsub => exact .execFsub (of_decide_eq_true rfl)
  | fmul => exact .execFmul (of_decide_eq_true rfl)
  | fma => exact .execFma (of_decide_eq_true rfl)
  | fdiv => exact .execFdiv (of_decide_eq_true rfl)
  | fsqrt => exact .execFsqrt (of_decide_eq_true rfl)
  | fmin => exact .execFmin (of_decide_eq_true rfl)
  | fmax => exact .execFmax (of_decide_eq_true rfl)
  | fabs => exact .execFabs (of_decide_eq_true rfl)
  | fneg => exact .execFneg (of_decide_eq_true rfl)
  | fcvt => exact .execFcvt (of_decide_eq_true rfl)
  | cvt => exact .execCvt (of_decide_eq_true rfl)
  | rsumS => exact .execRsumS (of_decide_eq_true rfl)
  | rsumL => exact .execRsumL (of_decide_eq_true rfl)
  | ccEnd => exact .execCcEnd (of_decide_eq_true rfl)
  | ccAdd => exact .execCcAdd (of_decide_eq_true rfl)
  | ccSub => exact .execCcSub (of_decide_eq_true rfl)
  | ccAnd => exact .execCcAnd (of_decide_eq_true rfl)
  | ccOr => exact .execCcOr (of_decide_eq_true rfl)
  | ccXor => exact .execCcXor (of_decide_eq_true rfl)
  | ccShl => exact .execCcShl (of_decide_eq_true rfl)
  | ccShr => exact .execCcShr (of_decide_eq_true rfl)
  | ccSar => exact .execCcSar (of_decide_eq_true rfl)
  | ccMin => exact .execCcMin (of_decide_eq_true rfl)
  | ccMax => exact .execCcMax (of_decide_eq_true rfl)
  | li => exact .execLi (of_decide_eq_true rfl)
  | lui => exact .execLui (of_decide_eq_true rfl)
  | ccMul => exact .execCcMul (of_decide_eq_true rfl)
  | ccMulh => exact .execCcMulh (of_decide_eq_true rfl)
  | ccCmpEq => exact .execCcCmpEq (of_decide_eq_true rfl)
  | ccCmpLt => exact .execCcCmpLt (of_decide_eq_true rfl)
  | ccCmpLtu => exact .execCcCmpLtu (of_decide_eq_true rfl)
  | loop => exact .execLoop (of_decide_eq_true rfl)
  | endl => exact .execEndl (of_decide_eq_true rfl)
  | ld => exact .execLd (of_decide_eq_true rfl)
  | st => exact .execSt (of_decide_eq_true rfl)
  | ldj => exact .execLdj (of_decide_eq_true rfl)
  | mfs => exact .execMfs (of_decide_eq_true rfl)
  | aqpush => exact .execAqpush (of_decide_eq_true rfl)
  | oqpush => exact .execOqpush (of_decide_eq_true rfl)
  | tqwait => exact .execTqwait (of_decide_eq_true rfl)
  | ccStallRelease => exact .execCcStallRelease (of_decide_eq_true rfl)
  | xferLc => exact .execXferLc (of_decide_eq_true rfl)
  | xferCl => exact .execXferCl (of_decide_eq_true rfl)
  | dmaq => exact .execDmaq (of_decide_eq_true rfl)
  | req => exact .execReq (of_decide_eq_true rfl)
  | acq => exact .execAcq (of_decide_eq_true rfl)
  | acqB => exact .execAcqB (of_decide_eq_true rfl)
  | fence => exact .execFence (of_decide_eq_true rfl)
  | twait => exact .execTwait (of_decide_eq_true rfl)
  | nop => exact .execNop (of_decide_eq_true rfl)
  | sowerRequest => exact .execSowerRequest (of_decide_eq_true rfl)
  | granaryRead => exact .execGranaryRead (of_decide_eq_true rfl)
  | extract => exact .execExtract (of_decide_eq_true rfl)
  | binderRequest => exact .execBinderRequest (of_decide_eq_true rfl)
  | blockWrite => exact .execBlockWrite (of_decide_eq_true rfl)
  | loftArrival => exact .execLoftArrival (of_decide_eq_true rfl)
  | modularAdd => exact .execModularAdd (of_decide_eq_true rfl)
  | int32Add => exact .execInt32Add (of_decide_eq_true rfl)
  | fp32Add => exact .execFp32Add (of_decide_eq_true rfl)
  | atomicMin => exact .execAtomicMin (of_decide_eq_true rfl)
  | atomicMax => exact .execAtomicMax (of_decide_eq_true rfl)
  | swap => exact .execSwap (of_decide_eq_true rfl)
  | compareAndSwap => exact .execCompareAndSwap (of_decide_eq_true rfl)
  | doorbellSqTail => exact .execDoorbellSqTail (of_decide_eq_true rfl)
  | doorbellCqHead => exact .execDoorbellCqHead (of_decide_eq_true rfl)
  | descriptorDecide => exact .execDescriptorDecide (of_decide_eq_true rfl)
  | completion => exact .execCompletion (of_decide_eq_true rfl)
  | irqDelayExpiry => exact .execIrqDelayExpiry (of_decide_eq_true rfl)
  | mailboxGo => exact .execMailboxGo (of_decide_eq_true rfl)
  | mctpDictionaryMessage => exact .execMctpDictionaryMessage (of_decide_eq_true rfl)
  | fragmentTimeout => exact .execFragmentTimeout (of_decide_eq_true rfl)
  | entdaa => exact .execEntdaa (of_decide_eq_true rfl)
  | setEndpointId => exact .execSetEndpointId (of_decide_eq_true rfl)
  | getEndpointId => exact .execGetEndpointId (of_decide_eq_true rfl)
  | getMctpVersionSupport => exact .execGetMctpVersionSupport (of_decide_eq_true rfl)
  | getMessageTypeSupport => exact .execGetMessageTypeSupport (of_decide_eq_true rfl)
  | getVendorDefinedMsgSupport => exact .execGetVendorDefinedMsgSupport (of_decide_eq_true rfl)
  | dictWrite => exact .execDictWrite (of_decide_eq_true rfl)
  | deviceEnableSet => exact .execDeviceEnableSet (of_decide_eq_true rfl)
  | enableCheckDone => exact .execEnableCheckDone (of_decide_eq_true rfl)
  | deviceEnableClear => exact .execDeviceEnableClear (of_decide_eq_true rfl)
  | disableComplete => exact .execDisableComplete (of_decide_eq_true rfl)
  | planLoad => exact .execPlanLoad (of_decide_eq_true rfl)
  | planLoadDone => exact .execPlanLoadDone (of_decide_eq_true rfl)
  | keyLoad => exact .execKeyLoad (of_decide_eq_true rfl)
  | keyUploadDone => exact .execKeyUploadDone (of_decide_eq_true rfl)
  | keyDrop => exact .execKeyDrop (of_decide_eq_true rfl)
  | varRequest => exact .execVarRequest (of_decide_eq_true rfl)
  | linkRetrain => exact .execLinkRetrain (of_decide_eq_true rfl)
  | mrgRun => exact .execMrgRun (of_decide_eq_true rfl)
  | marginSweepDone => exact .execMarginSweepDone (of_decide_eq_true rfl)
  | tenActivate => exact .execTenActivate (of_decide_eq_true rfl)
  | tenDisable => exact .execTenDisable (of_decide_eq_true rfl)
  | tenClear => exact .execTenClear (of_decide_eq_true rfl)
  | streamEnable => exact .execStreamEnable (of_decide_eq_true rfl)
  | streamDisable => exact .execStreamDisable (of_decide_eq_true rfl)
  | streamReset => exact .execStreamReset (of_decide_eq_true rfl)
  | mirrorSnapTake => exact .execMirrorSnapTake (of_decide_eq_true rfl)
  | mirrorSnapRelease => exact .execMirrorSnapRelease (of_decide_eq_true rfl)
  | snapshotExpiry => exact .execSnapshotExpiry (of_decide_eq_true rfl)
  | mirrorBlockRead => exact .execMirrorBlockRead (of_decide_eq_true rfl)
  | loftLandHwmRead => exact .execLoftLandHwmRead (of_decide_eq_true rfl)
  | slotDelayMaxRead => exact .execSlotDelayMaxRead (of_decide_eq_true rfl)
  | domainSkewNsRead => exact .execDomainSkewNsRead (of_decide_eq_true rfl)
  | dieTempMaxRead => exact .execDieTempMaxRead (of_decide_eq_true rfl)
  | dumpRun => exact .execDumpRun (of_decide_eq_true rfl)
  | shareOffer => exact .execShareOffer (of_decide_eq_true rfl)
  | shareOfferExpiry => exact .execShareOfferExpiry (of_decide_eq_true rfl)
  | shareSubmit => exact .execShareSubmit (of_decide_eq_true rfl)
  | shareWipe => exact .execShareWipe (of_decide_eq_true rfl)
  | pdecRun => exact .execPdecRun (of_decide_eq_true rfl)
  | partialDecryption => exact .execPartialDecryption (of_decide_eq_true rfl)
  | hmRun => exact .execHmRun (of_decide_eq_true rfl)
  | signetOperationDone => exact .execSignetOperationDone (of_decide_eq_true rfl)
  | entropyFail => exact .execEntropyFail (of_decide_eq_true rfl)
  | entropyRetest => exact .execEntropyRetest (of_decide_eq_true rfl)
  | vaultUncorrectable => exact .execVaultUncorrectable (of_decide_eq_true rfl)
  | jtagInstruction => exact .execJtagInstruction (of_decide_eq_true rfl)
  | resetCmdCold => exact .execResetCmdCold (of_decide_eq_true rfl)
  | resetCmdWarm => exact .execResetCmdWarm (of_decide_eq_true rfl)
  | fenceDie => exact .execFenceDie (of_decide_eq_true rfl)
  | diePllLoss => exact .execDiePllLoss (of_decide_eq_true rfl)
  | retireArray => exact .execRetireArray (of_decide_eq_true rfl)
  | retirementCopy => exact .execRetirementCopy (of_decide_eq_true rfl)
  | evtAck => exact .execEvtAck (of_decide_eq_true rfl)
  | tempSample => exact .execTempSample (of_decide_eq_true rfl)
  | bindResume => exact .execBindResume (of_decide_eq_true rfl)
  | gearStepUp => exact .execGearStepUp (of_decide_eq_true rfl)
  | thermtripN => exact .execThermtripN (of_decide_eq_true rfl)
  | hubFailure => exact .execHubFailure (of_decide_eq_true rfl)
  | stewardFailover => exact .execStewardFailover (of_decide_eq_true rfl)
  | stewardMirrorFailure => exact .execStewardMirrorFailure (of_decide_eq_true rfl)
  | healthSweep => exact .execHealthSweep (of_decide_eq_true rfl)
  | loftScrub => exact .execLoftScrub (of_decide_eq_true rfl)
  | keyRehash => exact .execKeyRehash (of_decide_eq_true rfl)
  | bgBehind => exact .execBgBehind (of_decide_eq_true rfl)
  | gleanerBlockRead => exact .execGleanerBlockRead (of_decide_eq_true rfl)
  | gleanerEscalate => exact .execGleanerEscalate (of_decide_eq_true rfl)
  | gleanerBehind => exact .execGleanerBehind (of_decide_eq_true rfl)
  | hbmRefresh => exact .execHbmRefresh (of_decide_eq_true rfl)
  | rowRemapCopy => exact .execRowRemapCopy (of_decide_eq_true rfl)
  | rowRemap => exact .execRowRemap (of_decide_eq_true rfl)
  | stackLost => exact .execStackLost (of_decide_eq_true rfl)
  | recordProgram => exact .execRecordProgram (of_decide_eq_true rfl)
  | perstRelease => exact .execPerstRelease (of_decide_eq_true rfl)
  | hostPortReturn => exact .execHostPortReturn (of_decide_eq_true rfl)
  | uncorrectableCodeword => exact .execUncorrectableCodeword (of_decide_eq_true rfl)

end Sys2Proof.Machine
end

section
/-! The invariants of a step: canonical memories and rising tables. -/

namespace Sys2Proof.Machine

open Sys2Proof.Stated

/-- One step keeps the memories canonical and the tables rising, whichever command it runs. -/
theorem step_keeps {s t : State} (h : step s = .next t) :
    (MemoriesWf s → MemoriesWf t) ∧ (TablesRising s → TablesRising t) := by
  simp only [step] at h
  split at h
  · obtain rfl := Host.Outcome.next.inj h
    have hk : Keeps [.tm] s s.tick := (Keeps.refl s).tick
    exact ⟨hk.canon, hk.rising⟩
  · next c cs _ =>
    have hk := exec_keepsBy c { s with pending := cs } t h
    exact ⟨hk.canon, hk.rising⟩

end Sys2Proof.Machine

open Sys2Proof.Machine

/-- Settles O3: every command is a chain of operations, each of which keeps the memories canonical. -/
theorem everyStepKeepsMemoriesCanonical : Obligations.EveryStepKeepsMemoriesCanonical := by
  unfold Obligations.EveryStepKeepsMemoriesCanonical
  exact fun s t hs h => (step_keeps h).1 hs

/-- Settles O4: every command is a chain of operations, each of which keeps the tables rising. -/
theorem everyStepKeepsTablesRising : Obligations.EveryStepKeepsTablesRising := by
  unfold Obligations.EveryStepKeepsTablesRising
  exact fun s t hs h => (step_keeps h).2 hs

end

section
/-! The frame of a command,
    and where it fails: an identity change of a die takes a doubled entry of the table of dies away. -/

namespace Sys2Proof.Machine

open Sys2Proof.Stated

/-- The first half of O60 holds of every command and state. -/
theorem exec_same {c : Instr} {s t : State} (h : exec c s = .next t) :
    t.pending = s.pending ∧ ∀ f, f ∉ mayWrite c → f.same s t :=
  have hk := exec_keepsBy c s t h
  ⟨hk.queue, hk.same⟩

/-- A running slot on array 0 of die 0, which stands twice in the table of dies, first as a die at its defaults and then with
array 0 in another physical slot; only that slot's loft holds a byte. -/
def doubledDie : State :=
  { pw := { part := .enabled }, en := { on := true, st := 2 }, tm := { now := 5010000 }
    plan := some
      { planId := 7, variants := [{ num := 0, gear := 0, dieMask := 1, template := 0 }]
        templates := [{ num := 0, slots := [{ slot := 0, kind := 0, prog := 1, batch := 1, dieMask := 1, arrayMask := 1
                                              start := 100, length := 1000 }] }] }
    tenants := [(1, { st := .active })], jobs := [{ idx := 0, tenant := 1, prog := 1, st := .bound, slot := 0 }]
    runs := [{ slot := 0, epoch := 5, jobs := [(0, 0)], incs := [(0, 0)], started := true }]
    dies := [(0, {}), (0, { slotMap := [1] })], arrs := [(0, {}), (1, { loft := Memory.write [] 0 [5] })] }

/-- A DMAQ through handle 0, which is not mapped. -/
def strayDmaq : CcWord :=
  { arr := ⟨0, 0⟩, pneg := false, pred := 0, rd := 0, rs1 := 0, rs2 := 0, x := 0, imm := 0, dets := [] }

/-- The loft of array 0 of die 0 after a command. -/
def loftAfter (c : Instr) (s : State) : Option Memory := match exec c s with
  | .next t => some (t.arr ⟨0, 0⟩).loft
  | _ => none

/-- The fault of the DMAQ counts against no entry of its die, which is written back as it was: at its defaults, so that the
table drops it and shows the second one. -/
theorem strayDmaq_shows_other_loft :
    loftAfter (.dmaq strayDmaq) doubledDie = some (Memory.write [] 0 [5]) ∧ (doubledDie.arr ⟨0, 0⟩).loft = [] := by
  decide +kernel

end Sys2Proof.Machine

open Sys2Proof.Machine Sys2Proof.Stated

/-- Refutes O60: its second half asks for rising keys of the arrays only. Where the table of dies lists a die twice, a DMAQ
that faults writes the first entry back at its defaults, which drops it; the second entry maps the array to another physical
slot, with another loft. -/
theorem not_everyCommandKeepsItsFrame : ¬ Obligations.EveryCommandKeepsItsFrame := by
  unfold Obligations.EveryCommandKeepsItsFrame
  intro ⟨_, h⟩
  obtain ⟨hafter, hbefore⟩ := strayDmaq_shows_other_loft
  rw [loftAfter] at hafter
  split at hafter
  · next t ht =>
    have hrise : Rising doubledDie.arrs := show [0, 1].Pairwise (· < ·) by decide
    have hkept := h .dmaq (by simp [storesNothing]) strayDmaq doubledDie t hrise (by simp [strayDmaq]) ht ⟨0, 0⟩
    rw [Option.some.inj hafter, hbefore] at hkept
    exact absurd hkept (by decide)
  · cases hafter

end

section
/-! Words of the execute stream that issue: each runs its operation, and stores what its work leaves (R206). -/

namespace Sys2Proof.Machine

open Sys2Proof.Stated

/-- With tracing off an event leaves nothing. -/
theorem trace?_off {s : State} (h : s.trace.enable = false) (a : ArrId) (evt stage tag time cyc arg str inc : Nat) :
    s.trace? a evt stage tag time cyc arg str inc = s := by
  simp [State.trace?, h]

theorem traceWord_off {s : State} (h : s.trace.enable = false) (x : Exec) (r : SlotRun) (evt arg : Nat) :
    s.traceWord x r evt arg = s := trace?_off h ..

@[simp] theorem modLanes_trace (s : State) (a : ArrId) (pair : Bool) (f : Arr → Arr) : (s.modLanes a pair f).trace = s.trace
    := by
  simp only [State.modLanes]
  split <;> rfl

@[simp] theorem putLanes_trace (s : State) (a : ArrId) (l : Lanes) : (s.putLanes a l).trace = s.trace := by
  simp only [State.putLanes]
  split <;> rfl

@[simp] theorem noteDelay_trace (s : State) (slot d : Nat) : (s.noteDelay slot d).trace = s.trace := by
  simp only [State.noteDelay]
  split <;> rfl

/-- With tracing off the start of an operation only notes its delay. -/
theorem noteStart_off {s : State} (h : s.trace.enable = false) (x : Exec) (r : SlotRun) (y : Arr) (flag queue : Nat) :
    s.noteStart x r y flag queue = s.noteDelay r.slot (s.arr x.arr).delay := by
  have hoff : (s.noteDelay r.slot (s.arr x.arr).delay).trace.enable = false
    := (congrArg Trace.enable (noteDelay_trace ..)).trans h
  simp only [State.noteStart, traceWord_off hoff, ite_self]

theorem waited_trace (s : State) (x : Exec) (op : WordOp) (r : SlotRun) : (waited s x op r).trace = s.trace := by
  simp only [waited]
  split
  · exact modLanes_trace ..
  · rfl

/-- A word that issues, and whose work finds no queue empty, stores its lanes and ends. -/
theorem runWord_of_issues {s : State} {x : Exec} {op : WordOp} {r : SlotRun} (h : Issues s x op r)
    (hfed : starved (workOf s x op r) = false) : s.runWord x op = wordDone s x op r (workOf s x op r) := by
  obtain ⟨hrun, -, hlive, hready, hintime, hstart, -, -, hquiet, -⟩ := h
  have hwaits : ((wordArrs x.arr (execPaired s.env x)).any fun a => waitsFor x r (s.arr a)) = false := by
    simpa using hready
  have htrace : ((waited s x op r).putLanes x.arr (workOf s x op r)).trace.enable = false := by
    rw [putLanes_trace, waited_trace, hquiet]
  have hwaited : (if 0 < s.flagCycle x r (execPaired s.env x) - (statedCycle x op.per (s.arr x.arr) + (s.arr x.arr).delay) ∧
      (s.arr x.arr).waiting = false then s.modLanes x.arr (execPaired s.env x) countWait else s) = waited s x op r := by
    simp only [waited, Nat.sub_pos_iff_lt]
  rw [startLanes, startedLate] at hstart
  rw [startedLate] at hintime
  rw [workOf, startLanes, startedLate] at hfed htrace
  simp only [State.runWord, hrun, hlive, Bool.false_eq_true, if_false, hwaits, hintime, hwaited, hstart, hfed, Bool.false_and,
    noteStart_off htrace]
  rfl

/-- A word that is well formed on its array and issues runs its operation. -/
theorem runExec_of_issues {s : State} {x : Exec} {ok : Bool} {op : WordOp} {r : SlotRun} (hok : ok = true)
    (harr : x.arr.wf = true)
    (h : Issues s x op r) (hfed : starved (workOf s x op r) = false) :
    runExec ok x op s = .next (wordDone s x op r (workOf s x op r)) :=
  (runExec_next ..).2 ⟨harr, hok, by simp [h.run, h.job], runWord_of_issues h hfed⟩

/-- A command that runs an operation stores what its work leaves. -/
theorem stores_of_runExec {mk : Exec → Instr} {ok : Exec → Bool} {op : State → Exec → WordOp}
    (h : ∀ x s, exec (mk x) s = runExec (ok x) x (op s x) s) : Stores mk ok op :=
  fun s x _ hok hissues harr hfed _ => (h x s).trans (runExec_of_issues hok harr hissues hfed)

/-- Settles O6: each of these words is its operation, and an operation that issues stores what its work leaves. -/
theorem cellWordsStoreTheirRows : Obligations.CellWordsStoreTheirRows := by
  unfold Obligations.CellWordsStoreTheirRows
  refine ⟨?_, stores_of_runExec fun _ _ => rfl⟩
  simp only [cellOps, List.forall_mem_cons]
  refine ⟨?_, ?_, ?_, ?_, ?_, ?_, nofun⟩
  all_goals exact stores_of_runExec fun _ _ => rfl

/-- Settles O7: each of these words is its operation, and an operation that issues stores what its work leaves. -/
theorem accumulatingWordsStoreTheirEntries : Obligations.AccumulatingWordsStoreTheirEntries := by
  unfold Obligations.AccumulatingWordsStoreTheirEntries
  refine ⟨?_, stores_of_runExec fun _ _ => rfl, stores_of_runExec fun _ _ => rfl⟩
  simp only [accOps, List.forall_mem_cons]
  refine ⟨?_, ?_, ?_, ?_, ?_, nofun⟩
  all_goals exact stores_of_runExec fun _ _ => rfl

/-- Settles O8: each of these words is its operation, and an operation that issues stores what its work leaves. -/
theorem vectorWordsStoreTheirRows : Obligations.VectorWordsStoreTheirRows := by
  unfold Obligations.VectorWordsStoreTheirRows
  intro p hp
  refine stores_of_runExec fun x s => ?_
  revert p
  simp only [vecOps, List.cons_append, List.nil_append, List.forall_mem_cons, List.not_mem_nil, IsEmpty.forall_iff,
    implies_true,
    and_true]
  and_intros <;> rfl

/-- Settles O9: each of these words is its operation, and an operation that issues stores what its work leaves. -/
theorem transformAndTransferWordsStoreTheirRows : Obligations.TransformAndTransferWordsStoreTheirRows := by
  unfold Obligations.TransformAndTransferWordsStoreTheirRows
  refine ⟨?_, ?_, ?_, ?_, ?_, ?_, ?_⟩
  all_goals exact stores_of_runExec fun _ _ => rfl

end Sys2Proof.Machine
end

section
/-! Integers of a given width: their two's-complement readings, saturation and division (R90, R174). -/

namespace Sys2Proof.Machine

/-- The two's-complement reading is the balanced remainder. -/
theorem sNat_eq_bmod {w : Nat} (hw : 1 ≤ w) (v : Nat) : sNat w v = Int.bmod v (2 ^ w) := by
  have hp : (2 : Nat) ^ w = 2 * 2 ^ (w - 1) := by rw [← pow_succ', Nat.sub_add_cancel hw]
  have hlt : v % 2 ^ w < 2 ^ w := Nat.mod_lt _ (by positivity)
  simp only [sNat, Int.bmod_def]
  norm_cast
  rw [hp] at hlt ⊢
  generalize v % (2 * 2 ^ (w - 1)) = n at hlt ⊢
  generalize 2 ^ (w - 1) = p at hlt ⊢
  split <;> split <;> omega

theorem cast_wrapW (w : Nat) (v : Int) : (wrapW w v : Int) = v % 2 ^ w
    := Int.toNat_of_nonneg (Int.emod_nonneg _ (by positivity))

/-- Reading back the low bits of an integer. -/
theorem sNat_wrapW {w : Nat} (hw : 1 ≤ w) (v : Int) : sNat w (wrapW w v) = v.bmod (2 ^ w) := by
  rw [sNat_eq_bmod hw, cast_wrapW]
  exact_mod_cast Int.emod_bmod v (2 ^ w)

/-- An integer of w bits. -/
def FitsW (w : Nat) (v : Int) : Prop := -(2 ^ (w - 1)) ≤ v ∧ v < 2 ^ (w - 1)

theorem FitsW.bmod_eq {w : Nat} {v : Int} (hw : 1 ≤ w) (h : FitsW w v) : v.bmod (2 ^ w) = v := by
  have hp : (2 : Nat) ^ w = 2 * 2 ^ (w - 1) := by rw [← pow_succ', Nat.sub_add_cancel hw]
  obtain ⟨hlo, hhi⟩ := h
  rw [hp]
  refine Int.bmod_eq_of_le ?_ ?_ <;> push_cast <;> omega

/-- Reading back an integer that fits. -/
theorem FitsW.sNat_wrapW {w : Nat} {v : Int} (hw : 1 ≤ w) (h : FitsW w v) : sNat w (wrapW w v) = v :=
  (Machine.sNat_wrapW hw v).trans (h.bmod_eq hw)

/-- What is read fits. -/
theorem sNat_fits {w : Nat} (hw : 1 ≤ w) (v : Nat) : FitsW w (sNat w v) := by
  have hp : (2 : Nat) ^ w = 2 * 2 ^ (w - 1) := by rw [← pow_succ', Nat.sub_add_cancel hw]
  have hpos : 0 < (2 : Nat) ^ w := by positivity
  have hlo := Int.le_bmod (x := v) hpos
  have hhi := Int.bmod_lt (x := v) hpos
  rw [sNat_eq_bmod hw]
  rw [hp] at hlo hhi ⊢
  push_cast at hlo hhi ⊢
  constructor <;> omega

theorem fitsW_intMin (w : Nat) : FitsW w (intMin w) :=
  ⟨le_rfl, lt_trans (neg_lt_zero.2 (by positivity)) (by positivity : (0 : Int) < 2 ^ (w - 1))⟩

theorem wrapW_intMin {w : Nat} (hw : 1 ≤ w) : wrapW w (-(2 ^ (w - 1))) = 2 ^ (w - 1) := by
  have hp : (2 : Int) ^ w = 2 * 2 ^ (w - 1) := by rw [← pow_succ', Nat.sub_add_cancel hw]
  have hpos : (0 : Int) < 2 ^ (w - 1) := by positivity
  have hcast : (wrapW w (-(2 ^ (w - 1))) : Int) = 2 ^ (w - 1) := by
    rw [cast_wrapW, hp, ← Int.add_emod_right, Int.emod_eq_of_lt] <;> omega
  exact_mod_cast hcast

/-- The wrapped value differs from the exact one by whole turns. -/
theorem sNat_wrapW_sub_emod {w : Nat} (hw : 1 ≤ w) (v : Int) : (sNat w (wrapW w v) - v) % 2 ^ w = 0 := by
  have hm : v.bmod (2 ^ w) % ((2 ^ w : Nat) : Int) = v % ((2 ^ w : Nat) : Int) := Int.bmod_emod
  rw [sNat_wrapW hw]
  exact Int.emod_eq_zero_of_dvd (by exact_mod_cast Int.ModEq.dvd hm.symm)

theorem wrapOF_flag (w : Nat) (v : Int) : (wrapOF w v).2 = 4 ↔ ¬FitsW w v := by
  have hiff : (v < intMin w ∨ v > intMax w) ↔ ¬FitsW w v := by
    simp only [intMin, intMax, FitsW]
    omega
  simp only [wrapOF, fOF, ← hiff]
  split <;> simp_all

/-- The clamped value is the nearest that fits. -/
theorem sNat_clampSAT {w : Nat} (hw : 1 ≤ w) (v : Int) :
    sNat w (clampSAT w v).1 = max (-(2 ^ (w - 1))) (min v (2 ^ (w - 1) - 1)) := by
  have hpos : (0 : Int) < 2 ^ (w - 1) := by positivity
  have hmin : FitsW w (intMin w) := fitsW_intMin w
  have hmax : FitsW w (intMax w) := ⟨by simp only [intMax]; omega, by simp only [intMax]; omega⟩
  by_cases hlo : v < intMin w
  · rw [clampSAT, if_pos hlo, hmin.sNat_wrapW hw]
    simp only [intMin] at *
    omega
  · rw [clampSAT, if_neg hlo]
    by_cases hhi : v > intMax w
    · rw [if_pos hhi, hmax.sNat_wrapW hw]
      simp only [intMax] at *
      omega
    · rw [if_neg hhi, FitsW.sNat_wrapW hw ⟨not_lt.1 hlo, by simp only [intMax] at hhi; omega⟩]
      simp only [intMin, intMax] at *
      omega

/-- A quotient toward zero fits, but for the least value over -1. -/
theorem FitsW.tdiv {w : Nat} {x y : Int} (hx : FitsW w x)
    (hno : ¬(x = -(2 ^ (w - 1)) ∧ y = -1)) : FitsW w (Int.tdiv x y) := by
  obtain ⟨hlo, hhi⟩ := hx
  have habs := Int.natAbs_tdiv_le_natAbs x y
  by_cases hmin : x = -(2 ^ (w - 1))
  · refine ⟨by omega, ?_⟩
    by_contra hge
    have heq : Int.tdiv x y = -x := by omega
    have hone : y.natAbs = 1 := by
      have hnat : x.natAbs / y.natAbs = x.natAbs := (Int.natAbs_tdiv x y).symm.trans (by rw [heq, Int.natAbs_neg])
      exact (Nat.div_eq_self.1 hnat).resolve_left (by have : (0 : Int) < 2 ^ (w - 1) := by positivity
                                                      omega)
    rcases Int.natAbs_eq_iff.1 hone with hy | hy
    · rw [hy] at heq
      have : (0 : Int) < 2 ^ (w - 1) := by positivity
      simp at heq
      omega
    · exact hno ⟨hmin, hy⟩
  · exact ⟨by omega, by omega⟩

theorem FitsW.div {w : Nat} {x : Int} (hx : FitsW w x) (n : Nat) : FitsW w (x / 2 ^ n) := by
  have hn : (1 : Int) ≤ 2 ^ n := one_le_pow₀ (by decide)
  have hw : (0 : Int) < 2 ^ (w - 1) := by positivity
  obtain ⟨hlo, hhi⟩ := hx
  exact ⟨(Int.le_ediv_iff_mul_le (by omega)).2 (by nlinarith), Int.ediv_lt_of_lt_mul (by omega) (by nlinarith)⟩

/-- Settles O14: every result is an exact integer, wrapped, clamped, or one that fits. -/
theorem integerVectorResults : Obligations.IntegerVectorResults := by
  unfold Obligations.IntegerVectorResults
  intro w hmem a b _ _ x y
  have hw : 1 ≤ w := by
    simp only [List.mem_cons, List.not_mem_nil, or_false] at hmem
    omega
  have hx : FitsW w x := sNat_fits hw a
  have hy : FitsW w y := sNat_fits hw b
  refine ⟨sNat_wrapW_sub_emod hw _, wrapOF_flag w _, sNat_clampSAT hw _, fun h0 => ?_, fun h0 hno => ?_, fun hmin => ?_, ?_,
    ?_, ?_, rfl⟩
  · exact if_pos h0
  · have hdiv : intOp 0x16 w a b = (wrapW w (Int.tdiv x y), 0) := (if_neg h0).trans (if_neg hno)
    rw [hdiv]
    exact ⟨(hx.tdiv hno).sNat_wrapW hw, rfl⟩
  · have hy0 : y ≠ 0 := by omega
    have hdiv : intOp 0x16 w a b = (wrapW w x, fOF) := (if_neg hy0).trans (if_pos hmin)
    rw [hdiv, hmin.1, wrapW_intMin hw]
    rfl
  · exact FitsW.sNat_wrapW hw (by rcases min_choice x y with h | h <;> rw [h] <;> assumption)
  · exact FitsW.sNat_wrapW hw (by rcases max_choice x y with h | h <;> rw [h] <;> assumption)
  · exact (hx.div _).sNat_wrapW hw

end Sys2Proof.Machine
end

section
/-! Reductions modulo a prime: Barrett's procedure, the lazy fold, and the results of the modular cells (R34, R80). -/

namespace Sys2Proof.Machine

/-- A remainder below three times the modulus is reduced by two conditional subtractions. -/
theorem sub_twice_eq_mod {q r : Nat} (h : r < 3 * q) :
    (let r1 := if q ≤ r then r - q else r; if q ≤ r1 then r1 - q else r1) = r % q := by
  have hmod (n : Nat) (hn : n * q ≤ r ∧ r < n * q + q) : r % q = r - n * q := by
    have hr : r = r - n * q + n * q := by omega
    rw [hr, Nat.add_mul_mod_self_right, Nat.mod_eq_of_lt (by omega), Nat.add_sub_cancel]
  dsimp only
  by_cases h1 : q ≤ r
  · by_cases h2 : q ≤ r - q
    · rw [if_pos h1, if_pos h2, hmod 2 (by omega)]
      omega
    · rw [if_pos h1, if_neg h2, hmod 1 (by omega)]
      omega
  · rw [if_neg h1, if_neg h1, hmod 0 (by omega)]
    omega

/-- Barrett's quotient is at most two below the exact one: p is 2^(k-1), a the high part of x, m the entry's MU. -/
theorem barrett_quotient {p q x a m t : Nat} (hp : 0 < p) (hlo : p ≤ q) (hx : x < 4 * p * p) (ha : a = x / p)
    (hm : m = 4 * p * p / q) (ht : t = a * m / (4 * p)) : t * q ≤ x ∧ x < t * q + 3 * q := by
  have hap : a * p ≤ x := ha ▸ Nat.div_mul_le_self x p
  have hxa : x < a * p + p  := ha ▸ Nat.lt_div_mul_add hp
  have hmq : m * q ≤ 4 * p * p := hm ▸ Nat.div_mul_le_self ..
  have hqm : 4 * p * p < m * q + q  := hm ▸ Nat.lt_div_mul_add (by omega)
  have htm : t * (4 * p) ≤ a * m := ht ▸ Nat.div_mul_le_self ..
  have hmt : a * m < t * (4 * p) + 4 * p  := ht ▸ Nat.lt_div_mul_add (by omega)
  have ha4 : a < 4 * p := by
    rw [ha]
    exact Nat.div_lt_of_lt_mul (by linarith)
  constructor
  · have h4 : 4 * p * (t * q) ≤ 4 * p * (a * p) := by
      calc 4 * p * (t * q) = t * (4 * p) * q := by ring
        _ ≤ a * m * q := Nat.mul_le_mul_right q htm
        _ = a * (m * q) := by ring
        _ ≤ a * (4 * p * p) := Nat.mul_le_mul_left a hmq
        _ = 4 * p * (a * p) := by ring
    exact (Nat.le_of_mul_le_mul_left h4 (by omega)).trans hap
  · have h4 : 4 * p * x < 4 * p * (t * q + 3 * q) := by
      calc 4 * p * x < 4 * p * (a * p + p) := Nat.mul_lt_mul_of_pos_left hxa (by omega)
        _ = a * (4 * p * p) + 4 * p * p := by ring
        _ ≤ a * (m * q + q) + 4 * p * q := Nat.add_le_add (Nat.mul_le_mul_left a hqm.le) (Nat.mul_le_mul_left _ hlo)
        _ = a * m * q + a * q + 4 * p * q := by ring
        _ ≤ (t * (4 * p) + 4 * p) * q + 4 * p * q + 4 * p * q := by
          gcongr
        _ = 4 * p * (t * q + 3 * q) := by ring
    exact Nat.lt_of_mul_lt_mul_left h4

/-- Barrett's procedure is exact below 2^(2k), for the MU of R33. -/
theorem barrett_eq_mod {q k x : Nat} (hk : 1 ≤ k) (hlo : 2 ^ (k - 1) ≤ q) (hx : x < 2 ^ (2 * k)) :
    barrett k (2 ^ (2 * k) / q) q x = x % q := by
  obtain ⟨j, rfl⟩ : ∃ j, k = j + 1 := ⟨k - 1, by omega⟩
  have h2k : 2 ^ (2 * (j + 1)) = 4 * 2 ^ j * 2 ^ j := by ring
  have hk1 : 2 ^ (j + 1 + 1) = 4 * 2 ^ j := by ring
  rw [Nat.add_sub_cancel] at hlo
  rw [h2k] at hx
  simp only [barrett, h2k, hk1, Nat.add_sub_cancel]
  obtain ⟨hle, hlt⟩ := barrett_quotient (by positivity) hlo hx rfl rfl rfl
  generalize x / 2 ^ j * (4 * 2 ^ j * 2 ^ j / q) / (4 * 2 ^ j) = t at hle hlt
  rw [sub_twice_eq_mod (by omega)]
  conv_rhs => rw [show x = x - t * q + t * q by omega]
  rw [Nat.add_mul_mod_self_right]

theorem barrett_mul {q k a b : Nat} (hq : 2 ≤ q) (hlo : 2 ^ (k - 1) ≤ q) (hhi : q < 2 ^ k) (ha : a < q) (hb : b < q) :
    barrett k (2 ^ (2 * k) / q) q (a * b) = a * b % q := by
  have hk : 1 ≤ k := by
    by_contra h0
    have hz : k = 0 := by omega
    rw [hz] at hhi
    omega
  refine barrett_eq_mod hk hlo ?_
  rw [two_mul, pow_add]
  exact Nat.mul_lt_mul'' (ha.trans hhi) (hb.trans hhi)

/-- The fold by 2^64 mod q is exact. -/
theorem reduceLazy_eq_mod (q v : Nat) : reduceLazy (2 ^ 64 % q) q v = v % q := by
  conv_rhs => rw [← Nat.div_add_mod v (2 ^ 64)]
  simp only [reduceLazy, Nat.add_mod, Nat.mul_mod, Nat.mod_mod, Nat.mul_comm]

theorem subMod_add {q a b : Nat} (ha : a < q) (hb : b < q) : (subMod q a b + b) % q = a := by
  rw [subMod, Nat.mod_add_mod, Nat.mod_eq_of_lt hb, Nat.sub_add_cancel (by omega), Nat.add_mod_right, Nat.mod_eq_of_lt ha]

theorem negMod_add {q a : Nat} (ha : a < q) : (negMod q a + a) % q = 0 := by
  rw [negMod, Nat.mod_add_mod, Nat.mod_eq_of_lt ha, Nat.sub_add_cancel ha.le, Nat.mod_self]

theorem cast_intMod {q : Nat} (hq : 0 < q) (v : Int) : (intMod q v : Int) = v % q :=
  Int.toNat_of_nonneg (Int.emod_nonneg _ (by omega))

/-- Settles O11. -/
theorem cellResultsAreResidues : Obligations.CellResultsAreResidues := by
  unfold Obligations.CellResultsAreResidues
  intro e kk c a b hq hlo hhi hmu ha hb hc
  have hpos : 0 < e.q := by omega
  refine ⟨rfl, rfl, subMod_add ha hb, Nat.mod_lt _ hpos, negMod_add ha, Nat.mod_lt _ hpos, cast_intMod hpos _, ?_, ?_⟩
  · simpa only [cellWord, hmu] using barrett_mul hq hlo hhi ha hb
  · simpa only [cellWord, hmu] using barrett_mul hq hlo hhi ha hc

/-- Settles O13: an entry of int32 holds the clamped sum. -/
theorem immaSaturates : Obligations.ImmaSaturates := by
  unfold Obligations.ImmaSaturates
  intro a b e _ _ v
  have hread (u : Int) (hu : FitsW 32 u) :
      accInt ({ e with int32 := true, value := BitVec.ofNat 72 (wrapW 32 u) } : Acc) = u := by
    have hlt : wrapW 32 u < 2 ^ 32 := by
      have := Int.emod_lt_of_pos u (show (0 : Int) < 2 ^ 32 by decide)
      have := cast_wrapW 32 u
      omega
    simp only [accInt, BitVec.toNat_ofNat]
    rw [Nat.mod_mod_of_dvd _ (by decide), Nat.mod_eq_of_lt hlt]
    exact hu.sNat_wrapW (by decide)
  have hclamp : immaAdd a b e = ({ e with int32 := true, value := BitVec.ofNat 72 (wrapW 32 (sat32Flag v).1) },
    (sat32Flag v).2) := rfl
  refine ⟨fun ⟨hlo, hhi⟩ => ?_, fun hhi => ?_, fun hlo => ?_⟩
  · have hs : sat32Flag v = (v, 0) := (if_neg (by omega)).trans (if_neg (by omega))
    rw [hclamp, hs]
    exact ⟨hread v ⟨hlo, hhi⟩, rfl⟩
  · have hs : sat32Flag v = (2 ^ 31 - 1, fSAT) := (if_neg (by omega)).trans (if_pos (by omega))
    rw [hclamp, hs]
    exact ⟨hread _ ⟨by decide, by decide⟩, rfl⟩
  · have hs : sat32Flag v = (-(2 ^ 31), fSAT) := if_pos hlo
    rw [hclamp, hs]
    exact ⟨hread _ ⟨by decide, by decide⟩, rfl⟩

end Sys2Proof.Machine
end

section
/-! One row of an element-wise cell operation (R79, R80). -/

namespace Sys2Proof.Machine

theorem firstBad_eq_none {q : Nat} {ws : List Nat} (h : ∀ w ∈ ws, w < q) : firstBad q ws = none := by
  simpa [firstBad, List.findIdx?_eq_none_iff] using h

theorem badOf_eq_none {q : Nat} {a b : Option (List Nat × Nat)} (ha : ∀ r ∈ a, ∀ w ∈ r.1, w < q)
    (hb : ∀ r ∈ b, ∀ w ∈ r.1, w < q) :
    badOf q a b = none := by
  have hone (r : Option (List Nat × Nat)) (hr : ∀ u ∈ r, ∀ w ∈ u.1, w < q) :
      (r.bind fun u => (firstBad q u.1).map fun i => (i, u.2)) = none := by
    cases r with
    | none => rfl
    | some u => simp [firstBad_eq_none (hr u rfl)]
  simp only [badOf, hone a ha, hone b hb]

theorem Lane.test_none {α : Type} (l : Lane) : l.test (none : Option α) = none := ite_self none

theorem zip_map_uncurry {α β γ : Type} (f : α → β → γ) (as : List α) (bs : List β) :
    (as.zip bs).map (fun w => f w.1 w.2) = List.zipWith f as bs := by
  rw [List.zip, List.map_zipWith]

/-- Settles O12: no test of R79 fails, so the row is stored. -/
theorem cellRowsAreElementwise : Obligations.CellRowsAreElementwise := by
  unfold Obligations.CellRowsAreElementwise
  intro k cs l n hok hdets hn hlo hhi hb hpa hpb hra hrb hext op a ws
  have hmod : n % cribRows k.c = n := Nat.mod_eq_of_lt hn
  have hseen (odd : Bool) (m : Nat) (us : List Nat) : seen k odd m us = us := by rw [seen, hdets, List.foldl_nil]
  have hcellB : cellB k cs l n n = (l, cribRow l.x (k.c.brow.toNat + n), rowState l.x (k.c.brow.toNat + n)) := by
    rw [cellB, hb]
    rfl
  by_cases htwo : cellReadsB cs.opc.toNat = true
  · have hne : cs.opc.toNat ≠ 1 := fun h1 => by simp [h1, cellReadsB] at htwo
    have hne' : cs.opc ≠ 1 := fun h1 => hne (by rw [h1]; rfl)
    have hwords : badOf (k.prime n).q (some (cribRow l.x (k.c.arow.toNat + n), (rowState l.x (k.c.arow.toNat + n)).pos))
        (some (cribRow l.x (k.c.brow.toNat + n), (rowState l.x (k.c.brow.toNat + n)).pos)) = none :=
      badOf_eq_none (by rintro _ ⟨⟩; exact hra hne') (by rintro _ ⟨⟩; exact hrb htwo)
    have hwindow : (if cs.opc.toNat = 3 then extensionBad k (k.prime n).q (rowState l.x (k.c.arow.toNat + n))
        (rowState l.x (k.c.brow.toNat + n)) (cribRow l.x (k.c.brow.toNat + n)) else none) = none := by
      split
      · next h3 => exact hext (BitVec.eq_of_toNat_eq h3)
      · rfl
    refine ⟨cellState k (limbAt k.ps k.c n) (k.prime n).q cs.opc.toNat (smallK cs.k) cs.const.toNat
      (rowState l.x (k.c.arow.toNat + n)) (rowState l.x (k.c.brow.toNat + n)), ?_⟩
    simp only [cellStep, hmod, hseen, htwo, if_true, hcellB, hok, Bool.not_true, Bool.false_eq_true, if_false, hpa, hpb htwo,
      Bool.or_self, Bool.and_false, hne, hwords, hwindow, Lane.test_none, zip_map_uncurry]
    simp only [ws, htwo, if_true]
    rfl
  · rw [Bool.not_eq_true] at htwo
    have hwords : (if cs.opc.toNat = 1 then none
        else badOf (k.prime n).q (some (cribRow l.x (k.c.arow.toNat + n),
          (rowState l.x (k.c.arow.toNat + n)).pos)) none) = none := by
      split
      · rfl
      · next h1 =>
        have hne : cs.opc ≠ 1 := fun h => h1 (by rw [h]; rfl)
        exact badOf_eq_none (by rintro _ ⟨⟩; exact hra hne) (by rintro _ ⟨⟩)
    have hne3 : cs.opc.toNat ≠ 3 := fun h3 => by simp [h3, cellReadsB] at htwo
    refine ⟨cellState k (limbAt k.ps k.c n) (k.prime n).q cs.opc.toNat (smallK cs.k) cs.const.toNat
      (rowState l.x (k.c.arow.toNat + n)) {}, ?_⟩
    simp only [cellStep, hmod, hseen, htwo, Bool.false_eq_true, if_false, hok, Bool.not_true, hpa, Bool.false_or,
      show poisoned ({} : RowSt) = false from rfl, Bool.and_false, hwords, hne3, Lane.test_none]
    simp only [ws, htwo, Bool.false_eq_true, if_false]
    rfl

end Sys2Proof.Machine
end

section
/-! The signed decomposition and its recomposition test, and the boxes of a test polynomial (R149, R150, R153). -/

namespace Sys2Proof.Machine

/-! ### Signed digits -/

/-- The value that digits spell in base b, the first the highest. -/
def spelled (b : Int) (ds : List Int) : Int := ds.foldl (fun a d => a * b + d) 0

theorem spelled_concat (b : Int) (ds : List Int) (d : Int) : spelled b (ds ++ [d]) = spelled b ds * b + d := by
  rw [spelled, List.foldl_concat]
  rfl

/-- The digit and the rest that one step of the decomposition leaves of x. -/
def lastDigit (b x : Nat) : Int := if b ≤ 2 * (x % b) then ((x % b : Nat) : Int) - b else ((x % b : Nat) : Int)

def restOf (b x : Nat) : Nat := if b ≤ 2 * (x % b) then x / b + 1 else x / b

theorem signedDigits_succ (b n x : Nat) (ds : List Int) :
    signedDigits b (n + 1) x ds = signedDigits b n (restOf b x) (lastDigit b x :: ds) := by
  rw [signedDigits, restOf, lastDigit]
  split <;> rfl

theorem restOf_lastDigit (b x : Nat) : (restOf b x : Int) * b + lastDigit b x = x := by
  have hx : ((x / b : Nat) : Int) * b + (x % b : Nat) = x := by exact_mod_cast Nat.div_add_mod' x b
  rw [restOf, lastDigit]
  split
  · push_cast at hx ⊢
    linarith
  · exact hx

theorem lastDigit_range {c : Nat} (hc : 0 < c) (x : Nat) : -(c : Int) ≤ lastDigit (2 * c) x ∧ lastDigit (2 * c) x < c := by
  have hlt : x % (2 * c) < 2 * c := Nat.mod_lt _ (by omega)
  rw [lastDigit]
  generalize x % (2 * c) = m at hlt ⊢
  split <;> push_cast <;> omega

/-- The digits found stand before those given. -/
theorem signedDigits_append (b n x : Nat) (ds : List Int) : signedDigits b n x ds = signedDigits b n x [] ++ ds := by
  induction n generalizing x ds with
  | zero => rfl
  | succ n ih => rw [signedDigits_succ, signedDigits_succ, ih, ih _ [_], List.append_assoc, List.singleton_append]

theorem signedDigits_concat (b n x : Nat) :
    signedDigits b (n + 1) x [] = signedDigits b n (restOf b x) [] ++ [lastDigit b x] := by
  rw [signedDigits_succ, signedDigits_append]

theorem length_signedDigits (b n x : Nat) : (signedDigits b n x []).length = n := by
  induction n generalizing x with
  | zero => rfl
  | succ n ih => rw [signedDigits_concat, List.length_append, ih, List.length_singleton]

theorem signedDigits_range {c : Nat} (hc : 0 < c) (n x : Nat) :
    ∀ d ∈ signedDigits (2 * c) n x [], -(c : Int) ≤ d ∧ d < c := by
  induction n generalizing x with
  | zero => exact fun d hd => absurd hd List.not_mem_nil
  | succ n ih =>
    intro d hd
    rw [signedDigits_concat, List.mem_append, List.mem_singleton] at hd
    rcases hd with hd | rfl
    · exact ih _ d hd
    · exact lastDigit_range hc x

/-- The digits of x spell it modulo the power of the base. -/
theorem spelled_signedDigits (b n x : Nat) : (b ^ n : Int) ∣ spelled b (signedDigits b n x []) - x := by
  induction n generalizing x with
  | zero => exact (pow_zero (b : Int)).symm ▸ one_dvd _
  | succ n ih =>
    obtain ⟨c, hc⟩ := ih (restOf b x)
    refine ⟨c, ?_⟩
    rw [signedDigits_concat, spelled_concat, ← restOf_lastDigit b x, pow_succ]
    linear_combination (b : Int) * hc

/-! ### The recomposition -/

/-- b^(d+1) times a gadget element is q, up to half of b^(d+1). -/
theorem gadget_near (q b d : Nat) (hb : 0 < b) :
    2 * |(gadget q b d : Int) * b ^ (d + 1) - q| ≤ b ^ (d + 1) := by
  have hpos : 0 < b ^ (d + 1) := by positivity
  have hle : gadget q b d * (2 * b ^ (d + 1)) ≤ 2 * q + b ^ (d + 1) := Nat.div_mul_le_self ..
  have hlt : 2 * q + b ^ (d + 1) < gadget q b d * (2 * b ^ (d + 1)) + 2 * b ^ (d + 1) := Nat.lt_div_mul_add (by omega)
  zify at hle hlt
  have hmul : (gadget q b d : Int) * (2 * b ^ (d + 1)) = 2 * (gadget q b d * b ^ (d + 1)) := by ring
  rw [hmul] at hle hlt
  rcases abs_cases ((gadget q b d : Int) * b ^ (d + 1) - q) with h | h <;> omega

theorem recompose_concat (q b : Nat) (ds : List Int) (d : Int) :
    recompose q b (ds ++ [d]) = recompose q b ds + d * gadget q b ds.length := by
  simp [recompose, List.zipIdx_append]

/-- Digits recompose to q times the value they spell, up to a quarter of their number times the base. -/
theorem recompose_near {c : Nat} (hc : 0 < c) (q : Nat) (ds : List Int) (hds : ∀ d ∈ ds, -(c : Int) ≤ d ∧ d < c) :
    2 * |recompose q (2 * c) ds * (2 * c) ^ ds.length - q * spelled (2 * c) ds| ≤ ds.length * c * (2 * c) ^ ds.length := by
  induction ds using List.reverseRecOn with
  | nil => simp [recompose, spelled]
  | append_singleton ds d ih =>
    have ih := ih fun e he => hds e (List.mem_append_left _ he)
    obtain ⟨hlo, hhi⟩ := hds d (List.mem_append_right _ (List.mem_singleton_self d))
    have hd : |d| ≤ c := abs_le.2 ⟨hlo, hhi.le⟩
    have hg := gadget_near q (2 * c) ds.length (by omega)
    rw [recompose_concat, spelled_concat, List.length_append, List.length_singleton]
    push_cast at hg ⊢
    generalize hB : (2 * c : Int) = B at *
    have hBpos : 0 ≤ B := by omega
    generalize spelled B ds = v at *
    generalize recompose q (2 * c) ds = u at *
    generalize (gadget q (2 * c) ds.length : Int) = g at *
    generalize ds.length = n at *
    have hsplit : (u + d * g) * B ^ (n + 1) - q * (v * B + d) = (u * B ^ n - q * v) * B + d * (g * B ^ (n + 1) - q) := by ring
    rw [hsplit]
    calc 2 * |(u * B ^ n - q * v) * B + d * (g * B ^ (n + 1) - q)|
        ≤ 2 * (|(u * B ^ n - q * v) * B| + |d * (g * B ^ (n + 1) - q)|) := by gcongr; exact abs_add_le ..
      _ = 2 * |u * B ^ n - q * v| * B + |d| * (2 * |g * B ^ (n + 1) - q|) := by
        rw [abs_mul, abs_mul, abs_of_nonneg hBpos]
        ring
      _ ≤ n * c * B ^ n * B + c * B ^ (n + 1) := by gcongr
      _ = (n + 1) * c * B ^ (n + 1) := by ring

/-- Switching x from modulus q to r keeps its place, up to half a unit, modulo r. -/
theorem msSwitch_near {q r x : Nat} (hq : 0 < q) : ∃ k : Int, 2 * |(q : Int) * (msSwitch q r x + r * k) - x * r| ≤ q := by
  have hle : (x * r + q / 2) / q * q ≤ x * r + q / 2 := Nat.div_mul_le_self ..
  have hlt : x * r + q / 2 < (x * r + q / 2) / q * q + q := Nat.lt_div_mul_add hq
  refine ⟨((x * r + q / 2) / q / r : Nat), ?_⟩
  have hm : (msSwitch q r x : Int) + r * ((x * r + q / 2) / q / r : Nat) = ((x * r + q / 2) / q : Nat) := by
    rw [msSwitch]
    exact_mod_cast Nat.mod_add_div ..
  rw [hm]
  generalize (x * r + q / 2) / q = y at hle hlt
  generalize hyq : y * q = yq at hle hlt
  generalize hxr : x * r = xr at hle hlt
  have hy : (q : Int) * y = yq := by rw [mul_comm]; exact_mod_cast hyq
  have hx : (x : Int) * r = xr := by exact_mod_cast hxr
  rw [hy, hx]
  rcases abs_cases ((yq : Int) - xr) with h | h <;> omega

/-- The distance of a value from 0 modulo q is no more than that of any value congruent to it. -/
theorem intMod_distance {q : Nat} (hq : 0 < q) (v k : Int) :
    ((min (intMod q v) (q - intMod q v) : Nat) : Int) ≤ |v - q * k| := by
  have hcast := cast_intMod hq v
  have hlo := Int.emod_nonneg v (b := q) (by omega)
  have hhi := Int.emod_lt_of_pos v (b := q) (by omega)
  have hv := Int.mul_ediv_add_emod v q
  rw [← hcast] at hlo hhi hv
  generalize intMod q v = r at *
  obtain ⟨j, hj⟩ : ∃ j, v - q * k = r + q * j := ⟨v / q - k, by linear_combination -hv⟩
  rw [hj]
  rcases lt_or_ge j 0 with hneg | hpos
  · have : (q : Int) * j ≤ -q := by nlinarith
    rw [abs_of_neg (by omega)]
    omega
  · have : 0 ≤ (q : Int) * j := by positivity
    rw [abs_of_nonneg (by omega)]
    omega

/-- The test of R150 passes on the digits of a value. -/
theorem recomposeOk_decompose {q c n x : Nat} (hq : 0 < q) (hc : 0 < c) :
    recomposeOk q (2 * c) n x (decompose q (2 * c) n x) = true := by
  obtain ⟨j, hj⟩ := spelled_signedDigits (2 * c) n (msSwitch q ((2 * c) ^ n) x)
  obtain ⟨k, hk⟩ := msSwitch_near (q := q) (r := (2 * c) ^ n) (x := x) hq
  have hnear := recompose_near hc q _ (signedDigits_range hc n (msSwitch q ((2 * c) ^ n) x))
  rw [length_signedDigits] at hnear
  refine decide_eq_true ?_
  rw [decompose]
  generalize signedDigits (2 * c) n (msSwitch q ((2 * c) ^ n) x) [] = ds at *
  have hdist := intMod_distance hq (recompose q (2 * c) ds - x) (j - k)
  zify
  push_cast at hj hk hnear hdist ⊢
  generalize hB : ((2 * c : Int)) ^ n = B at *
  have hBpos : 0 ≤ B := hB ▸ by positivity
  have hsplit : B * (recompose q (2 * c) ds - x - q * (j - k)) =
      (recompose q (2 * c) ds * B - q * spelled (2 * c) ds) + (q * (msSwitch q ((2 * c) ^ n) x + B * k) - x * B) := by
    linear_combination (q : Int) * hj
  calc _ ≤ 4 * B * |recompose q (2 * c) ds - x - q * (j - k)| := by gcongr
    _ = 4 * |B * (recompose q (2 * c) ds - x - q * (j - k))| := by rw [abs_mul, abs_of_nonneg hBpos]; ring
    _ ≤ 4 * (|recompose q (2 * c) ds * B - q * spelled (2 * c) ds| + |q * (msSwitch q ((2 * c) ^ n) x + B * k) - x * B|) := by
      rw [hsplit]
      gcongr
      exact abs_add_le ..
    _ ≤ 2 * (n * c * B) + 2 * q := by linarith
    _ = 2 * q + n * (2 * c) ^ (n + 1) := by rw [pow_succ, hB]; ring

/-! ### The boxes of a test polynomial -/

/-- The position of a phase below 2n, after the turn. -/
theorem turn_position {n i x : Nat} (hx : x < 2 * n) (hi : i < 2 * n) :
    (i + 2 * n - minusExp n x % (2 * n)) % (2 * n) = (i + x) % (2 * n) := by
  rw [minusExp, Nat.mod_eq_of_lt hx]
  rcases Nat.eq_zero_or_pos x with rfl | hpos
  · rw [Nat.sub_zero, Nat.mod_self, Nat.sub_zero, Nat.add_mod_right, Nat.add_zero]
  · rw [Nat.mod_eq_of_lt (show 2 * n - x < 2 * n by omega), show i + 2 * n - (2 * n - x) = i + x by omega]

/-- Every word of box m of a table's slot u is entry m of table u: w is the box width, s the slots, g the words of a slot. -/
theorem testWord_box {q e t v : Nat} {entry : Nat → Nat → Nat} {g u m r : Nat} (hw : boxWidth (2 ^ e) t = g * tableSlots v)
    (hu : u < tableSlots v) (hr : r < g) :
    testWord q (2 ^ e) t v entry (m * (g * tableSlots v) + (u * g + r)) = entry u m % q := by
  have hg : 0 < g := by omega
  have hs : 0 < tableSlots v := by omega
  have hin : u * g + r < g * tableSlots v := by nlinarith
  have hslot : (u * g + r) * tableSlots v / (g * tableSlots v) = u := by
    rw [Nat.mul_div_mul_right _ _ hs, mul_comm, Nat.mul_add_div hg, Nat.div_eq_of_lt hr, Nat.add_zero]
  simp only [testWord, hw]
  rw [mul_comm m, Nat.mul_add_mod, Nat.mod_eq_of_lt hin, hslot, Nat.mul_add_div (by positivity), Nat.div_eq_of_lt hin,
    Nat.add_zero]

theorem tableSlots_pow (v : Nat) : ∃ a ≤ 2, tableSlots v = 2 ^ a := by
  simp only [tableSlots]
  split
  · exact ⟨0, by decide, rfl⟩
  · split
    · exact ⟨1, by decide, rfl⟩
    · exact ⟨2, by decide, rfl⟩

theorem lt_tableSlots {u v : Nat} (hu : u < v) (hv : v ≤ 4) : u < tableSlots v := by
  simp only [tableSlots]
  split
  · omega
  · split <;> omega

/-- A table that fits has boxes of an even number of words for each slot. -/
theorem tablesFit_width {e t v : Nat} (h : tablesFit (2 ^ e) t v = true) :
    ∃ g, boxWidth (2 ^ e) t = 2 * g * tableSlots v ∧ 2 ^ e = 2 ^ t * boxWidth (2 ^ e) t := by
  simp only [tablesFit, decide_eq_true_eq] at h
  obtain ⟨-, -, -, -, hle⟩ := h
  obtain ⟨a, -, ha⟩ := tableSlots_pow v
  rw [ha, ← pow_succ', Nat.le_div_iff_mul_le (by positivity), ← pow_add] at hle
  have hexp : t + (a + 1) ≤ e := (Nat.pow_le_pow_iff_right (by decide)).1 hle
  have hwidth : boxWidth (2 ^ e) t = 2 ^ (e - t) := Nat.pow_div (by omega) (by decide)
  refine ⟨2 ^ (e - t - (a + 1)), ?_, ?_⟩
  · rw [hwidth, ha, mul_right_comm, ← pow_succ', mul_comm, ← pow_add]
    congr 1
    omega
  · rw [hwidth, ← pow_add]
    congr 1
    omega

/-- A phase of m boxes shows entry m of its table, or past the last box its negation. -/
theorem turned_testWord {q e t v u m d : Nat} {entry : Nat → Nat → Nat} (hfit : tablesFit (2 ^ e) t v = true)
    (hu : u < v) (hm : m < 2 ^ (t + 1)) (hd : d < 2 * boxOffset (2 ^ e) t v) :
    turnWord q (2 ^ e) (minusExp (2 ^ e) (m * boxWidth (2 ^ e) t + d)) (testWord q (2 ^ e) t v entry)
        (u * boxWidth (2 ^ e) t / tableSlots v) =
      if m < 2 ^ t then entry u m % q else (q - entry u (m - 2 ^ t) % q) % q := by
  have hv : v ≤ 4 := by simp only [tablesFit, decide_eq_true_eq] at hfit; exact hfit.2.1
  have hslot : u < tableSlots v := lt_tableSlots hu hv
  obtain ⟨g, hw, hn⟩ := tablesFit_width hfit
  have hslots : 0 < tableSlots v := by omega
  have hoffset : boxOffset (2 ^ e) t v = g := by
    rw [boxOffset, hw, mul_right_comm, Nat.mul_div_cancel_left _ (by positivity)]
  have hfirst : u * boxWidth (2 ^ e) t / tableSlots v = u * (2 * g) := by
    rw [hw, ← mul_assoc, Nat.mul_div_cancel _ hslots]
  rw [hoffset] at hd
  have hin : u * (2 * g) + d < boxWidth (2 ^ e) t := by
    rw [hw]
    nlinarith
  have hphase : m * boxWidth (2 ^ e) t + boxWidth (2 ^ e) t ≤ 2 * 2 ^ e := by
    calc _ = (m + 1) * boxWidth (2 ^ e) t := (Nat.succ_mul ..).symm
      _ ≤ 2 ^ (t + 1) * boxWidth (2 ^ e) t := Nat.mul_le_mul_right _ hm
      _ = 2 * 2 ^ e := by rw [pow_succ', mul_assoc, ← hn]
  have hplace : u * (2 * g) + (m * boxWidth (2 ^ e) t + d) = m * (2 * g * tableSlots v) + (u * (2 * g) + d) := by
    rw [← hw]
    omega
  rw [hfirst, turnWord, turn_position (by omega) (by omega), Nat.mod_eq_of_lt (by omega)]
  by_cases hlow : m < 2 ^ t
  · have hbelow : m * boxWidth (2 ^ e) t + boxWidth (2 ^ e) t ≤ 2 ^ e := by
      calc _ = (m + 1) * boxWidth (2 ^ e) t := (Nat.succ_mul ..).symm
        _ ≤ 2 ^ t * boxWidth (2 ^ e) t := Nat.mul_le_mul_right _ hlow
        _ = 2 ^ e := hn.symm
    rw [if_pos hlow, if_pos (by omega), hplace, testWord_box hw hslot hd]
  · obtain ⟨b, rfl⟩ : ∃ b, m = 2 ^ t + b := ⟨m - 2 ^ t, by omega⟩
    have hadd : (2 ^ t + b) * boxWidth (2 ^ e) t = 2 ^ e + b * boxWidth (2 ^ e) t := by rw [add_mul, ← hn]
    have hplace' : u * (2 * g) + ((2 ^ t + b) * boxWidth (2 ^ e) t + d) - 2 ^ e =
        b * (2 * g * tableSlots v) + (u * (2 * g) + d) := by
      rw [← hw, hadd]
      omega
    rw [if_neg hlow, if_neg (by omega), hplace', testWord_box hw hslot hd, negMod, Nat.mod_mod, Nat.add_sub_cancel_left]

/-- Settles O10. -/
theorem reductionsAreExact : Obligations.ReductionsAreExact := by
  unfold Obligations.ReductionsAreExact
  refine ⟨fun q k hq hlo hhi => ⟨fun a b => barrett_mul hq hlo hhi, fun v _ => reduceLazy_eq_mod q v⟩, ?_, ?_,
    fun q e t v u m d entry _ => turned_testWord⟩
  · intro β n x hβ _ ds
    obtain ⟨b, rfl⟩ : ∃ b, β = b + 1 := ⟨β - 1, by omega⟩
    have hbase : 2 ^ (b + 1) = 2 * 2 ^ b := pow_succ' 2 b
    refine ⟨length_signedDigits .., fun d hd => ?_, ?_⟩
    · have hr := signedDigits_range (c := 2 ^ b) (by positivity) n x d (hbase ▸ hd)
      exact_mod_cast hr
    · rw [pow_mul]
      exact Int.emod_eq_zero_of_dvd (by exact_mod_cast spelled_signedDigits (2 ^ (b + 1)) n x)
  · intro q β n x hβ _ hx
    obtain ⟨b, rfl⟩ : ∃ b, β = b + 1 := ⟨β - 1, by omega⟩
    rw [pow_succ']
    exact recomposeOk_decompose (by omega) (by positivity)

end Sys2Proof.Machine
end

section
/-! The arithmetic, the loops and the queues of the control core: a word that issues is its own function of the array (R185,
R189, R537). -/

namespace Sys2Proof.Machine

open Sys2Proof.Stated Laws.Places

/-- A word of the plain form that changes its core by g. -/
theorem coreSets_of {mk : CcWord → Instr} {ok : CcWord → Bool} {g : CcWord → Core → Core}
    (harr : ∀ c, ok c = true → c.arr.wf = true)
    (hexec : ∀ c s, exec (mk c) s = runCore (ok c) c s (s.coreAlu c (g c))) : CoreSets mk ok g := by
  intro s c r hok hg
  rw [hexec, State.coreAlu, runCore_of_goes (harr c hok) hok hg]

/-- A word that changes its array by f, which agrees with g on the array it finds. -/
theorem coreDoes_of {mk : CcWord → Instr} {ok : CcWord → Bool} {P : State → CcWord → SlotRun → Prop}
    {g : State → CcWord → Arr → Arr} (f : State → CcWord → Bool → Arr → Arr) (harr : ∀ c, ok c = true → c.arr.wf = true)
    (hexec : ∀ c s, exec (mk c) s = runCore (ok c) c s (s.coreStep c fun _ p t => t.modArr c.arr (f t c p)))
    (hf : ∀ s c r, P s c r → f s c (predTrue (coreOf s c) c) (s.arr c.arr) = g s c (s.arr c.arr)) : CoreDoes mk ok P g := by
  intro s c r hok hg hP
  rw [hexec, runCore_of_goes (harr c hok) hok hg, State.modArr, hf s c r hP]
  rfl

/-- Settles O16: each instruction is the function of its row. -/
theorem coreArithmeticAndCompares : Obligations.CoreArithmeticAndCompares := by
  unfold Obligations.CoreArithmeticAndCompares
  constructor
  · intro p hp
    simp only [aluOps, List.mem_cons, List.not_mem_nil, or_false] at hp
    rcases hp with rfl | rfl | rfl | rfl | rfl | rfl | rfl | rfl | rfl | rfl <;>
      exact coreSets_of (fun _ => binOk_arr) fun _ _ => rfl
  · intro p hp
    simp only [cmpOps, List.mem_cons, List.not_mem_nil, or_false] at hp
    rcases hp with rfl | rfl | rfl <;> exact coreSets_of (fun _ => cmpOk_arr) fun _ _ => rfl

theorem setCoreReg_zero (k : Core) (v : DWord) : setCoreReg k 0 v = k := rfl

theorem coreReg_setCoreReg_self {k : Core} {i : Nat} (hi : i ≠ 0) (h : KeysRise k.regs) (v : DWord) :
    coreReg (setCoreReg k i v) i = v := by
  simp only [coreReg, setCoreReg, hi, if_false]
  exact mget_mset_self 0 h i v

theorem coreReg_setCoreReg_of_ne {k : Core} {i j : Nat} (h : i ≠ j) (v : DWord) :
    coreReg (setCoreReg k i v) j = coreReg k j := by
  simp only [coreReg, setCoreReg]
  split
  · rfl
  · split
    · rfl
    · exact mget_mset_of_ne 0 k.regs i j v h.symm

/-- Settles O17. -/
theorem coreMovesAndProductsSetRd : Obligations.CoreMovesAndProductsSetRd := by
  unfold Obligations.CoreMovesAndProductsSetRd
  refine ⟨coreSets_of (fun _ => fields_arr) fun _ _ => rfl, coreSets_of (fun _ => fields_arr) fun _ _ => rfl,
    coreSets_of (fun _ => fields_arr) fun _ _ => rfl, coreSets_of (fun _ => fields_arr) fun _ _ => rfl,
    fun k v => ⟨rfl, rfl⟩, fun k b => ⟨rfl, rfl⟩, fun k i j v hi => ⟨fun hwf => ?_, fun hij => ?_⟩⟩
  · exact coreReg_setCoreReg_self hi ((SMap.wf_iff ..).1 hwf).1 v
  · exact coreReg_setCoreReg_of_ne hij v

/-- What LOOP does to its array. -/
def loopOn (c : CcWord) (x : Arr) : Arr :=
  let k := x.core
  let n := if c.x = 0 then (coreReg k c.rs1.toNat).toNat else c.imm.toNat
  { x with core :=
      if n = 0 then { k with pc := afterEndl (x.istore.drop (k.base + k.pc + 1)) 0 (k.pc + 1) }
      else { k with loops := (k.pc + 1, n) :: k.loops, pc := k.pc + 1 } }

/-- What ENDL does to its core. -/
def endlOn (k : Core) : Core :=
  match k.loops with
  | (b, n) :: l => if 2 ≤ n then { k with loops := (b, n - 1) :: l, pc := b } else { k with loops := l, pc := k.pc + 1 }
  | [] => { k with pc := k.pc + 1 }

theorem exec_endl {s : State} {c : CcWord} {r : SlotRun} (hf : (c.plain && c.fields false false false false false) = true)
    (hg : CoreGoes s c r) : exec (.endl c) s = .next (s.setArr c.arr { s.arr c.arr with core := endlOn (coreOf s c) }) :=
  runCore_of_goes (fields_arr (andRight hf)) hf hg _

/-- Settles O18: the count of a loop is kept with its place, and its last pass closes it. -/
theorem coreLoopsCount : Obligations.CoreLoopsCount := by
  unfold Obligations.CoreLoopsCount
  refine ⟨fun s c r hf hg => runCore_of_goes (fields_arr (andRight hf)) hf hg _, ?_, ?_,
    fun s c r b n l hf hg hl => ⟨fun hn => ?_, fun hn => ?_⟩⟩
  · refine coreDoes_of (fun _ c _ => loopOn c) (fun c h => fields_arr (andRight h)) (fun _ _ => rfl) fun s c r hn => ?_
    simp only [coreOf] at hn
    simp only [loopOn, if_neg hn, coreOf]
  · refine coreDoes_of (fun _ c _ => loopOn c) (fun c h => fields_arr (andRight h)) (fun _ _ => rfl) fun s c r hn => ?_
    simp only [coreOf] at hn
    simp only [loopOn, if_pos hn]
  · have hend : endlOn (coreOf s c) = { coreOf s c with loops := (b, n - 1) :: l, pc := b } := by
      simp only [endlOn, hl, if_pos hn]
    rw [exec_endl hf hg, hend]
    rfl
  · have hend : endlOn (coreOf s c) = { coreOf s c with loops := l, pc := (coreOf s c).pc + 1 } := by
      simp only [endlOn, hl, if_neg hn.not_ge]
    rw [exec_endl hf hg, hend]
    rfl

/-- An array whose core goes on after a stall. -/
def unstalled (x : Arr) : Arr := { x with core := { x.core with stall := none } }

theorem stallRelease_aqFull {s : State} {a : ArrId} {e : DWord} (ecc : List (Nat × Bool))
    (h : (s.arr a).core.stall = some (.aqFull e)) : s.stallRelease a ecc = s.setArr a (pushAq (unstalled (s.arr a)) e) := by
  simp only [State.stallRelease, h]
  rfl

theorem stallRelease_tokens {s : State} {a : ArrId} {n : Nat} (ecc : List (Nat × Bool))
    (h : (s.arr a).core.stall = some (.tokens n)) : s.stallRelease a ecc = s.setArr a (takeTokens (unstalled (s.arr a)) n)
      := by
  simp only [State.stallRelease, h]
  rfl

theorem exec_ccStallRelease {s : State} {a : ReadRef} (h : a.arr.wf = true) :
    exec (.ccStallRelease a) s = .next (s.stallRelease a.arr a.ecc) := if_pos h

/-- Settles O19: pushes and token waits act, or stall, by the room or the tokens they find. -/
theorem coreQueuesFillAndStall : Obligations.CoreQueuesFillAndStall := by
  unfold Obligations.CoreQueuesFillAndStall
  refine ⟨?_, ?_, ?_, ?_, ?_, ?_, fun s a e ha hs hroom => ?_, fun s a n ha hs htok => ?_⟩
  · refine coreDoes_of (fun _ c p x => nextPc (pushAq x (if p then coreReg x.core c.rs1.toNat else 0)))
      (fun _ => fields_arr) (fun _ _ => rfl) fun s c r hroom => ?_
    simp only [pushAq, if_pos hroom]
  · refine coreDoes_of (fun _ c p x => nextPc (pushAq x (if p then coreReg x.core c.rs1.toNat else 0)))
      (fun _ => fields_arr) (fun _ _ => rfl) fun s c r hfull => ?_
    simp only [pushAq, if_neg (not_lt.2 hfull)]
  · refine coreDoes_of (fun _ c p x => nextPc (pushOq x (if p then (coreReg x.core c.rs1.toNat).extractLsb' 0 32 else 0)))
      (fun _ => fields_arr) (fun _ _ => rfl) fun s c r hroom => ?_
    simp only [pushOq, if_pos hroom]
  · refine coreDoes_of (fun _ c _ x => nextPc (takeTokens x c.imm.toNat))
      (fun _ h => fields_arr (andLeft h)) (fun _ _ => rfl) fun s c r htok => ?_
    simp only [takeTokens, if_pos htok]
  · refine coreDoes_of (fun _ c _ x => nextPc (takeTokens x c.imm.toNat))
      (fun _ h => fields_arr (andLeft h)) (fun _ _ => rfl) fun s c r htok => ?_
    simp only [takeTokens, if_neg (not_le.2 htok)]
  · refine coreDoes_of (fun s c _ x => nextPc
      (if c.imm.toNat ≤ s.releaseSlot then x else { x with core := { x.core with stall := some (.time c.imm.toNat) } }))
      (fun _ h => fields_arr (andLeft h)) (fun _ _ => rfl) fun s c r htime => ?_
    exact congrArg nextPc (if_pos htime)
  · rw [exec_ccStallRelease ha, stallRelease_aqFull _ hs, pushAq,
    if_pos (show (unstalled (s.arr a.arr)).aq.length < 32 from hroom)]
    rfl
  · rw [exec_ccStallRelease ha, stallRelease_tokens _ hs, takeTokens,
      if_pos (show n ≤ (unstalled (s.arr a.arr)).tokens from htok)]
    rfl

end Sys2Proof.Machine
end

section
/-! What the arrays hold after a change: a part of an array that every change leaves alone reads as before at every place. -/

namespace Sys2Proof.Machine

open Sys2Proof.Stated

/-- The array at a physical place. -/
def State.place (s : State) (k : Nat) : Arr := mget {} s.arrs k

/-- Where the contents of a logical array are kept. -/
def State.key (s : State) (a : ArrId) : Nat := slotKey a.die (s.pslot a)

/-- A part of an array that the settling of its sheaves does not reach. -/
def Settled {α : Type} (π : Arr → α) : Prop := ∀ x tr td hs, π { x with track := tr, touched := td, handles := hs } = π x

/-- From s to t every logical array stays at its place, and part π of every array reads as before. -/
structure SameArrs {α : Type} (π : Arr → α) (s t : State) : Prop where
  key : ∀ a, t.key a = s.key a
  rising : Rising t.arrs
  part : ∀ k, π (t.place k) = π (s.place k)

theorem State.place_modArr {s : State} (h : Rising s.arrs) (a : ArrId) (f : Arr → Arr) (k : Nat) :
    (s.modArr a f).place k = if k = s.key a then f (s.arr a) else s.place k := by
  split
  · next hk => exact hk ▸ mget_mset_self ({} : Arr) h _ _
  · next hk => exact mget_mset_of_ne ({} : Arr) s.arrs _ _ _ hk

theorem part_mget_map {α : Type} {π : Arr → α} {f : Arr → Arr} (hf : ∀ x, π (f x) = π x) (m : SMap Arr) (k : Nat) :
    π (mget {} (m.map fun e => (e.1, f e.2)) k) = π (mget {} m k) := by
  induction m with
  | nil => rfl
  | cons e m ih =>
    simp only [List.map_cons, mget]
    split
    · exact hf e.2
    · exact ih

/-- A die that is not at its defaults after a change keeps the places of its arrays when the change does. -/
theorem State.key_modDie {s : State} {d : Nat} {f : Die → Die} (hne : f (s.die d) ≠ {})
    (hslot : (f (s.die d)).slotMap = (s.die d).slotMap) (a : ArrId) : (s.modDie d f).key a = s.key a := by
  have hdie : ((s.modDie d f).die a.die).slotMap = (s.die a.die).slotMap := by
    by_cases ha : a.die = d
    · rw [ha]
      exact (congrArg Die.slotMap (mget_mset_self_of_ne ({} : Die) s.dies d _ hne)).trans hslot
    · exact congrArg Die.slotMap (State.die_setDie_of_ne s d a.die _ ha)
  exact congrArg (fun m : List Nat => slotKey a.die (m.getD a.arr a.arr)) hdie

namespace SameArrs

variable {α : Type} {π : Arr → α} {s t u : State}

theorem refl (h : Rising s.arrs) : SameArrs π s s := ⟨fun _ => rfl, h, fun _ => rfl⟩

theorem trans (h : SameArrs π s t) (g : SameArrs π t u) : SameArrs π s u :=
  ⟨fun a => (g.key a).trans (h.key a), g.rising, fun k => (g.part k).trans (h.part k)⟩

/-- Each array reads as before. -/
theorem arr (h : SameArrs π s t) (a : ArrId) : π (t.arr a) = π (s.arr a) :=
  (h.part (t.key a)).trans (congrArg (fun k => π (s.place k)) (h.key a))

/-- What follows leaves the arrays and their places alone. -/
theorem congr (h : SameArrs π s t) (harrs : u.arrs = t.arrs) (hkey : ∀ a, u.key a = t.key a) : SameArrs π s u :=
  ⟨fun a => (hkey a).trans (h.key a), harrs ▸ h.rising, fun k => (congrArg (fun m => π (mget {} m k)) harrs).trans (h.part k)⟩

/-- A change of the listed arrays that leaves the part alone. -/
theorem map {f : Arr → Arr} (h : SameArrs π s t) (hf : ∀ x, π (f x) = π x) (harrs : u.arrs = t.arrs.map fun e => (e.1, f e.2))
    (hdies : u.dies = t.dies) : SameArrs π s u := by
  refine ⟨fun a => ?_, harrs ▸ rising_map (fun _ => rfl) h.rising, fun k => (Eq.trans ?_ (h.part k))⟩
  · exact (congrArg (fun m => slotKey a.die ((mget {} m a.die : Die).slotMap.getD a.arr a.arr)) hdies).trans (h.key a)
  · rw [State.place, harrs]
    exact part_mget_map hf t.arrs k

/-- A change of one array that leaves the part alone. -/
theorem modArr (h : SameArrs π s t) (a : ArrId) {f : Arr → Arr} (hf : ∀ x, π (f x) = π x) : SameArrs π s (t.modArr a f) := by
  refine ⟨h.key, rising_mset h.rising, fun k => ?_⟩
  rw [State.place_modArr h.rising, ← h.part]
  split
  · next hk => exact (hf _).trans (congrArg (fun k => π (t.place k)) hk.symm)
  · rfl

theorem ite {p : Prop} [Decidable p] (h : SameArrs π s t) (g : SameArrs π s u) : SameArrs π s (if p then t else u) := by
  split
  · exact h
  · exact g

/-- A loop whose every turn leaves the part alone. -/
theorem foldl (h : SameArrs π s t) {β : Type} {f : State → β → State} (hf : ∀ u, SameArrs π s u → ∀ b, SameArrs π s (f u b))
    (l : List β) : SameArrs π s (l.foldl f t) :=
  List.foldlRecOn l f (motive := fun u => SameArrs π s u) h fun u hu b _ => hf u hu b

theorem eachPart (h : SameArrs π s t) (parts : List Part) (pair : Bool) {f : Nat → Part → Arr → Arr}
    (hf : ∀ i p x, π (f i p x) = π x) : SameArrs π s (t.eachPart parts pair f) := by
  refine h.foldl (fun u hu p => ?_) parts
  split
  · dsimp only
    split
    · exact (hu.modArr _ (hf _ _)).modArr _ (hf _ _)
    · exact hu.modArr _ (hf _ _)
  · exact hu

/-- The handles and tracked states of a sheaf settle, and nothing else. -/
theorem settleSheaf (h : SameArrs π s t) (hπ : Settled π) (a : ArrId) (key : Nat) :
    SameArrs π s (t.settleSheaf a key) := by
  simp only [State.settleSheaf]
  refine eachPart (ite ((h.eachPart _ _ ?_).eachPart _ _ ?_) (h.eachPart _ _ ?_)) _ _ ?_
  · exact fun _ _ x => hπ x _ x.touched x.handles
  · exact fun _ _ x => hπ x _ x.touched x.handles
  · exact fun _ _ x => hπ x _ x.touched x.handles
  · exact fun _ _ x => hπ x x.track x.touched _

theorem settleSheaves (h : SameArrs π s t) (hπ : Settled π) (a : ArrId) : SameArrs π s (t.settleSheaves a) := by
  simp only [State.settleSheaves]
  refine (h.foldl (fun u hu k => hu.settleSheaf hπ a k) _).modArr a ?_
  exact fun x => hπ x x.track [] x.handles

end SameArrs

theorem State.place_setArr {s : State} (h : Rising s.arrs) (a : ArrId) (x : Arr) (k : Nat) :
    (s.setArr a x).place k = if k = s.key a then x else s.place k :=
  s.place_modArr h a (fun _ => x) k

/-- What settles after a write leaves the loft as the write did. -/
theorem State.aside_sameLofts {s : State} (h : Rising s.arrs) (a : ArrId) (f : Arr → Arr) :
    SameArrs Arr.loft (s.setArr a (f { s.arr a with touched := [] })) (s.aside a f) := by
  have hset : Rising (s.setArr a (f { s.arr a with touched := [] })).arrs := rising_mset h
  have hsettled := (SameArrs.refl (π := Arr.loft) hset).settleSheaves (fun _ _ _ _ => rfl) a
  rw [State.aside]
  exact hsettled.modArr a (f := fun y => { y with touched := (s.arr a).touched }) fun _ => rfl

/-- A write aside changes the loft of its array alone. -/
theorem State.aside_loft {s : State} (h : Rising s.arrs) (a : ArrId) (f : Arr → Arr) :
    ((s.aside a f).arr a).loft = (f { s.arr a with touched := [] }).loft ∧
    ∀ b, s.key b ≠ s.key a → ((s.aside a f).arr b).loft = (s.arr b).loft := by
  have hs := aside_sameLofts h a f
  refine ⟨(hs.arr a).trans ?_, fun b hb => (hs.arr b).trans ?_⟩
  · exact congrArg Arr.loft (State.arr_setArr_self h a _)
  · exact congrArg Arr.loft (State.arr_setArr_of_ne s a b _ hb)

/-! ### Writes through a handle -/

/-- Two arrays with the same loft, written rows, crib and handles. -/
structure SameRows (x y : Arr) : Prop where
  loft : x.loft = y.loft
  written : x.written = y.written
  crib : x.crib = y.crib
  handles : x.handles = y.handles

namespace SameRows

variable {x y : Arr}

theorem openRow (h : SameRows x y) (r : Nat) : SameRows (openRow x r) (openRow y r) := by
  obtain ⟨hl, hw, hc, hh⟩ := h
  simp only [Machine.openRow, hw]
  split
  · exact ⟨hl, hw, hc, hh⟩
  · exact ⟨by simp only [hl], rfl, hc, hh⟩

theorem loftWrite (h : SameRows x y) (e : Handle) (off : Nat) (bs : List Byte) :
    SameRows (loftWrite x e off bs) (loftWrite y e off bs) := by
  have hopen (n : Nat) : SameRows
      (if e.slotScope then (List.range n).foldl (fun x i => Machine.openRow x ((e.target.toNat + off) / 1024 + i)) x else x)
      (if e.slotScope then (List.range n).foldl (fun x i => Machine.openRow x ((e.target.toNat + off) / 1024 + i)) y else y)
        := by
    split
    · induction n with
      | zero => exact h
      | succ n ih =>
        rw [List.range_succ, List.foldl_concat, List.foldl_concat]
        exact ih.openRow _
    · exact h
  obtain ⟨hl, hw, hc, hh⟩ := hopen (if bs.length = 0 then 0
    else (e.target.toNat + off + bs.length - 1) / 1024 - (e.target.toNat + off) / 1024 + 1)
  exact ⟨congrArg (Memory.write · _ bs) hl, hw, hc, hh⟩

/-- The tracked state of a row is no part of it. -/
theorem trackWrite (h : SameRows x y) (psets : List PSet) (i off : Nat) (st : RowSt) : SameRows
    (trackWrite psets x i off st) y := by
  simp only [Machine.trackWrite]
  split
  · exact ⟨h.loft, h.written, h.crib, h.handles⟩
  · exact h

theorem foldl_left {β : Type} {f : Arr → β → Arr} (hf : ∀ x y b, SameRows x y → SameRows (f x b) y) (l : List β)
    (h : SameRows x y) :
    SameRows (l.foldl f x) y :=
  List.foldlRecOn l f (motive := fun z => SameRows z y) h fun z hz b _ => hf z y b hz

theorem setPos (h : SameRows x y) (a len pos : Nat) : SameRows (setPos x a len pos) y := ⟨h.loft, h.written, h.crib,
    h.handles⟩

theorem handleOf (h : SameRows x y) (i : Nat) : handleOf x i = handleOf y i := by rw [Machine.handleOf, h.handles,
    Machine.handleOf]

theorem cribRow (h : SameRows x y) (r : Nat) : cribRow x r = cribRow y r := by rw [Machine.cribRow, h.crib, Machine.cribRow]

end SameRows

/-- Rows of untracked words are their writes. -/
theorem plainRows_sameRows {x y : Arr}
    (h : SameRows x y) (psets : List PSet) (i off stride : Nat) (rows : List (List Byte)) (pos : Nat) :
    SameRows (plainRows psets i off stride rows pos x)
      (rows.zipIdx.foldl (fun z r => loftWrite z (handleOf y i) (off + r.2 * stride) r.1) y) := by
  simp only [plainRows, h.handleOf]
  refine List.foldl_rel h fun r _ z w hz => ?_
  exact SameRows.foldl_left (fun z w _ hz => hz.trackWrite ..) _ ((hz.loftWrite ..).setPos ..)

theorem loftWrite_handles (x : Arr) (e : Handle) (off : Nat) (bs : List Byte) : (loftWrite x e off bs).handles = x.handles
    := by
  simp only [loftWrite]
  split
  · refine List.foldlRecOn _ _ (motive := fun z : Arr => z.handles = x.handles) rfl fun z hz k _ => ?_
    simp only [openRow]
    split
    · exact hz
    · exact hz
  · rfl

theorem seenXfer_of_no_dets {c : CcWord} (hd : c.dets = []) (i : Nat) (ws : List Nat) : seenXfer c i ws = ws := by
  rw [seenXfer, hd, List.foldl_nil]

/-- Rows of tracked words are their writes. -/
theorem xferOut_sameRows {x y : Arr} {c : CcWord} (hd : c.dets = []) (h : SameRows x y) (ps : List PSet) (i off row n : Nat) :
    SameRows (xferOut ps c i off row n x)
      ((List.range n).foldl (fun z k => loftWrite z (handleOf y i) (off + k * 1024) (ofWords (cribRow z (row + k)))) y) := by
  refine (List.foldl_rel (r := fun z w => SameRows z w ∧ w.handles = y.handles) ⟨h, rfl⟩ fun k _ z w ⟨hz, hw⟩ => ⟨?_, ?_⟩).1
  · have he : handleOf z i = handleOf y i := (hz.handleOf i).trans (by rw [handleOf, hw, handleOf])
    simp only [he, seenXfer_of_no_dets hd, hz.cribRow]
    exact ((hz.loftWrite ..).setPos ..).trackWrite ..
  · exact (loftWrite_handles ..).trans hw

end Sys2Proof.Machine
end

section
/-! The loads, the stores and the transfers of the control core (R188, R242, R249, R537). -/

namespace Sys2Proof.Machine

open Sys2Proof.Stated Laws.Places

theorem seenWord_of_no_dets {c : CcWord} (hd : c.dets = []) (v : Nat) : seenWord c v = v := by
  rw [seenWord, hd, List.foldl_nil]

/-! ### LD -/

section
variable {s : State} {c : CcWord} {r : SlotRun} (hf : (c.fields true true true true true && decide (c.rs2.toNat ≤ 7)) = true)
  (hg : CoreGoes s c r) (hp : predTrue (coreOf s c) c = true)
include hf hg hp

/-- A load that finds bytes and no error gives them to RD. -/
theorem exec_ld_ok (hd : c.dets = []) {bs : List Byte} {u : State} (hk : (handleOf (s.arr c.arr) c.x.toNat).kind ≠ 0)
    (ha : coreOff (coreOf s c) c % 2 ^ (c.rs2.toNat % 4) = 0)
    (hl : s.coreLoad c c.x.toNat (coreOff (coreOf s c) c) (2 ^ (c.rs2.toNat % 4)) = .ok (bs, u)) :
    exec (.ld c) s = .next (u.modArr c.arr fun x =>
      nextPc { x with bypass := x.bypass.filter (· != c.x.toNat)
                      core := setCoreReg x.core c.rd.toNat
                        (extTo64 (2 ^ (c.rs2.toNat % 4)) (c.rs2.getLsbD 2) (leNat bs)) }) := by
  simp only [coreOf] at ha hl
  refine (runCore_of_goes (fields_arr (andLeft hf)) hf hg _).trans ?_
  simp only [hp, Bool.not_true, Bool.false_eq_true, if_false, hk, ha, ne_eq, not_true_eq_false, hl, loftBad_of_no_dets hd,
    coreCorrected_of_no_dets hd, seenWord_of_no_dets hd]

/-- A load that its handle does not allow takes the fault of the first rule it breaks. -/
theorem exec_ld_fault {n : Nat}
    (hn : (handleOf (s.arr c.arr) c.x.toNat).kind = 0 ∧ n = 3 ∨
      (handleOf (s.arr c.arr) c.x.toNat).kind ≠ 0 ∧ coreOff (coreOf s c) c % 2 ^ (c.rs2.toNat % 4) ≠ 0 ∧ n = 2 ∨
      (handleOf (s.arr c.arr) c.x.toNat).kind ≠ 0 ∧ coreOff (coreOf s c) c % 2 ^ (c.rs2.toNat % 4) = 0 ∧
        s.coreLoad c c.x.toNat (coreOff (coreOf s c) c) (2 ^ (c.rs2.toNat % 4)) = .error n) :
    exec (.ld c) s =
      .next ((s.modArr c.arr fun x => { x with bypass := x.bypass.filter (· != c.x.toNat) }).coreFail c.arr 7 n) := by
  simp only [coreOf] at hn
  refine (runCore_of_goes (fields_arr (andLeft hf)) hf hg _).trans ?_
  rcases hn with ⟨hk, rfl⟩ | ⟨hk, ha, rfl⟩ | ⟨hk, ha, hl⟩
  · simp only [hp, Bool.not_true, Bool.false_eq_true, if_false, hk, if_true]
  · simp only [hp, Bool.not_true, Bool.false_eq_true, if_false, hk, ne_eq, ha, not_false_eq_true, if_true]
  · simp only [hp, Bool.not_true, Bool.false_eq_true, if_false, hk, ne_eq, ha, not_true_eq_false, hl]

end

theorem coreLoad_local {s : State} {c : CcWord} {off b : Nat} (hk : (handleOf (s.arr c.arr) c.x.toNat).kind = 1)
    (hin : off + b ≤ (handleOf (s.arr c.arr) c.x.toNat).length.toNat) :
    s.coreLoad c c.x.toNat off b = .ok (s.ownView c.arr (s.arr c.arr) (handleOf (s.arr c.arr) c.x.toNat) off b, s) := by
  have hno : ¬((s.arr c.arr).bypass.contains c.x.toNat ∧ 2 ≤ (handleOf (s.arr c.arr) c.x.toNat).kind.toNat) := by
    rw [hk]
    exact fun h => absurd h.2 (by decide)
  simp only [State.coreLoad, if_neg hno, if_pos (And.intro hk hin)]

theorem coreLoad_outside {s : State} {c : CcWord} {off b : Nat} (hk : (handleOf (s.arr c.arr) c.x.toNat).kind = 1)
    (hout : (handleOf (s.arr c.arr) c.x.toNat).length.toNat < off + b) : s.coreLoad c c.x.toNat off b = .error 1 := by
  have hno : ¬((s.arr c.arr).bypass.contains c.x.toNat ∧ 2 ≤ (handleOf (s.arr c.arr) c.x.toNat).kind.toNat) := by
    rw [hk]
    exact fun h => absurd h.2 (by decide)
  have hfault : readFault (handleOf (s.arr c.arr) c.x.toNat) off b = some 1 := by
    rw [readFault, hk, if_neg (by decide), if_pos hout]
  have hnot : ¬((handleOf (s.arr c.arr) c.x.toNat).kind = 1 ∧ off + b ≤ (handleOf (s.arr c.arr) c.x.toNat).length.toNat) :=
    fun h => absurd h.2 (by omega)
  simp only [State.coreLoad, if_neg hno, if_neg hnot, State.handleRead, hfault]

/-- An access that keeps to its own size lies in one line. -/
theorem one_line {off b : Nat} (hb : b ∣ 128) (hpos : 0 < b) (ha : off % b = 0) : (off + b - 1) / 128 = off / 128 := by
  obtain ⟨k, hk⟩ := hb
  obtain ⟨m, rfl⟩ := Nat.dvd_of_mod_eq_zero ha
  have h1 : (b * m + b - 1) / b = m := by
    rw [show b * m + b - 1 = b * m + (b - 1) by omega, Nat.mul_add_div hpos, Nat.div_eq_of_lt (by omega), Nat.add_zero]
  rw [hk, ← Nat.div_div_eq_div_mul, ← Nat.div_div_eq_div_mul, h1, Nat.mul_div_cancel_left _ hpos]

/-- The state after a hit of the cache: its line is the most recent, and the hit is counted. -/
def State.cacheHit (s : State) (a : ArrId) (l : CLine) : State :=
  s.setArr a { cachePut (s.arr a) l with cnt := { (s.arr a).cnt with hits := bump64 (s.arr a).cnt.hits } }

theorem coreLoad_hit {s : State} {c : CcWord} {off b : Nat} {l : CLine}
    (hk : 2 ≤ (handleOf (s.arr c.arr) c.x.toNat).kind.toNat) (hb : b ∣ 128) (hpos : 0 < b) (ha : off % b = 0)
    (hin : off + b ≤ (handleOf (s.arr c.arr) c.x.toNat).length.toNat) (hno : c.x.toNat ∉ (s.arr c.arr).bypass)
    (hsets : 0 < cacheSets (s.arr c.arr)) (hl : cacheLine (s.arr c.arr) c.x.toNat (off / 128 * 128) = some l) :
    s.coreLoad c c.x.toNat off b = .ok (slice l.bytes (off % 128) b, s.cacheHit c.arr l) := by
  have hk0 : (handleOf (s.arr c.arr) c.x.toNat).kind ≠ 0 := fun h => by rw [h] at hk; exact absurd hk (by decide)
  have hk1 : (handleOf (s.arr c.arr) c.x.toNat).kind ≠ 1 := fun h => by rw [h] at hk; exact absurd hk (by decide)
  have hfault : readFault (handleOf (s.arr c.arr) c.x.toNat) off b = none := by
    rw [readFault, if_neg hk0, if_neg hin.not_gt]
  have hline : s.windowLine c.arr c.refused c.x.toNat (off / 128 * 128) = .ok (l.bytes, s.cacheHit c.arr l) := by
    simp only [State.windowLine, if_neg hsets.ne', hl]
    rfl
  have hmiss : ¬((s.arr c.arr).bypass.contains c.x.toNat = true ∧ 2 ≤ (handleOf (s.arr c.arr) c.x.toNat).kind.toNat) :=
    fun h => hno (by simpa using h.1)
  have hone : (off + b - 1) / 128 - off / 128 + 1 = 1 := by rw [one_line hb hpos ha, Nat.sub_self]
  have hrest : off - off / 128 * 128 = off % 128 := by omega
  simp only [State.coreLoad, if_neg hmiss, if_neg fun h : _ ∧ _ => hk1 h.1, State.handleRead, hfault, if_neg hk1,
    State.windowRead,
    if_neg hpos.ne', hone, List.range_one, List.foldl_cons, List.foldl_nil, Nat.add_zero, hline, List.nil_append, hrest]

/-! ### ST -/

/-- A store of the core on its way to the core's own loft. -/
def coreStore (s : State) (c : CcWord) (r : SlotRun) : Arrival :=
  { handle := c.x.toNat, off := coreOff (coreOf s c) c, job := stampOf s r, core := some c.arr
    rows := [leBytes (2 ^ c.rs2.toNat) (coreReg (coreOf s c) c.rd.toNat).toNat] }

section
variable {s : State} {c : CcWord} {r : SlotRun} (hf : (c.fields true true true true true && decide (c.rs2.toNat ≤ 3)) = true)
  (hg : CoreGoes s c r) (hp : predTrue (coreOf s c) c = true)
include hf hg hp

/-- A store that its handle does not allow takes the fault of the first rule it breaks. -/
theorem exec_st_fault {n : Nat}
    (hn : ((handleOf (s.arr c.arr) c.x.toNat).kind = 0 ∨ (handleOf (s.arr c.arr) c.x.toNat).kind = 2) ∧ n = 3 ∨
      ((handleOf (s.arr c.arr) c.x.toNat).kind = 1 ∨ (handleOf (s.arr c.arr) c.x.toNat).kind = 3) ∧
        (coreOff (coreOf s c) c % 2 ^ c.rs2.toNat ≠ 0 ∧ n = 2 ∨
          coreOff (coreOf s c) c % 2 ^ c.rs2.toNat = 0 ∧
          (handleOf (s.arr c.arr) c.x.toNat).length.toNat < coreOff (coreOf s c) c + 2 ^ c.rs2.toNat ∧ n = 1)) :
    exec (.st c) s = .next (s.coreFail c.arr 7 n) := by
  simp only [coreOf] at hn
  refine (runCore_of_goes (fields_arr (andLeft hf)) hf hg _).trans ?_
  simp only [hp, Bool.not_true, Bool.false_eq_true, if_false]
  rcases hn with ⟨hk, rfl⟩ | ⟨hk, hn⟩
  · rw [if_pos hk]
  · have hno : ¬((handleOf (s.arr c.arr) c.x.toNat).kind = 0 ∨ (handleOf (s.arr c.arr) c.x.toNat).kind = 2) := by
      rcases hk with hk | hk <;> rw [hk] <;> decide
    rcases hn with ⟨ha, rfl⟩ | ⟨ha, hl, rfl⟩
    · rw [if_neg hno, if_pos ha]
    · rw [if_neg hno, if_neg (not_not.2 ha), if_pos hl]

variable (ha : coreOff (coreOf s c) c % 2 ^ c.rs2.toNat = 0)
  (hin : coreOff (coreOf s c) c + 2 ^ c.rs2.toNat ≤ (handleOf (s.arr c.arr) c.x.toNat).length.toNat)
include ha hin

/-- A store of the core to its own loft: written at once, or queued behind an earlier one that meets it. -/
theorem exec_st_local (hk : (handleOf (s.arr c.arr) c.x.toNat).kind = 1) :
    exec (.st c) s = .next ((if (s.pendingStores c.arr (s.arr c.arr)).any fun w => decide
        (w.1 < (handleOf (s.arr c.arr) c.x.toNat).target.toNat + coreOff (coreOf s c) c + 2 ^ c.rs2.toNat ∧
          (handleOf (s.arr c.arr) c.x.toNat).target.toNat + coreOff (coreOf s c) c < w.1 + w.2.length) then
      s.queueArrival c.arr (coreStore s c r)
      else s.plainWrite c.arr c.x.toNat (coreOff (coreOf s c) c) 0
        [leBytes (2 ^ c.rs2.toNat) (coreReg (coreOf s c) c.rd.toNat).toNat] 8).modArr c.arr nextPc) := by
  simp only [coreOf] at ha hin
  refine (runCore_of_goes (fields_arr (andLeft hf)) hf hg _).trans ?_
  have hno : ¬((handleOf (s.arr c.arr) c.x.toNat).kind = 0 ∨ (handleOf (s.arr c.arr) c.x.toNat).kind = 2) := by
    rw [hk]
    decide
  simp only [hp, Bool.not_true, Bool.false_eq_true, if_false, if_neg hno, ha, ne_eq, not_true_eq_false, if_neg hin.not_gt,
    if_pos hk]
  rfl

/-- A store through a window is handed to the die fabric. -/
theorem exec_st_remote {u : State} (hk : (handleOf (s.arr c.arr) c.x.toNat).kind = 3)
    (hu : s.remoteStore c.arr r (handleOf (s.arr c.arr) c.x.toNat) (coreOff (coreOf s c) c)
      (leBytes (2 ^ c.rs2.toNat) (coreReg (coreOf s c) c.rd.toNat).toNat) = .ok u)
    (hline : cacheLine (u.arr c.arr) c.x.toNat (coreOff (coreOf s c) c / 128 * 128) = none) :
    exec (.st c) s = .next (u.modArr c.arr nextPc) := by
  simp only [coreOf] at ha hin hu hline
  refine (runCore_of_goes (fields_arr (andLeft hf)) hf hg _).trans ?_
  have hno : ¬((handleOf (s.arr c.arr) c.x.toNat).kind = 0 ∨ (handleOf (s.arr c.arr) c.x.toNat).kind = 2) := by
    rw [hk]
    decide
  have hk1 : (handleOf (s.arr c.arr) c.x.toNat).kind ≠ 1 := by
    rw [hk]
    decide
  simp only [hp, Bool.not_true, Bool.false_eq_true, if_false, if_neg hno, ha, ne_eq, not_true_eq_false, if_neg hin.not_gt,
    if_neg hk1, hu, State.modArr, hline]

end

/-! ### Transfers between crib and loft -/

theorem xferFault_none {e : Handle} {off n : Nat} (hk : e.kind = 1) (ha : off % 1024 = 0)
    (hin : off + n * 1024 ≤ e.length.toNat) :
    xferFault e off n = none := by
  simp only [xferFault, hk, bne_self_eq_false, Bool.false_eq_true, if_false, ha, ne_eq, not_true_eq_false, if_neg hin.not_gt]

section
variable {s : State} {c : CcWord} {r : SlotRun}
  (hf : (c.fields false true false true true && decide (c.imm.toNat % 256 + c.imm.toNat / 256 % 256 ≤ 255)) = true)
  (hg : CoreGoes s c r) (hp : predTrue (coreOf s c) c = true) (hd : c.dets = [])
  (hk : (handleOf (s.arr c.arr) c.x.toNat).kind = 1) (ha : (coreReg (coreOf s c) c.rs1.toNat).toNat % 1024 = 0)
  (hin : (coreReg (coreOf s c) c.rs1.toNat).toNat + (c.imm.toNat / 256 % 256 + 1) * 1024 ≤
    (handleOf (s.arr c.arr) c.x.toNat).length.toNat)
include hf hg hp hd hk ha hin

theorem exec_xferLc (hclean : ∀ i < c.imm.toNat / 256 % 256 + 1, poisoned (streamState s.env.psets (s.arr c.arr) c.x.toNat
      ((coreReg (coreOf s c) c.rs1.toNat).toNat + i * 1024)) = false) :
    exec (.xferLc c) s = .next (s.modArr c.arr fun x => nextPc (xferIn s.env.psets c c.x.toNat
      (coreReg (coreOf s c) c.rs1.toNat).toNat (c.imm.toNat % 256) (c.imm.toNat / 256 % 256 + 1) x)) := by
  simp only [coreOf] at ha hin hclean
  refine (runCore_of_goes (fields_arr (andLeft hf)) hf hg _).trans ?_
  have hany : ((List.range (c.imm.toNat / 256 % 256 + 1)).any fun i => poisoned (streamState s.env.psets
    (s.arr c.arr) c.x.toNat
      ((coreReg (s.arr c.arr).core c.rs1.toNat).toNat + i * 1024))) = false := by
    simpa only [List.any_eq_false, List.mem_range, Bool.not_eq_true] using hclean
  simp only [hp, Bool.not_true, Bool.false_eq_true, if_false, xferRows, xferFault_none hk ha hin, loftBad_of_no_dets hd,
    coreCorrected_of_no_dets hd, hany]
  rfl

theorem exec_xferCl (hclean : ∀ i < c.imm.toNat / 256 % 256 + 1,
      poisoned (rowState (s.arr c.arr) (c.imm.toNat % 256 + i)) = false) :
    exec (.xferCl c) s = .next (s.aside c.arr fun x => nextPc (xferOut s.env.psets c c.x.toNat
      (coreReg (coreOf s c) c.rs1.toNat).toNat (c.imm.toNat % 256) (c.imm.toNat / 256 % 256 + 1) x)) := by
  simp only [coreOf] at ha hin
  refine (runCore_of_goes (fields_arr (andLeft hf)) hf hg _).trans ?_
  have hany : ((List.range (c.imm.toNat / 256 % 256 + 1)).any fun i => poisoned (rowState (s.arr c.arr)
    (c.imm.toNat % 256 + i))) =
      false := by
    simpa only [List.any_eq_false, List.mem_range, Bool.not_eq_true] using hclean
  have hcrib : (c.dets.any fun d => d.kind == .cribUncorr) = false := by rw [hd, List.any_nil]
  simp only [hp, Bool.not_true, Bool.false_eq_true, if_false, xferRows, xferFault_none hk ha hin, hcrib,
    coreCorrected_of_no_dets hd, hany]
  rfl

end

theorem zipIdx_map_range {α : Type} (f : Nat → α) (n : Nat) :
    ((List.range n).map f).zipIdx = (List.range n).map fun i => (f i, i) :=
  List.ext_getElem (by simp) (by simp)

theorem handles_setRow (x : Arr) (r : Nat) (ws : List Nat) (t : RowSt) : (setRowState
    (setCribRow x r ws) r t).handles = x.handles := rfl

/-- Without detected errors a transfer reads its rows as they are. -/
theorem xferIn_eq {c : CcWord} (hd : c.dets = []) (ps : List PSet) (off row n : Nat) (x : Arr) :
    xferIn ps c c.x.toNat off row n x = (List.range n).foldl (fun y i =>
      setRowState (setCribRow y (row + i) (toWords (loftRead y (handleOf x c.x.toNat) (off + i * 1024) 1024))) (row + i)
        (streamState ps x c.x.toNat (off + i * 1024))) x := by
  simp only [xferIn, zipIdx_map_range, List.foldl_map, seenXfer_of_no_dets hd]
  refine (List.foldl_rel (r := fun y z => y = z ∧ z.handles = x.handles) ⟨rfl, rfl⟩ fun i _ y z ⟨hyz, hz⟩ =>
    ⟨?_, (handles_setRow ..).trans hz⟩).1
  have he : handleOf z c.x.toNat = handleOf x c.x.toNat := by rw [handleOf, hz, handleOf]
  rw [hyz, he]

/-- After a hit RD holds what was loaded. -/
theorem coreReg_after_hit {s : State} {c : CcWord} (hr : Rising s.arrs)
    (hregs : Rising (coreOf s c).regs) (l : CLine) (g : Arr → List Nat)
    (rd : Nat) (v : DWord) :
    coreReg (((s.cacheHit c.arr l).modArr c.arr fun x => nextPc { x with bypass := g x, core := setCoreReg x.core rd v }).arr
      c.arr).core rd = if rd = 0 then 0 else v := by
  have hset : Rising (s.cacheHit c.arr l).arrs := rising_mset hr
  have hown : (s.cacheHit c.arr l).arr c.arr =
      { cachePut (s.arr c.arr) l with cnt := { (s.arr c.arr).cnt with hits := bump64 (s.arr c.arr).cnt.hits } } :=
    State.arr_setArr_self hr _ _
  rw [State.modArr, State.arr_setArr_self hset, hown]
  by_cases h0 : rd = 0
  · rw [h0]
    rfl
  · rw [if_neg h0]
    exact coreReg_setCoreReg_self h0 hregs v

/-- A store that is written at once changes its bytes, and no other loft. -/
theorem plainWrite_one_loft {s : State} {a : ArrId} (hr : Rising s.arrs) (h off : Nat) (bs : List Byte) :
    (((s.plainWrite a h off 0 [bs] 8).modArr a nextPc).arr a).loft = (loftWrite (s.arr a) (handleOf
      (s.arr a) h) off bs).loft ∧
    OtherLofts s ((s.plainWrite a h off 0 [bs] 8).modArr a nextPc) a := by
  obtain ⟨hown, hothers⟩ := State.aside_loft hr a (plainRows s.env.psets h off 0 [bs] 8)
  have hs := ((SameArrs.refl (π
    := Arr.loft) (State.aside_sameLofts hr a (plainRows s.env.psets h off 0 [bs] 8)).rising).modArr a
    (f := nextPc) fun _ => rfl)
  have hrows := (plainRows_sameRows (x := { s.arr a with touched := [] }) (y := s.arr a) ⟨rfl, rfl, rfl,
    rfl⟩ s.env.psets h off 0 [bs] 8).loft
  exact ⟨(hs.arr a).trans (hown.trans hrows), fun b hb => (hs.arr b).trans (hothers b hb)⟩

/-- Settles O21: each access is its equation, by the kind of its handle and the first rule it breaks. -/
theorem coreLoadsAndStores : Obligations.CoreLoadsAndStores := by
  unfold Obligations.CoreLoadsAndStores
  refine ⟨fun s c r hf hg hd hp => ⟨fun hk ha hin => ?_, fun hnone => ?_, fun hk => ?_, fun hk ha => ?_,
      fun hk ha hout => ?_, fun l hk ha hin hno hsets hl => ?_⟩,
    fun s c r hf hg hp => ⟨fun hk ha hin hmeet => ?_, fun hk ha hin hmeet => ?_, fun u hk ha hin hu hl => ?_,
      fun hk => ?_, fun hk ha => ?_, fun hk ha hout => ?_⟩,
    fun s c r hf hg hd hp hk ha hin => ⟨fun hclean => ?_, fun hclean => ?_⟩⟩
  · exact exec_ld_ok hf hg hp hd (by rw [hk]; decide) ha (coreLoad_local hk hin)
  · rw [State.ownView, hnone, List.foldl_nil]
  · exact exec_ld_fault hf hg hp (.inl ⟨hk, rfl⟩)
  · exact exec_ld_fault hf hg hp (.inr (.inl ⟨hk, ha, rfl⟩))
  · exact exec_ld_fault hf hg hp (.inr (.inr ⟨by rw [hk]; decide, ha, coreLoad_outside hk hout⟩))
  · have hload := coreLoad_hit hk (pow_dvd_pow 2 (show c.rs2.toNat % 4 ≤ 7 by omega)) (by positivity) ha hin hno hsets hl
    refine ⟨_, exec_ld_ok hf hg hp hd (fun h0 => by rw [h0] at hk; exact absurd hk (by decide)) ha hload, fun hr hregs => ?_⟩
    refine (coreReg_after_hit hr hregs l (fun x => x.bypass.filter (· != c.x.toNat)) _ _).trans (if_congr ⟨fun h0 => ?_,
      fun h0 => ?_⟩ rfl rfl)
    · exact BitVec.eq_of_toNat_eq h0
    · rw [h0]
      rfl
  · rw [exec_st_local hf hg hp ha hin hk, if_pos (by simpa using hmeet)]
    rfl
  · refine ⟨_, (exec_st_local hf hg hp ha hin hk).trans (by rw [if_neg (by simpa using hmeet)]), rfl, fun hr => ?_⟩
    exact plainWrite_one_loft hr _ _ _
  · exact exec_st_remote hf hg hp ha hin hk hu hl
  · exact exec_st_fault hf hg hp (.inl ⟨hk, rfl⟩)
  · exact exec_st_fault hf hg hp (.inr ⟨hk, .inl ⟨ha, rfl⟩⟩)
  · exact exec_st_fault hf hg hp (.inr ⟨hk, .inr ⟨ha, hout, rfl⟩⟩)
  · rw [exec_xferLc hf hg hp hd hk ha hin hclean]
    exact congrArg (fun x => (.next (s.setArr c.arr (nextPc x)) : Res)) (xferIn_eq hd ..)
  · refine ⟨_, exec_xferCl hf hg hp hd hk ha hin hclean, fun hr => ?_⟩
    obtain ⟨hown, hothers⟩ := State.aside_loft hr c.arr fun x => nextPc (xferOut s.env.psets c c.x.toNat
      (coreReg (coreOf s c) c.rs1.toNat).toNat (c.imm.toNat % 256) (c.imm.toNat / 256 % 256 + 1) x)
    exact ⟨hown.trans (xferOut_sameRows (x := { s.arr c.arr with touched := [] }) (y := s.arr c.arr) hd ⟨rfl, rfl, rfl,
      rfl⟩ ..).loft, hothers⟩

end Sys2Proof.Machine
end

section
/-! The step itself: its queue, the tick of the time base, and the reset state (R339, R346, R421, R430). -/

namespace Sys2Proof.Machine

open Sys2Proof.Stated

/-- Settles O1. -/
theorem stepRunsTheFrontCommand : Obligations.StepRunsTheFrontCommand := by
  unfold Obligations.StepRunsTheFrontCommand
  intro c cs s h
  rw [step, h]

theorem step_of_empty {s : State} (h : s.pending = []) : step s = .next s.tick := by rw [step, h]

theorem State.powered_iff (s : State) : s.powered = true ↔ s.pw.part ≠ .off := by simp [State.powered]

/-- Without a step that falls due the time base only counts. -/
theorem TimeSt.reach_of_no_step {t : TimeSt} {n : Nat} (h : ∀ d b, t.dueStep = some (d, b) → max t.now n < d) :
    t.reach n = { t with now := max t.now n } := by
  simp only [TimeSt.reach, TimeSt.applyStep]
  cases hd : t.dueStep with
  | none => rfl
  | some e => exact if_pos (h e.1 e.2 hd)

/-- The step that falls due at the instant reached. -/
theorem TimeSt.reach_due {t : TimeSt} {d : Nat} {b : Bool} (h : t.dueStep = some (d, b)) (hd : t.now ≤ d) :
    t.reach d = if b then
      { t with
        dueStep := none, lastStep := some d, stepsDue := t.stepsDue - 1, stepsRet := bump t.stepsRet, netCorr := t.netCorr - 5
        now := d, hold := t.hold + 5 }
    else
      { t with
        dueStep := none, lastStep := some d, stepsDue := t.stepsDue + 1, stepsAdv := bump t.stepsAdv, netCorr := t.netCorr + 5
        now := d + 5 } := by
  simp only [TimeSt.reach, TimeSt.applyStep, h, Nat.max_eq_right hd, lt_irrefl, if_false, if_true,
    Nat.max_eq_right (Nat.le_add_right d 5)]

theorem State.tick_of_counting {s : State} (hp : s.pw.part ≠ .off) (hh : s.tm.hold = 0) :
    s.tick = { s with tm := s.tm.reach (s.tm.now + 1) } := by
  rw [State.tick, if_pos ((State.powered_iff s).2 hp), if_pos hh]

/-- Settles O2: a tick counts, holds, or applies the step that falls due with it. -/
theorem emptyQueueCountsOneTick : Obligations.EmptyQueueCountsOneTick := by
  unfold Obligations.EmptyQueueCountsOneTick
  refine fun s hq => ⟨fun hoff => ?_, fun hp hh hno => ?_, fun b hp hh hdue => ⟨s.tick, step_of_empty hq, ?_⟩,
    fun hp hh => ?_⟩
  · have hpow : ¬s.powered = true := fun h => (State.powered_iff s).1 h hoff
    rw [step_of_empty hq, State.tick, if_neg hpow]
  · have hmax : max s.tm.now (s.tm.now + 1) = s.tm.now + 1 := by omega
    have hreach := TimeSt.reach_of_no_step (t := s.tm) (n := s.tm.now + 1) fun d b h => hmax.symm ▸ hno d b h
    rw [step_of_empty hq, State.tick_of_counting hp hh, hreach, hmax]
  · rw [State.tick_of_counting hp hh, TimeSt.reach_due hdue (by omega)]
    cases b with
    | true => exact ⟨rfl, rfl, fun _ => ⟨rfl, by simp [hh], rfl⟩, nofun⟩
    | false => exact ⟨rfl, rfl, nofun, fun _ => ⟨rfl, hh, rfl⟩⟩
  · rw [step_of_empty hq, State.tick, if_pos ((State.powered_iff s).2 hp), if_neg hh]

/-- Settles O5. -/
theorem resetHoldsTheDefaults : Obligations.ResetHoldsTheDefaults := by
  unfold Obligations.ResetHoldsTheDefaults
  refine ⟨⟨rfl, rfl, fun e he => absurd he List.not_mem_nil⟩, ?_, rfl, rfl, rfl, rfl, rfl, rfl, rfl, rfl, rfl, rfl⟩
  exact ⟨.nil, .nil, .nil, .nil, .nil, .nil, .nil, .nil, .nil⟩

end Sys2Proof.Machine
end

section
/-! The release slot (R223, R343): the time base reaches the boundary, and neither lofts nor cribs change. -/

namespace Sys2Proof.Machine

open Sys2Proof.Stated

/-- Fields that are the same make the states the same up to those that may differ. -/
theorem Keeps.eq_with {s t : State} (h : Keeps [.tm, .tenants, .arrs, .dies, .trace] s t) :
    t = { s with tm := t.tm, tenants := t.tenants, arrs := t.arrs, dies := t.dies, trace := t.trace } := by
  have hs := h.same
  cases t
  rw [State.mk.injEq]
  exact ⟨h.queue, hs .pw (by decide), hs .ports (by decide), hs .fns (by decide), rfl, hs .en (by decide),
    hs .mctp (by decide),
    hs .plan (by decide), hs .pc (by decide), hs .vs (by decide), rfl, hs .drrQuantum (by decide), hs .drrPtr (by decide),
    hs .keys (by decide), hs .uploads (by decide), hs .installs (by decide), hs .streams (by decide), hs .jobs (by decide),
    hs .jobSeq (by decide), hs .runs (by decide), hs .slotStats (by decide), rfl, rfl, hs .hubs (by decide),
      hs .stk (by decide),
    hs .mem (by decide), hs .gran (by decide), hs .links (by decide), hs .dom (by decide), hs .sec (by decide),
    hs .hm (by decide), hs .sels (by decide), hs .snap (by decide), rfl, hs .dump (by decide), hs .hostMem (by decide),
    hs .hostFaults (by decide), hs .free (by decide), hs .out (by decide)⟩

/-- The state with which the arrays release the heads of their lists. -/
def State.refilled (s : State) : State := (s.reach ((s.tm.now / 64 + 1) * 64)).fillBuckets

/-- The arrays have released the heads of their lists. -/
def State.letGo (s : State) : State :=
  if s.vs.relocking then s
  else (allArrs.filter fun a => !(s.arr a).reqs.isEmpty).foldl (fun s a => s.releaseHead a (releaseFuel s a)) s

/-- A core that waits for a release slot up to n goes on. -/
def timed (n : Nat) (x : Arr) : Arr := match x.core.stall with
  | some (.time m) => if m ≤ n then { x with core := { x.core with stall := none } } else x
  | _ => x

theorem State.release_eq (s : State) : s.release =
    { s.refilled.letGo with arrs := s.refilled.letGo.arrs.map fun e => (e.1, timed (s.refilled.letGo.tm.now % epochNs / 64) e.2) } := rfl

/-! ### Contents stay -/

/-- What a release slot leaves of an array. -/
def contents (x : Arr) : Memory × SMap (List Word) := (x.loft, x.crib)

theorem contents_timed (n : Nat) (x : Arr) : contents (timed n x) = contents x := by
  simp only [timed]
  split
  · split
    · rfl
    · rfl
  · rfl

section
variable {s t : State} (h : SameArrs contents s t)
include h

theorem SameArrs.popReq (a : ArrId) : SameArrs contents s (t.popReq a) := h.modArr a fun _ => rfl

theorem SameArrs.takeUnits (a : ArrId) (o : Option Nat) (n : Nat) : SameArrs contents s (t.takeUnits a o n) := by
  have ht := h.modArr a (f := fun x => { x with bucket := x.bucket - 1024 * n }) fun _ => rfl
  cases o with
  | none => exact ht
  | some m => exact ht.congr rfl fun _ => rfl

theorem SameArrs.traceHold (a : ArrId) (p : Option Nat) (n : Nat) : SameArrs contents s (t.traceHold a p n) := by
  have hk := (Keeps.refl (F := [.trace]) t).traceHold (a := a) (bpos := p) (bytes := n)
  have hd : (t.traceHold a p n).dies = t.dies := hk.same .dies (by decide)
  exact h.congr (hk.same .arrs (by decide)) fun b => congrArg
    (fun m => slotKey b.die ((mget {} m b.die : Die).slotMap.getD b.arr b.arr)) hd

/-- Requests of a die's units change; the die is listed, since it holds them. -/
theorem SameArrs.modUnits (d : Nat) {f : UnitReq → UnitReq} (hne : (t.die d).units ≠ []) :
    SameArrs contents s (t.modDie d fun x => { x with units := x.units.map f }) :=
  h.congr rfl <| State.key_modDie (fun he => hne (List.map_eq_nil_iff.1 (congrArg Die.units he))) rfl

theorem SameArrs.modDesc (a : ArrId) (q : Nat) {f : Desc → Desc} (hne : (t.die a.die).descs ≠ []) :
    SameArrs contents s (t.modDesc a q f) :=
  h.congr rfl <| State.key_modDie (fun he => hne (List.map_eq_nil_iff.1 (congrArg Die.descs he))) rfl

end

theorem takeUnits_dies (s : State) (a : ArrId) (o : Option Nat) (n : Nat) : (s.takeUnits a o n).dies = s.dies := by
  cases o <;> rfl

theorem SameArrs.releaseHead {s t : State} (h : SameArrs contents s t) (a : ArrId) (fuel : Nat) :
    SameArrs contents s (t.releaseHead a fuel) := by
  induction fuel generalizing t with
  | zero => exact h
  | succ n ih =>
    unfold State.releaseHead
    split
    · exact h
    · split
      · exact ih (h.popReq a)
      · next u hu =>
        have hne : (t.die a.die).units ≠ [] := fun hnil => by rw [hnil] at hu; exact absurd hu (by simp)
        extract_lets want k v
        have hv : SameArrs contents s v := (h.takeUnits a none k).modUnits a.die hne
        clear_value want k
        split
        · exact ih (hv.popReq a)
        · exact hv.traceHold ..
    · split
      · exact ih (h.popReq a)
      · next d hd =>
        have hne : (t.die a.die).descs ≠ [] := fun hnil => by rw [State.desc?, hnil] at hd; exact absurd hd (by simp)
        split
        · exact ih (h.popReq a)
        · extract_lets b o want k st v
          have hv : SameArrs contents s v := (h.takeUnits a o k).modDesc a _ fun hnil => hne <| by
            rwa [State.die, takeUnits_dies] at hnil
          clear_value want k
          split
          · exact ih hv
          · exact hv.traceHold ..

/-- A bucket after its gain. -/
def filled (t : Template) (x : Arr) : Arr := { x with bucket := max x.bucket (min t.depth (x.bucket + t.rate)) }

theorem State.release_contents {s : State} (h : Rising s.arrs) : SameArrs contents s s.release := by
  have hfill : SameArrs contents s s.refilled := (SameArrs.refl h).map (f := filled s.template) (fun _ => rfl) rfl rfl
  have hgo : SameArrs contents s s.refilled.letGo := hfill.ite (hfill.foldl (fun u hu a => hu.releaseHead a _) _)
  rw [State.release_eq]
  exact hgo.map (contents_timed _) rfl rfl

/-! ### The time base -/

theorem State.release_tm (s : State) : s.release.tm = s.tm.reach ((s.tm.now / 64 + 1) * 64) := by
  have hgo : Keeps [.tenants, .arrs, .dies, .trace] s.refilled s.refilled.letGo := by
    simp only [State.letGo]
    split
    · exact .refl _
    · exact (Keeps.refl _).foldl fun t a => (Keeps.refl _).releaseHead
  rw [State.release_eq]
  exact hgo.same .tm (by decide)

/-- Settles O23. -/
theorem releaseSlotAdvancesToTheBoundary : Obligations.ReleaseSlotAdvancesToTheBoundary := by
  unfold Obligations.ReleaseSlotAdvancesToTheBoundary
  intro s hw
  refine ⟨s.release, congrArg _ (if_pos hw), s.release_tm, fun hno => ?_, ((Keeps.refl _).release).eq_with, fun hr a => ?_⟩
  · have hlt : s.tm.now < (s.tm.now / 64 + 1) * 64 := Nat.lt_mul_of_div_lt (Nat.lt_succ_self _) (by decide)
    have hmax : max s.tm.now ((s.tm.now / 64 + 1) * 64) = (s.tm.now / 64 + 1) * 64 := by omega
    rw [s.release_tm, TimeSt.reach_of_no_step fun d b h => hmax.symm ▸ hno d b h]
    exact hmax
  · have hc := (State.release_contents hr).arr a
    exact ⟨congrArg Prod.fst hc, congrArg Prod.snd hc⟩

end Sys2Proof.Machine
end

section
/-! Blocks between two lofts of the package (R217, R219): nothing on the way stops one that keeps the rules,
    and its rows arrive. -/

namespace Sys2Proof.Machine

open Sys2Proof.Stated

theorem exec_blockWrite {s : State} {b : BlockRef} {d : Desc} (hb : b.arr.wf = true) (hd : s.desc? b.arr b.dseq = some d)
    (hready : s.blockReady d b.blk = true) (hhost : b.hostErr = none ∨ b.hostErr = some 1 ∨ b.hostErr = some 2) :
    exec (.blockWrite b) s = .next (s.moveBlock d (d.blocks.getD b.blk {}) b) := by
  have herr : (match b.hostErr with | some e => e == 1 || e == 2 | none => true) = true := by
    rcases hhost with h | h | h <;> rw [h] <;> rfl
  have hexec : exec (.blockWrite b) s = need b.arr.wf "array" (arises (s.blockReady d b.blk &&
      (match b.hostErr with | some e => e == 1 || e == 2 | none => true)) "the block may not leave yet"
        (.next (s.moveBlock d (d.blocks.getD b.blk {}) b))) := by
    show execBlockWrite b s = _
    rw [execBlockWrite, hd] <;> rfl
  rw [hexec, herr, hready]
  exact if_pos hb

section
variable {s : State} {d : Desc} {k : Block} {r : BlockRef} {sd sa sh so dd da h o : Nat}
  (hsrc : s.ownEndpoint (endpointOf k.src) = .loft sd sa sh so) (hdst : s.ownEndpoint (endpointOf k.dst) = .loft dd da h o)
include hsrc hdst

/-- A block between lofts, without a host error or a detected error, moves its rows when its form and its read allow it. -/
theorem moveBlock_of_rows {u : State} {rows : List (List Byte)} (hhost : r.hostErr = none) (hecc : r.ecc = [])
    (hfault : s.blockFault d k = none) (hsheaf : (handleOf (s.arr ⟨sd, sa⟩) sh).sheaf = false)
    (hrows : s.fetchRows d k r.refused = .rows rows u) : s.moveBlock d k r = u.deliver d r.blk k rows := by
  have herrs : s.blockErrors k r = [] := by rw [State.blockErrors, hsrc, hecc]; rfl
  have hsheaves : s.sheavesRead k = [] := by
    simp only [State.sheavesRead, State.sheafSource, hsrc, hsheaf, Bool.false_eq_true, and_false, if_false]
  have hverify : s.verifyBlock d k = (s, none) := by rw [State.verifyBlock, hdst]
  simp only [State.moveBlock, hfault, hhost, herrs, hsheaves, hverify, hrows, List.filter_nil, List.foldl_nil, List.any_nil,
    Bool.false_eq_true, if_false, List.isEmpty_nil, Bool.not_true]

end

/-- The arrival that a block's rows make at a loft: its place and its marks are the block's; it brings the rows, or none. -/
theorem deliver_loft {s u : State} {d : Desc} {k : Block} {r : BlockRef} {dd da h o : Nat}
    (hdst : s.ownEndpoint (endpointOf k.dst) = .loft dd da h o)
      (hdom : u.dom = s.dom) (rows : List (List Byte)) : ∃ v : Arrival,
    v.handle = h ∧ v.off = o ∧ v.dstride = k.dstride ∧ v.aop = k.aop ∧ v.group = d.group ∧ v.clasp = k.bflags.getLsbD 0 ∧
    v.rows = (if u.writesNothing d k then [] else rows) ∧
    u.deliver d r.blk k rows = (u.modDesc d.arr d.dseq fun e => e.setBlock r.blk .sent).queueArrival ⟨dd, da⟩ v := by
  have howned (e : Endpoint) : u.ownEndpoint e = s.ownEndpoint e := by simp only [State.ownEndpoint, hdom]
  have hto : u.deliver d r.blk k rows =
      (u.modDesc d.arr d.dseq fun e => e.setBlock r.blk .sent).queueArrival ⟨dd, da⟩ (u.arrivalOf d r.blk k h o rows) := by
    rw [State.deliver, howned, howned, hdst]
  refine ⟨u.arrivalOf d r.blk k h o rows, ?_, ?_, ?_, ?_, ?_, ?_, ?_, hto⟩ <;> simp only [State.arrivalOf] <;> split <;> rfl

/-- One row more of a block that reads through a handle of the package. -/
def fetchTurn (a : ArrId) (refused : Bool) (h so stride len : Nat) (acc : Fetched) (r : Nat) : Fetched := match acc with
  | .rows bs s => (match s.handleRead a refused h (so + r * stride) len with
    | .ok (x, s) => .rows (bs ++ [x]) s
    | .error sub => .addr sub)
  | e => e

/-- Reading rows that lie within a LOCAL handle. -/
theorem fetchRows_local {s : State} {d : Desc} {k : Block} {sd sa sh so : Nat} (refused : Bool)
    (hsrc : s.ownEndpoint (endpointOf k.src) = .loft sd sa sh so) (hk : (handleOf (s.arr ⟨sd, sa⟩) sh).kind = 1)
    (haop : k.aop = 0) (hin : so + (k.rows - 1) * k.sstride + k.len ≤ (handleOf (s.arr ⟨sd, sa⟩) sh).length.toNat) :
    s.fetchRows d k refused = .rows ((List.range k.rows).map fun r =>
      loftRead (s.arr ⟨sd, sa⟩) (handleOf (s.arr ⟨sd, sa⟩) sh) (so + r * k.sstride) k.len) s := by
  have hread (r : Nat) (hr : r < k.rows) : s.handleRead ⟨sd, sa⟩ refused sh (so + r * k.sstride) k.len =
      .ok (loftRead (s.arr ⟨sd, sa⟩) (handleOf (s.arr ⟨sd, sa⟩) sh) (so + r * k.sstride) k.len, s) := by
    have hle : r * k.sstride ≤ (k.rows - 1) * k.sstride := Nat.mul_le_mul_right _ (by omega)
    have hfault : readFault (handleOf (s.arr ⟨sd, sa⟩) sh) (so + r * k.sstride) k.len = none := by
      rw [readFault, hk, if_neg (by decide), if_neg (by omega)]
    simp only [State.handleRead, hfault, if_pos hk]
  have hlen : k.rowBytes = k.len := if_neg (by omega)
  have hfold (m : Nat) (hm : m ≤ k.rows) : (List.range m).foldl (fetchTurn ⟨sd,
    sa⟩ refused sh so k.sstride k.len) (.rows [] s) =
      .rows ((List.range m).map fun r =>
        loftRead (s.arr ⟨sd, sa⟩) (handleOf (s.arr ⟨sd, sa⟩) sh) (so + r * k.sstride) k.len) s := by
    induction m with
    | zero => rfl
    | succ m ih =>
      rw [List.range_succ, List.foldl_concat, ih (by omega), List.map_append]
      simp only [fetchTurn, hread m (by omega), List.map_cons, List.map_nil]
  simp only [State.fetchRows, hsrc, hlen]
  exact hfold k.rows le_rfl

/-- The form of R217..R219 and both ranges of a plain block between two lofts. -/
theorem blockFault_none {s : State} {d : Desc} {k : Block} {sd sa sh so dd da h o : Nat}
    (hsrc : s.ownEndpoint (endpointOf k.src) = .loft sd sa sh so) (hdst : s.ownEndpoint (endpointOf k.dst) = .loft dd da h o)
    (hlen : k.len % 64 = 0) (hss : k.sstride % 64 = 0) (hds : k.dstride % 64 = 0) (hso : so % 64 = 0) (ho : o % 64 = 0)
    (hpos : 0 < k.len) (hmax : k.len ≤ 1048576) (hrows : 0 < k.rows) (haop : k.aop = 0)
    (hk : (handleOf (s.arr ⟨sd, sa⟩) sh).kind = 1)
    (hin : so + (k.rows - 1) * k.sstride + k.len ≤ (handleOf (s.arr ⟨sd, sa⟩) sh).length.toNat)
    (hf : (handleOf (s.arr ⟨dd, da⟩) h).kind = 1)
    (hw : (handleOf (s.arr ⟨dd, da⟩) h).rwrite = true ∨ (⟨dd, da⟩ : ArrId) = d.arr)
    (hout : o + (k.rows - 1) * k.dstride + k.len ≤ (handleOf (s.arr ⟨dd, da⟩) h).length.toNat) : s.blockFault d k = none := by
  have hrange : ¬(handleOf (s.arr ⟨dd, da⟩) h).length.toNat < o + ((k.rows - 1) * k.dstride + k.len) := by omega
  have hread : ¬(handleOf (s.arr ⟨sd, sa⟩) sh).length.toNat < so + ((k.rows - 1) * k.sstride + k.len) := by omega
  simp only [State.blockFault, hsrc, hdst]
  rw [if_neg (by simp only [hlen, hss, hds, hso, ho]; decide), if_neg (by omega), if_neg (by omega)]
  simpa [haop, hk, hf, hread, localFault, hrange] using fun hno : (handleOf (s.arr ⟨dd, da⟩) h).rwrite = false =>
    hw.resolve_left (Bool.eq_false_iff.1 hno)

/-- Settles O24. -/
theorem blockWriteSendsItsRows : Obligations.BlockWriteSendsItsRows := by
  unfold Obligations.BlockWriteSendsItsRows
  intro s b d hb hd hready
  refine ⟨exec_blockWrite hb hd hready, ?_, ?_⟩
  · intro sd sa dd da sh so h o k x e f hsrc hdst hlen hss hds hso ho hpos hmax hrows haop he hsheaf hin hf hw hout hhost hecc
    have hfault := blockFault_none hsrc hdst hlen hss hds hso ho hpos hmax hrows haop he hin hf hw hout
    have hfetch := fetchRows_local (d := d) b.refused hsrc he haop hin
    obtain ⟨v, vh, vo, vs, va, vg, vc, vr, hdeliver⟩ := deliver_loft (d := d) (r := b) hdst (rfl : s.dom = s.dom) _
    exact ⟨v, vh, vo, vs, va.trans haop, vg, vc, vr, (exec_blockWrite hb hd hready (.inl hhost)).trans
      (congrArg _ ((moveBlock_of_rows hsrc hdst hhost hecc hfault hsheaf hfetch).trans hdeliver))⟩
  · intro u rows sd sa dd da sh so h o k hhost hecc hfault hsrc hdst hsheaf hfetch hdom hwrites
    obtain ⟨v, vh, vo, -, va, vg, vc, vr, hdeliver⟩ := deliver_loft (d := d) (r := b) hdst hdom rows
    rw [hwrites] at vr
    exact ⟨v, vh, vo, vr, va, vg, vc, (exec_blockWrite hb hd hready (.inl hhost)).trans
      (congrArg _ ((moveBlock_of_rows hsrc hdst hhost hecc hfault hsheaf hfetch).trans hdeliver))⟩

end Sys2Proof.Machine
end

section
/-! Arrivals in the landing buffer (R231, R242, R249, R412): what the landing leaves of the array, and of the others. -/

namespace Sys2Proof.Machine

open Sys2Proof.Stated

theorem State.key_of_dies {s t : State} (h : t.dies = s.dies) (a : ArrId) : t.key a = s.key a :=
  congrArg (fun m => slotKey a.die ((mget {} m a.die : Die).slotMap.getD a.arr a.arr)) h

namespace SameArrs

variable {α : Type} {π : Arr → α} {s t u : State}

/-- What follows touches neither arrays nor dies. -/
theorem of_keeps {F : List Field} (h : SameArrs π s t) (hk : Keeps F t u) (ha : .arrs ∉ F)
    (hd : .dies ∉ F) : SameArrs π s u :=
  h.congr (hk.same .arrs ha) (State.key_of_dies (hk.same .dies hd))

/-- Only the handles of a sheaf change with its state. -/
theorem modParts (h : SameArrs π s t) (hπ : Settled π) (parts : List Part) (pair : Bool)
    (f : Handle → Handle) : SameArrs π s (t.modParts parts pair f) :=
  h.eachPart parts pair fun _ _ x => hπ x x.track x.touched _

theorem setSheaf (h : SameArrs π s t) (hπ : Settled π) (parts : List Part)
    (pair : Bool) (poly : Nat) (c : BitVec 4) (f : Handle → Handle) : SameArrs π s (t.setSheaf parts pair poly c f) :=
  (h.eachPart parts pair (f := fun h _ x => untrack h poly x) fun _ _ x => hπ x _ _ x.handles).modParts hπ parts pair _

theorem landSheaf (h : SameArrs π s t) (hπ : Settled π) (a : ArrId) (v : Arrival)
    (c : BitVec 4) (d : Bool) (l : Nat) : SameArrs π s (t.landSheaf a v c d l) :=
  (h.modParts hπ ..).foldl (fun _ hu _ => hu.setSheaf hπ ..) _

end SameArrs

/-! ### What a write of rows leaves of its array -/

/-- A part of an array that a write of rows through a handle does not reach. -/
def Unwritten {α : Type} (π : Arr → α) : Prop :=
  ∀ x l w p tr td hs, π { x with loft := l, written := w, posOf := p, track := tr, touched := td, handles := hs } = π x

namespace Unwritten

variable {α : Type} {π : Arr → α} (h : Unwritten π)
include h

theorem settled : Settled π := fun x tr td hs => h x x.loft x.written x.posOf tr td hs

theorem openRow (x : Arr) (r : Nat) : π (openRow x r) = π x := by
  simp only [Machine.openRow]
  split
  · rfl
  · exact h x _ _ x.posOf x.track x.touched x.handles

theorem foldl {β : Type} {f : Arr → β → Arr} (hf : ∀ x b, π (f x b) = π x) (l : List β) (x : Arr) : π (l.foldl f x) = π x :=
  List.foldlRecOn l f (motive := fun z => π z = π x) rfl fun z hz b _ => (hf z b).trans hz

theorem loftWrite (x : Arr) (e : Handle) (off : Nat) (bs : List Byte) : π (loftWrite x e off bs) = π x := by
  refine (h _ _ _ _ _ _ _).trans ?_
  split
  · exact h.foldl (fun z r => h.openRow z _) _ x
  · rfl

theorem trackWrite (psets : List PSet) (x : Arr) (i off : Nat) (st : RowSt) : π (trackWrite psets x i off st) = π x := by
  simp only [Machine.trackWrite]
  split
  · exact h x x.loft x.written x.posOf _ _ x.handles
  · rfl

theorem setPos (x : Arr) (a len pos : Nat) : π (setPos x a len pos) = π x
    := h x x.loft x.written _ x.track x.touched x.handles

theorem plainRows (psets : List PSet) (i off stride : Nat) (rows : List (List Byte)) (pos : Nat) (x : Arr) :
    π (plainRows psets i off stride rows pos x) = π x :=
  h.foldl (fun z r => (h.foldl (fun y o => h.trackWrite psets y i o {}) _ _).trans ((h.setPos ..).trans (h.loftWrite ..))) _ x

end Unwritten

/-- A write aside leaves of every array what its rows do not reach. -/
theorem SameArrs.plainWrite {α : Type} {π : Arr → α} {s t : State} (h : SameArrs π s t)
    (hu : Unwritten π) (a : ArrId) (i off stride : Nat) (rows : List (List Byte)) (pos : Nat) :
    SameArrs π s (t.plainWrite a i off stride rows pos) := by
  have hto (x : Arr) (l : List Nat) : π { x with touched := l } = π x := hu x x.loft x.written x.posOf x.track l x.handles
  have hset := h.modArr a (f := fun x => plainRows t.env.psets i off stride rows pos { x with touched := [] })
    fun x => (hu.plainRows ..).trans (hto x [])
  exact (hset.settleSheaves hu.settled a).modArr a (f := fun y => { y with touched := (t.arr a).touched }) fun x => hto x _

/-! ### Landing -/

/-- The rows of an arrival, written through a handle. -/
def landed (e : Handle) (v : Arrival) (x : Arr) : Arr :=
  v.rows.zipIdx.foldl (fun x r => loftWrite x e (v.off + r.2 * v.dstride) r.1) x

theorem landed_sameRows {x y : Arr} (h : SameRows x y) (e : Handle) (v : Arrival) :
    SameRows (v.rows.zipIdx.foldl (fun x r =>
      setPos (loftWrite x e (v.off + r.2 * v.dstride) r.1) (e.target.toNat + (v.off + r.2 * v.dstride)) r.1.length v.pos) x)
      (landed e v y) :=
  List.foldl_rel h fun _ _ _ _ hz => (hz.loftWrite ..).setPos ..

theorem landed_congr {x y : Arr} (h : SameRows x y) (e : Handle) (v : Arrival) : SameRows (landed e v x) (landed e v y) :=
  List.foldl_rel h fun _ _ _ _ hz => hz.loftWrite ..

section
variable {s : State} (hr : Rising s.arrs) (a : ArrId) (v : Arrival)
include hr

/-- Landing writes the rows in the loft of their array, and in no other. -/
theorem State.landRows_loft :
    ((s.landRows a (handleOf (s.arr a) v.handle) v).arr a).loft = (landed (handleOf (s.arr a) v.handle) v (s.arr a)).loft ∧
    ∀ b, s.key b ≠ s.key a → ((s.landRows a (handleOf (s.arr a) v.handle) v).arr b).loft = (s.arr b).loft := by
  simp only [State.landRows]
  split
  · obtain ⟨hown, hothers⟩ := State.aside_loft hr a (plainRows s.env.psets v.handle v.off v.dstride v.rows v.pos)
    refine ⟨hown.trans ?_, hothers⟩
    exact (plainRows_sameRows (x := { s.arr a with touched := [] }) (y := s.arr a) ⟨rfl, rfl, rfl, rfl⟩ ..).loft
  · next c d l _ =>
    have hs := (SameArrs.refl (π := Arr.loft) (s := s.modArr a fun x => v.rows.zipIdx.foldl (fun x r =>
      setPos (loftWrite x (handleOf (s.arr a) v.handle) (v.off + r.2 * v.dstride) r.1)
        ((handleOf (s.arr a) v.handle).target.toNat + (v.off + r.2 * v.dstride)) r.1.length v.pos) x)
      (rising_mset hr)).landSheaf (fun _ _ _ _ => rfl) a v c d l
    refine ⟨(hs.arr a).trans ?_, fun b hb => (hs.arr b).trans ?_⟩
    · rw [State.modArr, State.arr_setArr_self hr]
      exact (landed_sameRows ⟨rfl, rfl, rfl, rfl⟩ ..).loft
    · exact congrArg Arr.loft (State.arr_setArr_of_ne s a b _ hb)

theorem State.landRows_keeps {α : Type} {π : Arr → α} (hu : Unwritten π) (e : Handle) : SameArrs π s (s.landRows a e v) := by
  simp only [State.landRows]
  split
  · exact (SameArrs.refl hr).plainWrite hu ..
  · refine ((SameArrs.refl hr).modArr a ?_).landSheaf hu.settled ..
    exact fun x => hu.foldl (fun z r => (hu.setPos ..).trans (hu.loftWrite ..)) _ x

end

theorem State.landChecks_of_no_host {s : State} {e : Handle} {v : Arrival} (h : v.hostBuf = none) : s.landChecks e v = s := by
  rw [State.landChecks, h]

/-- The acknowledgement of an arrival that no block of the package waits for changes no array. -/
theorem SameArrs.acknowledge_none {α : Type} {π : Arr → α} {s t : State} {v : Arrival} (h : SameArrs π s t)
    (hsrc : v.src = none)
    (hret : v.retTo = none) : SameArrs π s (t.acknowledge v 0 none []) := by
  simp only [State.acknowledge, hsrc, hret]
  split
  · exact h.of_keeps ((Keeps.refl (F := [.links, .out]) t).txFrame) (by decide) (by decide)
  · exact h

theorem setFlag_flags (c : Nat) (x : Arr) (v : Arrival) :
    (setFlag c x v).flags = if v.clasp ∧ v.group ≠ 0 then x.flags ||| (1 : BitVec 16) <<< v.group else x.flags := by
  simp only [setFlag, Bool.and_eq_true, decide_eq_true_eq]
  split <;> rfl

theorem setFlag_landing (c : Nat) (x : Arr) (v : Arrival) : (setFlag c x v).landing = x.landing := by
  simp only [setFlag]
  split <;> rfl

theorem SameArrs.popLanding {α : Type} {π : Arr → α} {s t : State} (h : SameArrs π s t)
    (hπ : ∀ x l, π { x with landing := l } = π x) (a : ArrId) : SameArrs π s (t.popLanding a) := h.modArr a fun x => hπ x _

theorem SameArrs.raiseFlag {α : Type} {π : Arr → α} {s t : State} (h : SameArrs π s t)
    (hπ : ∀ c x w, π (setFlag c x w) = π x) (a : ArrId) (v : Arrival) : SameArrs π s (t.raiseFlag a v) := by
  simp only [State.raiseFlag]
  exact h.modArr a fun x => hπ _ x v

theorem State.arr_popLanding {s : State} (hr : Rising s.arrs) (a : ArrId) :
    (s.popLanding a).arr a = { s.arr a with landing := (s.arr a).landing.drop 1 } := State.arr_setArr_self hr a _

/-- The cycle from which an arrival's flag is visible. -/
def State.flagSince (s : State) (a : ArrId) : Nat := match s.runOf a with
  | some r => s.slotCycle r
  | none => 0

theorem State.arr_raiseFlag {s : State} (hr : Rising s.arrs) (a : ArrId) (v : Arrival) :
    (s.raiseFlag a v).arr a = setFlag (s.flagSince a) (s.arr a) v := State.arr_setArr_self hr a _

theorem exec_loftArrival {s : State} {a : ArrId} {v : Arrival} {rest : List Arrival} (ha : a.wf = true)
    (hl : (s.arr a).landing = v :: rest) (haop : v.aop = 0) : exec (.loftArrival a) s = .next (s.land a v) := by
  show execLoftArrival a s = _
  rw [execLoftArrival, hl]
  simp only [need, ha, haop, arises, beq_self_eq_true, if_true]

section
variable {s : State} {a : ArrId} {v : Arrival} (hr : Rising s.arrs) (hlive : s.staleRef v.job = false)
include hr hlive

theorem State.land_refused {sub : Nat} (hf : arrivalFault (handleOf (s.arr a) v.handle) a v v.last = some sub) :
    s.land a v = (s.popLanding a).arrivalFail v sub := by
  have he : handleOf ((s.popLanding a).arr a) v.handle = handleOf (s.arr a) v.handle := by rw [State.arr_popLanding hr]; rfl
  have hstale : (s.popLanding a).staleRef v.job = false := hlive
  simp only [State.land, he, hstale, hf, Bool.false_eq_true, if_false]

theorem State.land_passed (hhost : v.hostBuf = none) (hf : arrivalFault (handleOf (s.arr a) v.handle) a v v.last = none) :
    s.land a v = ((if s.positionBad a v then s.popLanding a
      else (s.popLanding a).landRows a (handleOf (s.arr a) v.handle) v).raiseFlag a v).acknowledge v 0 none [] := by
  have he : handleOf ((s.popLanding a).arr a) v.handle = handleOf (s.arr a) v.handle := by rw [State.arr_popLanding hr]; rfl
  have hstale : (s.popLanding a).staleRef v.job = false := hlive
  simp only [State.land, he, hstale, hf, Bool.false_eq_true, if_false, landChecks_of_no_host hhost]
  rfl

end

/-- Settles O25: what happens to an arrival depends on its job's incarnation, its handle and its position, in this order. -/
theorem arrivalsLandInOrder : Obligations.ArrivalsLandInOrder := by
  unfold Obligations.ArrivalsLandInOrder
  intro s a v rest ha hl haop
  have hexec := exec_loftArrival ha hl haop
  refine ⟨hexec, fun hstale hsrc => ?_, fun e sub he hr hlive hf => ?_, ?_, ?_⟩
  · have hland : s.land a v = (s.popLanding a).dropStale a v := if_pos hstale
    rw [hexec, hland, State.dropStale, hsrc]
  · rw [hexec, State.land_refused hr hlive (he ▸ hf)]
  · intro e he hr hlive hsrc hret hhost hf hbad
    refine ⟨_, hexec, ?_⟩
    rw [State.land_passed hr hlive hhost (he ▸ hf), if_pos hbad]
    have hpop : Rising (s.popLanding a).arrs := rising_mset hr
    have hlofts := (((SameArrs.refl (π
      := Arr.loft) hr).popLanding (fun _ _ => rfl) a).raiseFlag setFlag_loft a v).acknowledge_none
      hsrc hret
    have hqueue := ((SameArrs.refl (π := Arr.landing) hpop).raiseFlag setFlag_landing a v).acknowledge_none hsrc hret
    refine ⟨(hqueue.arr a).trans ?_, hlofts.arr⟩
    rw [State.arr_popLanding hr, hl]
    rfl
  · intro e he hr hlive hsrc hret hhost hgood hf
    refine ⟨_, hexec, ?_⟩
    rw [State.land_passed hr hlive hhost (he ▸ hf), if_neg (ne_true_of_eq_false hgood)]
    have hpop : Rising (s.popLanding a).arrs := rising_mset hr
    have hown := State.arr_popLanding hr a
    have heq : handleOf (s.arr a) v.handle = handleOf ((s.popLanding a).arr a) v.handle := by rw [hown]; rfl
    rw [heq]
    have hmarks := (s.popLanding a).landRows_keeps (π := fun x => (x.landing, x.flags)) hpop a v (fun _ _ _ _ _ _ _ => rfl)
      (handleOf ((s.popLanding a).arr a) v.handle)
    obtain ⟨hloft, hothers⟩ := State.landRows_loft hpop a v
    generalize (s.popLanding a).landRows a (handleOf ((s.popLanding a).arr a) v.handle) v = u at *
    have hlofts := ((SameArrs.refl (π := Arr.loft) hmarks.rising).raiseFlag setFlag_loft a v).acknowledge_none hsrc hret
    have hqueue := ((SameArrs.refl (π := Arr.landing) hmarks.rising).raiseFlag setFlag_landing a v).acknowledge_none hsrc hret
    have hmark : (u.arr a).landing = rest ∧ (u.arr a).flags = (s.arr a).flags := by
      have hm := hmarks.arr a
      rw [hown, hl] at hm
      exact ⟨congrArg Prod.fst hm, congrArg Prod.snd hm⟩
    refine ⟨(hqueue.arr a).trans hmark.1, fun b hb => ?_, ?_, ?_⟩
    · exact (hlofts.arr b).trans ((hothers b hb).trans (((SameArrs.refl (π
      := Arr.loft) hr).popLanding (fun _ _ => rfl) a).arr b))
    · have hrows := (landed_congr (x := (s.popLanding a).arr a) (y := s.arr a) (by rw [hown]; exact ⟨rfl, rfl, rfl,
      rfl⟩) e v).loft
      exact (hlofts.arr a).trans (hloft.trans (he.trans heq ▸ hrows))
    · have hflags := ((SameArrs.refl (π := Arr.flags) (s
      := u.raiseFlag a v) (rising_mset hmarks.rising)).acknowledge_none hsrc hret).arr a
      rw [hflags, State.arr_raiseFlag hmarks.rising, setFlag_flags, hmark.2]

end Sys2Proof.Machine
end

section
/-! Atomics at their home, and the pool units (R116, R121, R139, R155, R258). -/

namespace Sys2Proof.Machine

open Sys2Proof.Stated

/-! ### Atomics -/

theorem atomicCmd_of_head {n : Nat} {s : State} {a : ReadRef} {v : Arrival} {rest : List Arrival} (ha : a.arr.wf = true)
    (hl : (s.arr a.arr).landing = v :: rest) (haop : v.aop = n) : atomicCmd n a s = .next (s.atomic a.arr v a.ecc) := by
  rw [atomicCmd, hl]
  simp only [need, ha, haop, arises, beq_self_eq_true, if_true]

theorem ite_min (w d b : Nat) : sNat w (if sNat w b < sNat w d then b else d) = min (sNat w d) (sNat w b) := by
  split
  · next h => exact (min_eq_right h.le).symm
  · next h => exact (min_eq_left (not_lt.1 h)).symm

theorem ite_max (w d b : Nat) : sNat w (if sNat w d < sNat w b then b else d) = max (sNat w d) (sNat w b) := by
  split
  · next h => exact (max_eq_right h.le).symm
  · next h => exact (max_eq_left (not_lt.1 h)).symm

/-- Settles O26. -/
theorem atomicsExecuteAtTheirHome : Obligations.AtomicsExecuteAtTheirHome := by
  unfold Obligations.AtomicsExecuteAtTheirHome
  constructor
  · intro p hp s a v rest ha hl haop
    simp only [List.mem_cons, List.not_mem_nil, or_false] at hp
    rcases hp with rfl | rfl | rfl | rfl | rfl | rfl | rfl <;> exact atomicCmd_of_head ha hl haop
  · intro q d b n _ _
    refine ⟨fun hd hb => ?_, fun hbad => ?_, sNat_clampSAT (by decide) _, ite_min .., ite_max .., rfl, rfl, rfl, rfl⟩
    · have helem : atomElem 1 q d b n = { new := addMod q d b } := if_neg (by omega)
      rw [helem]
      exact ⟨rfl, rfl⟩
    · have helem : atomElem 1 q d b n = { new := d, bad := true } := if_pos hbad
      rw [helem]
      exact ⟨rfl, rfl⟩

/-! ### Units -/

theorem unitServe_ok {s t : State} {u : UnitReq} (die : Nat) (hfresh : s.unitStale u = false) :
    s.unitServe die u (.ok t) = t.unitDone die u.n := if_neg (ne_true_of_eq_false hfresh)

section
variable {s : State} {die : Nat} {u : UnitReq} (hdie : die < 8)
include hdie

theorem exec_sowerRequest (hu : s.unitHead die 1 = some u) {core : Option Nat} (hc : ∀ c ∈ core, c < 8) :
    exec (.sowerRequest die core) s = .next (match core with
      | some c => s.unitFail die u { kind := 5, sub := c } none
      | none => s.unitServe die u (s.sow u)) := by
  show execSowerRequest die core s = _
  cases core with
  | none => simp only [execSowerRequest, hu, need, decide_eq_true hdie, Bool.and_self, if_true]
  | some c => simp only [execSowerRequest, hu, need, decide_eq_true hdie, decide_eq_true (hc c rfl), Bool.and_self, if_true]

theorem exec_granaryRead (hu : s.unitHead die 2 = some u) (lines : List LineState) :
    exec (.granaryRead die lines) s = .next (s.granServe die u lines) := by
  show execGranaryRead die lines s = _
  simp only [execGranaryRead, hu, need, decide_eq_true hdie, if_true]

variable {unit sub : Nat} {work : State → UnitReq → PairWork} (hu : s.unitHead die unit = some u)
include hu

/-- A thresher or a binder whose work fails drops its request with that fault. -/
theorem pairUnit_error {f : Nat × Nat} (hw : work s u = .error f) (det : UnitDet) :
    pairUnit unit sub work die det s = .next (s.unitFail die u { kind := f.1, sub := f.2 } none) := by
  simp only [pairUnit, hu, hw, need, decide_eq_true hdie, if_true]

variable {t : State} {rows : List (ArrId × Nat)} (hw : work s u = .ok (t, rows))
include hw

/-- One whose detectors report nothing serves it. -/
theorem pairUnit_served (hfresh : s.unitStale u = false) : pairUnit unit sub work die {} s = .next (t.unitDone die u.n) := by
  simp only [pairUnit, hu, hw, need, decide_eq_true hdie, if_true, unitFault, List.any_nil, Bool.false_eq_true, if_false,
    unitServe_ok die hfresh]
  rfl

/-- One whose detectors report a fault drops it. -/
theorem pairUnit_detected {det : UnitDet} {f : Flt} (hf : unitFault det sub rows = some f) (hecc : det.ecc = []) :
    pairUnit unit sub work die det s = .next (s.unitFail die u { f with pos := s.rowsPos rows } none) := by
  simp only [pairUnit, hu, hw, need, decide_eq_true hdie, if_true, hf, State.unitErrors, hecc, List.foldl_nil]

end

/-- A command that serves a thresher or a binder answers each of its faults. -/
theorem unit_detects {s : State} {die unit sub : Nat} {u : UnitReq} {work : State → UnitReq → PairWork} {mk : UnitDet → Instr}
    (hdie : die < 8) (hu : s.unitHead die unit = some u)
    (hmk : ∀ det, exec (mk det) s = pairUnit unit sub work die det s) :
    (∀ f, work s u = .error f → ∀ det, exec (mk det) s = .next (s.unitFail die u { kind := f.1, sub := f.2 } none)) ∧
    (∀ t rows, work s u = .ok (t, rows) →
      exec (mk { mismatch := true }) s = .next (s.unitFail die u { kind := 6, sub := sub, pos := s.rowsPos rows } none) ∧
      ∀ i, exec (mk { reduction := some i }) s =
        .next (s.unitFail die u { kind := 1, point := 6, index := i, pos := s.rowsPos rows } none)) := by
  refine ⟨fun f hw det => (hmk det).trans (pairUnit_error hdie hu hw det), fun t rows hw => ⟨?_, fun i => ?_⟩⟩
  · exact (hmk _).trans (pairUnit_detected hdie hu hw (f := { kind := 6, sub := sub }) rfl rfl)
  · exact (hmk _).trans (pairUnit_detected hdie hu hw (f := { kind := 1, point := 6, index := i }) rfl rfl)

theorem exec_extract {die : Nat} {s : State} (det : UnitDet) :
    exec (.extract die det) s = pairUnit 3 1 State.thresh die det s := rfl

theorem exec_binderRequest {die : Nat} {s : State} (det : UnitDet) :
    exec (.binderRequest die det) s = pairUnit 4 2 State.binderWork die det s := rfl

/-- Settles O27: a served request leaves its list; one that fails leaves it with its fault. -/
theorem unitsServeReleasedRequests : Obligations.UnitsServeReleasedRequests := by
  unfold Obligations.UnitsServeReleasedRequests
  refine ⟨fun s t die u hdie hu hw hfresh => ?_, fun s t die u rows hdie hfresh => ⟨fun hu hw => ?_, fun hu hw => ?_⟩,
    fun s die u lines hdie hu => exec_granaryRead hdie hu lines, fun s die u hdie => ⟨fun hu c hc => ?_, fun e he hu => ?_⟩⟩
  · rw [exec_sowerRequest hdie hu (by simp), hw, unitServe_ok die hfresh]
  · exact pairUnit_served (sub := 1) hdie hu hw hfresh
  · exact pairUnit_served (sub := 2) hdie hu hw hfresh
  · exact exec_sowerRequest hdie hu (by simpa using hc)
  · simp only [List.mem_cons, List.not_mem_nil, or_false] at he
    rcases he with rfl | rfl
    · exact unit_detects hdie hu exec_extract
    · exact unit_detects hdie hu exec_binderRequest

end Sys2Proof.Machine
end

section
/-! Bind points (R314, R316, R317, R385, R409): which jobs a slot takes, and what they and their tenant become. -/

namespace Sys2Proof.Machine

open Sys2Proof.Stated

/-! ### Messages leave the domain's tables alone -/

/-- The domain after messages: only the sequence numbers of what was sent differ. -/
def SentFrom (s t : State) : Prop := t.dom = { s.dom with mseqOut := t.dom.mseqOut }

theorem SentFrom.refl (s : State) : SentFrom s s := rfl

theorem SentFrom.trans {s t u : State} (h : SentFrom s t) (g : SentFrom t u) : SentFrom s u := by
  rw [SentFrom] at *
  rw [g, h]

theorem SentFrom.binds {s t : State} (h : SentFrom s t) : t.dom.binds = s.dom.binds := by rw [h]

theorem txFrame_dom (s : State) (j c : Nat) (f : FrameOut) : (s.txFrame j c f).dom = s.dom :=
  ((Keeps.refl (F := [.links, .out]) s).txFrame).same .dom (by decide)

theorem sendDctl_sent (s : State) (d n : Nat) (fs : List Nat) : SentFrom s (s.sendDctl d n fs) := by
  simp only [SentFrom, State.sendDctl]
  split
  · split
    · rw [txFrame_dom]
    · rfl
  · rfl

theorem sendMembers_sent (s : State) (n : Nat) (fs : List Nat) : SentFrom s (s.sendMembers n fs) :=
  List.foldlRecOn _ _ (motive := fun t => SentFrom s t) (.refl s) fun _ ht _ _ => ht.trans (sendDctl_sent ..)

/-! ### The jobs that a slot takes -/

/-- One turn of the sort keeps what the queue holds. -/
theorem mem_queueOrder {js : List Job} {j : Job} (h : j ∈ queueOrder js) : j ∈ js := by
  rw [queueOrder] at h
  induction js using List.reverseRecOn with
  | nil => exact h
  | append_singleton js k ih =>
    rw [List.foldl_concat, List.append_assoc, List.mem_append, List.mem_append] at h
    rcases h with h | h | h
    · exact List.mem_append_left _ (ih ((List.takeWhile_prefix _).mem h))
    · exact List.mem_append_right _ h
    · exact List.mem_append_left _ (ih ((List.dropWhile_suffix _).mem h))

theorem job?_modJob_of_ne {s : State} {i k : Nat} {f : Job → Job} (hne : k ≠ i) (hidx : ∀ j, (f j).idx = j.idx) :
    (s.modJob i f).job? k = s.job? k := by
  have hkey : ((fun j => j.idx == k) ∘ fun j => if j.idx == i then f j else j) = fun j => j.idx == k := by
    funext j
    by_cases h : j.idx = i <;> simp [h, hidx]
  have hfind : (s.modJob i f).job? k = (s.job? k).map fun j => if j.idx == i then f j else j := by
    rw [State.job?, State.modJob_jobs, List.find?_map, hkey, State.job?]
  rw [hfind]
  cases hj : s.job? k with
  | none => rfl
  | some j =>
    have hjk : j.idx = k := by simpa using List.find?_some hj
    simp [hjk, hne]

theorem job?_of_mem {s : State} {j : Job} (h : j ∈ s.jobs) : ∃ k, s.job? j.idx = some k :=
  Option.isSome_iff_exists.1 (List.find?_isSome.2 ⟨j, h, by simp⟩)

/-- A job is bound to a slot. -/
def BoundTo (q : SlotRec) (s : State) (i : Nat) : Prop := ∃ k, s.job? i = some k ∧ k.st = .bound ∧ k.slot = q.slot

/-- A job takes a position of a slot, and its keys note the time. -/
def State.bindOne (q : SlotRec) (now : Nat) (s : State) (p : Nat × Job) : State :=
  let s := s.modJob p.2.idx fun j => { j with st := .bound, bpos := p.1, slot := q.slot, notBefore := none }
  { s with keys := s.keys.map fun k =>
      if k.tenant == p.2.tenant && p.2.keys.contains k.id then { k with lastBound := now } else k }

/-- A job as it is bound. -/
def asBound (q : SlotRec) (b : Nat) (j : Job) : Job := { j with st := .bound, bpos := b, slot := q.slot, notBefore := none }

theorem asBound_idx (q : SlotRec) (b : Nat) (j : Job) : (asBound q b j).idx = j.idx := rfl

theorem bindOne_job? (q : SlotRec) (now : Nat) (s : State) (p : Nat × Job) (i : Nat) :
    (s.bindOne q now p).job? i = (s.modJob p.2.idx (asBound q p.1)).job? i := rfl

theorem bindOne_self {q : SlotRec} {now : Nat} {s : State} {p : Nat × Job} {j : Job} (h : s.job? p.2.idx = some j) :
    BoundTo q (s.bindOne q now p) p.2.idx := ⟨_, (bindOne_job? ..).trans (job?_modJob h (asBound_idx q p.1)), rfl, rfl⟩

theorem bindOne_isSome {q : SlotRec} {now : Nat} {s : State} {p : Nat × Job} {i : Nat} (h : (s.job? i).isSome) :
    ((s.bindOne q now p).job? i).isSome := by
  obtain ⟨j, hj⟩ := Option.isSome_iff_exists.1 h
  by_cases hi : i = p.2.idx
  · rw [bindOne_job?, hi, job?_modJob (hi ▸ hj) (asBound_idx q p.1)]
    rfl
  · rw [bindOne_job?, job?_modJob_of_ne hi (asBound_idx q p.1)]
    exact h

theorem BoundTo.bindOne {q : SlotRec} {now : Nat} {s : State} {i : Nat} (h : BoundTo q s i) (p : Nat × Job) :
    BoundTo q (s.bindOne q now p) i := by
  obtain ⟨k, hk, hst, hslot⟩ := h
  by_cases hi : i = p.2.idx
  · exact hi ▸ bindOne_self (hi ▸ hk)
  · exact ⟨k, (bindOne_job? ..).trans ((job?_modJob_of_ne hi (asBound_idx q p.1)).trans hk), hst, hslot⟩

/-- Every job of a list that is in the table is bound once the list has been gone through. -/
theorem boundTo_of_mem {q : SlotRec} {now : Nat} {ps : List (Nat × Job)} {s : State}
    (hs : ∀ p ∈ ps, (s.job? p.2.idx).isSome) :
    ∀ p ∈ ps, BoundTo q (ps.foldl (State.bindOne q now) s) p.2.idx := by
  induction ps using List.reverseRecOn with
  | nil => exact fun p hp => absurd hp List.not_mem_nil
  | append_singleton ps r ih =>
    intro p hp
    rw [List.foldl_concat]
    rcases List.mem_append.1 hp with hp | hp
    · exact (ih (fun p hp => hs p (List.mem_append_left _ hp)) p hp).bindOne r
    · have hin := hs p (List.mem_append_right _ hp)
      obtain rfl := List.mem_singleton.1 hp
      have hsome : ((ps.foldl (State.bindOne q now) s).job? p.2.idx).isSome :=
        List.foldlRecOn ps _ (motive := fun t : State => (t.job? p.2.idx).isSome) hin fun _ ht _ _ => bindOne_isSome ht
      obtain ⟨j, hj⟩ := Option.isSome_iff_exists.1 hsome
      exact bindOne_self hj

/-- The run that a slot's jobs make. -/
def runOf' (e : Nat) (q : SlotRec) (ps : List (Nat × Job)) : SlotRun :=
  { slot := q.slot, epoch := e, jobs := ps.map fun p => (p.1, p.2.idx), incs := ps.map fun p => (p.1, p.2.inc) }

theorem bindJobs_eq (s : State) (e : Nat) (q : SlotRec) (ps : List (Nat × Job)) :
    s.bindJobs e q ps =
      let t := ps.foldl (State.bindOne q s.tm.now) s
      let u := ({ t with runs := t.runs ++ [runOf' e q ps] } : State).modSlotStat q.slot fun x =>
        { x with bound := sat32 (x.bound + ps.length) }
      match ps with
      | [] => u
      | p :: _ => u.modTenant p.2.tenant fun t => { t with slotsBound := t.slotsBound + 1 } := rfl

theorem foldl_bindOne {α : Type} {π : State → α} (q : SlotRec) (now : Nat) (hπ : ∀ s p, π (State.bindOne q now s p) = π s)
    (ps : List (Nat × Job)) (s : State) : π (ps.foldl (State.bindOne q now) s) = π s :=
  List.foldlRecOn ps _ (motive := fun t => π t = π s) rfl fun t ht p _ => (hπ t p).trans ht

theorem bindJobs_runs (s : State) (e : Nat) (q : SlotRec) (ps : List (Nat × Job)) :
    (s.bindJobs e q ps).runs = s.runs ++ [runOf' e q ps] := by
  have hfold := foldl_bindOne (π := State.runs) q s.tm.now (fun _ _ => rfl) ps s
  rw [bindJobs_eq]
  cases ps <;> exact congrArg (· ++ [_]) hfold

theorem bindJobs_job? (s : State) (e : Nat) (q : SlotRec) (ps : List (Nat × Job)) (i : Nat) :
    (s.bindJobs e q ps).job? i = (ps.foldl (State.bindOne q s.tm.now) s).job? i := by
  rw [bindJobs_eq]
  cases ps <;> rfl

theorem modTenant_deficit {s : State} (hr : Rising s.tenants) {f : Tenant → Tenant}
    (hf : ∀ x, (f x).deficit = x.deficit) (m n : Nat) :
    ((s.modTenant m f).tenant n).deficit = (s.tenant n).deficit := by
  rw [State.modTenant]
  by_cases hn : n = m
  · rw [hn, State.tenant_setTenant_self hr, hf]
  · rw [State.tenant_setTenant_of_ne _ _ _ _ hn]

/-- Only the number of its slots rises with a tenant's jobs. -/
theorem bindJobs_deficit {s : State} (hr : Rising s.tenants) (e : Nat) (q : SlotRec) (ps : List (Nat × Job)) (n : Nat) :
    ((s.bindJobs e q ps).tenant n).deficit = (s.tenant n).deficit := by
  have hfold := foldl_bindOne (π := State.tenants) q s.tm.now (fun _ _ => rfl) ps s
  have hold : ((ps.foldl (State.bindOne q s.tm.now) s).tenant n).deficit = (s.tenant n).deficit :=
    congrArg (fun m => (mget {} m n : Tenant).deficit) hfold
  rw [bindJobs_eq]
  refine Eq.trans ?_ hold
  cases ps with
  | nil => rfl
  | cons p ps =>
    have ht : Rising ((p :: ps).foldl (State.bindOne q s.tm.now) s).tenants := hfold ▸ hr
    dsimp only
    generalize (p :: ps).foldl (State.bindOne q s.tm.now) s = t at ht ⊢
    exact modTenant_deficit (f := fun t => { t with slotsBound := t.slotsBound + 1 }) ht (fun _ => rfl) _ _

theorem bindJobs_bound {s : State} (e : Nat) (q : SlotRec) {ps : List (Nat × Job)} (hs : ∀ p ∈ ps, p.2 ∈ s.jobs) :
    ∀ p ∈ ps, BoundTo q (s.bindJobs e q ps) p.2.idx := by
  intro p hp
  obtain ⟨k, hk⟩ := boundTo_of_mem (q := q) (now
    := s.tm.now) (fun p hp => Option.isSome_iff_exists.2 (job?_of_mem (hs p hp))) p hp
  exact ⟨k, (bindJobs_job? ..).trans hk.1, hk.2⟩

/-! ### The bind point -/

/-- The instant of a lead's decision (R382). -/
def State.leadNs (s : State) (e : Nat) (q : SlotRec) : Nat :=
  s.bindNs e q - (match s.route with
    | some r => 40 * r.bindLead
    | none => 0)

section
variable {s : State} {e slot : Nat} {q : SlotRec} {p : Program} (hw : s.working = true) (hq : s.slotRec slot = some q)
  (hp : s.program q.prog = some p)
include hw hq hp

theorem exec_bindPoint (hk : q.kind = 0) (hno : ∀ r ∈ s.runs, ¬(r.slot = slot ∧ r.epoch = e)) :
    exec (.bindPoint e slot) s = .next (if spansPackages p then (s.reach (s.bindNs e q)).bindDomain p e q
      else (s.reach (s.bindNs e q)).bindShared p e q) := by
  have hfree : (s.runs.any fun r => r.slot == slot && r.epoch == e) = false := by simpa using hno
  have hprog : (s.reach (s.bindNs e q)).program q.prog = some p := hp
  show execBindPoint e slot s = _
  simp only [execBindPoint, hw, hq, arises, hk, hfree, hprog, beq_self_eq_true, Bool.not_true, Bool.not_false,
    Bool.false_eq_true,
    if_true, if_false]

theorem exec_leadBindDecision (hl : s.isLead = true) (hsp : spansPackages p = true) :
    exec (.leadBindDecision e slot) s = .next ((s.reach (s.leadNs e q)).leadBind p e q) := by
  show execLeadBindDecision e slot s = _
  simp only [execLeadBindDecision, hw, hq, hp, hl, hsp, arises, Bool.and_self, Bool.not_true, Bool.false_eq_true, if_true,
    if_false]
  rfl

end

/-- The entries of a lead's decision name DOMAIN jobs of the table, at most eight and at most the slot's batch. -/
theorem leadBind_binds (s : State) (p : Program) (e : Nat) (q : SlotRec) : ∃ es : List BindEntry,
    (s.leadBind p e q).dom.binds = s.dom.binds ++ [{ epoch := e, slot := q.slot, es := es }] ∧ es.length ≤ min 8 q.batch ∧
    ∀ b ∈ es, ∃ j ∈ s.jobs, j.domain = true ∧ j.jobId = b.jobId ∧ j.inc = b.inc := by
  unfold State.leadBind
  extract_lets el t js es u v
  have hu : u.dom = s.dom := by
    simp only [u]
    cases t <;> rfl
  have hv : v.dom.binds = s.dom.binds := by
    have hsent := sendMembers_sent u 7 ([e, q.slot, es.length] ++ es.flatMap fun b => [b.jobId, b.bpos, b.inc])
    exact (hsent.binds).trans (congrArg Domain.binds hu)
  have hjs : js.length ≤ min 8 q.batch ∧ ∀ j ∈ js, j ∈ el := by
    simp only [js]
    cases t with
    | none => exact ⟨Nat.zero_le _, fun j hj => absurd hj List.not_mem_nil⟩
    | some n => exact ⟨List.length_take_le .., fun j hj => (List.mem_filter.1 (mem_queueOrder (List.mem_of_mem_take hj))).1⟩
  refine ⟨es, congrArg (· ++ _) hv, ?_, fun b hb => ?_⟩
  · simpa only [es, List.length_map, List.length_zipIdx] using hjs.1
  · obtain ⟨x, hx, rfl⟩ := List.mem_map.1 hb
    obtain ⟨hmem, hel⟩ := List.mem_filter.1 (hjs.2 x.1 (List.fst_mem_of_mem_zipIdx hx))
    simp only [Bool.and_eq_true] at hel
    exact ⟨x.1, hmem, hel.1.1.1, rfl, rfl⟩

/-- Settles O28. -/
theorem slotsBindByFairShare : Obligations.SlotsBindByFairShare := by
  unfold Obligations.SlotsBindByFairShare
  refine ⟨fun s e slot q p hw hq hk hno hp hsp => ?_, fun s e slot q p hw hq hk hno hp hsp => ?_,
    fun s e slot q p hw hq hp hl hsp => ?_⟩
  · intro u el
    have hexec : exec (.bindPoint e slot) s = .next (u.bindShared p e q) := by
      rw [exec_bindPoint hw hq hp hk hno, if_neg (ne_true_of_eq_false hsp)]
    refine ⟨fun hnone => hexec.trans (congrArg _ ?_), fun n hmay hr hch => ?_⟩
    · rcases hnone with hmay | hnil
      · simp only [State.bindShared, hmay, Bool.not_false, if_true]
      · have hch : u.chooseTenant (slotCost u.variant q) (el.map (·.tenant)) = none := by rw [hnil]; rfl
        simp only [el] at hch
        simp only [State.bindShared, hch, ite_self]
    · intro js
      have hshared : u.bindShared p e q =
          (u.payFor n (slotCost u.variant q)).bindJobs e q (js.zipIdx.map fun x => (x.2, x.1)) := by
        simp only [el] at hch
        simp only [State.bindShared, hmay, hch, Bool.not_true, Bool.false_eq_true, if_false]
        rfl
      refine ⟨_, hexec.trans (congrArg _ hshared), ?_, ?_, ?_, fun j hj => ?_⟩
      · exact ((Keeps.refl (F := [.tenants, .keys, .jobs, .runs, .slotStats]) _).bindJobs).same .drrPtr (by decide)
      · rw [bindJobs_deficit (rising_mset hr)]
        exact congrArg Tenant.deficit (State.tenant_setTenant_self hr n _)
      · rw [bindJobs_runs, runOf', List.map_map, List.map_map]
        rfl
      · obtain ⟨i, hi⟩ := List.mem_iff_getElem.1 hj
        have hp : (i, j) ∈ js.zipIdx.map fun x => (x.2, x.1) := by
          obtain ⟨hlt, hget⟩ := hi
          exact List.mem_map.2 ⟨(j, i), List.mem_zipIdx_iff_getElem?.2 (hget ▸ List.getElem?_eq_getElem hlt), rfl⟩
        refine bindJobs_bound e q (fun r hr => ?_) _ hp
        obtain ⟨x, hx, rfl⟩ := List.mem_map.1 hr
        exact (List.mem_filter.1 (List.mem_filter.1 (mem_queueOrder (List.mem_of_mem_take
          (List.fst_mem_of_mem_zipIdx hx)))).1).1
  · rw [exec_bindPoint hw hq hp hk hno, if_pos hsp]
  · have hexec := exec_leadBindDecision (e := e) hw hq hp hl hsp
    exact ⟨_, hexec, leadBind_binds (s.reach _) p e q⟩

end Sys2Proof.Machine
end

section
/-! The end of incarnations (R317, R323, R414, R539): an abandoned job is bound to no slot any more,
    and no other job changes. -/

namespace Sys2Proof.Machine

open Sys2Proof.Stated

theorem mem_insertBy {α : Type} {key : α → Nat} {x y : α} {l : List α} : y ∈ insertBy key x l ↔ y = x ∨ y ∈ l := by
  induction l with
  | nil => simp [insertBy]
  | cons z l ih =>
    rw [insertBy]
    split
    · exact List.mem_cons
    · rw [List.mem_cons, ih, List.mem_cons, or_left_comm]

theorem mem_sortBy {α : Type} {key : α → Nat} {y : α} {l : List α} : y ∈ sortBy key l ↔ y ∈ l := by
  rw [sortBy]
  induction l using List.reverseRecOn with
  | nil => rfl
  | append_singleton l x ih => rw [List.foldl_concat, mem_insertBy, ih, List.mem_append, List.mem_singleton, or_comm]

/-! ### One job -/

/-- A job that is in the table and bound to no slot. -/
def Unbound (s : State) (i : Nat) : Prop := ∃ k, s.job? i = some k ∧ k.st ≠ .bound

theorem job?_congr {s t : State} (h : t.jobs = s.jobs) (i : Nat) : t.job? i = s.job? i := by rw [State.job?, h, State.job?]

section
variable {s : State} {i : Nat}

theorem job?_finishJob_of_ne {k : Nat} (hne : k ≠ i) (st d : Nat) : (s.finishJob i st d).job? k = s.job? k :=
  job?_modJob_of_ne hne (by intro; rfl)

theorem job?_finishJob {j : Job} (hj : s.job? i = some j) (st d : Nat) :
    (s.finishJob i st d).job? i = some { j with st := .finished, result := some (st, d, j.inc), doneAt := s.tm.now } :=
  job?_modJob hj fun _ => rfl

theorem job?_returnJob_of_ne {k : Nat} (hne : k ≠ i) (later : Bool) : (s.returnJob i later).job? k = s.job? k := by
  simp only [State.returnJob]
  split
  · rfl
  · split
    · rfl
    · split
      · exact (job?_modJob_of_ne hne (by intro; rfl)).trans (job?_finishJob_of_ne hne ..)
      · exact job?_modJob_of_ne (s := s.nextOrder.2) hne (by intro; rfl)

theorem job?_countedReturn_of_ne {k : Nat}
    (hne : k ≠ i) (tag kind : Nat) : (s.countedReturn i tag kind).job? k = s.job? k := by
  simp only [State.countedReturn]
  split
  · rfl
  · split
    · exact (job?_modJob_of_ne hne (by intro; rfl)).trans
        ((job?_finishJob_of_ne hne ..).trans (job?_modJob_of_ne hne (by intro; rfl)))
    · exact (job?_returnJob_of_ne hne _).trans (job?_modJob_of_ne hne (by intro; rfl))

theorem tellAbandon_jobs (s : State) (j : Job) (inc cause : Nat) : (s.tellAbandon j inc cause).jobs = s.jobs :=
  ((Keeps.refl (F := [.links, .dom, .out]) s).tellAbandon).same .jobs (by decide)

theorem job?_abandonJob_of_ne {k : Nat} (hne : k ≠ i) (counted : Bool) (tag kind cause : Nat) :
    (s.abandonJob i counted tag kind cause).job? k = s.job? k := by
  simp only [State.abandonJob]
  split
  · rfl
  · split
    · split
      · exact (job?_countedReturn_of_ne hne ..).trans (job?_congr (tellAbandon_jobs ..) k)
      · exact (job?_returnJob_of_ne hne _).trans (job?_congr (tellAbandon_jobs ..) k)
    · rfl

/-- A job that returns, or completes at its limit, is not bound. -/
theorem returnJob_unbound {j : Job} (hj : s.job? i = some j) (hst : j.st ≠ .finished) (later : Bool) :
    Unbound (s.returnJob i later) i := by
  rcases lt_or_ge j.inc 63 with hlt | hge
  · obtain ⟨k, hk, hq, -, -⟩ := returnJob_below_limit hj hst hlt later
    exact ⟨k, hk, by rw [hq]; decide⟩
  · obtain ⟨k, hk, hf, -⟩ := returnJob_at_limit hj hst hge later
    exact ⟨k, hk, by rw [hf]; decide⟩

/-- The run of a job's counted incarnations, one longer. -/
def counted (tag kind : Nat) (cls : FaultClass) (n : Nat) (j : Job) : Job :=
  { j with runClass := cls, runLen := n, lastTag := tag, lastKind := kind }

theorem countedReturn_unbound {j : Job} (hj : s.job? i = some j) (hst : j.st ≠ .finished) (tag kind : Nat) :
    Unbound (s.countedReturn i tag kind) i := by
  have hmod (cls : FaultClass) (n : Nat) : (s.modJob i (counted tag kind cls n)).job? i = some (counted tag kind cls n j) :=
    job?_modJob hj fun _ => rfl
  simp only [State.countedReturn, hj]
  split
  · next st d _ => exact ⟨_, job?_modJob (job?_finishJob (hmod _ _) st d) (by intro; rfl), by simp⟩
  · exact returnJob_unbound (hmod _ _) hst _

theorem abandonJob_unbound {j : Job} (hj : s.job? i = some j) (c : Bool) (tag kind cause : Nat) :
    Unbound (s.abandonJob i c tag kind cause) i := by
  simp only [State.abandonJob, hj]
  split
  · next hb =>
    have hst : j.st ≠ .finished := fun h => by rw [h] at hb; exact absurd hb (by decide)
    have hjt := (job?_congr (tellAbandon_jobs s j j.inc cause) i).trans hj
    split
    · exact countedReturn_unbound hjt hst tag kind
    · exact returnJob_unbound hjt hst _
  · next hb => exact ⟨j, hj, fun h => hb (by rw [h]; rfl)⟩

end

/-! ### The jobs of a slot that is abandoned -/

/-- One turn of the abandonment of runs. -/
def State.abandonOne (c : Bool) (kind cause : Nat) (s : State) (e : SlotRun × Nat × Nat) : State :=
  match s.job? e.2.2 with
  | some j => if (e.1.incs.any fun i => i.1 == e.2.1 && i.2 == j.inc) then s.abandonJob e.2.2 c 0 kind cause else s
  | none => s

theorem Unbound.abandonOne {s : State} {i : Nat} (h : Unbound s i) (c : Bool) (kind cause : Nat) (e : SlotRun × Nat × Nat) :
    Unbound (s.abandonOne c kind cause e) i := by
  obtain ⟨k, hk, hst⟩ := h
  simp only [State.abandonOne]
  split
  · next j hj =>
    split
    · by_cases he : i = e.2.2
      · exact he ▸ abandonJob_unbound hj ..
      · exact ⟨k, (job?_abandonJob_of_ne he ..).trans hk, hst⟩
    · exact ⟨k, hk, hst⟩
  · exact ⟨k, hk, hst⟩

/-- A job of the runs, in the incarnation with which it was bound, is not bound when all of them have been gone through. -/
theorem abandonRuns_unbound {s : State} {rs : List SlotRun} {r : SlotRun} {p : Nat × Nat} {j : Job} (hr : r ∈ rs)
    (hp : p ∈ r.jobs)
    (hj : s.job? p.2 = some j) (hinc : (p.1, j.inc) ∈ r.incs) (c : Bool) (kind cause : Nat) :
    Unbound (s.abandonRuns rs c kind cause) p.2 := by
  have hstep (l : List (SlotRun × Nat × Nat)) (t : State) (ht : t.job? p.2 = some j ∨ Unbound t p.2) (hl : (r, p) ∈ l) :
      Unbound (l.foldl (State.abandonOne c kind cause) t) p.2 := by
    induction l generalizing t with
    | nil => exact absurd hl List.not_mem_nil
    | cons e l ih =>
      rw [List.foldl_cons]
      by_cases hdone : Unbound (t.abandonOne c kind cause e) p.2
      · exact List.foldlRecOn l _ (motive := fun u => Unbound u p.2) hdone fun _ hu _ _ => hu.abandonOne ..
      · have hsame : t.job? p.2 = some j := ht.resolve_right fun hu => hdone (hu.abandonOne ..)
        have hne : e ≠ (r, p) := by
          rintro rfl
          have hany : (r.incs.any fun i => i.1 == p.1 && i.2 == j.inc) = true :=
            List.any_eq_true.2 ⟨_, hinc, by simp⟩
          refine hdone ?_
          simp only [State.abandonOne, hsame, hany, if_true]
          exact abandonJob_unbound hsame ..
        have hkept : (t.abandonOne c kind cause e).job? p.2 = some j := by
          simp only [State.abandonOne] at hdone ⊢
          split
          · next k hk =>
            split
            · next hany =>
              simp only [hk, hany, if_true] at hdone
              by_cases he : p.2 = e.2.2
              · exact absurd (he ▸ abandonJob_unbound hk ..) hdone
              · exact (job?_abandonJob_of_ne he ..).trans hsame
            · exact hsame
          · exact hsame
        exact ih _ (.inl hkept) ((List.mem_cons.1 hl).resolve_left fun h => hne h.symm)
  refine hstep _ s (.inl hj) (mem_sortBy.2 (List.mem_flatMap.2 ⟨r, hr, List.mem_map.2 ⟨p, hp, rfl⟩⟩))

end Sys2Proof.Machine
end

section
/-! Slots that are abandoned in the two modes (R321, R322, R323, R336). -/

namespace Sys2Proof.Machine

open Sys2Proof.Stated

/-- An array reads as before where neither arrays nor dies change. -/
theorem Keeps.arr {F : List Field} {s t : State} (h : Keeps F s t) (harrs : .arrs ∉ F) (hdies : .dies ∉ F) (a : ArrId) :
    t.arr a = s.arr a := by
  have ha : t.arrs = s.arrs := h.same .arrs harrs
  have hd : t.dies = s.dies := h.same .dies hdies
  rw [State.arr, State.arr, State.pslot, State.pslot, State.die, State.die, ha, hd]

/-- A run of the same slot and epoch is marked. -/
def marked (r x : SlotRun) : SlotRun := if sameRun x r then { x with abandoned := true } else x

theorem abandonRuns_keeps (s : State) (rs : List SlotRun) (c : Bool) (kind cause : Nat) :
    Keeps [.jobs, .jobSeq, .links, .dom, .out] s (s.abandonRuns rs c kind cause) := (Keeps.refl s).abandonRuns

theorem abandonSlot_runs (s : State) (r : SlotRun) : (s.abandonSlot r).runs = s.runs.map (marked r) := by
  have hruns := (abandonRuns_keeps s [r] true 10 10).same .runs (by decide)
  simp only [State.abandonSlot, State.markAbandoned]
  split
  · exact congrArg (List.map (marked r)) hruns
  · exact congrArg (List.map (marked r)) hruns

theorem abandonSlot_jobs (s : State) (r : SlotRun) : (s.abandonSlot r).jobs = (s.abandonRuns [r] true 10 10).jobs := by
  simp only [State.abandonSlot, State.markAbandoned]
  split <;> rfl

theorem abandonSlot_unbound {s : State} {r : SlotRun} {p : Nat × Nat} {j : Job} (hp : p ∈ r.jobs) (hj : s.job? p.2 = some j)
    (hinc : (p.1, j.inc) ∈ r.incs) : Unbound (s.abandonSlot r) p.2 := by
  obtain ⟨k, hk, hst⟩ := abandonRuns_unbound (List.mem_singleton.2 rfl) hp hj hinc true 10 10
  exact ⟨k, (job?_congr (abandonSlot_jobs s r) _).trans hk, hst⟩

theorem abandonSlot_counts {s : State} (hr : Rising s.slotStats) (r : SlotRun) :
    (mget {} (s.abandonSlot r).slotStats r.slot : SlotStat).abandoned =
      if r.faulted then (mget {} s.slotStats r.slot : SlotStat).abandoned
      else bump (mget {} s.slotStats r.slot : SlotStat).abandoned := by
  have hstats := (abandonRuns_keeps s [r] true 10 10).same .slotStats (by decide)
  simp only [State.abandonSlot, State.markAbandoned, Bool.true_and]
  split
  · exact congrArg (fun m => (mget {} m r.slot : SlotStat).abandoned) hstats
  · have hset := mget_mset_self ({} : SlotStat) (hstats ▸ hr : Rising (s.abandonRuns [r] true 10 10).slotStats) r.slot
      { mget {} (s.abandonRuns [r] true 10 10).slotStats r.slot with
        abandoned := bump (mget {} (s.abandonRuns [r] true 10 10).slotStats r.slot : SlotStat).abandoned }
    refine (congrArg SlotStat.abandoned hset).trans ?_
    exact congrArg (fun m => bump (mget {} m r.slot : SlotStat).abandoned) hstats

/-- What the abandonment of a slot's run does to the runs, the slot's counter and the jobs. -/
structure Gone (s : State) (slot : Nat) (r : SlotRun) (t : State) : Prop where
  runs : t.runs = s.runs.map (marked r)
  counts : Rising s.slotStats → (mget {} t.slotStats slot).abandoned =
    if r.faulted then (mget {} s.slotStats slot).abandoned else bump (mget {} s.slotStats slot).abandoned
  jobs : ∀ e ∈ r.jobs, ∀ j, s.job? e.2 = some j → j.st = .bound → (e.1, j.inc) ∈ r.incs → Unbound t e.2

/-- The slot is abandoned on a state whose runs and jobs are as before, and whose counter stands. -/
theorem abandonSlot_gone {s u : State} {slot : Nat} {r : SlotRun} (hslot : r.slot = slot) (hruns : u.runs = s.runs)
    (hjobs : u.jobs = s.jobs) (hrise : Rising s.slotStats → Rising u.slotStats)
    (hstat : Rising s.slotStats → (mget {} u.slotStats slot).abandoned = (mget {} s.slotStats slot).abandoned) :
    Gone s slot r (u.abandonSlot r) := by
  subst hslot
  refine ⟨(abandonSlot_runs u r).trans (by rw [hruns]), fun hr => ?_, fun e he j hj _ hinc => ?_⟩
  · rw [abandonSlot_counts (hrise hr), hstat hr]
  · exact abandonSlot_unbound he ((job?_congr hjobs _).trans hj) hinc

section
variable {s : State} {slot : Nat} {q : SlotRec} {p : Plan} {r : SlotRun} (hp : s.plan = some p) (hq : s.slotRec slot = some q)
  (hr : s.running? slot = some r) (hk : q.kind = 0) (hlive : r.abandoned = false)

include hr in
theorem running_slot : r.slot = slot := by
  have h := List.find?_some hr
  simp only [Bool.and_eq_true, beq_iff_eq] at h
  exact h.1

include hp hq hr hk hlive

theorem exec_slotPacedAbandon (hpaced : p.realTime = false)
    (hlate : limitQuantum s.template q * s.perQuantum < s.actualEnd q) :
    exec (.slotPacedAbandon slot) s =
      .next ((s.reach (s.absEpoch r.epoch * 1000000 + 40 * limitQuantum s.template q)).abandonSlot r) := by
  show execSlotPacedAbandon slot s = _
  simp only [execSlotPacedAbandon, hq, hr, hp, hk, hlive, hpaced, arises, Option.any_some, Bool.not_false, beq_self_eq_true,
    decide_eq_true hlate, Bool.and_self, if_true]
  rfl

theorem exec_slotDeadlineAbandon {a : ArrId} (hreal : p.realTime = true) (ha : a.wf = true)
    (hocc : slotOccupies s.variant q a = true)
    (hw : (s.arr a).waiting = true)
    (hflag : (s.arr a).heldGroup ≠ 0 → (s.arr a).flags.getLsbD (s.arr a).heldGroup = false) :
    exec (.slotDeadlineAbandon slot a (s.arr a).heldGroup (s.arr a).heldAt (s.arr a).heldTag) s =
      .next ((s.reach (s.slotNs r.epoch q +
        ((s.arr a).heldAt + (q.tolerance * s.perQuantum + 1)) * 40 / s.perQuantum)).deadline r a (s.arr a).heldGroup
          (s.arr a).heldAt
          (s.arr a).heldTag (q.tolerance * s.perQuantum + 1) (s.arr a).held) := by
  have hclear : ((s.arr a).heldGroup != 0 && (s.arr a).flags.getLsbD (s.arr a).heldGroup) = false := by
    by_cases h0 : (s.arr a).heldGroup = 0
    · rw [h0]
      rfl
    · rw [hflag h0, Bool.and_false]
  show execSlotDeadlineAbandon slot a _ _ _ s = _
  simp only [execSlotDeadlineAbandon, need, ha, hq, hr, hp, hk, hlive, hreal, hocc, hw, hclear, arises, Option.any_some,
    Bool.not_false,
    beq_self_eq_true, Bool.and_self, if_true]

end

/-! ### The DEADLINE record -/

/-- The state with the DEADLINE record, before the slot is abandoned. -/
def State.recorded (s : State) (r : SlotRun) (a : ArrId) (group cycle tag late : Nat) (word : BitVec 256) : State :=
  let s := (s.noteDelay r.slot late).modArr a fun x => { x with delay := max x.delay late }
  let f : FaultRec :=
    s.faultRec { a := a, tag := tag, word := word } { kind := 10, sub := 1, index := group, cycle := cycle } (some r)
      (namedPos r none)
  let s := s.modArr a fun x => { x with lastFault := some f, cnt := { x.cnt with deadline := bump x.cnt.deadline } }
  let s := s.logBody 0x01 a.die (globalOf a) 0 (some f)
  s.trace? a 6 f.stage tag (s.slotTime a cycle) cycle 0 f.stream f.inc

theorem deadline_eq (s : State) (r : SlotRun) (a : ArrId) (group cycle tag late : Nat) (word : BitVec 256) :
    s.deadline r a group cycle tag late word = (s.recorded r a group cycle tag late word).abandonSlot r := rfl

/-- An array that is not at its defaults reads as it was set, in any table. -/
theorem arr_setArr_of_changed {s : State} {a : ArrId} {x : Arr} (h : x ≠ {}) : (s.setArr a x).arr a = x :=
  mget_mset_self_of_ne ({} : Arr) s.arrs _ x h

section
variable {s : State} {r : SlotRun} {a : ArrId} {group cycle tag late : Nat} {word : BitVec 256}

theorem recorded_keeps : Keeps [.pw, .slotStats, .arrs, .hm, .trace] s (s.recorded r a group cycle tag late word) :=
  (Keeps.refl s).noteDelay.modArr.modArr.logBody.trace?

theorem recorded_slotStats : (s.recorded r a group cycle tag late word).slotStats = (s.noteDelay r.slot late).slotStats :=
  ((Keeps.refl (F := [.pw, .arrs, .hm,
    .trace]) (s.noteDelay r.slot late)).modArr.modArr.logBody.trace?).same .slotStats (by decide)

theorem noteDelay_rising (hr : Rising s.slotStats) (slot d : Nat) : Rising (s.noteDelay slot d).slotStats := by
  simp only [State.noteDelay]
  split
  · exact hr
  · exact rising_mset hr

theorem noteDelay_abandoned (hr : Rising s.slotStats) (slot d k : Nat) :
    (mget {} (s.noteDelay slot d).slotStats k : SlotStat).abandoned = (mget {} s.slotStats k : SlotStat).abandoned := by
  simp only [State.noteDelay]
  split
  · rfl
  · by_cases hk : k = slot
    · rw [hk]
      exact (congrArg SlotStat.abandoned (mget_mset_self ({} : SlotStat) hr slot _)).trans rfl
    · exact congrArg SlotStat.abandoned (mget_mset_of_ne ({} : SlotStat) s.slotStats slot k _ hk)

/-- The array with the record. -/
theorem recorded_arr (hlate : 0 < late) : ∃ f, ((s.recorded r a group cycle tag late word).arr a).lastFault = some f ∧
    f.kind = 10 ∧ f.sub = 1 ∧ f.index = group ∧ f.cycle = cycle ∧ f.tag = tag ∧
    ((s.recorded r a group cycle tag late word).arr a).cnt.deadline = bump (s.arr a).cnt.deadline := by
  unfold State.recorded
  extract_lets u f v w
  have hu : u.arr a = { s.arr a with delay := max (s.arr a).delay late } := by
    have hbefore : (s.noteDelay r.slot late).arr a = s.arr a := by
      simp only [State.noteDelay]
      split <;> rfl
    have hne : ({ s.arr a with delay := max (s.arr a).delay late } : Arr) ≠ {} := fun h => by
      have hd : max (s.arr a).delay late = 0 := congrArg Arr.delay h
      omega
    exact hbefore ▸ arr_setArr_of_changed (hbefore ▸ hne)
  have hv : v.arr a = { u.arr a with lastFault := some f, cnt := { (u.arr a).cnt with deadline := bump (u.arr a).cnt.deadline } } := by
    refine arr_setArr_of_changed fun h => ?_
    exact absurd (congrArg Arr.lastFault h) (by simp)
  have hlast : ((w.trace? a 6 f.stage tag (w.slotTime a cycle) cycle 0 f.stream f.inc).arr a) = v.arr a := by
    have hk : Keeps [.pw, .hm, .trace] v (w.trace? a 6 f.stage tag (w.slotTime a cycle) cycle 0 f.stream f.inc) :=
      (Keeps.refl v).logBody.trace?
    exact hk.arr (by decide) (by decide) a
  rw [hlast, hv]
  exact ⟨f, rfl, rfl, rfl, rfl, rfl, rfl, by rw [hu]⟩

end

/-- Settles O30: both modes abandon the run on a state that has only the record more. -/
theorem slotsAreAbandoned : Obligations.SlotsAreAbandoned := by
  unfold Obligations.SlotsAreAbandoned
  intro s slot q p r hp hq hr hk hlive
  refine ⟨fun hpaced hlate => ⟨_, exec_slotPacedAbandon hp hq hr hk hlive hpaced hlate, ?_, ?_⟩, ?_⟩
  · exact ((Keeps.refl (F := [.jobs, .jobSeq, .runs, .slotStats, .links, .dom, .out]) _).abandonSlot).same .tm (by decide)
  · obtain ⟨h1, h2, h3⟩ := abandonSlot_gone (s := s)
      (u := s.reach (s.absEpoch r.epoch * 1000000 + 40 * limitQuantum s.template q)) (running_slot hr) rfl rfl id fun _ => rfl
    exact ⟨h1, h2, h3⟩
  · rintro a g c tag hreal ha hocc hw rfl rfl rfl hflag
    refine ⟨_, exec_slotDeadlineAbandon hp hq hr hk hlive hreal ha hocc hw hflag, ?_⟩
    rw [deadline_eq]
    generalize hu : s.reach (s.slotNs r.epoch q + ((s.arr a).heldAt +
      (q.tolerance * s.perQuantum + 1)) * 40 / s.perQuantum) = u
    have hrec := recorded_keeps (s := u) (r := r) (a := a) (group := (s.arr a).heldGroup) (cycle := (s.arr a).heldAt)
      (tag := (s.arr a).heldTag) (late := q.tolerance * s.perQuantum + 1) (word := (s.arr a).held)
    obtain ⟨f, hf⟩ := recorded_arr (s := u) (r := r) (a := a) (group := (s.arr a).heldGroup) (cycle := (s.arr a).heldAt)
      (tag := (s.arr a).heldTag) (late := q.tolerance * s.perQuantum + 1) (word := (s.arr a).held) (Nat.succ_pos _)
    have hstats := recorded_slotStats (s := u) (r := r) (a := a) (group := (s.arr a).heldGroup) (cycle := (s.arr a).heldAt)
      (tag := (s.arr a).heldTag) (late := q.tolerance * s.perQuantum + 1) (word := (s.arr a).held)
    generalize u.recorded r a (s.arr a).heldGroup (s.arr a).heldAt (s.arr a).heldTag (q.tolerance * s.perQuantum + 1)
      (s.arr a).held = v at *
    subst hu
    have hkept := (Keeps.refl (F := [.jobs, .jobSeq, .runs, .slotStats, .links, .dom, .out]) v).abandonSlot (r := r)
    have hown : (v.abandonSlot r).arr a = v.arr a := hkept.arr (by decide) (by decide) a
    obtain ⟨h1, h2, h3⟩ := abandonSlot_gone (s := s) (u := v) (running_slot hr) (hrec.same .runs (by decide))
      (hrec.same .jobs (by decide)) (fun h => hstats ▸ noteDelay_rising (s := s.reach _) h _ _) fun h => by
        rw [hstats]
        exact noteDelay_abandoned (s := s.reach _) h _ _ _
    refine ⟨(hkept.same .tm (by decide)).trans (hrec.same .tm (by decide)), ⟨h1, h2, h3⟩, ?_, f, ?_⟩
    · rw [hown]
      exact hf.2.2.2.2.2.2
    · rw [hown]
      exact ⟨hf.1, hf.2.1, hf.2.2.1, hf.2.2.2.1, hf.2.2.2.2.1, hf.2.2.2.2.2.1⟩

end Sys2Proof.Machine
end

section
/-! Slots that start and end (R77, R183, R312, R316, R321, R346, R354). -/

namespace Sys2Proof.Machine

open Sys2Proof.Stated

/-! ### A JOB slot starts -/

/-- The state at the shifted START of a slot, before the shift is counted. -/
def State.atStart (s : State) (e : Nat) (q : SlotRec) : State :=
  let u := s.reach (s.slotNs e q)
  u.reach (u.slotNs e q + u.shiftOf q * 40 / u.perQuantum)

theorem startShifted_snd (s : State) (e : Nat) (q : SlotRec) : (s.startShifted e q).2 = (s.reach (s.slotNs e q)).shiftOf q
    := rfl

theorem startShifted_keeps (s : State) (e : Nat) (q : SlotRec) :
    Keeps [.slotStats] (s.atStart e q) (s.startShifted e q).1 := by
  simp only [State.startShifted]
  split
  · exact .refl _
  · exact (Keeps.refl (s.atStart e q)).modSlotStat

theorem startRun_keeps (s : State) (p : Plan) (q : SlotRec) (d : Nat) : Keeps [.arrs, .trace, .slotStats] s
    ((s.startRun p q d).noteDelay q.slot d) := (Keeps.refl s).startRun.noteDelay

/-- What clearing at a slot's start leaves of an array (R77). -/
def Cleared (d : Nat) (x : Arr) : Prop :=
  x.crib = [] ∧ x.acc = [] ∧ x.status = 0 ∧ x.flags = 0 ∧ x.aq = [] ∧ x.oq = [] ∧ x.tokens = 0 ∧ x.delay = d

theorem startArr_cleared (start base d : Nat) (es : List HMapEnt) (x : Arr) : Cleared d (startArr start base d es x) :=
  ⟨rfl, rfl, rfl, rfl, rfl, rfl, rfl, rfl⟩

/-- An array after the start of its slot on it. -/
def State.startOne (p : Plan) (q : SlotRec) (d : Nat) (s : State) (a : ArrId) : State :=
  let c := codeAt p s.vs.current q.prog a
  let es := (hmapEnts (hmapOf p q.hmap true) a).map fun e => { e with entry := s.placeHandle a e.handle e.entry }
  (s.modArr a (startArr c.2.start c.1 d es)).traceClearing q d a

theorem startRun_eq (s : State) (p : Plan) (q : SlotRec) (d : Nat) :
    s.startRun p q d = (slotArrs s.variant q).foldl (State.startOne p q d) s := rfl

section
variable {p : Plan} {q : SlotRec} {d : Nat} {s : State}

theorem startOne_keeps (a : ArrId) : Keeps [.arrs, .trace] s (s.startOne p q d a) := (Keeps.refl s).modArr.traceClearing

theorem startOne_rising (hr : Rising s.arrs) (a : ArrId) : Rising (s.startOne p q d a).arrs := by
  unfold State.startOne
  extract_lets c es
  have harrs : ((s.modArr a (startArr c.2.start c.1 d es)).traceClearing q d a).arrs = (s.modArr a
    (startArr c.2.start c.1 d es)).arrs :=
    ((Keeps.refl (F := [.trace]) _).traceClearing).same .arrs (by decide)
  exact harrs ▸ rising_mset hr

theorem startOne_place (hr : Rising s.arrs) (a : ArrId) (k : Nat) :
    if k = s.key a then Cleared d ((s.startOne p q d a).place k) else (s.startOne p q d a).place k = s.place k := by
  unfold State.startOne
  extract_lets c es
  have harrs : ((s.modArr a (startArr c.2.start c.1 d es)).traceClearing q d a).arrs = (s.modArr a
    (startArr c.2.start c.1 d es)).arrs :=
    ((Keeps.refl (F := [.trace]) _).traceClearing).same .arrs (by decide)
  have hplace := State.place_modArr hr a (startArr c.2.start c.1 d es) k
  simp only [State.place] at hplace ⊢
  rw [harrs, hplace]
  split
  · exact startArr_cleared ..
  · rfl

/-- Every array of the slot is cleared: a later turn clears again, or leaves it. -/
theorem startRun_cleared (hr : Rising s.arrs) {a : ArrId}
    (ha : a ∈ slotArrs s.variant q) : Cleared d ((s.startRun p q d).arr a) := by
  have hfold (l : List ArrId) (t : State) (hkey : ∀ b, t.key b = s.key b) (htr : Rising t.arrs)
      (hl : a ∈ l ∨ Cleared d (t.place (s.key a))) : Cleared d ((l.foldl (State.startOne p q d) t).place (s.key a)) := by
    induction l generalizing t with
    | nil => exact hl.resolve_left List.not_mem_nil
    | cons b l ih =>
      have hk := startOne_keeps (p := p) (q := q) (d := d) (s := t) b
      have hplace := startOne_place (p := p) (q := q) (d := d) htr b (s.key a)
      refine ih _ (fun c => (State.key_of_dies (hk.same .dies (by decide)) c).trans (hkey c)) (startOne_rising htr b) ?_
      by_cases hab : s.key a = t.key b
      · rw [if_pos hab] at hplace
        exact .inr hplace
      · rw [if_neg hab] at hplace
        rcases hl with hl | hl
        · refine .inl ((List.mem_cons.1 hl).resolve_left fun h => hab ?_)
          rw [h, hkey]
        · exact .inr (hplace ▸ hl)
  have hk : Keeps [.arrs, .trace] s (s.startRun p q d) := (Keeps.refl s).startRun
  have hkey : (s.startRun p q d).key a = s.key a := State.key_of_dies (hk.same .dies (by decide)) a
  show Cleared d ((s.startRun p q d).place ((s.startRun p q d).key a))
  rw [hkey]
  exact hfold _ s (fun _ => rfl) hr (.inl ha)

end

/-! ### Runs and jobs at the end -/

theorem exec_slotEnd {s : State} {slot : Nat} {q : SlotRec} (hq : s.slotRec slot = some q) :
    exec (.slotEnd slot) s = .next (match s.running? slot with
      | none => s
      | some r => if q.kind = 2 then (s.reach (s.slotNs r.epoch q + 40 * q.length)).dropRun r else s.endRun q r) := by
  show execSlotEnd slot s = _
  rw [execSlotEnd, hq] <;> rfl

/-- A job is finished. -/
def Finished (s : State) (i : Nat) : Prop := ∃ k, s.job? i = some k ∧ k.st = .finished

/-- One turn of the completion of a slot's jobs. -/
def State.completeOne (r : SlotRun) (flags : Nat) (s : State) (p : Nat × Nat) : State :=
  match s.job? p.2 with
  | some j =>
    if j.st == .bound && r.incs.contains (p.1, j.inc) then
      let s := s.modJob p.2 fun j => { j with flags := flags }
      (match r.bad.find? fun b => b.1 == p.1 with
       | some b => s.finishJob p.2 0x01 b.2
       | none => s.finishJob p.2 0 0)
    else s
  | none => s

theorem completeBound_eq (s : State) (r : SlotRun) (flags : Nat) :
    s.completeBound r flags = r.jobs.foldl (State.completeOne r flags) s := rfl

section
variable {s : State} {r : SlotRun} {flags : Nat}

/-- A job with the flags of its slot. -/
def flagged (flags : Nat) (j : Job) : Job := { j with flags := flags }

theorem completeOne_of_bound {p : Nat × Nat} {j : Job} (hj : s.job? p.2 = some j) (hb : j.st = .bound)
    (hinc : (p.1, j.inc) ∈ r.incs) :
    ∃ st d, s.completeOne r flags p = (s.modJob p.2 (flagged flags)).finishJob p.2 st d := by
  have hcond : (j.st == .bound && r.incs.contains (p.1, j.inc)) = true := by simp [hb, hinc]
  simp only [State.completeOne, hj, hcond, if_true]
  split
  · exact ⟨_, _, rfl⟩
  · exact ⟨_, _, rfl⟩

theorem completeOne_cases (p : Nat × Nat) : s.completeOne r flags p = s ∨ ∃ st d,
    s.completeOne r flags p = (s.modJob p.2 (flagged flags)).finishJob p.2 st d := by
  cases hj : s.job? p.2 with
  | none => exact .inl (by simp only [State.completeOne, hj])
  | some j =>
    by_cases hcond : j.st = .bound ∧ (p.1, j.inc) ∈ r.incs
    · exact .inr (completeOne_of_bound hj hcond.1 hcond.2)
    · exact .inl (by simp [State.completeOne, hj, hcond])

theorem job?_completeOne_of_ne {i : Nat} {p : Nat × Nat} (hne : i ≠ p.2) : (s.completeOne r flags p).job? i = s.job? i := by
  rcases completeOne_cases (s := s) (r := r) (flags := flags) p with h | ⟨st, d, h⟩
  · rw [h]
  · rw [h]
    exact (job?_finishJob_of_ne hne ..).trans (job?_modJob_of_ne hne (by intro; rfl))

theorem finished_after {i : Nat} {j : Job} (hj : s.job? i = some j) (st d : Nat) :
    Finished ((s.modJob i (flagged flags)).finishJob i st d) i :=
  ⟨_, job?_finishJob (job?_modJob hj (by intro; rfl)) st d, rfl⟩

theorem Finished.completeOne {i : Nat} (h : Finished s i) (p : Nat × Nat) : Finished (s.completeOne r flags p) i := by
  obtain ⟨k, hk, hst⟩ := h
  by_cases hi : i = p.2
  · rcases completeOne_cases (s := s) (r := r) (flags := flags) p with h | ⟨st, d, h⟩
    · rw [h]
      exact ⟨k, hk, hst⟩
    · rw [h, hi]
      exact finished_after (hi ▸ hk) st d
  · exact ⟨k, (job?_completeOne_of_ne hi).trans hk, hst⟩

/-- Every bound job of the run, in its incarnation, is finished. -/
theorem completeBound_finished {p : Nat × Nat} {j : Job} (hp : p ∈ r.jobs) (hj : s.job? p.2 = some j) (hb : j.st = .bound)
    (hinc : (p.1, j.inc) ∈ r.incs) : Finished (s.completeBound r flags) p.2 := by
  have hfold (l : List (Nat × Nat)) (t : State) (ht : t.job? p.2 = some j) (hl : p ∈ l) :
      Finished (l.foldl (State.completeOne r flags) t) p.2 := by
    induction l generalizing t with
    | nil => exact absurd hl List.not_mem_nil
    | cons e l ih =>
      rw [List.foldl_cons]
      by_cases hdone : Finished (t.completeOne r flags e) p.2
      · exact List.foldlRecOn l _ (motive := fun u => Finished u p.2) hdone fun _ hu _ _ => hu.completeOne _
      · have hsame : t.completeOne r flags e = t ∨ e.2 ≠ p.2 := by
          rcases completeOne_cases (s := t) (r := r) (flags := flags) e with h | ⟨st, d, h⟩
          · exact .inl h
          · refine .inr fun he => hdone ?_
            rw [h, he]
            exact finished_after ht st d
        have hkept : (t.completeOne r flags e).job? p.2 = some j := by
          rcases hsame with h | h
          · rw [h, ht]
          · exact (job?_completeOne_of_ne h.symm).trans ht
        refine ih _ hkept ((List.mem_cons.1 hl).resolve_left ?_)
        rintro rfl
        obtain ⟨st, d, h⟩ := completeOne_of_bound (flags := flags) ht hb hinc
        exact hdone (h ▸ finished_after ht st d)
  exact hfold _ s hj hp

end

/-! ### The FALLOW slot -/

/-- The time base but for what the replicas hold. -/
def SameTime (t u : TimeSt) : Prop := u = { t with replOff := u.replOff, replicaErr := u.replicaErr }

theorem SameTime.refl (t : TimeSt) : SameTime t t := rfl

theorem SameTime.trans {t u v : TimeSt} (h : SameTime t u) (g : SameTime u v) : SameTime t v := by
  rw [SameTime] at *
  rw [g, h]

/-- A replica that differs is reloaded and counted. -/
def State.reloaded (s : State) (r : Nat × Int) : State :=
  ({ s with tm := { s.tm with replOff := mset 0 s.tm.replOff r.1 0, replicaErr := bump s.tm.replicaErr } } : State).log 0x42 r.1 0 r.1

theorem reloaded_time (s : State) (r : Nat × Int) : SameTime s.tm (s.reloaded r).tm := by
  have hlog : (s.reloaded r).tm = { s.tm with replOff := mset 0 s.tm.replOff r.1 0, replicaErr := bump s.tm.replicaErr } :=
    ((Keeps.refl (F := [.pw, .hm]) _).log).same .tm (by decide)
  rw [SameTime, hlog]

theorem checkReplicas_eq (s : State) : s.checkReplicas = s.tm.replOff.foldl (fun s r =>
    if r.1 < 8 then (s.reloaded r).modDie r.1 fun d => { d with reloads := d.reloads ++ [(s.reloaded r).minute] }
    else s.reloaded r) s := rfl

theorem checkReplicas_time (s : State) : SameTime s.tm s.checkReplicas.tm := by
  rw [checkReplicas_eq]
  refine List.foldlRecOn s.tm.replOff _ (motive := fun u : State => SameTime s.tm u.tm) (.refl _) fun u hu r _ => hu.trans ?_
  split
  · exact reloaded_time u r
  · exact reloaded_time u r

/-- The FALLOW slot's own run, before the replicas are compared. -/
def State.fallowBegun (s : State) (slot : Nat) (q : SlotRec) (rs : List (Nat × Nat)) : State :=
  let s := s.reach (s.epochStart + 40 * q.start)
  let run : SlotRun := { slot := slot, epoch := s.epoch, started := true }
  let s := { s with runs := s.runs ++ [run] }
  (s.setReplicas rs).checkReplicas

theorem exec_fallowSlotStart {s : State} {slot : Nat} {q : SlotRec} {rs : List (Nat × Nat)} (hw : s.working = true)
    (hq : s.slotRec slot = some q) (hk : q.kind = 2) (hno : s.running? slot = none) :
    exec (.fallowSlotStart slot rs) s = .next (((s.fallowBegun slot q rs).timeStep q).measureDelays.drainTrace) := by
  show execFallowSlotStart slot rs s = _
  simp only [execFallowSlotStart, hw, hq, hk, hno, arises, Bool.not_true, Bool.false_eq_true, if_false, Option.isNone_none,
    beq_self_eq_true, Bool.and_self, if_true]
  rfl

/-- The slot's run. -/
def State.fallowRun (s : State) (slot : Nat) (q : SlotRec) : SlotRun :=
  { slot := slot, epoch := (s.reach (s.epochStart + 40 * q.start)).epoch, started := true }

theorem fallowBegun_time (s : State) (slot : Nat) (q : SlotRec) (rs : List (Nat × Nat)) :
    SameTime (s.reach (s.epochStart + 40 * q.start)).tm (s.fallowBegun slot q rs).tm :=
  SameTime.trans (u := (({ s.reach (s.epochStart + 40 * q.start) with
    runs := s.runs ++ [s.fallowRun slot q] } : State).setReplicas rs).tm) rfl (checkReplicas_time _)

/-- The first instant of a step of the FALLOW slot that begins: 1 µs from now and 50 µs from the last step. -/
def TimeSt.stepAt (t : TimeSt) : Nat := max (t.now + 1000) (match t.lastStep with
  | some n => n + 50000
  | none => 0)

theorem timeStep_eq (s : State) (q : SlotRec) : s.timeStep q =
    if s.tm.stepsDue == 0 || decide (s.tm.now + 40 * q.length < s.tm.stepAt + 1005) then s
    else { s with tm := { s.tm with dueStep := some (s.tm.stepAt, decide (0 < s.tm.stepsDue)) } } := rfl

theorem stepAt_of_none {t : TimeSt} (h : t.lastStep = none) : t.stepAt = t.now + 1000 := by
  rw [TimeSt.stepAt, h]
  exact Nat.max_eq_left (Nat.zero_le _)

theorem stepAt_of_some {t : TimeSt} {n : Nat} (h : t.lastStep = some n)
    (hn : t.now + 1000 ≤ n + 50000) : t.stepAt = n + 50000 := by
  rw [TimeSt.stepAt, h]
  exact Nat.max_eq_right hn

theorem timeStep_none {s : State} {q : SlotRec} (h : s.tm.stepsDue = 0) : s.timeStep q = s := by
  rw [timeStep_eq, h]
  rfl

/-- A step that the slot has room for is due. -/
theorem timeStep_due {s : State} {q : SlotRec} (h : s.tm.stepsDue ≠ 0)
    (hfit : s.tm.stepAt + 1005 ≤ s.tm.now + 40 * q.length) :
    s.timeStep q = { s with tm := { s.tm with dueStep := some (s.tm.stepAt, decide (0 < s.tm.stepsDue)) } } := by
  rw [timeStep_eq, beq_eq_false_iff_ne.2 h, decide_eq_false hfit.not_gt]
  rfl

theorem timeStep_other (s : State) (q : SlotRec) : (s.timeStep q).tm = { s.tm with dueStep := (s.timeStep q).tm.dueStep }
    := by
  rw [timeStep_eq]
  split <;> rfl

theorem fallow_after (s : State) : Keeps [.links, .hm, .out, .trace, .hostMem] s s.measureDelays.drainTrace :=
  (Keeps.refl s).measureDelays.drainTrace

theorem timeStep_keeps (s : State) (q : SlotRec) : Keeps [.tm] s (s.timeStep q) := (Keeps.refl s).timeStep

theorem fallowBegun_runs (s : State) (slot : Nat) (q : SlotRec) (rs : List (Nat × Nat)) :
    (s.fallowBegun slot q rs).runs =
      s.runs ++ [{ slot := slot, epoch := (s.reach (s.epochStart + 40 * q.start)).epoch, started := true }] :=
  ((Keeps.refl (F := [.pw, .tm, .dies, .hm]) _).setReplicas.checkReplicas).same .runs (by decide)

theorem exec_slotStart {s : State} {slot : Nat} {ls : List LineState} {q : SlotRec} {p : Plan} (hw : s.working = true)
    (hq : s.slotRec slot = some q) (hp : s.plan = some p) (hno : s.running? slot = none) (hrel : s.vs.relocking = false)
    (hk : q.kind ≠ 2) :
    exec (.slotStart ⟨slot, ls⟩) s = .next (if q.kind = 1 then s.startInstall p q ls
      else match s.waiting? slot with
        | some r => s.startJob p q r
        | none => s) := by
  have hcond : (q.kind != 2 && (s.running? slot).isNone) = true := by simp [hk, hno]
  show execSlotStart ⟨slot, ls⟩ s = _
  simp only [execSlotStart, hw, hrel, hq, hp, hcond, arises, Bool.not_true, Bool.or_false, Bool.false_eq_true, if_false,
    if_true] <;> rfl

theorem exec_slotStart_relocking {s : State} {slot : Nat} {ls : List LineState} (hrel : s.vs.relocking = true) :
    exec (.slotStart ⟨slot, ls⟩) s = .next s := by
  show execSlotStart ⟨slot, ls⟩ s = _
  simp only [execSlotStart, hrel, Bool.or_true, if_true]

/-- A FALLOW slot after its start, from the step of the time base on. -/
def State.fallowed (s : State) (slot : Nat) (q : SlotRec) (rs : List (Nat × Nat)) : State :=
  ((s.fallowBegun slot q rs).timeStep q).measureDelays.drainTrace

section
variable {s : State} {slot : Nat} {q : SlotRec} {rs : List (Nat × Nat)}

theorem fallowed_runs : (s.fallowed slot q rs).runs =
    s.runs ++ [{ slot := slot, epoch := (s.reach (s.epochStart + 40 * q.start)).epoch, started := true }] :=
  ((fallow_after _).same .runs (by decide)).trans (((timeStep_keeps _ q).same .runs (by decide)).trans
    (fallowBegun_runs s slot q rs))

theorem fallowed_tm : (s.fallowed slot q rs).tm = ((s.fallowBegun slot q rs).timeStep q).tm
    := (fallow_after _).same .tm (by decide)

/-- The step is taken on the time base at the slot's start. -/
theorem stepAt_of_sameTime {t u : TimeSt} (h : SameTime t u) : u.stepAt = t.stepAt := by
  rw [h]
  rfl

theorem fallowed_sameButStep : (s.fallowed slot q rs).tm.now = (s.reach (s.epochStart + 40 * q.start)).tm.now ∧
    (s.fallowed slot q rs).tm.hold = (s.reach (s.epochStart + 40 * q.start)).tm.hold ∧
    (s.fallowed slot q rs).tm.stepsDue = (s.reach (s.epochStart + 40 * q.start)).tm.stepsDue := by
  rw [fallowed_tm, timeStep_other, fallowBegun_time s slot q rs]
  exact ⟨rfl, rfl, rfl⟩

theorem fallowed_due (hdue : (s.reach (s.epochStart + 40 * q.start)).tm.stepsDue ≠ 0)
    (hfit : (s.reach (s.epochStart + 40 * q.start)).tm.stepAt + 1005 ≤ (s.reach
      (s.epochStart + 40 * q.start)).tm.now + 40 * q.length) :
    (s.fallowed slot q rs).tm.dueStep = some ((s.reach (s.epochStart + 40 * q.start)).tm.stepAt,
      decide (0 < (s.reach (s.epochStart + 40 * q.start)).tm.stepsDue)) := by
  have hsame := fallowBegun_time s slot q rs
  have hsteps : (s.fallowBegun slot q rs).tm.stepsDue = (s.reach (s.epochStart + 40 * q.start)).tm.stepsDue := by rw [hsame]
  have hnow : (s.fallowBegun slot q rs).tm.now = (s.reach (s.epochStart + 40 * q.start)).tm.now := by rw [hsame]
  have hat := stepAt_of_sameTime hsame
  rw [fallowed_tm, timeStep_due (hsteps ▸ hdue) (by rw [hat, hnow]; exact hfit), ← hat, ← hsteps]

theorem fallowed_notDue (hdue : (s.reach (s.epochStart + 40 * q.start)).tm.stepsDue = 0) :
    (s.fallowed slot q rs).tm.dueStep = (s.reach (s.epochStart + 40 * q.start)).tm.dueStep := by
  have hsame := fallowBegun_time s slot q rs
  have hsteps : (s.fallowBegun slot q rs).tm.stepsDue = 0 := by rw [hsame]; exact hdue
  rw [fallowed_tm, timeStep_none hsteps, hsame]

end

/-- The run of a slot that has started. -/
def started (d : Nat) (r : SlotRun) : SlotRun := { r with started := true, shift := d }

section
variable {s : State} {p : Plan} {q : SlotRec} {r : SlotRun}

theorem Keeps.variant {F : List Field} {t : State} (h : Keeps F s t) (hplan : .plan ∉ F)
    (hvs : .vs ∉ F) : t.variant = s.variant := by
  have hp : t.plan = s.plan := h.same .plan hplan
  have hv : t.vs = s.vs := h.same .vs hvs
  simp only [State.variant, State.variantRec, hp, hv]

/-- The slot's arrays and its counters at the shifted start, before the run is marked. -/
def State.jobBegun (s : State) (p : Plan) (q : SlotRec) (r : SlotRun) : State :=
  let t := s.startShifted r.epoch q
  if r.abandoned then t.1 else (t.1.startRun p q t.2).noteDelay q.slot t.2

theorem startJob_eq (s : State) (p : Plan) (q : SlotRec) (r : SlotRun) :
    s.startJob p q r = (s.jobBegun p q r).modRun r (started ((s.reach (s.slotNs r.epoch q)).shiftOf q)) := rfl

theorem jobBegun_keeps : Keeps [.arrs, .trace, .slotStats] (s.atStart r.epoch q) (s.jobBegun p q r) := by
  unfold State.jobBegun
  extract_lets t
  have hk : Keeps [.arrs, .trace, .slotStats] (s.atStart r.epoch q) t.1 := (startShifted_keeps s r.epoch q).mono (by decide)
  split
  · exact hk
  · exact hk.startRun.noteDelay

theorem jobBegun_cleared (hr : Rising s.arrs) (hlive : r.abandoned = false) {a : ArrId} (ha : a ∈ slotArrs s.variant q) :
    Cleared ((s.reach (s.slotNs r.epoch q)).shiftOf q) ((s.jobBegun p q r).arr a) := by
  have hk := startShifted_keeps s r.epoch q
  have hvariant : (s.startShifted r.epoch q).1.variant = s.variant := hk.variant (by decide) (by decide)
  have hcleared := startRun_cleared (p := p) (q := q) (d := (s.startShifted r.epoch q).2) (s := (s.startShifted r.epoch q).1)
    ((hk.same .arrs (by decide)) ▸ hr) (hvariant ▸ ha)
  have harr := (((Keeps.refl (F
    := [.slotStats]) ((s.startShifted r.epoch q).1.startRun p q (s.startShifted r.epoch q).2)).noteDelay
    (slot := q.slot) (d := (s.startShifted r.epoch q).2))).arr (by decide) (by decide) a
  simp only [State.jobBegun, hlive, Bool.false_eq_true, if_false]
  rw [harr]
  exact hcleared

/-- The slot's arrays and its counters at the shifted start of an INSTALL slot. -/
def State.installBegun (s : State) (p : Plan) (q : SlotRec) : State :=
  let t := s.startShifted s.epoch q
  (t.1.startRun p q t.2).noteDelay q.slot t.2

theorem installBegun_keeps :
    Keeps [.arrs, .trace, .slotStats] (s.startShifted s.epoch q).1 (s.installBegun p q) := startRun_keeps ..

/-- The key that the slot installs, and what installing it leaves. -/
def State.installTurn (s : State) (q : SlotRec) (ls : List LineState) : State × Option (Nat × Nat) :=
  if s.mayBind s.epoch q then s.requeueInstalls.installHead q.installBytes ls else (s, none)

theorem installTurn_runs (ls : List LineState) : (s.installTurn q ls).1.runs = s.runs := by
  unfold State.installTurn
  split
  · exact ((Keeps.refl (F := [.pw, .keys, .installs, .jobs, .arrs, .hubs, .stk, .links, .dom, .hm, .out])
      s).requeueInstalls.installHead).same .runs (by decide)
  · rfl

theorem startInstall_runs (ls : List LineState) : (s.startInstall p q ls).runs = s.runs ++
    [{ slot := q.slot, epoch := (s.startShifted s.epoch q).1.epoch, started := true
       install := ((s.installBegun p q).installTurn q ls).2, shift := (s.startShifted s.epoch q).2 }] := by
  have hruns : ((s.installBegun p q).installTurn q ls).1.runs = s.runs :=
    (installTurn_runs ls).trans (((startShifted_keeps s s.epoch q).same .runs (by decide)) ▸
      (installBegun_keeps (s := s) (p := p) (q := q)).same .runs (by decide))
  have hepoch : (s.installBegun p q).epoch = (s.startShifted s.epoch q).1.epoch := by
    have htm : (s.installBegun p q).tm = (s.startShifted s.epoch q).1.tm := installBegun_keeps.same .tm (by decide)
    simp only [State.epoch, htm]
  rw [← hepoch, ← hruns]
  rfl

end

/-- The end of a slot's run. -/
def State.ended (s : State) (q : SlotRec) (r : SlotRun) : State :=
  if q.kind = 2 then (s.reach (s.slotNs r.epoch q + 40 * q.length)).dropRun r else s.endRun q r

/-- The instant at which a JOB or INSTALL slot ends, and the cycle until which its arrays stay busy. -/
def State.endBusy (s : State) (q : SlotRec) (r : SlotRun) : Nat :=
  if !r.abandoned && decide ((q.start + q.length) * s.perQuantum < s.actualEnd q) then s.actualEnd q else 0

/-- The slot's jobs are completed at its end, unless it was abandoned. -/
def State.completed (s : State) (q : SlotRec) (r : SlotRun) : State :=
  let s := s.reach (s.slotNs r.epoch q + (if s.endBusy q r = 0 then 40 * q.length
    else (s.actualEnd q - q.start * s.perQuantum) * 40 / s.perQuantum))
  if r.abandoned then s else s.completeBound r (s.slotFlags q)

/-- A slot's end, before its run is removed. -/
def State.slotClosed (s : State) (q : SlotRec) (r : SlotRun) : State :=
  let t := if r.abandoned || r.faulted then (s.completed q r).dropRequests q r else s.completed q r
  (t.closeArrays q (s.endBusy q r)).freeReuse q.slot

theorem endRun_eq (s : State) (q : SlotRec) (r : SlotRun) : s.endRun q r = (s.slotClosed q r).dropRun r := rfl

section
variable {s : State} {q : SlotRec} {r : SlotRun}

theorem completed_keeps : Keeps [.tm, .jobs] s (s.completed q r) := by
  unfold State.completed
  extract_lets t
  have ht : Keeps [.tm, .jobs] s t := (Keeps.refl s).reach
  split
  · exact ht
  · exact ht.completeBound

theorem slotClosed_keeps : Keeps [.arrs, .dies, .hubs] (s.completed q r) (s.slotClosed q r) := by
  unfold State.slotClosed
  extract_lets t
  have ht : Keeps [.arrs, .dies, .hubs] (s.completed q r) t := by
    show Keeps _ _ (if _ then _ else _)
    split
    · exact (Keeps.refl _).dropRequests
    · exact .refl _
  exact ht.closeArrays.freeReuse

theorem runs_dropRun (t : State) (r : SlotRun) : (t.dropRun r).runs = t.runs.filter fun x => !sameRun x r := rfl

theorem job?_dropRun (t : State) (r : SlotRun) (i : Nat) : (t.dropRun r).job? i = t.job? i := rfl

theorem ended_runs : (s.ended q r).runs = s.runs.filter fun x => !sameRun x r := by
  have hruns : (s.slotClosed q r).runs = s.runs
    := (slotClosed_keeps.same .runs (by decide)).trans (completed_keeps.same .runs (by decide))
  unfold State.ended
  split
  · rfl
  · rw [endRun_eq, runs_dropRun, hruns]

theorem ended_finished (hk : q.kind ≠ 2) (hlive : r.abandoned = false) {e : Nat × Nat} (he : e ∈ r.jobs) {j : Job}
    (hj : s.job? e.2 = some j) (hb : j.st = .bound) (hinc : (e.1, j.inc) ∈ r.incs) : Finished (s.ended q r) e.2 := by
  have hdone : Finished (s.completed q r) e.2 := by
    simp only [State.completed, hlive, Bool.false_eq_true, if_false]
    exact completeBound_finished he hj hb hinc
  obtain ⟨k, hjob, hst⟩ := hdone
  refine ⟨k, ?_, hst⟩
  unfold State.ended
  rw [if_neg hk, endRun_eq]
  rw [job?_dropRun]
  exact (job?_congr (slotClosed_keeps.same .jobs (by decide)) e.2).trans hjob

end

/-- Settles O29. -/
theorem slotsStartAndEnd : Obligations.SlotsStartAndEnd := by
  unfold Obligations.SlotsStartAndEnd
  refine ⟨fun s slot ls q p hw hq hp hno => ⟨fun hidle hk => ?_, fun r hrel hk hr => ?_, fun hrel hk => ?_⟩,
    fun s slot q rs hw hq hk hno => ?_, fun s slot q hq => ⟨fun hno => ?_, fun r hr => ?_⟩,
      fun s slot q p r hp hq hr hk hlive => ?_⟩
  · cases hrel : s.vs.relocking with
    | true => exact exec_slotStart_relocking hrel
    | false =>
      obtain ⟨hk0, hwait⟩ := hidle.resolve_left (by simp [hrel])
      rw [exec_slotStart hw hq hp hno hrel hk, hwait, hk0]
      rfl
  · refine ⟨s.startJob p q r, ?_, ?_, ?_, fun hlive hrise a ha => ?_⟩
    · rw [exec_slotStart hw hq hp hno hrel (by simp [hk]), hr, hk]
      rfl
    · exact (jobBegun_keeps (s := s) (p := p) (q := q) (r := r)).same .tm (by decide)
    · exact congrArg (List.map fun x => if sameRun x r then started _ x else x)
        ((jobBegun_keeps (s := s) (p := p) (q := q) (r := r)).same .runs (by decide))
    · exact jobBegun_cleared hrise hlive ha
  · refine ⟨s.startInstall p q ls, ?_, ?_⟩
    · rw [exec_slotStart hw hq hp hno hrel (by simp [hk]), hk]
      rfl
    · exact ⟨_, startInstall_runs ls⟩
  · intro u
    obtain ⟨hnow, hhold, hsteps⟩ := fallowed_sameButStep (s := s) (slot := slot) (q := q) (rs := rs)
    refine ⟨s.fallowed slot q rs, exec_fallowSlotStart hw hq hk hno, fallowed_runs, rfl, hnow, hhold, hsteps,
      fun hdue hlast hlen => ?_, fun n hdue hlast hlate hfit => ?_, fallowed_notDue⟩
    · have hat : u.tm.stepAt = u.tm.now + 1000 := stepAt_of_none hlast
      exact (fallowed_due hdue (by change u.tm.stepAt + 1005 ≤ u.tm.now + _; omega)).trans (by rw [← hat])
    · have hat : u.tm.stepAt = n + 50000 := stepAt_of_some hlast hlate
      exact (fallowed_due hdue (by change u.tm.stepAt + 1005 ≤ u.tm.now + _; omega)).trans (by rw [← hat])
  · rw [exec_slotEnd hq, hno]
  · exact ⟨_, by rw [exec_slotEnd hq, hr] <;> rfl, ended_runs,
    fun hk hlive e he j hj hb hinc => ended_finished hk hlive he hj hb hinc⟩
  · intro mk
    refine ⟨fun hpaced hlate => ⟨_, exec_slotPacedAbandon hp hq hr hk hlive hpaced hlate, abandonSlot_runs ..⟩,
      fun a hreal ha hocc hwait hflag => ⟨_, exec_slotDeadlineAbandon hp hq hr hk hlive hreal ha hocc hwait hflag, ?_⟩⟩
    rw [deadline_eq]
    exact (abandonSlot_runs ..).trans (congrArg (List.map (marked r)) (recorded_keeps.same .runs (by decide)))

end Sys2Proof.Machine
end

section
/-! The epoch boundary (R224, R326, R327, R342, R354). -/

namespace Sys2Proof.Machine

open Sys2Proof.Stated

/-! ### The switch that is performed -/

theorem Keeps.vs {F : List Field} {s t : State} (h : Keeps F s t) (hvs : .vs ∉ F := by decide) : t.vs = s.vs := h.same .vs hvs

/-- The variant that runs, the switches performed, and what a switch epoch shows. -/
def switchView (v : VarSt) : Nat × Nat × Bool × Bool := (v.current, v.switches, v.inSwitch, v.relocking)

theorem announce_switchView (s : State) (v e : Nat) : switchView (s.announce v e).vs = switchView s.vs := by
  simp only [State.announce]
  split
  · exact (congrArg switchView ((Keeps.refl (F := [.links, .dom, .out]) _).sendMembers).vs).trans rfl
  · split
    · exact (congrArg switchView ((Keeps.refl (F := [.links, .dom, .out]) _).sendDctl).vs).trans rfl
    · rfl

theorem decideSwitch_switchView (s : State) (v item : Nat) : switchView (s.decideSwitch v item).vs = switchView s.vs := by
  refine (announce_switchView ..).trans ?_
  exact (congrArg switchView ((Keeps.refl (F := [.pw, .hm, .dies]) _).log.cancelRetirements).vs).trans rfl

theorem dropPending_switchView (s : State) : switchView s.dropPending.vs = switchView s.vs := by
  simp only [State.dropPending]
  split <;> rfl

theorem recommend_vs (s : State) (b : Nat) : (s.recommend b).vs = s.vs := ((Keeps.refl (F := [.pw,
    .hm]) s).recommend).same .vs (by decide)

/-- What is chosen at a boundary is pending: the variant that runs stays. -/
theorem evaluateVariant_switchView (s : State) : switchView s.evaluateVariant.vs = switchView s.vs := by
  simp only [State.evaluateVariant]
  split
  · rfl
  · generalize hpin : (match s.vs.pin with
      | some v => if s.selectableNum v then some v else none
      | none => none) = pin
    split
    · exact dropPending_switchView _
    · split_ifs
      · rfl
      · exact decideSwitch_switchView ..
      · exact dropPending_switchView _
      · exact decideSwitch_switchView ..
      · exact decideSwitch_switchView ..
      · exact decideSwitch_switchView ..
      · exact (congrArg switchView (recommend_vs ..)).trans (dropPending_switchView _)

theorem evaluateHealth_switchView (s : State) : switchView s.evaluateHealth.vs = switchView s.vs := by
  have hbefore : Keeps dieFields s s.dueFences.softFences.retirements.gearStep.memPressure :=
    (Keeps.refl s).dueFences.softFences.retirements.gearStep.memPressure
  have hafter (b : Bool) (t : State) : Keeps [.pw, .hm, .out] t (if b then t.holdGear else t).throttling.replaceCheck := by
    cases b with
    | true => exact (Keeps.refl t).holdGear.throttling.replaceCheck
    | false => exact (Keeps.refl t).throttling.replaceCheck
  exact (congrArg switchView ((hafter _ _).same .vs (by decide))).trans
    ((evaluateVariant_switchView _).trans (congrArg switchView (hbefore.same .vs (by decide))))

/-- The switch epoch of the part's own pending switch. -/
theorem performSwitch_vs (s : State) (v : Nat) : (s.performSwitch v).vs =
    { s.vs with current := v, pending := none, switches := bump s.vs.switches, inSwitch := true, relocking := true } := by
  simp only [State.performSwitch]
  refine (((Keeps.refl (F := [.arrs]) _).writeStores.keepRegion).same .vs (by decide)).trans ?_
  split
  · rfl
  · have hvs : s.emptyRegion.requeueInstalls.vs = s.vs :=
      ((Keeps.refl (F := [.keys, .installs, .links, .dom, .out]) s).emptyRegion.requeueInstalls).same .vs (by decide)
    exact congrArg (fun x : VarSt =>
      { x with current := v, pending := none, switches := bump x.switches, inSwitch := true, relocking := true }) hvs

theorem switchStep_switchView {s : State} {v e : Nat} (h : s.vs.pending = some (v, e)) :
    switchView (s.switchStep e).vs = (v, bump s.vs.switches, true, true) := by
  simp only [State.switchStep, h, if_true]
  rw [performSwitch_vs]
  rfl

/-! ### The tenants' settings -/

theorem mget_map {α : Type} {d : α} {f : α → α} (hf : f d = d) (m : SMap α) (i : Nat) :
    mget d (m.map fun e => (e.1, f e.2)) i = f (mget d m i) := by
  induction m with
  | nil => exact hf.symm
  | cons e m ih =>
    simp only [List.map_cons, mget]
    split
    · rfl
    · exact ih

/-- A tenant with its written DMA settings in effect. -/
def Tenant.dmaApplied (x : Tenant) : Tenant := { x with dmaRate := x.newRate, dmaDepth := x.newDepth }

theorem applyDma_tenant (s : State) (n : Nat) : s.applyDma.tenant n = (s.tenant n).dmaApplied :=
  mget_map (d := ({} : Tenant)) (f := Tenant.dmaApplied) rfl s.tenants n

/-- Deficits aside, the tenants stay. -/
theorem fillDeficits_dma {s : State} (hr : Rising s.tenants) (e n : Nat) :
    ((s.fillDeficits e).tenant n).dmaRate = (s.tenant n).dmaRate ∧ ((s.fillDeficits e).tenant n).dmaDepth =
      (s.tenant n).dmaDepth := by
  unfold State.fillDeficits
  extract_lets has upd ts
  refine (List.foldlRecOn ts _ (motive := fun u : State => Rising u.tenants ∧ (u.tenant n).dmaRate = (s.tenant n).dmaRate ∧
    (u.tenant n).dmaDepth = (s.tenant n).dmaDepth) ⟨hr, rfl, rfl⟩ fun u ⟨hu, hrate, hdepth⟩ t _ => ⟨rising_mset hu, ?_⟩).2
  by_cases hn : n = t
  · subst hn
    rw [State.modTenant, State.tenant_setTenant_self hu]
    exact ⟨hrate, hdepth⟩
  · rw [State.modTenant, State.tenant_setTenant_of_ne _ _ _ _ hn]
    exact ⟨hrate, hdepth⟩

/-! ### The boundary -/

/-- The state at the boundary's instant, its epoch counted. -/
def State.atEdge (s : State) : State :=
  let u := s.reach ((s.tm.edge + 1) * epochNs)
  { u with tm := { u.tm with edge := s.tm.edge + 1 } }

/-- The switch of the epoch that begins, and the health manager's evaluation. -/
def State.atEvaluated (s : State) : State := (s.atEdge.switchStep ((s.tm.edge + 1) % 2 ^ 32)).evaluateHealth

/-- The boundary up to the tenants' deficits. -/
def State.atDeficits (s : State) : State := s.atEvaluated.applyDma.fillDeficits ((s.tm.edge + 1) % 2 ^ 32)

section
variable {s : State}

theorem boundary_eq : s.boundary = if s.atDeficits.working
    then (s.atDeficits.freeArrays.domainStep ((s.tm.edge + 1) % 2 ^ 32)).drainTrace else s.atDeficits.drainTrace := rfl

theorem boundary_keeps : Keeps [.arrs, .jobs, .jobSeq, .links, .dom, .out, .trace, .hostMem] s.atDeficits s.boundary := by
  rw [boundary_eq]
  split
  · exact (Keeps.refl _).freeArrays.domainStep.drainTrace
  · exact (Keeps.refl _).drainTrace

theorem atEvaluated_keeps :
    Keeps [.pw, .vs, .jobs, .jobSeq, .runs, .slotStats, .arrs, .dies, .keys, .installs, .links, .dom, .hm, .out]
    s.atEdge s.atEvaluated := (Keeps.refl _).switchStep.evaluateHealth

theorem atDeficits_keeps : Keeps [.tenants] s.atEvaluated s.atDeficits := (Keeps.refl _).applyDma.fillDeficits

theorem boundary_tm : s.boundary.tm = { s.tm.reach ((s.tm.edge + 1) * 1000000) with edge := s.tm.edge + 1 } :=
  (boundary_keeps.same .tm (by decide)).trans ((atDeficits_keeps.same .tm (by decide)).trans (atEvaluated_keeps.same .tm
    (by decide)))

theorem boundary_dma (hr : Rising s.tenants) (n : Nat) : (s.boundary.tenant n).dmaRate = (s.tenant n).newRate ∧
    (s.boundary.tenant n).dmaDepth = (s.tenant n).newDepth := by
  have hevaluated : s.atEvaluated.tenants = s.tenants := atEvaluated_keeps.same .tenants (by decide)
  have htenant : s.atEvaluated.applyDma.tenant n = (s.tenant n).dmaApplied := by
    rw [applyDma_tenant, State.tenant, hevaluated, State.tenant]
  have hrise : Rising s.atEvaluated.applyDma.tenants := rising_map (fun _ => rfl) (hevaluated ▸ hr)
  obtain ⟨hrate, hdepth⟩ := fillDeficits_dma hrise ((s.tm.edge + 1) % 2 ^ 32) n
  have htenants : s.boundary.tenants = s.atDeficits.tenants := boundary_keeps.same .tenants (by decide)
  have hlast : s.boundary.tenant n = s.atDeficits.tenant n := by rw [State.tenant, htenants, State.tenant]
  rw [hlast]
  exact ⟨hrate.trans (congrArg Tenant.dmaRate htenant), hdepth.trans (congrArg Tenant.dmaDepth htenant)⟩

theorem boundary_switchView {v : Nat} (h : s.vs.pending = some (v, (s.tm.edge + 1) % 2 ^ 32)) :
    switchView s.boundary.vs = (v, bump s.vs.switches, true, true) := by
  have hvs : s.boundary.vs = s.atEvaluated.vs
    := (boundary_keeps.same .vs (by decide)).trans (atDeficits_keeps.same .vs (by decide))
  rw [hvs]
  exact (evaluateHealth_switchView _).trans (switchStep_switchView (s := s.atEdge) h)

end

theorem TimeSt.le_reach (t : TimeSt) (n : Nat) : n ≤ (t.reach n).now := by
  simp only [TimeSt.reach, TimeSt.applyStep]
  split
  · exact Nat.le_max_right ..
  · split_ifs
    · exact Nat.le_max_right ..
    · exact Nat.le_max_right ..
    · exact Nat.le_max_right ..
    · show n ≤ max (max t.now n) _
      omega

/-- Settles O31. -/
theorem epochBoundariesAdvance : Obligations.EpochBoundariesAdvance := by
  unfold Obligations.EpochBoundariesAdvance
  refine ⟨fun s hoff => ?_, fun s hon hr => ⟨s.boundary, ?_, ?_, ?_, ?_, boundary_dma hr, fun v hv => ?_⟩, fun s hrel => ?_⟩
  · exact congrArg Host.Outcome.next (if_neg (ne_true_of_eq_false hoff))
  · exact congrArg Host.Outcome.next (if_pos hon)
  · rw [boundary_tm]
  · rw [boundary_tm]
  · rw [boundary_tm]
    exact TimeSt.le_reach ..
  · have hview := boundary_switchView hv
    simpa only [switchView, Prod.mk.injEq] using hview
  · show execGearRelockDone s = _
    rw [execGearRelockDone, hrel]
    rfl

end Sys2Proof.Machine
end

section
/-! The layer on streams (R400..R407, R410, R413): what writing records leaves of every stream. -/

namespace Sys2Proof.Machine

open Sys2Proof.Stated

theorem Keeps.streams {F : List Field} {s t : State} (h : Keeps F s t)
    (hF : .streams ∉ F := by decide) : t.streams = s.streams :=
  h.same .streams hF

theorem Keeps.jobs {F : List Field} {s t : State} (h : Keeps F s t) (hF : .jobs ∉ F := by decide) : t.jobs = s.jobs :=
  h.same .jobs hF

/-- A part of every stream is the same, and the table still rises. -/
structure SameStreams {α : Type} (π : Stream → α) (s t : State) : Prop where
  rising : Rising t.streams
  part : ∀ n, π (t.stream n) = π (s.stream n)

theorem State.stream_congr {s t : State} (h : t.streams = s.streams) (n : Nat) : t.stream n = s.stream n :=
  congrArg (mget ({} : Stream) · n) h

namespace SameStreams

variable {α : Type} {π : Stream → α} {s t u : State}

theorem refl (h : Rising s.streams) : SameStreams π s s := ⟨h, fun _ => rfl⟩

theorem trans (h : SameStreams π s t) (g : SameStreams π t u) : SameStreams π s u :=
  ⟨g.rising, fun n => (g.part n).trans (h.part n)⟩

/-- A part that is read off a part that stays. -/
theorem weaken {β : Type} {ρ : Stream → β} (h : SameStreams π s t) (f : α → β)
    (hf : ∀ x, ρ x = f (π x)) : SameStreams ρ s t :=
  ⟨h.rising, fun n => (hf _).trans ((congrArg f (h.part n)).trans (hf _).symm)⟩

/-- What follows leaves the streams alone. -/
theorem congr (h : SameStreams π s t) (hstreams : u.streams = t.streams) : SameStreams π s u :=
  ⟨hstreams ▸ h.rising, fun n => (congrArg π (State.stream_congr hstreams n)).trans (h.part n)⟩

theorem keeps {F : List Field} (h : SameStreams π s t) (hk : Keeps F t u)
    (hF : .streams ∉ F := by decide) : SameStreams π s u :=
  h.congr (hk.streams hF)

theorem setStream (h : SameStreams π s t) {n : Nat} {x : Stream}
    (hx : π x = π (t.stream n) := by rfl) : SameStreams π s (t.setStream n x) := by
  refine ⟨rising_mset h.rising, fun m => ?_⟩
  rw [← h.part m]
  by_cases hm : m = n
  · subst hm
    rw [State.stream_setStream_self h.rising, hx]
  · rw [State.stream_setStream_of_ne _ _ _ _ hm]

theorem modStream (h : SameStreams π s t) {n : Nat} {f : Stream → Stream} (hf : ∀ x, π (f x) = π x := by intro; rfl) :
    SameStreams π s (t.modStream n f) := h.setStream (hf _)

theorem foldl (h : SameStreams π s t) {β : Type} {f : State → β → State}
    (hf : ∀ u, SameStreams π s u → ∀ b, SameStreams π s (f u b))
    (l : List β) : SameStreams π s (l.foldl f t) := List.foldlRecOn l f (motive
      := SameStreams π s) h fun u hu b _ => hf u hu b

theorem ite (h : SameStreams π s t) (g : SameStreams π s u)
    {c : Prop} [Decidable c] : SameStreams π s (if c then t else u) := by
  split
  · exact h
  · exact g

end SameStreams

/-- What writing records leaves of a stream: its settings, its submission queue, its counts. -/
def Stream.fixed (x : Stream) : Stream :=
  { x with
    held := [], cqTail := 0, recs := [], st := .disabled, reason := 0, errLive := false, completed := 0, done := []
    committed := 0, inflight := 0, irqLast := none, irqWait := false, resetting := false }

/-- What the status block and an interrupt leave of a stream. -/
def Stream.quiet (x : Stream) : Stream :=
  { x with st := .disabled, reason := 0, errLive := false, irqLast := none, irqWait := false }

namespace SameStreams

variable {s t : State}

theorem quiet_streamFault
    (hr : Rising s.streams) (n : Nat) : SameStreams Stream.quiet s (s.streamFault n) := (refl hr).modStream

theorem quiet_writeStatus (hr : Rising s.streams) (n : Nat) : SameStreams Stream.quiet s (s.writeStatus n) := by
  simp only [State.writeStatus]
  split
  · exact (refl hr).keeps ((Keeps.refl (F := [.hostMem]) s).hostWrite ‹_›)
  · exact quiet_streamFault hr n

theorem quiet_streamIrq (hr : Rising s.streams) (n : Nat) : SameStreams Stream.quiet s (s.streamIrq n) := by
  have hset (x : Stream)
    (hx : x.quiet = (s.stream n).quiet) : SameStreams Stream.quiet s (s.setStream n x) := (refl hr).setStream hx
  simp only [State.streamIrq]
  split
  · exact refl hr
  · split_ifs
    · exact hset { s.stream n with irqWait := true } rfl
    · exact (hset { s.stream n with irqLast := some s.tm.now, irqWait := false } rfl).keeps
        (Keeps.raiseMsix (F := [.fns, .out]) (.refl _))

theorem fixed (h : SameStreams Stream.quiet s t) : SameStreams Stream.fixed s t := h.weaken Stream.fixed fun _ => rfl

theorem streamFault (h : SameStreams Stream.fixed s t) {n : Nat} : SameStreams Stream.fixed s (t.streamFault n) :=
  h.trans (quiet_streamFault h.rising n).fixed

theorem writeStatus (h : SameStreams Stream.fixed s t) {n : Nat} : SameStreams Stream.fixed s (t.writeStatus n) :=
  h.trans (quiet_writeStatus h.rising n).fixed

theorem streamIrq (h : SameStreams Stream.fixed s t) {n : Nat} : SameStreams Stream.fixed s (t.streamIrq n) :=
  h.trans (quiet_streamIrq h.rising n).fixed

theorem freeCredit (h : SameStreams Stream.fixed s t) {n : Nat} : SameStreams Stream.fixed s (t.freeCredit n) :=
  (h.setStream (n := n) (x := { t.stream n with inflight := (t.stream n).inflight - 1 }) rfl).congr rfl

theorem recordEffect (h : SameStreams Stream.fixed s t) {n : Nat}
    {r : CRec} : SameStreams Stream.fixed s (t.recordEffect n r) := by
  simp only [State.recordEffect]
  split
  · exact (SameStreams.freeCredit (t := t.modStream n _) h.modStream).congr rfl
  · split
    · exact h
    · have hcommitted := h.modStream (n := n) (f := fun x => { x with committed := r.seq })
      split
      · exact hcommitted.freeCredit
      · exact hcommitted

theorem putRecord (h : SameStreams Stream.fixed s t) {n : Nat} {r : CRec} : SameStreams Stream.fixed s (t.putRecord n r) := by
  simp only [State.putRecord]
  split
  · exact SameStreams.streamFault h.setStream
  · next u hu =>
    have hwritten : SameStreams Stream.fixed s u := h.keeps ((Keeps.refl (F := [.hostMem]) t).hostWrite hu)
    have hkept : u.stream n = t.stream n := State.stream_congr (((Keeps.refl (F := [.hostMem]) t).hostWrite hu).streams) n
    have hring : SameStreams Stream.fixed s (u.setStream n
        { t.stream n with cqTail := ((t.stream n).cqTail + 1) % 2 ^ 32
                          recs := (t.stream n).recs ++ [((t.stream n).cqTail, r)] }) :=
      hwritten.setStream (hkept ▸ rfl)
    exact SameStreams.ite hring.recordEffect.writeStatus.streamIrq hring.recordEffect.writeStatus

theorem flushRecords (h : SameStreams Stream.fixed s t)
    {n fuel : Nat} : SameStreams Stream.fixed s (t.flushRecords n fuel) := by
  induction fuel generalizing t with
  | zero => exact h
  | succ k ih =>
    simp only [State.flushRecords]
    split
    · exact h
    · exact SameStreams.ite h (ih (SameStreams.putRecord h.setStream))

theorem addRecord (h : SameStreams Stream.fixed s t) {n : Nat} {r : CRec} : SameStreams Stream.fixed s (t.addRecord n r) :=
  SameStreams.flushRecords h.setStream

theorem drainCheck (h : SameStreams Stream.fixed s t) {n : Nat} : SameStreams Stream.fixed s (t.drainCheck n) :=
  SameStreams.ite h.setStream h

theorem settle (h : SameStreams Stream.fixed s t) {n : Nat} : SameStreams Stream.fixed s (t.settle n) :=
  h.drainCheck.keeps ((Keeps.refl (F := [.tenants, .keys, .installs, .hubs]) _).reap)

theorem flush (h : SameStreams Stream.fixed s t) {n : Nat} : SameStreams Stream.fixed s (t.flush n) :=
  SameStreams.settle h.flushRecords

end SameStreams

end Sys2Proof.Machine
end

section
/-! Doorbells (R401). -/

namespace Sys2Proof.Machine

open Sys2Proof.Stated

theorem State.powered_of_ne {s : State} (h : s.pw.part ≠ .off) : s.powered = true := bne_iff_ne.2 h

theorem doorbell_need {f : FnId} {n : Nat} (hf : f.wf = true) (hn : n < 16384) : (f.wf && streamOk n) = true := by
  simp [hf, streamOk, hn]

section
variable {s : State} {f : FnId} {n w v : Nat}

theorem exec_doorbell_dropped (hf : f.wf = true) (hn : n < 16384) (hp : s.pw.part ≠ .off) (h : s.doorbellOk f n w = false) :
    ∀ c ∈ [Instr.doorbellSqTail f n w v, Instr.doorbellCqHead f n w v],
      exec c s = .next (s.setStream n { s.stream n with drops := bump (s.stream n).drops }) := by
  intro c hc
  rcases List.mem_pair.1 hc with rfl | rfl
  · show execDoorbellSqTail f n w v s = _
    rw [execDoorbellSqTail, doorbell_need hf hn, need_true, State.powered_of_ne hp, h]
    rfl
  · show execDoorbellCqHead f n w v s = _
    rw [execDoorbellCqHead, doorbell_need hf hn, need_true, State.powered_of_ne hp, h]
    rfl

/-- A doorbell of the submission queue that counts. -/
theorem exec_doorbellSqTail (hf : f.wf = true) (hn : n < 16384) (hp : s.pw.part ≠ .off) (h : s.doorbellOk f n w = true) :
    exec (.doorbellSqTail f n w v) s = .next (s.setStream n
      (if 2 ^ (s.stream n).sqLog2 < (v % 2 ^ 32 + 2 ^ 32 - (s.stream n).sqHead) % 2 ^ 32 then
        { s.stream n with sqTail := v % 2 ^ 32, st := .error, reason := 5, errLive := true }
      else { s.stream n with sqTail := v % 2 ^ 32 })) := by
  show execDoorbellSqTail f n w v s = _
  rw [execDoorbellSqTail, doorbell_need hf hn, need_true, State.powered_of_ne hp, h]
  rfl

/-- A stream whose records up to a position are consumed. -/
def Stream.consumed (x : Stream) (v : Nat) : Stream :=
  { x with
    cqHead := v, recs := x.recs.filter fun r => !passed v r.1
    done := x.done.filter fun j => !(x.recs.filter fun r => passed v r.1).any fun r => r.2.kind == 3 && r.2.seq == j.seq }

theorem exec_doorbellCqHead (hf : f.wf = true) (hn : n < 16384) (hp : s.pw.part ≠ .off) (h : s.doorbellOk f n w = true) :
    exec (.doorbellCqHead f n w v) s = .next ((s.setStream n ((s.stream n).consumed (v % 2 ^ 32))).flush n) := by
  show execDoorbellCqHead f n w v s = _
  rw [execDoorbellCqHead, doorbell_need hf hn, need_true, State.powered_of_ne hp, h]
  rfl

end

/-- The end of a drain leaves the records of a stream. -/
theorem settle_recs {s : State} (hr : Rising s.streams) (n : Nat) : ((s.settle n).stream n).recs = (s.stream n).recs := by
  have hdrained : SameStreams Stream.recs s (s.drainCheck n) := SameStreams.ite (SameStreams.refl hr).setStream (.refl hr)
  exact (hdrained.keeps ((Keeps.refl (F := [.tenants, .keys, .installs, .hubs]) _).reap)).part n

/-- Without a record that is held there is nothing to write. -/
theorem flush_of_none_held {s : State} {n : Nat} (h : (s.stream n).held = []) : s.flush n = s.settle n := by
  rw [State.flush, h]
  rfl

theorem SameStreams.cqHead {s t : State}
    (h : SameStreams Stream.fixed s t) (n : Nat) : (t.stream n).cqHead = (s.stream n).cqHead :=
  (h.weaken (ρ := Stream.cqHead) Stream.cqHead fun _ => rfl).part n

/-- Settles O33. -/
theorem doorbellsMoveTheRings : Obligations.DoorbellsMoveTheRings := by
  unfold Obligations.DoorbellsMoveTheRings
  intro s f n w v hf hn hp
  refine ⟨exec_doorbell_dropped hf hn hp, fun hok => ⟨fun hfits => ?_, fun hover => ?_, fun hr =>
    ⟨_, exec_doorbellCqHead hf hn hp hok, ?_, fun hheld => ?_⟩⟩⟩
  · rw [exec_doorbellSqTail hf hn hp hok, if_neg (Nat.not_lt.2 hfits)]
  · rw [exec_doorbellSqTail hf hn hp hok, if_pos hover]
  · have hset : (s.setStream n ((s.stream n).consumed (v % 2 ^ 32))).stream n = (s.stream n).consumed (v % 2 ^ 32) :=
      State.stream_setStream_self hr ..
    have hkept := (SameStreams.refl (π := Stream.fixed) (s := s.setStream n ((s.stream n).consumed (v % 2 ^ 32)))
      (rising_mset hr)).flush (n := n)
    rw [hkept.cqHead, hset]
    rfl
  · have hset : (s.setStream n ((s.stream n).consumed (v % 2 ^ 32))).stream n = (s.stream n).consumed (v % 2 ^ 32) :=
      State.stream_setStream_self hr ..
    rw [flush_of_none_held (by rw [hset]; exact hheld), settle_recs (rising_mset hr), hset]
    rfl

end Sys2Proof.Machine
end

section
/-! Descriptors are decided (R401, R403..R405). -/

namespace Sys2Proof.Machine

open Sys2Proof.Stated

/-! ### The fields of a descriptor -/

theorem leNat_lt (bs : List Byte) : leNat bs < 256 ^ bs.length := by
  induction bs with
  | nil => exact Nat.one_pos
  | cons b bs ih =>
    have hb : b.toNat < 256 := b.isLt
    rw [leNat, List.length_cons, pow_succ]
    omega

theorem length_slice (bs : List Byte) (off len : Nat) : (slice bs off len).length = len := by
  simp only [slice, List.length_append, List.length_take, List.length_replicate]
  omega

theorem field_lt (bs : List Byte) (off len : Nat) : field bs off len < 256 ^ len := by
  have h := leNat_lt (slice bs off len)
  rwa [length_slice] at h

/-! ### What the decision leaves of the streams -/

/-- What records and refusals leave of a stream. -/
def Stream.counted (x : Stream) : Stream := { x.fixed with refusals := 0, overloads := 0 }

namespace SameStreams

variable {s t u : State}

theorem counted (h : SameStreams Stream.fixed s t) : SameStreams Stream.counted s t :=
  h.weaken (fun x => { x with refusals := 0, overloads := 0 }) fun _ => rfl

/-- Records written after a change that counts. -/
theorem andFixed (h : SameStreams Stream.counted s t) (g : SameStreams Stream.fixed t t → SameStreams Stream.fixed t u) :
    SameStreams Stream.counted s u := h.trans (g (refl h.rising)).counted

theorem sqHead (h : SameStreams Stream.counted s t) (n : Nat) : (t.stream n).sqHead = (s.stream n).sqHead :=
  (h.weaken (ρ := Stream.sqHead) Stream.sqHead fun _ => rfl).part n

theorem nextSeq (h : SameStreams Stream.counted s t) (n : Nat) : (t.stream n).nextSeq = (s.stream n).nextSeq :=
  (h.weaken (ρ := Stream.nextSeq) Stream.nextSeq fun _ => rfl).part n

theorem refusals (h : SameStreams Stream.fixed s t) (n : Nat) : (t.stream n).refusals = (s.stream n).refusals :=
  (h.weaken (ρ := Stream.refusals) Stream.refusals fun _ => rfl).part n

theorem overloads (h : SameStreams Stream.fixed s t) (n : Nat) : (t.stream n).overloads = (s.stream n).overloads :=
  (h.weaken (ρ := Stream.overloads) Stream.overloads fun _ => rfl).part n

/-- A change of every listed stream that leaves the part alone. -/
theorem map {α : Type} {π : Stream → α} (h : SameStreams π s t) {f : Stream → Stream} (hd : f {} = {})
    (hf : ∀ x, π (f x) = π x)
    (hstreams : u.streams = t.streams.map fun e => (e.1, f e.2)) : SameStreams π s u := by
  refine ⟨hstreams ▸ rising_map (fun _ => rfl) h.rising, fun n => Eq.trans ?_ (h.part n)⟩
  rw [State.stream, hstreams, mget_map hd, hf, State.stream]

theorem takeEntry (h : SameStreams Stream.fixed s t) {i : Nat} : SameStreams Stream.fixed s (t.takeEntry i) :=
  h.map (f := fun x => { x with done := x.done.filter fun j => j.idx != i }) rfl (fun _ => rfl) rfl

theorem admitJob (h : SameStreams Stream.fixed s t) {i : Nat} : SameStreams Stream.fixed s (t.admitJob i) :=
  h.keeps (Keeps.admitJob (F := [.installs, .jobs, .jobSeq]) (.refl _))

theorem admitDomain (h : SameStreams Stream.fixed s t)
    {jobId aseq : Nat} : SameStreams Stream.fixed s (t.admitDomain jobId aseq) := by
  simp only [State.admitDomain]
  split
  · exact h
  · next j _ =>
    exact (SameStreams.addRecord (t := t.modJob j.idx fun j => { j with receipt := some t.tm.now, aseq := aseq })
      (h.congr rfl)).admitJob.settle

theorem leadCheck (h : SameStreams Stream.fixed s t) {jobId : Nat} : SameStreams Stream.fixed s (t.leadCheck jobId) := by
  simp only [State.leadCheck]
  have hset (d : Domain) (l : List Nat) (n : Nat) :
      SameStreams Stream.fixed s ((({ t with dom := d } : State).sendMembers 6 l).admitDomain jobId n) :=
    admitDomain (SameStreams.keeps (t := { t with dom := d }) (h.congr rfl)
      (Keeps.sendMembers (F := [.dom, .links, .out]) (.refl _)))
  split
  · exact h
  · split_ifs
    · exact hset ..
    · exact h

theorem refuseDomain (h : SameStreams Stream.counted s t)
    {jobId : Nat} : SameStreams Stream.counted s (t.refuseDomain jobId) := by
  simp only [State.refuseDomain]
  split
  · exact h
  · next j _ =>
    have hcount : SameStreams Stream.counted s
        (t.setStream j.stream { t.stream j.stream with refusals := bump (t.stream j.stream).refusals }) := h.setStream
    refine SameStreams.andFixed (SameStreams.congr hcount ?_) fun g => g.addRecord.settle
    rfl

theorem leadRefuse (h : SameStreams Stream.counted s t)
    {jobId : Nat} : SameStreams Stream.counted s (t.leadRefuse jobId) := by
  have hset (d : Domain) (l : List Nat) : SameStreams Stream.counted s (({ t with dom := d } : State).sendMembers 5 l) :=
    SameStreams.keeps (t := { t with dom := d }) (h.congr rfl) (Keeps.sendMembers (F := [.dom, .links, .out]) (.refl _))
  simp only [State.leadRefuse]
  split
  · exact h
  · exact (hset ..).refuseDomain

theorem tellRefuse (h : SameStreams Stream.counted s t)
    {jobId code : Nat} : SameStreams Stream.counted s (t.tellRefuse jobId code) := by
  simp only [State.tellRefuse]
  split_ifs
  · exact h.leadRefuse
  · exact h.keeps (Keeps.sendDctl (F := [.dom, .links, .out]) (.refl _))
  · exact h

end SameStreams

end Sys2Proof.Machine
end

section
/-! Descriptors are decided, continued: the jobs they enter, and what the decision leaves (R401, R403..R405). -/

namespace Sys2Proof.Machine

open Sys2Proof.Stated

/-! ### Jobs that writing records leaves -/

/-- A job that has not finished is in the table. -/
def Live (P : Job → Prop) (s : State) : Prop := ∃ j ∈ s.jobs, j.st ≠ .finished ∧ P j

namespace Live

variable {P : Job → Prop} {s t : State}

theorem congr (h : Live P s) (hjobs : t.jobs = s.jobs) : Live P t := by
  rw [Live, hjobs]
  exact h

theorem keeps {F : List Field} (h : Live P s) (hk : Keeps F s t)
    (hF : .jobs ∉ F := by decide) : Live P t := h.congr (hk.jobs hF)

/-- The writing of a record takes finished jobs alone. -/
theorem recordEffect (h : Live P s) {n : Nat} {r : CRec} : Live P (s.recordEffect n r) := by
  obtain ⟨j, hj, hst, hP⟩ := h
  simp only [State.recordEffect]
  split_ifs
  · exact ⟨j, List.mem_filter.2 ⟨hj, by simp [hst]⟩, hst, hP⟩
  · exact ⟨j, hj, hst, hP⟩
  · exact ⟨j, hj, hst, hP⟩
  · exact ⟨j, hj, hst, hP⟩

theorem putRecord (h : Live P s) {n : Nat} {r : CRec} : Live P (s.putRecord n r) := by
  simp only [State.putRecord]
  split
  · exact h
  · next u hu =>
    have hwritten : Live P u := h.keeps ((Keeps.refl (F := [.hostMem]) s).hostWrite hu)
    have hstatus (v : State)
      (hv : Live P v) : Live P (v.writeStatus n) := hv.keeps (Keeps.writeStatus (F := [.streams, .hostMem]) (.refl _))
    have heffect (x : Stream) : Live P (((u.setStream n x).recordEffect n r).writeStatus n) :=
      hstatus _ (Live.recordEffect (s := u.setStream n x) hwritten)
    split_ifs
    · exact (heffect _).keeps (Keeps.streamIrq (F := [.fns, .streams, .out]) (.refl _))
    · exact heffect _

theorem flushRecords (h : Live P s) {n fuel : Nat} : Live P (s.flushRecords n fuel) := by
  induction fuel generalizing s with
  | zero => exact h
  | succ k ih =>
    simp only [State.flushRecords]
    split
    · exact h
    · next r rest _ =>
      have hput (x : Stream) : Live P (((s.setStream n x).putRecord n r).flushRecords n k) :=
        ih (Live.putRecord (s := s.setStream n x) h)
      split_ifs
      · exact h
      · exact hput _

theorem addRecord (h : Live P s) {n : Nat} {r : CRec} : Live P (s.addRecord n r) := by
  have hset (x : Stream) : Live P (s.setStream n x) := h
  exact (hset _).flushRecords

theorem settle (h : Live P s) {n : Nat} : Live P (s.settle n) :=
  h.keeps (Keeps.settle (F := [.tenants, .keys, .installs, .streams, .hubs]) (.refl _))

/-- A change of the jobs of one number that keeps them live. -/
theorem modJob (h : Live P s) {i : Nat} {f : Job → Job} (hst : ∀ j, j.st ≠ .finished → (f j).st ≠ .finished)
    (hP : ∀ j, P j → P (f j)) :
    Live P (s.modJob i f) := by
  obtain ⟨j, hj, hlive, hPj⟩ := h
  refine ⟨if j.idx == i then f j else j, List.mem_map_of_mem hj, ?_, ?_⟩
  · split
    · exact hst j hlive
    · exact hlive
  · split
    · exact hP j hPj
    · exact hPj

theorem admitJob (h : Live P s) {i : Nat}
    (hP : ∀ j st o, P j → st = .queued → P { j with st := st, order := o }) : Live P (s.admitJob i) := by
  simp only [State.admitJob]
  have hqueued : Live P (s.nextOrder.2.modJob i fun j => { j with st := .queued, order := 2 ^ 62 + s.nextOrder.1 }) :=
    modJob (s := s.nextOrder.2) h (fun _ _ => by simp) fun j hj => hP j _ _ hj rfl
  split
  · exact hqueued.keeps (Keeps.queueInstalls (F := [.installs]) (.refl _))
  · exact hqueued

end Live

/-- A job as the descriptor gave it. -/
def Job.given (j : Job) : Nat × Nat × Nat × List (Nat × Nat) × List Nat := (j.stream, j.seq, j.prog, j.bufs, j.keys)

namespace Live

variable {s : State} {c : Nat × Nat × Nat × List (Nat × Nat) × List Nat}

theorem admitDomain (h : Live (·.given = c) s) {jobId aseq : Nat} : Live (·.given = c) (s.admitDomain jobId aseq) := by
  simp only [State.admitDomain]
  split
  · exact h
  · next j _ =>
    exact ((h.modJob (i := j.idx) (f := fun j => { j with receipt := some s.tm.now, aseq := aseq }) (fun _ hj => hj)
      fun _ hj => hj).addRecord.admitJob fun _ _ _ hj _ => hj).settle

theorem leadCheck (h : Live (·.given = c) s) {jobId : Nat} : Live (·.given = c) (s.leadCheck jobId) := by
  have hset (d : Domain) (l : List Nat) (n : Nat) :
      Live (·.given = c) ((({ s with dom := d } : State).sendMembers 6 l).admitDomain jobId n) :=
    admitDomain (Live.keeps (s := { s with dom := d }) h (Keeps.sendMembers (F := [.dom, .links, .out]) (.refl _)))
  simp only [State.leadCheck]
  split
  · exact h
  · split_ifs
    · exact hset ..
    · exact h

end Live

/-! ### A descriptor that passes -/

section
variable {s : State} {n : Nat} {d : JobDesc} {bufs : List (Nat × Nat)} {keys : List Nat}

/-- The job that a descriptor enters. -/
def State.newJob (s : State) (n : Nat) (d : JobDesc) (bufs : List (Nat × Nat)) (keys : List Nat) : Job :=
  { idx := s.freeEntry, stream := n, seq := d.seq, tenant := (s.stream n).tenant, prog := d.prog, jobId := d.jobId
    domain := bit d.flags 0, notify := bit d.flags 1, desc := d.raw, bufs := bufs, keys := keys, user := d.user
    st := if bit d.flags 0 then .pending else .queued, receipt := if bit d.flags 0 then none else some s.tm.now
    pendSince := s.tm.now / epochNs }

/-- The state with the job in the table and its credit taken. -/
def State.entered (s : State) (n : Nat) (d : JobDesc) (bufs : List (Nat × Nat)) (keys : List Nat) : State :=
  let u := s.setStream n { s.stream n with inflight := (s.stream n).inflight + 1 }
  let u := u.modTenant (s.stream n).tenant fun t => { t with inflight := t.inflight + 1 }
  let u := u.takeEntry (s.newJob n d bufs keys).idx
  { u with jobs := u.jobs ++ [s.newJob n d bufs keys] }

theorem acceptJob_eq : s.acceptJob n d bufs keys =
    if bit d.flags 0 then ((s.entered n d bufs keys).tellReady (s.newJob n d bufs keys)).leadCheck
      (s.newJob n d bufs keys).jobId
    else ((s.entered n d bufs keys).addRecord n (receiptOf (s.newJob n d bufs keys)
      (s.entered n d bufs keys).tm.now)).admitJob
      (s.newJob n d bufs keys).idx := rfl

theorem entered_streams (hr : Rising s.streams) : SameStreams Stream.fixed s (s.entered n d bufs keys) := by
  have hset : SameStreams Stream.fixed s (s.setStream n { s.stream n with inflight := (s.stream n).inflight + 1 }) :=
    (SameStreams.refl hr).setStream
  have htaken := SameStreams.takeEntry (i := (s.newJob n d bufs keys).idx) (SameStreams.congr
    (u := (s.setStream n { s.stream n with inflight := (s.stream n).inflight + 1 }).modTenant (s.stream n).tenant
      fun t => { t with inflight := t.inflight + 1 }) hset rfl)
  exact htaken.congr rfl

theorem newJob_mem : s.newJob n d bufs keys ∈ (s.entered n d bufs keys).jobs
    := List.mem_append_right _ (List.mem_singleton_self _)

theorem newJob_live : (s.newJob n d bufs keys).st ≠ .finished := by
  simp only [State.newJob]
  split <;> simp

theorem acceptJob_streams (hr : Rising s.streams) : SameStreams Stream.fixed s (s.acceptJob n d bufs keys) := by
  rw [acceptJob_eq]
  split
  · exact SameStreams.leadCheck ((entered_streams hr).keeps (Keeps.tellReady (F := [.links, .dom, .out]) (.refl _)))
  · exact (entered_streams hr).addRecord.admitJob

/-- The job is in the table, as the descriptor gave it. -/
theorem acceptJob_given : Live (·.given = (n, d.seq, d.prog, bufs, keys)) (s.acceptJob n d bufs keys) := by
  have hnew : Live (·.given = (n, d.seq, d.prog, bufs, keys)) (s.entered n d bufs keys) := ⟨_, newJob_mem, newJob_live, rfl⟩
  rw [acceptJob_eq]
  split
  · exact Live.leadCheck (hnew.keeps (Keeps.tellReady (F := [.links, .dom, .out]) (.refl _)))
  · exact hnew.addRecord.admitJob fun _ _ _ hj _ => hj

/-- A job of this package alone is receipted and queued. -/
theorem acceptJob_queued (hd : bit d.flags 0 = false) : Live (fun j => j.given = (n, d.seq, d.prog, bufs, keys) ∧ j.inc = 0 ∧
    j.st = .queued ∧ j.receipt = some s.tm.now) (s.acceptJob n d bufs keys) := by
  have hst : (s.newJob n d bufs keys).st = .queued ∧ (s.newJob n d bufs keys).receipt = some s.tm.now := by
    simp [State.newJob, hd]
  have hnew : Live (fun j => j.given = (n, d.seq, d.prog, bufs,
    keys) ∧ j.inc = 0 ∧ j.st = .queued ∧ j.receipt = some s.tm.now)
      (s.entered n d bufs keys) := ⟨_, newJob_mem, newJob_live, rfl, rfl, hst⟩
  rw [acceptJob_eq, if_neg (ne_true_of_eq_false hd)]
  exact hnew.addRecord.admitJob fun _ _ _ ⟨hg, hi, _, hrec⟩ hq => ⟨hg, hi, hq, hrec⟩

end

end Sys2Proof.Machine
end

section
/-! Descriptors are decided, concluded (R401, R403..R405). -/

namespace Sys2Proof.Machine

open Sys2Proof.Stated

/-! ### A descriptor that is refused -/

section
variable {s : State} {n : Nat} {d : JobDesc} {code detail : Nat}

/-- A stream with a refusal counted. -/
def Stream.refused (x : Stream) (code : Nat) : Stream :=
  { x with refusals := bump x.refusals, overloads := if code = 0x0B then bump x.overloads else x.overloads }

/-- The state with the refusal counted. -/
def State.refusalCounted (s : State) (n code : Nat) : State :=
  (s.setStream n ((s.stream n).refused code)).modTenant (s.stream n).tenant fun t => { t with refused := bump t.refused }

/-- The record of a refusal. -/
def refusalOf (d : JobDesc) (code detail now : Nat) : CRec :=
  { seq := d.seq, kind := 2, code := code, time := now, detail := detail, user := d.user, irq := true }

theorem refuseDesc_eq : s.refuseDesc n d code detail =
    let u := if bit d.flags 0 then (s.refusalCounted n code).tellRefuse d.jobId code else s.refusalCounted n code
    u.addRecord n (refusalOf d code detail u.tm.now) := rfl

theorem refusalCounted_streams (s : State) (n code : Nat) :
    (s.refusalCounted n code).streams = (s.setStream n ((s.stream n).refused code)).streams := rfl

theorem refuseDesc_streams (hr : Rising s.streams) : SameStreams Stream.counted s (s.refuseDesc n d code detail) := by
  have hcounted : SameStreams Stream.counted s (s.refusalCounted n code) :=
    SameStreams.congr (t :=
      s.setStream n ((s.stream n).refused code)) (SameStreams.refl hr).setStream (refusalCounted_streams ..)
  rw [refuseDesc_eq]
  extract_lets u
  refine SameStreams.andFixed (t := u) ?_ fun g => g.addRecord
  exact hcounted.tellRefuse.ite hcounted

/-- A refusal that no other package hears of. -/
theorem refuseDesc_own (hr : Rising s.streams) (hd : bit d.flags 0 = false) :
    SameStreams Stream.fixed (s.setStream n ((s.stream n).refused code)) (s.refuseDesc n d code detail) := by
  rw [refuseDesc_eq]
  simp only [hd, Bool.false_eq_true, if_false]
  exact SameStreams.addRecord ((SameStreams.refl (rising_mset hr)).congr (refusalCounted_streams ..))

theorem refuseDesc_counts (hr : Rising s.streams) (hd : bit d.flags 0 = false) :
    ((s.refuseDesc n d code detail).stream n).refusals = bump (s.stream n).refusals ∧
    ((s.refuseDesc n d code detail).stream n).overloads =
      if code = 0x0B then bump (s.stream n).overloads else (s.stream n).overloads := by
  have h := refuseDesc_own (code := code) (detail := detail) (n := n) hr hd
  rw [h.refusals, h.overloads, State.stream_setStream_self hr]
  exact ⟨rfl, rfl⟩

end

/-! ### The credit of an own job -/

/-- A RECEIPT takes no credit back. -/
theorem putRecord_receipt {s : State} (hr : Rising s.streams) {n : Nat} {r : CRec} (hk : r.kind = 1) :
    SameStreams Stream.inflight s (s.putRecord n r) := by
  have hquiet {t u : State}
    (h : SameStreams Stream.inflight s t) (g : SameStreams Stream.quiet t u) : SameStreams Stream.inflight s u :=
    h.trans (g.weaken Stream.inflight fun _ => rfl)
  simp only [State.putRecord]
  split
  · next hw =>
    have hheld : SameStreams Stream.inflight s (s.setStream n { s.stream n with held := r :: (s.stream n).held }) :=
      (SameStreams.refl hr).setStream
    exact hquiet hheld (SameStreams.quiet_streamFault hheld.rising n)
  · next u hu =>
    have hwritten : SameStreams Stream.inflight s u := (SameStreams.refl hr).keeps ((Keeps.refl (F
      := [.hostMem]) s).hostWrite hu)
    have heffect (x : Stream) (hx : x.inflight = (s.stream n).inflight) :
        SameStreams Stream.inflight s (((u.setStream n x).recordEffect n r).writeStatus n) := by
      have hring : SameStreams Stream.inflight s (u.setStream n x) := hwritten.setStream (hx.trans (hwritten.part n).symm)
      have hcommit : (u.setStream n x).recordEffect n r = (u.setStream n x).modStream n fun x => { x with committed := r.seq }
        := by
        simp [State.recordEffect, hk]
      rw [hcommit]
      exact hquiet hring.modStream (SameStreams.quiet_writeStatus hring.modStream.rising n)
    split_ifs
    · refine hquiet (heffect _ ?_) (SameStreams.quiet_streamIrq (heffect _ ?_).rising n)
      · rfl
      · rfl
    · refine heffect _ ?_
      rfl

theorem addRecord_receipt {s : State} (hr : Rising s.streams) {n : Nat} {r : CRec} (hk : r.kind = 1)
    (hheld : (s.stream n).held = []) :
    SameStreams Stream.inflight s (s.addRecord n r) := by
  have hset (x : Stream) (hx : x.inflight = (s.stream n).inflight) : SameStreams Stream.inflight s (s.setStream n x) :=
    (SameStreams.refl hr).setStream hx
  have hself : (s.setStream n { s.stream n with held := [r] }).stream n = { s.stream n with held := [r] } :=
    State.stream_setStream_self hr ..
  simp only [State.addRecord, hheld, List.nil_append, List.length_nil, Nat.zero_add, State.flushRecords, hself]
  split_ifs
  · exact hset { s.stream n with held := [r] } rfl
  · have hagain : SameStreams Stream.inflight s
        ((s.setStream n { s.stream n with held := [r] }).setStream n { s.stream n with held := [] }) :=
      SameStreams.setStream (hset { s.stream n with held := [r] } rfl) (by rw [hself])
    exact hagain.trans (putRecord_receipt hagain.rising hk)

theorem acceptJob_inflight {s : State}
    (hr : Rising s.streams) {n : Nat} {d : JobDesc} {bufs : List (Nat × Nat)} {keys : List Nat}
    (hd : bit d.flags 0 = false) (hheld : (s.stream n).held = []) :
    ((s.acceptJob n d bufs keys).stream n).inflight = (s.stream n).inflight + 1 := by
  have htaken (f : Stream → Stream) (hf : f {} = {}) (t u : State) (h : u.streams = t.streams.map fun e => (e.1, f e.2)) :
      u.stream n = f (t.stream n) := by
    rw [State.stream, h, mget_map hf, State.stream]
  have hentered : (s.entered n d bufs keys).stream n =
      (fun x : Stream => { x with done := x.done.filter fun j => j.idx != (s.newJob n d bufs keys).idx })
        ((s.setStream n { s.stream n with inflight := (s.stream n).inflight + 1 }).stream n) :=
    htaken (fun x => { x with done := x.done.filter fun j => j.idx != (s.newJob n d bufs keys).idx }) rfl
      (s.setStream n { s.stream n with inflight := (s.stream n).inflight + 1 }) _ rfl
  rw [State.stream_setStream_self hr] at hentered
  rw [acceptJob_eq, if_neg (ne_true_of_eq_false hd)]
  have hrec := addRecord_receipt (entered_streams (n := n) (d := d) (bufs := bufs) (keys := keys) hr).rising (n := n)
    (r := receiptOf (s.newJob n d bufs keys) (s.entered n d bufs keys).tm.now) rfl (by rw [hentered]; exact hheld)
  refine ((hrec.keeps (Keeps.admitJob (F := [.installs, .jobs, .jobSeq]) (.refl _))).part n).trans ?_
  rw [hentered]

/-! ### The descriptor is read -/

/-- The place in the ring of a stream's next descriptor. -/
def Stream.descAt (x : Stream) : Nat := x.sqAddr + 64 * (x.sqHead % 2 ^ x.sqLog2)

/-- A stream that has read a descriptor, in SEQ order or not. -/
def Stream.advanced (x : Stream) (inOrder : Prop) [Decidable inOrder] : Stream :=
  { x with
    sqHead := (x.sqHead + 1) % 2 ^ 32, stalled := false, nextSeq := if inOrder then (x.nextSeq + 1) % 2 ^ 32 else x.nextSeq }

section
variable {s : State} {n : Nat} {bs : List Byte}

theorem readDesc_of_fault
    (h : s.hostRead (fnOfEntry (s.stream n).fn) (s.streamPasid (s.stream n)) (s.stream n).descAt 64 = none) :
    s.readDesc n = s.streamFault n := by
  rw [Stream.descAt] at h
  simp only [State.readDesc, h]

/-- How far a descriptor's SEQ lies from the one that is next. -/
def seqGap (x : Stream) (d : JobDesc) : Nat := (d.seq + 2 ^ 32 - x.nextSeq) % 2 ^ 32

theorem readDesc_of_gap
    (h : s.hostRead (fnOfEntry (s.stream n).fn) (s.streamPasid (s.stream n)) (s.stream n).descAt 64 = some bs)
    (hgap : seqGap (s.stream n) (jobDesc bs) ≠ 0) :
    s.readDesc n = (s.setStream n ((s.stream n).advanced False)).refuseDesc n (jobDesc bs)
      (if seqGap (s.stream n) (jobDesc bs) < 2 ^ 31 then 0x01 else 0x02) 0 := by
  rw [Stream.descAt] at h
  rw [seqGap] at hgap
  simp only [State.readDesc, h, if_neg hgap]
  rfl

/-- What a decision does. -/
def State.decided (s : State) (n : Nat) (d : JobDesc) : Decision → State
  | .refuse code detail => s.refuseDesc n d code detail
  | .accept bufs keys => s.acceptJob n d bufs keys

theorem readDesc_of_next
    (h : s.hostRead (fnOfEntry (s.stream n).fn) (s.streamPasid (s.stream n)) (s.stream n).descAt 64 = some bs)
    (hr : Rising s.streams) (hgap : seqGap (s.stream n) (jobDesc bs) = 0) :
    s.readDesc n = (s.setStream n ((s.stream n).advanced True)).decided n (jobDesc bs)
      ((s.setStream n ((s.stream n).advanced True)).decideDesc ((s.stream n).advanced True) (jobDesc bs)) := by
  have hset : (s.setStream n ((s.stream n).advanced True)).stream n = (s.stream n).advanced True
    := State.stream_setStream_self hr ..
  rw [Stream.descAt] at h
  rw [seqGap] at hgap
  have hread : s.readDesc n = (s.setStream n ((s.stream n).advanced True)).decided n (jobDesc bs)
      ((s.setStream n ((s.stream n).advanced True)).decideDesc ((s.setStream n ((s.stream n).advanced True)).stream n)
        (jobDesc bs)) := by
    simp only [State.readDesc, h, hgap, if_true]
    rfl
  rw [hread, hset]

end

end Sys2Proof.Machine
end

section
/-! Descriptors are decided, settled (R401, R403..R405). -/

namespace Sys2Proof.Machine

open Sys2Proof.Stated

theorem exec_descriptorDecide {s : State} {n : Nat} (hn : n < 16384) (hw : s.working = true) (hen : s.en.st = 2)
    (hst : (s.stream n).st = .enabled) (hmore : (s.stream n).sqHead ≠ (s.stream n).sqTail)
      (hport : (s.stream n).portWait = false)
    (hbme : (s.stream n).bmeWait = false) : exec (.descriptorDecide n) s = .next (if s.recordsHeld (s.stream n) then
      (if (s.stream n).stalled then s
        else s.setStream n { s.stream n with stalled := true, cqStalls := bump (s.stream n).cqStalls })
      else (s.readDesc n).settle n) := by
  have hok : streamOk n = true := decide_eq_true hn
  have harises : ((s.stream n).st == .enabled && (s.stream n).sqHead != (s.stream n).sqTail) = true := by simp [hst, hmore]
  have hgo : (!s.working || s.en.st != 2 || (s.stream n).portWait || (s.stream n).bmeWait) = false := by simp [hw, hen, hport,
    hbme]
  show execDescriptorDecide n s = _
  simp only [execDescriptorDecide, hok, need_true, harises, arises_true, hgo, Bool.false_eq_true, if_false]

/-- A program with no buffer and no key requirement passes whenever its tenant, its program and its credits allow it. -/
theorem decideDesc_plain {s : State} {x : Stream} {d : JobDesc} {p : Program} (hp : s.program d.prog = some p)
    (hrsvd : d.rsvd = true)
    (hnbuf : d.nbuf = 0) (hbuftab : d.buftab = 0) (hnin : p.nin = 0) (hnout : p.nout = 0) (hflag : bit d.flags 0 = false)
    (hid : d.jobId = 0) (hspan : spansPackages p = false) (hreqs : p.reqs = []) (hten : (s.tenant x.tenant).st ≠ .disabled)
    (hthr : s.throttles d.prog = false) (htest : s.usesTestOnly p = false) (hcred : x.inflight < x.credits)
    (hlimit : (s.tenant x.tenant).creditLimit = 0 ∨ (s.tenant x.tenant).inflight < (s.tenant x.tenant).creditLimit) :
    s.decideDesc x d = .accept [] [] := by
  have hbad : descBad d (some p) = false := by simp [descBad, hrsvd, hnbuf, hbuftab, hnin, hnout, hflag, hid, hspan]
  have htab : s.bufTable x d = some [] := by simp [State.bufTable, hnbuf]
  have hkeys : s.resolveKeys x.tenant p.reqs d.keys = .ok [] := by rw [hreqs]; rfl
  have hdis : ((s.tenant x.tenant).st == .disabled) = false := by simp [hten]
  have hroom : ¬ (x.credits ≤ x.inflight ∨
      ((s.tenant x.tenant).creditLimit ≠ 0 ∧ (s.tenant x.tenant).creditLimit ≤ (s.tenant x.tenant).inflight)) := by omega
  simp only [State.decideDesc, hp, hbad, htab, hdis, hthr, htest, hkeys, hflag, Bool.false_and, Bool.false_eq_true, if_false,
    if_neg hroom]

theorem State.hostRead_of_no_fault {s : State} {f : FnId} {p : BitVec 32} {a len : Nat}
    (h : s.hostFaults? f p a len = false) :
    ∃ bs, s.hostRead f p a len = some bs := ⟨_, if_neg (ne_true_of_eq_false h)⟩

theorem seqGap_eq_zero {x : Stream} {bs : List Byte} (h : (jobDesc bs).seq = x.nextSeq) : seqGap x (jobDesc bs) = 0 := by
  rw [seqGap, h, Nat.add_sub_cancel_left, Nat.mod_self]

theorem seqGap_ne_zero {x : Stream} {bs : List Byte} (h : (jobDesc bs).seq ≠ x.nextSeq % 2 ^ 32) (hx : x.nextSeq < 2 ^ 32) :
    seqGap x (jobDesc bs) ≠ 0 := by
  have hseq : (jobDesc bs).seq < 2 ^ 32 := field_lt bs 0 4
  rw [seqGap]
  rw [Nat.mod_eq_of_lt hx] at h
  omega

section
variable {s : State} {n : Nat} {bs : List Byte}

/-- What a descriptor that was read leaves of its stream. -/
theorem readDesc_head (hr : Rising s.streams)
    (h : s.hostRead (fnOfEntry (s.stream n).fn) (s.streamPasid (s.stream n)) (s.stream n).descAt 64 = some bs) :
    Rising (s.readDesc n).streams ∧ ((s.readDesc n).stream n).sqHead = ((s.stream n).sqHead + 1) % 2 ^ 32 ∧
    ((s.readDesc n).stream n).nextSeq =
      if seqGap (s.stream n) (jobDesc bs) = 0 then ((s.stream n).nextSeq + 1) % 2 ^ 32 else (s.stream n).nextSeq := by
  by_cases hgap : seqGap (s.stream n) (jobDesc bs) = 0
  · have hset : (s.setStream n ((s.stream n).advanced True)).stream n = (s.stream n).advanced True
    := State.stream_setStream_self hr ..
    have hkept (c : Decision) : SameStreams Stream.counted (s.setStream n ((s.stream n).advanced True))
        ((s.setStream n ((s.stream n).advanced True)).decided n (jobDesc bs) c) := by
      cases c with
      | refuse code detail => exact refuseDesc_streams (rising_mset hr)
      | accept bufs keys => exact (acceptJob_streams (rising_mset hr)).counted
    rw [readDesc_of_next h hr hgap, (hkept _).sqHead, (hkept _).nextSeq, hset, if_pos hgap]
    exact ⟨(hkept _).rising, rfl, rfl⟩
  · have hset : (s.setStream n ((s.stream n).advanced False)).stream n = (s.stream n).advanced False
    := State.stream_setStream_self hr ..
    have hkept (code : Nat) := refuseDesc_streams (s := s.setStream n ((s.stream n).advanced False)) (n := n) (d
      := jobDesc bs)
      (code := code) (detail := 0) (rising_mset hr)
    rw [readDesc_of_gap h hgap, (hkept _).sqHead, (hkept _).nextSeq, hset, if_neg hgap]
    exact ⟨(hkept _).rising, rfl, rfl⟩

/-- The end of a drain leaves what a refusal or an admission counts. -/
theorem settle_counts {t : State} (hr : Rising t.streams) (n : Nat) : ((t.settle n).stream n).sqHead = (t.stream n).sqHead ∧
    ((t.settle n).stream n).nextSeq = (t.stream n).nextSeq ∧ ((t.settle n).stream n).refusals = (t.stream n).refusals ∧
    ((t.settle n).stream n).overloads = (t.stream n).overloads ∧ ((t.settle n).stream n).inflight = (t.stream n).inflight
      := by
  have h := (SameStreams.refl (π := Stream.fixed) hr).settle (n := n)
  have hdrained : SameStreams Stream.inflight t (t.drainCheck n) := SameStreams.ite (SameStreams.refl hr).setStream (.refl hr)
  have hinflight := (hdrained.keeps ((Keeps.refl (F := [.tenants, .keys, .installs, .hubs]) _).reap)).part n
  exact ⟨h.counted.sqHead n, h.counted.nextSeq n, h.refusals n, h.overloads n, hinflight⟩

/-- A ring that faults puts the stream into ERROR. -/
theorem settle_streamFault (hr : Rising s.streams) : (((s.streamFault n).settle n).stream n).st = .error ∧
    (((s.streamFault n).settle n).stream n).reason = 6 := by
  have hset : (s.streamFault n).stream n = { s.stream n with st := .error, reason := 6, errLive := true } :=
    State.stream_setStream_self hr ..
  have hsame : (s.streamFault n).drainCheck n = s.streamFault n := by simp [State.drainCheck, hset]
  have hstream : ((s.streamFault n).settle n).stream n = (s.streamFault n).stream n := by
    rw [State.settle, hsame]
    exact State.stream_congr ((Keeps.refl (F := [.tenants, .keys, .installs, .hubs]) _).reap).streams n
  rw [hstream, hset]
  exact ⟨rfl, rfl⟩

end

/-- Settles O34. -/
theorem descriptorsAreDecided : Obligations.DescriptorsAreDecided := by
  unfold Obligations.DescriptorsAreDecided
  intro s n hn hw hen hst hmore hport hbme hr x
  have hexec := exec_descriptorDecide hn hw hen hst hmore hport hbme
  refine ⟨fun hheld hstalled => ?_, fun hheld hstalled => ?_, fun hheld => ?_⟩
  · rw [hexec, if_pos hheld, if_pos hstalled]
  · rw [hexec, if_pos hheld, if_neg (ne_true_of_eq_false hstalled)]
  · rw [if_neg (ne_true_of_eq_false hheld)] at hexec
    refine ⟨fun hok => ?_, fun hnone => ?_, fun bs hbs => ⟨fun hseq hlt => ?_,
      fun p hseq hlt hp hrsvd hnbuf hbuftab hnin hnout hflag
      hid hspan hreqs hten hthr htest hcred hlimit hnoheld => ?_, fun hseq hlt => ?_⟩⟩
    · obtain ⟨bs, hbs⟩ := State.hostRead_of_no_fault hok
      obtain ⟨hrise, hhead, _⟩ := readDesc_head hr hbs
      exact ⟨_, hexec, (settle_counts hrise n).1.trans hhead⟩
    · refine ⟨_, hexec, ?_⟩
      rw [readDesc_of_fault hnone]
      exact settle_streamFault hr
    · have hgap := seqGap_ne_zero (x := s.stream n) (bs := bs) hseq hlt
      obtain ⟨hrise, hhead, hnext⟩ := readDesc_head hr hbs
      obtain ⟨hh, hq, hrefusals, -, -⟩ := settle_counts hrise n
      refine ⟨_, hexec, hh.trans hhead, hq.trans (hnext.trans (if_neg hgap)), fun hflag => hrefusals.trans ?_⟩
      rw [readDesc_of_gap hbs hgap]
      refine (refuseDesc_counts (rising_mset hr) hflag).1.trans (congrArg bump ?_)
      rw [State.stream_setStream_self hr]
      rfl
    · have hgap := seqGap_eq_zero (x := s.stream n) (bs := bs) hseq
      obtain ⟨hrise, hhead, hnext⟩ := readDesc_head hr hbs
      obtain ⟨hh, hq, -, -, hinflight⟩ := settle_counts hrise n
      have hset : (s.setStream n ((s.stream n).advanced True)).stream n = (s.stream n).advanced True :=
        State.stream_setStream_self hr ..
      have haccept : (s.setStream n ((s.stream n).advanced True)).decideDesc ((s.stream n).advanced True) (jobDesc bs) =
          .accept [] [] :=
        decideDesc_plain hp hrsvd hnbuf hbuftab hnin hnout hflag hid hspan hreqs hten hthr htest hcred hlimit
      have hread := readDesc_of_next hbs hr hgap
      rw [haccept] at hread
      obtain ⟨j, hj, -, hgiven, hinc, hqueued,
        hreceipt⟩ := (acceptJob_queued (s := s.setStream n ((s.stream n).advanced True))
        (n := n) (bufs := []) (keys := []) hflag).settle (n := n)
      refine ⟨_, hexec, hh.trans hhead, hq.trans (hnext.trans (if_pos hgap)), hinflight.trans ?_, j, ?_, ?_⟩
      · rw [hread]
        refine (acceptJob_inflight (rising_mset hr) hflag (by rw [hset]; exact hnoheld)).trans ?_
        rw [hset]
        rfl
      · rw [hread]
        exact hj
      · obtain ⟨hstream, hjseq, hprog, hbufs, hkeys⟩ : j.stream = n ∧ j.seq = (jobDesc bs).seq ∧ j.prog = (jobDesc bs).prog ∧
            j.bufs = [] ∧ j.keys = [] := by simpa [Job.given] using hgiven
        exact ⟨hstream, hjseq, hprog, hbufs, hkeys, hinc, hqueued, hreceipt⟩
    · have hgap := seqGap_eq_zero (x := s.stream n) (bs := bs) hseq
      obtain ⟨hrise, hhead, hnext⟩ := readDesc_head hr hbs
      obtain ⟨hh, hq, hrefusals, hoverloads, -⟩ := settle_counts hrise n
      have hset : (s.setStream n ((s.stream n).advanced True)).stream n = (s.stream n).advanced True :=
        State.stream_setStream_self hr ..
      have hread := readDesc_of_next hbs hr hgap
      refine ⟨_, hexec, hh.trans hhead, hq.trans (hnext.trans (if_pos hgap)), fun y code detail hy hc hflag => ?_,
        fun y bufs keys hy hc => ?_⟩
      · subst hy
        have hdecided : (s.setStream n ((s.stream n).advanced True)).decideDesc ((s.stream n).advanced True) (jobDesc bs) =
            .refuse code detail := hc
        rw [hdecided] at hread
        obtain ⟨hcount, hover⟩ := refuseDesc_counts (s := s.setStream n ((s.stream n).advanced True)) (n := n) (code := code)
          (detail := detail) (rising_mset hr) hflag
        rw [hset] at hcount hover
        rw [hrefusals, hoverloads, hread]
        exact ⟨hcount, hover⟩
      · subst hy
        have hdecided : (s.setStream n ((s.stream n).advanced True)).decideDesc ((s.stream n).advanced True) (jobDesc bs) =
            .accept bufs keys := hc
        rw [hdecided] at hread
        rw [hread]
        cases hflag : bit (jobDesc bs).flags 0 with
        | true =>
          obtain ⟨j, hj, -, hgiven⟩ := (acceptJob_given (s := s.setStream n ((s.stream n).advanced True)) (n := n) (d
            := jobDesc bs)
            (bufs := bufs) (keys := keys)).settle (n := n)
          simp only [Job.given, Prod.mk.injEq] at hgiven
          obtain ⟨hstream, hjseq, hprog, hbufs, hkeys⟩ := hgiven
          exact ⟨j, hj, hstream, hjseq, hprog, hbufs, hkeys, nofun⟩
        | false =>
          obtain ⟨j, hj, -, hgiven, -, hqueued,
            hreceipt⟩ := (acceptJob_queued (s := s.setStream n ((s.stream n).advanced True))
            (n := n) (bufs := bufs) (keys := keys) hflag).settle (n := n)
          simp only [Job.given, Prod.mk.injEq] at hgiven
          obtain ⟨hstream, hjseq, hprog, hbufs, hkeys⟩ := hgiven
          exact ⟨j, hj, hstream, hjseq, hprog, hbufs, hkeys, fun _ => ⟨hqueued, hreceipt⟩⟩

end Sys2Proof.Machine
end

section
/-! Completions and held interrupts (R25, R400, R406, R407, R410, R413). -/

namespace Sys2Proof.Machine

open Sys2Proof.Stated

/-! ### A record is 32 bytes -/

theorem length_leBytes (n v : Nat) : (leBytes n v).length = n := by
  induction n generalizing v with
  | zero => rfl
  | succ n ih => rw [leBytes, List.length_cons, ih]

theorem length_recBytes (r : CRec) (phase : Nat) : (recBytes r phase).length = 32 := by
  simp only [recBytes, List.length_append, length_leBytes]

theorem hostWrite_of_no_fault {s : State} {f : FnId} {p : BitVec 32} {a : Nat} {bs : List Byte}
    (h : s.hostFaults? f p a bs.length = false) :
    s.hostWrite f p a bs = some { s with hostMem := Memory.write s.hostMem (hostKey (hostSpace f p) a) bs } :=
  if_neg (ne_true_of_eq_false h)

/-! ### The job whose COMPLETION is next -/

theorem nextDone_mem {s : State} {n : Nat} {j : Job} (h : s.nextDone n = some j) : j ∈ s.jobs ∧ j.stream = n := by
  unfold State.nextDone at h
  extract_lets x js at h
  have hmem : ∀ k, js.foldl (fun b j => match b with
      | none => some j
      | some i =>
        if (j.seq + 2 ^ 32 - x.nextSeq) % 2 ^ 32 <
          (i.seq + 2 ^ 32 - x.nextSeq) % 2 ^ 32 then some j else some i) none = some k →
      k ∈ js := by
    refine List.foldlRecOn js _ (motive := fun b : Option Job => ∀ k, b = some k → k ∈ js) nofun fun b hb i hi k hk => ?_
    cases b with
    | none => exact (Option.some.inj hk) ▸ hi
    | some a =>
      dsimp only at hk
      split_ifs at hk
      · exact (Option.some.inj hk) ▸ hi
      · exact (Option.some.inj hk) ▸ hb a rfl
  obtain ⟨hj, hcond⟩ := List.mem_filter.1 (hmem j h)
  exact ⟨hj, eq_of_beq (Bool.and_eq_true_iff.1 hcond).1⟩

theorem exec_completion {s : State} {n : Nat} {j : Job} {st d inc : Nat} (hn : n < 16384) (hj : s.nextDone n = some j)
    (hres : j.result = some (st, d, inc)) : exec (.completion n) s =
      arises (!s.outputsPending j.idx inc) "an output of the job is not visible yet"
        (.next (if s.running then (s.complete j st d inc).settle n else s)) := by
  have hok : streamOk n = true := decide_eq_true hn
  show execCompletion n s = _
  simp only [execCompletion, hok, need_true, hj, hres]

/-! ### The record is written -/

/-- The record of a COMPLETION. -/
def completionOf (j : Job) (st d inc : Nat) : CRec :=
  { seq := j.seq, kind := 3, code := st, flags := j.flags, time := j.doneAt, inc := inc, detail := d, user := j.user
    irq := j.notify }

section
variable {s : State} {n : Nat} {r : CRec}

/-- A stream with one more record in its ring. -/
def Stream.ringed (x : Stream) (r : CRec) : Stream :=
  { x with cqTail := (x.cqTail + 1) % 2 ^ 32, recs := x.recs ++ [(x.cqTail, r)] }

/-- The effect of a record that is in the ring: its status block and its interrupt. -/
def State.shown (s : State) (n : Nat) (r : CRec) : State :=
  let s := (s.recordEffect n r).writeStatus n
  if r.irq then s.streamIrq n else s

theorem shown_quiet
    (hr : Rising (s.recordEffect n r).streams) : SameStreams Stream.quiet (s.recordEffect n r) (s.shown n r) := by
  have hstatus := SameStreams.quiet_writeStatus hr n
  unfold State.shown
  extract_lets u
  exact (hstatus.trans (SameStreams.quiet_streamIrq hstatus.rising n)).ite hstatus

theorem shown_jobs : (s.shown n r).jobs = (s.recordEffect n r).jobs := by
  unfold State.shown
  extract_lets u
  have hstatus : u.jobs = (s.recordEffect n r).jobs := (Keeps.writeStatus (F := [.streams, .hostMem]) (.refl _)).jobs
  split
  · exact ((Keeps.streamIrq (F := [.fns, .streams, .out]) (.refl u)).jobs).trans hstatus
  · exact hstatus

/-- A record that is due is written at once, when none is held and the ring takes it. -/
theorem addRecord_written (hr : Rising s.streams) (hheld : (s.stream n).held = [])
    (hroom : s.recordsHeld (s.stream n) = false)
    (hok : s.hostFaults? (fnOfEntry (s.stream n).fn) (s.streamPasid (s.stream n))
      ((s.stream n).cqAddr + 32 * ((s.stream n).cqTail % 2 ^ (s.stream n).cqLog2)) 32 = false) :
    ∃ u : State, Rising u.streams ∧ u.jobs = s.jobs ∧ s.addRecord n r = (u.setStream n ((s.stream n).ringed r)).shown n r
      := by
  have hself (t : State)
    (ht : Rising t.streams) (x : Stream) : (t.setStream n x).stream n = x := State.stream_setStream_self ht ..
  have heta : ({ s.stream n with held := [] } : Stream) = s.stream n := by rw [← hheld]
  let s1 := s.setStream n { s.stream n with held := [r] }
  let s2 := s1.setStream n (s.stream n)
  have h1 : s1.stream n = { s.stream n with held := [r] } := hself s hr _
  have h2 : s2.stream n = s.stream n := hself s1 (rising_mset hr) _
  have hflush : s.addRecord n r = s2.putRecord n r := by
    have hroom1 : s1.recordsHeld { s.stream n with held := [r] } = false := hroom
    have hagain : s1.setStream n { s.stream n with held := [] } = s2 := by rw [heta]
    show (s.setStream n { s.stream n with held := (s.stream n).held ++ [r] }).flushRecords n
      ((s.stream n).held.length + 1) = _
    rw [hheld]
    show s1.flushRecords n 1 = _
    simp only [State.flushRecords, h1, hroom1, Bool.false_eq_true, if_false, hagain]
  obtain ⟨u, hu⟩ : ∃ u, s2.hostWrite (fnOfEntry (s.stream n).fn) (s2.streamPasid (s.stream n))
      ((s.stream n).cqAddr + 32 * ((s.stream n).cqTail % 2 ^ (s.stream n).cqLog2))
      (recBytes r (phaseOf (s.stream n).cqTail (s.stream n).cqLog2)) = some u :=
    ⟨_, hostWrite_of_no_fault (by rw [length_recBytes]; exact hok)⟩
  have hk : Keeps [.hostMem] s2 u := (Keeps.refl s2).hostWrite hu
  refine ⟨u, hk.streams ▸ rising_mset (rising_mset hr), hk.jobs, ?_⟩
  rw [hflush, State.putRecord, h2, hu]
  rfl

/-- What the COMPLETION of a stream's job does to the stream, once it is in the ring. -/
def Stream.paid (x : Stream) (r : CRec) (js : List Job) : Stream :=
  { x with completed := r.seq, done := x.done ++ js, inflight := x.inflight - 1 }

/-- The jobs that a COMPLETION ends. -/
def endedBy (n : Nat) (r : CRec) (j : Job) : Bool := j.stream == n && j.seq == r.seq && j.st == .finished

theorem freeCredit_stream (hr : Rising s.streams) : Rising (s.freeCredit n).streams ∧
    (s.freeCredit n).stream n = { s.stream n with inflight := (s.stream n).inflight - 1 } :=
  ⟨rising_mset hr, State.stream_setStream_self hr ..⟩

theorem recordEffect_completion {u : State} (hr : Rising u.streams) (hk : r.kind = 3) :
    Rising (u.recordEffect n r).streams ∧ (u.recordEffect n r).jobs = u.jobs.filter (fun j => !endedBy n r j) ∧
    (u.recordEffect n r).stream n = (u.stream n).paid r (u.jobs.filter (endedBy n r)) := by
  have heffect : u.recordEffect n r = { (u.modStream n fun x =>
      { x with completed := r.seq, done := x.done ++ u.jobs.filter (endedBy n r) }).freeCredit n with
        jobs := u.jobs.filter fun j => !endedBy n r j } := by
    rw [State.recordEffect, if_pos hk]
    rfl
  have hset : (u.modStream n fun x => { x with completed := r.seq, done := x.done ++ u.jobs.filter (endedBy n r) }).stream n =
      { u.stream n with completed := r.seq, done := (u.stream n).done ++ u.jobs.filter (endedBy n r) } :=
    State.stream_setStream_self hr ..
  obtain ⟨hrise, hfree⟩ := freeCredit_stream (n := n) (s := u.modStream n fun x =>
    { x with completed := r.seq, done := x.done ++ u.jobs.filter (endedBy n r) }) (rising_mset hr)
  rw [hset] at hfree
  rw [heffect]
  exact ⟨hrise, rfl, hfree⟩

/-- The stream does not drain. -/
def Holds (n : Nat) (s : State) : Prop := (s.stream n).st ≠ .draining

theorem holds_streamFault (hr : Rising s.streams) : Holds n (s.streamFault n) := by
  have hset : (s.streamFault n).stream n = { s.stream n with st := .error, reason := 6, errLive := true } :=
    State.stream_setStream_self hr ..
  rw [Holds, hset]
  simp

theorem holds_shown (hr : Rising (s.recordEffect n r).streams) (h : Holds n (s.recordEffect n r)) :
    Holds n (s.shown n r) := by
  have hstatus : Holds n ((s.recordEffect n r).writeStatus n) := by
    simp only [State.writeStatus]
    split
    · rw [Holds, State.stream_congr ((Keeps.hostWrite (F := [.hostMem]) (.refl (s.recordEffect n r)) ‹_›).streams)]
      exact h
    · exact holds_streamFault hr
  have hset (t : State) (ht : Rising t.streams) (hh : Holds n t) (x : Stream)
    (hx : x.st = (t.stream n).st) : Holds n (t.setStream n x) := by
    rw [Holds, State.stream_setStream_self ht, hx]
    exact hh
  have hrise := (SameStreams.quiet_writeStatus hr n).rising
  unfold State.shown
  extract_lets u
  split
  · simp only [State.streamIrq]
    split
    · exact hstatus
    · split_ifs
      · exact hset u hrise hstatus { u.stream n with irqWait := true } rfl
      · rw [Holds, State.stream_congr ((Keeps.raiseMsix (F := [.fns, .out]) (.refl (u.setStream n _))).streams)]
        exact hset u hrise hstatus { u.stream n with irqLast := some u.tm.now, irqWait := false } rfl
  · exact hstatus

theorem settle_holding (h : Holds n s) : (s.settle n).stream n = s.stream n := by
  have hsame : s.drainCheck n = s := by
    have hcond : ((s.stream n).st == .draining) = false := by simpa [Holds] using h
    simp [State.drainCheck, hcond]
  rw [State.settle, hsame]
  exact State.stream_congr ((Keeps.refl (F := [.tenants, .keys, .installs, .hubs]) _).reap).streams n

end

/-! ### A held interrupt -/

theorem exec_irqDelayExpiry {s : State} {n : Nat} (hn : n < 16384) (hp : s.pw.part ≠ .off)
    (hw : (s.stream n).irqWait = true) :
    exec (.irqDelayExpiry n) s = .next
      (((s.reach ((s.stream n).irqLast.getD 0 + 1000 * (s.stream n).irqDelay)).setStream n
        { s.stream n with
          irqWait := false, irqLast
            := some (s.reach ((s.stream n).irqLast.getD 0 + 1000 * (s.stream n).irqDelay)).tm.now }).raiseMsix
        (fnOfEntry (s.stream n).fn) (s.stream n).vector) := by
  have hok : streamOk n = true := decide_eq_true hn
  show execIrqDelayExpiry n s = _
  simp only [execIrqDelayExpiry, hok, need_true, hw, arises_true, State.powered_of_ne hp, Bool.not_true, Bool.false_eq_true,
    if_false]

theorem raiseMsix_sent {s : State} {f : FnId} {v : Nat} (hb : (s.fn f).bme = true) (hm : (s.fn f).mask.getLsbD v = false) :
    s.raiseMsix f v = s.send ((s.fn f).message f v) := by
  simp [State.raiseMsix, hb, hm]

theorem raiseMsix_pends {s : State} {f : FnId} {v : Nat} (h : (s.fn f).bme = false ∨ (s.fn f).mask.getLsbD v = true) :
    s.raiseMsix f v = s.setFn f { s.fn f with pend := (s.fn f).pend ||| (1 : BitVec 32) <<< v } := by
  have hcond : ((s.fn f).bme && !(s.fn f).mask.getLsbD v) = false := by
    rcases h with h | h <;> simp [h]
  simp only [State.raiseMsix, hcond, Bool.false_eq_true, if_false]

/-- The part of a stream that a COMPLETION moves. -/
def Stream.ring (x : Stream) : Nat × Nat × Nat × List Job := (x.cqTail, x.completed, x.inflight, x.done)

/-- The end of a drain leaves the ring. -/
theorem settle_ring {s : State} (hr : Rising s.streams) (n : Nat) : ((s.settle n).stream n).cqTail = (s.stream n).cqTail ∧
    ((s.settle n).stream n).completed = (s.stream n).completed ∧ ((s.settle n).stream n).inflight = (s.stream n).inflight
      := by
  have hdrained : SameStreams (fun x => (x.cqTail, x.completed, x.inflight)) s (s.drainCheck n) :=
    SameStreams.ite (SameStreams.refl hr).setStream (.refl hr)
  have hpart := (hdrained.keeps ((Keeps.refl (F := [.tenants, .keys, .installs, .hubs]) _).reap)).part n
  simp only [Prod.mk.injEq] at hpart
  exact hpart

/-- What a COMPLETION with status 0 leaves of its stream and its job. -/
theorem completion_written {s : State} {n : Nat} {j : Job} {d inc : Nat} (hr : Rising s.streams) (hj : s.nextDone n = some j)
    (hheld : (s.stream n).held = []) (hroom : s.recordsHeld (s.stream n) = false)
    (hok : s.hostFaults? (fnOfEntry (s.stream n).fn) (s.streamPasid (s.stream n))
      ((s.stream n).cqAddr + 32 * ((s.stream n).cqTail % 2 ^ (s.stream n).cqLog2)) 32 = false) :
    let t := (s.complete j 0 d inc).settle n
    (t.stream n).cqTail = ((s.stream n).cqTail + 1) % 2 ^ 32 ∧ (t.stream n).completed = j.seq ∧
    (t.stream n).inflight = (s.stream n).inflight - 1 ∧
    (j.st = .finished → j ∉ t.jobs ∧ ((s.stream n).st = .enabled → j ∈ (t.stream n).done)) := by
  intro t
  obtain ⟨hmem, hstream⟩ := nextDone_mem hj
  obtain ⟨u, hu, hujobs, hadd⟩ := addRecord_written (r := completionOf j 0 d inc) hr hheld hroom hok
  have hcomplete : s.complete j 0 d inc = (u.setStream n ((s.stream n).ringed (completionOf j 0 d inc))).shown n
      (completionOf j 0 d inc) := by
    rw [← hadd, ← hstream]
    rfl
  have hset : (u.setStream n ((s.stream n).ringed (completionOf j 0 d inc))).stream n =
      (s.stream n).ringed (completionOf j 0 d inc) := State.stream_setStream_self hu ..
  obtain ⟨hrise, hjobs, hpaid⟩ := recordEffect_completion (n := n) (r := completionOf j 0 d inc)
    (u := u.setStream n ((s.stream n).ringed (completionOf j 0 d inc))) (rising_mset hu) rfl
  rw [hset] at hpaid
  have hring := ((shown_quiet hrise).weaken (ρ := Stream.ring) Stream.ring fun _ => rfl).part n
  rw [hpaid] at hring
  obtain ⟨hcqTail, hcompleted, hinflight, hdone⟩ : _ ∧ _ ∧ _ ∧ _ := by simpa only [Stream.ring, Prod.mk.injEq] using hring
  obtain ⟨htail, hcomp, hinf⟩ := settle_ring (shown_quiet hrise).rising n
  have ht : t = State.settle _ n := congrArg (State.settle · n) hcomplete
  rw [ht]
  refine ⟨htail.trans hcqTail, hcomp.trans hcompleted, hinf.trans hinflight, fun hfin => ?_⟩
  have hends : endedBy n (completionOf j 0 d inc) j = true := by simp [endedBy, hstream, hfin, completionOf]
  refine ⟨fun hin => ?_, fun hen => ?_⟩
  · rw [(Keeps.settle (F := [.tenants, .keys, .installs, .streams, .hubs]) (.refl _)).jobs, shown_jobs, hjobs] at hin
    simpa [hends] using (List.mem_filter.1 hin).2
  · have hholds : Holds n ((u.setStream n ((s.stream n).ringed (completionOf j 0 d inc))).recordEffect n
    (completionOf j 0 d inc)) := by
      rw [Holds, hpaid]
      simp [Stream.paid, Stream.ringed, hen]
    rw [settle_holding (holds_shown hrise hholds), hdone]
    exact List.mem_append_right _ (List.mem_filter.2 ⟨hujobs ▸ hmem, hends⟩)

/-- Settles O35. -/
theorem completionsFollowSeq : Obligations.CompletionsFollowSeq := by
  unfold Obligations.CompletionsFollowSeq
  refine ⟨fun s n j st d inc hn hj hres => ⟨fun hpend => ?_, fun hpend => ?_⟩, fun s n hn hp hw => ?_⟩
  · rw [exec_completion hn hj hres, hpend]
    rfl
  · have hexec := exec_completion hn hj hres
    rw [hpend, Bool.not_false, arises_true] at hexec
    refine ⟨fun hoff => ?_, fun hon hst hr hheld hroom hok => ?_, fun hon => ?_⟩
    · rw [hexec, if_neg (ne_true_of_eq_false hoff)]
    · subst hst
      rw [if_pos hon] at hexec
      exact ⟨_, hexec, completion_written hr hj hheld hroom hok⟩
    · rw [if_pos hon] at hexec
      have hk : Keeps [.fns, .tenants, .streams, .jobs, .hostMem, .free, .out, .keys, .installs, .hubs] s
          ((s.complete j st d inc).settle n) := (Keeps.refl s).complete.settle
      exact ⟨_, hexec, hk.same .plan (by decide), hk.same .tm (by decide)⟩
  · intro x f v u
    have hexec := exec_irqDelayExpiry hn hp hw
    refine ⟨fun hb hm => hexec.trans (congrArg Host.Outcome.next ?_), fun h => hexec.trans (congrArg Host.Outcome.next ?_)⟩
    · exact raiseMsix_sent (s := u) hb hm
    · exact raiseMsix_pends (s := u) h

end Sys2Proof.Machine
end

section
/-! The layer on functions (R391, R392, R413) and the streams of a port: what records leave of every function. -/

namespace Sys2Proof.Machine

open Sys2Proof.Stated

theorem Keeps.fns {F : List Field} {s t : State} (h : Keeps F s t)
    (hF : .fns ∉ F := by decide) : t.fns = s.fns := h.same .fns hF

theorem Keeps.ports {F : List Field} {s t : State} (h : Keeps F s t)
    (hF : .ports ∉ F := by decide) : t.ports = s.ports := h.same .ports hF

/-- A part of every function is the same, and the table still rises. -/
structure SameFns {α : Type} (π : Fn → α) (s t : State) : Prop where
  rising : Rising t.fns
  part : ∀ f, π (t.fn f) = π (s.fn f)

theorem State.fn_congr {s t : State}
    (h : t.fns = s.fns) (f : FnId) : t.fn f = s.fn f := congrArg (mget ({} : Fn) · (fnKey f)) h

theorem State.fn_setFn {s : State} (h : Rising s.fns) (f g : FnId) (x : Fn) :
    (s.setFn f x).fn g = if fnKey g = fnKey f then x else s.fn g := by
  split
  · next hg =>
    rw [State.fn, hg]
    exact mget_mset_self ({} : Fn) h _ _
  · next hg => exact mget_mset_of_ne ({} : Fn) s.fns _ _ _ hg

namespace SameFns

variable {α : Type} {π : Fn → α} {s t u : State}

theorem refl (h : Rising s.fns) : SameFns π s s := ⟨h, fun _ => rfl⟩

theorem trans (h : SameFns π s t) (g : SameFns π t u) : SameFns π s u := ⟨g.rising, fun f => (g.part f).trans (h.part f)⟩

theorem weaken {β : Type} {ρ : Fn → β} (h : SameFns π s t) (k : α → β) (hk : ∀ x, ρ x = k (π x)) : SameFns ρ s t :=
  ⟨h.rising, fun f => (hk _).trans ((congrArg k (h.part f)).trans (hk _).symm)⟩

theorem congr (h : SameFns π s t) (hfns : u.fns = t.fns) : SameFns π s u :=
  ⟨hfns ▸ h.rising, fun f => (congrArg π (State.fn_congr hfns f)).trans (h.part f)⟩

theorem keeps {F : List Field} (h : SameFns π s t) (hk : Keeps F t u)
    (hF : .fns ∉ F := by decide) : SameFns π s u := h.congr (hk.fns hF)

theorem setFn (h : SameFns π s t) {f : FnId} {x : Fn} (hx : π x = π (t.fn f) := by rfl) : SameFns π s (t.setFn f x) := by
  refine ⟨rising_mset h.rising, fun g => ?_⟩
  rw [State.fn_setFn h.rising, ← h.part g]
  split
  · next hg => rw [hx, State.fn, State.fn, hg]
  · rfl

theorem foldl (h : SameFns π s t) {β : Type} {f : State → β → State} (hf : ∀ u, SameFns π s u → ∀ b, SameFns π s (f u b))
    (l : List β) : SameFns π s (l.foldl f t) := List.foldlRecOn l f (motive := SameFns π s) h fun u hu b _ => hf u hu b

end SameFns

/-- A function but for the vectors that wait. -/
def Fn.unpended (x : Fn) : Fn := { x with pend := 0 }

namespace SameFns

variable {s t : State}

theorem raiseMsix (h : SameFns Fn.unpended s t) {f : FnId} {v : Nat} : SameFns Fn.unpended s (t.raiseMsix f v) := by
  simp only [State.raiseMsix]
  split
  · exact h.congr rfl
  · exact h.setFn

theorem streamIrq (h : SameFns Fn.unpended s t) {n : Nat} : SameFns Fn.unpended s (t.streamIrq n) := by
  have hset (x : Stream) : SameFns Fn.unpended s (t.setStream n x) := h.congr rfl
  simp only [State.streamIrq]
  split
  · exact h
  · split_ifs
    · exact hset _
    · exact (hset _).raiseMsix

theorem putRecord (h : SameFns Fn.unpended s t) {n : Nat} {r : CRec} : SameFns Fn.unpended s (t.putRecord n r) := by
  simp only [State.putRecord]
  split
  · exact h.congr rfl
  · next u hu =>
    have hwritten : SameFns Fn.unpended s u := h.keeps ((Keeps.refl (F := [.hostMem]) t).hostWrite hu)
    have heffect (v : State) (hv : SameFns Fn.unpended s v) : SameFns Fn.unpended s ((v.recordEffect n r).writeStatus n) :=
      hv.keeps ((Keeps.refl (F := [.tenants, .streams, .jobs, .hostMem]) v).recordEffect.writeStatus)
    have hring (x : Stream) : SameFns Fn.unpended s (u.setStream n x) := hwritten.congr rfl
    split_ifs
    · exact (heffect _ (hring _)).streamIrq
    · exact heffect _ (hring _)

theorem flushRecords (h : SameFns Fn.unpended s t) {n fuel : Nat} : SameFns Fn.unpended s (t.flushRecords n fuel) := by
  have hset (t : State) (h : SameFns Fn.unpended s t) (x : Stream) : SameFns Fn.unpended s (t.setStream n x) := h.congr rfl
  induction fuel generalizing t with
  | zero => exact h
  | succ k ih =>
    simp only [State.flushRecords]
    split
    · exact h
    · split_ifs
      · exact h
      · exact ih (hset t h _).putRecord

theorem flush (h : SameFns Fn.unpended s t) {n : Nat} : SameFns Fn.unpended s (t.flush n) :=
  h.flushRecords.keeps (Keeps.settle (F := [.tenants, .keys, .installs, .streams, .hubs]) (.refl _))

end SameFns

/-! ### Streams that change one after another -/

/-- A part of the numbered streams that every turn of a loop sets to one value, and that no later turn takes back. -/
theorem foldl_reaches {P : Nat → State → Prop} {Q : State → Prop} {f : State → Nat → State} (hQ : ∀ s n, Q s → Q (f s n))
    (hset : ∀ s n, Q s → P n (f s n)) (hkeep : ∀ s n m, Q s → P n s → P n (f s m)) (l : List Nat) {s : State} (hs : Q s) :
    ∀ n ∈ l, P n (l.foldl f s) := by
  induction l generalizing s with
  | nil => exact fun n hn => absurd hn List.not_mem_nil
  | cons m l ih =>
    intro n hn
    rcases List.mem_cons.1 hn with rfl | hn
    · have hlater : Q ((l.foldl f (f s n))) ∧ P n (l.foldl f (f s n)) :=
        List.foldlRecOn l f (motive := fun u => Q u ∧ P n u) ⟨hQ s n hs, hset s n hs⟩ fun u ⟨hu, hPu⟩ k _ => ⟨hQ u k hu,
          hkeep u n k hu hPu⟩
      exact hlater.2
    · exact ih (hQ s m hs) n hn

namespace SameStreams

variable {s t : State}

theorem bmeWait (h : SameStreams Stream.fixed s t) (n : Nat) : (t.stream n).bmeWait = (s.stream n).bmeWait :=
  (h.weaken (ρ := Stream.bmeWait) Stream.bmeWait fun _ => rfl).part n

theorem portWait (h : SameStreams Stream.fixed s t) (n : Nat) : (t.stream n).portWait = (s.stream n).portWait :=
  (h.weaken (ρ := Stream.portWait) Stream.portWait fun _ => rfl).part n

theorem rewriteRecords (h : SameStreams Stream.fixed s t) {n : Nat} : SameStreams Stream.fixed s (t.rewriteRecords n) := by
  unfold State.rewriteRecords
  refine h.foldl (fun u hu r => ?_) _
  dsimp only
  split
  · exact hu.keeps ((Keeps.refl (F := [.hostMem]) u).hostWrite ‹_›)
  · exact hu.streamFault

theorem resetJobs (h : SameStreams Stream.fixed s t) {n : Nat} : SameStreams Stream.fixed s (t.resetJobs n) :=
  h.keeps (Keeps.resetJobs (F := [.jobs]) (.refl _))

theorem resetStream (h : SameStreams Stream.fixed s t) {n : Nat} : SameStreams Stream.fixed s (t.resetStream n).2 := by
  have hset : SameStreams Stream.fixed s (t.setStream n { t.stream n with st := .draining, resetting := true }) := h.setStream
  simp only [State.resetStream]
  split
  · exact h
  · exact hset.resetJobs.flush

end SameStreams

end Sys2Proof.Machine
end

section
/-! Ports and functions: Bus Master Enable, MSI-X, failure, return and resets (R391, R392, R413, R418, R504, R513, R515). -/

namespace Sys2Proof.Machine

open Sys2Proof.Stated

/-! ### Bus Master Enable -/

section
variable {s : State} {f : FnId}

/-- The function after Bus Master Enable is set. -/
def State.busEnabled (s : State) (f : FnId) (k : Nat) : State :=
  let u := if f.fn = 0 then s.setVfs f.port k else s
  u.setFn f { u.fn f with bme := true }

/-- A stream whose function is back writes its records. -/
def State.freed (s : State) (n : Nat) : State := (s.modStream n fun x => { x with bmeWait := false }).flush n

theorem exec_busMasterEnableSet {k : Nat} (hf : f.wf = true) (hk : k < 64) (hp : s.pw.part ≠ .off)
    (hpres : (s.fn f).present = true)
    (hlink : (s.port f.port).linkUp = true) : exec (.busMasterEnableSet { fn := f, vfs := k }) s =
      .next ((((s.busEnabled f k).streamsOn (· == f)).foldl State.freed (s.busEnabled f k)).sendPending f) := by
  have hwf : FnEnable.wf { fn := f, vfs := k } = true := by simp [FnEnable.wf, hf, hk]
  have hgo : (s.powered && (s.fn f).present && (s.port f.port).linkUp) = true := by simp [State.powered_of_ne hp, hpres,
    hlink]
  show execBusMasterEnableSet { fn := f, vfs := k } s = _
  simp only [execBusMasterEnableSet, hwf, need_true, hgo, if_true]
  rfl

theorem busEnabled_streams (k : Nat) : (s.busEnabled f k).streams = s.streams := by
  unfold State.busEnabled
  extract_lets u
  have hu : u.streams = s.streams := by
    show (if f.fn = 0 then s.setVfs f.port k else s).streams = _
    split
    · exact (Keeps.setVfs (F := [.fns]) (.refl _)).streams
    · rfl
  exact hu

theorem sendPending_unpended (hr : Rising s.fns) : SameFns Fn.unpended s (s.sendPending f) := by
  simp only [State.sendPending]
  split
  · have hset : SameFns Fn.unpended s (s.setFn f { s.fn f with pend := (s.fn f).pend &&& (s.fn f).mask })
    := (SameFns.refl hr).setFn
    have hsend (u : State) (hu : SameFns Fn.unpended s u) (v : Nat) : SameFns Fn.unpended s (u.send ((s.fn f).message f v)) :=
      hu.congr rfl
    exact hset.foldl hsend _
  · exact .refl hr

theorem sendPending_streams : (s.sendPending f).streams = s.streams := (Keeps.sendPending (F := [.fns,
    .out]) (.refl _)).streams

theorem freed_unpended {t : State} (h : SameFns Fn.unpended s t) (n : Nat) : SameFns Fn.unpended s (t.freed n) := by
  have hset (x : Stream) : SameFns Fn.unpended s (t.setStream n x) := h.congr rfl
  exact (hset _).flush

theorem freed_streams {t : State} (hr : Rising t.streams) (n : Nat) :
    SameStreams Stream.fixed (t.setStream n { t.stream n with bmeWait := false }) (t.freed n) :=
  (SameStreams.refl (rising_mset hr)).flush

theorem freed_bmeWait {t : State} (hr : Rising t.streams) (n m : Nat) :
    ((t.freed n).stream m).bmeWait = if m = n then false else (t.stream m).bmeWait := by
  rw [(freed_streams hr n).bmeWait]
  split
  · next h => rw [h, State.stream_setStream_self hr]
  · next h => rw [State.stream_setStream_of_ne _ _ _ _ h]

theorem foldl_freed (hr : Rising s.streams) (l : List Nat) : ∀ n ∈ l, ((l.foldl State.freed s).stream n).bmeWait = false := by
  refine foldl_reaches (P := fun n u => (u.stream n).bmeWait = false) (Q := fun u => Rising u.streams)
    (fun u n hu => (freed_streams hu n).rising) (fun u n hu => ?_) (fun u n m hu hn => ?_) l hr
  · rw [freed_bmeWait hu, if_pos rfl]
  · rw [freed_bmeWait hu]
    split
    · rfl
    · exact hn

/-- One virtual function is there, or not. -/
def State.setVf (p k : Nat) (s : State) (i : Nat) : State :=
  if (s.fn ⟨p, i⟩).present == decide (i ≤ k) then s else s.setFn ⟨p, i⟩ { s.fn ⟨p, i⟩ with present := decide (i ≤ k) }

theorem setVfs_eq (p k : Nat) : s.setVfs p k = (List.range 64).foldl (State.setVf p k) s := rfl

theorem setVf_present (hr : Rising s.fns) (p k i j : Nat) :
    ((s.setVf p k i).fn ⟨p, j⟩).present = if j = i then decide (i ≤ k) else (s.fn ⟨p, j⟩).present := by
  have hkey : fnKey ⟨p, j⟩ = fnKey ⟨p, i⟩ ↔ j = i := by simp [fnKey]
  unfold State.setVf
  by_cases hsame : ((s.fn ⟨p, i⟩).present == decide (i ≤ k)) = true
  · rw [if_pos hsame]
    split
    · next h => rw [h, eq_of_beq hsame]
    · rfl
  · rw [if_neg hsame, State.fn_setFn hr]
    by_cases hji : j = i
    · rw [if_pos (hkey.2 hji), if_pos hji]
    · rw [if_neg (hkey.not.2 hji), if_neg hji]

theorem setVf_rising (hr : Rising s.fns) (p k i : Nat) : Rising (s.setVf p k i).fns := by
  unfold State.setVf
  split
  · exact hr
  · exact rising_mset hr

/-- SR-IOV gives a port the virtual functions up to a number. -/
theorem setVfs_present (hr : Rising s.fns) (p k : Nat) : ∀ i < 64, ((s.setVfs p k).fn ⟨p, i⟩).present = decide (i ≤ k) := by
  intro i hi
  rw [setVfs_eq]
  refine foldl_reaches (P := fun i u => (u.fn ⟨p, i⟩).present = decide (i ≤ k)) (Q := fun u => Rising u.fns)
    (fun u n hu => setVf_rising hu p k n) (fun u n hu => ?_) (fun u n m hu hn => ?_) _ hr i (List.mem_range.2 hi)
  · rw [setVf_present hu, if_pos rfl]
  · rw [setVf_present hu]
    split
    · next h => rw [h]
    · exact hn

theorem setVfs_rising (hr : Rising s.fns) (p k : Nat) : Rising (s.setVfs p k).fns :=
  List.foldlRecOn _ _ (motive := fun u : State => Rising u.fns) hr fun _ hu i _ => setVf_rising hu p k i

theorem busEnabled_fns (hr : Rising s.fns) (k : Nat) : Rising (s.busEnabled f k).fns ∧ ((s.busEnabled f k).fn f).bme = true ∧
    ∀ i < 64, ((s.busEnabled f k).fn ⟨f.port, i⟩).present = if f.fn = 0 then decide (i ≤ k) else (s.fn ⟨f.port,
      i⟩).present := by
  unfold State.busEnabled
  extract_lets u
  have hu : Rising u.fns := by
    show Rising (if f.fn = 0 then s.setVfs f.port k else s).fns
    split
    · exact setVfs_rising hr ..
    · exact hr
  have hpresent : SameFns Fn.present u (u.setFn f { u.fn f with bme := true }) := (SameFns.refl hu).setFn
  refine ⟨rising_mset hu, ?_, fun i hi => (hpresent.part _).trans ?_⟩
  · rw [State.fn_setFn hu, if_pos rfl]
  · show ((if f.fn = 0 then s.setVfs f.port k else s).fn ⟨f.port, i⟩).present = _
    split
    · exact setVfs_present hr _ _ i hi
    · rfl

/-- What the host's enabling of Bus Master leaves. -/
theorem busMasterEnabled (hs : Rising s.streams) (hr : Rising s.fns) (k : Nat) :
    let t := (((s.busEnabled f k).streamsOn (· == f)).foldl State.freed (s.busEnabled f k)).sendPending f
    (t.fn f).bme = true ∧ (∀ n ∈ s.streamsOn (· == f), (t.stream n).bmeWait = false) ∧
    ∀ i < 64, (t.fn ⟨f.port, i⟩).present = if f.fn = 0 then decide (i ≤ k) else (s.fn ⟨f.port, i⟩).present := by
  intro t
  obtain ⟨hrise, hbme, hpresent⟩ := busEnabled_fns (s := s) (f := f) hr k
  have hfreed : SameFns Fn.unpended (s.busEnabled f k)
      (((s.busEnabled f k).streamsOn (· == f)).foldl State.freed (s.busEnabled f k)) :=
    (SameFns.refl hrise).foldl (fun u hu n => freed_unpended hu n) _
  have hlast : SameFns Fn.unpended (s.busEnabled f k) t := hfreed.trans (sendPending_unpended hfreed.rising)
  have hon : (s.busEnabled f k).streamsOn (· == f) = s.streamsOn (· == f) := by rw [State.streamsOn, busEnabled_streams,
    State.streamsOn]
  refine ⟨?_, fun n hn => ?_, fun i hi => ?_⟩
  · exact ((hlast.weaken (ρ := Fn.bme) Fn.bme fun _ => rfl).part f).trans hbme
  · have hkept : t.stream n = _ := State.stream_congr sendPending_streams n
    rw [hkept]
    exact foldl_freed ((busEnabled_streams (s := s) (f := f) k) ▸ hs) _ n (hon ▸ hn)
  · exact ((hlast.weaken (ρ := Fn.present) Fn.present fun _ => rfl).part _).trans (hpresent i hi)

/-! ### MSI-X -/

/-- A function with a vector's entry written and its mask clear. -/
def Fn.unmasked (x : Fn) (v : MsixVec) : Fn :=
  { x with mask := x.mask &&& ~~~((1 : BitVec 32) <<< v.vec), msi := mset (0, 0) x.msi v.vec (v.addr, v.data) }

theorem exec_msixUnmask {v : MsixVec} (hf : f.wf = true) (hv : v.vec < 32) (hp : s.pw.part ≠ .off)
    (hpres : (s.fn f).present = true)
    (hlink : (s.port f.port).linkUp = true) :
    exec (.msixUnmask f v) s = .next ((s.setFn f ((s.fn f).unmasked v)).sendPending f) := by
  have hwf : (f.wf && v.wf) = true := by simp [MsixVec.wf, hf, hv]
  have hgo : (s.powered && (s.fn f).present && (s.port f.port).linkUp) = true := by simp [State.powered_of_ne hp, hpres,
    hlink]
  show execMsixUnmask f v s = _
  simp only [execMsixUnmask, hwf, need_true, hgo, if_true]
  rfl

theorem unmasked_mask (x : Fn) {v : MsixVec} (hv : v.vec < 32) : (x.unmasked v).mask.getLsbD v.vec = false := by
  simp [Fn.unmasked, hv]

/-- A function with a clear mask is not at its defaults: it reads as it was set, whatever the table holds. -/
theorem fn_setFn_of_unmasked (s : State) (f : FnId) {x : Fn} {v : Nat} (hv : v < 32) (hx : x.mask.getLsbD v = false) :
    (s.setFn f x).fn f = x := by
  refine mget_mset_self_of_ne ({} : Fn) s.fns _ _ fun h => ?_
  have hdefault : ({} : Fn).mask.getLsbD v = true := by
    show (0xFFFFFFFF : BitVec 32).getLsbD v = true
    interval_cases v <;> rfl
  rw [h, hdefault] at hx
  exact absurd hx (by simp)

/-- The messages that leave. -/
theorem sendPending_sends {x : Fn} (hx : s.fn f = x) (hb : x.bme = true) {v : Nat} (hv : v < 32)
    (hmask : x.mask.getLsbD v = false)
    (hpend : x.pend.getLsbD v = true) : x.message f v ∈ (s.sendPending f).out := by
  have hgo : (x.pend &&& ~~~x.mask).getLsbD v = true := by
    rw [BitVec.getLsbD_and, BitVec.getLsbD_not, hpend, hmask, decide_eq_true hv]
    rfl
  have hsends (l : List Nat) (u : State) (h : x.message f v ∈ u.out ∨ v ∈ l) :
      x.message f v ∈ (l.foldl (fun s w => s.send (x.message f w)) u).out := by
    induction l generalizing u with
    | nil => exact h.resolve_right List.not_mem_nil
    | cons w l ih =>
      refine ih _ ?_
      rcases h with h | h
      · exact .inl (List.mem_append_left _ h)
      · rcases List.mem_cons.1 h with rfl | h
        · exact .inl (List.mem_append_right _ (List.mem_singleton_self _))
        · exact .inr h
  simp only [State.sendPending, hx, hb, if_true]
  exact hsends _ _ (.inr (List.mem_filter.2 ⟨List.mem_range.2 hv, hgo⟩))

/-- What a function holds once its pending messages have left. -/
theorem sendPending_fn {x : Fn} (hx : s.fn f = x) {v : Nat} (hv : v < 32) (hmask : x.mask.getLsbD v = false) :
    (s.sendPending f).fn f = if x.bme then { x with pend := x.pend &&& x.mask } else x := by
  have hsends (l : List Nat) (u : State) : (l.foldl (fun s w => s.send (x.message f w)) u).fns = u.fns :=
    List.foldlRecOn l _ (motive := fun w : State => w.fns = u.fns) rfl fun _ hw _ _ => hw
  simp only [State.sendPending, hx]
  split
  · exact (State.fn_congr (hsends _ _) f).trans (fn_setFn_of_unmasked s f hv hmask)
  · exact hx

theorem msixUnmasked {v : MsixVec} (hv : v.vec < 32) (hr : Rising (s.fn f).msi) :
    let t := (s.setFn f ((s.fn f).unmasked v)).sendPending f
    (t.fn f).mask.getLsbD v.vec = false ∧ mget (0, 0) (t.fn f).msi v.vec = (v.addr, v.data) ∧
      ((s.fn f).bme = true → (s.fn f).pend.getLsbD v.vec = true →
        Out.msix f v.vec v.addr v.data ∈ t.out ∧ (t.fn f).pend.getLsbD v.vec = false) := by
  intro t
  have hmask := unmasked_mask (s.fn f) hv
  have hset : (s.setFn f ((s.fn f).unmasked v)).fn f = (s.fn f).unmasked v := fn_setFn_of_unmasked s f hv hmask
  have hfn : t.fn f = _ := sendPending_fn hset hv hmask
  have hmsi : mget (0, 0) ((s.fn f).unmasked v).msi v.vec = (v.addr, v.data) := mget_mset_self (0, 0) hr ..
  refine ⟨?_, ?_, fun hb hpend => ⟨?_, ?_⟩⟩
  · rw [hfn]
    split <;> exact hmask
  · rw [hfn]
    split <;> exact hmsi
  · have hmessage : ((s.fn f).unmasked v).message f v.vec = Out.msix f v.vec v.addr v.data := by rw [Fn.message, hmsi]
    exact hmessage ▸ sendPending_sends hset hb hv hmask hpend
  · have hbme : ((s.fn f).unmasked v).bme = true := hb
    rw [hfn, if_pos hbme]
    simp [hmask]

end

end Sys2Proof.Machine
end

section
/-! Ports and functions, concluded: failure, return and resets (R418, R504, R513, R515). -/

namespace Sys2Proof.Machine

open Sys2Proof.Stated

section
variable {s : State} {p : Nat}

/-! ### The stream of a failed port -/

/-- The stream at its alternate function. -/
def Stream.moved (x : Stream) (gone : Bool) : Stream := { x with fn := x.altFn, bmeWait := false, portWait := gone }

theorem failStream_held {n : Nat}
    (h : (s.stream n).altFn = 0xFFFF) : s.failStream n = s.setStream n { s.stream n with portWait := true } :=
  if_pos h

theorem failStream_moved (hr : Rising s.streams) {n : Nat} (h : (s.stream n).altFn ≠ 0xFFFF) : ∃ gone,
    SameStreams Stream.fixed (s.setStream n ((s.stream n).moved gone)) (s.failStream n) := by
  refine ⟨(s.port (fnOfEntry (s.stream n).altFn).port).failed, ?_⟩
  simp only [State.failStream, if_neg h]
  have hset : SameStreams Stream.fixed (s.setStream n ((s.stream n).moved (s.port (fnOfEntry
    (s.stream n).altFn).port).failed))
      (s.setStream n ((s.stream n).moved (s.port (fnOfEntry (s.stream n).altFn).port).failed)) := .refl (rising_mset hr)
  have hjobs (js : List Job) (u : State) (hu : SameStreams Stream.fixed (s.setStream n
      ((s.stream n).moved (s.port (fnOfEntry (s.stream n).altFn).port).failed)) u) :
      SameStreams Stream.fixed (s.setStream n ((s.stream n).moved (s.port (fnOfEntry (s.stream n).altFn).port).failed))
        (js.foldl (fun s j => s.abandonJob j.idx true 0 2 2) u) :=
    hu.foldl (fun v hv j => hv.keeps (Keeps.abandonJob (F := [.jobs, .jobSeq, .links, .dom, .out]) (.refl _))) _
  have hopen := SameStreams.keeps hset (Keeps.reopenJobs (F := [.jobs]) (.refl _) (dies := List.range 8)
    (sel := fun j => j.stream == n))
  split
  · exact hjobs _ _ hopen
  · exact (hjobs _ _ hopen).rewriteRecords.writeStatus.flush

/-- What the failure of its port does to a stream, and to no other. -/
theorem failStream_stream (hr : Rising s.streams) (n m : Nat) : Rising (s.failStream n).streams ∧
    ((s.failStream n).stream m).altFn = (s.stream m).altFn ∧
    (m ≠ n → ((s.failStream n).stream m).fn = (s.stream m).fn ∧ ((s.failStream n).stream m).portWait =
      (s.stream m).portWait) ∧
    (m = n → ((s.stream m).altFn = 0xFFFF → ((s.failStream n).stream m).portWait = true) ∧
      ((s.stream m).altFn ≠ 0xFFFF → ((s.failStream n).stream m).fn = (s.stream m).altFn)) := by
  by_cases halt : (s.stream n).altFn = 0xFFFF
  · rw [failStream_held halt]
    refine ⟨rising_mset hr, ?_, fun hne => ?_, fun heq => ?_⟩
    · exact ((SameStreams.refl (π := Stream.altFn) hr).setStream (n := n)).part m
    · rw [State.stream_setStream_of_ne _ _ _ _ hne]
      exact ⟨rfl, rfl⟩
    · subst heq
      rw [State.stream_setStream_self hr]
      exact ⟨fun _ => rfl, fun h => absurd halt h⟩
  · obtain ⟨gone, hmoved⟩ := failStream_moved hr halt
    have hview := (hmoved.weaken (ρ := fun x => (x.altFn, x.fn, x.portWait)) (fun x => (x.altFn, x.fn,
      x.portWait)) fun _ => rfl).part m
    obtain ⟨ha, hfn, hw⟩ : _ ∧ _ ∧ _ := by simpa only [Prod.mk.injEq] using hview
    rw [ha, hfn, hw]
    refine ⟨hmoved.rising, ?_, fun hne => ?_, fun heq => ?_⟩
    · exact ((SameStreams.refl (π := Stream.altFn) hr).setStream (n := n) (x := (s.stream n).moved gone)).part m
    · rw [State.stream_setStream_of_ne _ _ _ _ hne]
      exact ⟨rfl, rfl⟩
    · subst heq
      rw [State.stream_setStream_self hr]
      exact ⟨fun h => absurd h halt, fun _ => rfl⟩

/-- Every stream of the port has failed over or is held. -/
theorem foldl_failStream (hr : Rising s.streams) (l : List Nat) : ∀ n ∈ l,
    ((s.stream n).altFn = 0xFFFF → ((l.foldl State.failStream s).stream n).portWait = true) ∧
    ((s.stream n).altFn ≠ 0xFFFF → ((l.foldl State.failStream s).stream n).fn = (s.stream n).altFn) := by
  refine foldl_reaches (P := fun n u => ((s.stream n).altFn = 0xFFFF → (u.stream n).portWait = true) ∧
      ((s.stream n).altFn ≠ 0xFFFF → (u.stream n).fn = (s.stream n).altFn))
    (Q := fun u => Rising u.streams ∧ ∀ n, (u.stream n).altFn = (s.stream n).altFn)
    (fun u n ⟨hu, ha⟩ => ⟨(failStream_stream hu n n).1, fun m => (failStream_stream hu n m).2.1.trans (ha m)⟩)
    (fun u n ⟨hu, ha⟩ => ?_) (fun u n m ⟨hu, ha⟩ hn => ?_) l ⟨hr, fun _ => rfl⟩
  · obtain ⟨-, -, -, hself⟩ := failStream_stream hu n n
    exact ha n ▸ hself rfl
  · obtain ⟨-, -, hother, hself⟩ := failStream_stream hu m n
    by_cases hnm : n = m
    · exact ha n ▸ hself hnm
    · obtain ⟨hfn, hw⟩ := hother hnm
      rw [hfn, hw]
      exact hn

/-! ### Its return -/

/-- A stream whose port is back writes its records again. -/
def State.resumed (s : State) (n : Nat) : State :=
  if (s.stream n).portWait then ((s.modStream n fun x => { x with portWait := false }).rewriteRecords n).flush n else s

theorem resumed_portWait (hr : Rising s.streams) (n m : Nat) : Rising (s.resumed n).streams ∧
    ((s.resumed n).stream m).portWait = if m = n then false else (s.stream m).portWait := by
  unfold State.resumed
  by_cases hw : (s.stream n).portWait = true
  · have hkept : SameStreams Stream.fixed (s.setStream n { s.stream n with portWait := false })
        (((s.modStream n fun x => { x with portWait := false }).rewriteRecords n).flush n) :=
      (SameStreams.refl (rising_mset hr)).rewriteRecords.flush
    rw [if_pos hw, hkept.portWait]
    refine ⟨hkept.rising, ?_⟩
    split
    · next h => rw [h, State.stream_setStream_self hr]
    · next h => rw [State.stream_setStream_of_ne _ _ _ _ h]
  · rw [if_neg hw]
    refine ⟨hr, ?_⟩
    split
    · next h => rw [h, Bool.eq_false_of_not_eq_true hw]
    · rfl

theorem foldl_resumed
    (hr : Rising s.streams) (l : List Nat) : ∀ n ∈ l, ((l.foldl State.resumed s).stream n).portWait = false := by
  refine foldl_reaches (P := fun n u => (u.stream n).portWait = false) (Q := fun u => Rising u.streams)
    (fun u n hu => (resumed_portWait hu n n).1) (fun u n hu => ?_) (fun u n m hu hn => ?_) l hr
  · rw [(resumed_portWait hu n n).2, if_pos rfl]
  · rw [(resumed_portWait hu m n).2]
    split
    · rfl
    · exact hn

/-! ### Streams that wait for Bus Master Enable -/

theorem modStreams_bmeWait
    (hr : Rising s.streams) (g : FnId → Bool) : Rising (s.modStreams g fun x => { x with bmeWait := true }).streams ∧
    ∀ n ∈ s.streamsOn g, ((s.modStreams g fun x => { x with bmeWait := true }).stream n).bmeWait = true := by
  have hset (u : State) (hu : Rising u.streams) (n m : Nat) :
      ((u.modStream n fun x => { x with bmeWait := true }).stream m).bmeWait = if m = n then true else (u.stream m).bmeWait
        := by
    split
    · next h => rw [h, State.modStream, State.stream_setStream_self hu]
    · next h => rw [State.modStream, State.stream_setStream_of_ne _ _ _ _ h]
  refine ⟨List.foldlRecOn _ _ (motive := fun u : State => Rising u.streams) hr fun u hu n _ => rising_mset hu, ?_⟩
  refine foldl_reaches (P := fun n u => (u.stream n).bmeWait = true) (Q := fun u => Rising u.streams)
    (fun u n hu => rising_mset hu) (fun u n hu => ?_) (fun u n m hu hn => ?_) _ hr
  · rw [hset u hu, if_pos rfl]
  · rw [hset u hu]
    split
    · rfl
    · exact hn

/-! ### The commands -/

/-- A failed port. -/
def State.portFailed (s : State) (p : Nat) : State := s.setPort p { s.port p with failed := true, linkUp := false }

/-- A port that is back. -/
def State.portBack (s : State) (p : Nat) : State
    := s.setPort p { s.port p with failed := false, linkUp := true, cfgLoaded := true }

theorem exec_hostPortFailure (hp : p < 2) (hon : s.pw.part ≠ .off) : exec (.hostPortFailure p) s =
    .next ((s.streamsOn fun f => f.port == p).foldl State.failStream (s.portFailed p)) := by
  show execHostPortFailure p s = _
  rw [execHostPortFailure, decide_eq_true hp, need_true, State.powered_of_ne hon]
  rfl

theorem exec_hostPortReturn (hp : p < 2) (hon : s.pw.part ≠ .off) (hperst : (s.port p).perst = false) :
    exec (.hostPortReturn p) s = .next ((s.streamsOn fun f => f.port == p).foldl State.resumed (s.portBack p)) := by
  have hgo : (s.powered && !(s.port p).perst) = true := by simp [State.powered_of_ne hon, hperst]
  show execHostPortReturn p s = _
  simp only [execHostPortReturn, decide_eq_true hp, need_true, hgo, if_true]
  rfl

theorem exec_hostPortReturn_held (hp : p < 2) (hperst : (s.port p).perst = true) : exec (.hostPortReturn p) s = .next s := by
  have hgo : (s.powered && !(s.port p).perst) = false := by simp [hperst]
  show execHostPortReturn p s = _
  simp only [execHostPortReturn, decide_eq_true hp, need_true, hgo, Bool.false_eq_true, if_false]

theorem exec_perstRelease (hp : p < 2) (hon : s.pw.part ≠ .off)
    (hperst : (s.port p).perst = true) : exec (.perstRelease p) s =
    .next (s.setPort p { s.port p with perst := false, linkUp := true, cfgLoaded := true }) := by
  have hgo : (s.powered && (s.port p).perst) = true := by simp [State.powered_of_ne hon, hperst]
  show execPerstRelease p s = _
  simp only [execPerstRelease, decide_eq_true hp, need_true, hgo, if_true]

theorem portFailure (hs : Rising s.streams) (hr : Rising s.ports) :
    let t := (s.streamsOn fun f => f.port == p).foldl State.failStream (s.portFailed p)
    (t.port p).failed = true ∧ (t.port p).linkUp = false ∧
      ∀ n ∈ s.streamsOn (fun f => f.port == p), ((s.stream n).altFn = 0xFFFF → (t.stream n).portWait = true) ∧
        ((s.stream n).altFn ≠ 0xFFFF → (t.stream n).fn = (s.stream n).altFn) := by
  intro t
  have hports : t.ports = (s.portFailed p).ports := ((Keeps.refl (F := [.fns, .tenants, .keys, .installs, .streams, .jobs,
    .jobSeq,
    .hubs, .links, .dom, .hostMem, .out]) (s.portFailed p)).foldl fun u n => (Keeps.refl u).failStream).ports
  have hset : (s.portFailed p).port p = { s.port p with failed := true, linkUp := false } := State.port_setPort_self hr ..
  have hport : t.port p = { s.port p with failed := true, linkUp := false } := by rw [State.port, hports, ← hset, State.port]
  rw [hport]
  exact ⟨rfl, rfl, foldl_failStream (s := s.portFailed p) hs _⟩

theorem portReturned (hs : Rising s.streams) (hr : Rising s.ports) :
    let t := (s.streamsOn fun f => f.port == p).foldl State.resumed (s.portBack p)
    (t.port p).failed = false ∧ (t.port p).linkUp = true ∧
      ∀ n ∈ s.streamsOn (fun f => f.port == p), (t.stream n).portWait = false := by
  intro t
  have hturn (u : State) (n : Nat) :
    Keeps ringFields u (u.resumed n) := by
    unfold State.resumed
    split
    · exact (Keeps.refl u).modStream.rewriteRecords.flush
    · exact .refl u
  have hports : t.ports = (s.portBack p).ports := ((Keeps.refl (s.portBack p)).foldl fun u n => hturn u n).ports
  have hset : (s.portBack p).port p = { s.port p with failed := false, linkUp := true, cfgLoaded := true } :=
    State.port_setPort_self hr ..
  have hport : t.port p = { s.port p with failed := false, linkUp := true, cfgLoaded := true } := by
    rw [State.port, hports, ← hset, State.port]
  rw [hport]
  exact ⟨rfl, rfl, foldl_resumed (s := s.portBack p) hs _⟩

/-! ### Resets -/

/-- A port in reset. -/
def State.portHeld (s : State) (p : Nat) : State
    := s.setPort p { s.port p with perst := true, linkUp := false, cfgLoaded := false }

/-- The functions of a port with their configuration cleared, and what their requesters held given up. -/
def State.fnsCleared (s : State) (p : Nat) : State :=
  let holder (q : Requester) : Bool := match q with
    | .fn f => f.port == p
    | _ => false
  let fns : SMap Fn := s.fns.map fun e => (e.1, if e.1 / 64 = p then e.2.clearConfig else e.2)
  (({ s with fns := fns } : State).dropSels holder).dropSnap holder

theorem clearPort_eq : s.clearPort p = (s.fnsCleared p).modStreams (fun f => f.port == p) fun x => { x with bmeWait := true }
    := rfl

theorem exec_portReset (hp : p < 2)
    (hon : s.pw.part ≠ .off) : exec (.portReset p) s = .next ((s.portHeld p).clearPort p) := by
  show execPortReset p s = _
  rw [execPortReset, decide_eq_true hp, need_true, State.powered_of_ne hon]
  rfl

theorem fnsCleared_fn (k : Nat) (hk : k < 64) : (s.fnsCleared p).fn ⟨p, k⟩ = (s.fn ⟨p, k⟩).clearConfig := by
  have hmap (m : SMap Fn) (i : Nat) (hi : i / 64 = p) :
      mget {} (m.map fun e => (e.1, if e.1 / 64 = p then e.2.clearConfig else e.2)) i = (mget {} m i).clearConfig := by
    induction m with
    | nil => rfl
    | cons e m ih =>
      simp only [List.map_cons, mget]
      split
      · next h => rw [if_pos (h ▸ hi)]
      · exact ih
  exact hmap s.fns _ (by simp only [fnKey]; omega)

theorem portReset (hs : Rising s.streams) (hr : Rising s.ports) :
    let t := (s.portHeld p).clearPort p
    t.port p = { s.port p with perst := true, linkUp := false, cfgLoaded := false } ∧
      (∀ k < 64, (t.fn ⟨p, k⟩).bme = false ∧ (t.fn ⟨p, k⟩).mask = 0xFFFFFFFF ∧ (t.fn ⟨p, k⟩).pend = 0 ∧ (t.fn ⟨p,
        k⟩).msi = []) ∧
      (∀ n ∈ s.streamsOn (fun f => f.port == p), (t.stream n).bmeWait = true) := by
  intro t
  have hk : Keeps [.streams] ((s.portHeld p).fnsCleared p) t := (Keeps.refl _).modStreams
  have hset : (s.portHeld p).port p = { s.port p with perst := true, linkUp := false, cfgLoaded := false }
    := State.port_setPort_self hr ..
  refine ⟨?_, fun k hlt => ?_, (modStreams_bmeWait (s := (s.portHeld p).fnsCleared p) hs (fun f => f.port == p)).2⟩
  · rw [State.port, hk.ports]
    exact hset
  · rw [State.fn_congr hk.fns, fnsCleared_fn k hlt]
    exact ⟨rfl, rfl, rfl, rfl⟩

section
variable {f : FnId}

/-- A function in reset, and what its requester held given up. -/
def State.fnCleared (s : State) (f : FnId) : State :=
  let u := s.setFn f { (s.fn f).clearConfig with go := 0 }
  ((u.dropSels fun q => q == .fn f).dropSnap fun q => q == .fn f).failHostReads (· == f)

/-- The function's streams are reset. -/
def State.fnReset (s : State) (f : FnId) : State :=
  (s.streamsOn (· == f)).foldl (fun s n => (s.resetStream n).2)
    ((s.fnCleared f).modStreams (· == f) fun x => { x with bmeWait := true })

theorem exec_functionLevelReset (hf : f.wf = true)
    (hon : s.pw.part ≠ .off) : exec (.functionLevelReset f) s = .next (s.fnReset f) := by
  show execFunctionLevelReset f s = _
  rw [execFunctionLevelReset, hf, need_true, State.powered_of_ne hon]
  rfl

theorem resetStream_unpended {t : State}
    (h : SameFns Fn.unpended s t) (n : Nat) : SameFns Fn.unpended s (t.resetStream n).2 := by
  have hset (x : Stream) : SameFns Fn.unpended s (t.setStream n x) := h.congr rfl
  simp only [State.resetStream]
  split
  · exact h
  · exact ((hset _).keeps (Keeps.resetJobs (F := [.jobs]) (.refl _))).flush

theorem fnReset_contents (hr : Rising s.fns)
    (hs : Rising s.streams) : ((s.fnReset f).fn f).bme = false ∧ ((s.fnReset f).fn f).go = 0 ∧
    ∀ n ∈ s.streamsOn (· == f), ((s.fnReset f).stream n).bmeWait = true := by
  have hset : (s.fnCleared f).fn f = { (s.fn f).clearConfig with go := 0 } := (State.fn_setFn hr ..).trans (if_pos rfl)
  have hk : Keeps [.streams] (s.fnCleared f) ((s.fnCleared f).modStreams (· == f) fun x => { x with bmeWait := true }) :=
    (Keeps.refl _).modStreams
  have hstart : SameFns Fn.unpended (s.fnCleared f) ((s.fnCleared f).modStreams (· == f) fun x => { x with bmeWait := true })
    :=
    (SameFns.refl (s := s.fnCleared f) (rising_mset hr)).keeps hk
  have hfns : SameFns Fn.unpended (s.fnCleared f) (s.fnReset f) := hstart.foldl (fun u hu n => resetStream_unpended hu n) _
  obtain ⟨hrise, hwait⟩ := modStreams_bmeWait (s := s.fnCleared f) hs (· == f)
  have hstreams : SameStreams Stream.fixed ((s.fnCleared f).modStreams (· == f) fun x => { x with bmeWait := true })
    (s.fnReset f) :=
    (SameStreams.refl hrise).foldl (fun u hu n => hu.resetStream) _
  refine ⟨?_, ?_, fun n hn => (hstreams.bmeWait n).trans (hwait n hn)⟩
  · rw [(hfns.weaken (ρ := Fn.bme) Fn.bme fun _ => rfl).part f, hset]
    rfl
  · rw [(hfns.weaken (ρ := Fn.go) Fn.go fun _ => rfl).part f, hset]

end

end

/-- Settles O36. -/
theorem portsFailReturnAndReset : Obligations.PortsFailReturnAndReset := by
  unfold Obligations.PortsFailReturnAndReset
  refine ⟨fun s f hf hon hpres hlink => ⟨fun k hk hs hr => ?_, fun v hv hr => ?_⟩, fun s p hp hon hs hr => ⟨?_,
    fun hperst => ?_,
    fun hperst => ?_, ?_⟩, fun s f hf hon hr hs => ?_⟩
  · exact ⟨_, exec_busMasterEnableSet hf hk hon hpres hlink, busMasterEnabled hs hr k⟩
  · exact ⟨_, exec_msixUnmask hf hv hon hpres hlink, msixUnmasked hv hr⟩
  · exact ⟨_, exec_hostPortFailure hp hon, portFailure hs hr⟩
  · exact ⟨_, exec_hostPortReturn hp hon hperst, portReturned hs hr⟩
  · exact ⟨exec_hostPortReturn_held hp hperst, exec_perstRelease hp hon hperst⟩
  · exact ⟨_, exec_portReset hp hon, portReset hs hr⟩
  · exact ⟨_, exec_functionLevelReset hf hon, fnReset_contents hr hs⟩

end Sys2Proof.Machine
end

section
/-! PPS edges and the alignment of the time base (R338, R340, R344..R349). -/

namespace Sys2Proof.Machine

open Sys2Proof.Stated

theorem Keeps.tm {F : List Field} {s t : State} (h : Keeps F s t) (hF : .tm ∉ F := by decide) : t.tm = s.tm := h.same .tm hF

theorem Keeps.dom {F : List Field} {s t : State} (h : Keeps F s t)
    (hF : .dom ∉ F := by decide) : t.dom = s.dom := h.same .dom hF

theorem Keeps.en {F : List Field} {s t : State} (h : Keeps F s t) (hF : .en ∉ F := by decide) : t.en = s.en := h.same .en hF

/-! ### What the passing of time leaves of the time base -/

/-- What time and the steps that fall due leave of the time base. -/
def TimeSt.setUp (t : TimeSt) : TimeSt :=
  { t with now := 0, hold := 0, dueStep := none, lastStep := none, stepsDue := 0, stepsRet := 0, stepsAdv := 0, netCorr := 0 }

theorem TimeSt.reach_setUp (t : TimeSt) (n : Nat) : (t.reach n).setUp = t.setUp := by
  simp only [TimeSt.reach, TimeSt.applyStep]
  split
  · rfl
  · split_ifs <;> rfl

/-- A part of the time base that neither time nor a step moves. -/
theorem TimeSt.reach_part {α : Type} (π : TimeSt → α) (hπ : ∀ t,
    π t = π t.setUp) (t : TimeSt) (n : Nat) : π (t.reach n) = π t := by
  rw [hπ, TimeSt.reach_setUp, ← hπ]

/-! ### A valid edge -/

section
variable {s : State} {c : Nat} {third : Bool}

/-- A valid edge's state, offset, drift and steps. -/
def State.edgeNoted (s : State) (c : Nat) (third : Bool) : State :=
  { s with tm := { s.tm with
      pps := s.tm.afterValid c third, offset := s.tm.edgeOffset c, drift := s.driftAt c
      lastValid := some (s.tm.edgeOffset c, c), netCorr := 0, badRun := [], dueStep := none
      stepsDue := if s.tm.afterValid c third == .locked then roundDiv (s.tm.edgeOffset c + s.driftAt c) 5 else 0 } }

/-- The count and the event of a misaligned edge. -/
def State.faultCounted (s : State) (f : Int) : State :=
  ({ s with tm := { s.tm with alignFaults := bump s.tm.alignFaults } } : State).log 0x40 0xFF 0 (f % 2 ^ 32).toNat

/-- The fault of a misaligned edge while the part is enabled (R349). -/
def State.misaligned (s : State) (f : Int) : State :=
  if s.en.on && decide (1000 < f.natAbs) then
    if (s.faultCounted f).plan.any (·.domain) then (s.faultCounted f).leaveDomain 1 else s.faultCounted f
  else s

/-- The time base is loaded or aligned when it is due. -/
def State.aligned (s : State) (f delay : Int) (newly : Bool) : State :=
  if s.tm.setPending then
    State.setClock { s with tm := { s.tm with setPending := false, stepsDue := 0, offset := 0 } }
      ((s.tm.timeSet : Int) + delay).toNat
  else if !s.en.on && newly then
    State.setClock { s with tm := { s.tm with stepsDue := 0, offset := 0 } } ((s.tm.now : Int) - f).toNat
  else s

theorem validPps_eq : s.validPps c third = ((s.edgeNoted c third).misaligned (s.tm.edgeOffset c)).aligned (s.tm.edgeOffset c)
    s.tm.ppsDelay (s.tm.afterValid c third == .locked && s.tm.pps != .locked) := by
  simp only [State.aligned, ← Bool.and_assoc]
  rfl

theorem misaligned_of_fault {f : Int} (hon : s.en.on = true) (hf : 1000 < f.natAbs) :
    (s.misaligned f).tm = { s.tm with alignFaults := bump s.tm.alignFaults } ∧ (s.misaligned f).en = s.en ∧
    (s.plan.any (·.domain) = true → s.dom.st = .member → (s.misaligned f).dom.st = .left) := by
  have hcond : (s.en.on && decide (1000 < f.natAbs)) = true := by simp [hon, hf]
  have hlog : Keeps [.pw,
    .hm] ({ s with tm := { s.tm with alignFaults := bump s.tm.alignFaults } } : State) (s.faultCounted f) :=
    (Keeps.refl _).log
  have hplan : (s.faultCounted f).plan = s.plan := hlog.same .plan (by decide)
  have hk : Keeps [.links, .dom, .out] (s.faultCounted f) (s.misaligned f) := by
    rw [State.misaligned, if_pos hcond]
    split
    · exact (Keeps.refl _).leaveDomain
    · exact .refl _
  refine ⟨hk.tm.trans hlog.tm, hk.en.trans hlog.en, fun hdomain hmember => ?_⟩
  rw [State.misaligned, if_pos hcond, hplan, if_pos hdomain, State.leaveDomain, hlog.dom, hmember]
  rfl

theorem misaligned_of_none {f : Int} (h : s.en.on = false ∨ f.natAbs ≤ 1000) : s.misaligned f = s := by
  refine if_neg (ne_true_of_eq_false ?_)
  rcases h with h | h
  · rw [h]
    rfl
  · rw [decide_eq_false (Nat.not_lt.2 h), Bool.and_false]

/-- A misaligned edge counts, and moves nothing else of the time base. -/
theorem misaligned_tm (f : Int) : ∃ k, (s.misaligned f).tm = { s.tm with alignFaults := k } ∧ (s.misaligned f).en = s.en := by
  by_cases h : s.en.on = true ∧ 1000 < f.natAbs
  · obtain ⟨htm, hen, -⟩ := misaligned_of_fault h.1 h.2
    exact ⟨_, htm, hen⟩
  · have hnone : s.en.on = false ∨ f.natAbs ≤ 1000 := by
      rw [not_and_or] at h
      exact h.imp Bool.eq_false_of_not_eq_true Nat.not_lt.1
    rw [misaligned_of_none hnone]
    exact ⟨s.tm.alignFaults, rfl, rfl⟩

/-- What a valid edge leaves of the time base. -/
theorem validPps_tm : (s.validPps c third).tm.pps = s.tm.afterValid c third ∧
    (s.validPps c third).tm.spurious = s.tm.spurious ∧
    (s.validPps c third).tm.offset =
      (if s.tm.setPending = true ∨ (s.en.on = false ∧ s.tm.afterValid c third = .locked ∧ s.tm.pps ≠ .locked) then 0
        else s.tm.edgeOffset c) ∧
    (s.tm.setPending = true → (s.validPps c third).tm.now = ((s.tm.timeSet : Int) + s.tm.ppsDelay).toNat ∧
      (s.validPps c third).tm.setPending = false) ∧
    (s.tm.setPending = false → s.en.on = false → s.tm.afterValid c third = .locked → s.tm.pps ≠ .locked →
      (s.validPps c third).tm.now = ((s.tm.now : Int) - s.tm.edgeOffset c).toNat) := by
  obtain ⟨k, htm, hen⟩ := misaligned_tm (s := s.edgeNoted c third) (s.tm.edgeOffset c)
  have hset : ((s.edgeNoted c third).misaligned (s.tm.edgeOffset c)).tm.setPending = s.tm.setPending := by rw [htm]; rfl
  have hon : ((s.edgeNoted c third).misaligned (s.tm.edgeOffset c)).en.on = s.en.on := by rw [hen]; rfl
  rw [validPps_eq]
  generalize (s.edgeNoted c third).misaligned (s.tm.edgeOffset c) = m at htm hset hon ⊢
  rw [State.aligned, hset, hon]
  cases hp : s.tm.setPending with
  | true => simp [State.setClock, htm, State.edgeNoted]
  | false =>
    by_cases hnew : s.en.on = false ∧ s.tm.afterValid c third = .locked ∧ s.tm.pps ≠ .locked
    · obtain ⟨hoff, hlocked, hwas⟩ := hnew
      simp [State.setClock, htm, State.edgeNoted, hoff, hlocked, hwas]
    · have hcond : (!s.en.on && (s.tm.afterValid c third == .locked && s.tm.pps != .locked)) = false := by
        rw [Bool.eq_false_iff]
        intro h
        refine hnew ?_
        simpa using h
      rw [if_neg Bool.false_ne_true, if_neg (ne_true_of_eq_false hcond), htm]
      refine ⟨rfl, rfl, ?_, nofun, fun _ hoff hlocked hwas => absurd ⟨hoff, hlocked, hwas⟩ hnew⟩
      rw [if_neg (by simpa using hnew)]
      rfl

/-- A valid edge of an enabled part that is not to load its time. -/
theorem validPps_enabled (hp : s.tm.setPending = false) (hon : s.en.on = true) :
    s.validPps c third = (s.edgeNoted c third).misaligned (s.tm.edgeOffset c) := by
  obtain ⟨k, htm, hen⟩ := misaligned_tm (s := s.edgeNoted c third) (s.tm.edgeOffset c)
  have hset : ((s.edgeNoted c third).misaligned (s.tm.edgeOffset c)).tm.setPending = false := by rw [htm]; exact hp
  have hon' : ((s.edgeNoted c third).misaligned (s.tm.edgeOffset c)).en.on = true := by rw [hen]; exact hon
  rw [validPps_eq, State.aligned, hset, hon']
  rfl

end

/-! ### The commands -/

theorem exec_ppsEdge {s : State} {x : PpsEdge} (hp : s.pw.part ≠ .off) (href : s.tm.refclk = .locked)
    (hfall : x.falling = s.tm.ppsFalling) : exec (.ppsEdge x) s = .next (
      let u := s.reach x.time
      if u.tm.validEdge x.time then u.validPps x.time false
      else
        let v : State := { u with tm := { u.tm with
          spurious := bump u.tm.spurious, badRun := ((u.tm.edgeOffset x.time, x.time) :: u.tm.badRun).take 2 } }
        if u.tm.thirdAgrees x.time then v.validPps x.time true else v) := by
  have hgo : (!s.powered || s.tm.refclk != .locked || x.falling != s.tm.ppsFalling) = false := by
    simp [State.powered_of_ne hp, href, hfall]
  show execPpsEdge x s = _
  simp only [execPpsEdge, hgo, Bool.false_eq_true, if_false]

theorem exec_ppsEdge_ignored {s : State} {x : PpsEdge}
    (h : s.pw.part = .off ∨ s.tm.refclk ≠ .locked ∨ x.falling ≠ s.tm.ppsFalling) : exec (.ppsEdge x) s = .next s := by
  have hgo : (!s.powered || s.tm.refclk != .locked || x.falling != s.tm.ppsFalling) = true := by
    rcases h with h | h | h <;> simp [State.powered, h]
  show execPpsEdge x s = _
  simp only [execPpsEdge, hgo, if_true]

theorem exec_refclkStateChange {s : State} {st : RefState} (hp : s.pw.part ≠ .off) : exec (.refclkStateChange st) s =
    .next { s with tm := { s.tm with
      refclk := st, pps := if st != .locked then .absent else s.tm.pps,
        badRun := if st != .locked then [] else s.tm.badRun } } := by
  show execRefclkStateChange st s = _
  simp only [execRefclkStateChange, State.powered_of_ne hp, Bool.not_true, Bool.false_eq_true, if_false]

/-- The instant at which a lost PPS is noticed: 2.5 s after the last valid edge. -/
def TimeSt.lossAt (t : TimeSt) : Nat := (match t.lastValid with
  | some (_, c) => c
  | none => 0) + 2500000000

theorem exec_ppsLost {s : State} (h : s.tm.pps = .locked) : exec .ppsLost s = .next
    (({ s.reach s.tm.lossAt with tm := { (s.reach s.tm.lossAt).tm with pps := .holdover } } : State).log 0x41 0xFF 0 0) := by
  show execPpsLost s = _
  rw [execPpsLost, h]
  rfl

section
variable {s : State} {x : PpsEdge}

/-- What a valid edge does, from the time base before it. -/
theorem ppsEdge_valid (hp : s.pw.part ≠ .off) (href : s.tm.refclk = .locked) (hfall : x.falling = s.tm.ppsFalling)
    (hv : (s.reach x.time).tm.validEdge x.time = true) : exec (.ppsEdge x) s = .next ((s.reach x.time).validPps x.time false)
      := by
  rw [exec_ppsEdge hp href hfall]
  simp only [hv, if_true]

theorem ppsEdge_invalid (hp : s.pw.part ≠ .off) (href : s.tm.refclk = .locked) (hfall : x.falling = s.tm.ppsFalling)
    (hv : (s.reach x.time).tm.validEdge x.time = false) : exec (.ppsEdge x) s = .next (
      let u := s.reach x.time
      let v : State := { u with tm := { u.tm with
        spurious := bump s.tm.spurious, badRun := ((u.tm.edgeOffset x.time, x.time) :: s.tm.badRun).take 2 } }
      if u.tm.thirdAgrees x.time then v.validPps x.time true else v) := by
  have hspurious : (s.tm.reach x.time).spurious = s.tm.spurious := TimeSt.reach_part TimeSt.spurious (fun _ => rfl) ..
  have hbad : (s.tm.reach x.time).badRun = s.tm.badRun := TimeSt.reach_part TimeSt.badRun (fun _ => rfl) ..
  have hinvalid : (s.tm.reach x.time).validEdge x.time = false := hv
  rw [exec_ppsEdge hp href hfall]
  simp only [hinvalid, Bool.false_eq_true, if_false, State.reach_tm, hspurious, hbad]
  rfl

end

/-- Settles O37. -/
theorem ppsEdgesAlignTheTimeBase : Obligations.PpsEdgesAlignTheTimeBase := by
  unfold Obligations.PpsEdgesAlignTheTimeBase
  refine ⟨fun s st => ⟨fun hoff => ?_, fun hp => ⟨_, exec_refclkStateChange hp, rfl, rfl, ?_⟩⟩,
    fun s x h => exec_ppsEdge_ignored h,
    fun s x hp href hfall => ?_, fun s hlocked => ⟨_, exec_ppsLost hlocked, ?_, fun f c hlast => ?_⟩⟩
  · have hpow : s.powered = false := by simp [State.powered, hoff]
    show execRefclkStateChange st s = _
    simp only [execRefclkStateChange, hpow, Bool.not_false, if_true]
  · by_cases hst : st = .locked
    · rw [if_pos hst, hst]
      rfl
    · rw [if_neg hst]
      exact if_pos (bne_iff_ne.2 hst)
  · intro c u f
    have hset : u.tm.setPending = s.tm.setPending := TimeSt.reach_part TimeSt.setPending (fun _ => rfl) ..
    have hpps : u.tm.pps = s.tm.pps := TimeSt.reach_part TimeSt.pps (fun _ => rfl) ..
    have htime : u.tm.timeSet = s.tm.timeSet := TimeSt.reach_part TimeSt.timeSet (fun _ => rfl) ..
    have hdelay : u.tm.ppsDelay = s.tm.ppsDelay := TimeSt.reach_part TimeSt.ppsDelay (fun _ => rfl) ..
    have hfaults : u.tm.alignFaults = s.tm.alignFaults := TimeSt.reach_part TimeSt.alignFaults (fun _ => rfl) ..
    refine ⟨fun hv => ⟨_, ppsEdge_valid hp href hfall hv, ?_⟩, fun hv hno => ?_, fun hv hthird => ?_⟩
    · obtain ⟨hstate, -, hoffset, hload, halign⟩ := validPps_tm (s := u) (c := c) (third := false)
      rw [hset, hpps] at hoffset
      rw [hset, htime, hdelay] at hload
      rw [hset, hpps] at halign
      refine ⟨hoffset, hstate, hload, halign, fun hset' hon => ?_⟩
      have henabled := validPps_enabled (s := u) (c := c) (third := false) (hset.trans hset') hon
      obtain ⟨k, htm, -⟩ := misaligned_tm (s := u.edgeNoted c false) f
      change u.validPps c false = (u.edgeNoted c false).misaligned f at henabled
      rw [henabled, ← hfaults]
      refine ⟨?_, fun hlocked => ?_, fun hfar => ?_, fun hnear => ?_⟩
      · rw [htm]
        rfl
      · rw [htm]
        exact if_pos (beq_iff_eq.2 hlocked)
      · obtain ⟨hcount, -, hleft⟩ := misaligned_of_fault (s := u.edgeNoted c false) (f := f) hon hfar
        exact ⟨by rw [hcount]; rfl, hleft⟩
      · rw [misaligned_of_none (.inr hnear)]
        exact ⟨rfl, rfl⟩
    · rw [ppsEdge_invalid hp href hfall hv]
      exact congrArg Host.Outcome.next (if_neg (ne_true_of_eq_false hno))
    · have hexec := ppsEdge_invalid hp href hfall hv
      dsimp only at hexec
      rw [if_pos hthird] at hexec
      refine ⟨_, hexec, ?_⟩
      obtain ⟨hstate, hspurious, hoffset, -, -⟩ := validPps_tm (s := ({ u with tm := { u.tm with
        spurious := bump s.tm.spurious, badRun := ((f, c) :: s.tm.badRun).take 2 } } : State)) (c := c) (third := true)
      refine ⟨hstate, hspurious, hoffset.trans ?_⟩
      rw [hset, hpps]
      exact if_congr (or_congr_right ⟨fun ⟨ha, _, hb⟩ => ⟨ha, hb⟩, fun ⟨ha, hb⟩ => ⟨ha, rfl, hb⟩⟩) rfl rfl
  · rw [(Keeps.log (F := [.pw, .hm]) (.refl _)).tm]
  · rw [(Keeps.log (F := [.pw, .hm]) (.refl _)).tm]
    have hat : s.tm.lossAt = c + 2500000000 := by rw [TimeSt.lossAt, hlast]
    rw [hat]
    rfl

end Sys2Proof.Machine
end

section
/-! The layer on the log and the permanent record (R480..R489): what entries leave of the health manager and of the part. -/

namespace Sys2Proof.Machine

open Sys2Proof.Stated

/-- The health manager but for its log and its record. -/
def Health.unlogged (h : Health) : Health :=
  { h with evts := [], evtSeq := 0, evtLost := 0, sectors := [], active := 0, prQueue := [], prState := 0, prNever := 0 }

/-- The part's power state but for the held level of ALERT_N. -/
def Power.unalerted (p : Power) : Power := { p with alertHeld := false }

/-- Entries are logged or recorded, and nothing else of the health manager and of the part changes. -/
structure Logged (s t : State) : Prop where
  hm : t.hm.unlogged = s.hm.unlogged
  pw : t.pw.unalerted = s.pw.unalerted

theorem recordErase_unlogged (h : Health) : (recordErase h).unlogged = h.unlogged := by
  simp only [recordErase]
  split <;> rfl

theorem recordAppend_unlogged (h : Health) (e : PrEnt) : (recordAppend h e).unlogged = h.unlogged := by
  simp only [recordAppend]
  split_ifs
  · rfl
  · exact recordErase_unlogged h
  · rfl

theorem recordEvent_unlogged (h : Health) (code die time : Nat) : (recordEvent h code die time).unlogged = h.unlogged := by
  simp only [recordEvent]
  split_ifs
  · exact recordAppend_unlogged ..
  · rfl
  · rfl

namespace Logged

variable {s t u : State}

theorem refl (s : State) : Logged s s := ⟨rfl, rfl⟩

theorem trans (h : Logged s t) (g : Logged t u) : Logged s u := ⟨g.hm.trans h.hm, g.pw.trans h.pw⟩

/-- A part of the health manager that no entry is about. -/
theorem health {α : Type} (h : Logged s t) (π : Health → α) (hπ : ∀ x, π x = π x.unlogged) : π t.hm = π s.hm := by
  rw [hπ, h.hm, ← hπ]

/-- A part of the power state that is not ALERT_N's level. -/
theorem power {α : Type} (h : Logged s t) (π : Power → α) (hπ : ∀ x, π x = π x.unalerted) : π t.pw = π s.pw := by
  rw [hπ, h.pw, ← hπ]

theorem evtInsert (e : EvtRec) : Logged s (evtInsert s e) := by
  simp only [Machine.evtInsert]
  split
  · exact ⟨rfl, rfl⟩
  · split <;> exact ⟨rfl, rfl⟩

theorem logBody (h : Logged s t) {code die inst arg : Nat}
    {body : Option FaultRec} : Logged s (t.logBody code die inst arg body) := by
  refine h.trans ?_
  simp only [State.logBody]
  generalize hu : Machine.evtInsert t _ = u
  have hinsert : Logged t u := hu ▸ Logged.evtInsert _
  exact ⟨(recordEvent_unlogged ..).trans hinsert.hm, hinsert.pw⟩

theorem log (h : Logged s t) {code die inst arg : Nat} : Logged s (t.log code die inst arg) := h.logBody

theorem recordCheck (h : Logged s t) : Logged s t.recordCheck := by
  have happend (e : PrEnt) (k : Nat) : ({ recordAppend t.hm e with prState := k } : Health).unlogged = t.hm.unlogged :=
    recordAppend_unlogged t.hm e
  unfold State.recordCheck
  extract_lets x st e r exhausted low
  split
  · split
    · exact Logged.log (t := exhausted) (h.trans ⟨happend e 2, rfl⟩)
    · exact Logged.log (t := low) (h.trans ⟨happend e 1, rfl⟩)
  · exact h

theorem record (h : Logged s t) {type unit arg : Nat} : Logged s (t.record type unit arg) :=
  Logged.recordCheck (h.trans ⟨recordAppend_unlogged .., rfl⟩)

theorem recordQueue (h : Logged s t) {type unit arg : Nat} : Logged s (t.recordQueue type unit arg) := h.trans ⟨rfl, rfl⟩

theorem foldl (h : Logged s t) {β : Type} {f : State → β → State}
    (hf : ∀ u, Logged s u → ∀ b, Logged s (f u b)) (l : List β) :
    Logged s (l.foldl f t) := List.foldlRecOn l f (motive := Logged s) h fun u hu b _ => hf u hu b

/-- A state with the same health manager and power state. -/
theorem congr (h : Logged s t) (hhm : u.hm = t.hm) (hpw : u.pw = t.pw) : Logged s u := ⟨hhm ▸ h.hm, hpw ▸ h.pw⟩

end Logged

/-- The replace triggers that hold are kept, with those that were there (R483, R484). -/
theorem replaceCheck_replace (s : State) : s.replaceCheck.hm.replace = (s.hm.replace &&& 0xF7#8) ||| s.triggers := by
  unfold State.replaceCheck
  extract_lets bits fresh h0 s1 s2 part
  have hlogged : Logged s1 s2 := (Logged.refl s1).foldl (fun _ hu _ => hu.log) fresh
  exact hlogged.health Health.replace fun _ => rfl

end Sys2Proof.Machine
end

section
/-! The stacks (R286, R290, R293..R299, R492). -/

namespace Sys2Proof.Machine

open Sys2Proof.Stated

theorem Keeps.stk {F : List Field} {s t : State} (h : Keeps F s t)
    (hF : .stk ∉ F := by decide) : t.stk = s.stk := h.same .stk hF

theorem Keeps.keys {F : List Field} {s t : State} (h : Keeps F s t)
    (hF : .keys ∉ F := by decide) : t.keys = s.keys := h.same .keys hF

theorem Keeps.mem {F : List Field} {s t : State} (h : Keeps F s t)
    (hF : .mem ∉ F := by decide) : t.mem = s.mem := h.same .mem hF

theorem State.stack_congr {s t : State}
    (h : t.stk = s.stk) (k : Nat) : t.stack k = s.stack k := congrArg (mget ({} : Stack) · k) h

/-- A stack that is not at its defaults reads as it was set, whatever the table holds. -/
theorem State.stack_setStack_of_ne_default (s : State) (k : Nat) {x : Stack} (hx : x ≠ {}) : (s.setStack k x).stack k = x :=
  mget_mset_self_of_ne ({} : Stack) s.stk k x hx

section
variable {s : State} {k : Nat}

/-! ### Refresh -/

theorem exec_hbmRefresh {b : Nat} (hk : k < 6) (hb : b < 16) : exec (.hbmRefresh k b) s =
    .next (if s.powered && !s.pw.selfRefresh && !(s.stack k).lost then
      s.setStack k { s.stack k with fastRefresh := decide (85 < (s.stack k).temp) } else s) := by
  show execHbmRefresh k b s = _
  rw [execHbmRefresh, decide_eq_true hk, decide_eq_true hb, Bool.and_true, need_true]
  rfl

/-! ### Rows -/

theorem exec_rowRemapCopy {r : RowId} (hr : rowOk r = true) (hbg : s.background = true)
    (hlost : (s.stack r.stack).lost = false)
    (h : rowNum r ∈ (s.stack r.stack).cands ∧ (s.stack r.stack).copying = none ∨ (s.stack r.stack).copying = some
      (rowNum r)) :
    exec (.rowRemapCopy r) s = .next (s.setStack r.stack { s.stack r.stack with
      cands := (s.stack r.stack).cands.filter (· != rowNum r), copying := some (rowNum r), copied := true }) := by
  have hgo : (s.background && !(s.stack r.stack).lost && (((s.stack r.stack).cands.contains (rowNum r) &&
      (s.stack r.stack).copying.isNone) || (s.stack r.stack).copying == some (rowNum r))) = true := by
    rcases h with ⟨hm, hc⟩ | hc
    · simp [hbg, hlost, hm, hc]
    · simp [hbg, hlost, hc]
  show execRowRemapCopy r s = _
  simp only [execRowRemapCopy, hr, need_true, hgo, arises_true]

theorem exec_rowRemap {r : RowId} (hr : rowOk r = true) (hc : (s.stack r.stack).copying = some (rowNum r))
    (hd : (s.stack r.stack).copied = true) : exec (.rowRemap r) s = .next (s.redirect r.stack (rowNum r)) := by
  show execRowRemap r s = _
  simp [execRowRemap, hr, hc, hd]

/-- A redirected row is recorded and logged: the stack holds it among its remapped rows. -/
theorem redirect_stack (n : Nat) : (s.redirect k n).stack k =
    { s.stack k with copying := none, copied := false, remapped := (s.stack k).remapped ++ [n] } := by
  have hk : Keeps [.pw, .hm] (s.setStack k
      { s.stack k with copying := none, copied := false, remapped := (s.stack k).remapped ++ [n] }) (s.redirect k n) :=
    ((Keeps.refl _).recordRow).log
  rw [State.stack_congr hk.stk]
  refine State.stack_setStack_of_ne_default s k fun h => ?_
  exact absurd (congrArg Stack.remapped h) (by simp)

/-! ### A lost stack -/

theorem exec_stackLost (hk : k < 6) (hp : s.pw.part ≠ .off) : exec (.stackLost k) s = .next (s.loseStack k) := by
  show execStackLost k s = _
  rw [execStackLost, decide_eq_true hk, need_true, State.powered_of_ne hp]
  rfl

/-- The stack out of the usable set, its keys CORRUPT. -/
def State.stackGone (s : State) (k : Nat) : State :=
  let s := s.modStack k fun x => { x with lost := true, copying := none, copied := false, cands := [] }
  s.corruptWhere fun b => stackOf b == k

theorem loseStack_eq (h : (s.stack k).lost = false) :
    s.loseStack k = (((s.stackGone k).record 3 (stackDie k) 0).log 0x20 (stackDie k) k k).replaceCheck := by
  rw [State.loseStack, h]
  rfl

theorem stackGone_stack : ((s.stackGone k).stack k).lost = true := by
  have hset : (s.modStack k fun x => { x with lost := true, copying := none, copied := false, cands := [] }).stack k =
      { s.stack k with lost := true, copying := none, copied := false, cands := [] } :=
    State.stack_setStack_of_ne_default s k fun h => absurd (congrArg Stack.lost h) (by simp)
  exact congrArg Stack.lost hset

/-- A lost stack is a trigger of replacement. -/
theorem triggers_of_lost (hk : k < 6) (h : (s.stack k).lost = true) : s.triggers.getLsbD 2 = true := by
  have hany : ((List.range 6).any fun k => (s.stack k).lost) = true :=
    List.any_eq_true.2 ⟨k, List.mem_range.2 hk, h⟩
  simp only [State.triggers, hany]
  generalize ((List.range 8).map s.die).any (fun d => !d.fenced && d.spares == 0) = b0
  generalize ((List.range 8).map s.die).any (·.fenced) = b1
  generalize (s.hm.baseTaken && decide (s.usableLinks < 24 ∧ s.usableLinks < s.hm.linksBase)) = b3
  generalize (s.hm.prState == 2) = b4
  revert b0 b1 b3 b4
  decide

theorem loseStack_contents (hk : k < 6) (h : (s.stack k).lost = false) : ((s.loseStack k).stack k).lost = true ∧
    (s.loseStack k).hm.replace.getLsbD 2 = true ∧ (s.loseStack k).keys = s.keys.map fun x =>
      if x.st != .dropped && x.blocks.any (fun b => b % 6 == k) then { x with st := .corrupt } else x := by
  have hlogged : Keeps [.pw, .hm] (s.stackGone k) (((s.stackGone k).record 3 (stackDie k) 0).log 0x20 (stackDie k) k k) :=
    (Keeps.refl _).record.log
  have hk' : Keeps [.pw, .hm] (s.stackGone k) (s.loseStack k) := by
    rw [loseStack_eq h]
    exact hlogged.replaceCheck
  refine ⟨?_, ?_, hk'.keys⟩
  · rw [State.stack_congr hk'.stk]
    exact stackGone_stack
  · rw [loseStack_eq h, replaceCheck_replace, BitVec.getLsbD_or, triggers_of_lost hk, Bool.or_true]
    rw [State.stack_congr hlogged.stk]
    exact stackGone_stack

/-! ### The gleaner -/

theorem exec_gleanerBlockRead {b : Nat} {ls : List LineState} (hk : k < 6) (hb : b < 360448) (hbg : s.background = true)
    (hp : s.pw.part ≠ .off) (href : s.pw.selfRefresh = false) (hlost : (s.stack k).lost = false) :
    exec (.gleanerBlockRead k b ls) s = .next (s.glean k b ls) := by
  have hunit : (decide (k < 6) && decide (b < 360448)) = true := by simp [hk, hb]
  have hgo : (s.powered && !(s.stack k).lost && !s.pw.selfRefresh) = true := by simp [State.powered_of_ne hp, href, hlost]
  show execGleanerBlockRead k b ls s = _
  simp only [execGleanerBlockRead, hunit, need_true, hbg, arises_true, hgo, if_true]

theorem readLine_clean (b l : Nat) : s.readLine b l .clean = (s, ⟨true, 0⟩) := if_pos rfl

/-- Lines without an error leave the state. -/
theorem glean_lines_clean {g : Nat} {ls : List (Nat × LineState)} (h : ∀ e ∈ ls, e.2 = .clean) :
    ls.foldl (fun s e =>
      let r := s.readLine g e.1 e.2
      if r.2.ok then r.1
      else
        let s := r.1.gleanFault k
        if s.mirrored g then s else s.corruptWhere fun b => b == g) s = s := by
  refine List.foldlRecOn ls _ (motive := fun u => u = s) rfl fun u hu e he => ?_
  dsimp only
  rw [h e he, readLine_clean, hu]
  rfl

theorem foldl_min_le (l : List Nat) (a : Nat) : l.foldl min a ≤ a ∧ ∀ x ∈ l, l.foldl min a ≤ x := by
  induction l generalizing a with
  | nil => exact ⟨le_rfl, nofun⟩
  | cons y l ih =>
    obtain ⟨ha, hl⟩ := ih (min a y)
    refine ⟨ha.trans (Nat.min_le_left ..), fun x hx => ?_⟩
    rcases List.mem_cons.1 hx with rfl | hx
    · exact ha.trans (Nat.min_le_right ..)
    · exact hl x hx

/-- A pass does not end while a usable stack has a block left. -/
theorem glnPass_of_left (hk : k < 6) (hlost : (s.stack k).lost = false)
    (hleft : (s.stack k).glnDone < 360448) : s.glnPass = s := by
  have hmem : (s.stack k).glnDone ∈ s.usableStacks.map fun k => (s.stack k).glnDone :=
    List.mem_map_of_mem (List.mem_filter.2 ⟨List.mem_range.2 hk, by simp [hlost]⟩)
  exact if_pos (((foldl_min_le _ _).2 _ hmem).trans_lt hleft)

/-- A block without an error counts, and changes nothing else. -/
theorem glean_clean {b : Nat} {ls : List LineState} (hk : k < 6) (hlost : (s.stack k).lost = false)
    (hclean : ∀ l ∈ ls, l = .clean)
    (hleft : (s.stack k).glnDone + 1 < 360448) :
    s.glean k b ls = s.setStack k { s.stack k with glnDone := (s.stack k).glnDone + 1 } := by
  have hlines := glean_lines_clean (s := s) (k := k) (g := b * 6 + k) (ls := (List.range 32).zip ls)
    fun e he => hclean e.2 (List.of_mem_zip he).2
  have hset : (s.setStack k { s.stack k with glnDone := (s.stack k).glnDone + 1 }).stack k =
      { s.stack k with glnDone := (s.stack k).glnDone + 1 } :=
    State.stack_setStack_of_ne_default s k fun h => absurd (congrArg Stack.glnDone h) (by simp)
  have hmin : min 360448 ((s.stack k).glnDone + 1) = (s.stack k).glnDone + 1 := by omega
  unfold State.glean
  dsimp only
  rw [hlines, State.modStack, hmin]
  exact glnPass_of_left hk (by rw [hset]; exact hlost) (by rw [hset]; exact hleft)

theorem readLine_dead (b l : Nat) : (s.readLine b l .dead).2 =
    if s.mirrored b ∧ s.copyGood (otherCopy b) then { ok := true, retries := 3 } else { ok := false, retries := 2 } := by
  have hne : LineState.dead ≠ .clean := by decide
  have hbad : LineState.dead.bad = true := rfl
  simp only [State.readLine, if_neg hne, hbad, if_true]
  by_cases h : s.mirrored b = true ∧ s.copyGood (otherCopy b) = true
  · rw [if_pos h, h.1, h.2]
    rfl
  · have hgood : (s.mirrored b && s.copyGood (otherCopy b)) = false := by
      rw [Bool.eq_false_iff]
      exact fun hc => h (Bool.and_eq_true_iff.1 hc)
    rw [if_neg h, hgood]
    rfl

/-! ### Background work that falls behind -/

theorem log_bgDeferred {code die inst arg : Nat} : (s.log code die inst arg).hm.bgDeferred = s.hm.bgDeferred :=
  (Logged.refl s).log.health Health.bgDeferred fun _ => rfl

theorem exec_gleanerEscalate (hp : s.pw.part ≠ .off) : exec .gleanerEscalate s = .next { s with
    tm := s.tm.reach (s.mem.glnStart + 72000000000000), mem := { s.mem with glnEscalated := true } } := by
  show execGleanerEscalate s = _
  rw [execGleanerEscalate, State.powered_of_ne hp]
  rfl

/-- The pass is late. -/
def State.glnLate (s : State) : State :=
  let s := s.reach (s.mem.glnStart + 24 * 3600000000000)
  { s with mem := { s.mem with glnBehind := true }, hm := { s.hm with bgDeferred := bump s.hm.bgDeferred } }

theorem exec_gleanerBehind (hp : s.pw.part ≠ .off) : exec .gleanerBehind s = .next (s.glnLate.log 0x23 0xFF 0 24) := by
  show execGleanerBehind s = _
  rw [execGleanerBehind, State.powered_of_ne hp]
  rfl

theorem exec_bgBehind {tier : Nat} (htier : tier = 3 ∨ tier = 4) (hp : s.pw.part ≠ .off) : exec (.bgBehind tier) s = .next
    ((if tier = 3 then s else { s with hm := { s.hm with bgDeferred := bump s.hm.bgDeferred } }).log 0x65 0xFF 0 tier) := by
  have hgo : (tier == 3 || tier == 4) = true := by simpa using htier
  show execBgBehind tier s = _
  rw [execBgBehind, hgo, arises_true, State.powered_of_ne hp]
  rfl

end

/-- Settles O38. -/
theorem stacksAreMaintained : Obligations.StacksAreMaintained := by
  unfold Obligations.StacksAreMaintained
  refine ⟨fun s k b hk hb => ⟨fun hp href hlost => ?_, fun hoff => ?_⟩, fun s r hr => ⟨fun hbg hlost h =>
    exec_rowRemapCopy hr hbg hlost h, fun hc hd => ⟨_, exec_rowRemap hr hc hd, redirect_stack _⟩⟩,
    fun s k hk hp => ⟨fun hlost => ?_, fun hlost => ⟨_, exec_stackLost hk hp, loseStack_contents hk hlost⟩⟩,
    fun s k b ls hk hb hbg hp href hlost => ⟨exec_gleanerBlockRead hk hb hbg hp href hlost, fun hclean hleft => ?_⟩,
    fun s b l => readLine_dead b l, fun s hp => ⟨exec_gleanerEscalate hp, ?_, ?_, ?_⟩⟩
  · have hgo : (s.powered && !s.pw.selfRefresh && !(s.stack k).lost) = true := by simp [State.powered_of_ne hp, href, hlost]
    rw [exec_hbmRefresh hk hb, if_pos hgo]
  · have hgo : (s.powered && !s.pw.selfRefresh && !(s.stack k).lost) = false := by
      rcases hoff with h | h | h <;> simp [State.powered, h]
    rw [exec_hbmRefresh hk hb, if_neg (ne_true_of_eq_false hgo)]
  · rw [exec_stackLost hk hp]
    exact congrArg Host.Outcome.next (if_pos hlost)
  · refine ⟨_, exec_gleanerBlockRead hk hb hbg hp href hlost, ?_⟩
    rw [glean_clean hk hlost hclean hleft]
    exact ⟨State.stack_setStack_of_ne_default s k fun h => absurd (congrArg Stack.glnDone h) (by simp), rfl⟩
  · have hlog : Keeps [.pw, .hm] s.glnLate (s.glnLate.log 0x23 0xFF 0 24) := (Keeps.refl _).log
    exact ⟨_, exec_gleanerBehind hp, hlog.mem, log_bgDeferred, hlog.tm⟩
  · exact ⟨_, exec_bgBehind (.inl rfl) hp, log_bgDeferred⟩
  · exact ⟨_, exec_bgBehind (.inr rfl) hp, log_bgDeferred⟩

end Sys2Proof.Machine
end

section
/-! Heat and failures (R442, R465, R473, R474, R479, R485, R486, R528, R529). -/

namespace Sys2Proof.Machine

open Sys2Proof.Stated

theorem Keeps.dies {F : List Field} {s t : State} (h : Keeps F s t)
    (hF : .dies ∉ F := by decide) : t.dies = s.dies := h.same .dies hF

theorem Keeps.hm {F : List Field} {s t : State} (h : Keeps F s t) (hF : .hm ∉ F := by decide) : t.hm = s.hm := h.same .hm hF

theorem Keeps.pw {F : List Field} {s t : State} (h : Keeps F s t) (hF : .pw ∉ F := by decide) : t.pw = s.pw := h.same .pw hF

theorem State.die_congr {s t : State} (h : t.dies = s.dies) (d : Nat) : t.die d = s.die d := congrArg (mget ({} : Die) · d) h

theorem State.die_modDie {s : State} (h : Rising s.dies) (d e : Nat) (f : Die → Die) :
    (s.modDie d f).die e = if e = d then f (s.die d) else s.die e := by
  split
  · next he => rw [he, State.modDie, State.die_setDie_self h]
  · next he => rw [State.modDie, State.die_setDie_of_ne _ _ _ _ he]

/-! ### A sample -/

section
variable {s : State}

/-- A die that has been read. -/
def Die.sampled (d : Die) (t : Int) : Die := { d with temp := t, tempMax := max d.tempMax t }

/-- The readings of the dies. -/
def State.readDies (s : State) (ts : List (Nat × Int)) : State := ts.foldl (fun s e => s.modDie e.1 fun d => d.sampled e.2) s

theorem readDies_rising (hr : Rising s.dies) (ts : List (Nat × Int)) : Rising (s.readDies ts).dies :=
  List.foldlRecOn ts _ (motive := fun u : State => Rising u.dies) hr fun _ hu _ _ => rising_mset hu

theorem readDies_of_not_mem (hr : Rising s.dies) {ts : List (Nat × Int)} {d : Nat} (hd : d ∉ ts.map (·.1)) :
    (s.readDies ts).die d = s.die d := by
  induction ts generalizing s with
  | nil => rfl
  | cons e ts ih =>
    obtain ⟨hne, hd⟩ := not_or.1 (fun h => hd (List.mem_cons.2 h))
    refine (ih (s := s.modDie e.1 fun d => d.sampled e.2) (rising_mset hr) hd).trans ?_
    rw [State.die_modDie hr, if_neg hne]

/-- Each die that is named once has its reading. -/
theorem readDies_of_mem (hr : Rising s.dies) {ts : List (Nat × Int)} (hnd : (ts.map (·.1)).Nodup) {e : Nat × Int}
    (he : e ∈ ts) :
    (s.readDies ts).die e.1 = (s.die e.1).sampled e.2 := by
  induction ts generalizing s with
  | nil => exact absurd he List.not_mem_nil
  | cons f ts ih =>
    obtain ⟨hf, hnd⟩ := List.nodup_cons.1 hnd
    rcases List.mem_cons.1 he with rfl | he
    · refine (readDies_of_not_mem (s := s.modDie e.1 fun d => d.sampled e.2) (rising_mset hr) hf).trans ?_
      rw [State.die_modDie hr, if_pos rfl]
    · have hne : e.1 ≠ f.1 := fun h => hf (List.mem_map.2 ⟨e, he, h⟩)
      refine (ih (s := s.modDie f.1 fun d => d.sampled f.2) (rising_mset hr) hnd he).trans ?_
      rw [State.die_modDie hr, if_neg hne]

/-- The stacks' readings. -/
def State.readStacks (s : State) (ts : List (Nat × Int)) : State :=
  ts.foldl (fun s e => if 10 ≤ e.1 then s.modStack (e.1 - 10) fun x => { x with temp := e.2 } else s) s

/-- The rails' readings. -/
def State.readRails (s : State) (ps : List (Nat × Nat)) : State
    := ps.foldl (fun s e => s.modDie e.1 fun d => { d with powerMw := e.2 }) s

theorem takeSample_eq (ts : List (Nat × Int)) (ps : List (Nat × Nat)) :
    s.takeSample ts ps = ((s.readDies ts).readStacks ts).readRails ps := rfl

theorem readStacks_dies (ts : List (Nat × Int)) : (s.readStacks ts).dies = s.dies :=
  List.foldlRecOn ts _ (motive := fun u : State => u.dies = s.dies) rfl fun u hu e _ => by
    split
    · exact hu
    · exact hu

/-- The rails say nothing of the temperatures. -/
theorem readRails_temp (hr : Rising s.dies) (ps : List (Nat × Nat)) (d : Nat) :
    ((s.readRails ps).die d).temp = (s.die d).temp ∧ ((s.readRails ps).die d).tempMax = (s.die d).tempMax := by
  refine (List.foldlRecOn ps _ (motive := fun u : State => Rising u.dies ∧ (u.die d).temp = (s.die d).temp ∧
    (u.die d).tempMax = (s.die d).tempMax) ⟨hr, rfl, rfl⟩ fun u ⟨hu, ht, hm⟩ e _ => ⟨rising_mset hu, ?_⟩).2
  rw [State.die_modDie hu]
  split
  · next h => exact ⟨h ▸ ht, h ▸ hm⟩
  · exact ⟨ht, hm⟩

theorem takeSample_temp (hr : Rising s.dies) {ts : List (Nat × Int)} (ps : List (Nat × Nat)) (hnd : (ts.map (·.1)).Nodup)
    {e : Nat × Int} (he : e ∈ ts) : ((s.takeSample ts ps).die e.1).temp = e.2 ∧
    ((s.takeSample ts ps).die e.1).tempMax = max (s.die e.1).tempMax e.2 := by
  have hdies := readStacks_dies (s := s.readDies ts) ts
  obtain ⟨htemp, hmax⟩ := readRails_temp (s := (s.readDies ts).readStacks ts) (hdies ▸ readDies_rising hr ts) ps e.1
  rw [takeSample_eq, htemp, hmax, State.die_congr hdies, readDies_of_mem hr hnd he]
  exact ⟨rfl, rfl⟩

theorem hottest_congr {t : State} (h : t.dies = s.dies) : t.hottest = s.hottest := by
  have hsensor : t.sensor = s.sensor := funext fun d => by rw [State.sensor, State.sensor, State.die_congr h]
  simp only [State.hottest, State.temps, hsensor]

theorem foldl_max_le (l : List Int) (a : Int) : a ≤ l.foldl max a ∧ ∀ x ∈ l, x ≤ l.foldl max a := by
  induction l generalizing a with
  | nil => exact ⟨le_rfl, nofun⟩
  | cons y l ih =>
    obtain ⟨ha, hl⟩ := ih (max a y)
    refine ⟨(le_max_left a y).trans ha, fun x hx => ?_⟩
    rcases List.mem_cons.1 hx with rfl | hx
    · exact (le_max_right a _).trans ha
    · exact hl x hx

/-- A stack's reading counts ten degrees more. -/
theorem stack_le_hottest {k : Nat} (hk : k < 6) : (s.die (10 + k)).temp + 10 ≤ s.hottest := by
  have hmem : s.sensor (10 + k) ∈ s.temps := List.mem_map_of_mem (List.mem_range.2 (by omega))
  have hle := (foldl_max_le s.temps 0).2 _ hmem
  rwa [State.sensor, if_pos (Nat.le_add_right 10 k)] at hle

/-- What a sample means for binding. -/
theorem bindSample_hm : s.bindSample.dies = s.dies ∧ (102 ≤ s.hottest → s.bindSample.hm.bindStop = true) ∧
    (100 ≤ s.hottest → s.bindSample.hm.below100 = none) ∧ (s.hottest < 102 → s.bindSample.hm.bindStop = s.hm.bindStop) ∧
    s.bindSample.hm.gear = s.hm.gear := by
  refine ⟨(Keeps.bindSample (F := [.pw, .hm]) (.refl s)).dies, ?_⟩
  unfold State.bindSample
  extract_lets h top u
  have hlog : Logged u (u.log 0x15 0xFF 0 top.toNat) := (Logged.refl u).log
  by_cases hhot : 102 ≤ top
  · rw [if_pos hhot]
    refine ⟨fun _ => ?_, fun _ => ?_, fun hlt => absurd hhot (not_le.2 hlt), ?_⟩
    · split
      · rfl
      · exact hlog.health Health.bindStop fun _ => rfl
    · split
      · rfl
      · exact hlog.health Health.below100 fun _ => rfl
    · split
      · rfl
      · exact hlog.health Health.gear fun _ => rfl
  · rw [if_neg hhot]
    by_cases hwarm : 100 ≤ top
    · rw [if_pos hwarm]
      exact ⟨fun h => absurd h hhot, fun _ => rfl, fun _ => rfl, rfl⟩
    · rw [if_neg hwarm]
      exact ⟨fun h => absurd h hhot, fun h => absurd h hwarm, fun _ => rfl, rfl⟩

theorem exec_tempSample {ts : List (Nat × Int)} {ps : List (Nat × Nat)} (ht : ∀ e ∈ ts, e.1 < 16) (hp : ∀ e ∈ ps, e.1 < 16)
    (hon : s.pw.part ≠ .off) : exec (.tempSample ts ps) s = .next (s.takeSample ts ps).gearSample.bindSample := by
  have hunit : ((ts.all fun e => decide (e.1 < 16)) && ps.all fun e => decide (e.1 < 16)) = true := by
    simp only [Bool.and_eq_true, List.all_eq_true, decide_eq_true_eq]
    exact ⟨ht, hp⟩
  show execTempSample ts ps s = _
  rw [execTempSample, hunit, need_true, State.powered_of_ne hon]
  rfl

/-! ### The permitted gear -/

/-- What the choice of a variant leaves of the health manager. -/
def Health.unretired (h : Health) : Health := { h.unlogged with retireHost := none, retireSt := 0 }

theorem Logged.unretired {t : State}
    (h : Logged s t) : t.hm.unretired = s.hm.unretired := h.health Health.unretired fun _ => rfl

theorem cancelRetire_unretired (d : Nat) : (s.cancelRetire d).hm.unretired = s.hm.unretired := by
  simp only [State.cancelRetire, State.refuseRetire]
  split <;> rfl

theorem cancelRetirements_unretired (mask : Nat) : (s.cancelRetirements mask).hm.unretired = s.hm.unretired := by
  refine List.foldlRecOn (List.range 8) _ (motive := fun u : State => u.hm.unretired = s.hm.unretired) rfl fun u hu d _ => ?_
  split
  · exact hu
  · exact (cancelRetire_unretired d).trans hu

theorem decideSwitch_unretired (v item : Nat) : (s.decideSwitch v item).hm.unretired = s.hm.unretired := by
  have hannounce (u : State) (e : Nat) : (u.announce v e).hm = u.hm := (Keeps.announce (F := [.vs, .links, .dom,
    .out]) (.refl u)).hm
  refine (congrArg Health.unretired (hannounce ..)).trans ((cancelRetirements_unretired _).trans ?_)
  exact (Logged.refl _).log.unretired

theorem dropPending_hm : s.dropPending.hm = s.hm := (Keeps.dropPending (F := [.vs]) (.refl s)).hm

theorem recommend_logged (b : Nat) : Logged s (s.recommend b) := (Logged.refl s).log

theorem evaluateVariant_unretired : s.evaluateVariant.hm.unretired = s.hm.unretired := by
  simp only [State.evaluateVariant]
  split
  · rfl
  · generalize (match s.vs.pin with
      | some v => if s.selectableNum v then some v else none
      | none => none) = pin
    split
    · exact congrArg Health.unretired dropPending_hm
    · split_ifs
      · rfl
      · exact decideSwitch_unretired ..
      · exact congrArg Health.unretired dropPending_hm
      · exact decideSwitch_unretired ..
      · exact decideSwitch_unretired ..
      · exact decideSwitch_unretired ..
      · exact (recommend_logged _).unretired.trans (congrArg Health.unretired dropPending_hm)

/-- A part of the health manager that the choice of a variant is not about. -/
theorem health_of_unretired {α : Type} {g h : Health}
    (hu : g.unretired = h.unretired) (π : Health → α) (hπ : ∀ x, π x = π x.unretired) :
    π g = π h := by
  rw [hπ, hu, ← hπ]

/-- A cool part with the policy set permits the next gear. -/
def State.geared (s : State) : State :=
  (({ s with hm := { s.hm with coolSince := some s.tm.now } } : State).permitGear (s.hm.gear - 1)).evaluateVariant

theorem exec_gearStepUp {n : Nat} (hc : s.hm.coolSince = some n) (hg : s.hm.gearCeiling < s.hm.gear) : exec .gearStepUp s =
    .next (let u := s.reach (boundaryFrom (n + 10000000000)); if u.policy 2 then u.geared else u.recommend 2) := by
  show execGearStepUp s = _
  simp only [execGearStepUp, hc, decide_eq_true hg, arises_true]
  rfl

theorem geared_contents : s.geared.tm = s.tm ∧ s.geared.hm.gear = s.hm.gear - 1 := by
  have hk : Keeps [.pw, .vs, .dies, .links, .dom, .hm, .out] s s.geared :=
    ((Keeps.withHm (F := [.pw, .vs, .dies, .links, .dom, .hm, .out]) (.refl s)).permitGear).evaluateVariant
  refine ⟨hk.tm, (health_of_unretired evaluateVariant_unretired Health.gear fun _ => rfl).trans ?_⟩
  exact (Logged.refl _).log.health Health.gear fun _ => rfl

end

/-! ### The entry into SAFE -/

section
variable {s : State} {row : Nat}

/-- The slots in progress are abandoned, outside any domain. -/
def State.safeAbandoned (s : State) : State :=
  let dom := if s.dom.st = .standalone then s.dom else { s.dom with st := .left }
  ({ s with dom := dom } : State).abandonRuns (s.runs.filter fun r => !r.abandoned) true 2 0

/-- Nothing runs, the links are down and the vault is wiped. -/
def State.safeStopped (s : State) : State :=
  let links : SMap Link := s.safeAbandoned.links.map fun e => (e.1, { e.2 with st := .down, width := 0, opens := [] })
  ({ s.safeAbandoned with runs := [], links := links } : State).wipeVault

/-- The part's power state in SAFE. -/
def Power.inSafe (p : Power) (row : Nat) : Power
    := { p with part := .safe, safeRow := row, selfRefresh := true, faultN := true }

theorem enterSafe_eq (h : s.pw.part ≠ .safe) (hp : s.pw.part ≠ .off) :
    s.enterSafe row = ({ s.safeStopped with pw := s.safeStopped.pw.inSafe row } : State).log 0x61 0xFF 0 row :=
  if_neg (not_or.2 ⟨h, hp⟩)

theorem enterSafe_of_safe (h : s.pw.part = .safe) : s.enterSafe row = s := if_pos (.inl h)

/-- Wiping the vault ends every session. -/
theorem wipeVault_links
    (h : ∀ e ∈ s.links, e.2.st = .down) : ∀ e ∈ s.wipeVault.links, e.2.st = .down ∧ e.2.session = false := by
  intro e he
  obtain ⟨f, hf, rfl⟩ := List.mem_map.1 he
  exact ⟨h f hf, rfl⟩

theorem safeStopped_links : ∀ e ∈ s.safeStopped.links, e.2.st = .down ∧ e.2.session = false := by
  refine wipeVault_links fun e he => ?_
  obtain ⟨f, hf, rfl⟩ := List.mem_map.1 he
  rfl

theorem enterSafe_inSafe (h : s.pw.part ≠ .safe) (hp : s.pw.part ≠ .off) : InSafe row (s.enterSafe row) := by
  have hlog : Logged ({ s.safeStopped with pw := s.safeStopped.pw.inSafe row } : State) (s.enterSafe row) := by
    rw [enterSafe_eq h hp]
    exact (Logged.refl _).log
  have hk : Keeps [.pw, .hm] ({ s.safeStopped with pw := s.safeStopped.pw.inSafe row } : State) (s.enterSafe row) := by
    rw [enterSafe_eq h hp]
    exact (Keeps.refl _).log
  have hsec : (s.enterSafe row).sec = s.safeStopped.sec := hk.same .sec (by decide)
  have hlinks : (s.enterSafe row).links = s.safeStopped.links := hk.same .links (by decide)
  have hruns : (s.enterSafe row).runs = [] := hk.same .runs (by decide)
  refine ⟨hlog.power Power.part fun _ => rfl, hlog.power Power.safeRow fun _ => rfl, hlog.power Power.faultN fun _ => rfl,
    hlog.power Power.selfRefresh fun _ => rfl, hruns, ?_, ?_, ?_, ?_, ?_⟩
  · rw [hsec]
    rfl
  · rw [hsec]
    rfl
  · rw [hsec]
    rfl
  · rw [hsec]
    rfl
  · rw [hlinks]
    exact safeStopped_links

theorem enterSafe_part (hp : s.pw.part ≠ .off) : (s.enterSafe row).pw.part = .safe := by
  by_cases h : s.pw.part = .safe
  · rw [enterSafe_of_safe h, h]
  · exact (enterSafe_inSafe h hp).1

theorem enterSafe_dies : (s.enterSafe row).dies = s.dies :=
  (Keeps.enterSafe (F := safeFields) (.refl s)).dies

end

/-! ### The commands -/

section
variable {s : State}

theorem exec_bindResume {n : Nat} (h : s.hm.below100 = some n) : exec .bindResume s = .next { s with
    tm := s.tm.reach (n + 10000000), hm := { s.hm with bindStop := false, below100 := none } } := by
  show execBindResume s = _
  rw [execBindResume, h]
  rfl

/-- The stopped clocks of a trip. -/
def State.tripped (s : State) : State :=
  { (s.enterSafe 4).wipeVault with pw := { (s.enterSafe 4).pw with thermtripN := true, clocksStopped := true } }

theorem exec_thermtripN (hp : s.pw.part ≠ .off) : exec .thermtripN s = .next s.tripped := by
  show execThermtripN s = _
  rw [execThermtripN, State.powered_of_ne hp]
  rfl

theorem tripped_inSafe (h : s.pw.part ≠ .safe) (hp : s.pw.part ≠ .off) : InSafe 4 s.tripped := by
  obtain ⟨hpart, hrow, hfault, hrefresh, hruns, -, -, -, -, hlinks⟩ := enterSafe_inSafe (row := 4) h hp
  exact ⟨hpart, hrow, hfault, hrefresh, hruns, rfl, rfl, rfl, rfl, wipeVault_links fun e he => (hlinks e he).1⟩

theorem exec_hubFailure {h : Nat} (hh : h < 2) (hp : s.pw.part ≠ .off) :
    exec (.hubFailure h) s = .next ((s.modDie (8 + h) fun d => { d with failed := true }).enterSafe 1) := by
  show execHubFailure h s = _
  rw [execHubFailure, decide_eq_true hh, need_true, State.powered_of_ne hp]
  rfl

/-- A die that is not at its defaults reads as it was set, whatever the table holds. -/
theorem State.die_setDie_of_ne_default (s : State) (d : Nat) {x : Die} (hx : x ≠ {}) : (s.setDie d x).die d = x :=
  mget_mset_self_of_ne ({} : Die) s.dies d x hx

theorem exec_stewardFailover (hp : s.pw.part ≠ .off) : exec .stewardFailover s = .next
    (if s.hm.stewardHb1 then s
    else if s.hm.mirrorFailed then s.enterSafe 2
    else { s.log 0x62 0xFF 0 0 with hm := { (s.log 0x62 0xFF 0 0).hm with stewardHb1 := true } }) := by
  show execStewardFailover s = _
  simp only [execStewardFailover, State.powered_of_ne hp, Bool.not_true, Bool.false_or]

theorem exec_stewardMirrorFailure (hp : s.pw.part ≠ .off) : exec .stewardMirrorFailure s = .next
    (if s.hm.stewardHb1 then ({ s with hm := { s.hm with mirrorFailed := true } } : State).enterSafe 2
    else { s with hm := { s.hm with mirrorFailed := true } }) := by
  show execStewardMirrorFailure s = _
  simp only [execStewardMirrorFailure, State.powered_of_ne hp, Bool.not_true, Bool.false_eq_true, if_false]

end

/-- Settles O39. -/
theorem heatAndFailuresAreAnswered : Obligations.HeatAndFailuresAreAnswered := by
  unfold Obligations.HeatAndFailuresAreAnswered
  refine ⟨fun s ts ps ht hps hon hr => ⟨_, exec_tempSample ht hps hon, ?_⟩, fun s n h => exec_bindResume h,
    fun s n hc hg => ?_,
    fun s hp => ⟨⟨_, exec_thermtripN hp, enterSafe_part hp, rfl, rfl, fun h => tripped_inSafe h hp⟩, fun h hh => ?_,
      fun hb1 => ⟨?_, ?_⟩, fun hb1 => ?_, fun hb1 => ?_⟩⟩
  · obtain ⟨hdies, hstop, hbelow, hkept, hgear⟩ := bindSample_hm (s := (s.takeSample ts ps).gearSample)
    have hdies' : (s.takeSample ts ps).gearSample.bindSample.dies = (s.takeSample ts ps).dies := hdies
    have hhm : (s.takeSample ts ps).hm = s.hm := (Keeps.takeSample (F := [.dies, .stk]) (.refl s)).hm
    have htop := hottest_congr hdies
    rw [htop]
    refine ⟨fun hnd e he => ?_, fun k hk => ?_, hstop, hbelow, fun hlt => (hkept hlt).trans ?_, hgear.trans ?_⟩
    · rw [State.die_congr hdies']
      exact takeSample_temp hr ps hnd he
    · rw [State.die_congr hdies]
      exact stack_le_hottest hk
    · exact (show _ = (s.takeSample ts ps).hm.bindStop from rfl).trans (congrArg Health.bindStop hhm)
    · exact (show _ = (s.takeSample ts ps).hm.gear from rfl).trans (congrArg Health.gear hhm)
  · refine ⟨_, exec_gearStepUp hc hg, ?_⟩
    dsimp only
    split
    · next hpol =>
      obtain ⟨htm, hgear⟩ := geared_contents (s := s.reach (boundaryFrom (n + 10000000000)))
      exact ⟨htm, fun _ => hgear, fun hno => absurd hpol (ne_true_of_eq_false hno)⟩
    · next hpol =>
      exact ⟨(Keeps.recommend (F := [.pw, .hm]) (.refl _)).tm, fun hyes => absurd hyes hpol, 
        fun _ => (recommend_logged 2).health Health.gear fun _ => rfl⟩
  · refine ⟨_, exec_hubFailure hh hp, ?_, fun h => enterSafe_inSafe h hp⟩
    rw [State.die_congr enterSafe_dies]
    refine congrArg Die.failed (State.die_setDie_of_ne_default s (8 + h) (x
      := { s.die (8 + h) with failed := true }) fun hd => ?_)
    exact absurd (congrArg Die.failed hd) (by simp)
  · rw [exec_stewardFailover hp, if_pos hb1]
  · refine ⟨_, exec_stewardMirrorFailure hp, fun h => ?_⟩
    rw [if_pos hb1]
    exact enterSafe_inSafe h hp
  · rw [exec_stewardMirrorFailure hp, if_neg (ne_true_of_eq_false hb1)]
  · refine ⟨_, exec_stewardFailover hp, fun hm => ?_, fun hm h => ?_⟩
    · rw [if_neg (ne_true_of_eq_false hb1), if_neg (ne_true_of_eq_false hm)]
      exact ⟨rfl, (Logged.refl s).log.power Power.part fun _ => rfl⟩
    · rw [if_neg (ne_true_of_eq_false hb1), if_pos hm]
      exact enterSafe_inSafe h hp

end Sys2Proof.Machine
end

section
/-! A die that is lost (R325, R328, R470..R472, R484). -/

namespace Sys2Proof.Machine

open Sys2Proof.Stated

theorem Keeps.runs {F : List Field} {s t : State} (h : Keeps F s t)
    (hF : .runs ∉ F := by decide) : t.runs = s.runs := h.same .runs hF

theorem Keeps.arrs {F : List Field} {s t : State} (h : Keeps F s t)
    (hF : .arrs ∉ F := by decide) : t.arrs = s.arrs := h.same .arrs hF

theorem Keeps.plan {F : List Field} {s t : State} (h : Keeps F s t)
    (hF : .plan ∉ F := by decide) : t.plan = s.plan := h.same .plan hF

/-- Replacement is a part of its own of the health manager. -/
theorem replaceCheck_health {α : Type} (s : State) (π : Health → α) (hπ : ∀ x r, π { x with replace := r } = π x)
    (hlog : ∀ x, π x = π x.unlogged := by exact fun _ => rfl) : π s.replaceCheck.hm = π s.hm := by
  unfold State.replaceCheck
  extract_lets bits fresh h0 s1 s2 part
  have hlogged : Logged s1 s2 := (Logged.refl s1).foldl (fun _ hu _ => hu.log) fresh
  exact (hlogged.health π hlog).trans (hπ s.hm bits)

/-! ### Dies that stay fenced -/

/-- A die that is out of use, with no retirement in progress. -/
def Die.out (d : Die) : Prop := d.fenced = true ∧ d.stopped = true ∧ d.retiring = none

section
variable {s : State} {d : Nat}

theorem cancelRetire_out (hr : Rising s.dies)
    (h : (s.die d).out) (e : Nat) : Rising (s.cancelRetire e).dies ∧ ((s.cancelRetire e).die d).out := by
  have hdies (u : State) (e : Nat) : (u.refuseRetire e).dies = u.dies := (Keeps.refuseRetire (F := [.hm]) (.refl u)).dies
  have hout {f : Die → Die} (hf : (f (s.die e)).fenced = (s.die e).fenced ∧ (f (s.die e)).stopped = (s.die e).stopped ∧
      (f (s.die e)).retiring = none) : ((s.modDie e f).die d).out := by
    rw [State.die_modDie hr]
    split
    · next he =>
      subst he
      exact ⟨hf.1.trans h.1, hf.2.1.trans h.2.1, hf.2.2⟩
    · exact h
  refine ⟨?_, ?_⟩
  · rw [State.cancelRetire, hdies]
    exact rising_mset hr
  · rw [State.cancelRetire, State.die_congr (hdies ..)]
    exact hout ⟨rfl, rfl, rfl⟩

theorem cancelRetirements_out (hr : Rising s.dies)
    (h : (s.die d).out) (mask : Nat) : ((s.cancelRetirements mask).die d).out := by
  refine (List.foldlRecOn (List.range 8) _ (motive := fun u : State => Rising u.dies ∧ (u.die d).out) ⟨hr, h⟩
    fun u ⟨hu, ho⟩ e _ => ?_).2
  split
  · exact ⟨hu, ho⟩
  · exact cancelRetire_out hu ho e

theorem decideSwitch_out (hr : Rising s.dies) (h : (s.die d).out) (v item : Nat) : ((s.decideSwitch v item).die d).out := by
  have hannounce (u : State) (e : Nat) : (u.announce v e).dies = u.dies := (Keeps.announce (F := [.vs, .links, .dom,
    .out]) (.refl u)).dies
  simp only [State.decideSwitch]
  rw [State.die_congr (hannounce ..)]
  have hlog (u : State) : (u.log 0x13 0xFF 0 (v + 256 * item)).dies = u.dies := (Keeps.log (F := [.pw, .hm]) (.refl u)).dies
  refine cancelRetirements_out (by rw [hlog]; exact hr) ?_ _
  rw [State.die_congr (hlog _)]
  exact h

theorem dropPending_dies : s.dropPending.dies = s.dies := (Keeps.dropPending (F := [.vs]) (.refl s)).dies

theorem recommend_dies (b : Nat) : (s.recommend b).dies = s.dies := (Keeps.recommend (F := [.pw, .hm]) (.refl s)).dies

theorem evaluateVariant_out (hr : Rising s.dies) (h : (s.die d).out) : (s.evaluateVariant.die d).out := by
  simp only [State.evaluateVariant]
  split
  · exact h
  · generalize (match s.vs.pin with
      | some v => if s.selectableNum v then some v else none
      | none => none) = pin
    split
    · rw [State.die_congr dropPending_dies]
      exact h
    · split_ifs
      · exact h
      · exact decideSwitch_out (by exact hr) (by exact h) ..
      · rw [State.die_congr dropPending_dies]
        exact h
      · exact decideSwitch_out (by exact hr) (by exact h) ..
      · exact decideSwitch_out (by exact hr) (by exact h) ..
      · exact decideSwitch_out (by exact hr) (by exact h) ..
      · rw [State.die_congr (recommend_dies _), State.die_congr dropPending_dies]
        exact h

/-! ### What the choice of a variant leaves -/

theorem mandatoryVariant_keeps :
    Keeps [.pw, .vs, .dies, .links, .dom, .hm, .out] s s.mandatoryVariant := (Keeps.refl s).mandatoryVariant

theorem mandatoryVariant_out (hr : Rising s.dies) (h : (s.die d).out) : (s.mandatoryVariant.die d).out := by
  simp only [State.mandatoryVariant]
  split_ifs
  · exact h
  · exact evaluateVariant_out hr h
  · rw [State.die_congr dropPending_dies]
    exact h

theorem mandatoryVariant_unretired : s.mandatoryVariant.hm.unretired = s.hm.unretired := by
  simp only [State.mandatoryVariant]
  split_ifs
  · rfl
  · exact evaluateVariant_unretired
  · exact congrArg Health.unretired dropPending_hm

theorem mandatoryVariant_current : s.mandatoryVariant.vs.current = s.vs.current := by
  have hview : switchView s.mandatoryVariant.vs = switchView s.vs := by
    simp only [State.mandatoryVariant]
    split_ifs
    · rfl
    · exact evaluateVariant_switchView s
    · exact dropPending_switchView s
  exact congrArg Prod.fst hview

/-- A fenced die has no selectable variant. -/
theorem selectable_of_fenced (hd : d < 8) (h : (s.die d).fenced = true) {v : Variant} (hv : bit v.dieMask d = true) :
    s.selectable v = false := by
  have hall : ((List.range 8).all fun d => !bit v.dieMask d || !(s.die d).fenced) = false := by
    rw [List.all_eq_false]
    exact ⟨d, List.mem_range.2 hd, by simp [hv, h]⟩
  simp only [State.selectable, hall, Bool.false_and]

/-- A fenced die is a trigger of replacement. -/
theorem triggers_of_fenced (hd : d < 8) (h : (s.die d).fenced = true) : s.triggers.getLsbD 1 = true := by
  have hany : ((List.range 8).map s.die).any (·.fenced) = true :=
    List.any_eq_true.2 ⟨s.die d, List.mem_map_of_mem (List.mem_range.2 hd), h⟩
  simp only [State.triggers, hany]
  generalize ((List.range 8).map s.die).any (fun d => !d.fenced && d.spares == 0) = b0
  generalize ((List.range 6).any fun k => (s.stack k).lost) = b2
  generalize (s.hm.baseTaken && decide (s.usableLinks < 24 ∧ s.usableLinks < s.hm.linksBase)) = b3
  generalize (s.hm.prState == 2) = b4
  revert b0 b2 b3 b4
  decide

/-! ### Fuses and arrays -/

/-- A blank fuse slot takes the die's number, unless a slot names it. -/
theorem mem_burnFuses {fs : List Byte}
    (h : (0x80 + BitVec.ofNat 8 d ∈ fs) ∨ 0 ∈ fs) : 0x80 + BitVec.ofNat 8 d ∈ burnFuses fs d := by
  have hv : (BitVec.ofNat 8 (0x80 + d) : Byte) = 0x80 + BitVec.ofNat 8 d := by
    rw [BitVec.ofNat_add]
    rfl
  unfold burnFuses
  extract_lets v
  rw [← hv] at h ⊢
  change v ∈ fs ∨ 0 ∈ fs at h
  show v ∈ _
  split
  · next hc => exact List.contains_iff_mem.1 hc
  · next hc =>
    have hblank : (0 : Byte) ∈ fs := h.resolve_left fun hm => hc (List.contains_iff_mem.2 hm)
    have hfold (l : List Byte) (acc : Nat × List Byte) (hl : v ∈ acc.2 ∨ (acc.1 < 2 ∧ (0 : Byte) ∈ l)) :
        v ∈ (l.foldl (fun (acc : Nat × List Byte) b =>
          if b = 0 ∧ acc.1 < 2 then (acc.1 + 1, acc.2 ++ [v]) else (acc.1, acc.2 ++ [b])) acc).2 := by
      induction l generalizing acc with
      | nil => exact hl.resolve_right fun hr => absurd hr.2 List.not_mem_nil
      | cons b l ih =>
        rw [List.foldl_cons]
        refine ih _ ?_
        rcases hl with hm | ⟨hlt, hm⟩
        · left
          split <;> exact List.mem_append_left _ hm
        · by_cases hb : b = 0
          · rw [if_pos ⟨hb, hlt⟩]
            exact .inl (List.mem_append_right _ (List.mem_singleton_self _))
          · rw [if_neg fun hc => hb hc.1]
            exact .inr ⟨hlt, (List.mem_cons.1 hm).resolve_left fun h => hb h.symm⟩
    exact hfold fs (0, []) (.inr ⟨Nat.zero_lt_two, hblank⟩)

theorem mget_dropArrays {m : SMap Arr} {p : Nat} (hp : p < 64) : mget {} (dropArrays m d) (slotKey d p) = {} := by
  induction m with
  | nil => rfl
  | cons e m ih =>
    rw [dropArrays, mclear] at ih ⊢
    rw [List.filter_cons]
    split
    · next hkeep =>
      have hne : slotKey d p ≠ e.1 := by
        intro h
        have hout : e.1 < slotKey d 0 ∨ slotKey (d + 1) 0 ≤ e.1 := of_decide_eq_true hkeep
        simp only [slotKey] at h hout
        omega
      rw [mget, if_neg hne]
      exact ih
    · exact ih

/-! ### The fence -/

/-- The slots on the die abandoned, and its outputs returned. -/
def State.dieLeft (s : State) (d : Nat) : State := (s.abandonDie d).returnOutputs d

/-- The die out of use. -/
def State.dieOut (s : State) (d : Nat) : State :=
  (s.cancelRetire d).modDie d fun x => { x with fenced := true, stopped := true, descs := [], units := [] }

/-- The die's arrays lost and its fuses burnt. -/
def State.diePurged (s : State) (d : Nat) : State :=
  { s with
    arrs := dropArrays s.arrs d
    hm := { s.hm with
      fuses := burnFuses s.hm.fuses d, fenceHost := if s.hm.fenceHost == some d then none else s.hm.fenceHost
      fenceSt := if s.hm.fenceHost == some d then 2 else s.hm.fenceSt } }

theorem fence_eq (h : (s.die d).fenced = false) (cause : Nat) :
    s.fence d cause = ((((s.dieLeft d).dieOut d).diePurged d).record 2 d 0).log 0x12 d 0 cause := by
  rw [State.fence, h]
  rfl

theorem dieOut_out (hr : Rising s.dies) : Rising (s.dieOut d).dies ∧ ((s.dieOut d).die d).out := by
  have hcancel : (s.cancelRetire d).die d =
    (s.modDie d fun x => { x with retiring := none, retireReq := [], slotSt := match x.retiring with
      | some (_, p, _) => x.slotSt.set p .active
      | none => x.slotSt }).die d := State.die_congr (Keeps.refuseRetire (F := [.hm]) (.refl _)).dies d
  have hrise : Rising (s.cancelRetire d).dies := by
    have hdies : (s.cancelRetire d).dies = _ := (Keeps.refuseRetire (F := [.hm]) (.refl _)).dies
    rw [hdies]
    exact rising_mset hr
  have hset (x : Die) : Rising ((s.cancelRetire d).setDie d x).dies := rising_mset hrise
  refine ⟨hset _, ?_⟩
  rw [State.dieOut, State.die_modDie hrise, if_pos rfl]
  refine ⟨rfl, rfl, ?_⟩
  show ((s.cancelRetire d).die d).retiring = none
  rw [hcancel, State.die_modDie hr, if_pos rfl]

theorem dieLeft_keeps : Keeps [.jobs, .jobSeq, .runs, .slotStats, .links, .dom, .out] s (s.dieLeft d) := by
  have habandon : Keeps [.jobs, .jobSeq, .runs, .slotStats, .links, .dom, .out] s (s.abandonDie d) :=
    ((Keeps.refl s).abandonRuns).foldl fun u r => (Keeps.refl u).markAbandoned
  exact habandon.returnOutputs

/-- A run that was marked, or that no mark was about. -/
theorem foldl_markAbandoned (rs : List SlotRun) : (rs.foldl (State.markAbandoned · false ·) s).runs =
    rs.foldl (fun l r => l.map (marked r)) s.runs := by
  induction rs generalizing s with
  | nil => rfl
  | cons r rs ih =>
    rw [List.foldl_cons, List.foldl_cons, ih]
    rfl

theorem foldl_marked {rs l : List SlotRun} {x : SlotRun} (hx : x ∈ rs.foldl (fun l r => l.map (marked r)) l) :
    ∃ y ∈ l, x.slot = y.slot ∧ (x.abandoned = true ∨ x = y ∧ ∀ r ∈ rs, sameRun y r = false) := by
  induction rs generalizing l with
  | nil => exact ⟨x, hx, rfl, .inr ⟨rfl, nofun⟩⟩
  | cons r rs ih =>
    obtain ⟨y, hy, hslot, hcase⟩ := ih hx
    obtain ⟨z, hz, rfl⟩ := List.mem_map.1 hy
    by_cases hsame : sameRun z r = true
    · have hmark : marked r z = { z with abandoned := true } := if_pos hsame
      rw [hmark] at hslot hcase
      refine ⟨z, hz, hslot, .inl ?_⟩
      rcases hcase with h | ⟨rfl, -⟩
      · exact h
      · rfl
    · have hmark : marked r z = z := if_neg hsame
      rw [hmark] at hslot hcase
      refine ⟨z, hz, hslot, hcase.imp_right fun ⟨heq, hno⟩ => ⟨heq, fun k hk => ?_⟩⟩
      rcases List.mem_cons.1 hk with rfl | hk
      · exact Bool.eq_false_of_not_eq_true hsame
      · exact hno k hk

theorem sameRun_self (r : SlotRun) : sameRun r r = true := by simp [sameRun]

/-- Every slot in progress on the die is abandoned. -/
theorem dieLeft_runs {x : SlotRun} (hx : x ∈ (s.dieLeft d).runs) (hocc : s.occupiesDie x d = true) : x.abandoned = true := by
  have hreturn : (s.dieLeft d).runs = (s.abandonDie d).runs :=
    (Keeps.returnOutputs (F := [.jobs, .jobSeq, .links, .dom, .out]) (.refl (s.abandonDie d))).runs
  have hruns : (s.abandonRuns (s.runs.filter fun r => s.occupiesDie r d && !r.abandoned) false 2 12).runs = s.runs :=
    (abandonRuns_keeps ..).runs
  have hfold : (s.abandonDie d).runs = _ := foldl_markAbandoned (s.runs.filter fun r => s.occupiesDie r d && !r.abandoned)
  rw [hreturn, hfold, hruns] at hx
  obtain ⟨y, hy, hslot, hcase⟩ := foldl_marked hx
  rcases hcase with h | ⟨rfl, hno⟩
  · exact h
  · cases hab : x.abandoned with
    | true => rfl
    | false =>
      have hmem : x ∈ s.runs.filter fun r => s.occupiesDie r d && !r.abandoned := List.mem_filter.2 ⟨hy, by simp [hocc, hab]⟩
      exact absurd (sameRun_self x) (ne_true_of_eq_false (hno x hmem))

end

/-! ### The command -/

section
variable {s : State} {d : Nat}

/-- A die whose PLL is lost. -/
def State.dieLost (s : State) (d : Nat) : State := ((s.fence d 1).mandatoryVariant).replaceCheck

theorem exec_diePllLoss (hd : d < 8) : exec (.diePllLoss d) s =
    .next (if s.powered && !(s.die d).fenced then s.dieLost d else s) := by
  show execDiePllLoss d s = _
  rw [execDiePllLoss, decide_eq_true hd, need_true]
  rfl

theorem fence_out (hr : Rising s.dies) (h : (s.die d).fenced = false) (cause : Nat) :
    Rising (s.fence d cause).dies ∧ ((s.fence d cause).die d).out := by
  have hleft : (s.dieLeft d).dies = s.dies := dieLeft_keeps.dies
  obtain ⟨hrise, hout⟩ := dieOut_out (s := s.dieLeft d) (d := d) (hleft ▸ hr)
  have hdies : (s.fence d cause).dies = ((s.dieLeft d).dieOut d).dies := by
    rw [fence_eq h]
    exact (Keeps.log (F := [.pw, .hm]) (Keeps.record (F := [.pw, .hm]) (.refl (((s.dieLeft d).dieOut d).diePurged d)))).dies
  rw [hdies, State.die_congr hdies]
  exact ⟨hrise, hout⟩

theorem dieOut_keeps : Keeps [.dies, .hm] s (s.dieOut d) := (Keeps.refl s).cancelRetire.modDie

theorem fence_parts (h : (s.die d).fenced = false) (cause : Nat) : (s.fence d cause).arrs = dropArrays s.arrs d ∧
    (s.fence d cause).hm.fuses = burnFuses s.hm.fuses d ∧ (s.fence d cause).runs = (s.dieLeft d).runs ∧
    (s.fence d cause).plan = s.plan ∧ (s.fence d cause).vs = s.vs := by
  have hlogged : Keeps [.pw, .hm] (((s.dieLeft d).dieOut d).diePurged d) (s.fence d cause) := by
    rw [fence_eq h]
    exact (Keeps.refl _).record.log
  have hhm : Logged (((s.dieLeft d).dieOut d).diePurged d) (s.fence d cause) := by
    rw [fence_eq h]
    exact (Logged.refl _).record.log
  have hleft : Keeps [.jobs, .jobSeq, .runs, .slotStats, .links, .dom, .out] s (s.dieLeft d) := dieLeft_keeps
  have hout : Keeps [.dies, .hm] (s.dieLeft d) ((s.dieLeft d).dieOut d) := dieOut_keeps
  have harrs : ((s.dieLeft d).dieOut d).arrs = s.arrs := hout.arrs.trans hleft.arrs
  have hfuses : ((s.dieLeft d).dieOut d).hm.fuses = s.hm.fuses := by
    refine (health_of_unretired (cancelRetire_unretired (s := s.dieLeft d) d) Health.fuses fun _ => rfl).trans ?_
    rw [hleft.hm]
  refine ⟨hlogged.arrs.trans (congrArg (dropArrays · d) harrs),
    (hhm.health Health.fuses fun _ => rfl).trans (congrArg (burnFuses · d) hfuses), hlogged.runs.trans hout.runs,
    hlogged.plan.trans (hout.plan.trans hleft.plan), hlogged.vs.trans (hout.vs.trans hleft.vs)⟩

theorem occupiesDie_congr {t : State} (hplan : t.plan = s.plan) (hcur : t.vs.current = s.vs.current) (r : SlotRun) (d : Nat) :
    t.occupiesDie r d = s.occupiesDie r d := by
  simp only [State.occupiesDie, State.slotRec, State.template, State.templateOf, State.variant, State.variantRec, hplan, hcur]

theorem dieLost_fuses : (s.dieLost d).hm.fuses = (s.fence d 1).hm.fuses :=
  (replaceCheck_health _ Health.fuses fun _ _ => rfl).trans
    (health_of_unretired mandatoryVariant_unretired Health.fuses fun _ => rfl)

theorem dieLost_keeps : Keeps [.pw, .vs, .dies, .links, .dom, .hm, .out] (s.fence d 1) (s.dieLost d) :=
  ((Keeps.refl _).mandatoryVariant).replaceCheck

theorem dieLost_contents (hd : d < 8) (h : (s.die d).fenced = false) (hr : Rising s.dies) :
    ((s.dieLost d).die d).fenced = true ∧ ((s.dieLost d).die d).stopped = true ∧ ((s.dieLost d).die d).retiring = none ∧
    (∀ p < 64, mget {} (s.dieLost d).arrs (slotKey d p) = {}) ∧ (∀ v : Variant,
      bit v.dieMask d = true → (s.dieLost d).selectable v = false) ∧
    ((0x80 + BitVec.ofNat 8 d ∈ s.hm.fuses ∨ 0 ∈ s.hm.fuses) → 0x80 + BitVec.ofNat 8 d ∈ (s.dieLost d).hm.fuses) ∧
    (∀ r ∈ (s.dieLost d).runs, (s.dieLost d).occupiesDie r d = true → r.abandoned = true) ∧
    (s.dieLost d).hm.replace.getLsbD 1 = true := by
  obtain ⟨hrise, hout⟩ := fence_out hr h 1
  obtain ⟨harrs, hfuses, hruns, hplan, hvs⟩ := fence_parts h 1
  have hk := dieLost_keeps (s := s) (d := d)
  have hchecked : Keeps [.pw, .hm] (s.fence d 1).mandatoryVariant (s.dieLost d) := (Keeps.refl _).replaceCheck
  have hout' : ((s.fence d 1).mandatoryVariant.die d).out := mandatoryVariant_out hrise hout
  have hlost : ((s.dieLost d).die d).out := by
    rw [State.die_congr hchecked.dies]
    exact hout'
  refine ⟨hlost.1, hlost.2.1, hlost.2.2, fun p hp => ?_, fun v hv => selectable_of_fenced hd hlost.1 hv, fun hblank => ?_,
    fun r hr' hocc => ?_, ?_⟩
  · rw [hk.arrs, harrs]
    exact mget_dropArrays hp
  · rw [dieLost_fuses, hfuses]
    exact mem_burnFuses hblank
  · refine dieLeft_runs (s := s) (d := d) (hruns ▸ hk.runs ▸ hr') ?_
    rw [← hocc]
    refine (occupiesDie_congr (hk.plan.trans hplan) ?_ r d).symm
    rw [hchecked.vs, mandatoryVariant_current, hvs]
  · rw [State.dieLost, replaceCheck_replace, BitVec.getLsbD_or, triggers_of_fenced hd hout'.1, Bool.or_true]

end

end Sys2Proof.Machine
end

section
/-! Retirement, the self tests, the scrub of the lofts, the digests of the keys and the record (R234, R460, R469, R488,
    R491). -/

namespace Sys2Proof.Machine

open Sys2Proof.Stated

/-! ### Retirement -/

section
variable {s : State} {d a p q : Nat}

/-- The array's contents in the spare. -/
def State.contentsMoved (s : State) (d p q : Nat) : State :=
  let copied := mset {} s.arrs (slotKey d q) (copiedArr s.template.depth (s.place (slotKey d p)))
  { s with arrs := mset {} copied (slotKey d p) {} }

/-- The array with its contents in the spare. -/
def State.arrayMoved (s : State) (d a p q : Nat) : State :=
  (s.contentsMoved d p q).modDie d fun x =>
    { x with retiring := none, slotMap := x.slotMap.set a q, slotSt := (x.slotSt.set p .retired).set q .active }

theorem moveArray_keeps : Keeps [.pw, .hm] (s.arrayMoved d a p q) (s.moveArray d a p q) :=
  ((Keeps.refl (F := [.pw, .hm]) (s.arrayMoved d a p q)).withHm).record.log.replaceCheck

theorem slotKey_inj {p q : Nat} (h : slotKey d p = slotKey d q) : p = q := Nat.add_left_cancel h

theorem arrayMoved_die (hr : Rising s.dies) : (s.arrayMoved d a p q).die d =
    { s.die d with
      retiring := none, slotMap := (s.die d).slotMap.set a q,
        slotSt := ((s.die d).slotSt.set p .retired).set q .active } := by
  rw [State.arrayMoved, State.die_modDie (show Rising (s.contentsMoved d p q).dies from hr), if_pos rfl]
  rfl

theorem arrayMoved_arr (hr : Rising s.dies) (hra : Rising s.arrs) (hpq : p ≠ q) (ha : a < (s.die d).slotMap.length) :
    (s.arrayMoved d a p q).arr ⟨d, a⟩ = copiedArr s.template.depth (s.place (slotKey d p)) := by
  have hslot : (s.arrayMoved d a p q).pslot ⟨d, a⟩ = q := by
    have hmap : ((s.arrayMoved d a p q).die d).slotMap = (s.die d).slotMap.set a q :=
      congrArg Die.slotMap (arrayMoved_die hr)
    have hat : ((s.die d).slotMap.set a q).getD a a = q := by
      rw [List.getD_eq_getElem _ _ (by rw [List.length_set]; exact ha), List.getElem_set_self]
    exact (congrArg (fun m : List Nat => m.getD a a) hmap).trans hat
  rw [State.arr, hslot]
  refine (mget_mset_of_ne ({} : Arr) (mset {} s.arrs (slotKey d q) (copiedArr s.template.depth (s.place (slotKey d p))))
    (slotKey d p) (slotKey d q) {} fun h => hpq (slotKey_inj h).symm).trans ?_
  exact mget_mset_self ({} : Arr) hra (slotKey d q) _

theorem exec_retirementCopy (hd : d < 8) (h : (s.die d).retiring = some (a, p, q)) (hbg : s.background = true) :
    exec (.retirementCopy d) s = .next (s.moveArray d a p q) := by
  show execRetirementCopy d s = _
  rw [execRetirementCopy, decide_eq_true hd, need_true, h]
  exact (congrArg (arises · _ _) hbg).trans (arises_true _ _)

end

/-! ### Self tests -/

section
variable {s : State} {d p : Nat}

/-- A self test is noted. -/
def State.swept (s : State) (d p : Nat) : State :=
  let u := s.noteLate (decide (mget 0 s.hm.sweeps (slotKey d p) + 600000000000 < s.tm.now))
  { u with hm := { u.hm with sweeps := mset 0 u.hm.sweeps (slotKey d p) u.tm.now } }

/-- A spare that failed its test. -/
def State.spareFailed (s : State) (d p : Nat) : State :=
  s.modDie d fun x => { x with slotSt := x.slotSt.set p .retired }

theorem exec_healthSweep {ok : Bool} (hd : d < 8) (hp : p < 68) (hbg : s.background = true)
    (hsp : (s.die d).slotSt.getD p .retired = .spare) : exec (.healthSweep d p ok) s =
    .next (if ok then s.swept d p else (((s.swept d p).spareFailed d p).log 0x11 d 0 p).replaceCheck) := by
  have hgood : (s.background && (s.die d).slotSt.getD p .retired == .spare) = true := by rw [hbg, hsp]; rfl
  show execHealthSweep d p ok s = _
  rw [execHealthSweep, decide_eq_true hd, decide_eq_true hp, hgood]
  rfl

theorem swept_dies : (s.swept d p).dies = s.dies := (Keeps.withHm (F := [.hm]) (Keeps.noteLate (.refl s))).dies

/-- The slots of a die at its defaults are active or spare. -/
theorem retired_ne_default {x : Die} {p : Nat} (hp : p < x.slotSt.length) :
    ({ x with slotSt := x.slotSt.set p .retired } : Die) ≠ {} := by
  intro h
  have hslots : x.slotSt.set p .retired = List.replicate 64 .active ++ List.replicate 4 .spare := congrArg Die.slotSt h
  have hmem : PSt.retired ∈ x.slotSt.set p .retired := List.mem_set hp _
  rw [hslots] at hmem
  revert hmem
  decide

theorem lt_of_spare {l : List PSt} (h : l.getD p .retired = .spare) : p < l.length := by
  by_contra hn
  rw [List.getD_eq_default _ _ (Nat.le_of_not_lt hn)] at h
  exact PSt.noConfusion h

end

/-! ### The scrub of a loft -/

section
variable {s : State} {a : ArrId} {n : Nat}

/-- An array counts n uncorrectable errors of its loft. -/
def Uncorr (a : ArrId) (n : Nat) (s : State) : Prop := (s.arr a).cnt.loftUncorr = n

theorem uncorr_ne_default {x : Arr} (h : x.cnt.loftUncorr = n) (hn : n ≠ 0) : x ≠ {} := fun hx => hn (hx ▸ h).symm

namespace Uncorr

/-- A change of an array that leaves its counters leaves the count. -/
theorem modArr (hn : n ≠ 0) (h : Uncorr a n s) (b : ArrId) {f : Arr → Arr} (hf : (f (s.arr b)).cnt = (s.arr b).cnt) :
    Uncorr a n (s.modArr b f) := by
  by_cases hk : s.key a = s.key b
  · have hab : s.arr b = s.arr a := congrArg (mget ({} : Arr) s.arrs) hk.symm
    have hcount : (f (s.arr b)).cnt.loftUncorr = n := by rw [hf, hab]; exact h
    have hset : (s.modArr b f).arr a = f (s.arr b) := by
      show mget {} (mset {} s.arrs (s.key b) (f (s.arr b))) (s.key a) = _
      rw [hk]
      exact mget_mset_self_of_ne _ _ _ _ (uncorr_ne_default hcount hn)
    exact (congrArg (fun x : Arr => x.cnt.loftUncorr) hset).trans hcount
  · have hset : (s.modArr b f).arr a = s.arr a := mget_mset_of_ne _ _ _ _ _ hk
    exact (congrArg (fun x : Arr => x.cnt.loftUncorr) hset).trans h

theorem keeps {F : List Field} {t : State} (h : Uncorr a n s) (hk : Keeps F s t) (ha : .arrs ∉ F := by decide)
    (hd : .dies ∉ F := by decide) : Uncorr a n t := by
  have harr : t.arr a = s.arr a := by
    rw [State.arr, State.pslot, State.die, hk.arrs ha, hk.dies hd]
    rfl
  exact (congrArg (fun x : Arr => x.cnt.loftUncorr) harr).trans h

theorem eachPart (hn : n ≠ 0) (h : Uncorr a n s) (parts : List Part) (pair : Bool) {f : Nat → Part → Arr → Arr}
    (hf : ∀ i p x, (f i p x).cnt = x.cnt) : Uncorr a n (s.eachPart parts pair f) := by
  refine List.foldlRecOn parts _ (motive := fun u => Uncorr a n u) h fun u hu p _ => ?_
  split
  · dsimp only
    split
    · exact (hu.modArr hn _ (hf ..)).modArr hn _ (hf ..)
    · exact hu.modArr hn _ (hf ..)
  · exact hu

theorem poisonSheaf (hn : n ≠ 0) (h : Uncorr a n s) (b : ArrId) (i poly : Nat) : Uncorr a n (s.poisonSheaf b i poly) := by
  simp only [State.poisonSheaf, State.setSheaf, State.modParts]
  refine eachPart hn (eachPart hn h _ _ ?_) _ _ ?_
  · exact fun _ _ _ => rfl
  · exact fun _ _ _ => rfl

/-- A row that is restored does not touch the counters. -/
theorem restoreRow (hn : n ≠ 0) (h : Uncorr a n s) (b : ArrId) (row : Nat) : Uncorr a n (s.restoreRow b row) := by
  have hset {x : Arr} (hx : x.cnt = (s.arr b).cnt) : Uncorr a n (s.setArr b x) := h.modArr hn b (f := fun _ => x) hx
  unfold State.restoreRow
  extract_lets x addr
  split
  · exact hset rfl
  · split
    · exact h
    · next i e _ =>
      extract_lets off
      split
      · exact hset rfl
      · split
        · exact hset rfl
        · split
          · split
            · exact hset rfl
            · exact h
          · have hcleared := hset (x := { x with loft := Memory.write x.loft addr (List.replicate 1024 0) }) rfl
            split
            · exact hcleared.poisonSheaf hn _ _ _
            · exact hcleared

end Uncorr

theorem bump_ne_zero (n : Nat) : bump n ≠ 0 := by
  rw [bump, sat32]
  exact Nat.ne_of_gt (Nat.lt_min.2 ⟨Nat.succ_pos n, by decide⟩)

theorem markSlot_ne_nil (m : SMap (List Nat)) (p t : Nat) : markSlot m p t ≠ [] := by
  intro h
  have hget : mget [] (markSlot m p t) p = mget [] m p ++ [t] := mget_mset_self_of_ne _ _ _ _ (by simp)
  rw [h] at hget
  exact absurd hget.symm (by simp [mget])

/-- A memory fault of a loft row counts once. -/
theorem raiseFault_uncorr (w : FaultAt) {f : Flt} (hodd : f.odd = false) (hkind : f.kind = 2) (hsub : f.sub = 4) :
    Uncorr w.a (bump (s.arr w.a).cnt.loftUncorr) (s.raiseFault w f none) := by
  have hn := bump_ne_zero (s.arr w.a).cnt.loftUncorr
  have hcounted : Uncorr w.a (bump (s.arr w.a).cnt.loftUncorr) (s.modArr w.a fun x => countFault x f.kind f.sub) := by
    have hcnt : (countFault (s.arr w.a) f.kind f.sub).cnt.loftUncorr = bump (s.arr w.a).cnt.loftUncorr := by
      rw [hkind, hsub]
      rfl
    exact (congrArg (fun x : Arr => x.cnt.loftUncorr) (arr_setArr_of_changed (uncorr_ne_default hcnt hn))).trans hcnt
  have hmark (u : State) (e k : Nat) (hu : Uncorr w.a (bump (s.arr w.a).cnt.loftUncorr) u) :
      Uncorr w.a (bump (s.arr w.a).cnt.loftUncorr) (u.modDie e fun d => { d with uncorrF := markSlot d.uncorrF k u.hour })
        := by
    have hkey := State.key_modDie (s := u) (d := e) (f := fun d => { d with uncorrF := markSlot d.uncorrF k u.hour })
      (fun h => markSlot_ne_nil _ _ _ (congrArg Die.uncorrF h)) rfl w.a
    have harr : (u.modDie e fun d => { d with uncorrF := markSlot d.uncorrF k u.hour }).arr w.a = u.arr w.a :=
      congrArg (mget ({} : Arr) u.arrs) hkey
    exact (congrArg (fun x : Arr => x.cnt.loftUncorr) harr).trans hu
  unfold State.raiseFault
  extract_lets b r pos s1 invalid rec' s2 s3 s4 s5
  have hb : b = w.a := if_neg (ne_true_of_eq_false hodd)
  have h1 : Uncorr w.a (bump (s.arr w.a).cnt.loftUncorr) s1 := by
    show Uncorr w.a _ (s.modArr b fun x => countFault x f.kind f.sub)
    rw [hb]
    exact hcounted
  split
  · exact h1
  · have h5 : Uncorr w.a (bump (s.arr w.a).cnt.loftUncorr) s5 := by
      have h2 : Uncorr w.a (bump (s.arr w.a).cnt.loftUncorr) s2 :=
        h1.modArr hn b rfl
      have h3 : Uncorr w.a (bump (s.arr w.a).cnt.loftUncorr) s3 := h2.keeps (Keeps.logBody (F := [.pw, .hm]) (.refl _))
      have hmarked : s4 = s3.modDie b.die fun d => { d with uncorrF := markSlot d.uncorrF rec'.pslot s3.hour } := by
        simp only [s4, hkind, hsub]
        rfl
      have h4 : Uncorr w.a (bump (s.arr w.a).cnt.loftUncorr) s4 := hmarked ▸ hmark s3 b.die rec'.pslot h3
      exact h4.keeps (Keeps.trace? (F := [.trace]) (.refl _))
    clear_value r
    split
    · exact h5
    · refine h5.keeps (F := [.jobs, .jobSeq, .links, .dom, .out, .runs]) ?_
      exact ((Keeps.refl _).endNamed.abandonRun).modRun

theorem exec_loftScrub {d p row : Nat} {es : List WordErr} (hd : d < 8) (hp : p < 68) (hrow : row < 7168)
    (hw : ∀ e ∈ es, e.word < 128) (hbg : s.background = true) : exec (.loftScrub d p row es) s =
    .next (if !s.powered || (s.die d).fenced then s else es.foldl (fun s e => s.scrubWord d p row e) s) := by
  have hall : (es.all fun e => decide (e.word < 128)) = true := List.all_eq_true.2 fun e he => decide_eq_true (hw e he)
  show execLoftScrub d p row es s = _
  rw [execLoftScrub, decide_eq_true hd, decide_eq_true hp, decide_eq_true hrow, hall]
  rw [show (true && true && true && true) = true from rfl, need_true]
  exact ((congrArg (arises · _ _) hbg).trans (arises_true _ _))

end

/-! ### The digests of the keys -/

section
variable {s : State} {n i b : Nat} {k : Key}

theorem exec_keyRehash (hn : 1 ≤ n) (hn' : n ≤ 4095) (hk : s.key? n i = some k) (hbg : s.background = true)
    (hb : b < k.blocks.length) : exec (.keyRehash n i b) s = .next (if s.digestWrong k b then
      { s.corruptKey n i with sec := { s.sec with keyDigestFails := bump s.sec.keyDigestFails } }.log 0x24 0xFF 0
        (i + 65536 * n)
    else s) := by
  show execKeyRehash n i b s = _
  rw [execKeyRehash, decide_eq_true ⟨hn, hn'⟩, need_true, hk]
  show arises (s.background && decide (b < k.blocks.length)) _ _ = _
  rw [hbg, decide_eq_true hb]
  rfl

theorem State.key?_congr {s t : State} (h : t.keys = s.keys) (n i : Nat) : t.key? n i = s.key? n i :=
  congrArg (fun l : List Key => l.find? fun k : Key => k.tenant == n && k.id == i) h

/-- A key that is changed, and that keeps its name, is found as changed. -/
theorem key?_modKey {f : Key → Key} (hf : ∀ k, (f k).tenant = k.tenant ∧ (f k).id = k.id) (hk : s.key? n i = some k) :
    (s.modKey n i f).key? n i = some (f k) := by
  have hp : (k.tenant == n && k.id == i) = true := by
    have hfound := List.find?_some hk
    exact hfound
  have hsame : ((fun k : Key => k.tenant == n && k.id == i) ∘ fun k : Key => if k.tenant == n && k.id == i then f k else k) =
      fun k => k.tenant == n && k.id == i := by
    funext x
    by_cases h : (x.tenant == n && x.id == i) = true
    · simp only [Function.comp_apply, if_pos h, (hf x).1, (hf x).2]
    · simp only [Function.comp_apply, if_neg h]
  rw [State.key?, State.modKey, List.find?_map, hsame]
  have hfind : s.keys.find? (fun k => k.tenant == n && k.id == i) = some k := hk
  rw [hfind, Option.map_some, if_pos hp]

end

/-! ### The record -/

/-- Entries that join the record's queue at its end. -/
def Queues (h g : Health) : Prop := ∃ l, g.prQueue = h.prQueue ++ l

theorem recordErase_queue (h : Health) : (recordErase h).prQueue = h.prQueue ∧ (recordErase h).prState = h.prState ∧
    (recordErase h).prNever = h.prNever := by
  simp only [recordErase]
  split <;> exact ⟨rfl, rfl, rfl⟩

theorem recordAppend_queue (h : Health) (e : PrEnt) : (recordAppend h e).prQueue = h.prQueue ∧
    (recordAppend h e).prState = h.prState := by
  simp only [recordAppend]
  split_ifs
  · exact ⟨rfl, rfl⟩
  · exact ⟨(recordErase_queue h).1, (recordErase_queue h).2.1⟩
  · exact ⟨rfl, rfl⟩

/-- An entry takes its place in the active sector while that has room. -/
theorem recordAppend_ents {h : Health} (e : PrEnt) (hst : h.prState ≠ 2) (hact : h.active < h.sectors.length)
    (hroom : (activeEnts h).length < 65532) : activeEnts (recordAppend h e) = activeEnts h ++ [e] ∧
    (recordAppend h e).active < (recordAppend h e).sectors.length := by
  rw [recordAppend, if_neg hst, if_neg (Nat.not_le_of_lt hroom)]
  refine ⟨?_, ?_⟩
  · simp only [activeEnts, modifyNth]
    rw [List.getD_eq_getElem _ _ (by rw [List.length_modify]; exact hact), List.getElem_modify_eq,
      List.getD_eq_getElem _ _ hact]
  · exact (List.length_modify ..).symm ▸ hact

section
variable {s : State}

/-- An event that is no replacement and no entry into SAFE only queues. -/
theorem log_queue {code die inst arg : Nat} (hcode : ¬ (code = 0x60 ∨ code = 0x61)) :
    Queues s.hm (s.log code die inst arg).hm ∧ activeEnts (s.log code die inst arg).hm = activeEnts s.hm ∧
    (s.log code die inst arg).hm.prNever = s.hm.prNever := by
  simp only [State.log, State.logBody]
  generalize hu : evtInsert s _ = u
  have hins : u.hm.prQueue = s.hm.prQueue ∧ activeEnts u.hm = activeEnts s.hm ∧ u.hm.prNever = s.hm.prNever := by
    rw [← hu, evtInsert]
    dsimp only
    split
    · exact ⟨rfl, rfl, rfl⟩
    · split <;> exact ⟨rfl, rfl, rfl⟩
  obtain ⟨hq, he, hn⟩ := hins
  rw [recordEvent, if_neg hcode]
  split
  · exact ⟨⟨_, congrArg (· ++ _) hq⟩, he, hn⟩
  · exact ⟨⟨[], hq.trans (List.append_nil _).symm⟩, he, hn⟩

theorem recordCheck_queue : Queues s.hm s.recordCheck.hm := by
  unfold State.recordCheck
  extract_lets x st e r exhausted low
  split
  · split
    · obtain ⟨⟨l, hl⟩, -⟩ := log_queue (s := exhausted) (code := 0x64) (die := 0xFF) (inst := 0)
        (arg := exhausted.hm.prNever + exhausted.hm.prQueue.length) (by decide)
      exact ⟨l, hl.trans (congrArg (· ++ l) (recordAppend_queue s.hm e).1)⟩
    · obtain ⟨⟨l, hl⟩, -⟩ := log_queue (s := low) (code := 0x63) (die := 0xFF) (inst := 0) (arg
      := erasesLeft x) (by decide)
      exact ⟨l, hl.trans (congrArg (· ++ l) (recordAppend_queue s.hm e).1)⟩
  · exact ⟨[], (List.append_nil _).symm⟩

theorem recordCheck_of_exhausted (h : s.hm.prState = 2) : s.recordCheck = s := by
  unfold State.recordCheck
  extract_lets x st e r exhausted low
  refine if_neg ?_
  show ¬ s.hm.prState < st
  rw [h]
  have hst : st ≤ 2 := by
    show (if goodSectors x < 2 then 2 else if erasesLeft x < 80000 ∨ goodSectors x < 4 then 1 else 0) ≤ 2
    split_ifs <;> omega
  omega

/-- What the active sector holds stays there while it has room for the record's own entries. -/
theorem recordCheck_ents (hst : s.hm.prState ≠ 2) (hact : s.hm.active < s.hm.sectors.length)
    (hroom : (activeEnts s.hm).length < 65532) : ∀ e ∈ activeEnts s.hm, e ∈ activeEnts s.recordCheck.hm := by
  intro e he
  unfold State.recordCheck
  extract_lets x st e' r exhausted low
  have happend : e ∈ activeEnts (recordAppend s.hm e') := by
    rw [(recordAppend_ents e' hst hact hroom).1]
    exact List.mem_append_left _ he
  split
  · split
    · rw [(log_queue (s := exhausted) (by decide)).2.1]
      exact happend
    · rw [(log_queue (s := low) (by decide)).2.1]
      exact happend
  · exact he

/-- The record with an entry taken from its queue and programmed. -/
def Health.programmed (h : Health) (e : PrEnt) (times : List Nat) (fail : Bool) : Health :=
  let g := { h with prQueue := h.prQueue.erase e, prTimes := times }
  let g := if fail then sectorFail g else g
  let live := g.prState != 2
  let g := recordAppend g e
  if live then { g with evts := markPersisted g.evts e } else g

theorem programNext_eq {e : PrEnt} {es : List PrEnt} (h : sortBy recRank s.hm.prQueue = e :: es) (fail : Bool) :
    ∃ n times, s.programNext fail = State.recordCheck { s.reach n with hm := s.hm.programmed e times fail } := by
  rw [State.programNext, h]
  exact ⟨_, _, rfl⟩

variable {h : Health} {e : PrEnt} {times : List Nat} {fail : Bool}

theorem programmed_queue : (h.programmed e times fail).prQueue = h.prQueue.erase e ∧
    (h.programmed e times fail).prState = h.prState := by
  unfold Health.programmed
  extract_lets g1 g2 live g3
  have h2 : g2.prQueue = g1.prQueue ∧ g2.prState = g1.prState := by
    show (if fail then sectorFail g1 else g1).prQueue = _ ∧ (if fail then sectorFail g1 else g1).prState = _
    split
    · exact ⟨(recordErase_queue _).1, (recordErase_queue _).2.1⟩
    · exact ⟨rfl, rfl⟩
  have h3 := recordAppend_queue g2 e
  split
  · exact ⟨h3.1.trans h2.1, h3.2.trans h2.2⟩
  · exact ⟨h3.1.trans h2.1, h3.2.trans h2.2⟩

theorem programmed_never (hst : h.prState = 2) : (h.programmed e times fail).prNever = bump h.prNever := by
  unfold Health.programmed
  extract_lets g1 g2 live g3
  have h2 : g2.prState = 2 ∧ g2.prNever = h.prNever := by
    show (if fail then sectorFail g1 else g1).prState = 2 ∧ (if fail then sectorFail g1 else g1).prNever = _
    split
    · exact ⟨(recordErase_queue _).2.1.trans hst, (recordErase_queue _).2.2⟩
    · exact ⟨hst, rfl⟩
  have h3 : g3.prNever = bump h.prNever := by
    show (recordAppend g2 e).prNever = _
    rw [recordAppend, if_pos h2.1, h2.2]
  split
  · exact h3
  · exact h3

theorem programmed_ents (hst : h.prState ≠ 2) (hact : h.active < h.sectors.length) (hroom : (activeEnts h).length < 65532) :
    activeEnts (h.programmed e times false) = activeEnts h ++ [e] ∧
    (h.programmed e times false).active < (h.programmed e times false).sectors.length := by
  have happend := recordAppend_ents (h := { h with prQueue := h.prQueue.erase e, prTimes := times }) e hst hact hroom
  unfold Health.programmed
  extract_lets g1 g2 live g3
  split
  · exact happend
  · exact happend

theorem exec_recordProgram (hq : sortBy recRank s.hm.prQueue = e :: es) (hp : s.pw.part ≠ .off) :
    exec (.recordProgram fail) s = .next (s.programNext fail) := by
  have hne : s.hm.prQueue.isEmpty = false := by
    cases hl : s.hm.prQueue with
    | nil => rw [hl] at hq; exact absurd hq (by simp [sortBy])
    | cons => rfl
  show execRecordProgram fail s = _
  rw [execRecordProgram, hne, State.powered_of_ne hp]
  rfl

end

/-- Settles O40. -/
theorem diesArraysAndRecordAreKept : Obligations.DiesArraysAndRecordAreKept := by
  unfold Obligations.DiesArraysAndRecordAreKept
  refine ⟨fun s d hd => ⟨fun hp hf _ hr => ?_, fun h => ?_⟩, fun s d a p q hd hret hbg hpq ha hra hr => ?_,
    fun s d p ok hd hp hbg hsp => ?_, fun s d p row es hd hp hrow hw hbg => ?_,
    fun s n i b k hn hn' hk hbg hb => ?_, fun s fail e es hq hp => ?_⟩
  · refine ⟨s.dieLost d, ?_, dieLost_contents hd hf hr⟩
    rw [exec_diePllLoss hd, State.powered_of_ne hp, hf]
    rfl
  · rw [exec_diePllLoss hd]
    have hoff : (s.powered && !(s.die d).fenced) = false := by
      rcases h with h | h
      · rw [State.powered, h]; rfl
      · rw [h, Bool.not_true, Bool.and_false]
    rw [hoff]
    rfl
  · refine ⟨_, exec_retirementCopy hd hret hbg, ?_⟩
    have hmoved : Keeps [.pw, .hm] (s.arrayMoved d a p q) (s.moveArray d a p q) := moveArray_keeps
    have hdie := (State.die_congr hmoved.dies d).trans (arrayMoved_die hr)
    have harr : (s.moveArray d a p q).arr ⟨d, a⟩ = copiedArr s.template.depth (s.place (slotKey d p)) :=
      (hmoved.arr (by decide) (by decide) _).trans (arrayMoved_arr hr hra hpq ha)
    dsimp only
    rw [hdie, harr]
    exact ⟨rfl, rfl, rfl, rfl, rfl⟩
  · refine ⟨_, exec_healthSweep hd hp hbg hsp, fun hok => ?_, fun hok => ?_⟩
    · rw [if_pos hok]
      exact swept_dies
    · rw [if_neg (ne_true_of_eq_false hok)]
      have hlogged : Keeps [.pw, .hm] ((s.swept d p).spareFailed d p)
          (((s.swept d p).spareFailed d p).log 0x11 d 0 p).replaceCheck := (Keeps.refl _).log.replaceCheck
      have hsame : (s.swept d p).die d = s.die d := State.die_congr swept_dies d
      have hlt : p < ((s.swept d p).die d).slotSt.length := hsame ▸ lt_of_spare hsp
      rw [State.die_congr hlogged.dies, State.spareFailed, State.modDie,
        State.die_setDie_of_ne_default _ _ (retired_ne_default hlt), hsame]
  · rw [exec_loftScrub hd hp hrow hw hbg]
    refine ⟨fun h => ?_, fun hp' hf => ?_⟩
    · have hoff : (!s.powered || (s.die d).fenced) = true := by
        rcases h with h | h
        · rw [State.powered, h]; rfl
        · rw [h, Bool.or_true]
      rw [hoff]
      rfl
    · have hon : (!s.powered || (s.die d).fenced) = false := by rw [State.powered_of_ne hp', hf]; rfl
      rw [hon]
      refine ⟨fun h => h ▸ rfl, fun e a he ha => ⟨fun hc => ?_, fun hc => ?_⟩⟩
      · rw [he]
        show Host.Outcome.next (s.scrubWord d p row e) = _
        rw [State.scrubWord, ha]
        exact congrArg Host.Outcome.next (if_pos hc)
      · refine ⟨_, exec_loftScrub hd hp hrow hw hbg, ?_⟩
        rw [hon, he]
        show ((s.scrubWord d p row e).arr a).cnt.loftUncorr = _
        have hword : s.scrubWord d p row e = (s.raiseFault { a := a, tag := 0 }
            { kind := 2, sub := 4, index := row * 256 + 2 * e.word, cycle := s.fallowCycle } none).restoreRow a row := by
          rw [State.scrubWord, ha]
          exact if_neg (ne_true_of_eq_false hc)
        rw [hword]
        exact Uncorr.restoreRow (bump_ne_zero _) (raiseFault_uncorr { a := a, tag := 0 } rfl rfl rfl) a row
  · rw [exec_keyRehash hn hn' hk hbg hb]
    refine ⟨fun h => ?_, fun h => ⟨_, exec_keyRehash hn hn' hk hbg hb, ?_⟩⟩
    · rw [h]
      rfl
    · rw [if_pos h]
      have hlogged (u : State) : Keeps [.pw, .hm] u (u.log 0x24 0xFF 0 (i + 65536 * n)) := (Keeps.refl u).log
      refine ⟨congrArg Sec.keyDigestFails ((hlogged _).same .sec (by decide)), fun hdrop => ?_⟩
      have hkeys := (hlogged { s.corruptKey n i with sec := { s.sec with keyDigestFails := bump s.sec.keyDigestFails } }).keys
      have hfound := key?_modKey (s := s) (f := fun k => if k.st == .dropped then k else { k with st := .corrupt })
        (fun k => by split <;> exact ⟨rfl, rfl⟩) hk
      refine (State.key?_congr hkeys n i).trans (hfound.trans (congrArg some ?_))
      rw [if_neg (by simpa using hdrop)]
  · refine ⟨_, exec_recordProgram hq hp, ?_⟩
    obtain ⟨m, times, heq⟩ := programNext_eq hq fail
    rw [heq]
    refine ⟨?_, fun h2 => ?_, fun hok hst hact hroom => ?_⟩
    · obtain ⟨l, hl⟩ := recordCheck_queue (s := { s.reach m with hm := s.hm.programmed e times fail })
      exact ⟨l, hl.trans (congrArg (· ++ l) programmed_queue.1)⟩
    · rw [recordCheck_of_exhausted (by exact programmed_queue.2.trans h2)]
      exact programmed_never h2
    · subst hok
      obtain ⟨hents, hlen⟩ := programmed_ents (e := e) (times := times) hst hact (by omega)
      refine recordCheck_ents (by exact fun h => hst (programmed_queue.2.symm.trans h)) hlen ?_ e ?_
      · show (activeEnts (s.hm.programmed e times false)).length < 65532
        rw [hents, List.length_append]
        show _ + 1 < _
        omega
      · show e ∈ activeEnts (s.hm.programmed e times false)
        rw [hents]
        exact List.mem_append_right _ (List.mem_singleton_self e)

end Sys2Proof.Machine
end

section
/-! The layer on links (R361, R364, R366): what the sending and the receiving of frames leave of a link that is not down. -/

namespace Sys2Proof.Machine

open Sys2Proof.Stated

theorem State.link_congr {s t : State}
    (h : t.links = s.links) (j : Nat) : t.link j = s.link j := congrArg (mget ({} : Link) · j) h

theorem Keeps.links {F : List Field} {s t : State} (h : Keeps F s t)
    (hF : .links ∉ F := by decide) : t.links = s.links := h.same .links hF

/-- A link that is not down is not at its defaults. -/
theorem link_ne_default {l : Link} (h : l.st ≠ .down) : l ≠ {} := fun hl => h (congrArg Link.st hl)

theorem link_setLink (s : State) (j : Nat) {x : Link} (h : x.st ≠ .down) : (s.setLink j x).link j = x :=
  mget_mset_self_of_ne ({} : Link) s.links j x (link_ne_default h)

theorem link_setLink_of_ne (s : State) {i j : Nat} (x : Link) (h : i ≠ j) : (s.setLink j x).link i = s.link i :=
  mget_mset_of_ne ({} : Link) s.links j i x h

theorem link_modLink (s : State) (j : Nat) {f : Link → Link}
    (h : (f (s.link j)).st ≠ .down) : (s.modLink j f).link j = f (s.link j) :=
  link_setLink s j h

theorem up_of_carries {l : Link} (h : l.carries = true) : l.st ≠ .down := by
  intro hd
  rw [Link.carries, Link.up, hd] at h
  exact Bool.noConfusion h

theorem open_of_carries {l : Link} (h : l.carries = true) : l.open? = true := by
  rw [Link.carries, Bool.or_eq_true, Bool.and_eq_true] at h
  rw [Link.open?, Bool.or_eq_true]
  exact h.imp_right And.left

/-! ### A part of a link -/

/-- Part π of a link j that is not down reads as before, and so does its state. -/
structure SameLink {α : Type} (π : Link → α) (j : Nat) (s t : State) : Prop where
  st : (s.link j).st ≠ .down → (t.link j).st = (s.link j).st
  part : (s.link j).st ≠ .down → π (t.link j) = π (s.link j)

namespace SameLink

variable {α : Type} {π : Link → α} {j : Nat} {s t u : State}

theorem refl (s : State) : SameLink π j s s := ⟨fun _ => rfl, fun _ => rfl⟩

theorem trans (h : SameLink π j s t) (g : SameLink π j t u) : SameLink π j s u := by
  have hup (hs : (s.link j).st ≠ .down) : (t.link j).st ≠ .down := h.st hs ▸ hs
  exact ⟨fun hs => (g.st (hup hs)).trans (h.st hs), fun hs => (g.part (hup hs)).trans (h.part hs)⟩

/-- What follows leaves the links alone. -/
theorem congr (h : SameLink π j s t) (hl : u.links = t.links) : SameLink π j s u :=
  h.trans ⟨fun _ => congrArg Link.st (State.link_congr hl j), fun _ => congrArg π (State.link_congr hl j)⟩

theorem keeps {F : List Field} (h : SameLink π j s t) (hk : Keeps F t u) (hF : .links ∉ F := by decide) : SameLink π j s u :=
  h.congr (hk.links hF)

/-- A change of a link that leaves the part and the state alone. -/
theorem setLink (h : SameLink π j s t) (k : Nat) {x : Link} (hst : x.st = (t.link k).st) (hπ : π x = π (t.link k)) :
    SameLink π j s (t.setLink k x) := by
  have hset (ht : (t.link j).st ≠ .down) : ((t.setLink k x).link j).st = (t.link j).st ∧ π ((t.setLink k x).link j) = π
    (t.link j) := by
    by_cases hj : j = k
    · subst hj
      rw [link_setLink t j (hst ▸ ht)]
      exact ⟨hst, hπ⟩
    · rw [link_setLink_of_ne t x hj]
      exact ⟨rfl, rfl⟩
  exact h.trans ⟨fun ht => (hset ht).1, fun ht => (hset ht).2⟩

theorem modLink (h : SameLink π j s t) (k : Nat) {f : Link → Link} (hst : ∀ l, (f l).st = l.st) (hπ : ∀ l, π (f l) = π l) :
    SameLink π j s (t.modLink k f) := h.setLink k (hst _) (hπ _)

theorem ite {p : Prop} [Decidable p] (h : SameLink π j s t) (g : SameLink π j s u) : SameLink π j s (if p then t else u) := by
  split
  · exact h
  · exact g

theorem foldl (h : SameLink π j s t) {β : Type} {f : State → β → State}
    (hf : ∀ u, SameLink π j s u → ∀ b, SameLink π j s (f u b))
    (l : List β) : SameLink π j s (l.foldl f t) :=
  List.foldlRecOn l f (motive := fun u => SameLink π j s u) h fun u hu b _ => hf u hu b

/-- A state that reads as before is not down either. -/
theorem up (h : SameLink π j s t) (hs : (s.link j).st ≠ .down) : (t.link j).st ≠ .down := h.st hs ▸ hs

/-- A part of the part. -/
theorem weaken {β : Type} {ρ : Link → β} (h : SameLink π j s t) (hρ : ∀ l m, π l = π m → ρ l = ρ m) : SameLink ρ j s t :=
  ⟨h.st, fun hs => hρ _ _ (h.part hs)⟩

end SameLink

/-- A link but for the frames it has sent and holds, and the frames it could not route. -/
def Link.unsent (l : Link) : Link := { l with fcntTx := 0, replay := [], txWait := [], noroute := 0 }

/-- A part of a link that the sending of frames does not reach. -/
abbrev Unsent {α : Type} (π : Link → α) : Prop := ∀ l, π l = π l.unsent

namespace SameLink

variable {α : Type} {π : Link → α} {j : Nat} {s t : State}

theorem sent (h : SameLink π j s t) (hπ : Unsent π) (k : Nat) {x : Link} (hx : x.unsent = (t.link k).unsent) :
    SameLink π j s (t.setLink k x) := by
  have hst : x.unsent.st = (t.link k).unsent.st := congrArg Link.st hx
  exact h.setLink k hst (by rw [hπ, hx, ← hπ])

theorem txFrame (h : SameLink π j s t) (hπ : Unsent π) (k c : Nat) (f : FrameOut) : SameLink π j s (t.txFrame k c f) := by
  simp only [State.txFrame]
  split_ifs
  · exact h
  · refine (h.sent hπ k (x := { t.link k with
      fcntTx := (t.link k).fcntTx + 1, replay := (t.link k).replay ++ [(t.link k).frame c f] }) rfl).congr rfl
  · exact h.sent hπ k rfl

theorem noRoute (h : SameLink π j s t) (hπ : Unsent π) (k : Nat) : SameLink π j s (t.noRoute k) := h.sent hπ k rfl

theorem releaseFrames (h : SameLink π j s t) (hπ : Unsent π) (k : Nat) : SameLink π j s (t.releaseFrames k) := by
  simp only [State.releaseFrames]
  split
  · exact h
  · exact (h.sent hπ k (x := { t.link k with txWait := [] }) rfl).foldl
      (f := fun u (e : Nat × FrameOut) => u.txFrame k e.1 e.2) (fun u hu e => hu.txFrame hπ k e.1 e.2) _

/-- A frame that is dropped only draws its NAK. -/
theorem dropFrame (h : SameLink π j s t) (hπ : Unsent π) (hnak : ∀ l : Link, π { l with nakSent := true } = π l) (k : Nat) :
    SameLink π j s (t.dropFrame k) := by
  simp only [State.dropFrame]
  split
  · exact h
  · exact (h.setLink k (x := { t.link k with nakSent := true }) rfl (hnak _)).txFrame hπ k 0 _

theorem forward (h : SameLink π j s t) (hπ : Unsent π) (k c : Nat) (f : FrameOut) : SameLink π j s (t.forward k c f) := by
  rw [State.forward]
  split
  · exact h.txFrame hπ k c f
  · exact h

end SameLink

/-! ### A frame that is taken -/

section
variable {s : State} {r : Rx}

/-- A link that has accepted a frame. -/
def Link.taken (l : Link) (r : Rx) : Link :=
  { l with
    fecCorr := sat32 (l.fecCorr + r.corrected), fcntRx := l.fcntRx + 1, nakSent := false
    replay := l.replay.filter fun t => !ackCovers r.ack t.fcnt }

theorem takeFrame_eq : s.takeFrame r = (s.modLink r.link (·.taken r)).releaseFrames r.link := rfl

/-- What a frame that is taken leaves of its link. -/
theorem takeFrame_unsent (h : (s.link r.link).st ≠ .down) :
    ((s.takeFrame r).link r.link).unsent = ((s.link r.link).taken r).unsent := by
  have hset : (s.modLink r.link (·.taken r)).link r.link = (s.link r.link).taken r := link_modLink s r.link (by exact h)
  have hsame := (SameLink.refl (π := Link.unsent) (j
    := r.link) (s.modLink r.link (·.taken r))).releaseFrames (fun _ => rfl) r.link
  rw [takeFrame_eq, hsame.part (by rw [hset]; exact h), hset]

/-- A part of the link that sending does not reach. -/
theorem takeFrame_part {α : Type} {π : Link → α} (hπ : Unsent π) (h : (s.link r.link).st ≠ .down) :
    π ((s.takeFrame r).link r.link) = π ((s.link r.link).taken r) := by
  rw [hπ, takeFrame_unsent h, ← hπ]

theorem takeFrame_st (h : (s.link r.link).st ≠ .down) : ((s.takeFrame r).link r.link).st = (s.link r.link).st :=
  takeFrame_part (π := Link.st) (fun _ => rfl) h

theorem takeFrame_replay (h : (s.link r.link).st ≠ .down) (hw : (s.link r.link).txWait = []) :
    ((s.takeFrame r).link r.link).replay = (s.link r.link).replay.filter fun f => !ackCovers r.ack f.fcnt := by
  have hset : (s.modLink r.link (·.taken r)).link r.link = (s.link r.link).taken r := link_modLink s r.link (by exact h)
  have hempty : ((s.modLink r.link (·.taken r)).link r.link).txWait = [] := by rw [hset]; exact hw
  have hsame : (s.modLink r.link (·.taken r)).releaseFrames r.link = s.modLink r.link (·.taken r) := by
    rw [State.releaseFrames, hempty]
    rfl
  rw [takeFrame_eq, hsame, hset]
  rfl

theorem takeFrame_keeps : Keeps [.links, .out] s (s.takeFrame r) := (Keeps.refl s).takeFrame

theorem takeFrame_dom : (s.takeFrame r).dom = s.dom := takeFrame_keeps.dom

end

end Sys2Proof.Machine
end

section
/-! Frames that a link receives (R362, R363, R364, R366, R373, R374). -/

namespace Sys2Proof.Machine

open Sys2Proof.Stated

section
variable {s : State} {r : Rx}

theorem receive_of_accepted (h : Accepted s r) (p e : Bool) (k : State → State) : s.receive r p e k = k (s.takeFrame r) :=
  receive_accepted s r p e k h.carried h.whole.1 h.whole.2 h.inOrder h.session

theorem accepted_up (h : Accepted s r) : (s.link r.link).st ≠ .down := up_of_carries h.carried

/-! ### Accepted frames -/

theorem exec_idle_accepted (h : Accepted s r) : exec (.idle r) s = .next (s.takeFrame r) := by
  show execIdle r s = _
  rw [execIdle, h.wf, need_true, receive_of_accepted h]
  rfl

/-- Where a block's opening goes. -/
def State.openHop (u : State) (r : Rx) (o : OpenBody) : State :=
  match u.hop r.link r.chan with
  | .onward l c => u.forward l c (.openFrame o)
  | .nowhere => u.noRoute r.link
  | _ => if blockRowLen o * o.rows = 0 then u.blockDone r.link r.chan o []
    else u.modLink r.link fun l => { l with opens := minsert l.opens r.chan { body := o } }

/-- Where a block's bytes go. -/
def State.dataHop (u : State) (r : Rx) (p : List Byte) : State :=
  match u.hop r.link r.chan with
  | .onward l c => u.forward l c (.data p)
  | .nowhere => u.noRoute r.link
  | _ => u.takeData r.link r.chan (slice p 0 256)

/-- Where landing acknowledgements go. -/
def State.lackHop (u : State) (r : Rx) (es : List LackEntry) : State :=
  match u.hop r.link r.chan with
  | .onward l c => u.forward l c (.lack es)
  | .nowhere => u.noRoute r.link
  | _ => es.foldl (fun u e => u.takeLack r.link r.chan e) u

theorem exec_openFrame_accepted (h : Accepted s r) (o : OpenBody) :
    exec (.openFrame r o) s = .next ((s.takeFrame r).openHop r o) := by
  show execOpenFrame r o s = _
  rw [execOpenFrame, h.wf, need_true, receive_of_accepted h]
  rfl

theorem exec_dataFrame_accepted (h : Accepted s r) (p : List Byte) :
    exec (.dataFrame r p) s = .next ((s.takeFrame r).dataHop r p) := by
  show execDataFrame r p s = _
  rw [execDataFrame, h.wf, need_true, receive_of_accepted h]
  rfl

theorem exec_lack_accepted (h : Accepted s r) (es : List LackEntry) :
    exec (.lack r es) s = .next ((s.takeFrame r).lackHop r es) := by
  show execLack r es s = _
  rw [execLack, h.wf, need_true, receive_of_accepted h]
  rfl

theorem forward_up {u : State} {l c : Nat} {f : FrameOut}
    (h : (u.link l).up = true) : u.forward l c f = u.txFrame l c f := if_pos h

/-- A frame of a block goes onward. -/
theorem exec_blockFrame_onward (h : Accepted s r) {o : OpenBody} {p : List Byte} {es : List LackEntry} {e : Instr × FrameOut}
    (he : e ∈ blockFrames r o p es) {l c : Nat} (hop : (s.takeFrame r).hop r.link r.chan = .onward l c)
    (hup : ((s.takeFrame r).link l).up = true) : exec e.1 s = .next ((s.takeFrame r).txFrame l c e.2) := by
  rw [blockFrames] at he
  rcases List.mem_cons.1 he with rfl | he
  · rw [exec_openFrame_accepted h, State.openHop, hop]
    exact congrArg _ (forward_up hup)
  rcases List.mem_cons.1 he with rfl | he
  · rw [exec_dataFrame_accepted h, State.dataHop, hop]
    exact congrArg _ (forward_up hup)
  · obtain rfl := List.mem_singleton.1 he
    rw [exec_lack_accepted h, State.lackHop, hop]
    exact congrArg _ (forward_up hup)

/-- A frame of a block goes nowhere. -/
theorem exec_blockFrame_nowhere (h : Accepted s r) {o : OpenBody} {p : List Byte} {es : List LackEntry} {e : Instr × FrameOut}
    (he : e ∈ blockFrames r o p es) (hop : (s.takeFrame r).hop r.link r.chan = .nowhere) :
    exec e.1 s = .next ((s.takeFrame r).noRoute r.link) := by
  rw [blockFrames] at he
  rcases List.mem_cons.1 he with rfl | he
  · rw [exec_openFrame_accepted h, State.openHop, hop]
  rcases List.mem_cons.1 he with rfl | he
  · rw [exec_dataFrame_accepted h, State.dataHop, hop]
  · obtain rfl := List.mem_singleton.1 he
    rw [exec_lack_accepted h, State.lackHop, hop]

/-- Bytes that come for a block open on their CHAN. -/
theorem takeData_of_open {u : State} {j c : Nat} {b : OpenBlk} (h : u.openOn j c = some b) (p : List Byte) :
    u.takeData j c p = if (b.got ++ p).length < blockRowLen b.body * b.body.rows
      then u.setLink j { u.link j with opens := minsert (u.link j).opens c { b with got := b.got ++ p } }
      else State.blockDone (u.setLink j { u.link j with opens := merase (u.link j).opens c }) j c b.body
        ((b.got ++ p).take (blockRowLen b.body * b.body.rows)) := by
  rw [State.takeData, h]
  rfl

theorem takeData_of_none {u : State} {j c : Nat} (h : u.openOn j c = none) (p : List Byte) : u.takeData j c p = u := by
  rw [State.takeData, h]

/-! ### Frames that are dropped -/

/-- The NAK of a link. -/
def Link.nak (l : Link) : TxFrame := l.frame 0 (.lctl 1 [l.fcntRx] [])

theorem receive_dropped {p e : Bool} {k : State → State} (hc : (s.link r.link).carries = true)
    (hbad : r.crcOk = false ∨ r.fcnt ≠ (s.link r.link).fcntRx) (hp : p = false) : s.receive r p e k = s.dropFrame r.link := by
  subst hp
  rw [State.receive]
  simp only [hc, Bool.not_true, Bool.false_and, Bool.false_eq_true, if_false]
  rcases hbad with h | h
  · rw [h]
    rfl
  · split
    · rfl
    · rw [if_pos (by simpa using h)]

theorem dropFrame_again {j : Nat} (h : (s.link j).nakSent = true) : s.dropFrame j = s := by
  simp only [State.dropFrame, h, if_true]

/-- The first frame that is dropped draws a NAK while the replay buffer has room. -/
theorem dropFrame_first {j : Nat} (hc : (s.link j).carries = true) (h : (s.link j).nakSent = false)
    (hroom : (s.link j).replay.length < 1024) :
    (s.dropFrame j).out = s.out ++ [.frame j (s.link j).nak (s.link j).nak.bytes] := by
  have hset : (s.setLink j { s.link j with nakSent := true }).link j = { s.link j with nakSent := true } :=
    link_setLink s j (by exact up_of_carries hc)
  have hopen : ({ s.link j with nakSent := true } : Link).open? = true := open_of_carries hc
  simp only [State.dropFrame, h, Bool.false_eq_true, if_false, State.txFrame, hset, hopen, Bool.not_true]
  rw [if_pos hroom]
  rfl

/-- After a frame is dropped its NAK has been sent. -/
theorem dropFrame_nakSent {j : Nat} (hup : (s.link j).st ≠ .down) : ((s.dropFrame j).link j).nakSent = true := by
  by_cases h : (s.link j).nakSent = true
  · rw [dropFrame_again h]
    exact h
  · have hset : (s.setLink j { s.link j with nakSent := true }).link j = { s.link j with nakSent := true } :=
      link_setLink s j (by exact hup)
    have hsame := (SameLink.refl (π := Link.nakSent) (j := j) (s.setLink j { s.link j with nakSent := true })).txFrame
      (fun _ => rfl) j 0 (.lctl 1 [(s.link j).fcntRx] [])
    have hdrop : s.dropFrame j = (s.setLink j { s.link j with nakSent := true }).txFrame j 0 (.lctl 1 [(s.link j).fcntRx] [])
      :=
      if_neg h
    rw [hdrop, hsame.part (by rw [hset]; exact hup), hset]

/-- A change of a link before a frame is dropped. -/
theorem dropFrame_after {α : Type} {π : Link → α} (hπ : Unsent π) (hnak : ∀ l : Link, π { l with nakSent := true } = π l)
    {j : Nat} {f : Link → Link} (hup : (f (s.link j)).st ≠ .down) :
    π (((s.modLink j f).dropFrame j).link j) = π (f (s.link j)) := by
  have hset := link_modLink s j hup
  have hsame := (SameLink.refl (π := π) (j := j) (s.modLink j f)).dropFrame hπ hnak j
  rw [hsame.part (by rw [hset]; exact hup), hset]

theorem receive_tagFailed {e : Bool} {k : State → State} (hc : (s.link r.link).carries = true)
    (hcrc : r.crcOk = true) (hsess : (s.link r.link).session = true) (htag : r.tagOk = false) :
    s.receive r true e k = s.tagFailed r.link := by
  simp only [State.receive, hc, hcrc, hsess, htag, Bool.not_true, Bool.false_eq_true, if_false, Bool.not_false, Bool.and_self,
    if_true]

theorem exec_idle_dropped (hwf : r.wf = true) (hc : (s.link r.link).carries = true)
    (hbad : r.crcOk = false ∨ r.fcnt ≠ (s.link r.link).fcntRx) : exec (.idle r) s = .next (s.dropFrame r.link) := by
  show execIdle r s = _
  rw [execIdle, hwf, need_true, receive_dropped hc hbad rfl]

theorem exec_nak (hwf : r.wf = true) (n : Nat) :
    exec (.nak r n) s = .next (s.receive r true true fun s => s.answerNak r.link n) := by
  show execNak r n s = _
  rw [execNak, hwf, need_true]

/-! ### Transmission errors -/

/-- A codeword that the decoder cannot correct. -/
def Link.undecoded (l : Link) : Link := { l with fecUncorr := bump l.fecUncorr, txErr := l.txErr + 1 }

/-- A frame of an unlisted TYPE. -/
def Link.mistyped (l : Link) : Link := { l with txErr := l.txErr + 1 }

theorem exec_codeword {j : Nat} (hj : j < 32) : exec (.uncorrectableCodeword (.codeword j)) s =
    .next (if (s.link j).carries then (s.modLink j (·.undecoded)).dropFrame j else s) := by
  have hwf : (BadFrame.codeword j).wf = true := decide_eq_true hj
  show execUncorrectableCodeword (.codeword j) s = _
  rw [execUncorrectableCodeword, hwf, need_true]
  rfl

theorem exec_badType {j : Nat} (hj : j < 32) : exec (.uncorrectableCodeword (.badType j)) s =
    .next (if (s.link j).carries then (s.modLink j (·.mistyped)).dropFrame j else s) := by
  have hwf : (BadFrame.badType j).wf = true := decide_eq_true hj
  show execUncorrectableCodeword (.badType j) s = _
  rw [execUncorrectableCodeword, hwf, need_true]
  rfl

theorem dropFrame_mod_nakSent {j : Nat} {f : Link → Link} (hup : (f (s.link j)).st ≠ .down) :
    (((s.modLink j f).dropFrame j).link j).nakSent = true :=
  dropFrame_nakSent (by rw [link_modLink s j hup]; exact hup)

theorem exec_badSubtype {head : Option (DHdr × List Byte)} {n : Nat} (hwf : (BadFrame.badSubtype r head n).wf = true) :
    exec (.uncorrectableCodeword (.badSubtype r head n)) s = .next (s.badSubtype r head n) := by
  show execUncorrectableCodeword (.badSubtype r head n) s = _
  rw [execUncorrectableCodeword, hwf, need_true]

theorem badSubtype_accepted (h : Accepted s r) {head : Option (DHdr × List Byte)}
    (hhere : ∀ e ∈ head, e.1.dst = s.dom.pkgAddr) (n : Nat) :
    s.badSubtype r head n = (s.takeFrame r).modLink r.link (·.mistyped) := by
  cases head with
  | none =>
    show s.receive r true true (fun u => u.modLink r.link (·.mistyped)) = _
    exact receive_of_accepted h true true _
  | some e =>
    obtain ⟨d, bs⟩ := e
    have hdst : d.dst = (s.takeFrame r).dom.pkgAddr := by rw [takeFrame_dom]; exact hhere _ rfl
    rw [State.badSubtype, receive_of_accepted h, hdst]
    simp only [bne_self_eq_false, Bool.false_eq_true, if_false]
    rfl

theorem mistyped_after (h : Accepted s r) :
    (((s.takeFrame r).modLink r.link (·.mistyped)).link r.link).txErr = (s.link r.link).txErr + 1 ∧
    (((s.takeFrame r).modLink r.link (·.mistyped)).link r.link).fcntRx = (s.link r.link).fcntRx + 1 := by
  have hset := link_modLink (s.takeFrame r) r.link (f
    := (·.mistyped)) (by exact (takeFrame_st (accepted_up h)).symm ▸ (accepted_up h))
  rw [hset]
  exact ⟨congrArg (· + 1) (takeFrame_part (π := Link.txErr) (fun _ => rfl) (accepted_up h)),
    takeFrame_part (π := Link.fcntRx) (fun _ => rfl) (accepted_up h)⟩

end

/-- Settles O41. -/
theorem linkFramesAreReceived : Obligations.LinkFramesAreReceived := by
  unfold Obligations.LinkFramesAreReceived
  refine ⟨fun s r h => ?_, fun s r hwf hc => ?_, fun s j hj => ⟨fun hc f hf => ?_, fun hc => ⟨?_, ?_⟩⟩, fun s r n h => ⟨?_,
    fun d bs hd => ?_⟩⟩
  · refine ⟨takeFrame_part (π := Link.fcntRx) (fun _ => rfl) (accepted_up h), exec_idle_accepted h,
    takeFrame_replay (accepted_up h),
      takeFrame_part (π := Link.nakSent) (fun _ => rfl) (accepted_up h),
      fun o p es e he => ⟨fun l c hop hup => exec_blockFrame_onward h he hop hup,
        fun hop => exec_blockFrame_nowhere h he hop⟩,
      fun o p es hop => ⟨fun hne => ?_, fun heq => ?_, ?_, fun hnone => ?_, fun b hb => ⟨fun hlt => ?_, fun hle => ?_⟩⟩⟩
    · rw [exec_openFrame_accepted h, State.openHop, hop]
      exact congrArg _ (if_neg hne)
    · rw [exec_openFrame_accepted h, State.openHop, hop]
      exact congrArg _ (if_pos heq)
    · rw [exec_lack_accepted h, State.lackHop, hop]
    · rw [exec_dataFrame_accepted h, State.dataHop, hop]
      exact congrArg _ (takeData_of_none hnone _)
    · rw [exec_dataFrame_accepted h, State.dataHop, hop]
      exact congrArg _ ((takeData_of_open hb _).trans (if_pos hlt))
    · rw [exec_dataFrame_accepted h, State.dataHop, hop]
      exact congrArg _ ((takeData_of_open hb _).trans (if_neg (Nat.not_lt.2 hle)))
  · refine ⟨fun hbad hnak => ?_, fun hbad hnak hroom => ⟨_, exec_idle_dropped hwf hc hbad, dropFrame_first hc hnak hroom,
      dropFrame_nakSent (up_of_carries hc)⟩, fun hcrc hsess htag n => ⟨_, exec_nak hwf n, ?_⟩⟩
    · rw [exec_idle_dropped hwf hc hbad, dropFrame_again hnak]
    · rw [receive_tagFailed hc hcrc hsess htag]
      exact ⟨dropFrame_after (π := Link.authFail) (fun _ => rfl) (fun _ => rfl) (by exact up_of_carries hc),
        dropFrame_after (π := Link.fcntRx) (fun _ => rfl) (fun _ => rfl) (by exact up_of_carries hc)⟩
  · rcases List.mem_cons.1 hf with rfl | hf
    · rw [exec_codeword hj, hc]
      rfl
    · obtain rfl := List.mem_singleton.1 hf
      rw [exec_badType hj, hc]
      rfl
  · have hup : ((s.link j).undecoded).st ≠ .down := up_of_carries hc
    refine ⟨_, exec_codeword hj, ?_⟩
    rw [hc]
    exact ⟨dropFrame_after (π := Link.fecUncorr) (fun _ => rfl) (fun _ => rfl) hup, dropFrame_mod_nakSent hup,
      dropFrame_after (π := Link.txErr) (fun _ => rfl) (fun _ => rfl) hup⟩
  · have hup : ((s.link j).mistyped).st ≠ .down := up_of_carries hc
    refine ⟨_, exec_badType hj, ?_⟩
    rw [hc]
    exact ⟨dropFrame_after (π := Link.fecUncorr) (fun _ => rfl) (fun _ => rfl) hup, dropFrame_mod_nakSent hup,
      dropFrame_after (π := Link.txErr) (fun _ => rfl) (fun _ => rfl) hup⟩
  · refine ⟨_, exec_badSubtype h.wf, ?_⟩
    rw [badSubtype_accepted h fun e he => absurd he (Option.not_mem_none e)]
    exact mistyped_after h
  · refine ⟨_, exec_badSubtype h.wf, ?_⟩
    rw [badSubtype_accepted h fun e he => by obtain rfl := Option.some.inj he; exact hd]
    exact ⟨(mistyped_after h).1, takeFrame_dom⟩

end Sys2Proof.Machine
end

section
/-! The layer on messages (R361,
    R383): commands that only send frames and messages leave of each link all but what it has sent,
and of the domain all but the numbers of its messages. -/

namespace Sys2Proof.Machine

open Sys2Proof.Stated

/-- Every field but the links and the domain. -/
abbrev inwardFields : List Field :=
  [.pw, .tm, .sec, .jobs, .jobSeq, .runs, .slotStats, .arrs, .dies, .hubs, .stk, .mem, .hm, .trace, .hostMem, .free, .out]

/-- From s to t frames and messages have been sent, and nothing else has become of the links and of the domain. -/
structure Told (s t : State) : Prop where
  dom : SentFrom s t
  link : ∀ j, SameLink Link.unsent j s t

namespace Told

variable {s t u : State}

theorem refl (s : State) : Told s s := ⟨.refl s, fun _ => .refl s⟩

theorem trans (h : Told s t) (g : Told t u) : Told s u := ⟨h.dom.trans g.dom, fun j => (h.link j).trans (g.link j)⟩

/-- What follows leaves the links and the domain alone. -/
theorem keeps (h : Told s t) (hk : Keeps inwardFields t u) : Told s u := by
  have hdom : t.dom = { t.dom with mseqOut := t.dom.mseqOut } := rfl
  refine ⟨h.dom.trans ?_, fun j => (h.link j).keeps hk⟩
  rw [SentFrom, hk.dom]

theorem foldl (h : Told s t) {β : Type} {f : State → β → State} (hf : ∀ u, Told s u → ∀ b, Told s (f u b))
    (l : List β) : Told s (l.foldl f t) :=
  List.foldlRecOn l f (motive := fun u => Told s u) h fun u hu b _ => hf u hu b

theorem ite {p : Prop} [Decidable p] (h : Told s t) (g : Told s u) : Told s (if p then t else u) := by
  split
  · exact h
  · exact g

theorem txFrame (h : Told s t) (k c : Nat) (f : FrameOut) : Told s (t.txFrame k c f) := by
  refine h.trans ⟨?_, fun j => (SameLink.refl t).txFrame (fun _ => rfl) k c f⟩
  rw [SentFrom, txFrame_dom]

theorem noRoute (h : Told s t) (k : Nat) : Told s (t.noRoute k) :=
  h.trans ⟨rfl, fun j => (SameLink.refl t).noRoute (fun _ => rfl) k⟩

theorem forward (h : Told s t) (k c : Nat) (f : FrameOut) : Told s (t.forward k c f) := by
  rw [State.forward]
  exact (h.txFrame k c f).ite h

theorem txLctl (h : Told s t) (k n : Nat) (fs : List Nat) : Told s (t.txLctl k n fs) := by
  rw [State.txLctl]
  exact (h.txFrame ..).ite h

theorem sendDctl (h : Told s t) (d n : Nat) (fs : List Nat) : Told s (t.sendDctl d n fs) := by
  refine ⟨h.dom.trans (sendDctl_sent ..), fun j => (h.link j).trans ?_⟩
  have hdom (m : SMap Nat) : SameLink Link.unsent j t { t with dom := { t.dom with mseqOut := m } }
    := (SameLink.refl t).congr rfl
  simp only [State.sendDctl]
  split
  · split
    · exact (hdom _).txFrame (fun _ => rfl) ..
    · exact (hdom _).noRoute (fun _ => rfl) _
  · exact (hdom _).noRoute (fun _ => rfl) _

theorem forwardDctl (h : Told s t) (j : Nat) (d : DHdr) (n : Nat) (fs : List Nat) : Told s (t.forwardDctl j d n fs) := by
  rw [State.forwardDctl]
  split
  · exact (h.txFrame ..).ite (h.noRoute _)
  · exact h.noRoute _

theorem sendMembers (h : Told s t) (n : Nat) (fs : List Nat) : Told s (t.sendMembers n fs) :=
  h.foldl (fun _ hu _ => hu.sendDctl ..) _

theorem tellAbandon (h : Told s t) (j : Job) (inc cause : Nat) : Told s (t.tellAbandon j inc cause) := by
  rw [State.tellAbandon]
  exact ((h.sendMembers ..).ite ((h.sendDctl ..).ite h)).ite h

theorem abandonJob (h : Told s t) (i : Nat) (counted : Bool) (tag kind cause : Nat) :
    Told s (t.abandonJob i counted tag kind cause) := by
  simp only [State.abandonJob]
  split
  · exact h
  · refine ite (ite ?_ ?_) h
    · exact (h.tellAbandon ..).keeps (Keeps.refl _).countedReturn
    · exact (h.tellAbandon ..).keeps (Keeps.refl _).returnJob

theorem abandonRun (h : Told s t) (r : SlotRun) (named : Option Nat) (tag kind cause : Nat) :
    Told s (t.abandonRun r named tag kind cause) := by
  refine h.foldl (fun u hu p => ?_) _
  split
  · exact (hu.abandonJob ..).ite hu
  · exact hu

theorem endNamed (h : Told s t) (pos : Option (Nat × Nat)) (inc kind : Nat) (ends : Option (Nat × Nat)) :
    Told s (t.endNamed pos inc kind ends) := by
  unfold State.endNamed
  split
  · split
    · exact ((h.tellAbandon ..).keeps (Keeps.refl _).finishJob.modJob).ite h
    · exact h
  · exact h

/-- A fault tells the domain what it ends, and sends nothing else. -/
theorem raiseFault (h : Told s t) (w : FaultAt) (f : Flt) (ends : Option (Nat × Nat)) : Told s (t.raiseFault w f ends) := by
  unfold State.raiseFault
  extract_lets b r pos s1 invalid rec' s2 s3 s4 s5
  have h1 : Told s s1 := h.keeps (Keeps.refl _).modArr
  have h5 : Told s s5 := h1.keeps (Keeps.refl _).modArr.logBody.modDie.trace?
  clear_value r
  split
  · exact h1
  split
  · exact h5
  · exact ((h5.endNamed ..).abandonRun ..).keeps (Keeps.refl _).modRun

theorem dmaFault (h : Told s t) (a : ArrId) (bpos : Option Nat) (f : Flt) (ends : Option (Nat × Nat)) :
    Told s (t.dmaFault a bpos f ends) := h.raiseFault ..

theorem descEnd (h : Told s t) (a : ArrId) (dseq : Nat) : Told s (t.descEnd a dseq) := by
  simp only [State.descEnd]
  split
  · exact h
  · refine ite h (ite ?_ (ite ?_ ?_))
    · exact h.keeps (Keeps.refl _).modDie.anchorInputs
    · exact (h.keeps (Keeps.refl _).modDie.anchorInputs).raiseFault ..
    · exact h.keeps (Keeps.refl _).modDie.anchorInputs.modArr

theorem endBlock (h : Told s t) (a : ArrId) (dseq i : Nat) : Told s (t.endBlock a dseq i) :=
  (h.keeps (Keeps.refl _).modDesc).descEnd ..

theorem blockFail (h : Told s t) (a : ArrId) (dseq i : Nat) (f : Flt) (ends : Option (Nat × Nat)) :
    Told s (t.blockFail a dseq i f ends) := (h.endBlock ..).dmaFault ..

theorem blockLanded (h : Told s t) (a : ArrId) (dseq i flags : Nat) : Told s (t.blockLanded a dseq i flags) :=
  (h.keeps (Keeps.refl _).modArr.modDesc).descEnd ..

theorem lackBlock (h : Told s t) (a : ArrId) (b : Block) (e : LackEntry) : Told s (t.lackBlock a b e) := by
  rw [State.lackBlock]
  split
  · exact h.blockLanded ..
  · exact (h.blockLanded ..).dmaFault ..
  · exact h.blockFail ..

theorem takeLack (h : Told s t) (j c : Nat) (e : LackEntry) : Told s (t.takeLack j c e) := by
  simp only [State.takeLack]
  split
  · split
    · exact (h.keeps (Keeps.refl _).modArr).dmaFault ..
    · exact h.keeps (Keeps.refl _).modArr
  · split
    · exact h
    · exact (h.lackBlock ..).ite h

theorem raiseInc (h : Told s t) (j : Job) (inc : Nat) : Told s (t.raiseInc j inc) := by
  rw [State.raiseInc]
  exact ((h.abandonJob ..).keeps (Keeps.refl _).modJob).ite h

theorem dropStale (h : Told s t) (a : ArrId) (v : Arrival) : Told s (t.dropStale a v) := by
  simp only [State.dropStale]
  split
  · exact (h.keeps (Keeps.refl _).modArr).endBlock ..
  · exact h.keeps (Keeps.refl _).modArr

theorem blockIn (h : Told s t) (j c : Nat) (o : OpenBody) (got : List Byte) : Told s (t.blockIn j c o got) := by
  simp only [State.blockIn]
  split
  · refine ite h ?_
    split
    · exact h.keeps (Keeps.refl _).queueArrival
    · exact h.dropStale ..
    · exact (h.raiseInc ..).keeps (Keeps.refl _).queueArrival
  · exact h

theorem valuesBack (h : Told s t) (j c : Nat) (o : OpenBody) (got : List Byte) : Told s (t.valuesBack j c o got) := by
  simp only [State.valuesBack]
  split
  · split
    · exact ((h.keeps (Keeps.refl _).plainWrite).txFrame ..).ite h
    · exact h
  · exact h

theorem blockDone (h : Told s t) (j c : Nat) (o : OpenBody) (got : List Byte) : Told s (t.blockDone j c o got) := by
  rw [State.blockDone]
  split
  · exact h.valuesBack ..
  · exact h.blockIn ..

/-- The notice of a path is sent on, and nothing else. -/
theorem pathNotice (h : Told s t) (j c n : Nat) (rest : List Nat) : Told s (t.pathNotice j c n rest) := by
  rw [State.pathNotice]
  split
  · exact h
  · exact h.foldl (fun _ hu _ => hu.txLctl ..) _

/-- A part of a link that sending does not reach. -/
theorem part (h : Told s t) {α : Type} {π : Link → α} (hπ : Unsent π) {j : Nat} (hs : (s.link j).st ≠ .down) :
    π (t.link j) = π (s.link j) := by rw [hπ, (h.link j).part hs, ← hπ]

end Told

/-! ### Paths -/

section
variable {s : State}

/-- The paths of a domain that are down, and those that return. -/
def State.pathLost (s : State) (j c : Nat) : State :=
  { s with dom := { s.dom with
    down := if s.dom.down.contains (j, c) then s.dom.down else s.dom.down ++ [(j, c)]
    upAt := s.dom.upAt.filter fun e => !(e.1 == j && e.2.1 == c) } }

/-- A path that is lost faults its blocks, which only sends. -/
theorem losePath_told (j c : Nat) : Told (s.pathLost j c) (s.losePath j c) :=
  (Told.refl (s.pathLost j c)).foldl (fun _ hu _ => hu.blockFail ..) _

/-- The loss of a path reaches of a link only what it has sent. -/
theorem SameLink.losePath {α : Type} {π : Link → α} {j : Nat} {t : State} (h : SameLink π j s t) (hπ : Unsent π) (k c : Nat) :
    SameLink π j s (t.losePath k c) :=
  (h.congr (u := t.pathLost k c) rfl).trans (((losePath_told k c).link j).weaken fun l m hlm => by rw [hπ l, hπ m, hlm])

theorem SameLink.pathsDown {α : Type} {π : Link → α} {j : Nat} {t : State}
    (h : SameLink π j s t) (hπ : Unsent π) (k n : Nat) :
    SameLink π j s (t.pathsDown k n) := by
  have hnotice (u : State) (hu : SameLink π j s u) (f : FwdEnt) : SameLink π j s (u.txLctl f.inLink 6 [f.inChan, n]) :=
    hu.trans ((((Told.refl u).txLctl ..).link j).weaken fun l m hlm => by rw [hπ l, hπ m, hlm])
  exact (h.foldl hnotice _).foldl (fun _ hu _ => hu.losePath hπ k _) _

/-- A link as its failure leaves it. -/
def Link.failed (l : Link) (reason : Nat) : Link :=
  { l.quiet with st := .failed, width := 0, reason := reason, step := 0, retrain := if l.retrain = 1 then 3 else l.retrain }

/-- What the failure of a link does besides (R372) reaches of the link only what it has sent. -/
theorem linkFail_part {α : Type} {π : Link → α} (hπ : Unsent π) (j reason : Nat) :
    π ((s.linkFail j reason).link j) = π ((s.link j).failed reason) := by
  have hst : ((s.link j).failed reason).st ≠ .down := nofun
  have hset : (s.setLink j ((s.link j).failed reason)).link j = (s.link j).failed reason := link_setLink s j hst
  have habort : SameLink π j (s.setLink j ((s.link j).failed reason)) ((s.setLink j ((s.link j).failed reason)).abortLink j)
    :=
    (SameLink.refl _).keeps (F := [.sec]) (Keeps.refl _).abortLink
  have hsame : SameLink π j (s.setLink j ((s.link j).failed reason)) (s.linkFail j reason) :=
    (habort.pathsDown hπ j reason).keeps (F := [.pw, .hm]) (Keeps.refl _).log.replaceCheck
  rw [hsame.part (by rw [hset]; exact hst), hset]

theorem linkFail_failed (j reason : Nat) : FailedFor j reason (s.linkFail j reason) :=
  ⟨linkFail_part (π := Link.st) (fun _ => rfl) j reason, linkFail_part (π := Link.reason) (fun _ => rfl) j reason,
    linkFail_part (π := Link.session) (fun _ => rfl) j reason, linkFail_part (π := Link.width) (fun _ => rfl) j reason⟩

end

end Sys2Proof.Machine
end

section
/-! What link-control frames do (R364, R367, R368, R375, R376, R447). -/

namespace Sys2Proof.Machine

open Sys2Proof.Stated

section
variable {s : State} {r : Rx}

/-! ### Accepted frames count -/

theorem Told.forwardHop {u t : State} (h : Told u t) (hop : Hop) (j : Nat) (f : FrameOut) {v : State} (hv : Told u v) :
    Told u (match hop with
      | .onward l c => t.forward l c f
      | .nowhere => t.noRoute j
      | _ => v) := by
  cases hop with
  | onward l c => exact h.forward ..
  | nowhere => exact h.noRoute _
  | here => exact hv

/-- FCNT of the last frame received is no part that sending reaches. -/
theorem fcntRx_of_told {u t : State} (h : Told u t) {j : Nat} (hup : (u.link j).st ≠ .down) :
    (t.link j).fcntRx = (u.link j).fcntRx := h.part (π := Link.fcntRx) (fun _ => rfl) hup

/-- A frame that only opens or fills a block has of its link the part that sending does not reach, but for the open blocks. -/
def Link.unblocked (l : Link) : Link := { l.unsent with opens := [] }

theorem SameLink.of_told {α : Type} {π : Link → α} (hπ : Unsent π) {u t : State}
    (h : Told u t) (j : Nat) : SameLink π j u t :=
  (h.link j).weaken fun l m hlm => by rw [hπ l, hπ m, hlm]

theorem openHop_unblocked (u : State) (r : Rx) (o : OpenBody) (j : Nat) : SameLink Link.unblocked j u (u.openHop r o) := by
  rw [State.openHop]
  split
  · exact .of_told (fun _ => rfl) ((Told.refl u).forward ..) j
  · exact .of_told (fun _ => rfl) ((Told.refl u).noRoute _) j
  · exact .ite (.of_told (fun _ => rfl) ((Told.refl u).blockDone ..) j) ((SameLink.refl u).modLink _
    (fun _ => rfl) fun _ => rfl)

theorem dataHop_unblocked (u : State) (r : Rx) (p : List Byte) (j : Nat) : SameLink Link.unblocked j u (u.dataHop r p) := by
  rw [State.dataHop]
  split
  · exact .of_told (fun _ => rfl) ((Told.refl u).forward ..) j
  · exact .of_told (fun _ => rfl) ((Told.refl u).noRoute _) j
  · simp only [State.takeData]
    split
    · exact .refl u
    · refine .ite ((SameLink.refl u).modLink _ (fun _ => rfl) fun _ => rfl) ?_
      refine SameLink.trans ((SameLink.refl u).modLink r.link (f := fun l => { l with opens := merase l.opens r.chan })
        (fun _ => rfl) fun _ => rfl) ?_
      exact .of_told (fun _ => rfl) ((Told.refl _).blockDone ..) j

theorem lackHop_told (u : State) (r : Rx) (es : List LackEntry) : Told u (u.lackHop r es) := by
  rw [State.lackHop]
  split
  · exact (Told.refl u).forward ..
  · exact (Told.refl u).noRoute _
  · exact (Told.refl u).foldl (fun _ hu _ => hu.takeLack ..) es

theorem takeFrame_up (h : Accepted s r) : ((s.takeFrame r).link r.link).st ≠ .down :=
  (takeFrame_st (accepted_up h)).symm ▸ accepted_up h

theorem takeFrame_fcntRx (h : Accepted s r) : ((s.takeFrame r).link r.link).fcntRx = (s.link r.link).fcntRx + 1 :=
  takeFrame_part (π := Link.fcntRx) (fun _ => rfl) (accepted_up h)

/-- A part of the taken link that what follows leaves alone. -/
theorem fcntRx_after (h : Accepted s r) {t : State} (hs : SameLink Link.unblocked r.link (s.takeFrame r) t) :
    (t.link r.link).fcntRx = (s.link r.link).fcntRx + 1 := by
  have hpart : (t.link r.link).unblocked.fcntRx = ((s.takeFrame r).link r.link).unblocked.fcntRx :=
    congrArg Link.fcntRx (hs.part (takeFrame_up h))
  exact hpart.trans (takeFrame_fcntRx h)

theorem exec_blockFrame_counts (h : Accepted s r) {o : OpenBody} {p : List Byte} {es : List LackEntry} {c : Instr}
    (hc : c ∈ [Instr.idle r, .openFrame r o, .dataFrame r p, .lack r es]) :
    Runs c s fun t => (t.link r.link).fcntRx = (s.link r.link).fcntRx + 1 := by
  rcases List.mem_cons.1 hc with rfl | hc
  · exact ⟨_, exec_idle_accepted h, takeFrame_fcntRx h⟩
  rcases List.mem_cons.1 hc with rfl | hc
  · exact ⟨_, exec_openFrame_accepted h o, fcntRx_after h (openHop_unblocked ..)⟩
  rcases List.mem_cons.1 hc with rfl | hc
  · exact ⟨_, exec_dataFrame_accepted h p, fcntRx_after h (dataHop_unblocked ..)⟩
  · obtain rfl := List.mem_singleton.1 hc
    exact ⟨_, exec_lack_accepted h es, fcntRx_after h (.of_told (fun _ => rfl) (lackHop_told ..) _)⟩

/-! ### NAK -/

/-- A held frame that is sent again. -/
def TxFrame.again (n : Nat) (x : TxFrame) : TxFrame := if n ≤ x.fcnt then { x with resent := x.resent + 1 } else x

theorem send_foldl_out {β : Type} (f : β → Out) (l : List β) (u : State) :
    (l.foldl (fun s x => s.send (f x)) u).out = u.out ++ l.map f ∧ (l.foldl (fun s x => s.send (f x)) u).links = u.links := by
  induction l generalizing u with
  | nil => exact ⟨(List.append_nil _).symm, rfl⟩
  | cons x l ih =>
    obtain ⟨hout, hlinks⟩ := ih (u.send (f x))
    exact ⟨hout.trans (List.append_assoc ..), hlinks⟩

/-- The held frames are sent again, and counted. -/
def State.resent (u : State) (j n : Nat) : State :=
  (((u.link j).replay.map (TxFrame.again n)).filter fun t => decide (n ≤ t.fcnt)).foldl (fun s t => s.send
    (.frame j t t.bytes))
    (u.setLink j { u.link j with replay := (u.link j).replay.map (TxFrame.again n), retrans := bump (u.link j).retrans })

theorem answerNak_eq (u : State) (j n : Nat) : u.answerNak j n =
    if ((u.link j).replay.map (TxFrame.again n)).any (fun t => decide (7 ≤ t.resent)) then (u.resent j n).linkFail j 3
    else u.resent j n := rfl

theorem again_fcnt (n : Nat) (x : TxFrame) : (x.again n).fcnt = x.fcnt := by
  rw [TxFrame.again]
  split <;> rfl

/-- The frames that are sent again. -/
theorem filter_again (n : Nat) (l : List TxFrame) : ((l.map (TxFrame.again n)).filter fun t => decide (n ≤ t.fcnt)) =
    (l.filter fun x => decide (n ≤ x.fcnt)).map fun x => { x with resent := x.resent + 1 } := by
  rw [List.filter_map]
  have hsame : ((fun t : TxFrame => decide (n ≤ t.fcnt)) ∘ TxFrame.again n) = fun x => decide (n ≤ x.fcnt) := by
    funext x
    exact congrArg (fun k => decide (n ≤ k)) (again_fcnt n x)
  rw [hsame]
  refine List.map_congr_left fun x hx => if_pos ?_
  exact of_decide_eq_true (List.mem_filter.1 hx).2

theorem resent_few {n : Nat} {l : List TxFrame} (h : ∀ x ∈ l, x.resent < 6) :
    (l.map (TxFrame.again n)).any (fun t => decide (7 ≤ t.resent)) = false := by
  rw [List.any_eq_false]
  intro t ht
  obtain ⟨x, hx, rfl⟩ := List.mem_map.1 ht
  have hlt := h x hx
  rw [TxFrame.again]
  split
  · simp only [decide_eq_true_eq]
    omega
  · simp only [decide_eq_true_eq]
    omega

theorem resent_many {n : Nat} {l : List TxFrame} (h : ∃ x ∈ l, n ≤ x.fcnt ∧ 6 ≤ x.resent) :
    (l.map (TxFrame.again n)).any (fun t => decide (7 ≤ t.resent)) = true := by
  obtain ⟨x, hx, hle, hsix⟩ := h
  refine List.any_eq_true.2 ⟨x.again n, List.mem_map_of_mem hx, ?_⟩
  rw [TxFrame.again, if_pos hle]
  exact decide_eq_true (Nat.succ_le_succ hsix)

theorem exec_nak_accepted (h : Accepted s r) (n : Nat) : exec (.nak r n) s = .next ((s.takeFrame r).answerNak r.link n) := by
  rw [exec_nak h.wf, receive_of_accepted h]

theorem resent_spec {u : State} {j : Nat} (hup : (u.link j).st ≠ .down) (n : Nat) :
    ((u.resent j n).link j).retrans = bump (u.link j).retrans ∧
    (u.resent j n).out = u.out ++ ((u.link j).replay.filter fun x => decide (n ≤ x.fcnt)).map fun x =>
      .frame j { x with resent := x.resent + 1 } ({ x with resent := x.resent + 1 } : TxFrame).bytes := by
  obtain ⟨hout, hlinks⟩ := send_foldl_out (fun t : TxFrame => Out.frame j t t.bytes)
    (((u.link j).replay.map (TxFrame.again n)).filter fun t => decide (n ≤ t.fcnt))
    (u.setLink j { u.link j with replay := (u.link j).replay.map (TxFrame.again n), retrans := bump (u.link j).retrans })
  refine ⟨?_, hout.trans ?_⟩
  · have hset := link_setLink u j (x := { u.link j with
      replay := (u.link j).replay.map (TxFrame.again n), retrans := bump (u.link j).retrans }) hup
    exact (congrArg Link.retrans (State.link_congr hlinks j)).trans (congrArg Link.retrans hset)
  · rw [filter_again, List.map_map]
    rfl

/-! ### DELAY -/

theorem exec_delayFrame_accepted (h : Accepted s r) (a b c d : Nat) :
    exec (.delayFrame r a b c d) s = .next ((s.takeFrame r).measure r.link a b c d) := by
  show execDelayFrame r a b c d s = _
  rw [execDelayFrame, h.wf, need_true, receive_of_accepted h]

/-- A link that has measured its delay. -/
def Link.measured (l : Link) (a b c d : Nat) : Link :=
  { l with
    dlyTx := a, dlyRx := d, missed := 0, delay := ((((c : Int) - b) + ((d : Int) - a)) / 2).toNat
    offset := (((c : Int) - b) - ((d : Int) - a)) / 2 }

/-- A measured delay noted. -/
def State.measuredAt (u : State) (j a b c d : Nat) : State :=
  ((u.setLink j { u.link j with dlyTx := a, dlyRx := d, missed := 0 }).modLink j fun l =>
    { l with
      delay := ((((c : Int) - b) + ((d : Int) - a)) / 2).toNat, offset := (((c : Int) - b) - ((d : Int) - a)) / 2 }).noteSkew
    ((((c : Int) - b) - ((d : Int) - a)) / 2)

variable {u : State} {j : Nat}

theorem measuredAt_keeps (a b c d : Nat) : Keeps [.pw, .tm, .links, .hm] u (u.measuredAt j a b c d) :=
  (Keeps.refl u).setLink.modLink.noteSkew

theorem measuredAt_link (hup : (u.link j).st ≠ .down) (a b c d : Nat) :
    (u.measuredAt j a b c d).link j = (u.link j).measured a b c d := by
  have hset := link_setLink u j (x := { u.link j with dlyTx := a, dlyRx := d, missed := 0 }) hup
  rw [State.measuredAt, State.link_congr ((Keeps.refl (F := [.pw, .tm, .hm]) _).noteSkew).links,
    link_modLink _ _ (by rw [hset]; exact hup), hset]
  rfl

theorem linkEnt_congr {t : State}
    (h : t.route = u.route) (j : Nat) : t.linkEnt j = u.linkEnt j := by rw [State.linkEnt, h, State.linkEnt]

/-- A link's delay is more than its entry allows. -/
def State.late (u : State) (j : Nat) (m : Int) : Bool := match u.linkEnt j with
  | some e => decide ((e.maxDelay : Int) < m)
  | none => false

theorem measure_of_ne {a b c d : Nat} (hup : (u.link j).st ≠ .down) (hb : b ≠ 0) (htr : (u.link j).st ≠ .training) :
    u.measure j a b c d = if (u.measuredAt j a b c d).late j ((((c : Int) - b) + ((d : Int) - a)) / 2)
      then (u.measuredAt j a b c d).linkFail j 7 else u.measuredAt j a b c d := by
  have hset := link_setLink u j (x := { u.link j with dlyTx := a, dlyRx := d, missed := 0 }) hup
  have htrain : ((u.setLink j { u.link j with dlyTx := a, dlyRx := d, missed := 0 }).link j).st ≠ .training
    := by rw [hset]; exact htr
  unfold State.measure
  extract_lets s1 training a' b' m s2 late
  rw [if_neg hb]
  have hfalse : training = false := beq_false_of_ne htrain
  rw [hfalse]
  rfl

theorem measure_zero {a c d : Nat} (hup : (u.link j).st ≠ .down) (htr : (u.link j).st ≠ .training) :
    u.measure j a 0 c d = u.setLink j { u.link j with dlyTx := a, dlyRx := d, missed := 0 } := by
  have hset := link_setLink u j (x := { u.link j with dlyTx := a, dlyRx := d, missed := 0 }) hup
  have htrain : ((u.setLink j { u.link j with dlyTx := a, dlyRx := d, missed := 0 }).link j).st ≠ .training
    := by rw [hset]; exact htr
  unfold State.measure
  extract_lets s1 training a' b' m s2 late
  have hfalse : training = false := beq_false_of_ne htrain
  rw [if_pos rfl, hfalse]
  rfl

theorem late_measuredAt (a b c d : Nat) (m : Int) : (u.measuredAt j a b c d).late j m = u.late j m := by
  have hroute : (u.measuredAt j a b c d).route = u.route := by
    have hk := measuredAt_keeps (u := u) (j := j) a b c d
    rw [State.route, State.route, hk.plan]
  rw [State.late, linkEnt_congr hroute, State.late]

/-! ### Paths -/

theorem exec_pathDown_accepted (h : Accepted s r) (c n : Nat) : exec (.pathDown r c n) s =
    .next (if ((s.takeFrame r).pathNotice r.link c 6 [n]).ownPath r.link c
      then ((s.takeFrame r).pathNotice r.link c 6 [n]).losePath r.link c else (s.takeFrame r).pathNotice r.link c 6 [n]) := by
  show execPathDown r c n s = _
  rw [execPathDown, h.wf, need_true, receive_of_accepted h]

theorem exec_pathUp_accepted (h : Accepted s r) (c e : Nat) : exec (.pathUp r c e) s =
    .next (((s.takeFrame r).pathNotice r.link c 7 [e]).regainPath r.link c e) := by
  show execPathUp r c e s = _
  rw [execPathUp, h.wf, need_true, receive_of_accepted h]

theorem ownPath_congr {t : State} (h : t.route = u.route) (j c : Nat) : t.ownPath j c = u.ownPath j c := by
  rw [State.ownPath, h, State.ownPath]

theorem pathNotice_keeps (j c n : Nat) (rest : List Nat) : Keeps [.links, .out] u (u.pathNotice j c n rest) :=
  (Keeps.refl u).pathNotice

theorem pathNotice_route (j c n : Nat) (rest : List Nat) : (u.pathNotice j c n rest).route = u.route := by
  have hk := pathNotice_keeps (u := u) j c n rest
  rw [State.route, State.route, hk.plan]

/-- A path that is lost is down. -/
theorem losePath_down (j c : Nat) : (j, c) ∈ (u.losePath j c).dom.down := by
  have hsent := (losePath_told (s := u) j c).dom
  have hdown : (u.losePath j c).dom.down = (u.pathLost j c).dom.down := by rw [hsent]
  rw [hdown]
  show (j, c) ∈ if u.dom.down.contains (j, c) then u.dom.down else u.dom.down ++ [(j, c)]
  split
  · next h => exact List.contains_iff_mem.1 h
  · exact List.mem_append_right _ (List.mem_singleton_self _)

/-! ### REKEY -/

theorem exec_rekey_accepted (h : Accepted s r) (b : RekeyBody) :
    exec (.rekey r b) s = .next ((s.takeFrame r).takeRekey r.link b) := by
  show execRekey r b s = _
  rw [execRekey, h.wf, need_true, receive_of_accepted h]

theorem sigPush_links (op : SigOp) : (u.sigPush op).links = u.links := (Keeps.sigPush (F := [.sec]) (.refl u)).links

theorem takeRekey_asked {b : RekeyBody} (hup : (u.link j).st ≠ .down) (hb : b.answer = false) (hlo : u.linkLo j = false) :
    ((u.takeRekey j b).link j).rekey =
      some { key := 0, lohi := b.switchLoHi, hilo := b.switchHiLo, peerEpk := some b.epk } := by
  have hset := link_setLink u j (x := { u.link j with
    rekey := some { key := 0, lohi := b.switchLoHi, hilo := b.switchHiLo, peerEpk := some b.epk } }) hup
  simp only [State.takeRekey, hb, hlo, Bool.false_eq_true, if_false]
  split
  · rw [State.link_congr (sigPush_links _), hset]
  · rw [hset]

theorem takeRekey_answer {b : RekeyBody} {k : RekeyRun} (hb : b.answer = true) (hlo : u.linkLo j = true)
    (hk : (u.link j).rekey = some k) (hp : k.peerEpk = none) : u.takeRekey j b =
      if b.switchLoHi = k.lohi ∧ b.switchHiLo = k.hilo then
        u.setLink j { u.link j with rekey := some { k with peerEpk := some b.epk } }
      else u.setLink j { u.link j with rekey := none } := by
  simp only [State.takeRekey, hb, hlo, hk, hp, if_true, Option.isSome_none, Bool.not_true, Bool.or_self, Bool.false_eq_true,
    if_false]

/-! ### HELLO and KEX -/

theorem receiveKex_before {k : State → State} (hc : (s.link r.link).carries = true) (hcrc : r.crcOk = true)
    (hfc : r.fcnt = (s.link r.link).fcntRx)
      (hs : (s.link r.link).session = false) : s.receiveKex r k = k (s.takeFrame r) := by
  simp only [State.receiveKex, State.receive, hc, hcrc, hfc, hs, Bool.and_false, Bool.false_and, Bool.not_true,
    Bool.false_eq_true,
    if_false, bne_self_eq_false, Bool.true_or, if_true]

theorem receiveKex_after {k : State → State} (hc : (s.link r.link).carries = true) (hcrc : r.crcOk = true)
    (hs : (s.link r.link).session = true) : s.receiveKex r k = s.tagFailed r.link := by
  simp only [State.receiveKex, hc, hcrc, hs, Bool.and_self, if_true]

theorem exec_hello (hwf : r.wf = true) (h : HelloBody) :
    exec (.hello r h) s = .next (s.receiveKex r fun s => s.takeHello r.link h) := by
  show execHello r h s = _
  rw [execHello, hwf, need_true]

theorem exec_kex (hwf : r.wf = true) (n : Nat) (last : Bool) (bs : List Byte) :
    exec (.kex r n last bs) s = .next (s.receiveKex r fun s => s.takeKex r.link n last bs) := by
  show execKex r n last bs s = _
  rw [execKex, hwf, need_true]

/-- A link that has its peer's HELLO. -/
def Link.greeted (l : Link)
    (h : HelloBody) : Link := { l with helloIn := some h, peerPkg := h.pkg, peerLink := h.link, step := 5 }

theorem takeHello_ready {h : HelloBody} (hst : (u.link j).st = .training) (hstep : (u.link j).step = 4)
    (hready : u.kexReady = true) : (u.takeHello j h).link j = (u.link j).greeted h := by
  have hset : (u.setLink j ((u.link j).greeted h)).link j = (u.link j).greeted h :=
    link_setLink u j (by show (u.link j).st ≠ .down; rw [hst]; exact nofun)
  have hsteps : ((u.link j).st == .training && (u.link j).step == 4) = true := by rw [hst, hstep]; rfl
  have htake : u.takeHello j h = (u.setLink j ((u.link j).greeted h)).sigPush (.linkKex j) := by
    unfold State.takeHello
    extract_lets l v
    exact (if_pos hsteps).trans (if_pos hready)
  rw [htake, State.link_congr (sigPush_links _), hset]

/-- A link whose training step failed. -/
def Link.stepFailed (l : Link) : Link := { l.quiet with attempts := l.attempts + 1, step := 0 }

theorem trainFail_link (hst : (u.link j).st ≠ .down) (hatt : (u.link j).attempts < 9) :
    (u.trainFail j).link j = (u.link j).stepFailed := by
  have hset : (u.setLink j (u.link j).stepFailed).link j = (u.link j).stepFailed := link_setLink u j hst
  have htake : u.trainFail j = (u.setLink j (u.link j).stepFailed).abortLink j := if_neg (by omega)
  rw [htake, State.link_congr ((Keeps.refl (F := [.sec]) _).abortLink).links, hset]

theorem takeHello_unready {h : HelloBody} (hst : (u.link j).st = .training) (hstep : (u.link j).step = 4)
    (hready : u.kexReady = false) (hatt : (u.link j).attempts < 9) :
    ((u.takeHello j h).link j).attempts = (u.link j).attempts + 1 := by
  have hup : ((u.link j).greeted h).st ≠ .down := by show (u.link j).st ≠ .down; rw [hst]; exact nofun
  have hset : (u.setLink j ((u.link j).greeted h)).link j = (u.link j).greeted h := link_setLink u j hup
  have hsteps : ((u.link j).st == .training && (u.link j).step == 4) = true := by rw [hst, hstep]; rfl
  have htake : u.takeHello j h = (u.setLink j ((u.link j).greeted h)).trainFail j := by
    unfold State.takeHello
    extract_lets l v
    exact (if_pos hsteps).trans (if_neg (ne_true_of_eq_false hready))
  rw [htake, trainFail_link (by rw [hset]; exact hup) (by rw [hset]; exact hatt), hset]
  rfl

/-- A link that has taken a fragment of its peer's message. -/
def Link.fragment (l : Link) (n : Nat) (last : Bool) (bs : List Byte) : Link :=
  { l with kexIn := l.kexIn ++ bs, kexFrag := if last then 0xFFFF else n + 1 }

theorem takeKex_fragment {n : Nat} {last : Bool} {bs : List Byte} (hst : (u.link j).st = .training)
    (hstep : (u.link j).step = 5)
    (hn : (u.link j).kexFrag = n) : ((u.takeKex j n last bs).link j).kexIn = (u.link j).kexIn ++ bs := by
  have hset : (u.setLink j ((u.link j).fragment n last bs)).link j = (u.link j).fragment n last bs :=
    link_setLink u j (by show (u.link j).st ≠ .down; rw [hst]; exact nofun)
  have hsteps : ((u.link j).st == .training && (u.link j).step == 5 && (u.link j).kexFrag == n) = true := by
    rw [hst, hstep, hn]
    simp
  have htake : u.takeKex j n last bs = if last && (u.link j).ephKey != 0
      then (u.setLink j ((u.link j).fragment n last bs)).sigPush (.linkKex j)
      else u.setLink j ((u.link j).fragment n last bs) := if_pos hsteps
  rw [htake]
  split
  · rw [State.link_congr (sigPush_links _), hset]
    rfl
  · rw [hset]
    rfl

end

/-- Settles O42. -/
theorem linkControlActs : Obligations.LinkControlActs := by
  unfold Obligations.LinkControlActs
  refine ⟨fun s r h => ?_, fun s r b hwf hc hcrc hfc hs hst => ?_, fun s r b n last bs hwf hc hcrc hs => ?_⟩
  · have hup := takeFrame_up h
    refine ⟨fun o p es c hmem => exec_blockFrame_counts h hmem, fun n hfew => ⟨_, exec_nak_accepted h n, ?_⟩,
      fun n hmany => ⟨_, exec_nak_accepted h n, ?_⟩, fun a b c d hb htr => ⟨fun hle => ⟨_, exec_delayFrame_accepted h a b c d,
        ?_⟩,
        fun ⟨e, he, hlt⟩ => ⟨_, exec_delayFrame_accepted h a b c d, ?_⟩⟩, fun a c d htr => ?_,
      fun c n hown => ⟨_, exec_pathDown_accepted h c n, ?_⟩, fun c e hdown => ⟨_, exec_pathUp_accepted h c e, ?_⟩,
      fun b hb hlo => ⟨_, exec_rekey_accepted h b, takeRekey_asked hup hb hlo⟩, fun b k hb hlo hk hp =>
        ⟨_, exec_rekey_accepted h b, ?_⟩⟩
    · rw [answerNak_eq, resent_few hfew]
      exact resent_spec hup n
    · rw [answerNak_eq, resent_many hmany]
      exact linkFail_failed ..
    · have hlate : (s.takeFrame r).late r.link ((((c : Int) - b) + ((d : Int) - a)) / 2) = false := by
        rw [State.late]
        split
        · next e he => exact decide_eq_false (Int.not_lt.2 (hle e he))
        · rfl
      rw [measure_of_ne hup hb htr, late_measuredAt, hlate]
      dsimp only
      rw [if_neg Bool.false_ne_true, measuredAt_link hup]
      exact ⟨rfl, rfl, rfl⟩
    · have hlate : (s.takeFrame r).late r.link ((((c : Int) - b) + ((d : Int) - a)) / 2) = true := by
        rw [State.late, he]
        exact decide_eq_true hlt
      rw [measure_of_ne hup hb htr, late_measuredAt, hlate]
      exact linkFail_failed ..
    · rw [exec_delayFrame_accepted h, measure_zero hup htr]
    · rw [ownPath_congr (pathNotice_route ..), hown]
      exact losePath_down ..
    · have hdom : ((s.takeFrame r).pathNotice r.link c 7 [e]).dom = (s.takeFrame r).dom := (pathNotice_keeps ..).dom
      have hmem : ((s.takeFrame r).pathNotice r.link c 7 [e]).dom.down.contains (r.link, c) = true := by
        rw [hdom]
        exact List.contains_iff_mem.2 hdown
      rw [State.regainPath, hmem]
      exact List.mem_append_right _ (List.mem_singleton_self _)
    · rw [takeRekey_answer hb hlo hk hp]
      refine ⟨fun hsame => ?_, fun hother => ?_⟩
      · rw [if_pos hsame, link_setLink _ _ (by exact hup)]
      · rw [if_neg hother, link_setLink _ _ (by exact hup)]
  · have hdown := up_of_carries hc
    have hst' : ((s.takeFrame r).link r.link).st = .training := (takeFrame_st hdown).trans hst
    have hstep : ((s.takeFrame r).link r.link).step = (s.link r.link).step := takeFrame_part (π
      := Link.step) (fun _ => rfl) hdown
    have hready : (s.takeFrame r).kexReady = s.kexReady := by
      have hk := takeFrame_keeps (s := s) (r := r)
      have hsec : (s.takeFrame r).sec = s.sec := hk.same .sec (by decide)
      simp only [State.kexReady, State.entropyOk, State.identityOk, hsec]
    refine ⟨fun h4 hr => ⟨_, exec_hello hwf b, ?_⟩, fun h4 hr hatt => ⟨_, exec_hello hwf b, ?_⟩,
      fun n last bs h5 hn => ⟨_, exec_kex hwf n last bs, ?_⟩⟩
    · rw [receiveKex_before hc hcrc hfc hs]
      dsimp only
      rw [takeHello_ready hst' (hstep.trans h4) (hready.trans hr)]
      exact ⟨rfl, rfl, rfl, rfl⟩
    · have hsame : ((s.takeFrame r).link r.link).attempts = (s.link r.link).attempts :=
        takeFrame_part (π := Link.attempts) (fun _ => rfl) hdown
      rw [receiveKex_before hc hcrc hfc hs]
      dsimp only
      rw [takeHello_unready hst' (hstep.trans h4) (hready.trans hr) (hsame.symm ▸ hatt),
        hsame]
    · have hfrag : ((s.takeFrame r).link r.link).kexFrag = (s.link r.link).kexFrag :=
        takeFrame_part (π := Link.kexFrag) (fun _ => rfl) hdown
      have hin : ((s.takeFrame r).link r.link).kexIn = (s.link r.link).kexIn :=
        takeFrame_part (π := Link.kexIn) (fun _ => rfl) hdown
      rw [receiveKex_before hc hcrc hfc hs]
      dsimp only
      rw [takeKex_fragment hst' (hstep.trans h5) (hfrag.trans hn), hin]
  · exact ⟨(exec_hello hwf b).trans (congrArg _ (receiveKex_after hc hcrc hs)),
      (exec_kex hwf n last bs).trans (congrArg _ (receiveKex_after hc hcrc hs))⟩

end Sys2Proof.Machine
end

section
/-! Training, width, failure and rekeying of links (R350, R366, R368..R372, R504, R506). -/

namespace Sys2Proof.Machine

open Sys2Proof.Stated

section
variable {s : State} {j : Nat}

/-! ### Training from step 1 -/

/-- A link that trains from step 1: its session and its counts are gone. -/
def Link.retrained (l : Link) : Link :=
  { l.quiet with
    st := .training, width := 0, step := 1, flocked := true, fcntTx := 0, fcntRx := 0, keyTx := 0, keyRx := 0 }

/-- A link that waits for signal in step 1. -/
def Link.awaiting (l : Link) (r : TrainRef) : Link :=
  if metNotReady r then { l.retrained with nrWait := if l.nrWait = 0 then 50 else min 800 (2 * l.nrWait) } else l.retrained

/-- The lanes that equalisation marks leave with their pairs. -/
def Link.equalised (l : Link) (r : TrainRef) : Link :=
  { l.retrained with
    badLanes := ((r.weak.flatMap fun n => [n / 2 * 2, n / 2 * 2 + 1]) ++ l.badLanes).eraseDups, step := 3 }

/-- A link with codeword lock. -/
def Link.locked (l : Link) (r : TrainRef) : Link := { l.equalised r with step := 4 }

/-- The link's requests aborted, and the link as training finds it. -/
def State.trained (s : State) (j : Nat) (l : Link) : State := (s.abortLink j).setLink j l

theorem trained_link {l : Link} (h : l.st ≠ .down) : (s.trained j l).link j = l := link_setLink _ j h

/-- The HELLO of a link in step 4. -/
def State.greets (s : State) (j : Nat) : State := s.txFrame j 0 (.lctl 3 [] (helloBytes (s.ownHello j)))

theorem startTraining_eq (r : TrainRef) : s.startTraining r =
    if r.signal != 0xFF then s.trained r.link ((s.link r.link).awaiting r)
    else if ((s.link r.link).equalised r).lanes < 4 then
      (s.trained r.link ((s.link r.link).equalised r)).linkFail r.link 2
    else if !r.lock then (s.trained r.link ((s.link r.link).equalised r)).trainFail r.link
    else ((s.trained r.link ((s.link r.link).equalised r)).setLink r.link ((s.link r.link).locked r)).greets r.link := by
  rfl

theorem awaiting_st (l : Link) (r : TrainRef) : (l.awaiting r).st = .training ∧ (l.awaiting r).step = 1 ∧
    (l.awaiting r).nrWait = if metNotReady r then (if l.nrWait = 0 then 50 else min 800 (2 * l.nrWait)) else l.nrWait := by
  rw [Link.awaiting]
  split <;> exact ⟨rfl, rfl, rfl⟩

theorem metNotReady_iff (r : TrainRef) : metNotReady r = true ↔ r.signal = 3 ∧ r.prbs7 = true := by
  rw [metNotReady, Bool.and_eq_true, beq_iff_eq]

/-- Without signal on every lane the link waits in step 1. -/
theorem startTraining_waits {r : TrainRef} (h : r.signal ≠ 0xFF) :
    (s.startTraining r).link r.link = (s.link r.link).awaiting r := by
  rw [startTraining_eq, if_pos (bne_iff_ne.2 h)]
  exact trained_link (by rw [(awaiting_st ..).1]; exact nofun)

theorem startTraining_narrow {r : TrainRef} (hsig : r.signal = 0xFF)
    (h : ((s.link r.link).equalised r).lanes < 4) : FailedFor r.link 2 (s.startTraining r) := by
  rw [startTraining_eq, if_neg (by simp [hsig]), if_pos h]
  exact linkFail_failed ..

theorem startTraining_unlocked {r : TrainRef} (hsig : r.signal = 0xFF)
    (h : 4 ≤ ((s.link r.link).equalised r).lanes) (hlock : r.lock = false) (hatt : (s.link r.link).attempts < 9) :
    (s.startTraining r).link r.link = ((s.link r.link).equalised r).stepFailed := by
  have hlink : (s.trained r.link ((s.link r.link).equalised r)).link r.link = (s.link r.link).equalised r
    := trained_link nofun
  rw [startTraining_eq, if_neg (by simp [hsig]), if_neg (Nat.not_lt.2 h), hlock]
  refine (trainFail_link ?_ ?_).trans (congrArg _ hlink)
  · rw [hlink]
    exact nofun
  · rw [hlink]
    exact hatt

/-- A link in step 4: its HELLO is the first frame it sends. -/
def Trains (j : Nat) (t : State) : Prop :=
  (t.link j).st = .training ∧ (t.link j).step = 4 ∧ (t.link j).fcntTx = 1 ∧ (t.link j).fcntRx = 0 ∧ (t.link j).session = false

theorem startTraining_locked {r : TrainRef} (hsig : r.signal = 0xFF)
    (h : 4 ≤ ((s.link r.link).equalised r).lanes) (hlock : r.lock = true) : Trains r.link (s.startTraining r) ∧
    ∀ {α : Type} (π : Link → α), Unsent π → π ((s.startTraining r).link r.link) = π ((s.link r.link).locked r) := by
  let u : State := (s.trained r.link ((s.link r.link).equalised r)).setLink r.link ((s.link r.link).locked r)
  have hu : u.link r.link = (s.link r.link).locked r := link_setLink _ _ nofun
  have hstart : s.startTraining r = u.greets r.link := by
    rw [startTraining_eq, if_neg (by simp [hsig]), if_neg (Nat.not_lt.2 h), hlock]
    rfl
  have hsame {α : Type} (π : Link → α) (hπ : Unsent π) : π ((s.startTraining r).link r.link) = π ((s.link r.link).locked r)
    := by
    have htx := (SameLink.refl (π := π) (j := r.link) u).txFrame hπ r.link 0 (.lctl 3 [] (helloBytes (u.ownHello r.link)))
    rw [hstart, State.greets, htx.part (by rw [hu]; exact nofun), hu]
  refine ⟨⟨hsame Link.st fun _ => rfl, hsame Link.step fun _ => rfl, ?_, hsame Link.fcntRx fun _ => rfl,
    hsame Link.session fun _ => rfl⟩, fun π hπ => hsame π hπ⟩
  let f : FrameOut := .lctl 3 [] (helloBytes (u.ownHello r.link))
  let x : Link := { (s.link r.link).locked r with fcntTx := 1, replay := [((s.link r.link).locked r).frame 0 f] }
  have hsent : u.greets r.link = (u.setLink r.link x).send
      (.frame r.link (((s.link r.link).locked r).frame 0 f) (((s.link r.link).locked r).frame 0 f).bytes) := by
    rw [State.greets, State.txFrame, hu]
    rfl
  have hx : (u.setLink r.link x).link r.link = x := link_setLink u r.link nofun
  rw [hstart, hsent]
  exact congrArg Link.fcntTx hx

/-! ### Lanes -/

theorem lanes_congr {l m : Link} (h : ∀ n, l.badLanes.contains n = m.badLanes.contains n) : l.lanes = m.lanes := by
  simp only [Link.lanes, h]

/-- Equalisation that marks no lane drops none. -/
theorem equalised_lanes (l : Link) {r : TrainRef} (h : r.weak = []) : (l.equalised r).lanes = l.lanes := by
  refine lanes_congr fun n => ?_
  show (((r.weak.flatMap fun n => [n / 2 * 2, n / 2 * 2 + 1]) ++ l.badLanes).eraseDups).contains n = _
  rw [h]
  simp [List.contains_eq_mem]

/-- A pair that leaves takes its two lanes. -/
theorem lanes_without_pair {l m : Link} {p : Nat} (hp : p < 4) (hgood : l.badLanes.contains (2 * p) = false)
    (hgood' : l.badLanes.contains (2 * p + 1) = false) (hbad : m.badLanes.contains (2 * p) = true)
    (hrest : ∀ n, l.badLanes.contains n = true → m.badLanes.contains n = true) : m.lanes < l.lanes := by
  have hsub : ((List.range 4).filter fun q => !m.badLanes.contains (2 * q) && !m.badLanes.contains (2 * q + 1)).Sublist
      (((List.range 4).filter fun q => !l.badLanes.contains (2 * q) && !l.badLanes.contains (2 * q + 1)).erase p) := by
    rw [List.Nodup.erase_eq_filter (List.nodup_range.filter _), List.filter_filter]
    refine List.monotone_filter_right _ fun q hq => ?_
    have hstay {n : Nat} (hn : m.badLanes.contains n = false) : l.badLanes.contains n = false :=
      Bool.eq_false_of_not_eq_true fun h => absurd (hrest n h) (ne_true_of_eq_false hn)
    simp only [Bool.and_eq_true, Bool.not_eq_true', bne_iff_ne] at hq ⊢
    refine ⟨fun h => ?_, hstay hq.1, hstay hq.2⟩
    subst h
    exact absurd hbad (ne_true_of_eq_false hq.1)
  have hmem : p ∈ (List.range 4).filter fun q => !l.badLanes.contains (2 * q) && !l.badLanes.contains (2 * q + 1) := by
    refine List.mem_filter.2 ⟨List.mem_range.2 hp, ?_⟩
    rw [hgood, hgood']
    rfl
  have hlen := hsub.length_le
  have hpos := List.length_pos_of_mem hmem
  rw [List.length_erase_of_mem hmem] at hlen
  simp only [Link.lanes]
  omega

/-! ### The commands of training -/

theorem linkWf_of_lt (h : j < 32) : linkWf j = true := decide_eq_true h

/-- A link that starts. -/
def Link.begun (l : Link) : Link := { l with started := true, attempts := 0, nrWait := 0 }

theorem exec_linkStart {r : TrainRef} (hj : r.link < 32) : exec (.linkStart r) s =
    .next (if s.powered && s.pw.part != .safe && !s.pw.noRefclk && !(s.link r.link).started then
      (s.modLink r.link (·.begun)).startTraining r else s) := by
  show execLinkStart r s = _
  rw [execLinkStart, linkWf_of_lt hj, need_true]
  rfl

theorem begun_link : (s.modLink j (·.begun)).link j = (s.link j).begun :=
  mget_mset_self_of_ne ({} : Link) s.links j _ fun h => Bool.noConfusion (congrArg Link.started h)

theorem exec_linkStart_starts {r : TrainRef} (hj : r.link < 32) (hp : s.pw.part ≠ .off) (hsafe : s.pw.part ≠ .safe)
    (href : s.pw.noRefclk = false) (hst : (s.link r.link).started = false) : exec (.linkStart r) s =
    .next ((s.modLink r.link (·.begun)).startTraining r) := by
  rw [exec_linkStart hj, State.powered_of_ne hp, bne_iff_ne.2 hsafe, href, hst]
  rfl

theorem exec_linkStart_idle {r : TrainRef} (hj : r.link < 32)
    (h : s.pw.part = .safe ∨ s.pw.noRefclk = true ∨ (s.link r.link).started = true) : exec (.linkStart r) s = .next s := by
  rw [exec_linkStart hj]
  refine congrArg _ (if_neg ?_)
  rcases h with h | h | h <;> simp [h]

theorem exec_notReady {r : TrainRef} (hj : r.link < 32) (hp : s.pw.part ≠ .off) (hst : (s.link r.link).started = true)
    (htr : (s.link r.link).st = .training) : exec (.notReadyWaitExpiry r) s =
    .next (if (s.link r.link).step = 1 then s.startTraining r else s) := by
  show execNotReadyWaitExpiry r s = _
  rw [execNotReadyWaitExpiry, linkWf_of_lt hj, need_true]
  simp only [State.powered_of_ne hp, hst, htr, beq_self_eq_true, Bool.and_self, Bool.true_and, beq_iff_eq]

theorem exec_trainingRetry {r : TrainRef} (hj : r.link < 32) (hp : s.pw.part ≠ .off) (hst : (s.link r.link).started = true)
    (htr : (s.link r.link).st = .training) : exec (.trainingRetry r) s =
    .next (if ((if (s.link r.link).step ≤ 1 then s else s.trainFail r.link).link r.link).st == .training
      then (if (s.link r.link).step ≤ 1 then s else s.trainFail r.link).startTraining r
      else if (s.link r.link).step ≤ 1 then s else s.trainFail r.link) := by
  have hon : (s.powered && (s.link r.link).started && (s.link r.link).st == .training) = true := by
    rw [State.powered_of_ne hp, hst, htr]
    rfl
  show execTrainingRetry r s = _
  rw [execTrainingRetry, linkWf_of_lt hj, need_true]
  exact congrArg _ (if_pos hon)

/-- The tenth attempt that fails fails the link. -/
theorem trainFail_last (hst : (s.link j).st ≠ .down) (hatt : 9 ≤ (s.link j).attempts) : FailedFor j 1 (s.trainFail j) := by
  have htake : s.trainFail j = ((s.setLink j (s.link j).stepFailed).abortLink j).linkFail j 1 := if_pos (by omega)
  rw [htake]
  exact linkFail_failed ..

/-! ### Lanes, lock and tags -/

theorem exec_laneFailure {lane : Nat} (hj : j < 32) (hl : lane < 8) (hup : (s.link j).up = true) :
    exec (.laneFailure j lane) s = .next (s.dropLane j lane) := by
  show execLaneFailure j lane s = _
  rw [execLaneFailure, linkWf_of_lt hj, decide_eq_true hl, hup]
  rfl

/-- A link whose lane's pair is dropped. -/
def Link.without (l : Link) (lane : Nat) : Link :=
  { l with badLanes := (lane / 2 * 2 :: (lane / 2 * 2 + 1) :: l.badLanes).eraseDups }

theorem minLanes_congr {t : State} (h : t.route = s.route) : t.minLanes j = s.minLanes j := by
  rw [State.minLanes, linkEnt_congr h, State.minLanes]

theorem up_st {l : Link} (h : l.up = true) : l.st ≠ .down := up_of_carries (by rw [Link.carries, h, Bool.true_or])

/-- The pair of a lane leaves a link that is up: the link goes on narrower, or fails. -/
theorem dropLane_up (lane : Nat) (hup : (s.link j).up = true) : s.dropLane j lane =
    if ((s.link j).without lane).lanes < s.minLanes j then (s.setLink j ((s.link j).without lane)).linkFail j 2
    else ((s.setLink j ((s.link j).without lane)).setLink j
      { (s.link j).without lane with st := .degraded, width := ((s.link j).without lane).lanes }).log 0x31 0xFF j
        ((s.link j).without lane).lanes := by
  have hset : (s.setLink j ((s.link j).without lane)).link j = (s.link j).without lane := link_setLink s j (up_st hup)
  have hmin : (s.setLink j ((s.link j).without lane)).minLanes j = s.minLanes j := minLanes_congr rfl
  have hup' : ((s.link j).without lane).up = true := hup
  unfold State.dropLane
  extract_lets p v l
  have hv : v = s.setLink j ((s.link j).without lane) := rfl
  have hl : l = (s.link j).without lane := hset
  rw [hl, hv, hmin, if_pos hup']

theorem exec_flockLoss (hj : j < 32) : exec (.flockLoss j) s =
    .next (if s.plan.any (·.domain) && (s.linkEnt j).isSome && (s.link j).up
      then (s.setLink j { s.link j with flocked := false }).linkFail j 6
      else s.setLink j { s.link j with flocked := false }) := by
  have hset : (s.setLink j { s.link j with flocked := false }).link j = { s.link j with flocked := false } :=
    mget_mset_self_of_ne ({} : Link) s.links j _ fun h => Bool.noConfusion (congrArg Link.flocked h)
  have hup : ((s.setLink j { s.link j with flocked := false }).link j).up = (s.link j).up := by rw [hset]; rfl
  show execFlockLoss j s = _
  rw [execFlockLoss, linkWf_of_lt hj, need_true]
  show Host.Outcome.next (if s.plan.any (·.domain) && (s.linkEnt j).isSome &&
    ((s.setLink j { s.link j with flocked := false }).link j).up then _ else _) = _
  rw [hup]
  rfl

theorem exec_authFailLimit (hj : j < 32) (hc : (s.link j).carries = true)
    (h : 16 < ((s.link j).tagFails.filter fun t => decide (s.tm.now < t + 1000000000)).length) :
    exec (.authFailLimit j) s = .next (s.linkFail j 4) := by
  show execAuthFailLimit j s = _
  rw [execAuthFailLimit, linkWf_of_lt hj, need_true, decide_eq_true h, arises_true, hc]
  rfl

/-! ### Rekeying -/

/-- What the engine starts next still is at the engine. -/
theorem sigStart_pending {op : SigOp} (h : s.sigPending op = true) : s.sigStart.sigPending op = true := by
  rw [State.sigStart]
  split
  · exact h
  · next hfree =>
    rw [Bool.or_eq_true, not_or] at hfree
    have hidle : s.sec.sigBusy = none := Option.not_isSome_iff_eq_none.1 hfree.2
    rw [State.sigPending, hidle] at h
    obtain ⟨e, he, hop⟩ := List.any_eq_true.1 h
    split
    · rw [State.sigPending, hidle]
      exact h
    · next f hf =>
      rw [State.sigPending, Bool.or_eq_true]
      by_cases hfop : f.2 = op
      · left
        rw [beq_iff_eq]
        exact congrArg some hfop
      · right
        refine List.any_eq_true.2 ⟨e, (List.mem_erase_of_ne ?_).2 he, hop⟩
        rintro rfl
        exact hfop (beq_iff_eq.1 hop)

theorem sigPush_pending (op : SigOp) : (s.sigPush op).sigPending op = true := by
  refine sigStart_pending ?_
  rw [State.sigPending, Bool.or_eq_true]
  right
  rw [List.any_eq_true]
  exact ⟨_, List.mem_append_right _ (List.mem_singleton_self _), beq_self_eq_true op⟩

theorem exec_rekeyStart (hj : j < 32) (hdue : s.rekeyDue j = true) (hno : (s.link j).rekey = none)
    (hsig : s.sigPending (.linkRekey j) = false) :
    exec (.rekeyStart j) s = .next (if s.kexReady then s.sigPush (.linkRekey j) else s) := by
  show execRekeyStart j s = _
  rw [execRekeyStart, linkWf_of_lt hj, hdue, hno, hsig]
  rfl

theorem exec_rekeyRetry (hj : j < 32) (h : s.rekeyDue j = true ∨ (s.link j).rekey.isSome = true) : exec (.rekeyRetry j) s =
    .next (if ((s.modLink j fun l => { l with rekey := none }).abortLink j).rekeyDue j &&
        ((s.modLink j fun l => { l with rekey := none }).abortLink j).kexReady
      then ((s.modLink j fun l => { l with rekey := none }).abortLink j).sigPush (.linkRekey j)
      else (s.modLink j fun l => { l with rekey := none }).abortLink j) := by
  have hor : (s.rekeyDue j || (s.link j).rekey.isSome) = true := by rw [Bool.or_eq_true]; exact h
  show execRekeyRetry j s = _
  rw [execRekeyRetry, linkWf_of_lt hj, need_true, hor, arises_true]

theorem link_setLink_of_rising (hr : Rising s.links) (x : Link) : (s.setLink j x).link j = x := mget_mset_self _ hr j x

/-- A direction that takes its new key. -/
def Link.rekeyed (l : Link) (tx : Bool) (at' : Nat) (keys : List (List Byte)) : Link :=
  if tx then { l with keyTx := at', keys := [keys.getD 0 [], l.keys.getD 1 []] }
  else { l with keyRx := at', keys := [l.keys.getD 0 [], keys.getD 1 []] }

/-- A rekey is over when both directions have their new key. -/
def Link.completed (l : Link) (fx fr : Nat) (th : List Byte) : Link :=
  if l.keyTx == fx && l.keyRx == fr then { l with rekey := none, th := th, rekeys := bump l.rekeys } else l

theorem exec_sessionKeySwitch {r : RekeyRun} {keys : List (List Byte)} {th : List Byte} {tx : Bool} (hj : j < 32)
    (hr : (s.link j).rekey = some r) (hk : s.rekeyKeys j = some (keys, th))
    (harise : (if tx then decide (s.switchAt j r tx ≤ (s.link j).fcntTx) && (s.link j).keyTx != s.switchAt j r tx
      else decide (s.switchAt j r tx ≤ (s.link j).fcntRx) && (s.link j).keyRx != s.switchAt j r tx) = true) :
    exec (.sessionKeySwitch j tx) s = .next (s.setLink j
      (((s.link j).rekeyed tx (s.switchAt j r tx) keys).completed (s.switchAt j r true) (s.switchAt j r false) th)) := by
  show execSessionKeySwitch j tx s = _
  rw [execSessionKeySwitch, linkWf_of_lt hj, need_true, hr, hk]
  exact (congrArg (arises · _ _) harise).trans (arises_true _ _)

theorem switchAt_tx (r : RekeyRun) : s.switchAt j r true = if s.linkLo j then r.lohi else r.hilo := by
  rw [State.switchAt]
  cases s.linkLo j <;> rfl

theorem switchAt_rx (r : RekeyRun) : s.switchAt j r false = if s.linkLo j then r.hilo else r.lohi := by
  rw [State.switchAt]
  cases s.linkLo j <;> rfl

theorem completed_same (l : Link) (fx fr : Nat) (th : List Byte) : (l.completed fx fr th).keyTx = l.keyTx ∧
    (l.completed fx fr th).keyRx = l.keyRx ∧ (l.completed fx fr th).keys = l.keys := by
  rw [Link.completed]
  split <;> exact ⟨rfl, rfl, rfl⟩

end

/-- Settles O43. -/
theorem linksTrainFailAndRekey : Obligations.LinksTrainFailAndRekey := by
  unfold Obligations.LinksTrainFailAndRekey
  refine ⟨fun s j hj hp => ⟨fun y hy h => ?_, fun hc f hf => ?_, fun hsafe href hst => ⟨fun hl => ?_, fun hl => ?_,
    fun y hy hsig => ?_⟩,
    fun hst htr => ⟨fun y hy hstep => ?_, fun y hy hsig hstep => ?_, fun hl => ⟨fun hstep => ⟨?_, fun hatt => ?_,
      fun n hn hl4 hg hg' => ?_⟩,
      fun hstep => ?_, fun hstep hatt => ?_, fun hstep hatt => ?_⟩⟩, fun b hsess hl hscnt => ?_⟩,
    fun s j lane hj hlane hup => ⟨fun hle => ?_, fun hlt => ?_⟩,
    fun s j hj => ⟨fun hd he hup => ?_, fun h => ?_, fun hc h => ?_, fun hdue hno hsig => ⟨fun hready => ?_,
      fun hready => ?_⟩,
      fun h hr => ?_, fun r keys th hr hk hrise => ⟨fun hle hne => ?_, fun hle hne => ?_⟩⟩⟩
  · subst hy
    exact exec_linkStart_idle hj h
  · have hup := up_of_carries hc
    rcases List.mem_cons.1 hf with rfl | hf
    · refine ⟨_, exec_codeword hj, ?_⟩
      rw [hc]
      exact dropFrame_after (π := Link.fcntRx) (f := (·.undecoded)) (fun _ => rfl) (fun _ => rfl) hup
    · obtain rfl := List.mem_singleton.1 hf
      refine ⟨_, exec_badType hj, ?_⟩
      rw [hc]
      exact dropFrame_after (π := Link.fcntRx) (f := (·.mistyped)) (fun _ => rfl) (fun _ => rfl) hup
  · refine ⟨_, exec_linkStart_starts (r := { link := j }) hj hp hsafe href hst, ?_⟩
    have hlink := begun_link (s := s) (j := j)
    obtain ⟨ht, hπ⟩ := startTraining_locked (s := s.modLink j (·.begun)) (r := { link := j }) rfl
      (by rw [equalised_lanes _ rfl, hlink]; exact hl) rfl
    refine ⟨ht, (hπ Link.started fun _ => rfl).trans ?_, (hπ Link.attempts fun _ => rfl).trans ?_⟩
    · rw [hlink]
      rfl
    · rw [hlink]
      rfl
  · refine ⟨_, exec_linkStart_starts (r := { link := j }) hj hp hsafe href hst, ?_⟩
    refine startTraining_narrow (r := { link := j }) rfl ?_
    rw [equalised_lanes _ rfl, begun_link]
    exact hl
  · subst hy
    refine ⟨_, exec_linkStart_starts hj hp hsafe href hst, ?_⟩
    beta_reduce
    rw [startTraining_waits hsig, begun_link]
    obtain ⟨hst', hstep, hwait⟩ := awaiting_st (s.link y.link).begun y
    refine ⟨hst', hstep, hwait.trans ?_⟩
    simp only [metNotReady_iff]
    rfl
  · subst hy
    rw [exec_notReady hj hp hst htr, if_neg hstep]
  · subst hy
    refine ⟨_, exec_notReady hj hp hst htr, ?_⟩
    rw [if_pos hstep]
    beta_reduce
    rw [startTraining_waits hsig]
    obtain ⟨-, hstep', hwait⟩ := awaiting_st (s.link y.link) y
    refine ⟨hstep', hwait.trans ?_⟩
    simp only [metNotReady_iff]
  · refine ⟨_, exec_notReady (r := { link := j }) hj hp hst htr, ?_⟩
    obtain ⟨ht, hπ⟩ := startTraining_locked (s := s) (r := { link := j }) rfl (by rw [equalised_lanes _ rfl]; exact hl) rfl
    rw [if_pos hstep]
    exact ⟨ht, hπ Link.nrWait fun _ => rfl⟩
  · refine ⟨_, exec_notReady (r := { link := j, lock := false }) hj hp hst htr, ?_⟩
    rw [if_pos hstep]
    have hlink := startTraining_unlocked (s := s) (r := { link := j, lock := false }) rfl
      (by rw [equalised_lanes _ rfl]; exact hl) rfl hatt
    dsimp only at hlink ⊢
    rw [hlink]
    exact ⟨rfl, rfl⟩
  · refine ⟨_, exec_notReady (r := { link := j, weak := [n] }) hj hp hst htr, ?_⟩
    rw [if_pos hstep]
    refine startTraining_narrow (r := { link := j, weak := [n] }) rfl ?_
    have hpair : n / 2 * 2 = 2 * (n / 2) := Nat.mul_comm ..
    refine Nat.lt_of_lt_of_eq (lanes_without_pair (l := s.link j) (p
      := n / 2) (by omega) (hpair ▸ hg) (hpair ▸ hg') ?_ fun k hk => ?_) hl4
    · show ((([n].flatMap fun n => [n / 2 * 2,
      n / 2 * 2 + 1]) ++ (s.link j).badLanes).eraseDups).contains (2 * (n / 2)) = true
      simp [List.contains_eq_mem, hpair]
    · show ((([n].flatMap fun n => [n / 2 * 2, n / 2 * 2 + 1]) ++ (s.link j).badLanes).eraseDups).contains k = true
      have hmem : k ∈ (s.link j).badLanes := List.contains_iff_mem.1 hk
      simp [List.contains_eq_mem, hmem]
  · refine ⟨_, exec_trainingRetry (r := { link := j }) hj hp hst htr, ?_⟩
    obtain ⟨ht, hπ⟩ := startTraining_locked (s := s) (r := { link := j }) rfl (by rw [equalised_lanes _ rfl]; exact hl) rfl
    simp only [if_pos hstep, htr, beq_self_eq_true, if_true]
    exact ⟨ht, hπ Link.attempts fun _ => rfl⟩
  · refine ⟨_, exec_trainingRetry (r := { link := j }) hj hp hst htr, ?_⟩
    have hfail := trainFail_link (u := s) (j := j) (by rw [htr]; exact nofun) hatt
    have htr' : ((s.trainFail j).link j).st = .training := by rw [hfail]; exact htr
    obtain ⟨ht, hπ⟩ := startTraining_locked (s := s.trainFail j) (r := { link := j }) rfl
      (by rw [equalised_lanes _ rfl, hfail]; exact hl) rfl
    simp only [if_neg (Nat.not_le.2 hstep), htr', beq_self_eq_true, if_true]
    refine ⟨ht, (hπ Link.attempts fun _ => rfl).trans ?_⟩
    show ((s.trainFail j).link j).attempts = _
    rw [hfail]
    rfl
  · refine ⟨_, exec_trainingRetry (r := { link := j }) hj hp hst htr, ?_⟩
    have hfail := trainFail_last (s := s) (j := j) (by rw [htr]; exact nofun) hatt
    simp only [if_neg (Nat.not_le.2 hstep), hfail.1]
    exact hfail
  · have hlink := linkFail_part (s := s) (π := Link.badLanes) (fun _ => rfl) j 5
    obtain ⟨ht, -⟩ := startTraining_locked (s := s.linkFail j 5) (r := { link := j }) rfl
      (by rw [equalised_lanes _ rfl, lanes_congr fun n => congrArg (List.contains · n) hlink]; exact hl) rfl
    refine ⟨(s.linkFail j 5).startTraining { link := j }, ?_, ht⟩
    have harise : ((s.link j).session && decide (2 ^ 48 - 2 ^ 20 ≤
        (if b then (s.link j).scntTx else (s.link j).scntRx) + 1)) = true := by
      rw [hsess, Bool.true_and]
      exact decide_eq_true hscnt
    show execScntHalt j b s = _
    rw [execScntHalt, linkWf_of_lt hj, need_true]
    exact (congrArg (arises · _ _) harise).trans (arises_true _ _)
  · refine ⟨_, exec_laneFailure hj hlane hup, ?_⟩
    have hle' : ¬ ((s.link j).without lane).lanes < s.minLanes j := Nat.not_lt.2 hle
    rw [dropLane_up lane hup, if_neg hle']
    beta_reduce
    rw [State.link_congr ((Keeps.refl (F := [.pw, .hm]) _).log).links]
    exact link_setLink _ _ nofun
  · refine ⟨_, exec_laneFailure hj hlane hup, ?_⟩
    rw [dropLane_up lane hup]
    exact (congrArg (FailedFor j 2) (if_pos hlt)).mpr (linkFail_failed ..)
  · refine ⟨_, exec_flockLoss hj, ?_⟩
    rw [hd, he, hup]
    exact linkFail_failed ..
  · rw [exec_flockLoss hj]
    refine congrArg _ (if_neg ?_)
    rcases h with h | h | h <;> simp [h]
  · exact ⟨_, exec_authFailLimit hj hc h, linkFail_failed ..⟩
  · refine ⟨_, exec_rekeyStart hj hdue hno hsig, ?_⟩
    rw [hready]
    exact sigPush_pending _
  · rw [exec_rekeyStart hj hdue hno hsig, hready]
    rfl
  · refine ⟨_, exec_rekeyRetry hj h, ?_⟩
    have hlinks (t : State) : (t.abortLink j).links = t.links := ((Keeps.refl (F := [.sec]) t).abortLink).links
    have hset := link_setLink_of_rising (j := j) hr { s.link j with rekey := none }
    beta_reduce
    split
    · rw [State.link_congr (sigPush_links _), State.link_congr (hlinks _)]
      exact congrArg Link.rekey hset
    · rw [State.link_congr (hlinks _)]
      exact congrArg Link.rekey hset
  · rw [← switchAt_tx] at hle hne ⊢
    rw [← switchAt_rx]
    refine ⟨_, exec_sessionKeySwitch (tx := true) hj hr hk ?_, ?_⟩
    · rw [if_pos rfl, decide_eq_true hle, bne_iff_ne.2 hne]
      rfl
    · beta_reduce
      rw [link_setLink_of_rising hrise]
      obtain ⟨hx, -, hkeys⟩ := completed_same ((s.link j).rekeyed true (s.switchAt j r true) keys)
        (s.switchAt j r true) (s.switchAt j r false) th
      refine ⟨hx, hkeys, fun hboth => ?_⟩
      have hdone : (((s.link j).rekeyed true (s.switchAt j r true) keys).keyTx == s.switchAt j r true &&
          ((s.link j).rekeyed true (s.switchAt j r true) keys).keyRx == s.switchAt j r false) = true := by
        rw [Bool.and_eq_true]
        exact ⟨beq_self_eq_true _, beq_iff_eq.2 hboth⟩
      rw [Link.completed, if_pos hdone]
      exact ⟨rfl, rfl⟩
  · rw [← switchAt_rx] at hle hne ⊢
    refine ⟨_, exec_sessionKeySwitch (tx := false) hj hr hk ?_, ?_⟩
    · rw [if_neg Bool.false_ne_true, decide_eq_true hle, bne_iff_ne.2 hne]
      rfl
    · beta_reduce
      rw [link_setLink_of_rising hrise]
      obtain ⟨-, hx, hkeys⟩ := completed_same ((s.link j).rekeyed false (s.switchAt j r false) keys)
        (s.switchAt j r true) (s.switchAt j r false) th
      exact ⟨hx, hkeys⟩

end Sys2Proof.Machine
end

section
/-! The layer on domain-control messages (R383): which are acted on, and in which state. -/

namespace Sys2Proof.Machine

open Sys2Proof.Stated

section
variable {s : State} {r : Rx} {d : DHdr}

theorem isDuplicate_congr {t : State} (h : t.dom = s.dom) (d : DHdr) : t.isDuplicate d = s.isDuplicate d := by
  rw [State.isDuplicate, h, State.isDuplicate]

theorem takeFrame_running : (s.takeFrame r).running = s.running := by
  have hk := takeFrame_keeps (s := s) (r := r)
  rw [State.running, State.working, hk.pw, State.running, State.working]

/-- A duplicate changes nothing but what its frame does. -/
theorem receiveDctl_duplicate (h : Accepted s r) (hd : d.dst = s.dom.pkgAddr) (hdup : s.isDuplicate d = true) (n : Nat)
    (fs : List Nat) (k : State → State) : s.receiveDctl r d n fs k = s.takeFrame r := by
  have hdst : (d.dst != (s.takeFrame r).dom.pkgAddr) = false := by rw [takeFrame_dom, hd]; exact bne_self_eq_false _
  rw [State.receiveDctl, receive_of_accepted h, hdst, isDuplicate_congr takeFrame_dom, hdup]
  rfl

/-- A message for this package acts in the state that has noted it. -/
theorem receiveDctl_forMe (h : ForMe s r d) (n : Nat) (fs : List Nat) (k : State → State) :
    s.receiveDctl r d n fs k = k (noted s r d) := by
  have hdst : (d.dst != (s.takeFrame r).dom.pkgAddr) = false := by rw [takeFrame_dom, h.here]; exact bne_self_eq_false _
  have hrun : (noted s r d).running = true := takeFrame_running.trans h.runs
  have hnoted : { s.takeFrame r with dom := { (s.takeFrame r).dom with
      mseqIn := mset 0 (s.takeFrame r).dom.mseqIn d.src (d.mseq % 65536 + 1) } } = noted s r d := by
    rw [takeFrame_dom]
    rfl
  rw [State.receiveDctl, receive_of_accepted h.frame, hdst, isDuplicate_congr takeFrame_dom, h.fresh]
  dsimp only
  rw [hnoted, hrun]
  rfl

/-- A message for another package is sent on. -/
theorem receiveDctl_onward (h : Accepted s r) (hd : d.dst ≠ s.dom.pkgAddr) (n : Nat)
    (fs : List Nat) (k : State → State) : s.receiveDctl r d n fs k = (s.takeFrame r).forwardDctl r.link d n fs := by
  have hdst : (d.dst != (s.takeFrame r).dom.pkgAddr) = true := by rw [takeFrame_dom]; exact bne_iff_ne.2 hd
  rw [State.receiveDctl, receive_of_accepted h, hdst]
  rfl

/-- The state that has noted a message differs from the one that received it in its links,
    in what it sent and in the numbers of
the messages it took. -/
theorem noted_keeps : Keeps [.links, .out, .dom] s (noted s r d) :=
  (((Keeps.refl (F := [.links, .out, .dom]) s).takeFrame)).withDom

theorem noted_dom : (noted s r d).dom = { s.dom with mseqIn := (noted s r d).dom.mseqIn } := rfl

theorem noted_isLead : (noted s r d).isLead = s.isLead := rfl

theorem atLead_of_lead {u : State} (h : u.isLead = true) (k : State → State) : u.atLead k = k u := if_pos h

theorem atLead_of_other {u : State}
    (h : u.isLead = false) (k : State → State) : u.atLead k = u := if_neg (ne_true_of_eq_false h)

theorem fromLead_noted (h : FromLead s d) (k : State → State) : (noted s r d).fromLead d k = k (noted s r d) := by
  have hlead : ((noted s r d).dom.st == .member && d.src == (noted s r d).dom.lead) = true := by
    rw [noted_dom, h.1, h.2]
    simp
  exact if_pos hlead

theorem fromLead_other (h : ¬ FromLead s d) (k : State → State) : (noted s r d).fromLead d k = noted s r d := by
  have hlead : ¬ ((noted s r d).dom.st == .member && d.src == (noted s r d).dom.lead) = true := by
    rw [noted_dom, Bool.and_eq_true, beq_iff_eq, beq_iff_eq]
    exact h
  exact if_neg hlead

/-! ### The messages -/

theorem exec_join (hwf : r.wf = true) (n : Nat) (bs : List Byte) : exec (.join r d n bs) s =
    .next (s.receiveDctl r d 1 [n, digestNat bs] fun s => s.atLead fun s => s.answerJoin d bs) := by
  show execJoin r d n bs s = _
  rw [execJoin, hwf, need_true]

theorem exec_accept (hwf : r.wf = true) (e n : Nat) (ms : List Nat) : exec (.accept r d e n ms) s =
    .next (s.receiveDctl r d 2 [e, 0, n, memberMask ms] fun s =>
      if s.dom.st == .joining && d.src == s.dom.lead then s.takeAccept d e n ms else s) := by
  show execAccept r d e n ms s = _
  rw [execAccept, hwf, need_true]

theorem exec_joinRefused (hwf : r.wf = true) (n : Nat) : exec (.joinRefused r d n) s =
    .next (s.receiveDctl r d 3 [n] fun s => if s.dom.st == .joining && d.src == s.dom.lead then s.joinFailed n else s) := by
  show execJoinRefused r d n s = _
  rw [execJoinRefused, hwf, need_true]

theorem exec_leave (hwf : r.wf = true) (n : Nat) : exec (.leave r d n) s =
    .next (s.receiveDctl r d 10 [n] fun s => s.atLead fun s => s.memberGone d.src) := by
  show execLeave r d n s = _
  rw [execLeave, hwf, need_true]

theorem exec_ready (hwf : r.wf = true) (j p n : Nat) : exec (.ready r d j p n) s =
    .next (s.receiveDctl r d 4 [j, p, n] fun s => s.atLead fun s => (s.noteReady d.src j p n).leadCheck j) := by
  show execReady r d j p n s = _
  rw [execReady, hwf, need_true]

theorem exec_refuse (hwf : r.wf = true) (j c : Nat) : exec (.refuse r d j c) s =
    .next (s.receiveDctl r d 5 [j, c] fun s =>
      if s.isLead then s.leadRefuse j else s.fromLead d fun s => s.refuseDomain j) := by
  show execRefuse r d j c s = _
  rw [execRefuse, hwf, need_true]

theorem exec_admitJob (hwf : r.wf = true) (j n : Nat) : exec (.admitJob r d j n) s =
    .next (s.receiveDctl r d 6 [j, n] fun s => s.fromLead d fun s => s.admitDomain j n) := by
  show execAdmit r d j n s = _
  rw [execAdmit, hwf, need_true]

/-- The binding of a slot by the lead. -/
def State.noteBind (s : State) (e n : Nat) (es : List BindEntry) : State :=
  { s with dom := { s.dom with
    binds := (s.dom.binds.filter fun m => !(m.epoch == e && m.slot == n)) ++ [{ epoch := e, slot := n, es := es }] } }

/-- The numbers of a BIND's body. -/
def bindBody (e n : Nat) (es : List BindEntry) : List Nat := [e, n, es.length] ++ es.flatMap fun b => [b.jobId, b.bpos, b.inc]

theorem exec_bind (hwf : r.wf = true) (e n : Nat) (es : List BindEntry) : exec (.bind r d e n es) s =
    .next (s.receiveDctl r d 7 (bindBody e n es) fun s => s.fromLead d fun s => s.noteBind e n es) := by
  show execBind r d e n es s = _
  rw [execBind, hwf, need_true]
  rfl

/-- The lead, its deputy and the members, as a TICK names them. -/
def State.noteTick (s : State) (a b : Nat) (ms : List Nat) : State :=
  { s with dom := { s.dom with lead := a, deputy := b, members := ms, noTick := 0 } }

theorem exec_tick (hwf : r.wf = true) (a b c : Nat) (ms : List Nat) : exec (.tick r d a b c ms) s =
    .next (s.receiveDctl r d 8 [a, b, c, memberMask ms] fun s => s.fromLead d fun s => s.noteTick a b ms) := by
  show execTick r d a b c ms s = _
  rw [execTick, hwf, need_true]
  rfl

/-- The residency of a key at a member. -/
def State.noteResident (s : State) (d : DHdr) (a b c : Nat) : State :=
  let rest := s.dom.resident.filter fun e => e != (d.src, a, b)
  { s with dom := { s.dom with resident := if c = 1 then rest ++ [(d.src, a, b)] else rest } }

theorem exec_resident (hwf : r.wf = true) (a b c : Nat) : exec (.resident r d a b c) s =
    .next (s.receiveDctl r d 14 [a, b, c] fun s => s.atLead fun s => s.noteResident d a b c) := by
  show execResident r d a b c s = _
  rw [execResident, hwf, need_true]
  rfl

theorem exec_vdecide (hwf : r.wf = true) (v e : Nat) : exec (.vdecide r d v e) s =
    .next (s.receiveDctl r d 11 [v, e] fun s => s.atLead fun s =>
      (s.noteSwitch d.src v e).sendMembers 12 [d.src, v, e]) := by
  show execVdecide r d v e s = _
  rw [execVdecide, hwf, need_true]

theorem exec_vannounce (hwf : r.wf = true) (o v e : Nat) : exec (.vannounce r d o v e) s =
    .next (s.receiveDctl r d 12 [o, v, e] fun s => s.fromLead d fun s =>
      (s.noteSwitch o v e).acknowledgeSwitch (o, e)) := by
  show execVannounce r d o v e s = _
  rw [execVannounce, hwf, need_true]

/-- A member's acknowledgement of a switch. -/
def State.noteVack (s : State) (d : DHdr) (o e : Nat) : State :=
  { s with dom := { s.dom with vacks := (s.dom.vacks.filter fun a => a != (d.src, o, e)) ++ [(d.src, o, e)] } }

theorem exec_vack (hwf : r.wf = true) (o e : Nat) : exec (.vack r d o e) s =
    .next (s.receiveDctl r d 13 [o, e] fun s => s.atLead fun s => s.noteVack d o e) := by
  show execVack r d o e s = _
  rw [execVack, hwf, need_true]
  rfl

theorem exec_abandon (hwf : r.wf = true) (j n c : Nat) : exec (.abandon r d j n c) s =
    .next (s.receiveDctl r d 9 [j, n, c] fun s =>
      if s.isLead then (s.sendMembers 9 [j, n, c]).abandonHere j n c else s.fromLead d fun s => s.abandonHere j n c) := by
  show execAbandon r d j n c s = _
  rw [execAbandon, hwf, need_true]

theorem exec_failjob (hwf : r.wf = true) (j n c x : Nat) : exec (.failjob r d j n c x) s =
    .next (s.receiveDctl r d 17 [j, n, c, x] fun s =>
      if s.isLead then (s.sendMembers 17 [j, n, c, x]).failHere j n x else s.fromLead d fun s => s.failHere j n x) := by
  show execFailjob r d j n c x s = _
  rw [execFailjob, hwf, need_true]

/-- The deputy that collects is the lead. -/
def State.answerQreq (s : State) (d : DHdr) : State :=
  State.sendReports { s with dom := { s.dom with lead := d.src, noTick := 0 } } d.src

theorem exec_qreq (hwf : r.wf = true) : exec (.qreq r d) s = .next (s.receiveDctl r d 15 [0] fun s =>
    if s.dom.st == .member && (d.src == s.dom.deputy || d.src == s.dom.lead) then s.answerQreq d else s) := by
  show execQreq r d s = _
  rw [execQreq, hwf, need_true]
  rfl

/-- A part of a collection. -/
def State.takeReport (s : State) (d : DHdr) (last : Bool) (es : List (Nat × Nat)) : State := match s.dom.qcollect with
  | none => s
  | some (done, jobs) =>
    let all := jobs ++ es.filter fun e => e.2 != 0
    let who := if last then d.src :: done else done
    let dom : Domain := { s.dom with qcollect := some (who, all) }
    let s : State := { s with dom := dom }
    let s := (es.filter fun e => e.2 == 0).foldl (fun s e =>
      let j := (s.jobs.find? fun j => j.domain && j.jobId == e.1).getD {}
      s.noteReady d.src e.1 j.prog j.tenant) s
    s.collectCheck

/-- The numbers of a QREPORT's body. -/
def reportBody (n : Nat) (last : Bool) (es : List (Nat × Nat)) : List Nat :=
  [n, b2n last, es.length] ++ es.flatMap fun e => [e.1, e.2]

theorem exec_qreport (hwf : r.wf = true) (n : Nat) (last : Bool) (es : List (Nat × Nat)) : exec (.qreport r d n last es) s =
    .next (s.receiveDctl r d 16 (reportBody n last es) fun s => s.atLead fun s => s.takeReport d last es) := by
  show execQreport r d n last es s = _
  rw [execQreport, hwf, need_true]
  rfl

/-! ### Which are acted on -/

/-- A command that receives a domain-control message: k is what it does with one for this package. -/
def Receives (r : Rx) (d : DHdr) (c : Instr) (k : State → State) : Prop :=
  ∃ n fs, ∀ s, exec c s = .next (s.receiveDctl r d n fs k)

theorem Receives.duplicate {c : Instr} {k : State → State} (hc : Receives r d c k) (h : Accepted s r)
    (hd : d.dst = s.dom.pkgAddr)
    (hdup : s.isDuplicate d = true) : exec c s = .next (s.takeFrame r) := by
  obtain ⟨n, fs, hexec⟩ := hc
  rw [hexec, receiveDctl_duplicate h hd hdup]

theorem Receives.acts {c : Instr} {k : State → State} (hc : Receives r d c k) (h : ForMe s r d) :
    exec c s = .next (k (noted s r d)) := by
  obtain ⟨n, fs, hexec⟩ := hc
  rw [hexec, receiveDctl_forMe h]

/-- A message of a lead does nothing at a package that neither leads nor is its member. -/
theorem leadMessage_receives {a b : Nat} {es : List BindEntry} {ms : List Nat} {c : Instr} (hwf : r.wf = true)
    (hc : c ∈ leadMessages r d a b es ms) : ∃ k, Receives r d c k ∧ ∀ s, s.isLead = false → ¬ FromLead s d →
      k (noted s r d) = noted s r d := by
  have hlead {s : State} (h : s.isLead = false) : ¬ (noted s r d).isLead = true := by
    rw [noted_isLead, h]
    exact Bool.false_ne_true
  rw [leadMessages] at hc
  rcases List.mem_cons.1 hc with rfl | hc
  · exact ⟨_, ⟨_, _, fun s => exec_admitJob hwf a b⟩, fun s _ ho => fromLead_other ho _⟩
  rcases List.mem_cons.1 hc with rfl | hc
  · exact ⟨_, ⟨_, _, fun s => exec_bind hwf a b es⟩, fun s _ ho => fromLead_other ho _⟩
  rcases List.mem_cons.1 hc with rfl | hc
  · exact ⟨_, ⟨_, _, fun s => exec_tick hwf a b 0 ms⟩, fun s _ ho => fromLead_other ho _⟩
  rcases List.mem_cons.1 hc with rfl | hc
  · exact ⟨_, ⟨_, _, fun s => exec_vannounce hwf a b 0⟩, fun s _ ho => fromLead_other ho _⟩
  rcases List.mem_cons.1 hc with rfl | hc
  · exact ⟨_, ⟨_, _, fun s => exec_abandon hwf a b 0⟩, fun s hl ho => (if_neg (hlead hl)).trans (fromLead_other ho _)⟩
  rcases List.mem_cons.1 hc with rfl | hc
  · exact ⟨_, ⟨_, _, fun s => exec_failjob hwf a b 0 0⟩, fun s hl ho => (if_neg (hlead hl)).trans (fromLead_other ho _)⟩
  · obtain rfl := List.mem_singleton.1 hc
    exact ⟨_, ⟨_, _, fun s => exec_refuse hwf a b⟩, fun s hl ho => (if_neg (hlead hl)).trans (fromLead_other ho _)⟩

/-- The other messages. -/
theorem otherMessage_receives {a b : Nat} {ms : List Nat} {bs : List Byte} {c : Instr} (hwf : r.wf = true)
    (hc : c ∈ [.join r d a bs, .accept r d a b ms, .ready r d a b 0, .leave r d a, .resident r d a b 0, .vdecide r d a b,
      .vack r d a b, .qreq r d, .qreport r d a true []]) : ∃ k, Receives r d c k := by
  rcases List.mem_cons.1 hc with rfl | hc
  · exact ⟨_, _, _, fun s => exec_join hwf a bs⟩
  rcases List.mem_cons.1 hc with rfl | hc
  · exact ⟨_, _, _, fun s => exec_accept hwf a b ms⟩
  rcases List.mem_cons.1 hc with rfl | hc
  · exact ⟨_, _, _, fun s => exec_ready hwf a b 0⟩
  rcases List.mem_cons.1 hc with rfl | hc
  · exact ⟨_, _, _, fun s => exec_leave hwf a⟩
  rcases List.mem_cons.1 hc with rfl | hc
  · exact ⟨_, _, _, fun s => exec_resident hwf a b 0⟩
  rcases List.mem_cons.1 hc with rfl | hc
  · exact ⟨_, _, _, fun s => exec_vdecide hwf a b⟩
  rcases List.mem_cons.1 hc with rfl | hc
  · exact ⟨_, _, _, fun s => exec_vack hwf a b⟩
  rcases List.mem_cons.1 hc with rfl | hc
  · exact ⟨_, _, _, fun s => exec_qreq hwf⟩
  · obtain rfl := List.mem_singleton.1 hc
    exact ⟨_, _, _, fun s => exec_qreport hwf a true []⟩

theorem forwardDctl_up {u : State} {j l n : Nat} {fs : List Nat} (hl : u.dctlLink d.dst = some l) (hup : (u.link l).up = true)
    (hs : (u.link l).session = true) : u.forwardDctl j d n fs = u.txFrame l 0 (.dctl d n fs) := by
  rw [State.forwardDctl, hl]
  dsimp only
  rw [hup, hs]
  rfl

end

/-- Settles O44. -/
theorem domainMessagesAreFiltered : Obligations.DomainMessagesAreFiltered := by
  unfold Obligations.DomainMessagesAreFiltered
  refine ⟨fun s r d a b es ms bs h hd => ⟨fun hdup c hc => ?_, fun hme hlead hno c hc => ?_⟩,
    fun s r d a b l ms h hd hl hup hsess => ?_⟩
  · rcases List.mem_append.1 hc with hc | hc
    · obtain ⟨k, hk, -⟩ := leadMessage_receives h.wf hc
      exact hk.duplicate h hd hdup
    · obtain ⟨k, hk⟩ := otherMessage_receives h.wf hc
      exact hk.duplicate h hd hdup
  · obtain ⟨k, hk, hidle⟩ := leadMessage_receives h.wf hc
    rw [hk.acts hme, hidle s hno hlead]
  · rw [exec_tick h.wf, receiveDctl_onward h hd, forwardDctl_up hl hup hsess]

end Sys2Proof.Machine
end

section
/-! Joining and leaving a domain (R340, R380, R384, R387, R390). -/

namespace Sys2Proof.Machine

open Sys2Proof.Stated

theorem SentFrom.eq {s t : State} (h : SentFrom s t) : ∃ m, t.dom = { s.dom with mseqOut := m } := ⟨_, h⟩

/-- A part of the domain that the numbers of the messages are not in. -/
theorem SentFrom.part {α : Type} {s t : State}
    (h : SentFrom s t) (π : Domain → α) (hπ : ∀ x m, π { x with mseqOut := m } = π x) :
    π t.dom = π s.dom := by
  rw [h]
  exact hπ ..

section
variable {s : State} {r : Rx} {d : DHdr}

theorem noted_plan : (noted s r d).plan = s.plan := noted_keeps.plan

theorem noted_en : (noted s r d).en = s.en := noted_keeps.same .en (by decide)

theorem noted_tm : (noted s r d).tm = s.tm := noted_keeps.same .tm (by decide)

/-! ### JOIN and ACCEPT -/

/-- A lead takes in what fits and is new. -/
theorem answerJoin_members {p : Plan} (hp : s.plan = some p) (bs : List Byte) :
    (s.answerJoin d bs).dom.members = if p.domainDigest = bs ∧ d.src ∉ s.dom.members then s.dom.members ++ [d.src]
      else s.dom.members := by
  have hsent (u : State) (n : Nat) (fs : List Nat) : (u.sendDctl d.src n fs).dom.members = u.dom.members :=
    (sendDctl_sent u d.src n fs).part Domain.members fun _ _ => rfl
  simp only [State.answerJoin, hp]
  by_cases hdig : p.domainDigest = bs
  · rw [if_neg (by simp [hdig])]
    by_cases hmem : d.src ∈ s.dom.members
    · rw [if_pos (List.contains_iff_mem.2 hmem), hsent, if_neg fun h => h.2 hmem]
    · rw [if_neg fun h => hmem (List.contains_iff_mem.1 h), hsent, if_pos ⟨hdig, hmem⟩]
  · rw [if_pos (bne_iff_ne.2 hdig), hsent, if_neg fun h => hdig h.1]

theorem reportResidency_told (u : State) : Told u u.reportResidency := by
  refine (Told.refl u).foldl (fun t ht k => ?_) _
  rw [State.tellResident]
  exact (ht.ite (ht.sendDctl ..)).ite ht

/-- The domain that an ACCEPT names. -/
def State.accepted (s : State) (d : DHdr) (e : Nat) (ms : List Nat) : State :=
  { s with dom := { s.dom with lead := d.src, members := ms, firstEpoch := e, noTick := 0, bindFrom := e } }

theorem takeAccept_on (hon : s.en.on = true) (e n : Nat) (ms : List Nat) : s.takeAccept d e n ms =
    State.reportResidency { s.accepted d e ms with dom := { (s.accepted d e ms).dom with st := .member } } := if_pos hon

theorem takeAccept_off (hon : s.en.on = false) (e n : Nat) (ms : List Nat) : s.takeAccept d e n ms =
    ({ s.accepted d e ms with en := { s.en with accepted := true } }).loadSecond n := if_neg (ne_true_of_eq_false hon)

theorem loadSecond_keeps (n : Nat) : Keeps [.tm, .vs] s (s.loadSecond n) := (Keeps.refl s).loadSecond

theorem loadSecond_locked (h : s.tm.pps = .locked) (n : Nat) :
    (s.loadSecond n).tm = { s.tm with timeSet := n, setPending := true } := by rw [State.loadSecond, if_pos h]

theorem loadSecond_unlocked (h : s.tm.pps ≠ .locked) (n : Nat) : (s.loadSecond n).tm.now = n ∧
    (s.loadSecond n).tm.timeSet = n := by
  rw [State.loadSecond, if_neg h]
  exact ⟨rfl, rfl⟩

/-- What an ACCEPT that answers this package's JOIN does. -/
theorem takeAccept_spec (e n : Nat) (ms : List Nat) : (s.takeAccept d e n ms).dom.members = ms ∧
    (s.takeAccept d e n ms).dom.firstEpoch = e ∧ (s.takeAccept d e n ms).dom.lead = d.src ∧
    (s.en.on = true → (s.takeAccept d e n ms).dom.st = .member ∧ (s.takeAccept d e n ms).tm = s.tm) ∧
    (s.en.on = false → (s.takeAccept d e n ms).en.accepted = true ∧ (s.takeAccept d e n ms).tm.timeSet = n ∧
      (s.tm.pps = .locked → (s.takeAccept d e n ms).tm.setPending = true ∧ (s.takeAccept d e n ms).tm.now = s.tm.now) ∧
      (s.tm.pps ≠ .locked → (s.takeAccept d e n ms).tm.now = n)) := by
  cases hon : s.en.on with
  | true =>
    rw [takeAccept_on hon]
    have htold := (reportResidency_told { s.accepted d e ms with dom := { (s.accepted d e ms).dom with st := .member } }).dom
    have htm := (Keeps.reportResidency (F := [.links, .dom, .out])
      (.refl { s.accepted d e ms with dom := { (s.accepted d e ms).dom with st := .member } })).same .tm (by decide)
    exact ⟨htold.part Domain.members fun _ _ => rfl, htold.part Domain.firstEpoch fun _ _ => rfl,
      htold.part Domain.lead fun _ _ => rfl, fun _ => ⟨htold.part Domain.st fun _ _ => rfl, htm⟩, nofun⟩
  | false =>
    rw [takeAccept_off hon]
    have hk := loadSecond_keeps (s := { s.accepted d e ms with en := { s.en with accepted := true } }) n
    rw [hk.dom, hk.en]
    refine ⟨rfl, rfl, rfl, nofun, fun _ => ⟨rfl, ?_, fun hp => ?_, fun hp => (loadSecond_unlocked (by exact hp) n).1⟩⟩
    · by_cases hp : s.tm.pps = .locked
      · rw [loadSecond_locked (by exact hp)]
      · exact (loadSecond_unlocked (by exact hp) n).2
    · rw [loadSecond_locked (by exact hp)]
      exact ⟨rfl, rfl⟩

/-! ### Refusals and leaving -/

theorem joinFailed_on (h : s.en.on = true) (n : Nat) : (s.joinFailed n).dom.st = .left := by rw [State.joinFailed, if_pos h]

theorem joinFailed_off (h : s.en.on = false) (hj : s.dom.st = .joining) (n : Nat) : (s.joinFailed n).dom.st = .standalone ∧
    (s.joinFailed n).en.st = 3 ∧ (s.joinFailed n).en.reason = if n = 0x40 ∨ n = 0x43 then n else 0x44 := by
  have hrefused (c x : Nat) : (s.refuseEnable c x).dom.st = .standalone ∧ (s.refuseEnable c x).en.st = 3 ∧
      (s.refuseEnable c x).en.reason = c := by
    refine ⟨?_, rfl, rfl⟩
    rw [State.refuseEnable, if_pos hj]
  rw [State.joinFailed, if_neg (ne_true_of_eq_false h)]
  by_cases h40 : n = 0x40
  · rw [if_pos h40, if_pos (.inl h40), h40]
    exact hrefused ..
  · rw [if_neg h40]
    by_cases h43 : n = 0x43
    · rw [if_pos h43, if_pos (.inr h43), h43]
      exact hrefused ..
    · rw [if_neg h43, if_neg fun h => h.elim h40 h43]
      exact hrefused ..

/-- The members without one. -/
def State.withoutMember (s : State) (p : Nat) : State :=
  { s with dom := { s.dom with
    members := s.dom.members.filter (· != p), resident := s.dom.resident.filter fun e => e.1 != p } }

theorem memberGone_told (p : Nat) : Told (s.withoutMember p) (s.memberGone p) :=
  (Told.refl (s.withoutMember p)).foldl (fun _ hu _ => hu.abandonJob ..) _

theorem memberGone_members (p : Nat) : (s.memberGone p).dom.members = s.dom.members.filter (· != p) :=
  (memberGone_told p).dom.part Domain.members fun _ _ => rfl

theorem exec_acceptTimeout (hj : s.dom.st = .joining) (ha : s.en.accepted = false) :
    exec .acceptTimeout s = .next (s.joinFailed 0x44) := by
  show execAcceptTimeout s = _
  rw [execAcceptTimeout, hj, ha]
  rfl

theorem exec_domainRejoin {p : Plan} (hp : s.plan = some p) (hd : p.domain = true) (hl : s.dom.st = .left) :
    exec .domainRejoin s = .next (if s.working && s.en.st == 2 then
      s.sendJoinTo (if s.dom.lead = s.dom.pkgAddr then s.dom.deputy else s.dom.lead) else s) := by
  have hdom : s.plan.any (·.domain) = true := by rw [hp]; exact hd
  show execDomainRejoin s = _
  rw [execDomainRejoin, hl, hdom]
  rfl

theorem sendJoinTo_dom {p : Plan} (hp : s.plan = some p) (n : Nat) :
    (s.sendJoinTo n).dom.st = .joining ∧ (s.sendJoinTo n).dom.lead = n := by
  unfold State.sendJoinTo
  split
  · next h => exact absurd (hp.symm.trans h) nofun
  · exact ⟨(sendDctl_sent ..).part Domain.st fun _ _ => rfl, (sendDctl_sent ..).part Domain.lead fun _ _ => rfl⟩

end

/-- Settles O45. -/
theorem packagesJoinAndLeave : Obligations.PackagesJoinAndLeave := by
  unfold Obligations.PackagesJoinAndLeave
  refine ⟨fun s r d h => ⟨fun n bs p hlead hp => ?_, fun hj hsrc => ⟨fun e n ms => ?_, fun n => ?_⟩, fun n hlead => ?_⟩,
    fun s hj ha => ?_, fun s p hp hd hl => ⟨fun hw he => ?_, fun hw => ?_⟩⟩
  · refine ⟨_, (exec_join h.frame.wf n bs).trans (congrArg _ (receiveDctl_forMe h ..)), ?_⟩
    beta_reduce
    rw [atLead_of_lead (noted_isLead.trans hlead), answerJoin_members (noted_plan.trans hp), noted_dom]
    exact ⟨fun hdig hnew => if_pos ⟨hdig, hnew⟩, fun hor => if_neg fun hand => hor.elim (· hand.1) hand.2⟩
  · refine ⟨_, (exec_accept h.frame.wf e n ms).trans (congrArg _ (receiveDctl_forMe h ..)), ?_⟩
    have hmine : ((noted s r d).dom.st == .joining && d.src == (noted s r d).dom.lead) = true := by
      rw [noted_dom, hj, hsrc]
      simp
    have hspec := takeAccept_spec (s := noted s r d) (d := d) e n ms
    rw [noted_en, noted_tm] at hspec
    beta_reduce
    rw [if_pos hmine]
    exact hspec
  · refine ⟨_, (exec_joinRefused h.frame.wf n).trans (congrArg _ (receiveDctl_forMe h ..)), ?_⟩
    have hmine : ((noted s r d).dom.st == .joining && d.src == (noted s r d).dom.lead) = true := by
      rw [noted_dom, hj, hsrc]
      simp
    beta_reduce
    rw [if_pos hmine]
    have hjoining : (noted s r d).dom.st = .joining := hj
    have hen : (noted s r d).en = s.en := noted_en
    exact ⟨fun hon => joinFailed_on (hen ▸ hon) n, fun hon => joinFailed_off (hen ▸ hon) hjoining n⟩
  · refine ⟨_, (exec_leave h.frame.wf n).trans (congrArg _ (receiveDctl_forMe h ..)), ?_⟩
    beta_reduce
    rw [atLead_of_lead (noted_isLead.trans hlead), memberGone_members]
    simp
  · refine ⟨_, exec_acceptTimeout hj ha, fun hon => joinFailed_on hon _, fun hon => ?_⟩
    exact joinFailed_off hon hj 0x44
  · refine ⟨_, exec_domainRejoin hp hd hl, ?_⟩
    rw [hw, he]
    exact sendJoinTo_dom hp _
  · rw [exec_domainRejoin hp hd hl]
    refine congrArg _ (if_neg ?_)
    rcases hw with hw | hw <;> simp [hw]

end Sys2Proof.Machine
end

section
/-! The admission of domain jobs and the loss of the lead (R381, R384, R387, R388). -/

namespace Sys2Proof.Machine

open Sys2Proof.Stated

/-! ### The lead's list of jobs -/

section
variable {s : State}

theorem noteReady_leadJobs (m j p n : Nat) : ∃ l ∈ (s.noteReady m j p n).dom.leadJobs, l.jobId = j ∧ m ∈ l.ready := by
  refine ⟨_, List.mem_cons_self, ?_, ?_⟩
  · split
    · next l hl =>
      have hid : (l.jobId == j) = true := by simpa using List.find?_some hl
      exact beq_iff_eq.1 hid
    · rfl
  · split
    · exact List.mem_cons_self
    · exact List.mem_cons_self

/-- The lead's list after an admission. -/
def State.leadAdmitted (s : State) (j : Nat) : State :=
  { s with dom := { s.dom with
    aseq := s.dom.aseq + 1
    leadJobs := s.dom.leadJobs.map fun x => if x.jobId = j then { x with aseq := some (s.dom.aseq + 1) } else x } }

theorem admitDomain_dom (j n : Nat) : (s.admitDomain j n).dom = s.dom :=
  (Keeps.admitDomain (F := [.fns, .tenants, .keys, .installs, .streams, .jobs, .jobSeq, .hubs, .hostMem, .out]) (.refl s)).dom

/-- A check of the lead leaves the packages that are ready. -/
theorem leadCheck_leadJobs {j k m : Nat} (h : ∃ l ∈ s.dom.leadJobs, l.jobId = k ∧ m ∈ l.ready) :
    ∃ l ∈ (s.leadCheck j).dom.leadJobs, l.jobId = k ∧ m ∈ l.ready := by
  have hadmit : ((((s.leadAdmitted j).sendMembers 6 [j, s.dom.aseq + 1]).admitDomain j (s.dom.aseq + 1)).dom.leadJobs) =
      (s.leadAdmitted j).dom.leadJobs := by
    rw [admitDomain_dom]
    exact (sendMembers_sent (s.leadAdmitted j) 6 [j, s.dom.aseq + 1]).part Domain.leadJobs fun _ _ => rfl
  have hmap : ∃ l ∈ (s.leadAdmitted j).dom.leadJobs, l.jobId = k ∧ m ∈ l.ready := by
    obtain ⟨l, hl, hid, hm⟩ := h
    refine ⟨_, List.mem_map_of_mem hl, ?_, ?_⟩
    · split <;> exact hid
    · split <;> exact hm
  unfold State.leadCheck
  extract_lets size
  split
  · exact h
  · split
    · exact hadmit.symm ▸ hmap
    · exact h

/-- The lead's list without a job. -/
def State.withoutJob (s : State) (j : Nat) : State :=
  { s with dom := { s.dom with leadJobs := s.dom.leadJobs.filter fun l => l.jobId != j } }

theorem refuseDomain_dom (j : Nat) : ∃ n, (s.refuseDomain j).dom = { s.dom with refused := n } := by
  unfold State.refuseDomain
  split
  · exact ⟨s.dom.refused, rfl⟩
  · next k _ =>
    extract_lets x v w dom y
    have hw : w.dom = s.dom := (Keeps.modTenant (F := [.streams, .tenants]) (Keeps.setStream (.refl s))).dom
    have hk : Keeps ringFields y _ :=
      ((Keeps.refl y).addRecord (n := k.stream)
        (r := { seq := k.seq, kind := 2, code := 0x0C, time := y.tm.now, user := k.user, irq := true })).settle (n
          := k.stream)
    refine ⟨bump w.dom.refused, hk.dom.trans ?_⟩
    show { w.dom with refused := bump w.dom.refused } = { s.dom with refused := bump w.dom.refused }
    rw [hw]

theorem leadRefuse_eq {j : Nat} (h : ∀ l ∈ s.dom.leadJobs, l.jobId = j → l.aseq = none) :
    s.leadRefuse j = ((s.withoutJob j).sendMembers 5 [j, 0x0C]).refuseDomain j := by
  refine if_neg ?_
  rw [Bool.not_eq_true, List.any_eq_false]
  intro l hl hboth
  obtain ⟨hid, haseq⟩ := Bool.and_eq_true_iff.1 hboth
  rw [h l hl (beq_iff_eq.1 hid)] at haseq
  exact Bool.noConfusion haseq

/-- A job that is refused leaves the lead's list. -/
theorem leadRefuse_leadJobs {j : Nat} (h : ∀ l ∈ s.dom.leadJobs, l.jobId = j → l.aseq = none) :
    ∀ l ∈ (s.leadRefuse j).dom.leadJobs, l.jobId ≠ j := by
  obtain ⟨n, hn⟩ := refuseDomain_dom (s := (s.withoutJob j).sendMembers 5 [j, 0x0C]) j
  have hsent : ((s.withoutJob j).sendMembers 5 [j, 0x0C]).dom.leadJobs = (s.withoutJob j).dom.leadJobs :=
    (sendMembers_sent ..).part Domain.leadJobs fun _ _ => rfl
  intro l hl
  rw [leadRefuse_eq h, hn] at hl
  replace hl : l ∈ ((s.withoutJob j).sendMembers 5 [j, 0x0C]).dom.leadJobs := hl
  rw [hsent] at hl
  exact bne_iff_ne.1 (List.mem_filter.1 hl).2

theorem leadRefuse_tm (j : Nat) : (s.leadRefuse j).tm = s.tm :=
  (Keeps.leadRefuse (F := [.fns, .tenants, .keys, .installs, .streams, .jobs, .hubs, .links, .dom, .hostMem,
    .out]) (.refl s)).same
    .tm (by decide)

/-! ### An admitted job -/

/-- A job of a number that has its RECEIPT and its ASEQ. -/
def Receipted (k : Job) (n t : Nat) (x : Job) : Prop := x.idx = k.idx ∧ x.jobId = k.jobId ∧ x.aseq = n ∧ x.receipt = some t

theorem admitJob_live {P : Job → Prop} {i : Nat} (h : Live (fun x => x.idx = i ∧ P x) s)
    (hP : ∀ x o, P x → P { x with st := .queued, order := o }) :
    Live (fun x => (x.idx = i ∧ P x) ∧ x.st = .queued) (s.admitJob i) := by
  obtain ⟨x, hx, hst, hid, hPx⟩ := h
  let u : State := s.nextOrder.2.modJob i fun j => { j with st := .queued, order := 2 ^ 62 + s.nextOrder.1 }
  have hu : Live (fun x => (x.idx = i ∧ P x) ∧ x.st = .queued) u := by
    refine ⟨_, List.mem_map_of_mem hx, ?_⟩
    rw [if_pos (beq_iff_eq.2 hid)]
    exact ⟨nofun, ⟨hid, hP _ _ hPx⟩, rfl⟩
  show Live _ (match u.job? i with
    | some j => u.queueInstalls j
    | none => u)
  split
  · exact hu.keeps (Keeps.queueInstalls (F := [.installs]) (.refl u))
  · exact hu

/-- A PENDING job that is admitted takes its RECEIPT and its ASEQ and is queued. -/
theorem admitDomain_job {j n : Nat} {k : Job}
    (hk : s.jobs.find? (fun x => x.domain && x.jobId == j && x.st == .pending) = some k) :
    ∃ x ∈ (s.admitDomain j n).jobs,
      x.idx = k.idx ∧ x.jobId = j ∧ x.st = .queued ∧ x.aseq = n ∧ x.receipt = some s.tm.now := by
  obtain ⟨hmatch, hst⟩ := Bool.and_eq_true_iff.1 (List.find?_some (p
    := fun x : Job => x.domain && x.jobId == j && x.st == .pending) hk)
  have hid : k.jobId = j := beq_iff_eq.1 (Bool.and_eq_true_iff.1 hmatch).2
  have hpending : k.st = .pending := beq_iff_eq.1 hst
  let u : State := s.modJob k.idx fun j => { j with receipt := some s.tm.now, aseq := n }
  have hu : Live (fun x => x.idx = k.idx ∧ (x.jobId = j ∧ x.aseq = n ∧ x.receipt = some s.tm.now)) u := by
    refine ⟨_, List.mem_map_of_mem (List.mem_of_find?_eq_some hk), ?_⟩
    rw [if_pos (beq_self_eq_true _)]
    exact ⟨by rw [hpending]; exact nofun, rfl, hid, rfl, rfl⟩
  have heq : s.admitDomain j n = ((u.addRecord k.stream (receiptOf k s.tm.now)).admitJob k.idx).settle k.stream := by
    unfold State.admitDomain
    rw [hk]
    rfl
  obtain ⟨x, hx, -, ⟨hidx, hjob, haseq, hrec⟩, hqueued⟩ :=
    (admitJob_live (hu.addRecord (n := k.stream) (r := receiptOf k s.tm.now)) fun _ _ h => h).settle (n := k.stream)
  rw [heq]
  exact ⟨x, hx, hidx, hjob, hqueued, haseq, hrec⟩

/-! ### Collection -/

/-- What a collection leaves of the domain: all but the lead's jobs, their numbers and the collection itself. -/
def Domain.uncollected (x : Domain) : Domain :=
  { x with aseq := 0, leadJobs := [], qcollect := none, bindFrom := 0, mseqOut := [] }

/-- The collection that is over. -/
def State.rebuilt (s : State) (jobs : List Job) (n b : Nat) (ls : List LeadJob) : State :=
  { s with jobs := jobs, dom := { s.dom with aseq := n, leadJobs := ls, qcollect := none, bindFrom := b } }

theorem rebuild_told (es : List (Nat × Nat)) : ∃ jobs n b ls, Told (s.rebuilt jobs n b ls) (s.rebuild es) :=
  ⟨_, _, _, _, (Told.refl _).foldl (fun _ hu _ => hu.abandonJob ..) _⟩

theorem rebuild_dom (es : List (Nat × Nat)) : (s.rebuild es).dom.uncollected = s.dom.uncollected ∧
    (s.rebuild es).dom.qcollect = none := by
  obtain ⟨jobs, n, b, ls, h⟩ := rebuild_told (s := s) es
  exact ⟨h.dom.part Domain.uncollected fun _ _ => rfl, h.dom.part Domain.qcollect fun _ _ => rfl⟩

/-- A collection goes on, or is over. -/
theorem collectCheck_dom : s.collectCheck.dom.uncollected = s.dom.uncollected ∧
    (s.collectCheck.dom.qcollect = none ∨ s.collectCheck.dom.qcollect = s.dom.qcollect) := by
  unfold State.collectCheck
  split
  · exact ⟨rfl, .inr rfl⟩
  · extract_lets reach
    split
    · exact ⟨(rebuild_dom _).1, .inl (rebuild_dom _).2⟩
    · exact ⟨rfl, .inr rfl⟩

/-- READY of several jobs is noted. -/
theorem noteReady_foldl {β : Type} {f : State → β → State} (hf : ∀ u b, ∃ m j p n, f u b = u.noteReady m j p n) (l : List β) :
    ∃ ls, (l.foldl f s).dom = { s.dom with leadJobs := ls } := by
  induction l generalizing s with
  | nil => exact ⟨s.dom.leadJobs, rfl⟩
  | cons b l ih =>
    obtain ⟨m, j, p, n, heq⟩ := hf s b
    obtain ⟨ls, hls⟩ := ih (s := f s b)
    refine ⟨ls, hls.trans ?_⟩
    rw [heq]
    rfl

/-- A report is collected while a collection is under way. -/
theorem takeReport_collect {d : DHdr} {last : Bool} {es : List (Nat × Nat)} {c : List Nat × List (Nat × Nat)}
    (h : s.dom.qcollect = some c) : (s.takeReport d last es).dom.qcollect = none ∨
    ∃ w a, (s.takeReport d last es).dom.qcollect = some (w, a) ∧ (last = true → d.src ∈ w) ∧ ∀ e ∈ es, e.2 ≠ 0 → e ∈ a := by
  obtain ⟨done, jobs⟩ := c
  unfold State.takeReport
  split
  · next hnone => exact absurd (h.symm.trans hnone) nofun
  · next done jobs _ =>
    extract_lets all who x dom u v
    obtain ⟨ls, hls⟩ := noteReady_foldl (s := u) (f := fun s (e : Nat × Nat) =>
      s.noteReady d.src e.1 ((s.jobs.find? fun j => j.domain && j.jobId == e.1).getD {}).prog
        ((s.jobs.find? fun j => j.domain && j.jobId == e.1).getD {}).tenant) (fun _ _ => ⟨_, _, _, _, rfl⟩)
      (es.filter fun e => e.2 == 0)
    have hv : v.dom.qcollect = some (who, all) := congrArg Domain.qcollect hls
    refine (collectCheck_dom (s := v)).2.imp_right fun hsame => ⟨who, all, hsame.trans hv, fun hlast => ?_,
      fun e he hne => ?_⟩
    · have hwho : who = d.src :: done := if_pos hlast
      rw [hwho]
      exact List.mem_cons_self
    · exact List.mem_append_right _ (List.mem_filter.2 ⟨he, bne_iff_ne.2 hne⟩)

/-- A deputy that takes the lead. -/
theorem takeLead_dom : s.takeLead.dom.lead = s.dom.pkgAddr ∧ s.takeLead.dom.noTick = 0 ∧ s.dom.lead ∉ s.takeLead.dom.members
    := by
  unfold State.takeLead
  extract_lets ms dom u v
  obtain ⟨ls, hls⟩ := noteReady_foldl (s := u) (f := fun s (j : Job) => s.noteReady s.dom.pkgAddr j.jobId j.prog j.tenant)
    (fun _ _ => ⟨_, _, _, _, rfl⟩) (u.jobs.filter fun j => j.domain && j.st == .pending)
  have hsent : (v.sendMembers 15 [0]).dom.uncollected = v.dom.uncollected :=
    (sendMembers_sent v 15 [0]).part Domain.uncollected fun _ _ => rfl
  have hv : v.dom.uncollected = u.dom.uncollected := (congrArg Domain.uncollected hls).trans rfl
  have hall := (collectCheck_dom (s := v.sendMembers 15 [0])).1.trans (hsent.trans hv)
  have hlead : (v.sendMembers 15 [0]).collectCheck.dom.uncollected.lead = u.dom.uncollected.lead := congrArg Domain.lead hall
  have htick : (v.sendMembers 15 [0]).collectCheck.dom.uncollected.noTick = u.dom.uncollected.noTick
    := congrArg Domain.noTick hall
  have hmem : (v.sendMembers 15 [0]).collectCheck.dom.uncollected.members = u.dom.uncollected.members
    := congrArg Domain.members hall
  refine ⟨hlead, htick, fun h => ?_⟩
  replace h : s.dom.lead ∈ (v.sendMembers 15 [0]).collectCheck.dom.uncollected.members := h
  rw [hmem] at h
  exact bne_iff_ne.1 (List.mem_filter.1 h).2 rfl

theorem leaveDomain_member (h : s.dom.st = .member) (n : Nat) : (s.leaveDomain n).dom.st = .left ∧
    (s.leaveDomain n).dom.leaveReason = n := by
  rw [State.leaveDomain, h]
  exact ⟨rfl, rfl⟩

/-- The deputy can be reached, and is another than the lead. -/
def State.deputyReached (s : State) : Bool := match s.dctlLink s.dom.deputy with
  | some j => (s.link j).up && s.dom.deputy != s.dom.lead
  | none => false

theorem exec_leadLost (hst : s.dom.st = .member) (hl : s.isLead = false) (ht : 100 ≤ s.dom.noTick) :
    exec .leadLost s = .next (if s.dom.deputy == s.dom.pkgAddr then s.takeLead
      else if s.deputyReached then { s with dom := { s.dom with lead := s.dom.deputy, noTick := 0 } } else s.leaveDomain 3)
        := by
  show execLeadLost s = _
  rw [execLeadLost, hst, hl, decide_eq_true ht]
  rfl

theorem sendReports_sent (n : Nat) : SentFrom s (s.sendReports n) :=
  List.foldlRecOn _ _ (motive := fun t => SentFrom s t) (.refl s) fun _ ht _ _ => ht.trans (sendDctl_sent ..)

theorem exec_admitWaitExpiry {j : Nat} {l : LeadJob} {p : Route} (hlead : s.isLead = true) (hr : s.route = some p)
    (hl : s.dom.leadJobs.find? (fun x => x.jobId == j && x.aseq.isNone) = some l) :
    exec (.admitWaitExpiry j) s = .next ((s.reach ((l.since + p.admitWait) * 1000000)).leadRefuse j) := by
  show execAdmitWaitExpiry j s = _
  rw [execAdmitWaitExpiry, hl, hlead, hr]
  rfl

end

/-- Settles O46. -/
theorem domainJobsAreAdmitted : Obligations.DomainJobsAreAdmitted := by
  unfold Obligations.DomainJobsAreAdmitted
  refine ⟨fun s r d h => ⟨fun j p n hlead => ?_, fun j c hlead hl => ?_, fun j c hlead hfrom => ?_, fun j n k hfrom hk => ?_,
    fun n last es hlead => ⟨fun hq => ?_, fun hq => ?_⟩, fun hst hsrc => ?_⟩, fun s j l p hlead hr hl hall => ?_,
    fun s hst hl ht => ?_⟩
  · refine ⟨_, (exec_ready h.frame.wf j p n).trans (congrArg _ (receiveDctl_forMe h ..)), ?_⟩
    beta_reduce
    rw [atLead_of_lead (noted_isLead.trans hlead)]
    exact leadCheck_leadJobs (noteReady_leadJobs ..)
  · refine ⟨_, (exec_refuse h.frame.wf j c).trans (congrArg _ (receiveDctl_forMe h ..)), ?_⟩
    beta_reduce
    rw [if_pos (noted_isLead.trans hlead)]
    exact leadRefuse_leadJobs hl
  · rw [exec_refuse h.frame.wf, receiveDctl_forMe h, if_neg (ne_true_of_eq_false (noted_isLead.trans hlead)),
    fromLead_noted hfrom]
  · refine ⟨_, (exec_admitJob h.frame.wf j n).trans (congrArg _ (receiveDctl_forMe h ..)), ?_⟩
    have hjobs : (noted s r d).jobs = s.jobs := noted_keeps.jobs
    have hnow : (noted s r d).tm.now = s.tm.now := congrArg TimeSt.now noted_tm
    beta_reduce
    rw [fromLead_noted hfrom, ← hnow]
    exact admitDomain_job (hjobs.symm ▸ hk)
  · rw [exec_qreport h.frame.wf, receiveDctl_forMe h, atLead_of_lead (noted_isLead.trans hlead), State.takeReport]
    refine congrArg _ ?_
    split
    · rfl
    · next hsome => exact absurd (hq.symm.trans hsome) nofun
  · refine ⟨_, (exec_qreport h.frame.wf n last es).trans (congrArg _ (receiveDctl_forMe h ..)), ?_⟩
    obtain ⟨c, hc⟩ := Option.isSome_iff_exists.1 hq
    beta_reduce
    rw [atLead_of_lead (noted_isLead.trans hlead)]
    exact takeReport_collect hc
  · refine ⟨_, (exec_qreq h.frame.wf).trans (congrArg _ (receiveDctl_forMe h ..)), ?_⟩
    have hmine : ((noted s r d).dom.st == .member && (d.src == (noted s r d).dom.deputy || d.src ==
      (noted s r d).dom.lead)) = true := by
      rw [noted_dom, hst]
      simpa using hsrc
    beta_reduce
    rw [if_pos hmine]
    exact ⟨(sendReports_sent ..).part Domain.lead fun _ _ => rfl, (sendReports_sent ..).part Domain.noTick fun _ _ => rfl⟩
  · exact ⟨_, exec_admitWaitExpiry hlead hr hl, leadRefuse_tm _, leadRefuse_leadJobs hall⟩
  · refine ⟨_, exec_leadLost hst hl ht, fun hdep => ?_, fun hdep hno => ?_, fun j hdep hne hj hup => ?_⟩
    · rw [if_pos (beq_iff_eq.2 hdep)]
      exact takeLead_dom
    · have hreach : s.deputyReached = false := by rw [State.deputyReached, hno]
      rw [if_neg (by simpa using hdep), if_neg (ne_true_of_eq_false hreach)]
      exact leaveDomain_member hst 3
    · have hreach : s.deputyReached = true := by
        rw [State.deputyReached, hj]
        dsimp only
        rw [hup, bne_iff_ne.2 hne]
        rfl
      rw [if_neg (by simpa using hdep), if_pos hreach]
      exact ⟨rfl, hst⟩

end Sys2Proof.Machine
end

section
/-! What the messages of a domain change (R315, R326, R384, R385, R386, R412). -/

namespace Sys2Proof.Machine

open Sys2Proof.Stated

section
variable {s : State}

theorem acknowledgeSwitch_vs (a : Nat × Nat) : (s.acknowledgeSwitch a).vs = s.vs :=
  (Keeps.acknowledgeSwitch (F := [.links, .dom, .out]) (.refl s)).vs

theorem sendMembers_vs (n : Nat) (fs : List Nat) : (s.sendMembers n fs).vs = s.vs :=
  (Keeps.sendMembers (F := [.links, .dom, .out]) (.refl s)).vs

/-- A job that has returned or ended is not bound. -/
theorem returnJob_not_bound {i : Nat} {j : Job} (hj : s.job? i = some j) (later : Bool) :
    Unbound (s.returnJob i later) i := by
  by_cases hst : j.st = .finished
  · have hsame : s.returnJob i later = s := by
      rw [State.returnJob, hj]
      exact if_pos (beq_iff_eq.2 hst)
    rw [hsame]
    exact ⟨j, hj, by rw [hst]; exact nofun⟩
  · exact returnJob_unbound hj hst later

theorem countedReturn_not_bound {i : Nat} {j : Job} (hj : s.job? i = some j) (tag kind : Nat) :
    Unbound (s.countedReturn i tag kind) i := by
  have hmod (cls : FaultClass) (n : Nat) : (s.modJob i (counted tag kind cls n)).job? i = some (counted tag kind cls n j) :=
    job?_modJob hj fun _ => rfl
  simp only [State.countedReturn, hj]
  split
  · next st d _ => exact ⟨_, job?_modJob (job?_finishJob (hmod _ _) st d) (by intro; rfl), by simp⟩
  · exact returnJob_not_bound (hmod _ _) _

/-- An incarnation that the domain abandons is bound here no more. -/
theorem abandonHere_not_bound {j n c : Nat} {k : Job} (hk : s.jobs.find? (fun x => x.domain && x.jobId == j && x.inc == n &&
    (x.st == .bound || x.st == .queued)) = some k) : Unbound (s.abandonHere j n c) k.idx := by
  have hmem := List.mem_of_find?_eq_some hk
  obtain ⟨y, hy⟩ : ∃ y, s.job? k.idx = some y :=
    Option.isSome_iff_exists.1 (List.find?_isSome.2 ⟨k, hmem, beq_self_eq_true _⟩)
  rw [State.abandonHere, hk]
  dsimp only
  split
  · exact returnJob_not_bound hy true
  · exact countedReturn_not_bound hy ..

theorem failHere_eq {j n x : Nat} {k : Job} {q : SlotRun}
    (hk : s.jobs.find? (fun x => x.domain && x.jobId == j && x.inc == n && x.st == .bound) = some k)
    (hq : s.runOfJob k.idx = some q) (hbad : ∀ b ∈ q.bad, b.1 ≠ k.bpos) :
    s.failHere j n x = s.modRun q fun y => { y with bad := y.bad ++ [(k.bpos, x)] } := by
  have hany : (q.bad.any fun b => b.1 == k.bpos) = false := by
    rw [List.any_eq_false]
    intro b hb
    simpa using hbad b hb
  rw [State.failHere, hk]
  dsimp only
  rw [hq]
  dsimp only
  rw [hany]
  rfl

theorem noteResident_mem {d : DHdr} {a b c : Nat} : (c = 1 → (d.src, a, b) ∈ (s.noteResident d a b c).dom.resident) ∧
    (c ≠ 1 → (d.src, a, b) ∉ (s.noteResident d a b c).dom.resident) := by
  refine ⟨fun hc => ?_, fun hc => ?_⟩
  · show _ ∈ if c = 1 then _ else _
    rw [if_pos hc]
    exact List.mem_append_right _ (List.mem_singleton_self _)
  · show _ ∉ if c = 1 then _ else _
    rw [if_neg hc]
    intro h
    exact bne_iff_ne.1 (List.mem_filter.1 h).2 rfl

end

/-- Settles O47. -/
theorem domainMessagesAct : Obligations.DomainMessagesAct := by
  unfold Obligations.DomainMessagesAct
  intro s r d h
  have hvs : (noted s r d).vs = s.vs := noted_keeps.vs
  have hjobs : (noted s r d).jobs = s.jobs := noted_keeps.jobs
  refine ⟨fun hfrom => ⟨fun e n es => ?_, fun a b c ms => ?_, fun o v e => ?_, fun hlead j n c k hk => ?_,
    fun hlead j n c x k q hk hq hbad => ?_⟩, fun hlead => ⟨fun a b c => ?_, fun v e => ?_, fun o e => ?_⟩⟩
  · rw [exec_bind h.frame.wf, receiveDctl_forMe h, fromLead_noted hfrom]
    rfl
  · rw [exec_tick h.frame.wf, receiveDctl_forMe h, fromLead_noted hfrom]
    rfl
  · refine ⟨_, (exec_vannounce h.frame.wf o v e).trans (congrArg _ (receiveDctl_forMe h ..)), ?_⟩
    beta_reduce
    rw [fromLead_noted hfrom, acknowledgeSwitch_vs, ← hvs]
    rfl
  · refine ⟨_, (exec_abandon h.frame.wf j n c).trans (congrArg _ (receiveDctl_forMe h ..)), ?_⟩
    beta_reduce
    rw [if_neg (ne_true_of_eq_false (noted_isLead.trans hlead)), fromLead_noted hfrom]
    exact abandonHere_not_bound (hjobs.symm ▸ hk)
  · rw [exec_failjob h.frame.wf, receiveDctl_forMe h, if_neg (ne_true_of_eq_false (noted_isLead.trans hlead)),
      fromLead_noted hfrom, failHere_eq (hjobs.symm ▸ hk) hq hbad]
  · refine ⟨_, (exec_resident h.frame.wf a b c).trans (congrArg _ (receiveDctl_forMe h ..)), ?_⟩
    beta_reduce
    rw [atLead_of_lead (noted_isLead.trans hlead)]
    exact noteResident_mem
  · refine ⟨_, (exec_vdecide h.frame.wf v e).trans (congrArg _ (receiveDctl_forMe h ..)), ?_⟩
    beta_reduce
    rw [atLead_of_lead (noted_isLead.trans hlead), sendMembers_vs, ← hvs]
    rfl
  · refine ⟨_, (exec_vack h.frame.wf o e).trans (congrArg _ (receiveDctl_forMe h ..)), ?_⟩
    beta_reduce
    rw [atLead_of_lead (noted_isLead.trans hlead)]
    exact List.mem_append_right _ (List.mem_singleton_self _)

end Sys2Proof.Machine
end

section
/-! Key uploads and share offers (R126..R128, R456). -/

namespace Sys2Proof.Machine

open Sys2Proof.Stated

section
variable {s : State} {n : Nat}

theorem State.tenant_congr {t : State} (h : t.tenants = s.tenants) (n : Nat) : t.tenant n = s.tenant n :=
  congrArg (mget ({} : Tenant) · n) h

theorem tenant_modTenant
    (hr : Rising s.tenants) (n : Nat) (f : Tenant → Tenant) : (s.modTenant n f).tenant n = f (s.tenant n) :=
  mget_mset_self ({} : Tenant) hr n _

theorem tenant_modTenant_of_ne {m : Nat} (h : n ≠ m) (f : Tenant → Tenant) : (s.modTenant m f).tenant n = s.tenant n :=
  mget_mset_of_ne ({} : Tenant) s.tenants m n _ h

theorem modTenant_rising
    (hr : Rising s.tenants) (n : Nat) (f : Tenant → Tenant) : Rising (s.modTenant n f).tenants := rising_mset hr

/-! ### An upload that ends -/

/-- The uploads without the tenant's. -/
def State.uploadOut (s : State) (n : Nat) : State := { s with uploads := s.uploads.filter (· != n) }

theorem nextUpload_cases : s.nextUpload n = s.uploadOut n ∨
    ∃ m ∈ s.uploads.filter (· != n), s.nextUpload n = (s.uploadOut n).modTenant m fun x => { x with keyLoad := 2 } := by
  have heq : s.nextUpload n = match s.uploads.filter (· != n) with
    | [] => s.uploadOut n
    | m :: _ => (s.uploadOut n).modTenant m fun x => { x with keyLoad := 2 } := rfl
  rw [heq]
  split
  · exact .inl rfl
  · next m ms hus => exact .inr ⟨m, hus ▸ List.mem_cons_self, rfl⟩

/-- The tenant's upload has left the list. -/
theorem nextUpload_spec : (s.nextUpload n).tenant n = s.tenant n ∧ n ∉ (s.nextUpload n).uploads := by
  have hout : n ∉ s.uploads.filter (· != n) := fun h => bne_iff_ne.1 (List.mem_filter.1 h).2 rfl
  rcases nextUpload_cases (s := s) (n := n) with heq | ⟨m, hm, heq⟩
  · rw [heq]
    exact ⟨rfl, hout⟩
  · have hne : n ≠ m := by
      rintro rfl
      exact hout hm
    rw [heq]
    exact ⟨tenant_modTenant_of_ne hne _, hout⟩

/-- A refused upload: its code and its DETAIL, and no key. -/
theorem refuseUpload_spec
    (hr : Rising s.tenants) (code detail : Nat) : ((s.refuseUpload n code detail).tenant n).keyLoad = 4 ∧
    ((s.refuseUpload n code detail).tenant n).keyReason = code ∧
      ((s.refuseUpload n code detail).tenant n).keyDetail = detail ∧
    n ∉ (s.refuseUpload n code detail).uploads ∧ (s.refuseUpload n code detail).keys = s.keys ∧
    (s.refuseUpload n code detail).gran = s.gran := by
  have hk : Keeps [.tenants, .uploads] s (s.refuseUpload n code detail) := (Keeps.refl s).refuseUpload
  obtain ⟨htenant, hout⟩ := nextUpload_spec (n := n)
    (s := s.modTenant n fun x => { x with keyLoad := 4, keyReason := code, keyDetail := detail, upFault := false })
  rw [tenant_modTenant hr] at htenant
  rw [State.refuseUpload, htenant]
  exact ⟨rfl, rfl, rfl, hout, hk.keys, hk.same .gran (by decide)⟩

theorem faultUpload_spec (hr : Rising s.tenants) : ((s.faultUpload n).tenant n).keyLoad = 4 ∧
    n ∉ (s.faultUpload n).uploads ∧ (s.faultUpload n).keys = s.keys := by
  obtain ⟨hload, -, -, hout, hkeys, -⟩ := refuseUpload_spec (s := s.freshWord.2) (n := n) hr
    (0x30 + s.freshWord.1.toNat % 9) 0xFFFFFFFF
  exact ⟨hload, hout, hkeys⟩

theorem exec_keyUploadDone (hn : 1 ≤ n) (hn' : n ≤ 4095) (hup : n ∈ s.uploads) (hsig : s.sigPending (.manifest n) = false) :
    exec (.keyUploadDone n) s = .next (s.finishUpload n) := by
  show execKeyUploadDone n s = _
  rw [execKeyUploadDone, decide_eq_true ⟨hn, hn'⟩, need_true, List.contains_iff_mem.2 hup, hsig]
  rfl

theorem finishUpload_fault (h : (s.tenant n).upFault = true ∨
    s.tenantRead n (s.tenant n).manAddr (s.tenant n).manLen = none) : s.finishUpload n = s.faultUpload n := by
  unfold State.finishUpload
  extract_lets x
  by_cases hf : (s.tenant n).upFault = true
  · exact if_pos hf
  · refine (if_neg hf).trans ?_
    rw [h.resolve_left hf]

/-- An upload whose manifest was read. -/
def State.manifestRead (s : State) (n : Nat) (m : List Byte) : State :=
  match s.checkUpload n m with
  | .error e => s.refuseUpload n e.1 e.2
  | .ok (m, set, places) => match s.tenantRead n (s.tenant n).dataAddr (field m 64 8) with
    | none => s.faultUpload n
    | some data => match badBlock m data with
      | some e => s.refuseUpload n 0x36 (e.1 * 65536 + e.2)
      | none => s.storeKeys n set m data places

theorem finishUpload_read {m : List Byte} (hf : (s.tenant n).upFault = false)
    (hm : s.tenantRead n (s.tenant n).manAddr (s.tenant n).manLen = some m) : s.finishUpload n = s.manifestRead n m := by
  unfold State.finishUpload
  extract_lets x
  refine (if_neg (ne_true_of_eq_false hf)).trans ?_
  rw [hm]
  rfl

/-! ### Keys that are stored -/

/-- A key of the tenant is in the table as its manifest's entry gives it. -/
def Stored (n : Nat) (e : ManEntry × List Nat) (s : State) : Prop :=
  ∃ k ∈ s.keys, k.tenant = n ∧ k.id = e.1.id ∧ k.kind = e.1.kind ∧ k.st = .usable ∧ k.blocks = e.2

/-- A stale key that gives way. -/
def State.giveWay (s : State) (n : Nat) (k : Key) : State :=
  (s.modKey n k.id fun k => { k with st := .dropped }).freeKey { k with st := .dropped }

/-- Keys of another number stay when one gives way. -/
theorem Stored.giveWay {e : ManEntry × List Nat} (h : Stored n e s) {k : Key}
    (hk : k.id ≠ e.1.id) : Stored n e (s.giveWay n k) := by
  obtain ⟨x, hx, hten, hid, hkind, hst, hblocks⟩ := h
  have hne : x.id ≠ k.id := fun hxk => hk (hxk.symm.trans hid)
  refine ⟨x, List.mem_filter.2 ⟨List.mem_map.2 ⟨x, hx, if_neg ?_⟩, ?_⟩, hten, hid, hkind, hst, hblocks⟩
  · simp [hne]
  · simp [hne]

/-- The keys of an entry's number that are CORRUPT have given way, and its bytes are written. -/
def State.roomFor (s : State) (n : Nat) (data : List Byte) (e : ManEntry) (bs : List Nat) : State :=
  bs.zipIdx.foldl (fun s b => s.blockFill b.1 (slice data (e.off + 65536 * b.2) 65536))
    ((s.keys.filter fun k => k.tenant == n && k.st == .corrupt && k.id == e.id).foldl (fun s k => s.giveWay n k) s)

theorem Stored.roomFor {e : ManEntry × List Nat} (h : Stored n e s) {data : List Byte} {f : ManEntry} {bs : List Nat}
    (hne : f.id ≠ e.1.id) : Stored n e (s.roomFor n data f bs) := by
  have hway : Stored n e
      ((s.keys.filter fun k => k.tenant == n && k.st == .corrupt && k.id == f.id).foldl (fun s k => s.giveWay n k) s) := by
    refine List.foldlRecOn _ _ (motive := fun u => Stored n e u) h fun u hu k hk => hu.giveWay ?_
    have hid : k.id = f.id := beq_iff_eq.1 (Bool.and_eq_true_iff.1 (List.mem_filter.1 hk).2).2
    exact hid.symm ▸ hne
  exact List.foldlRecOn _ _ (motive := fun u => Stored n e u) hway fun _ hu _ _ => hu

theorem storeKey_keys (set : Nat) (m data : List Byte) (first : Nat) (e : ManEntry) (bs : List Nat) : ∃ k : Key,
    (s.storeKey n set m data first e bs).keys = (s.roomFor n data e bs).keys ++ [k] ∧ k.tenant = n ∧ k.id = e.id ∧
    k.kind = e.kind ∧ k.st = .usable ∧ k.blocks = bs := ⟨_, rfl, rfl, rfl, rfl, rfl, rfl⟩

theorem Stored.storeKey {e : ManEntry × List Nat} (h : Stored n e s) {set : Nat} {m data : List Byte} {first : Nat}
    {f : ManEntry} {bs : List Nat} (hne : f.id ≠ e.1.id) : Stored n e (s.storeKey n set m data first f bs) := by
  obtain ⟨k, hkeys, -⟩ := storeKey_keys (s := s) (n := n) set m data first f bs
  obtain ⟨x, hx, hrest⟩ := h.roomFor (data := data) (bs := bs) hne
  exact ⟨x, hkeys ▸ List.mem_append_left _ hx, hrest⟩

theorem storeKey_stored (set : Nat) (m data : List Byte) (first : Nat) (e : ManEntry × List Nat) :
    Stored n e (s.storeKey n set m data first e.1 e.2) := by
  obtain ⟨k, hkeys, hrest⟩ := storeKey_keys (s := s) (n := n) set m data first e.1 e.2
  exact ⟨k, hkeys ▸ List.mem_append_right _ (List.mem_singleton_self _), hrest⟩

/-- The entries of a manifest stored in turn. -/
def storeAll (n set : Nat) (m data : List Byte) (es : List (ManEntry × List Nat)) (acc : Nat × State) : Nat × State :=
  es.foldl (fun acc e => (acc.1 + e.1.blocks, acc.2.storeKey n set m data acc.1 e.1 e.2)) acc

theorem Stored.storeAll {e : ManEntry × List Nat} {set : Nat} {m data : List Byte} {es : List (ManEntry × List Nat)}
    {acc : Nat × State} (h : Stored n e acc.2)
      (hne : ∀ f ∈ es, e.1.id ≠ f.1.id) : Stored n e (storeAll n set m data es acc).2 :=
  List.foldlRecOn es _ (motive
    := fun acc : Nat × State => Stored n e acc.2) h fun _ hacc f hf => hacc.storeKey (hne f hf).symm

/-- Entries of different numbers are all stored. -/
theorem storeAll_stored {set : Nat} {m data : List Byte} {es : List (ManEntry × List Nat)}
    (hd : es.Pairwise fun e f => e.1.id ≠ f.1.id) (acc : Nat × State) :
    ∀ e ∈ es, Stored n e (storeAll n set m data es acc).2 := by
  induction es generalizing acc with
  | nil => exact nofun
  | cons f es ih =>
    obtain ⟨hf, hd⟩ := List.pairwise_cons.1 hd
    intro e he
    rcases List.mem_cons.1 he with rfl | he
    · exact Stored.storeAll (acc := (acc.1 + e.1.blocks, acc.2.storeKey n set m data acc.1 e.1 e.2)) (storeKey_stored ..) hf
    · exact ih hd _ e he

theorem storeKeys_eq (set : Nat) (m data : List Byte) (places : List (List Nat)) : s.storeKeys n set m data places =
    ((storeAll n set m data ((manEntries m).zip places) (0, s)).2.modTenant n fun x =>
      { x with keyLoad := 3, manSerial := field m 12 4, manDigest := sha384 m }).nextUpload n := rfl

theorem storeKey_rising
    (hr : Rising s.tenants) (set : Nat) (m data : List Byte) (first : Nat) (e : ManEntry) (bs : List Nat) :
    Rising (s.storeKey n set m data first e bs).tenants := by
  have hway : Rising
      ((s.keys.filter fun k => k.tenant == n && k.st == .corrupt && k.id == e.id).foldl (fun s k => s.giveWay n k) s).tenants
        :=
    List.foldlRecOn _ _ (motive := fun u : State => Rising u.tenants) hr fun _ hu _ _ => rising_mset hu
  have hroom : Rising (s.roomFor n data e bs).tenants :=
    List.foldlRecOn _ _ (motive := fun u : State => Rising u.tenants) hway fun _ hu _ _ => hu
  exact rising_mset hroom

theorem storeAll_rising {set : Nat} {m data : List Byte} {es : List (ManEntry × List Nat)} {acc : Nat × State}
    (hr : Rising acc.2.tenants) : Rising (storeAll n set m data es acc).2.tenants :=
  List.foldlRecOn es _ (motive := fun r : Nat × State => Rising r.2.tenants) hr fun _ hacc _ _ => storeKey_rising hacc ..

/-! ### The checks of a manifest -/

/-- An upload that passes its checks has no bad entry. -/
theorem checkUpload_ok {m : List Byte} {v : List Byte × Nat × List (List Nat)} (h : s.checkUpload n m = .ok v) :
    v.1 = m ∧ ∃ ps, s.badEntry n ps m = none := by
  unfold State.checkUpload at h
  extract_lets x none16 es blocks at h
  split at h
  · exact nomatch h
  split at h
  · exact nomatch h
  split at h
  · exact nomatch h
  split at h
  · next k p _ _ =>
    split at h
    · exact nomatch h
    split at h
    · exact nomatch h
    · next hbad =>
      split at h
      · exact nomatch h
      split at h
      · exact nomatch h
      · have hv : v = _ := (Except.ok.inj h).symm
        exact ⟨congrArg Prod.fst hv, _, hbad⟩
  · exact nomatch h

/-- Entries without a bad one have different numbers. -/
theorem badEntry_none {ps : PSet} {m : List Byte} (h : s.badEntry n ps m = none) :
    (manEntries m).Pairwise fun e f => e.id ≠ f.id := by
  have hfind := Option.map_eq_none_iff.1 h
  rw [List.find?_eq_none] at hfind
  refine List.pairwise_iff_getElem.2 fun i j hi hj hij hid => ?_
  have hej : ((manEntries m)[j], j) ∈ (manEntries m).zipIdx := List.mem_zipIdx_iff_getElem?.2 (List.getElem?_eq_getElem hj)
  have hei : ((manEntries m)[i], i) ∈ (manEntries m).zipIdx := List.mem_zipIdx_iff_getElem?.2 (List.getElem?_eq_getElem hi)
  refine hfind _ hej ?_
  rw [Bool.or_eq_true]
  refine .inr (List.any_eq_true.2 ⟨_, hei, ?_⟩)
  simp [hij, entriesClash, keyTwice, hid]

theorem zip_pairwise {es : List ManEntry} (h : es.Pairwise fun e f => e.id ≠ f.id) (places : List (List Nat)) :
    (es.zip places).Pairwise fun e f => e.1.id ≠ f.1.id := by
  refine List.pairwise_iff_getElem.2 fun i j hi hj hij => ?_
  simp only [List.getElem_zip]
  exact List.pairwise_iff_getElem.1 h i j _ _ hij

/-- An accepted upload stores every entry. -/
theorem storeKeys_spec {m data : List Byte} {set : Nat} {places : List (List Nat)} (hr : Rising s.tenants)
    (hd : (manEntries m).Pairwise fun e f => e.id ≠ f.id) : ((s.storeKeys n set m data places).tenant n).keyLoad = 3 ∧
    ((s.storeKeys n set m data places).tenant n).manSerial = field m 12 4 ∧ n ∉ (s.storeKeys n set m data places).uploads ∧
    ∀ e ∈ (manEntries m).zip places, Stored n e (s.storeKeys n set m data places) := by
  let u : State := (storeAll n set m data ((manEntries m).zip places) (0, s)).2
  let v : State := u.modTenant n fun x => { x with keyLoad := 3, manSerial := field m 12 4, manDigest := sha384 m }
  have hu : Rising u.tenants := storeAll_rising hr
  have hv : v.tenant n = _ := tenant_modTenant hu n _
  obtain ⟨htenant, hout⟩ := nextUpload_spec (s := v) (n := n)
  have hkeys : (v.nextUpload n).keys = u.keys := (Keeps.nextUpload (F := [.tenants, .uploads]) (.refl v)).keys
  rw [storeKeys_eq]
  refine ⟨?_, ?_, hout, fun e he => ?_⟩
  · exact (congrArg Tenant.keyLoad (htenant.trans hv)).trans rfl
  · exact (congrArg Tenant.manSerial (htenant.trans hv)).trans rfl
  · obtain ⟨k, hk, hrest⟩ := storeAll_stored (set := set) (data := data) (zip_pairwise hd places) (0, s) e he
    exact ⟨k, hkeys.symm ▸ hk, hrest⟩

/-! ### Offers -/

theorem exec_shareOfferExpiry {o : Offer} (hn : 1 ≤ n) (hn' : n ≤ 4095) (ho : (s.tenant n).offer = some o) :
    exec (.shareOfferExpiry n) s = .next ((s.reach (o.time + 600000000000)).modTenant n fun x =>
      { x with offer := none, offerSt := if x.offerSt = 2 then 0 else x.offerSt }) := by
  show execShareOfferExpiry n s = _
  rw [execShareOfferExpiry, decide_eq_true ⟨hn, hn'⟩, need_true, ho]

end

end Sys2Proof.Machine
end

section
/-! Partial decryptions (R457..R459, R463). -/

namespace Sys2Proof.Machine

open Sys2Proof.Stated

section
variable {s : State} {n : Nat}

/-! ### The queue -/

/-- The queue without the tenant's request. -/
def State.pdecOut (s : State) (n : Nat) : State :=
  State.sigAbort { s with sec := { s.sec with pdecQueue := s.sec.pdecQueue.filter (· != n) } } (· == .pdec n)

theorem sigStart_pdecQueue : s.sigStart.sec.pdecQueue = s.sec.pdecQueue := by
  rw [State.sigStart]
  split
  · rfl
  · split <;> rfl

theorem sigPush_pdecQueue (op : SigOp) : (s.sigPush op).sec.pdecQueue = s.sec.pdecQueue := sigStart_pdecQueue

theorem pdecOut_queue : (s.pdecOut n).sec.pdecQueue = s.sec.pdecQueue.filter (· != n) := sigStart_pdecQueue

theorem pdecOut_tenants : (s.pdecOut n).tenants = s.tenants := by
  have hk : Keeps [.sec] s (s.pdecOut n) := ((Keeps.refl (F := [.sec]) s).withSec).sigAbort
  exact hk.same .tenants (by decide)

theorem pdecNext_cases : s.pdecNext n = s.pdecOut n ∨ ∃ m ∈ s.sec.pdecQueue.filter (· != n),
    s.pdecNext n = ((s.pdecOut n).modTenant m fun x => { x with pdecRun := 2 }).sigPush (.pdec m) := by
  have heq : s.pdecNext n = match s.sec.pdecQueue.filter (· != n) with
    | m :: _ => if s.sec.pdecQueue.head? == some n then
        ((s.pdecOut n).modTenant m fun x => { x with pdecRun := 2 }).sigPush (.pdec m) else s.pdecOut n
    | [] => s.pdecOut n := rfl
  rw [heq]
  split
  · next m ms hq =>
    split
    · exact .inr ⟨m, hq ▸ List.mem_cons_self, rfl⟩
    · exact .inl rfl
  · exact .inl rfl

/-- The tenant's request has left the queue. -/
theorem pdecNext_spec : (s.pdecNext n).tenant n = s.tenant n ∧ n ∉ (s.pdecNext n).sec.pdecQueue := by
  have hout : n ∉ s.sec.pdecQueue.filter (· != n) := fun h => bne_iff_ne.1 (List.mem_filter.1 h).2 rfl
  have htenant : (s.pdecOut n).tenant n = s.tenant n := State.tenant_congr pdecOut_tenants n
  rcases pdecNext_cases (s := s) (n := n) with heq | ⟨m, hm, heq⟩
  · rw [heq, pdecOut_queue]
    exact ⟨htenant, hout⟩
  · have hne : n ≠ m := by
      rintro rfl
      exact hout hm
    have hpush (u : State) (op : SigOp) : (u.sigPush op).tenants = u.tenants :=
      (Keeps.sigPush (F := [.sec]) (.refl u)).same .tenants (by decide)
    rw [heq, sigPush_pdecQueue]
    refine ⟨(State.tenant_congr (hpush ..) n).trans ((tenant_modTenant_of_ne hne _).trans htenant), ?_⟩
    exact fun h => hout (pdecOut_queue (s := s) ▸ h)

/-- A tenant whose vault contents are gone. -/
def Tenant.wiped (x : Tenant) : Tenant :=
  { x with share := if x.wipeAfter then none else x.share, wipeAfter := false, pdecFault := false }

theorem pdecWipe_tenant (hr : Rising s.tenants) : (s.pdecWipe n).tenant n = (s.tenant n).wiped :=
  mget_mset_self ({} : Tenant) hr n _

/-- The end of a request: it has left the vault and the queue. -/
theorem pdecEnd_spec (hr : Rising s.tenants) : ((s.pdecWipe n).pdecNext n).tenant n = (s.tenant n).wiped ∧
    n ∉ ((s.pdecWipe n).pdecNext n).sec.pdecQueue :=
  ⟨pdecNext_spec.1.trans (pdecWipe_tenant hr), pdecNext_spec.2⟩

/-- A refused request: its code, no count, and nothing written. -/
theorem pdecRefuse_spec (hr : Rising s.tenants) (code : Nat) : ((s.pdecRefuse n code).tenant n).pdecRun = 4 ∧
    ((s.pdecRefuse n code).tenant n).pdecReason = code ∧ n ∉ (s.pdecRefuse n code).sec.pdecQueue ∧
    ((s.pdecRefuse n code).tenant n).pdecCounter = (s.tenant n).pdecCounter ∧ (s.pdecRefuse n code).hostMem = s.hostMem := by
  have hk : Keeps [.tenants, .sec] s (s.pdecRefuse n code) := (Keeps.refl s).pdecRefuse
  obtain ⟨htenant, hout⟩ := pdecEnd_spec (n := n) (s := s.modTenant n fun x => { x with pdecRun := 4, pdecReason := code })
    (rising_mset hr)
  rw [tenant_modTenant hr] at htenant
  rw [State.pdecRefuse, htenant]
  exact ⟨rfl, rfl, hout, rfl, hk.same .hostMem (by decide)⟩

theorem exec_partialDecryption {ns : List Nat} (hq : s.sec.pdecQueue = n :: ns) (hsig : s.sigPending (.pdec n) = false) :
    exec .partialDecryption s = .next (s.pdecServe n) := by
  show execPartialDecryption s = _
  rw [execPartialDecryption, hq]
  show arises (!s.sigPending (.pdec n)) _ _ = _
  rw [hsig]
  rfl

/-! ### The checks of a request -/

theorem pdecServe_entropy (h : s.entropyOk = false) : s.pdecServe n = s.pdecRefuse n 0x52 := by
  unfold State.pdecServe
  rw [h]
  rfl

theorem pdecServe_identity (he : s.entropyOk = true) (h : s.identityOk = false) : s.pdecServe n = s.pdecRefuse n 0x53 := by
  unfold State.pdecServe
  rw [he, h]
  rfl

theorem pdecServe_fault (he : s.entropyOk = true) (hi : s.identityOk = true) (h : (s.tenant n).pdecFault = true) :
    s.pdecServe n = s.pdecRefuse n 0x5A := by
  unfold State.pdecServe
  extract_lets x fail
  rw [he, hi, show x.pdecFault = true from h]
  rfl

/-- The coefficients of a request's limbs are below their primes. -/
def smallLimbs (p : Plan) (ps : PSet) (r : PdecReq) (c1 : List Byte) : Bool :=
  (chainPrimes p ps r.level).zipIdx.all fun q => (hostLimb c1 (2 ^ ps.logn) q.2).all fun w => decide (w < q.1)

/-- The checks of a request that was read, on a share and a plan. -/
def State.pdecChecked (s : State) (n : Nat) (m : List Byte) (p : Plan) (h : Share) : State :=
  if !pdecFormOk m n then s.pdecRefuse n 0x54
  else if !tenantSigOk m (s.tenant n) then s.pdecRefuse n 0x55
  else if (pdecReqOf m).counter ≤ (s.tenant n).pdecCounter then s.pdecRefuse n 0x56
  else match s.psetOfDigest h.psetDigest with
    | none => s.pdecRefuse n 0x58
    | some k =>
      if (pdecReqOf m).digest != h.psetDigest || decide (2 < (p.psets.getD k {}).scheme) then s.pdecRefuse n 0x57
      else if !pdecRangeOk p (p.psets.getD k {}) (pdecReqOf m) then s.pdecRefuse n 0x59
      else match s.tenantRead n (pdecReqOf m).c1 ((pdecReqOf m).level * 4 * 2 ^ (p.psets.getD k {}).logn) with
        | none => s.pdecRefuse n 0x5A
        | some c1 =>
          if sha384 c1 != (pdecReqOf m).c1Digest || !smallLimbs p (p.psets.getD k {})
            (pdecReqOf m) c1 then s.pdecRefuse n 0x59
          else s.pdecCompute n p (p.psets.getD k {}) h m c1

theorem pdecServe_read {m : List Byte} {p : Plan} {h : Share} (he : s.entropyOk = true) (hi : s.identityOk = true)
    (hf : (s.tenant n).pdecFault = false)
    (hm : s.tenantRead n (s.tenant n).pdecAddr (192 + sigLen (s.tenant n).vkeyAlg) = some m) (hp : s.plan = some p)
    (hh : (s.tenant n).share = some h) : s.pdecServe n = s.pdecChecked n m p h := by
  have hread : s.pdecServe n = match s.tenantRead n (s.tenant n).pdecAddr (192 + sigLen (s.tenant n).vkeyAlg), s.plan,
      (s.tenant n).share with
    | none, _, _ => s.pdecRefuse n 0x5A
    | some m, some p, some h => s.pdecChecked n m p h
    | some _, _, _ => s.pdecRefuse n 0x58 := by
    unfold State.pdecServe
    rw [he, hi]
    extract_lets x fail
    rw [show x.pdecFault = false from hf]
    rfl
  rw [hread, hm, hp, hh]

/-! ### A request that is served -/

theorem hostFaults_none {f : FnId} {p : BitVec 32} {a len : Nat} (h : s.hostFaults = [])
    (hbme : (s.fn f).bme = true) (hpres : (s.fn f).present = true) : s.hostFaults? f p a len = false := by
  rw [State.hostFaults?, h, hbme, hpres]
  rfl

/-- A tenant's function that has read may write. -/
theorem fn_of_read {a len : Nat} {bs : List Byte} (h : s.tenantRead n a len = some bs) :
    (s.fn (fnOfEntry (s.tenant n).homeFn)).bme = true ∧ (s.fn (fnOfEntry (s.tenant n).homeFn)).present = true := by
  rw [State.tenantRead, State.hostRead] at h
  split at h
  · exact nomatch h
  · next hno =>
    rw [State.hostFaults?, Bool.or_eq_true, Bool.or_eq_true, not_or, not_or] at hno
    obtain ⟨⟨hbme, hpres⟩, -⟩ := hno
    exact ⟨by simpa using hbme, by simpa using hpres⟩

/-- A tenant whose request has been served. -/
def Tenant.served (x : Tenant) (c : Nat) : Tenant :=
  { x with pdecRun := 3, pdecReason := 0, pdecCounter := c, pdecCount := bump x.pdecCount }

/-- A request without a host access fault is served on a state with the same tenants. -/
theorem pdecCompute_served {p : Plan} {ps : PSet} {h : Share} {m c1 : List Byte} (hf : s.hostFaults = [])
    (hbme : (s.fn (fnOfEntry (s.tenant n).homeFn)).bme = true)
      (hpres : (s.fn (fnOfEntry (s.tenant n).homeFn)).present = true) :
    ∃ u : State, u.tenants = s.tenants ∧ s.pdecCompute n p ps h m c1 =
      ((u.modTenant n fun x => x.served (pdecReqOf m).counter).pdecWipe n).pdecNext n := by
  unfold State.pdecCompute
  extract_lets r k g e d fn pasid
  have hg : Keeps [.sec] s g.2 := (Keeps.refl s).generate
  have hok {u : State} (hu :
    Keeps [.sec, .hostMem] s u) (a : Nat) (bs : List Byte) : ∃ v, u.hostWrite fn pasid a bs = some v ∧
      Keeps [.sec, .hostMem] s v := by
    have hfns : u.fn fn = s.fn fn := State.fn_congr (hu.same .fns (by decide)) fn
    have hwrite := hostWrite_of_no_fault (s := u) (f := fn) (p := pasid) (a := a) (bs := bs)
      (hostFaults_none ((hu.same .hostFaults (by decide) : u.hostFaults = s.hostFaults).trans hf) (hfns ▸ hbme)
        (hfns ▸ hpres))
    exact ⟨_, hwrite, hu.hostWrite hwrite⟩
  obtain ⟨v, hv, hkv⟩ := hok (hg.mono (by decide)) r.dest d
  rw [hv]
  dsimp only
  obtain ⟨w, hw, hkw⟩ := hok (u := (v.signIdentity (pdecResponse n r.counter v.tm.now m d h.digest)).2) hkv.signIdentity
    (r.dest + r.level * 4 * k) (pdecResponse n r.counter v.tm.now m d h.digest ++
      (v.signIdentity (pdecResponse n r.counter v.tm.now m d h.digest)).1)
  rw [hw]
  exact ⟨w, hkw.same .tenants (by decide), rfl⟩

theorem pdecCompute_spec {p : Plan} {ps : PSet} {h : Share} {m c1 : List Byte} (hr : Rising s.tenants)
    (hf : s.hostFaults = [])
    (hfn : (s.fn (fnOfEntry (s.tenant n).homeFn)).bme = true ∧ (s.fn (fnOfEntry (s.tenant n).homeFn)).present = true) :
    ((s.pdecCompute n p ps h m c1).tenant n).pdecRun = 3 ∧ ((s.pdecCompute n p ps h m c1).tenant n).pdecReason = 0 ∧
    ((s.pdecCompute n p ps h m c1).tenant n).pdecCounter = (pdecReqOf m).counter ∧
    ((s.pdecCompute n p ps h m c1).tenant n).pdecCount = bump (s.tenant n).pdecCount ∧
    n ∉ (s.pdecCompute n p ps h m c1).sec.pdecQueue := by
  obtain ⟨u, hu, heq⟩ := pdecCompute_served (p := p) (ps := ps) (h := h) (m := m) (c1 := c1) hf hfn.1 hfn.2
  have hru : Rising u.tenants := hu.symm ▸ hr
  obtain ⟨htenant, hout⟩ := pdecEnd_spec (n := n) (s
    := u.modTenant n fun x => x.served (pdecReqOf m).counter) (rising_mset hru)
  rw [tenant_modTenant hru, State.tenant_congr hu] at htenant
  rw [heq, htenant]
  exact ⟨rfl, rfl, rfl, rfl, hout⟩

end

/-- Settles O48. -/
theorem uploadsSharesAndDecryptionsEnd : Obligations.UploadsSharesAndDecryptionsEnd := by
  unfold Obligations.UploadsSharesAndDecryptionsEnd
  refine ⟨fun s n hn hn' hup hsig hr => ⟨fun h => ⟨_, exec_keyUploadDone hn hn' hup hsig, ?_⟩, fun m hf hm =>
      ⟨fun e he => ⟨_, exec_keyUploadDone hn hn' hup hsig, ?_⟩, fun v data hv hd hb =>
        ⟨_, exec_keyUploadDone hn hn' hup hsig, ?_⟩⟩⟩,
    fun s n o hn hn' ho hr => ⟨_, exec_shareOfferExpiry hn hn' ho, rfl, ?_⟩, fun s n ns hq hsig hr => ?_⟩
  · rw [finishUpload_fault h]
    exact faultUpload_spec hr
  · rw [finishUpload_read hf hm, State.manifestRead, he]
    exact refuseUpload_spec hr ..
  · obtain ⟨m', set, places⟩ := v
    obtain ⟨-, ps, hbad⟩ := checkUpload_ok hv
    have hm' : m' = m := (checkUpload_ok hv).1
    have heq : s.finishUpload n = s.storeKeys n set m' data places := by
      rw [finishUpload_read hf hm, State.manifestRead, hv]
      dsimp only at hd hb ⊢
      rw [hd]
      dsimp only
      rw [hb]
    rw [heq]
    exact storeKeys_spec hr (hm' ▸ badEntry_none hbad)
  · exact tenant_modTenant (s := s.reach (o.time + 600000000000)) hr n _
  · have hexec := exec_partialDecryption hq hsig
    have hrefused {code : Nat} (h : s.pdecServe n = s.pdecRefuse n code) : Runs .partialDecryption s fun t =>
        (t.tenant n).pdecRun = 4 ∧ (t.tenant n).pdecReason = code ∧ n ∉ t.sec.pdecQueue ∧
        (t.tenant n).pdecCounter = (s.tenant n).pdecCounter ∧ t.hostMem = s.hostMem :=
      ⟨_, hexec.trans (congrArg _ h), pdecRefuse_spec hr code⟩
    refine ⟨fun he => hrefused (pdecServe_entropy he), fun he hi => hrefused (pdecServe_identity he hi),
      fun he hi hf => hrefused (pdecServe_fault he hi hf), fun m p h k c1 he hi hf hm hp hh => ?_⟩
    have hread := pdecServe_read he hi hf hm hp hh
    refine ⟨fun hform => hrefused (hread.trans ?_), fun hform hsigok => hrefused (hread.trans ?_),
      fun hform hsigok hle => hrefused (hread.trans ?_),
      fun hform hsigok hlt hk hdig hsch hrange hc1 hsha hsmall hfaults => ⟨_, hexec, ?_⟩⟩
    · rw [State.pdecChecked, hform]
      rfl
    · rw [State.pdecChecked, hform, hsigok]
      rfl
    · rw [State.pdecChecked, hform, hsigok]
      exact if_pos hle
    · have hchecked : s.pdecChecked n m p h = s.pdecCompute n p (p.psets.getD k {}) h m c1 := by
        have hlimbs : smallLimbs p (p.psets.getD k {}) (pdecReqOf m) c1 = true := by
          refine List.all_eq_true.2 fun q hq => List.all_eq_true.2 fun w hw => decide_eq_true (hsmall q hq w hw)
        have hwide : decide (2 < (p.psets.getD k {}).scheme) = false := decide_eq_false (Nat.not_lt.2 hsch)
        rw [State.pdecChecked, hform, hsigok, Bool.not_true, if_neg Bool.false_ne_true, if_neg Bool.false_ne_true,
          if_neg (Nat.not_le.2 hlt),
          hk]
        dsimp only
        rw [hdig, hwide, hrange, bne_self_eq_false, Bool.not_true, Bool.or_self, if_neg Bool.false_ne_true,
          if_neg Bool.false_ne_true,
          hc1]
        dsimp only
        rw [hsha, hlimbs, bne_self_eq_false]
        rfl
      rw [hread, hchecked]
      exact pdecCompute_spec hr hfaults (fn_of_read hm)

end Sys2Proof.Machine
end

section
/-! Events of the security unit (R442, R443, R450, R453, R454). -/

namespace Sys2Proof.Machine

open Sys2Proof.Stated

/-! ### What the engine's queue leaves of the security unit -/

/-- The security unit without the engine's queue and operand memory,
    the vault's share and the queue of partial decryptions. -/
def Sec.steady (x : Sec) : Sec :=
  { x with sigQueue := [], sigBusy := none, operands := false, vaultShare := none, pdecQueue := [] }

/-- What is served at the engine, and for whom, is all that has changed of the security unit. -/
structure Steady (s t : State) : Prop where
  sec : t.sec.steady = s.sec.steady

namespace Steady

section
variable {s t u : State}

theorem refl (s : State) : Steady s s := ⟨rfl⟩

theorem trans (h : Steady s t) (g : Steady t u) : Steady s u := ⟨g.sec.trans h.sec⟩

theorem keeps {F : List Field} (h : Steady s t) (hk : Keeps F t u) (hF : Field.sec ∉ F := by decide) : Steady s u :=
  ⟨(congrArg Sec.steady (hk.same .sec hF)).trans h.sec⟩

theorem congr (h : Steady s t) (hu : u.sec.steady = t.sec.steady) : Steady s u := ⟨hu.trans h.sec⟩

/-- A part of the security unit that the engine's queue is not about. -/
theorem part {α : Type} (h : Steady s t) (π : Sec → α) (hπ : ∀ x, π x = π x.steady) : π t.sec = π s.sec := by
  rw [hπ, h.sec, ← hπ]

theorem foldl {β : Type} {f : State → β → State} (h : Steady s t) (hf : ∀ u b, Steady u (f u b)) (l : List β) :
    Steady s (l.foldl f t) := by
  induction l generalizing t with
  | nil => exact h
  | cons b l ih => exact ih (h.trans (hf t b))

theorem sigStart (h : Steady s t) : Steady s t.sigStart := by
  refine h.congr ?_
  rw [State.sigStart]
  split
  · rfl
  · split <;> rfl

theorem sigAbort (h : Steady s t) (p : SigOp → Bool) : Steady s (t.sigAbort p) :=
  (h.congr (u := { t with sec := { t.sec with
    sigQueue := t.sec.sigQueue.filter fun e => !p e.2
    sigBusy := if t.sec.sigBusy.any p then none else t.sec.sigBusy
    operands := t.sec.operands && !t.sec.sigBusy.any p } }) rfl).sigStart

theorem sigPush (h : Steady s t) (op : SigOp) : Steady s (t.sigPush op) :=
  (h.congr (u := { t with sec := { t.sec with sigQueue := t.sec.sigQueue ++ [(t.tm.now, op)] } }) rfl).sigStart

theorem pdecNext (h : Steady s t) (n : Nat) : Steady s (t.pdecNext n) := by
  have hout : Steady s (t.pdecOut n) :=
    (h.congr (u := { t with sec := { t.sec with pdecQueue := t.sec.pdecQueue.filter (· != n) } }) rfl).sigAbort _
  rcases pdecNext_cases (s := t) (n := n) with heq | ⟨m, -, heq⟩
  · rwa [heq]
  · rw [heq]
    exact (hout.congr (u := (t.pdecOut n).modTenant m fun x => { x with pdecRun := 2 }) rfl).sigPush _

theorem pdecRefuse (h : Steady s t) (n code : Nat) : Steady s (t.pdecRefuse n code) :=
  (h.congr (u := (t.modTenant n fun x => { x with pdecRun := 4, pdecReason := code }).pdecWipe n) rfl).pdecNext n

theorem linkFail (h : Steady s t) (j reason : Nat) : Steady s (t.linkFail j reason) :=
  ((h.congr (u := t.setLink j ((t.link j).failed reason)) rfl).sigAbort _).keeps
    (F := [.pw, .jobs, .jobSeq, .runs, .arrs, .dies, .links, .dom, .hm, .trace,
      .out]) (Keeps.refl _).pathsDown.log.replaceCheck

theorem trainFail (h : Steady s t) (j : Nat) : Steady s (t.trainFail j) := by
  have habort : Steady s ((t.setLink j (t.link j).stepFailed).abortLink j) :=
    (h.congr (u := t.setLink j (t.link j).stepFailed) rfl).sigAbort _
  have heq : t.trainFail j = if 10 ≤ (t.link j).attempts + 1 then
      ((t.setLink j (t.link j).stepFailed).abortLink j).linkFail j 1
      else (t.setLink j (t.link j).stepFailed).abortLink j := rfl
  rw [heq]
  split
  · exact habort.linkFail ..
  · exact habort

end

end Steady

section
variable {s : State}

/-- Whether the engine has failed, and how often it has disagreed with itself. -/
def Sec.trust (x : Sec) : Bool × Nat := (x.signetFailed, x.mismatch)

/-- The requester of an operation that failed leaves the engine's standing as it is. -/
theorem sigFinish_trust (op : SigOp) : (s.sigFinish op false).sec.trust = s.sec.trust := by
  cases op with
  | linkKex j =>
    show (s.kexDone j false).sec.trust = _
    rw [State.kexDone]
    split
    · rfl
    · exact ((Steady.refl s).trainFail j).part Sec.trust fun _ => rfl
  | linkRekey j => rfl
  | pdec n => exact ((Steady.refl s).pdecRefuse n 0x53).part Sec.trust fun _ => rfl
  | manifest n => rfl
  | offer n =>
    have heq : s.offerDone n false = if (s.tenant n).offerSt != 1 then s else if !s.entropyOk then s.refuseOffer n 0x52
      else s.refuseOffer n 0x53 := rfl
    show (s.offerDone n false).sec.trust = _
    rw [heq]
    split_ifs <;> rfl
  | submit n =>
    have heq : s.submitDone n false = if (s.tenant n).submitSt != 1 then s else if !s.entropyOk then s.refuseSubmit n 0x52
      else s.refuseSubmit n 0x53 := rfl
    show (s.submitDone n false).sec.trust = _
    rw [heq]
    split_ifs <;> rfl
  | hallmark =>
    have heq : s.hmDone false = if s.sec.hmRun != 1 then s else if !s.entropyOk then s.refuseHm 0x52 else s.refuseHm 0x53
      := rfl
    show (s.hmDone false).sec.trust = _
    rw [heq]
    split_ifs <;> rfl

/-- The engine out of service. -/
def State.engineOut (s : State) : State :=
  { s with sec := { s.sec with signetFailed := true, sigQueue := [], sigBusy := none, operands := false } }

theorem failEngine_trust : s.failEngine.sec.trust = (true, s.sec.mismatch) := by
  have hops (l : List SigOp) (u : State) : (l.foldl (fun s op => s.sigFinish op false) u).sec.trust = u.sec.trust := by
    induction l generalizing u with
    | nil => rfl
    | cons op l ih => exact (ih _).trans (sigFinish_trust op)
  have hqueue (u : State) : (u.sec.pdecQueue.foldl (fun s n => s.pdecRefuse n 0x53) u).sec.trust = u.sec.trust :=
    ((Steady.refl u).foldl (fun v n => (Steady.refl v).pdecRefuse n 0x53) _).part Sec.trust fun _ => rfl
  exact (hqueue _).trans (hops (s.sec.sigQueue.map Prod.snd) s.engineOut)

/-! ### The engine's end -/

theorem exec_signetOperationDone {op : SigOp} {b : Bool} (h : s.sec.sigBusy = some op) (hb : (b && op.isPrivate) = false) :
    exec (.signetOperationDone b) s = .next ((engineFree s).sigFinish op true).sigStart := by
  show execSignetOperationDone b s = _
  rw [execSignetOperationDone, h]
  dsimp only
  rw [hb]
  rfl

/-- The state after an operation with a secret key whose two results differ (R453). -/
def State.mismatched (s : State) (op : SigOp) : State := (engineFree s).noteMismatch.sigFinish op false

theorem exec_signetOperationDone_mismatch {op : SigOp} {b : Bool} (h : s.sec.sigBusy = some op)
    (hb : (b && op.isPrivate) = true) : exec (.signetOperationDone b) s =
      .next (if 8 ≤ (s.mismatched op).sec.mismatch then (s.mismatched op).failEngine else (s.mismatched op).sigStart) := by
  show execSignetOperationDone b s = _
  rw [execSignetOperationDone, h]
  dsimp only
  rw [hb]
  simp only [Bool.true_and, decide_eq_true_eq]
  rfl

theorem mismatched_trust (op : SigOp) : (s.mismatched op).sec.trust = (s.sec.signetFailed, bump s.sec.mismatch) := by
  have hlog : (engineFree s).noteMismatch.sec.trust = (s.sec.signetFailed, bump s.sec.mismatch) :=
    congrArg Sec.trust (((Keeps.refl (F := [.pw, .hm]) ({ engineFree s with
      sec := { (engineFree s).sec with mismatch := bump s.sec.mismatch } } : State)).log).same .sec (by decide))
  exact (sigFinish_trust op).trans hlog

end

/-! ### The entropy source -/

section
variable {s : State} {n : Nat}

/-- A change of one tenant leaves a part of every tenant that it does not change. -/
theorem tenant_modTenant_part {α : Type} {π : Tenant → α} {f : Tenant → Tenant} (hf : ∀ x, π (f x) = π x)
    (hr : Rising s.tenants) (m : Nat) : π ((s.modTenant m f).tenant n) = π (s.tenant n) := by
  by_cases h : n = m
  · subst h
    rw [tenant_modTenant hr, hf]
  · rw [tenant_modTenant_of_ne h]

/-- The output of the request in progress is unstated (R450). -/
def State.clobbered (s : State) : State :=
  match s.sec.pdecQueue with
  | t :: _ => match s.tenantRead t (s.tenant t).pdecAddr 192, s.plan, (s.tenant t).share with
    | some m, some _, some h =>
      let r := pdecReqOf m
      if s.sec.vaultShare == some t then s.scramble t r.dest (r.level * 4 * 2 ^ h.logn) else s
    | _, _, _ => s
  | [] => s

/-- The requests of the DRBG's consumers. -/
def consumes : SigOp → Bool
  | .offer _ => true
  | .submit _ => true
  | .pdec _ => true
  | .hallmark => true
  | _ => false

/-- The offers that wait are refused. -/
def State.offersStopped (s : State) : State :=
  (s.tenants.map (·.1)).foldl (fun s t => if (s.tenant t).offerSt = 1 then s.refuseOffer t 0x52 else s) s

/-- The submissions that wait are refused. -/
def State.submitsStopped (s : State) (ts : List Nat) : State :=
  ts.foldl (fun s t => if (s.tenant t).submitSt = 1 then s.refuseSubmit t 0x52 else s) s

/-- The partial decryptions that wait are refused. -/
def State.pdecsStopped (s : State) : State := s.sec.pdecQueue.foldl (fun s t => s.pdecRefuse t 0x52) s

/-- The hallmark that waits is refused. -/
def State.hmStopped (s : State) : State := if s.sec.hmRun = 1 then s.refuseHm 0x52 else s


theorem stopConsumers_eq : s.stopConsumers = (((s.clobbered.sigAbort consumes).offersStopped.submitsStopped
    ((s.clobbered.sigAbort consumes).tenants.map (·.1))).pdecsStopped.hmStopped).sigAbort
      fun op => match op with
        | .pdec _ => true
        | _ => false := by
  rfl

theorem clobbered_keeps : Keeps [.hostMem, .free] s s.clobbered := by
  rw [State.clobbered]
  split
  · split
    · split
      · exact (Keeps.refl s).scramble
      · exact .refl s
    · exact .refl s
  · exact .refl s

theorem offersStopped_steady : Steady s s.offersStopped := by
  refine (Steady.refl s).foldl (fun u t => ?_) _
  split
  · exact (Steady.refl u).congr rfl
  · exact .refl u

theorem submitsStopped_steady (ts : List Nat) : Steady s (s.submitsStopped ts) := by
  refine (Steady.refl s).foldl (fun u t => ?_) _
  split
  · exact (Steady.refl u).congr rfl
  · exact .refl u

theorem pdecsStopped_steady : Steady s s.pdecsStopped
    := (Steady.refl s).foldl (fun u t => (Steady.refl u).pdecRefuse t 0x52) _

/-- The security unit once every consumer has stopped: the hallmark that waited is refused, and nothing else has changed
but the queues. -/
theorem stopConsumers_sec : s.stopConsumers.sec.steady = (if s.sec.hmRun = 1 then
    { s.sec with hmRun := 3, hmReason := 0x52 } else s.sec).steady := by
  have htenants : Steady s ((s.clobbered.sigAbort consumes).offersStopped.submitsStopped
      ((s.clobbered.sigAbort consumes).tenants.map (·.1))).pdecsStopped :=
    ((((Steady.refl s).keeps clobbered_keeps).sigAbort consumes).trans offersStopped_steady).trans
      ((submitsStopped_steady _).trans pdecsStopped_steady)
  generalize hu : ((s.clobbered.sigAbort consumes).offersStopped.submitsStopped
    ((s.clobbered.sigAbort consumes).tenants.map (·.1))).pdecsStopped = u at htenants
  have hrun : u.sec.hmRun = s.sec.hmRun := htenants.part Sec.hmRun fun _ => rfl
  rw [stopConsumers_eq, hu, ((Steady.refl _).sigAbort _).sec, State.hmStopped, hrun]
  split
  · exact congrArg (fun x : Sec => ({ x with hmRun := 3, hmReason := 0x52 } : Sec)) htenants.sec
  · exact htenants.sec

/-- The tenants' table rises, and the tenant has no offer that waits or has been refused one. -/
def OfferStopped (n : Nat) (t : State) : Prop := Rising t.tenants ∧ (t.tenant n).offerSt = 3

/-- A change of a tenant that is not about offers keeps a refused offer refused. -/
theorem OfferStopped.modTenant (h : OfferStopped n s) (m : Nat) {f : Tenant → Tenant} (hf : ∀ x, (f x).offerSt = x.offerSt) :
    OfferStopped n (s.modTenant m f) :=
  ⟨rising_mset h.1, (tenant_modTenant_part hf h.1 m).trans h.2⟩

theorem OfferStopped.congr {t : State} (h : OfferStopped n s) (ht : t.tenants = s.tenants) : OfferStopped n t :=
  ⟨ht ▸ h.1, (congrArg Tenant.offerSt (State.tenant_congr ht n)).trans h.2⟩

theorem OfferStopped.foldl {β : Type} {f : State → β → State} (hf : ∀ u b, OfferStopped n u → OfferStopped n (f u b))
    (h : OfferStopped n s) (l : List β) : OfferStopped n (l.foldl f s) := by
  induction l generalizing s with
  | nil => exact h
  | cons b l ih => exact ih (hf s b h)

theorem OfferStopped.sigAbort (h : OfferStopped n s) (p : SigOp → Bool) : OfferStopped n (s.sigAbort p) :=
  h.congr ((Keeps.sigAbort (F := [.sec]) (.refl s)).same .tenants (by decide))

theorem OfferStopped.pdecRefuse (h : OfferStopped n s) (m code : Nat) : OfferStopped n (s.pdecRefuse m code) := by
  have hwipe : OfferStopped n ((s.modTenant m fun x => { x with pdecRun := 4, pdecReason := code }).pdecWipe m) :=
    ((h.modTenant m (f := fun x => { x with pdecRun := 4, pdecReason := code }) fun _ => rfl).congr
      (t := { s.modTenant m fun x => { x with pdecRun := 4, pdecReason := code } with
        sec := { s.sec with vaultShare := none } }) rfl).modTenant m (f := Tenant.wiped) fun _ => rfl
  generalize hu : (s.modTenant m fun x => { x with pdecRun := 4, pdecReason := code }).pdecWipe m = u at hwipe
  have hout : OfferStopped n (u.pdecOut m) := hwipe.congr pdecOut_tenants
  rw [State.pdecRefuse, hu]
  rcases pdecNext_cases (s := u) (n := m) with heq | ⟨k, -, heq⟩
  · rwa [heq]
  · rw [heq]
    refine (hout.modTenant k (f := fun x => { x with pdecRun := 2 }) fun _ => rfl).congr ?_
    exact (Keeps.sigPush (F := [.sec]) (.refl _)).same .tenants (by decide)

theorem refuseOffer_stopped (hr : Rising s.tenants) (code : Nat) : OfferStopped n (s.refuseOffer n code) :=
  ⟨rising_mset hr, congrArg Tenant.offerSt (tenant_modTenant hr n _)⟩

theorem offersStopped_stopped (hr : Rising s.tenants) (h : (s.tenant n).offerSt = 1) : OfferStopped n s.offersStopped := by
  have hmem : n ∈ s.tenants.map (·.1) := by
    rcases mget_mem_or_default ({} : Tenant) s.tenants n with hd | hm
    · rw [State.tenant, hd] at h
      exact absurd h (by decide)
    · exact List.mem_map.2 ⟨_, hm, rfl⟩
  have hkeep (u : State) (m : Nat) (hu : OfferStopped n u) :
      OfferStopped n (if (u.tenant m).offerSt = 1 then u.refuseOffer m 0x52 else u) := by
    split
    · by_cases hm : n = m
      · exact hm ▸ refuseOffer_stopped hu.1 0x52
      · exact ⟨rising_mset hu.1, (congrArg Tenant.offerSt (tenant_modTenant_of_ne hm _)).trans hu.2⟩
    · exact hu
  refine foldl_reaches (P := fun m u => m = n → OfferStopped n u)
    (Q := fun u => Rising u.tenants ∧ ((u.tenant n).offerSt = 1 ∨ OfferStopped n u)) (fun u m hu => ?_) (fun u m hu hm => ?_)
    (fun u m k hu hm hmn => hkeep u k (hm hmn)) _ ⟨hr, .inl h⟩ n hmem rfl
  · rcases hu with ⟨hr, h1 | h3⟩
    · by_cases hm : n = m
      · subst hm
        rw [if_pos h1]
        exact ⟨rising_mset hr, .inr (refuseOffer_stopped hr 0x52)⟩
      · split
        · exact ⟨rising_mset hr, .inl ((congrArg Tenant.offerSt (tenant_modTenant_of_ne hm _)).trans h1)⟩
        · exact ⟨hr, .inl h1⟩
    · exact ⟨(hkeep u m h3).1, .inr (hkeep u m h3)⟩
  · subst hm
    rcases hu with ⟨hr, h1 | h3⟩
    · rw [if_pos h1]
      exact refuseOffer_stopped hr 0x52
    · exact hkeep u m h3

/-- An offer that waited is refused. -/
theorem stopConsumers_offer (hr : Rising s.tenants)
    (h : (s.tenant n).offerSt = 1) : (s.stopConsumers.tenant n).offerSt = 3 := by
  have hstart : (s.clobbered.sigAbort consumes).tenants = s.tenants :=
    ((Keeps.sigAbort (F := [.sec]) (.refl s.clobbered)).same .tenants (by decide)).trans
      (clobbered_keeps.same .tenants (by decide))
  have hoffers : OfferStopped n (s.clobbered.sigAbort consumes).offersStopped :=
    offersStopped_stopped (hstart ▸ hr) ((congrArg Tenant.offerSt (State.tenant_congr hstart n)).trans h)
  have hsubmits : OfferStopped n ((s.clobbered.sigAbort consumes).offersStopped.submitsStopped
      ((s.clobbered.sigAbort consumes).tenants.map (·.1))) := by
    refine hoffers.foldl (fun u m hu => ?_) _
    split
    · exact hu.modTenant m fun _ => rfl
    · exact hu
  have hpdecs := hsubmits.foldl (fun u m hu => hu.pdecRefuse m 0x52)
    ((s.clobbered.sigAbort consumes).offersStopped.submitsStopped
      ((s.clobbered.sigAbort consumes).tenants.map (·.1))).sec.pdecQueue
  rw [stopConsumers_eq]
  refine (OfferStopped.sigAbort ?_ _).2
  rw [State.hmStopped]
  split
  · exact hpdecs.congr rfl
  · exact hpdecs

/-- The part with a failure of the entropy source counted. -/
def State.entropyLost (s : State) : State :=
  { s with sec := { s.sec with
    entropy := if 16 ≤ bump s.sec.entropyFails then .failed else .unhealthy
    drbgUp := false
    entropyFails := bump s.sec.entropyFails } }

theorem exec_entropyFail (hp : s.pw.part ≠ .off) (h : s.sec.entropy ≠ .failed) : exec .entropyFail s =
    .next (s.entropyLost.log 0x50 0xFF 0 (bump s.sec.entropyFails)).stopConsumers := by
  show execEntropyFail s = _
  rw [execEntropyFail, State.powered_of_ne hp, beq_false_of_ne h]
  rfl

theorem exec_entropyFail_idle (h : s.pw.part = .off ∨ s.sec.entropy = .failed) : exec .entropyFail s = .next s := by
  have hidle : (!s.powered || s.sec.entropy == .failed) = true := by
    rcases h with h | h
    · rw [State.powered, h]
      rfl
    · rw [h]
      exact Bool.or_true _
  exact congrArg Host.Outcome.next (if_pos hidle)

theorem exec_entropyRetest {b : Bool} (h : s.sec.entropy = .unhealthy) : exec (.entropyRetest b) s =
    .next (if b && s.powered then State.instantiateDrbg { s with sec := { s.sec with entropy := .healthy } } else s) := by
  show execEntropyRetest b s = _
  rw [execEntropyRetest, h]
  rfl

/-! ### The vault and the boundary scan -/

theorem exec_vaultSession {j : Nat} (hj : j < 32) : exec (.vaultUncorrectable (.linkSession j)) s =
    .next (if (s.link j).session then (s.linkFail j 5).startTraining { link := j } else s) := by
  show need (linkWf j) _ _ = _
  rw [linkWf_of_lt hj, need_true]

/-- A link that fails and trains anew keeps its lanes. -/
theorem linkFail_lanes (j reason : Nat) :
    (((s.linkFail j reason).link j).equalised { link := j }).lanes = (s.link j).lanes := by
  have hbad : ((s.linkFail j reason).link j).badLanes = (s.link j).badLanes :=
    linkFail_part (π := Link.badLanes) (fun _ => rfl) j reason
  have hcontains (l : List Nat) (i : Nat) : ([] ++ l).eraseDups.contains i = l.contains i := by
    simp [List.mem_eraseDups]
  simp only [Link.lanes, Link.equalised, List.flatMap_nil, hcontains, hbad]

theorem exec_vaultShare {n : Nat} (h : s.sec.vaultShare = some n) : exec (.vaultUncorrectable .share) s =
    .next (s.pdecRefuse n 0x59) := by
  show execVaultUncorrectable .share s = _
  rw [execVaultUncorrectable, h]

theorem pdecRefuse_vaultShare (code : Nat) : (s.pdecRefuse n code).sec.vaultShare = none := by
  have hstart (u : State) : u.sigStart.sec.vaultShare = u.sec.vaultShare := by
    rw [State.sigStart]
    split
    · rfl
    · split <;> rfl
  rw [State.pdecRefuse]
  rcases pdecNext_cases (s := (s.modTenant n fun x => { x with pdecRun := 4, pdecReason := code }).pdecWipe n) (n := n)
    with heq | ⟨m, -, heq⟩
  · rw [heq]
    exact hstart _
  · rw [heq]
    exact (hstart _).trans (hstart _)

/-- The part with its vault wiped and no key derived anew. -/
def State.keysGone (s : State) : State := { s.wipeVault with pw := { s.pw with keysBlocked := true } }

theorem exec_jtagOther (hp : s.pw.part ≠ .off) : exec (.jtagInstruction .other) s = .next (s.keysGone.enterSafe 3) := by
  show execJtagInstruction .other s = _
  rw [execJtagInstruction]
  exact congrArg Host.Outcome.next (if_pos (State.powered_of_ne hp))

theorem enterSafe_keysBlocked (row : Nat) : (s.enterSafe row).pw.keysBlocked = s.pw.keysBlocked := by
  by_cases h : s.pw.part = .safe ∨ s.pw.part = .off
  · exact congrArg (fun t : State => t.pw.keysBlocked) (if_pos h)
  · obtain ⟨hsafe, hoff⟩ := not_or.1 h
    have hk : Keeps [.jobs, .jobSeq, .runs, .links, .dom, .out] s s.safeAbandoned := (Keeps.refl s).withDom.abandonRuns
    have hpw : s.safeAbandoned.pw.keysBlocked = s.pw.keysBlocked := congrArg Power.keysBlocked (hk.same .pw (by decide))
    rw [enterSafe_eq hsafe hoff]
    exact ((Logged.refl _).log.power Power.keysBlocked fun _ => rfl).trans hpw

end

section
variable {s : State} {n : Nat}

/-- What a failure of the entropy source leaves of the security unit. -/
theorem entropyFail_spec (hr : Rising s.tenants) :
    let t := (s.entropyLost.log 0x50 0xFF 0 (bump s.sec.entropyFails)).stopConsumers
    t.sec.entropyFails = bump s.sec.entropyFails ∧ t.sec.drbgUp = false ∧
    t.sec.entropy = (if 16 ≤ bump s.sec.entropyFails then .failed else .unhealthy) ∧
    (s.sec.hmRun = 1 → t.sec.hmRun = 3 ∧ t.sec.hmReason = 0x52) ∧
    ∀ n, (s.tenant n).offerSt = 1 → (t.tenant n).offerSt = 3 := by
  intro t
  let u : State := s.entropyLost.log 0x50 0xFF 0 (bump s.sec.entropyFails)
  have hk : Keeps [.pw, .hm] s.entropyLost u := (Keeps.refl _).log
  have hsec : u.sec = s.entropyLost.sec := hk.same .sec (by decide)
  have htenants : u.tenants = s.tenants := hk.same .tenants (by decide)
  have hstop := stopConsumers_sec (s := u)
  rw [hsec] at hstop
  have hpart {α : Type} (π : Sec → α) (hπ : ∀ x, π x = π x.steady) : π t.sec = π (if s.sec.hmRun = 1 then
      { s.entropyLost.sec with hmRun := 3, hmReason := 0x52 } else s.entropyLost.sec) := by
    rw [hπ, hπ (ite ..)]
    exact congrArg π hstop
  have hite {α : Type} (π : Sec → α) (h : π { s.entropyLost.sec with hmRun := 3, hmReason := 0x52 } = π s.entropyLost.sec) :
      π (if s.sec.hmRun = 1 then { s.entropyLost.sec with hmRun := 3, hmReason := 0x52 } else s.entropyLost.sec) =
        π s.entropyLost.sec := by
    split
    · exact h
    · rfl
  refine ⟨(hpart Sec.entropyFails fun _ => rfl).trans (hite Sec.entropyFails rfl),
    (hpart Sec.drbgUp fun _ => rfl).trans (hite Sec.drbgUp rfl),
    (hpart Sec.entropy fun _ => rfl).trans (hite Sec.entropy rfl), fun hrun => ⟨?_, ?_⟩, fun n hn => ?_⟩
  · exact (hpart Sec.hmRun fun _ => rfl).trans (congrArg Sec.hmRun (if_pos hrun))
  · exact (hpart Sec.hmReason fun _ => rfl).trans (congrArg Sec.hmReason (if_pos hrun))
  · exact stopConsumers_offer (htenants ▸ hr) ((congrArg Tenant.offerSt (State.tenant_congr htenants n)).trans hn)

end

/-- Settles O49. The engine's queue, its aborts and its refusals leave the standing of the security unit as it is. -/
theorem securityEventsAct : Obligations.SecurityEventsAct := by
  unfold Obligations.SecurityEventsAct
  refine ⟨fun s op b h => ⟨fun hb => exec_signetOperationDone h ?_, fun hb hop => ?_⟩,
    fun s => ⟨exec_entropyFail_idle, fun hp he hr => ⟨_, exec_entropyFail hp he, entropyFail_spec hr⟩⟩,
    fun s b h => ⟨fun hb => ?_, fun hb hp => ?_⟩, fun s => ⟨?_, fun j hj => ⟨fun h => ?_, fun h hl => ?_⟩, fun h => ?_,
      fun n hn hr => ?_, fun h => ?_, fun h => ?_⟩, fun s => ⟨?_, fun hp => ?_, fun hp => ?_⟩⟩
  · rw [Bool.and_eq_false_iff]
    exact hb
  · have htrust := mismatched_trust (s := s) op
    have hcount : (s.mismatched op).sec.mismatch = bump s.sec.mismatch := congrArg Prod.snd htrust
    refine ⟨_, exec_signetOperationDone_mismatch h (by rw [hb, hop]; rfl), ?_⟩
    rw [hcount]
    split
    · have hfail := failEngine_trust (s := s.mismatched op)
      exact ⟨(congrArg Prod.snd hfail).trans hcount, fun _ => congrArg Prod.fst hfail⟩
    · next hlt =>
      exact ⟨(((Steady.refl _).sigStart.part Sec.mismatch fun _ => rfl)).trans hcount, fun hle => absurd hle hlt⟩
  · refine (exec_entropyRetest h).trans (congrArg _ (if_neg (ne_true_of_eq_false ?_)))
    rcases hb with hb | hb
    · rw [hb, Bool.false_and]
    · rw [State.powered, hb]
      exact Bool.and_false b
  · refine ⟨_, (exec_entropyRetest h).trans (congrArg _ (if_pos ?_)), rfl, rfl, rfl⟩
    rw [hb, State.powered_of_ne hp]
    rfl
  · simp only [List.forall_mem_cons, List.not_mem_nil, false_implies, implies_true, and_true]
    exact ⟨rfl, rfl⟩
  · rw [exec_vaultSession hj, h]
    rfl
  · rw [Runs, exec_vaultSession hj, h]
    obtain ⟨⟨hst, -, -, -, hsession⟩, -⟩ :=
      startTraining_locked (s := s.linkFail j 5) (r := { link := j }) rfl ((linkFail_lanes j 5).symm ▸ hl) rfl
    exact ⟨_, rfl, hst, hsession⟩
  · show execVaultUncorrectable .share s = _
    rw [execVaultUncorrectable, h]
  · obtain ⟨hrun, hreason, -⟩ := pdecRefuse_spec (n := n) hr 0x59
    exact ⟨_, exec_vaultShare hn, hrun, hreason, pdecRefuse_vaultShare 0x59⟩
  · refine ⟨_, congrArg Host.Outcome.next (if_pos h), rfl, rfl⟩
  · exact congrArg Host.Outcome.next (if_neg (ne_true_of_eq_false h))
  · simp only [List.forall_mem_cons, List.not_mem_nil, false_implies, implies_true, and_true]
    exact ⟨rfl, rfl, rfl⟩
  · refine congrArg Host.Outcome.next (if_neg ?_)
    rw [State.powered, hp]
    exact Bool.false_ne_true
  · have hblocked : (s.keysGone.enterSafe 3).pw.keysBlocked = true := enterSafe_keysBlocked 3
    refine ⟨_, exec_jtagOther hp, hblocked, ?_, fun hsafe => enterSafe_inSafe hsafe hp⟩
    by_cases hsafe : s.pw.part = .safe
    · rw [enterSafe_of_safe (s := s.keysGone) hsafe]
      rfl
    · exact (enterSafe_inSafe (s := s.keysGone) hsafe hp).2.2.2.2.2.1

end Sys2Proof.Machine
end

section
/-! Requests that reach their entry (R421, R424, R425, R430). -/

namespace Sys2Proof.Machine

open Sys2Proof.Stated

section
variable {s u : State} {q : Requester} {index sub st : Nat} {bs : List Byte} {c : Instr}

theorem running_iff : s.running = true ↔ s.pw.part = .enabled ∨ s.pw.part = .replaceRequested ∨ s.pw.part = .standby := by
  simp only [State.running, State.working, Bool.or_eq_true, beq_iff_eq, or_assoc]

theorem part_of_running (h : s.running = true) : s.pw.part ≠ .off ∧ s.pw.part ≠ .boot ∧ s.pw.part ≠ .safe := by
  rcases running_iff.1 h with h | h | h <;> rw [h] <;> exact ⟨nofun, nofun, nofun⟩

/-- A part past BOOT and not in SAFE is open for requests. -/
theorem closed_of_running (h : s.running = true) (index : Nat) (write : Bool) : s.closed index write = none := by
  rcases running_iff.1 h with h | h | h <;> rw [State.closed, h]

/-- A write that passes the checks has the effect of its entry. -/
theorem dictWrite_heard {r : Right} {row : Row} (h : Heard s q index sub true r) (hrow : s.row? index sub = some row)
    (hright : row.right = r) (hval : valueOk row bs = true) (hro : r ≠ .ro := by exact nofun)
    (hrwd : r = .rwd → s.en.on = false ∧ s.en.st ≠ 1 := by exact nofun) :
    s.dictWrite q index sub bs = s.writeVal q index sub bs := by
  subst hright
  have hopen : (row.right == .rwd && (s.en.on || s.en.st == 1)) = false := by
    cases hr : row.right with
    | rwd =>
      obtain ⟨hon, hst⟩ := hrwd hr
      rw [hon, beq_false_of_ne hst]
      rfl
    | _ => rfl
  unfold State.dictWrite
  rw [closed_of_running h.open', hrow]
  dsimp only
  rw [h.reached, beq_false_of_ne hro, hval, hopen]
  rfl

/-- A write of a value out of its entry's range is refused. -/
theorem dictWrite_range {r : Right} {row : Row} (h : Heard s q index sub true r) (hrow : s.row? index sub = some row)
    (hright : row.right = r) (hval : valueOk row bs = false) (hro : r ≠ .ro := by exact nofun) :
    s.dictWrite q index sub bs = (3, s) := by
  subst hright
  unfold State.dictWrite
  rw [closed_of_running h.open', hrow]
  dsimp only
  rw [h.reached, beq_false_of_ne hro, hval]
  rfl

/-- A write that waits for the part to be disabled. -/
theorem dictWrite_enabled {row : Row} (h : Heard s q index sub true .rwd) (hrow : s.row? index sub = some row)
    (hright : row.right = .rwd) (hval : valueOk row bs = true) (hen : s.en.on = true ∨ s.en.st = 1) :
    s.dictWrite q index sub bs = (4, s) := by
  have hon : (s.en.on || s.en.st == 1) = true := by simpa using hen
  unfold State.dictWrite
  rw [closed_of_running h.open', hrow]
  dsimp only
  rw [hright, h.reached, hval, hon]
  rfl

/-- The state with a response. -/
theorem answered_send (value : List Byte) : Answered q st index sub value (u.send (.response q st index sub value)) :=
  List.getLast?_concat ..

/-- A write request that is answered. -/
theorem runs_command {P : State → Prop} (hq : s.answers q = true) (hexec : exec c s = .next (s.command q index sub bs))
    (hw : s.dictWrite q index sub bs = (st, u)) (hP : P (u.send (.response q st index sub []))) :
    Runs c s fun t => Answered q st index sub [] t ∧ P t := by
  refine ⟨_, hexec, ?_⟩
  rw [command_answered s q index sub bs hq, hw]
  exact ⟨answered_send [], hP⟩

/-- A write request that is refused, or that has nothing to change. -/
theorem onlyAnswers_command (hq : s.answers q = true) (hexec : exec c s = .next (s.command q index sub bs))
    (hw : s.dictWrite q index sub bs = (st, s)) : OnlyAnswers c s q st index sub := by
  refine hexec.trans ?_
  rw [command_answered s q index sub bs hq, hw]
  rfl

end

end Sys2Proof.Machine
end

section
/-! Cold and warm resets (R331, R499, R504, R509..R511, R517). -/

namespace Sys2Proof.Machine

open Sys2Proof.Stated

section
variable {s u : State} {q : Requester} {e : BootEnv} {cause : Nat}

/-! ### Cold resets -/

/-- What a cold reset leaves, with what the part holds outside it. -/
def ColdFrom (s : State) (cause : Nat) (t : State) : Prop := t.pw.part = .boot ∧ t.pw.resetCause = cause ∧ t.plan = none ∧
  t.jobs = [] ∧ t.keys = [] ∧ t.runs = [] ∧ t.gran = [] ∧ t.arrs = [] ∧ t.tenants = [] ∧ t.streams = [] ∧
  t.tm.now = 0 ∧ t.hm.evts = [] ∧ t.hm.fuses = s.hm.fuses ∧ t.hm.sectors = s.hm.sectors ∧ t.hostMem = s.hostMem

theorem beginBoot_part (e : BootEnv) (warm : Bool) : (s.beginBoot e warm).pw.part = .boot ∧
    (s.beginBoot e warm).pw.warm = warm := by
  unfold State.beginBoot
  extract_lets ok pw
  split <;> exact ⟨rfl, rfl⟩

/-- The boot parameters set the part's address, its pulse input, its policy for peers and its gear ceiling. -/
theorem applyParams_parts : s.applyParams.pw.part = s.pw.part ∧ s.applyParams.tm.now = s.tm.now ∧
    s.applyParams.hm.evts = s.hm.evts ∧ s.applyParams.hm.fuses = s.hm.fuses ∧ s.applyParams.hm.sectors = s.hm.sectors := by
  unfold State.applyParams
  extract_lets b dom delay fall pol ceil
  split <;> exact ⟨rfl, rfl, rfl, rfl, rfl⟩

/-- A cold reset lists no plan, job, key, slot, array, tenant or stream. -/
theorem coldState_empty (s : State) : s.coldState.plan = none ∧ s.coldState.jobs = [] ∧ s.coldState.keys = [] ∧
    s.coldState.runs = [] ∧ s.coldState.gran = [] ∧ s.coldState.arrs = [] ∧ s.coldState.tenants = [] ∧
    s.coldState.streams = [] ∧ s.coldState.tm.now = 0 ∧ s.coldState.hm.evts = [] :=
  ⟨rfl, rfl, rfl, rfl, rfl, rfl, rfl, rfl, rfl, rfl⟩

/-- The cause of a reset, and the gear that the ceiling permits. -/
def State.reborn (s : State) (cause : Nat) : State :=
  { s with pw := { s.pw with resetCause := cause }, hm := { s.hm with gear := s.hm.gearCeiling } }

theorem reborn_parts (s : State) (cause : Nat) : (s.reborn cause).pw.part = s.pw.part ∧
    (s.reborn cause).pw.resetCause = cause ∧
    (s.reborn cause).tm = s.tm ∧ (s.reborn cause).hm.evts = s.hm.evts ∧ (s.reborn cause).hm.fuses = s.hm.fuses ∧
    (s.reborn cause).hm.sectors = s.hm.sectors :=
  ⟨rfl, rfl, rfl, rfl, rfl, rfl⟩

theorem coldReset_eq (s : State) (cause : Nat) (e : BootEnv) :
    s.coldReset cause e = (s.coldState.beginBoot e false).applyParams.reborn cause := rfl

theorem coldReset_coldFrom (s : State) (cause : Nat) (e : BootEnv) : ColdFrom s cause (s.coldReset cause e) := by
  have hboot : Keeps [.pw] s.coldState (s.coldState.beginBoot e false) := (Keeps.refl _).beginBoot
  have hhm : (s.coldState.beginBoot e false).hm = s.coldState.hm := hboot.hm
  have htm : (s.coldState.beginBoot e false).tm = s.coldState.tm := hboot.tm
  have hbegin := (beginBoot_part (s := s.coldState) e false).1
  obtain ⟨hpart, hnow, hevts, hfuses, hsectors⟩ := applyParams_parts (s := s.coldState.beginBoot e false)
  obtain ⟨hplan, hjobs, hkeys, hruns, hgran, harrs, htenants, hstreams, htime, hlog⟩ := coldState_empty s
  have hkept : s.coldState.hm.fuses = s.hm.fuses ∧ s.coldState.hm.sectors = s.hm.sectors := ⟨rfl, rfl⟩
  rw [hhm] at hfuses hsectors hevts
  rw [htm] at hnow
  rw [coldReset_eq]
  generalize hu : (s.coldState.beginBoot e false).applyParams = u at *
  have hk : Keeps [.pw, .tm, .dom, .sec, .hm] s.coldState (u.reborn cause) :=
    ((hboot.mono (by decide)).trans (hu ▸ (Keeps.refl _).applyParams)).update
  obtain ⟨rpart, rcause, rtm, revts, rfuses, rsectors⟩ := reborn_parts u cause
  rw [ColdFrom, rpart, rtm, revts, rfuses, rsectors]
  exact ⟨hpart.trans hbegin, rcause, hk.plan.trans hplan, hk.jobs.trans hjobs, hk.keys.trans hkeys,
    hk.runs.trans hruns, (hk.same .gran (by decide)).trans hgran, hk.arrs.trans harrs,
    (hk.same .tenants (by decide)).trans htenants, hk.streams.trans hstreams, hnow.trans htime, hevts.trans hlog,
    hfuses.trans hkept.1, hsectors.trans hkept.2, hk.same .hostMem (by decide)⟩

/-! ### Warm resets -/

theorem outputsOn_congr
    (hd : u.dies = s.dies) (ds : List Nat) (i inc : Nat) : u.outputsOn ds i inc = s.outputsOn ds i inc := by
  simp only [State.outputsOn, State.die_congr hd]

theorem reopenJobs_congr (hj : u.jobs = s.jobs) (hd : u.dies = s.dies) (ds : List Nat) (sel : Job → Bool) :
    (u.reopenJobs ds sel).jobs = (s.reopenJobs ds sel).jobs := by
  simp only [State.reopenJobs, outputsOn_congr hd, hj]

/-- What a warm reset leaves of the part (R509..R511). -/
structure WarmFrom (s : State) (cause : Nat) (e : BootEnv) (t : State) : Prop where
  power : t.pw.part = .boot ∧ t.pw.resetCause = cause ∧ t.pw.warm = true
  runs : t.runs = []
  gran : t.gran = s.gran
  health : t.hm.evts = s.hm.evts ∧ t.hm.fuses = s.hm.fuses ∧ t.hm.sectors = s.hm.sectors
  enable : t.en.on = false ∧ t.en.replay = true
  secrets : t.sec.vaultId = false ∧ t.sec.drbgUp = false
  unloaded : e.loading = true ∧ s.pc.load = 1 → t.plan = none
  kept : e.loading = false ∨ s.pc.load ≠ 1 → t.plan = s.plan ∧ t.jobs = (s.reopenJobs (List.range 8) fun _ => true).jobs ∧
    t.keys = s.keys.map fun k => { k with resident := false }

/-- The part as a warm reset finds it: without its plan where one was being loaded (R331). -/
def State.loadCut (s : State) (e : BootEnv) : State := if e.loading && s.pc.load == 1 then s.unloadPlan else s

/-- The part in BOOT after a warm reset. -/
def State.rewarmed (s : State) (e : BootEnv) : State :=
  (s.reopenJobs (List.range 8) fun _ => true).warmState.beginBoot e true

theorem warmReset_eq (cause : Nat) (e : BootEnv) : s.warmReset cause e =
    { (s.loadCut e).rewarmed e with pw := { ((s.loadCut e).rewarmed e).pw with resetCause := cause } } := rfl

theorem unloadPlan_plan : s.unloadPlan.plan = none := rfl

theorem loadCut_keeps : Keeps [.plan, .pc, .vs, .keys, .slotStats, .arrs, .mem, .links, .dom, .out] s (s.loadCut e) := by
  rw [State.loadCut]
  split
  · exact (Keeps.refl s).unloadPlan
  · exact .refl s

theorem warmReset_warmFrom (s : State) (cause : Nat) (e : BootEnv) : WarmFrom s cause e (s.warmReset cause e) := by
  let u : State := s.loadCut e
  have hcut : Keeps [.plan, .pc, .vs, .keys, .slotStats, .arrs, .mem, .links, .dom, .out] s u := loadCut_keeps
  have hplain (h : e.loading = false ∨ s.pc.load ≠ 1) : u = s := by
    refine if_neg ?_
    rw [Bool.and_eq_true, beq_iff_eq, not_and]
    rcases h with h | h
    · exact fun hl => absurd hl (ne_true_of_eq_false h)
    · exact fun _ => h
  let w : State := (u.reopenJobs (List.range 8) fun _ => true).warmState
  have hboot : Keeps [.pw] w (s.warmReset cause e) := ((Keeps.refl w).beginBoot (e := e) (warm := true)).withPw
  have hhm : (s.warmReset cause e).hm = u.hm.warm := hboot.hm
  have hhms : u.hm = s.hm := hcut.hm
  have hsec : (s.warmReset cause e).sec = u.sec.warm := hboot.same .sec (by decide)
  obtain ⟨hpart, hwarm⟩ := beginBoot_part (s := w) e true
  refine ⟨⟨hpart, rfl, hwarm⟩, hboot.runs, (hboot.same .gran (by decide)).trans (hcut.same .gran (by decide)), ?_, ?_, ?_,
    fun h => ?_, fun h => ?_⟩
  · rw [hhm, hhms]
    exact ⟨rfl, rfl, rfl⟩
  · have hen : (s.warmReset cause e).en = w.en := hboot.en
    rw [hen]
    exact ⟨rfl, rfl⟩
  · rw [hsec]
    exact ⟨rfl, rfl⟩
  · have hu : u = s.unloadPlan := if_pos (by rw [h.1, h.2]; rfl)
    have hplan : (s.warmReset cause e).plan = u.plan := hboot.plan
    rw [hplan, hu]
    rfl
  · have hplan : (s.warmReset cause e).plan = u.plan := hboot.plan
    have hjobs : (s.warmReset cause e).jobs = (u.reopenJobs (List.range 8) fun _ => true).jobs := hboot.jobs
    have hkeys : (s.warmReset cause e).keys = u.keys.map fun k => { k with resident := false } := hboot.keys
    rw [hplan, hjobs, hkeys, hplain h]
    exact ⟨rfl, rfl, rfl⟩

theorem warmReset_tm (s : State) (cause : Nat) (e : BootEnv) : (s.warmReset cause e).tm = { s.tm with dueStep := none } := by
  have hcut : (s.loadCut e).tm = s.tm := loadCut_keeps.tm
  have hboot : Keeps [.pw] ((s.loadCut e).reopenJobs (List.range 8) fun _ => true).warmState (s.warmReset cause e) :=
    (Keeps.refl _).beginBoot.withPw
  have htm : (s.warmReset cause e).tm = { (s.loadCut e).tm with dueStep := none } := hboot.tm
  rw [htm, hcut]

/-- What a warm reset leaves does not depend on the ports' configuration. -/
theorem WarmFrom.of_keeps {t : State} {F : List Field} (h : WarmFrom u cause e t) (hk : Keeps F s u)
    (hF : ∀ f ∈ [Field.gran, .hm, .pc, .plan, .jobs, .dies, .keys], f ∉ F := by decide) : WarmFrom s cause e t := by
  have hsame (f : Field) (hf : f ∈ [Field.gran, .hm, .pc, .plan, .jobs, .dies, .keys]) := hk.same f (hF f hf)
  have hgran : u.gran = s.gran := hsame .gran (by decide)
  have hhm : u.hm = s.hm := hsame .hm (by decide)
  have hpc : u.pc = s.pc := hsame .pc (by decide)
  have hplan : u.plan = s.plan := hsame .plan (by decide)
  have hjobs : u.jobs = s.jobs := hsame .jobs (by decide)
  have hdies : u.dies = s.dies := hsame .dies (by decide)
  have hkeys : u.keys = s.keys := hsame .keys (by decide)
  obtain ⟨hpower, hruns, hg, hh, hen, hsec, hun, hkept⟩ := h
  rw [hgran] at hg
  rw [hhm] at hh
  rw [hpc] at hun hkept
  rw [hplan, hkeys, reopenJobs_congr hjobs hdies] at hkept
  exact ⟨hpower, hruns, hg, hh, hen, hsec, hun, hkept⟩

/-! ### The commands -/

theorem exec_perstWarm (hp : s.pw.part ≠ .off) : exec (.perstBothWarmReset e) s = .next
    { (if s.perstAllowed then ((s.clearPort 0).clearPort 1).warmReset 3 e else (s.clearPort 0).clearPort 1) with ports := [] }
      := by
  show execPerstBothWarmReset e s = _
  rw [execPerstBothWarmReset, State.powered_of_ne hp]
  rfl

/-- The part with its answer to a write of RESET_CMD. -/
def State.resetNoted (s : State) (v : Nat) (o : List Out) : State := { s with pw := { s.pw with resetDue := v }, out := o }

/-- A write of RESET_CMD that is due, or that reaches its entry. -/
theorem resetRequest_eq {v : Nat} (hv : v = 1 ∨ v = 2) (hp : s.pw.part ≠ .off) (hok : v = 1 ∨ s.warmAllowed = true)
    (h : s.pw.resetDue = v ∨ Heard s q 0x2000 6 true .cmd) :
    ∃ o, s.resetRequest q v e = (s.resetNoted v o).resetByCmd v e := by
  have hnoted (o : List Out) : (if (s.resetNoted v o).pw.resetDue = v && (s.resetNoted v o).powered &&
      (v == 1 || (s.resetNoted v o).warmAllowed) then (s.resetNoted v o).resetByCmd v e else s.resetNoted v o) =
      (s.resetNoted v o).resetByCmd v e := by
    have hallow : (v == 1 || (s.resetNoted v o).warmAllowed) = true := by
      rcases hok with h | h
      · rw [h]
        rfl
      · exact (congrArg (v == 1 || ·) h).trans (Bool.or_true _)
    have hpow : (s.resetNoted v o).powered = true := State.powered_of_ne hp
    rw [hallow, hpow]
    exact if_pos (by simp [State.resetNoted])
  by_cases hdue : s.pw.resetDue = v
  · have hself : s.resetNoted v s.out = s := by
      rw [State.resetNoted, ← hdue]
    refine ⟨s.out, ?_⟩
    rw [← hnoted, hself, State.resetRequest, if_pos hdue]
  · have hheard := h.resolve_left hdue
    have hcommand : s.command q 0x2000 6 (leBytes 1 v) = s.resetNoted v (s.out ++ [.response q 0 0x2000 6 []]) := by
      rw [command_answered s q 0x2000 6 _ hheard.answered]
      rcases hv with rfl | rfl
      · rw [dictWrite_heard hheard (row := cmdIn .u8 1 2) rfl rfl (by decide)]
        rfl
      · rw [dictWrite_heard hheard (row := cmdIn .u8 1 2) rfl rfl (by decide)]
        rfl
    exact ⟨_, by rw [State.resetRequest, if_neg hdue, hcommand, hnoted]⟩

theorem warmAllowed_part (h : s.warmAllowed = true) : s.pw.part ≠ .off := by
  intro hp
  rw [State.warmAllowed, hp] at h
  exact absurd h Bool.false_ne_true

/-- Both ports reset. -/
theorem clearPorts_keeps : Keeps [.fns, .streams, .sels, .snap] s ((s.clearPort 0).clearPort 1) :=
  (Keeps.refl s).clearPort.clearPort

end

end Sys2Proof.Machine
end

section
/-! BOOT and its end (R295, R445, R487, R490, R502..R504, R507, R529). -/

namespace Sys2Proof.Machine

open Sys2Proof.Stated

section
variable {s t u : State} {e : BootEnv} {d k : Nat}

/-! ### Dies that stay fenced while BOOT tests the others -/

theorem refuseRetire_dies (k : Nat) : (s.refuseRetire k).dies = s.dies := (Keeps.refuseRetire (F := [.hm]) (.refl s)).dies

theorem State.die_modDie_of_ne (h : d ≠ k) (f : Die → Die) : (s.modDie k f).die d = s.die d :=
  mget_mset_of_ne ({} : Die) s.dies k d _ h

theorem fence_die_of_ne (h : d ≠ k) (cause : Nat) : (s.fence k cause).die d = s.die d := by
  cases hf : (s.die k).fenced with
  | true => rw [State.fence, if_pos hf]
  | false =>
    have hlogged : Keeps [.pw, .hm] (((s.dieLeft k).dieOut k).diePurged k) (s.fence k cause) := by
      rw [fence_eq hf]
      exact (Keeps.refl _).record.log
    have hdies : (s.fence k cause).dies = ((s.dieLeft k).dieOut k).dies := hlogged.dies
    rw [State.die_congr hdies, State.dieOut, State.die_modDie_of_ne h, State.cancelRetire,
      State.die_congr (refuseRetire_dies k), State.die_modDie_of_ne h, State.die_congr dieLeft_keeps.dies]

/-- The spare with the array's contents, before the move is recorded. -/
def State.movedTo (s : State) (k a p q : Nat) : State :=
  let arrs := mset {} (mset {} s.arrs (slotKey k q) (copiedArr s.template.depth (mget {} s.arrs (slotKey k p))))
    (slotKey k p) {}
  ({ s with arrs := arrs } : State).modDie k fun x =>
    { x with retiring := none, slotMap := x.slotMap.set a q, slotSt := (x.slotSt.set p .retired).set q .active }

/-- A retirement that the host asked for is done. -/
def State.moveDone (s : State) (n : Nat) : State :=
  let mine := s.hm.retireHost == some n
  { s with hm := { s.hm with
    retireHost := if mine then none else s.hm.retireHost, retireSt := if mine then 2 else s.hm.retireSt } }

theorem moveArray_eq (a p q : Nat) : s.moveArray k a p q = ((((s.movedTo k a p q).moveDone (k * 64 + a)).record 1 k
    (p + 256 * q + 65536 * a)).log 0x10 k (k * 64 + a) (p + 256 * q)).replaceCheck := rfl

theorem moveArray_die_of_ne (h : d ≠ k) (a p q : Nat) : (s.moveArray k a p q).die d = s.die d := by
  have hk : Keeps [.pw, .hm] (s.movedTo k a p q) (s.moveArray k a p q) := by
    rw [moveArray_eq]
    exact (((Keeps.refl (s.movedTo k a p q)).withHm).record.log).replaceCheck
  rw [State.die_congr hk.dies]
  exact (State.die_modDie_of_ne h _).trans rfl

/-- The part with a slot retired by its test. -/
def State.slotBad (s : State) : State := { s with pw := { s.pw with slotRetired := true } }

theorem bootRetire_cases (k p : Nat) : s.bootRetire k p = s.slotBad ∨
    s.bootRetire k p = (s.slotBad.modDie k fun x => { x with slotSt := x.slotSt.set p .retired }).log 0x11 k 0 p ∨
    ∃ a q, s.bootRetire k p = s.slotBad.moveArray k a p q := by
  unfold State.bootRetire
  extract_lets x pw v
  split
  · exact .inr (.inl rfl)
  · exact .inl rfl
  · split
    · exact .inr (.inr ⟨_, _, rfl⟩)
    · exact .inl rfl

theorem bootRetire_die_of_ne (h : d ≠ k) (p : Nat) : (s.bootRetire k p).die d = s.die d := by
  have hbad : s.slotBad.die d = s.die d := rfl
  rcases bootRetire_cases (s := s) k p with heq | heq | ⟨a, q, heq⟩ <;> rw [heq]
  · exact hbad
  · rw [State.die_congr ((Keeps.log (F := [.pw, .hm]) (.refl _)).dies), State.die_modDie_of_ne h, hbad]
  · rw [moveArray_die_of_ne h, hbad]

/-- The BIST skips a die that is fenced. -/
theorem bootDie_fenced (h : (s.die d).fenced = true) (k : Nat) : ((s.bootDie e k).die d).fenced = true := by
  by_cases hd : d = k
  · subst hd
    rw [State.bootDie]
    exact (congrArg (fun v : State => (v.die d).fenced) (if_pos h)).trans h
  · unfold State.bootDie
    extract_lets _ bad sp ac
    split
    · exact h
    · split
      · rwa [fence_die_of_ne hd]
      · have hfold (l : List Nat) (v : State) : (l.foldl (fun s p => s.bootRetire k p) v).die d = v.die d := by
          induction l generalizing v with
          | nil => rfl
          | cons p l ih => exact (ih _).trans (bootRetire_die_of_ne hd p)
        rwa [hfold]

/-- The tests of the stacks and the stores of the plan leave the dies alone. -/
theorem dieTests_dies : (s.dieTests e).dies = ((List.range 8).foldl (fun s d => s.bootDie e d) s).dies := by
  let v : State := (List.range 8).foldl (fun s d => s.bootDie e d) s
  have hk : Keeps [.pw, .keys, .stk, .hm, .arrs] v (s.dieTests e) := by
    have hstacks : Keeps [.pw, .keys, .stk, .hm, .arrs] v
        ((List.range 6).foldl (fun s k => s.repairStack e k) (e.stackFail.foldl State.loseStack v)) :=
      ((Keeps.refl v).foldl fun _ _ => (Keeps.refl _).loseStack).foldl fun _ _ => (Keeps.refl _).repairStack
    unfold State.dieTests
    extract_lets a b c
    split
    · exact hstacks.writeStores
    · exact hstacks
  exact hk.dies

theorem dieTests_fenced (h : (s.die d).fenced = true) : ((s.dieTests e).die d).fenced = true := by
  rw [State.die_congr dieTests_dies]
  exact List.foldlRecOn (List.range 8) _ (motive := fun u : State => (u.die d).fenced = true) h
    fun u hu k _ => bootDie_fenced hu k

/-! ### What the tests leave of the health manager and of the power state -/

/-- The ceiling of the gear and the stacks' refresh are as they were. -/
structure Calm (s t : State) : Prop where
  gear : t.hm.gearCeiling = s.hm.gearCeiling
  refresh : t.pw.selfRefresh = s.pw.selfRefresh

/-- What the part's state becomes by the replace triggers (R484). -/
def State.replacePart (s : State) : PartState :=
  if s.pw.part == .enabled && s.replaceCheck.hm.replace != 0#8 then .replaceRequested
  else if s.pw.part == .replaceRequested && s.replaceCheck.hm.replace == 0#8 then .enabled else s.pw.part

theorem replaceCheck_pw : s.replaceCheck.pw.unalerted = ({ s.pw with part := s.replacePart } : Power).unalerted := by
  rw [State.replacePart, replaceCheck_replace]
  unfold State.replaceCheck
  extract_lets bits fresh h0 s1 s2 part
  have hlogged : Logged s1 s2 := (Logged.refl s1).foldl (fun _ hu _ => hu.log) fresh
  have hpart : s2.pw.part = s.pw.part := hlogged.power Power.part fun _ => rfl
  have hthen : part = (if s.pw.part == .enabled && bits != 0#8 then .replaceRequested
      else if s.pw.part == .replaceRequested && bits == 0#8 then .enabled else s.pw.part) := by
    simp only [part, hpart]
  show ({ s2.pw with part := part } : Power).unalerted = _
  rw [hthen]
  exact congrArg (fun p : Power => ({ p with part := _ } : Power)) hlogged.pw

/-- The part's state follows the replace triggers. -/
theorem replaceCheck_part : s.replaceCheck.pw.part = s.replacePart := congrArg Power.part (replaceCheck_pw (s := s))

/-- A part of the power state that is neither ALERT_N's level nor the part's state. -/
theorem replaceCheck_power {α : Type} (π : Power → α) (hπ : ∀ x p, π { x with part := p } = π x)
    (hlog : ∀ x, π x = π x.unalerted := by exact fun _ => rfl) : π s.replaceCheck.pw = π s.pw := by
  rw [hlog, replaceCheck_pw, ← hlog, hπ]

namespace Calm

theorem refl (s : State) : Calm s s := ⟨rfl, rfl⟩

theorem trans (h : Calm s t) (g : Calm t u) : Calm s u := ⟨g.gear.trans h.gear, g.refresh.trans h.refresh⟩

theorem logged (h : Calm s t) (g : Logged t u) : Calm s u :=
  h.trans ⟨g.health Health.gearCeiling fun _ => rfl, g.power Power.selfRefresh fun _ => rfl⟩

theorem keeps {F : List Field} (h : Calm s t) (hk : Keeps F t u) (hF : Field.hm ∉ F ∧ Field.pw ∉ F := by decide) : Calm s u :=
  h.trans ⟨congrArg Health.gearCeiling (hk.same .hm hF.1), congrArg Power.selfRefresh (hk.same .pw hF.2)⟩

theorem replaceCheck (h : Calm s t) : Calm s t.replaceCheck := by
  refine h.trans ⟨replaceCheck_health t Health.gearCeiling fun _ _ => rfl, ?_⟩
  exact replaceCheck_power Power.selfRefresh fun _ _ => rfl

theorem foldl {β : Type} {f : State → β → State} (h : Calm s t) (hf : ∀ u b, Calm u (f u b)) (l : List β) :
    Calm s (l.foldl f t) := by
  induction l generalizing t with
  | nil => exact h
  | cons b l ih => exact ih (h.trans (hf t b))

theorem refuseRetire (h : Calm s t) (k : Nat) : Calm s (t.refuseRetire k) := by
  rw [State.refuseRetire]
  split
  · exact h.trans ⟨rfl, rfl⟩
  · exact h

theorem fence (h : Calm s t) (k cause : Nat) : Calm s (t.fence k cause) := by
  cases hf : (t.die k).fenced with
  | true =>
    rw [State.fence, if_pos hf]
    exact h
  | false =>
    have hout : Calm s ((t.dieLeft k).dieOut k) := by
      rw [State.dieOut, State.cancelRetire]
      exact ((((h.keeps dieLeft_keeps).trans (u := (t.dieLeft k).modDie k _) ⟨rfl, rfl⟩).refuseRetire k)).trans ⟨rfl, rfl⟩
    rw [fence_eq hf]
    exact (hout.trans (u := ((t.dieLeft k).dieOut k).diePurged k) ⟨rfl, rfl⟩).logged (Logged.refl _).record.log

theorem moveArray (h : Calm s t) (k a p q : Nat) : Calm s (t.moveArray k a p q) := by
  rw [moveArray_eq]
  exact ((h.trans (u := (t.movedTo k a p q).moveDone (k * 64 + a)) ⟨rfl, rfl⟩).logged (Logged.refl _).record.log).replaceCheck

theorem bootRetire (h : Calm s t) (k p : Nat) : Calm s (t.bootRetire k p) := by
  have hbad : Calm s t.slotBad := h.trans ⟨rfl, rfl⟩
  rcases bootRetire_cases (s := t) k p with heq | heq | ⟨a, q, heq⟩ <;> rw [heq]
  · exact hbad
  · exact (hbad.trans (u := t.slotBad.modDie k _) ⟨rfl, rfl⟩).logged (Logged.refl _).log
  · exact hbad.moveArray ..

theorem bootDie (h : Calm s t) (k : Nat) : Calm s (t.bootDie e k) := by
  unfold State.bootDie
  extract_lets x bad sp ac
  split
  · exact h
  · split
    · exact h.fence k 1
    · exact h.foldl (fun _ p => (refl _).bootRetire k p) _

theorem loseStack (h : Calm s t) (k : Nat) : Calm s (t.loseStack k) := by
  unfold State.loseStack
  extract_lets v w x
  split
  · exact h
  · exact ((h.trans (u := w) ⟨rfl, rfl⟩).logged (Logged.refl w).record.log).replaceCheck

theorem retireRow (h : Calm s t) (k n : Nat) : Calm s (t.retireRow k n) := by
  unfold State.retireRow
  extract_lets bs v w x
  have hx : Calm s x := (h.trans (u := w) ⟨rfl, rfl⟩).logged (Logged.refl w).recordQueue.log
  split
  · exact hx.loseStack k
  · exact hx

theorem repairStack (h : Calm s t) (k : Nat) : Calm s (t.repairStack e k) := by
  unfold State.repairStack
  extract_lets x bad kept out v
  split
  · exact h
  · exact (h.trans (u := v) ⟨rfl, rfl⟩).foldl (fun u n => (refl u).retireRow k n) _

theorem dieTests (h : Calm s t) : Calm s (t.dieTests e) := by
  unfold State.dieTests
  extract_lets a b c
  have hc : Calm s c := ((h.foldl (fun u k => (refl u).bootDie k) _).foldl (fun u k => (refl u).loseStack k) _).foldl
    (fun u k => (refl u).repairStack k) _
  split
  · exact hc.keeps (F := [.arrs]) (Keeps.refl c).writeStores
  · exact hc

end Calm

end

end Sys2Proof.Machine
end

section
/-! The end of BOOT, and the resets (R295, R445, R487, R490, R499, R502..R504, R507, R509..R511, R517, R529). -/

namespace Sys2Proof.Machine

open Sys2Proof.Stated

section
variable {s : State} {e : BootEnv} {d : Nat}

/-! ### The fused dies -/

/-- The part with its record's active sector found. -/
def State.sectored (s : State) : State := { s with hm := { s.hm with active := activeSector s.hm } }

/-- The part with its record reapplied (R487). -/
def State.reapplied (s : State) : State := (activeEnts s.sectored.hm).foldl State.reapply s.sectored

/-- A die out of use by its fuses. -/
def Die.fused (x : Die) : Die := { x with fenced := true, stopped := true }

/-- A die whose fuses are burnt leaves use (R490). -/
def State.fuseDie (s : State) (d : Nat) : State :=
  if s.hm.fuses.contains (BitVec.ofNat 8 (0x80 + d)) then s.modDie d Die.fused else s

theorem bootRecord_eq : s.bootRecord = (List.range 8).foldl State.fuseDie s.reapplied := rfl

theorem sectored_health : s.sectored.hm.fuses = s.hm.fuses ∧ Calm s s.sectored := ⟨rfl, rfl, rfl⟩

theorem reapplied_keeps : Keeps [.dies, .stk] s.sectored s.reapplied :=
  (Keeps.refl s.sectored).foldl fun t x => (Keeps.refl t).reapply

theorem fuseDie_keeps (d : Nat) : Keeps [.dies] s (s.fuseDie d) := by
  rw [State.fuseDie]
  split
  · exact (Keeps.refl s).setDie
  · exact .refl s

theorem reapplied_fuses : s.reapplied.hm.fuses = s.hm.fuses :=
  (congrArg Health.fuses reapplied_keeps.hm).trans sectored_health.1

theorem bootRecord_calm : Calm s s.bootRecord := by
  rw [bootRecord_eq]
  exact (sectored_health.2.keeps reapplied_keeps).keeps (F := [.dies]) ((Keeps.refl _).foldl fun t d => fuseDie_keeps d)

theorem die_modDie_fused (s : State) (d : Nat) : ((s.modDie d Die.fused).die d).fenced = true := by
  have hne : (s.die d).fused ≠ {} := fun h => Bool.noConfusion (congrArg Die.fenced h)
  exact congrArg Die.fenced (State.die_setDie_of_ne_default s d hne)

/-- A die whose fuses are burnt is fenced by BOOT (R490). -/
theorem bootRecord_fenced (hd : d < 8) (h : BitVec.ofNat 8 (0x80 + d) ∈ s.hm.fuses) : (s.bootRecord.die d).fenced = true := by
  rw [bootRecord_eq]
  refine foldl_reaches (P := fun k u => BitVec.ofNat 8 (0x80 + k) ∈ s.hm.fuses → (u.die k).fenced = true)
    (Q := fun u => u.hm.fuses = s.hm.fuses) (fun u k hu => (congrArg Health.fuses (fuseDie_keeps k).hm).trans hu)
    (fun u k hu hk => ?_) (fun u k m hu hk hmem => ?_) (List.range 8) reapplied_fuses d (List.mem_range.2 hd) h
  · rw [State.fuseDie, hu, if_pos (List.contains_iff_mem.2 hk)]
    exact die_modDie_fused u k
  · rw [State.fuseDie]
    split
    · by_cases hkm : k = m
      · subst hkm
        exact die_modDie_fused u k
      · rw [State.die_modDie_of_ne hkm]
        exact hk hmem
    · exact hk hmem

/-! ### The end of BOOT -/

/-- The identity and the outcomes of the security tests. -/
def State.identified (s : State) (e : BootEnv) : State :=
  let keys := !s.pw.keysBlocked
  { s with
    sec := { s.sec with
      vaultId := keys, vaultWrap := keys, identity := if e.certOk && keys then 1 else 2
      signetFailed := s.sec.signetFailed || !e.signetOk }
    pw := { s.pw with noCert := !(e.certOk && keys), entropyBad := !e.entropyOk, signetBad := !e.signetOk } }

theorem bootSecurity_eq : s.bootSecurity e = if (s.identified e).sec.entropy == .failed then s.identified e
    else if e.entropyOk then
      State.instantiateDrbg { s.identified e with sec := { (s.identified e).sec with entropy := .healthy } }
    else ({ s.identified e with sec := { (s.identified e).sec with
      entropy := if 16 ≤ bump (s.identified e).sec.entropyFails then .failed else .unhealthy
      entropyFails := bump (s.identified e).sec.entropyFails } } : State).log 0x50 0xFF 0
        (bump (s.identified e).sec.entropyFails) := rfl

theorem bootSecurity_calm : Calm s (s.bootSecurity e) := by
  have hu : Calm s (s.identified e) := ⟨rfl, rfl⟩
  rw [bootSecurity_eq]
  generalize s.identified e = u at hu
  split
  · exact hu
  · split
    · exact hu.trans ⟨rfl, rfl⟩
    · have hcount (x : Sec) : Calm s { u with sec := x } := hu.trans ⟨rfl, rfl⟩
      exact (hcount _).logged (Logged.refl _).log

/-- The part's clocks as BOOT finds them. -/
def State.clock (s : State) (e : BootEnv) : State :=
  { s with
    tm := { s.tm with refclk := e.refclk }
    pw := { s.pw with selfRefresh := false, recordBad := goodSectors s.hm == 0, noRefclk := e.refclk == .absent } }

theorem clock_parts : (s.clock e).hm = s.hm ∧ (s.clock e).dies = s.dies ∧ (s.clock e).tm.refclk = e.refclk ∧
    (s.clock e).pw.selfRefresh = false := ⟨rfl, rfl, rfl, rfl⟩

/-- The part with its record reapplied and its identity, before the tests of its dies. -/
def State.clocked (s : State) : State := (s.bootRecord.bootSecurity s.pw.env).clock s.pw.env

/-- The part with its dies tested, where its reference clock is there. -/
def State.tested (s : State) : State := if s.clocked.pw.noRefclk then s.clocked else s.clocked.dieTests s.pw.env

/-- A part in STANDBY. -/
def State.standby (s : State) : State :=
  { s with pw := { s.pw with part := .standby, stage := 6 }, hm := { s.hm with gear := s.hm.gearCeiling } }

theorem finishBoot_eq (h : s.pw.env.hubFail = false) : s.finishBoot = s.tested.standby.recordCheck.replaceCheck :=
  if_neg (ne_true_of_eq_false h)

theorem clocked_gear : s.clocked.hm.gearCeiling = s.hm.gearCeiling := by
  rw [State.clocked, clock_parts.1]
  exact (bootRecord_calm.trans bootSecurity_calm).gear

theorem clocked_fenced (hd : d < 8) (h : BitVec.ofNat 8 (0x80 + d) ∈ s.hm.fuses) : (s.clocked.die d).fenced = true := by
  have hk : Keeps [.pw, .sec, .hm] s.bootRecord (s.bootRecord.bootSecurity s.pw.env) := (Keeps.refl _).bootSecurity
  rw [State.clocked, State.die_congr clock_parts.2.1, State.die_congr hk.dies]
  exact bootRecord_fenced hd h

theorem tested_cases : s.tested = s.clocked ∨ s.tested = s.clocked.dieTests s.pw.env := by
  rw [State.tested]
  split
  · exact .inl rfl
  · exact .inr rfl

theorem tested_calm : Calm s.clocked s.tested := by
  rcases tested_cases (s := s) with h | h <;> rw [h]
  · exact .refl _
  · exact (Calm.refl _).dieTests

theorem tested_tm : s.tested.tm = s.clocked.tm := by
  rcases tested_cases (s := s) with h | h <;> rw [h]
  exact (Keeps.dieTests (F := [.pw, .keys, .jobs, .jobSeq, .runs, .slotStats, .arrs, .dies, .stk, .links, .dom, .hm, .out])
    (.refl _)).tm

theorem tested_fenced (hd : d < 8) (h : BitVec.ofNat 8 (0x80 + d) ∈ s.hm.fuses) : (s.tested.die d).fenced = true := by
  rcases tested_cases (s := s) with heq | heq <;> rw [heq]
  · exact clocked_fenced hd h
  · exact dieTests_fenced (clocked_fenced hd h)

theorem replacePart_standby (h : s.pw.part = .standby) : s.replacePart = .standby := by
  rw [State.replacePart, h]
  rfl

/-- What the record's check and the replace triggers leave of a part in STANDBY. -/
theorem checked_spec {u : State} (hp : u.pw.part = .standby) :
    u.recordCheck.replaceCheck.pw.part = .standby ∧ u.recordCheck.replaceCheck.pw.stage = u.pw.stage ∧
    u.recordCheck.replaceCheck.pw.selfRefresh = u.pw.selfRefresh ∧ u.recordCheck.replaceCheck.tm = u.tm ∧
    u.recordCheck.replaceCheck.hm.gear = u.hm.gear ∧ u.recordCheck.replaceCheck.dies = u.dies := by
  have hlogged : Logged u u.recordCheck := (Logged.refl u).recordCheck
  have hk : Keeps [.pw, .hm] u u.recordCheck.replaceCheck := (Keeps.refl u).recordCheck.replaceCheck
  have hpart : u.recordCheck.pw.part = .standby := (hlogged.power Power.part fun _ => rfl).trans hp
  have hstage : u.recordCheck.replaceCheck.pw.stage = u.recordCheck.pw.stage := replaceCheck_power Power.stage fun _ _ => rfl
  have hself : u.recordCheck.replaceCheck.pw.selfRefresh = u.recordCheck.pw.selfRefresh :=
    replaceCheck_power Power.selfRefresh fun _ _ => rfl
  have hgear : u.recordCheck.replaceCheck.hm.gear = u.recordCheck.hm.gear := replaceCheck_health _ Health.gear fun _ _ => rfl
  exact ⟨replaceCheck_part.trans (replacePart_standby hpart), hstage.trans (hlogged.power Power.stage fun _ => rfl),
    hself.trans (hlogged.power Power.selfRefresh fun _ => rfl), hk.tm, hgear.trans (hlogged.health Health.gear fun _ => rfl),
    hk.dies⟩

theorem standby_parts : s.standby.pw.part = .standby ∧ s.standby.pw.stage = 6 ∧
    s.standby.pw.selfRefresh = s.pw.selfRefresh ∧ s.standby.tm = s.tm ∧ s.standby.hm.gear = s.hm.gearCeiling ∧
    s.standby.dies = s.dies := ⟨rfl, rfl, rfl, rfl, rfl, rfl⟩

/-- BOOT without a failing hub ends in STANDBY. -/
theorem finishBoot_spec (h : s.pw.env.hubFail = false) : s.finishBoot.pw.part = .standby ∧ s.finishBoot.pw.stage = 6 ∧
    s.finishBoot.pw.selfRefresh = false ∧ s.finishBoot.tm.refclk = s.pw.env.refclk ∧
    s.finishBoot.hm.gear = s.hm.gearCeiling ∧
    ∀ d < 8, BitVec.ofNat 8 (0x80 + d) ∈ s.hm.fuses → (s.finishBoot.die d).fenced = true := by
  rw [finishBoot_eq h]
  obtain ⟨hpart0, hstage0, hself0, htm0, hgear0, hdies0⟩ := standby_parts (s := s.tested)
  obtain ⟨hpart, hstage, hself, htm, hgear, hdies⟩ := checked_spec hpart0
  have hrefclk : s.tested.tm.refclk = s.pw.env.refclk := congrArg TimeSt.refclk tested_tm
  refine ⟨hpart, hstage.trans hstage0, hself.trans (hself0.trans tested_calm.refresh),
    (congrArg TimeSt.refclk (htm.trans htm0)).trans hrefclk,
    hgear.trans (hgear0.trans (tested_calm.gear.trans clocked_gear)), fun d hd hf => ?_⟩
  rw [State.die_congr (hdies.trans hdies0)]
  exact tested_fenced hd hf

theorem exec_bootComplete (hp : s.pw.part = .boot) (hs : s.pw.stage ≠ 0xF) (ht : s.pw.thermalHold = false) :
    exec .bootComplete s = .next s.finishBoot := by
  show execBootComplete s = _
  have hready : (s.pw.part == .boot && s.pw.stage != 0xF && !s.pw.thermalHold) = true := by
    rw [hp, ht, bne_iff_ne.2 hs]
    rfl
  rw [execBootComplete, hready, arises_true]

theorem finishBoot_safe (h : s.pw.env.hubFail = true) : s.finishBoot = s.enterSafe 1 := if_pos h

/-! ### Firmware slots -/

theorem fwSvn_iff (f : FwSlot) (m v : Nat) : fwSvn f m = some v ↔ (f.header.length = 4096 ∧
    slice f.header 0 4 = [0x4B, 0x46, 0x46, 0x57] ∧ field f.header 4 2 = 1 ∧ (∀ b ∈ f.header.drop 208, b = 0) ∧
    field f.header 8 4 + field f.header 12 4 ≤ 4194304 ∧ f.steward.length = field f.header 8 4 ∧
    f.security.length = field f.header 12 4 ∧ sha384 f.steward = slice f.header 16 48 ∧
    sha384 f.security = slice f.header 64 48 ∧ f.sigOk = true ∧ m ≤ v ∧ v = field f.header 6 2) := by
  simp only [fwSvn, Option.ite_none_right_eq_some, Bool.and_eq_true, beq_iff_eq, decide_eq_true_eq, List.all_eq_true,
    Option.some.injEq, and_assoc]
  constructor
  · rintro ⟨h1, h2, h3, h4, h5, h6, h7, h8, h9, h10, h11, rfl⟩
    exact ⟨h1, h2, h3, h4, h5, h6, h7, h8, h9, h10, h11, rfl⟩
  · rintro ⟨h1, h2, h3, h4, h5, h6, h7, h8, h9, h10, h11, rfl⟩
    exact ⟨h1, h2, h3, h4, h5, h6, h7, h8, h9, h10, h11, rfl⟩

/-! ### Heat and the reference clock -/

theorem exec_thermalBootHoldRelease (hp : s.pw.part = .boot) (ht : s.pw.thermalHold = true) (hc : ∀ x ∈ s.temps, x < 95) :
    exec .thermalBootHoldRelease s = .next { s with pw := { s.pw with thermalHold := false } } := by
  show execThermalBootHoldRelease s = _
  have hready : (s.pw.part == .boot && s.pw.thermalHold && s.temps.all fun t => decide (t < 95)) = true := by
    rw [hp, ht, List.all_eq_true.2 fun x hx => decide_eq_true (hc x hx)]
    rfl
  rw [execThermalBootHoldRelease, hready, arises_true]

/-- The reference clock has locked. -/
def State.refLocked (s : State) : State := { s with tm := { s.tm with refclk := .locked } }

/-- The part is no longer without its reference clock. -/
def State.refBack (s : State) : State := { s with pw := { s.pw with noRefclk := false } }

theorem exec_refclkLock (hn : s.pw.noRefclk = true) (hp : s.pw.part ≠ .off) :
    exec (.refclkLock e) s = .next ((s.refLocked.dieTests e).replaceCheck).refBack := by
  show execRefclkLock e s = _
  unfold execRefclkLock
  extract_lets tm locked tested pw
  have htested : tested = (locked.dieTests e).replaceCheck := rfl
  have hlocked : locked = s.refLocked := rfl
  rw [hlocked] at htested
  rw [← htested, hn, State.powered_of_ne hp]
  clear_value tested
  rfl

theorem refBack_parts : s.refBack.tm = s.tm ∧ s.refBack.pw.noRefclk = false := ⟨rfl, rfl⟩

theorem relocked_tm : ((s.refLocked.dieTests e).replaceCheck).tm = s.refLocked.tm := by
  have hk : Keeps [.pw, .keys, .jobs, .jobSeq, .runs, .slotStats, .arrs, .dies, .stk, .links, .dom, .hm, .out] s.refLocked
      ((s.refLocked.dieTests e).replaceCheck) := (Keeps.refl _).dieTests.replaceCheck
  exact hk.tm

end

/-- Settles O50. A cold reset starts from the reset state, a warm one from what it keeps; the tests at the end of BOOT leave a
fenced die fenced. -/
theorem resetsAndBoot : Obligations.ResetsAndBoot := by
  unfold Obligations.ResetsAndBoot
  refine ⟨fun s e => ?_, fwSvn_iff, fun s hp hs ht => ⟨fun h => ?_, fun h => ?_⟩,
    fun s hp ht hc => exec_thermalBootHoldRelease hp ht hc, fun s e hn hp => ⟨_, exec_refclkLock hn hp, ?_⟩⟩
  rotate_left
  · exact ⟨_, exec_bootComplete hp hs ht,
    (finishBoot_safe h).symm ▸ enterSafe_inSafe (by rw [hp]; exact nofun) (by rw [hp]; exact nofun)⟩
  · exact ⟨_, exec_bootComplete hp hs ht, finishBoot_spec h⟩
  · obtain ⟨htm, hnone⟩ := refBack_parts (s := (s.refLocked.dieTests e).replaceCheck)
    rw [htm, relocked_tm, hnone]
    exact ⟨rfl, rfl, rfl⟩
  · intro cold warm
    refine ⟨fun h => ?_, fun h => ?_, ?_, fun h => ?_, fun h hp => ?_, fun h => ?_, fun q hp h => ?_, fun q hok h => ?_⟩
    · exact congrArg Host.Outcome.next (if_neg (by simp [h]))
    · exact ⟨_, congrArg Host.Outcome.next (if_pos (by simp [h])), coldReset_coldFrom s 4 e⟩
    · exact ⟨_, rfl, rfl, rfl, rfl, rfl, rfl, rfl, rfl, rfl⟩
    · have hp : s.pw.part ≠ .off := by
        rw [State.perstAllowed, Bool.and_eq_true] at h
        exact warmAllowed_part h.2
      obtain ⟨hpower, hruns, hgran, hh, hen, hsec, hun, hkept⟩ :=
        (warmReset_warmFrom ((s.clearPort 0).clearPort 1) 3 e).of_keeps clearPorts_keeps
      have htm : (((s.clearPort 0).clearPort 1).warmReset 3 e).tm = { s.tm with dueStep := none } := by
        rw [warmReset_tm, clearPorts_keeps.tm]
      refine ⟨_, exec_perstWarm hp, ?_⟩
      rw [h]
      exact ⟨⟨hpower.1, hpower.2.1, hpower.2.2, hruns, hgran, hh.1, hh.2.1, hh.2.2, hen.1, hen.2, hsec.1, hsec.2, hun, hkept⟩,
        rfl, htm⟩
    · refine ⟨_, exec_perstWarm hp, ?_⟩
      rw [h]
      exact ⟨clearPorts_keeps.pw, rfl⟩
    · refine congrArg Host.Outcome.next (if_pos ?_)
      rw [State.powered, h]
      rfl
    · obtain ⟨o, ho⟩ := resetRequest_eq (e := e) (.inl rfl) hp (.inl rfl) h
      exact ⟨_, congrArg Host.Outcome.next ho, coldReset_coldFrom (((s.resetNoted 1 o).reach _)) 1 e⟩
    · obtain ⟨o, ho⟩ := resetRequest_eq (e := e) (.inr rfl) (warmAllowed_part hok) (.inr hok) h
      have hreach : Keeps [.tm, .pw, .out] s ((s.resetNoted 2 o).reach ((s.resetNoted 2 o).tm.now + 1000000)) :=
        (Keeps.refl s).update
      obtain ⟨hpower, hruns, hgran, hh, hen, hsec, hun, hkept⟩ :=
        (warmReset_warmFrom ((s.resetNoted 2 o).reach ((s.resetNoted 2 o).tm.now + 1000000)) 2 e).of_keeps hreach
      have hnow : (((s.resetNoted 2 o).reach ((s.resetNoted 2 o).tm.now + 1000000)).warmReset 2 e).tm.now =
          (s.tm.reach (s.tm.now + 1000000)).now := by
        rw [warmReset_tm]
        rfl
      refine ⟨_, congrArg Host.Outcome.next ho, ?_⟩
      exact ⟨⟨hpower.1, hpower.2.1, hpower.2.2, hruns, hgran, hh.1, hh.2.1, hh.2.2, hen.1, hen.2, hsec.1, hsec.2, hun, hkept⟩,
        hnow⟩

end Sys2Proof.Machine
end

section
/-! Enabling and disabling (R380, R390, R431..R433, R484). -/

namespace Sys2Proof.Machine

open Sys2Proof.Stated

section
variable {s : State} {q : Requester}

/-! ### The requests -/

theorem dictWrite_enable (h : Heard s q 0x2000 1 true .rw) : s.dictWrite q 0x2000 1 [1] = s.setEnable := by
  rw [dictWrite_heard h (row := rwIn .bool 0 1) rfl rfl (by decide)]
  rfl

theorem dictWrite_disable (h : Heard s q 0x2000 1 true .rw) : s.dictWrite q 0x2000 1 [0] = s.clearEnable := by
  rw [dictWrite_heard h (row := rwIn .bool 0 1) rfl rfl (by decide)]
  rfl

/-- The part with its check begun. -/
def State.checking (s : State) : State := { s with en := { s.en with st := 1, accepted := false } }

theorem beginCheck_eq : s.beginCheck = if s.domainPlan && s.firstTests.isNone then s.checking.startJoin else s.checking := rfl

theorem startJoin_joining (h : s.domainPlan = true) : s.startJoin.dom.st = .joining := by
  rw [State.startJoin]
  split
  · rfl
  · obtain ⟨p, hp, -⟩ := (Option.any_eq_true _ _).1 h
    rw [State.sendJoin, hp]
    exact (sendJoinTo_dom hp p.lead).1

theorem startJoin_en : s.startJoin.en.st = s.en.st ∧ s.startJoin.en.on = s.en.on := by
  rw [State.startJoin]
  split
  · exact ⟨rfl, rfl⟩
  · have hen : s.sendJoin.en = s.en := (Keeps.sendJoin (F := [.links, .dom, .out]) (.refl s)).en
    rw [hen]
    exact ⟨rfl, rfl⟩

theorem beginCheck_en : s.beginCheck.en.st = 1 ∧ s.beginCheck.en.on = s.en.on := by
  rw [beginCheck_eq]
  split
  · exact startJoin_en
  · exact ⟨rfl, rfl⟩

theorem beginCheck_dom (h : s.domainPlan = false) : s.beginCheck.dom = s.dom := by
  rw [beginCheck_eq, h]
  rfl

theorem beginCheck_joining (h : s.domainPlan = true) (hf : s.firstTests = none) : s.beginCheck.dom.st = .joining := by
  rw [beginCheck_eq, h, hf]
  exact startJoin_joining (s := s.checking) h

/-! ### The end of the check -/

theorem exec_enableCheckDone (hst : s.en.st = 1) (hj : ¬(s.dom.st = .joining ∧ s.en.accepted = false))
    (ht : ¬(s.en.accepted = true ∧ s.tm.setPending = true)) :
    exec .enableCheckDone s = .next (if s.running then s.endCheck else s) := by
  have hdue : (s.en.st == 1 && !(s.dom.st == .joining && !s.en.accepted) && !(s.en.accepted && s.tm.setPending)) = true := by
    rw [not_and, Bool.not_eq_false] at hj
    rw [not_and_or, Bool.not_eq_true, Bool.not_eq_true] at ht
    simpa [hst] using ⟨imp_iff_not_or.1 hj, ht⟩
  show execEnableCheckDone s = _
  rw [execEnableCheckDone, hdue, arises_true]

/-- The part as the check leaves it, before what follows in the domain and of the journal. -/
def State.checkPassed (s : State) : State :=
  { s with
    hm := { s.hm with linksBase := if s.hm.baseTaken then s.hm.linksBase else s.usableLinks, baseTaken := true }
    dom := if s.domainPlan then { s.dom with st := .member, noTick := 0 } else s.dom
    en := { s.en with on := true, reason := 0, detail := 0, st := 2, time := s.tm.now, accepted := false }
    pw := { s.pw with part := .enabled } }

/-- The journal replayed after a warm reset. -/
def State.replayed (s : State) : State := if s.en.replay then s.replayJournal else s

/-- The residency reported in a domain. -/
def State.reported (s : State) : State := if s.domainPlan then s.reportResidency else s

theorem enableOk_eq : s.enableOk = s.checkPassed.replayed.reported.replaceCheck := rfl

/-- The jobs of the journal returned and their records written again. -/
def State.journalRead (s : State) : State :=
  let u := s.replayJobs.foldl (fun s j => (s.returnJob j.idx false).queueInstalls j) s
  (u.streams.map (·.1)).foldl State.replayStream u

/-- The journal is replayed once. -/
def State.replayOver (s : State) : State := { s with en := { s.en with replay := false } }

theorem journalRead_keeps : Keeps [.fns, .tenants, .keys, .installs, .streams, .jobs, .jobSeq, .hubs, .hostMem, .out] s
    s.journalRead :=
  ((Keeps.refl s).foldl fun t x => (Keeps.refl t).returnJob.queueInstalls).foldl fun t x => (Keeps.refl t).replayStream

theorem replayed_keeps : Keeps [.fns, .en, .tenants, .keys, .installs, .streams, .jobs, .jobSeq, .hubs, .hostMem, .out] s
    s.replayed := by
  rw [State.replayed]
  split
  · exact (Keeps.refl s).replayJournal
  · exact .refl s

theorem replayed_en : s.replayed.en = { s.en with replay := s.replayed.en.replay } := by
  rw [State.replayed]
  split
  · have heq : s.replayJournal = s.journalRead.replayOver := rfl
    have hen : s.journalRead.en = s.en := journalRead_keeps.en
    rw [heq]
    show ({ s.journalRead.en with replay := false } : Enable) = { s.en with replay := false }
    rw [hen]
  · rfl

theorem reported_told : Told s s.reported := by
  rw [State.reported]
  exact (reportResidency_told s).ite (.refl s)

theorem reported_keeps : Keeps [.links, .dom, .out] s s.reported := by
  rw [State.reported]
  split
  · exact (Keeps.refl s).reportResidency
  · exact .refl s

theorem checkPassed_parts : s.checkPassed.en = { s.en with
      on := true, reason := 0, detail := 0, st := 2, time := s.tm.now, accepted := false } ∧
    s.checkPassed.hm.baseTaken = true ∧ s.checkPassed.pw.part = .enabled ∧
    (s.domainPlan = true → s.checkPassed.dom.st = .member) :=
  ⟨rfl, rfl, rfl, fun h => congrArg Domain.st (if_pos h)⟩

theorem replacePart_enabled (h : s.pw.part = .enabled) :
    s.replacePart = if s.replaceCheck.hm.replace = 0 then .enabled else .replaceRequested := by
  rw [State.replacePart, h]
  by_cases hz : s.replaceCheck.hm.replace = 0
  · rw [hz]
    rfl
  · have hne : (s.replaceCheck.hm.replace != 0#8) = true := bne_iff_ne.2 hz
    rw [hne, if_neg hz]
    rfl

/-- What the part is once it is enabled (R431, R484). -/
theorem enableOk_spec (s : State) : s.enableOk.en.on = true ∧ s.enableOk.en.st = 2 ∧ s.enableOk.en.reason = 0 ∧
    s.enableOk.en.time = s.tm.now ∧ s.enableOk.hm.baseTaken = true ∧
    s.enableOk.pw.part = (if s.enableOk.hm.replace = 0 then .enabled else .replaceRequested) ∧
    (s.domainPlan = true → s.enableOk.dom.st = .member) := by
  obtain ⟨hen, hbase, hpart, hdom⟩ := checkPassed_parts (s := s)
  rw [enableOk_eq]
  let u : State := s.checkPassed.replayed.reported
  have hk : Keeps [.fns, .en, .tenants, .keys, .installs, .streams, .jobs, .jobSeq, .hubs, .hostMem, .out, .links, .dom]
      s.checkPassed u := (replayed_keeps.mono (by decide)).trans (reported_keeps.mono (by decide))
  have hcheck : Keeps [.pw, .hm] u u.replaceCheck := (Keeps.refl u).replaceCheck
  have huen : u.replaceCheck.en = { s.checkPassed.en with replay := s.checkPassed.replayed.en.replay } :=
    (hcheck.en.trans reported_keeps.en).trans replayed_en
  rw [hen] at huen
  refine ⟨congrArg Enable.on huen, congrArg Enable.st huen, congrArg Enable.reason huen, congrArg Enable.time huen,
    (replaceCheck_health u Health.baseTaken fun _ _ => rfl).trans ((congrArg Health.baseTaken hk.hm).trans hbase),
    replaceCheck_part.trans (replacePart_enabled ((congrArg Power.part hk.pw).trans hpart)), fun h => ?_⟩
  have hst : u.dom.st = s.checkPassed.replayed.dom.st := reported_told.dom.part Domain.st fun _ _ => rfl
  rw [hcheck.dom, hst, replayed_keeps.dom]
  exact hdom h

theorem refuseEnable_spec (e : Nat × Nat) : (s.refuseEnable e.1 e.2).en.on = s.en.on ∧ (s.refuseEnable e.1 e.2).en.st = 3 ∧
    (s.refuseEnable e.1 e.2).en.reason = e.1 ∧ (s.refuseEnable e.1 e.2).en.detail = e.2 ∧
    (s.refuseEnable e.1 e.2).pw = s.pw :=
  ⟨rfl, rfl, rfl, rfl, rfl⟩

/-! ### The disable -/

theorem exec_disableComplete (hst : s.en.st = 4) (hr : ∀ r ∈ s.runs, r.jobs = [] ∨ r.abandoned = true) :
    exec .disableComplete s = .next s.disableDone := by
  have hnone : (s.runs.any fun r => !r.jobs.isEmpty && !r.abandoned) = false := by
    refine List.any_eq_false.2 fun r hmem => ?_
    rcases hr r hmem with h | h <;> simp [h]
  show execDisableComplete s = _
  rw [execDisableComplete, hst, hnone]
  rfl

end

/-- Settles O51. The check's end follows the tests in their order; what is enabled has replayed its journal and reported its
keys, which leave its ENABLE as it is. -/
theorem theDeviceEnablesAndDisables : Obligations.TheDeviceEnablesAndDisables := by
  unfold Obligations.TheDeviceEnablesAndDisables
  refine ⟨fun s q hq => ⟨fun h => ?_, fun h1 h4 hon => ?_, fun h1 h4 hon => ?_, fun h => ?_, fun h => ?_⟩,
    fun s hst hj ht => ?_, fun s hst hr => exec_disableComplete hst hr⟩
  · exact onlyAnswers_command hq.answered rfl ((dictWrite_enable hq).trans (if_pos h))
  · refine onlyAnswers_command hq.answered rfl ((dictWrite_enable hq).trans ?_)
    rw [State.setEnable, if_neg (not_or.2 ⟨h1, h4⟩), hon]
    rfl
  · refine runs_command (u := s.beginCheck) hq.answered rfl ((dictWrite_enable hq).trans ?_) ?_
    · rw [State.setEnable, if_neg (not_or.2 ⟨h1, h4⟩), hon]
      rfl
    · obtain ⟨hst, hen⟩ := beginCheck_en (s := s)
      exact ⟨hst, hen.trans hon, beginCheck_dom, beginCheck_joining⟩
  · exact onlyAnswers_command hq.answered rfl ((dictWrite_disable hq).trans (if_neg h))
  · refine runs_command hq.answered rfl ((dictWrite_disable hq).trans (if_pos h)) ?_
    let u : State := { s with en := { s.en with st := 4 } }
    have hen : (u.leaveDomain 4).en = u.en := (Keeps.leaveDomain (F := [.links, .dom, .out]) (.refl u)).en
    exact ⟨congrArg Enable.st hen, fun hm => leaveDomain_member (s := u) hm 4⟩
  · intro refused enabled
    have hexec := exec_enableCheckDone hst hj ht
    have hrefused {e : Nat × Nat} (hrun : s.running = true) (h : s.endCheck = s.refuseEnable e.1 e.2) : refused e := by
      rw [hrun] at hexec
      exact ⟨_, hexec.trans (congrArg _ h), refuseEnable_spec e⟩
    have henabled (hrun : s.running = true) (h : s.endCheck = s.enableOk) : enabled := by
      rw [hrun] at hexec
      exact ⟨_, hexec.trans (congrArg _ h), enableOk_spec s⟩
    refine ⟨fun hrun => ?_, fun hrun => ⟨fun ha => ⟨fun e he => hrefused hrun ?_, fun hn => henabled hrun ?_⟩,
      fun ha => ⟨fun e he => hrefused hrun ?_, fun hn hd => ?_, fun hn hd =>
        ⟨fun e he => hrefused hrun ?_, fun hl => henabled hrun ?_⟩⟩⟩⟩
    · rw [hexec, hrun]
      rfl
    · rw [State.endCheck, ha, he]
      rfl
    · rw [State.endCheck, ha, hn]
      rfl
    · rw [State.endCheck, ha, he]
      rfl
    · have hstart : s.endCheck = s.startJoin := by
        rw [State.endCheck, ha, hn, hd]
        rfl
      rw [hrun] at hexec
      exact ⟨_, hexec.trans (congrArg _ hstart), startJoin_joining hd, startJoin_en.1.trans hst⟩
    · rw [State.endCheck, ha, hn, hd, he]
      rfl
    · rw [State.endCheck, ha, hn, hd, hl]
      rfl

end Sys2Proof.Machine
end

section
/-! Loading a plan and choosing a variant (R325, R326, R331, R335, R336, R432, R475). -/

namespace Sys2Proof.Machine

open Sys2Proof.Stated

/-! ### Numbers as bytes -/

theorem leNat_leBytes (n v : Nat) : leNat (leBytes n v) = v % 256 ^ n := by
  induction n generalizing v with
  | zero => rw [leBytes, leNat, pow_zero, Nat.mod_one]
  | succ n ih =>
    have hsplit : v % 256 ^ (n + 1) = v % 256 + 256 * (v / 256 % 256 ^ n) := by rw [Nat.pow_succ', Nat.mod_mul]
    rw [leBytes, leNat, ih, BitVec.toNat_ofNat, hsplit]

theorem leBytes_leNat (bs : List Byte) : leBytes bs.length (leNat bs) = bs := by
  induction bs with
  | nil => rfl
  | cons b bs ih =>
    have hlow : BitVec.ofNat 8 (b.toNat + 256 * leNat bs) = b := by
      apply BitVec.eq_of_toNat_eq
      have hb := b.isLt
      rw [BitVec.toNat_ofNat]
      omega
    have hhigh : (b.toNat + 256 * leNat bs) / 256 = leNat bs := by
      have hb := b.isLt
      omega
    rw [List.length_cons, leBytes, leNat, hlow, hhigh, ih]

theorem numBytes_of_lt {w v : Nat} (h : v < 256 ^ w) : numBytes w v = leBytes w v := if_pos h

theorem leNat_numBytes {w v : Nat} (h : v < 256 ^ w) : leNat (numBytes w v) = v := by
  rw [numBytes_of_lt h, leNat_leBytes, Nat.mod_eq_of_lt h]

theorem length_numBytes {w v : Nat} (h : v < 256 ^ w) : (numBytes w v).length = w := by
  rw [numBytes_of_lt h, length_leBytes]

section
variable {s u : State} {q : Requester} {img : List Byte}

/-! ### The request of a load -/

theorem dictWrite_planLoad (h : Heard s q 0x5000 3 true .cmd) : s.dictWrite q 0x5000 3 [1] = s.startLoad q := by
  rw [dictWrite_heard h (row := cmdIn .u8 1 1) rfl rfl (by decide)]
  rfl

/-- The part with a load in progress. -/
def State.loadBegun (s : State) (q : Requester) : State :=
  { s with pc := { s.pc with load := 1, via := loadFn q, image := s.hostRead (loadFn q) 0 s.pc.addr s.pc.len } }

theorem startLoad_begins (hl : s.pc.load ≠ 1) (hon : s.en.on = false) (hj : s.jobs = []) (hd : s.doneJobs = []) :
    s.startLoad q = (0, s.loadBegun q) := by
  have hidle : (!s.jobs.isEmpty || !s.doneJobs.isEmpty) = false := by rw [hj, hd]; rfl
  rw [State.startLoad, if_neg hl, hon, hidle]
  rfl

theorem startLoad_waits (hl : s.pc.load ≠ 1) (hon : s.en.on = false) (h : s.jobs ≠ [] ∨ s.doneJobs ≠ []) :
    s.startLoad q = (8, s) := by
  have hjobs : (!s.jobs.isEmpty || !s.doneJobs.isEmpty) = true := by simpa using h
  rw [State.startLoad, if_neg hl, hon, hjobs]
  rfl

theorem startLoad_enabled (hl : s.pc.load ≠ 1) (hon : s.en.on = true) : s.startLoad q = (0, s.refuseLoad (0x27, 0)) := by
  rw [State.startLoad, if_neg hl, hon]
  rfl

/-! ### The end of a load -/

theorem exec_planLoadDone (h : s.pc.load = 1) : exec .planLoadDone s = .next s.finishLoad := by
  show execPlanLoadDone s = _
  rw [execPlanLoadDone, h]
  rfl

theorem hostFaults?_congr (hfns : u.fns = s.fns) (hfaults : u.hostFaults = s.hostFaults)
    (f : FnId) (p : BitVec 32) (a len : Nat) : u.hostFaults? f p a len = s.hostFaults? f p a len := by
  simp only [State.hostFaults?, State.fn, hfns, hfaults]

theorem hostRead_congr (hfns : u.fns = s.fns) (hfaults : u.hostFaults = s.hostFaults) (hmem : u.hostMem = s.hostMem)
    (f : FnId) (p : BitVec 32) (a len : Nat) : u.hostRead f p a len = s.hostRead f p a len := by
  rw [State.hostRead, State.hostRead, hostFaults?_congr hfns hfaults, hmem]

theorem unloadPlan_pc : s.unloadPlan.pc = { s.pc with report := [] } := by
  have hpc : s.emptyRegion.pc = s.pc := (Keeps.emptyRegion (F := [.keys, .links, .dom, .out]) (.refl s)).same .pc (by decide)
  show ({ s.emptyRegion.pc with report := [] } : PlanCtl) = _
  rw [hpc]

/-- The image is read again as it was. -/
theorem unloadPlan_readImage : s.unloadPlan.readImage = s.readImage := by
  have hk : Keeps [.plan, .pc, .vs, .keys, .slotStats, .arrs, .mem, .links, .dom,
    .out] s s.unloadPlan := (Keeps.refl s).unloadPlan
  rw [State.readImage, unloadPlan_pc]
  exact hostRead_congr (hk.same .fns (by decide)) (hk.same .hostFaults (by decide)) (hk.same .hostMem (by decide)) ..

/-- A load whose image passed the check. -/
def State.loadPassed (s : State) (img : List Byte) : State :=
  match s.readImage with
  | none => s.refuseLoad loadFault
  | some img2 =>
    if imageHash img2 = slice img 48 48 then
      let s := s.installPlan img
      { s with pc := { s.pc with image := none } }
    else s.refuseLoad (0x21, det 10 0xFF 0xFFFF)

theorem finishLoad_fault (h : s.pc.image = none) : s.finishLoad = s.refuseLoad loadFault := by
  rw [State.finishLoad, h]

theorem finishLoad_refused {v : Nat × Nat} (h : s.pc.image = some img) (hc : loadCheck s img s.pc.len = some v) :
    s.finishLoad = s.refuseLoad v := by
  rw [State.finishLoad, h]
  dsimp only
  rw [hc]

theorem finishLoad_passed (h : s.pc.image = some img) (hc : loadCheck s img s.pc.len = none) :
    s.finishLoad = s.unloadPlan.loadPassed img := by
  rw [State.finishLoad, h]
  dsimp only
  rw [hc]
  rfl

/-- The plan stored, and its data in the PLAN region. -/
def State.planStored (s : State) (img : List Byte) : State :=
  ({ s with plan := some (storedPlan (planOf img)) } : State).planWrite 0 (sectBytes img 12)

/-- The plan's routes, its first variant and its report. -/
def State.planChosen (s : State) (img : List Byte) : State :=
  let p := storedPlan (planOf img)
  let dom : Domain := match p.route with
    | some r => { s.dom with mgmtRoute := fillRoutes r s.dom.mgmtRoute }
    | none => s.dom
  { s with
    dom := dom, vs := { s.vs with current := s.firstVariant p }
    pc := { s.pc with load := 2, report := loadReport s img (planOf img) } }

theorem installPlan_eq : s.installPlan img = (((s.planStored img).planChosen img).writeStores
    ((s.planStored img).planChosen img).variant).rebindKeys := rfl

theorem planChosen_parts : (s.planChosen img).plan = s.plan ∧ (s.planChosen img).pc.load = 2 ∧
    (s.planChosen img).vs.pending = s.vs.pending := ⟨rfl, rfl, rfl⟩

theorem installPlan_spec : (s.installPlan img).plan = some (storedPlan (planOf img)) ∧ (s.installPlan img).pc.load = 2 ∧
    (s.installPlan img).vs.pending = s.vs.pending := by
  have hstored : Keeps [.gran] ({ s with plan := some (storedPlan (planOf img)) } : State) (s.planStored img) :=
    (Keeps.refl _).planWrite
  obtain ⟨hplan, hload, hpending⟩ := planChosen_parts (s := s.planStored img) (img := img)
  have hk : Keeps [.arrs, .keys] ((s.planStored img).planChosen img) (s.installPlan img) := by
    rw [installPlan_eq]
    exact (Keeps.refl _).writeStores.rebindKeys
  have hpc : (s.installPlan img).pc = ((s.planStored img).planChosen img).pc := hk.same .pc (by decide)
  have hvs : (s.installPlan img).vs = ((s.planStored img).planChosen img).vs := hk.vs
  have hvs' : (s.planStored img).vs = s.vs := hstored.vs
  rw [hpc, hvs, hload, hpending, hvs']
  exact ⟨(hk.plan.trans hplan).trans hstored.plan, rfl, rfl⟩

/-! ### The choice of a variant -/

theorem dictWrite_varRequest {v : Nat} (h : Heard s q 0x5010 5 true .cmd) (hv : v ≤ 15) :
    s.dictWrite q 0x5010 5 (numBytes 1 v) = s.requestVariant v := by
  have hlt : v < 256 ^ 1 := by omega
  have hval : valueOk (cmdIn .u8 0 15) (numBytes 1 v) = true := by
    show (decide (1 ≤ (numBytes 1 v).length ∧ (numBytes 1 v).length ≤ 1) && decide (0 ≤ leNat (numBytes 1 v) ∧
      leNat (numBytes 1 v) ≤ 15)) = true
    rw [length_numBytes hlt, leNat_numBytes hlt, decide_eq_true (show 0 ≤ v ∧ v ≤ 15 from ⟨Nat.zero_le v, hv⟩)]
    rfl
  rw [dictWrite_heard h (row := cmdIn .u8 0 15) rfl rfl hval]
  show s.requestVariant (leNat (numBytes 1 v)) = _
  rw [leNat_numBytes hlt]

theorem variantTarget_pinned {v : Nat} (hpin : s.vs.pin = some v) (hsel : s.selectableNum v = true) :
    s.variantTarget = some (v, 1) := by
  rw [State.variantTarget, hpin, Option.filter_some, hsel]
  rfl

/-- The switch that is pending, logged. -/
def State.switchLogged (s : State) (v e item : Nat) : State :=
  ({ s with vs := { s.vs with pending := some (v, e) } } : State).log 0x13 0xFF 0 (v + 256 * item)

theorem decideSwitch_eq (hp : s.vs.pending = none) (v item : Nat) : s.decideSwitch v item =
    ((s.switchLogged v ((s.epoch + 4) % 2 ^ 32) item).cancelRetirements
      (((s.switchLogged v ((s.epoch + 4) % 2 ^ 32) item).variantRec v).getD {}).dieMask).announce v ((s.epoch + 4) % 2 ^ 32)
        := by
  unfold State.decideSwitch
  extract_lets four e v1 s1 s2 s3
  have he : e = four := by
    simp only [e, hp]
  clear_value e
  subst he
  rfl

theorem announce_vs (v e : Nat) : ∃ rest, (s.announce v e).vs = { s.vs with announced := (s.dom.pkgAddr, v, e) :: rest } := by
  refine ⟨s.vs.announced.filter fun a => a.1 != s.dom.pkgAddr, ?_⟩
  simp only [State.announce]
  split
  · exact ((Keeps.refl (F := [.links, .dom, .out]) _).sendMembers).vs
  · split
    · exact ((Keeps.refl (F := [.links, .dom, .out]) _).sendDctl).vs
    · rfl

/-- A switch decided where none is pending. -/
theorem decideSwitch_announced (hp : s.vs.pending = none) (v item : Nat) :
    (s.decideSwitch v item).vs.pending = some (v, (s.epoch + 4) % 2 ^ 32) ∧
    ∃ rest, (s.decideSwitch v item).vs.announced = (s.dom.pkgAddr, v, (s.epoch + 4) % 2 ^ 32) :: rest := by
  rw [decideSwitch_eq hp]
  generalize hu : (s.switchLogged v ((s.epoch + 4) % 2 ^ 32) item).cancelRetirements _ = u
  have hk : Keeps [.pw, .hm, .dies] ({ s with vs := { s.vs with pending := some (v, (s.epoch + 4) % 2 ^ 32) } } : State) u :=
    hu ▸ (Keeps.refl _).log.cancelRetirements
  obtain ⟨rest, hvs⟩ := announce_vs (s := u) v ((s.epoch + 4) % 2 ^ 32)
  have huvs : u.vs = { s.vs with pending := some (v, (s.epoch + 4) % 2 ^ 32) } := hk.vs
  have hudom : u.dom = s.dom := hk.dom
  rw [hvs, huvs, hudom]
  exact ⟨rfl, rest, rfl⟩

/-- What the target of the choice asks for (R475). -/
def State.followTarget (s : State) : State :=
  match s.variantTarget with
  | none => s.dropPending
  | some (t, item) =>
    if s.vs.pending.any (fun p => p.1 == t) then s
    else if t = s.vs.current then
      if item = 1 && s.vs.pending.isSome then s.decideSwitch t 1 else s.dropPending
    else if !s.selectable s.variant then s.decideSwitch t 0
    else if item = 1 then s.decideSwitch t 1
    else if s.policy (6 - item) then s.decideSwitch t item
    else s.dropPending.recommend (6 - item)

/-- A pin is followed while its variant is selectable. -/
def State.pinned (s : State) : State :=
  let pin := match s.vs.pin with
    | some v => if s.selectableNum v then some v else none
    | none => none
  { s with vs := { s.vs with pin := pin } }

theorem evaluateVariant_eq : s.evaluateVariant = if s.plan.isNone then s else s.pinned.followTarget := rfl

theorem pinned_self {v : Nat} (hpin : s.vs.pin = some v) (hsel : s.selectableNum v = true) : s.pinned = s := by
  have hkeep : s.vs.pin = (match s.vs.pin with
      | some v => if s.selectableNum v then some v else none
      | none => none) := by
    rw [hpin]
    exact (if_pos hsel).symm
  rw [State.pinned]
  exact congrArg (fun p => ({ s with vs := { s.vs with pin := p } } : State)) hkeep.symm

/-- The choice where a selectable variant is pinned and no switch is pending. -/
theorem evaluateVariant_pinned {v : Nat} (hplan : s.plan ≠ none) (hpin : s.vs.pin = some v) (hsel : s.selectableNum v = true)
    (hp : s.vs.pending = none) : s.evaluateVariant =
      if v = s.vs.current then s.dropPending else if !s.selectable s.variant then s.decideSwitch v 0 else s.decideSwitch v 1
        := by
  rw [evaluateVariant_eq, if_neg (by simpa using hplan), pinned_self hpin hsel, State.followTarget,
    variantTarget_pinned hpin hsel]
  dsimp only
  rw [hp]
  rfl

end

/-- Settles O52. A load that fails leaves the plan; the pin is the first target of the evaluation. -/
theorem plansLoadAndVariantsAreRequested : Obligations.PlansLoadAndVariantsAreRequested := by
  unfold Obligations.PlansLoadAndVariantsAreRequested
  refine ⟨fun s q hq => ⟨fun h => ?_, fun hl hon => ?_, fun hl hon hj => ?_, fun hl hon hj hd => ?_⟩,
    fun s hl => ⟨fun hi => ?_, fun img hi => ⟨fun v hv => ?_, fun hc => ⟨fun hr => ?_, fun again hr hh => ?_,
      fun again hr hh => ?_⟩⟩⟩, fun s q v hq hv => ?_, fun s v hplan hpin hsel => ⟨fun hp hcur => ?_, fun hp hcur => ?_⟩⟩
  · exact onlyAnswers_command hq.answered rfl ((dictWrite_planLoad hq).trans (if_pos h))
  · exact runs_command hq.answered rfl ((dictWrite_planLoad hq).trans (startLoad_enabled hl hon)) ⟨rfl, rfl, rfl⟩
  · exact onlyAnswers_command hq.answered rfl ((dictWrite_planLoad hq).trans (startLoad_waits hl hon hj))
  · exact runs_command hq.answered rfl ((dictWrite_planLoad hq).trans (startLoad_begins hl hon hj hd)) ⟨rfl, rfl, rfl⟩
  · exact ⟨_, (exec_planLoadDone hl).trans (congrArg _ (finishLoad_fault hi)), rfl, rfl, rfl⟩
  · exact ⟨_, (exec_planLoadDone hl).trans (congrArg _ (finishLoad_refused hi hv)), rfl, rfl, rfl, rfl, rfl, rfl⟩
  · have hread : s.unloadPlan.loadPassed img = s.unloadPlan.refuseLoad loadFault := by
      rw [State.loadPassed, unloadPlan_readImage, hr]
    exact ⟨_, (exec_planLoadDone hl).trans (congrArg _ ((finishLoad_passed hi hc).trans hread)), rfl, rfl, rfl⟩
  · have hread : s.unloadPlan.loadPassed img = { s.unloadPlan.installPlan img with
        pc := { (s.unloadPlan.installPlan img).pc with image := none } } := by
      rw [State.loadPassed, unloadPlan_readImage, hr]
      exact if_pos hh
    obtain ⟨hplan, hload, hpending⟩ := installPlan_spec (s := s.unloadPlan) (img := img)
    exact ⟨_, (exec_planLoadDone hl).trans (congrArg _ ((finishLoad_passed hi hc).trans hread)), hload, hplan, hpending⟩
  · have hread : s.unloadPlan.loadPassed img = s.unloadPlan.refuseLoad (0x21, det 10 0xFF 0xFFFF) := by
      rw [State.loadPassed, unloadPlan_readImage, hr]
      exact if_neg hh
    exact ⟨_, (exec_planLoadDone hl).trans (congrArg _ ((finishLoad_passed hi hc).trans hread)), rfl, rfl, rfl⟩
  · have hwrite := dictWrite_varRequest hq hv
    by_cases hok : (s.plan.isNone || !s.selectableNum v) = true
    · refine runs_command hq.answered rfl (hwrite.trans (if_pos hok)) ⟨fun _ => rfl, fun hplan hsel => ?_⟩
      rw [hsel] at hok
      simp [hplan] at hok
    · refine runs_command hq.answered rfl (hwrite.trans (if_neg hok)) ⟨fun h => ?_, fun _ _ => rfl⟩
      rcases h with h | h <;> simp [h] at hok
  · rw [evaluateVariant_pinned hplan hpin hsel hp, if_pos hcur.symm, State.dropPending, hp]
    exact hp
  · rw [evaluateVariant_pinned hplan hpin hsel hp, if_neg (Ne.symm hcur)]
    split
    · exact decideSwitch_announced hp v 0
    · exact decideSwitch_announced hp v 1

end Sys2Proof.Machine
end

section
/-! The order of a write's checks (R421, R424, R425, R430, R431, R486). -/

namespace Sys2Proof.Machine

open Sys2Proof.Stated

section
variable {s : State} {q : Requester} {index sub : Nat} {bs : List Byte} {r : Row}

theorem exec_dictWrite : exec (.dictWrite q index sub bs) s = .next (s.command q index sub bs) := rfl

theorem dictWrite_closed {c : Nat} (h : s.closed index true = some c) : s.dictWrite q index sub bs = (c, s) := by
  rw [State.dictWrite, h]

theorem dictWrite_unlisted (ho : s.closed index true = none) (h : s.row? index sub = none) :
    s.dictWrite q index sub bs = (1, s) := by
  rw [State.dictWrite, ho]
  dsimp only
  rw [h]

/-- The checks of a listed entry, in their order. -/
theorem dictWrite_listed (ho : s.closed index true = none) (h : s.row? index sub = some r) : s.dictWrite q index sub bs =
    if !s.reaches q index sub true r.right then (6, s)
    else if r.right == .ro then (2, s)
    else if !valueOk r bs then (3, s)
    else if r.right == .rwd && (s.en.on || s.en.st == 1) then (4, s)
    else s.writeVal q index sub bs := by
  rw [State.dictWrite, ho]
  dsimp only
  rw [h]

/-- A part in BOOT answers writes of its identity alone, one in SAFE none. -/
theorem closed_write (hs : s.pw.part ≠ .safe) (hb : s.pw.part = .boot → index = 0x1000) : s.closed index true = none := by
  rw [State.closed]
  split
  · next h => exact if_pos (hb h)
  · next h => exact absurd h hs
  · rfl

end

/-- Settles O53. -/
theorem requestsAreCheckedInOrder : Obligations.RequestsAreCheckedInOrder := by
  unfold Obligations.RequestsAreCheckedInOrder
  intro s q index sub bs c answers
  have hexec : exec c s = .next (s.command q index sub bs) := exec_dictWrite
  refine ⟨fun hq => ?_, fun hq => ⟨fun hb hi => ?_, fun hs => ?_, fun hs hb => ⟨fun hr => ?_, fun r hr =>
    ⟨fun hreach => ?_, fun hreach => ⟨fun hro => ?_, fun hro hval => ?_, fun hrwd hval hen => ?_, fun hro hval hdis => ?_⟩⟩⟩⟩⟩
  · rw [hexec, command_unanswered s q index sub bs hq]
  · refine onlyAnswers_command hq hexec (dictWrite_closed ?_)
    rw [State.closed, hb]
    exact if_neg hi
  · refine onlyAnswers_command hq hexec (dictWrite_closed ?_)
    rw [State.closed, hs]
    rfl
  · exact onlyAnswers_command hq hexec (dictWrite_unlisted (closed_write hs hb) hr)
  · refine onlyAnswers_command hq hexec ((dictWrite_listed (closed_write hs hb) hr).trans ?_)
    rw [hreach]
    rfl
  · refine onlyAnswers_command hq hexec ((dictWrite_listed (closed_write hs hb) hr).trans ?_)
    rw [hreach, hro]
    rfl
  · refine onlyAnswers_command hq hexec ((dictWrite_listed (closed_write hs hb) hr).trans ?_)
    rw [hreach, beq_false_of_ne hro, hval]
    rfl
  · refine onlyAnswers_command hq hexec ((dictWrite_listed (closed_write hs hb) hr).trans ?_)
    have hon : (s.en.on || s.en.st == 1) = true := by simpa using hen
    rw [hreach, hrwd, hval, hon]
    rfl
  · have hopen : (r.right == .rwd && (s.en.on || s.en.st == 1)) = false := by
      cases hright : r.right with
      | rwd =>
        obtain ⟨hon, hst⟩ := hdis hright
        rw [hon, beq_false_of_ne hst]
        rfl
      | _ => rfl
    have hw : s.dictWrite q index sub bs = s.writeVal q index sub bs := by
      rw [dictWrite_listed (closed_write hs hb) hr, hreach, beq_false_of_ne hro, hval, hopen]
      rfl
    refine ⟨_, hexec, ?_⟩
    rw [command_answered s q index sub bs hq, hw]
    exact answered_send []

end Sys2Proof.Machine
end

section
/-! Settings read as they were written (R421). -/

namespace Sys2Proof.Machine

open Sys2Proof.Stated

/-! ### Values as bytes -/

section
variable {r : Row} {bs : List Byte}

theorem lengths_of_valueOk (hv : valueOk r bs = true) : (tyLens r.ty).1 ≤ bs.length ∧ bs.length ≤ (tyLens r.ty).2 := by
  unfold valueOk at hv
  extract_lets n inLen at hv
  have hin : inLen = true := by
    revert hv
    split
    · exact id
    · exact id
    · exact fun h => (Bool.and_eq_true _ _ ▸ h).1
  exact of_decide_eq_true hin

theorem length_of_valueOk (hv : valueOk r bs = true) {n : Nat} (hn : tyLens r.ty = (n, n)) : bs.length = n := by
  have hlen := lengths_of_valueOk hv
  rw [hn] at hlen
  exact Nat.le_antisymm hlen.2 hlen.1

/-- A number of its type's length reads as the bytes that were written. -/
theorem encode_number (hv : valueOk r bs = true) {n : Nat}
    (hn : tyLens r.ty = (n, n)) : encodeVal r.ty (.n (leNat bs)) = bs := by
  rw [encodeVal, hn]
  exact length_of_valueOk hv hn ▸ leBytes_leNat bs

theorem vB_beq_one {v : Nat} (h : v ≤ 1) : vB (v == 1) = .n v := by
  have hv : v = 0 ∨ v = 1 := by omega
  rcases hv with rfl | rfl <;> rfl

/-- A number of 32 bits reads as the signed number it spells. -/
theorem leInt_sNat {v : Nat} (h : v < 2 ^ 32) : leInt 4 (sNat 32 v) = leBytes 4 v := by
  have hmod : ((sNat 32 v) % (2 ^ (8 * 4) : Int)).toNat = v := by
    rw [sNat]
    split <;> omega
  rw [leInt, hmod]

theorem toNat_ofNat_of_lt {w v : Nat} (h : v < 2 ^ w) : (BitVec.ofNat w v).toNat = v := by
  rw [BitVec.toNat_ofNat, Nat.mod_eq_of_lt h]

end

/-! ### The entry after a write -/

section
variable {s u : State} {q : Requester} {i k : Nat} {bs : List Byte} {r : Row}

/-- A row's type and its right are those of its entry in every state. -/
theorem rowsOf_kinds (s u : State) (i : Nat) :
    (u.rowsOf i).map (fun r => (r.ty, r.right)) = (s.rowsOf i).map fun r => (r.ty, r.right) := by
  unfold State.rowsOf
  split_ifs
  · rfl
  · rfl
  · rfl
  · rfl
  · split <;> rfl

theorem row?_kind (h : s.row? i k = some r) : ∃ r', u.row? i k = some r' ∧ r'.ty = r.ty ∧ r'.right = r.right := by
  have hkinds := rowsOf_kinds s u i
  unfold State.row? at h ⊢
  extract_lets rs at h
  extract_lets rs'
  have hempty : rs'.isEmpty = rs.isEmpty := by simpa using congrArg List.isEmpty hkinds
  split at h
  · next hk =>
    rw [if_pos hk, hempty]
    exact ⟨r, h, rfl, rfl⟩
  · next hk =>
    rw [if_neg hk]
    have hentry : (rs'[k - 1]?).map (fun r => (r.ty, r.right)) = (rs[k - 1]?).map fun r => (r.ty, r.right) := by
      rw [← List.getElem?_map, ← List.getElem?_map, hkinds]
    rw [h] at hentry
    obtain ⟨r', hr', heq⟩ := Option.map_eq_some_iff.1 hentry
    exact ⟨r', hr', congrArg Prod.fst heq, congrArg Prod.snd heq⟩

/-- What a setting that took a value must show. -/
structure Takes (s : State) (q : Requester) (i k : Nat) (r : Row) (bs : List Byte) (u : State) : Prop where
  part : u.pw = s.pw
  reach : ∀ f, s.vfReach f i k true = true → u.vfReach f i k false = true
  reads : encodeVal r.ty (u.readVal q i k) = bs

theorem reaches_read {right : Right} (hf : ∀ f, s.vfReach f i k true = true → u.vfReach f i k false = true)
    (h : s.reaches q i k true right = true) : u.reaches q i k false right = true := by
  cases q with
  | fn f =>
    have hor : (f.fn == 0 || s.vfReach f i k true) = true := h
    show (f.fn == 0 || u.vfReach f i k false) = true
    rw [Bool.or_eq_true] at hor ⊢
    exact hor.imp_right (hf f)
  | mctp => exact h
  | remote p j =>
    have hwrite : s.remoteReach i k true right = true := h
    show u.remoteReach i k false right = true
    rw [State.remoteReach, Bool.and_eq_true] at hwrite ⊢
    exact ⟨hwrite.1, rfl⟩

/-- A setting of the dictionary reads as it was written. -/
def ReadsBack (s : State) (q : Requester) (i k : Nat) : Prop := ∀ bs, (s.dictWrite q i k bs).1 = 0 →
  ((s.dictWrite q i k bs).2.dictRead q i k).1 = 0 ∧ ((s.dictWrite q i k bs).2.dictRead q i k).2.1 = bs

theorem closed_read (hi : i ≠ 0x1000) (h : s.closed i true = none) (hpw : u.pw = s.pw) : u.closed i false = none := by
  rw [State.closed] at h ⊢
  rw [hpw]
  split at h
  · exact absurd h (by rw [if_neg hi]; exact nofun)
  · exact absurd h nofun
  · rfl

theorem readsBack_of (hrow : s.row? i k = some r) (hi : i ≠ 0x1000) (hright : r.right ≠ .ro ∧ r.right ≠ .mute)
    (h : ∀ bs, valueOk r bs = true → (s.writeVal q i k bs).1 = 0 → Takes s q i k r bs (s.writeVal q i k bs).2) :
    ReadsBack s q i k := by
  intro bs hw
  have hclosed : s.closed i true = none := by
    cases hc : s.closed i true with
    | none => rfl
    | some c =>
      rw [dictWrite_closed hc] at hw
      have hc0 : c = 0 := hw
      subst hc0
      rw [State.closed] at hc
      split at hc
      · rw [if_neg hi] at hc
        exact absurd hc (by decide)
      · exact absurd hc (by simp)
      · exact absurd hc nofun
  have hlisted := dictWrite_listed (q := q) (bs := bs) hclosed hrow
  rw [hlisted] at hw
  rw [hlisted]
  split_ifs at hw with hreach hro hval hen
  rw [if_neg hreach, if_neg hro, if_neg hval, if_neg hen]
  rw [Bool.not_eq_true, Bool.not_eq_false'] at hreach hval
  obtain ⟨hpw, hvf, hread⟩ := h bs hval hw
  generalize (s.writeVal q i k bs).2 = u at hpw hvf hread
  obtain ⟨r', hrow', hty, hkind⟩ := row?_kind (u := u) hrow
  have hmute : (r'.right == .mute) = false := beq_false_of_ne (hkind ▸ hright.2)
  rw [State.dictRead, closed_read hi hclosed hpw]
  dsimp only
  rw [hrow']
  dsimp only
  rw [hmute, hkind, reaches_read hvf hreach, hty]
  exact ⟨rfl, hread⟩

theorem ok_of_valueOk (hv : valueOk r bs = true) (hty : ∀ lo hi, r.ty ≠ .dom lo hi) (hstr : r.ty ≠ .str) :
    r.ok (leNat bs) = true := by
  unfold valueOk at hv
  extract_lets n inLen at hv
  revert hv
  split
  · next lo hi h => exact absurd h (hty lo hi)
  · next h => exact absurd h hstr
  · exact fun h => (Bool.and_eq_true _ _ ▸ h).2

/-- A setting that no virtual function writes. -/
theorem readsBack_plain (r : Row) (h : ∀ bs, valueOk r bs = true → (s.writeVal q i k bs).1 = 0 →
      (s.writeVal q i k bs).2.pw = s.pw ∧ encodeVal r.ty ((s.writeVal q i k bs).2.readVal q i k) = bs)
    (hrow : s.row? i k = some r := by rfl) (hi : i ≠ 0x1000 := by decide)
    (hright : r.right ≠ .ro ∧ r.right ≠ .mute := by exact ⟨nofun, nofun⟩)
    (hvf : ∀ f, s.vfReach f i k true = false := by exact fun _ => rfl) : ReadsBack s q i k := by
  refine readsBack_of hrow hi hright fun bs hv hw => ⟨(h bs hv hw).1, fun f hf => ?_, (h bs hv hw).2⟩
  rw [hvf f] at hf
  exact absurd hf Bool.false_ne_true

/-- A number. -/
theorem readsBack_number (r : Row) {n : Nat} (hn : tyLens r.ty = (n, n))
    (h : ∀ bs, valueOk r bs = true → leNat bs < 256 ^ n → (s.writeVal q i k bs).1 = 0 →
      (s.writeVal q i k bs).2.pw = s.pw ∧ (s.writeVal q i k bs).2.readVal q i k = .n (leNat bs))
    (hrow : s.row? i k = some r := by rfl) (hi : i ≠ 0x1000 := by decide)
    (hright : r.right ≠ .ro ∧ r.right ≠ .mute := by exact ⟨nofun, nofun⟩)
    (hvf : ∀ f, s.vfReach f i k true = false := by exact fun _ => rfl) : ReadsBack s q i k := by
  refine readsBack_plain r (fun bs hv hw => ?_) hrow hi hright hvf
  obtain ⟨hpw, hread⟩ := h bs hv (length_of_valueOk hv hn ▸ leNat_lt bs) hw
  exact ⟨hpw, by rw [hread]; exact encode_number hv hn⟩

/-- A signed number of 32 bits. -/
theorem readsBack_signed (r : Row) (hty : r.ty = .s32)
    (h : ∀ bs, (s.writeVal q i k bs).1 = 0 →
      (s.writeVal q i k bs).2.pw = s.pw ∧ (s.writeVal q i k bs).2.readVal q i k = .i (sNat 32 (leNat bs)))
    (hrow : s.row? i k = some r := by rfl) (hi : i ≠ 0x1000 := by decide)
    (hright : r.right ≠ .ro ∧ r.right ≠ .mute := by exact ⟨nofun, nofun⟩)
    (hvf : ∀ f, s.vfReach f i k true = false := by exact fun _ => rfl) : ReadsBack s q i k := by
  refine readsBack_plain r (fun bs hv hw => ?_) hrow hi hright hvf
  have hn : tyLens r.ty = (4, 4) := by rw [hty]; rfl
  have hlen := length_of_valueOk hv hn
  have hlt : leNat bs < 256 ^ 4 := hlen ▸ leNat_lt bs
  obtain ⟨hpw, hread⟩ := h bs hw
  refine ⟨hpw, ?_⟩
  rw [hread, hty]
  exact (leInt_sNat (by omega)).trans (hlen ▸ leBytes_leNat bs)

/-! ### Settings of the part -/

theorem sel_setSel (x : Sel) : (s.setSel q x).sel q = x := by
  simp [State.sel, State.setSel]

theorem plan_readsBack : ReadsBack s q 0x5000 1 ∧ ReadsBack s q 0x5000 2 :=
  ⟨readsBack_number (addrRow .rwd 4096) rfl fun _ _ _ _ => ⟨rfl, rfl⟩,
    readsBack_number (rwdIn .u64 4096 17179869184) rfl fun _ _ _ _ => ⟨rfl, rfl⟩⟩

/-- A selector of the requester. -/
theorem planSel_readsBack : ReadsBack s q 0x5020 1 ∧ ReadsBack s q 0x5040 1 ∧ ReadsBack s q 0x5041 1 :=
  ⟨readsBack_number (rw' .u16) rfl fun _ _ _ _ => ⟨rfl, congrArg (fun x : Sel => Val.n x.slot) (sel_setSel _)⟩,
    readsBack_number (rw' .u8) rfl fun _ _ _ _ => ⟨rfl, congrArg (fun x : Sel => Val.n x.owners) (sel_setSel _)⟩,
    readsBack_number (rwIn .u8 0 15) rfl fun _ _ _ _ => ⟨rfl, congrArg (fun x : Sel => Val.n x.resVar) (sel_setSel _)⟩⟩

theorem policy_readsBack : ∀ k ∈ [1, 2, 3, 4, 5, 6, 7, 8, 9, 10, 11, 12], ReadsBack s q 0x6000 k := by
  simp only [List.forall_mem_cons, List.not_mem_nil, false_implies, implies_true, and_true]
  refine ⟨readsBack_number (rwIn .u8 0 63) rfl fun _ _ hlt _ => ⟨rfl, congrArg Val.n (toNat_ofNat_of_lt hlt)⟩, ?_⟩
  exact ⟨readsBack_number (rwIn .u8 1 255) rfl fun _ _ _ _ => ⟨rfl, rfl⟩,
    readsBack_number (rwIn .u8 1 255) rfl fun _ _ _ _ => ⟨rfl, rfl⟩,
    readsBack_number (rwIn .u32 10 1000000) rfl fun _ _ _ _ => ⟨rfl, rfl⟩,
    readsBack_number (rwIn .u8 1 255) rfl fun _ _ _ _ => ⟨rfl, rfl⟩,
    readsBack_number (rwIn .enum 0 3) rfl fun _ _ _ _ => ⟨rfl, rfl⟩,
    readsBack_signed ⟨.s32, .rw, sIn 80 95⟩ rfl fun _ _ => ⟨rfl, rfl⟩,
    readsBack_signed ⟨.s32, .rw, sIn 60 (s.hm.tempStep - 5)⟩ rfl fun _ _ => ⟨rfl, rfl⟩,
    readsBack_number (rwIn .u16 600 1500) rfl fun _ _ _ _ => ⟨rfl, rfl⟩,
    readsBack_number (rwIn .u16 1 1000) rfl fun _ _ _ _ => ⟨rfl, rfl⟩,
    readsBack_plain (rw' (.dom 16 16)) fun _ _ _ => ⟨rfl, rfl⟩,
    readsBack_number (rwIn .u16 10 60000) rfl fun _ _ _ _ => ⟨rfl, rfl⟩⟩

theorem links_readsBack : ReadsBack s q 0x7000 7 ∧ ReadsBack s q 0x7000 8 ∧ ReadsBack s q 0x8100 1 ∧
    ReadsBack s q 0x8200 1 ∧ ReadsBack s q 0x8200 2 := by
  refine ⟨readsBack_number (rwdIn .enum 0 1) rfl fun _ hv _ _ => ⟨rfl, ?_⟩,
    readsBack_signed ⟨.s32, .rwd, sIn (-100000) 100000⟩ rfl fun _ _ => ⟨rfl, rfl⟩,
    readsBack_number (rwdIn .u16 0 511) rfl fun _ _ _ _ => ⟨rfl, rfl⟩,
    readsBack_plain (rw' (.dom 512 512)) fun _ _ _ => ⟨rfl, rfl⟩,
    readsBack_number (rwdIn .bool 0 1) rfl fun _ hv _ _ => ⟨rfl, ?_⟩⟩
  · exact vB_beq_one (of_decide_eq_true (ok_of_valueOk hv nofun nofun)).2
  · exact vB_beq_one (of_decide_eq_true (ok_of_valueOk hv nofun nofun)).2

theorem tools_readsBack : ReadsBack s q 0xA100 1 ∧ (∀ k ∈ [1, 2, 3, 4, 5, 6], ReadsBack s q 0xB100 k) ∧
    (∀ k ∈ [1, 2], ReadsBack s q 0xB200 k) ∧ ∀ k ∈ [1, 2, 3, 4], ReadsBack s q 0xB300 k := by
  simp only [List.forall_mem_cons, List.not_mem_nil, false_implies, implies_true, and_true]
  refine ⟨readsBack_number (rwIn .u16 5 10000) rfl fun _ _ _ _ => ⟨rfl, rfl⟩,
    ⟨readsBack_number (rwIn .bool 0 1) rfl fun _ hv _ _ => ⟨rfl, ?_⟩,
      readsBack_number ⟨.u32, .rw, fun v => v % 2 == 0 && decide (v < 256)⟩ rfl fun _ _ hlt _ =>
        ⟨rfl, congrArg Val.n (toNat_ofNat_of_lt hlt)⟩,
      readsBack_plain (rw' (.dom 64 64)) fun _ _ _ => ⟨rfl, rfl⟩,
      readsBack_number (addrRow .rwd 4096) rfl fun _ _ _ _ => ⟨rfl, rfl⟩,
      readsBack_number ⟨.u32, .rwd, fun v => decide (65536 ≤ v ∧ v ≤ 1073741824) && v % 4096 == 0⟩ rfl
        fun _ _ _ _ => ⟨rfl, rfl⟩,
      readsBack_number (rwdIn .enum 0 1) rfl fun _ hv _ _ => ⟨rfl, ?_⟩⟩,
    ⟨readsBack_number (rwdIn .u8 0 5) rfl fun _ _ _ _ => ⟨rfl, rfl⟩,
      readsBack_number (rwdIn .enum 0 2) rfl fun _ _ _ _ => ⟨rfl, rfl⟩⟩,
    readsBack_number (rwdIn .u16 0 511) rfl fun _ _ _ _ => ⟨rfl, rfl⟩,
    readsBack_number ⟨.u32, .rwd, fun v => decide (v ≤ 7339008 ∧ v + s.dump.len ≤ 7340032) && v % 1024 == 0⟩ rfl
      fun _ _ _ _ => ⟨rfl, rfl⟩,
    readsBack_number ⟨.u32, .rwd, fun v => decide (1024 ≤ v ∧ s.dump.offset + v ≤ 7340032) && v % 1024 == 0⟩ rfl
      fun _ _ _ _ => ⟨rfl, rfl⟩,
    readsBack_number (addrRow .rwd 4096) rfl fun _ _ _ _ => ⟨rfl, rfl⟩⟩
  · exact vB_beq_one (of_decide_eq_true (ok_of_valueOk hv nofun nofun)).2
  · exact vB_beq_one (of_decide_eq_true (ok_of_valueOk hv nofun nofun)).2

theorem mirror_readsBack : ReadsBack s q 0x6020 2 ∧ ReadsBack s q 0xC000 3 ∧ ReadsBack s q 0xC020 1 ∧ ReadsBack s q 0xC020 6 ∧
    ReadsBack s q 0xC030 1 ∧ ReadsBack s q 0xC030 3 :=
  ⟨readsBack_number (rw' .u32) rfl fun _ _ _ _ => ⟨rfl, congrArg (fun x : Sel => Val.n x.evt) (sel_setSel _)⟩,
    readsBack_number (rwIn .u32 0 65535) rfl fun _ _ _ _ => ⟨rfl, congrArg (fun x : Sel => Val.n x.mirFirst) (sel_setSel _)⟩,
    readsBack_number (rwIn .u16 0 511) rfl fun _ _ _ _ => ⟨rfl, congrArg (fun x : Sel => Val.n x.mirArray) (sel_setSel _)⟩,
    readsBack_number (rw' .u8) rfl fun _ _ _ _ => ⟨rfl, congrArg (fun x : Sel => Val.n x.mirCell) (sel_setSel _)⟩,
    readsBack_number (rwIn .u8 0 79) rfl fun _ _ _ _ => ⟨rfl, congrArg (fun x : Sel => Val.n x.prime) (sel_setSel _)⟩,
    readsBack_number (rwIn .u8 0 7) rfl fun _ _ _ _ => ⟨rfl, congrArg (fun x : Sel => Val.n x.pset) (sel_setSel _)⟩⟩

/-! ### Settings of a tenant and of a stream -/

theorem slice_whole {n : Nat} (h : bs.length = n) : slice bs 0 n = bs := by
  subst h
  simp [slice]

theorem security_readsBack (hr : Rising s.tenants) : ReadsBack s q 0x9010 3 ∧ ReadsBack s q 0x9020 1 ∧
    ReadsBack s q 0x9030 3 ∧ ReadsBack s q 0x9030 4 ∧ ReadsBack s q 0x9040 1 ∧ ReadsBack s q 0x9050 1 ∧
    ReadsBack s q 0x9050 2 := by
  have htenant (x : Tenant) : (s.setTenant (s.sel q).ten x).tenant (s.sel q).ten = x := mget_mset_self ({} : Tenant) hr _ x
  refine ⟨readsBack_number (rwdIn .enum 0 1) rfl fun _ hv _ _ => ⟨rfl, ?_⟩,
    readsBack_number (rwIn .u8 0 5) rfl fun bs _ _ hw => ?_,
    readsBack_number (addrRow .rw 64) rfl fun _ _ _ _ => ⟨rfl, congrArg (fun x : Tenant => Val.n x.shareAddr) (htenant _)⟩,
    readsBack_number (rwIn .u32 384 131856) rfl fun _ _ _ _ =>
      ⟨rfl, congrArg (fun x : Tenant => Val.n x.shareLen) (htenant _)⟩,
    readsBack_number (addrRow .rw 64) rfl fun _ _ _ _ => ⟨rfl, congrArg (fun x : Tenant => Val.n x.pdecAddr) (htenant _)⟩,
    readsBack_plain (rw' (.dom 32 32)) fun bs hv _ => ⟨rfl, slice_whole (length_of_valueOk hv rfl)⟩,
    readsBack_number (rwIn .u16 0 4095) rfl fun _ _ _ _ => ⟨rfl, rfl⟩⟩
  · exact vB_beq_one (of_decide_eq_true (ok_of_valueOk hv nofun nofun)).2
  · have heq : s.writeVal q 0x9020 1 bs = if (s.tenant (s.sel q).ten).st != .free then (8, s)
        else (0, s.setTenant (s.sel q).ten { s.tenant (s.sel q).ten with vkeyAlg := leNat bs }) := rfl
    rw [heq] at hw ⊢
    split_ifs at hw with hst
    rw [if_neg hst]
    exact ⟨rfl, congrArg (fun x : Tenant => Val.n x.vkeyAlg) (htenant _)⟩

/-- A number that a virtual function may write. -/
theorem readsBack_reached (r : Row) {n : Nat} (hn : tyLens r.ty = (n, n))
    (h : ∀ bs, (s.writeVal q i k bs).1 = 0 → (s.writeVal q i k bs).2.pw = s.pw ∧
      (∀ f, s.vfReach f i k true = true → (s.writeVal q i k bs).2.vfReach f i k false = true) ∧
      (s.writeVal q i k bs).2.readVal q i k = .n (leNat bs))
    (hrow : s.row? i k = some r := by rfl) (hi : i ≠ 0x1000 := by decide)
    (hright : r.right ≠ .ro ∧ r.right ≠ .mute := by exact ⟨nofun, nofun⟩) : ReadsBack s q i k := by
  refine readsBack_of hrow hi hright fun bs hv hw => ?_
  obtain ⟨hpw, hvf, hread⟩ := h bs hw
  exact ⟨hpw, hvf, by rw [hread]; exact encode_number hv hn⟩

theorem tenant_readsBack (hr : Rising s.tenants) : (∀ k ∈ [1, 2], ReadsBack s q 0x4000 k) ∧
    (∀ k ∈ [2, 3, 4, 5, 6], ReadsBack s q 0x4010 k) ∧ ∀ k ∈ [1, 2], ReadsBack s q 0x4030 k := by
  have htenant (x : Tenant) : (s.setTenant (s.sel q).ten x).tenant (s.sel q).ten = x := mget_mset_self ({} : Tenant) hr _ x
  simp only [List.forall_mem_cons, List.not_mem_nil, false_implies, implies_true, and_true]
  refine ⟨⟨readsBack_reached (rwIn .u16 1 4095) rfl fun _ _ =>
      ⟨rfl, fun _ _ => rfl, congrArg (fun x : Sel => Val.n x.ten) (sel_setSel _)⟩,
      readsBack_number (rwIn .u32 1000 12800000) rfl fun _ _ _ _ => ⟨rfl, rfl⟩⟩,
    ⟨readsBack_number (rwIn .bool 0 1) rfl fun bs hv _ hw => ?_,
      readsBack_number (rwIn .u8 1 255) rfl fun _ _ _ _ => ⟨rfl, congrArg (fun x : Tenant => Val.n x.weight) (htenant _)⟩,
      readsBack_number ⟨.u16, .rw, fnValue⟩ rfl fun _ _ _ _ => ⟨rfl, congrArg (fun x : Tenant => Val.n x.homeFn) (htenant _)⟩,
      readsBack_number ⟨.u32, .rw, fun v => bits v 30 20 == 0⟩ rfl fun bs _ hlt _ => ⟨rfl, ?_⟩,
      readsBack_number (rwIn .u32 0 65536) rfl fun _ _ _ _ =>
        ⟨rfl, congrArg (fun x : Tenant => Val.n x.creditLimit) (htenant _)⟩⟩,
    readsBack_number (rwIn .u32 0 65536) rfl fun _ _ _ _ => ⟨rfl, congrArg (fun x : Tenant => Val.n x.newRate) (htenant _)⟩,
    readsBack_number ⟨.u32, .rw, fun v => decide (1024 ≤ v ∧ v ≤ 16777216) && v % 1024 == 0⟩ rfl fun _ _ _ _ =>
      ⟨rfl, congrArg (fun x : Tenant => Val.n x.newDepth) (htenant _)⟩⟩
  · have heq : s.writeVal q 0x4010 2 bs = if (s.tenant (s.sel q).ten).st = .active then (8, s)
        else (0, s.setTenant (s.sel q).ten { s.tenant (s.sel q).ten with test := leNat bs == 1 }) := rfl
    rw [heq] at hw ⊢
    split_ifs at hw with hst
    rw [if_neg hst]
    refine ⟨rfl, (congrArg (fun x : Tenant => vB x.test) (htenant _)).trans ?_⟩
    exact vB_beq_one (of_decide_eq_true (ok_of_valueOk hv nofun nofun)).2
  · exact (congrArg (fun x : Tenant => Val.n x.pasid.toNat) (htenant _)).trans (congrArg Val.n (toNat_ofNat_of_lt hlt))

/-- A setting of a tenant's uploads leaves its home function. -/
theorem setTenant_home (hr : Rising s.tenants) {n : Nat} {x : Tenant} (hx : x.homeFn = (s.tenant n).homeFn) (m : Nat) :
    ((s.setTenant n x).tenant m).homeFn = (s.tenant m).homeFn := by
  by_cases hm : m = n
  · subst hm
    exact (congrArg Tenant.homeFn (mget_mset_self ({} : Tenant) hr m x)).trans hx
  · exact congrArg Tenant.homeFn (mget_mset_of_ne ({} : Tenant) s.tenants n m x hm)

theorem upload_readsBack (hr : Rising s.tenants) : ∀ k ∈ [1, 2, 3, 8], ReadsBack s q 0x4020 k := by
  have htenant (x : Tenant) : (s.setTenant (s.sel q).ten x).tenant (s.sel q).ten = x := mget_mset_self ({} : Tenant) hr _ x
  have hvf {x : Tenant} (hx : x.homeFn = (s.tenant (s.sel q).ten).homeFn) (f : FnId) {k : Nat}
      (h : s.vfReach f 0x4020 k true = true) : (s.setTenant (s.sel q).ten x).vfReach f 0x4020 k false = true := by
    have hhome : ((s.setTenant (s.sel q).ten x).tenant (s.sel (.fn f)).ten).homeFn == f.port * 256 + f.fn := by
      rw [setTenant_home hr hx]
      exact h
    exact hhome
  simp only [List.forall_mem_cons, List.not_mem_nil, false_implies, implies_true, and_true]
  exact ⟨readsBack_reached (addrRow .rw 64) rfl fun _ _ =>
      ⟨rfl, fun f h => hvf (by rfl) f h, congrArg (fun x : Tenant => Val.n x.manAddr) (htenant _)⟩,
    readsBack_reached (rwIn .u32 256 16777216) rfl fun _ _ =>
      ⟨rfl, fun f h => hvf (by rfl) f h, congrArg (fun x : Tenant => Val.n x.manLen) (htenant _)⟩,
    readsBack_reached (addrRow .rw 4096) rfl fun _ _ =>
      ⟨rfl, fun f h => hvf (by rfl) f h, congrArg (fun x : Tenant => Val.n x.dataAddr) (htenant _)⟩,
    readsBack_reached (rw' .u32) rfl fun _ _ =>
      ⟨rfl, fun f h => hvf (by rfl) f h, congrArg (fun x : Tenant => Val.n x.quota) (htenant _)⟩⟩

theorem streamSel_readsBack : ReadsBack s q 0x4800 1 :=
  readsBack_reached (rwIn .u16 0 16383) rfl fun _ _ =>
    ⟨rfl, fun _ _ => rfl, congrArg (fun x : Sel => Val.n x.str) (sel_setSel _)⟩

/-- A stream's setting reads as it was set. -/
theorem readStream_setting (hr : Rising s.streams) {k : Nat} (hk : k ∈ [3, 4, 5, 6, 7, 8, 9, 10, 11, 12, 13, 14]) (v : Nat) :
    (s.setStream (s.sel q).str ((s.stream (s.sel q).str).setting k v)).readVal q 0x4810 k = .n v := by
  have hstream (x : Stream) : (s.setStream (s.sel q).str x).stream (s.sel q).str = x := mget_mset_self ({} : Stream) hr _ x
  revert k
  simp only [List.forall_mem_cons, List.not_mem_nil, false_implies, implies_true, and_true]
  exact ⟨congrArg (fun x : Stream => Val.n x.tenant) (hstream _), congrArg (fun x : Stream => Val.n x.fn) (hstream _),
    congrArg (fun x : Stream => Val.n x.altFn) (hstream _), congrArg (fun x : Stream => Val.n x.sqAddr) (hstream _),
    congrArg (fun x : Stream => Val.n x.cqAddr) (hstream _), congrArg (fun x : Stream => Val.n x.statusAddr) (hstream _),
    congrArg (fun x : Stream => Val.n x.sqLog2) (hstream _), congrArg (fun x : Stream => Val.n x.cqLog2) (hstream _),
    congrArg (fun x : Stream => Val.n x.credits) (hstream _), congrArg (fun x : Stream => Val.n x.nextSeq) (hstream _),
    congrArg (fun x : Stream => Val.n x.vector) (hstream _), congrArg (fun x : Stream => Val.n x.irqDelay) (hstream _)⟩

/-- A setting that a virtual function may write leaves the stream's functions. -/
theorem setting_fns (x : Stream) {k : Nat} (hk : k ∈ [6, 7, 8, 9, 10, 11, 12, 13, 14]) (v : Nat) :
    (x.setting k v).fn = x.fn ∧ (x.setting k v).altFn = x.altFn := by
  revert k
  simp only [List.forall_mem_cons, List.not_mem_nil, false_implies, implies_true, and_true]
  exact ⟨⟨rfl, rfl⟩, ⟨rfl, rfl⟩, ⟨rfl, rfl⟩, ⟨rfl, rfl⟩, ⟨rfl, rfl⟩, ⟨rfl, rfl⟩, ⟨rfl, rfl⟩, ⟨rfl, rfl⟩, ⟨rfl, rfl⟩⟩

theorem setStream_fns (hr : Rising s.streams) {n : Nat} {x : Stream}
    (hx : x.fn = (s.stream n).fn ∧ x.altFn = (s.stream n).altFn)
    (m : Nat) : ((s.setStream n x).stream m).fn = (s.stream m).fn ∧ ((s.setStream n x).stream m).altFn = (s.stream m).altFn
      := by
  by_cases hm : m = n
  · subst hm
    have hself : (s.setStream m x).stream m = x := mget_mset_self ({} : Stream) hr m x
    rwa [hself]
  · have hother : (s.setStream n x).stream m = s.stream m := mget_mset_of_ne ({} : Stream) s.streams n m x hm
    rw [hother]
    exact ⟨rfl, rfl⟩

theorem vfReach_setting (hr : Rising s.streams) {k : Nat}
    (hk : k ∈ [3, 4, 5, 6, 7, 8, 9, 10, 11, 12, 13, 14]) (v : Nat) (f : FnId)
    (h : s.vfReach f 0x4810 k true = true) :
    (s.setStream (s.sel q).str ((s.stream (s.sel q).str).setting k v)).vfReach f 0x4810 k false = true := by
  have hreach : (((s.stream (s.sel (.fn f)).str).fn == f.port * 256 + f.fn ||
      (s.stream (s.sel (.fn f)).str).altFn == f.port * 256 + f.fn) && !(true && decide (3 ≤ k ∧ k ≤ 5))) = true := h
  rw [Bool.and_eq_true, Bool.true_and, Bool.not_eq_true', decide_eq_false_iff_not] at hreach
  have hk6 : k ∈ [6, 7, 8, 9, 10, 11, 12, 13, 14] := by
    simp only [List.mem_cons, List.not_mem_nil, or_false] at hk ⊢
    omega
  obtain ⟨hfn, halt⟩ := setStream_fns hr (setting_fns (s.stream (s.sel q).str) hk6 v) (s.sel (.fn f)).str
  show ((((s.setStream _ _).stream (s.sel (.fn f)).str).fn == _ || ((s.setStream _ _).stream (s.sel
    (.fn f)).str).altFn == _) &&
    !(false && _)) = true
  rw [hfn, halt, hreach.1]
  rfl

/-- A setting of a stream. -/
theorem streamSetting_readsBack (hr : Rising s.streams) {k : Nat} (r : Row)
    {n : Nat} (hn : tyLens r.ty = (n, n)) (hk : k ∈ [3, 4, 5, 6, 7, 8, 9, 10, 11, 12, 13, 14] := by decide)
    (hrow : s.row? 0x4810 k = some r := by rfl) (hright : r.right ≠ .ro ∧ r.right ≠ .mute := by exact ⟨nofun, nofun⟩) :
    ReadsBack s q 0x4810 k := by
  refine readsBack_reached r hn (fun bs hw => ?_) hrow (by decide) hright
  have hk1 : k ≠ 1 := by
    rintro rfl
    exact absurd hk (by decide)
  have heq : s.writeVal q 0x4810 k bs = if (s.stream (s.sel q).str).st != .disabled then (8, s)
      else (0, s.setStream (s.sel q).str ((s.stream (s.sel q).str).setting k (leNat bs))) := by
    show s.writeStream q 0x4810 k (leNat bs) = _
    rw [State.writeStream]
    exact if_neg hk1
  rw [heq] at hw ⊢
  split_ifs at hw with hst
  rw [if_neg hst]
  exact ⟨rfl, fun f h => vfReach_setting hr hk _ f h, readStream_setting hr hk _⟩

theorem stream_readsBack (hr : Rising s.streams) :
    ∀ k ∈ [3, 4, 5, 6, 7, 8, 9, 10, 11, 12, 13, 14], ReadsBack s q 0x4810 k := by
  simp only [List.forall_mem_cons, List.not_mem_nil, false_implies, implies_true, and_true]
  exact ⟨streamSetting_readsBack hr (rwIn .u16 1 4095) rfl, streamSetting_readsBack hr ⟨.u16, .rw, fnValue⟩ rfl,
    streamSetting_readsBack hr ⟨.u16, .rw, fun v => v == 0xFFFF || fnValue v⟩ rfl,
    streamSetting_readsBack hr (addrRow .rw 4096) rfl, streamSetting_readsBack hr (addrRow .rw 4096) rfl,
    streamSetting_readsBack hr (addrRow .rw 64) rfl, streamSetting_readsBack hr (rwIn .u8 4 16) rfl,
    streamSetting_readsBack hr (rwIn .u8 4 16) rfl, streamSetting_readsBack hr (rwIn .u16 1 4096) rfl,
    streamSetting_readsBack hr (rw' .u32) rfl,
    streamSetting_readsBack hr ⟨.u8, .rw, fun v => v == 0xFF || decide (v < 32)⟩ rfl,
    streamSetting_readsBack hr (rw' .u16) rfl⟩

/-! ### Settings of a die -/

section
variable {d : Nat} (h3 : bits i 15 12 = 3) (h11 : bits i 11 8 = d)
include h3

theorem vfReach_die (f : FnId) : s.vfReach f i k true = false := by
  unfold State.vfReach
  extract_lets code e t x
  split
  · exact absurd h3 (by decide)
  · exact absurd h3 (by decide)
  · exact absurd h3 (by decide)
  · exact absurd h3 (by decide)
  · exact absurd h3 (by decide)
  · exact absurd h3 (by decide)
  · rfl

theorem dieIndex_ne : i ≠ 0x1000 := by
  rintro rfl
  exact absurd h3 (by decide)

include h11

theorem pslot_readsBack (hr : Rising (s.sel q).pslot) (h7 : bits i 7 0 = 1) : ReadsBack s q i 1 := by
  have hrows : s.rowsOf i = pslotRows := by
    unfold State.rowsOf
    rw [if_pos h3, h7]
    rfl
  have hrow : s.row? i 1 = some (rwIn .u8 0 67) := by
    rw [State.row?, hrows]
    rfl
  refine readsBack_number (rwIn .u8 0 67) rfl (fun bs _ _ _ => ?_) hrow (dieIndex_ne h3) (hvf := vfReach_die h3)
  have hwrite : s.writeVal q i 1 bs = took (s.setSel q { s.sel q with pslot := mset 0 (s.sel q).pslot d (leNat bs) }) := by
    unfold State.writeVal
    rw [h3]
    show s.writeDieSel q i (leNat bs) = _
    rw [State.writeDieSel, h7, h11]
    rfl
  rw [hwrite]
  unfold State.readVal
  rw [h3, h7, h11]
  refine ⟨rfl, congrArg Val.n ?_⟩
  show mget 0 ((s.setSel q _).sel q).pslot d = _
  rw [sel_setSel]
  exact mget_mset_self 0 hr d _

theorem loft_readsBack (hr : Rising (s.sel q).loft) (h7 : bits i 7 0 = 0x40) (hd : d < 8) : ReadsBack s q i 1 := by
  have hrows : s.rowsOf i = loftRows := by
    unfold State.rowsOf
    rw [if_pos h3, h7, h11]
    exact if_pos hd
  have hrow : s.row? i 1 = some (rwIn .u8 0 63) := by
    rw [State.row?, hrows]
    rfl
  refine readsBack_number (rwIn .u8 0 63) rfl (fun bs _ _ _ => ?_) hrow (dieIndex_ne h3) (hvf := vfReach_die h3)
  have hwrite : s.writeVal q i 1 bs = took (s.setSel q { s.sel q with loft := mset 0 (s.sel q).loft d (leNat bs) }) := by
    unfold State.writeVal
    rw [h3]
    show s.writeDieSel q i (leNat bs) = _
    rw [State.writeDieSel, h7, h11]
    rfl
  rw [hwrite]
  unfold State.readVal
  rw [h3, h7, h11]
  refine ⟨rfl, congrArg Val.n ?_⟩
  show mget 0 ((s.setSel q _).sel q).loft d = _
  rw [sel_setSel]
  exact mget_mset_self 0 hr d _

end

theorem dieSel_readsBack (hp : Rising (s.sel q).pslot) (hl : Rising (s.sel q).loft) :
    (∀ d < 16, ReadsBack s q (0x3001 + 256 * d) 1) ∧ ∀ d < 8, ReadsBack s q (0x3040 + 256 * d) 1 := by
  refine ⟨fun d hd => pslot_readsBack (d := d) ?_ ?_ hp ?_, fun d hd => loft_readsBack (d := d) ?_ ?_ hl ?_ hd⟩ <;>
    simp only [bits] <;> omega

end

/-- Settles O54. Every entry takes the value and shows it; a row's type does not depend on the state. -/
theorem settingsReadBackWhatWasWritten : Obligations.SettingsReadBackWhatWasWritten := by
  unfold Obligations.SettingsReadBackWhatWasWritten
  intro s q bs ⟨hten, hstr, hloft, hpslot⟩ e he k hk
  have hall : ReadsBack s q e.1 k := by
    obtain ⟨hpslots, hlofts⟩ := dieSel_readsBack hpslot hloft
    obtain ⟨hsel, htenant, hbucket⟩ := tenant_readsBack (q := q) hten
    obtain ⟨hplan1, hplan2⟩ := plan_readsBack (s := s) (q := q)
    obtain ⟨hslot, howners, hres⟩ := planSel_readsBack (s := s) (q := q)
    obtain ⟨hfall, hdelay, haddr, hroute, hremote⟩ := links_readsBack (s := s) (q := q)
    obtain ⟨hrate, htrace, hmargin, hdump⟩ := tools_readsBack (s := s) (q := q)
    obtain ⟨hevt, hfirst, harray, hcell, hprime, hpset⟩ := mirror_readsBack (s := s) (q := q)
    obtain ⟨hpolicy, hvkey, hshare3, hshare4, hpdec, hnonce, hhm⟩ := security_readsBack (q := q) hten
    have hupload := upload_readsBack (q := q) hten
    have hstream := stream_readsBack (q := q) hstr
    have hpolicies := policy_readsBack (s := s) (q := q)
    revert k e
    simp only [settings, List.forall_mem_append, List.forall_mem_map, List.mem_range, List.forall_mem_cons, List.not_mem_nil,
      false_implies, implies_true, and_true] at hsel htenant hbucket hupload hstream hpolicies htrace hmargin hdump ⊢
    exact ⟨⟨hpslots, hlofts⟩, hsel, htenant, hupload, hbucket, streamSel_readsBack, hstream, ⟨hplan1, hplan2⟩, hslot, howners,
      hres, hpolicies, hevt, ⟨hfall, hdelay⟩, haddr, ⟨hroute, hremote⟩, hpolicy, hvkey, ⟨hshare3, hshare4⟩, hpdec,
      ⟨hnonce, hhm⟩, hrate, htrace, hmargin, hdump, hfirst, ⟨harray, hcell⟩, hprime, hpset⟩
  exact hall bs

end Sys2Proof.Machine
end

section
/-! Requests that act on tenants, keys and shares (R127..R129, R394, R455..R459, R461, R463). -/

namespace Sys2Proof.Machine

open Sys2Proof.Stated

/-! ### Dropped keys -/

section
variable {s : State} {k : Key}

theorem freeKey_keys (s : State) (k : Key) :
    (s.freeKey k).keys = s.keys.filter fun x => !(x.tenant == k.tenant && x.id == k.id && x.st == .dropped) := rfl

theorem freeKey_rising (h : Rising s.tenants) (k : Key) : Rising (s.freeKey k).tenants := rising_mset h

/-- Every key stems from one that was there. -/
theorem mem_reap (h : k ∈ s.reap.keys) : k ∈ s.keys := by
  have hsub (l : List Key) (u : State) (hk : k ∈ (l.foldl State.freeKey u).keys) : k ∈ u.keys := by
    induction l generalizing u with
    | nil => exact hk
    | cons f l ih => exact (List.mem_filter.1 (freeKey_keys u f ▸ ih _ hk)).1
  exact hsub _ s h

/-- A key that is not dropped is not freed. -/
theorem mem_reap_of_live (h : k ∈ s.keys) (hk : k.st ≠ .dropped) : k ∈ s.reap.keys := by
  refine List.foldlRecOn _ _ (motive := fun u : State => k ∈ u.keys) h fun u hu f _ => ?_
  rw [freeKey_keys]
  exact List.mem_filter.2 ⟨hu, by simp [hk]⟩

/-- A dropped key that no job holds is freed. -/
theorem reap_frees (hk : k.st = .dropped) (hheld : s.keyHeld k = false) : k ∉ s.reap.keys := by
  intro hmem
  have hin : k ∈ s.keys.filter fun k => k.st == .dropped && !s.keyHeld k :=
    List.mem_filter.2 ⟨mem_reap hmem, by simp [hk, hheld]⟩
  have hout (l : List Key) (u : State) (hl : k ∈ l) : k ∉ (l.foldl State.freeKey u).keys := by
    have hgone (l : List Key) (u : State) (hu : k ∉ u.keys) : k ∉ (l.foldl State.freeKey u).keys :=
      List.foldlRecOn l _ (motive := fun u : State => k ∉ u.keys) hu fun u hu f _ hf =>
        hu (List.mem_filter.1 (freeKey_keys u f ▸ hf)).1
    induction l generalizing u with
    | nil => exact absurd hl List.not_mem_nil
    | cons f l ih =>
      rcases List.mem_cons.1 hl with rfl | hl
      · refine hgone l _ fun hf => ?_
        rw [freeKey_keys] at hf
        simp [hk] at hf
      · exact ih _ hl
  exact hout _ s hin hmem

theorem reap_rising (h : Rising s.tenants) : Rising s.reap.tenants :=
  List.foldlRecOn _ _ (motive := fun u : State => Rising u.tenants) h fun _ hu f _ => freeKey_rising hu f

theorem keyHeld_of_no_job {n : Nat} (h : ∀ j ∈ s.jobs, j.tenant ≠ n) (hk : k.tenant = n) : s.keyHeld k = false := by
  refine List.any_eq_false.2 fun j hj => ?_
  simp [hk, h j hj]

/-- The keys of a number that were dropped (R129). -/
theorem dropKey_spec (n id : Nat) :
    (∀ k ∈ (s.dropKey n id).2.keys, k.tenant = n → k.id = id → k.st = .dropped) ∧
    (∀ k ∈ s.keys, ¬(k.tenant = n ∧ k.id = id) → k.st ≠ .dropped → k ∈ (s.dropKey n id).2.keys) ∧
    ((∀ j ∈ s.jobs, j.tenant ≠ n) → ∀ k ∈ (s.dropKey n id).2.keys, ¬(k.tenant = n ∧ k.id = id)) := by
  let u : State := s.modKey n id fun k => { k with st := .dropped }
  have hdropped (k : Key) (hk : k ∈ u.keys) (ht : k.tenant = n) (hid : k.id = id) : k.st = .dropped := by
    obtain ⟨f, hf, rfl⟩ := List.mem_map.1 hk
    by_cases hkey : (f.tenant == n && f.id == id) = true
    · rw [if_pos hkey]
    · rw [if_neg hkey] at ht hid
      exact absurd (by simp [ht, hid]) hkey
  refine ⟨fun k hk ht hid => hdropped k (mem_reap hk) ht hid, fun k hk hne hlive => ?_, fun hjobs k hk hkey => ?_⟩
  · refine mem_reap_of_live (s := u) (List.mem_map.2 ⟨k, hk, if_neg ?_⟩) hlive
    simpa using hne
  · exact reap_frees (s := u) (hdropped k (mem_reap hk) hkey.1 hkey.2) (keyHeld_of_no_job (s := u) hjobs hkey.1) hk

end

end Sys2Proof.Machine
end

section
/-! Requests that act on tenants, keys and shares: the requests (R127..R129, R394, R455..R459, R461, R463). -/

namespace Sys2Proof.Machine

open Sys2Proof.Stated

section
variable {s : State} {q : Requester} {n : Nat}

/-- A CMD entry that takes 1 alone takes 1. -/
theorem dictWrite_one {i k : Nat} (h : Heard s q i k true .cmd) (hrow : s.row? i k = some (cmdIn .u8 1 1)) :
    s.dictWrite q i k [1] = s.writeVal q i k [1] :=
  dictWrite_heard h hrow rfl (by decide)

theorem sigPush_tenant (s : State) (op : SigOp) (n : Nat) : (s.sigPush op).tenant n = s.tenant n :=
  State.tenant_congr ((Keeps.sigPush (F := [.sec]) (.refl s)).same .tenants (by decide)) n

/-! ### Uploads -/

theorem dictWrite_keyLoad (h : Heard s q 0x4020 4 true .cmd) : s.dictWrite q 0x4020 4 [1] = s.queueUpload (s.sel q).ten :=
  dictWrite_one h rfl

/-- The tenant's upload at the end of the list. -/
def State.uploadQueued (s : State) (n : Nat) : State :=
  let u := s.modTenant n fun x =>
    { x with keyLoad := if s.uploads.isEmpty then 2 else 1, upFn := x.homeFn, upFault := false }
  { u with uploads := u.uploads ++ [n] }

theorem queueUpload_queued (hn : n ∉ s.uploads) (hlen : s.uploads.length < 65) :
    s.queueUpload n = (0, (s.uploadQueued n).sigPush (.manifest n)) := by
  have hin : s.uploads.contains n = false := by simpa using hn
  have hroom : ¬64 ≤ (s.uploads.drop 1).length := by
    rw [List.length_drop]
    omega
  rw [State.queueUpload, hin, if_neg hroom]
  rfl

theorem queueUpload_full (hn : n ∉ s.uploads) (hlen : 65 ≤ s.uploads.length) : s.queueUpload n =
    (0, s.modTenant n fun x => { x with keyLoad := 4, keyReason := 0x38, keyDetail := 0xFFFFFFFF }) := by
  have hin : s.uploads.contains n = false := by simpa using hn
  have hfull : 64 ≤ (s.uploads.drop 1).length := by
    rw [List.length_drop]
    omega
  rw [State.queueUpload, hin, if_pos hfull]
  rfl

theorem keyLoad_spec (hr : Rising s.tenants) (hn : (s.sel q).ten = n) (h : Heard s q 0x4020 4 true .cmd) :
    (n ∈ s.uploads → Runs (.keyLoad q) s fun t => Answered q 0 0x4020 4 [] t ∧ t.uploads = s.uploads ∧
      t.tenant n = { s.tenant n with keyReason := 0x38, keyDetail := 0xFFFFFFFF }) ∧
    (n ∉ s.uploads → 65 ≤ s.uploads.length → Runs (.keyLoad q) s fun t => Answered q 0 0x4020 4 [] t ∧
      t.uploads = s.uploads ∧ t.tenant n = { s.tenant n with keyLoad := 4, keyReason := 0x38, keyDetail := 0xFFFFFFFF }) ∧
    (n ∉ s.uploads → s.uploads.length < 65 → Runs (.keyLoad q) s fun t => Answered q 0 0x4020 4 [] t ∧
      t.uploads = s.uploads ++ [n] ∧ (t.tenant n).keyLoad = (if s.uploads = [] then 2 else 1) ∧
      t.sigPending (.manifest n) = true) := by
  have hwrite := dictWrite_keyLoad h
  rw [hn] at hwrite
  refine ⟨fun hin => ?_, fun hin hlen => ?_, fun hin hlen => ?_⟩
  · exact runs_command h.answered rfl (hwrite.trans (if_pos (List.contains_iff_mem.2 hin)))
      ⟨rfl, mget_mset_self ({} : Tenant) hr n _⟩
  · exact runs_command h.answered rfl (hwrite.trans (queueUpload_full hin hlen)) ⟨rfl, mget_mset_self ({} : Tenant) hr n _⟩
  · have hups : ((s.uploadQueued n).sigPush (.manifest n)).uploads = (s.uploadQueued n).uploads :=
      (Keeps.sigPush (F := [.sec]) (.refl _)).same .uploads (by decide)
    have hten : ((s.uploadQueued n).sigPush (.manifest n)).tenant n = _ :=
      (sigPush_tenant (s.uploadQueued n) _ n).trans (mget_mset_self ({} : Tenant) hr n _)
    refine runs_command h.answered rfl (hwrite.trans (queueUpload_queued hin hlen)) ⟨hups, ?_, sigPush_pending _⟩
    refine (congrArg Tenant.keyLoad hten).trans ?_
    show (if s.uploads.isEmpty then 2 else 1) = _
    simp only [List.isEmpty_iff]

theorem keyDrop_spec {id : Nat} (hid : id < 65536) (hn : (s.sel q).ten = n) (h : Heard s q 0x4020 7 true .mute) :
    Runs (.keyDrop q id) s fun t => Answered q 0 0x4020 7 [] t ∧
      (∀ k ∈ t.keys, k.tenant = n → k.id = id → k.st = .dropped) ∧
      (∀ k ∈ s.keys, ¬(k.tenant = n ∧ k.id = id) → k.st ≠ .dropped → k ∈ t.keys) ∧
      ((∀ j ∈ s.jobs, j.tenant ≠ n) → ∀ k ∈ t.keys, ¬(k.tenant = n ∧ k.id = id)) := by
  have hlt : id < 256 ^ 2 := hid
  have hval : valueOk ⟨.u16, .mute, fun _ => true⟩ (numBytes 2 id) = true := by
    show (decide (2 ≤ (numBytes 2 id).length ∧ (numBytes 2 id).length ≤ 2) && true) = true
    rw [length_numBytes hlt]
    rfl
  have hwrite : s.dictWrite q 0x4020 7 (numBytes 2 id) = s.dropKey n id := by
    rw [dictWrite_heard h (row := ⟨.u16, .mute, fun _ => true⟩) rfl rfl hval]
    show s.dropKey (s.sel q).ten (leNat (numBytes 2 id)) = _
    rw [hn, leNat_numBytes hlt]
  exact runs_command (u := (s.dropKey n id).2) h.answered rfl hwrite (dropKey_spec n id)

/-! ### The state of a tenant -/

theorem dictWrite_tenCtl (h : Heard s q 0x4010 1 true .cmd) : s.dictWrite q 0x4010 1 [1] = s.activate (s.sel q).ten ∧
    s.dictWrite q 0x4010 1 [2] = s.disable (s.sel q).ten ∧ s.dictWrite q 0x4010 1 [3] = s.clearTenant (s.sel q).ten :=
  ⟨dictWrite_heard h (row := cmdIn .u8 1 3) rfl rfl (by decide), dictWrite_heard h (row := cmdIn .u8 1 3) rfl rfl (by decide),
    dictWrite_heard h (row := cmdIn .u8 1 3) rfl rfl (by decide)⟩

/-- A tenant that is disabled, with no request queued. -/
theorem disable_active (hst : (s.tenant n).st = .active) (hp : (s.tenant n).pdecRun ≠ 1) :
    s.disable n = (0, s.modTenant n fun x => { x with st := .disabled }) := by
  have hq : ((s.tenant n).pdecRun == 1) = false := beq_false_of_ne hp
  unfold State.disable
  rw [hst]
  dsimp only
  rw [hq]
  rfl

/-- The tenant's queued partial decryption is refused (R459). -/
def State.pdecDropped (s : State) (n : Nat) : State :=
  let u := s.modTenant n fun x => { x with st := .disabled, pdecRun := 4, pdecReason := 0x5C }
  { u with sec := { u.sec with pdecQueue := u.sec.pdecQueue.filter (· != n) } }

theorem disable_queued (hst : (s.tenant n).st = .active) (hp : (s.tenant n).pdecRun = 1) :
    s.disable n = (0, (s.pdecDropped n).sigAbort (· == .pdec n)) := by
  have hq : ((s.tenant n).pdecRun == 1) = true := beq_iff_eq.2 hp
  unfold State.disable
  rw [hst]
  dsimp only
  rw [hq]
  rfl

theorem disable_spec (hr : Rising s.tenants) (hn : (s.sel q).ten = n) (h : Heard s q 0x4010 1 true .cmd) :
    (Runs (.tenActivate q) s fun t => Answered q 0 0x4010 1 [] t ∧ t.tenant n = { s.tenant n with st := .active }) ∧
    ((s.tenant n).st = .free → OnlyAnswers (.tenDisable q) s q 8 0x4010 1) ∧
    ((s.tenant n).st = .disabled → OnlyAnswers (.tenDisable q) s q 0 0x4010 1) ∧
    ((s.tenant n).st = .active → (s.tenant n).pdecRun ≠ 1 → Runs (.tenDisable q) s fun t => Answered q 0 0x4010 1 [] t ∧
      t.tenant n = { s.tenant n with st := .disabled } ∧ t.sec = s.sec) ∧
    ((s.tenant n).st = .active → (s.tenant n).pdecRun = 1 → Runs (.tenDisable q) s fun t => Answered q 0 0x4010 1 [] t ∧
      t.tenant n = { s.tenant n with st := .disabled, pdecRun := 4, pdecReason := 0x5C } ∧ n ∉ t.sec.pdecQueue) := by
  obtain ⟨hactivate, hdisable, -⟩ := dictWrite_tenCtl h
  rw [hn] at hactivate hdisable
  refine ⟨?_, fun hst => ?_, fun hst => ?_, fun hst hp => ?_, fun hst hp => ?_⟩
  · exact runs_command h.answered rfl hactivate (tenant_modTenant hr n fun x => { x with st := .active })
  · refine onlyAnswers_command h.answered rfl (hdisable.trans ?_)
    rw [State.disable, hst]
  · refine onlyAnswers_command h.answered rfl (hdisable.trans ?_)
    rw [State.disable, hst]
  · exact runs_command h.answered rfl (hdisable.trans (disable_active hst hp))
      ⟨tenant_modTenant hr n fun x => { x with st := .disabled }, rfl⟩
  · have hten : ((s.pdecDropped n).sigAbort (· == .pdec n)).tenant n = (s.pdecDropped n).tenant n :=
      State.tenant_congr ((Keeps.sigAbort (F := [.sec]) (.refl _)).same .tenants (by decide)) n
    have hqueue : ((s.pdecDropped n).sigAbort (· == .pdec n)).sec.pdecQueue = s.sec.pdecQueue.filter (· != n) :=
      sigStart_pdecQueue
    refine runs_command h.answered rfl (hdisable.trans (disable_queued hst hp)) ⟨hten.trans
      (tenant_modTenant hr n fun x => { x with st := .disabled, pdecRun := 4, pdecReason := 0x5C }), ?_⟩
    show n ∉ ((s.pdecDropped n).sigAbort (· == .pdec n)).sec.pdecQueue
    rw [hqueue]
    exact fun hmem => bne_iff_ne.1 (List.mem_filter.1 hmem).2 rfl

/-- The tenant's keys are dropped, and freed where no job holds them. -/
def State.keysDropped (s : State) (n : Nat) : State :=
  State.reap { s with keys := s.keys.map fun k => if k.tenant == n then { k with st := .dropped } else k }

/-- The tenant's upload ends. -/
def State.uploadCut (s : State) (n : Nat) : State :=
  if s.uploads.contains n then (s.sigAbort (· == .manifest n)).nextUpload n else s

/-- What R394 forbids while a tenant is cleared. -/
def State.tenantBusy (s : State) (n : Nat) : Bool :=
  (s.tenant n).st != .disabled || (s.jobs.any fun j => j.tenant == n) ||
    (s.streams.any fun e => e.2.tenant == n && e.2.st != .disabled) || s.sharesBusy n

theorem clearTenant_eq (n : Nat) : s.clearTenant n = if (s.tenant n).st = .free then (0, s)
    else if s.tenantBusy n then (8, s)
    else (0, ((s.keysDropped n).uploadCut n).setTenant n { (s.tenant n).cleared with
      keyLoad := if (s.keysDropped n).uploads.contains n then 0 else (s.tenant n).keyLoad }) := rfl

theorem keysDropped_keys {k : Key} (hk : k ∈ (s.keysDropped n).keys) (ht : k.tenant = n) : k.st = .dropped := by
  obtain ⟨f, hf, rfl⟩ := List.mem_map.1 (mem_reap hk)
  by_cases hkey : (f.tenant == n) = true
  · rw [if_pos hkey]
  · rw [if_neg hkey] at ht
    exact absurd (beq_iff_eq.2 ht) hkey

theorem uploadCut_spec (hr : Rising s.tenants) :
    n ∉ (s.uploadCut n).uploads ∧ (s.uploadCut n).keys = s.keys ∧ Rising (s.uploadCut n).tenants := by
  rw [State.uploadCut]
  split
  · have hk : Keeps [.sec] s (s.sigAbort (· == .manifest n)) := (Keeps.refl s).sigAbort
    have hten : (s.sigAbort (· == .manifest n)).tenants = s.tenants := hk.same .tenants (by decide)
    refine ⟨nextUpload_spec.2, ?_, ?_⟩
    · rcases nextUpload_cases (s := s.sigAbort (· == .manifest n)) (n := n) with heq | ⟨m, -, heq⟩ <;> rw [heq] <;>
        exact hk.keys
    · rcases nextUpload_cases (s := s.sigAbort (· == .manifest n)) (n := n) with heq | ⟨m, -, heq⟩ <;> rw [heq]
      · exact hten ▸ hr
      · exact rising_mset (hten ▸ hr)
  · next h => exact ⟨fun hmem => h (List.contains_iff_mem.2 hmem), rfl, hr⟩

theorem tenClear_spec (hr : Rising s.tenants) (hn : (s.sel q).ten = n) (h : Heard s q 0x4010 1 true .cmd) :
    ((s.tenant n).st = .free → OnlyAnswers (.tenClear q) s q 0 0x4010 1) ∧
    ((s.tenant n).st = .active ∨ ((s.tenant n).st = .disabled ∧ ((∃ j ∈ s.jobs, j.tenant = n) ∨
      (∃ e ∈ s.streams, e.2.tenant = n ∧ e.2.st ≠ .disabled) ∨ s.sharesBusy n = true)) →
        OnlyAnswers (.tenClear q) s q 8 0x4010 1) ∧
    ((s.tenant n).st = .disabled → (∀ j ∈ s.jobs, j.tenant ≠ n) → (∀ e ∈ s.streams, e.2.tenant = n → e.2.st = .disabled) →
      s.sharesBusy n = false → Runs (.tenClear q) s fun t => Answered q 0 0x4010 1 [] t ∧ n ∉ t.uploads ∧
        (∀ k ∈ t.keys, k.tenant = n → k.st = .dropped) ∧ (t.tenant n).st = .free ∧ (t.tenant n).share = none ∧
        (t.tenant n).vkeyAlg = 0 ∧ (t.tenant n).weight = 16 ∧ (t.tenant n).deficit = 0) := by
  obtain ⟨-, -, hclear⟩ := dictWrite_tenCtl h
  rw [hn, clearTenant_eq] at hclear
  refine ⟨fun hst => ?_, fun hbusy => ?_, fun hst hjobs hstreams hshares => ?_⟩
  · exact onlyAnswers_command h.answered rfl (hclear.trans (if_pos hst))
  · have hst : (s.tenant n).st ≠ .free := by
      rcases hbusy with h | h
      · rw [h]
        exact nofun
      · rw [h.1]
        exact nofun
    have hno : s.tenantBusy n = true := by
      simp only [State.tenantBusy, Bool.or_eq_true, bne_iff_ne, List.any_eq_true, Bool.and_eq_true, beq_iff_eq]
      rcases hbusy with h | ⟨-, h | h | h⟩
      · exact .inl (.inl (.inl (by rw [h]; exact nofun)))
      · exact .inl (.inl (.inr h))
      · exact .inl (.inr h)
      · exact .inr h
    exact onlyAnswers_command h.answered rfl (hclear.trans ((if_neg hst).trans (if_pos hno)))
  · have hfree : (s.tenant n).st ≠ .free := by
      rw [hst]
      exact nofun
    have hidle : ¬s.tenantBusy n = true := by
      simp only [State.tenantBusy, Bool.or_eq_true, bne_iff_ne, List.any_eq_true, Bool.and_eq_true, beq_iff_eq, hst, hshares,
        not_or, not_exists, not_and, ne_eq, not_true, not_false_iff, true_and, Bool.false_eq_true, and_true, not_not]
      exact ⟨hjobs, hstreams⟩
    obtain ⟨hups, hkeys, hrise⟩ := uploadCut_spec (s := s.keysDropped n) (n := n) (reap_rising hr)
    have hten (x : Tenant) : (((s.keysDropped n).uploadCut n).setTenant n x).tenant n = x :=
      mget_mset_self ({} : Tenant) hrise n x
    refine runs_command h.answered rfl (hclear.trans ((if_neg hfree).trans (if_neg hidle))) ⟨hups, fun k hk ht => ?_, ?_⟩
    · exact keysDropped_keys (hkeys ▸ hk) ht
    · refine ⟨congrArg Tenant.st (hten _), congrArg Tenant.share (hten _), congrArg Tenant.vkeyAlg (hten _),
        congrArg Tenant.weight (hten _), congrArg Tenant.deficit (hten _)⟩

end

end Sys2Proof.Machine
end

section
/-! Requests that act on tenants, keys and shares: offers, submissions, wipes, partial decryptions and hallmarks
(R456..R461, R463). -/

namespace Sys2Proof.Machine

open Sys2Proof.Stated

section
variable {s : State} {q : Requester} {n : Nat}

/-! ### Offers and submissions -/

theorem startOffer_busy (h : (s.tenant n).offerSt = 1) : s.startOffer n = (5, s) := if_pos h

theorem startOffer_barred {c : Nat} (h : (s.tenant n).offerSt ≠ 1) (hbar : s.shareBar n = some c) :
    s.startOffer n = (0, s.refuseOffer n c) := by
  rw [State.startOffer, if_neg h, hbar]

theorem startOffer_starts (h : (s.tenant n).offerSt ≠ 1) (hbar : s.shareBar n = none) :
    s.startOffer n = (0, (s.modTenant n fun x => { x with offerSt := 1 }).sigPush (.offer n)) := by
  rw [State.startOffer, if_neg h, hbar]

theorem shareOffer_spec (hr : Rising s.tenants) (hn : (s.sel q).ten = n) (h : Heard s q 0x9030 1 true .cmd) :
    ((s.tenant n).offerSt = 1 → OnlyAnswers (.shareOffer q) s q 5 0x9030 1) ∧
    (∀ c, (s.tenant n).offerSt ≠ 1 → s.shareBar n = some c → Runs (.shareOffer q) s fun t => Answered q 0 0x9030 1 [] t ∧
      t.tenant n = { s.tenant n with offerSt := 3, shareReason := c }) ∧
    ((s.tenant n).offerSt ≠ 1 → s.shareBar n = none → Runs (.shareOffer q) s fun t => Answered q 0 0x9030 1 [] t ∧
      t.tenant n = { s.tenant n with offerSt := 1 } ∧ t.sigPending (.offer n) = true) := by
  have hwrite : s.dictWrite q 0x9030 1 [1] = s.startOffer n := (dictWrite_one h rfl).trans (congrArg s.startOffer hn)
  refine ⟨fun hb => ?_, fun c hb hbar => ?_, fun hb hbar => ?_⟩
  · exact onlyAnswers_command h.answered rfl (hwrite.trans (startOffer_busy hb))
  · exact runs_command h.answered rfl (hwrite.trans (startOffer_barred hb hbar))
      (tenant_modTenant hr n fun x => { x with offerSt := 3, shareReason := c })
  · exact runs_command h.answered rfl (hwrite.trans (startOffer_starts hb hbar))
      ⟨(sigPush_tenant _ _ n).trans (tenant_modTenant hr n fun x => { x with offerSt := 1 }), sigPush_pending _⟩

theorem startSubmit_busy (h : (s.tenant n).submitSt = 1) : s.startSubmit n = (5, s) := if_pos h

theorem startSubmit_barred {c : Nat} (h : (s.tenant n).submitSt ≠ 1) (hbar : s.shareBar n = some c) :
    s.startSubmit n = (0, s.refuseSubmit n c) := by
  rw [State.startSubmit, if_neg h, hbar]

theorem startSubmit_starts (h : (s.tenant n).submitSt ≠ 1) (hbar : s.shareBar n = none) : s.startSubmit n =
    (0, (s.modTenant n fun x => { x with submitSt := 1, submitFault := false }).sigPush (.submit n)) := by
  rw [State.startSubmit, if_neg h, hbar]

theorem shareSubmit_spec (hr : Rising s.tenants) (hn : (s.sel q).ten = n) (h : Heard s q 0x9030 5 true .cmd) :
    ((s.tenant n).submitSt = 1 → OnlyAnswers (.shareSubmit q) s q 5 0x9030 5) ∧
    (∀ c, (s.tenant n).submitSt ≠ 1 → s.shareBar n = some c → Runs (.shareSubmit q) s fun t => Answered q 0 0x9030 5 [] t ∧
      (t.tenant n).submitSt = 3 ∧ (t.tenant n).shareReason = c) ∧
    ((s.tenant n).submitSt ≠ 1 → s.shareBar n = none → Runs (.shareSubmit q) s fun t => Answered q 0 0x9030 5 [] t ∧
      (t.tenant n).submitSt = 1 ∧ t.sigPending (.submit n) = true) := by
  have hwrite : s.dictWrite q 0x9030 5 [1] = s.startSubmit n := (dictWrite_one h rfl).trans (congrArg s.startSubmit hn)
  refine ⟨fun hb => ?_, fun c hb hbar => ?_, fun hb hbar => ?_⟩
  · exact onlyAnswers_command h.answered rfl (hwrite.trans (startSubmit_busy hb))
  · have hten : (s.refuseSubmit n c).tenant n = { s.tenant n with submitSt := 3, submitFault := false, shareReason := c } :=
      tenant_modTenant hr n fun x => { x with submitSt := 3, submitFault := false, shareReason := c }
    exact runs_command h.answered rfl (hwrite.trans (startSubmit_barred hb hbar))
      ⟨congrArg Tenant.submitSt hten, congrArg Tenant.shareReason hten⟩
  · have hten := (sigPush_tenant (s.modTenant n fun x => { x with submitSt := 1, submitFault := false }) (.submit n) n).trans
      (tenant_modTenant hr n fun x => { x with submitSt := 1, submitFault := false })
    exact runs_command h.answered rfl (hwrite.trans (startSubmit_starts hb hbar))
      ⟨congrArg Tenant.submitSt hten, sigPush_pending _⟩

/-! ### Wipes -/

/-- The tenant without its share. -/
def State.shareGone (s : State) (n : Nat) : State := s.modTenant n fun x => { x with share := none }

theorem wipeShare_waits (h : (s.tenant n).pdecRun = 2) :
    s.wipeShare n = (0, s.modTenant n fun x => { x with wipeAfter := true }) := if_pos h

theorem wipeShare_now (h : (s.tenant n).pdecRun ≠ 2) : s.wipeShare n =
    (0, if (s.tenant n).pdecRun = 1 then (s.shareGone n).pdecRefuse n 0x58 else s.shareGone n) := if_neg h

theorem pdecRefuse_share (hr : Rising s.tenants) (code : Nat) (h : (s.tenant n).share = none) :
    ((s.pdecRefuse n code).tenant n).share = none := by
  obtain ⟨htenant, -⟩ := pdecEnd_spec (n := n) (s := s.modTenant n fun x => { x with pdecRun := 4, pdecReason := code })
    (rising_mset hr)
  refine (congrArg Tenant.share htenant).trans ?_
  rw [tenant_modTenant hr n fun x => { x with pdecRun := 4, pdecReason := code }]
  show (if (s.tenant n).wipeAfter then none else (s.tenant n).share) = none
  rw [h, ite_self]

theorem shareWipe_spec (hr : Rising s.tenants) (hn : (s.sel q).ten = n) (h : Heard s q 0x9030 6 true .wo) :
    ((s.tenant n).pdecRun = 2 → Runs (.shareWipe q) s fun t => Answered q 0 0x9030 6 [] t ∧
      t.tenant n = { s.tenant n with wipeAfter := true }) ∧
    ((s.tenant n).pdecRun ≠ 2 → Runs (.shareWipe q) s fun t => Answered q 0 0x9030 6 [] t ∧ (t.tenant n).share = none) ∧
    ((s.tenant n).pdecRun = 1 → Runs (.shareWipe q) s fun t => (t.tenant n).pdecRun = 4 ∧ (t.tenant n).pdecReason = 0x58 ∧
      n ∉ t.sec.pdecQueue) := by
  have hwrite : s.dictWrite q 0x9030 6 [1] = s.wipeShare n :=
    (dictWrite_heard h (row := ⟨.u8, .wo, fun v => v == 1⟩) rfl rfl (by decide)).trans (congrArg s.wipeShare hn)
  have hgone : (s.shareGone n).tenant n = { s.tenant n with share := none } :=
    tenant_modTenant hr n fun x => { x with share := none }
  refine ⟨fun hp => ?_, fun hp => ?_, fun hp => ?_⟩
  · exact runs_command h.answered rfl (hwrite.trans (wipeShare_waits hp))
      (tenant_modTenant hr n fun x => { x with wipeAfter := true })
  · refine runs_command h.answered rfl (hwrite.trans (wipeShare_now hp)) ?_
    show (State.tenant (if (s.tenant n).pdecRun = 1 then (s.shareGone n).pdecRefuse n 0x58 else s.shareGone n) n).share = none
    split
    · exact pdecRefuse_share (rising_mset hr) 0x58 (congrArg Tenant.share hgone)
    · exact congrArg Tenant.share hgone
  · have hnow := wipeShare_now (s := s) (n := n) (by rw [hp]; decide)
    rw [if_pos hp] at hnow
    obtain ⟨hrun, hreason, hout, -⟩ := pdecRefuse_spec (s := s.shareGone n) (n := n) (rising_mset hr) 0x58
    have hruns : Runs (.shareWipe q) s fun t => Answered q 0 0x9030 6 [] t ∧ (t.tenant n).pdecRun = 4 ∧
        (t.tenant n).pdecReason = 0x58 ∧ n ∉ t.sec.pdecQueue :=
      runs_command h.answered rfl (hwrite.trans hnow) ⟨hrun, hreason, hout⟩
    obtain ⟨t, hstep, -, ht⟩ := hruns
    exact ⟨t, hstep, ht⟩

/-! ### Partial decryptions -/

/-- The tenant's request, refused as it is written (R463). -/
def State.pdecDenied (s : State) (n code : Nat) : State := s.modTenant n fun x => { x with pdecRun := 4, pdecReason := code }

/-- The tenant's request at the end of the queue. -/
def State.pdecQueued (s : State) (n : Nat) : State :=
  let u := s.modTenant n fun x =>
    { x with pdecRun := if s.sec.pdecQueue.isEmpty then 2 else 1, pdecReason := 0, pdecFault := false }
  { u with sec := { u.sec with pdecQueue := u.sec.pdecQueue ++ [n] } }

theorem startPdec_eq (n : Nat) : s.startPdec n =
    if (s.tenant n).pdecRun = 1 ∨ (s.tenant n).pdecRun = 2 then (0, s.modTenant n fun x => { x with pdecReason := 0x5B })
    else if !s.entropyOk then (0, s.pdecDenied n 0x52)
    else if !s.identityOk then (0, s.pdecDenied n 0x53)
    else if 64 ≤ s.sec.pdecQueue.length then (0, s.pdecDenied n 0x5B)
    else if (s.tenant n).st != .active then (0, s.pdecDenied n 0x5C)
    else if !hasVkey (s.tenant n) then (0, s.pdecDenied n 0x55)
    else if !s.shareUsable n then (0, s.pdecDenied n 0x58)
    else (0, if s.sec.pdecQueue.isEmpty then (s.pdecQueued n).sigPush (.pdec n) else s.pdecQueued n) := rfl

theorem startPdec_again (h : (s.tenant n).pdecRun = 1 ∨ (s.tenant n).pdecRun = 2) :
    s.startPdec n = (0, s.modTenant n fun x => { x with pdecReason := 0x5B }) := if_pos h

theorem startPdec_idle (h1 : (s.tenant n).pdecRun ≠ 1) (h2 : (s.tenant n).pdecRun ≠ 2) :
    (s.entropyOk = false → s.startPdec n = (0, s.pdecDenied n 0x52)) ∧
    (s.entropyOk = true → s.identityOk = false → s.startPdec n = (0, s.pdecDenied n 0x53)) ∧
    (s.entropyOk = true → s.identityOk = true → 64 ≤ s.sec.pdecQueue.length → s.startPdec n = (0, s.pdecDenied n 0x5B)) := by
  have h : ¬((s.tenant n).pdecRun = 1 ∨ (s.tenant n).pdecRun = 2) := by rintro (h | h) <;> contradiction
  rw [startPdec_eq, if_neg h]
  refine ⟨fun he => ?_, fun he hi => ?_, fun he hi hq => ?_⟩
  · rw [he]
    rfl
  · rw [he, hi]
    rfl
  · rw [he, hi, if_neg (by decide), if_neg (by decide), if_pos hq]

theorem startPdec_room (h1 : (s.tenant n).pdecRun ≠ 1) (h2 : (s.tenant n).pdecRun ≠ 2) (he : s.entropyOk = true)
    (hi : s.identityOk = true) (hq : s.sec.pdecQueue.length < 64) :
    ((s.tenant n).st ≠ .active → s.startPdec n = (0, s.pdecDenied n 0x5C)) ∧
    ((s.tenant n).st = .active → hasVkey (s.tenant n) = false → s.startPdec n = (0, s.pdecDenied n 0x55)) ∧
    ((s.tenant n).st = .active → hasVkey (s.tenant n) = true → s.shareUsable n = false →
      s.startPdec n = (0, s.pdecDenied n 0x58)) ∧
    ((s.tenant n).st = .active → hasVkey (s.tenant n) = true → s.shareUsable n = true → s.startPdec n =
      (0, if s.sec.pdecQueue.isEmpty then (s.pdecQueued n).sigPush (.pdec n) else s.pdecQueued n)) := by
  have h : ¬((s.tenant n).pdecRun = 1 ∨ (s.tenant n).pdecRun = 2) := by rintro (h | h) <;> contradiction
  have hst (hst : (s.tenant n).st = .active) : ¬((s.tenant n).st != .active) = true := by
    rw [hst]
    decide
  rw [startPdec_eq, if_neg h, he, hi, if_neg (by decide), if_neg (by decide), if_neg (by omega)]
  refine ⟨fun ha => if_pos (bne_iff_ne.2 ha), fun ha hv => ?_, fun ha hv hu => ?_, fun ha hv hu => ?_⟩
  · rw [if_neg (hst ha), hv]
    rfl
  · rw [if_neg (hst ha), hv, hu]
    rfl
  · rw [if_neg (hst ha), hv, hu]
    rfl

theorem pdecRun_spec (hr : Rising s.tenants) (hn : (s.sel q).ten = n) (h : Heard s q 0x9040 2 true .cmd) :
    let refused (c : Nat) : Prop := Runs (.pdecRun q) s fun t => Answered q 0 0x9040 2 [] t ∧
      t.tenant n = { s.tenant n with pdecRun := 4, pdecReason := c } ∧ t.sec = s.sec
    ((s.tenant n).pdecRun = 1 ∨ (s.tenant n).pdecRun = 2 → Runs (.pdecRun q) s fun t => Answered q 0 0x9040 2 [] t ∧
      t.tenant n = { s.tenant n with pdecReason := 0x5B }) ∧
    ((s.tenant n).pdecRun ≠ 1 → (s.tenant n).pdecRun ≠ 2 →
      (s.entropyOk = false → refused 0x52) ∧ (s.entropyOk = true → s.identityOk = false → refused 0x53) ∧
      (s.entropyOk = true → s.identityOk = true → 64 ≤ s.sec.pdecQueue.length → refused 0x5B) ∧
      (s.entropyOk = true → s.identityOk = true → s.sec.pdecQueue.length < 64 →
        ((s.tenant n).st ≠ .active → refused 0x5C) ∧
        ((s.tenant n).st = .active → hasVkey (s.tenant n) = false → refused 0x55) ∧
        ((s.tenant n).st = .active → hasVkey (s.tenant n) = true → s.shareUsable n = false → refused 0x58) ∧
        ((s.tenant n).st = .active → hasVkey (s.tenant n) = true → s.shareUsable n = true → Runs (.pdecRun q) s fun t =>
          Answered q 0 0x9040 2 [] t ∧ t.sec.pdecQueue = s.sec.pdecQueue ++ [n] ∧ (t.tenant n).pdecReason = 0 ∧
          (t.tenant n).pdecRun = (if s.sec.pdecQueue = [] then 2 else 1)))) := by
  intro refused
  have hwrite : s.dictWrite q 0x9040 2 [1] = s.startPdec n := (dictWrite_one h rfl).trans (congrArg s.startPdec hn)
  have hdenied (c : Nat) (hs : s.startPdec n = (0, s.pdecDenied n c)) : refused c :=
    runs_command h.answered rfl (hwrite.trans hs) ⟨tenant_modTenant hr n fun x => { x with pdecRun := 4, pdecReason := c },
      rfl⟩
  refine ⟨fun hp => ?_, fun h1 h2 => ?_⟩
  · exact runs_command h.answered rfl (hwrite.trans (startPdec_again hp))
      (tenant_modTenant hr n fun x => { x with pdecReason := 0x5B })
  · obtain ⟨hentropy, hidentity, hfull⟩ := startPdec_idle h1 h2
    refine ⟨fun he => hdenied _ (hentropy he), fun he hi => hdenied _ (hidentity he hi),
      fun he hi hq => hdenied _ (hfull he hi hq), fun he hi hq => ?_⟩
    obtain ⟨hst, hkey, hshare, hqueued⟩ := startPdec_room h1 h2 he hi hq
    refine ⟨fun ha => hdenied _ (hst ha), fun ha hv => hdenied _ (hkey ha hv), fun ha hv hu => hdenied _ (hshare ha hv hu),
      fun ha hv hu => ?_⟩
    have hten : (s.pdecQueued n).tenant n = { s.tenant n with
        pdecRun := if s.sec.pdecQueue.isEmpty then 2 else 1, pdecReason := 0, pdecFault := false } :=
      tenant_modTenant hr n fun x =>
        { x with pdecRun := if s.sec.pdecQueue.isEmpty then 2 else 1, pdecReason := 0, pdecFault := false }
    have hrun : (if s.sec.pdecQueue.isEmpty then 2 else 1) = (if s.sec.pdecQueue = [] then 2 else 1) := by
      simp only [List.isEmpty_iff]
    refine runs_command h.answered rfl (hwrite.trans (hqueued ha hv hu)) ?_
    split
    · exact ⟨sigPush_pdecQueue _, congrArg Tenant.pdecReason ((sigPush_tenant _ _ n).trans hten),
        (congrArg Tenant.pdecRun ((sigPush_tenant _ _ n).trans hten)).trans hrun⟩
    · exact ⟨rfl, congrArg Tenant.pdecReason hten, (congrArg Tenant.pdecRun hten).trans hrun⟩

/-! ### Hallmarks -/

theorem hmRun_spec (h : Heard s q 0x9050 3 true .cmd) :
    (s.sec.hmRun = 1 → OnlyAnswers (.hmRun q) s q 5 0x9050 3) ∧
    (s.sec.hmRun ≠ 1 → s.entropyOk = false → Runs (.hmRun q) s fun t => Answered q 0 0x9050 3 [] t ∧
      t.sec = { s.sec with hmRun := 3, hmReason := 0x52 }) ∧
    (s.sec.hmRun ≠ 1 → s.entropyOk = true → s.identityOk = false → Runs (.hmRun q) s fun t =>
      Answered q 0 0x9050 3 [] t ∧ t.sec = { s.sec with hmRun := 3, hmReason := 0x53 }) ∧
    (s.sec.hmRun ≠ 1 → s.entropyOk = true → s.identityOk = true → Runs (.hmRun q) s fun t =>
      Answered q 0 0x9050 3 [] t ∧ t.sec.hmRun = 1 ∧ t.sigPending .hallmark = true) := by
  have hwrite : s.dictWrite q 0x9050 3 [1] = s.startHm := dictWrite_one h rfl
  rw [State.startHm] at hwrite
  refine ⟨fun hb => ?_, fun hb he => ?_, fun hb he hi => ?_, fun hb he hi => ?_⟩
  · exact onlyAnswers_command h.answered rfl (hwrite.trans (if_pos hb))
  · rw [if_neg hb, he] at hwrite
    exact runs_command h.answered rfl hwrite rfl
  · rw [if_neg hb, he, hi] at hwrite
    exact runs_command h.answered rfl hwrite rfl
  · rw [if_neg hb, he, hi] at hwrite
    have hstart (u : State) : u.sigStart.sec.hmRun = u.sec.hmRun := by
      rw [State.sigStart]
      split
      · rfl
      · split <;> rfl
    exact runs_command h.answered rfl hwrite ⟨hstart _, sigPush_pending _⟩

end

end Sys2Proof.Machine
end

section
/-! Requests that act on tenants, keys and shares: the control of a stream (R396, R402, R514), and O55. -/

namespace Sys2Proof.Machine

open Sys2Proof.Stated

section
variable {s : State} {n : Nat}

/-! ### A stream that drains -/

theorem setStream_rising (hr : Rising s.streams) (x : Stream) : Rising (s.setStream n x).streams := rising_mset hr

theorem reap_stream (s : State) (m : Nat) : s.reap.stream m = s.stream m :=
  State.stream_congr ((Keeps.reap (F := [.tenants, .keys, .installs, .hubs]) (.refl s)).same .streams (by decide)) m

theorem reap_jobs (s : State) : s.reap.jobs = s.jobs :=
  (Keeps.reap (F := [.tenants, .keys, .installs, .hubs]) (.refl s)).same .jobs (by decide)

theorem drainCheck_jobs (s : State) (n : Nat) : (s.drainCheck n).jobs = s.jobs :=
  (Keeps.drainCheck (F := [.streams]) (.refl s)).same .jobs (by decide)

/-- A stream that drains without a held record: it is DISABLED once no job is admitted (R402). -/
theorem flush_draining (hr : Rising s.streams) (hst : (s.stream n).st = .draining) (hheld : (s.stream n).held = []) :
    ((s.flush n).stream n).st = (if (s.stream n).inflight = 0 then .disabled else .draining) := by
  rw [flush_of_none_held hheld, State.settle, reap_stream, State.drainCheck, hst, hheld]
  by_cases h : (s.stream n).inflight = 0
  · rw [if_pos h, h, if_pos (by rfl), State.stream_setStream_self hr]
  · have hbusy : ((s.stream n).inflight == 0) = false := beq_false_of_ne h
    rw [if_neg h, hbusy]
    exact hst

theorem flush_jobs (hheld : (s.stream n).held = []) : (s.flush n).jobs = s.jobs := by
  rw [flush_of_none_held hheld]
  exact (reap_jobs _).trans (drainCheck_jobs s n)

/-! ### The jobs of a stream reset -/

/-- Every job of the number is finished with status 0x09 (R514). -/
def Reset (i : Nat) (s : State) : Prop :=
  ∀ k ∈ s.jobs, k.idx = i → k.st = .finished ∧ ∃ d, k.result = some (0x09, 0, d)

theorem reset_finishJob (s : State) (i : Nat) : Reset i (s.finishJob i 0x09 0) := by
  intro k hk hi
  obtain ⟨j, -, rfl⟩ := List.mem_map.1 hk
  by_cases hkey : (j.idx == i) = true
  · rw [if_pos hkey]
    exact ⟨rfl, _, rfl⟩
  · rw [if_neg hkey] at hi
    exact absurd (beq_iff_eq.2 hi) hkey

theorem Reset.finishJob {i : Nat} (h : Reset i s) (m : Nat) : Reset i (s.finishJob m 0x09 0) := by
  intro k hk hi
  obtain ⟨j, hj, rfl⟩ := List.mem_map.1 hk
  by_cases hkey : (j.idx == m) = true
  · rw [if_pos hkey]
    exact ⟨rfl, _, rfl⟩
  · rw [if_neg hkey] at hi ⊢
    exact h j hj hi

theorem finishJob_idx (s : State) (m st d : Nat) : (s.finishJob m st d).jobs.map (·.idx) = s.jobs.map (·.idx) := by
  show (s.jobs.map _).map _ = _
  rw [List.map_map]
  refine List.map_congr_left fun j _ => ?_
  show Job.idx (if j.idx == m then _ else j) = j.idx
  split <;> rfl

theorem resetJobs_eq : s.resetJobs n = ((s.jobs.filter fun j => j.stream == n && !j.domain && j.st == .queued).map
    (·.idx)).foldl (fun u i => u.finishJob i 0x09 0) s := by
  rw [List.foldl_map]
  rfl

theorem resetJobs_idx : (s.resetJobs n).jobs.map (·.idx) = s.jobs.map (·.idx) :=
  List.foldlRecOn _ _ (motive := fun u : State => u.jobs.map (·.idx) = s.jobs.map (·.idx)) rfl
    fun u hu j _ => (finishJob_idx u j.idx 0x09 0).trans hu

/-- Every job that the reset ends is finished with status 0x09. -/
theorem resetJobs_spec : ∀ j ∈ s.jobs, j.stream = n → j.domain = false → j.st = .queued →
    ∃ k ∈ (s.resetJobs n).jobs, k.idx = j.idx ∧ k.st = .finished ∧ ∃ d, k.result = some (0x09, 0, d) := by
  intro j hj hstream hdomain hst
  have hin : j.idx ∈ (s.jobs.filter fun j => j.stream == n && !j.domain && j.st == .queued).map (·.idx) :=
    List.mem_map_of_mem (List.mem_filter.2 ⟨hj, by simp [hstream, hdomain, hst]⟩)
  have hreset : Reset j.idx (s.resetJobs n) := by
    rw [resetJobs_eq]
    exact foldl_reaches (P := Reset) (Q := fun _ => True) (fun _ _ _ => trivial) (fun u i _ => reset_finishJob u i)
      (fun u i m _ hu => hu.finishJob m) _ trivial _ hin
  have hidx : j.idx ∈ (s.resetJobs n).jobs.map (·.idx) := (resetJobs_idx (s := s) (n := n)) ▸ List.mem_map_of_mem hj
  obtain ⟨k, hk, hkj⟩ := List.mem_map.1 hidx
  exact ⟨k, hk, hkj, hreset k hk hkj⟩

/-! ### The three requests -/

theorem enableStream_open (h : (s.stream n).st = .enabled) : s.enableStream n = (0, s) := if_pos h

theorem enableStream_draining (h : (s.stream n).st = .draining) : s.enableStream n = (5, s) := by
  rw [State.enableStream, if_neg (by rw [h]; decide), if_pos h]

/-- A stream whose enable is refused with a reason. -/
def Stream.denied (x : Stream) (reason : Nat) : Stream :=
  { x with st := .error, reason := reason, errLive := x.st == .error && x.errLive }

theorem enableStream_denied (h : (s.stream n).st = .disabled ∨ (s.stream n).st = .error)
    (hr : s.enableReason (s.stream n) ≠ 0) : s.enableStream n = (0,
      s.setStream n ((s.stream n).denied (s.enableReason (s.stream n)))) := by
  have hopen : (s.stream n).st ≠ .enabled := by rcases h with h | h <;> rw [h] <;> decide
  have hdrain : (s.stream n).st ≠ .draining := by rcases h with h | h <;> rw [h] <;> decide
  rw [State.enableStream, if_neg hopen, if_neg hdrain, if_pos hr]
  rfl

/-- A stream in ERROR while ENABLED, taken up again (R402). -/
def Stream.resumed (x : Stream) : Stream := { x with st := .enabled, reason := 0, errLive := false }

theorem enableStream_resumed (h : (s.stream n).st = .error) (hl : (s.stream n).errLive = true)
    (hr : s.enableReason (s.stream n) = 0) : s.enableStream n = (0, (s.setStream n (s.stream n).resumed).flush n) := by
  rw [State.enableStream, if_neg (by rw [h]; decide), if_neg (by rw [h]; decide)]
  dsimp only
  rw [if_neg (by rw [hr]; decide), if_pos ⟨h, hl⟩]
  rfl

/-- The stream as an enable starts it (R396). -/
def State.streamStarted (s : State) (n : Nat) : Stream :=
  let x := s.stream n
  let last := (x.nextSeq + 2 ^ 32 - 1) % 2 ^ 32
  { x with
    st := .enabled, reason := 0, errLive := false, committed := last, completed := last, sqHead := 0, sqTail := 0
    cqTail := 0, cqHead := 0, stalled := false, held := [], recs := [], done := [], irqLast := none, irqWait := false
    bmeWait := false, portWait := (s.port (fnOfEntry x.fn).port).failed }

theorem streamStarted_last : (s.streamStarted n).committed = ((s.stream n).nextSeq + 2 ^ 32 - 1) % 2 ^ 32 ∧
    (s.streamStarted n).completed = ((s.stream n).nextSeq + 2 ^ 32 - 1) % 2 ^ 32 := by
  unfold State.streamStarted
  exact ⟨by dsimp only, by dsimp only⟩

theorem enableStream_started (h : (s.stream n).st = .disabled ∨ ((s.stream n).st = .error ∧ (s.stream n).errLive = false))
    (hr : s.enableReason (s.stream n) = 0) : s.enableStream n = (0, s.setStream n (s.streamStarted n)) := by
  have hopen : (s.stream n).st ≠ .enabled := by rcases h with h | ⟨h, -⟩ <;> rw [h] <;> decide
  have hdrain : (s.stream n).st ≠ .draining := by rcases h with h | ⟨h, -⟩ <;> rw [h] <;> decide
  have hlive : ¬((s.stream n).st = .error ∧ (s.stream n).errLive = true) := by
    rintro ⟨he, hl⟩
    rcases h with h | ⟨-, h⟩
    · rw [h] at he
      exact nomatch he
    · rw [h] at hl
      exact nomatch hl
  rw [State.enableStream, if_neg hopen, if_neg hdrain]
  dsimp only
  rw [if_neg (by rw [hr]; decide), if_neg hlive]
  rfl

/-- The stream drains. -/
def Stream.drains (x : Stream) : Stream := { x with st := .draining }

/-- The stream drains for a reset. -/
def Stream.resets (x : Stream) : Stream := { x with st := .draining, resetting := true }

theorem disableStream_eq : ((s.stream n).st = .disabled → s.disableStream n = (0, s)) ∧
    ((s.stream n).st = .draining → s.disableStream n = (5, s)) ∧
    ((s.stream n).st = .enabled ∨ (s.stream n).st = .error → s.disableStream n = (0,
      (s.setStream n (s.stream n).drains).flush n)) := by
  refine ⟨fun h => ?_, fun h => ?_, fun h => ?_⟩
  · rw [State.disableStream, h]
  · rw [State.disableStream, h]
  · unfold State.disableStream
    dsimp only
    rcases h with h | h <;> rw [h] <;> rfl

theorem resetStream_disabled (h : (s.stream n).st = .disabled) : s.resetStream n = (0, s) := if_pos h

theorem resetStream_live (h : (s.stream n).st = .enabled ∨ (s.stream n).st = .error) :
    s.resetStream n = (0, ((s.setStream n (s.stream n).resets).resetJobs n).flush n) := by
  have hst : (s.stream n).st ≠ .disabled := by rcases h with h | h <;> rw [h] <;> decide
  exact if_neg hst

theorem resumed_spec (hr : Rising s.streams) (hheld : (s.stream n).held = []) :
    ((s.setStream n (s.stream n).resumed).flush n).stream n = (s.stream n).resumed := by
  have hset : (s.setStream n (s.stream n).resumed).stream n = (s.stream n).resumed := State.stream_setStream_self hr ..
  have hopen : ((s.stream n).resumed.st == .draining) = false := rfl
  have hdrain : (s.setStream n (s.stream n).resumed).drainCheck n = s.setStream n (s.stream n).resumed := by
    rw [State.drainCheck, hset, hopen]
    rfl
  rw [flush_of_none_held ((congrArg Stream.held hset).trans hheld), State.settle, hdrain, reap_stream, hset]

theorem drains_spec (hr : Rising s.streams) (hheld : (s.stream n).held = []) :
    (((s.setStream n (s.stream n).drains).flush n).stream n).st =
      (if (s.stream n).inflight = 0 then .disabled else .draining) := by
  have hset : (s.setStream n (s.stream n).drains).stream n = (s.stream n).drains := State.stream_setStream_self hr ..
  have hdrain := flush_draining (s := s.setStream n (s.stream n).drains) (n := n) (setStream_rising hr _)
    (congrArg Stream.st hset) ((congrArg Stream.held hset).trans hheld)
  rw [hset] at hdrain
  exact hdrain

theorem resets_spec (hr : Rising s.streams) (hheld : (s.stream n).held = []) :
    ((((s.setStream n (s.stream n).resets).resetJobs n).flush n).stream n).st =
      (if (s.stream n).inflight = 0 then .disabled else .draining) ∧
    ∀ j ∈ s.jobs, j.stream = n → j.domain = false → j.st = .queued →
      ∃ k ∈ (((s.setStream n (s.stream n).resets).resetJobs n).flush n).jobs,
        k.idx = j.idx ∧ k.st = .finished ∧ ∃ d, k.result = some (0x09, 0, d) := by
  have hk : Keeps [.jobs] (s.setStream n (s.stream n).resets) ((s.setStream n (s.stream n).resets).resetJobs n) :=
    (Keeps.refl _).resetJobs
  have hstreams := hk.same .streams (by decide)
  have hset : ((s.setStream n (s.stream n).resets).resetJobs n).stream n = (s.stream n).resets :=
    (State.stream_congr hstreams n).trans (State.stream_setStream_self hr ..)
  have hheld' := (congrArg Stream.held hset).trans hheld
  have hdrain := flush_draining (hstreams ▸ setStream_rising hr _) (congrArg Stream.st hset) hheld'
  rw [hset] at hdrain
  refine ⟨hdrain, ?_⟩
  rw [flush_jobs hheld']
  exact resetJobs_spec (s := s.setStream n (s.stream n).resets)

variable {q : Requester}

theorem dictWrite_strCtl (hn : (s.sel q).str = n) (h : Heard s q 0x4810 1 true .cmd) :
    s.dictWrite q 0x4810 1 [1] = s.enableStream n ∧ s.dictWrite q 0x4810 1 [2] = s.disableStream n ∧
    s.dictWrite q 0x4810 1 [3] = s.resetStream n := by
  subst hn
  exact ⟨dictWrite_heard h (row := cmdIn .u8 1 3) rfl rfl (by decide),
    dictWrite_heard h (row := cmdIn .u8 1 3) rfl rfl (by decide),
      dictWrite_heard h (row := cmdIn .u8 1 3) rfl rfl (by decide)⟩

/-- A stream's disable or reset that waits for its jobs. -/
theorem streamDrain_spec (hr : Rising s.streams) (hn : (s.sel q).str = n) (h : Heard s q 0x4810 1 true .cmd)
    (hst : (s.stream n).st = .enabled ∨ (s.stream n).st = .error) (hheld : (s.stream n).held = []) :
    (Runs (.streamDisable q) s fun t => Answered q 0 0x4810 1 [] t ∧
      (t.stream n).st = (if (s.stream n).inflight = 0 then .disabled else .draining)) ∧
    (Runs (.streamReset q) s fun t => Answered q 0 0x4810 1 [] t ∧
      (t.stream n).st = (if (s.stream n).inflight = 0 then .disabled else .draining) ∧
      ∀ j ∈ s.jobs, j.stream = n → j.domain = false → j.st = .queued →
        ∃ k ∈ t.jobs, k.idx = j.idx ∧ k.st = .finished ∧ ∃ d, k.result = some (0x09, 0, d)) := by
  obtain ⟨-, hdisable, hreset⟩ := dictWrite_strCtl hn h
  constructor
  · have hwrite := hdisable.trans (disableStream_eq.2.2 hst)
    have hdrain := drains_spec hr hheld
    generalize (s.setStream n (s.stream n).drains).flush n = u at hwrite hdrain
    exact runs_command h.answered rfl hwrite hdrain
  · have hwrite := hreset.trans (resetStream_live hst)
    have hdrain := resets_spec hr hheld
    generalize ((s.setStream n (s.stream n).resets).resetJobs n).flush n = u at hwrite hdrain
    exact runs_command h.answered rfl hwrite hdrain

theorem streamCtl_spec (hr : Rising s.streams) (hn : (s.sel q).str = n) (h : Heard s q 0x4810 1 true .cmd) :
    ((s.stream n).st = .enabled → OnlyAnswers (.streamEnable q) s q 0 0x4810 1) ∧
    ((s.stream n).st = .draining →
      OnlyAnswers (.streamEnable q) s q 5 0x4810 1 ∧ OnlyAnswers (.streamDisable q) s q 5 0x4810 1) ∧
    ((s.stream n).st = .disabled →
      OnlyAnswers (.streamDisable q) s q 0 0x4810 1 ∧ OnlyAnswers (.streamReset q) s q 0 0x4810 1) ∧
    ((s.stream n).st = .disabled ∨ (s.stream n).st = .error → s.enableReason (s.stream n) ≠ 0 →
      Runs (.streamEnable q) s fun t => Answered q 0 0x4810 1 [] t ∧ (t.stream n).st = .error ∧
        (t.stream n).reason = s.enableReason (s.stream n)) ∧
    ((s.stream n).st = .disabled ∨ ((s.stream n).st = .error ∧ (s.stream n).errLive = false) →
      s.enableReason (s.stream n) = 0 → Runs (.streamEnable q) s fun t =>
      let z := t.stream n
      let last := ((s.stream n).nextSeq + 2 ^ 32 - 1) % 2 ^ 32
      Answered q 0 0x4810 1 [] t ∧ z.st = .enabled ∧ z.reason = 0 ∧ z.committed = last ∧ z.completed = last ∧
      z.sqHead = 0 ∧ z.sqTail = 0 ∧ z.cqTail = 0 ∧ z.cqHead = 0) ∧
    ((s.stream n).st = .error → (s.stream n).errLive = true → s.enableReason (s.stream n) = 0 → (s.stream n).held = [] →
      Runs (.streamEnable q) s fun t => Answered q 0 0x4810 1 [] t ∧
        t.stream n = { s.stream n with st := .enabled, reason := 0, errLive := false }) := by
  obtain ⟨henable, hdisable, hreset⟩ := dictWrite_strCtl hn h
  refine ⟨fun hst => ?_, fun hst => ⟨?_, ?_⟩, fun hst => ⟨?_, ?_⟩, fun hst hre => ?_, fun hst hre => ?_,
    fun hst hl hre hheld => ?_⟩
  · exact onlyAnswers_command h.answered rfl (henable.trans (enableStream_open hst))
  · exact onlyAnswers_command h.answered rfl (henable.trans (enableStream_draining hst))
  · exact onlyAnswers_command h.answered rfl (hdisable.trans (disableStream_eq.2.1 hst))
  · exact onlyAnswers_command h.answered rfl (hdisable.trans (disableStream_eq.1 hst))
  · exact onlyAnswers_command h.answered rfl (hreset.trans (resetStream_disabled hst))
  · have hset : (s.setStream n ((s.stream n).denied (s.enableReason (s.stream n)))).stream n =
        (s.stream n).denied (s.enableReason (s.stream n)) := State.stream_setStream_self hr ..
    have hwrite := henable.trans (enableStream_denied hst hre)
    generalize s.setStream n ((s.stream n).denied (s.enableReason (s.stream n))) = u at hwrite hset
    exact runs_command h.answered rfl hwrite
      ⟨congrArg Stream.st hset, congrArg Stream.reason hset⟩
  · have hset : (s.setStream n (s.streamStarted n)).stream n = s.streamStarted n := State.stream_setStream_self hr ..
    have hwrite := henable.trans (enableStream_started hst hre)
    generalize s.setStream n (s.streamStarted n) = u at hwrite hset
    exact runs_command h.answered rfl hwrite
      ⟨congrArg Stream.st hset, congrArg Stream.reason hset, (congrArg Stream.committed hset).trans streamStarted_last.1,
        (congrArg Stream.completed hset).trans streamStarted_last.2, congrArg Stream.sqHead hset,
        congrArg Stream.sqTail hset, congrArg Stream.cqTail hset, congrArg Stream.cqHead hset⟩
  · have hwrite := henable.trans (enableStream_resumed hst hl hre)
    have hset := resumed_spec hr hheld
    generalize (s.setStream n (s.stream n).resumed).flush n = u at hwrite hset
    exact runs_command h.answered rfl hwrite hset

end

/-- Settles O55: each request of a tenant, a key, a share or a stream goes to its own function of the model. -/
theorem tenantAndStreamRequestsAct : Obligations.TenantAndStreamRequestsAct := by
  unfold Obligations.TenantAndStreamRequestsAct
  refine ⟨fun s q hr => ⟨keyLoad_spec hr rfl, fun id hid h => keyDrop_spec hid rfl h, fun h => ?_, shareOffer_spec hr rfl,
    shareSubmit_spec hr rfl, shareWipe_spec hr rfl, pdecRun_spec hr rfl, hmRun_spec⟩, fun s q hr h => ?_⟩
  · obtain ⟨hactivate, hfree, hdisabled, hactive, hqueued⟩ := disable_spec hr rfl h
    exact ⟨hactivate, hfree, hdisabled, hactive, hqueued, tenClear_spec hr rfl h⟩
  · obtain ⟨hopen, hdraining, hdisabled, hdenied, hstarted, hresumed⟩ := streamCtl_spec hr rfl h
    exact ⟨hopen, hdraining, hdisabled, hdenied, hstarted, hresumed, streamDrain_spec hr rfl h⟩

end Sys2Proof.Machine
end

section
/-! Requests that act on the whole part: the time, a link's retraining, margining, the snapshot, the loft copy, a fence, a
retirement and an acknowledgement (R300, R340, R369, R437, R438, R468, R471, R482). -/

namespace Sys2Proof.Machine

open Sys2Proof.Stated

section
variable {s : State} {q : Requester}

/-! ### The time -/

/-- The row of TIME_SET. -/
def timeSetRow : Row := ⟨.u64, .rwd, fun v => v % 1000000000 == 0⟩

theorem timeSet_valueOk {bs : List Byte} (hlen : bs.length = 8) :
    valueOk timeSetRow bs = (leNat bs % 1000000000 == 0) := by
  show (decide (8 ≤ bs.length ∧ bs.length ≤ 8) && _) = _
  rw [hlen]
  rfl

theorem loadSecond_free {v : Nat} (h : s.tm.pps ≠ .locked) : (s.loadSecond v).tm.now = v ∧
    (s.loadSecond v).tm.timeSet = v ∧ (s.loadSecond v).tm.setPending = false := by
  rw [State.loadSecond, if_neg h]
  exact ⟨rfl, rfl, rfl⟩

theorem timeSet_spec {bs : List Byte} (h : Heard s q 0x7000 2 true .rwd) (hlen : bs.length = 8) :
    (leNat bs % 1000000000 ≠ 0 → OnlyAnswers (.timeSet q bs) s q 3 0x7000 2) ∧
    (leNat bs % 1000000000 = 0 →
      (s.en.on = true ∨ s.en.st = 1 → OnlyAnswers (.timeSet q bs) s q 4 0x7000 2) ∧
      (s.en.on = false → s.en.st ≠ 1 →
        (s.tm.pps = .locked → Runs (.timeSet q bs) s fun t => Answered q 0 0x7000 2 [] t ∧
          t.tm = { s.tm with timeSet := leNat bs, setPending := true }) ∧
        (s.tm.pps ≠ .locked → Runs (.timeSet q bs) s fun t => Answered q 0 0x7000 2 [] t ∧
          t.tm.now = leNat bs ∧ t.tm.timeSet = leNat bs ∧ t.tm.setPending = false))) := by
  have hval := timeSet_valueOk hlen
  refine ⟨fun hsec => ?_, fun hsec => ⟨fun hen => ?_, fun hoff hst => ?_⟩⟩
  · refine onlyAnswers_command h.answered rfl (dictWrite_range h (row := timeSetRow) rfl rfl (hval.trans ?_))
    exact beq_false_of_ne hsec
  · refine onlyAnswers_command h.answered rfl (dictWrite_enabled h (row := timeSetRow) rfl rfl (hval.trans ?_) hen)
    exact beq_iff_eq.2 hsec
  · have hwrite : s.dictWrite q 0x7000 2 bs = (0, s.loadSecond (leNat bs)) :=
      dictWrite_heard h (row := timeSetRow) rfl rfl (hval.trans (beq_iff_eq.2 hsec)) nofun fun _ => ⟨hoff, hst⟩
    exact ⟨fun hp => runs_command h.answered rfl hwrite (loadSecond_locked hp _),
      fun hp => runs_command h.answered rfl hwrite (loadSecond_free hp)⟩

/-! ### Retraining -/

variable {j : Nat}

/-- The link, with what a retraining clears (R369). -/
def Link.asked (l : Link) : Link := { l with badLanes := [], attempts := 0, nrWait := 0, retrain := 1, started := true }

/-- The link's paths are down, and its lanes are back. -/
def State.retrainAsked (s : State) (j : Nat) : State :=
  (if (s.link j).up then s.pathsDown j 0 else s).modLink j Link.asked

theorem retrainLink_again (h : (s.link j).retrain = 1) : s.retrainLink j = (5, s) := if_pos h

theorem retrainLink_starts (h : (s.link j).retrain ≠ 1) :
    s.retrainLink j = (0, ((s.retrainAsked j).startTraining { link := j }).replaceCheck) := if_neg h

theorem retrainAsked_link : (s.retrainAsked j).link j =
    ((if (s.link j).up then s.pathsDown j 0 else s).link j).asked :=
  mget_mset_self_of_ne ({} : Link) _ j _ fun h => absurd (congrArg Link.retrain h) nofun

theorem retrainAsked_lanes : 4 ≤ (((s.retrainAsked j).link j).equalised { link := j }).lanes := by
  have hlanes : (((s.retrainAsked j).link j).equalised { link := j }).lanes = ((s.retrainAsked j).link j).lanes :=
    equalised_lanes _ rfl
  have hbad : ((s.retrainAsked j).link j).badLanes = [] := by
    rw [retrainAsked_link]
    rfl
  rw [hlanes, Link.lanes, hbad]
  decide

theorem retrain_row (h : j < 32) : s.row? (0x8000 + j) 15 = some (cmdIn .u8 1 1) := by
  have hbits : bits (0x8000 + j) 15 12 ≠ 3 := by
    rw [bits]
    omega
  have hrows : s.rowsOf (0x8000 + j) = linkRows := by
    unfold State.rowsOf
    rw [if_neg hbits, if_pos (by omega)]
  rw [State.row?, hrows]
  rfl

theorem retrain_writeVal (h : j < 32) : s.writeVal q (0x8000 + j) 15 [1] = s.retrainLink j := by
  interval_cases j <;> rfl

theorem retrain_spec (hj : j < 32) (h : Heard s q (0x8000 + j) 15 true .cmd) :
    ((s.link j).retrain = 1 → OnlyAnswers (.linkRetrain q j) s q 5 (0x8000 + j) 15) ∧
    ((s.link j).retrain ≠ 1 → Runs (.linkRetrain q j) s fun t => Answered q 0 (0x8000 + j) 15 [] t ∧
      (t.link j).st = .training ∧ (t.link j).badLanes = [] ∧ (t.link j).retrain = 1 ∧ (t.link j).session = false) := by
  have hexec : exec (.linkRetrain q j) s = .next (s.command q (0x8000 + j) 15 [1]) := if_pos (linkWf_of_lt hj)
  have hwrite : s.dictWrite q (0x8000 + j) 15 [1] = s.retrainLink j :=
    (dictWrite_one h (retrain_row hj)).trans (retrain_writeVal hj)
  refine ⟨fun hr => ?_, fun hr => ?_⟩
  · exact onlyAnswers_command h.answered hexec (hwrite.trans (retrainLink_again hr))
  · obtain ⟨htrains, hlocked⟩ := startTraining_locked (s := s.retrainAsked j) (r := { link := j }) rfl retrainAsked_lanes rfl
    have hlink : (((s.retrainAsked j).startTraining { link := j }).replaceCheck).link j =
        ((s.retrainAsked j).startTraining { link := j }).link j :=
      State.link_congr ((Keeps.replaceCheck (F := [.pw, .hm]) (.refl _)).same .links (by decide)) j
    have hwrite' := hwrite.trans (retrainLink_starts hr)
    have hspec : ((((s.retrainAsked j).startTraining { link := j }).replaceCheck).link j).st = .training ∧
        ((((s.retrainAsked j).startTraining { link := j }).replaceCheck).link j).badLanes = [] ∧
        ((((s.retrainAsked j).startTraining { link := j }).replaceCheck).link j).retrain = 1 ∧
        ((((s.retrainAsked j).startTraining { link := j }).replaceCheck).link j).session = false := by
      rw [hlink]
      refine ⟨htrains.1, (hlocked Link.badLanes fun _ => rfl).trans ?_, (hlocked Link.retrain fun _ => rfl).trans ?_,
        htrains.2.2.2.2⟩
      · rw [retrainAsked_link]
        rfl
      · rw [retrainAsked_link]
        rfl
    generalize ((s.retrainAsked j).startTraining { link := j }).replaceCheck = u at hwrite' hspec
    exact runs_command h.answered hexec hwrite' hspec

/-! ### Margining -/

theorem mrgRun_spec (h : Heard s q 0xB200 3 true .cmd) :
    (s.mem.mrgRun = 1 → OnlyAnswers (.mrgRun q) s q 5 0xB200 3) ∧
    (s.mem.mrgRun ≠ 1 → Runs (.mrgRun q) s fun t => Answered q 0 0xB200 3 [] t ∧
      t.mem = { s.mem with mrgRun := if s.en.on = true ∨ (s.stack s.mem.mrgStack).lost = true then 3 else 1 }) := by
  have hwrite : s.dictWrite q 0xB200 3 [1] = s.startMargin := dictWrite_one h rfl
  rw [State.startMargin] at hwrite
  refine ⟨fun hr => ?_, fun hr => ?_⟩
  · exact onlyAnswers_command h.answered rfl (hwrite.trans (if_pos hr))
  · refine runs_command h.answered rfl (hwrite.trans (if_neg hr)) ?_
    simp only [← Bool.or_eq_true]
    rfl

/-! ### The snapshot -/

theorem dictWrite_snap (h : Heard s q 0xC000 1 true .cmd) :
    s.dictWrite q 0xC000 1 [1] = s.snapWrite q 1 ∧ s.dictWrite q 0xC000 1 [2] = s.snapWrite q 2 :=
  ⟨dictWrite_heard h (row := cmdIn .u8 1 2) rfl rfl (by decide), dictWrite_heard h (row := cmdIn .u8 1 2) rfl rfl (by decide)⟩

theorem snapWrite_held {x : Snap} (hs : s.snap = some x) (hx : x.holder ≠ q) (v : Nat) : s.snapWrite q v = (5, s) := by
  rw [State.snapWrite, hs]
  exact if_pos (bne_iff_ne.2 hx)

/-- A requester may take and release the snapshot when no other holds it. -/
theorem snapWrite_free (hs : ∀ x, s.snap = some x → x.holder = q) :
    s.snapWrite q 1 = (0, { s with snap := some (s.takeSnap q) }) ∧
    ∃ u : State, s.snapWrite q 2 = (0, u) ∧ u.snap = none := by
  unfold State.snapWrite
  cases hsnap : s.snap with
  | none => exact ⟨rfl, s, rfl, hsnap⟩
  | some x =>
    have hx : ¬(x.holder != q) = true := fun hne => bne_iff_ne.1 hne (hs x hsnap)
    dsimp only
    rw [if_neg hx, if_neg hx]
    exact ⟨rfl, _, rfl, rfl⟩

theorem takeSnap_parts : (s.takeSnap q).holder = q ∧ (s.takeSnap q).time = s.tm.now ∧
    (s.takeSnap q).lastRead = s.tm.now ∧ (s.takeSnap q).streams = s.streamRecs 0 16384 ∧
    (s.takeSnap q).tenants = s.tenantRecs 0 4096 ∧ (s.takeSnap q).jobs = s.jobRecs 0 65536 := by
  unfold State.takeSnap
  exact ⟨by dsimp only, by dsimp only, by dsimp only, by dsimp only, by dsimp only, by dsimp only⟩

theorem snap_spec (h : Heard s q 0xC000 1 true .cmd) :
    (∀ x, s.snap = some x → x.holder ≠ q →
      OnlyAnswers (.mirrorSnapTake q) s q 5 0xC000 1 ∧ OnlyAnswers (.mirrorSnapRelease q) s q 5 0xC000 1) ∧
    ((∀ x, s.snap = some x → x.holder = q) →
      (Runs (.mirrorSnapTake q) s fun t => Answered q 0 0xC000 1 [] t ∧ ∃ x, t.snap = some x ∧ x.holder = q ∧
        x.time = s.tm.now ∧ x.lastRead = s.tm.now ∧ x.streams = s.streamRecs 0 16384 ∧ x.tenants = s.tenantRecs 0 4096 ∧
        x.jobs = s.jobRecs 0 65536) ∧
      (Runs (.mirrorSnapRelease q) s fun t => Answered q 0 0xC000 1 [] t ∧ t.snap = none)) := by
  obtain ⟨htake, hrelease⟩ := dictWrite_snap h
  refine ⟨fun x hs hx => ⟨?_, ?_⟩, fun hs => ⟨?_, ?_⟩⟩
  · exact onlyAnswers_command h.answered rfl (htake.trans (snapWrite_held hs hx 1))
  · exact onlyAnswers_command h.answered rfl (hrelease.trans (snapWrite_held hs hx 2))
  · exact runs_command h.answered rfl (htake.trans (snapWrite_free hs).1) ⟨s.takeSnap q, rfl, takeSnap_parts⟩
  · obtain ⟨-, u, hu, hnone⟩ := snapWrite_free hs
    exact runs_command h.answered rfl (hrelease.trans hu) hnone

theorem snapshotExpiry_eq {x : Snap} (h : s.snap = some x) :
    exec .snapshotExpiry s = .next { s with snap := none, tm := s.tm.reach (x.lastRead + 10000000000) } := by
  show execSnapshotExpiry s = _
  rw [execSnapshotExpiry, h]
  rfl

/-! ### The loft copy -/

theorem dumpRun_spec {f : FnId} (h : Heard s (.fn f) 0xB300 5 true .cmd) :
    (s.en.on = true → Runs (.dumpRun (.fn f)) s fun t => Answered (.fn f) 0 0xB300 5 [] t ∧ t.dump.run = 3 ∧
      t.hostMem = s.hostMem) ∧
    (∀ u, s.en.on = false → s.hostWrite f 0 s.dump.addr s.dumpBytes = some u → Runs (.dumpRun (.fn f)) s fun t =>
      Answered (.fn f) 0 0xB300 5 [] t ∧ t.dump.run = 2 ∧ t.hostMem = u.hostMem) := by
  have hwrite : s.dictWrite (.fn f) 0xB300 5 [1] = s.runDump (.fn f) := dictWrite_one h rfl
  refine ⟨fun hon => ?_, fun u hoff hw => ?_⟩
  · have hrun : s.runDump (.fn f) = (0, { s with dump := { s.dump with run := 3 } }) := if_pos hon
    exact runs_command h.answered rfl (hwrite.trans hrun) ⟨rfl, rfl⟩
  · have hrun : s.runDump (.fn f) = (0, { u with dump := { u.dump with run := 2 } }) := by
      unfold State.runDump
      dsimp only
      rw [hoff, hw]
      rfl
    exact runs_command h.answered rfl (hwrite.trans hrun) ⟨rfl, rfl⟩

/-! ### Fences and retirements -/

theorem askFence_eq (d : Nat) : (s.hm.fenceHost ≠ none → s.askFence d = (5, s)) ∧
    (s.hm.fenceHost = none → s.askFence d = (0, { s with hm := if (s.die d).fenced then { s.hm with fenceSt := 3 }
      else { s.hm with fenceSt := 1, fenceHost := some d } })) := by
  unfold State.askFence
  refine ⟨fun h => if_pos (Option.isSome_iff_ne_none.2 h), fun h => ?_⟩
  rw [h, if_neg (by decide)]
  split <;> rfl

theorem fenceDie_spec {d : Nat} (h : Heard s q 0x6010 8 true .cmd) :
    (7 < d → d < 256 → OnlyAnswers (.fenceDie q d) s q 3 0x6010 8) ∧
    (d ≤ 7 → s.hm.fenceHost ≠ none → OnlyAnswers (.fenceDie q d) s q 5 0x6010 8) ∧
    (d ≤ 7 → s.hm.fenceHost = none → Runs (.fenceDie q d) s fun t => Answered q 0 0x6010 8 [] t ∧
      t.hm = if (s.die d).fenced then { s.hm with fenceSt := 3 } else { s.hm with fenceSt := 1, fenceHost := some d }) := by
  have hval (hd : d < 256) : valueOk (cmdIn .u8 0 7) (numBytes 1 d) = decide (0 ≤ d ∧ d ≤ 7) := by
    have hlt : d < 256 ^ 1 := hd
    show (decide (1 ≤ (numBytes 1 d).length ∧ (numBytes 1 d).length ≤ 1) && decide (0 ≤ leNat (numBytes 1 d) ∧ _)) = _
    rw [length_numBytes hlt, leNat_numBytes hlt]
    rfl
  have hwrite (hd : d ≤ 7) : s.dictWrite q 0x6010 8 (numBytes 1 d) = s.askFence d := by
    rw [dictWrite_heard h (row := cmdIn .u8 0 7) rfl rfl ((hval (by omega)).trans (by simpa using hd))]
    show s.askFence (leNat (numBytes 1 d)) = _
    rw [leNat_numBytes (show d < 256 ^ 1 by omega)]
  refine ⟨fun hd hlt => ?_, fun hd hf => ?_, fun hd hf => ?_⟩
  · exact onlyAnswers_command h.answered rfl
      (dictWrite_range h (row := cmdIn .u8 0 7) rfl rfl ((hval hlt).trans (by simpa using hd)))
  · exact onlyAnswers_command h.answered rfl ((hwrite hd).trans ((askFence_eq d).1 hf))
  · exact runs_command h.answered rfl ((hwrite hd).trans ((askFence_eq d).2 hf)) rfl

/-- The array waits for its retirement (R468). -/
def State.retireAsked (s : State) (n : Nat) : State :=
  let u := s.modDie (n / 64) fun x => { x with retireReq := x.retireReq ++ [n % 64] }
  { u with hm := { u.hm with retireSt := 1, retireHost := some n } }

theorem askRetire_eq {n : Nat} (hn : n < 512) : s.askRetire n = if s.hm.retireHost.isSome then (5, s)
    else if (s.die (n / 64)).fenced || (s.die (n / 64)).spares == 0 then (0, { s with hm := { s.hm with retireSt := 3 } })
    else (0, s.retireAsked n) := by
  have hdie : n / 64 % 8 = n / 64 := Nat.mod_eq_of_lt (by omega)
  have harr : arrOf n = ⟨n / 64, n % 64⟩ := by rw [arrOf, hdie]
  unfold State.askRetire
  rw [harr]
  rfl

theorem retireArray_spec {n : Nat} (h : Heard s q 0x6010 9 true .cmd) (hn : n < 512) (hr : Rising s.dies) :
    (s.hm.retireHost ≠ none → OnlyAnswers (.retireArray q n) s q 5 0x6010 9) ∧
    (s.hm.retireHost = none → (s.die (n / 64)).fenced = true ∨ (s.die (n / 64)).spares = 0 →
      Runs (.retireArray q n) s fun t => Answered q 0 0x6010 9 [] t ∧ t.hm = { s.hm with retireSt := 3 } ∧ t.dies = s.dies) ∧
    (s.hm.retireHost = none → (s.die (n / 64)).fenced = false → (s.die (n / 64)).spares ≠ 0 →
      Runs (.retireArray q n) s fun t => Answered q 0 0x6010 9 [] t ∧
        t.hm = { s.hm with retireSt := 1, retireHost := some n } ∧
        (t.die (n / 64)).retireReq = (s.die (n / 64)).retireReq ++ [n % 64]) := by
  have hlt : n < 256 ^ 2 := by omega
  have hval : valueOk (cmdIn .u16 0 511) (numBytes 2 n) = true := by
    show (decide (2 ≤ (numBytes 2 n).length ∧ (numBytes 2 n).length ≤ 2) && decide (0 ≤ leNat (numBytes 2 n) ∧ _)) = _
    rw [length_numBytes hlt, leNat_numBytes hlt]
    simp only [Bool.and_eq_true, decide_eq_true_eq]
    omega
  have hwrite : s.dictWrite q 0x6010 9 (numBytes 2 n) = s.askRetire n := by
    rw [dictWrite_heard h (row := cmdIn .u16 0 511) rfl rfl hval]
    show s.askRetire (leNat (numBytes 2 n)) = _
    rw [leNat_numBytes hlt]
  rw [askRetire_eq hn] at hwrite
  refine ⟨fun hw => ?_, fun hw hd => ?_, fun hw hf hs => ?_⟩
  · exact onlyAnswers_command h.answered rfl (hwrite.trans (if_pos (Option.isSome_iff_ne_none.2 hw)))
  · have hd' : ((s.die (n / 64)).fenced || (s.die (n / 64)).spares == 0) = true := by simpa using hd
    rw [hw, if_neg (by decide), if_pos hd'] at hwrite
    exact runs_command h.answered rfl hwrite ⟨rfl, rfl⟩
  · have hs' : ((s.die (n / 64)).spares == 0) = false := beq_false_of_ne hs
    rw [hw, if_neg (by decide), hf, hs', if_neg (by decide)] at hwrite
    have hdie : (s.retireAsked n).die (n / 64) =
        { s.die (n / 64) with retireReq := (s.die (n / 64)).retireReq ++ [n % 64] } :=
      (State.die_modDie hr (n / 64) (n / 64) fun x => { x with retireReq := x.retireReq ++ [n % 64] }).trans (if_pos rfl)
    exact runs_command h.answered rfl hwrite ⟨rfl, congrArg Die.retireReq hdie⟩

/-! ### Acknowledgements -/

/-- One entry as `repin` takes it (R482). -/
def pinNext (acc : Nat × List EvtRec) (e : EvtRec) : Nat × List EvtRec :=
  if e.sev = 3 ∧ e.ack = false ∧ acc.1 < 1024 then (acc.1 + 1, acc.2 ++ [{ e with pinned := true }])
  else (acc.1, acc.2 ++ [{ e with pinned := false }])

/-- What `repin` keeps over the entries it has taken: at most 1,024 pinned ones, each an unacknowledged FAULT. -/
def Pinned (es : List EvtRec) (acc : Nat × List EvtRec) : Prop :=
  acc.2.map (fun e => (e.seq, e.ack)) = es.map (fun e => (e.seq, e.ack)) ∧
  (∀ e ∈ acc.2, e.pinned = true → e.ack = false ∧ e.sev = 3) ∧ (acc.2.filter (·.pinned)).length = acc.1 ∧ acc.1 ≤ 1024

theorem Pinned.next {es : List EvtRec} {acc : Nat × List EvtRec} (h : Pinned es acc) (e : EvtRec) :
    Pinned (es ++ [e]) (pinNext acc e) := by
  obtain ⟨hmap, hpinned, hlen, hmax⟩ := h
  rw [pinNext]
  split
  · next hpin =>
    refine ⟨by simp [hmap], fun x hx hp => ?_, by simp [hlen], by omega⟩
    rcases List.mem_append.1 hx with hx | hx
    · exact hpinned x hx hp
    · rw [List.mem_singleton.1 hx]
      exact ⟨hpin.2.1, hpin.1⟩
  · refine ⟨by simp [hmap], fun x hx hp => ?_, by simp [hlen], hmax⟩
    rcases List.mem_append.1 hx with hx | hx
    · exact hpinned x hx hp
    · rw [List.mem_singleton.1 hx] at hp
      exact nomatch hp

theorem repin_spec (es : List EvtRec) : (repin es).map (fun e => (e.seq, e.ack)) = es.map (fun e => (e.seq, e.ack)) ∧
    (∀ e ∈ repin es, e.pinned = true → e.ack = false ∧ e.sev = 3) ∧ ((repin es).filter (·.pinned)).length ≤ 1024 := by
  have hfold (es done : List EvtRec) (acc : Nat × List EvtRec) (h : Pinned done acc) :
      Pinned (done ++ es) (es.foldl pinNext acc) := by
    induction es generalizing done acc with
    | nil => rwa [List.append_nil]
    | cons e es ih =>
      rw [List.append_cons]
      exact ih _ _ (h.next e)
  obtain ⟨hmap, hpinned, hlen, hmax⟩ := hfold es [] (0, []) ⟨rfl, nofun, rfl, by decide⟩
  exact ⟨hmap, hpinned, hlen.trans_le hmax⟩

/-- The log after an acknowledgement. -/
def acknowledged (n : Nat) (es : List EvtRec) : List EvtRec :=
  if n = 0xFFFFFFFF then es.map fun e => { e with ack := true, pinned := false }
  else repin (es.map fun e => if e.seq == n then { e with ack := true } else e)

theorem acknowledged_spec (n : Nat) (es : List EvtRec) : (acknowledged n es).map (·.seq) = es.map (·.seq) ∧
    (∀ e ∈ acknowledged n es, e.seq = n ∨ n = 0xFFFFFFFF → e.ack = true) ∧
    (∀ e ∈ acknowledged n es, e.pinned = true → e.ack = false ∧ e.sev = 3) ∧
    ((acknowledged n es).filter (·.pinned)).length ≤ 1024 := by
  rw [acknowledged]
  split
  · refine ⟨by rw [List.map_map]; rfl, fun e he _ => ?_, fun e he hp => ?_, ?_⟩
    · obtain ⟨x, -, rfl⟩ := List.mem_map.1 he
      rfl
    · obtain ⟨x, -, rfl⟩ := List.mem_map.1 he
      exact nomatch hp
    · rw [List.filter_eq_nil_iff.2 fun e he => ?_]
      · decide
      · obtain ⟨x, -, rfl⟩ := List.mem_map.1 he
        exact nofun
  · next hn =>
    obtain ⟨hmap, hpinned, hlen⟩ := repin_spec (es.map fun e => if e.seq == n then { e with ack := true } else e)
    refine ⟨?_, fun e he hor => ?_, hpinned, hlen⟩
    · have hseq := congrArg (List.map Prod.fst) hmap
      rw [List.map_map, List.map_map, List.map_map] at hseq
      refine hseq.trans (List.map_congr_left fun e _ => ?_)
      show EvtRec.seq (if e.seq == n then { e with ack := true } else e) = e.seq
      split <;> rfl
    · have hin : (e.seq, e.ack) ∈ (repin (es.map fun e => if e.seq == n then { e with ack := true } else e)).map
          (fun e => (e.seq, e.ack)) := List.mem_map.2 ⟨e, he, rfl⟩
      rw [hmap, List.map_map] at hin
      obtain ⟨x, -, hx⟩ := List.mem_map.1 hin
      obtain ⟨hseq, hack⟩ := Prod.mk.inj hx
      have hen : e.seq = n := hor.resolve_right hn
      by_cases hxn : (x.seq == n) = true
      · simp only [Function.comp_apply, if_pos hxn] at hack
        exact hack.symm
      · simp only [Function.comp_apply, if_neg hxn] at hseq
        exact absurd (beq_iff_eq.2 (hseq.trans hen)) hxn

theorem ackEvent_eq (n : Nat) : ∃ u : State, s.ackEvent n = (0, u) ∧ u.hm.evts = acknowledged n s.hm.evts ∧
    (n = 0xFFFFFFFF → u.pw.alertHeld = false) := by
  unfold State.ackEvent acknowledged
  by_cases h : n = 0xFFFFFFFF
  · rw [if_pos h, if_pos h]
    exact ⟨_, rfl, rfl, fun _ => rfl⟩
  · rw [if_neg h, if_neg h]
    exact ⟨_, rfl, rfl, fun hn => absurd hn h⟩

theorem evtAck_spec {n : Nat} (h : Heard s q 0x6020 4 true .mute) (hn : n < 2 ^ 32) :
    Runs (.evtAck q n) s fun t => Answered q 0 0x6020 4 [] t ∧
      t.hm.evts.map (·.seq) = s.hm.evts.map (·.seq) ∧ (∀ e ∈ t.hm.evts, e.seq = n ∨ n = 0xFFFFFFFF → e.ack = true) ∧
      (∀ e ∈ t.hm.evts, e.pinned = true → e.ack = false ∧ e.sev = 3) ∧
      (t.hm.evts.filter (·.pinned)).length ≤ 1024 ∧ (n = 0xFFFFFFFF → t.pw.alertHeld = false) := by
  have hlt : n < 256 ^ 4 := by omega
  have hval : valueOk ⟨.u32, .mute, fun _ => true⟩ (numBytes 4 n) = true := by
    show (decide (4 ≤ (numBytes 4 n).length ∧ (numBytes 4 n).length ≤ 4) && true) = true
    rw [length_numBytes hlt]
    rfl
  have hwrite : s.dictWrite q 0x6020 4 (numBytes 4 n) = s.ackEvent n := by
    rw [dictWrite_heard h (row := ⟨.u32, .mute, fun _ => true⟩) rfl rfl hval]
    show s.ackEvent (leNat (numBytes 4 n)) = _
    rw [leNat_numBytes hlt]
  obtain ⟨u, hu, hevts, halert⟩ := ackEvent_eq (s := s) n
  obtain ⟨hseq, hack, hpinned, hlen⟩ := acknowledged_spec n s.hm.evts
  rw [← hevts] at hseq hack hpinned hlen
  exact runs_command h.answered rfl (hwrite.trans hu) ⟨hseq, hack, hpinned, hlen, halert⟩

end

/-- Settles O56: each request goes to its own function of the model. -/
theorem partRequestsAct : Obligations.PartRequestsAct := by
  unfold Obligations.PartRequestsAct
  refine ⟨fun s q bs h hlen => timeSet_spec h hlen, fun s q j hj h => retrain_spec hj h, fun s q h => mrgRun_spec h,
    fun s rs h => ?_, fun s q h => snap_spec h, fun s x h => snapshotExpiry_eq h, fun s f h => dumpRun_spec h,
    fun s q d h => fenceDie_spec h, fun s q n h hn hr => retireArray_spec h hn hr, fun s q n h hn => evtAck_spec h hn⟩
  show execMarginSweepDone rs s = _
  rw [execMarginSweepDone, beq_iff_eq.2 h, arises_true]

end Sys2Proof.Machine
end

section
/-! Requests that read (R262, R336, R356, R435, R437, R496). -/

namespace Sys2Proof.Machine

open Sys2Proof.Stated

section
variable {s : State} {q : Requester} {i k : Nat}

/-! ### Reads that reach their entry -/

/-- A read that passes the checks. -/
theorem dictRead_heard {r : Right} {row : Row} (h : Heard s q i k false r) (hrow : s.row? i k = some row)
    (hright : row.right = r) (hmute : r ≠ .mute := by exact nofun) :
    s.dictRead q i k = (0, encodeVal row.ty (s.readVal q i k), s.afterRead q i k) := by
  subst hright
  have hreach : ¬(!s.reaches q i k false row.right) = true := by simp [h.reached]
  have hread : ¬(row.right == .mute) = true := by simpa using hmute
  unfold State.dictRead
  rw [closed_of_running h.open' i false, hrow]
  dsimp only
  rw [if_neg hreach, if_neg hread]

/-- A read request that is answered with its value. -/
theorem runs_query {c : Instr} {u : State} {bs : List Byte} {P : State → Prop} (hq : s.answers q = true)
    (hexec : exec c s = .next (s.query q i k)) (hr : s.dictRead q i k = (0, bs, u))
    (hP : P (u.send (.response q 0 i k bs))) : Runs c s fun t => Answered q 0 i k bs t ∧ P t := by
  refine ⟨_, hexec, ?_⟩
  rw [query_answered s q i k hq, hr]
  exact ⟨answered_send bs, hP⟩

/-- A read request that is answered by a status. -/
theorem onlyAnswers_query {c : Instr} {st : Nat} (hq : s.answers q = true) (hexec : exec c s = .next (s.query q i k))
    (hr : s.dictRead q i k = (st, [], s)) : OnlyAnswers c s q st i k := by
  rw [OnlyAnswers, hexec, query_answered s q i k hq, hr]
  rfl

/-! ### A page of the mirror -/

theorem page_row (h1 : 1 ≤ k) (h4 : k ≤ 4) : ∃ ty, s.row? 0xC010 k = some (ro ty) := by
  interval_cases k <;> exact ⟨_, rfl⟩

theorem page_value (h1 : 1 ≤ k) : s.readVal q 0xC010 k = .b (s.mirrorPage q k (s.sel q).mirFirst (s.sel q).ten) := by
  unfold State.readVal
  rw [if_neg (by omega)]
  rfl

theorem page_after (h1 : 1 ≤ k) : s.afterRead q 0xC010 k = (s.touchSnap q 0xC010).afterPageRead q k := by
  unfold State.afterRead
  have harea : bits 0xC010 15 12 ≠ 3 := by decide
  rw [if_neg fun h => harea h.1, if_neg fun h => harea h.1, if_neg (by omega), if_neg (by omega), if_pos ⟨rfl, by omega⟩]

theorem pageRecords_of (h4 : k ≤ 4) (h1 : 1 ≤ k) : pageRecords k = if k = 1 then 64 else if k = 2 then 128 else 4096 := by
  interval_cases k <;> rfl

/-- The holder's snapshot was read just now. -/
theorem touchSnap_read (hi : 0xC000 ≤ i) {x : Snap} (hx : (s.touchSnap q i).snap = some x) (hq : x.holder = q) :
    x.lastRead = s.tm.now := by
  rw [State.touchSnap, if_pos hi] at hx
  obtain ⟨y, -, hy⟩ := Option.map_eq_some_iff.1 hx
  split at hy
  · rw [← hy]
  · next hne =>
    rw [← hy] at hq
    exact absurd (beq_iff_eq.2 hq) hne

theorem mirrorBlockRead_spec (h1 : 1 ≤ k) (h4 : k ≤ 4) (h : Heard s q 0xC010 k false .ro) :
    Runs (.mirrorBlockRead q k) s fun t => Answered q 0 0xC010 k (s.mirrorPage q k (s.sel q).mirFirst (s.sel q).ten) t ∧
      (t.sel q).mirFirst = ((s.sel q).mirFirst + if k = 1 then 64 else if k = 2 then 128 else 4096) % 65536 ∧
      ∀ x, t.snap = some x → x.holder = q → x.lastRead = s.tm.now := by
  obtain ⟨ty, hrow⟩ := page_row (s := s) h1 h4
  have hread := dictRead_heard h hrow rfl
  rw [page_value h1, page_after h1] at hread
  have hfirst : (((s.touchSnap q 0xC010).afterPageRead q k).sel q).mirFirst =
      ((s.sel q).mirFirst + if k = 1 then 64 else if k = 2 then 128 else 4096) % 65536 := by
    rw [← pageRecords_of h4 h1, State.afterPageRead, sel_setSel]
    rfl
  exact runs_query h.answered rfl hread ⟨hfirst, fun x hx hq => touchSnap_read (i := 0xC010) (by decide) hx hq⟩

/-! ### High-water marks -/

theorem loft_area {d : Nat} (hd : d < 8) : bits (0x3040 + 256 * d) 15 12 = 3 ∧ bits (0x3040 + 256 * d) 7 0 = 0x40 ∧
    bits (0x3040 + 256 * d) 11 8 = d := by
  interval_cases d <;> exact ⟨rfl, rfl, rfl⟩

theorem die_area {d : Nat} (hd : d < 16) : bits (0x3000 + 256 * d) 15 12 = 3 ∧ bits (0x3000 + 256 * d) 7 0 = 0 ∧
    bits (0x3000 + 256 * d) 11 8 = d := by
  interval_cases d <;> exact ⟨rfl, rfl, rfl⟩

theorem touchSnap_below (hi : i < 0xC000) : s.touchSnap q i = s := if_neg (by omega)

theorem loftRead_heard {d : Nat} (hd : d < 8) (h : Heard s q (0x3040 + 256 * d) 9 false .ro) :
    s.dictRead q (0x3040 + 256 * d) 9 =
      (0, leBytes 4 (s.arr ⟨d, mget 0 (s.sel q).loft d⟩).cnt.landHwm, s.afterLoftRead q d) := by
  obtain ⟨harea, hkind, hdie⟩ := loft_area hd
  have hrow : s.row? (0x3040 + 256 * d) 9 = some (ro .u32) := by
    unfold State.row? State.rowsOf
    rw [harea, hkind, hdie, if_pos rfl]
    dsimp only
    rw [if_pos hd]
    rfl
  have hval : s.readVal q (0x3040 + 256 * d) 9 = .n (s.arr ⟨d, mget 0 (s.sel q).loft d⟩).cnt.landHwm := by
    unfold State.readVal
    rw [harea, hkind, hdie]
    rfl
  have hafter : s.afterRead q (0x3040 + 256 * d) 9 = s.afterLoftRead q d := by
    unfold State.afterRead
    rw [touchSnap_below (by omega), harea, hkind, hdie]
    rfl
  rw [dictRead_heard h hrow rfl, hval, hafter]
  rfl

theorem loftLandHwmRead_spec {d : Nat} (hr : Rising s.arrs) (hd : d < 8) (h : Heard s q (0x3040 + 256 * d) 9 false .ro) :
    Runs (.loftLandHwmRead q d) s fun t =>
      let a : ArrId := ⟨d, mget 0 (s.sel q).loft d⟩
      Answered q 0 (0x3040 + 256 * d) 9 (leBytes 4 (s.arr a).cnt.landHwm) t ∧
      t.arr a = { s.arr a with cnt := { (s.arr a).cnt with landHwm := 0 } } :=
  runs_query h.answered (if_pos (decide_eq_true hd)) (loftRead_heard hd h) (State.arr_setArr_self hr ..)

theorem dieRead_heard {d : Nat} (hd : d < 16) (h : Heard s q (0x3000 + 256 * d) 3 false .ro) :
    s.dictRead q (0x3000 + 256 * d) 3 = (0, leInt 4 (s.die d).tempMax, s.afterTempRead d) := by
  obtain ⟨harea, hkind, hdie⟩ := die_area hd
  have hrow : s.row? (0x3000 + 256 * d) 3 = some (ro .s32) := by
    unfold State.row? State.rowsOf
    rw [harea, hkind, if_pos rfl]
    rfl
  have hval : s.readVal q (0x3000 + 256 * d) 3 = .i (s.die d).tempMax := by
    unfold State.readVal
    rw [harea, hkind, hdie]
    rfl
  have hafter : s.afterRead q (0x3000 + 256 * d) 3 = s.afterTempRead d := by
    unfold State.afterRead
    rw [touchSnap_below (by omega), harea, hkind, hdie]
    rfl
  rw [dictRead_heard h hrow rfl, hval, hafter]
  rfl

theorem dieTempMaxRead_spec {d : Nat} (hr : Rising s.dies) (hd : d < 16) (h : Heard s q (0x3000 + 256 * d) 3 false .ro) :
    Runs (.dieTempMaxRead q d) s fun t => Answered q 0 (0x3000 + 256 * d) 3 (leInt 4 (s.die d).tempMax) t ∧
      t.die d = { s.die d with tempMax := (s.die d).temp } :=
  runs_query h.answered (if_pos (decide_eq_true hd)) (dieRead_heard hd h)
    ((State.die_modDie hr d d fun x => { x with tempMax := x.temp }).trans (if_pos rfl))

theorem slotDelayMaxRead_spec (hr : Rising s.slotStats) (h : Heard s q 0x5020 5 false .ro) :
    Runs (.slotDelayMaxRead q) s fun t =>
      let x := mget {} s.slotStats (s.sel q).slot
      Answered q 0 0x5020 5 (leBytes 4 x.delayMax) t ∧ mget {} t.slotStats (s.sel q).slot = { x with delayMax := 0 } :=
  runs_query h.answered rfl (dictRead_heard h (row := ro .u32) rfl rfl)
    (mget_mset_self ({} : SlotStat) hr (s.sel q).slot _)

theorem domainSkewNsRead_spec (h : Heard s q 0x7000 16 false .ro) : Runs (.domainSkewNsRead q) s fun t =>
    Answered q 0 0x7000 16 (leBytes 4 s.tm.skew) t ∧ t.tm = { s.tm with skew := 0 } :=
  runs_query h.answered rfl (dictRead_heard h (row := ro .u32) rfl rfl) rfl

/-! ### BOOT and SAFE -/

theorem closed_area (hp : s.pw.part = .boot ∨ s.pw.part = .safe) (h1 : i ≠ 0x1000) (h6 : bits i 15 12 ≠ 6) :
    s.dictRead q i k = (if s.pw.part = .boot then 7 else 8, [], s) := by
  have hclosed : s.closed i false = some (if s.pw.part = .boot then 7 else 8) := by
    rw [State.closed]
    rcases hp with hp | hp <;> rw [hp]
    · exact if_neg h1
    · exact if_neg (by simp [h1, h6])
  rw [State.dictRead, hclosed]

theorem read_refused (hq : s.answers q = true) (hp : s.pw.part = .boot ∨ s.pw.part = .safe) :
    let c := if s.pw.part = .boot then 7 else 8
    OnlyAnswers (.slotDelayMaxRead q) s q c 0x5020 5 ∧ OnlyAnswers (.domainSkewNsRead q) s q c 0x7000 16 ∧
    (∀ k, OnlyAnswers (.mirrorBlockRead q k) s q c 0xC010 k) ∧
    (∀ d < 8, OnlyAnswers (.loftLandHwmRead q d) s q c (0x3040 + 256 * d) 9) ∧
    (∀ d < 16, OnlyAnswers (.dieTempMaxRead q d) s q c (0x3000 + 256 * d) 3) := by
  refine ⟨?_, ?_, fun k => ?_, fun d hd => ?_, fun d hd => ?_⟩
  · exact onlyAnswers_query hq rfl (closed_area hp (by decide) (by decide))
  · exact onlyAnswers_query hq rfl (closed_area hp (by decide) (by decide))
  · exact onlyAnswers_query hq rfl (closed_area hp (by decide) (by decide))
  · refine onlyAnswers_query hq (if_pos (decide_eq_true hd)) (closed_area hp (by omega) ?_)
    rw [(loft_area hd).1]
    decide
  · refine onlyAnswers_query hq (if_pos (decide_eq_true hd)) (closed_area hp (by omega) ?_)
    rw [(die_area hd).1]
    decide

end

/-- Settles O57: a read that reaches its entry answers its value and leaves what the entry's read leaves. -/
theorem readsAnswerAndRestart : Obligations.ReadsAnswerAndRestart := by
  unfold Obligations.ReadsAnswerAndRestart
  rintro s q ⟨harrs, hdies, -⟩ hslots
  exact ⟨fun k h1 h4 h => mirrorBlockRead_spec h1 h4 h, fun d hd h => loftLandHwmRead_spec harrs hd h,
    slotDelayMaxRead_spec hslots, domainSkewNsRead_spec, fun d hd h => dieTempMaxRead_spec hdies hd h, read_refused⟩

end Sys2Proof.Machine
end

section
/-! The ways to the dictionary: the mailbox, MCTP and fragments (R426..R430). -/

namespace Sys2Proof.Machine

open Sys2Proof.Stated

section
variable {s t u : State} {q : Requester} {i k : Nat}

/-! ### Functions that a write leaves there -/

namespace SameFns

theorem enableStream (h : SameFns Fn.unpended s t) (n : Nat) : SameFns Fn.unpended s (t.enableStream n).2 := by
  have hset (x : Stream) : SameFns Fn.unpended s (t.setStream n x) := h.congr rfl
  simp only [State.enableStream]
  split_ifs
  · exact h
  · exact h
  · exact hset _
  · exact (hset _).flush
  · exact hset _

theorem disableStream (h : SameFns Fn.unpended s t) (n : Nat) : SameFns Fn.unpended s (t.disableStream n).2 := by
  have hset (x : Stream) : SameFns Fn.unpended s (t.setStream n x) := h.congr rfl
  simp only [State.disableStream]
  split
  · exact h
  · exact h
  · exact (hset _).flush

theorem writeStream (h : SameFns Fn.unpended s t) (q : Requester) (i k v : Nat) :
    SameFns Fn.unpended s (t.writeStream q i k v).2 := by
  have hsel (x : Sel) : SameFns Fn.unpended s (t.setSel q x) := h.congr rfl
  have hset (x : Stream) : SameFns Fn.unpended s (t.setStream (t.sel q).str x) := h.congr rfl
  simp only [State.writeStream]
  split_ifs
  · exact hsel _
  · exact h.enableStream _
  · exact h.disableStream _
  · exact resetStream_unpended h _
  · exact h
  · exact hset _

end SameFns

/-- A write that is not one of a stream leaves the functions. -/
theorem writeVal_fns (bs : List Byte) (h : bits i 15 12 = 4 → i < 0x4800) :
    Keeps [.pw, .tm, .en, .pc, .vs, .tenants, .drrQuantum, .keys, .uploads, .installs, .streams, .jobs, .jobSeq, .runs, .arrs,
      .dies, .hubs, .mem, .links, .dom, .sec, .hm, .sels, .snap, .trace, .dump, .hostMem, .free, .out] s
      (s.writeVal q i k bs).2 := by
  simp only [State.writeVal]
  split
  · split
    · split
      · exact (Keeps.refl _).setEnable
      · exact (Keeps.refl _).clearEnable
    · exact (Keeps.refl _).askReset
  · exact (Keeps.refl _).writeDieSel
  · next h4 =>
    rw [if_pos (h h4)]
    exact (Keeps.refl _).writeTenant
  · exact (Keeps.refl _).writePlan
  · exact (Keeps.refl _).writeHealth
  · exact (Keeps.refl _).writeLinks
  · exact (Keeps.refl _).writeLinks
  · exact (Keeps.refl _).writeSec
  · exact (Keeps.refl _).writeTools
  · exact (Keeps.refl _).writeTools
  · exact (Keeps.refl _).writeMirror

theorem dictWrite_fns (hr : Rising s.fns) (bs : List Byte) : Rising (s.dictWrite q i k bs).2.fns := by
  rcases dictWrite_cases s q i k bs with ⟨c, -, hc⟩ | hw
  · rw [hc]
    exact hr
  · rw [hw]
    by_cases hstream : bits i 15 12 = 4 ∧ ¬i < 0x4800
    · have heq : s.writeVal q i k bs = s.writeStream q i k (leNat bs) := by
        unfold State.writeVal
        rw [hstream.1]
        exact if_neg hstream.2
      rw [heq]
      exact ((SameFns.refl hr).writeStream q i k _).rising
    · rw [(writeVal_fns bs fun h4 => by_contra fun hlt => hstream ⟨h4, hlt⟩).same .fns (by decide)]
      exact hr

/-! ### The mailbox -/

variable {f : FnId} {m : MboxReq}

/-- The mailbox at the end of a request. -/
def Fn.answered (x : Fn) (m : MboxReq) (status len : Nat) (value : List Byte) : Fn :=
  { x with op := m.op, status := status, tag := m.tag, index := m.index, sub := m.sub, len := len, go := 0, value := value }

theorem mboxDone_fn (hr : Rising s.fns) (status len : Nat) (value : List Byte) :
    (s.mboxDone f m status len value).fn f = (s.fn f).answered m status len value :=
  (State.fn_setFn hr f f _).trans (if_pos rfl)

theorem exec_mailboxGo (hf : f.wf = true) :
    exec (.mailboxGo f m) s = .next (if s.answers (.fn f) then s.mboxServe f m else s) := by
  show execMailboxGo f m s = _
  rw [execMailboxGo, hf, need_true]

theorem mboxServe_read (h : m.op = 1) : s.mboxServe f m = (s.dictRead (.fn f) m.index m.sub).2.2.mboxDone f m
    (s.dictRead (.fn f) m.index m.sub).1
    (if (s.dictRead (.fn f) m.index m.sub).1 = 0 then (s.dictRead (.fn f) m.index m.sub).2.1.length else 0)
    (if (s.dictRead (.fn f) m.index m.sub).1 = 0 then (s.dictRead (.fn f) m.index m.sub).2.1 else m.value) := by
  unfold State.mboxServe
  rw [h]
  rfl

theorem mboxServe_write (h : m.op = 2) : s.mboxServe f m = (s.dictWrite (.fn f) m.index m.sub m.value).2.mboxDone f m
    (s.dictWrite (.fn f) m.index m.sub m.value).1 m.value.length m.value := by
  unfold State.mboxServe
  rw [h]
  rfl

theorem mboxServe_other (h1 : m.op ≠ 1) (h2 : m.op ≠ 2) :
    s.mboxServe f m = s.freshWord.2.mboxDone f m (s.freshWord.1.toNat % 256) m.value.length m.value := by
  unfold State.mboxServe
  split
  · next h => exact absurd h h1
  · next h => exact absurd h h2
  · rfl

theorem mailbox_spec (hf : f.wf = true) (hr : Rising s.fns) :
    (s.answers (.fn f) = false → exec (.mailboxGo f m) s = .next s) ∧
    (s.answers (.fn f) = true → m.op = 1 →
      let r := s.dictRead (.fn f) m.index m.sub
      Runs (.mailboxGo f m) s fun t => t.fn f = { s.fn f with
        op := 1, status := r.1, tag := m.tag, index := m.index, sub := m.sub, go := 0
        len := if r.1 = 0 then r.2.1.length else 0, value := if r.1 = 0 then r.2.1 else m.value }) ∧
    (s.answers (.fn f) = true → m.op = 2 → Runs (.mailboxGo f m) s fun t => (t.fn f).go = 0 ∧ (t.fn f).tag = m.tag ∧
      (t.fn f).status = (s.dictWrite (.fn f) m.index m.sub m.value).1) ∧
    (s.answers (.fn f) = true → m.op ≠ 1 → m.op ≠ 2 → Runs (.mailboxGo f m) s fun t => (t.fn f).go = 0 ∧
      (t.fn f).tag = m.tag ∧ t.dom = s.dom ∧ t.tenants = s.tenants) := by
  rw [exec_mailboxGo hf]
  refine ⟨fun ha => by rw [ha]; rfl, fun ha h => ?_, fun ha h => ?_, fun ha h1 h2 => ?_⟩
  all_goals have hexec := exec_mailboxGo (s := s) (m := m) hf
  all_goals rw [if_pos ha] at hexec
  · have hfns : (s.dictRead (.fn f) m.index m.sub).2.2.fns = s.fns :=
      (Keeps.dictRead (F := [.tm, .slotStats, .arrs, .dies, .sels, .snap]) (.refl s)).same .fns (by decide)
    refine ⟨_, hexec, ?_⟩
    show (s.mboxServe f m).fn f = _
    rw [mboxServe_read h, mboxDone_fn (hfns ▸ hr), Fn.answered, h, State.fn, hfns, State.fn]
  · refine ⟨_, hexec, ?_⟩
    have hfn := mboxDone_fn (s := (s.dictWrite (.fn f) m.index m.sub m.value).2) (f := f) (m := m) (dictWrite_fns hr m.value)
      (s.dictWrite (.fn f) m.index m.sub m.value).1 m.value.length m.value
    rw [← mboxServe_write h] at hfn
    exact ⟨congrArg Fn.go hfn, congrArg Fn.tag hfn, congrArg Fn.status hfn⟩
  · refine ⟨_, hexec, ?_⟩
    have hfn := mboxDone_fn (s := s.freshWord.2) (f := f) (m := m) hr (s.freshWord.1.toNat % 256) m.value.length m.value
    have hk : Keeps [.fns, .free] s (s.freshWord.2.mboxDone f m (s.freshWord.1.toNat % 256) m.value.length m.value) :=
      (Keeps.refl s).freshWord.mboxDone
    rw [← mboxServe_other h1 h2] at hfn hk
    exact ⟨congrArg Fn.go hfn, congrArg Fn.tag hfn, hk.same .dom (by decide), hk.same .tenants (by decide)⟩

/-! ### Fragments -/

variable {tag : Nat} {r : FragRun}

theorem fragRun?_congr (h : u.dom = s.dom) : u.fragRun? q tag = s.fragRun? q tag := by
  rw [State.fragRun?, h, State.fragRun?]

theorem dropFrag_none : (s.dropFrag q tag).fragRun? q tag = none := by
  refine List.find?_eq_none.2 fun x hx => ?_
  simpa [imp_iff_not_or] using (List.mem_filter.1 hx).2

theorem dropFrag_of_none (h : s.fragRun? q tag = none) : s.dropFrag q tag = s := by
  have hall : (s.dom.frags.filter fun r => !(r.who == q && r.tag == tag)) = s.dom.frags :=
    List.filter_eq_self.2 fun x hx => by simpa [imp_iff_not_or] using List.find?_eq_none.1 h x hx
  rw [State.dropFrag, hall]

section
variable {size idx sub frag : Nat} {value : List Byte}

/-- A first fragment that is also the last. -/
theorem takeFrag_whole (h : s.fragRun? q tag = none) (hlen : value.length < size) :
    s.takeFrag size q tag idx sub 0 value = (some (s.dictWrite q idx sub value), s) := by
  have hfollows : (0 % 256 == 0 && idx == idx && sub == sub && decide (value.length ≤ size)) = true := by
    simp [hlen.le]
  unfold State.takeFrag
  rw [h, dropFrag_of_none h]
  dsimp only
  rw [hfollows, Bool.not_true, if_neg nofun, if_pos hlen]
  rfl

/-- A first fragment that more follow. -/
theorem takeFrag_first (h : s.fragRun? q tag = none) (hlen : value.length = size) :
    s.takeFrag size q tag idx sub 0 value = (none, { s with dom := { s.dom with
      frags := s.dom.frags ++ [{ who := q, tag := tag, index := idx, sub := sub, got := value, next := 1 }] } }) := by
  have hfollows : (0 % 256 == 0 && idx == idx && sub == sub && decide (value.length ≤ size)) = true := by
    simp [hlen.le]
  unfold State.takeFrag
  rw [h, dropFrag_of_none h]
  dsimp only
  rw [hfollows, Bool.not_true, if_neg nofun, if_neg (by omega)]
  rfl

/-- A fragment out of order. -/
theorem takeFrag_misplaced (h : s.fragRun? q tag = some r) (hfrag : frag ≠ r.next % 256) :
    s.takeFrag size q tag idx sub frag value = (some (3, s.dropFrag q tag), s.dropFrag q tag) := by
  have hnext : (r.next % 256 == frag) = false := beq_false_of_ne hfrag.symm
  unfold State.takeFrag
  rw [h]
  dsimp only
  rw [hnext]
  rfl

/-- The last fragment. -/
theorem takeFrag_last (h : s.fragRun? q tag = some r) (hidx : r.index = idx) (hsub : r.sub = sub)
    (hlen : value.length < size) :
    s.takeFrag size q tag idx sub (r.next % 256) value =
      (some ((s.dropFrag q tag).dictWrite q idx sub (r.got ++ value)), s.dropFrag q tag) := by
  have hfollows : (r.next % 256 == r.next % 256 && r.index == idx && r.sub == sub && decide (value.length ≤ size)) = true
    := by
    simp [hlen.le, hidx, hsub]
  unfold State.takeFrag
  rw [h]
  dsimp only
  rw [hfollows, Bool.not_true, if_neg nofun, if_pos hlen]

end

/-! ### MCTP -/

theorem exec_mctp (hp : s.pw.part ≠ .off) (m : MctpMsg) : exec (.mctpDictionaryMessage m) s = .next (s.takeMctp m) := by
  show execMctpDictionaryMessage m s = _
  rw [execMctpDictionaryMessage, State.i3cUp, State.powered_of_ne hp]
  rfl

theorem takeMctp_read {m : MctpMsg} (h : m.op = 1) : s.takeMctp m = s.query .mctp m.index m.sub := by
  unfold State.takeMctp
  rw [h]
  rfl

theorem takeMctp_status {m : MctpMsg} {st : Nat} {v : State} (h : m.op = 2)
    (ht : s.takeFrag 1024 .mctp m.tag m.index m.sub m.frag m.value = (some (st, u), v)) :
    s.takeMctp m = u.send (.response .mctp st m.index m.sub []) := by
  unfold State.takeMctp
  rw [h, ht]
  rfl

theorem takeMctp_open {m : MctpMsg} (h : m.op = 2)
    (ht : s.takeFrag 1024 .mctp m.tag m.index m.sub m.frag m.value = (none, u)) : s.takeMctp m = u := by
  unfold State.takeMctp
  rw [h, ht]
  rfl

theorem mctp_spec (m : MctpMsg) (hp : s.pw.part ≠ .off) :
    (m.op = 1 → Runs (.mctpDictionaryMessage m) s (Answered .mctp (s.dictRead .mctp m.index m.sub).1 m.index m.sub
      (s.dictRead .mctp m.index m.sub).2.1)) ∧
    (m.op = 2 → s.fragRun? .mctp m.tag = none → m.frag = 0 →
      (m.value.length < 1024 → Runs (.mctpDictionaryMessage m) s
        (Answered .mctp (s.dictWrite .mctp m.index m.sub m.value).1 m.index m.sub [])) ∧
      (m.value.length = 1024 → exec (.mctpDictionaryMessage m) s = .next { s with dom := { s.dom with frags := s.dom.frags ++
        [{ who := .mctp, tag := m.tag, index := m.index, sub := m.sub, got := m.value, next := 1 }] } })) ∧
    (∀ r, m.op = 2 → s.fragRun? .mctp m.tag = some r →
      (m.frag ≠ r.next % 256 → Runs (.mctpDictionaryMessage m) s fun t => Answered .mctp 3 m.index m.sub [] t ∧
        t.fragRun? .mctp m.tag = none) ∧
      (m.frag = r.next % 256 → r.index = m.index → r.sub = m.sub → m.value.length < 1024 →
        Runs (.mctpDictionaryMessage m) s
          (Answered .mctp ((s.dropFrag .mctp m.tag).dictWrite .mctp m.index m.sub (r.got ++ m.value)).1 m.index m.sub [])))
            := by
  have hexec := exec_mctp hp m
  refine ⟨fun h => ?_, fun h hopen hfrag => ⟨fun hlen => ?_, fun hlen => ?_⟩, fun r h hopen => ⟨fun hfrag => ?_,
    fun hfrag hidx hsub hlen => ?_⟩⟩
  · rw [takeMctp_read h, query_answered s .mctp m.index m.sub ((Bool.and_true _).trans (State.powered_of_ne hp))] at hexec
    exact ⟨_, hexec, answered_send _⟩
  · rw [takeMctp_status h (hfrag ▸ takeFrag_whole hopen hlen)] at hexec
    exact ⟨_, hexec, answered_send _⟩
  · rw [hexec, takeMctp_open h (hfrag ▸ takeFrag_first hopen hlen)]
  · rw [takeMctp_status h (takeFrag_misplaced hopen hfrag)] at hexec
    exact ⟨_, hexec, answered_send _, dropFrag_none⟩
  · rw [takeMctp_status h (hfrag ▸ takeFrag_last hopen hidx hsub hlen)] at hexec
    exact ⟨_, hexec, answered_send _⟩

/-- A fragmented write whose next fragment stays away. -/
theorem fragmentTimeout_spec (h : s.fragRun? q tag = some r) :
    (Runs (.fragmentTimeout q tag) s fun t => t.fragRun? q tag = none) ∧
    ((∀ p j, q ≠ .remote p j) → Runs (.fragmentTimeout q tag) s (Answered q 3 r.index r.sub [])) := by
  have hexec : exec (.fragmentTimeout q tag) s = execFragmentTimeout q tag s := rfl
  rw [execFragmentTimeout, h] at hexec
  cases q with
  | remote p j =>
    refine ⟨⟨_, hexec, ?_⟩, fun hne => absurd rfl (hne p j)⟩
    have hk (u : State) (m : MgmtMsg) : Keeps [.links, .out] u (u.mgmtAnswer j m 3 []) := (Keeps.refl u).mgmtAnswer
    exact (fragRun?_congr ((hk _ _).same .dom (by decide))).trans dropFrag_none
  | fn f => exact ⟨⟨_, hexec, dropFrag_none⟩, fun _ => ⟨_, hexec, answered_send _⟩⟩
  | mctp => exact ⟨⟨_, hexec, dropFrag_none⟩, fun _ => ⟨_, hexec, answered_send _⟩⟩

/-- The control messages of MCTP, and a management request whose time ends. -/
theorem mctpControl_spec (hp : s.pw.part ≠ .off) :
    (∀ a, exec (.entdaa a) s =
      .next (if 8 ≤ a ∧ a ≤ 0x7D then { s with mctp := { s.mctp with dynAddr := a } } else s)) ∧
    (∀ e, 1 ≤ e → e ≤ 0xFE → exec (.setEndpointId e) s = .next { s with
      mctp := { s.mctp with eid := e }, out := s.out ++ [.mctp 1 [0, 0, BitVec.ofNat 8 e, 0]] }) ∧
    (∀ e, e = 0 ∨ e = 0xFF → exec (.setEndpointId e) s = .next { s with out := s.out ++ [.mctp 1 [2]] }) ∧
    (Runs .getEndpointId s fun t => t.mctp = s.mctp ∧
      ∃ b, t.out = s.out ++ [.mctp 2 [0, BitVec.ofNat 8 s.mctp.eid, 0, b]]) ∧
    (Runs .getMctpVersionSupport s fun t => ∃ bs, bs.length = 4 ∧ t.out = s.out ++ [.mctp 4 ([0, 1] ++ bs)]) ∧
    exec .getMessageTypeSupport s = .next { s with out := s.out ++ [.mctp 5 [0, 1, 0x7F]] } ∧
    (Runs .getVendorDefinedMsgSupport s fun t => ∃ bs, bs.length = 2 ∧
      t.out = s.out ++ [.mctp 6 ([0, 0xFF, 1] ++ (leBytes 4 Config.iana.toNat).reverse ++ bs)]) ∧
    (∀ tag, exec (.mgmtTimeout tag) s =
      .next { s with dom := { s.dom with mgmtTimeouts := bump s.dom.mgmtTimeouts } }) := by
  have hup : s.i3cUp = true := State.powered_of_ne hp
  have hlen (n : Nat) : (s.freshBytes n).1.length = n := by
    rw [State.freshBytes, List.length_map, List.length_range]
  refine ⟨fun a => ?_, fun e h1 h2 => ?_, fun e he => ?_, ⟨_, congrArg Host.Outcome.next (if_pos hup), rfl, _, rfl⟩,
    ⟨_, congrArg Host.Outcome.next (if_pos hup), _, hlen 4, rfl⟩, congrArg Host.Outcome.next (if_pos hup),
    ⟨_, congrArg Host.Outcome.next (if_pos hup), _, hlen 2, rfl⟩, fun tag =>
      congrArg Host.Outcome.next (if_pos (State.powered_of_ne hp))⟩
  · show execEntdaa a s = _
    rw [execEntdaa, hup]
    simp only [Bool.true_and, decide_eq_true_eq]
  · show execSetEndpointId e s = _
    rw [execSetEndpointId, hup, Bool.not_true, if_neg nofun, if_pos ⟨h1, h2⟩]
    rfl
  · show execSetEndpointId e s = _
    rw [execSetEndpointId, hup, Bool.not_true, if_neg nofun, if_neg (by omega)]
    rfl

end

end Sys2Proof.Machine
end

section
/-! The management channel (R378, R379), and O58. -/

namespace Sys2Proof.Machine

open Sys2Proof.Stated

section
variable {s u : State} {r : Rx} {m : MgmtMsg} {k op : Nat}

/-! ### Messages that are received -/

theorem receiveMgmt_accepted (h : Accepted s r) (f : State → State) : s.receiveMgmt r op m f =
    if m.dst != s.dom.pkgAddr then (s.takeFrame r).mgmtSend r.link op m
    else if (s.takeFrame r).powered then f (s.takeFrame r) else s.takeFrame r := by
  obtain ⟨-, hcarried, ⟨hcrc, htag⟩, horder, hsession⟩ := h
  rw [State.receiveMgmt, receive_accepted s r true false _ hcarried hcrc htag horder hsession, takeFrame_dom]

/-- A message for another package goes on. -/
theorem receiveMgmt_onward (h : Accepted s r) (hd : m.dst ≠ s.dom.pkgAddr) (f : State → State) :
    s.receiveMgmt r op m f = (s.takeFrame r).mgmtSend r.link op m :=
  (receiveMgmt_accepted h f).trans (if_pos (bne_iff_ne.2 hd))

/-- A message for this package is acted on. -/
theorem receiveMgmt_here (h : Accepted s r) (hd : m.dst = s.dom.pkgAddr) (hp : s.pw.part ≠ .off) (f : State → State) :
    s.receiveMgmt r op m f = f (s.takeFrame r) := by
  have hpower : (s.takeFrame r).powered = true := by
    rw [State.powered, takeFrame_keeps.pw]
    exact State.powered_of_ne hp
  rw [receiveMgmt_accepted h f, hpower, hd]
  simp

/-! ### Messages that are sent -/

theorem mgmtSend_routed (hk : s.mgmtLink m.dst = some k) (hup : (s.link k).up = true) (hs : (s.link k).session = true)
    (j : Nat) : s.mgmtSend j op m = s.txFrame k 255 (.mgmt op m) := by
  rw [State.mgmtSend, hk]
  dsimp only
  rw [hup, hs]
  rfl

theorem mgmtSend_lost (hk : s.mgmtLink m.dst = none) (j : Nat) : s.mgmtSend j op m = s.noRoute j := by
  rw [State.mgmtSend, hk]

/-- A frame that leaves at once is the last thing sent. -/
theorem txFrame_sent (hup : (s.link k).up = true) (hroom : (s.link k).replay.length < 1024) (c : Nat) (f : FrameOut) :
    (s.txFrame k c f).out.getLast? = some (.frame k ((s.link k).frame c f) ((s.link k).frame c f).bytes) := by
  have hopen : ¬(!(s.link k).open?) = true := by simp [Link.open?, hup]
  rw [State.txFrame]
  dsimp only
  rw [if_neg hopen, if_pos hroom]
  exact List.getLast?_concat ..

/-- The answer of one frame to a management request. -/
def State.mgmtReply (v : State) (m : MgmtMsg) (k status : Nat) (value : List Byte) : Out :=
  let y := (v.link k).frame 255 (.mgmt 3 ⟨m.src, v.dom.pkgAddr, status, m.tag, m.index, m.sub, 0, value⟩)
  .frame k y y.bytes

theorem fragsOf_short {bs : List Byte} (h : bs.length < 224) : fragsOf 224 bs = [(0, bs)] := by
  rw [fragsOf, Nat.div_eq_of_lt h]
  show [(0 % 256, (bs.drop (0 * 224)).take 224)] = [(0, bs)]
  rw [Nat.zero_mul, List.drop_zero, List.take_of_length_le h.le]

theorem mgmtAnswer_sent {status : Nat} {value : List Byte} (hlen : value.length < 224) (hk : s.mgmtLink m.src = some k)
    (hup : (s.link k).up = true) (hs : (s.link k).session = true) (hroom : (s.link k).replay.length < 1024) (j : Nat) :
    (s.mgmtAnswer j m status value).out.getLast? = some (s.mgmtReply m k status value) := by
  have heq : s.mgmtAnswer j m status value =
      s.mgmtSend j 3 ⟨m.src, s.dom.pkgAddr, status, m.tag, m.index, m.sub, 0, value⟩ := by
    rw [State.mgmtAnswer, fragsOf_short hlen]
    rfl
  rw [heq, mgmtSend_routed hk hup hs]
  exact txFrame_sent hup hroom 255 _

theorem mgmtLink_congr (hd : u.dom = s.dom) (hl : u.links = s.links) (p : Nat) : u.mgmtLink p = s.mgmtLink p := by
  have hlink (j : Nat) : u.link j = s.link j := State.link_congr hl j
  simp only [State.mgmtLink, hd, hlink]

/-! ### The three messages -/

theorem exec_mgmtRead (h : r.wf = true) : exec (.mgmtRead r m) s = .next (s.receiveMgmt r 1 m fun u =>
    (u.dictRead (.remote m.src r.link) m.index m.sub).2.2.mgmtAnswer r.link m
      (u.dictRead (.remote m.src r.link) m.index m.sub).1 (u.dictRead (.remote m.src r.link) m.index m.sub).2.1) := if_pos h

/-- A write that ends is answered by its status. -/
theorem exec_mgmtWrite (h : r.wf = true) : ∃ f : State → State, exec (.mgmtWrite r m) s = .next (s.receiveMgmt r 2 m f) ∧
    ∀ u t v st, u.takeFrag 224 (.remote m.src r.link) m.tag m.index m.sub m.frag m.value = (some (st, t), v) →
      f u = t.mgmtAnswer r.link m st [] := by
  refine ⟨_, if_pos h, fun u t v st ht => ?_⟩
  dsimp only
  rw [ht]

theorem exec_mgmtResponse (h : r.wf = true) : exec (.mgmtResponse r m) s = .next (s.receiveMgmt r 3 m fun u =>
    u.send (.response (.remote m.src r.link) m.status m.index m.sub m.value)) := if_pos h

/-- Each message for another package is received as one that goes on. -/
theorem exec_mgmt (h : r.wf = true) : ∀ e ∈ [(Instr.mgmtRead r m, 1), (Instr.mgmtWrite r m, 2), (Instr.mgmtResponse r m, 3)],
    ∃ f : State → State, exec e.1 s = .next (s.receiveMgmt r e.2 m f) := by
  obtain ⟨f, hf, -⟩ := exec_mgmtWrite (s := s) (m := m) h
  simp only [List.forall_mem_cons, List.not_mem_nil, false_implies, implies_true, and_true]
  exact ⟨⟨_, exec_mgmtRead h⟩, ⟨f, hf⟩, ⟨_, exec_mgmtResponse h⟩⟩

theorem mgmtOnward_spec (h : Accepted s r) (hd : m.dst ≠ s.dom.pkgAddr) :
    ∀ e ∈ [(Instr.mgmtRead r m, 1), (Instr.mgmtWrite r m, 2), (Instr.mgmtResponse r m, 3)],
      (∀ k, (s.takeFrame r).mgmtLink m.dst = some k → ((s.takeFrame r).link k).up = true →
        ((s.takeFrame r).link k).session = true → exec e.1 s = .next ((s.takeFrame r).txFrame k 255 (.mgmt e.2 m))) ∧
      ((s.takeFrame r).mgmtLink m.dst = none → exec e.1 s = .next ((s.takeFrame r).setLink r.link
        { (s.takeFrame r).link r.link with noroute := bump ((s.takeFrame r).link r.link).noroute })) := by
  intro e he
  obtain ⟨f, hf⟩ := exec_mgmt (s := s) h.wf e he
  rw [receiveMgmt_onward h hd f] at hf
  refine ⟨fun k hk hup hs => ?_, fun hk => ?_⟩
  · rw [hf, mgmtSend_routed hk hup hs]
  · rw [hf, mgmtSend_lost hk]
    rfl

theorem mgmtRead_spec (h : Accepted s r) (hd : m.dst = s.dom.pkgAddr) (hp : s.pw.part ≠ .off)
    (hk : (s.takeFrame r).mgmtLink m.src = some k) (hup : ((s.takeFrame r).link k).up = true)
    (hs : ((s.takeFrame r).link k).session = true) (hroom : ((s.takeFrame r).link k).replay.length < 1024)
    (hlen : ((s.takeFrame r).dictRead (.remote m.src r.link) m.index m.sub).2.1.length < 224) :
    Runs (.mgmtRead r m) s fun t => t.out.getLast? = some ((s.takeFrame r).mgmtReply m k
      ((s.takeFrame r).dictRead (.remote m.src r.link) m.index m.sub).1
      ((s.takeFrame r).dictRead (.remote m.src r.link) m.index m.sub).2.1) := by
  refine ⟨_, exec_mgmtRead h.wf, ?_⟩
  rw [receiveMgmt_here h hd hp]
  generalize s.takeFrame r = u at hk hup hs hroom hlen ⊢
  have hread : Keeps [.tm, .slotStats, .arrs, .dies, .sels, .snap] u (u.dictRead (.remote m.src r.link) m.index m.sub).2.2 :=
    (Keeps.refl u).dictRead
  have hdom := hread.same .dom (by decide)
  have hlinks := hread.same .links (by decide)
  have hlink : (u.dictRead (.remote m.src r.link) m.index m.sub).2.2.link k = u.link k := State.link_congr hlinks k
  have hsent := mgmtAnswer_sent (status := (u.dictRead (.remote m.src r.link) m.index m.sub).1) hlen
    ((mgmtLink_congr hdom hlinks m.src).trans hk) (hlink.symm ▸ hup) (hlink.symm ▸ hs) (hlink.symm ▸ hroom) r.link
  rw [hsent, State.mgmtReply, hlink, hdom, State.mgmtReply]

theorem mgmtWrite_spec (h : Accepted s r) (hd : m.dst = s.dom.pkgAddr) (hp : s.pw.part ≠ .off)
    (hopen : (s.takeFrame r).fragRun? (.remote m.src r.link) m.tag = none) (hfrag : m.frag = 0) (hlen : m.value.length < 224)
    {w : Nat × State} (hw : (s.takeFrame r).dictWrite (.remote m.src r.link) m.index m.sub m.value = w)
    (hk : w.2.mgmtLink m.src = some k) (hup : (w.2.link k).up = true) (hs : (w.2.link k).session = true)
    (hroom : (w.2.link k).replay.length < 1024) :
    Runs (.mgmtWrite r m) s fun t => t.out.getLast? = some (w.2.mgmtReply m k w.1 []) := by
  obtain ⟨f, hf, hanswer⟩ := exec_mgmtWrite (s := s) (m := m) h.wf
  refine ⟨_, hf, ?_⟩
  have hwhole := takeFrag_whole (idx := m.index) (sub := m.sub) hopen hlen
  rw [hw, ← hfrag] at hwhole
  rw [receiveMgmt_here h hd hp, hanswer _ _ _ _ hwhole]
  exact mgmtAnswer_sent (by decide) hk hup hs hroom r.link

theorem mgmtResponse_spec (h : Accepted s r) (hd : m.dst = s.dom.pkgAddr) (hp : s.pw.part ≠ .off) :
    exec (.mgmtResponse r m) s = .next { s.takeFrame r with out := (s.takeFrame r).out ++
      [.response (.remote m.src r.link) m.status m.index m.sub m.value] } := by
  rw [exec_mgmtResponse h.wf, receiveMgmt_here h hd hp]
  rfl

end

/-- Settles O58: the mailbox, MCTP, fragments, the control messages, and the management channel. -/
theorem messagesReachTheDictionary : Obligations.MessagesReachTheDictionary := by
  unfold Obligations.MessagesReachTheDictionary
  refine ⟨fun s f m hf hr => mailbox_spec hf hr, fun s m hp => mctp_spec m hp, fun s q tag r h => fragmentTimeout_spec h,
    fun s hp => mctpControl_spec hp, fun s r m h => ⟨fun hd => ?_, fun hd hp => ⟨?_, fun k hk hup hs hroom hlen => ?_,
      fun k hopen hfrag hlen => ?_⟩⟩⟩
  · exact mgmtOnward_spec h hd
  · exact mgmtResponse_spec h hd hp
  · exact mgmtRead_spec h hd hp hk hup hs hroom hlen
  · intro w hk hup hs hroom
    exact mgmtWrite_spec h hd hp hopen hfrag hlen rfl hk hup hs hroom

end Sys2Proof.Machine
end

end
